-- ==== Sys2Proof/Word.lean ====
section
/-! DEFINITION. The word types of the HG960's register space and memory: a byte, a 32-bit
register (R11), a 64-bit quantity (R11, R21), and the plainest arithmetic on them. -/

namespace Sys2Proof

/-- One byte of persistent space or of a payload. -/
abbrev Byte := BitVec 8

/-- One register: all registers are 32 bits wide (R11). -/
abbrev Word := BitVec 32

/-- A 64-bit quantity: a `_LO`/`_HI` pair (R11), a persist sequence (R21), an atomic's operand. -/
abbrev DWord := BitVec 64

end Sys2Proof
end

