-- ==== Sys2Proof/Config.lean ====
section
/-! DEFINITION. What the spec leaves open: the FREE VALUES (opaque, no body, so no proof can see
them) and the numbers an implementation fixes. Each free value is applied to a counter that State
holds (`State.fresh`), or to the operands it depends on, and has a row in the assumption log. -/

namespace Sys2Proof.Config

/-- FREE VALUE: a random number that the spec draws (a starting PSN of R139, the EPOCH of R443 at
a cold reset, the challenge of R561, an SPDM or keying nonce). Applied to `State.fresh`. -/
opaque random : Nat → Nat

/-- FREE VALUE: the secret bytes that a cryptographic operation of chapter 13 gives (a signature, a
KEM ciphertext, a derived key, a digest), a function of what it is computed over. -/
opaque crypto : List Nat → Nat

/-- FREE VALUE: bytes of a body that the spec says firmware or the manufacturer defines (factory MAC
addresses, certificate bytes, health-record RESULT policy, DIMM serials). -/
opaque firmwareDefined : Nat → Nat

/-- FREE VALUE: word or byte `i` of something whose layout or contents firmware or the manufacturer defines, as a function of
what it is made from: the appliance record, the DRAM health record, a certificate, a version that no field gives. -/
opaque firmwareLayout : Nat → List Nat → Nat

/-- FREE VALUE: a choice that the spec does not fix between several that it permits (a tile sampled
at random in WATCH, R480; an idle engine self-tested, R479). Applied to `State.fresh`. -/
opaque choice : Nat → Nat

/-- FREE VALUE: how many bytes a Shaum message of a type whose body the firmware defines (R449) has
beside the data it carries. -/
opaque bodyLen : Nat → Nat

/-- FREE VALUE: the set of the Tile Map Cache that the unstated hash of a map line's address gives
(R271). -/
opaque tmcHash : Nat → Nat

/-- FREE VALUE: the DRAM population that training finds on a channel, as DMC_CONFIG reports it, at a cold start (R316,
R350): a property of the board that the spec does not fix. -/
opaque population : Nat → Nat → Nat

/-- FREE VALUE: the serial numbers of a channel's DIMMs, as one number, at a cold start (R335). -/
opaque dimmSerial : Nat → Nat → Nat

end Sys2Proof.Config
end

