-- ==== Sys2Proof/Machine/Table.lean ====
section
/-! DEFINITION. Sparse tables: the one form in which the model holds everything that the spec
indexes by a number (regions, tile-map entries, ways, queues, registers, ...). A table is a list of
(key, value) pairs with strictly rising keys, so equal tables are equal data. -/

namespace Sys2Proof.Machine

/-- A sparse table: keys strictly rising (`Tbl.wf`). -/
abbrev Tbl (α : Type) := List (Nat × α)

/-- The value at a key, if the table lists it. -/
def Tbl.get? {α : Type} : Tbl α → Nat → Option α
  | [], _ => none
  | (k, v) :: t, n => if n = k then some v else Tbl.get? t n

/-- The value at a key, or the value an unlisted key stands for. -/
def Tbl.getD {α : Type} (t : Tbl α) (n : Nat) (d : α) : α := (Tbl.get? t n).getD d

/-- Lists a value at a key, in place. -/
def Tbl.set {α : Type} : Tbl α → Nat → α → Tbl α
  | [], n, v => [(n, v)]
  | (k, w) :: t, n, v =>
    if n < k then (n, v) :: (k, w) :: t
    else if n = k then (n, v) :: t
    else (k, w) :: Tbl.set t n v

/-- Removes a key. -/
def Tbl.erase {α : Type} : Tbl α → Nat → Tbl α
  | [], _ => []
  | (k, w) :: t, n => if n = k then Tbl.erase t n else (k, w) :: Tbl.erase t n

/-- Every key of the table is at least `b`, and keys rise strictly. -/
def Tbl.above {α : Type} : Nat → Tbl α → Bool
  | _, [] => true
  | b, (k, _) :: t => decide (b ≤ k) && Tbl.above (k + 1) t

/-- The canonical form: keys strictly rising. -/
def Tbl.wf {α : Type} (t : Tbl α) : Bool := Tbl.above 0 t

/-- Changes the value listed at a key; an unlisted key stays unlisted. -/
def Tbl.modify {α : Type} (t : Tbl α) (n : Nat) (f : α → α) : Tbl α :=
  match Tbl.get? t n with
  | some v => Tbl.set t n (f v)
  | none => t

/-- Changes the value at a key, starting from `d` where it is unlisted. -/
def Tbl.upd {α : Type} (t : Tbl α) (n : Nat) (d : α) (f : α → α) : Tbl α :=
  Tbl.set t n (f (Tbl.getD t n d))

/-- The keys of a table, rising. -/
def Tbl.keys {α : Type} (t : Tbl α) : List Nat := t.map Prod.fst

/-- The values of a table, in key order. -/
def Tbl.vals {α : Type} (t : Tbl α) : List α := t.map Prod.snd

/-- Applies a function to every value. -/
def Tbl.mapV {α β : Type} (t : Tbl α) (f : α → β) : Tbl β := t.map fun p => (p.1, f p.2)

/-- The entries whose value satisfies a test. -/
def Tbl.filterV {α : Type} (t : Tbl α) (p : α → Bool) : Tbl α := t.filter fun e => p e.2

/-- How many entries satisfy a test. -/
def Tbl.count {α : Type} (t : Tbl α) (p : α → Bool) : Nat := (t.filter fun e => p e.2).length

/-- The first entry whose value satisfies a test. -/
def Tbl.find? {α : Type} (t : Tbl α) (p : α → Bool) : Option (Nat × α) := List.find? (fun e => p e.2) t

/-- The lowest key at or above `b` that the table does not list (`fuel` bounds the search; a table
of n entries leaves one of any n + 1 consecutive keys unlisted). -/
def Tbl.freeFrom {α : Type} (t : Tbl α) : Nat → Nat → Nat
  | 0, b => b
  | fuel + 1, b => match Tbl.get? t b with
    | none => b
    | some _ => Tbl.freeFrom t fuel (b + 1)

/-- The lowest key at or above `b` that the table does not list. -/
def Tbl.fresh {α : Type} (t : Tbl α) (b : Nat) : Nat := Tbl.freeFrom t t.length b

end Sys2Proof.Machine
end

