-- ==== Sys2Proof/Machine/Bits.lean ====
section
/-! DEFINITION. Bit fields, byte order (little-endian, R10) and the CRCs of the spec (CRC-8 of R55
and R572, CRC-32C and the other polynomials of R223). -/

namespace Sys2Proof.Machine

/-- Bits [hi:lo] of a number (bit 0 is the least significant, R9). -/
def bitsOf (v hi lo : Nat) : Nat := (v >>> lo) % 2 ^ (hi + 1 - lo)

/-- The mask of bits [hi:lo]. -/
def maskOf (hi lo : Nat) : Nat := (2 ^ (hi + 1 - lo) - 1) <<< lo

/-- Bits [hi:lo] of a register. -/
def Word.fld (w : Word) (hi lo : Nat) : Nat := bitsOf w.toNat hi lo

/-- A register with bits [hi:lo] replaced. -/
def Word.withFld (w : Word) (hi lo v : Nat) : Word :=
  BitVec.ofNat 32 ((w.toNat &&& (0xFFFFFFFF ^^^ maskOf hi lo)) ||| ((v % 2 ^ (hi + 1 - lo)) <<< lo))

/-- One bit of a register. -/
def Word.bit (w : Word) (i : Nat) : Bool := w.toNat.testBit i

/-- `true` as 1. -/
def b2n (b : Bool) : Nat := if b then 1 else 0

/-- The number whose bits, the least significant first, are given. -/
def bitsNat : List Bool → Nat
  | [] => 0
  | b :: t => b2n b + 2 * bitsNat t

/-- Rounds `v` down to a multiple of `step`, after clamping it into [mn, mx] (R115, R414, R462). -/
def clampStep (mn mx step v : Nat) : Nat :=
  let c := if v < mn then mn else if mx < v then mx else v
  if step ≤ 1 then c else c / step * step

/-- Least integer at or above a quotient. -/
def ceilDiv (a b : Nat) : Nat := (a + b - 1) / b

/-- The little-endian bytes of a number (R10). -/
def leBytes : Nat → Nat → List Byte
  | 0, _ => []
  | n + 1, v => BitVec.ofNat 8 (v % 256) :: leBytes n (v / 256)

/-- The number that little-endian bytes spell (R10). -/
def ofLe : List Byte → Nat
  | [] => 0
  | b :: t => b.toNat + 256 * ofLe t

/-- `len` bytes from position `i`, 0 where the list is shorter. -/
def sliceBytes (l : List Byte) (i len : Nat) : List Byte :=
  (List.range len).map fun k => l.getD (i + k) 0

/-- One bit of a CRC register of width `w`, most significant bit first. -/
def crcBit (w poly crc : Nat) (b : Bool) : Nat :=
  let sh := (crc <<< 1) % 2 ^ w
  if (crc.testBit (w - 1)) != b then sh ^^^ poly else sh

/-- One byte into a CRC; `refl` feeds the least significant bit first. -/
def crcByte (w poly : Nat) (refl : Bool) (crc : Nat) (b : Byte) : Nat :=
  ((if refl then [0, 1, 2, 3, 4, 5, 6, 7] else [7, 6, 5, 4, 3, 2, 1, 0]).map b.toNat.testBit).foldl
    (crcBit w poly) crc

/-- The low `w` bits in reverse order. -/
def reflectBits (w v : Nat) : Nat :=
  (List.range w).foldl (fun a i => if v.testBit i then a ||| (1 <<< (w - 1 - i)) else a) 0

/-- CRC-8 with polynomial 0x07, initial value 0, no reflection, no final XOR (R55, R572). -/
def crc8 (bs : List Byte) : Nat := bs.foldl (crcByte 8 0x07 false) 0

/-- CRC-32C: polynomial 0x1EDC_6F41, initial value and final XOR all ones, reflected (POLY 0 of R223). -/
def crc32c (bs : List Byte) : Nat :=
  (reflectBits 32 (bs.foldl (crcByte 32 0x1EDC6F41 true) 0xFFFFFFFF)) ^^^ 0xFFFFFFFF

/-- The multiplicative tile hash (tile index × 0x9E37_79B1) mod 2^32, on the low 32 bits of the
index (R242, R286). -/
def tileHash (tile : Nat) : Nat := (tile % 2 ^ 32 * 0x9E3779B1) % 2 ^ 32

/-- Greatest element of a list of numbers, 0 for none. -/
def maxOf (l : List Nat) : Nat := l.foldl max 0

/-- Least element of a list of numbers, `d` for none. -/
def minOf (l : List Nat) (d : Nat) : Nat :=
  match l with
  | [] => d
  | x :: t => t.foldl min x

/-- Adds an element to a list of numbers held as a set. -/
def insertNew (l : List Nat) (x : Nat) : List Nat := if l.contains x then l else l ++ [x]

end Sys2Proof.Machine
end

