-- ==== Sys2Proof/Syntax.lean ====
section
/-! DEFINITION. The commands of the block: one constructor of `Instr` per row of
spec/opcode_table.json, and the types of their operands. A command is what reaches the HG960 from
outside (a register access, a link or bus event, a packet, a Jorrid command), or an event of one of
its engines, timers or media that the spec says takes place; its operands carry what the outside
world or the analog part supplies (an address, data, a measured value, whether a check passed). -/

namespace Sys2Proof

open Sys2Proof.Machine (Tbl)

/-- The paths that reach the register space (R60–R62): BAR0 of one of the 32 logical devices (LD
0–15 on CXL0, 16–31 on CXL1), the four mailbox transports, and firmware. -/
inductive RegPath
  | bar0 (ld : Fin 32)
  | mgt
  | rdma
  | cxlMbx (ld : Fin 32)
  | peer
  | firmware
  deriving DecidableEq, Repr

/-- Access rights of a host in a region (R47). -/
inductive Right
  | none | read | readWrite | readWriteAtomic
  deriving DecidableEq, Repr

/-- Region states (R42, R43). -/
inductive RegionState
  | free | online | offline | resync | deleting
  deriving DecidableEq, Repr

/-- Where a region's Ensign stands on this twin (R454). -/
inductive Ensign
  | owner | peerOwns | handing | taking
  deriving DecidableEq, Repr

/-- A region descriptor (R42) with this twin's Ensign state (R454) and the highest persist sequence
it has applied as the non-owner (R451). Twin numbers are `false` = 0, `true` = 1. -/
structure Region where
  state : RegionState := .free
  size : Nat := 0
  qos : Nat := 0
  epoch : Nat := 0
  owner : Bool := false
  prefOwner : Bool := false
  onAck : Bool := false
  pseq : Nat := 0
  rgtBase : Nat := 0
  dflt : Right := .none
  policy : Tbl Right := []
  ensign : Ensign := .owner
  offered : Bool := false
  deriving DecidableEq, Repr

/-- One entry of the extent table (R52), with the pending mark of R88, the GEN of R89, the DC region
it was placed in (R87), whether its removal waits for accesses in flight (R90), and its place in the order of posting. -/
structure Extent where
  ld : Nat
  dcRegion : Nat
  dpa : Nat
  len : Nat
  region : Nat
  rof : Nat
  gen : Nat
  pending : Bool
  removing : Bool := false
  forced : Bool := false
  posted : Nat := 0
  deriving DecidableEq, Repr

/-- One entry of the memory-key table (R53); `live` is false once invalidated (R167), `quar` while
its index is in quarantine. -/
structure Mkey where
  live : Bool
  gen : Nat
  tag : Nat
  region : Nat
  rof : Nat
  va : Nat
  len : Nat
  host : Nat
  verbs : Nat
  quar : Bool := false
  deriving DecidableEq, Repr

/-- Lease states (R135). -/
inductive LeaseState
  | active | lapsed | revoked
  deriving DecidableEq, Repr

/-- A lease record (R134) with its state on this twin (R135). -/
structure Lease where
  cred : Nat
  mgmt : Bool
  maxQp : Nat
  maxMkey : Nat
  state : LeaseState := .active
  revokeDone : Bool := false
  deriving DecidableEq, Repr

/-- SQ states (R199). -/
inductive SqState
  | free | active | stopped | error | deleting
  deriving DecidableEq, Repr

/-- A submission queue's context (R197–R201). `halted` says that it is STOPPED because its ring's region left
ONLINE and RESYNC (R199); `notes` are the sequences that its PERSIST_NOTIFYs not yet complete have been assigned, by
position (R217). -/
structure Sq where
  host : Nat
  region : Nat
  base : Nat
  log2 : Nat
  cq : Nat
  maint : Bool
  limit : Nat
  state : SqState := .active
  fetch : Nat := 0
  tail : Nat := 0
  doneMask : Nat := 0
  completed : Nat := 0
  halted : Bool := false
  notes : Tbl Nat := []
  deriving DecidableEq, Repr

/-- A delivery target of a completion ring (R213): KIND, ADDR, KEY, LD, HOST_ID. -/
structure Target where
  kind : Nat
  addr : Nat
  key : Nat
  ld : Nat
  host : Nat
  deriving DecidableEq, Repr

/-- A completion record (R214) without its SEQ and TWIN fields. -/
structure CqRec where
  pos : Nat
  tag : Nat
  sq : Nat
  note : Bool
  status : Nat
  opcode : Nat
  result : Nat
  notify : Bool
  deriving DecidableEq, Repr

/-- A completion ring's context (R212–R216): `sent` is the sequence below which this twin has
transmitted its copies; `signal` is the last sequence to be signalled while the coalescing window is open. -/
structure Cq where
  host : Nat
  region : Nat
  base : Nat
  log2 : Nat
  t0 : Target
  t1 : Target
  vector : Nat
  window : Nat
  nextSeq : Nat := 1
  sent : Nat := 1
  recs : Tbl CqRec := []
  signal : Option Nat := none
  deriving DecidableEq, Repr

/-- The metadata of one sector as it travels in TILE_DATA (R449): persist sequence, poison bit, and
whether the sender holds it uncorrectable. -/
structure SectorInfo where
  pseq : Nat := 0
  poison : Bool := false
  bad : Bool := false
  deriving DecidableEq, Repr

/-- What a forwarded request asks of the owner (R452). -/
inductive MemOp
  | read | write | poisonWrite | fetchAdd | compareSwap | tileSwitch
  deriving DecidableEq, Repr

/-- The body of a MIRROR message (R450), without its check. -/
structure MirrorMsg where
  region : Nat
  forwarded : Bool
  atomic : Bool
  tileSwitch : Bool
  host : Nat
  entryTag : Nat
  pseq : Nat
  psa : Nat
  data : List Byte
  reqId : Nat
  result : Nat
  poison : List Bool
  deriving DecidableEq, Repr

/-- A FORWARD message (R452): the admitted request with its data; `map` holds the poison marks of a
transfer copy's sectors (R211). -/
structure FwdMsg where
  tag : Nat
  op : MemOp
  host : Nat
  region : Nat
  off : Nat
  psa : Nat
  len : Nat
  data : List Byte
  poison : Bool
  arg : Nat
  cmp : Nat
  reqId : Nat
  map : List Bool := []
  deriving DecidableEq, Repr

/-- Twin states carried in a Burgee (R457). -/
inductive TwinState
  | starting | paired | single | fenced | rejoin | saving | leaving
  deriving DecidableEq, Repr

/-- Ledger states (R410, R434). -/
inductive LedgerState
  | fit | deficit | throttle | critical | off
  deriving DecidableEq, Repr

/-- A Burgee (R457) without its magic, version and check. -/
structure Burgee where
  twin : Bool
  state : TwinState
  ledger : LedgerState
  fast : Bool
  fwMajor : Nat
  applianceId : Nat
  seq : Nat
  heard : Nat
  time : Nat
  ensigns : Nat
  fenceSeen : Nat
  phase : Nat
  deriving DecidableEq, Repr

/-- A submission entry (R202). -/
structure Desc where
  opcode : Nat
  fence : Bool := false
  e2e : Bool := false
  atomTile : Bool := false
  noCompare : Bool := false
  notify : Bool := false
  phase : Bool := false
  tag : Nat := 0
  poly : Nat := 0
  waitSq : Nat := 0
  waitEn : Bool := false
  waitCount : Nat := 0
  src : Nat := 0
  dst : Nat := 0
  len : Nat := 0
  arg : Nat := 0
  rsvZero : Bool := true
  deriving DecidableEq, Repr

/-- An access in flight (R48): a request by its tracker number, a started transfer command by its number, the scrub
of a region, which the peer's CONTROL waits for (R220), or the media operations begun under a region's earlier key epoch (R548
step 5). -/
inductive Access
  | req (n : Nat)
  | cmd (n : Nat)
  | scrub (region : Nat)
  | media (region : Nat)
  deriving DecidableEq, Repr

/-- Progress of a SANITIZE (phase 1 to 3) or FORMAT (phase 0) of a region: its command's queue, position and descriptor,
and the granule at which it goes on (R220–R222, R576). `access` lists the accesses of this twin for which a FORMAT's step
waits (R221), `waits` the stripe blocks that phase 3 erases here. Phase 4 is phase 3 with this twin's part done. -/
structure Progress where
  phase : Nat
  sq : Nat
  pos : Nat
  d : Desc
  next : Nat
  access : List Access := []
  waits : List Nat := []
  deriving DecidableEq, Repr

/-- A change of a descriptor or table that must be applied on both twins, as a CONTROL message
carries it (R42, R53, R134, R197, R449); `key` is a region's RKS for a key epoch (R545, R548); with the tables of a resynchronisation go the request-ID window's
slots; a returning twin asks for the tiles of its rejoin list, or for all (R476, R477); a twin that has lost its
copy of a descriptor asks for it (R652); an operator's choice of the authoritative twin (R423) and a planned handoff
to a target (R455) reach the twin they concern; `ctlWord` is the first word of a queue's control block (R199, R212).
`complete` gives a record its completion sequence (0 asks the twin that orders the writes to the ring to choose it, and
`assigned` answers), `cancel` asks the owner to drop the forwarded requests of these tags that it has not sequenced (R104,
R155), `progress` records how far a SANITIZE or FORMAT has come, and `scrubTiles` releases tiles to the scrub
list of a region (R209, R217, R220–R222). -/
inductive Change
  | region (id : Nat) (r : Region)
  | key (region epoch rks : Nat)
  | rgt (idx granule : Nat)
  | rgtErase (idx : Nat)
  | zeroTiles (first count : Nat)
  | extent (idx : Nat) (e : Extent)
  | extentErase (idx : Nat)
  | mkey (idx : Nat) (k : Mkey)
  | lease (host : Nat) (l : Lease)
  | leaseRevoke (host : Nat)
  | leaseErase (host : Nat)
  | sq (id : Nat) (q : Sq)
  | sqErase (id : Nat)
  | cq (id : Nat) (q : Cq)
  | cqErase (id : Nat)
  | binding (ld : Nat) (bound : Bool)
  | complete (sq pos : Nat) (r : CqRec) (cq seq : Nat)
  | assigned (sq pos : Nat) (r : CqRec) (cq seq : Nat)
  | cancel (tags : List Nat)
  | progress (region : Nat) (p : Option Progress)
  | scrubTiles (region first count : Nat)
  | pin (tile : Nat) (on : Bool)
  | pinAsk (cmd tile : Nat)
  | pinEnd (cmd tile : Nat) (miss : Bool)
  | poison (psa : Nat) (source : Nat)
  | time (ns : Nat)
  | mode (dormant : Bool)
  | rejoin (tiles : List Nat) (full : Bool)
  | window (region slot reqId host : Nat) (atomic : Bool) (result : Nat)
  | fetch (region : Nat)
  | fetchSlots (region first : Nat)
  | claim (obj : Nat)
  | force (region : Nat) (auth : Bool)
  | handoff (regions : List Nat) (target go : Bool)
  | ctlWord (region base val : Nat)
  deriving DecidableEq, Repr

/-- A mailbox instance (R498): the CXL primary mailbox of an LD, a MGMT queue pair, an MCTP source
endpoint on MGT, or the twin peer mailbox. -/
inductive MbxInst
  | cxl (ld : Fin 32)
  | mgmt (qpn : Nat)
  | mgt (eid : Nat)
  | peer
  deriving DecidableEq, Repr

/-- What the Jorrid header (R501) carries beside the opcode: SEQ, TAG, VERSION, IN_LEN and the reserved fields; `len` is the
length of the body that the transport has brought. -/
structure JHdr where
  seq : Nat
  tag : Nat := 0
  version : Nat := 1
  inLen : Nat := 0
  rsv : Nat := 0
  len : Nat := 0
  deriving DecidableEq, Repr

/-- Whether a header is as R501 requires. -/
def JHdr.wellFormed (h : JHdr) : Bool :=
  h.version == 1 && h.rsv == 0 && h.inLen == h.len && decide (h.inLen ≤ 4080)

/-- A Jorrid result (R501, R502) without its echoed SEQ and TAG. -/
structure JResult where
  opcode : Nat := 0
  status : Nat := 0
  progress : Nat := 0
  detail : Nat := 0
  body : List Nat := []
  deriving DecidableEq, Repr

/-- The Jorrid commands with their inputs (R511). -/
inductive JorridCmd
  | identify | getStatus | abort
  | setTime (ns : Nat)
  | resetWarm
  | plannedHandoff (regions : List Nat) (toPeer : Bool)
  | setMode (dormant : Bool)
  | relay (h : JHdr) (c : JorridCmd)
  | regRead (off count : Nat)
  | regWrite (pairs : List (Nat × Nat))
  | regionCreate (region gib qos : Nat) (pref onAck : Bool) (dflt : Right)
  | regionResize (region gib : Nat)
  | regionDelete (region : Nat)
  | regionSetPolicy (region : Nat) (dflt : Right) (entries : List (Nat × Right))
  | regionSetAttr (region qos : Nat) (pref onAck : Bool)
  | regionForceOnline (region : Nat) (auth : Bool)
  | regionInfo (region : Nat)
  | ldBind (ld host : Nat) | ldUnbind (ld : Nat)
  | setDurability (ld : Nat) (ctm : Bool)
  | extentAdd (ld dcRegion dpa len region rof : Nat)
  | extentRelease (ld region rof gen : Nat) (force : Bool)
  | notifyVector (ld vector source : Nat)
  | leaseGrant (host cred : Nat) (mgmt : Bool) (maxQp maxMkey : Option Nat)
  | leaseChange (host cred : Nat) (mgmt : Bool) (maxQp maxMkey : Nat)
  | leaseRevoke (host : Nat)
  | mkeyRegisterFor (host region verbs tag rof va len : Nat)
  | mkeyInvalidateFor (rkey : Nat)
  | sqCreate (sq host addr log2 cq : Nat) (limit : Option Nat) (maint : Bool)
  | sqDelete (sq : Nat) | sqStop (sq : Nat) | sqResume (sq : Nat) | sqReset (sq : Nat)
  | cqCreate (cq host addr log2 : Nat) (t0 t1 : Target) (vector : Nat) (window : Option Nat)
  | cqDelete (cq : Nat)
  | cqSetTarget (cq : Nat) (twin : Bool) (t : Target)
  | twinRelease | twinTakeover | twinRetrain
  | scrubStart (first last mask rate : Nat)
  | capTest | savePlanned
  | eventRead (cursor count : Nat)
  | eventQueueSet (slot qpn mask severity : Nat)
  | fwInfo
  | fwTransferInitiate (slotB : Bool) (total : Nat)
  | fwTransferContinue (slotB : Bool) (offset : Nat) (data : List Byte)
  | fwTransferEnd (slotB verifies : Bool)
  | fwTransferAbort (slotB : Bool)
  | fwActivateLive (slotB : Bool)
  | fwActivateNextReset (slotB : Bool)
  | provision (twin : Bool) (applianceId : Nat) (rails : List (Nat × Nat)) (replace : Bool)
  | other (opcode : Nat)
  deriving DecidableEq, Repr

/-- The messages of the Shaum Link (R449). -/
inductive ShaumMsg
  | mirror (m : MirrorMsg)
  | ack (seqs : List Nat)
  | forward (m : FwdMsg)
  | fwdReply (tag : Nat) (poisoned : Bool) (result : Nat)
  | readReq (tag region off psa len : Nat)
  | readData (region tag : Nat) (data : List Byte) (poison : List Bool)
  | promoHint (tile : Nat)
  | tilePull (tile : Nat)
  | tileData (tile : Nat) (data : List Byte) (sectors : List SectorInfo) (resync : Bool)
  | ensignOffer (region pseq : Nat)
  | ensignAccept (region : Nat)
  | control (cs : List Change)
  | cqRelay (cq seq : Nat) (r : CqRec)
  | verify (tile crc pseq : Nat)
  | verifyReply (tile crc pseq : Nat)
  | peerMbx (h : JHdr) (c : JorridCmd)
  | peerMbxResult (seq : Nat) (r : JResult)
  | segNak (seq bitmap : Nat)
  | burgee (b : Burgee)
  | resyncCtl (region pseq : Nat) (start : Bool) (pinned : List Nat)
  deriving DecidableEq, Repr

/-- Who the peer is, as a keying frame and its certificate chain show it (R4, R440, R550). -/
structure LinkPeer where
  twin : Bool
  id : Nat
  record : Bool
  variant : Nat
  fwMajor : Nat
  deriving DecidableEq, Repr

/-- The header of a received Shaum segment (R444). -/
structure SegHdr where
  type : Nat
  version : Nat := 1
  keySel : Nat := 0
  segLen : Nat
  msgLen : Nat
  msgSeq : Nat
  epoch : Nat
  segOffset : Nat
  segCount : Nat
  counter : Nat
  deriving DecidableEq, Repr

/-- The header of a received control message beside its TYPE (R143); its reserved bits are ignored (R13). -/
structure WcmHdr where
  tag : Nat
  length : Nat
  version : Nat := 1
  deriving DecidableEq, Repr

/-- A RoCEv2 verb and what its extended headers carry (R156, R163). A WRITE of several packets arrives as its first
packet with the RETH, middle ones, and the last, with an immediate where it has one (R149). `whole` is the selectivity
level of a FLUSH: the memory region rather than the range. -/
inductive Verb
  | write (rkey va : Nat) (data : List Byte)
  | writeImm (rkey va : Nat) (data : List Byte) (imm : Nat)
  | read (rkey va len : Nat)
  | fetchAdd (rkey va add : Nat)
  | compareSwap (rkey va cmp swap : Nat)
  | atomicWrite (rkey va : Nat) (data : List Byte)
  | flush (rkey va len : Nat) (whole : Bool)
  | keepalive (w : WcmHdr)
  | wcm (type : Nat)
  | writeFirst (rkey va total : Nat) (data : List Byte)
  | writeMid (data : List Byte)
  | writeLast (data : List Byte) (imm : Option Nat)
  | other (opcode : Nat)
  deriving DecidableEq, Repr

/-- What a received packet carries outside its ciphertext (R147): BTH, the WSH's COUNTER and VERSION (its reserved bits
are ignored, R13), its size, the ECN mark, the PCP of a tagged frame and the DSCP (R127); and what the checks of its ICRC
and of its tag, over the BTH with its masked bits at 1 followed by the WSH, have found. -/
structure PktHdr where
  qpn : Nat
  psn : Nat
  counter : Nat
  bytes : Nat
  ce : Bool := false
  tagOk : Bool := true
  port : Fin 8 := 0
  pcp : Option (Fin 8) := none
  dscp : Nat := 0
  version : Nat := 1
  icrcOk : Bool := true
  deriving DecidableEq, Repr

/-- The connect data of a CM REQ (R140), whose reserved bits are ignored (R13), with the service ID it is addressed to
(R138), the port it arrives on and the host's GID (R145). -/
structure ConnReq where
  serviceId : Nat
  version : Nat
  service : Nat
  host : Nat
  qos : Nat
  hostQpn : Nat
  pmtu : Nat
  psn : Nat
  port : Fin 8 := 0
  gid : Nat := 0
  deriving DecidableEq, Repr

/-- How a flash codeword read ends (R373): the ladder step that decoded it (1 to 4), or none. -/
inductive Decode
  | step (n : Fin 4) (corrected : Nat)
  | fail
  deriving DecidableEq, Repr

/-- Reset causes that a wake or a warm reset names (R617, R32). -/
inductive WakeCause
  | cxl | ethernet | twin | mailbox | elg | pws | resetN | wake
  deriving DecidableEq, Repr

/-- How a PSB transaction ends (R639, R647). -/
inductive PsbResult
  | ok (data : List Byte) | addrNack | dataNack | clkLowTo | pecErr | busClearFail
  deriving DecidableEq, Repr

/-- What a sample of a port's SDA leads to: it is high, or a bus clear frees it, or it stays low (R640). -/
inductive Sda
  | high | cleared | stuck
  deriving DecidableEq, Repr

/-- The source of an operation whose data the mesh destroyed twice (R653): a line of a tile in DRAM or the HLC, a slice of one in
flash, or a payload that a host supplies. -/
inductive MeshSource
  | line (tile : Nat) (line : Fin 16) | slice (tile : Nat) (slice : Fin 8) | payload
  deriving DecidableEq, Repr

/-- An on-chip store whose check finds an error (R652): one that the check corrects, in a block; a region's descriptor or RGT
words; a line of the Tile Map Cache; the context of a connection or QP; a buffer of a pool; a key cache. -/
inductive SramWord
  | corrected (block : Fin 22) | descriptor (region : Fin 4096) | mapLine (line : Nat) | qpContext (qpn : Nat) | buffer | keyCache
  deriving DecidableEq, Repr

/-- An SPDM requester's transport: MCTP on MGT, or the DOE mailbox of an LD (R542). -/
inductive SpdmPath
  | mgt (eid : Nat)
  | doe (ld : Fin 32)
  deriving DecidableEq, Repr

/-- What the checks of the HLC find on the line that a read hits (R301–R303): nothing, a corrected word, an
uncorrectable one or a line check that does not match, a tag entry rebuilt, or a tag entry lost. -/
inductive HlcFault
  | none | corrected | uncorrectable | tagRebuilt | tagLost
  deriving DecidableEq, Repr

/-- The flit types that a CXL host can run (R76, R77): 68-byte flits only, 256-byte flits, or latency-optimised 256-byte
flits as well. -/
inductive Flit
  | b68 | b256 | lo256
  deriving DecidableEq, Repr

/-- The commands: one constructor per row of spec/opcode_table.json, in the table's order. -/
inductive Instr
  -- registers (R11, R12, R58–R62, R658, R659)
  | registerWrite (p : RegPath) (off size val : Nat)
  | registerHiWrite (p : RegPath) (off : Nat) (val : Word)
  | registerLoRead (p : RegPath) (off : Nat)
  | rcCounterRead (p : RegPath) (off sameCycle : Nat)
  | w1cFlagClear (p : RegPath) (off : Nat) (val hwSet : Word) (cap : DWord)
  | badRegisterAccess (p : RegPath) (write : Bool) (off size : Nat)
  | gatedIslandAccess (p : RegPath) (write : Bool) (off : Nat) (val : Word)
  | glbRgnSel (p : RegPath) (region : Fin 4096)
  | tqmSqSel (p : RegPath) (sq : Fin 4096)
  | tqmCqSel (p : RegPath) (cq : Fin 4096)
  | plcRgnSel (p : RegPath) (region : Fin 4096)
  | plcTileSel (p : RegPath) (hi : Word)
  | fmcSetSel (p : RegPath) (set : Fin 64)
  | secRgnKeySel (p : RegPath) (region : Fin 4096)
  | eflBlockSel (p : RegPath) (block : Fin 256)
  | eflRaddr (p : RegPath) (addr : Word)
  | evrWindowRead (p : RegPath) (word : Fin 8)
  -- CXL ports (chapter 3)
  | cxlLinkEnable (p : RegPath) (port : Fin 2) (val : Word)
  | cxlLinkTrained (port link : Fin 2) (width speed : Nat) (flit : Flit)
  | cxlLinkDown (port link : Fin 2)
  | cxlLinkRecovery (port link : Fin 2)
  | cxlLinkDownHoldExpiry (port link : Fin 2)
  | departureHoldExpiry (ld : Fin 32)
  | l0pNarrowRequest (port link : Fin 2)
  | l0pWidenRequest (port link : Fin 2)
  | l0pHostRequest (port link : Fin 2) (width : Nat)
  | aspmL1Entry (port link : Fin 2) (hostAllows : Bool)
  | aspmL1Exit (port link : Fin 2)
  | cxlMemEnable (ld : Fin 32)
  | cxlMemrd (ld : Fin 32) (tag dpa : Nat) (f : HlcFault)
  | cxlMemwr (ld : Fin 32) (tag dpa : Nat) (data : List Byte) (poison : Bool)
  | cxlFlr (ld : Fin 32)
  | cxlHotReset (port link : Fin 2)
  | flrDone (ld : Fin 32)
  | persistBarrierRead (ld : Fin 32)
  | persistBarrierReturn (ld : Fin 32)
  | gpfPhase1 (port link : Fin 2)
  | gpfPhase2 (port link : Fin 2)
  | gpfPhase2Complete (port link : Fin 2) (ns : Nat)
  | getLdInfo (port : Fin 2)
  | getLdAllocations (port : Fin 2)
  | setLdAllocations (port : Fin 2) (ld : Fin 16) (bind : Bool) (alloc : Nat)
  | getQosControl (port : Fin 2)
  | setQosControl (port : Fin 2) (ctl : Nat) (ld : Fin 16) (ctm : Bool) (cls : Option (Fin 8))
  | fmExtentAdd (ld : Fin 32) (dcRegion : Fin 8) (dpa len region rof : Nat)
  | fmExtentRelease (ld : Fin 32) (region rof gen : Nat) (force : Bool)
  | dcResponseTimeout (idx : Nat)
  | extentRemovalDrained (idx : Nat)
  | getEventRecords (ld : Fin 32) (log : Fin 5)
  | clearEventRecords (ld : Fin 32) (log : Fin 5) (all : Bool) (handles : List Nat)
  | getEventInterruptPolicy (ld : Fin 32)
  | setEventInterruptPolicy (ld : Fin 32) (policy : Nat)
  | getSupportedLogs (ld : Fin 32)
  | getLog (ld : Fin 32) (cel : Bool) (off len : Nat)
  | identifyMemoryDevice (ld : Fin 32)
  | getPartitionInfo (ld : Fin 32)
  | getFwInfo (ld : Fin 32)
  | transferFw (ld : Fin 32) (action : Nat) (slotB : Bool) (offset total : Nat) (data : List Byte)
      (verifies : Bool)
  | activateFw (ld : Fin 32) (slotB live : Bool)
  | getPoisonList (ld : Fin 32) (dpa len : Nat)
  | injectPoison (ld : Fin 32) (dpa : Nat)
  | clearPoison (ld : Fin 32) (dpa : Nat) (data : List Byte)
  | getDynamicCapacityConfiguration (ld : Fin 32)
  | getDynamicCapacityExtentList (ld : Fin 32)
  | addDynamicCapacityResponse (ld : Fin 32) (accepted : List (Nat × Nat))
  | releaseDynamicCapacity (ld : Fin 32) (dpa len : Nat)
  | getTimestamp (ld : Fin 32)
  | setTimestamp (ld : Fin 32) (ns : Nat)
  | jorridVendorOpcode (ld : Fin 32) (h : JHdr) (c : JorridCmd)
  | cxlMbxUnsupported (ld : Fin 32) (opcode : Nat)
  -- Ethernet and RDMA (chapter 4)
  | netLinkUp (port : Fin 8)
  | netLinkDown (port : Fin 8)
  | pfcFrameReceived (port : Fin 8) (prios xoff : BitVec 8)
  | pfcXoffRepeat
  | pauseStorm (port : Fin 8) (prio : Fin 8)
  | cnpReceived (qpn : Nat)
  | rateIncreaseTick (qpn : Nat)
  | lldpTransmit (port : Fin 8)
  | lldpReceived (port : Fin 8) (partner : Nat)
  | rocePacketReceive (h : PktHdr) (v : Verb)
  | sendCounterLimit (qpn : Nat)
  | cmReq (r : ConnReq)
  | cmRtu (qpn : Nat)
  | cmRej (qpn : Nat)
  | cmMra (qpn : Nat)
  | cmDreq (qpn : Nat) (sent : Bool)
  | cmDrep (qpn : Nat)
  | cmTimeout (qpn : Nat)
  | drainingTimeout (qpn : Nat)
  | errorTimeout (qpn : Nat)
  | quarantineEnd (mkey : Bool) (index : Nat)
  | keyHello (qpn : Nat) (w : WcmHdr) (host suite nonce ek : Nat)
  | keyConfirm (qpn : Nat) (w : WcmHdr) (pk sig : Nat) (sigOk : Bool)
  | certRequest (qpn : Nat) (w : WcmHdr)
  | keyingTimeout (qpn : Nat)
  | rdmaWrite (qpn psn rkey va : Nat) (data : List Byte)
  | rdmaWriteImm (qpn psn rkey va : Nat) (data : List Byte) (imm : Nat)
  | rdmaRead (qpn psn rkey va len : Nat)
  | atomicFetchAdd (qpn psn rkey va : Nat) (add : DWord)
  | atomicCompareSwap (qpn psn rkey va : Nat) (cmp swap : DWord)
  | atomicWrite (qpn psn rkey va : Nat) (data : DWord)
  | rdmaFlush (qpn psn rkey va len : Nat) (whole : Bool)
  | flushResponse (qpn psn : Nat)
  | keepalive (qpn psn : Nat) (w : WcmHdr)
  | mkeyRegister (qpn psn : Nat) (w : WcmHdr) (region verbs tag rof va len : Nat)
  | mkeyInvalidate (qpn psn : Nat) (w : WcmHdr) (rkey : Nat)
  | wcmJorrid (qpn psn : Nat) (w : WcmHdr) (h : JHdr) (c : JorridCmd)
  | leaseLapse (host : Nat)
  | leaseRecordFree (host : Nat)
  | requesterAckTimeout (qpn : Nat)
  | requesterAckReceived (qpn : Nat)
  -- transfer queues and CRC channels (chapter 5)
  | sqDoorbell (sq : Fin 4096)
  | tqmDoorbell (p : RegPath) (sq : Fin 4096)
  | fetchResume
  | tqCopy (sq : Fin 4096) (pos : Nat)
  | tqFill (sq : Fin 4096) (pos : Nat)
  | tqPersistNotify (sq : Fin 4096) (pos : Nat)
  | tqCrcCheck (sq : Fin 4096) (pos : Nat)
  | tqPrefetch (sq : Fin 4096) (pos : Nat)
  | tqPin (sq : Fin 4096) (pos : Nat)
  | tqUnpin (sq : Fin 4096) (pos : Nat)
  | tqSanitize (sq : Fin 4096) (pos : Nat)
  | tqFormat (sq : Fin 4096) (pos : Nat)
  | sanitizePhaseComplete (region : Fin 4096)
  | formatStepComplete (region : Fin 4096)
  | sanitizeFormatResume (region : Fin 4096)
  | tqCommandComplete (sq : Fin 4096) (pos : Nat)
  | cqConsAdvance (cq : Fin 4096)
  | notifyCoalesceExpiry (cq : Fin 4096)
  | crcFwLoad (p : RegPath)
  | crcFwData32 (p : RegPath) (data : Word)
  | crcFwData8 (p : RegPath) (data : Byte)
  -- placement (chapter 6)
  | promotionSwitch (tile : Nat) (bad : List (Fin 8))
  | promoWaitOver (tile : Nat)
  | promotionQueueServe
  | frameSweepVisit
  | evictionCapSecond
  | evictionSwitch (tile : Nat)
  | relocationSwitch (tile : Nat)
  | mapSweepRead
  | decayPeriod
  | saveAreaDrain
  | tmcFill (line : Nat) (badEntries : List Nat)
  | mapAudit
  -- Hot Line Cache (chapter 7)
  | hlcFillComplete (tile : Nat) (line : Fin 16) (badSectors : Fin 16) (parity : Bool) (retryOk : Fin 5)
  | hlcEvbWriteComplete (tile : Nat) (line : Fin 16)
  | hlcClean (tile : Nat) (line : Fin 16)
  | hlcWritebackDone (tile : Nat) (line : Fin 16) (wrCheck : Fin 16)
  | hlcMaintWriteback (p : RegPath) (scope : Fin 4)
  | hlcMaintWbInval (p : RegPath) (scope : Fin 4)
  | hlcMaintComplete
  | tagSetScanDone (slice : Fin 16) (set : Fin 2048)
  -- DRAM tier (chapter 8)
  | dmcAlert (ch : Fin 16) (subB : Bool) (within1ms : Bool)
  | retrainDue (ch : Fin 16)
  | mr4Poll (ch : Fin 16) (rank : Nat) (level : Fin 3)
  | oscTracking (ch : Fin 16) (rank : Nat)
  | refreshDue (ch : Fin 16) (rank : Nat)
  | rfmDue (ch : Fin 16) (bank : Nat)
  | bankIdleExpiry (ch : Fin 16) (bank : Nat)
  | requestAgeTarget (ch : Fin 16) (line : Nat) (late : Bool)
  | dmcSelfRefreshEnter (p : RegPath)
  | dmcSelfRefreshExit (p : RegPath)
  | dmcTrainFull (p : RegPath) (mask : BitVec 16)
  | dmcTrainStored (p : RegPath) (mask : BitVec 16)
  | dmcTrainRows (p : RegPath) (mask : BitVec 16)
  | dmcTrainingDone (ch : Fin 16) (ok : Bool)
  | chiveEnable (p : RegPath) (ch : Fin 16) (entry : Fin 32)
  | chiveDisable (p : RegPath) (ch : Fin 16) (entry : Fin 32)
  | chiveCopyDone (ch : Fin 16)
  | chiveCandidate (ch : Fin 16) (sector : Nat)
  | scrubGo (p : RegPath) (rate : Nat) (mask : BitVec 16)
  | scrubStop (p : RegPath)
  | scrubPassEnd (sectors poison ms : Nat) (bad : List (Nat × Bool))
  -- flash tier (chapter 9)
  | flashReadDecode (loc slice : Nat) (r : Decode)
  | flashPatrol (loc slice : Nat) (r : Decode)
  | suspendWaitExpiry (die : Nat)
  | programFlushTimer (set : Nat)
  | programUnitDone (set block : Nat) (ok : Bool)
  | flashEraseDone (set block : Nat) (ok spare : Bool)
  | saveRegionResize (set : Nat)
  | flashGeometryDiscovery (channels dies planes bits cw lblocks pages spare cycles : Nat) (valid : Bool)
  -- energy ledger and save (chapter 10)
  | meterSample (mv : Nat) (ma : Int)
  | ledgerRecompute
  | catchupExpiry
  | moduleTempRead
  | capTestPeriod
  | elgCmdTest (p : RegPath)
  | capTestDropReached (chargeUc dropMv : Nat) (currentOk rose : Bool)
  | capTestTimeout
  | capTestRetry
  | saveRateProbe (setRate streamRate pSaveMw : Nat)
  | elgReserveWrite (p : RegPath) (val : Word)
  | elgTestCfgWrite (p : RegPath) (val : Word)
  | elgSaveCfgWrite (p : RegPath) (val : Word)
  | holdFail (samples : Nat)
  | elgCmdSave (p : RegPath)
  | saveDrainEnd
  | sagePhaseEnd (tiles : Nat)
  | saveFinalEnergy
  | restore (unsaved : List Nat) (peer : Option (Bool × List (Nat × Bool × Bool × Nat)))
  | regionAdmit (region : Fin 4096)
  | peerWaitExpiry
  | haltedPeerAdmission (entries : List (Nat × Bool × Bool × Nat)) (single : Bool)
  -- twin operation (chapter 11)
  | shaumLinkEnable (p : RegPath) (val : Word)
  | laneGroupTrained (g : Fin 4)
  | laneGroupDown (g : Fin 4)
  | laneGroupRetry (g : Fin 4)
  | linkTrainingTimeout
  | linkHello (p : LinkPeer) (nonce ek : Nat) (ok : Bool)
  | linkReply (p : LinkPeer) (nonce ct sig : Nat) (ok : Bool)
  | linkConfirm (sig : Nat) (ok : Bool)
  | linkFail
  | twnCmdRetrain (p : RegPath)
  | shaumSegmentReceive (g : Fin 4) (h : SegHdr) (tagOk checkOk : Bool) (m : ShaumMsg)
  | reassemblyTimerExpiry (seq : Nat)
  | messageResendTimeout (seq : Nat)
  | shaumCounterLimit (g : Fin 4)
  | mirror (seq : Nat) (m : MirrorMsg)
  | shaumAck (seqs : List Nat)
  | forward (seq : Nat) (m : FwdMsg)
  | fwdReply (seq tag : Nat) (poisoned : Bool) (result : Nat)
  | readReq (seq tag region off psa len : Nat)
  | readData (seq tag : Nat) (data : List Byte) (poison : List Bool)
  | promoHint (seq tile : Nat)
  | tilePull (seq tile : Nat)
  | tileData (seq tile : Nat) (data : List Byte) (sectors : List SectorInfo) (resync : Bool)
  | ensignOffer (seq region pseq : Nat)
  | ensignAccept (seq region : Nat)
  | handoffAcksDrained (region : Fin 4096)
  | control (seq : Nat) (cs : List Change)
  | cqRelay (seq cq recSeq : Nat) (r : CqRec)
  | verify (seq tile crc pseq : Nat)
  | verifyReply (seq tile crc pseq : Nat)
  | peerMbx (seq : Nat) (h : JHdr) (c : Option JorridCmd) (r : JResult)
  | segNak (msgSeq bitmap : Nat)
  | burgee (tsb checkOk : Bool) (b : Burgee)
  | resyncCtl (seq region pseq : Nat) (start : Bool) (pinned : List Nat)
  | shaumBurgeeInterval
  | tsbBurgeeInterval
  | fastModeExpiry
  | shaumPathSilent
  | tsbPathSilent
  | confirmationWindowExpiry
  | fenceDeferExpiry
  | fenceSettleExpiry
  | takeover
  | shaumHoldExpiry
  | twinFenceInAssert (ns : Nat)
  | twinFenceInRelease (ns : Nat)
  | fenceTestPulseSeen (ns : Nat)
  | fenceTestPulseSend
  | fenceTestCheck
  | releaseLinkTimeout
  | releaseDeferExpiry
  | resyncTileSend (region : Fin 4096)
  | revertHoldoffExpiry
  | twnCmdTakeover (p : RegPath)
  | twnCmdRelease (p : RegPath)
  | twnCmdFence (p : RegPath)
  | watchSample (tile : Nat)
  | watchScrubPeriod
  | engineSelfTest (engine : Fin 28) (pass : Bool)
  | healthRecord
  -- Jorrid commands (chapter 12)
  | identify (i : MbxInst) (h : JHdr)
  | getStatus (i : MbxInst) (h : JHdr)
  | abort (i : MbxInst) (h : JHdr)
  | setTime (i : MbxInst) (h : JHdr) (ns : Nat)
  | resetWarm (i : MbxInst) (h : JHdr)
  | plannedHandoff (i : MbxInst) (h : JHdr) (regions : List Nat) (toPeer : Bool)
  | setMode (i : MbxInst) (h : JHdr) (dormant : Bool)
  | relay (i : MbxInst) (h : JHdr) (hc : JHdr) (c : JorridCmd)
  | regRead (i : MbxInst) (h : JHdr) (off count : Nat)
  | regWrite (i : MbxInst) (h : JHdr) (pairs : List (Nat × Nat))
  | regionCreate (i : MbxInst) (h : JHdr) (region gib qos : Nat) (pref onAck : Bool) (dflt : Right)
  | regionResize (i : MbxInst) (h : JHdr) (region gib : Nat)
  | regionDelete (i : MbxInst) (h : JHdr) (region : Nat)
  | regionSetPolicy (i : MbxInst) (h : JHdr) (region : Nat) (dflt : Right) (entries : List (Nat × Right))
  | regionSetAttr (i : MbxInst) (h : JHdr) (region qos : Nat) (pref onAck : Bool)
  | regionForceOnline (i : MbxInst) (h : JHdr) (region : Nat) (auth : Bool)
  | regionInfo (i : MbxInst) (h : JHdr) (region : Nat)
  | ldBind (i : MbxInst) (h : JHdr) (ld host : Nat)
  | ldUnbind (i : MbxInst) (h : JHdr) (ld : Nat)
  | setDurability (i : MbxInst) (h : JHdr) (ld : Nat) (ctm : Bool)
  | extentAdd (i : MbxInst) (h : JHdr) (ld dcRegion dpa len region rof : Nat)
  | extentRelease (i : MbxInst) (h : JHdr) (ld region rof gen : Nat) (force : Bool)
  | notifyVector (i : MbxInst) (h : JHdr) (ld vector source : Nat)
  | leaseGrant (i : MbxInst) (h : JHdr) (host cred : Nat) (mgmt : Bool) (maxQp maxMkey : Option Nat)
  | leaseChange (i : MbxInst) (h : JHdr) (host cred : Nat) (mgmt : Bool) (maxQp maxMkey : Nat)
  | leaseRevoke (i : MbxInst) (h : JHdr) (host : Nat)
  | mkeyRegisterFor (i : MbxInst) (h : JHdr) (host region verbs tag rof va len : Nat)
  | mkeyInvalidateFor (i : MbxInst) (h : JHdr) (rkey : Nat)
  | sqCreate (i : MbxInst) (h : JHdr) (sq host addr log2 cq : Nat) (limit : Option Nat) (maint : Bool)
  | sqDelete (i : MbxInst) (h : JHdr) (sq : Nat)
  | sqStop (i : MbxInst) (h : JHdr) (sq : Nat)
  | sqResume (i : MbxInst) (h : JHdr) (sq : Nat)
  | sqReset (i : MbxInst) (h : JHdr) (sq : Nat)
  | cqCreate (i : MbxInst) (h : JHdr) (cq host addr log2 : Nat) (t0 t1 : Target) (vector : Nat) (window : Option Nat)
  | cqDelete (i : MbxInst) (h : JHdr) (cq : Nat)
  | cqSetTarget (i : MbxInst) (h : JHdr) (cq : Nat) (twin : Bool) (t : Target)
  | twinRelease (i : MbxInst) (h : JHdr)
  | twinTakeover (i : MbxInst) (h : JHdr)
  | twinRetrain (i : MbxInst) (h : JHdr)
  | scrubStart (i : MbxInst) (h : JHdr) (first last mask rate : Nat)
  | capTest (i : MbxInst) (h : JHdr)
  | savePlanned (i : MbxInst) (h : JHdr)
  | eventRead (i : MbxInst) (h : JHdr) (cursor count : Nat)
  | eventQueueSet (i : MbxInst) (h : JHdr) (slot qpn mask severity : Nat)
  | fwInfo (i : MbxInst) (h : JHdr)
  | fwTransferInitiate (i : MbxInst) (h : JHdr) (slotB : Bool) (total : Nat)
  | fwTransferContinue (i : MbxInst) (h : JHdr) (slotB : Bool) (offset : Nat) (data : List Byte)
  | fwTransferEnd (i : MbxInst) (h : JHdr) (slotB verifies : Bool)
  | fwTransferAbort (i : MbxInst) (h : JHdr) (slotB : Bool)
  | fwActivateLive (i : MbxInst) (h : JHdr) (slotB : Bool)
  | fwActivateNextReset (i : MbxInst) (h : JHdr) (slotB : Bool)
  | provision (i : MbxInst) (h : JHdr) (twin : Bool) (applianceId : Nat) (rails : List (Nat × Nat)) (replace : Bool)
  | jorridAccept (i : MbxInst) (h : JHdr) (c : JorridCmd)
  | foregroundLimitExpiry (i : MbxInst)
  | jorridCommandComplete (i : MbxInst)
  | mctpEndpointIdle (eid : Nat)
  | liveActivationReady (haltUs : Nat)
  | activationTimeout
  | bootConfirmTimeout
  | queryDeviceIdentifiers (eid : Nat)
  | getFirmwareParameters (eid : Nat)
  | pldmGetStatus (eid : Nat)
  | requestUpdate (eid maxTransfer : Nat)
  | passComponentTable (eid version : Nat)
  | updateComponent (eid : Nat) (slotB : Bool) (total : Nat)
  | cancelUpdateComponent (eid : Nat)
  | cancelUpdate (eid : Nat)
  | requestFirmwareData (eid : Nat) (data : List Byte)
  | transferComplete (eid : Nat)
  | verifyComplete (eid : Nat) (verifies : Bool)
  | applyComplete (eid : Nat)
  | activateFirmware (eid : Nat) (selfContained : Bool)
  -- identity and security (chapter 13)
  | bootRomStart (stepA stepB : Nat) (rootUsed bootSel testEn : Bool)
  | debugToken (valid rma : Bool)
  | pinControlScanLoad (instruction : Nat)
  | secArbAdvance (p : RegPath) (svn : Nat)
  | entropyFail (passes : Bool)
  | getVersion (q : SpdmPath)
  | getCapabilities (q : SpdmPath) (dataXfer : Nat)
  | negotiateAlgorithms (q : SpdmPath) (supported : Bool)
  | getDigests (q : SpdmPath)
  | getCertificate (q : SpdmPath) (slot off len : Nat)
  | challenge (q : SpdmPath) (slot nonce : Nat)
  | getMeasurements (q : SpdmPath) (index nonce : Nat) (signed : Bool)
  | chunkSend (q : SpdmPath) (chunk : Nat) (data : List Byte) (last : Bool)
  | chunkGet (q : SpdmPath) (handle chunk : Nat)
  -- configuration flash and event recorder (chapter 14)
  | eflUnlock (p : RegPath) (key : Word)
  | unlockDeadline
  | eflProgram (p : RegPath) (addr : Word) (data : DWord)
  | eflErase (p : RegPath) (addr : Word)
  | eflSuspend (p : RegPath)
  | eflResume (p : RegPath)
  | eflProgramDone
  | eflErasePulseDone (verified : Bool)
  | eflEraseDone
  | eflAutoResume
  | eflBlockScan
  | aonBrownout
  | evrRecordWrite
  | evrSubmit (p : RegPath) (p3 : Word)
  | eventNotice (queue : Fin 4)
  -- power, islands and Quiet (chapter 15)
  | pwrOkInRise
  | railVisit (rail : Fin 32) (reading : BitVec 12) (pg : Bool) (transitions : Nat)
  | qualTimeout (rail : Fin 32)
  | pwsCtlUp (p : RegPath)
  | groupDelayExpiry (group : Fin 8)
  | railRetryExpiry (rail : Fin 32)
  | retryCountReset (rail : Fin 32)
  | inputLoss (okLow : Bool)
  | dischargeTimeout (rail : Fin 32)
  | restartHoldExpiry
  | resetNAssert (ns : Nat)
  | warmResetDrainEnd
  | warmResetOverrun
  | quietEnter (p : RegPath)
  | quietWake (p : RegPath)
  | wakeTrigger (c : WakeCause)
  | wakeComplete (tenthUs : Nat)
  -- two-wire buses (chapter 16)
  | mgtBlockWrite (cmd count : Nat) (destEid srcEid tag pktSeq : Nat) (som eom pecOk : Bool) (data : List Byte)
  | mgtBlockRead (completed : Bool)
  | alertResponseRead (won : Bool)
  | alertReassert
  | mgtProtocolError (inAck : Bool)
  | mgtClkLowTimeout
  | mgtDataLowTimeout
  | setEndpointId (srcEid eid : Nat)
  | getEndpointId (srcEid : Nat)
  | getMctpVersionSupport (srcEid : Nat)
  | getMessageTypeSupport (srcEid : Nat)
  | getVendorDefinedMessageSupport (srcEid : Nat)
  | psbGo (p : RegPath) (val : Word)
  | psbTransactionDone (r : PsbResult) (cleared : Bool)
  | psbReset (p : RegPath) (cleared stuck : BitVec 4)
  | psbSdaStuckRetry (port : Fin 4) (cleared : Bool)
  | psbClkLowTimeout (sda : Sda)
  -- errors (chapter 17)
  | meshParityError (link replays : Nat) (ok : Bool) (lost : Option MeshSource)
  | meshLinkDegraded (link : Nat)
  | engineIstoreParity (engine : Fin 28) (within1s : Bool)
  | engineReloadDone (engine : Fin 28)
  | sramDescriptorError (word : SramWord)
  | ccMemUncorrectable
  | errorRateWindow
  -- Legacy Aperture (chapter 18)
  | bar2Read (ld : Fin 32) (tag off size : Nat)
  | bar2Write (ld : Fin 32) (off size : Nat) (data : List Byte)
  | lapStagedApply
  | lapCommitRead (p : RegPath)
  | lapCommitReturn
  | lapDrainReq (p : RegPath)
  | lapDrainClear (p : RegPath)
  | lapBaseWrite (p : RegPath) (val : Word)
  -- the last rows of the table
  | aonBrownoutClear
  | aonReset (addrSel : Fin 4)
  | cxlHostConnected (port link : Fin 2)
  | fecUncorr (port : Fin 8)
  deriving DecidableEq, Repr

end Sys2Proof
end

