-- ==== Sys2Proof/Machine/RegTable.lean ====
section
/-! DEFINITION. The register table: one descriptor per register (or array of registers) of the
spec's register sections, with its offset, reset value and the bits of each access code (R12). The
offsets have names in `Reg`. Bits that no mask names are RO or RSV; RSV bits never hold a 1. -/

namespace Sys2Proof.Machine

/-- A register, or an array of `cnt` × `cnt2` of them: the byte offset of its first, the strides, the
reset value, and the masks of its RW, RWL, W1C, W1S, RC and WO bits. `host` are the writable bits that
carry no FW marker; every other RW, RWL, WO and W1S bit does (R12, R14). `pair` is 1 for the `_LO` and
2 for the `_HI` half of a pair (R11). -/
structure RegDesc where
  off : Nat
  rst : Nat := 0
  rw : Nat := 0
  rwl : Nat := 0
  w1c : Nat := 0
  w1s : Nat := 0
  rc : Nat := 0
  wo : Nat := 0
  host : Nat := 0
  cnt : Nat := 1
  stride : Nat := 4
  cnt2 : Nat := 1
  stride2 : Nat := 4
  pair : Nat := 0
  deriving DecidableEq, Repr

/-! Offsets (array registers: the first of them). -/

/-- R63. -/ def Reg.glbPartId : Nat := 0x0
/-- R64. -/ def Reg.glbFwReject : Nat := 0x10
/-- R65. -/ def Reg.glbBadAccess : Nat := 0x14
/-- R66. -/ def Reg.glbPrivLd : Nat := 0x20
/-- R67. -/ def Reg.glbLock : Nat := 0x30
/-- R68. -/ def Reg.glbRgnSel : Nat := 0x1000
/-- R69. -/ def Reg.glbRgnAttr : Nat := 0x1004
/-- R70. -/ def Reg.glbRgnSize : Nat := 0x1008
/-- R71. -/ def Reg.glbRgnPseqLo : Nat := 0x100C
/-- R71. -/ def Reg.glbRgnPseqHi : Nat := 0x1010
/-- R72. -/ def Reg.glbXltStatus : Nat := 0x1100
/-- R73. -/ def Reg.glbXltAddrLo : Nat := 0x1104
/-- R73. -/ def Reg.glbXltAddrHi : Nat := 0x1108
/-- R74. -/ def Reg.glbXltCount : Nat := 0x110C
/-- R668. -/ def Reg.glbIntStatus : Nat := 0x2000
/-- R669. -/ def Reg.glbIntMask : Nat := 0x2004
/-- R670. -/ def Reg.glbEvtCfg : Nat := 0x2010
/-- R671. -/ def Reg.glbErrThresh : Nat := 0x2020
/-- R671. -/ def Reg.glbErrWindow : Nat := 0x2024
/-- R672. -/ def Reg.glbErrEvent : Nat := 0x2030
/-- R673. -/ def Reg.glbErrLast : Nat := 0x2034
/-- R674. -/ def Reg.glbErrCount : Nat := 0x2040
/-- R674. -/ def Reg.glbMeshReplay : Nat := 0x2060
/-- R626. -/ def Reg.islCtl : Nat := 0x40000
/-- R626. -/ def Reg.islLock : Nat := 0x40004
/-- R626. -/ def Reg.islQuietCfg : Nat := 0x40010
/-- R626. -/ def Reg.islQuietCmd : Nat := 0x40014
/-- R627. -/ def Reg.islStatus : Nat := 0x40018
/-- R627. -/ def Reg.islEvent : Nat := 0x4001C
/-- R627. -/ def Reg.islGatedAddr : Nat := 0x40020
/-- R628. -/ def Reg.islWakeCause : Nat := 0x40024
/-- R628. -/ def Reg.islWakeTime : Nat := 0x40028
/-- R628. -/ def Reg.islCount : Nat := 0x40030
/-- R523. -/ def Reg.mbxPbarrier : Nat := 0x81F00
/-- R524. -/ def Reg.mbxJstatus : Nat := 0x81F04
/-- R524. -/ def Reg.mbxJseq : Nat := 0x81F08
/-- R525. -/ def Reg.mbxCtl : Nat := 0xC0000
/-- R525. -/ def Reg.mbxLock : Nat := 0xC0004
/-- R526. -/ def Reg.mbxCfg : Nat := 0xC0010
/-- R527. -/ def Reg.mbxFwStatus : Nat := 0xC0020
/-- R527. -/ def Reg.mbxFwVersion : Nat := 0xC0024
/-- R528. -/ def Reg.mbxActHalt : Nat := 0xC0030
/-- R528. -/ def Reg.mbxEvent : Nat := 0xC0040
/-- R529. -/ def Reg.mbxCount : Nat := 0xC0050
/-- R110. -/ def Reg.cxPortCfg : Nat := 0x100000
/-- R111. -/ def Reg.cxLock : Nat := 0x100004
/-- R112. -/ def Reg.cxLinkStatus : Nat := 0x100010
/-- R113. -/ def Reg.cxLinkEvent : Nat := 0x100014
/-- R114. -/ def Reg.cxDownCount : Nat := 0x100018
/-- R115. -/ def Reg.cxTrackLimit : Nat := 0x100020
/-- R116. -/ def Reg.cxStageLimit : Nat := 0x100024
/-- R117. -/ def Reg.cxStageUsed : Nat := 0x100028
/-- R118. -/ def Reg.cxTimers : Nat := 0x100030
/-- R119. -/ def Reg.cxGpf : Nat := 0x100040
/-- R120. -/ def Reg.cxLdCtl : Nat := 0x101000
/-- R121. -/ def Reg.cxLdStatus : Nat := 0x101004
/-- R122. -/ def Reg.cxLdWr : Nat := 0x101008
/-- R122. -/ def Reg.cxLdRefused : Nat := 0x10100C
/-- R122. -/ def Reg.cxLdBarrier : Nat := 0x101010
/-- R173. -/ def Reg.netPortMode : Nat := 0x200000
/-- R174. -/ def Reg.netLock : Nat := 0x200004
/-- R175. -/ def Reg.netDcb : Nat := 0x200010
/-- R176. -/ def Reg.netEts0 : Nat := 0x200014
/-- R176. -/ def Reg.netEts1 : Nat := 0x200018
/-- R177. -/ def Reg.netQosMap : Nat := 0x20001C
/-- R178. -/ def Reg.netLldp : Nat := 0x200020
/-- R179. -/ def Reg.netSvcBaseLo : Nat := 0x200028
/-- R179. -/ def Reg.netSvcBaseHi : Nat := 0x20002C
/-- R180. -/ def Reg.netPortStatus : Nat := 0x200100
/-- R181. -/ def Reg.netPortEvent : Nat := 0x200104
/-- R182. -/ def Reg.rdxCtl : Nat := 0x300000
/-- R182. -/ def Reg.rdxLock : Nat := 0x300004
/-- R183. -/ def Reg.rdxTrackLimit : Nat := 0x300010
/-- R184. -/ def Reg.rdxTimers : Nat := 0x300014
/-- R184. -/ def Reg.rdxKeying : Nat := 0x300018
/-- R185. -/ def Reg.rdxEcn : Nat := 0x300020
/-- R185. -/ def Reg.rdxRnr : Nat := 0x300024
/-- R186. -/ def Reg.rdxReqRetry : Nat := 0x300028
/-- R187. -/ def Reg.rdxEvent : Nat := 0x300030
/-- R188. -/ def Reg.rdxQpEst : Nat := 0x300040
/-- R188. -/ def Reg.rdxQpQuar : Nat := 0x300044
/-- R189. -/ def Reg.rdxCount : Nat := 0x300050
/-- R227. -/ def Reg.tqmCtl : Nat := 0x400000
/-- R228. -/ def Reg.tqmLock : Nat := 0x400004
/-- R229. -/ def Reg.tqmDoorbell : Nat := 0x400008
/-- R230. -/ def Reg.tqmStatus : Nat := 0x400010
/-- R231. -/ def Reg.tqmEvent : Nat := 0x400014
/-- R236. -/ def Reg.tqmCount : Nat := 0x400020
/-- R232. -/ def Reg.tqmSqSel : Nat := 0x401000
/-- R233. -/ def Reg.tqmSqInfo : Nat := 0x401004
/-- R234. -/ def Reg.tqmSqFetchLo : Nat := 0x401008
/-- R234. -/ def Reg.tqmSqFetchHi : Nat := 0x40100C
/-- R234. -/ def Reg.tqmSqCompleted : Nat := 0x401010
/-- R232. -/ def Reg.tqmCqSel : Nat := 0x401100
/-- R235. -/ def Reg.tqmCqInfo : Nat := 0x401104
/-- R234. -/ def Reg.tqmCqNextLo : Nat := 0x401108
/-- R234. -/ def Reg.tqmCqNextHi : Nat := 0x40110C
/-- R234. -/ def Reg.tqmCqConsLo : Nat := 0x401110
/-- R234. -/ def Reg.tqmCqConsHi : Nat := 0x401114
/-- R274. -/ def Reg.plcCtl : Nat := 0x500000
/-- R275. -/ def Reg.plcLock : Nat := 0x500004
/-- R276. -/ def Reg.plcTimers : Nat := 0x500010
/-- R276. -/ def Reg.plcFreeWm : Nat := 0x500014
/-- R276. -/ def Reg.plcPinLimit : Nat := 0x500018
/-- R276. -/ def Reg.plcSweep : Nat := 0x50001C
/-- R276. -/ def Reg.plcTmcCfg : Nat := 0x500020
/-- R278. -/ def Reg.plcStatus : Nat := 0x500030
/-- R279. -/ def Reg.plcTotals : Nat := 0x500034
/-- R280. -/ def Reg.plcEvent : Nat := 0x500050
/-- R281. -/ def Reg.plcCount : Nat := 0x500060
/-- R277. -/ def Reg.plcClass : Nat := 0x500100
/-- R282. -/ def Reg.plcRgnSel : Nat := 0x501000
/-- R282. -/ def Reg.plcRgnVals : Nat := 0x501004
/-- R283. -/ def Reg.plcTileSelLo : Nat := 0x501100
/-- R283. -/ def Reg.plcTileSelHi : Nat := 0x501104
/-- R283. -/ def Reg.plcTileEntryLo : Nat := 0x501108
/-- R283. -/ def Reg.plcTileEntryHi : Nat := 0x50110C
/-- R304. -/ def Reg.hlcCtl : Nat := 0x580000
/-- R305. -/ def Reg.hlcLock : Nat := 0x580004
/-- R306. -/ def Reg.hlcDirty : Nat := 0x580010
/-- R307. -/ def Reg.hlcStatus : Nat := 0x580014
/-- R308. -/ def Reg.hlcEvent : Nat := 0x580018
/-- R309. -/ def Reg.hlcClass : Nat := 0x580100
/-- R310. -/ def Reg.hlcClassLines : Nat := 0x580140
/-- R311. -/ def Reg.hlcMaintLo : Nat := 0x580200
/-- R311. -/ def Reg.hlcMaintHi : Nat := 0x580204
/-- R311. -/ def Reg.hlcMaintCmd : Nat := 0x580208
/-- R312. -/ def Reg.hlcMaintStatus : Nat := 0x58020C
/-- R313. -/ def Reg.hlcCount : Nat := 0x580300
/-- R348. -/ def Reg.dmcCtl : Nat := 0x640000
/-- R349. -/ def Reg.dmcLock : Nat := 0x640004
/-- R350. -/ def Reg.dmcConfig : Nat := 0x640010
/-- R351. -/ def Reg.dmcPort0 : Nat := 0x640100
/-- R351. -/ def Reg.dmcPort1 : Nat := 0x640104
/-- R351. -/ def Reg.dmcPort2 : Nat := 0x640108
/-- R351. -/ def Reg.dmcPort3 : Nat := 0x64010C
/-- R351. -/ def Reg.dmcPort4 : Nat := 0x640110
/-- R351. -/ def Reg.dmcPort5 : Nat := 0x640114
/-- R352. -/ def Reg.dmcBoost : Nat := 0x640120
/-- R353. -/ def Reg.dmcPage : Nat := 0x640130
/-- R353. -/ def Reg.dmcWq : Nat := 0x640134
/-- R353. -/ def Reg.dmcRefresh : Nat := 0x640138
/-- R354. -/ def Reg.dmcRetrain : Nat := 0x64013C
/-- R355. -/ def Reg.dmcTrain : Nat := 0x640140
/-- R356. -/ def Reg.dmcEvent : Nat := 0x640150
/-- R357. -/ def Reg.dmcScrubStartLo : Nat := 0x640200
/-- R357. -/ def Reg.dmcScrubStartHi : Nat := 0x640204
/-- R357. -/ def Reg.dmcScrubEndLo : Nat := 0x640208
/-- R357. -/ def Reg.dmcScrubEndHi : Nat := 0x64020C
/-- R357. -/ def Reg.dmcScrubCtl : Nat := 0x640210
/-- R357. -/ def Reg.dmcScrubSectorsLo : Nat := 0x640220
/-- R357. -/ def Reg.dmcScrubSectorsHi : Nat := 0x640224
/-- R357. -/ def Reg.dmcScrubCounts : Nat := 0x640228
/-- R357. -/ def Reg.dmcScrubFirstLo : Nat := 0x640234
/-- R357. -/ def Reg.dmcScrubFirstHi : Nat := 0x640238
/-- R357. -/ def Reg.dmcScrubMs : Nat := 0x64023C
/-- R358. -/ def Reg.dmcChStatus : Nat := 0x600000
/-- R359. -/ def Reg.dmcChEvent : Nat := 0x600004
/-- R360. -/ def Reg.dmcChFailLo : Nat := 0x600008
/-- R360. -/ def Reg.dmcChFailHi : Nat := 0x60000C
/-- R361. -/ def Reg.dmcChCount : Nat := 0x600020
/-- R362. -/ def Reg.dmcChiveLo : Nat := 0x600100
/-- R362. -/ def Reg.dmcChiveHi : Nat := 0x600104
/-- R390. -/ def Reg.fmcCtl : Nat := 0x700000
/-- R390. -/ def Reg.fmcLock : Nat := 0x700004
/-- R391. -/ def Reg.fmcGeom0 : Nat := 0x700010
/-- R391. -/ def Reg.fmcGeom1 : Nat := 0x700014
/-- R392. -/ def Reg.fmcLdpc : Nat := 0x700020
/-- R392. -/ def Reg.fmcProg : Nat := 0x700024
/-- R392. -/ def Reg.fmcGc : Nat := 0x700028
/-- R392. -/ def Reg.fmcPatrol : Nat := 0x70002C
/-- R392. -/ def Reg.fmcSaveCfg : Nat := 0x700030
/-- R393. -/ def Reg.fmcSaveStatus : Nat := 0x700034
/-- R393. -/ def Reg.fmcSaveCapLo : Nat := 0x700038
/-- R393. -/ def Reg.fmcSaveCapHi : Nat := 0x70003C
/-- R394. -/ def Reg.fmcEvent : Nat := 0x700040
/-- R395. -/ def Reg.fmcCount : Nat := 0x700060
/-- R396. -/ def Reg.fmcSetSel : Nat := 0x701000
/-- R396. -/ def Reg.fmcSetVals : Nat := 0x701004
/-- R397. -/ def Reg.fmcChStatus : Nat := 0x702000
/-- R426. -/ def Reg.elgCtl : Nat := 0x800000
/-- R427. -/ def Reg.elgLock : Nat := 0x800004
/-- R428. -/ def Reg.elgModule : Nat := 0x800010
/-- R428. -/ def Reg.elgNameplate : Nat := 0x800014
/-- R429. -/ def Reg.elgTemp : Nat := 0x800018
/-- R429. -/ def Reg.elgReserve : Nat := 0x80001C
/-- R429. -/ def Reg.elgTestCfg : Nat := 0x800020
/-- R430. -/ def Reg.elgDrain : Nat := 0x800024
/-- R430. -/ def Reg.elgSaveCfg : Nat := 0x800028
/-- R430. -/ def Reg.elgThrottle : Nat := 0x80002C
/-- R431. -/ def Reg.elgCost : Nat := 0x800030
/-- R431. -/ def Reg.elgMapTiles : Nat := 0x800034
/-- R432. -/ def Reg.elgVmv : Nat := 0x800040
/-- R432. -/ def Reg.elgIma : Nat := 0x800044
/-- R432. -/ def Reg.elgTempC : Nat := 0x800048
/-- R432. -/ def Reg.elgCap : Nat := 0x80004C
/-- R432. -/ def Reg.elgCapLast : Nat := 0x800050
/-- R433. -/ def Reg.elgLedger : Nat := 0x800060
/-- R434. -/ def Reg.elgStatus : Nat := 0x800080
/-- R435. -/ def Reg.elgEvent : Nat := 0x800084
/-- R436. -/ def Reg.elgCmd : Nat := 0x800088
/-- R437. -/ def Reg.elgSageTiles : Nat := 0x800090
/-- R437. -/ def Reg.elgSageMs : Nat := 0x800094
/-- R438. -/ def Reg.elgCount : Nat := 0x8000A0
/-- R484. -/ def Reg.twnCtl : Nat := 0x880000
/-- R485. -/ def Reg.twnLock : Nat := 0x880004
/-- R486. -/ def Reg.twnId : Nat := 0x880008
/-- R486. -/ def Reg.twnApplLo : Nat := 0x88000C
/-- R486. -/ def Reg.twnApplHi : Nat := 0x880010
/-- R487. -/ def Reg.twnStatus : Nat := 0x880020
/-- R488. -/ def Reg.twnEpoch : Nat := 0x880024
/-- R489. -/ def Reg.twnHb : Nat := 0x880030
/-- R489. -/ def Reg.twnFence : Nat := 0x880034
/-- R490. -/ def Reg.twnPeerWait : Nat := 0x880038
/-- R490. -/ def Reg.twnRevert : Nat := 0x88003C
/-- R490. -/ def Reg.twnResync : Nat := 0x880040
/-- R491. -/ def Reg.twnShaum : Nat := 0x880044
/-- R491. -/ def Reg.twnWatch : Nat := 0x880048
/-- R492. -/ def Reg.twnEvent : Nat := 0x880050
/-- R493. -/ def Reg.twnCmd : Nat := 0x880054
/-- R495. -/ def Reg.twnCount : Nat := 0x880060
/-- R494. -/ def Reg.twnResyncRegions : Nat := 0x880080
/-- R494. -/ def Reg.twnResyncTilesLo : Nat := 0x880084
/-- R494. -/ def Reg.twnResyncTilesHi : Nat := 0x880088
/-- R495. -/ def Reg.twnFenceFail : Nat := 0x880090
/-- R496. -/ def Reg.twnHealth : Nat := 0x880100
/-- R557. -/ def Reg.secCtl : Nat := 0x900000
/-- R557. -/ def Reg.secLock : Nat := 0x900004
/-- R558. -/ def Reg.secLifecycle : Nat := 0x900010
/-- R559. -/ def Reg.secSerial : Nat := 0x900014
/-- R559. -/ def Reg.secArb : Nat := 0x900030
/-- R559. -/ def Reg.secArbAdvance : Nat := 0x900034
/-- R560. -/ def Reg.secBoot : Nat := 0x900040
/-- R561. -/ def Reg.secChallenge : Nat := 0x900050
/-- R563. -/ def Reg.secEvent : Nat := 0x900080
/-- R564. -/ def Reg.secCount : Nat := 0x900090
/-- R562. -/ def Reg.secKeySel : Nat := 0x901000
/-- R562. -/ def Reg.secKeyInfo : Nat := 0x901004
/-- R237. -/ def Reg.crcStatus : Nat := 0x980000
/-- R237. -/ def Reg.crcExpLo : Nat := 0x980004
/-- R237. -/ def Reg.crcExpHi : Nat := 0x980008
/-- R237. -/ def Reg.crcResLo : Nat := 0x98000C
/-- R237. -/ def Reg.crcResHi : Nat := 0x980010
/-- R238. -/ def Reg.crcMismatch : Nat := 0x980400
/-- R238. -/ def Reg.crcMismatchCount : Nat := 0x980404
/-- R239. -/ def Reg.crcFwCfg : Nat := 0x981000
/-- R239. -/ def Reg.crcFwCtl : Nat := 0x981004
/-- R239. -/ def Reg.crcFwPolyLo : Nat := 0x981008
/-- R239. -/ def Reg.crcFwPolyHi : Nat := 0x98100C
/-- R239. -/ def Reg.crcFwInitLo : Nat := 0x981010
/-- R239. -/ def Reg.crcFwInitHi : Nat := 0x981014
/-- R239. -/ def Reg.crcFwXoroutLo : Nat := 0x981018
/-- R239. -/ def Reg.crcFwXoroutHi : Nat := 0x98101C
/-- R239. -/ def Reg.crcFwStateLo : Nat := 0x981020
/-- R239. -/ def Reg.crcFwStateHi : Nat := 0x981024
/-- R239. -/ def Reg.crcFwData32 : Nat := 0x981028
/-- R239. -/ def Reg.crcFwData8 : Nat := 0x98102C
/-- R239. -/ def Reg.crcFwResultLo : Nat := 0x981030
/-- R239. -/ def Reg.crcFwResultHi : Nat := 0x981034
/-- R190. -/ def Reg.bpmCfg0 : Nat := 0x9C0000
/-- R194. -/ def Reg.bpmLow0 : Nat := 0x9C0014
/-- R190. -/ def Reg.bpmCfg1 : Nat := 0x9C0020
/-- R194. -/ def Reg.bpmLow1 : Nat := 0x9C0034
/-- R190. -/ def Reg.bpmCfg2 : Nat := 0x9C0040
/-- R194. -/ def Reg.bpmLow2 : Nat := 0x9C0054
/-- R190. -/ def Reg.bpmCfg3 : Nat := 0x9C0060
/-- R194. -/ def Reg.bpmLow3 : Nat := 0x9C0074
/-- R190. -/ def Reg.bpmCfg4 : Nat := 0x9C0080
/-- R194. -/ def Reg.bpmLow4 : Nat := 0x9C0094
/-- R191. -/ def Reg.bpmThresh : Nat := 0x9C0004
/-- R192. -/ def Reg.bpmStatus : Nat := 0x9C0008
/-- R193. -/ def Reg.bpmEvent : Nat := 0x9C000C
/-- R194. -/ def Reg.bpmDfree : Nat := 0x9C0010
/-- R195. -/ def Reg.bpmLock : Nat := 0x9C0100
/-- R584. -/ def Reg.eflUnlock : Nat := 0xA00000
/-- R584. -/ def Reg.eflCmd : Nat := 0xA00004
/-- R584. -/ def Reg.eflAddr : Nat := 0xA00008
/-- R585. -/ def Reg.eflDataLo : Nat := 0xA0000C
/-- R585. -/ def Reg.eflDataHi : Nat := 0xA00010
/-- R586. -/ def Reg.eflStatus : Nat := 0xA00014
/-- R585. -/ def Reg.eflRaddr : Nat := 0xA00018
/-- R585. -/ def Reg.eflRdataLo : Nat := 0xA0001C
/-- R585. -/ def Reg.eflRdataHi : Nat := 0xA00020
/-- R587. -/ def Reg.eflBlockSel : Nat := 0xA00030
/-- R587. -/ def Reg.eflBlockState : Nat := 0xA00034
/-- R588. -/ def Reg.eflLock : Nat := 0xA00040
/-- R588. -/ def Reg.eflKeyErr : Nat := 0xA00050
/-- R589. -/ def Reg.evrCtl : Nat := 0xA40000
/-- R589. -/ def Reg.evrLock : Nat := 0xA40004
/-- R589. -/ def Reg.evrCursor : Nat := 0xA40008
/-- R589. -/ def Reg.evrNext : Nat := 0xA4000C
/-- R589. -/ def Reg.evrOldest : Nat := 0xA40010
/-- R590. -/ def Reg.evrStatus : Nat := 0xA40014
/-- R590. -/ def Reg.evrWindow : Nat := 0xA40020
/-- R591. -/ def Reg.evrSubmit : Nat := 0xA40040
/-- R591. -/ def Reg.evrDrop : Nat := 0xA40060
/-- R619. -/ def Reg.pwsCtl : Nat := 0xA80000
/-- R619. -/ def Reg.pwsLock : Nat := 0xA80004
/-- R620. -/ def Reg.pwsStatus : Nat := 0xA80010
/-- R620. -/ def Reg.pwsTimers : Nat := 0xA80018
/-- R621. -/ def Reg.pwsGroup : Nat := 0xA80020
/-- R623. -/ def Reg.pwsEvent : Nat := 0xA80040
/-- R624. -/ def Reg.pwsFirstOp : Nat := 0xA80044
/-- R624. -/ def Reg.pwsFirstPd : Nat := 0xA80048
/-- R624. -/ def Reg.pwsFirstOpTimeLo : Nat := 0xA80050
/-- R624. -/ def Reg.pwsFirstOpTimeHi : Nat := 0xA80054
/-- R624. -/ def Reg.pwsFirstPdTimeLo : Nat := 0xA80058
/-- R624. -/ def Reg.pwsFirstPdTimeHi : Nat := 0xA8005C
/-- R625. -/ def Reg.pwsSaveGenLo : Nat := 0xA80070
/-- R625. -/ def Reg.pwsSaveGenHi : Nat := 0xA80074
/-- R625. -/ def Reg.pwsCount : Nat := 0xA80080
/-- R622. -/ def Reg.pwsRailCfg0 : Nat := 0xA80100
/-- R622. -/ def Reg.pwsRailCfg1 : Nat := 0xA80140
/-- R622. -/ def Reg.pwsRailCfg2 : Nat := 0xA80180
/-- R622. -/ def Reg.pwsRailCfg3 : Nat := 0xA801C0
/-- R622. -/ def Reg.pwsRailCfg4 : Nat := 0xA80200
/-- R622. -/ def Reg.pwsRailCfg5 : Nat := 0xA80240
/-- R622. -/ def Reg.pwsRailCfg6 : Nat := 0xA80280
/-- R622. -/ def Reg.pwsRailCfg7 : Nat := 0xA802C0
/-- R622. -/ def Reg.pwsRailWin : Nat := 0xA80104
/-- R622. -/ def Reg.pwsRailPd : Nat := 0xA80108
/-- R622. -/ def Reg.pwsRailStatus : Nat := 0xA8010C
/-- R643. -/ def Reg.twbCtl : Nat := 0xAC0000
/-- R643. -/ def Reg.twbLock : Nat := 0xAC0004
/-- R644. -/ def Reg.twbMgtStatus : Nat := 0xAC0010
/-- R644. -/ def Reg.twbMgtEvent : Nat := 0xAC0014
/-- R644. -/ def Reg.twbAlert : Nat := 0xAC0018
/-- R645. -/ def Reg.twbTimeout : Nat := 0xAC0020
/-- R645. -/ def Reg.twbHoldup : Nat := 0xAC0024
/-- R649. -/ def Reg.twbMgtCount : Nat := 0xAC0030
/-- R646. -/ def Reg.twbPsbCmd : Nat := 0xAC0100
/-- R647. -/ def Reg.twbPsbStatus : Nat := 0xAC0104
/-- R647. -/ def Reg.twbPsbEvent : Nat := 0xAC0108
/-- R649. -/ def Reg.twbPsbCount : Nat := 0xAC0110
/-- R648. -/ def Reg.twbPsbData : Nat := 0xAC0200
/-- R684. -/ def Reg.lapCtl : Nat := 0xB00000
/-- R684. -/ def Reg.lapLock : Nat := 0xB00004
/-- R685. -/ def Reg.lapLdEn : Nat := 0xB00008
/-- R685. -/ def Reg.lapBase : Nat := 0xB00010
/-- R685. -/ def Reg.lapDrain : Nat := 0xB00014
/-- R686. -/ def Reg.lapCommit : Nat := 0xB00018
/-- R686. -/ def Reg.lapStatus : Nat := 0xB0001C
/-- R687. -/ def Reg.lapEvent : Nat := 0xB00020
/-- R688. -/ def Reg.lapCount : Nat := 0xB00030

/-- The registers of block GLB. -/
def regsGlb : List RegDesc := [
  { off := Reg.glbPartId, rst := 0x9600100 },
  { off := Reg.glbFwReject, rc := 0xFFFFFFFF },
  { off := Reg.glbBadAccess, rc := 0xFFFFFFFF },
  { off := Reg.glbPrivLd, rwl := 0xFFFFFFFF },
  { off := Reg.glbLock, w1s := 0x1 },
  { off := Reg.glbRgnSel, rw := 0xFFF, host := 0xFFF },
  { off := Reg.glbRgnAttr },
  { off := Reg.glbRgnSize },
  { off := Reg.glbRgnPseqLo, pair := 1 },
  { off := Reg.glbRgnPseqHi, pair := 2 },
  { off := Reg.glbXltStatus, w1c := 0x3 },
  { off := Reg.glbXltAddrLo, pair := 1 },
  { off := Reg.glbXltAddrHi, pair := 2 },
  { off := Reg.glbXltCount, rc := 0xFFFFFFFF },
  { off := Reg.glbIntStatus },
  { off := Reg.glbIntMask, rw := 0x3FFFFF },
  { off := Reg.glbEvtCfg, rst := 0x1, rw := 0x3 },
  { off := Reg.glbErrThresh, rst := 0x1003E8, rw := 0xFFFFFFF },
  { off := Reg.glbErrWindow, rst := 0x3C, rw := 0xFFF },
  { off := Reg.glbErrEvent, w1c := 0x1F },
  { off := Reg.glbErrLast },
  { off := Reg.glbErrCount, rc := 0xFFFFFFFF, cnt := 8, stride := 0x4 },
  { off := Reg.glbMeshReplay, rc := 0xFFFFFFFF }]

/-- The registers of block ISL. -/
def regsIsl : List RegDesc := [
  { off := Reg.islCtl, rw := 0x1 },
  { off := Reg.islLock, w1s := 0x1 },
  { off := Reg.islQuietCfg, rst := 0x3E8, rw := 0xFFFF },
  { off := Reg.islQuietCmd, wo := 0x3 },
  { off := Reg.islStatus },
  { off := Reg.islEvent, w1c := 0x1F },
  { off := Reg.islGatedAddr },
  { off := Reg.islWakeCause },
  { off := Reg.islWakeTime },
  { off := Reg.islCount, rc := 0xFFFFFFFF, cnt := 3, stride := 0x4 }]

/-- The registers of block MBX. -/
def regsMbx : List RegDesc := [
  { off := Reg.mbxPbarrier, cnt := 32, stride := 0x2000 },
  { off := Reg.mbxJstatus, cnt := 32, stride := 0x2000 },
  { off := Reg.mbxJseq, cnt := 32, stride := 0x2000 },
  { off := Reg.mbxCtl, rst := 0x4, rw := 0x1B, rwl := 0x4 },
  { off := Reg.mbxLock, w1s := 0x1 },
  { off := Reg.mbxCfg, rst := 0x1002, rw := 0x3F7F },
  { off := Reg.mbxFwStatus },
  { off := Reg.mbxFwVersion, cnt := 2, stride := 0x4 },
  { off := Reg.mbxActHalt },
  { off := Reg.mbxEvent, w1c := 0x1F },
  { off := Reg.mbxCount, rc := 0xFFFFFFFF, cnt := 5, stride := 0x4 }]

/-- The registers of block CX. -/
def regsCx : List RegDesc := [
  { off := Reg.cxPortCfg, rst := 0x3C, rw := 0x1, rwl := 0x3E, cnt := 2, stride := 0x40000 },
  { off := Reg.cxLock, w1s := 0x1, cnt := 2, stride := 0x40000 },
  { off := Reg.cxLinkStatus, cnt := 2, stride := 0x40000 },
  { off := Reg.cxLinkEvent, w1c := 0x707, cnt := 2, stride := 0x40000 },
  { off := Reg.cxDownCount, rc := 0xFFFFFFFF, cnt := 2, stride := 0x40000 },
  { off := Reg.cxTrackLimit, rst := 0x800, rw := 0x1FFF, cnt := 2, stride := 0x40000 },
  { off := Reg.cxStageLimit, rst := 0x4000, rw := 0xFFFF, cnt := 2, stride := 0x40000 },
  { off := Reg.cxStageUsed, rc := 0xFFFF0000, cnt := 2, stride := 0x40000 },
  { off := Reg.cxTimers, rst := 0x1E03C, rw := 0x3FFFFF, cnt := 2, stride := 0x40000 },
  { off := Reg.cxGpf, w1c := 0x20000, cnt := 2, stride := 0x40000 },
  { off := Reg.cxLdCtl, rw := 0x7, cnt := 2, stride := 0x40000, cnt2 := 16, stride2 := 0x40 },
  { off := Reg.cxLdStatus, cnt := 2, stride := 0x40000, cnt2 := 16, stride2 := 0x40 },
  { off := Reg.cxLdWr, rc := 0xFFFFFFFF, cnt := 2, stride := 0x40000, cnt2 := 16, stride2 := 0x40 },
  { off := Reg.cxLdRefused, rc := 0xFFFFFFFF, cnt := 2, stride := 0x40000, cnt2 := 16, stride2 := 0x40 },
  { off := Reg.cxLdBarrier, cnt := 2, stride := 0x40000, cnt2 := 16, stride2 := 0x40 }]

/-- The registers of block NET. -/
def regsNet : List RegDesc := [
  { off := Reg.netPortMode, rst := 0x1, rw := 0xFF00, rwl := 0x3 },
  { off := Reg.netLock, w1s := 0x1 },
  { off := Reg.netDcb, rst := 0x6C018, rw := 0x7FFFF },
  { off := Reg.netEts0, rst := 0x3200000A, rw := 0xFFFFFFFF },
  { off := Reg.netEts1, rst := 0x28, rw := 0xFFFFFFFF },
  { off := Reg.netQosMap, rst := 0x9246DB, rw := 0xFFFFFF },
  { off := Reg.netLldp, rst := 0x3D, rw := 0x1FFF },
  { off := Reg.netSvcBaseLo, rwl := 0xFFFFFFF0, pair := 1 },
  { off := Reg.netSvcBaseHi, rwl := 0xFFFFFFFF, pair := 2 },
  { off := Reg.netPortStatus, cnt := 8, stride := 0x10 },
  { off := Reg.netPortEvent, w1c := 0x7, cnt := 8, stride := 0x10 }]

/-- The registers of block RDX. -/
def regsRdx : List RegDesc := [
  { off := Reg.rdxCtl, rw := 0x1 },
  { off := Reg.rdxLock, w1s := 0x1 },
  { off := Reg.rdxTrackLimit, rst := 0x1000, rw := 0x3FFF },
  { off := Reg.rdxTimers, rst := 0x1E0064, rw := 0x3FFFFFF },
  { off := Reg.rdxKeying, rst := 0x4007D0, rw := 0x7FFFFF },
  { off := Reg.rdxEcn, rst := 0x160032, rw := 0xFFFFFF },
  { off := Reg.rdxRnr, rst := 0xC, rw := 0x1F },
  { off := Reg.rdxReqRetry, rst := 0xFA7EE, rw := 0x1FFFFF },
  { off := Reg.rdxEvent, w1c := 0x1F },
  { off := Reg.rdxQpEst },
  { off := Reg.rdxQpQuar },
  { off := Reg.rdxCount, rc := 0xFFFFFFFF, cnt := 7, stride := 0x4 }]

/-- The registers of block TQM. -/
def regsTqm : List RegDesc := [
  { off := Reg.tqmCtl, rw := 0x1 },
  { off := Reg.tqmLock, w1s := 0x1 },
  { off := Reg.tqmDoorbell, wo := 0xFFF },
  { off := Reg.tqmStatus },
  { off := Reg.tqmEvent, w1c := 0xF },
  { off := Reg.tqmCount, rc := 0xFFFFFFFF, cnt := 3, stride := 0x4 },
  { off := Reg.tqmSqSel, rw := 0xFFF, host := 0xFFF },
  { off := Reg.tqmSqInfo },
  { off := Reg.tqmSqFetchLo, pair := 1 },
  { off := Reg.tqmSqFetchHi, pair := 2 },
  { off := Reg.tqmSqCompleted },
  { off := Reg.tqmCqSel, rw := 0xFFF, host := 0xFFF },
  { off := Reg.tqmCqInfo },
  { off := Reg.tqmCqNextLo, pair := 1 },
  { off := Reg.tqmCqNextHi, pair := 2 },
  { off := Reg.tqmCqConsLo, pair := 1 },
  { off := Reg.tqmCqConsHi, pair := 2 }]

/-- The registers of block PLC. -/
def regsPlc : List RegDesc := [
  { off := Reg.plcCtl, rw := 0xF },
  { off := Reg.plcLock, w1s := 0x1 },
  { off := Reg.plcTimers, rst := 0xA000A, rw := 0x3FF03FF },
  { off := Reg.plcFreeWm, rst := 0x402, rw := 0xFFFF },
  { off := Reg.plcPinLimit, rst := 0x19, rwl := 0x3F },
  { off := Reg.plcSweep, rst := 0x14000A, rw := 0x3F003F },
  { off := Reg.plcTmcCfg, rst := 0x10000, rw := 0x3FFFF },
  { off := Reg.plcStatus },
  { off := Reg.plcTotals, cnt := 5, stride := 0x4 },
  { off := Reg.plcEvent, w1c := 0xFF },
  { off := Reg.plcCount, rc := 0xFFFFFFFF, cnt := 10, stride := 0x4 },
  { off := Reg.plcClass, rst := 0x4100820, rw := 0xFFFFFFFF, cnt := 8, stride := 0x4 },
  { off := Reg.plcRgnSel, rw := 0xFFF, host := 0xFFF },
  { off := Reg.plcRgnVals, cnt := 3, stride := 0x4 },
  { off := Reg.plcTileSelLo, rw := 0xFFFFFFFF, host := 0xFFFFFFFF, pair := 1 },
  { off := Reg.plcTileSelHi, rw := 0x7, host := 0x7, pair := 2 },
  { off := Reg.plcTileEntryLo, pair := 1 },
  { off := Reg.plcTileEntryHi, pair := 2 }]

/-- The registers of block HLC. -/
def regsHlc : List RegDesc := [
  { off := Reg.hlcCtl, rw := 0x1 },
  { off := Reg.hlcLock, w1s := 0x1 },
  { off := Reg.hlcDirty, rst := 0x4B, rw := 0x7F },
  { off := Reg.hlcStatus },
  { off := Reg.hlcEvent, w1c := 0x7F },
  { off := Reg.hlcClass, rst := 0x1FFFF, rw := 0x1FFFF, cnt := 8, stride := 0x4 },
  { off := Reg.hlcClassLines, cnt := 8, stride := 0x4 },
  { off := Reg.hlcMaintLo, rw := 0xFFFFFFFF, pair := 1 },
  { off := Reg.hlcMaintHi, rw := 0x7F, pair := 2 },
  { off := Reg.hlcMaintCmd, wo := 0xF },
  { off := Reg.hlcMaintStatus, w1c := 0x2 },
  { off := Reg.hlcCount, rc := 0xFFFFFFFF, cnt := 8, stride := 0x4 }]

/-- The registers of block DMC. -/
def regsDmc : List RegDesc := [
  { off := Reg.dmcCtl, rst := 0x4, rw := 0x7 },
  { off := Reg.dmcLock, w1s := 0x1 },
  { off := Reg.dmcConfig },
  { off := Reg.dmcPort0, rst := 0x801E, rw := 0x1FFFF },
  { off := Reg.dmcPort1, rst := 0x8019, rw := 0x1FFFF },
  { off := Reg.dmcPort2, rst := 0xC8, rw := 0x1FFFF },
  { off := Reg.dmcPort3, rst := 0x41F4, rw := 0x1FFFF },
  { off := Reg.dmcPort4, rst := 0x143E8, rw := 0x1FFFF },
  { off := Reg.dmcPort5, rst := 0x11388, rw := 0x1FFFF },
  { off := Reg.dmcBoost, rst := 0xFA50, rw := 0xFFFF },
  { off := Reg.dmcPage, rst := 0x100F, rw := 0x3FFF },
  { off := Reg.dmcWq, rst := 0x3010, rw := 0xFFFF },
  { off := Reg.dmcRefresh, rst := 0x2000, rw := 0xFF00, rwl := 0x1 },
  { off := Reg.dmcRetrain, rst := 0x8F04064, rw := 0x3FFFFFFF },
  { off := Reg.dmcTrain, wo := 0x8003FFFF },
  { off := Reg.dmcEvent, w1c := 0x30000 },
  { off := Reg.dmcScrubStartLo, rw := 0xFFFFFFFF, pair := 1 },
  { off := Reg.dmcScrubStartHi, rw := 0x3FF, pair := 2 },
  { off := Reg.dmcScrubEndLo, rw := 0xFFFFFFFF, pair := 1 },
  { off := Reg.dmcScrubEndHi, rw := 0x3FF, pair := 2 },
  { off := Reg.dmcScrubCtl, rst := 0x8FFFF, rw := 0x407FFFFF },
  { off := Reg.dmcScrubSectorsLo, pair := 1 },
  { off := Reg.dmcScrubSectorsHi, pair := 2 },
  { off := Reg.dmcScrubCounts, cnt := 3, stride := 0x4 },
  { off := Reg.dmcScrubFirstLo, pair := 1 },
  { off := Reg.dmcScrubFirstHi, pair := 2 },
  { off := Reg.dmcScrubMs },
  { off := Reg.dmcChStatus, cnt := 16, stride := 0x4000 },
  { off := Reg.dmcChEvent, w1c := 0x3FF, cnt := 16, stride := 0x4000 },
  { off := Reg.dmcChFailLo, cnt := 16, stride := 0x4000, pair := 1 },
  { off := Reg.dmcChFailHi, cnt := 16, stride := 0x4000, pair := 2 },
  { off := Reg.dmcChCount, rc := 0xFFFFFFFF, cnt := 16, stride := 0x4000, cnt2 := 7, stride2 := 0x4 },
  { off := Reg.dmcChiveLo, rw := 0xFFFFFFFF, cnt := 16, stride := 0x4000, cnt2 := 32, stride2 := 0x8, pair := 1 },
  { off := Reg.dmcChiveHi, rw := 0x80000000, cnt := 16, stride := 0x4000, cnt2 := 32, stride2 := 0x8, pair := 2 }]

/-- The registers of block FMC. -/
def regsFmc : List RegDesc := [
  { off := Reg.fmcCtl, rst := 0x1C, rw := 0x1F },
  { off := Reg.fmcLock, w1s := 0x1 },
  { off := Reg.fmcGeom0, rwl := 0xFFFFFF },
  { off := Reg.fmcGeom1, rwl := 0xFFFFFFFF },
  { off := Reg.fmcLdpc, rst := 0x6084, rw := 0xFFCF, rwl := 0xF0000 },
  { off := Reg.fmcProg, rst := 0x501F4, rw := 0x7F1FFF },
  { off := Reg.fmcGc, rst := 0x12C2010, rw := 0x7FFFFFF },
  { off := Reg.fmcPatrol, rst := 0xE, rw := 0x7F },
  { off := Reg.fmcSaveCfg, rst := 0x3, rw := 0x1F },
  { off := Reg.fmcSaveStatus },
  { off := Reg.fmcSaveCapLo, pair := 1 },
  { off := Reg.fmcSaveCapHi, pair := 2 },
  { off := Reg.fmcEvent, w1c := 0x7F },
  { off := Reg.fmcCount, rc := 0xFFFFFFFF, cnt := 7, stride := 0x4 },
  { off := Reg.fmcSetSel, rw := 0x3F, host := 0x3F },
  { off := Reg.fmcSetVals, cnt := 2, stride := 0x4 },
  { off := Reg.fmcChStatus, cnt := 32, stride := 0x4 }]

/-- The registers of block ELG. -/
def regsElg : List RegDesc := [
  { off := Reg.elgCtl, rst := 0x4, rw := 0x1F },
  { off := Reg.elgLock, w1s := 0x1 },
  { off := Reg.elgModule, rst := 0x4E20BC00, rwl := 0xFFFFFF00 },
  { off := Reg.elgNameplate, rwl := 0xFFFFF },
  { off := Reg.elgTemp, rst := 0x800428, rw := 0xFFFFFF },
  { off := Reg.elgReserve, rst := 0xF, rw := 0x3F },
  { off := Reg.elgTestCfg, rst := 0x1F40018, rw := 0x7FF00FF },
  { off := Reg.elgDrain, rst := 0x14, rw := 0x3F },
  { off := Reg.elgSaveCfg, rst := 0x5914, rw := 0xFFFF },
  { off := Reg.elgThrottle, rst := 0x3C, rw := 0x3FF },
  { off := Reg.elgCost, rst := 0xFFFF, rw := 0xFFFF },
  { off := Reg.elgMapTiles, rw := 0x3FFFFFFF },
  { off := Reg.elgVmv },
  { off := Reg.elgIma },
  { off := Reg.elgTempC },
  { off := Reg.elgCap, rw := 0xFFFFF },
  { off := Reg.elgCapLast },
  { off := Reg.elgLedger, cnt := 6, stride := 0x4 },
  { off := Reg.elgStatus, rst := 0x4 },
  { off := Reg.elgEvent, w1c := 0x7FF },
  { off := Reg.elgCmd, wo := 0x3 },
  { off := Reg.elgSageTiles },
  { off := Reg.elgSageMs },
  { off := Reg.elgCount, rc := 0xFFFFFFFF, cnt := 4, stride := 0x4 }]

/-- The registers of block TWN. -/
def regsTwn : List RegDesc := [
  { off := Reg.twnCtl, rst := 0x10, rw := 0x1F },
  { off := Reg.twnLock, w1s := 0x1 },
  { off := Reg.twnId, rwl := 0x3 },
  { off := Reg.twnApplLo, rwl := 0xFFFFFFFF, pair := 1 },
  { off := Reg.twnApplHi, rwl := 0xFFFFFFFF, pair := 2 },
  { off := Reg.twnStatus },
  { off := Reg.twnEpoch },
  { off := Reg.twnHb, rst := 0x428518A, rw := 0x1FFFFFFF },
  { off := Reg.twnFence, rst := 0x214020A, rw := 0x7FFF7F7F },
  { off := Reg.twnPeerWait, rst := 0x12C, rw := 0xFFF },
  { off := Reg.twnRevert, rst := 0x1E, rw := 0x3FF },
  { off := Reg.twnResync, rst := 0x28, rw := 0xFF },
  { off := Reg.twnShaum, rst := 0x1408405, rw := 0x7FFFFF7F },
  { off := Reg.twnWatch, rst := 0x180064, rw := 0xFF03FF },
  { off := Reg.twnEvent, w1c := 0xFFFF },
  { off := Reg.twnCmd, wo := 0xF },
  { off := Reg.twnCount, rc := 0xFFFFFFFF, cnt := 8, stride := 0x4 },
  { off := Reg.twnResyncRegions },
  { off := Reg.twnResyncTilesLo, pair := 1 },
  { off := Reg.twnResyncTilesHi, pair := 2 },
  { off := Reg.twnFenceFail, rc := 0xFFFFFFFF },
  { off := Reg.twnHealth, cnt := 16, stride := 0x4 }]

/-- The registers of block SEC. -/
def regsSec : List RegDesc := [
  { off := Reg.secCtl, rwl := 0x7 },
  { off := Reg.secLock, w1s := 0x1 },
  { off := Reg.secLifecycle },
  { off := Reg.secSerial, cnt := 4, stride := 0x4 },
  { off := Reg.secArb },
  { off := Reg.secArbAdvance, wo := 0xFF },
  { off := Reg.secBoot },
  { off := Reg.secChallenge, cnt := 8, stride := 0x4 },
  { off := Reg.secEvent, w1c := 0x1F },
  { off := Reg.secCount, rc := 0xFFFFFFFF, cnt := 4, stride := 0x4 },
  { off := Reg.secKeySel, rw := 0xFFF, host := 0xFFF },
  { off := Reg.secKeyInfo }]

/-- The registers of block CRC. -/
def regsCrc : List RegDesc := [
  { off := Reg.crcStatus, cnt := 16, stride := 0x20 },
  { off := Reg.crcExpLo, cnt := 16, stride := 0x20, pair := 1 },
  { off := Reg.crcExpHi, cnt := 16, stride := 0x20, pair := 2 },
  { off := Reg.crcResLo, cnt := 16, stride := 0x20, pair := 1 },
  { off := Reg.crcResHi, cnt := 16, stride := 0x20, pair := 2 },
  { off := Reg.crcMismatch, w1c := 0xFFFF },
  { off := Reg.crcMismatchCount, rc := 0xFFFFFFFF },
  { off := Reg.crcFwCfg, rst := 0x20, rw := 0x1FF },
  { off := Reg.crcFwCtl, wo := 0x1 },
  { off := Reg.crcFwPolyLo, rw := 0xFFFFFFFF, pair := 1 },
  { off := Reg.crcFwPolyHi, rw := 0xFFFFFFFF, pair := 2 },
  { off := Reg.crcFwInitLo, rw := 0xFFFFFFFF, pair := 1 },
  { off := Reg.crcFwInitHi, rw := 0xFFFFFFFF, pair := 2 },
  { off := Reg.crcFwXoroutLo, rw := 0xFFFFFFFF, pair := 1 },
  { off := Reg.crcFwXoroutHi, rw := 0xFFFFFFFF, pair := 2 },
  { off := Reg.crcFwStateLo, rw := 0xFFFFFFFF, pair := 1 },
  { off := Reg.crcFwStateHi, rw := 0xFFFFFFFF, pair := 2 },
  { off := Reg.crcFwData32, wo := 0xFFFFFFFF },
  { off := Reg.crcFwData8, wo := 0xFF },
  { off := Reg.crcFwResultLo, pair := 1 },
  { off := Reg.crcFwResultHi, pair := 2 }]

/-- The registers of block BPM. -/
def regsBpm : List RegDesc := [
  { off := Reg.bpmCfg0, rst := 0x1000, rwl := 0xFFFF },
  { off := Reg.bpmLow0, rst := 0x1000, rc := 0xFFFF },
  { off := Reg.bpmCfg1, rst := 0x400, rwl := 0xFFFF },
  { off := Reg.bpmLow1, rst := 0x400, rc := 0xFFFF },
  { off := Reg.bpmCfg2, rst := 0x200, rwl := 0xFFFF },
  { off := Reg.bpmLow2, rst := 0x200, rc := 0xFFFF },
  { off := Reg.bpmCfg3, rst := 0x80, rwl := 0xFFFF },
  { off := Reg.bpmLow3, rst := 0x80, rc := 0xFFFF },
  { off := Reg.bpmCfg4, rst := 0x20, rwl := 0xFFFF },
  { off := Reg.bpmLow4, rst := 0x20, rc := 0xFFFF },
  { off := Reg.bpmThresh, rst := 0x55F554B, rw := 0xFFFFFFFF, cnt := 5, stride := 0x20 },
  { off := Reg.bpmStatus, cnt := 5, stride := 0x20 },
  { off := Reg.bpmEvent, w1c := 0xF, cnt := 5, stride := 0x20 },
  { off := Reg.bpmDfree, rc := 0xFFFF, cnt := 5, stride := 0x20 },
  { off := Reg.bpmLock, w1s := 0x1 }]

/-- The registers of block EFL. -/
def regsEfl : List RegDesc := [
  { off := Reg.eflUnlock, wo := 0xFFFFFFFF },
  { off := Reg.eflCmd, wo := 0xF },
  { off := Reg.eflAddr, wo := 0xFFFFF8 },
  { off := Reg.eflDataLo, wo := 0xFFFFFFFF },
  { off := Reg.eflDataHi, wo := 0xFFFFFFFF },
  { off := Reg.eflStatus, w1c := 0xF800 },
  { off := Reg.eflRaddr, rw := 0xFFFFFFFF, host := 0xFFFFFFFF },
  { off := Reg.eflRdataLo, pair := 1 },
  { off := Reg.eflRdataHi, pair := 2 },
  { off := Reg.eflBlockSel, rw := 0xFF, host := 0xFF },
  { off := Reg.eflBlockState },
  { off := Reg.eflLock, w1s := 0x1 },
  { off := Reg.eflKeyErr, rc := 0xFFFFFFFF }]

/-- The registers of block EVR. -/
def regsEvr : List RegDesc := [
  { off := Reg.evrCtl, rst := 0x1, rw := 0x1 },
  { off := Reg.evrLock, w1s := 0x1 },
  { off := Reg.evrCursor, rw := 0xFFFFFFFF, host := 0xFFFFFFFF },
  { off := Reg.evrNext },
  { off := Reg.evrOldest, rst := 0x400 },
  { off := Reg.evrStatus },
  { off := Reg.evrWindow, cnt := 8, stride := 0x4 },
  { off := Reg.evrSubmit, wo := 0xFFFFFFFF, cnt := 5, stride := 0x4 },
  { off := Reg.evrDrop, rc := 0xFFFFFFFF }]

/-- The registers of block PWS. -/
def regsPws : List RegDesc := [
  { off := Reg.pwsCtl, rst := 0x1, rw := 0x1, wo := 0x2 },
  { off := Reg.pwsLock, w1s := 0x1 },
  { off := Reg.pwsStatus },
  { off := Reg.pwsTimers, rst := 0x280A, rwl := 0x1FFFF },
  { off := Reg.pwsGroup, rst := 0xA000A, rwl := 0xFF03FF, cnt := 8, stride := 0x4 },
  { off := Reg.pwsEvent, w1c := 0xFF },
  { off := Reg.pwsFirstOp, w1c := 0x80000000 },
  { off := Reg.pwsFirstPd },
  { off := Reg.pwsFirstOpTimeLo, pair := 1 },
  { off := Reg.pwsFirstOpTimeHi, pair := 2 },
  { off := Reg.pwsFirstPdTimeLo, pair := 1 },
  { off := Reg.pwsFirstPdTimeHi, pair := 2 },
  { off := Reg.pwsSaveGenLo, rw := 0xFFFFFFFF, pair := 1 },
  { off := Reg.pwsSaveGenHi, rw := 0xFFFFFFFF, pair := 2 },
  { off := Reg.pwsCount, rc := 0xFFFFFFFF, cnt := 5, stride := 0x4 },
  { off := Reg.pwsRailCfg0, rst := 0xD3C0, rwl := 0xF7F8, cnt := 4, stride := 0x10 },
  { off := Reg.pwsRailCfg1, rst := 0xD3C8, rwl := 0xF7F8, cnt := 4, stride := 0x10 },
  { off := Reg.pwsRailCfg2, rst := 0xD3D0, rwl := 0xF7F8, cnt := 4, stride := 0x10 },
  { off := Reg.pwsRailCfg3, rst := 0xD3D8, rwl := 0xF7F8, cnt := 4, stride := 0x10 },
  { off := Reg.pwsRailCfg4, rst := 0xD3E0, rwl := 0xF7F8, cnt := 4, stride := 0x10 },
  { off := Reg.pwsRailCfg5, rst := 0xD3E8, rwl := 0xF7F8, cnt := 4, stride := 0x10 },
  { off := Reg.pwsRailCfg6, rst := 0xD3F0, rwl := 0xF7F8, cnt := 4, stride := 0x10 },
  { off := Reg.pwsRailCfg7, rst := 0xD3F8, rwl := 0xF7F8, cnt := 4, stride := 0x10 },
  { off := Reg.pwsRailWin, rst := 0xFFF0000, rwl := 0xFFF0FFF, cnt := 32, stride := 0x10 },
  { off := Reg.pwsRailPd, rst := 0x32000, rwl := 0x3FFFFF, cnt := 32, stride := 0x10 },
  { off := Reg.pwsRailStatus, cnt := 32, stride := 0x10 }]

/-- The registers of block TWB. -/
def regsTwb : List RegDesc := [
  { off := Reg.twbCtl, rst := 0x2A, rw := 0x39, rwl := 0x2, wo := 0x4 },
  { off := Reg.twbLock, w1s := 0x1 },
  { off := Reg.twbMgtStatus },
  { off := Reg.twbMgtEvent, w1c := 0x1F },
  { off := Reg.twbAlert, rw := 0x8, w1c := 0x6 },
  { off := Reg.twbTimeout, rst := 0x2191E1E, rw := 0x33F3F3F },
  { off := Reg.twbHoldup, rwl := 0x1FF },
  { off := Reg.twbMgtCount, rc := 0xFFFFFFFF, cnt := 4, stride := 0x4 },
  { off := Reg.twbPsbCmd, wo := 0xFFFFFFFC },
  { off := Reg.twbPsbStatus },
  { off := Reg.twbPsbEvent, w1c := 0x1F },
  { off := Reg.twbPsbCount, rc := 0xFFFFFFFF, cnt := 3, stride := 0x4 },
  { off := Reg.twbPsbData, rw := 0xFFFFFFFF, cnt := 64, stride := 0x4 }]

/-- The registers of block LAP. -/
def regsLap : List RegDesc := [
  { off := Reg.lapCtl, rw := 0x2, rwl := 0x1, host := 0x2 },
  { off := Reg.lapLock, w1s := 0x1 },
  { off := Reg.lapLdEn, rwl := 0xFFFFFFFF },
  { off := Reg.lapBase, rw := 0x7FF, host := 0x7FF },
  { off := Reg.lapDrain },
  { off := Reg.lapCommit },
  { off := Reg.lapStatus },
  { off := Reg.lapEvent, w1c := 0x1F },
  { off := Reg.lapCount, rc := 0xFFFFFFFF, cnt := 3, stride := 0x4 }]

/-- The registers of the block that a byte offset lies in (R58). -/
def blockRegs (off : Nat) : List RegDesc :=
  if off < 0x40000 then regsGlb
  else if off < 0x80000 then regsIsl
  else if off < 0x100000 then regsMbx
  else if off < 0x200000 then regsCx
  else if off < 0x300000 then regsNet
  else if off < 0x400000 then regsRdx
  else if off < 0x500000 then regsTqm
  else if off < 0x580000 then regsPlc
  else if off < 0x600000 then regsHlc
  else if off < 0x700000 then regsDmc
  else if off < 0x800000 then regsFmc
  else if off < 0x880000 then regsElg
  else if off < 0x900000 then regsTwn
  else if off < 0x980000 then regsSec
  else if off < 0x9C0000 then regsCrc
  else if off < 0xA00000 then regsBpm
  else if off < 0xA40000 then regsEfl
  else if off < 0xA80000 then regsEvr
  else if off < 0xAC0000 then regsPws
  else if off < 0xB00000 then regsTwb
  else if off < 0xB40000 then regsLap
  else []

end Sys2Proof.Machine
end

