-- ==== Sys2Proof/Machine/State.lean ====
section
/-! DEFINITION. The state of one HG960 (this twin), as plain data: one structure per block of the
spec, every table a `Tbl` in canonical form, memory a list of cells in canonical form, and the queue
of commands that wait. What the peer, the hosts and the board do reaches it as commands; what it
sends them is appended to `out`. Each structure's fields name the rule that gives them. -/

namespace Sys2Proof.Machine

/-- Why the machine would stop. Every meaning of this model answers a next state, so no constructor
is raised by a command; `unmapped` is the fault that the state's form asks for: a read of the address
space outside [0, 2^47) (R39). Safe: the spec gives such an address no meaning and no command forms one. -/
inductive Fault
  | unmapped (psa : Nat)
  deriving DecidableEq, Repr

/-- Why a command would be refused. `notModelled`: the arm of `exec` has no meaning yet; no arm of
this model raises it. Safe. -/
inductive Refusal
  | notModelled (mnemonic : String)
  deriving DecidableEq, Repr

/-! ### Registers -/

/-- What one path keeps of the register space: `_LO` halves held for their `_HI` write, `_HI` halves
latched by a `_LO` read (R11, R60), and the registers that each path has of its own: selectors,
snapshots, the event cursor and window flags, the EFL read word (R68, R232, R282, R283, R396, R562,
R581, R585, R587). All keyed by register offset. -/
structure PathSt where
  held : Tbl Word := []
  latch : Tbl Word := []
  own : Tbl Word := []
  deriving DecidableEq, Repr

/-! ### Tiles, frames, moves (chapters 2 and 6) -/

/-- HOME of a tile-map entry (R55). -/
inductive Home
  | zero | dram | hlcOverDram | flash | saveArea | failed
  deriving DecidableEq, Repr

/-- A tile-map entry (R55); CHECK is computed, never stored apart. An unlisted entry is ZERO. -/
structure TileEnt where
  home : Home := .zero
  lock : Bool := false
  evict : Bool := false
  pinned : Bool := false
  loc : Nat := 0
  heat : Nat := 0
  syncDirty : Bool := false
  deriving DecidableEq, Repr

/-- A frame-table entry (R244); `held` marks a location held for the map audit (R714), `bad` a frame
whose failing sector calls for retirement (R343). -/
structure Frame where
  tile : Nat
  cls : Nat
  held : Bool := false
  bad : Bool := false
  deriving DecidableEq, Repr

/-- Kinds of moves (R246). -/
inductive MoveKind
  | promote | evict | relocate | repair
  deriving DecidableEq, Repr

/-- Why a move was started: its priority in R257 and what a refusal does to it (R247). -/
inductive MoveWhy
  | write | pinned | drain | readPromo | prefetch | pin | sweep | demote | media | repair | atomTile
  deriving DecidableEq, Repr

/-- How far a move has come: waiting for one of its engine's slots (R250), for the ledger, for a
frame (R247), or copying/reading, programming, its program verified (R248), or pulling the tile from
the peer (R265). -/
inductive MoveStage
  | waitSlot | waitLedger | waitFrame | moving | program | verified | pull
  deriving DecidableEq, Repr

/-- A move in flight (R245–R250). `valid` lists the sectors of a repair's fresh frame that writes
have filled (R265 step 4); `toFlash` marks a repair whose frame the ledger refused; `late` says that the
data is final; `cmds` are the transfer commands that have joined the move and `peers` the peer's PIN commands, `pin` that
the tile is to be pinned when it reaches DRAM, `hot` that a read promotion waits for the move (R249, R267), `read` the slices
that have been decoded for it (R373). -/
structure Move where
  kind : MoveKind
  why : MoveWhy
  stage : MoveStage
  order : Nat
  reserved : Bool := false
  frame : Option Nat := none
  dest : Nat := 0
  valid : List Nat := []
  toFlash : Bool := false
  late : Bool := false
  cmds : List Nat := []
  peers : List Nat := []
  pin : Bool := false
  hot : Bool := false
  read : List Nat := []
  deriving DecidableEq, Repr

/-- A Tile Map Cache line that is resident (R271), keyed by map-line number; `used` orders the least
recently used replacement. -/
structure TmcLine where
  dirty : Bool
  used : Nat
  deriving DecidableEq, Repr

/-- The placement state beside the map (chapter 6): the frame sweep's position, K, the evictions
started in this second, whether pins were demoted in this period of demand, the map sweep's position,
whether the frame demand of R262 is in force, access counts per region and engine (R264), the frames
retired (R343), the wanted map lines being filled (R272), the flash locations held for the audit
(R714), requests waiting for a refetch entry (R265), and a SANITIZE's scrub list of frames and flash
locations by region (R220). -/
structure Plc where
  sweep : Nat := 0
  k : Nat := 0
  started : Nat := 0
  pinDemoted : Bool := false
  mapSweep : Nat := 0
  frameDemand : Bool := false
  heat : Tbl Nat := []
  retired : List Nat := []
  tmc : Tbl TmcLine := []
  tmcFills : List Nat := []
  heldFlash : List Nat := []
  refetchWait : List Nat := []
  scrub : Tbl (List Nat) := []
  scrubLocs : Tbl (List Nat) := []
  waitOver : List Nat := []
  clock : Nat := 0
  moveSeq : Nat := 0
  deriving DecidableEq, Repr

/-! ### Hot Line Cache (chapter 7) -/

/-- States of a way (R291). -/
inductive LineState
  | filling | clean | dirty | writingBack
  deriving DecidableEq, Repr

/-- A way that is not INVALID (R287), keyed by (slice × 2,048 + set) × 16 + way. `inval` says that
the write-back under way ends in INVALID (R298, R299); `used` orders the least recently used lines (R297). -/
structure Way where
  state : LineState
  dirty : Bool := false
  opens : Nat := 0
  cls : Nat
  tile : Nat
  line : Nat
  inval : Bool := false
  used : Nat := 0
  deriving DecidableEq, Repr

/-- A presence-table entry (R290), keyed by tile: lines resident, and its allocation order. -/
structure Presence where
  count : Nat
  order : Nat
  deriving DecidableEq, Repr

/-- A line in an eviction buffer (R295). -/
structure Evb where
  tile : Nat
  line : Nat
  deriving DecidableEq, Repr

/-- The running register maintenance command (R298–R300): the lines still to be acted on. -/
structure Maint where
  inval : Bool
  whole : Bool := false
  todo : List (Nat × Nat)
  deriving DecidableEq, Repr

/-- The HLC (chapter 7): ways, the pseudo-LRU tree bits of each set (15 bits, keyed slice × 2,048 +
set), presence table, eviction buffers, maintenance by registers and by placement (tiles with the
lines still to be written back and invalidated), sets held for a tag scan (R303), and lines (PSA / 256) that are being read
from DRAM without allocating (R27, R289). -/
structure Hlc where
  ways : Tbl Way := []
  plru : Tbl Nat := []
  presence : Tbl Presence := []
  evb : List Evb := []
  maint : Option Maint := none
  flush : Tbl (List Nat) := []
  heldSets : List Nat := []
  direct : List Nat := []
  cleaning : Bool := false
  order : Nat := 0
  clock : Nat := 0
  deriving DecidableEq, Repr

/-! ### Requests in flight (chapter 1) -/

/-- Whose request it is: a CXL LD (host ID), a QP and PSN, a transfer command's piece, the Legacy
Aperture's batch, a MIRROR or FORWARD message of the peer, a replay of a pending-write log, or the
device itself (poison writes, ring updates). -/
inductive Src
  | cxl (ld tag : Nat)
  | rdma (qpn psn : Nat)
  | tq (cmd : Nat)
  | lap (ld batch tag : Nat)
  | mirror (msg : Nat)
  | forward (tag host : Nat)
  | replay
  | internal
  deriving DecidableEq, Repr

/-- Where a request stands: waiting to be tried, waiting for flash codewords, sent to the owner or
peer, sequenced and open until its MIRROR is acknowledged, or held by a takeover (R470). -/
inductive Stage
  | waiting | flash | forwarded | opened | held
  deriving DecidableEq, Repr

/-- A request in the device (the life of a write and of a read, chapter 1), keyed by its tracker
number. `segs` are its pieces of persistent space (PSA, length); `todo` the pieces of a write still to
be sequenced (PSA, length, position in the data); `msgs` the MIRROR messages not yet acknowledged;
`done` the bytes that a forwarded write has seen applied; `acked` says that its completion has been
sent (complete-then-mirror and FLUSH staging, R24, R158); `silent` that none will be (R104, R155);
`buf` its buffer-pool buffer; `got` the flash slices (tile × 8 + slice) already decoded; `lines` the lines
(PSA / 256) read from DRAM without allocating (R27, R289); `missed` the map lines whose miss it has counted
(R272); `map` the poison map of a mirrored write. -/
structure Req where
  src : Src
  op : MemOp
  host : Nat
  region : Nat
  off : Nat
  len : Nat
  segs : List (Nat × Nat)
  data : List Byte := []
  poison : Bool := false
  arg : Nat := 0
  cmp : Nat := 0
  reqId : Nat := 0
  stage : Stage := .waiting
  acked : Bool := false
  silent : Bool := false
  heated : Bool := false
  pseq : Nat := 0
  msgs : List Nat := []
  todo : List (Nat × Nat × Nat) := []
  done : Nat := 0
  looked : Bool := false
  result : Nat := 0
  buf : Option (Nat × Nat) := none
  got : List Nat := []
  lines : List Nat := []
  missed : List Nat := []
  map : List Bool := []
  deriving DecidableEq, Repr

/-- How a request ended, for the path that made it. -/
inductive Ending
  | data (bytes : List Byte) (poison : List Bool)
  | written (result : Nat)
  | poisoned
  | lost
  deriving DecidableEq, Repr

/-! ### CXL ports (chapter 3) -/

/-- CXL link states (R112). -/
inductive CxlLinkState
  | down | training | l0 | l0p | l1 | recovery
  deriving DecidableEq, Repr

/-- One CXL link (R77–R82, R99): trained width and speed code, and the writes that a GPF Phase 2
waits for. -/
structure CxlLink where
  state : CxlLinkState := .down
  width : Nat := 0
  full : Nat := 0
  speed : Nat := 0
  flitLo : Bool := false
  gpf : Option (List Nat) := none
  deriving DecidableEq, Repr

/-- LD states (R83). -/
inductive LdState
  | unbound | bound | active | flr | departed
  deriving DecidableEq, Repr

/-- A CXL event record as the logs hold it: an event record with its number, or a dynamic capacity
record for an extent (R88, R90, R664). -/
inductive CxlEvent
  | record (rn : Nat) (words : List Nat)
  | addCapacity (idx : Nat)
  | releaseCapacity (idx : Nat) (forced : Bool)
  deriving DecidableEq, Repr

/-- One logical device (R83–R107): its state, its host and recorded allocation, whether the host has
enabled memory, the barrier count and the writes that barrier reads wait for (R98), its event logs
(0–3 by severity, 4 dynamic capacity) with their overflow flags, interrupt policy, assigned MSI-X
vectors (R85), writes that a change of durability mode waits for (R97), of its CXL mailbox the last opcode, its
return code and the words of the input buffer (R499, R500), and whether it holds a credit for a read and for a write (R93). -/
structure Ld where
  state : LdState := .unbound
  bound : Option Nat := none
  alloc : Nat := 0
  memEnabled : Bool := false
  barriers : Nat := 0
  waits : List (List Nat) := []
  logs : Tbl (List CxlEvent) := []
  overflow : List Nat := []
  policy : Nat := 0
  vectors : Tbl Nat := []
  durWait : Option (List Nat) := none
  decode : Tbl Nat := []
  mbxOp : Nat := 0
  mbxRet : Nat := 0
  payload : Tbl Word := []
  rd : Bool := false
  wr : Bool := false
  deriving DecidableEq, Repr

/-! ### Ethernet and RDMA (chapter 4) -/

/-- QP states (R154). -/
inductive QpState
  | connecting | keying | established | draining | error | quarantine
  deriving DecidableEq, Repr

/-- A response that waits for its turn in PSN order (R161): PSN, whether its point has been reached,
and what is sent: nothing for a packet that is not the last of its request (`quiet`). -/
inductive RdmaResp
  | ack | readData (bytes : List Byte) | atomic (orig : Nat) | flush | nakAccess | nak (code : Nat) | rnr (timer : Nat) | quiet
  deriving DecidableEq, Repr

/-- One entry of a QP's in-order response list (R161). -/
structure RespEnt where
  psn : Nat
  due : Bool
  resp : RdmaResp
  deriving DecidableEq, Repr

/-- A FLUSH that waits (R159): its PSN and the writes it waits for. -/
structure FlushWait where
  psn : Nat
  reqs : List Nat
  deriving DecidableEq, Repr

/-- What keying holds between KEY_REPLY and KEY_DONE: the shared secret K, the transcript T and DEV_SIG (R145). -/
structure Keying where
  k : Nat
  t : Nat
  sig : Nat
  deriving DecidableEq, Repr

/-- The keys and salts of a QP's two directions (R145 step 5). -/
structure QpKeys where
  rxKey : Nat
  txKey : Nat
  rxSalt : Nat
  txSalt : Nat
  deriving DecidableEq, Repr

/-- A WRITE of which some packets have arrived (R149): its region and offset, its pieces of persistent space, its length,
the bytes already handed on, the bytes of a persist unit that is not yet whole, the requests of it in the tracker, the PSNs
of its earlier packets, its request ID, and whether it is a repeat that is not applied. -/
structure WriteIn where
  region : Nat
  off : Nat
  segs : List (Nat × Nat)
  len : Nat
  done : Nat := 0
  part : List Byte := []
  reqs : List Nat := []
  psns : List Nat := []
  reqId : Nat := 0
  skip : Bool := false
  deriving DecidableEq, Repr

/-- A queue pair's context (R148–R169), keyed by its index; `gens` beside it holds generations. `outstanding` are the
records sent and not acknowledged: PSN, ring and sequence (R215, R216); `port` and `gid` are the port it was connected on and
the host's GID; `keying`, `keys` and `part` what keying and a WRITE of several packets hold; `asked` that this end sent the DREQ. -/
structure Qp where
  state : QpState
  service : Nat
  host : Nat
  qos : Nat
  hostQpn : Nat
  psnRx : Nat := 0
  psnTx : Nat := 0
  ctrRx : Option Nat := none
  ctrTx : Nat := 0
  rate : Nat := 0
  cnpSentAt : Option Nat := none
  cnpSeenAt : Option Nat := none
  pmtu : Nat := 4096
  nextReqId : Nat := 0
  store : List (Nat × Nat) := []
  resps : List RespEnt := []
  flushes : List FlushWait := []
  port : Nat := 0
  gid : Nat := 0
  keying : Option Keying := none
  keys : Option QpKeys := none
  part : Option WriteIn := none
  asked : Bool := false
  keyCached : Bool := true
  outstanding : List (Nat × Nat × Nat) := []
  retries : Nat := 0
  deriving DecidableEq, Repr

/-- A reply to MKEY_REGISTER or MKEY_INVALIDATE that waits (R166, R167): the CONTROL message that the peer
applies, the requests under the key that are in flight, and what is then replied. -/
structure KeyReply where
  seq : Nat
  reqs : List Access
  qpn : Nat
  type : Nat
  tag : Nat
  key : Nat
  status : Nat := 0
  deriving DecidableEq, Repr

/-- The RDX state beside registers: QPs by index, generations, the FIFO of free indices that have
been used (R153), key indices in quarantine order, whether the quarantine of R142 still runs, replies that wait, and the CM REQs and keying messages held
during a live activation (R517). -/
structure Rdx where
  qps : Tbl Qp := []
  gens : Tbl Nat := []
  freed : List Nat := []
  nextIdx : Nat := 2
  keyFreed : List Nat := []
  holdReqs : Bool := true
  replies : List KeyReply := []
  heldCm : List Instr := []
  deriving DecidableEq, Repr

/-- A buffer pool (R170–R172): the LIFO free list's returned buffers, the first buffer never yet
taken, the state bits set, the level (0 normal to 3 stop), and the free buffers that have been overwritten with zeros
(R150). -/
structure Pool where
  free : List Nat := []
  fresh : Nat := 0
  used : List Nat := []
  level : Nat := 0
  zeroed : List Nat := []
  deriving DecidableEq, Repr

/-! ### Transfer queues (chapter 5) -/

/-- How far a fetched command has come (R205–R209). -/
inductive CmdStage
  | fetched | running | writing | assigning | done
  deriving DecidableEq, Repr

/-- A fetched, incomplete command (R202–R211), keyed by its command number. `done` is the next byte of
the range, `pend` the requests outstanding, `left` the tiles a PIN or PREFETCH still waits for, `peerLeft` those that the peer pins for it, `missed` those that
RESULT counts. `src` and `dst` are the
translations of its ranges with which it was admitted (R48), and `wait` says that it waits for a CRC channel (R224). -/
structure Cmd where
  sq : Nat
  pos : Nat
  d : Desc
  stage : CmdStage := .fetched
  done : Nat := 0
  pend : List Nat := []
  left : List Nat := []
  peerLeft : List Nat := []
  missed : List Nat := []
  chan : Option Nat := none
  status : Nat := 0
  result : Nat := 0
  poisoned : Nat := 0
  msg : Nat := 0
  seq : Nat := 0
  note : Nat := 0
  buf : List Byte := []
  src : List (Nat × Nat) := []
  dst : List (Nat × Nat) := []
  wait : Bool := false
  deriving DecidableEq, Repr

/-! ### DRAM tier (chapter 8) -/

/-- Channel states (R358). -/
inductive ChState
  | off | training | active | selfRefresh | retrain | failed
  deriving DecidableEq, Repr

/-- A request in a channel's queues (R324): its port, QoS class, line (tile × 16 + line; a map line on port 1, a frame on
port 5), whether it writes, when it entered, and its channel address. -/
structure DReq where
  port : Nat
  cls : Nat
  line : Nat
  write : Bool
  since : Nat
  ca : Nat
  deriving DecidableEq, Repr

/-- One DRAM channel (chapter 8): `mode` is the training that runs (0 full, 1 stored results, 2 the training
span only), `kept` says that its contents are to be kept. `queue` holds its requests in order of arrival, `issued` those
of ports 3 to 5 that have been issued and whose operation still runs (R324); `urgent` lists the lines whose request has
reached its target (R325) and `late` those at twice their target (R326), `sleep` that self-refresh begins when the queue is empty (R334). `fails` is the failing-sector
table (R341), most recently failed first: sector and failures; `copying` the chive entry being enabled; `temps` the MR4
level per rank; `postponed` refreshes per rank; `rows` the open row per bank and `hits` its consecutive hits while
another row of the bank is waited for (R330); `acts` activations per bank; `scrubbed` frames that the scrub pass has
read. -/
structure Chan where
  state : ChState := .off
  mode : Nat := 0
  kept : Bool := false
  attempts : Nat := 0
  queue : List DReq := []
  issued : List DReq := []
  urgent : List Nat := []
  late : List Nat := []
  writeMode : Bool := false
  sleep : Bool := false
  fails : List (Nat × Nat) := []
  copying : Option Nat := none
  temps : Tbl Nat := []
  postponed : Tbl Nat := []
  rows : Tbl Nat := []
  hits : Tbl Nat := []
  acts : Tbl Nat := []
  scrubbed : Nat := 0
  badReads : Nat := 0
  deriving DecidableEq, Repr

/-- The DRAM health record (R335, R343), kept in the configuration flash: per channel the serial numbers of its DIMMs,
training results verify, chive lists (entry to sector), and spares that have failed themselves; `starts` counts cold
starts. The retired frames are `Plc.retired`. -/
structure Health where
  starts : Nat := 0
  serials : Tbl Nat := []
  trained : List Nat := []
  chives : Tbl (Tbl Nat) := []
  dead : Tbl (List Nat) := []
  deriving DecidableEq, Repr

/-! ### Flash tier (chapter 9) -/

/-- Stripe block states (R377). -/
inductive SbState
  | free | opened | full | ready | probing | image | erasing | retired
  deriving DecidableEq, Repr

/-- A stripe block (R377), keyed set × 65,536 + block: valid tiles, erases, slots programmed, mode. -/
structure Stripe where
  state : SbState
  valid : Nat := 0
  erases : Nat := 0
  next : Nat := 0
  pslc : Bool := false
  refresh : Bool := false
  remap : Bool := false
  deriving DecidableEq, Repr

/-- A program unit being filled or programmed (R378): its set, block, the tiles in it. -/
structure Unit where
  block : Nat
  reloc : Bool
  tiles : List Nat
  flying : Bool := false
  deriving DecidableEq, Repr

/-- What a die does (R388): reads slice `k` of the codeword `cw` (a location / 8), programs the unit of a stripe block, or
erases one. -/
inductive FJob
  | read (cw k : Nat)
  | prog (key : Nat)
  | erase (key : Nat)
  deriving DecidableEq, Repr

/-- Work of a die at a level of R388: 2 line reads, 3 promotion reads, 4 eviction programs, 5 relocation and refresh, 6
erases. -/
structure FWork where
  die : Nat
  level : Nat
  job : FJob
  deriving DecidableEq, Repr

/-- The FMC beside registers: stripe blocks, slot tags (location to tile), program units by stripe block,
OPEN blocks by set × 2 + kind, tiles that wait for a unit, the set whose turn it is, reads under way (tile × 8
+ slice), suspensions of the operation on a die, rated cycles, sets whose garbage collection runs, whether
FLASH_FULL holds, the patrol's position, physical blocks remapped per stripe set (R368, R374–R383), the work that waits
for its die in order of arrival, what each die does, what it has suspended, the reads of moves that are over (R376, R388),
whether persistent space has been formatted (R382), and what the housekeeping slot of each IMAGE block holds: SAVE_GEN
and its index in the chain (R417). -/
structure Fmc where
  blocks : Tbl Stripe := []
  slots : Tbl Nat := []
  units : Tbl Unit := []
  opens : Tbl Nat := []
  waiting : List Nat := []
  turn : Nat := 0
  reads : List Nat := []
  suspends : Tbl Nat := []
  ratedCycles : Nat := 0
  gc : List Nat := []
  full : Bool := false
  patrol : Nat := 0
  remaps : Tbl Nat := []
  queue : List FWork := []
  run : Tbl FWork := []
  held : Tbl FWork := []
  ended : List FWork := []
  formatted : Bool := false
  chain : Tbl (Nat × Nat) := []
  deriving DecidableEq, Repr

/-! ### Energy ledger, save and restore (chapter 10) -/

/-- An entry of the poison list (R103): the sectors it covers, and its source, 1 Host Written, 2
Internal, 3 Injected. -/
structure PoisonEnt where
  sectors : List Nat
  source : Nat
  deriving DecidableEq, Repr

/-- Capacitance test states (R400, R403): none, waiting for 10 s of values, running, recovering. -/
inductive CapTest
  | idle | waiting | running | recovering
  deriving DecidableEq, Repr

/-- Causes of a save (R415, R420). -/
inductive Trigger
  | holdFail | inputRail | planned
  deriving DecidableEq, Repr

/-- A region's entry in the save-outcome record (R421). -/
structure SaveEnt where
  region : Nat
  complete : Bool
  dirtyComplete : Bool
  owner : Bool
  unsaved : Nat
  pseq : Nat
  deriving DecidableEq, Repr

/-- What a save image holds (R416 phases 3 to 6): the tables of the state section, the ledger state, the tile
map, and the contents that tiles had when they were saved. -/
structure Image where
  regions : Tbl Region
  rgt : Tbl Nat
  extents : Tbl Extent
  extentGens : Tbl Nat
  mkeys : Tbl Mkey
  mkeyGens : Tbl Nat
  keyFreed : List Nat
  leases : Tbl Lease
  binds : Tbl Nat
  sqs : Tbl Sq
  cqs : Tbl Cq
  poisonList : List PoisonEnt
  tiles : Tbl TileEnt
  mem : List Host.Cell
  sectors : Tbl SectorInfo
  capMf : Nat
  costNj : Nat
  deriving DecidableEq, Repr

/-- A save-outcome record with the image it names (R417–R421): RESULT 1 COMPLETE, 2 PARTIAL,
3 NO_IMAGE; the first stripe block of the chain (set in [31:26]) and how many it has; the tiles saved with their slots; the open-write list (R469) and pending-write logs (R26). -/
structure SaveRec where
  gen : Nat
  trigger : Trigger
  result : Nat
  single : Bool
  startTime : Nat
  durationMs : Nat
  tilesSaved : Nat
  tilesDram : Nat
  energyMj : Nat
  capMf : Nat
  costNj : Nat
  vEndMv : Nat
  entries : List SaveEnt
  tiles : List (Nat × Nat)
  openList : List Nat
  logs : List Req
  imageStart : Nat := 0
  imageBlocks : Nat := 0
  image : Option Image := none
  deriving DecidableEq, Repr

/-- The running save (R416): phase 1–7, trigger, what has been saved, RESULT so far, the voltage when phase 7
began, and whether SYSTEM_RESET caused it (R603). -/
structure Sage where
  phase : Nat
  trigger : Trigger
  startTime : Nat
  single : Bool
  saved : List (Nat × Nat)
  openList : List Nat
  logs : List Req
  result : Nat := 1
  vEnd : Nat := 0
  sys : Bool := false
  energy0 : Nat
  capMf : Nat
  ms : Nat := 0
  tilesDram : Nat := 0
  deriving DecidableEq, Repr

/-- The ledger beside registers (R399–R412): samples of the current ms (sum and count of mV and mA),
history of averages, the test, its pre-test voltage and integrals, results pending confirmation
(R401, R405), failed temperature reads, the save-rate probe (the set whose block is PROBING, the sum of the rates so far), the power of the last save, the running save, the save-outcome slots, the
generation of the last restore, and pending-write logs that wait to be replayed (R422 step 8). -/
structure Elg where
  vSum : Nat := 0
  iSum : Int := 0
  samples : Nat := 0
  history : List Nat := []
  test : CapTest := .idle
  preMv : Nat := 0
  higher : Option Nat := none
  lowerCost : Option Nat := none
  tempFails : Nat := 0
  state : LedgerState := .off
  eAvail : Nat := 0
  kneeSeen : Bool := false
  probe : Option (Nat × Nat) := none
  retry : Bool := false
  pSaveMw : Nat := 0
  sage : Option Sage := none
  slots : Tbl SaveRec := []
  saveGen : Nat := 0
  replay : List Req := []
  deriving DecidableEq, Repr

/-! ### Twin operation (chapter 11) -/

/-- Shaum link states (R442). -/
inductive LinkState
  | down | training | keying | up | retrain | mismatch
  deriving DecidableEq, Repr

/-- One lane group (R441): up, retraining alone, and COUNTER of each direction (R443). -/
structure Lane where
  up : Bool := false
  retraining : Bool := false
  ctrTx : Nat := 0
  ctrRx : Nat := 0
  queue : Nat := 0
  since : Nat := 0
  deriving DecidableEq, Repr

/-- An unacknowledged message (R447); `sent` is false while it has not left yet (link not UP, or
65,536 messages unacknowledged); `again` says that it has left once. -/
structure TxMsg where
  msg : ShaumMsg
  sent : Bool := true
  again : Bool := false
  resends : Nat := 0
  naks : Nat := 0
  deriving DecidableEq, Repr

/-- What link keying holds on its way and gives (R550, R551): twin 0's nonce and encapsulation key, the shared secret K, the
transcript T and twin 1's signature, with `ready` once twin 1 has sent its reply; then the link keys and salts of both directions and the link secret LS. -/
structure LinkKeys where
  nonce : Nat := 0
  ek : Nat := 0
  k : Nat := 0
  t : Nat := 0
  sig : Nat := 0
  txKey : Nat := 0
  rxKey : Nat := 0
  txSalt : Nat := 0
  rxSalt : Nat := 0
  ls : Nat := 0
  ready : Bool := false
  deriving DecidableEq, Repr

/-- A message being assembled (R446), keyed by MSG_SEQ. -/
structure Asm where
  count : Nat
  bitmap : Nat
  type : Nat
  msg : ShaumMsg
  deriving DecidableEq, Repr

/-- Peer states (R487). -/
inductive PeerState
  | unknown | present | pathFault | suspect | failed | fenced | rejoining
  deriving DecidableEq, Repr

/-- Steps of fencing (R467): none, the defer of twin 1, the settle. -/
inductive FenceStep
  | none | defer | settle | taking
  deriving DecidableEq, Repr

/-- Resynchronisation of a region (R477): tiles still to send, tiles whose TILE_DATA is unacknowledged. -/
structure Resync where
  todo : List Nat
  sent : List Nat := []
  deriving DecidableEq, Repr

/-- A request-ID window slot (R473), keyed region × 65,536 + slot; `open` while the original is. -/
structure WinSlot where
  reqId : Nat
  host : Nat
  atomic : Bool
  result : Nat
  opened : Bool := false
  deriving DecidableEq, Repr

/-- A CONTROL change waiting for the peer to apply it (R42, R508), keyed by its MSG_SEQ, with the
mailbox instance whose command it completes; `made` are changes that this twin has made already. -/
structure CtlWait where
  changes : List Change
  made : List Change := []
  inst : Option Nat := none
  deriving DecidableEq, Repr

/-- A TILE_DATA of a resynchronisation that waits for its tile to be ready, keyed by its MSG_SEQ (R477). -/
structure TileIn where
  tile : Nat
  data : List Byte
  sectors : List SectorInfo
  deriving DecidableEq, Repr

/-- The TWN block beside registers (chapter 11): `mate` says that the twins are PAIRED; `authFails` holds the
times of the tag failures of the last second; `oneWay` the paths (0 Shaum, 1 TSB) on which the peer reports
hearing nothing; `peerRejoin` what a returning peer has asked for; `copy` the tiles that R423 has the peer
copy from here; `written` the sectors that mirror applies have written in regions in RESYNC; `offlined` the
peer's regions that R468 has taken OFFLINE; `settled` whose image R423 makes authoritative for a region (0 both
twins', 1 this twin's, 2 the peer's, 3 none); `hostsHeld` that the host ports stay off after a fence (R701);
`returned` that the twins became PAIRED by this twin's rejoin; `coldSync` the regions that a cold start's
resynchronisation keeps closed to hosts (R34); `ackHeld` the CONTROL messages whose ACK waits for accesses of this
twin admitted under the old translation (R44, R51). -/
structure Twn where
  link : LinkState := .down
  lanes : Tbl Lane := []
  epoch : Nat := 0
  msgSeq : Nat := 1
  linkKeys : LinkKeys := {}
  tx : Tbl TxMsg := []
  asm : Tbl Asm := []
  acted : List Nat := []
  authFails : List Nat := []
  epochSet : Bool := false
  mate : Bool := false
  self : TwinState := .starting
  peer : PeerState := .unknown
  heardPeer : Bool := false
  peerB : Option Burgee := none
  shaumSilent : Bool := false
  tsbSilent : Bool := false
  shaumTx : Nat := 0
  tsbTx : Nat := 0
  shaumHeard : Nat := 0
  tsbHeard : Nat := 0
  heardByShaum : Nat := 0
  heardByTsb : Nat := 0
  unheardShaum : Nat := 0
  unheardTsb : Nat := 0
  oneWay : List Nat := []
  fast : Bool := false
  peerFast : Bool := false
  fenceIn : Bool := false
  fenceOut : Bool := false
  fenceSeen : Nat := 0
  fenceOk : Bool := false
  pulses : Nat := 0
  pulseBase : Nat := 0
  fence : FenceStep := .none
  forced : Bool := false
  rejoin : List Nat := []
  fullResync : Bool := false
  resync : Tbl Resync := []
  peerRejoin : Option (List Nat × Bool) := none
  copy : Tbl (List Nat) := []
  written : Tbl (List Nat) := []
  tilesIn : Tbl TileIn := []
  offlined : List Nat := []
  settled : Tbl Nat := []
  hostsHeld : Bool := false
  returned : Bool := false
  coldSync : List Nat := []
  ackHeld : Tbl (List Access) := []
  ensignsAtSilence : Nat := 0
  lastRelease : Option Nat := none
  releaseDeferred : Bool := false
  releaseInst : Option Nat := none
  window : Tbl WinSlot := []
  ctl : Tbl CtlWait := []
  pulls : List Nat := []
  pulled : Tbl Nat := []
  verifyBusy : Tbl (Nat × Nat) := []
  sampled : Nat := 0
  races : Nat := 0
  mismatches : Nat := 0
  enginesTested : Nat := 0
  engineFail : List Nat := []
  healthSeq : Nat := 0
  paired : Bool := false
  burgeeMiss : Nat := 0
  healthBits : Nat := 0
  keyed : Bool := false
  handoffs : List Nat := []
  handoffInst : Option Nat := none
  handed : Nat := 0
  leaving : Bool := false
  reverting : Bool := false
  flashUncorr : Nat := 0
  deriving DecidableEq, Repr

/-! ### Mailboxes and firmware (chapter 12) -/

/-- Mailbox instance states (R503); `held` is a command received and held (R517). -/
inductive MbxState
  | idle | busy | done
  deriving DecidableEq, Repr

/-- One mailbox instance (R498–R506), keyed by `mbxKey`. `held` is a command received and held (R517);
`objects` what its command holds (R508); `waits` the regions, `access` the accesses that it waits for, `ending` the result with
which it then ends; `mtag` the MCTP or WCM tag of the message being answered, `ctag` that of the command in progress and
`htag` that of the command held. -/
structure Mbx where
  lastSeq : Option Nat := none
  state : MbxState := .idle
  result : JResult := {}
  cmd : Option JorridCmd := none
  tag : Nat := 0
  background : Bool := false
  slot : Bool := false
  held : Option (JHdr × JorridCmd) := none
  discard : Bool := false
  objects : List Nat := []
  relayed : Option Nat := none
  abortAsked : Bool := false
  waits : List Nat := []
  access : List Access := []
  step : Nat := 0
  ending : JResult := {}
  mtag : Nat := 0
  ctag : Nat := 0
  htag : Nat := 0
  deriving DecidableEq, Repr

/-- Firmware slot states (R513). -/
inductive SlotState
  | empty | loading | valid | pending | active | previous | invalid
  deriving DecidableEq, Repr

/-- A firmware slot: its state, what the header of its image declares (R535), the bytes received so far and their declared
number. `factory` says that it holds what it left the factory with, which no transfer has replaced. -/
structure FwSlot where
  state : SlotState := .empty
  factory : Bool := true
  mfg : Bool := false
  version : Nat := 0
  svn : Nat := 0
  loadBytes : Nat := 0
  startUs : Nat := 0
  loaderDigest : Nat := 0
  fwDigest : Nat := 0
  ucodeDigest : Nat := 0
  image : List Byte := []
  total : Nat := 0
  deriving DecidableEq, Repr

/-- PLDM update states (R515). -/
inductive PldmState
  | idle | learn | ready | download | verify | apply | activate
  deriving DecidableEq, Repr

/-- The appliance record in the configuration flash (R440): twin number, appliance identifier, and the rail table as
the registers' offsets and values (R594). -/
structure ApplRec where
  twin : Bool
  id : Nat
  rails : List (Nat × Nat)
  deriving DecidableEq, Repr

/-- Firmware and its update (R513–R518), and the appliance record; `loadBy` is who waits for the erase of the slot being loaded,
a CXL mailbox (its LD) or the PLDM endpoint (its EID); `warm` says that this start follows a warm reset, whose DRAM was kept (R31). -/
structure Fw where
  a : FwSlot := {}
  b : FwSlot := {}
  running : Bool := false
  phase : Nat := 0
  pldm : PldmState := .idle
  pldmSlot : Bool := false
  activating : Option Bool := none
  halted : Bool := false
  actInst : Option Nat := none
  transfer : Option Bool := none
  loadBy : Option (Bool × Nat) := none
  warm : Bool := false
  record : Option ApplRec := none
  deriving DecidableEq, Repr

/-! ### Security (chapter 13) -/

/-- A region's live key entry and what SEC has loaded of it (R545–R549, R562): the epoch and its RKS; the moves and flash
reads begun under an earlier epoch, whose keys are held until they end (R548 step 5). -/
structure RgnKey where
  epoch : Nat := 0
  rks : Nat := 0
  xts : Bool := false
  shaum : Bool := false
  oldMoves : List Nat := []
  oldReads : List Nat := []
  deriving DecidableEq, Repr

/-- An SPDM session's progress on one transport (R541–R543): version, capabilities and algorithms
negotiated, the transcript so far (as the numbers exchanged), the chunks received and to send. -/
structure Spdm where
  version : Bool := false
  caps : Bool := false
  algs : Bool := false
  dataXfer : Nat := 0
  transcript : List Nat := []
  chunksIn : List Byte := []
  nextChunk : Nat := 0
  large : List Nat := []
  sent : Nat := 0
  handle : Nat := 0
  deriving DecidableEq, Repr

/-- OTP and the secure-boot outcome (R531–R540, R557–R564); `advanced` lists the regions being deleted whose epoch has
advanced (R44, R548); `waits` are the SPDM signatures that wait for the lattice
engines in Quiet (R556): a challenge, or the measurement of an index, with its nonce. -/
structure Sec where
  uds : Nat := 0
  rootHash0 : Nat := 0
  rootHash1 : Nat := 0
  rootRevoke : Nat := 0
  serial : List Nat := [0, 0, 0, 0]
  lifecycle : Nat := 2
  arb : Nat := 0
  variantN : Bool := false
  engSample : Bool := false
  debugUnlocked : Bool := false
  challenge : List Nat := [0, 0, 0, 0, 0, 0, 0, 0]
  failStep : Nat := 0
  failOther : Nat := 0
  udsLocked : Bool := false
  rootUsed : Bool := false
  bootSel : Bool := false
  slotB : Bool := false
  entropyOk : Bool := true
  keys : Tbl RgnKey := []
  advanced : List Nat := []
  spdm : Tbl Spdm := []
  cdi : Nat := 0
  waits : List (SpdmPath × Option Nat × Nat) := []
  deriving DecidableEq, Repr

/-! ### Configuration flash and event recorder (chapter 14) -/

/-- Block states (R587). -/
inductive EflState
  | normal | interrupted | erasing | suspended
  deriving DecidableEq, Repr

/-- One EFL block's hidden block word and state (R572, R573). -/
structure EflBlock where
  state : EflState := .normal
  count : Nat := 0
  countKnown : Bool := true
  mark : Bool := false
  est : Bool := false
  deriving DecidableEq, Repr

/-- Where the firmware's EFL command sequence stands (R568). -/
inductive EflSeq
  | locked | key1 | unlocked | program | programAddr | programLo | erase
  deriving DecidableEq, Repr

/-- A word program that firmware has queued or that runs (R568, R569). -/
structure EflOp where
  addr : Nat
  data : Nat
  deriving DecidableEq, Repr

/-- The EFL beside registers: words that are not all ones (keyed byte address / 8), passes per word
since the block's erase, blocks not in their initial state, the sequence, firmware's program, the erase in progress and its
requester (0 PWS, 1 Sage, 2 EVR, 3 firmware), the erases that wait with their requesters (R568), the entries of two-half areas
that wait to be written: area, the byte address of a word to be programmed again or none, and the words (R575), and whether
the block words have been read since the reset (R573). -/
structure Efl where
  words : Tbl Nat := []
  passes : Tbl Nat := []
  blocks : Tbl EflBlock := []
  seq : EflSeq := .locked
  addr : Nat := 0
  lo : Nat := 0
  keyErrs : Nat := 0
  lockout : Bool := false
  err : Nat := 0
  prog : Option EflOp := none
  erase : Option Nat := none
  eraseBy : Nat := 0
  pulses : Nat := 0
  erased : Bool := false
  autoSusp : Bool := false
  brownout : Bool := false
  jobs : List (Nat × Nat) := []
  pend : List (Nat × Option Nat × List (Nat × Nat)) := []
  scanned : Bool := false
  deriving DecidableEq, Repr

/-- An event record (R577) before its RN. -/
structure EvRec where
  code : Nat
  severity : Nat
  twin : Bool
  lost : Bool := false
  stopped : Bool := false
  forced : Bool := false
  fw : Bool := false
  time : Nat
  p0 : Nat
  p1 : Nat
  p2 : Nat
  p3 : Nat
  deriving DecidableEq, Repr

/-- The event recorder (R578–R581): queue, written records by RN, records in the keep block, the open
ring block's sequence and next slot, ring blocks opened, the oldest retained RN, records dropped. -/
structure Evr where
  queue : List EvRec := []
  recs : Tbl EvRec := []
  keep : Nat := 0
  seq : Nat := 0
  slot : Nat := 1
  oldest : Nat := 1024
  lostPending : Bool := false
  dropped : Nat := 0
  submit : Tbl Word := []
  deriving DecidableEq, Repr

/-- An event queue (R665). -/
structure EvQueue where
  qpn : Nat
  mask : Nat
  severity : Nat
  gathered : List Nat := []
  deriving DecidableEq, Repr

/-! ### Power and islands (chapter 15) -/

/-- Rail states (R622). -/
inductive RailState
  | off | ramping | qualified | retryWait | failed | discharging | discharged | timedOut
  deriving DecidableEq, Repr

/-- One rail (R593–R607). -/
structure Rail where
  state : RailState := .off
  reading : Nat := 0
  pg : Bool := false
  good : Nat := 0
  retries : Nat := 0
  ignored : Bool := false
  deriving DecidableEq, Repr

/-- Sequencer states (R620). -/
inductive SeqState
  | off | powerUp | on | powerDown | halted | hold
  deriving DecidableEq, Repr

/-- Why a power-down ends as it does (R608). -/
inductive DownCause
  | systemReset | planned | other | groupOff
  deriving DecidableEq, Repr

/-- A rail fault log entry (R610). -/
structure RailLog where
  kind : Nat
  rail : Nat
  group : Nat
  cause : Nat
  retries : Nat
  reading : Nat
  time : Nat
  saveGen : Nat
  deriving DecidableEq, Repr

/-- PWS beside registers (R593–R611). -/
structure Pws where
  rails : Tbl Rail := []
  seq : SeqState := .off
  group : Nat := 0
  complete : List Nat := []
  aonGood : Bool := false
  pwrOk : Bool := false
  inputBad : List Nat := []
  table : Bool := false
  down : DownCause := .other
  downGroup : Nat := 0
  downStop : Nat := 0
  restarts : Nat := 0
  log : List RailLog := []
  groupDelay : Bool := false
  restartPending : Bool := false
  deriving DecidableEq, Repr

/-- Quiet states (R627). -/
inductive Quiet
  | awake | entering | quiet | waking
  deriving DecidableEq, Repr

/-- ISL beside registers (R612–R618): gated islands by number, Quiet, a warm reset's step, and each
path's record of its gated access (R629). -/
structure Isl where
  gated : List Nat := [1, 2, 3, 4, 5, 6, 7, 8, 9, 10, 11]
  quiet : Quiet := .awake
  warm : Nat := 0
  warmFw : Bool := false
  deriving DecidableEq, Repr

/-! ### Two-wire buses (chapter 16) -/

/-- An MCTP message being assembled (R633), keyed source EID × 8 + tag. -/
structure MctpAsm where
  nextSeq : Nat
  data : List Byte
  deriving DecidableEq, Repr

/-- A received MCTP packet that waits in one of the eight receive buffers (R632): source EID, tag, sequence number,
start and end of message, payload. -/
structure MctpPkt where
  eid : Nat
  tag : Nat
  seq : Nat
  som : Bool
  eom : Bool
  data : List Byte
  deriving DecidableEq, Repr

/-- The PSB controller's owner of the running transaction (R639). -/
inductive PsbOwner
  | none | elg (code : Nat) | firmware
  deriving DecidableEq, Repr

/-- TWB beside registers: packets in the MGT receive buffers, assemblies, transmit queue, EID, alert; PSB's running
and waiting transactions, retries left, stuck ports, data window length. -/
structure Twb where
  rx : List MctpPkt := []
  asm : Tbl MctpAsm := []
  tx : List (List Byte) := []
  eid : Nat := 0
  strap : Nat := 0
  alert : Bool := false
  alertHeld : Bool := false
  held : List (List Byte) := []
  psb : PsbOwner := .none
  elgWait : List Nat := []
  fwWait : Bool := false
  tries : Nat := 0
  result : Nat := 0
  rxLen : Nat := 0
  stuck : List Nat := []
  deriving DecidableEq, Repr

/-! ### Errors (chapter 17) and the Legacy Aperture (chapter 18) -/

/-- Error counting beside registers (R661, R667) and resources out of service (R652, R481). -/
structure Err where
  winCorr : Nat := 0
  winRepair : Nat := 0
  corrSet : Bool := false
  repairSet : Bool := false
  meshDown : List Nat := []
  halted : List Nat := []
  removed : List Nat := []
  descFetch : List Nat := []
  deriving DecidableEq, Repr

/-- A staged aperture write (R681). -/
structure LapWr where
  ld : Nat
  host : Nat
  off : Nat
  data : List Byte
  batch : Nat
  deriving DecidableEq, Repr

/-- The Legacy Aperture (R681): staging in acceptance order, the open batch's number and whether it
holds a write, the next token, closed batches with their tokens, failed batches, waiting commit reads
(the path's key). -/
structure Lap where
  staged : List LapWr := []
  batch : Nat := 0
  openUsed : Bool := false
  token : Nat := 0
  closed : List Nat := []
  failed : List Nat := []
  lastToken : Nat := 0
  reads : List Nat := []
  deriving DecidableEq, Repr

/-! ### What the device sends -/

/-- How a packet of a QP goes out: port and priority, the PCP of a tagged frame, DSCP and ECN, the UDP ports, the GCM
pipelines of the port (R126, R127), and where it is encrypted the COUNTER of its WSH and the IV (R147, R148). -/
structure Pkt where
  port : Nat
  prio : Nat
  pcp : Option Nat
  dscp : Nat
  ecn : Nat
  udpSrc : Nat
  udpDst : Nat
  pipes : List Nat
  counter : Option Nat
  iv : Nat
  deriving DecidableEq, Repr

/-- What the HG960 sends or drives: responses, messages, packets, pins. The newest stands first. -/
inductive Output
  | regRead (path off : Nat) (val : Word) (hi : Option Word)
  | badRead (path size : Nat)
  | cxlData (ld tag : Nat) (data : List Byte) (poison : Bool) (devLoad : Nat)
  | cxlCmp (ld tag : Nat) (devLoad : Nat)
  | cxlMbx (ld opcode ret : Nat) (body : List Nat)
  | cxlNotReady (ld : Nat)
  | msix (ld vector : Nat)
  | barrier (ld count : Nat)
  | gpfAck (port link phase : Nat)
  | fmReply (port opcode ret : Nat) (body : List Nat)
  | linkTrain (port link : Nat)
  | l0p (port link width : Nat)
  | rdma (p : Pkt) (qpn psn : Nat) (r : RdmaResp)
  | rdmaWcm (p : Pkt) (qpn type tag status len : Nat) (fields : List (Nat × Nat × Nat))
  | cm (kind qpn : Nat) (body : List Nat)
  | cnp (p : Pkt) (qpn : Nat)
  | pfc (port : Nat) (prios : Nat) (xoff : Bool)
  | lldp (port : Nat) (tlv : List Byte)
  | cqRecord (p : Option Pkt) (t : Target) (cq psn addr : Nat) (imm : Option Nat) (data : List Byte)
  | cqStale (p : Pkt) (t : Target) (cq psn : Nat)
  | shaum (seq : Nat) (m : ShaumMsg) (body : List Byte)
  | shaumSeg (lane : Nat) (head : List Byte) (iv key : Nat)
  | tsb (b : Burgee) (frame : List Byte)
  | fenceOut (level : Bool)
  | fencePulse
  | jorrid (inst : Nat) (seq tag : Nat) (r : JResult)
  | mctp (eid type : Nat) (body : List Nat)
  | smbAck (ack : Bool)
  | smbRead (data : List Byte)
  | smbAlert (asserted : Bool)
  | psb (port addr proto code len : Nat) (pec : Bool) (data : List Byte)
  | railEn (rail : Nat) (on : Bool)
  | bar2Data (ld tag : Nat) (data : List Byte) (ep : Bool)
  | spdm (q : SpdmPath) (code : Nat) (body : List Nat)
  | dramCmd (ch : Nat) (kind arg : Nat)
  | die (die : Nat) (kind : Nat)
  | selfTest (engine : Nat)
  | engineReload (engine : Nat)
  | laneTrain (g : Nat)
  | linkKey (lane kind len crc : Nat) (fields : List (Nat × Nat × Nat))
  | pldm (eid cmd code : Nat) (body : List Nat)
  deriving DecidableEq, Repr

/-- One Ethernet port (R125–R133, R180): priorities paused by the partner and paused here, the link partner, packets that
wait on a paused priority with their sizes, bytes served by priority since none waited (R128, R129), and received frames
in its ingress headroom (R128). -/
structure NetPort where
  up : Bool := false
  rxPaused : Nat := 0
  txPaused : Nat := 0
  partner : Nat := 0
  txq : Tbl (List (Nat × Output)) := []
  served : Tbl Nat := []
  headroom : List (PktHdr × Verb) := []
  deriving DecidableEq, Repr

/-- The state of the block, beside the commands that wait. -/
structure State where
  pending : List Instr := []
  out : List Output := []
  /-- Device time in ns (R31, R600). -/
  time : Nat := 0
  /-- The MODEL's own counter: how many free values have been drawn. -/
  fresh : Nat := 0
  /-- The register bank: registers that differ from their reset value, by byte offset. -/
  regs : Tbl Word := []
  paths : Tbl PathSt := []
  /-- Current contents of persistent space on this twin, by PSA; an unlisted byte is 0 (R43). -/
  mem : List Host.Cell := []
  /-- Metadata of sectors that differs from the default, by PSA / 64 (R21, R101, R322). -/
  sectors : Tbl SectorInfo := []
  /-- Exposed capacity in granules (R39). -/
  exposed : Nat := 49152
  regions : Tbl Region := []
  rgt : Tbl Nat := []
  extents : Tbl Extent := []
  extentGens : Tbl Nat := []
  mkeys : Tbl Mkey := []
  mkeyGens : Tbl Nat := []
  leases : Tbl Lease := []
  poisonList : List PoisonEnt := []
  poisonOverflow : Bool := false
  tiles : Tbl TileEnt := []
  frames : Tbl Frame := []
  moves : Tbl Move := []
  plc : Plc := {}
  hlc : Hlc := {}
  reqs : Tbl Req := []
  reqSeq : Nat := 1
  ended : List (Req × Ending) := []
  /-- Admission is stopped (R26 step 1, R32 step 1). -/
  noAdmit : Bool := false
  /-- Regions of this twin have been admitted at least once since reset (R86, R460). -/
  admitted : Bool := false
  links : Tbl CxlLink := []
  lds : Tbl Ld := []
  ports : Tbl NetPort := []
  /-- The service status that LLDP last advertised (R133, R178). -/
  advert : Nat := 0
  rdx : Rdx := {}
  pools : Tbl Pool := []
  sqs : Tbl Sq := []
  cqs : Tbl Cq := []
  cmds : Tbl Cmd := []
  cmdSeq : Nat := 1
  progress : Tbl Progress := []
  /-- Queues whose fetch stopped at an entry of the wrong phase, with its position (R200). -/
  sqWait : Tbl Nat := []
  chans : Tbl Chan := []
  health : Health := {}
  fmc : Fmc := {}
  elg : Elg := {}
  twn : Twn := {}
  mbx : Tbl Mbx := []
  /-- Mailbox instances whose command waits for an event of the device, by what it waits for. -/
  jwait : Tbl Nat := []
  fw : Fw := {}
  sec : Sec := {}
  efl : Efl := {}
  evr : Evr := {}
  evq : Tbl EvQueue := []
  pws : Pws := {}
  isl : Isl := {}
  twb : Twb := {}
  err : Err := {}
  lap : Lap := {}
  deriving DecidableEq, Repr

/-- The machine right after a cold reset with VDD_AON good: every register at its reset value, every
table empty, islands gated (ISL_STATUS.GATED 0xFFE), nothing waiting. Values that the spec does not
state at reset are those that INVENTORY.md and the assumption log name. -/
def State.reset : State := {}

/-- The answer of a meaning. -/
abbrev Out := Host.Outcome State Fault Refusal

end Sys2Proof.Machine
end

