-- ==== Sys2Proof/Machine/Ops.lean ====
section
/-! DEFINITION. The named operations over registers, outputs and persistent memory that every family
shares: the register bank, W1C flags and counters, `_LO`/`_HI` halves per path, islands, what the
device sends, and memory in its canonical form. -/

namespace Sys2Proof.Machine

/-! ### The register bank -/

/-- Whether a descriptor covers an offset. -/
def RegDesc.hits (d : RegDesc) (off : Nat) : Bool :=
  decide (d.off ≤ off) &&
    (if d.cnt2 = 1 then (off - d.off) % d.stride == 0 && decide ((off - d.off) / d.stride < d.cnt)
     else decide ((off - d.off) / d.stride < d.cnt) && ((off - d.off) % d.stride) % d.stride2 == 0
       && decide (((off - d.off) % d.stride) / d.stride2 < d.cnt2))

/-- The register at an offset; none for a reserved offset (R58). -/
def descAt (off : Nat) : Option RegDesc := (blockRegs off).find? fun d => d.hits off

/-- The reset value of the register at an offset (R12). -/
def resetOf (off : Nat) : Word := match descAt off with
  | some d => BitVec.ofNat 32 d.rst
  | none => 0

/-- The content of the register bank at an offset. -/
def State.reg (s : State) (off : Nat) : Word := match s.regs.get? off with
  | some w => w
  | none => resetOf off

/-- Puts a value into the register bank; a register at its reset value is not listed. -/
def State.setReg (s : State) (off : Nat) (w : Word) : State :=
  { s with regs := if w = resetOf off then s.regs.erase off else s.regs.set off w }

/-- A field of a register in the bank. -/
def State.fld (s : State) (off hi lo : Nat) : Nat := Word.fld (s.reg off) hi lo

/-- One bit of a register in the bank. -/
def State.bit (s : State) (off i : Nat) : Bool := Word.bit (s.reg off) i

/-- Replaces a field of a register in the bank. -/
def State.setFld (s : State) (off hi lo v : Nat) : State :=
  s.setReg off (Word.withFld (s.reg off) hi lo v)

/-- Sets one bit of a register, as hardware sets a flag. -/
def State.setBit (s : State) (off i : Nat) (b : Bool) : State := s.setFld off i i (b2n b)

/-- A number as a register's 32 bits. -/
def w32 (n : Nat) : Word := BitVec.ofNat 32 n

/-- Adds to a field that counts and saturates at all ones (R12, R659). -/
def State.addSat (s : State) (off hi lo n : Nat) : State :=
  s.setFld off hi lo (min (s.fld off hi lo + n) (2 ^ (hi + 1 - lo) - 1))

/-- Adds `n` to a 32-bit counter, which saturates at 0xFFFF_FFFF (R659). -/
def State.countBy (s : State) (off n : Nat) : State := s.addSat off 31 0 n

/-- Counts one event (R659). -/
def State.count (s : State) (off : Nat) : State := s.countBy off 1

/-- A 64-bit value held in a `_LO`/`_HI` pair of the bank (R11). -/
def State.reg64 (s : State) (lo : Nat) : Nat := (s.reg lo).toNat + 2 ^ 32 * (s.reg (lo + 4)).toNat

/-- Puts a 64-bit value into a `_LO`/`_HI` pair of the bank (R11). -/
def State.setReg64 (s : State) (lo v : Nat) : State :=
  (s.setReg lo (w32 (v % 2 ^ 32))).setReg (lo + 4) (w32 (v / 2 ^ 32 % 2 ^ 32))

/-! ### Islands (R18, R612, R627) -/

/-- The island (bit number of R627) of the block that an offset lies in (R58). The registers that
serve the whole DMC belong to DRAM0 (DEDUCED, log 9). -/
def islandOf (off : Nat) : Nat :=
  if off < 0x40000 then 1
  else if off < 0x80000 then 0
  else if off < 0x100000 then 1
  else if off < 0x140000 then 3
  else if off < 0x200000 then 4
  else if off < 0x400000 then 2
  else if off < 0x600000 then 1
  else if off < 0x640000 then 5 + (off - 0x600000) / 0x4000 / 4
  else if off < 0x700000 then 5
  else if off < 0x800000 then 9
  else if off < 0x880000 then 0
  else if off < 0x900000 then 10
  else if off < 0x980000 then 11
  else if off < 0xA00000 then 1
  else if off < 0xB00000 then 0
  else 1

/-- The BLOCK_LOCK register of the block that an offset lies in (R12). -/
def lockOf (off : Nat) : Nat :=
  if off < 0x40000 then Reg.glbLock
  else if off < 0x80000 then Reg.islLock
  else if off < 0x100000 then Reg.mbxLock
  else if off < 0x140000 then Reg.cxLock
  else if off < 0x200000 then Reg.cxLock + 0x40000
  else if off < 0x300000 then Reg.netLock
  else if off < 0x400000 then Reg.rdxLock
  else if off < 0x500000 then Reg.tqmLock
  else if off < 0x580000 then Reg.plcLock
  else if off < 0x600000 then Reg.hlcLock
  else if off < 0x700000 then Reg.dmcLock
  else if off < 0x800000 then Reg.fmcLock
  else if off < 0x880000 then Reg.elgLock
  else if off < 0x900000 then Reg.twnLock
  else if off < 0x980000 then Reg.secLock
  else if off < 0xA00000 then Reg.bpmLock
  else if off < 0xA40000 then Reg.eflLock
  else if off < 0xA80000 then Reg.evrLock
  else if off < 0xAC0000 then Reg.pwsLock
  else if off < 0xB00000 then Reg.twbLock
  else Reg.lapLock

/-- The base of the block, as R668 numbers blocks (0 GLB to 21 LAP). -/
def blockNo (off : Nat) : Nat :=
  if off < 0x40000 then 0
  else if off < 0x80000 then 1
  else if off < 0x100000 then 2
  else if off < 0x140000 then 3
  else if off < 0x200000 then 4
  else if off < 0x300000 then 5
  else if off < 0x400000 then 6
  else if off < 0x500000 then 7
  else if off < 0x580000 then 8
  else if off < 0x600000 then 9
  else if off < 0x700000 then 10
  else if off < 0x800000 then 11
  else if off < 0x880000 then 12
  else if off < 0x900000 then 13
  else if off < 0x980000 then 14
  else if off < 0x9C0000 then 15
  else if off < 0xA00000 then 16
  else if off < 0xA40000 then 17
  else if off < 0xA80000 then 18
  else if off < 0xAC0000 then 19
  else if off < 0xB00000 then 20
  else 21

/-- Whether an island is gated (R612). -/
def State.gated (s : State) (island : Nat) : Bool := s.isl.gated.contains island

/-! ### Identity of this twin -/

/-- This twin's number: `false` 0, `true` 1 (R440, R486). -/
def State.twin (s : State) : Bool := s.bit Reg.twnId 0

/-- Whether this part is an HG960-N (R3, R63). -/
def State.variantN (s : State) : Bool := s.sec.variantN

/-! ### What the device sends -/

/-- Appends one thing that the device sends or drives. -/
def State.emit (s : State) (o : Output) : State := { s with out := o :: s.out }

/-- Draws a fresh number for a free value. -/
def State.draw (s : State) : State × Nat := ({ s with fresh := s.fresh + 1 }, s.fresh)

/-! ### Paths (R60–R62) -/

/-- The key of a path's latches and own registers: BAR0 of LD n is n, then MGT, RDMA, the CXL
mailbox, the peer mailbox, and firmware (R60). -/
def pathKey : RegPath → Nat
  | .bar0 ld => ld
  | .mgt => 32
  | .rdma => 33
  | .cxlMbx _ => 34
  | .peer => 35
  | .firmware => 36

/-- The host ID of an access on a path (R46). -/
def pathHost : RegPath → Nat
  | .bar0 ld => ld
  | .cxlMbx ld => ld
  | _ => 0xFFFF

/-- Whether a path is firmware's own. -/
def pathFw : RegPath → Bool
  | .firmware => true
  | _ => false

/-- Whether an LD is privileged (R61, R66). -/
def State.privLd (s : State) (ld : Nat) : Bool := s.bit Reg.glbPrivLd ld

/-- Whether a path reaches a register: an unprivileged LD reaches only GLB_PART_ID and the mailbox
window of its own (R61, R62). -/
def State.reaches (s : State) (p : RegPath) (off : Nat) : Bool :=
  match p with
  | .bar0 ld | .cxlMbx ld =>
    s.privLd ld || off == Reg.glbPartId
      || (decide (0x80000 + 0x2000 * ld.val ≤ off) && decide (off < 0x82000 + 0x2000 * ld.val))
  | _ => true

/-- A path's own state. -/
def State.path (s : State) (k : Nat) : PathSt := s.paths.getD k {}

/-- Changes a path's own state. -/
def State.setPath (s : State) (k : Nat) (f : PathSt → PathSt) : State :=
  { s with paths := s.paths.upd k {} f }

/-- A register that each path has of its own (selectors, snapshots, cursors). -/
def State.own (s : State) (k off : Nat) : Word := (s.path k).own.getD off (resetOf off)

/-- Sets a register of a path's own. -/
def State.setOwn (s : State) (k off : Nat) (w : Word) : State :=
  s.setPath k fun q => { q with own := q.own.set off w }

/-! ### Persistent memory: the contents of this twin's copy -/

/-- What an unlisted byte of persistent space reads as: every tile starts at home ZERO, which reads
as zeros (R43, R55). -/
def memDefault : Byte := 0

/-- Writes one byte, keeping the canonical form: addresses strictly rising, no entry equal to what an
unlisted byte reads as. -/
def memPut : List Host.Cell → Nat → Byte → List Host.Cell
  | [], a, b => if b = memDefault then [] else [(a, b)]
  | (k, w) :: t, a, b =>
    if a < k then (if b = memDefault then (k, w) :: t else (a, b) :: (k, w) :: t)
    else if a = k then (if b = memDefault then t else (a, b) :: t)
    else (k, w) :: memPut t a b

/-- Reads one byte. -/
def memGet : List Host.Cell → Nat → Byte
  | [], _ => memDefault
  | (k, w) :: t, a => if a = k then w else memGet t a

/-- The canonical form of memory from an address on. -/
def memAbove : Nat → List Host.Cell → Bool
  | _, [] => true
  | b, (k, w) :: t => decide (b ≤ k) && decide (w ≠ memDefault) && memAbove (k + 1) t

/-- The canonical form of memory. -/
def memWf (m : List Host.Cell) : Bool := memAbove 0 m

/-- Writes bytes at rising addresses. -/
def memPutBytes (m : List Host.Cell) (a : Nat) : List Byte → List Host.Cell
  | [] => m
  | b :: t => memPutBytes (memPut m a b) (a + 1) t

/-- Reads `n` bytes at rising addresses. -/
def memGetBytes (m : List Host.Cell) (a : Nat) : Nat → List Byte
  | 0 => []
  | n + 1 => memGet m a :: memGetBytes m (a + 1) n

/-- The persistent space's end: PSAs are 47 bits (R39). -/
def psaEnd : Nat := 2 ^ 47

/-- Reads a byte of persistent space by PSA. -/
def State.byteAt (s : State) (psa : Nat) : Byte := memGet s.mem psa

/-- Reads bytes of persistent space. -/
def State.bytesAt (s : State) (psa n : Nat) : List Byte := memGetBytes s.mem psa n

/-- The metadata of a sector (R21, R322). -/
def State.sector (s : State) (n : Nat) : SectorInfo := s.sectors.getD n {}

/-- Sets the metadata of a sector; a sector at the default is not listed. -/
def State.setSector (s : State) (n : Nat) (i : SectorInfo) : State :=
  { s with sectors := if i = {} then s.sectors.erase n else s.sectors.set n i }

/-- The sectors (PSA / 64) that a range of bytes touches. -/
def sectorsOf (psa len : Nat) : List Nat :=
  if len = 0 then [] else (List.range ((psa + len - 1) / 64 + 1 - psa / 64)).map (· + psa / 64)

/-- The tiles (PSA / 4,096) that a range of bytes touches. -/
def tilesOf (psa len : Nat) : List Nat :=
  if len = 0 then [] else (List.range ((psa + len - 1) / 4096 + 1 - psa / 4096)).map (· + psa / 4096)

/-- The cache lines (PSA / 256) that a range of bytes touches. -/
def linesOf (psa len : Nat) : List Nat :=
  if len = 0 then [] else (List.range ((psa + len - 1) / 256 + 1 - psa / 256)).map (· + psa / 256)

/-- Whether a range covers a sector whole. -/
def coversSector (psa len sec : Nat) : Bool := decide (psa ≤ sec * 64) && decide (sec * 64 + 64 ≤ psa + len)

/-- The metadata of a sector after a write: the low 32 bits of its persist sequence (R21); a write
that covers the sector whole sets or clears the poison marking, a partial one leaves it (R656). -/
def sectorWritten (i : SectorInfo) (pseq : Nat) (whole poison : Bool) : SectorInfo :=
  { pseq := pseq % 2 ^ 32
    poison := if whole then poison else i.poison || poison
    bad := if whole then false else i.bad }

/-- Applies one write of bytes with its persist sequence and poison marking to this twin's copy
(R20, R21, R101, R656). -/
def State.applyBytes (s : State) (psa pseq : Nat) (data : List Byte) (poison : Bool) : State :=
  let s1 := { s with mem := memPutBytes s.mem psa data }
  (sectorsOf psa data.length).foldl (fun t n =>
    t.setSector n (sectorWritten (t.sector n) pseq (coversSector psa data.length n) poison)) s1

/-- Sets a whole tile of this twin's copy to zeros with default metadata (home ZERO, R43, R55). -/
def State.clearTile (s : State) (tile : Nat) : State :=
  { s with
    mem := s.mem.filter fun c => c.1 / 4096 != tile
    sectors := s.sectors.filter fun e => e.1 / 64 != tile }

end Sys2Proof.Machine
end

