-- ==== Sys2Proof/Machine/Flags.lean ====
section
/-! DEFINITION. Every flag, counter and record that the spec computes alike for all blocks: W1C
flags, event records with their severity (R577, R580, R662), and error classes with their rate
thresholds (R661, R667). -/

namespace Sys2Proof.Machine

/-- Hardware sets a W1C flag (R658). -/
def State.flag (s : State) (off i : Nat) : State := s.setBit off i true

/-- The severity of an event record, fixed by its code (R662). -/
def severityOf (code : Nat) : Nat :=
  if [0x0002, 0x0203, 0x0A01, 0x0B01, 0x0B03, 0x0803, 0x0C03, 0x0D04, 0x0D0C, 0x1301].contains code
  then 3
  else if [0x0301, 0x0401, 0x0602, 0x0701, 0x0801, 0x0901, 0x0902, 0x0A03, 0x0A04, 0x0A05, 0x0B02,
    0x0C02, 0x0D01, 0x0D05, 0x0D06, 0x0D09, 0x0D0A, 0x0E01, 0x1001, 0x1103, 0x1302, 0x1303,
    0x1402].contains code then 2
  else if [0x0101, 0x0102, 0x0202, 0x0205, 0x0A06, 0x2001, 0x2002].contains code then 0
  else 1

/-- The flags of an event record that the raising rule gives (R577): STOPPED, FORCED, FW. -/
structure EvFlags where
  stopped : Bool := false
  forced : Bool := false
  fw : Bool := false
  deriving DecidableEq, Repr

/-- Queues a record: a full queue (64), or EVR_CTL.EN = 0, drops it, counts the drop and marks the next record
written LOST (R577, R580, R589). -/
def State.evrPush (s : State) (r : EvRec) : State :=
  if 64 ≤ s.evr.queue.length ∨ s.bit Reg.evrCtl 0 = false then
    { s.count Reg.evrDrop with
      evr := { s.evr with lostPending := true, dropped := s.evr.dropped + 1 } }
  else { s with evr := { s.evr with queue := s.evr.queue ++ [r] } }

/-- Queues an event record: it takes the device time, P1 and the 64-bit quantity of P2 and P3 (R577). -/
def State.recordF (s : State) (code p0 p1 p23 : Nat) (f : EvFlags) : State :=
  s.evrPush {
    code := code, severity := severityOf code, twin := s.twin
    stopped := f.stopped, forced := f.forced, fw := f.fw, time := s.time
    p0 := p0, p1 := p1, p2 := p23 % 2 ^ 32, p3 := p23 / 2 ^ 32 % 2 ^ 32 }

/-- Queues an event record without special flags. -/
def State.record (s : State) (code p0 p1 p23 : Nat) : State := s.recordF code p0 p1 p23 {}

/-- Sets a flag of an event register and queues the event record that goes with it: P1 is the event
register after the flag was set (R577). -/
def State.flagRecord (s : State) (off i code p0 p23 : Nat) : State :=
  let t := s.flag off i
  t.record code p0 (t.reg off).toNat p23

/-- Error classes (R661). -/
inductive ErrClass
  | corrected | retried | repaired | contained | poisoned | lost | degraded | fatal
  deriving DecidableEq, Repr

/-- The code of an error class (R661). -/
def ErrClass.code : ErrClass → Nat
  | .corrected => 0 | .retried => 1 | .repaired => 2 | .contained => 3
  | .poisoned => 4 | .lost => 5 | .degraded => 6 | .fatal => 7

/-- Counts the errors of classes CORRECTED and RETRIED against CORR, and sets CORR_RATE once per
window when the count reaches it (R667). -/
def State.rateCorr (s : State) : State :=
  let n := s.err.winCorr + 1
  let t := { s with err := { s.err with winCorr := n } }
  if s.fld Reg.glbErrThresh 15 0 ≤ n ∧ s.err.corrSet = false then
    { t.flag Reg.glbErrEvent 0 with err := { s.err with winCorr := n, corrSet := true } }
  else t

/-- Counts the errors of class REPAIRED against REPAIR, and sets REPAIR_RATE once per window (R667). -/
def State.rateRepair (s : State) : State :=
  let n := s.err.winRepair + 1
  let t := { s with err := { s.err with winRepair := n } }
  if s.fld Reg.glbErrThresh 27 16 ≤ n ∧ s.err.repairSet = false then
    { t.flag Reg.glbErrEvent 1 with err := { s.err with winRepair := n, repairSet := true } }
  else t

/-- The window counting of a class (R667). -/
def State.rateOf (s : State) : ErrClass → State
  | .corrected => s.rateCorr
  | .retried => s.rateCorr
  | .repaired => s.rateRepair
  | _ => s

/-- Counts one error of a class in its class counter, records it in GLB_ERR_LAST with the number of
its block, and counts it against the rate thresholds (R661, R667, R673, R674). -/
def State.err1 (s : State) (block : Nat) (c : ErrClass) : State :=
  (((s.count (Reg.glbErrCount + 4 * c.code)).setFld Reg.glbErrLast 31 27 block).setFld
    Reg.glbErrLast 26 24 c.code).rateOf c

/-- The event registers of a block (R663), by block number. -/
def eventRegs : Nat → List Nat
  | 0 => [Reg.glbErrEvent, Reg.glbXltStatus]
  | 1 => [Reg.islEvent]
  | 2 => [Reg.mbxEvent]
  | 3 => [Reg.cxLinkEvent, Reg.cxGpf]
  | 4 => [Reg.cxLinkEvent + 0x40000, Reg.cxGpf + 0x40000]
  | 5 => (List.range 8).map fun n => Reg.netPortEvent + 16 * n
  | 6 => [Reg.rdxEvent]
  | 7 => [Reg.tqmEvent]
  | 8 => [Reg.plcEvent]
  | 9 => [Reg.hlcEvent]
  | 10 => Reg.dmcEvent :: (List.range 16).map fun n => Reg.dmcChEvent + 0x4000 * n
  | 11 => [Reg.fmcEvent]
  | 12 => [Reg.elgEvent]
  | 13 => [Reg.twnEvent]
  | 14 => [Reg.secEvent]
  | 15 => [Reg.crcMismatch]
  | 16 => (List.range 5).map fun n => Reg.bpmEvent + 32 * n
  | 17 => [Reg.eflStatus]
  | 19 => [Reg.pwsEvent, Reg.pwsFirstOp]
  | 20 => [Reg.twbMgtEvent, Reg.twbPsbEvent]
  | 21 => [Reg.lapEvent]
  | _ => []

/-- Whether a block has an event bit set: the W1C bits of its event registers (R663, R668). -/
def State.blockEvent (s : State) (b : Nat) : Bool :=
  (eventRegs b).any fun off => match descAt off with
    | some d => (s.reg off).toNat &&& d.w1c != 0
    | none => false

/-- GLB_INT_STATUS: one bit per block (R663, R668). -/
def State.intStatus (s : State) : Nat :=
  (List.range 22).foldl (fun a b => a + if s.blockEvent b then 2 ^ b else 0) 0

/-- Whether the firmware interrupt is raised (R663). -/
def State.fwInterrupt (s : State) : Bool := s.intStatus &&& (s.reg Reg.glbIntMask).toNat != 0

end Sys2Proof.Machine
end

