-- ==== Sys2Proof/Machine/EflArea.lean ====
section
/-! DEFINITION. The array of the configuration flash as every requester reaches it: words, passes, erases by priority (R566,
R568–R572), and its two-half areas (R575) with their entries: region keys (R546), the rail fault log (R610), progress (R576),
the appliance record (R440) and the DRAM health record (R335). -/

namespace Sys2Proof.Machine

/-! ### Blocks and words -/

/-- A block of the EFL. -/
def State.eflBlock (s : State) (b : Nat) : EflBlock := s.efl.blocks.getD b {}

/-- Changes a block of the EFL. -/
def State.modBlock (s : State) (b : Nat) (f : EflBlock → EflBlock) : State :=
  { s with efl := { s.efl with blocks := s.efl.blocks.upd b {} f } }

/-- A word of all ones: erased. -/
def eflOnes : Nat := 2 ^ 64 - 1

/-- The word at a byte address, as the model's array lists it. -/
def State.eflWord (s : State) (addr : Nat) : Nat := s.efl.words.getD (addr / 8) eflOnes

/-- Passes that a word has had since its block's erase (R569). -/
def State.eflPasses (s : State) (addr : Nat) : Nat := s.efl.passes.getD (addr / 8) 0

/-- Programs a word: bits go from 1 to 0 only, and one pass is used (R566, R569). -/
def State.eflPut (s : State) (addr data : Nat) : State :=
  { s with efl := { s.efl with
      words := s.efl.words.set (addr / 8) (s.eflWord addr &&& data)
      passes := s.efl.passes.set (addr / 8) (s.eflPasses addr + 1) } }

/-- Programs words at offsets from a byte address, in order. -/
def State.eflPuts (s : State) (addr : Nat) (l : List (Nat × Nat)) : State :=
  l.foldl (fun (t : State) e => t.eflPut (addr + e.1) e.2) s

/-- The bytes of a 64-bit word. -/
def word64 (l : List Byte) (i : Nat) : Nat := ofLe (sliceBytes l (8 * i) 8)

/-! ### Erases (R568, R570, R572) -/

/-- Whether an erase is SUSPENDED (R570). -/
def State.eflSuspended (s : State) : Bool := s.efl.blocks.vals.any fun b => b.state == .suspended

/-- Whether an erase is ERASING (R570). -/
def State.eflErasing (s : State) : Bool := s.efl.blocks.vals.any fun b => b.state == .erasing

/-- Whether an operation of firmware's is queued or running: a program, or an erase that firmware has not suspended
(R568, R586). -/
def State.eflBusy (s : State) : Bool :=
  s.efl.prog.isSome || (s.efl.jobs.any fun j => j.1 == 3)
    || (s.efl.erase.isSome && s.efl.eraseBy == 3 && (s.eflErasing || s.efl.autoSusp))

/-- Puts the running erase into a state. -/
def State.eraseState (s : State) (st : EflState) : State :=
  match s.efl.erase with
  | some b => s.modBlock b fun x => { x with state := st }
  | none => s

/-- An erase that is ERASING is suspended automatically for a program (R570). -/
def State.autoSuspend (s : State) : State :=
  if s.eflErasing then { s.eraseState .suspended with efl := { (s.eraseState .suspended).efl with autoSusp := true } }
  else s

/-- EVR_OLDEST once the ring block of sequence `q` is being erased: the first RN of the next block (R579, R580). -/
def oldestAfter (q : Nat) : Nat := 1024 + 2047 * (q + 1)

/-- What the erase of a block does to the records: from its start those of that block are no longer retained (R579). -/
def evrErased (e : Evr) (b by' : Nat) : Evr :=
  let kept := if 208 ≤ b ∧ b ≤ 213 then
      e.recs.filter fun x => !(decide (1024 ≤ x.1) && (x.1 - 1024) / 2047 % 6 + 208 == b)
    else if b = 207 then e.recs.filter fun x => decide (1024 ≤ x.1)
    else e.recs
  { e with recs := kept, oldest := if by' = 2 ∧ 5 ≤ e.seq then max e.oldest (oldestAfter (e.seq - 5)) else e.oldest }

/-- Starts an erase of a block for a requester: the marker is programmed, and the pulses begin (R572 steps 1 to 3). -/
def State.eraseStart (s : State) (b by' : Nat) : State :=
  let t := s.modBlock b fun x => { x with state := .erasing, mark := true }
  { t with
    efl := { t.efl with erase := some b, eraseBy := by', pulses := 0, erased := false, autoSusp := false }
    evr := evrErased t.evr b by' }

/-- The waiting erase that is served next: that of the requester of the highest priority, in order of arrival (R568). -/
def eflFirst (l : List (Nat × Nat)) : Option (Nat × Nat) :=
  l.foldl (fun a j => match a with
    | none => some j
    | some k => if j.1 < k.1 then some j else some k) none

/-- Starts the next erase that waits, when none is ERASING or SUSPENDED and VDD_AON is good; firmware's wait during a save
(R568, R570, R574, R582). -/
def State.eflKick (s : State) : State :=
  if s.efl.erase.isSome || s.efl.brownout then s
  else match eflFirst (s.efl.jobs.filter fun j => decide (j.1 < 3) || s.elg.sage.isNone) with
  | none => s
  | some j => { s with efl := { s.efl with jobs := s.efl.jobs.filter (· != j) } }.eraseStart j.2 j.1

/-- Whether the erase of a block waits or runs. -/
def State.eraseDue (s : State) (b : Nat) : Bool := s.efl.erase == some b || s.efl.jobs.any fun j => j.2 == b

/-- A requester asks for the erase of blocks. -/
def State.eraseAsk (s : State) (by' : Nat) (bs : List Nat) : State :=
  let new := (bs.filter fun b => !s.eraseDue b).map fun b => (by', b)
  { s with efl := { s.efl with jobs := s.efl.jobs ++ new } }.eflKick

/-- Whether a block is NORMAL and erased, and no erase of it waits. -/
def State.blockBlank (s : State) (b : Nat) : Bool :=
  (match (s.eflBlock b).state with | .normal => true | _ => false) && !s.eraseDue b
    && !(s.efl.words.any fun e => e.1 / 8192 == b && e.2 != eflOnes)

/-! ### Two-half areas (R567, R575) -/

/-- The first block of a half of an area: 1 appliance record, 2 region keys, 3 rail fault log, 4 progress, 5 health record
(R567). -/
def areaBase (a : Nat) (h : Bool) : Nat :=
  match a with
  | 1 => 193 + b2n h
  | 2 => 199 + 4 * b2n h
  | 3 => 214 + b2n h
  | 4 => 216 + 2 * b2n h
  | _ => 220 + 2 * b2n h

/-- Blocks of a half (R567). -/
def areaLen : Nat → Nat
  | 1 => 1
  | 2 => 4
  | 3 => 1
  | _ => 2

/-- The blocks of a half. -/
def areaBlocks (a : Nat) (h : Bool) : List Nat := (List.range (areaLen a)).map (· + areaBase a h)

/-- 64-bit words of an entry: 48 bytes for a key, 32 for the logs (R546, R576, R610). The spec states no layout of the
appliance and health records; an entry of them takes 64 and 512 words (DESIGN CHOICE, log 126). -/
def entryWords : Nat → Nat
  | 1 => 64
  | 2 => 6
  | 3 => 4
  | 4 => 4
  | _ => 512

/-- Entries that a half holds after its header (R575, R576, R610). -/
def areaSlots (a : Nat) : Nat := (areaLen a * 8192 - 4) / entryWords a

/-- The byte address of entry `i` of a half. -/
def slotAddr (a : Nat) (h : Bool) (i : Nat) : Nat := areaBase a h * 65536 + 32 + 8 * entryWords a * i

/-- The requester that writes an area: PWS the rail fault log, firmware the others (R567). -/
def areaBy (a : Nat) : Nat := if a = 3 then 0 else 3

/-- The first 16 bytes of a half header; reserved bits are left at 1 (R13, R575). -/
def halfHead (a gen : Nat) : List Byte := leBytes 4 0x45464C48 ++ leBytes 1 a ++ leBytes 3 (2 ^ 24 - 1) ++ leBytes 8 gen

/-- Words 0 to 2 of a half header (R575). -/
def headWords (a gen : Nat) : List (Nat × Nat) :=
  [(0, word64 (halfHead a gen) 0), (8, gen % 2 ^ 64), (16, crc32c (halfHead a gen) + (2 ^ 32 - 1) * 2 ^ 32)]

/-- COMPLETE (R575). -/
def halfComplete : Nat := 0x5A5AA5A5

/-- GEN of a half. -/
def State.halfGen (s : State) (a : Nat) (h : Bool) : Nat := s.eflWord (areaBase a h * 65536 + 8)

/-- Whether a half has a valid header (R575). -/
def State.halfValid (s : State) (a : Nat) (h : Bool) : Bool :=
  let p := areaBase a h * 65536
  let w := s.eflWord p
  w % 2 ^ 40 == 0x45464C48 + a * 2 ^ 32
    && s.eflWord (p + 16) % 2 ^ 32 == crc32c (leBytes 8 w ++ leBytes 8 (s.eflWord (p + 8)))

/-- Whether a half has a valid header and COMPLETE, and its blocks may be trusted (R571, R573, R575). -/
def State.halfDone (s : State) (a : Nat) (h : Bool) : Bool :=
  s.halfValid a h && s.eflWord (areaBase a h * 65536 + 24) == halfComplete
    && (areaBlocks a h).all fun b => match (s.eflBlock b).state with | .normal => true | _ => false

/-- The live half of an area (R575). -/
def State.liveHalf (s : State) (a : Nat) : Option Bool :=
  if s.halfDone a false && s.halfDone a true then some (decide (s.halfGen a false < s.halfGen a true))
  else if s.halfDone a false then some false
  else if s.halfDone a true then some true
  else none

/-- Whether every word of an entry reads all ones. -/
def State.slotBlank (s : State) (a : Nat) (h : Bool) (i : Nat) : Bool :=
  let p := slotAddr a h i / 8
  !(s.efl.words.any fun e => decide (p ≤ e.1) && decide (e.1 < p + entryWords a) && e.2 != eflOnes)

/-- The first free entry of a half at or after `i`, looking at `fuel` of them (R575). -/
def State.slotFrom (s : State) (a : Nat) (h : Bool) : Nat → Nat → Option Nat
  | 0, _ => none
  | fuel + 1, i => if s.slotBlank a h i then some i else s.slotFrom a h fuel (i + 1)

/-- The first free entry of a half (R575). -/
def State.freeSlot (s : State) (a : Nat) (h : Bool) : Option Nat := s.slotFrom a h (areaSlots a) 0

/-! ### Entries -/

/-- The device storage key, derived from CDI_L0 (R544). -/
def State.dsk (s : State) : Nat := Config.crypto [0x544, s.sec.cdi]

/-- The housekeeping key, derived from CDI_L0 (R544). -/
def State.hkk (s : State) : Nat := Config.crypto [0x545, s.sec.cdi]

/-- A region key entry (R546): the RKS is wrapped under DSK; the word at byte 0 is programmed last. -/
def State.keyEntry (s : State) (id : Nat) (k : RgnKey) : List (Nat × Nat) :=
  let head := leBytes 2 (id % 2 ^ 12 + 0xF000) ++ leBytes 1 k.epoch ++ leBytes 1 0xFF
  let wrapped := leBytes 40 (Config.crypto [0x546, s.dsk, k.rks])
  ((List.range 5).map fun i => (8 + 8 * i, word64 wrapped i)) ++ [(0, ofLe (head ++ leBytes 4 (crc32c (head ++ wrapped))))]

/-- A progress entry (R576); `op` is 1 SANITIZE, 2 FORMAT, 3 DONE; reserved bits are left at 1 (R13). -/
def progressEntry (id op phase next fin : Nat) (p : Progress) : List (Nat × Nat) :=
  let bs := leBytes 4 (id % 2 ^ 12 + op * 2 ^ 12 + 3 * 2 ^ 14 + phase % 16 * 2 ^ 16 + p.sq % 2 ^ 12 * 2 ^ 20) ++ leBytes 4 p.pos
    ++ leBytes 2 p.d.tag ++ leBytes 2 0xFFFF ++ leBytes 4 next ++ leBytes 4 fin ++ leBytes 4 0xFFFFFFFF
  let bs := bs ++ leBytes 4 (crc32c bs) ++ leBytes 4 0xFFFFFFFF
  (List.range 4).map fun i => (8 * i, word64 bs i)

/-- The region granule after the last of a command's range (R576). -/
def State.progressFin (s : State) (id : Nat) (p : Progress) : Nat :=
  if p.phase = 0 then ceilDiv (p.d.dst % 2 ^ 47 + p.d.len) (2 ^ 30) else (s.regions.getD id {}).size

/-- The entry of a command that has not finished (R576). -/
def State.progressNow (s : State) (id : Nat) (p : Progress) : List (Nat × Nat) :=
  if p.phase = 0 then progressEntry id 2 0 p.next (s.progressFin id p) p
  else progressEntry id 1 (min 3 p.phase) p.next (s.progressFin id p) p

/-- The 32 bytes of a rail fault log entry, with VALID as given; reserved bits are left at 1 (R13, R610). -/
def railBytes (e : RailLog) (valid : Nat) : List Byte :=
  let body := fun (v : Nat) => leBytes 1 e.kind ++ leBytes 1 (e.rail % 32 + 32 * e.group)
    ++ leBytes 1 (e.cause % 16 + e.retries % 4 * 16 + 0xC0) ++ leBytes 1 v ++ leBytes 4 (e.reading % 2 ^ 12 + 0xFFFFF000)
    ++ leBytes 8 e.time ++ leBytes 8 e.saveGen ++ leBytes 4 0xFFFFFFFF
  body valid ++ leBytes 4 (crc32c (body 0xFF))

/-- A rail fault log entry: words 1, 2 and 3, then word 0 without its mark and word 0 with it (R578, R611). -/
def railEntry (e : RailLog) : List (Nat × Nat) :=
  [(8, word64 (railBytes e 0xFF) 1), (16, word64 (railBytes e 0xFF) 2), (24, word64 (railBytes e 0xFF) 3),
    (0, word64 (railBytes e 0xFF) 0), (0, word64 (railBytes e 0xA5) 0)]

/-- An appliance record, whose layout the spec does not state but for its rail-table section and that section's CRC-32C
(R440, R594). -/
def recordEntry (r : ApplRec) : List (Nat × Nat) :=
  let l := [b2n r.twin, r.id, crc32c (r.rails.flatMap fun e => leBytes 4 e.1 ++ leBytes 4 e.2)]
    ++ r.rails.flatMap fun e => [e.1, e.2]
  (List.range 64).map fun i => (8 * i, Config.firmwareLayout (0x440 * 2 ^ 16 + i) l % 2 ^ 64)

/-- A DRAM health record, which firmware defines (R335, R343, R567). -/
def healthEntry (h : Health) (retired : List Nat) : List (Nat × Nat) :=
  let l := (h.serials.flatMap fun e => [e.1, e.2]) ++ h.trained
    ++ (h.chives.flatMap fun e => e.1 :: e.2.flatMap fun c => [c.1, c.2]) ++ (h.dead.flatMap fun e => e.1 :: e.2) ++ retired
  (List.range 512).map fun i => (8 * i, Config.firmwareLayout (0x335 * 2 ^ 16 + i) l % 2 ^ 64)

/-- The entries that a move of an area copies: the live ones. Of the rail fault log, for which the spec does not say which
are live, the newest half of what a half holds (DESIGN CHOICE, log 127). -/
def State.areaLive (s : State) (a : Nat) : List (List (Nat × Nat)) :=
  match a with
  | 1 => match s.fw.record with
    | some r => [recordEntry r]
    | none => []
  | 2 => s.sec.keys.map fun e => s.keyEntry e.1 e.2
  | 3 => (s.pws.log.drop (s.pws.log.length - 1023)).map railEntry
  | 4 => s.progress.map fun e => s.progressNow e.1 e.2
  | _ => [healthEntry s.health s.plc.retired]

/-! ### Save-outcome slots and firmware slots (R419–R421, R513) -/

/-- Bytes of the array. -/
def State.eflBytes (s : State) (addr n : Nat) : List Byte :=
  ((List.range (ceilDiv n 8)).flatMap fun i => leBytes 8 (s.eflWord (addr + 8 * i))).take n

/-- The byte address of a save-outcome slot (R567). -/
def saveBase (i : Nat) : Nat := (195 + 2 * i) * 65536

/-- Whether a save-outcome slot holds a valid record (R419). -/
def State.slotValid (s : State) (i : Nat) : Bool :=
  let a := saveBase i
  let head := s.eflBytes a 80
  s.eflWord (a + 64) == halfComplete && ofLe (head.take 4) == 0x53414745 && ofLe (sliceBytes head 4 2) == 1
    && ofLe (sliceBytes head 56 4) == crc32c (head.take 56 ++ s.eflBytes (a + 80) (16 * ofLe (sliceBytes head 6 2)))
    && [195 + 2 * i, 196 + 2 * i].all fun b => match (s.eflBlock b).state with | .normal => true | _ => false

/-- The byte address of a firmware slot (R567). -/
def slotBase (b : Bool) : Nat := b2n b * 96 * 65536

/-- The blocks of a firmware slot (R567). -/
def slotBlocks (b : Bool) : List Nat := (List.range 96).map (· + b2n b * 96)

/-- Whether the erase of a firmware slot is under way (R514). -/
def State.slotErasing (s : State) (b : Bool) : Bool :=
  let mine := fun (n : Nat) => decide (n < 192) && n / 96 == b2n b
  s.efl.jobs.any (fun j => mine j.2) || (match s.efl.erase with | some n => mine n | none => false)

/-! ### Writing an area -/

/-- Steps 2 to 5 of R575: header with GEN + 1, the live entries, COMPLETE, and the old half is erased. -/
def State.areaMove (s : State) (a : Nat) (into : Bool) (gen : Nat) : State :=
  let p := areaBase a into * 65536
  let t := s.autoSuspend.eflPuts p (headWords a (gen + 1))
  let t := (s.areaLive a).zipIdx.foldl (fun (u : State) e => u.eflPuts (slotAddr a into e.2) e.1) t
  let t := t.eflPut (p + 24) halfComplete
  t.eraseAsk (areaBy a) ((areaBlocks a !into).filter fun b => !t.blockBlank b)

/-- Whether a half is erased. -/
def State.halfBlank (s : State) (a : Nat) (h : Bool) : Bool := (areaBlocks a h).all s.blockBlank

/-- Moves an area out of its live half, or begins it in half 0 where there is none, GEN being 1 then (DESIGN CHOICE, log 127):
at once where the other half is erased, as the last move has left it, else after step 1 of R575. Answers whether it moved. -/
def State.areaShift (s : State) (a : Nat) : State × Bool :=
  let (into, gen) : Bool × Nat := match s.liveHalf a with
    | some h => (!h, s.halfGen a h)
    | none => (false, 0)
  if s.halfBlank a into then (s.areaMove a into gen, true)
  else (s.eraseAsk (areaBy a) ((areaBlocks a into).filter fun b => !s.blockBlank b), false)

/-- Entries that wait for an area. -/
def State.pendOf (s : State) (a : Nat) : Bool := s.efl.pend.any fun e => e.1 == a

/-- Holds a program for an area. -/
def State.pendPut (s : State) (a : Nat) (at' : Option Nat) (l : List (Nat × Nat)) : State :=
  { s with efl := { s.efl with pend := s.efl.pend ++ [(a, at', l)] } }

/-- Writes one entry at the first free place of the live half. A full area is moved, which copies the entry with the others;
while the other half has still to be erased, VDD_AON is not good, or earlier entries wait, it waits (R574, R575). -/
def State.areaPut (s : State) (a : Nat) (l : List (Nat × Nat)) : State :=
  if s.efl.brownout || s.pendOf a then s.pendPut a none l
  else match (s.liveHalf a).bind fun h => (s.freeSlot a h).map fun i => (h, i) with
  | some (h, i) => s.autoSuspend.eflPuts (slotAddr a h i) l
  | none =>
    let p := s.areaShift a
    if p.2 then p.1 else p.1.pendPut a none l

/-- Programs words that an area already holds again. -/
def State.areaAgain (s : State) (a addr : Nat) (l : List (Nat × Nat)) : State :=
  if s.efl.brownout || s.pendOf a then s.pendPut a (some addr) l else s.autoSuspend.eflPuts addr l

/-- Writes what waits for an area, in order; a move takes all of it (R575). -/
def State.pendGo (s : State) (a : Nat) : State :=
  let l := s.efl.pend.filter fun e => e.1 == a
  let t := { s with efl := { s.efl with pend := s.efl.pend.filter fun e => e.1 != a } }
  let full := match t.liveHalf a with
    | some h => !(l.any fun e => e.2.1.isNone) || (t.freeSlot a h).isSome
    | none => false
  if l.isEmpty then s
  else if full then l.foldl (fun (u : State) e => match e.2.1 with
    | some p => u.areaAgain a p e.2.2
    | none => u.areaPut a e.2.2) t
  else
    let p := t.areaShift a
    if p.2 then p.1 else s

/-- Goes on after an erase or when VDD_AON is good: the areas that wait are written, and the next erase starts. -/
def State.eflGo (s : State) : State :=
  if s.efl.brownout then s else ([3, 1, 2, 4, 5].foldl State.pendGo s).eflKick

/-- At start-up a half with a valid header but no COMPLETE is erased before the area is used (R575); so is every INTERRUPTED
block of an area (R573). -/
def State.areaStart (s : State) (a : Nat) : State :=
  [false, true].foldl (fun (t : State) h =>
    if t.halfValid a h && t.eflWord (areaBase a h * 65536 + 24) != halfComplete then t.eraseAsk (areaBy a) (areaBlocks a h)
    else t.eraseAsk (areaBy a) ((areaBlocks a h).filter fun b => match (t.eflBlock b).state with | .interrupted => true | _ => false)) s

/-! ### What the areas hold -/

/-- Stores the appliance record (R440, R511). -/
def State.recordPut (s : State) (r : ApplRec) : State :=
  { s with fw := { s.fw with record := some r } }.areaPut 1 (recordEntry r)

/-- Changes the DRAM health record (R335, R343). -/
def State.modHealth (s : State) (f : Health → Health) : State :=
  if f s.health = s.health then s
  else
    let t := { s with health := f s.health }
    t.areaPut 5 (healthEntry t.health t.plc.retired)

/-- Sets a region's live key and appends its entry (R546). -/
def State.keyPut (s : State) (id : Nat) (k : RgnKey) : State :=
  { s with sec := { s.sec with keys := s.sec.keys.set id k } }.areaPut 2 (s.keyEntry id k)

/-- The entries of a half's region that are not zero and not those of an epoch that is kept: their byte addresses. -/
def State.keyAddrs (s : State) (id : Nat) (keep : Option Nat) : List Nat :=
  match s.liveHalf 2 with
  | none => []
  | some h => (s.efl.words.filter fun e =>
      decide (slotAddr 2 h 0 / 8 ≤ e.1) && (e.1 - slotAddr 2 h 0 / 8) % 6 == 0 && decide (e.1 < slotAddr 2 h (areaSlots 2) / 8)
        && e.2 != 0 && e.2 % 2 ^ 12 == id && keep != some (bitsOf e.2 23 16)).map fun e => 8 * e.1

/-- Destroys the entries of a region, but for those of an epoch that is kept: every word of them is programmed to zero
(R546–R548). -/
def State.keyRetire (s : State) (id : Nat) (keep : Option Nat) : State :=
  (s.keyAddrs id keep).foldl (fun (t : State) p => t.areaAgain 2 p ((List.range 6).map fun i => (8 * i, 0))) s

/-- Appends an entry to the rail fault log; PWS moves the area when fewer than 64 free places remain and no power-down runs
(R610). -/
def State.railAppend (s : State) (e : RailLog) (down : Bool) : State :=
  let t := { s with pws := { s.pws with log := s.pws.log ++ [e] } }.areaPut 3 (railEntry e)
  let low := match t.liveHalf 3 with
    | some h => match t.freeSlot 3 h with
      | some i => decide (areaSlots 3 < i + 64)
      | none => true
    | none => false
  if low && !down && !t.efl.brownout && !t.pendOf 3 then (t.areaShift 3).1 else t

end Sys2Proof.Machine
end

