-- ==== Sys2Proof/Machine/Operands.lean ====
section
/-! DEFINITION. The operand forms of a memory access: a CXL device physical address through the
extent table (R52), an RDMA memory key (R53), a transfer queue's appliance address (R54), and the
translation of region and offset to persistent space (R48–R50), with its refusals (R49, R72–R74). -/

namespace Sys2Proof.Machine

/-- One GiB in bytes. -/
def gib : Nat := 2 ^ 30

/-- The descriptor of a region; an unlisted one is FREE (R42, R43). -/
def State.region (s : State) (id : Nat) : Region := s.regions.getD id {}

/-- Changes the descriptor of a listed region. -/
def State.modRegion (s : State) (id : Nat) (f : Region → Region) : State :=
  { s with regions := s.regions.modify id f }

/-- The level of a right: each permits what the lower ones do (R47). -/
def rightLevel : Right → Nat
  | .none => 0
  | .read => 1
  | .readWrite => 2
  | .readWriteAtomic => 3

/-- What an access needs (R47). -/
inductive Need
  | read | write | atomic
  deriving DecidableEq, Repr

/-- The level that an access needs (R47). -/
def needLevel : Need → Nat
  | .read => 1
  | .write => 2
  | .atomic => 3

/-- The right of a host in a region: management and firmware hold every right, an explicit entry
applies next, and otherwise the default (R47). -/
def rightOf (r : Region) (host : Nat) : Right :=
  if host = 0xFFFF then .readWriteAtomic else r.policy.getD host r.dflt

/-- Whether a region's state admits host accesses (R43). -/
def admits (st : RegionState) : Bool :=
  match st with
  | .online => true
  | .resync => true
  | _ => false

/-- The check of R48 that an access fails. -/
inductive XStep
  | path | state | right | bounds
  deriving DecidableEq, Repr

/-- The number of a check (R48, R72). -/
def XStep.code : XStep → Nat
  | .path => 1
  | .state => 2
  | .right => 3
  | .bounds => 4

/-- The PSA of a byte of a region, through the region granule table (R39, R48 step 5). -/
def State.psaOf (s : State) (r : Region) (off : Nat) : Nat :=
  s.rgt.getD (r.rgtBase + off / gib) 0 * gib + off % gib

/-- The pieces of persistent space of a range, one per granule that it touches (R50). -/
def State.segs (s : State) (r : Region) : Nat → Nat → Nat → List (Nat × Nat)
  | 0, _, _ => []
  | fuel + 1, off, len =>
    if len = 0 then [] else
    let n := min len (gib - off % gib)
    (s.psaOf r off, n) :: s.segs r fuel (off + n) (len - n)

/-- How many granules a range touches, at most. -/
def granules (off len : Nat) : Nat := (off % gib + len + gib - 1) / gib

/-- Whether a region is open to hosts: its state admits them (R43), and a cold start's resynchronisation of it
has ended (R34). -/
def State.opened (s : State) (id : Nat) : Bool :=
  admits (s.region id).state && !s.twn.coldSync.contains id

/-- Steps 2 to 5 of R48, for a region and offset: the pieces of persistent space, or the failing
check. -/
def State.xlate (s : State) (host region off len : Nat) (need : Need) :
    Except XStep (List (Nat × Nat)) :=
  let r := s.region region
  if s.opened region = false then .error .state
  else if rightLevel (rightOf r host) < needLevel need then .error .right
  else if r.size * gib < off + len then .error .bounds
  else .ok (s.segs r (granules off len) off len)

/-- An appliance address (R54). -/
def apAddr (region off : Nat) : Nat := region % 2 ^ 12 * 2 ^ 52 + off % 2 ^ 47

/-- The region and offset of an appliance address; none where the reserved bits are not 0 (R54). -/
def apSplit (a : Nat) : Option (Nat × Nat) :=
  if bitsOf a 51 47 = 0 then some (bitsOf a 63 52, bitsOf a 46 0) else none

/-- Records a refusal in the translation fault registers: the first since FAULT was clear, then
OVERFLOW; every one counts (R49, R72–R74). -/
def State.refuse (s : State) (path host : Nat) (st : XStep) (addr : Nat) : State :=
  let t := s.count Reg.glbXltCount
  if t.bit Reg.glbXltStatus 0 then t.flag Reg.glbXltStatus 1
  else (t.setReg Reg.glbXltStatus (w32 (host % 2 ^ 16 * 2 ^ 16 + st.code * 2 ^ 8 + path * 2 ^ 5
    + (if t.bit Reg.glbXltStatus 1 then 2 else 0) + 1))).setReg64 Reg.glbXltAddrLo addr

/-- The live extent of an LD that covers a DPA (R52, R88, R90). -/
def State.extentAt (s : State) (ld dpa : Nat) : Option (Nat × Extent) :=
  s.extents.find? fun e => e.ld == ld && !e.pending && !e.removing
    && decide (e.dpa ≤ dpa) && decide (dpa < e.dpa + e.len)

/-- Step 1 of R48 for a CXL.mem access: region and offset (R52). -/
def State.dpaOf (s : State) (ld dpa : Nat) : Option (Nat × Nat) :=
  (s.extentAt ld dpa).map fun p => (p.2.region, p.2.rof + (dpa - p.2.dpa))

/-- The address that a refused CXL.mem access records: the appliance address of its region and offset, 0 where no
extent gives them (R73). -/
def State.dpaFault (s : State) (ld dpa : Nat) : Nat := match s.dpaOf ld dpa with
  | some (region, off) => apAddr region off
  | none => 0

/-- The index, generation and tag of an R_Key (R53). -/
def rkeyIdx (rkey : Nat) : Nat := bitsOf rkey 31 16

/-- An R_Key (R53). -/
def rkeyOf (idx gen tag : Nat) : Nat := idx * 2 ^ 16 + gen % 256 * 2 ^ 8 + tag % 256

/-- Step 1 of R48 for an RDMA access: the key is valid, its generation and tag match, it is bound to
the QP's host, permits the verb (bit of VERBS, R166), and covers the range (R53). -/
def State.keyOf (s : State) (host rkey verb va len : Nat) : Option (Nat × Nat) :=
  match s.mkeys.get? (rkeyIdx rkey) with
  | none => none
  | some k =>
    if k.live && k.gen == bitsOf rkey 15 8 && k.tag == bitsOf rkey 7 0 && k.host == host
        && k.verbs.testBit verb && decide (k.va ≤ va) && decide (va + len ≤ k.va + k.len)
    then some (k.region, k.rof + (va - k.va)) else none

/-- The address that a refused RDMA access records (R73). -/
def State.keyFault (s : State) (host rkey verb va len : Nat) : Nat := match s.keyOf host rkey verb va len with
  | some (region, off) => apAddr region off
  | none => 0

/-- Whether two ranges share a byte. -/
def overlaps (a la b lb : Nat) : Bool := decide (a < b + lb) && decide (b < a + la)

/-- Whether any extent or live key covers a byte of a range of a region (R45). -/
def State.rangeInUse (s : State) (region off len : Nat) : Bool :=
  (s.extents.vals.any fun e => e.region == region && overlaps e.rof e.len off len)
    || (s.mkeys.vals.any fun k => k.live && k.region == region && overlaps k.rof k.len off len)

/-- The region and offset within it that a PSA belongs to, if any. -/
def State.regionOfPsa (s : State) (psa : Nat) : Option (Nat × Nat) :=
  (s.regions.find? fun r => r.size != 0 && (List.range r.size).any fun g =>
      s.rgt.getD (r.rgtBase + g) (2 ^ 17) == psa / gib).bind fun p =>
    ((List.range p.2.size).find? fun g => s.rgt.getD (p.2.rgtBase + g) (2 ^ 17) == psa / gib).map
      fun g => (p.1, g * gib + psa % gib)

/-- The region that a tile belongs to. -/
def State.regionOfTile (s : State) (tile : Nat) : Option Nat :=
  (s.regionOfPsa (tile * 4096)).map Prod.fst

/-- The QoS class of the region that a tile belongs to (R244). -/
def State.classOfTile (s : State) (tile : Nat) : Nat := match s.regionOfTile tile with
  | some r => (s.region r).qos
  | none => 0

/-- Takes a sector off the poison list, as a write that clears its marking does (R101); an entry
goes with its last sector. -/
def poisonDrop (l : List PoisonEnt) (sector : Nat) : List PoisonEnt :=
  (l.map fun e => { e with sectors := e.sectors.filter (· != sector) }).filter fun e => !e.sectors.isEmpty

/-- Adds one entry to the poison list of 4,096: a full list discards its oldest Host Written entry
first and the overflow flag is set (R103). The spec does not say what a full list without such an entry
discards: here its oldest entry (DESIGN CHOICE, log 97). Sources: 1 Host Written, 2 Internal, 3 Injected. -/
def State.poisonAdd (s : State) (sectors : List Nat) (source : Nat) : State :=
  let l := sectors.foldl poisonDrop s.poisonList
  if l.length < 4096 then { s with poisonList := l ++ [{ sectors := sectors, source := source }] }
  else
    let l' := match l.findIdx? fun e => e.source == 1 with
      | some i => l.eraseIdx i
      | none => l.drop 1
    { s with poisonList := l' ++ [{ sectors := sectors, source := source }], poisonOverflow := true }

/-- Adds the sectors that the poison list does not hold yet, as one entry; a listed sector keeps its
source (R103). -/
def State.poisonNew (s : State) (sectors : List Nat) (source : Nat) : State :=
  let new := sectors.filter fun n => !(s.poisonList.any fun e => e.sectors.contains n)
  if new.isEmpty then s else s.poisonAdd new source

/-- Takes sectors off the poison list. -/
def State.poisonDel (s : State) (sectors : List Nat) : State :=
  { s with poisonList := sectors.foldl poisonDrop s.poisonList }

end Sys2Proof.Machine
end

