-- ==== Sys2Proof/Machine/Energy.lean ====
section
/-! DEFINITION. The energy ledger's arithmetic (R402–R410) and its one shared operation, a frame
reservation (R408). Energies are exact: the available energy in mJ (rounded down, R402), everything
compared with it in units that need no rounding. -/

namespace Sys2Proof.Machine

/-- k_T × 1,024 at a temperature: 1 up to KNEE_C, then falling by SLOPE per °C to FLOOR (R402). -/
def ktOf (knee slope floor : Nat) (t : Int) : Nat :=
  if t ≤ (knee : Int) then 1024
  else max (floor * 4) (1024 - slope * (t - (knee : Int)).toNat)

/-- The available energy in mJ, rounded down: ½·C·(V² − V_CUT²)·ETA·k_T, with C in mF, voltages in mV,
ETA in 1/256 and k_T in 1/1,024 (R402). -/
def energyMj (c v vcut eta kt : Nat) : Nat :=
  if v ≤ vcut then 0 else c * (v * v - vcut * vcut) * eta * kt / (2 * 10 ^ 6 * 256 * 1024)

/-- A register's low byte as a two's-complement number (R432). -/
def s8 (w : Word) : Int := if w.toNat % 256 < 128 then (w.toNat % 256 : Nat) else (w.toNat % 256 : Nat) - 256

/-- k_T × 1,024 now (R402); at FLOOR after 10 failed temperature reads (R639). -/
def State.kt (s : State) : Nat :=
  if 10 ≤ s.elg.tempFails then s.fld Reg.elgTemp 23 16 * 4
  else ktOf (s.fld Reg.elgTemp 7 0) (s.fld Reg.elgTemp 15 8) (s.fld Reg.elgTemp 23 16) (s8 (s.reg Reg.elgTempC))

/-- Whether E_avail is held at the pre-test voltage (R403, R434). -/
def State.elgHeld (s : State) : Bool :=
  match s.elg.test with
  | .running => true
  | .recovering => true
  | _ => false

/-- The voltage that the ledger computes with: live, or the pre-test one while held (R403). -/
def State.ledgerMv (s : State) : Nat :=
  if s.elgHeld then s.elg.preMv else s.fld Reg.elgVmv 15 0

/-- E_avail at a voltage, in mJ (R402). -/
def State.energyAt (s : State) (mv : Nat) : Nat :=
  energyMj (s.fld Reg.elgCap 19 0) mv (s.fld Reg.elgModule 31 16) (s.fld Reg.elgModule 15 8) s.kt

/-- RESERVE (R404). -/
def State.reservePct (s : State) : Nat := s.fld Reg.elgReserve 5 0

/-- COST in nJ per tile (R405). -/
def State.costNj (s : State) : Nat := s.fld Reg.elgCost 15 0

/-- LIMIT in nJ, exactly (R404). -/
def State.limitNj (s : State) : Nat := s.elg.eAvail * 10 ^ 4 * (100 - s.reservePct)

/-- The half-reserve line in nJ, exactly (R410). -/
def State.halfNj (s : State) : Nat := s.elg.eAvail * 5000 * (200 - s.reservePct)

/-- FIXED in nJ: whole joules (R406). -/
def State.fixedNj (s : State) : Nat :=
  ceilDiv ((s.fld Reg.elgMapTiles 29 0 + 262144) * s.costNj + s.fld Reg.elgSaveCfg 15 8 * 10 ^ 9) (10 ^ 9)
    * 10 ^ 9

/-- CHARGED: VALID frames, and frames reserved by moves that have none yet (R407). -/
def State.charged (s : State) : Nat :=
  s.frames.length + s.moves.count fun m => m.reserved && m.frame.isNone

/-- COMMITTED in nJ (R407). -/
def State.committedNj (s : State) : Nat := s.fixedNj + s.costNj * s.charged

/-- ELG_COVERED (R409). -/
def State.covered (s : State) : Nat :=
  if s.limitNj ≤ s.fixedNj then 0 else (s.limitNj - s.fixedNj) / s.costNj

/-! ### The save region's capacity (R367–R370, R377, R384, R385) -/

/-- Stripe sets (R369). -/
def State.sets (s : State) : Nat := s.fld Reg.fmcGeom0 9 0 / 8 * s.fld Reg.fmcGeom0 14 10

/-- Planes of a die (R391). -/
def State.planes (s : State) : Nat := s.fld Reg.fmcGeom0 17 15

/-- Bits per cell: 3 TLC, 4 QLC (R391). -/
def State.bitsPerCell (s : State) : Nat := if s.fld Reg.fmcGeom0 19 18 = 0 then 3 else 4

/-- Codewords of a page (R391). -/
def State.cwPerPage (s : State) : Nat := s.fld Reg.fmcGeom0 23 20

/-- Pages of a TLC or QLC block (R391). -/
def State.pages (s : State) : Nat := s.fld Reg.fmcGeom1 15 0

/-- Stripe blocks of a set (R368, R377). -/
def State.sbPerSet (s : State) : Nat := s.fld Reg.fmcGeom1 31 16 / s.planes

/-- Tiles of a stripe block in TLC or QLC mode: eight per codeword index (R370, R377). -/
def State.sbTiles (s : State) : Nat := s.planes * s.pages * s.cwPerPage * 8

/-- Tiles of a pSLC stripe block: only the first PAGES / BITS_PER_CELL pages exist (R370). -/
def State.pslcTiles (s : State) : Nat := s.planes * (s.pages / s.bitsPerCell) * s.cwPerPage * 8

/-- The key of a stripe block in the table. -/
def sbKey (set block : Nat) : Nat := set * 65536 + block

/-- A stripe block; one that the table does not list is FREE and never erased. -/
def State.sb (s : State) (set block : Nat) : Stripe := s.fmc.blocks.getD (sbKey set block) { state := .free }

/-- READY stripe blocks of a set. -/
def State.readyIn (s : State) (set : Nat) : Nat :=
  (s.fmc.blocks.filter fun e => e.1 / 65536 == set && e.2.state == .ready).length

/-- READY stripe blocks on the twin. -/
def State.readyAll (s : State) : Nat := s.fmc.blocks.count fun b => b.state == .ready

/-- FMC_SAVE_CAP: tiles that the READY blocks can save after the state section and the map, without
each block's housekeeping slot (R385, R417). -/
def State.saveCap (s : State) : Nat :=
  s.readyAll * (s.pslcTiles - 1) - (s.fld Reg.elgMapTiles 29 0 + 262144)

/-- NEED: stripe blocks per set that one save image needs (R384). -/
def State.saveNeed (s : State) : Nat :=
  if s.pslcTiles * s.sets = 0 then 0
  else ceilDiv ((s.covered + s.fld Reg.elgMapTiles 29 0 + 262144) * (100 + s.fld Reg.fmcSaveCfg 4 0))
    (s.pslcTiles * s.sets * 100)

/-! ### Ledger states (R410) -/

/-- Enters a ledger state, with the flag, the count and the record of the entries that have them:
DEFICIT from FIT, THROTTLE from DEFICIT, CRITICAL (R410, R435, R438). -/
def State.ledgerEnter (s : State) (st : LedgerState) : State :=
  let from' := s.elg.state
  let t := { s with elg := { s.elg with state := st } }
  match from', st with
  | .fit, .deficit => (t.count (Reg.elgCount + 4)).flagRecord Reg.elgEvent 2 0x0C01 0 s.charged
  | .deficit, .throttle => t.flagRecord Reg.elgEvent 3 0x0C02 0 s.charged
  | .throttle, .critical => t.flagRecord Reg.elgEvent 4 0x0C03 0 s.charged
  | _, _ => t

/-- One transition of R410, if any condition to leave the present state holds. -/
def State.ledgerNext (s : State) : Option LedgerState :=
  let c := s.committedNj
  if s.bit Reg.elgCtl 1 = false then (if s.elg.state = .off then none else some .off)
  else match s.elg.state with
    | .off => some .fit
    | .fit => if s.limitNj < c then some .deficit else none
    | .deficit => if c ≤ s.limitNj then some .fit else if s.halfNj < c then some .throttle else none
    | .throttle =>
      if c ≤ s.limitNj then some .fit else if s.elg.eAvail * 10 ^ 6 < c then some .critical else none
    | .critical => if c ≤ s.elg.eAvail * 10 ^ 6 then some .throttle else none

/-- Follows the transitions of R410 to where none applies; each fuel step is one of them. -/
def State.ledgerGo : Nat → State → State
  | 0, s => s
  | n + 1, s => match s.ledgerNext with
    | some st => (s.ledgerEnter st).ledgerGo n
    | none => s

/-- Re-evaluates the ledger state: at most OFF, FIT, DEFICIT, THROTTLE and CRITICAL in turn (R410). -/
def State.ledgerEval (s : State) : State := s.ledgerGo 4

/-- The ledger states that apply write back-pressure (R412). -/
def throttles (st : LedgerState) : Bool :=
  match st with
  | .throttle => true
  | .critical => true
  | _ => false

/-- Whether the peer reports CRITICAL in its last Burgee (R413). -/
def State.peerCritical (s : State) : Bool := match s.twn.peerB with
  | some b => b.ledger == .critical
  | none => false

/-- Whether this twin back-pressures new writes: THROTTLE or CRITICAL here, or CRITICAL on the peer,
while its own THROTTLE_EN is 1 (R412, R413). -/
def State.ledgerThrottles (s : State) : Bool :=
  s.bit Reg.elgCtl 2 && (throttles s.elg.state || s.peerCritical)

/-- Whether a reservation would be granted (R408). -/
def State.canReserve (s : State) : Bool :=
  s.bit Reg.elgCtl 1 && decide (s.committedNj + s.costNj ≤ s.limitNj)
    && decide (s.charged + 1 ≤ s.saveCap)

/-- A refused reservation: counted, REFUSE set, and CAP_REFUSE where FMC_SAVE_CAP alone refused
(R408). -/
def State.refuseFrame (s : State) : State :=
  let t := (s.count Reg.elgCount).flag Reg.elgEvent 0
  if s.bit Reg.elgCtl 1 ∧ s.committedNj + s.costNj ≤ s.limitNj then t.flag Reg.elgEvent 1 else t

/-- The ledger's voltage, E_avail and LIMIT as ELG recomputes them (R402–R404). TEMP_KNEE is set when
k_T falls below 1 (R435). -/
def State.recomputeEnergy (s : State) : State :=
  let t := { s with elg := { s.elg with eAvail := s.energyAt s.ledgerMv, kneeSeen := decide (s.kt < 1024) } }
  if s.kt < 1024 ∧ s.elg.kneeSeen = false then t.flag Reg.elgEvent 7 else t

/-- The demand that ELG writes to PLC_LEDGER_DEMAND: 0 in FIT (R411). -/
def State.ledgerDemand (s : State) : Nat :=
  match s.elg.state with
  | .fit => 0
  | .off => 0
  | _ => s.charged + 65536 - s.covered

end Sys2Proof.Machine
end

