-- ==== Sys2Proof/Machine/ShaumBytes.lean ====
section
/-! DEFINITION. How the messages of the Shaum Link and the sideband stand in bytes: the bodies of MIRROR, ACK and BURGEE
(R450, R457), message types and lengths (R449), and the 32-byte segment header with its IV (R443, R444). -/

namespace Sys2Proof.Machine

/-- STATE of the ledger (R434). -/
def ledgerCode : LedgerState → Nat
  | .fit => 0
  | .deficit => 1
  | .throttle => 2
  | .critical => 3
  | .off => 4

/-- STATE of a twin (R457). -/
def twinCode : TwinState → Nat
  | .starting => 0
  | .paired => 1
  | .single => 2
  | .fenced => 3
  | .rejoin => 4
  | .saving => 5
  | .leaving => 6

/-- The length of the certificate chain in bytes, which the manufacturer's certificates fix (R541). -/
def chainLen : Nat := 1 + Config.firmwareDefined 0x541 % (2 ^ 16 - 1)

/-- Reserved bytes of a message: 0 where the HG960 sends them (R13). -/
def zeros (n : Nat) : List Byte := leBytes n 0

/-- The 64 bytes of a Burgee (R457). -/
def burgeeBytes (b : Burgee) : List Byte :=
  let l := leBytes 4 0x42555247 ++ leBytes 2 1
    ++ leBytes 1 (b2n b.twin + 2 * twinCode b.state + 16 * ledgerCode b.ledger + 128 * b2n b.fast) ++ leBytes 1 b.fwMajor
    ++ leBytes 8 b.applianceId ++ leBytes 4 b.seq ++ leBytes 4 b.heard ++ leBytes 8 b.time ++ leBytes 2 (b.ensigns % 2 ^ 13)
    ++ leBytes 2 b.fenceSeen ++ leBytes 1 b.phase ++ zeros 23
  l ++ leBytes 4 (crc32c l)

/-- Bits packed into whole bytes, the first in bit 0. -/
def packBits : Nat → List Bool → List Byte
  | 0, _ => []
  | n + 1, l => BitVec.ofNat 8 (bitsNat (l.take 8)) :: packBits n (l.drop 8)

/-- Whether a poison map follows a MIRROR's data: some sector is poisoned (R450). -/
def hasMap (m : MirrorMsg) : Bool := m.poison.any id

/-- Bytes 0 to 39 of a MIRROR body (R450). -/
def mirrorHead (m : MirrorMsg) : List Byte :=
  leBytes 2 (m.region % 2 ^ 12)
    ++ leBytes 2 (b2n m.forwarded + 2 * b2n m.atomic + 4 * b2n m.tileSwitch + 8 * b2n (hasMap m))
    ++ leBytes 2 m.host ++ leBytes 2 (if m.forwarded then m.entryTag else 0) ++ leBytes 8 m.pseq ++ leBytes 8 (m.psa % 2 ^ 47)
    ++ leBytes 4 m.data.length ++ leBytes 4 m.reqId ++ leBytes 8 (if m.atomic then m.result else 0)

/-- Bytes of a MIRROR body from 44 on: reserved bytes, the data and the poison map (R450). -/
def mirrorTail (m : MirrorMsg) : List Byte :=
  zeros 20 ++ m.data ++ (if hasMap m then packBits (ceilDiv m.poison.length 8) m.poison else [])

/-- A MIRROR body: MSG_CHECK is the CRC-32C over the whole message with the field as 0 (R450). -/
def mirrorBytes (m : MirrorMsg) : List Byte :=
  mirrorHead m ++ leBytes 4 (crc32c (mirrorHead m ++ zeros 4 ++ mirrorTail m)) ++ mirrorTail m

/-- An ACK body (R450). -/
def ackBytes (seqs : List Nat) : List Byte :=
  leBytes 1 seqs.length ++ zeros 7 ++ seqs.flatMap fun q => leBytes 8 (q % 2 ^ 48)

/-- The body of a message whose layout the spec gives; the others carry a body that firmware defines (R449). -/
def msgBody : ShaumMsg → List Byte
  | .mirror m => mirrorBytes m
  | .ack l => ackBytes l
  | .burgee b => burgeeBytes b
  | _ => []

/-- The TYPE of a message (R449). -/
def msgType : ShaumMsg → Nat
  | .mirror _ => 0x01
  | .ack _ => 0x02
  | .forward _ => 0x03
  | .fwdReply .. => 0x04
  | .readReq .. => 0x05
  | .readData .. => 0x06
  | .promoHint _ => 0x07
  | .tilePull _ => 0x08
  | .tileData .. => 0x09
  | .ensignOffer .. => 0x0A
  | .ensignAccept _ => 0x0B
  | .control _ => 0x0C
  | .cqRelay .. => 0x0D
  | .verify .. => 0x0E
  | .verifyReply .. => 0x0F
  | .peerMbx .. => 0x10
  | .peerMbxResult .. => 0x10
  | .segNak .. => 0x11
  | .burgee _ => 0x12
  | .resyncCtl .. => 0x13

/-- MSG_LEN: exact for MIRROR, ACK and BURGEE (R450, R457); for a body that the firmware defines, the
data it carries and a free number of bytes (R449). -/
def msgLen : ShaumMsg → Nat
  | .mirror m => 64 + m.data.length + (if hasMap m then ceilDiv m.poison.length 8 else 0)
  | .ack l => 8 + 8 * l.length
  | .burgee _ => 64
  | .forward m => m.data.length + Config.bodyLen 0x03
  | .readData _ _ d _ => d.length + Config.bodyLen 0x06
  | .tileData .. => 4096 + Config.bodyLen 0x09
  | m => Config.bodyLen (msgType m)

/-- SEG_COUNT (R444). -/
def segCount (m : ShaumMsg) : Nat := max 1 (ceilDiv (msgLen m) 2048)

/-- SEG_LEN of a message's segment `i`: exactly 2,048 but for the last, which carries the rest (R445). -/
def segLen (m : ShaumMsg) (i : Nat) : Nat := min 2048 (msgLen m - i * 2048)

/-- The region under whose key a message travels; none for the link key (R443). -/
def State.keyRegion (s : State) (m : ShaumMsg) : Option Nat :=
  match m with
  | .mirror x => some x.region
  | .forward x => some x.region
  | .readData region .. => some region
  | .tileData tile .. => s.regionOfTile tile
  | _ => none

/-- KEY_SEL of a message's segments (R444): the region and its KEY_EPOCH, or 0 for the link key. -/
def State.keySel (s : State) (m : ShaumMsg) : Nat :=
  match s.keyRegion m with
  | some r => 2 ^ 23 + 2 ^ 8 * (r % 2 ^ 12) + (s.region r).epoch % 256
  | none => 0

/-- A region's Shaum data key (R545). -/
def shaumDataKey (id : Nat) (k : RgnKey) : Nat := Config.crypto [0x53484D, id, k.epoch, k.rks] % 2 ^ 256

/-- The key under which a message travels: the region key, derived from the link secret and the Shaum data key, or the link
key of this direction (R443, R551). -/
def State.msgKey (s : State) (m : ShaumMsg) : Nat :=
  match s.keyRegion m with
  | some r =>
    let k := s.sec.keys.getD r {}
    Config.crypto [0x52534B, s.twn.linkKeys.ls, r, k.epoch, shaumDataKey r k] % 2 ^ 256
  | none => s.twn.linkKeys.txKey

/-- The 32-byte header of segment `i` of a message (R444). -/
def State.segHead (s : State) (seq : Nat) (m : ShaumMsg) (i counter : Nat) : List Byte :=
  leBytes 1 (msgType m) ++ leBytes 1 1 ++ leBytes 2 (segLen m i) ++ leBytes 4 (msgLen m) ++ leBytes 6 seq
    ++ leBytes 2 s.twn.epoch ++ leBytes 4 (i * 2048) ++ leBytes 1 (segCount m) ++ leBytes 3 (s.keySel m) ++ leBytes 8 counter

/-- The IV of a segment: the direction's salt XOR 30 zero bits, the lane group number in 2 bits and COUNTER (R443). -/
def segIv (salt g counter : Nat) : Nat := salt ^^^ (g % 4 * 2 ^ 64 + counter % 2 ^ 64)

end Sys2Proof.Machine
end

