-- ==== Sys2Proof/Machine/ShaumSend.lean ====
section
/-! DEFINITION. Sending on the Shaum Link: cutting into segments, choosing lane groups, numbering, and keeping every
message until its ACK (R443–R447). -/

namespace Sys2Proof.Machine

/-! ### Quiet and its wake (R614–R617) -/

/-- Whether the chip is in Quiet or entering it. -/
def State.quietNow (s : State) : Bool := match s.isl.quiet with
  | .quiet => true
  | .entering => true
  | _ => false

/-- The bit of a wake trigger in ISL_WAKE_CAUSE (R628). -/
def wakeBit : WakeCause → Nat
  | .cxl => 0
  | .ethernet => 1
  | .twin => 2
  | .mailbox => 3
  | .elg => 4
  | .pws => 5
  | .resetN => 6
  | .wake => 7

/-- A wake trigger (R616, R617): it sets its bit, and begins the wake; during entry it abandons the entry. The
bits are those of the last wake. -/
def State.wakeFor (s : State) (c : WakeCause) : State :=
  match s.isl.quiet with
  | .awake => s
  | .waking => s.setBit Reg.islWakeCause (wakeBit c) true
  | .quiet =>
    (({ s with isl := { s.isl with quiet := .waking } }).setReg Reg.islWakeCause 0).setBit Reg.islWakeCause (wakeBit c) true
  | .entering =>
    ((((({ s with isl := { s.isl with quiet := .waking } }).setReg Reg.islWakeCause 0).setBit Reg.islWakeCause
      (wakeBit c) true).flag Reg.islEvent 3).count (Reg.islCount + 8))

/-- Whether lane groups 1 to 3 are parked: in Quiet (R465, R614). -/
def State.lanesParked (s : State) : Bool := match s.isl.quiet with
  | .quiet => true
  | _ => false

/-- The lane groups that are up, lowest first (R441); a parked one is not. -/
def State.lanesUp (s : State) : List Nat :=
  (s.twn.lanes.filter fun e => e.2.up && (e.1 == 0 || !s.lanesParked)).map Prod.fst

/-- The lane group whose queue is shortest, the lowest-numbered of equals (R445). -/
def shortestLane : List (Nat × Nat) → Nat
  | [] => 0
  | (g, q) :: t => (t.foldl (fun a e => if e.2 < a.2 then e else a) (g, q)).1

/-- What a lane group carries away in a nanosecond: about 47 GB/s (R441). -/
def laneRate : Nat := 47

/-- The bytes that wait on a lane group now: what it had queued, less what it has carried since (R441, R445). -/
def State.laneQueue (s : State) (g : Nat) : Nat :=
  let l := s.twn.lanes.getD g {}
  l.queue - laneRate * (s.time - l.since)

/-- Sends segment `i` of a message: on the lane group that is up with the shortest queue, under the next COUNTER of it
(R443, R445). -/
def State.sendSeg (s : State) (seq : Nat) (m : ShaumMsg) (i : Nat) : State :=
  let g := shortestLane (s.lanesUp.map fun g => (g, s.laneQueue g))
  let n := (s.twn.lanes.getD g {}).ctrTx
  let lanes := s.twn.lanes.upd g {} fun l =>
    { l with ctrTx := n + 1, queue := s.laneQueue g + segLen m i, since := s.time }
  { s with twn := { s.twn with lanes := lanes } }.emit
    (.shaumSeg g (s.segHead seq m i n) (segIv s.twn.linkKeys.txSalt g n) (s.msgKey m))

/-- Sends segments of a message, and with them what they carry. -/
def State.sendSome (s : State) (seq : Nat) (m : ShaumMsg) (is : List Nat) : State :=
  (is.foldl (fun (t : State) i => t.sendSeg seq m i) s).emit (.shaum seq m (msgBody m))

/-- Sends the segments of a message now (R445). -/
def State.sendSegs (s : State) (seq : Nat) (m : ShaumMsg) : State := s.sendSome seq m (List.range (segCount m))

/-- Takes the next MSG_SEQ (R444). -/
def State.nextMsgSeq (s : State) : State × Nat :=
  ({ s with twn := { s.twn with msgSeq := s.twn.msgSeq + 1 } }, s.twn.msgSeq)

/-- Whether segments can be sent: the link is UP and the Shaum GCM pipelines are enabled (R442, R557). -/
def State.shaumGo (s : State) : Bool := (match s.twn.link with | .up => true | _ => false) && s.bit Reg.secCtl 1

/-- Sends an ACK, SEG_NAK or BURGEE: never kept, never resent (R447). -/
def State.sendOnce (s : State) (m : ShaumMsg) : State :=
  if s.shaumGo then s.nextMsgSeq.1.sendSegs s.nextMsgSeq.2 m else s

/-- Sends a message and keeps it until its ACK. While no segment can be sent, or 65,536 messages are
unacknowledged, it is kept unsent (R442, R447). Answers its MSG_SEQ. -/
def State.send (s : State) (m : ShaumMsg) : State × Nat :=
  let p := s.nextMsgSeq
  let go := p.1.shaumGo && decide (p.1.twn.tx.length < 65536)
  let t := { p.1 with twn := { p.1.twn with tx := p.1.twn.tx.set p.2 { msg := m, sent := go, again := go } } }
  (if go then t.sendSegs p.2 m else t, p.2)

/-- Sends a message whose number nobody needs. -/
def State.post (s : State) (m : ShaumMsg) : State := (s.send m).1

/-- Sends what is still unsent, oldest first, while the bound of R447 admits it; what had left before a retrain is
counted as resent (R447, R495). -/
def State.sendUnsent (s : State) : State :=
  if s.shaumGo then
    let room := 65536 - (s.twn.tx.count fun x => x.sent)
    ((s.twn.tx.filter fun e => !e.2.sent).take room).foldl (fun t e =>
      (({ t with twn := { t.twn with tx := t.twn.tx.set e.1 { e.2 with sent := true, again := true } } }).sendSegs e.1
        e.2.msg).countBy Reg.twnCount (if e.2.again then segCount e.2.msg else 0)) s
  else s

/-- Acknowledges a message: gathered into one ACK per event (R447, R450). -/
def State.ackMsg (s : State) (seq : Nat) : State := s.sendOnce (.ack [seq])

/-- Whether this twin is PAIRED: writes are mirrored to the peer (R20, R457). -/
def State.paired (s : State) : Bool := s.twn.mate

/-- Whether this twin serves as the single survivor (R35, R36, R470). -/
def State.single (s : State) : Bool := match s.twn.self with
  | .single => true
  | _ => false

end Sys2Proof.Machine
end

