-- ==== Sys2Proof/Machine/TileMap.lean ====
section
/-! DEFINITION. The tile map with its cache, and the frame table (R40, R55–R57, R242–R244,
R271–R273). -/

namespace Sys2Proof.Machine

/-- The entry of a tile; an unlisted one is ZERO (R43, R55). -/
def State.tile (s : State) (t : Nat) : TileEnt := s.tiles.getD t {}

/-- The map line of a tile: eight entries (R271). -/
def mapLine (tile : Nat) : Nat := tile / 8

/-- Lines of the Tile Map Cache (R271). -/
def tmcCapacity : Nat := 382976

/-- The victim that a full set of 16 lines gives up: its least recently used line (R271). With fewer
than 16 lines in the whole cache no set is full. -/
def tmcVictim (t : Tbl TmcLine) (line : Nat) : Option Nat :=
  if t.length < 16 then none else
  let same := t.filter fun e => Config.tmcHash e.1 % 23936 == Config.tmcHash line % 23936
  if same.length < 16 then none else
  (same.foldl (fun a e => match a with
    | none => some e
    | some b => if e.2.used < b.2.used then some e else some b) none).map Prod.fst

/-- Writes back the least recently used dirty lines when DIRTY_LIMIT is reached, until 1,024 below it
(R273). `n` is how many are still to be written back. -/
def tmcClean : Nat → Tbl TmcLine → Tbl TmcLine
  | 0, t => t
  | n + 1, t => match (t.filter fun e => e.2.dirty).foldl (fun a e => match a with
      | none => some e
      | some (b : Nat × TmcLine) => if e.2.used < b.2.used then some e else some b) none with
    | none => t
    | some e => tmcClean n (t.set e.1 { e.2 with dirty := false })

/-- Dirty lines of the Tile Map Cache. -/
def tmcDirty (t : Tbl TmcLine) : Nat := t.count fun l => l.dirty

/-- Makes a map line resident, dirty where an entry in it has changed: replacement writes the victim
back (R271), and the dirty limit is kept (R273). -/
def tmcPut (limit clock : Nat) (t : Tbl TmcLine) (line : Nat) (dirty : Bool) : Tbl TmcLine :=
  let old := (t.getD line { dirty := false, used := 0 }).dirty
  let t1 := match t.get? line, tmcVictim t line with
    | none, some v => t.erase v
    | _, _ => t
  let t2 := t1.set line { dirty := old || dirty, used := clock }
  if tmcDirty t2 < limit then t2 else tmcClean (tmcDirty t2 - (limit - 1024)) t2

/-- DIRTY_LIMIT (R273). -/
def State.dirtyLimit (s : State) : Nat := s.fld Reg.plcTmcCfg 17 0

/-- Touches the map line of a tile. -/
def State.touchMap (s : State) (tile : Nat) (dirty : Bool) : State :=
  { s with plc := { s.plc with
      tmc := tmcPut s.dirtyLimit s.plc.clock s.plc.tmc (mapLine tile) dirty
      clock := s.plc.clock + 1 } }

/-- Whether the map line of a tile is resident. -/
def State.mapHit (s : State) (tile : Nat) : Bool := (s.plc.tmc.get? (mapLine tile)).isSome

/-- Asks for the fill of a tile's map line: concurrent misses share one (R272). -/
def State.mapFill (s : State) (tile : Nat) : State :=
  { s with plc := { s.plc with tmcFills := insertNew s.plc.tmcFills (mapLine tile) } }

/-- A miss: it is counted, and the line is filled (R272). -/
def State.mapMiss (s : State) (tile : Nat) : State := (s.count (Reg.plcCount + 0x1C)).mapFill tile

/-- Changes an entry in one update (R55): the line that holds it is resident and dirty (R271). -/
def State.setTile (s : State) (tile : Nat) (e : TileEnt) : State :=
  { s with tiles := if e = ({} : TileEnt) then s.tiles.erase tile else s.tiles.set tile e }.touchMap tile true

/-- Changes fields of an entry. -/
def State.modTile (s : State) (tile : Nat) (f : TileEnt → TileEnt) : State :=
  s.setTile tile (f (s.tile tile))

/-- Whether a home is DRAM: HOME 1 or 2 (R55, R241). -/
def inDram (h : Home) : Bool :=
  match h with
  | .dram => true
  | .hlcOverDram => true
  | _ => false

/-- Whether a home is a flash location: HOME 3 or 4 (R55). -/
def inFlash (h : Home) : Bool :=
  match h with
  | .flash => true
  | .saveArea => true
  | _ => false

/-- HOME as a number (R55). -/
def homeCode : Home → Nat
  | .zero => 0
  | .dram => 1
  | .hlcOverDram => 2
  | .flash => 3
  | .saveArea => 4
  | .failed => 5

/-- Bits [55:0] of an entry (R55). -/
def entryBits (e : TileEnt) : Nat :=
  homeCode e.home + 8 * b2n e.lock + 16 * b2n e.evict + 32 * b2n e.pinned
    + 2 ^ 8 * (e.loc % 2 ^ 35) + 2 ^ 43 * (e.heat % 2 ^ 8) + 2 ^ 51 * b2n e.syncDirty

/-- CHECK of an entry: CRC-8 over bytes 0–6 of the entry and the tile index in 5 bytes (R55). -/
def entryCheck (tile : Nat) (e : TileEnt) : Nat :=
  crc8 (leBytes 7 (entryBits e) ++ leBytes 5 (tile % 2 ^ 35))

/-- The 64 bits of an entry (R55). -/
def entryWord (tile : Nat) (e : TileEnt) : Nat := entryBits e + 2 ^ 56 * entryCheck tile e

/-- Adds an access's increment to HEAT, saturating at 255 (R259). -/
def heatUp (h inc : Nat) : Nat := min 255 (h + inc)

/-- The placement engine that serves a tile (R242), and the one that fills and writes back a map line: that of its first
tile (R271). -/
def engineOf (tile : Nat) : Nat := tileHash tile >>> 30
def mapEngine (line : Nat) : Nat := engineOf (8 * line)

/-! ### Frames (R243, R244) -/

/-- A frame-table entry as it lies in DRAM: TILE, CLASS, VALID (R244). -/
def frameWord (f : Frame) : Nat := f.tile % 2 ^ 35 + 2 ^ 35 * (f.cls % 8) + 2 ^ 38

/-- PLC_FRAMES_TOTAL (R243, R279). -/
def State.framesTotal (s : State) : Nat := s.fld Reg.plcTotals 29 0

/-- The first tile frame's number: the tile map, the frame table rounded up to a GiB, and the 8 GiB
housekeeping area lie below it (R243). -/
def State.frameBase (s : State) : Nat :=
  s.exposed * 512 + 2097152 + ceilDiv (8 * s.framesTotal) (2 ^ 30) * 262144

/-- Frames that are not allocated though not VALID: retired (R343), or on a SANITIZE's scrub list (R220). -/
def State.withheld (s : State) : List Nat := s.plc.retired ++ s.plc.scrub.vals.flatten

/-- PLC_FRAMES_FREE: frames neither VALID nor withheld (R244, R279, R343). -/
def State.framesFree (s : State) : Nat :=
  s.framesTotal - s.frames.length - s.withheld.length

/-- The lowest frame that is neither VALID nor retired, looking at `fuel` candidates from `n`. -/
def freeFrameFrom (frames : Tbl Frame) (retired : List Nat) : Nat → Nat → Nat
  | 0, n => n
  | fuel + 1, n =>
    if (frames.get? n).isSome || retired.contains n then freeFrameFrom frames retired fuel (n + 1) else n

/-- The frame that an allocation takes: the lowest free one (DESIGN CHOICE, log 15). -/
def State.freeFrame (s : State) : Option Nat :=
  let n := freeFrameFrom s.frames s.withheld (s.frames.length + s.withheld.length) s.frameBase
  if n < s.frameBase + s.framesTotal then some n else none

/-- Whether the frame demand of R262 is in force: from below LOW_PCT until HIGH_PCT. -/
def State.frameDemandNow (s : State) : Bool :=
  if s.framesFree * 100 < s.framesTotal * s.fld Reg.plcFreeWm 7 0 then true
  else if s.framesTotal * s.fld Reg.plcFreeWm 15 8 ≤ s.framesFree * 100 then false
  else s.plc.frameDemand

/-- Follows the frame demand (R262); K returns to 0 when no demand is left (R261). -/
def State.noteFrames (s : State) : State :=
  let d := s.frameDemandNow
  { s with plc := { s.plc with
      frameDemand := d
      k := if d || s.fld (Reg.plcTotals + 16) 29 0 != 0 then s.plc.k else 0 } }

/-- Puts a tile's frame into the frame table, with the class of its region (R244). -/
def State.takeFrame (s : State) (frame tile : Nat) : State :=
  { s with frames := s.frames.set frame { tile := tile, cls := s.classOfTile tile } }.noteFrames

/-- Retires a free frame; a full list is reported and the frame returns to use (R343). -/
def State.retireFrame (s : State) (frame : Nat) : State :=
  if s.plc.retired.contains frame then s
  else if s.plc.retired.length < 4096 then
    let t := { s with plc := { s.plc with retired := s.plc.retired ++ [frame] } }
    t.areaPut 5 (healthEntry t.health t.plc.retired)
  else s.record 0x0A05 0 0 frame

/-- Clears a frame-table entry, which releases its ledger charge (R245); a frame whose failing sector calls for
it is retired now that it is free (R343). -/
def State.freeFrameNo (s : State) (frame : Nat) : State :=
  let bad := match s.frames.get? frame with
    | some f => f.bad
    | none => false
  let t := { s with frames := s.frames.erase frame }
  (if bad then t.retireFrame frame else t).noteFrames

/-- Holds a frame that a repair left behind for the map audit (R714). -/
def State.holdFrame (s : State) (frame : Nat) (bad : Bool) : State :=
  { s with frames := s.frames.modify frame fun f => { f with held := true, bad := bad } }

/-- The QoS class under which a tile is cached: the CLASS of its frame (R244, R296). -/
def State.frameClass (s : State) (tile : Nat) : Nat :=
  match s.frames.get? (s.tile tile).loc with
  | some f => f.cls
  | none => s.classOfTile tile

/-- Pinned tiles on this twin (R279). -/
def State.pinnedCount (s : State) : Nat := s.tiles.count fun e => e.pinned

/-- SAVE_AREA tiles on this twin (R279). -/
def State.saveAreaCount (s : State) : Nat := s.tiles.count fun e => e.home == .saveArea

/-- The sectors of a tile, by sector number. -/
def tileSectors (tile : Nat) : List Nat := (List.range 64).map (tile * 64 + ·)

/-- The metadata of a tile's 64 sectors. -/
def State.tileInfo (s : State) (tile : Nat) : List SectorInfo := (tileSectors tile).map s.sector

end Sys2Proof.Machine
end

