-- ==== Sys2Proof/Machine/Lines.lean ====
section
/-! DEFINITION. The Hot Line Cache's operations: placement, hits, allocation with victim selection and
eviction buffers, presence entries, and maintenance (R285–R300). Line contents are the twin's one
copy of persistent memory (State.mem); a way says where the line stands. -/

namespace Sys2Proof.Machine

/-- The slice of a tile's lines (R286). -/
def hlcSlice (tile : Nat) : Nat := bitsOf (tileHash tile) 29 26

/-- The set, slice × 2,048 + set within the slice, of a line (R286). -/
def hlcSet (tile line : Nat) : Nat :=
  hlcSlice tile * 2048 + (bitsOf (tileHash tile) 25 15 + 128 * line) % 2048

/-- The presence set, slice × 4,096 + set, of a tile (R286). -/
def hlcPresSet (tile : Nat) : Nat := hlcSlice tile * 4096 + bitsOf (tileHash tile) 14 3

/-- The key of a way. -/
def wayKey (set way : Nat) : Nat := set * 16 + way

/-- The 16 ways of a set. -/
def ways16 : List Nat := List.range 16

/-- The way that holds a line: its key and content (R291). -/
def State.line? (s : State) (tile line : Nat) : Option (Nat × Way) :=
  let set := hlcSet tile line
  ways16.findSome? fun w => match s.hlc.ways.get? (wayKey set w) with
    | some x => if x.tile == tile && x.line == line then some (wayKey set w, x) else none
    | none => none

/-- Replaces the content of a way. -/
def State.setWay (s : State) (key : Nat) (w : Way) : State :=
  { s with hlc := { s.hlc with ways := s.hlc.ways.set key w } }

/-- Points the tree bits of a set away from a way: the tree has nodes 1–15, node n has children 2n
and 2n + 1, and way w is leaf 16 + w (R285). -/
def plruTouch (bits way : Nat) : Nat :=
  let n := 16 + way
  [n, n / 2, n / 4, n / 8].foldl (fun b c =>
    if c % 2 = 0 then b ||| (1 <<< (c / 2)) else b &&& (0xFFFF ^^^ (1 <<< (c / 2)))) bits

/-- Whether a leaf of the tree lies under a node. -/
def plruUnder (node way : Nat) : Bool :=
  let n := 16 + way
  n == node || n / 2 == node || n / 4 == node || n / 8 == node

/-- The pseudo-LRU way among eligible ones: at each node the side the bit points to, if an eligible
way lies there (R295). -/
def plruPick (bits : Nat) (elig : List Nat) : Nat :=
  let go := fun (node : Nat) =>
    let c := 2 * node + b2n (bits.testBit node)
    if elig.any (plruUnder c) then c else 2 * node + 1 - b2n (bits.testBit node)
  go (go (go (go 1))) - 16

/-- Marks a way as just used: its set's tree and its place among the least recently used lines (R285, R297). -/
def State.touchWay (s : State) (key : Nat) : State :=
  { s with hlc := { s.hlc with
      plru := s.hlc.plru.upd (key / 16) 0 fun b => plruTouch b (key % 16)
      ways := s.hlc.ways.modify key fun w => { w with used := s.hlc.clock }
      clock := s.hlc.clock + 1 } }

/-- WAYS of a class (R296, R309). -/
def State.classWays (s : State) (cls : Nat) : Nat := s.fld (Reg.hlcClass + 4 * cls) 15 0

/-- READ_ALLOC of a class (R296, R309). -/
def State.readAlloc (s : State) (cls : Nat) : Bool := s.bit (Reg.hlcClass + 4 * cls) 16

/-- Whether a line is in an eviction buffer (R295). -/
def State.inEvb (s : State) (tile line : Nat) : Bool :=
  s.hlc.evb.any fun e => e.tile == tile && e.line == line

/-- Whether a way may be a victim (R291, R294): CLEAN or DIRTY with OPEN 0. -/
def victimOk (w : Way) : Bool :=
  w.opens == 0 && (match w.state with | .clean => true | .dirty => true | _ => false)

/-- Lines that a slice is filling: its fill entries in use (R285, R292). -/
def State.fillsIn (s : State) (slice : Nat) : Nat :=
  (s.hlc.ways.filter fun e => e.1 / 32768 == slice && e.2.state == .filling).length

/-- The least recently used dirty line with OPEN 0 of a slice, whose earlier write-back has reached DRAM (R295, R297). -/
def State.lruDirty (s : State) (slice : Nat) : Option (Nat × Way) :=
  (s.hlc.ways.filter fun e => e.1 / 32768 == slice && e.2.state == .dirty && e.2.opens == 0 && !s.inEvb e.2.tile e.2.line).foldl
    (fun a e => match a with
      | none => some e
      | some (b : Nat × Way) => if e.2.used < b.2.used then some e else some b) none

/-- Dirty lines (R307). -/
def State.dirtyLines (s : State) : Nat := s.hlc.ways.count fun w => w.dirty

/-- Lines in the HLC (R285). -/
def hlcLines : Nat := 524288

/-- The presence count of a tile rises; its first line changes HOME from DRAM to HLC_OVER_DRAM (R290). -/
def State.presenceUp (s : State) (tile : Nat) : State :=
  match s.hlc.presence.get? tile with
  | some p => { s with hlc := { s.hlc with presence := s.hlc.presence.set tile { p with count := p.count + 1 } } }
  | none =>
    let t := { s with hlc := { s.hlc with
      presence := s.hlc.presence.set tile { count := 1, order := s.hlc.order }
      order := s.hlc.order + 1 } }
    match (s.tile tile).home with
    | .dram => t.modTile tile fun e => { e with home := .hlcOverDram }
    | _ => t

/-- The presence count of a tile falls; at 0 HOME changes back to DRAM (R290). -/
def State.presenceDown (s : State) (tile : Nat) : State :=
  match s.hlc.presence.get? tile with
  | none => s
  | some p =>
    if p.count ≤ 1 then
      let t := { s with hlc := { s.hlc with presence := s.hlc.presence.erase tile } }
      match (s.tile tile).home with
      | .hlcOverDram => t.modTile tile fun e => { e with home := .dram }
      | _ => t
    else { s with hlc := { s.hlc with presence := s.hlc.presence.set tile { p with count := p.count - 1 } } }

/-- Frees a way: INVALID, and the tile's presence count falls (R290, R295). -/
def State.freeWay (s : State) (key : Nat) : State :=
  match s.hlc.ways.get? key with
  | none => s
  | some w => ({ s with hlc := { s.hlc with ways := s.hlc.ways.erase key } }).presenceDown w.tile

/-- Acts on one way for an operation that writes back and invalidates (R298, R299): a clean line goes
at once, a dirty one is written back first, a line being filled or open stays until it may go. -/
def State.invalWay (s : State) (key : Nat) (w : Way) : State :=
  match w.state with
  | .filling => s
  | .clean => if w.opens = 0 then s.freeWay key else s.setWay key { w with inval := true }
  | .writingBack => s.setWay key { w with inval := true }
  | .dirty =>
    if s.inEvb w.tile w.line then s
    else s.setWay key { w with state := .writingBack, inval := true }

/-- The ways that hold lines of a tile. -/
def State.waysOf (s : State) (tile : Nat) : List (Nat × Way) :=
  (List.range 16).filterMap fun l => s.line? tile l

/-- One pass of a tile-scope WB_INVAL over the lines that it has still to act on; the tile leaves the list when each has
been acted on once (R298, R299). -/
def State.flushStep (s : State) (tile : Nat) : State :=
  let left := (s.hlc.flush.getD tile []).filter fun l => (s.line? tile l).isSome
  let t := left.foldl (fun (u : State) l => match u.line? tile l with
    | some p => u.invalWay p.1 p.2
    | none => u) s
  let l := left.filter fun l => (t.line? tile l).isSome
  { t with hlc := { t.hlc with flush := if l.isEmpty then t.hlc.flush.erase tile else t.hlc.flush.set tile l } }

/-- Starts a tile-scope WB_INVAL asked by a placement engine or a presence eviction (R290, R298);
lines being filled are waited for and counted (R299). -/
def State.flushTile (s : State) (tile : Nat) : State :=
  let n := ((s.waysOf tile).filter fun p => p.2.state == .filling).length
  ({ s.countBy (Reg.hlcCount + 0x1C) n with
      hlc := { s.hlc with flush := s.hlc.flush.set tile (List.range 16) } }).flushStep tile

/-- Whether a tile-scope operation on the tile is under way. -/
def State.flushing (s : State) (tile : Nat) : Bool := (s.hlc.flush.get? tile).isSome

/-- The least recently allocated tile of a presence set (R290). -/
def State.presVictim (s : State) (tile : Nat) : Option Nat :=
  let l := s.hlc.presence.filter fun e => hlcPresSet e.1 == hlcPresSet tile
  if l.length < 8 then none else
  (l.foldl (fun a e => match a with
    | none => some e
    | some (b : Nat × Presence) => if e.2.order < b.2.order then some e else some b) none).map Prod.fst

/-- How an allocation ends (R290, R292, R295). -/
inductive Alloc
  | ok (s : State)
  | wait (s : State)

/-- The way an allocation takes: an INVALID way of the class's mask, else the pseudo-LRU eligible one
(R295, R296). -/
def State.pickWay (s : State) (tile line : Nat) : Option (Nat × Option Way) :=
  let set := hlcSet tile line
  let mask := s.classWays (s.frameClass tile)
  let mine := ways16.filter mask.testBit
  match mine.find? fun w => (s.hlc.ways.get? (wayKey set w)).isNone with
  | some w => some (wayKey set w, none)
  | none =>
    let elig := mine.filter fun w => match s.hlc.ways.get? (wayKey set w) with
      | some x => victimOk x
      | none => false
    if elig.isEmpty then none else
    let w := plruPick (s.hlc.plru.getD set 0) elig
    some (wayKey set w, s.hlc.ways.get? (wayKey set w))

/-- Allocates a way for a line in a given state (R289, R290, R292, R293, R295). -/
def State.allocLine (s : State) (tile line : Nat) (st : LineState) (dirty : Bool) : Alloc :=
  let tgt := match s.hlc.presence.get? tile with
    | some _ => none
    | none => s.presVictim tile
  match tgt with
  | some v =>
    if s.flushing v then .wait s
    else .wait (((s.flag Reg.hlcEvent 5).count (Reg.hlcCount + 0x18)).flushTile v)
  | none =>
    match s.pickWay tile line with
    | none => .wait s
    | some (key, victim) =>
      let slice := hlcSlice tile
      let full := decide (64 ≤ (s.hlc.evb.filter fun e => hlcSlice e.tile == slice).length)
      let s1 : Option State := match victim with
        | none => some s
        | some v =>
          if v.dirty then
            if full then none
            else some (State.freeWay { s with hlc := { s.hlc with evb := s.hlc.evb ++ [Evb.mk v.tile v.line] } } key)
          else some (s.freeWay key)
      match s1 with
      | none => .wait (s.flag Reg.hlcEvent 6)
      | some t =>
        .ok (((t.setWay key { state := st, dirty := dirty, cls := s.frameClass tile, tile := tile, line := line }).touchWay
          key).presenceUp tile)

/-- Drops every line of a tile without writing it back, and its presence entry, as unmapping does (R44, R57). -/
def State.dropLines (s : State) (tile : Nat) : State :=
  let t := (s.waysOf tile).foldl (fun u p => u.freeWay p.1) s
  { t with hlc := { t.hlc with
      evb := t.hlc.evb.filter fun e => e.tile != tile
      direct := t.hlc.direct.filter fun l => l / 16 != tile
      flush := t.hlc.flush.erase tile
      presence := t.hlc.presence.erase tile } }

/-- Every way INVALID, presence and buffers empty: what a reset leaves (R314). -/
def State.clearHlc (s : State) : State :=
  { s with hlc := { order := s.hlc.order } }

/-- One pass of the register maintenance command (R298–R300): what may be acted on is; a line leaves
the list once it has been. LINES counts write-backs begun. -/
def State.maintLine (s : State) (inval : Bool) (tile line : Nat) : State × Bool :=
  match s.line? tile line with
  | none => (s, true)
  | some (key, w) =>
    match w.state with
    | .filling => (s, false)
    | .writingBack => (if inval then s.setWay key { w with inval := true } else s, false)
    | .clean =>
      if inval then (if w.opens = 0 then (s.freeWay key, true) else (s.setWay key { w with inval := true }, false))
      else (s, true)
    | .dirty =>
      if s.inEvb tile line then (s, false)
      else ((s.setWay key { w with state := .writingBack, inval := inval }).addSat Reg.hlcMaintStatus 21 2 1, false)

/-- Runs the maintenance command over its remaining lines. -/
def State.maintStep (s : State) : State :=
  match s.hlc.maint with
  | none => s
  | some m =>
    let r := m.todo.foldl (fun (a : State × List (Nat × Nat)) p =>
      let q := a.1.maintLine m.inval p.1 p.2
      (q.1, if q.2 then a.2 else a.2 ++ [p])) (s, [])
    { r.1 with hlc := { r.1.hlc with maint := some { m with todo := r.2 } } }

end Sys2Proof.Machine
end

