-- ==== Sys2Proof/Machine/Units.lean ====
section
/-! DEFINITION. Flash locations, stripe blocks and program units (R368–R370, R377–R383). -/

namespace Sys2Proof.Machine

/-- CW_PER_BLOCK (R370). -/
def State.cwPerBlock (s : State) : Nat := s.pages * s.cwPerPage

/-- The flash tile address of slot `n` of a stripe block: units of one wordline on every plane are
filled in turn, codewords of a unit plane by plane and page by page, eight slots to a codeword
(R370, R378; the order within a unit is a DESIGN CHOICE, log 16). `bits` is the pages of a wordline. -/
def State.locOf (s : State) (set block n bits : Nat) : Nat :=
  let cw := n / 8
  let per := bits * s.cwPerPage
  let unit := cw / (s.planes * per)
  let j := cw % (s.planes * per)
  let page := unit * bits + j % per / s.cwPerPage
  let cwx := (block * s.planes + j / per) * s.cwPerBlock + page * s.cwPerPage + j % s.cwPerPage
  set * 2 ^ 29 + cwx % 2 ^ 26 * 8 + n % 8

/-- The set of a flash tile address (R370). -/
def locSet (loc : Nat) : Nat := bitsOf loc 34 29

/-- The stripe block of a flash tile address (R370, R377). -/
def State.locBlock (s : State) (loc : Nat) : Nat := bitsOf loc 28 3 / s.cwPerBlock / s.planes

/-- Puts a stripe block into the table. -/
def State.setSb (s : State) (set block : Nat) (b : Stripe) : State :=
  { s with fmc := { s.fmc with blocks := s.fmc.blocks.set (sbKey set block) b } }

/-- The stripe blocks of a set that are listed. -/
def State.sbList (s : State) (set : Nat) : List (Nat × Stripe) :=
  s.fmc.blocks.filter fun e => e.1 / 65536 == set

/-- FREE stripe blocks of a set (R377, R396). -/
def State.freeIn (s : State) (set : Nat) : Nat :=
  s.sbPerSet - ((s.sbList set).filter fun e => e.2.state != .free).length

/-- The FREE stripe block with the lowest erase count, the lowest-numbered of equals (R383). -/
def State.freeBlock (s : State) (set : Nat) : Option Nat :=
  let l := s.sbList set
  let fresh := freeFrameFrom (l.map fun e => (e.1, ({ tile := 0, cls := 0 } : Frame))) [] l.length (sbKey set 0)
  let cand := (l.filter fun e => e.2.state == .free).foldl (fun a e => match a with
    | none => some e
    | some (b : Nat × Stripe) => if e.2.erases < b.2.erases then some e else some b) none
  match cand with
  | some e => if fresh % 65536 < s.sbPerSet ∧ e.2.erases ≠ 0 then some (fresh % 65536) else some (e.1 % 65536)
  | none => if fresh % 65536 < s.sbPerSet then some (fresh % 65536) else none

/-- Tiles of a program unit (R378). -/
def State.unitTiles (s : State) : Nat := s.planes * s.bitsPerCell * s.cwPerPage * 8

/-- GC_LOW (R381, R389). -/
def State.gcLow (s : State) : Nat := s.fld Reg.fmcGc 7 0

/-- Whether evictions skip a set: fewer than GC_LOW / 2 FREE blocks (R381). -/
def State.setShort (s : State) (set : Nat) : Bool := decide (s.freeIn set * 2 < s.gcLow)

/-- Whether every set is short, which stops evictions (R381). -/
def State.flashFull (s : State) : Bool := (List.range s.sets).all s.setShort

/-- Follows FLASH_FULL: flag and record when the condition begins (R381). -/
def State.noteFull (s : State) : State :=
  let f := decide (0 < s.sets) && s.flashFull
  let t := { s with fmc := { s.fmc with full := f } }
  if f && !s.fmc.full then t.flagRecord Reg.fmcEvent 4 0x0B03 0 0 else t

/-- Opens a fresh stripe block of a set for evictions (0) or relocations (1) (R378, R383). -/
def State.openBlock (s : State) (set kind : Nat) : Option (State × Nat) :=
  match s.freeBlock set with
  | none => none
  | some b =>
    let t := s.setSb set b { s.sb set b with state := .opened, valid := 0, next := 0, pslc := false }
    some ({ t with fmc := { t.fmc with opens := t.fmc.opens.set (set * 2 + kind) b } }, b)

/-- Opens a fresh stripe block where a set has none of the kind, and one is FREE (R378, R380). -/
def State.openFresh (s : State) (set kind : Nat) : State :=
  match s.fmc.opens.get? (set * 2 + kind) with
  | some _ => s
  | none => match s.openBlock set kind with
    | some (t, _) => t
    | none => s

/-- Opens fresh stripe blocks in every set, when media operations begin after a reset (R378, R380). -/
def State.openAll (s : State) : State :=
  (List.range s.sets).foldl (fun (t : State) n => (t.openFresh n 0).openFresh n 1) s

/-- Starts programming a unit (R378). -/
def State.flyUnit (s : State) (set block : Nat) : State :=
  { s with fmc := { s.fmc with units := s.fmc.units.modify (sbKey set block) fun u => { u with flying := true } } }.emit
    (.die set 1)

/-- Puts a tile into the unit that a set is filling, opening a block where it has none; none while the
set programs or is short (R378, R381). Answers the tile's location. -/
def State.fillUnit (s : State) (set kind tile : Nat) : Option (State × Nat) :=
  if kind = 0 ∧ s.setShort set then none else
  let o := match s.fmc.opens.get? (set * 2 + kind) with
    | some b => some (s, b)
    | none => s.openBlock set kind
  match o with
  | none => none
  | some (t, b) =>
    let u := t.fmc.units.getD (sbKey set b) { block := b, reloc := kind == 1, tiles := [] }
    if u.flying then none else
    let sb := t.sb set b
    let loc := t.locOf set b (sb.next + u.tiles.length) t.bitsPerCell
    let u' := { u with tiles := u.tiles ++ [tile] }
    let t1 := { t with fmc := { t.fmc with units := t.fmc.units.set (sbKey set b) u' } }
    some (if t.unitTiles ≤ u'.tiles.length then t1.flyUnit set b else t1, loc)

/-- Finds a set for a tile, taking the sets in turn from the one whose unit evictions fill (R378). -/
def State.placeTile (s : State) (kind tile : Nat) : Nat → Nat → Option (State × Nat)
  | 0, _ => none
  | n + 1, set => match s.fillUnit set kind tile with
    | some p => some (if kind = 0 then { p.1 with fmc := { p.1.fmc with turn := set } } else p.1, p.2)
    | none => s.placeTile kind tile n ((set + 1) % s.sets)

/-- Takes a flash slot for an eviction (0) or a relocation (1) of a tile. -/
def State.flashSlot (s : State) (kind tile : Nat) : Option (State × Nat) :=
  s.placeTile kind tile s.sets s.fmc.turn

/-- Erasing starts (R377). -/
def State.eraseSb (s : State) (set block : Nat) : State :=
  (s.setSb set block { s.sb set block with state := .erasing }).emit (.die set 2)

/-- Counts a tile into its stripe block when its location becomes its home. -/
def State.validUp (s : State) (loc tile : Nat) : State :=
  let set := locSet loc
  let b := s.locBlock loc
  let sb := s.sb set b
  { s.setSb set b { sb with valid := sb.valid + 1 } with
    fmc := { (s.setSb set b { sb with valid := sb.valid + 1 }).fmc with slots := s.fmc.slots.set loc tile } }

/-- Whether a move whose program has verified, or is under way, will switch into a stripe block. -/
def State.pendingTo (s : State) (set block : Nat) : Bool :=
  s.moves.vals.any fun m => (m.stage == .program || m.stage == .verified)
    && locSet m.dest == set && s.locBlock m.dest == block

/-- A FULL block that holds no valid tile and awaits none goes to ERASING, an IMAGE block once this twin has
admitted its regions (R377, R386). -/
def State.emptyCheck (s : State) (set block : Nat) : State :=
  let b := s.sb set block
  if b.valid ≠ 0 ∨ s.pendingTo set block then s else
  match b.state with
  | .full => s.eraseSb set block
  | .image => if s.admitted then s.eraseSb set block else s
  | _ => s

/-- Returns a flash location to the flash tier as invalid (R247, R377, R386). -/
def State.invalidateLoc (s : State) (loc : Nat) : State :=
  let set := locSet loc
  let b := s.locBlock loc
  let sb := s.sb set b
  let t := s.setSb set b { sb with valid := sb.valid - 1 }
  ({ t with fmc := { t.fmc with slots := t.fmc.slots.erase loc } }).emptyCheck set b

end Sys2Proof.Machine
end

