-- ==== Sys2Proof/Machine/Moves.lean ====
section
/-! DEFINITION. Moves of tiles: the move lock, slots, the ledger's reservation, frames, promotions,
evictions, relocations and repairs (R241–R250, R254, R257, R262, R265). -/

namespace Sys2Proof.Machine

/-- Moves that may use all 512 slots of an engine: write promotions and repairs (R250). -/
def urgentMove (w : MoveWhy) : Bool :=
  match w with
  | .write => true
  | .repair => true
  | .atomTile => true
  | _ => false

/-- Moves of an engine that hold a slot. -/
def State.slotsUsed (s : State) (eng : Nat) (p : Move → Bool) : Nat :=
  (s.moves.filter fun e => engineOf e.1 == eng && e.2.stage != .waitSlot && p e.2).length

/-- Whether an engine has a slot for a move (R250). -/
def State.slotFree (s : State) (eng : Nat) (why : MoveWhy) : Bool :=
  decide (s.slotsUsed eng (fun _ => true) < 512)
    && (urgentMove why || decide (s.slotsUsed eng (fun m => !urgentMove m.why) < 384))

/-- Moves in flight (R278). -/
def State.movesInFlight (s : State) : Nat := s.moves.count fun m => m.stage != .waitSlot

/-- Whether new moves may start: PLACE_EN, and the twin is not fenced (R274, R284). -/
def State.mayMove (s : State) : Bool := s.bit Reg.plcCtl 0 && !s.twn.fenceIn

/-- Changes a move in flight. -/
def State.modMove (s : State) (tile : Nat) (f : Move → Move) : State :=
  { s with moves := s.moves.modify tile f }

/-- A tile that a PIN or PREFETCH waits for has ended; `miss` counts it in RESULT (R267, R268). -/
def State.cmdTile (s : State) (cmd tile : Nat) (miss : Bool) : State :=
  { s with cmds := s.cmds.modify cmd fun d =>
      { d with left := d.left.filter (· != tile), missed := if miss then insertNew d.missed tile else d.missed } }

/-- A tile has ended for the commands that wait for it: `moved` says that it is in DRAM, `pinned` that it could be pinned,
which a PIN needs as well; the peer's PIN commands are told (R267, R268). -/
def State.joinEnd (s : State) (cmds peers : List Nat) (tile : Nat) (moved pinned : Bool) : State :=
  let t := cmds.foldl (fun (t : State) c => t.cmdTile c tile
    (!moved || (!pinned && (match t.cmds.get? c with | some d => d.d.opcode == 6 | none => false)))) s
  if peers.isEmpty || !t.paired then t
  else t.post (.control (peers.map fun n => .pinEnd n tile (!moved || !pinned)))

/-- Whether one more tile may be pinned on this twin: PIN_PCT of its tile frames (R267, R276). -/
def State.pinRoom (s : State) : Bool :=
  decide ((s.pinnedCount + 1) * 100 ≤ s.framesTotal * s.fld Reg.plcPinLimit 5 0)

/-- A tile that its move leaves in DRAM: PINNED is set if the move was joined for a pin, unless that takes
this twin above PIN_PCT, and the commands that joined it go on (R267, R268). -/
def State.moveJoined (s : State) (tile : Nat) (m : Move) : State :=
  let ok := !m.pin || s.pinRoom || (s.tile tile).pinned
  let t := if m.pin && ok then s.modTile tile fun e => { e with pinned := true } else s
  t.joinEnd m.cmds m.peers tile true ok

/-- Ends a move that has not switched: the lock is released, the home is unchanged and any new home is
released (R246). -/
def State.dropMove (s : State) (tile : Nat) (miss : Bool) : State :=
  match s.moves.get? tile with
  | none => s
  | some m =>
    let t := { s with
      moves := s.moves.erase tile
      fmc := { s.fmc with waiting := s.fmc.waiting.filter (· != tile) }
      hlc := if m.kind == MoveKind.evict then { s.hlc with flush := s.hlc.flush.erase tile } else s.hlc }
    let t := if m.stage == .waitSlot then t else t.modTile tile fun e => { e with lock := false, evict := false }
    let t := match m.frame, m.kind with
      | some f, .promote => t.freeFrameNo f
      | some f, .repair => t.freeFrameNo f
      | _, _ => t
    let t := if m.stage == .verified || m.stage == .program then t.emptyCheck (locSet m.dest) (t.locBlock m.dest) else t
    t.joinEnd m.cmds m.peers tile (!miss) (!miss)

/-- Whether the peer can answer a pull or a forwarded read (R265, R266): it is PAIRED, or it starts beside
this twin with the Shaum Link UP (R423). A peer that is failed, fenced or only rejoining is absent. -/
def State.peerAnswers (s : State) : Bool :=
  s.twn.mate || ((match s.twn.link with | .up => true | _ => false)
    && (match s.twn.self with | .starting => true | _ => false)
    && (match s.twn.peer with | .present => true | .pathFault => true | _ => false))

/-- A repair that has its frame, or was refused one, pulls the peer's copy (R265 step 5). -/
def State.pullTile (s : State) (tile : Nat) : State := if s.peerAnswers then s.post (.tilePull tile) else s

/-- Gives a frame to a promotion or repair that has its reservation; without a free one it waits if it
is a write promotion, a repair or a tile-atomic frame, and is abandoned otherwise (R247). -/
def State.moveFrameTo (s : State) (tile : Nat) (m : Move) (free : Option Nat) : State :=
  match free with
  | some f =>
    let t := (s.takeFrame f tile).modMove tile fun x =>
      { x with stage := if m.kind = .repair then .pull else .moving, frame := some f, reserved := true }
    if m.kind = .repair then t.pullTile tile else t
  | none =>
    if urgentMove m.why then
      { s.modMove tile (fun x => { x with stage := .waitFrame, reserved := true }) with
        plc := { s.plc with frameDemand := true } }
    else (s.dropMove tile true).count (Reg.plcCount + 0x24)

/-- The same for the frame that an allocation takes. -/
def State.moveFrame (s : State) (tile : Nat) (m : Move) : State := s.moveFrameTo tile m s.freeFrame

/-- Puts a tile that is to go to flash into a program unit, or leaves it waiting for one (R248, R378,
R381). -/
def State.moveProgram (s : State) (tile : Nat) (m : Move) : State :=
  match s.flashSlot (if m.kind = .evict then 0 else 1) tile with
  | some (t, loc) =>
    { t.modMove tile (fun x => { x with stage := .program, dest := loc }) with
      fmc := { t.fmc with waiting := t.fmc.waiting.filter (· != tile) } }
  | none => { s with fmc := { s.fmc with waiting := insertNew s.fmc.waiting tile } }.noteFull

/-- A refused promotion: a write's waits, a repair's goes to flash; a save-area drain becomes a relocation, which skips a
pinned tile; any other is abandoned and counted (R246, R247, R258, R265). -/
def State.moveRefused (s : State) (tile : Nat) (m : Move) : State :=
  let t := s.refuseFrame.flag Reg.plcEvent 0
  match m.why with
  | .write => t.modMove tile fun x => { x with stage := .waitLedger }
  | .atomTile => t.modMove tile fun x => { x with stage := .waitLedger }
  | .repair => (t.modMove tile fun x => { x with stage := .pull, toFlash := true }).pullTile tile
  | .drain =>
    if (t.tile tile).pinned || m.pin then (t.dropMove tile true).count (Reg.plcCount + 0x10)
    else
      let u := (t.modMove tile fun x => { x with kind := .relocate, stage := .moving }).modTile tile fun e =>
        { e with evict := true }
      u.moveProgram tile { m with kind := .relocate }
  | _ => (t.dropMove tile true).count (Reg.plcCount + 0x10)

/-- The reservation step of a move into DRAM (R245, R408); the ledger state is evaluated at every
reservation (R410). -/
def State.moveReserve (s : State) (tile : Nat) (m : Move) : State :=
  let t := s.ledgerEval
  if t.canReserve then t.moveFrame tile m else t.moveRefused tile m

/-- Whether the sweep has started this eviction, which the eviction cap bounds (R261). -/
def sweepMove (w : MoveWhy) : Bool :=
  match w with
  | .sweep => true
  | .demote => true
  | _ => false

/-- Begins a move that has a slot: it takes the lock with its direction, and goes on to its first step
(R246–R248). -/
def State.beginMove (s : State) (tile : Nat) (m : Move) : State :=
  let s := { s with plc := { s.plc with started := s.plc.started + b2n (sweepMove m.why) } }
  let t := (s.modMove tile fun x => { x with stage := .waitLedger }).modTile tile fun e =>
    { e with lock := true, evict := (match m.kind with | .evict => true | .relocate => true | _ => false) }
  match m.kind with
  | .promote => t.moveReserve tile m
  | .repair => t.moveReserve tile m
  | .relocate => (t.modMove tile fun x => { x with stage := .moving }).moveProgram tile m
  | .evict =>
    let u := (t.modMove tile fun x => { x with stage := .moving, frame := some (t.tile tile).loc }).flushTile tile
    if u.flushing tile then u else u.moveProgram tile m

/-- Whether the lock can be taken for a move: it is free, the home is one that the move leaves, and an eviction or
relocation finds PINNED 0, but for one that the ledger's demand forces (R246, R247, R269). -/
def State.moveFits (s : State) (tile : Nat) (m : Move) : Bool :=
  let e := s.tile tile
  !e.lock && (match m.kind with
    | .promote => m.why == .atomTile || inFlash e.home || (e.home == .zero && (m.why == .write || m.pin))
    | .evict => inDram e.home && (!e.pinned || m.why == .demote)
    | .relocate => inFlash e.home && !e.pinned
    | .repair => e.home == .failed)

/-- A move that waited for a slot and finds its lock not to be had: the tile is skipped (R247). -/
def State.skipMove (s : State) (tile : Nat) (m : Move) : State :=
  let t := { s with moves := s.moves.erase tile }
  if inDram (t.tile tile).home && !(t.tile tile).lock then t.moveJoined tile m
  else t.joinEnd m.cmds m.peers tile false false

/-- Whether a move may begin now: moves are permitted, its engine has a slot, and the eviction cap of this second is not
spent (R250, R261, R274, R284). -/
def State.mayBegin (s : State) (tile : Nat) (m : Move) : Bool :=
  s.mayMove && s.slotFree (engineOf tile) m.why
    && (!sweepMove m.why || decide (s.plc.started < s.fld Reg.plcSweep 21 16 * 100000))

/-- The first in arrival order of the moves that satisfy a test. -/
def State.oldestMove (s : State) (p : Nat → Move → Bool) : Option (Nat × Move) :=
  (s.moves.filter fun e => p e.1 e.2).foldl (fun a e => match a with
    | none => some e
    | some (b : Nat × Move) => if e.2.order < b.2.order then some e else some b) none

/-- Gives an engine's free slots to the moves that wait for one, in arrival order (R250). -/
def State.slotsGo (s : State) (eng : Nat) : Nat → State
  | 0 => s
  | n + 1 => match s.oldestMove fun t m => engineOf t == eng && m.stage == .waitSlot && s.mayBegin t m with
    | some (tile, m) => (if s.moveFits tile m then s.beginMove tile m else s.skipMove tile m).slotsGo eng n
    | none => s

/-- Gives an engine's free slots to the moves that wait. -/
def State.nextSlot (s : State) (eng : Nat) : State := s.slotsGo eng s.moves.length

/-- Gives the slots of all four engines to the moves that wait. -/
def State.nextSlots (s : State) : State := (List.range 4).foldl State.nextSlot s

/-- Queues a move of a tile, which begins when its engine has a slot for it. -/
def State.queueMove (s : State) (tile : Nat) (m : Move) : State :=
  { s with
    moves := s.moves.set tile { m with stage := .waitSlot, order := s.plc.moveSeq }
    plc := { s.plc with moveSeq := s.plc.moveSeq + 1 } }.nextSlot (engineOf tile)

/-- What a promotion that is asked for does to a promotion of the tile that still waits for a slot: it joins it, and a
write's need makes it a write promotion (R249, R250). -/
def joinWaiting (m : Move) (why : MoveWhy) (cmds peers : List Nat) : Move :=
  { m with why := if urgentMove why then why else m.why, cmds := m.cmds ++ cmds, peers := m.peers ++ peers
           pin := m.pin || why == .pin }

/-- Starts a move of a tile whose lock is free: it begins if its engine has a slot, and otherwise waits for one in arrival
order; a promotion takes the place of an eviction or relocation that still waits (R247, R250). -/
def State.startMove (s : State) (tile : Nat) (kind : MoveKind) (why : MoveWhy) (cmds : List Nat)
    (peers : List Nat := []) : State :=
  if !s.mayMove || (s.tile tile).lock then s else
  let m : Move := { kind := kind, why := why, stage := .waitSlot, order := 0, cmds := cmds, peers := peers
                    pin := why == .pin }
  match s.moves.get? tile with
  | none => s.queueMove tile m
  | some x =>
    match x.kind, kind with
    | .promote, .promote => (s.modMove tile fun y => joinWaiting y why cmds peers).nextSlot (engineOf tile)
    | .evict, .promote => s.queueMove tile m
    | .relocate, .promote => s.queueMove tile m
    | _, _ => s

/-- Gives free frames to the moves that wait for one, in the order of R257 (R247). -/
def State.serveFrames (s : State) : Nat → State
  | 0 => s
  | n + 1 => match s.oldestMove fun _ m => m.stage == .waitFrame with
    | some (tile, m) => if s.freeFrame.isSome then (s.moveFrame tile m).serveFrames n else s
    | none => s

/-- Gives reservations to the write promotions that wait for the ledger, in arrival order (R257). -/
def State.serveLedger (s : State) : Nat → State
  | 0 => s
  | n + 1 => match s.oldestMove fun _ m => m.stage == .waitLedger with
    | some (tile, m) => if s.canReserve then (s.moveFrame tile m).serveLedger n else s
    | none => s

/-- Promotes pinned tiles that are not in DRAM, while the ledger admits frames (R257, R269). -/
def State.servePinned (s : State) : State :=
  (s.tiles.filter fun e => e.2.pinned && inFlash e.2.home && !e.2.lock).foldl (fun t e =>
    if t.canReserve ∧ t.freeFrame.isSome then t.startMove e.1 .promote .pinned [] else t) s

/-- Drains the save area: each SAVE_AREA tile is promoted when the ledger admits a frame for it, and
relocated otherwise (R270). -/
def State.drainSaveArea (s : State) : State :=
  (s.tiles.filter fun e => e.2.home == .saveArea && !e.2.lock).foldl (fun t e =>
    t.startMove e.1 .promote .drain []) s

/-- Serves waiting work in the order of R257: write promotions and repairs, pinned tiles, the
save-area drain. Read promotions and PREFETCH never wait: a refusal abandons them (R247). -/
def State.serveQueue (s : State) : State :=
  let a := s.serveFrames s.moves.length
  let b := a.serveLedger a.moves.length
  b.servePinned

/-- The switch of a promotion: the entry becomes DRAM and the lock is released in one update, and the
old flash location returns to the flash tier as invalid (R245, R247). -/
def State.switchDram (s : State) (tile frame : Nat) : State :=
  let e := s.tile tile
  let t := s.setTile tile { e with home := .dram, loc := frame, lock := false, evict := false }
  if inFlash e.home then t.invalidateLoc e.loc else t

/-- A promotion whose reads are complete switches (R247). -/
def State.promoteDone (s : State) (tile : Nat) (m : Move) (frame : Nat) : State :=
  let t := { s.switchDram tile frame with moves := s.moves.erase tile }
  ((t.count Reg.plcCount).moveJoined tile m).nextSlot (engineOf tile)

/-- Cancels an eviction that a write has met: its flash program is discarded and the lock released; the
tile stays in its frame (R249). -/
def State.cancelEvict (s : State) (tile : Nat) : State :=
  match s.moves.get? tile with
  | some m =>
    let t := { s with moves := s.moves.modify tile fun x => { x with cmds := [], peers := [] } }.dropMove tile false
    ((t.moveJoined tile m).count (Reg.plcCount + 8)).nextSlot (engineOf tile)
  | none => s

/-- An eviction whose lines have left the HLC goes on to be programmed (R248). -/
def State.evictFlushed (s : State) (tile : Nat) : State :=
  match s.moves.get? tile with
  | some m =>
    if m.kind = .evict ∧ m.stage = .moving ∧ s.flushing tile = false ∧ s.fmc.waiting.contains tile = false
    then s.moveProgram tile m else s
  | none => s

/-- Tries again the moves that wait for a program unit, in order. -/
def State.retryUnits (s : State) : State :=
  s.fmc.waiting.foldl (fun t tile => match t.moves.get? tile with
    | some m => t.moveProgram tile m
    | none => { t with fmc := { t.fmc with waiting := t.fmc.waiting.filter (· != tile) } }) s

/-- Repairs in progress: entries of the refetch table (R265). -/
def State.refetchUsed (s : State) : Nat := s.moves.count fun m => m.kind == .repair

/-- Starts the repair of a tile, or lets it wait for a refetch entry: HOME becomes FAILED, its location
is held for the map audit, and REPAIR is set; with a slot it takes the lock and asks for a frame, and then the peer's
copy is pulled (R250, R265, R714). `valid` are the sectors that open writes have filled (step 4). -/
def State.startRepair (s : State) (tile : Nat) (valid : List Nat) (bad : Bool) : State :=
  let e := s.tile tile
  if e.lock || (match s.moves.get? tile with | some x => x.kind == .repair | none => false) then s
  else if 256 ≤ s.refetchUsed then
    { s.flag Reg.plcEvent 7 with plc := { s.plc with refetchWait := insertNew s.plc.refetchWait tile } }
  else
    let t := (s.count (Reg.plcCount + 0x14)).flag Reg.plcEvent 5
    let t := if inDram e.home then (t.dropLines tile).holdFrame e.loc bad
      else if inFlash e.home then { t with plc := { t.plc with heldFlash := insertNew t.plc.heldFlash e.loc } }
      else t
    let old := s.moves.get? tile
    let m : Move := { kind := .repair, why := .repair, stage := .waitSlot, order := 0, valid := valid
                      cmds := (t.cmds.filter fun e => e.2.left.contains tile).map Prod.fst
                      peers := match old with | some x => x.peers | none => []
                      pin := (match old with | some x => x.pin | none => false)
                        || t.cmds.any fun e => e.2.left.contains tile && e.2.d.opcode == 6 }
    let t := { t with plc := { t.plc with refetchWait := t.plc.refetchWait.filter (· != tile) } }
    (t.modTile tile fun x => { x with home := .failed }).queueMove tile m

/-! ### Refresh of a stripe block (R375, R379, R387) -/

/-- The valid tiles of a stripe block: slot tags checked against the map (R374, R381). -/
def State.validTiles (s : State) (set block : Nat) : List Nat :=
  (s.fmc.slots.filter fun e => locSet e.1 == set && s.locBlock e.1 == block
    && inFlash (s.tile e.2).home && (s.tile e.2).loc == e.1).map Prod.snd

/-- Asks placement to relocate every valid tile of a stripe block; pinned and locked tiles are skipped
(R247, R375). A fenced twin starts no relocation (R398). -/
def State.relocateAll (s : State) (set block : Nat) : State :=
  (s.validTiles set block).foldl (fun (t : State) x =>
    if (t.tile x).pinned || (t.tile x).home == .saveArea then t else t.startMove x .relocate .media []) s

/-- Queues a stripe block for refresh, and counts it once (R375, R379). -/
def State.refresh (s : State) (set block : Nat) : State :=
  let b := s.sb set block
  if b.refresh then s
  else ((s.setSb set block { b with refresh := true }).count (Reg.fmcCount + 0x14)).relocateAll set block

end Sys2Proof.Machine
end

