-- ==== Sys2Proof/Machine/Pools.lean ====
section
/-! DEFINITION. The buffer pool manager: pools, LIFO free lists, levels, double frees (R170–R172,
R190–R194). -/

namespace Sys2Proof.Machine

/-- Buffer sizes of the five pools (R170). -/
def poolSizes : List Nat := [256, 1024, 4096, 16384, 65536]

/-- The smallest pool whose buffers hold `n` bytes (R170); larger payloads take the largest pool. -/
def poolFor (n : Nat) : Nat :=
  if n ≤ 256 then 0 else if n ≤ 1024 then 1 else if n ≤ 4096 then 2 else if n ≤ 16384 then 3 else 4

/-- A pool. -/
def State.pool (s : State) (i : Nat) : Pool := s.pools.getD i {}

/-- COUNT of a pool (R190). -/
def State.poolCount (s : State) (i : Nat) : Nat := s.fld (Reg.bpmCfg0 + 0x20 * i) 15 0

/-- FREE of a pool (R192). -/
def State.poolFree (s : State) (i : Nat) : Nat := s.poolCount i - (s.pool i).used.length

/-- A threshold of a pool in percent: 1 WARN, 2 THROTTLE, 3 STOP (R191). -/
def State.poolThresh (s : State) (i lvl : Nat) : Nat := s.fld (Reg.bpmThresh + 0x20 * i) (8 * lvl - 1) (8 * lvl - 8)

/-- HYST of a pool (R191). -/
def State.poolHyst (s : State) (i : Nat) : Nat := s.fld (Reg.bpmThresh + 0x20 * i) 31 24

/-- Whether a level holds: entered at its threshold, and left only below threshold minus HYST (R171). -/
def State.levelHolds (s : State) (i lvl used : Nat) : Bool :=
  decide (s.poolThresh i lvl * s.poolCount i ≤ used * 100)
    || (decide (lvl ≤ (s.pool i).level)
      && decide ((s.poolThresh i lvl - s.poolHyst i) * s.poolCount i ≤ used * 100))

/-- The level of a pool with `used` buffers taken (R171, R192). -/
def State.levelOf (s : State) (i used : Nat) : Nat :=
  if s.poolCount i = 0 then 0
  else if s.levelHolds i 3 used then 3 else if s.levelHolds i 2 used then 2
  else if s.levelHolds i 1 used then 1 else 0

/-- The highest level reached by any pool (R171). -/
def State.poolLevel (s : State) : Nat := maxOf ((List.range 5).map fun i => (s.pool i).level)

/-- Sends XOFF on every PFC_EN priority of every port that is up, or XON where XOFF was sent (R128, R171). -/
def State.pfcAll (s : State) (xoff : Bool) : State :=
  let prios := s.fld Reg.netDcb 7 0
  (List.range 8).foldl (fun (t : State) n =>
    let p := t.ports.getD n {}
    let set := fun (v : Nat) => { t with ports := t.ports.upd n {} fun x => { x with txPaused := v } }
    if p.up = false then t
    else if xoff then (if prios = 0 then t else (set prios).emit (.pfc n prios true))
    else if p.txPaused = 0 then t
    else (set 0).emit (.pfc n p.txPaused false)) s

/-- Follows a pool's level: each level newly entered sets its flag (R171, R193), the lowest FREE is kept (R194), and
entering or leaving the stop level sends XOFF or XON (R128). -/
def State.poolNote (s : State) (i : Nat) (p : Pool) : State :=
  let l := s.levelOf i p.used.length
  let t := { s with pools := s.pools.set i { p with level := l } }
  let u : State := [1, 2, 3].foldl (fun (v : State) k =>
    if (s.pool i).level < k ∧ k ≤ l then v.flag (Reg.bpmEvent + 0x20 * i) (k - 1) else v) t
  let off := Reg.bpmLow0 + 0x20 * i
  let v := if u.poolFree i < u.fld off 15 0 then u.setFld off 15 0 (u.poolFree i) else u
  if s.poolLevel < 3 ∧ 3 ≤ v.poolLevel then v.pfcAll true
  else if 3 ≤ s.poolLevel ∧ v.poolLevel < 3 then v.pfcAll false
  else v

/-- Takes a buffer from a pool: the last returned, else one never taken (R170). None when the pool is
empty. -/
def State.takeBuf (s : State) (size : Nat) : Option (State × Nat × Nat) :=
  let i := poolFor size
  let p := s.pool i
  if s.poolFree i = 0 then none else
  match p.free with
  | b :: t => some (s.poolNote i { p with
      free := t, used := insertNew p.used b, zeroed := p.zeroed.filter (· != b) }, i, b)
  | [] => some (s.poolNote i { p with fresh := p.fresh + 1, used := insertNew p.used p.fresh }, i, p.fresh)

/-- Frees a buffer. A buffer whose state bit is clear is not linked: DOUBLE_FREE, its count, and one
event record (R172). -/
def State.freeBuf (s : State) (b : Nat × Nat) : State :=
  let p := s.pool b.1
  if p.used.contains b.2 then
    s.poolNote b.1 { p with free := b.2 :: p.free, used := p.used.filter (· != b.2) }
  else
    (s.addSat (Reg.bpmDfree + 0x20 * b.1) 15 0 1).flagRecord (Reg.bpmEvent + 0x20 * b.1) 3 0x1001 b.1 b.2

/-- Overwrites a buffer with zeros (R150). -/
def State.zeroBuf (s : State) (b : Nat × Nat) : State :=
  { s with pools := s.pools.upd b.1 {} fun p => { p with zeroed := insertNew p.zeroed b.2 } }

end Sys2Proof.Machine
end

