-- ==== Sys2Proof/Machine/Requests.lean ====
section
/-! DEFINITION. Requests in the device: the life of a write and of a read (chapter 1). A request waits
in its tracker entry until nothing that the spec names holds it back; then a write is sequenced,
applied through the HLC and mirrored, and a read answered. What has ended is listed in `ended` for the
path that made the request. -/

namespace Sys2Proof.Machine

/-! ### Request IDs (R473, R474) -/

/-- The window slot of a request, keyed region × 65,536 + slot (R473). -/
def winKey (region host reqId : Nat) : Nat := region * 65536 + (reqId + 40503 * host) % 65536

/-- The slot that already holds a request ID of a host, if it does (R474). -/
def State.winHit (s : State) (region host reqId : Nat) : Option WinSlot :=
  if reqId = 0 then none else
  match s.twn.window.get? (winKey region host reqId) with
  | some w => if w.reqId = reqId ∧ w.host = host then some w else none
  | none => none

/-- Writes the slot of a request ID; ID 0 has none (R474). -/
def State.winSet (s : State) (region host reqId : Nat) (atomic : Bool) (result : Nat) (isOpen : Bool) : State :=
  if reqId = 0 then s else
  let w : WinSlot := { reqId := reqId, host := host, atomic := atomic, result := result, opened := isOpen }
  { s with twn := { s.twn with window := s.twn.window.set (winKey region host reqId) w } }

/-! ### What a request touches -/

/-- Whether an operation writes. -/
def isWrite (op : MemOp) : Bool :=
  match op with
  | .read => false
  | _ => true

/-- Whether an operation is an atomic that returns the original value (R160). -/
def isAtomic (op : MemOp) : Bool :=
  match op with
  | .fetchAdd => true
  | .compareSwap => true
  | _ => false

/-- The cache lines that a request touches. -/
def reqLines (r : Req) : List Nat := r.segs.flatMap fun p => linesOf p.1 p.2

/-- The tiles that a request touches. -/
def reqTiles (r : Req) : List Nat := r.segs.flatMap fun p => tilesOf p.1 p.2

/-- Whether a request touches a line. -/
def reqOnLine (r : Req) (line : Nat) : Bool :=
  r.segs.any fun p => decide (p.1 < line * 256 + 256) && decide (line * 256 < p.1 + p.2)

/-- Whether two requests share a 256-byte line. -/
def shareLine (a b : Req) : Bool := (reqLines a).any (reqOnLine b)

/-- Whether a request came from a host of this twin, which is then its entry. -/
def entryHere (r : Req) : Bool :=
  match r.src with
  | .mirror _ => false
  | .forward .. => false
  | _ => true

/-- Whether a request belongs to the same LD or QP as an earlier write whose completion it has had
(R30, R158). -/
def sameOwner (a b : Req) : Bool :=
  match a.src, b.src with
  | .cxl l _, .cxl m _ => l == m
  | .rdma q _, .rdma p _ => q == p
  | _, _ => false

/-- Whether a write holds a read back (R28): it is open here, or it entered here earlier and has not
completed; a device's own completed writes do not (R30). -/
def blocksRead (id : Nat) (r : Req) (wid : Nat) (w : Req) : Bool :=
  isWrite w.op && wid != id && !(w.acked && sameOwner r w) && shareLine r w
    && (w.stage == .opened || (entryHere w && decide (wid < id)))

/-- Whether an earlier request of the same QP to overlapping bytes holds a request back (R161): until it is sequenced
whole or, sent to the owner, has ended. A read sees the QP's own acknowledged writes and does not wait for them (R158). -/
def blocksOrder (id : Nat) (r : Req) (wid : Nat) (w : Req) : Bool :=
  decide (wid < id) && (w.stage != .opened || !w.todo.isEmpty) && (isWrite w.op || isWrite r.op)
    && !(w.acked && !isWrite r.op)
    && (match r.src, w.src with | .rdma q _, .rdma p _ => q == p | _, _ => false)
    && r.segs.any fun a => w.segs.any fun b => overlaps a.1 a.2 b.1 b.2

/-- Changes a request. -/
def State.modReq (s : State) (id : Nat) (f : Req → Req) : State := { s with reqs := s.reqs.modify id f }

/-- Ends a request: its tracker entry and buffer are free, and its ending goes to its path. -/
def State.endReq (s : State) (id : Nat) (e : Ending) : State :=
  match s.reqs.get? id with
  | none => s
  | some r =>
    let t := { s with reqs := s.reqs.erase id, ended := s.ended ++ [(r, e)] }
    match r.buf with
    | some b => t.freeBuf b
    | none => t

/-- Takes a request out of its tracker entry without an ending: it is dropped (R104, R155). -/
def State.dropReq (s : State) (id : Nat) : State :=
  match s.reqs.get? id with
  | none => s
  | some r =>
    let t := { s with reqs := s.reqs.erase id }
    match r.buf with
    | some b => t.freeBuf b
    | none => t

/-- What a reset or an error of a path does to its requests in flight (R104, R155): reads and writes not
yet sequenced are dropped, a write that its host has had completed stays, and a sequenced one goes on to
its commit point with no completion sent. The owner is asked to drop the forwarded writes that it has not sequenced. -/
def State.abortReqs (s : State) (mine : Req → Bool) : State :=
  let there := (s.reqs.filter fun e => mine e.2 && isWrite e.2.op && !e.2.acked && e.2.stage == .forwarded).map Prod.fst
  let t := if there.isEmpty then s else s.post (.control [.cancel there])
  (t.reqs.filter fun e => mine e.2).foldl (fun t e =>
    if isWrite e.2.op then
      if e.2.acked then t
      else if e.2.stage == .opened || e.2.stage == .forwarded then t.modReq e.1 fun q => { q with silent := true }
      else t.dropReq e.1
    else t.dropReq e.1) t

/-- The owner's part of it: it drops the peer's forwarded requests of these tags of which nothing is sequenced, and
answers them, so that the entry twin frees them (R104, R155, R452). -/
def State.cancelFwd (s : State) (tags : List Nat) : State :=
  (s.reqs.filter fun e => e.2.stage == .waiting && (match e.2.src with | .forward tag _ => tags.contains tag | _ => false)).foldl
    (fun t e => match e.2.src with
      | .forward tag _ => (t.dropReq e.1).post (.fwdReply tag false 0)
      | _ => t) s

/-! ### Heat (R259, R260, R264) -/

/-- A class's HEAT increment for a write or a read (R259, R277). -/
def State.heatInc (s : State) (cls : Nat) (write : Bool) : Nat :=
  if write then s.fld (Reg.plcClass + 4 * cls) 23 16 else s.fld (Reg.plcClass + 4 * cls) 15 8

/-- Counts accesses of a region at an engine (R264). -/
def State.heatCount (s : State) (region eng : Nat) : State :=
  { s with plc := { s.plc with heat := s.plc.heat.upd (region * 4 + eng) 0 (· + 1) } }

/-- Adds an access's heat to its tiles and to its region's counts: a transfer command counts once per tile, any other access
once, at the engine of its first tile (R259, R264). A read never changes a ZERO entry (R57). -/
def State.heatReq (s : State) (r : Req) : State :=
  let cls := (s.region r.region).qos
  let ts := reqTiles r
  let t := ts.foldl (fun u x =>
    if (u.tile x).home == .zero && !isWrite r.op then u
    else u.modTile x fun e => { e with heat := heatUp e.heat (s.heatInc cls (isWrite r.op)) }) s
  (match r.src with | .tq _ => ts | _ => ts.take 1).foldl (fun (u : State) x => u.heatCount r.region (engineOf x)) t

/-- Queues the read promotions that a read's heat calls for; one that meets a move waits for it (R249, R260). -/
def State.promoteHot (s : State) (r : Req) : State :=
  if s.bit Reg.plcCtl 1 = false then s else
  let cls := (s.region r.region).qos
  (reqTiles r).foldl (fun t x =>
    if inFlash (t.tile x).home ∧ s.fld (Reg.plcClass + 4 * cls) 7 0 ≤ (t.tile x).heat
    then (if (t.tile x).lock then t.modMove x fun m => { m with hot := true } else t.startMove x .promote .readPromo [])
    else t) s

/-! ### Tiles and lines for a write -/

/-- Whether new writes to a tile are held because the peer is repairing it from this owner's copy
(R265 step 2). -/
def State.pullHeld (s : State) (tile : Nat) : Bool :=
  s.twn.pulls.contains tile || (s.twn.pulled.any fun e => e.2 == tile)

/-- Runs a readiness check over a list, threading the state; all must be ready. -/
def allReady {α : Type} (f : State → α → State × Bool) : State → List α → State × Bool
  | s, [] => (s, true)
  | s, x :: t =>
    let p := f s x
    let q := allReady f p.1 t
    (q.1, p.2 && q.2)

/-- Looks up the map entries of a request's tiles: an absent map line is filled, and each of the request's misses is
counted once (R48 step 6, R56, R272). -/
def State.mapReady (s : State) (id : Nat) : State × Bool :=
  match s.reqs.get? id with
  | none => (s, true)
  | some r => allReady (fun t x =>
      if t.mapHit x then (t, true)
      else
        let seen : Bool := match t.reqs.get? id with | some q => q.missed.contains (mapLine x) | none => true
        (if seen then t.mapFill x
         else (t.mapMiss x).modReq id fun q => { q with missed := q.missed ++ [mapLine x] }, false)) s (reqTiles r)

/-- Sectors of a tile that open writes have filled (R265 step 4). -/
def State.openSectors (s : State) (tile : Nat) : List Nat :=
  s.reqs.flatMap fun e => if e.2.stage == .opened && isWrite e.2.op then
    (e.2.segs.flatMap fun p => sectorsOf p.1 p.2).filter (· / 64 == tile) else []

/-- Starts the repair of a tile that a request has met (R265). -/
def State.repairTile (s : State) (tile : Nat) : State := s.startRepair tile (s.openSectors tile) true

/-- Whether a tile is ready for a write here: DRAM-homed and unlocked, after cancelling an eviction;
otherwise a promotion or repair is started and the write waits (R247, R249, R254, R255). `hint` sends
the owner's promotion hint; `mirror` lets a mirror apply into a repair's fresh frame. -/
def State.tileForWrite (s : State) (tile : Nat) (hint mirror : Bool) : State × Bool :=
  if s.mapHit tile = false then (s.mapFill tile, false) else
  let e := s.tile tile
  if e.lock then
    match s.moves.get? tile with
    | some m =>
      match m.kind with
      | .evict => (s.cancelEvict tile, true)
      | .repair => (s, mirror && m.frame.isSome)
      | _ => (s, false)
    | none => (s, false)
  else if hint && s.pullHeld tile then (s, false)
  else match e.home with
    | .dram => (s, true)
    | .hlcOverDram => (s, true)
    | .failed => (s.repairTile tile, false)
    | _ =>
      let t := s.startMove tile .promote .write []
      let asked := fun (u : State) => match u.moves.get? tile with | some m => m.why == .write | none => false
      (if hint && t.paired && asked t && !asked s then t.post (.promoHint tile) else t, false)

/-- Whether a line is ready for a write: present and not filling, being written back or at OPEN 7; an
absent one is allocated from an eviction buffer, directly when the write covers it whole, or by a fill
(R291–R295). -/
def State.lineForWrite (s : State) (line : Nat) (whole : Bool) : State × Bool :=
  let tile := line / 16
  let l := line % 16
  if s.hlc.heldSets.contains (hlcSet tile l) then (s, false) else
  match s.line? tile l with
  | some (_, w) =>
    (s, w.opens < 7 && (match w.state with | .clean => true | .dirty => true | _ => false))
  | none =>
    if s.inEvb tile l then
      match s.allocLine tile l .dirty true with
      | .ok t => (t.count (Reg.hlcCount + 8), true)
      | .wait t => (t, false)
    else if whole then
      match s.allocLine tile l .dirty true with
      | .ok t => (t.count (Reg.hlcCount + 4), true)
      | .wait t => (t, false)
    else if s.fillsIn (hlcSlice tile) < 256 then
      match s.allocLine tile l .filling false with
      | .ok t => (t.count (Reg.hlcCount + 4), false)
      | .wait t => (t, false)
    else (s, false)

/-- Whether a piece of persistent space covers a line whole. -/
def coversLine (psa len line : Nat) : Bool := decide (psa ≤ line * 256) && decide (line * 256 + 256 ≤ psa + len)

/-- Whether every tile and line of a piece is ready for a write. -/
def State.pieceReady (s : State) (psa len : Nat) (hint mirror : Bool) : State × Bool :=
  let p := allReady (fun t x => t.tileForWrite x hint mirror) s (tilesOf psa len)
  if p.2 = false then p else
  allReady (fun t l => match t.moves.get? (l / 16) with
    | some _ => (t, true)
    | none => t.lineForWrite l (coversLine psa len l)) p.1 (linesOf psa len)

/-- Whether a tile that is to be written as one atomic unit has its fresh frame: the frame is asked for
like a promotion's, and the write waits while the ledger or the free list refuses it (R208). -/
def State.freshReady (s : State) (tile : Nat) : State × Bool :=
  if s.mapHit tile = false then (s.mapFill tile, false)
  else if (s.tile tile).home == .failed && (s.moves.get? tile).isNone then (s.repairTile tile, false)
  else
    let s1 := match s.moves.get? tile with
      | some m =>
        if m.stage == .waitSlot && m.kind != .repair then s.startMove tile .promote .atomTile []
        else if m.kind = .evict then (s.cancelEvict tile).startMove tile .promote .atomTile [] else s
      | none => s.startMove tile .promote .atomTile []
    (s1, !s1.pullHeld tile && (match s1.moves.get? tile with
      | some m => m.why == .atomTile && m.stage == .moving
      | none => false))

/-- Switches a tile to the fresh frame that its tile-atomic write fills: one map update, the old home
released (R208). -/
def State.freshSwitch (s : State) (tile : Nat) : State :=
  match (s.moves.get? tile).bind fun m => m.frame with
  | none => s
  | some f =>
    let old := s.tile tile
    let t := (s.dropLines tile).switchDram tile f
    let t := if inDram old.home then t.freeFrameNo old.loc else t
    ({ t with moves := t.moves.erase tile }).nextSlot (engineOf tile)

/-- Whether a piece of a write is ready: a tile-atomic piece has its fresh frames (R208), any other its
tiles and lines. -/
def State.opReady (s : State) (op : MemOp) (psa len : Nat) (hint mirror : Bool) : State × Bool :=
  match op with
  | .tileSwitch => allReady (fun t x => t.freshReady x) s (tilesOf psa len)
  | _ => s.pieceReady psa len hint mirror

/-- Switches in the fresh frames of a tile-atomic piece (R208). -/
def State.opSwitch (s : State) (op : MemOp) (psa len : Nat) : State :=
  match op with
  | .tileSwitch => (tilesOf psa len).foldl State.freshSwitch s
  | _ => s

/-! ### Applying -/

/-- Marks a line written: DIRTY, and OPEN counts the write on the owner (R291, R294). -/
def State.dirtyLine (s : State) (line : Nat) (isOpen : Bool) : State :=
  match s.line? (line / 16) (line % 16) with
  | some (k, w) => (s.setWay k { w with state := .dirty, dirty := true, opens := w.opens + b2n isOpen }).touchWay k
  | none => s

/-- A mirror acknowledgement lowers OPEN; a line waiting to be invalidated goes at 0 (R294, R299). -/
def State.closeLine (s : State) (line : Nat) : State :=
  match s.line? (line / 16) (line % 16) with
  | some (k, w) =>
    let w' := { w with opens := w.opens - 1 }
    if w'.opens = 0 ∧ w'.inval = true ∧ w'.state = .clean then s.freeWay k else s.setWay k w'
  | none => s

/-- Keeps the poison list in step with a write: a poisoned write adds its sectors as Host Written, any
other takes the sectors that it covers whole off the list (R101, R103). -/
def State.notePoison (s : State) (psa len : Nat) (poison : Bool) : State :=
  if poison then s.poisonNew (sectorsOf psa len) 1
  else s.poisonDel ((sectorsOf psa len).filter (coversSector psa len))

/-- In a region that is in RESYNC here, keeps which sectors mirror applies have written (R477). -/
def State.noteWritten (s : State) (psa len : Nat) : State :=
  let here : Bool := match s.regionOfPsa psa with
    | some p => (s.region p.1).state == .resync
    | none => false
  if here then
    { s with twn := { s.twn with written := (sectorsOf psa len).foldl (fun w n =>
        w.upd (n / 64) [] fun l => insertNew l n) s.twn.written } }
  else s

/-- Applies one piece of a write through the HLC (R20, R21, R23): data, metadata, the lines' states,
SYNC_DIRTY while the peer does not take the write (R470), and a repair's map of valid sectors (R265). -/
def State.applyPiece (s : State) (psa pseq : Nat) (data : List Byte) (poison isOpen sync : Bool) : State :=
  let t := (s.applyBytes psa pseq data poison).notePoison psa data.length poison
  let t := (linesOf psa data.length).foldl (fun u l => u.dirtyLine l isOpen) t
  let t := if sync then (tilesOf psa data.length).foldl (fun u x => u.modTile x fun e => { e with syncDirty := true }) t else t
  let t := (tilesOf psa data.length).foldl (fun u x => u.modMove x fun m =>
    if m.kind = .repair then { m with valid := (sectorsOf psa data.length).foldl insertNew m.valid } else m) t
  t.noteWritten psa data.length

/-- Cuts a write into pieces of at most `mx` bytes that take one persist sequence each (R450). A cut never divides a
persist unit, nor a tile where `mx` is one (R23, R208). -/
def cutPieces (mx : Nat) : Nat → Nat → Nat → Nat → List (Nat × Nat × Nat)
  | 0, _, _, _ => []
  | fuel + 1, psa, len, pos =>
    if len = 0 then [] else
    let n := min len (mx - psa % min mx 4096)
    (psa, n, pos) :: cutPieces mx fuel (psa + n) (len - n) (pos + n)

/-- The pieces of all of a write's segments: at most 65,536 bytes each (R450). -/
def piecesOf (mx : Nat) : List (Nat × Nat) → Nat → List (Nat × Nat × Nat)
  | [], _ => []
  | (psa, len) :: t, pos => cutPieces mx (len / mx + 2) psa len pos ++ piecesOf mx t (pos + len)

/-- The longest piece of an operation: a message's 65,536 bytes (R450), or one tile where each tile is
switched in by itself (R208). -/
def pieceMax (op : MemOp) : Nat :=
  match op with
  | .tileSwitch => 4096
  | _ => 65536

/-- The poison marks of one piece's sectors: all where the write carries poison (R101), a transfer
copy's own marks (R211), or none. -/
def pieceMap (r : Req) (psa len pos : Nat) : List Bool :=
  if r.poison then (sectorsOf psa len).map fun _ => true
  else if r.map.any id then
    (List.range (sectorsOf psa len).length).map fun i =>
      r.map.getD (((r.segs.headD (0, 0)).1 % 64 + pos) / 64 + i) false
  else []

/-- The sectors of a piece that its poison marks name. -/
def markedIn (psa len : Nat) (marks : List Bool) : List Nat :=
  (((sectorsOf psa len).zip marks).filter (·.2)).map (·.1)

/-- Marks sectors poisoned and lists them as Host Written (R101, R103). -/
def State.markSectors (s : State) (secs : List Nat) : State :=
  let t := secs.foldl (fun u n => u.setSector n { u.sector n with poison := true, bad := false }) s
  t.poisonNew secs 1

/-- Whether a write's commit needs the peer: while PAIRED (R20); as single survivor it commits at its
apply (R470). -/
def State.mirrors (s : State) : Bool := s.paired

/-- The owner sequences one piece: the region's next persist sequence, the apply, and the MIRROR
message (R21, R450). -/
def State.sequence (s : State) (id : Nat) (r : Req) (piece : Nat × Nat × Nat) : State :=
  let (psa, len, pos) := piece
  let pseq := (s.region r.region).pseq + 1
  let data := if isAtomic r.op then r.data else (r.data.drop pos).take len
  let t := s.modRegion r.region fun g => { g with pseq := pseq }
  let marks := pieceMap r psa len pos
  let t := (t.opSwitch r.op psa len).applyPiece psa pseq data r.poison s.mirrors (!s.mirrors)
  let t := if r.poison then t else t.markSectors (markedIn psa len marks)
  let t := t.modReq id fun q => { q with todo := q.todo.drop 1, pseq := pseq, stage := .opened }
  if s.mirrors then
    let fwd := match r.src with | .forward tag _ => some tag | _ => none
    let p := t.send (.mirror {
      region := r.region, forwarded := fwd.isSome, atomic := isAtomic r.op
      tileSwitch := r.op == .tileSwitch, host := r.host, entryTag := fwd.getD 0, pseq := pseq
      psa := psa, data := data, reqId := r.reqId, result := r.result
      poison := marks })
    p.1.modReq id fun q => { q with msgs := q.msgs ++ [p.2] }
  else t

/-! ### Trying a write -/

/-- The 8 bytes at an address as a little-endian integer (R160). -/
def State.dword (s : State) (psa : Nat) : Nat := ofLe (s.bytesAt psa 8)

/-- Prepares an atomic when it is about to be sequenced: its result is the original value and its data
the new one (R160). -/
def State.atomicData (s : State) (r : Req) : Req :=
  let a := (r.segs.headD (0, 8)).1
  let old := s.dword a
  match r.op with
  | .fetchAdd => { r with result := old, data := leBytes 8 ((old + r.arg) % 2 ^ 64) }
  | .compareSwap => { r with result := old, data := leBytes 8 (if old = r.cmp then r.arg else old) }
  | _ => r

/-- Whether any sector of a request carries the poison marking. -/
def State.poisonedReq (s : State) (r : Req) : Bool :=
  r.segs.any fun p => (sectorsOf p.1 p.2).any fun n => (s.sector n).poison

/-- Sequences the pieces that are ready, in order, stopping at the first that is not. -/
def State.seqPieces (s : State) (id : Nat) : Nat → State
  | 0 => s
  | n + 1 => match s.reqs.get? id with
    | none => s
    | some r => match r.todo with
      | [] => s
      | pc :: _ =>
        let p := s.opReady r.op pc.1 pc.2.1 true false
        if p.2 = false then p.1 else
        if isAtomic r.op then
          if p.1.poisonedReq r then p.1.endReq id .poisoned else
          let r' := p.1.atomicData r
          let t := p.1.modReq id fun _ => r'
          (t.sequence id r' pc).winSet r.region r.host r.reqId true r'.result true
        else ((p.1.sequence id r pc).winSet r.region r.host r.reqId false 0 true).seqPieces id n

/-- A write whose pieces are all sequenced and acknowledged has committed: it ends, and its request ID
is no longer open (R20, R474). -/
def State.writeDone (s : State) (id : Nat) : State :=
  match s.reqs.get? id with
  | none => s
  | some r =>
    if isWrite r.op && r.stage == .opened && r.todo.isEmpty && r.msgs.isEmpty then
      (s.winSet r.region r.host r.reqId (isAtomic r.op) r.result false).endReq id (.written r.result)
    else s

/-- Counts, once per request, the lines that are present when it first reaches the HLC, and marks them used; a read counts
the lines that eviction buffers hold as well (R285, R295, R313). -/
def State.lookOnce (s : State) (id : Nat) : State :=
  match s.reqs.get? id with
  | none => s
  | some r =>
  if r.looked then s else
  let here := (reqLines r).filterMap fun l => match s.line? (l / 16) (l % 16) with
    | some (k, w) => if w.state == .filling then none else some k
    | none => none
  let buffered := (reqLines r).filter fun l => (s.line? (l / 16) (l % 16)).isNone && s.inEvb (l / 16) (l % 16)
  let t := (s.countBy Reg.hlcCount here.length).countBy (Reg.hlcCount + 8) (if isWrite r.op then 0 else buffered.length)
  (here.foldl State.touchWay t).modReq id fun q => { q with looked := true }

/-- Heats a request's tiles once. -/
def State.heatOnce (s : State) (id : Nat) : State :=
  match s.reqs.get? id with
  | none => s
  | some r => if r.heated then s else (s.heatReq r).modReq id fun q => { q with heated := true }

/-- Sends a waiting write to the owner; an entry keeps its tracker entry, its buffer goes (R452). -/
def State.forwardReq (s : State) (id : Nat) (r : Req) : State :=
  let t := (s.send (.forward {
    tag := id, op := r.op, host := r.host, region := r.region, off := r.off
    psa := (r.segs.headD (0, 0)).1, len := r.len, data := r.data, poison := r.poison
    arg := r.arg, cmp := r.cmp, reqId := r.reqId, map := r.map })).1
  let t := match r.buf with | some b => t.freeBuf b | none => t
  t.modReq id fun q => { q with stage := .forwarded, buf := none, done := 0 }

/-- Whether a request is a write of the Legacy Aperture. -/
def onLap (r : Req) : Bool := match r.src with
  | .lap .. => true
  | _ => false

/-- Tries a waiting write, atomic or transfer write: forwarded where the peer owns the region, a repeat
answered from the window, otherwise sequenced as its tiles and lines become ready; a region being handed over
starts none but staged aperture writes, and finishes those begun (R20–R23, R452, R454, R455, R474, R680). -/
def State.tryWrite (s : State) (id : Nat) (r : Req) : State :=
  let g := s.region r.region
  match g.ensign with
  | .handing => if r.stage == .opened || onLap r then (s.seqPieces id (r.todo.length + 1)).writeDone id else s
  | .taking => s
  | .peerOwns => if s.paired && r.stage == .waiting then s.forwardReq id r else s
  | .owner =>
    match (if r.stage == .waiting then s.winHit r.region r.host r.reqId else none) with
    | some w =>
      if w.opened then s
      else (s.endReq id (.written w.result)).countBy (Reg.rdxCount + 4 * 4) (match r.src with | .rdma .. => 1 | _ => 0)
    | none =>
      let m := s.mapReady id
      if m.2 = false then m.1 else
      (((m.1.heatOnce id).lookOnce id).seqPieces id (r.todo.length + 1)).writeDone id

/-! ### Trying a mirror apply (R451) -/

/-- A forwarded write's pieces reach their apply on the entry twin, which then completes it (R452). -/
def State.entryApplied (s : State) (tag n result : Nat) : State :=
  match s.reqs.get? tag with
  | none => s
  | some q =>
    if q.stage == .forwarded && isWrite q.op then
      if q.len ≤ q.done + n then (s.modReq tag fun x => { x with result := result }).endReq tag (.written result)
      else s.modReq tag fun x => { x with done := x.done + n }
    else s

/-- Tries a MIRROR: applied in PSEQ order once its tiles and lines are ready; one already applied is
acknowledged and not applied again (R451, R255). -/
def State.tryMirror (s : State) (id msg : Nat) (r : Req) : State :=
  let g := s.region r.region
  if r.pseq ≤ g.pseq then ({ s with reqs := s.reqs.erase id }).ackMsg msg
  else if r.pseq ≠ g.pseq + 1 then s
  else match r.todo with
    | [] => s
    | pc :: _ =>
      let m := s.mapReady id
      if m.2 = false then m.1 else
      let t := (m.1.heatOnce id).lookOnce id
      let p := t.opReady r.op pc.1 pc.2.1 false true
      if p.2 = false then p.1 else
      let t := p.1.modRegion r.region fun x => { x with pseq := r.pseq }
      let t := (t.opSwitch r.op pc.1 pc.2.1).applyPiece pc.1 r.pseq r.data false false false
      let t := t.markSectors (markedIn pc.1 pc.2.1 r.map)
      let t := t.winSet r.region r.host r.reqId (r.cmp == 1) r.result false
      let t := ({ t with reqs := t.reqs.erase id }).ackMsg msg
      if r.silent then t else t.entryApplied r.arg pc.2.1 r.result

/-! ### Trying a read -/

/-- The flash slices (tile × 8 + slice) that a piece reads (R253). -/
def slicesOf (psa len : Nat) : List Nat :=
  if len = 0 then [] else (List.range ((psa + len - 1) / 512 + 1 - psa / 512)).map (· + psa / 512)

/-- Whether any sector of a range is known uncorrectable on this twin (R322, R374). -/
def State.badIn (s : State) (psa len : Nat) : Bool := (sectorsOf psa len).any fun n => (s.sector n).bad

/-- Whether a line can be read: held in the HLC or a buffer, already read from its frame without allocating (then
the request holds it), being so read, or being filled (R27, R289, R291, R292, R295). -/
def State.lineForRead (s : State) (r : Req) (line : Nat) : State × Bool :=
  let tile := line / 16
  let l := line % 16
  if s.hlc.heldSets.contains (hlcSet tile l) then (s, false) else
  match s.line? tile l with
  | some (_, w) => (s, w.state != .filling)
  | none =>
    if s.inEvb tile l || r.lines.contains line then (s, true)
    else if (s.tile tile).lock || !s.readAlloc (s.frameClass tile) then
      ((if s.hlc.direct.contains line then s
        else { s with hlc := { s.hlc with direct := insertNew s.hlc.direct line } }.count (Reg.hlcCount + 4)), false)
    else if s.fillsIn (hlcSlice tile) < 256 then
      match s.allocLine tile l .filling false with
      | .ok t => (t.count (Reg.hlcCount + 4), false)
      | .wait t => (t, false)
    else (s, false)

/-- Whether a tile is unusable on this twin for a read of a range: FAILED, under repair, or with an uncorrectable
sector in it (R27, R265). -/
def State.unusable (s : State) (tile psa len : Nat) : Bool :=
  (s.tile tile).home == .failed || s.badIn psa len
    || (match s.moves.get? tile with | some m => m.kind == .repair | none => false)

/-- Whether one piece within a tile can be read here (R27, R249, R253): zeros, DRAM through the HLC, or
flash once the slices have been decoded. -/
def State.tileForRead (s : State) (r : Req) (tile psa len : Nat) : State × Bool :=
  if s.mapHit tile = false then (s.mapFill tile, false) else
  let e := s.tile tile
  let kind := (s.moves.get? tile).map fun m => m.kind
  if e.lock && (kind == some .promote || kind == some .repair) then (s, false)
  else if e.home == .failed || s.badIn psa len then (s.repairTile tile, false)
  else match e.home with
    | .zero => (s, true)
    | .dram => allReady (fun u l => u.lineForRead r l) s (linesOf psa len)
    | .hlcOverDram => allReady (fun u l => u.lineForRead r l) s (linesOf psa len)
    | _ =>
      let need := (slicesOf psa len).filter fun x => !r.got.contains x
      (if need.isEmpty then s else { s with fmc := { s.fmc with reads := need.foldl insertNew s.fmc.reads } }, need.isEmpty)

/-- The part of a piece that lies in one tile. -/
def partIn (psa len tile : Nat) : Nat × Nat :=
  let a := max psa (tile * 4096)
  (a, min (psa + len) (tile * 4096 + 4096) - a)

/-- The pieces of a write that this twin's copy does not hold yet: those not sequenced here, or of a forwarded one
those whose apply has not come back. -/
def unapplied (w : Req) : List (Nat × Nat × Nat) :=
  w.todo.filter fun p => w.stage != .forwarded || decide (w.done < p.2.2 + p.2.1)

/-- The completed writes of the same LD or QP that came before a read and that this twin's copy does not hold whole,
in order (R30, R158). -/
def State.ownStaged (s : State) (id : Nat) (r : Req) : List Req :=
  (s.reqs.filter fun e => isWrite e.2.op && e.2.acked && sameOwner r e.2 && decide (e.1 < id)).map Prod.snd

/-- Puts the owner's completed staged writes over contents (R30, R158). -/
def overlay (l : List Req) (m : List Host.Cell) : List Host.Cell :=
  l.foldl (fun mem w => (unapplied w).foldl (fun mm p => memPutBytes mm p.1 ((w.data.drop p.2.2).take p.2.1)) mem) m

/-- The poison marking of a sector under the owner's completed staged writes (R30, R101). -/
def overlayPoison (l : List Req) (sec : Nat) (b : Bool) : Bool :=
  l.foldl (fun a w => (unapplied w).foldl (fun c p =>
    if overlaps p.1 p.2.1 (sec * 64) 64 then w.poison || (c && !coversSector p.1 p.2.1 sec) else c) a) b

/-- The bytes of a request's pieces in given contents. -/
def segBytes (segs : List (Nat × Nat)) (m : List Host.Cell) : List Byte := segs.flatMap fun p => memGetBytes m p.1 p.2

/-- Contents with given data in a request's pieces. -/
def putSegs (m : List Host.Cell) : List (Nat × Nat) → List Byte → List Host.Cell
  | [], _ => m
  | p :: t, d => putSegs (memPutBytes m p.1 (d.take p.2)) t (d.drop p.2)

/-- The sectors that a request's pieces touch. -/
def segSectors (segs : List (Nat × Nat)) : List Nat := segs.flatMap fun p => sectorsOf p.1 p.2

/-- The data of a read: this twin's copy, over it the same owner's completed staged writes in order
(R30). -/
def State.readBytes (s : State) (id : Nat) (r : Req) : List Byte :=
  segBytes r.segs (overlay (s.ownStaged id r) s.mem)

/-- The poison flags of a read, one per sector touched. -/
def State.readPoison (s : State) (id : Nat) (r : Req) : List Bool :=
  (segSectors r.segs).map fun n => overlayPoison (s.ownStaged id r) n (s.sector n).poison

/-- The data of a read that the peer has answered, over it the same owner's completed staged writes (R30). -/
def State.peerBytes (s : State) (id : Nat) (r : Req) : List Byte :=
  segBytes r.segs (overlay (s.ownStaged id r) (putSegs s.mem r.segs r.data))

/-- The poison flags of a read that the peer has answered. -/
def State.peerPoison (s : State) (id : Nat) (r : Req) : List Bool :=
  ((segSectors r.segs).zip r.map).map fun p => overlayPoison (s.ownStaged id r) p.1 p.2

/-- The place of byte `d` of a request in persistent space, and how much of its piece is left. -/
def segAt : List (Nat × Nat) → Nat → Nat × Nat
  | [], _ => (0, 0)
  | (psa, len) :: t, d => if d < len then (psa + d, len - d) else segAt t (d - len)

/-- Sends the next piece, at most 64 KiB and within one granule, of a read that the peer answers (R27, R453); it ends
on a persist unit. -/
def State.forwardRead (s : State) (id : Nat) (r : Req) : State :=
  let p := segAt r.segs r.done
  (s.post (.readReq id r.region (r.off + r.done) p.1 (min p.2 (65536 - p.1 % 256)))).modReq id fun q =>
    { q with stage := .forwarded }

/-- Whether a read meets a tile that is unusable on this twin (R27). -/
def State.meetsFailed (s : State) (r : Req) : Bool :=
  r.segs.any fun g => (tilesOf g.1 g.2).any fun x => let w := partIn g.1 g.2 x; s.unusable x w.1 w.2

/-- Starts the repair of every unusable tile that a read meets (R265). -/
def State.repairMet (s : State) (r : Req) : State :=
  r.segs.foldl (fun t g => (tilesOf g.1 g.2).foldl (fun u x =>
    let w := partIn g.1 g.2 x
    if u.unusable x w.1 w.2 && (u.moves.get? x).isNone then u.repairTile x else u) t) s

/-- Tries a waiting read (R27–R30, R161, R164). One in a region that is being resynchronised here, or of a tile that
is unusable here, is answered by the peer while it answers; the tile's repair starts beside it. One that only the
peer could answer, with the peer gone, is answered as an uncorrectable one (R266, R453). -/
def State.tryRead (s : State) (id : Nat) (r : Req) : State :=
  if (s.reqs.any fun e => blocksRead id r e.1 e.2 || blocksOrder id r e.1 e.2) then s
  else if (s.region r.region).state == .resync then
    (if s.peerAnswers then s.forwardRead id r
     else s.endReq id (.data ((List.range r.len).map fun _ => 0) ((segSectors r.segs).map fun _ => true)))
  else
    let m := s.mapReady id
    if m.2 = false then m.1
    else if entryHere r && m.1.peerAnswers && m.1.meetsFailed r then (m.1.repairMet r).forwardRead id r
    else
    let t := (m.1.heatOnce id).lookOnce id
    let p := r.segs.foldl (fun (a : State × Bool) seg =>
      let q := allReady (fun u x => let w := partIn seg.1 seg.2 x; u.tileForRead r x w.1 w.2) a.1 (tilesOf seg.1 seg.2)
      (q.1, a.2 && q.2)) (t, true)
    if p.2 then (p.1.endReq id (.data (p.1.readBytes id r) (p.1.readPoison id r))).promoteHot r
    else if r.heated then p.1 else p.1.promoteHot r

/-- Whether a write waits for a promotion of a tile, or for one that may not start (R258). -/
def State.waitsPromo (s : State) (tile : Nat) : Bool :=
  (match s.moves.get? tile with
    | some m => m.kind == .promote
    | none => !inDram (s.tile tile).home)
  && s.reqs.vals.any fun r => isWrite r.op && !r.todo.isEmpty && r.stage != .forwarded && (reqTiles r).contains tile

/-- Tries one request. -/
def State.tryReq (s : State) (id : Nat) : State :=
  match s.reqs.get? id with
  | none => s
  | some r =>
    match r.stage with
    | .forwarded => s
    | .held => s
    | .flash => s
    | _ =>
      match r.src with
      | .mirror msg => s.tryMirror id msg r
      | _ =>
        if isWrite r.op then
          if r.stage == .waiting && (s.reqs.any fun e => blocksOrder id r e.1 e.2) then s else s.tryWrite id r
        else s.tryRead id r

/-- Tries every request once, in tracker order. -/
def State.tryAll (s : State) : State := s.reqs.keys.foldl State.tryReq s

/-- Takes a request into the tracker (R48, step "admission"); answers its tracker number. -/
def State.enter (s : State) (r : Req) : State × Nat :=
  ({ s with reqs := s.reqs.set s.reqSeq { r with todo := if isWrite r.op then piecesOf (pieceMax r.op) r.segs 0 else [] }
            reqSeq := s.reqSeq + 1 }, s.reqSeq)

end Sys2Proof.Machine
end

