-- ==== Sys2Proof/Machine/Repair.lean ====
section
/-! DEFINITION. Repairs of a tile from the peer's copy or the save image, and lost sectors (R265, R266,
R654, R656). -/

namespace Sys2Proof.Machine

/-- A slot of an IMAGE stripe block that still holds a tile's save image, before this twin has admitted
its regions (R386, R654). -/
def State.imageSlot (s : State) (tile : Nat) : Bool :=
  !s.admitted && s.fmc.slots.any fun e => e.2 == tile && (s.sb (locSet e.1) (s.locBlock e.1)).state == .image

/-- Marks sectors of a tile uncorrectable on this twin (R322, R374). -/
def State.markBad (s : State) (secs : List Nat) : State :=
  secs.foldl (fun t n => t.setSector n { t.sector n with bad := true }) s

/-- Takes the uncorrectable mark off sectors whose data has been recomputed. -/
def State.clearBad (s : State) (secs : List Nat) : State :=
  secs.foldl (fun t n => t.setSector n { t.sector n with bad := false }) s

/-- Maximal runs of consecutive sector numbers. -/
def runsOf : List Nat → List (Nat × Nat)
  | [] => []
  | n :: t => match runsOf t with
    | (a, k) :: r => if a = n + 1 then (n, k + 1) :: r else (n, 1) :: (a, k) :: r
    | [] => [(n, 1)]

/-- The owner sequences one poison write over a run of lost sectors: zero data with the marking, applied
and mirrored like any write (R266 step 4). One persist sequence per run (DEDUCED, log 17). -/
def State.poisonRun (s : State) (region off : Nat) (run : Nat × Nat) : State :=
  let len := run.2 * 64
  let r : Req := { src := .internal, op := .poisonWrite, host := 0xFFFF, region := region, off := off, len := len
                   segs := [(run.1 * 64, len)], data := (List.range len).map (fun _ => 0), poison := true }
  let p := s.enter r
  ((p.1.sequence p.2 r (run.1 * 64, len, 0))).writeDone p.2

/-- What the loss of sectors of a tile does: record 0x0803, TILE_LOST, the counts, and where this twin is
the owner the poison write over exactly those sectors; one poison-list entry of source Internal (R266). -/
def State.loseSectors (s : State) (tile : Nat) (secs : List Nat) : State :=
  if secs.isEmpty then s else
  let t := ((s.count (Reg.plcCount + 0x18)).err1 8 .lost).flagRecord Reg.plcEvent 6 0x0803
    ((s.regionOfTile tile).getD 0) tile
  let t := match s.regionOfPsa (tile * 4096) with
    | some (region, _) =>
      if (s.region region).ensign = Ensign.owner then
        (runsOf secs).foldl (fun (u : State) (run : Nat × Nat) => u.poisonRun region
          (((s.regionOfPsa (run.1 * 64)).map Prod.snd).getD 0) run) t
      else t
    | none => t
  t.poisonAdd secs 2

/-- The sectors of a tile that this twin still lacks a good copy of. -/
def State.badSectors (s : State) (tile : Nat) : List Nat := (tileSectors tile).filter fun n => (s.sector n).bad

/-- Merges the peer's copy into the sectors that no open write has filled (R265 step 6): a sector that
the reply carries good takes its data and metadata, one that it carries uncorrectable stays bad. -/
def State.mergeTile (s : State) (tile : Nat) (valid : List Nat) (data : List Byte) (info : List SectorInfo) : State :=
  ((tileSectors tile).zip info).foldl (fun t e =>
    if valid.contains e.1 then t
    else if e.2.bad then t.markBad [e.1]
    else
      let i := e.1 - tile * 64
      ({ t with mem := memPutBytes t.mem (e.1 * 64) (sliceBytes data (i * 64) 64) }).setSector e.1 e.2) s

/-- A tile's repair has ended for the commands that joined it: a PIN counts a tile whose repair failed
(R267). -/
def State.pinAfter (s : State) (tile : Nat) (m : Move) (lost : Bool) : State :=
  if lost then s.joinEnd m.cmds m.peers tile true (!m.pin) else s.moveJoined tile m

/-- Ends a repair that has its frame: sectors filled by open writes are good, the entry switches to DRAM,
and what is still bad is lost (R265 step 7, R266). -/
def State.endRepair (s : State) (tile : Nat) (m : Move) (frame : Nat) : State :=
  let t := s.clearBad m.valid
  let t := { t.switchDram tile frame with moves := t.moves.erase tile }
  let lost := t.badSectors tile
  let t := (t.err1 8 .repaired).loseSectors tile lost
  (t.pinAfter tile m (!lost.isEmpty)).nextSlot (engineOf tile)

/-- Goes on with a repair whose tile data is final: switched when it has a frame, programmed to flash
when the ledger refused one (R265). -/
def State.repairReady (s : State) (tile : Nat) (m : Move) : State :=
  match m.frame with
  | some f => s.endRepair tile m f
  | none => if m.toFlash && m.stage != .program then (s.clearBad m.valid).moveProgram tile { m with kind := .relocate } else s

/-- Whether a repair's data is final: the reply has been merged, or no peer can answer (R265, R266). -/
def State.repairFinal (s : State) (m : Move) : Bool :=
  m.kind == .repair && (m.late || !s.peerAnswers) && (m.frame.isSome || (m.toFlash && m.stage == .pull))

/-- Goes on with every repair whose data is final. -/
def State.finishRepairs (s : State) : State :=
  (s.moves.filter fun e => s.repairFinal e.2).foldl (fun t e => match t.moves.get? e.1 with
    | some m => if t.repairFinal m then t.repairReady e.1 m else t
    | none => t) s

/-- Gives free entries of the refetch table to the repairs that wait for one, in order (R265). -/
def State.refetchServe (s : State) : State :=
  if s.plc.refetchWait.isEmpty || decide (256 ≤ s.refetchUsed) then s
  else (s.plc.refetchWait.take (256 - s.refetchUsed)).foldl State.repairTile
    { s with plc := { s.plc with refetchWait := s.plc.refetchWait.drop (256 - s.refetchUsed) } }

/-- An uncorrectable read of sectors of a tile in DRAM or flash on this twin: its own save image serves
while restore has not ended (R654), otherwise the tile is repaired from the peer (R265). -/
def State.badRead (s : State) (tile : Nat) (secs : List Nat) (retire : Bool) : State :=
  if s.imageSlot tile then (s.clearBad secs).err1 8 .repaired
  else
    let t := s.markBad secs
    t.startRepair tile (t.openSectors tile) retire

end Sys2Proof.Machine
end

