-- ==== Sys2Proof/Machine/Copies.lean ====
section
/-! DEFINITION. Copies of tiles that cross the Shaum Link: answering the peer's pull of a tile (R265), and
taking a tile of a resynchronisation (R477). -/

namespace Sys2Proof.Machine

/-- Whether a MIRROR of a tile is unacknowledged on the owner (R265, R294). -/
def State.mirrorOpen (s : State) (tile : Nat) : Bool :=
  s.twn.tx.vals.any fun x => match x.msg with
    | .mirror m => overlaps m.psa m.data.length (tile * 4096) 4096
    | _ => false

/-- Whether a MIRROR of a tile has begun to arrive and is not yet applied (R265). -/
def State.mirrorComing (s : State) (tile : Nat) : Bool :=
  (s.twn.asm.vals.any fun a => match a.msg with
    | .mirror m => overlaps m.psa m.data.length (tile * 4096) 4096
    | _ => false)
  || (s.reqs.vals.any fun r => (match r.src with | .mirror _ => true | _ => false) && (reqTiles r).contains tile)

/-- Whether this twin owns the region of a tile. -/
def State.ownsTile (s : State) (tile : Nat) : Bool := match s.regionOfTile tile with
  | some id => (s.region id).ensign == .owner || (s.region id).ensign == .handing
  | none => false

/-- Whether a write to a tile is open here, which a pull waits for (R265 step 5). -/
def State.tileOpen (s : State) (tile : Nat) : Bool :=
  if s.ownsTile tile then s.mirrorOpen tile else s.mirrorComing tile

/-- As the owner whose own copy lacks sectors that the peer has asked for: poison writes over exactly those,
mirrored to the peer, and one poison-list entry of source Internal (R266). -/
def State.poisonOwn (s : State) (tile : Nat) : State :=
  let lost := s.badSectors tile
  if lost.isEmpty || !s.ownsTile tile then s else
  let t := (runsOf lost).foldl (fun (u : State) (run : Nat × Nat) => match u.regionOfPsa (run.1 * 64) with
    | some p => u.poisonRun p.1 p.2 run
    | none => u) s
  t.poisonAdd lost 2

/-- Answers a pull with the whole tile from whatever home holds it (R265 step 5). -/
def State.answerPull (s : State) (tile : Nat) : State :=
  let p := s.send (.tileData tile (s.bytesAt (tile * 4096) 4096) (s.tileInfo tile) false)
  let t := { p.1 with twn := { p.1.twn with
    pulls := p.1.twn.pulls.filter (· != tile)
    pulled := p.1.twn.pulled.set p.2 tile } }
  t.poisonOwn tile

/-- Answers the pulls whose tile has no open write. -/
def State.pullPoll (s : State) : State :=
  s.twn.pulls.foldl (fun (t : State) x => if t.tileOpen x then t else t.answerPull x) s

/-- Merges a tile of a resynchronisation, keeping every sector that a mirror apply has written, and
acknowledges its message (R477 step 4). -/
def State.mergeIn (s : State) (seq : Nat) (x : TileIn) : State :=
  let t := s.mergeTile x.tile (s.twn.written.getD x.tile []) x.data x.sectors
  let t := t.modTile x.tile fun e => { e with syncDirty := false }
  ({ t with twn := { t.twn with tilesIn := t.twn.tilesIn.erase seq } }).ackMsg seq

/-- Takes the tiles of a resynchronisation that are ready: in DRAM, like a mirror apply's (R255, R477). -/
def State.tilePoll (s : State) : State :=
  s.twn.tilesIn.foldl (fun (t : State) e =>
    let p := t.tileForWrite e.2.tile false true
    if p.2 then p.1.mergeIn e.1 e.2 else p.1) s

/-- Goes on with the copies that wait. -/
def State.copyPoll (s : State) : State := s.pullPoll.tilePoll

end Sys2Proof.Machine
end

