-- ==== Sys2Proof/Machine/Back.lean ====
section
/-! DEFINITION. Back-pressure: trackers, staging, withheld credits, DevLoad, RNR NAKs and paused fetch
(R93, R94, R96, R171, R201, R258, R412). -/

namespace Sys2Proof.Machine

/-- The CXL block's register base of a port: CXA or CXB (R109). -/
def cxBase (port : Nat) : Nat := 0x40000 * port

/-- The offset of a per-LD register of host ID `ld` (0–31) (R109). -/
def ldReg (r ld : Nat) : Nat := r + cxBase (ld / 16) + 0x40 * (ld % 16)

/-- Whether a request came through an LD of a port. -/
def onPort (port : Nat) (r : Req) : Bool :=
  match r.src with
  | .cxl ld _ => ld / 16 == port
  | _ => false

/-- Requests of a port in its tracker (R93): a write leaves it with its completion. -/
def State.trackUsed (s : State) (port : Nat) : Nat := s.reqs.count fun r => onPort port r && !r.acked

/-- The tracker limit of a port (R93, R115). -/
def State.trackLimit (s : State) (port : Nat) : Nat := s.fld (Reg.cxTrackLimit + cxBase port) 12 0

/-- Lines of 64 bytes in a port's write staging (R96, R117). -/
def State.stageUsed (s : State) (port : Nat) : Nat :=
  ((s.reqs.filter fun e => onPort port e.2 && e.2.acked).map fun e => ceilDiv e.2.len 64).foldl (· + ·) 0

/-- Whether a port's complete-then-mirror staging is full (R96). -/
def State.stageFull (s : State) (port : Nat) : Bool :=
  decide (s.fld (Reg.cxStageLimit + cxBase port) 15 0 ≤ s.stageUsed port)

/-- Whether the back-pressure of a promotion wait is in force (R258). -/
def State.promoBack (s : State) : Bool := !s.plc.waitOver.isEmpty

/-- Whether new writes are back-pressured: by the ledger (R412, R413) or by a promotion wait (R258). -/
def State.writesHeld (s : State) : Bool := s.ledgerThrottles || s.promoBack

/-- Credits that a port's LDs hold and have not used: each will be a request in its tracker (R93). -/
def State.creditsOut (s : State) (port : Nat) : Nat :=
  ((s.lds.filter fun e => e.1 / 16 == port).map fun e => b2n e.2.rd + b2n e.2.wr).sum

/-- Whether a port withholds read credits (R93). -/
def State.readCreditsHeld (s : State) (port : Nat) : Bool :=
  decide (s.trackLimit port ≤ s.trackUsed port + s.creditsOut port) || decide (3 ≤ s.poolLevel)

/-- Whether a port withholds write credits (R93). -/
def State.writeCreditsHeld (s : State) (port : Nat) : Bool :=
  s.readCreditsHeld port || s.stageFull port || s.writesHeld

/-- Grants an LD that a host reaches the credits that nothing withholds: one for a read and one for a write (R93; one of
each is the MODEL's choice, log 104). -/
def State.grantLd (s : State) (ld : Nat) : State :=
  let l := s.lds.getD ld {}
  if (match l.state with | .bound => false | .active => false | _ => true) then s else
  let t := if s.readCreditsHeld (ld / 16) then s else { s with lds := s.lds.modify ld fun x => { x with rd := true } }
  if t.writeCreditsHeld (ld / 16) then t else { t with lds := t.lds.modify ld fun x => { x with wr := true } }

/-- Grants every LD its credits. -/
def State.grantCredits (s : State) : State := s.lds.keys.foldl State.grantLd s

/-- Whether an LD's host holds a credit, or is granted one at once because nothing withholds it (R93). -/
def State.hasCredit (s : State) (ld : Nat) (write : Bool) : Bool :=
  let l := s.lds.getD ld {}
  if write then l.wr || !s.writeCreditsHeld (ld / 16) else l.rd || !s.readCreditsHeld (ld / 16)

/-- The request that a credit was granted for takes it (R93). -/
def State.useCredit (s : State) (ld : Nat) (write : Bool) : State :=
  { s with lds := s.lds.modify ld fun x => if write then { x with wr := false } else { x with rd := false } }

/-- The DevLoad of a port's responses: 0 light, 1 optimal, 2 moderate, 3 severe (R94). -/
def State.devLoad (s : State) (port : Nat) : Nat :=
  if s.writeCreditsHeld port then 3
  else if s.trackLimit port * 3 < s.trackUsed port * 4 ∨ 1 ≤ s.poolLevel then 2
  else if s.trackLimit port ≤ s.trackUsed port * 4 then 1
  else 0

/-- Lines that a request accesses. -/
def lineCount (r : Req) : Nat := (r.segs.map fun p => (p.1 + p.2 + 255) / 256 - p.1 / 256).sum

/-- Outstanding RDMA line accesses: the 256-byte lines of the requests in the RDMA tracker (R169, R183; that a line is the
HLC's is a DESIGN CHOICE, log 109). -/
def State.rdmaTracked (s : State) : Nat :=
  ((s.reqs.vals.filter fun r => (match r.src with | .rdma .. => true | _ => false) && !r.acked).map lineCount).sum

/-- Whether the RDMA tracker is full (R169, R183). -/
def State.rdmaFull (s : State) : Bool := decide (s.fld Reg.rdxTrackLimit 13 0 ≤ s.rdmaTracked)

/-- Whether a new RDMA request gets an RNR NAK (R169, R171, R258, R412). -/
def State.rnrNow (s : State) (write : Bool) : Bool :=
  s.rdmaFull || decide (2 ≤ s.poolLevel) || (write && s.writesHeld)

/-- PAUSE_CAUSE of fetch: bit 0 buffer pool, 1 ledger, 2 FETCH_EN 0, 3 promotion wait (R201, R230). -/
def State.pauseCause (s : State) : Nat :=
  b2n (decide (2 ≤ s.poolLevel)) + 2 * b2n s.ledgerThrottles + 4 * b2n (!s.bit Reg.tqmCtl 0) + 8 * b2n s.promoBack

end Sys2Proof.Machine
end

