-- ==== Sys2Proof/Machine/Dram.lean ====
section
/-! DEFINITION. DRAM channels: where a line lies, the requests in a channel's queues, the order in which it
issues them, and what a bad read does (R318, R319, R322–R334, R341, R360). -/

namespace Sys2Proof.Machine

/-- The window of channel `n` (R58). -/
def chOff (r n : Nat) : Nat := r + 0x4000 * n

/-- A DRAM channel. -/
def State.chan (s : State) (n : Nat) : Chan := s.chans.getD n {}

/-- Changes a DRAM channel. -/
def State.modChan (s : State) (n : Nat) (f : Chan → Chan) : State := { s with chans := s.chans.upd n {} f }

/-- The channel of a line of a frame: DA[11:8] XOR DA[15:12] (R318). -/
def chOfLine (frame line : Nat) : Nat := (line % 16) ^^^ (frame % 16)

/-- CA[37:6] of a sector of a frame: the line's channel address and the sector within it (R318, R360). -/
def caOf (frame i : Nat) : Nat := frame * 4 + i

/-- The channel of a tile's line, where the tile is homed in DRAM. -/
def State.chanOf (s : State) (tile line : Nat) : Nat := chOfLine (s.tile tile).loc line

/-- The ranks of a channel, over its DIMMs (R319, R350). -/
def State.rankCount (s : State) : Nat := max 1 (s.fld Reg.dmcConfig 15 12) * max 1 (s.fld Reg.dmcConfig 9 8)

/-- The rank of a channel address, with its DIMM above it (R319). -/
def State.rankOf (s : State) (ca : Nat) : Nat := ca / 2 ^ 19 % s.rankCount

/-- The bank of a channel address: bank group, bank, and above them rank and DIMM (R319). -/
def State.bankOf (s : State) (ca : Nat) : Nat :=
  (bitsOf ca 16 14 ^^^ bitsOf ca 26 24) + 8 * bitsOf ca 18 17 + 32 * s.rankOf ca

/-- The row of a channel address (R319). -/
def State.rowOf (s : State) (ca : Nat) : Nat := ca / 2 ^ 19 / s.rankCount

/-- The tiles of a region, of those listed, in order. -/
def State.tilesIn (s : State) (id : Nat) (l : List Nat) : List Nat := l.filter fun x => s.regionOfTile x == some id

/-- DRAM-homed tiles with SYNC_DIRTY, in frame order: phase 5 (R416). -/
def State.dirtyTiles (s : State) : List Nat :=
  (s.frames.vals.filter fun f => inDram (s.tile f.tile).home && (s.tile f.tile).syncDirty).map fun f => f.tile

/-- Every other DRAM-homed tile, region by region in ascending number and in map order: phase 6 (R416). -/
def State.otherTiles (s : State) : List Nat :=
  let l := (s.tiles.filter fun e => inDram e.2.home && !e.2.syncDirty).map Prod.fst
  s.regions.keys.flatMap fun id => s.tilesIn id l

/-- The tiles that the running phase of a save still has to write. -/
def State.tilesLeft (s : State) (g : Sage) : List Nat :=
  let l := if g.phase = 5 then s.dirtyTiles else if g.phase = 6 then s.otherTiles else []
  l.filter fun x => !(g.saved.any fun p => p.1 == x)

/-! ### The requests of a channel (R324) -/

/-- A request for a tile's line of a frame. -/
def State.reqFor (s : State) (port cls tile line frame : Nat) (write : Bool) : DReq :=
  { port := port, cls := cls, line := tile * 16 + line, write := write, since := s.time, ca := frame * 256 }

/-- HLC fills and reads that do not allocate (port 0), write-backs and eviction buffers (port 2) of a channel, which have
no answer yet (R324). -/
def State.hlcReqs (s : State) (n : Nat) : List DReq :=
  (s.hlc.ways.vals.filterMap fun w =>
    if s.chanOf w.tile w.line != n then none else
    match w.state with
    | .filling => some (s.reqFor 0 w.cls w.tile w.line (s.tile w.tile).loc false)
    | .writingBack => some (s.reqFor 2 w.cls w.tile w.line (s.tile w.tile).loc true)
    | _ => none)
  ++ ((s.hlc.evb.filter fun e => s.chanOf e.tile e.line == n).map fun e =>
      s.reqFor 2 (s.frameClass e.tile) e.tile e.line (s.tile e.tile).loc true)
  ++ ((s.hlc.direct.filter fun l => s.chanOf (l / 16) (l % 16) == n).map fun l =>
      s.reqFor 0 (s.frameClass (l / 16)) (l / 16) (l % 16) (s.tile (l / 16)).loc false)

/-- Tile Map Cache fills (port 1): map line `m` lies at byte 64 × m of the map (R324). -/
def State.mapReqs (s : State) (n : Nat) : List DReq :=
  (s.plc.tmcFills.filter fun m => chOfLine (m / 64) (m / 4) == n).map fun m =>
    { port := 1, cls := 0, line := m, write := false, since := s.time, ca := m / 64 * 256 + m % 4 * 64 }

/-- The line that a move reads or writes on a channel (port 3): each frame has one line there (R318, R324). -/
def State.moveReqs (s : State) (n : Nat) : List DReq :=
  s.moves.filterMap fun e => match e.2.stage, e.2.kind with
    | .moving, .evict => some (s.reqFor 3 0 e.1 (chOfLine (s.tile e.1).loc n) (s.tile e.1).loc false)
    | .moving, _ => e.2.frame.map fun f => s.reqFor 3 0 e.1 (chOfLine f n) f true
    | _, _ => none

/-- Sage's reads of the next tile that it saves (port 4) (R324, R416). -/
def State.sageReqs (s : State) (n : Nat) : List DReq :=
  match s.elg.sage with
  | none => []
  | some g => ((s.tilesLeft g).take 1).map fun x => s.reqFor 4 0 x (chOfLine (s.tile x).loc n) (s.tile x).loc false

/-- The reads of a running scrub pass: the lines of the next four frames, in address order (port 5); that the engine has
four requests queued at a time is the model's choice (DESIGN CHOICE, log 122) (R324, R344). -/
def State.scrubReqs (s : State) (n : Nat) (c : Chan) : List DReq :=
  if s.bit Reg.dmcScrubCtl 31 = false ∨ (s.fld Reg.dmcScrubCtl 15 0).testBit n = false then [] else
  ((List.range 4).map fun i => s.reg64 Reg.dmcScrubStartLo % 2 ^ 42 / 4096 + c.scrubbed + i).filterMap fun f =>
    if f ≤ s.reg64 Reg.dmcScrubEndLo % 2 ^ 42 / 4096 then
      some { port := 5, cls := 0, line := f, write := false, since := s.time, ca := f * 256 } else none

/-- The copy of a chive entry that is being enabled (port 5): as a write of the line, it lets the requests queued before it
go to the old location first, and holds those that come after it (R340). -/
def State.copyReqs (s : State) (n : Nat) (c : Chan) : List DReq :=
  match c.copying with
  | some k =>
    let ca := (s.reg (chOff Reg.dmcChiveLo n + 8 * k)).toNat
    [{ port := 5, cls := 0, line := 2 ^ 40 + k, write := true, since := s.time, ca := ca * 64 }]
  | none => []

/-- Every request of a channel that has no answer yet (R324). -/
def State.asked (s : State) (n : Nat) (c : Chan) : List DReq :=
  s.hlcReqs n ++ s.mapReqs n ++ s.moveReqs n ++ s.sageReqs n ++ s.copyReqs n c ++ s.scrubReqs n c

/-- Whether two requests are the same one. -/
def DReq.same (a b : DReq) : Bool := a.port == b.port && a.line == b.line && a.write == b.write

/-- Entries of the read queue and of the write queue (R324). -/
def queueDepth : Nat := 64

/-- Appends a request where its queue has room (R324). -/
def enqueue (q : List DReq) (r : DReq) : List DReq :=
  if (q.filter fun x => x.write == r.write).length < queueDepth then q ++ [r] else q

/-- A channel's queues as they stand: answered requests have left, and new ones enter in the order in which they were
made; none enters while the queues drain for self-refresh (R324, R334). -/
def State.queued (s : State) (n : Nat) (c : Chan) : Chan :=
  let d := s.asked n c
  let live := fun (r : DReq) => d.any r.same
  let kept := c.queue.filter live
  let iss := c.issued.filter live
  let new := if c.sleep then [] else d.filter fun r => !(kept.any r.same) && !(iss.any r.same)
  { c with queue := new.foldl enqueue kept, issued := iss }

/-! ### Which request is next (R325–R330) -/

/-- The urgency of a request (R325, R351, R352). -/
def State.urgencyOf (s : State) (c : Chan) (r : DReq) : Nat :=
  let p := Reg.dmcPort0 + 4 * r.port
  let target := s.fld p 13 0 * 10
  let age := s.time - r.since
  let boost := if r.port = 0 ∨ r.port = 2 then s.fld Reg.dmcBoost (2 * r.cls + 1) (2 * r.cls) else 0
  if target ≤ age ∨ c.urgent.contains r.line = true then 7 else min 6 (s.fld p 15 14 + boost + 4 * age / target)

/-- Whether a request may not pass an earlier one: the same line, when either writes (R327); or, on a port with
IN_ORDER 1, the same row (R328). -/
def State.mustFollow (s : State) (e r : DReq) : Bool :=
  (e.ca / 256 == r.ca / 256 && (e.write || r.write))
  || (e.port == r.port && s.bit (Reg.dmcPort0 + 4 * r.port) 16
      && s.bankOf e.ca == s.bankOf r.ca && s.rowOf e.ca == s.rowOf r.ca)

/-- The requests of a queue that pass none which they must follow; `before` are those that came earlier. -/
def State.free (s : State) : List DReq → List DReq → List DReq
  | _, [] => []
  | before, r :: rest =>
    if before.any fun e => s.mustFollow e r then s.free (before ++ [r]) rest else r :: s.free (before ++ [r]) rest

/-- Whether a channel drains writes: it begins at WQ_HIGH writes, or with writes and no reads, and ends at
WQ_LOW or when a read reaches urgency 7 (R329). -/
def State.writeModeOf (s : State) (c : Chan) : Bool :=
  let w := (c.queue.filter fun r => r.write).length
  let r := (c.queue.filter fun r => !r.write).length
  if c.writeMode then (decide (s.fld Reg.dmcWq 7 0 < w) || (decide (0 < w) && r == 0))
    && !(c.queue.any fun r => !r.write && s.urgencyOf c r == 7)
  else decide (s.fld Reg.dmcWq 15 8 ≤ w) || (decide (0 < w) && r == 0)

/-- Whether a request hits the open row of its bank, within the hit cap (R326, R330). -/
def State.rowHit (s : State) (c : Chan) (r : DReq) : Bool :=
  let b := s.bankOf r.ca
  c.rows.get? b == some (s.rowOf r.ca)
    && (decide (c.hits.getD b 0 < s.fld Reg.dmcPage 13 8)
      || !(c.queue.any fun x => s.bankOf x.ca == b && s.rowOf x.ca != s.rowOf r.ca))

/-- The request of highest urgency, the oldest of several. -/
def State.mostUrgent (s : State) (c : Chan) (l : List DReq) : Option DReq :=
  l.foldl (fun a r => match a with
    | none => some r
    | some b => if s.urgencyOf c b < s.urgencyOf c r then some r else some b) none

/-- The request that a channel issues next: one of urgency 7, then a row hit, then any other (R326); from the queue that
R329 names, and from the other where none of it may go. A chive copy ends with a command of its own. -/
def State.nextReq (s : State) (c : Chan) : Option DReq :=
  let l := (s.free [] c.queue).filter fun r => r.line < 2 ^ 40
  let mine := l.filter fun r => r.write == s.writeModeOf c
  let l := if mine.isEmpty then l else mine
  match l.find? fun r => s.urgencyOf c r == 7 with
  | some r => some r
  | none => match s.mostUrgent c (l.filter (s.rowHit c)) with
    | some r => some r
    | none => s.mostUrgent c l

/-! ### Issuing a request -/

/-- Issues a number of refreshes of a rank (R331). -/
def State.refreshes (s : State) (n rank : Nat) : Nat → State
  | 0 => s
  | k + 1 => (s.emit (.dramCmd n 1 rank)).refreshes n rank k

/-- Whether requests of urgency 6 or 7 are queued on a rank (R331). -/
def State.rankUrgent (s : State) (c : Chan) (rank : Nat) : Bool :=
  c.queue.any fun r => s.rankOf r.ca == rank && decide (6 ≤ s.urgencyOf c r)

/-- The banks of a channel after a request: its row is open, unless the idle time is 0 (R330, R333). -/
def State.afterAccess (s : State) (c : Chan) (r : DReq) : Chan :=
  let b := s.bankOf r.ca
  let row := s.rowOf r.ca
  let hit := c.rows.get? b == some row
  let waits := c.queue.any fun x => s.bankOf x.ca == b && s.rowOf x.ca != row
  { c with
    queue := c.queue.filter fun x => !x.same r
    issued := if 3 ≤ r.port then c.issued ++ [r] else c.issued
    urgent := c.urgent.filter (· != r.line)
    late := c.late.filter (· != r.line)
    writeMode := s.writeModeOf c
    acts := if hit then c.acts else c.acts.upd b 0 (· + 1)
    rows := if s.fld Reg.dmcPage 7 0 = 0 then c.rows.erase b else c.rows.set b row
    hits := c.hits.set b (if hit && waits then c.hits.getD b 0 + 1 else 0)
    scrubbed := if r.port = 5 then c.scrubbed + 1 else c.scrubbed }

/-- Issues a request: postponed refreshes of its rank go first where nothing urgent holds them; an age of twice its target
or more is LATE (R326, R331). -/
def State.issue (s : State) (n : Nat) (c : Chan) (r : DReq) : State :=
  let rank := s.rankOf r.ca
  let t := if s.rankUrgent c rank then s else s.refreshes n rank (c.postponed.getD rank 0)
  let c := if s.rankUrgent c rank then c else { c with postponed := c.postponed.erase rank }
  let t := if 2 * (s.fld (Reg.dmcPort0 + 4 * r.port) 13 0 * 10) ≤ s.time - r.since ∨ c.late.contains r.line = true then
    (t.flag (chOff Reg.dmcChEvent n) 7).count (chOff Reg.dmcChCount n + 0x14) else t
  t.modChan n fun _ => s.afterAccess c r

/-- Whether a channel issues requests: it is ACTIVE, and SCHED_EN is 1 (R338, R348). -/
def State.issues (s : State) (n : Nat) : Bool := (s.chan n).state == .active && s.bit Reg.dmcCtl 0

/-- Issues the requests of ports 3 to 5 that are next; their data has no command of its own. -/
def State.issueBack (s : State) (n : Nat) : Nat → State
  | 0 => s
  | k + 1 =>
    let c := s.queued n (s.chan n)
    match s.nextReq c with
    | some r => if 3 ≤ r.port then (s.issue n c r).issueBack n k else s.modChan n fun _ => c
    | none => s.modChan n fun _ => c

/-- A channel's queues, after it has issued what goes before the next request of ports 0 to 2. -/
def State.chanStep (s : State) (n : Nat) : State :=
  if s.issues n then s.issueBack n 8 else s.modChan n fun c => s.queued n c

/-- A channel serves a request of ports 0 to 2, if it is the one that it issues next (R326). -/
def State.served (s : State) (n port line : Nat) : Option State :=
  let t := s.chanStep n
  let c := t.chan n
  if t.issues n = false then none else
  match t.nextReq c with
  | some r => if r.port == port && r.line == line then some (t.issue n c r) else none
  | none => none

/-- Self-refresh begins once a channel's queue is empty (R334). -/
def State.sleepNow (s : State) (n : Nat) : State :=
  let c := s.chan n
  if c.sleep && c.queue.isEmpty then
    (c.postponed.foldl (fun (t : State) e => t.refreshes n e.1 e.2) s).modChan n fun c =>
      { c with state := .selfRefresh, sleep := false, postponed := [], rows := [], hits := [], writeMode := false }
  else s

/-- Follows the queues and the batches of every channel (R324, R329). -/
def State.chanPoll (s : State) : State :=
  s.chans.keys.foldl (fun (t : State) n =>
    ((t.chanStep n).modChan n fun c => { c with
      writeMode := t.writeModeOf c
      urgent := c.urgent.filter fun l => c.queue.any fun r => r.line == l
      late := c.late.filter fun l => c.queue.any fun r => r.line == l }).sleepNow n) s

/-- Counts a failure of a sector in the 16-entry table of its channel, replacing the least recently failed
entry, and keeps it in DMC_CH_LAST_FAIL; KIND is 0 parity, 1 check, 2 write check (R341, R360). -/
def State.dmcFail (s : State) (n ca kind : Nat) (counted : Bool) : State :=
  let c := s.chan n
  let old := ((c.fails.find? fun e => e.1 == ca).map Prod.snd).getD 0
  let k := if counted then old + 1 else old
  let t := if counted then
      s.modChan n fun x => { x with fails := ((ca, k) :: x.fails.filter fun e => e.1 != ca).take 16 }
    else s
  (t.setReg (chOff Reg.dmcChFailLo n) (w32 ca)).setReg (chOff Reg.dmcChFailHi n) (w32 (min k 15 * 16 + kind))

/-- A sector read bad twice: PARITY or CHECK, its count, and the failing-sector table (R322, R338, R341). -/
def State.dmcBad (s : State) (n ca : Nat) (parity : Bool) : State :=
  let t := (s.flag (chOff Reg.dmcChEvent n) (if parity then 0 else 1)).count
    (chOff Reg.dmcChCount n + if parity then 0 else 4)
  (t.dmcFail n ca (if parity then 0 else 1) true).modChan n fun c => { c with badReads := c.badReads + 1 }

/-- The chive entry of a channel that remaps a sector, if an enabled one does (R339, R362). -/
def State.chiveAt (s : State) (n ca : Nat) : Option Nat :=
  (List.range 32).find? fun k => s.bit (chOff Reg.dmcChiveHi n + 8 * k) 31
    && (s.chan n).copying != some k && (s.reg (chOff Reg.dmcChiveLo n + 8 * k)).toNat == ca

/-- VALID chive entries of a channel (R358). -/
def State.chiveUsed (s : State) (n : Nat) : Nat :=
  ((List.range 32).filter fun k => s.bit (chOff Reg.dmcChiveHi n + 8 * k) 31).length

/-- Counts the accesses of a line that go to spare sectors (R339). -/
def State.chiveHits (s : State) (n frame : Nat) : State :=
  s.countBy (chOff Reg.dmcChCount n + 0x18)
    ((List.range 4).filter fun i => (s.chiveAt n (caOf frame i)).isSome).length

end Sys2Proof.Machine
end

