-- ==== Sys2Proof/Machine/NetCore.lean ====
section
/-! DEFINITION. The Ethernet side: ports, the headers of the packets that a QP sends, transmission under PFC and ETS, and the
service advertisement (R125–R133, R147, R148). -/

namespace Sys2Proof.Machine

/-! ### Ports (R125, R126) -/

/-- Changes a port. -/
def State.modPort (s : State) (n : Nat) (f : NetPort → NetPort) : State :=
  { s with ports := s.ports.upd n {} f }

/-- A port. -/
def State.port (s : State) (n : Nat) : NetPort := s.ports.getD n {}

/-- Whether a port exists in MODE, is enabled, and is not forced off by a fence (R125, R173, R133). -/
def State.portEn (s : State) (n : Nat) : Bool :=
  s.bit Reg.netPortMode (8 + n) && decide (n < 8 / 2 ^ s.fld Reg.netPortMode 1 0) && !s.twn.fenceIn && !s.twn.hostsHeld

/-- The lanes of a port (R125). -/
def State.portLanes (s : State) (n : Nat) : List Nat :=
  let w := 2 * 2 ^ s.fld Reg.netPortMode 1 0
  (List.range w).map (w * n + ·)

/-- The factory-assigned MAC address of a port (R126): a free value. -/
def macOf (n : Nat) : Nat := Config.firmwareDefined (0x126000 + n) % 2 ^ 48

/-- The IPv4 address that firmware gives a port, 0 for none (R126): a free value. -/
def ip4Of (n : Nat) : Nat := Config.firmwareDefined (0x126100 + n) % 2 ^ 32

/-- The IPv6 address that firmware gives a port, 0 for none (R126): a free value. -/
def ip6Of (n : Nat) : Nat := Config.firmwareDefined (0x126200 + n) % 2 ^ 128

/-- The VLAN that firmware gives a port, 0 for untagged frames (R124): a free value. -/
def vlanOf (n : Nat) : Nat := Config.firmwareDefined (0x126300 + n) % 2 ^ 12

/-- Whether a GID is an IPv4 address in its mapped form (PRESUMED from RoCEv2, log 110). -/
def gidIsV4 (gid : Nat) : Bool := gid / 2 ^ 32 == 0xFFFF

/-- The GID of a port towards a host: its IPv4 address where the host has one, else its IPv6 address (R126, R145). -/
def portGid (n gid : Nat) : Nat := if gidIsV4 gid then 0xFFFF * 2 ^ 32 + ip4Of n else ip6Of n

/-- The AES-GCM pipelines that serve a port: one per 400GbE port, one per pair of ports at 200GbE, two per port at
800GbE (R126). -/
def gcmPipes (mode port : Nat) : List Nat :=
  if mode = 0 then [port / 2] else if mode = 1 then [port] else [2 * port, 2 * port + 1]

/-! ### The headers of a packet (R126, R127, R147, R148) -/

/-- The wire priority of a QP: NET_QOS_MAP of its class (R127). -/
def State.prioOf (s : State) (q : Qp) : Nat := s.fld Reg.netQosMap (3 * (q.qos % 8) + 2) (3 * (q.qos % 8))

/-- The priority of a received frame: its PCP where it is tagged, else DSCP[5:3] (R127). -/
def rxPrio (h : PktHdr) : Nat := match h.pcp with
  | some p => p
  | none => bitsOf h.dscp 5 3

/-- The UDP source port of a QP: a hash of its QPN, which the spec does not state (R126): a free value. -/
def udpSource (qpn : Nat) : Nat := Config.crypto [0x4791, qpn] % 2 ^ 16

/-- The Waloft security header of a packet: COUNTER, VERSION 1, reserved bytes 0 (R147). -/
def wshBytes (counter : Nat) : List Byte := leBytes 8 counter ++ leBytes 1 1 ++ leBytes 7 0

/-- The additional authenticated data of a packet: the BTH with the byte that the ICRC masks at 1, then the WSH (R147; which
byte the ICRC masks is PRESUMED from RoCEv2, log 110). -/
def aadOf (bth : List Byte) (counter : Nat) : List Byte := bth.set 4 0xFF ++ wshBytes counter

/-- The GCM IV of a packet: the direction's salt XOR 32 zero bits followed by COUNTER (R148). -/
def gcmIv (salt counter : Nat) : Nat := salt ^^^ (counter % 2 ^ 64)

/-- Whether a QP's packets are encrypted (R147, R154). -/
def qpEncrypts (q : Qp) : Bool :=
  match q.state with
  | .established => true
  | .draining => true
  | _ => false

/-- The headers of the next packet of a QP at a priority; ECT(0) is code 2 (R126, R127, R147, R148). -/
def State.pktOf (s : State) (qpn : Nat) (q : Qp) (prio : Nat) (secure : Bool) : Pkt :=
  { port := q.port, prio := prio, pcp := if vlanOf q.port = 0 then none else some prio, dscp := 8 * prio, ecn := 2
    udpSrc := udpSource qpn, udpDst := 4791, pipes := gcmPipes (s.fld Reg.netPortMode 1 0) q.port
    counter := if secure then some q.ctrTx else none
    iv := match secure, q.keys with
      | true, some k => gcmIv k.txSalt q.ctrTx
      | _, _ => 0 }

/-! ### Transmission (R128, R129) -/

/-- Whether the link partner holds a priority of a port paused; a pause is honoured on the priorities of PFC_EN (R128). -/
def State.paused (s : State) (n prio : Nat) : Bool := (s.port n).rxPaused.testBit prio && s.bit Reg.netDcb prio

/-- Sends a packet of a priority on a port, or lets it wait while the partner has paused the priority or earlier packets of
it wait (R128). -/
def State.txPkt (s : State) (n prio bytes : Nat) (o : Output) : State :=
  let p := s.port n
  if s.paused n prio || !(p.txq.getD prio []).isEmpty then
    s.modPort n fun x => { x with txq := x.txq.upd prio [] (· ++ [(bytes, o)]) }
  else s.emit o

/-- The ETS weight of a priority in percent (R129, R176). -/
def State.etsWeight (s : State) (prio : Nat) : Nat :=
  if prio < 4 then s.fld Reg.netEts0 (8 * prio + 7) (8 * prio) else s.fld Reg.netEts1 (8 * prio - 25) (8 * prio - 32)

/-- Whether ETS serves priority `a` before `b`: the fewer bytes served by weight (R129; how the shares are kept is a DESIGN
CHOICE, log 111). -/
def State.etsBefore (s : State) (p : NetPort) (a b : Nat) : Bool :=
  let load := fun (x : Nat) => p.served.getD x 0 + (((p.txq.getD x []).map Prod.fst).headD 0)
  decide (load a * s.etsWeight b < load b * s.etsWeight a)

/-- The priority that a port serves next, of those that wait and are not paused: strict ones first, the highest of them,
then by ETS (R129). -/
def State.pickPrio (s : State) (n : Nat) : Option Nat :=
  let p := s.port n
  let wait := (List.range 8).filter fun x => !(p.txq.getD x []).isEmpty && !s.paused n x
  let strict := wait.filter fun x => s.bit Reg.netDcb (8 + x)
  match strict.getLast? with
  | some x => some x
  | none => wait.foldl (fun a x => match a with
    | none => some x
    | some y => if s.etsBefore p x y then some x else some y) none

/-- Sends packets that waited on a port until none may go (R128, R129). -/
def State.drainPort (s : State) (n : Nat) : Nat → State
  | 0 => s
  | fuel + 1 => match s.pickPrio n with
    | none => if (s.port n).txq.vals.all List.isEmpty then s.modPort n fun x => { x with txq := [], served := [] } else s
    | some x => match (s.port n).txq.getD x [] with
      | [] => s
      | (bytes, o) :: rest => ((s.modPort n fun p => { p with
          txq := p.txq.set x rest, served := p.served.upd x 0 (· + bytes) }).emit o).drainPort n fuel

/-- How many packets wait on a port. -/
def State.txWaiting (s : State) (n : Nat) : Nat := ((s.port n).txq.vals.map List.length).sum

/-- Sends what may now go on a port. -/
def State.drainTx (s : State) (n : Nat) : State := s.drainPort n (s.txWaiting n + 1)

/-- Sends a packet on a QP at its priority: the counter of the sending direction rises by 1 where the packet is encrypted
(R127, R148). With the Ethernet GCM pipelines disabled such a packet is lost (R557, log 125). -/
def State.sendPkt (s : State) (qpn bytes : Nat) (o : Pkt → Output) : State :=
  match s.rdx.qps.get? (qpn % 2 ^ 17) with
  | none => s
  | some q =>
    let secure := qpEncrypts q
    if secure && !s.bit Reg.secCtl 0 then s else
    let k := s.pktOf qpn q (s.prioOf q) secure
    let t := if secure then { s with rdx := { s.rdx with
      qps := s.rdx.qps.set (qpn % 2 ^ 17) { q with ctrTx := q.ctrTx + 1 } } } else s
    t.txPkt q.port k.prio bytes (o k)

/-! ### Service advertisement (R133) -/

/-- The service status that LLDP and the DVSEC report: 0 STARTING, 1 IN_SERVICE, 2 DEGRADED, 3 FENCED
(R81, R133). -/
def State.service (s : State) : Nat :=
  if s.twn.fenceIn then 3 else if s.admitted = false then 0 else if s.paired then 1 else 2

/-- A number as big-endian bytes. -/
def beBytes (n v : Nat) : List Byte := (leBytes n v).reverse

/-- SVC_ID_BASE (R138, R179). -/
def State.svcBase (s : State) : Nat := s.reg64 Reg.netSvcBaseLo

/-- The service TLV of a port (R133): type and length, OUI of the MAC address, subtype, STATUS, PHASE and TWIN,
APPLIANCE_ID, FW_VERSION, SVC_ID_BASE, PMTU_MAX, reserved. -/
def State.lldpTlv (s : State) (n : Nat) : List Byte :=
  beBytes 2 (127 * 512 + 28) ++ beBytes 3 (macOf n / 2 ^ 24) ++ beBytes 1 1 ++ beBytes 1 s.service
    ++ beBytes 1 (s.fw.phase % 128 * 2 + b2n s.twin) ++ beBytes 8 (s.reg64 Reg.twnApplLo)
    ++ beBytes 4 (if s.fw.running then s.fw.b.version else s.fw.a.version) ++ beBytes 8 s.svcBase ++ beBytes 1 5 ++ beBytes 1 0

/-- An enabled port sends the service TLV, while LLDP is enabled (R133, R178). -/
def State.lldpSend (s : State) (n : Nat) : State :=
  if s.portEn n && s.bit Reg.netLldp 0 then s.emit (.lldp n (s.lldpTlv n)) else s

/-- A service status that has changed is advertised at once on every enabled port; a fenced twin, whose ports are off,
advertises nothing (R133). -/
def State.lldpPoll (s : State) : State :=
  if s.twn.fenceIn || s.service == s.advert then s
  else (List.range 8).foldl State.lldpSend { s with advert := s.service }

end Sys2Proof.Machine
end

