-- ==== Sys2Proof/Machine/RdmaCore.lean ====
section
/-! DEFINITION. Queue pairs: numbers and generations, the in-order response list, entering ERROR, and the
delivery of requests that have ended (R152–R165). -/

namespace Sys2Proof.Machine

/-- INDEX and GENERATION of a QPN (R152). -/
def qpIdx (qpn : Nat) : Nat := qpn % 2 ^ 17
def qpGen (qpn : Nat) : Nat := qpn / 2 ^ 17

/-- The current generation of a context (R153). -/
def State.genOf (s : State) (idx : Nat) : Nat := s.rdx.gens.getD idx 0

/-- The QPN of a context now (R152). -/
def State.qpnOf (s : State) (idx : Nat) : Nat := s.genOf idx * 2 ^ 17 + idx

/-- The context that a QPN names, if the generation matches (R152). -/
def State.qp? (s : State) (qpn : Nat) : Option Qp :=
  if s.genOf (qpIdx qpn) = qpGen qpn then s.rdx.qps.get? (qpIdx qpn) else none

/-- Acts on a packet for a QP: one under a stale generation, or in QUARANTINE, is dropped and counted, and one for a free
context dropped (R152–R154). -/
def State.withAny (s : State) (qpn : Nat) (f : State → Qp → State) : State :=
  if s.genOf (qpIdx qpn) ≠ qpGen qpn then s.count Reg.rdxCount else
  match s.rdx.qps.get? (qpIdx qpn) with
  | none => s
  | some q => if q.state == .quarantine then s.count Reg.rdxCount else f s q

/-- The same for a packet that is encrypted once its QP is ESTABLISHED: with the Ethernet GCM pipelines disabled it is lost
(R557, log 125). -/
def State.withQp (s : State) (qpn : Nat) (f : State → Qp → State) : State :=
  s.withAny qpn fun t q => if qpEncrypts q && !t.bit Reg.secCtl 0 then t else f t q

/-- Changes a context. -/
def State.modQp (s : State) (qpn : Nat) (f : Qp → Qp) : State :=
  { s with rdx := { s.rdx with qps := s.rdx.qps.modify (qpIdx qpn) f } }

/-- Whether a request came on a QP. -/
def onQp (qpn : Nat) (r : Req) : Bool :=
  match r.src with
  | .rdma q _ => q == qpn
  | _ => false

/-- The payload bytes of a response. -/
def respBytes (r : RdmaResp) : Nat :=
  match r with
  | .readData b => b.length
  | .atomic _ => 8
  | _ => 4

/-- Cuts data into packets of at most `n` bytes; at least one. -/
def chunksOf (n : Nat) : Nat → List Byte → List (List Byte)
  | 0, l => [l]
  | k + 1, l => if l.length ≤ n then [l] else l.take n :: chunksOf n k (l.drop n)

/-- Sends a response on a QP: READ data in packets of the PMTU under consecutive PSNs, anything else in one (R148); a packet
that is not the last of its request has none. -/
def State.qpSend (s : State) (qpn psn : Nat) (r : RdmaResp) : State :=
  match r with
  | .quiet => s
  | .readData b =>
    let mtu := match s.qp? qpn with | some q => max 1 q.pmtu | none => 4096
    (chunksOf mtu b.length b).zipIdx.foldl (fun (t : State) c =>
      t.sendPkt qpn c.1.length fun k => .rdma k qpn ((psn + c.2) % 2 ^ 24) (.readData c.1)) s
  | _ => s.sendPkt qpn (respBytes r) fun k => .rdma k qpn psn r

/-- A QP enters ERROR or QUARANTINE: its requests in flight end as R155 says, and no response or reply is sent
for any of them. -/
def State.qpEnter (s : State) (qpn : Nat) (st : QpState) : State :=
  let t := s.modQp qpn fun q => { q with state := st, resps := [], flushes := [], keying := none, part := none }
  { t with rdx := { t.rdx with replies := t.rdx.replies.filter fun k => k.qpn != qpn } }.abortReqs (onQp qpn)

/-- A QP of which a direction's counter has reached 2^48 goes to ERROR (R151). -/
def State.ctrLimit (s : State) (qpn : Nat) : State :=
  match s.qp? qpn with
  | some q =>
    if qpEncrypts q && (decide (2 ^ 48 ≤ q.ctrTx) || (match q.ctrRx with | some c => decide (2 ^ 48 ≤ c) | none => false))
    then s.qpEnter qpn .error else s
  | none => s

/-- Sends a control message on a QP (R143): TYPE, TAG, STATUS, LENGTH, and its fields as offset, bytes and value. -/
def State.wcmSend (s : State) (qpn type tag status len : Nat) (fields : List (Nat × Nat × Nat)) : State :=
  ((s.modQp qpn fun q => { q with psnTx := (q.psnTx + 1) % 2 ^ 24 }).sendPkt qpn len fun k =>
    .rdmaWcm k qpn type tag status len fields).ctrLimit qpn

/-- Sends the responses at the head of the list that are due, in PSN order (R161); a refusal ends the
list, and the QP goes to ERROR (R49, R165). -/
def sendDue (qpn : Nat) : List RespEnt → State → State × List RespEnt × Bool
  | [], s => (s, [], false)
  | e :: t, s =>
    if e.due then
      match e.resp with
      | .nakAccess => (s.qpSend qpn e.psn e.resp, [], true)
      | _ => sendDue qpn t (s.qpSend qpn e.psn e.resp)
    else (s, e :: t, false)

/-- Sends what is due on a QP. -/
def State.flushResps (s : State) (qpn : Nat) : State :=
  match s.qp? qpn with
  | none => s
  | some q =>
    let r := sendDue qpn q.resps s
    let t := r.1.modQp qpn fun x => { x with resps := r.2.1 }
    if r.2.2 then t.qpEnter qpn .error else t.ctrLimit qpn

/-- Puts a request's response into the list, due or not yet (R161). -/
def State.addResp (s : State) (qpn psn : Nat) (r : RdmaResp) (due : Bool) : State :=
  (s.modQp qpn fun q => { q with resps := q.resps ++ [{ psn := psn, due := due, resp := r }] }).flushResps qpn

/-- Keeps the result of an atomic in the 64-entry responder store (R162). -/
def storeAtomic (l : List (Nat × Nat)) (psn v : Nat) : List (Nat × Nat) :=
  let l' := l ++ [(psn, v)]
  l'.drop (l'.length - 64)

/-- A request has reached the point at which its response is due; a packet that is not the last of its request stays
without one, unless it is refused. -/
def State.respDue (s : State) (qpn psn : Nat) (r : RdmaResp) : State :=
  let t := s.modQp qpn fun q => { q with
    resps := q.resps.map fun e => if e.psn = psn ∧ e.due = false then
      { e with due := true, resp := if e.resp == .quiet && r == .ack then .quiet else r } else e
    store := match r with | .atomic v => storeAtomic q.store psn v | _ => q.store }
  t.flushResps qpn

/-- Delivers a request of a QP that has ended (R157–R165, R657). -/
def State.rdmaEnded (s : State) (qpn psn : Nat) (r : Req) (e : Ending) : State :=
  if r.acked || r.silent then s else
  match e with
  | .data bytes poison =>
    if poison.any id then (s.err1 6 .poisoned).respDue qpn psn .nakAccess else s.respDue qpn psn (.readData bytes)
  | .written v => s.respDue qpn psn (if isAtomic r.op then .atomic v else .ack)
  | .poisoned => (s.err1 6 .poisoned).respDue qpn psn .nakAccess
  | .lost => s.respDue qpn psn .nakAccess

end Sys2Proof.Machine
end

