-- ==== Sys2Proof/Machine/TqCore.lean ====
section
/-! DEFINITION. Transfer queues: control blocks in persistent space, entries, the course of a command,
its completion sequence, CRC channels and the delivery of completion records (R197–R224). -/

namespace Sys2Proof.Machine

/-! ### CRCs (R223) -/

/-- Width, polynomial, initial value, reflection and final XOR of POLY. -/
def crcSpec : Nat → Nat × Nat × Nat × Bool × Nat
  | 0 => (32, 0x1EDC6F41, 0xFFFFFFFF, true, 0xFFFFFFFF)
  | 1 => (32, 0x04C11DB7, 0xFFFFFFFF, true, 0xFFFFFFFF)
  | 2 => (16, 0x8BB7, 0, false, 0)
  | _ => (64, 0xAD93D23594C93659, 2 ^ 64 - 1, true, 2 ^ 64 - 1)

/-- The CRC of bytes under POLY (R223). -/
def crcPoly (poly : Nat) (bs : List Byte) : Nat :=
  let (w, p, init, refl, xo) := crcSpec poly
  let c := bs.foldl (crcByte w p refl) init
  (if refl then reflectBits w c else c) ^^^ xo

/-! ### Queue memory -/

/-- The address of a byte of a ring or control block. -/
def State.ringPsa (s : State) (region base k : Nat) : Nat := s.psaOf (s.region region) (base + k)

/-- `n` bytes of a ring or control block. -/
def State.ringBytes (s : State) (region base k n : Nat) : List Byte :=
  (List.range n).map fun i => s.byteAt (s.ringPsa region base (k + i))

/-- Writes device-owned bytes of a control block. -/
def State.ringPut (s : State) (region base k : Nat) (bs : List Byte) : State :=
  { s with mem := (bs.zipIdx).foldl (fun m p => memPut m (s.ringPsa region base (k + p.2)) p.1) s.mem }

/-- A submission queue. -/
def State.sq? (s : State) (sq : Nat) : Option Sq := s.sqs.get? sq

/-- Changes a submission queue. -/
def State.modSq (s : State) (sq : Nat) (f : Sq → Sq) : State := { s with sqs := s.sqs.modify sq f }

/-- The number of an SQ state (R199, R233). -/
def sqCode : SqState → Nat
  | .free => 0
  | .active => 1
  | .stopped => 2
  | .error => 3
  | .deleting => 4

/-- Writes FETCH, TAIL, DONE_MASK, COMPLETED and STATE into the control block (R198). -/
def State.sqPublish (s : State) (sq : Nat) : State :=
  match s.sq? sq with
  | none => s
  | some q => s.ringPut q.region q.base 64 (leBytes 8 q.fetch ++ leBytes 8 q.tail ++ leBytes 8 q.doneMask
      ++ leBytes 4 q.completed ++ leBytes 1 (sqCode q.state))

/-- PROD of a submission queue (R198). -/
def State.prodOf (s : State) (q : Sq) : Nat := ofLe (s.ringBytes q.region q.base 0 8)

/-- CONS of a completion ring (R212). -/
def State.consOf (s : State) (c : Cq) : Nat := ofLe (s.ringBytes c.region c.base 0 8)

/-- Whether this twin executes a queue: it holds the Ensign of the ring's region (R210). -/
def State.execHere (s : State) (q : Sq) : Bool :=
  match (s.region q.region).ensign with
  | .owner => true
  | .handing => true
  | _ => false

/-- The descriptor that 64 bytes spell (R202). -/
def descOf (b : List Byte) : Desc :=
  let n := fun (i k : Nat) => ofLe ((b.drop i).take k)
  let f := n 1 1
  let t := n 2 2
  let w := n 6 2
  { opcode := n 0 1
    fence := f.testBit 0, e2e := f.testBit 1, atomTile := f.testBit 2, noCompare := f.testBit 3, notify := f.testBit 4
    phase := t.testBit 15, tag := t % 2 ^ 15
    poly := n 4 1 % 4
    waitSq := w % 2 ^ 12, waitEn := w.testBit 12, waitCount := n 8 4
    src := n 16 8, dst := n 24 8, len := n 32 8, arg := n 40 8
    rsvZero := f / 32 == 0 && n 4 1 / 4 == 0 && n 5 1 == 0 && w / 2 ^ 13 == 0 && n 12 4 == 0 && n 48 16 == 0 }

/-! ### Descriptor checks (R203, R204) -/

/-- The longest range of a command (R203). -/
def tqMaxLen : Nat := 2 ^ 36

/-- Whether an appliance address and length are tile aligned. -/
def tileAligned (a len : Nat) : Bool := a % 4096 == 0 && len % 4096 == 0

/-- Whether the fields that a command does not use are 0 (R203, R204). -/
def descUnused (d : Desc) : Bool :=
  match d.opcode with
  | 1 => !d.noCompare
  | 2 => !d.e2e && !d.noCompare && d.poly == 0 && d.src == 0
  | 3 => !d.e2e && !d.atomTile && !d.noCompare && d.poly == 0 && d.dst == 0 && d.len == 0 && d.src / 2 ^ 12 == 0
  | 4 => !d.e2e && !d.atomTile && d.dst == 0
  | 5 => !d.e2e && !d.atomTile && !d.noCompare && d.poly == 0 && d.dst == 0 && d.arg == 0
  | 6 => !d.e2e && !d.atomTile && !d.noCompare && d.poly == 0 && d.src == 0 && d.arg == 0
  | 7 => !d.e2e && !d.atomTile && !d.noCompare && d.poly == 0 && d.src == 0 && d.arg == 0
  | 8 => !d.e2e && !d.atomTile && !d.noCompare && d.poly == 0 && d.src == 0 && d.arg == 0 && d.len == 0
      && d.dst % 2 ^ 47 == 0
  | 9 => !d.e2e && !d.atomTile && !d.noCompare && d.poly == 0 && d.src == 0 && d.arg == 0
  | _ => false

/-- Whether a command's LENGTH and alignment are as R203 requires. -/
def descShape (d : Desc) : Bool :=
  match d.opcode with
  | 1 => decide (0 < d.len) && decide (d.len ≤ if d.e2e then 65536 else tqMaxLen)
      && !(d.src / 2 ^ 52 == d.dst / 2 ^ 52 && overlaps (d.src % 2 ^ 47) d.len (d.dst % 2 ^ 47) d.len)
      && (!d.atomTile || tileAligned d.dst d.len)
  | 2 => decide (0 < d.len) && decide (d.len ≤ tqMaxLen) && (!d.atomTile || tileAligned d.dst d.len)
  | 3 => true
  | 4 => decide (0 < d.len) && decide (d.len ≤ tqMaxLen)
  | 5 => decide (0 < d.len) && decide (d.len ≤ tqMaxLen)
  | 8 => true
  | _ => decide (0 < d.len) && decide (d.len ≤ tqMaxLen) && tileAligned d.dst d.len

/-- The checks of R204 that a fetched descriptor must pass. -/
def State.descOk (s : State) (d : Desc) : Bool :=
  decide (1 ≤ d.opcode) && decide (d.opcode ≤ 9) && d.rsvZero && descUnused d && descShape d
    && (if d.waitEn then (s.sq? d.waitSq).isSome else d.waitSq == 0 && d.waitCount == 0)

/-! ### Ranges, locks and starting (R205–R207) -/

/-- The appliance ranges that a command writes, in bytes of one region. -/
def descWrites (d : Desc) : List (Nat × Nat × Nat) :=
  match d.opcode with
  | 1 => [(d.dst / 2 ^ 52, d.dst % 2 ^ 47, d.len)]
  | 2 => [(d.dst / 2 ^ 52, d.dst % 2 ^ 47, d.len)]
  | 8 => [(d.dst / 2 ^ 52, 0, 2 ^ 47)]
  | 9 => [(d.dst / 2 ^ 52, d.dst % 2 ^ 47, d.len)]
  | _ => []

/-- The appliance ranges that a command reads. -/
def descReads (d : Desc) : List (Nat × Nat × Nat) :=
  match d.opcode with
  | 1 => [(d.src / 2 ^ 52, d.src % 2 ^ 47, d.len)]
  | 4 => [(d.src / 2 ^ 52, d.src % 2 ^ 47, d.len)]
  | _ => []

/-- Whether two ranges share a 256-byte persist unit. -/
def unitsMeet (a b : Nat × Nat × Nat) : Bool :=
  a.1 == b.1 && overlaps (a.2.1 / 256) ((a.2.1 + a.2.2 + 255) / 256 - a.2.1 / 256) (b.2.1 / 256)
    ((b.2.1 + b.2.2 + 255) / 256 - b.2.1 / 256)

/-- A conflict is a write against a read or a write against a write (R205). -/
def descConflict (a b : Desc) : Bool :=
  (descWrites a).any (fun x => (descWrites b ++ descReads b).any (unitsMeet x))
    || (descReads a).any (fun x => (descWrites b).any (unitsMeet x))

/-- The command of a queue at a position. -/
def State.cmdAt (s : State) (sq pos : Nat) : Option (Nat × Cmd) :=
  s.cmds.find? fun c => c.sq == sq && c.pos == pos

/-- The earlier incomplete commands of a command's queue. -/
def State.earlier (s : State) (c : Cmd) : List Cmd :=
  s.cmds.vals.filter fun x => x.sq == c.sq && decide (x.pos < c.pos)

/-- Whether the wait of a command is over (R207): COMPLETED − WAIT_COUNT as a signed 32-bit number. -/
def State.waitOver (s : State) (d : Desc) : Bool :=
  !d.waitEn || (match s.sq? d.waitSq with
    | some q => decide ((q.completed + 2 ^ 32 - d.waitCount % 2 ^ 32) % 2 ^ 32 < 2 ^ 31)
    | none => true)

/-- Whether a fetched command may start (R205–R207); none starts in a queue whose region is to be handed over
(R210). R199 says of STOPPED and ERROR only that nothing is fetched and that started commands finish; a command fetched
before starts there too (DESIGN CHOICE, log 101). -/
def State.mayStart (s : State) (c : Cmd) : Bool :=
  let es := s.earlier c
  es.all (fun x => x.stage != .fetched)
    && (!(c.d.fence || c.d.opcode == 3) || es.isEmpty)
    && s.waitOver c.d
    && es.all (fun x => !descConflict c.d x.d)
    && !(match s.sq? c.sq with
      | some q => s.twn.handoffs.contains q.region || (s.region q.region).ensign == .handing
      | none => false)

/-- Changes a command. -/
def State.modCmd (s : State) (n : Nat) (f : Cmd → Cmd) : State := { s with cmds := s.cmds.modify n f }

/-! ### CRC channels (R224, R237, R238) -/

/-- The channels in use. -/
def State.channels (s : State) : List Nat := s.cmds.vals.filterMap fun c => c.chan

/-- The lowest-numbered free channel (R224). -/
def State.freeChannel (s : State) : Option Nat := (List.range 16).find? fun n => !s.channels.contains n

/-- Takes a channel for a command: BUSY, POLY and SQ; MISMATCH keeps what the last compare found (R224, R237). -/
def State.takeChannel (s : State) (n : Nat) (c : Cmd) (ch : Nat) : State :=
  let r := Reg.crcStatus + 0x20 * ch
  (s.modCmd n fun x => { x with chan := some ch, wait := false }).setReg r
    (w32 (c.sq * 16 + c.d.poly * 4 + 2 * b2n (s.bit r 1) + 1))

/-- Ends a channel's work: RESULT, EXPECT, and the compare with its counts, which NOCOMPARE leaves out (R224, R237,
R238). -/
def State.endChannel (s : State) (n : Nat) (c : Cmd) (crc : Nat) : State :=
  match c.chan with
  | none => s
  | some ch =>
    let bad := !c.d.noCompare && crc != c.d.arg
    let t := ((s.setReg64 (Reg.crcExpLo + 0x20 * ch) c.d.arg).setReg64 (Reg.crcResLo + 0x20 * ch) crc).setFld
      (Reg.crcStatus + 0x20 * ch) 0 0 0
    let t := if c.d.noCompare then t else t.setBit (Reg.crcStatus + 0x20 * ch) 1 bad
    let t := t.modCmd n fun x => { x with chan := none }
    if bad then (t.flag Reg.crcMismatch ch).count Reg.crcMismatchCount else t

/-- Frees a channel whose command ended without a CRC. -/
def State.dropChannel (s : State) (n : Nat) (c : Cmd) : State :=
  match c.chan with
  | none => s
  | some ch => (s.modCmd n fun x => { x with chan := none }).setFld (Reg.crcStatus + 0x20 * ch) 0 0 0

/-! ### Completion records (R209, R212–R217) -/

/-- A completion ring. -/
def State.cq? (s : State) (cq : Nat) : Option Cq := s.cqs.get? cq

/-- Changes a completion ring. -/
def State.modCq (s : State) (cq : Nat) (f : Cq → Cq) : State := { s with cqs := s.cqs.modify cq f }

/-- This twin's target of a ring, and the peer's (R213). -/
def State.myTarget (s : State) (c : Cq) : Target := if s.twin then c.t1 else c.t0
def State.peerTarget (s : State) (c : Cq) : Target := if s.twin then c.t0 else c.t1

/-- Whether a KIND 2 target can be written now: its lease is not REVOKED and a COMPLETION QP of the lease
is ESTABLISHED (R213). -/
def State.targetUp (s : State) (t : Target) : Bool :=
  if t.kind = 1 then (match (s.lds.getD t.ld {}).state with | .active => true | _ => false)
  else if t.kind = 2 then
    (match s.leases.get? t.host with | some l => l.state != .revoked | none => false)
      && s.rdx.qps.vals.any fun q => q.host == t.host && q.service == 2 && q.state == .established
  else false

/-- The 32 bytes of a completion record (R214); reserved bytes are 0 (R13). -/
def recordBytes (twin : Bool) (seq : Nat) (r : CqRec) : List Byte :=
  leBytes 8 seq ++ leBytes 4 r.pos ++ leBytes 2 r.tag ++ leBytes 2 (r.sq % 2 ^ 12 + 2 ^ 12 * b2n twin + 2 ^ 13 * b2n r.note)
    ++ leBytes 1 r.status ++ leBytes 1 r.opcode ++ leBytes 6 0 ++ leBytes 8 r.result

/-- The host address of a record's slot: array base + 32 × (s mod SIZE) (R212). -/
def recordAddr (t : Target) (c : Cq) (seq : Nat) : Nat := t.addr + 32 * (seq % 2 ^ c.log2)

/-- Whether a record may be transmitted: CONS ≤ s < CONS + SIZE, with CONS of this twin's copy (R215). -/
def State.inWindow (s : State) (c : Cq) (seq : Nat) : Bool :=
  decide (s.consOf c ≤ seq) && decide (seq < s.consOf c + 2 ^ c.log2)

/-- The established COMPLETION QP of a lease, by its index; the lowest where there are several (R138, R213). -/
def State.complQp (s : State) (host : Nat) : Option (Nat × Qp) :=
  s.rdx.qps.find? fun q => q.host == host && q.service == 2 && q.state == .established

/-- Sends a record as an RDMA WRITE on the lease's COMPLETION QP, with Immediate where it signals: the QP's next PSN, and
the record is outstanding until its acknowledgement (R169, R215, R216). -/
def State.rdmaRecord (s : State) (tg : Target) (cq : Nat) (c : Cq) (seq : Nat) (r : CqRec) (imm : Option Nat) : State :=
  match s.complQp tg.host with
  | none => s
  | some (i, q) =>
    ({ s with rdx := { s.rdx with qps := s.rdx.qps.set i { q with
        outstanding := q.outstanding ++ [(q.psnTx, cq, seq)], psnTx := (q.psnTx + 1) % 2 ^ 24 } } }.sendPkt (s.qpnOf i) 32
      fun k => .cqRecord (some k) tg cq q.psnTx (recordAddr tg c seq) imm (recordBytes s.twin seq r)).ctrLimit (s.qpnOf i)

/-- Writes one record of a ring to this twin's target, and raises its signal or gathers it over the coalescing window
(R214, R216). -/
def State.putRecord (s : State) (cq : Nat) (c : Cq) (seq : Nat) (r : CqRec) : State :=
  let tg := s.myTarget c
  let now := r.notify && c.window == 0
  let t := if tg.kind = 2 then s.rdmaRecord tg cq c seq r (if now then some (seq % 2 ^ 32) else none)
    else s.emit (.cqRecord none tg cq 0 (recordAddr tg c seq) none (recordBytes s.twin seq r))
  if r.notify && c.window != 0 then t.modCq cq fun x => { x with signal := some seq }
  else if now && tg.kind == 1 then t.emit (.msix tg.ld c.vector)
  else t

/-- The signal of a ring at the end of its coalescing window: the LD's vector for KIND 1, and for KIND 2 the last
signalling record again, as a WRITE with Immediate (R216; log 98). -/
def State.cqSignal (s : State) (cq : Nat) (c : Cq) (seq : Nat) : State :=
  let tg := s.myTarget c
  let t := s.modCq cq fun x => { x with signal := none }
  if tg.kind = 2 then
    match c.recs.get? seq with
    | some r => t.rdmaRecord tg cq c seq r (some (seq % 2 ^ 32))
    | none => t
  else t.emit (.msix tg.ld c.vector)

/-- Sends an outstanding record of a COMPLETION QP again under its PSN: CONS is looked at again, and a record that the host
has passed goes as a zero-length WRITE, which is counted (R215, R236). -/
def State.recordAgain (s : State) (qpn : Nat) (x : Nat × Nat × Nat) : State :=
  match s.cq? x.2.1 with
  | none => s
  | some c =>
    let tg := s.myTarget c
    match c.recs.get? x.2.2 with
    | some r =>
      if s.inWindow c x.2.2 then s.sendPkt qpn 32 fun k => .cqRecord (some k) tg x.2.1 x.1 (recordAddr tg c x.2.2)
        (if r.notify && c.window == 0 then some (x.2.2 % 2 ^ 32) else none) (recordBytes s.twin x.2.2 r)
      else (s.sendPkt qpn 0 fun k => .cqStale k tg x.2.1 x.1).count (Reg.tqmCount + 4)
    | none => s

/-- Whether a sequence's assignment still waits for the other twin to apply it (R209). -/
def State.recHeld (s : State) (cq seq : Nat) : Bool :=
  s.twn.tx.vals.any fun x => match x.msg with
    | .control cs => cs.any fun c => match c with
      | .complete _ _ _ k n => k == cq && n == seq
      | .assigned _ _ _ k n => k == cq && n == seq
      | _ => false
    | _ => false

/-- Transmits a ring's records to this twin's target while CONS ≤ s < CONS + SIZE, each once its sequence is applied on
both twins; a twin without a target relays each to the peer (R209, R213, R215, R216, R472). A fenced twin sends none
(R240). -/
def State.cqSend (s : State) (cq : Nat) : Nat → State
  | 0 => s
  | n + 1 => match s.cq? cq with
    | none => s
    | some c =>
      match c.recs.get? c.sent with
      | none => s
      | some r =>
        let tg := s.myTarget c
        let next := fun (t : State) => (t.modCq cq fun x => { x with sent := x.sent + 1 }).cqSend cq n
        if s.recHeld cq c.sent then s
        else if tg.kind = 0 then
          if s.paired && (s.peerTarget c).kind != 0 then next (s.post (.cqRelay cq c.sent r)) else s
        else if s.twn.fenceIn || !s.targetUp tg then s
        else if s.inWindow c c.sent then next (s.putRecord cq c c.sent r)
        else s

/-- Transmits all that a ring may transmit. -/
def State.cqPump (s : State) (cq : Nat) : State :=
  match s.cq? cq with
  | some c => s.cqSend cq (c.nextSeq + 1 - c.sent)
  | none => s

/-- Sends again every record from CONS of a ring (R216). -/
def State.cqResend (s : State) (cq : Nat) : State :=
  match s.cq? cq with
  | none => s
  | some c => (s.modCq cq fun x => { x with sent := min x.nextSeq (max 1 (s.consOf c)) }).cqPump cq

/-- Sends every ring's records again (R216, R470 step 4). -/
def State.resendAll (s : State) : State := s.cqs.keys.foldl State.cqResend s

/-- Sends again the records of the rings with a target, as when it serves again: a lease's COMPLETION QP, or an LD that is
ACTIVE again (R216, R240). -/
def State.resendFor (s : State) (kind id : Nat) : State :=
  (s.cqs.filterV fun c => (s.myTarget c).kind == kind
    && (if kind = 1 then (s.myTarget c).ld else (s.myTarget c).host) == id).keys.foldl State.cqResend s

/-- Gives a record the next sequence of its ring, on this twin, and publishes NEXT_SEQ (R209, R212). -/
def State.cqAssign (s : State) (cq seq : Nat) (r : CqRec) : State :=
  match s.cq? cq with
  | none => s
  | some c =>
    let t := s.modCq cq fun x => { x with nextSeq := max x.nextSeq (seq + 1), recs := x.recs.set seq r }
    t.ringPut c.region c.base 64 (leBytes 8 (max c.nextSeq (seq + 1)))

/-- The record of a command (R214). -/
def cmdRec (c : Cmd) (status result : Nat) : CqRec :=
  { pos := c.pos % 2 ^ 32, tag := c.d.tag + (if c.d.phase then 2 ^ 15 else 0), sq := c.sq, note := false
    status := status, opcode := c.d.opcode, result := result, notify := c.d.notify }

/-- Whether this twin chooses the sequences of a ring: alone, or as the twin that orders the writes to its control block;
the other asks it (R209; DEDUCED, log 99). -/
def State.seqHere (s : State) (c : Cq) : Bool :=
  !s.paired || (match (s.region c.region).ensign with | .peerOwns => false | _ => true)

/-- Gives a record its completion sequence: here, with the assignment sent to the peer, or by asking the peer, which then
answers (R209). The sequence is 0 until it is known. Answers it with the number of the CONTROL message. -/
def State.seqAsk (s : State) (sq pos cq : Nat) (r : CqRec) : State × Nat × Nat :=
  match s.cq? cq with
  | none => (s, 0, 0)
  | some c =>
    let seq := if s.seqHere c then c.nextSeq else 0
    let t := if seq = 0 then s else s.cqAssign cq seq r
    if s.paired then
      let p := t.send (.control [.complete sq pos r cq seq])
      (p.1, seq, p.2)
    else (t, seq, 0)

/-- Ends a command's work: its status and result are known, its completion sequence is assigned, and the assignment goes
to the other twin (R209). -/
def State.tqFinish (s : State) (n : Nat) (c : Cmd) (status result : Nat) : State :=
  match s.sq? c.sq with
  | none => s
  | some q =>
    let p := (s.dropChannel n c).seqAsk c.sq c.pos q.cq (cmdRec c status result)
    let t := p.1.modCmd n fun x => { x with
      stage := .assigning, status := status, result := result, seq := p.2.1, msg := p.2.2 }
    if status = 9 then t.flag Reg.tqmEvent 2 else t

/-- Ends a command whose record has a RESULT that the spec does not state: a free value (R203, R218, log 24). -/
def State.tqOpen (s : State) (n : Nat) (c : Cmd) (status : Nat) : State :=
  s.draw.1.tqFinish n c status (Config.choice s.draw.2)

/-- Marks a command complete in its queue's context: DONE_MASK, TAIL past leading complete entries, and
COMPLETED (R209). -/
def advanceTail : Nat → Nat → Nat → Nat × Nat
  | 0, tail, mask => (tail, mask)
  | n + 1, tail, mask => if mask % 2 = 1 then advanceTail n (tail + 1) (mask / 2) else (tail, mask)

/-- The queue context after the command at a position has completed (R209). -/
def sqDone (q : Sq) (pos : Nat) : Sq :=
  let m := if q.tail ≤ pos ∧ pos < q.tail + 64 then q.doneMask ||| (1 <<< (pos - q.tail)) else q.doneMask
  let a := advanceTail 64 q.tail m
  { q with tail := a.1, doneMask := a.2 % 2 ^ 64, completed := (q.completed + 1) % 2 ^ 32, notes := q.notes.erase pos }

/-- What a sequence does to its queue: a completion ends the command, a notification is kept with its position until its
command is complete (R209, R217). -/
def State.seqDone (s : State) (sq pos seq : Nat) (note : Bool) : State :=
  (s.modSq sq fun q => if note then { q with notes := q.notes.set pos seq } else sqDone q pos).sqPublish sq

/-- The peer has assigned a sequence, or asks for one, which this twin then chooses and answers (R209). -/
def State.onComplete (s : State) (sq pos : Nat) (r : CqRec) (cq seq : Nat) : State :=
  if seq ≠ 0 then (s.cqAssign cq seq r).seqDone sq pos seq r.note
  else match s.cq? cq with
    | none => s
    | some c =>
      ((s.cqAssign cq c.nextSeq r).seqDone sq pos c.nextSeq r.note).post (.control [.assigned sq pos r cq c.nextSeq])

/-- The sequence that this twin asked for (R209). -/
def State.onAssigned (s : State) (sq pos : Nat) (r : CqRec) (cq seq : Nat) : State :=
  let t := s.cqAssign cq seq r
  if r.note then t.seqDone sq pos seq true
  else { t with cmds := t.cmds.mapV fun c => if c.sq = sq ∧ c.pos = pos then { c with seq := seq } else c }

/-- With the peer gone, this twin chooses the sequences that it had asked for (R209, R470). -/
def State.seqAlone (s : State) : State :=
  (s.cmds.filter fun e => e.2.stage == .assigning && e.2.seq == 0).foldl (fun (t : State) e =>
    match t.sq? e.2.sq with
    | some q =>
      let p := t.seqAsk e.2.sq e.2.pos q.cq (cmdRec e.2 e.2.status e.2.result)
      p.1.modCmd e.1 fun x => { x with seq := p.2.1, msg := p.2.2 }
    | none => t) { s with cmds := s.cmds.mapV fun c => if c.stage == .running && c.d.opcode == 3 then { c with msg := 0 } else c }

/-! ### Running (R203, R208, R211) -/

/-- Makes a request for a command's range under the translation with which the command was admitted (R48). -/
def State.tqAsk (s : State) (n : Nat) (host : Nat) (op : MemOp) (rg : Nat × Nat × Nat) (segs : List (Nat × Nat))
    (data : List Byte) (marks : List Bool) : State :=
  let p := s.enter { src := .tq n, op := op, host := host, region := rg.1, off := rg.2.1, len := rg.2.2
                     segs := segs, data := data, map := marks }
  p.1.modCmd n fun c => { c with pend := c.pend ++ [p.2] }

/-- The host ID of a command's queue (R47, R197). -/
def State.tqHost (s : State) (c : Cmd) : Nat := match s.sq? c.sq with
  | some q => q.host
  | none => 0xFFFF

/-- Reads a command's source (R203). -/
def State.tqRead (s : State) (n : Nat) (c : Cmd) : State :=
  s.tqAsk n (s.tqHost c) .read (c.d.src / 2 ^ 52, c.d.src % 2 ^ 47, c.d.len) c.src [] []

/-- The marks of a copy's destination sectors: a sector into which bytes of a poisoned source sector go
(R211). -/
def copyMarks (srcOff dstOff len : Nat) (poison : List Bool) : List Bool :=
  (List.range ((dstOff % 64 + len + 63) / 64)).map fun k =>
    let a := k * 64 - min (k * 64) (dstOff % 64)
    let b := min len (k * 64 + 64 - dstOff % 64)
    (List.range (((srcOff % 64 + b + 63) / 64) - (srcOff % 64 + a) / 64)).any fun j =>
      poison.getD ((srcOff % 64 + a) / 64 + j) false

/-- The 8-byte pattern repeated, aligned to the appliance address (FILL, R203). -/
def fillBytes (off len arg : Nat) : List Byte :=
  (List.range len).map fun k => (leBytes 8 arg).getD ((off + k) % 8) 0

/-- The operation with which a command writes (R208). -/
def tqWriteOp (d : Desc) : MemOp := if d.atomTile then .tileSwitch else .write

/-- A command's source has been read (R203, R211, R224). -/
def State.tqGot (s : State) (n : Nat) (c : Cmd) (bytes : List Byte) (poison : List Bool) : State :=
  let bad := poison.any id
  let crc := crcPoly c.d.poly bytes
  let miss := !c.d.noCompare && crc != c.d.arg
  match c.d.opcode with
  | 4 =>
    if bad then (s.err1 15 .poisoned).tqOpen n c 5
    else (s.endChannel n c crc).tqFinish n { c with chan := none } (if miss then 4 else 0) crc
  | _ =>
    let go := fun (t : State) =>
      let marks := copyMarks (c.d.src % 2 ^ 47) (c.d.dst % 2 ^ 47) c.d.len poison
      ((descWrites c.d).foldl (fun (u : State) rg =>
          u.tqAsk n (s.tqHost c) (tqWriteOp c.d) rg c.dst bytes (if bad then marks else [])) t).modCmd n
        fun x => { x with stage := .writing, chan := none, poisoned := (marks.filter id).length }
    if c.d.e2e then
      if bad then (s.err1 15 .poisoned).tqOpen n c 5
      else
        let t := s.endChannel n c crc
        if miss then t.tqFinish n { c with chan := none } 4 crc else go t
    else go s

/-- A request of a command has ended (R209, R211). -/
def State.tqEnded (s : State) (n : Nat) (e : Ending) : State :=
  let s := s.modCmd n fun c => { c with pend := c.pend.filter fun i => (s.reqs.get? i).isSome }
  match s.cmds.get? n with
  | none => s
  | some c =>
    match e with
    | .data bytes poison => s.tqGot n c bytes poison
    | _ =>
      if c.stage == .writing && c.pend.isEmpty then
        if c.poisoned ≠ 0 then (s.err1 7 .poisoned).tqFinish n c 5 c.poisoned else s.tqFinish n c 0 c.d.len
      else s

/-- What a started command waits for, looked at again: a PREFETCH or PIN its tiles (R267, R268), a PERSIST_NOTIFY its
sequence (R217), a command that computes a CRC a free channel, in fetch order (R224). -/
def State.tqPoll (s : State) (n : Nat) : State :=
  match s.cmds.get? n with
  | some c =>
    if c.stage != .running then s
    else if c.wait then
      match s.freeChannel with
      | some ch => (s.takeChannel n c ch).tqRead n c
      | none => s
    else if (c.d.opcode == 5 || c.d.opcode == 6) && c.left.isEmpty && (c.peerLeft.isEmpty || !s.paired) then
      s.tqFinish n c (if c.missed.isEmpty then 0 else 6) c.missed.length
    else if c.d.opcode == 3 then
      match (s.sq? c.sq).bind fun q => q.notes.get? c.pos with
      | some seq => s.tqFinish n c 0 seq
      | none => s
    else s
  | none => s

end Sys2Proof.Machine
end

