-- ==== Sys2Proof/Machine/TqFetch.lean ====
section
/-! DEFINITION. Fetching submission entries (R199–R201, R204, R207, R210), queues that go, and the progress of SANITIZE and
FORMAT as both twins keep it (R222). -/

namespace Sys2Proof.Machine

/-- Sends changes that the other twin makes too. -/
def State.tellPeer (s : State) (cs : List Change) : State := if s.paired then s.post (.control cs) else s

/-! ### Fetch -/

/-- Fetched, incomplete commands of a queue. -/
def State.inFlight (s : State) (sq : Nat) : Nat := s.cmds.count fun c => c.sq == sq

/-- Moves a queue to ERROR with its flag and event record (R199, R200). -/
def State.sqError (s : State) (sq : Nat) : State :=
  ((s.modSq sq fun q => { q with state := .error }).sqPublish sq).flagRecord Reg.tqmEvent 3 0x0701 sq 0

/-- Whether the control block reads as poisoned (R199). -/
def State.cbPoisoned (s : State) (q : Sq) : Bool :=
  (sectorsOf (s.ringPsa q.region q.base 0) 256).any fun n => (s.sector n).poison

/-- Whether one more entry may be fetched: no pause cause, and room in the device, the queue's in-flight limit and its
DONE_MASK, which spans 64 positions from TAIL (R198, R200, R201; DEDUCED, log 102). -/
def State.mayFetch (s : State) (sq : Nat) (q : Sq) : Bool :=
  decide (s.pauseCause = 0) && decide (s.cmds.length < 1024) && decide (s.inFlight sq < q.limit)
    && decide (q.fetch < q.tail + 64)

/-- Takes an entry into a command; a descriptor that fails R204 completes with INVALID, touching nothing. -/
def State.takeEntry (s : State) (sq pos : Nat) (d : Desc) : State :=
  let c : Cmd := { sq := sq, pos := pos, d := d }
  let t := { s with cmds := s.cmds.set s.cmdSeq c, cmdSeq := s.cmdSeq + 1 }
  if s.descOk d then t else t.tqOpen s.cmdSeq c 1

/-- The descriptor in the slot of a position (R198, R202). -/
def State.entryAt (s : State) (q : Sq) (pos : Nat) : Desc :=
  descOf (s.ringBytes q.region q.base (256 + 64 * (pos % 2 ^ q.log2)) 64)

/-- The PHASE that makes an entry valid: (lap + 1) mod 2 (R200). -/
def phaseAt (q : Sq) (pos : Nat) : Bool := decide ((pos / 2 ^ q.log2 + 1) % 2 = 1)

/-- Fetches entries of an ACTIVE queue that is executed here, in position order; an overrun or a poisoned control block
moves it to ERROR, and an entry of the wrong phase stops it there (R199, R200, R210). -/
def State.fetchGo (s : State) (sq : Nat) : Nat → State
  | 0 => s
  | n + 1 => match s.sq? sq with
    | none => s
    | some q =>
      if q.state != .active || !s.execHere q then s
      else if s.cbPoisoned q ∨ 2 ^ q.log2 < s.prodOf q - q.fetch then s.sqError sq
      else if s.mayFetch sq q = false ∨ s.prodOf q ≤ q.fetch then s
      else
        let d := s.entryAt q q.fetch
        if d.phase = phaseAt q q.fetch then
          ((s.modSq sq fun x => { x with fetch := x.fetch + 1 }).takeEntry sq q.fetch d).fetchGo sq n
        else { s.flag Reg.tqmEvent 0 with sqWait := s.sqWait.set sq q.fetch }

/-- Fetches what a queue may fetch, and sends the peer the queue's context where that has changed (R197). -/
def State.fetchSq (s : State) (sq : Nat) : State :=
  let t := s.fetchGo sq 64
  match s.sq? sq, t.sq? sq with
  | some a, some b => if a.fetch = b.fetch ∧ a.state = b.state then t else (t.sqPublish sq).tellPeer [.sq sq b]
  | _, _ => t

/-- Rings a queue's doorbell (R200). -/
def State.ringBell (s : State) (sq : Nat) : State := { s with sqWait := s.sqWait.erase sq }.fetchSq sq

/-- Fetch goes on without a doorbell, but for a queue that waits for an entry's slot to be written (R200, R201). -/
def State.fetchMore (s : State) (sq : Nat) : State := if (s.sqWait.get? sq).isSome then s else s.fetchSq sq

/-- Fetch goes on wherever it may (R201). -/
def State.fetchAll (s : State) : State := s.sqs.keys.foldl State.fetchMore s

/-- The queues that a committed write wakes: it covers a byte of PROD, or of the entry that the queue waits for (R200). -/
def State.wokenBy (s : State) (region off len : Nat) : List Nat :=
  (s.sqs.filter fun e => e.2.region == region && (overlaps e.2.base 8 off len
    || (match s.sqWait.get? e.1 with
      | some pos => overlaps (e.2.base + 256 + 64 * (pos % 2 ^ e.2.log2)) 64 off len
      | none => false))).map Prod.fst

/-- A committed write rings the doorbells that it covers (R200). -/
def State.ringWritten (s : State) (r : Req) (e : Ending) : State :=
  match e with
  | .written _ => (s.wokenBy r.region r.off r.len).foldl State.ringBell s
  | _ => s

/-! ### Queues that go (R199, R207) -/

/-- A queue is gone: the commands that wait on it complete with CHAIN_BROKEN (R207). -/
def State.sqGone (s : State) (sq : Nat) : State :=
  let l := s.cmds.filter fun e => e.2.stage == .fetched && e.2.d.waitEn && e.2.d.waitSq == sq && !s.waitOver e.2.d
  l.foldl (fun (t : State) e => t.tqOpen e.1 e.2 9) { s with sqs := s.sqs.erase sq, sqWait := s.sqWait.erase sq }

/-- Whether a record of a queue still waits to be transmitted (R199). -/
def State.recWaits (s : State) (sq : Nat) (q : Sq) : Bool :=
  match s.cq? q.cq with
  | some c => c.recs.any fun e => decide (c.sent ≤ e.1) && e.2.sq == sq
  | none => false

/-- A DELETING queue that is executed here, whose started commands are complete and their records written, becomes FREE on
both twins; its entries not yet started are not executed (R199). -/
def State.sqReap (s : State) (sq : Nat) : State :=
  match s.sq? sq with
  | some q =>
    if q.state == .deleting && s.execHere q then
      let t := { s with cmds := s.cmds.filter fun e => !(e.2.sq == sq && e.2.stage == .fetched) }
      if t.inFlight sq = 0 && !t.recWaits sq q then (t.sqGone sq).tellPeer [.sqErase sq] else t
    else s
  | none => s

/-- Takes up a fetched, incomplete entry of a queue at a position, as its new executor (R210). -/
def State.refetchAt (s : State) (sq : Nat) (q : Sq) (pos : Nat) : State :=
  if q.doneMask.testBit (pos - q.tail) || (s.cmdAt sq pos).isSome then s else
  let d := match s.progress.find? fun p => p.sq == sq && p.pos == pos with
    | some p => p.2.d
    | none => s.entryAt q pos
  s.takeEntry sq pos d

/-- The queues of a region are executed here now: every fetched entry whose DONE_MASK bit is clear, from TAIL
up to FETCH, is taken up at its own position (R210). -/
def State.requeue (s : State) (id : Nat) : State :=
  (s.sqs.filter fun e => e.2.region == id).foldl (fun (t : State) e =>
    ((List.range (min 64 (e.2.fetch - e.2.tail))).map (· + e.2.tail)).foldl (fun (u : State) pos =>
      u.refetchAt e.1 e.2 pos) t) s

/-! ### Scrub (R220, R387) -/

/-- The stripe blocks of a region's released flash locations. -/
def State.scrubBlocks (s : State) (region : Nat) : List Nat :=
  ((s.plc.scrubLocs.getD region []).map fun x => sbKey (locSet x) (s.locBlock x)).foldl insertNew []

/-- Phase 3 begins on this twin: every released flash location is invalid, and the stripe blocks that held them are
closed, refreshed and erased (R220, R387). -/
def State.scrubStart (s : State) (region : Nat) : State :=
  let l := s.plc.scrubLocs.getD region []
  let blocks := s.scrubBlocks region
  let t := l.foldl State.invalidateLoc { s with
    plc := { s.plc with scrubLocs := s.plc.scrubLocs.erase region }
    progress := s.progress.modify region fun p => { p with waits := blocks } }
  blocks.foldl (fun (u : State) k =>
    let set := k / 65536
    let b := k % 65536
    let sb := u.sb set b
    let u := if sb.state == .opened then (let v := u.setSb set b { sb with state := .full }
      { v with fmc := { v.fmc with opens := v.fmc.opens.filter fun e => !(e.1 / 2 == set && e.2 == b) } }) else u
    if (u.sb set b).state == .full || (u.sb set b).state == .image then (u.refresh set b).emptyCheck set b else u) t

/-- Whether phase 3 has erased the blocks that held the region's tiles (R387). -/
def State.scrubErased (s : State) (blocks : List Nat) : Bool :=
  !(blocks.any fun k => (s.sb (k / 65536) (k % 65536)).refresh)

/-- Phase 3 ends on this twin: every frame on the region's scrub list has been overwritten with zeros and is free again
(R220). -/
def State.scrubRelease (s : State) (region : Nat) : State :=
  { s with plc := { s.plc with scrub := s.plc.scrub.erase region }
           progress := s.progress.modify region fun p => { p with phase := 4 } }.noteFrames

/-! ### Progress of SANITIZE and FORMAT (R222) -/

/-- Records how far a region's SANITIZE or FORMAT has come; none: it is done (R222, R576). -/
def State.setProgress (s : State) (region : Nat) (p : Option Progress) : State :=
  match p with
  | some x => { s with progress := s.progress.set region x }.areaPut 4 (s.progressNow region x)
  | none => match s.progress.get? region with
    | some x => { s with progress := s.progress.erase region }.areaPut 4
        (progressEntry region 3 0 x.next (s.progressFin region x) x)
    | none => s

/-- The range of a FORMAT within the granule at which it stands: offset and length (R221). -/
def formatStep (p : Progress) : Nat × Nat :=
  let off := p.d.dst % 2 ^ 47
  let a := max off (p.next * gib)
  (a, min (off + p.d.len) (p.next * gib + gib) - a)

end Sys2Proof.Machine
end

