-- ==== Sys2Proof/Machine/InFlight.lean ====
section
/-! DEFINITION. Accesses in flight: those admitted under R48 that have not completed. They are requests in the tracker,
and transfer commands whose ranges have passed the checks. Changes of regions, keys, extents and leases wait for them
on both twins (R44, R45, R48, R51). -/

namespace Sys2Proof.Machine

/-- Whether a request is one of an LD. -/
def ofLd (ld : Nat) (r : Req) : Bool :=
  match r.src with
  | .cxl l _ => l == ld
  | _ => false

/-- The ranges that a command's descriptor names, which pass R48 when it starts. -/
def descRanges (d : Desc) : List (Nat × Nat × Nat) :=
  let src := (d.src / 2 ^ 52, d.src % 2 ^ 47, d.len)
  let dst := (d.dst / 2 ^ 52, d.dst % 2 ^ 47, d.len)
  match d.opcode with
  | 1 => [src, dst]
  | 2 => [dst]
  | 4 => [src]
  | 5 => [src]
  | 6 => [dst]
  | 7 => [dst]
  | _ => []

/-- Whether a command has started and its work has not ended (R48, R205). -/
def cmdRuns (c : Cmd) : Bool := c.stage == .running || c.stage == .writing

/-- The accesses in flight that satisfy a condition on region, offset and length, each with its request's condition. -/
def State.accesses (s : State) (onReq : Req → Bool) (onRange : Nat × Nat × Nat → Bool) : List Access :=
  (s.reqs.filter fun e => onReq e.2).map (fun e => .req e.1)
    ++ (s.cmds.filter fun e => cmdRuns e.2 && (descRanges e.2.d).any onRange).map fun e => .cmd e.1

/-- The accesses in flight to a region. -/
def State.accessOn (s : State) (id : Nat) : List Access :=
  s.accesses (fun r => r.region == id) fun g => g.1 == id

/-- The accesses in flight to a range of a region. -/
def State.accessIn (s : State) (id off len : Nat) : List Access :=
  s.accesses (fun r => r.region == id && overlaps r.off r.len off len)
    fun g => g.1 == id && overlaps g.2.1 g.2.2 off len

/-- The accesses in flight under a memory key (R51, R167). -/
def State.underKey (s : State) (k : Mkey) : List Access :=
  s.accesses (fun r => (match r.src with | .rdma .. => true | _ => false) && r.host == k.host
    && r.region == k.region && overlaps r.off r.len k.rof k.len) fun _ => false

/-- The accesses in flight under an extent (R51, R90). -/
def State.extentAccess (s : State) (e : Extent) : List Access :=
  s.accesses (fun r => ofLd e.ld r && r.region == e.region && overlaps r.off r.len e.rof e.len) fun _ => false

/-- The accesses in flight of a lease's host (R137). -/
def State.hostAccess (s : State) (host : Nat) : List Access :=
  s.accesses (fun r => r.host == host && (match r.src with | .rdma .. => true | _ => false)) fun _ => false

/-- Whether the keys of a region's earlier epoch are still held: a media operation begun under them runs (R548 step 5, R562). -/
def State.oldHeld (s : State) (id : Nat) : Bool :=
  match s.sec.keys.get? id with
  | some k => (s.moves.vals.any fun m => k.oldMoves.contains m.order) || s.fmc.reads.any k.oldReads.contains
  | none => false

/-- Whether an access is still in flight. -/
def State.flying (s : State) (a : Access) : Bool :=
  match a with
  | .req n => (s.reqs.get? n).isSome
  | .cmd n => match s.cmds.get? n with
    | some c => cmdRuns c
    | none => false
  | .scrub region => match s.progress.get? region with
    | some p => p.phase == 3
    | none => false
  | .media region => s.oldHeld region

/-- Whether any access to a region is in flight here (R44). -/
def State.regionBusy (s : State) (id : Nat) : Bool := !(s.accessOn id).isEmpty

/-- Whether a change that satisfies a condition lies in a CONTROL message which the peer has not acknowledged. -/
def State.unacked (s : State) (p : Change → Bool) : Bool :=
  s.twn.tx.vals.any fun x => match x.msg with
    | .control cs => cs.any p
    | _ => false

/-- The accesses of this twin that a change of the other's CONTROL leaves under the old translation: of a region that
closes, of its policy, of the range that a shrink removes or that a FORMAT's next step releases, of a key, an extent or a
lease that goes (R44, R45, R51, R137, R221); this twin's own scrub in phase 3 of a SANITIZE (R220); and its media operations
begun under a key epoch that ends (R548). -/
def State.oldAccess (s : State) (c : Change) : List Access :=
  match c with
  | .region id r =>
    let old := s.region id
    if (admits old.state && !admits r.state) || old.policy != r.policy || old.dflt != r.dflt then s.accessOn id
    else if r.size < old.size then s.accessIn id (r.size * gib) ((old.size - r.size) * gib)
    else []
  | .mkey idx k => match s.mkeys.get? idx with
    | some o => if k.live then [] else s.underKey o
    | none => []
  | .extent idx e => if e.removing then (match s.extents.get? idx with | some o => s.extentAccess o | none => []) else []
  | .extentErase idx => match s.extents.get? idx with
    | some o => s.extentAccess o
    | none => []
  | .leaseRevoke host => s.hostAccess host
  | .key id _ _ => [.media id]
  | .progress id (some p) =>
    if p.phase = 0 then s.accessIn id (formatStep p).1 (formatStep p).2
    else if p.phase = 3 then [.scrub id]
    else []
  | _ => []

end Sys2Proof.Machine
end

