-- ==== Sys2Proof/Machine/Media.lean ====
section
/-! DEFINITION. The flash sequencers: each die's queue, the order in which work is issued to it, and suspension (R376,
R377, R388). -/

namespace Sys2Proof.Machine

/-- The die, channel × 16 + position, that holds slice `k` of the tiles of a set (R366, R369). -/
def State.dieOf (s : State) (set k : Nat) : Nat :=
  let g := max 1 (s.fld Reg.fmcGeom0 9 0 / 8)
  (8 * (set % g) + k) * 16 + set / g

/-- The read of a slice of a flash tile, at a level. -/
def State.readWork (s : State) (level tile k : Nat) : FWork :=
  let loc := (s.tile tile).loc
  { die := s.dieOf (locSet loc) k, level := level, job := .read (loc / 8) k }

/-- Work that all eight dies of a set do together (R377). -/
def State.setWork (s : State) (set level : Nat) (job : FJob) : List FWork :=
  (List.range 8).map fun k => { die := s.dieOf set k, level := level, job := job }

/-- The reads of a promotion or relocation that have not been decoded (R253, R373, R375). -/
def State.moveReads (s : State) (tile : Nat) (m : Move) : List FWork :=
  let l := (List.range 8).filter fun k => !m.read.contains k
  if inFlash (s.tile tile).home = false then [] else
  match m.kind, m.stage with
  | .promote, .moving => if m.why = .atomTile then [] else l.map (s.readWork 3 tile)
  | .relocate, .moving => l.map (s.readWork 5 tile)
  | .relocate, .program => l.map (s.readWork 5 tile)
  | _, _ => []

/-- All work that the dies are asked for (R388). -/
def State.mediaAsked (s : State) : List FWork :=
  ((s.fmc.reads.filter fun x => inFlash (s.tile (x / 8)).home).map fun x => s.readWork 2 (x / 8) (x % 8))
  ++ (s.moves.flatMap fun e => s.moveReads e.1 e.2)
  ++ (s.fmc.units.flatMap fun e => if e.2.flying then s.setWork (e.1 / 65536) (if e.2.reloc then 5 else 4) (.prog e.1) else [])
  ++ (s.fmc.blocks.flatMap fun e => match e.2.state with
    | .erasing => s.setWork (e.1 / 65536) 6 (.erase e.1)
    | _ => [])

/-- Whether two works are the same one: reads of a codeword join (R373). -/
def FWork.same (a b : FWork) : Bool := a.die == b.die && a.job == b.job

/-- A work at the best level at which it is asked for. -/
def FWork.among (w : FWork) (l : List FWork) : FWork :=
  { w with level := minOf ((l.filter w.same).map fun x => x.level) w.level }

/-- The queues as they stand: ended work has left, and new work enters in the order in which it was asked for (R388). -/
def State.mediaQueue (s : State) : State :=
  let d := s.mediaAsked
  let live := fun (w : FWork) => d.any w.same
  let q := (s.fmc.queue.filter live).map fun w => w.among d
  let run := (s.fmc.run.filterV live).mapV fun w => w.among d
  let held := s.fmc.held.filterV live
  let ended := s.fmc.ended.filter live
  let q' := d.foldl (fun l w => if l.any w.same || run.vals.any w.same || held.vals.any w.same || ended.any w.same
    then l else l ++ [w.among d]) q
  { s with fmc := { s.fmc with queue := q', run := run, held := held, ended := ended } }

/-- Whether a work ends without a command of its own once its die takes up other work: a read of a move, which succeeds
unless FLASH_READ_DECODE says otherwise. -/
def FWork.quiet (w : FWork) : Bool := match w.job with | .read _ _ => decide (3 ≤ w.level) | _ => false

/-- Whether a die may take up other work. -/
def State.dieFree (s : State) (die : Nat) : Bool := match s.fmc.run.get? die with | some w => w.quiet | none => true

/-- Whether a work may be issued: a program of relocations once their reads have been, an erase once no read of its block
is outstanding (R377); reads and programs wait while the XTS pipelines are disabled (R557, log 125). -/
def State.mayIssue (s : State) (w : FWork) : Bool :=
  match w.job with
  | .read _ _ => s.bit Reg.secCtl 2
  | .prog key => s.bit Reg.secCtl 2 && match s.fmc.units.get? key with
    | some u => u.tiles.all fun x => match s.moves.get? x with
      | some m => !((s.moveReads x m).any fun a => s.fmc.queue.any a.same)
      | none => true
    | none => true
  | .erase key => (s.fmc.queue ++ s.fmc.run.vals).all fun x => match x.job with
    | .read cw _ => !(locSet (cw * 8) == key / 65536 && s.locBlock (cw * 8) == key % 65536)
    | _ => true

/-- The work that a die takes up next: the best level, then arrival order (R388). -/
def State.nextWork (s : State) (die : Nat) : Option FWork :=
  (s.fmc.queue.filter fun w => w.die == die && s.mayIssue w).foldl (fun a w => match a with
    | none => some w
    | some b => if w.level < b.level then some w else some b) none

/-- A die takes up a work; the quiet read that it did is over. -/
def State.takeWork (s : State) (w : FWork) : State :=
  { s with fmc := { s.fmc with
      queue := s.fmc.queue.filter fun x => !x.same w
      ended := match s.fmc.run.get? w.die with | some x => s.fmc.ended ++ [x] | none => s.fmc.ended
      run := s.fmc.run.set w.die w } }

/-- A free die resumes what it suspended (R376), or takes up its next work; a program or an erase begins on the eight dies
of its set together (R377, R388). -/
def State.issueDie (s : State) (die : Nat) : State :=
  if s.dieFree die = false then s else
  match s.fmc.held.get? die with
  | some w => { s.takeWork w with fmc := { (s.takeWork w).fmc with held := s.fmc.held.erase die } }
  | none => match s.nextWork die with
    | none => s
    | some w => match w.job with
      | .read _ _ => s.takeWork w
      | _ =>
        let l := s.fmc.queue.filter fun x => x.job == w.job
        if l.all fun x => s.dieFree x.die && (s.fmc.held.get? x.die).isNone
            && (match s.nextWork x.die with | some y => y.job == w.job | none => false)
        then l.foldl State.takeWork s else s

/-- The flash sequencers issue what they may; none but the save's own stream while Sage runs, and nothing while MEDIA_EN
is 0 (R388, R390). -/
def State.mediaStep (s : State) : State :=
  let t := s.mediaQueue
  if t.elg.sage.isSome || t.bit Reg.fmcCtl 0 = false then t else
  ((t.fmc.queue.map fun w => w.die) ++ t.fmc.held.keys).foldl State.issueDie t

/-- Whether a die does a job, or has done it for a move. -/
def State.onDie (s : State) (die : Nat) (job : FJob) : Bool :=
  (match s.fmc.run.get? die with | some w => w.job == job | none => false)
    || s.fmc.ended.any fun w => w.die == die && w.job == job

/-- Whether the eight dies of a set do a job. -/
def State.onSet (s : State) (set : Nat) (job : FJob) : Bool := (List.range 8).all fun k => s.onDie (s.dieOf set k) job

/-- Whether every read of a promotion is under way or has been decoded (R251). -/
def State.readsIssued (s : State) (tile : Nat) (m : Move) : Bool :=
  (s.moveReads tile m).all fun w => s.onDie w.die w.job

/-- Whether a die has nothing to do but patrol (R388). -/
def State.dieIdle (s : State) (die : Nat) : Bool :=
  s.dieFree die && (s.fmc.held.get? die).isNone && !(s.fmc.queue.any fun w => w.die == die)

/-- A die's program or erase is suspended for the read that it takes up next (R376). -/
def State.suspendFor (s : State) (die : Nat) : Option State :=
  match s.fmc.run.get? die, (s.fmc.queue.filter fun w => w.die == die && decide (w.level ≤ 3)).head? with
  | some op, some _ =>
    if (match op.job with | .read _ _ => true | _ => false) then none else
    match s.nextWork die with
    | some r => some { s with fmc := { s.fmc with
        queue := s.fmc.queue.filter fun x => !x.same r
        run := s.fmc.run.set die r, held := s.fmc.held.set die op
        suspends := s.fmc.suspends.upd die 0 (· + 1) } }
    | none => none
  | _, _ => none

end Sys2Proof.Machine
end

