-- ==== Sys2Proof/Machine/Deliver.lean ====
section
/-! DEFINITION. Delivery of ended requests to the path that made each, and `settle`: the requests in the
device are tried until nothing more ends (R20–R30, R102, R165, R452, R453, R681). -/

namespace Sys2Proof.Machine

/-- Answers a CXL.mem request that has ended (R22, R24, R102). -/
def State.cxlEnded (s : State) (ld tag : Nat) (r : Req) (e : Ending) : State :=
  if r.acked || r.silent then s else
  match e with
  | .data bytes poison =>
    let p := poison.any id
    let t := if p then (s.count (ldReg Reg.cxLdRefused ld)).err1 (3 + ld / 16) .poisoned else s
    t.emit (.cxlData ld tag bytes p (t.devLoad (ld / 16)))
  | .written _ => (s.count (ldReg Reg.cxLdWr ld)).emit (.cxlCmp ld tag (s.devLoad (ld / 16)))
  | .poisoned =>
    let t := (s.count (ldReg Reg.cxLdRefused ld)).err1 (3 + ld / 16) .poisoned
    t.emit (.cxlData ld tag ((List.range 64).map fun _ => 0) true (t.devLoad (ld / 16)))
  | .lost => s

/-- Answers a Legacy Aperture read that has ended (R657, R682). -/
def State.lapEnded (s : State) (ld tag : Nat) (r : Req) (e : Ending) : State :=
  if r.silent then s else
  match e with
  | .data bytes poison =>
    if poison.any id then (s.err1 21 .poisoned).emit (.bar2Data ld tag ((List.range 8).map fun _ => 0xFF) true)
    else s.emit (.bar2Data ld tag bytes false)
  | _ => s

/-- Answers the entry twin of a forwarded request that has ended: a repeat or a poisoned atomic by
FWD_REPLY, a read by READ_DATA; a sequenced write is completed by the entry at its apply; one that a new owner
has completed is answered like a repeat (R452, R453). -/
def State.forwardEnded (s : State) (tag : Nat) (r : Req) (e : Ending) : State :=
  if s.paired = false then s else
  match e with
  | .data bytes poison => s.post (.readData r.region tag bytes poison)
  | .written v => if r.stage == .opened then s else s.post (.fwdReply tag false v)
  | .poisoned => s.post (.fwdReply tag true 0)
  | .lost => s

/-- Delivers one ended request to its path. -/
def State.deliverTo (s : State) (p : Req × Ending) : State :=
  match p.1.src with
  | .cxl ld tag => s.cxlEnded ld tag p.1 p.2
  | .rdma qpn psn => s.rdmaEnded qpn psn p.1 p.2
  | .tq n => s.tqEnded n p.2
  | .lap ld _ tag => s.lapEnded ld tag p.1 p.2
  | .forward tag _ => s.forwardEnded tag p.1 p.2
  | .mirror _ => s
  | .replay => s
  | .internal => s

/-- Delivers one ended request; a committed write may ring a doorbell (R200). -/
def State.deliver (s : State) (p : Req × Ending) : State := (s.deliverTo p).ringWritten p.1 p.2

/-- Delivers everything that has ended, in order. -/
def State.deliverAll (s : State) : State := s.ended.foldl State.deliver { s with ended := [] }

/-- Goes on with the HLC's maintenance and with evictions whose lines have left it (R248, R298, R299). -/
def State.linePoll (s : State) : State :=
  let t := s.hlc.flush.keys.foldl (fun (u : State) x => (u.flushStep x).evictFlushed x) s
  t.maintStep

/-- Tries every request, goes on with the HLC's maintenance and with repairs, and polls transfer commands. -/
def State.settlePass (s : State) : State :=
  let t := (s.linePoll.nextSlots.serveFrames s.moves.length).copyPoll.tryAll.finishRepairs.refetchServe
  t.cmds.keys.foldl State.tqPoll t

/-- Passes until nothing ends and no repair ends. -/
def State.settleGo : Nat → State → State
  | 0, s => s
  | n + 1, s =>
    let t := s.settlePass
    if t.ended.isEmpty && t.moves.length == s.moves.length && t.reqs.length == s.reqs.length
        && t.hlc.flush.length == s.hlc.flush.length then t
    else t.deliverAll.settleGo n

/-- Answers the FM's change of a durability mode once the writes that the LD had completed have reached
their mirror points (R97). -/
def State.durPoll (s : State) : State :=
  (s.lds.filter fun e => match e.2.durWait with
    | some l => !(l.any fun i => (s.reqs.get? i).isSome)
    | none => false).foldl (fun t e =>
      { t with lds := t.lds.modify e.1 fun l => { l with durWait := none } }.emit (.fmReply (e.1 / 16) 0x5404 0 [])) s

/-- The reply to a key message: MKEY_REGISTER's of 24 bytes carries the R_Key (R166); a refusal and MKEY_INVALIDATE's are
the header alone (DESIGN CHOICE, log 112). -/
def State.keySay (s : State) (k : KeyReply) : State :=
  if k.type = 0x21 ∧ k.status = 0 then s.wcmSend k.qpn k.type k.tag 0 24 [(16, 4, k.key), (20, 4, 0)]
  else s.wcmSend k.qpn k.type k.tag k.status 16 []

/-- Replies, on a QP that is still ESTABLISHED, to key messages whose change both twins hold and under whose key nothing is
in flight (R154, R166, R167). -/
def State.keyPoll (s : State) : State :=
  let ended := fun (k : KeyReply) => (s.twn.ctl.get? k.seq).isNone && !(k.reqs.any s.flying)
  (s.rdx.replies.filter ended).foldl (fun t k => match t.qp? k.qpn with
      | some q => if q.state == .established then t.keySay k else t
      | none => t)
    { s with rdx := { s.rdx with replies := s.rdx.replies.filter fun k => !ended k } }

/-- Acknowledges the CONTROL messages under whose old translation no access of this twin is in flight any more (R44,
R51). -/
def State.ackPoll (s : State) : State :=
  (s.twn.ackHeld.filter fun e => !(e.2.any s.flying)).foldl (fun (t : State) e =>
    { t with twn := { t.twn with ackHeld := t.twn.ackHeld.erase e.1 } }.ackMsg e.1) s

/-- A QP that a host's DREQ is DRAINING answers DREP once its requests are done, and goes to QUARANTINE (R154). -/
def State.drainPoll (s : State) : State :=
  (s.rdx.qps.filter fun e => e.2.state == .draining && !e.2.asked && e.2.resps.isEmpty
      && !(s.reqs.vals.any fun r => onQp (s.qpnOf e.1) r)).foldl (fun t e =>
    (t.qpEnter (t.qpnOf e.1) .quarantine).emit (.cm 4 (t.qpnOf e.1) [])) s

/-- The back-pressure of a promotion wait ends once no write has waited past the limit (R258). -/
def State.waitPoll (s : State) : State :=
  if s.plc.waitOver.isEmpty then s
  else { s with plc := { s.plc with waitOver := s.plc.waitOver.filter s.waitsPromo } }

/-- Sends the completion records that may be sent, fetches what the queues may fetch, and frees those whose deletion has
nothing left to wait for (R199–R201, R209, R215). -/
def State.recordPoll (s : State) : State :=
  let t := (s.cqs.keys.foldl State.cqPump s).fetchAll
  t.sqs.keys.foldl State.sqReap t

/-- Lets the requests in the device go on until they wait (the life of a write and of a read), and ends what
waited for them. -/
def State.settle (s : State) : State := (s.settleGo 1000).waitPoll.durPoll.keyPoll.ackPoll.drainPoll.recordPoll.mediaStep.chanPoll.grantCredits.lldpPoll

/-- Takes a request and lets the device go on. -/
def State.submit (s : State) (r : Req) : State × Nat :=
  let p := s.enter r
  (p.1.settle, p.2)

end Sys2Proof.Machine
end

