-- ==== Sys2Proof/Machine/RegView.lean ====
section
/-! DEFINITION. What a register reads as: the bank, and the read-only fields that show the state of a
block (the RO rows of the spec's register sections). -/

namespace Sys2Proof.Machine

/-- The key of a mailbox instance (R498). -/
def mbxKey : MbxInst → Nat
  | .cxl ld => ld
  | .peer => 32
  | .mgmt q => 2 ^ 32 + q
  | .mgt e => 2 ^ 33 + e

/-- STATE of an LD (R121). -/
def ldCode : LdState → Nat
  | .unbound => 0
  | .bound => 1
  | .active => 2
  | .flr => 3
  | .departed => 4

/-- STATE of a CXL link (R112). -/
def linkCode : CxlLinkState → Nat
  | .down => 0
  | .training => 1
  | .l0 => 2
  | .l0p => 3
  | .l1 => 4
  | .recovery => 5

/-- STATE of a region (R69). -/
def regionCode : RegionState → Nat
  | .free => 0
  | .online => 1
  | .offline => 2
  | .resync => 3
  | .deleting => 4

/-- STATE of a DRAM channel (R358). -/
def chCode : ChState → Nat
  | .off => 0
  | .training => 1
  | .active => 2
  | .selfRefresh => 3
  | .retrain => 4
  | .failed => 5

/-- PEER (R487). -/
def peerCode : PeerState → Nat
  | .unknown => 0
  | .present => 1
  | .pathFault => 2
  | .suspect => 3
  | .failed => 4
  | .fenced => 5
  | .rejoining => 6

/-- LINK (R487). -/
def shaumCode : LinkState → Nat
  | .down => 0
  | .training => 1
  | .keying => 2
  | .up => 3
  | .retrain => 4
  | .mismatch => 5

/-- STATE of a firmware slot (R527). -/
def slotCode : SlotState → Nat
  | .empty => 0
  | .loading => 1
  | .valid => 2
  | .pending => 3
  | .active => 4
  | .previous => 5
  | .invalid => 6

/-- STATE of a rail (R622). -/
def railCode : RailState → Nat
  | .off => 0
  | .ramping => 1
  | .qualified => 2
  | .retryWait => 3
  | .failed => 4
  | .discharging => 5
  | .discharged => 6
  | .timedOut => 7

/-- SEQ (R620). -/
def seqCode : SeqState → Nat
  | .off => 0
  | .powerUp => 1
  | .on => 2
  | .powerDown => 3
  | .halted => 4
  | .hold => 5

/-- QUIET (R627). -/
def quietCode : Quiet → Nat
  | .awake => 0
  | .entering => 1
  | .quiet => 2
  | .waking => 3

/-- STATE of an EFL block (R587). -/
def eflCode : EflState → Nat
  | .normal => 0
  | .interrupted => 1
  | .erasing => 2
  | .suspended => 3

/-- A set of small numbers as bits. -/
def bitsSet (l : List Nat) : Nat := l.foldl (fun a i => a ||| (1 <<< i)) 0

/-! ### Views by block -/

/-- One link's half of CXA_LINK_STATUS (R112). -/
def State.linkHalf (s : State) (k : Nat) : Nat :=
  let l := s.links.getD k {}
  linkCode l.state + 2 ^ 4 * l.speed + 2 ^ 7 * l.width + 2 ^ 12 * b2n l.flitLo

/-- An LD. -/
def State.ld (s : State) (n : Nat) : Ld := s.lds.getD n {}

/-- CXL requests of an LD in the tracker (R121). -/
def State.ldOutstanding (s : State) (n : Nat) : Nat := s.reqs.count fun r =>
  (match r.src with | .cxl ld _ => ld == n | _ => false) && !r.acked

/-- MEM_ACTIVE: reported once the twin has admitted a region, to an LD that a host reaches (R86, R121). -/
def State.memActive (s : State) (n : Nat) : Bool :=
  s.admitted && (match (s.ld n).state with | .bound => true | .active => true | _ => false)

/-- Views of GLB, ISL and MBX. -/
def State.viewCtl (s : State) (off : Nat) : Option Nat :=
  if off = Reg.glbPartId then
    some (0x0960 * 2 ^ 16 + 2 ^ 12 * b2n s.variantN + 2 ^ 8 + b2n s.sec.engSample)
  else if off = Reg.glbIntStatus then some s.intStatus
  else if off = Reg.islStatus then some (quietCode s.isl.quiet * 2 ^ 30 + bitsSet s.isl.gated)
  else if off = Reg.mbxFwStatus then
    some (slotCode s.fw.a.state + 2 ^ 4 * slotCode s.fw.b.state + 2 ^ 8 * b2n s.fw.running
      + 2 ^ 9 * b2n s.fw.activating.isSome)
  else if off = Reg.mbxFwVersion then some s.fw.a.version
  else if off = Reg.mbxFwVersion + 4 then some s.fw.b.version
  else if 0x80000 ≤ off ∧ off < 0xC0000 then
    let ld := (off - 0x80000) / 0x2000
    let r := (off - 0x80000) % 0x2000
    let m := s.mbx.getD ld {}
    if r = 0x1F00 then some ((s.ld ld).barriers % 2 ^ 32)
    else if r = 0x1F04 then some (
      (match m.held, m.state with | some _, _ => 1 | none, .idle => 0 | none, .busy => 2 | none, .done => 3) * 2 ^ 30
        + m.result.progress * 2 ^ 23 + s.fw.phase * 2 ^ 16 + m.result.status * 2 ^ 8 + b2n m.lastSeq.isSome)
    else if r = 0x1F08 then some ((match m.held with | some h => h.1.seq | none => m.lastSeq.getD 0) % 2 ^ 32)
    else none
  else none

/-- Views of CXA and CXB (R112, R117, R119, R121, R122). -/
def State.viewCx (s : State) (off : Nat) : Option Nat :=
  let port := (off - 0x100000) / 0x40000
  let r := (off - 0x100000) % 0x40000 + 0x100000
  if 2 ≤ port then none
  else if r = Reg.cxLinkStatus then
    some (s.linkHalf (2 * port) + if s.bit (Reg.cxPortCfg + cxBase port) 1 then 2 ^ 16 * s.linkHalf (2 * port + 1) else 0)
  else if r = Reg.cxStageUsed then some (s.fld off 31 16 * 2 ^ 16 + s.stageUsed port % 2 ^ 16)
  else if r = Reg.cxGpf then
    some (s.fld off 17 17 * 2 ^ 17 + s.fld off 15 0
      + 2 ^ 16 * b2n ([0, 1].any fun k => (s.links.getD (2 * port + k) {}).gpf.isSome))
  else if Reg.cxLdCtl ≤ r ∧ r < Reg.cxLdCtl + 0x400 then
    let ld := port * 16 + (r - Reg.cxLdCtl) / 0x40
    let k := (r - Reg.cxLdCtl) % 0x40
    if k = 4 then some (s.ldOutstanding ld % 2 ^ 13 * 2 ^ 16 + 8 * b2n (s.memActive ld) + ldCode (s.ld ld).state)
    else if k = 0x10 then some ((s.ld ld).barriers % 2 ^ 32)
    else none
  else none

/-- Views of NET, RDX and BPM (R178, R180, R188, R192). On a fenced twin, which advertises nothing (R133), SERVICE goes on
showing the status last advertised, as a fence keeps the registers' values (DEDUCED, log 113). FEC_LOCK is LINK_UP: a link
that is up has its FEC alignment, and the model keeps no other state of it (DESIGN CHOICE, log 114). -/
def State.viewNet (s : State) (off : Nat) : Option Nat :=
  if off = Reg.netLldp then some ((s.reg off).toNat % 2 ^ 16 + (if s.twn.fenceIn then s.advert else s.service) % 4 * 2 ^ 16)
  else if Reg.netPortStatus ≤ off ∧ off < Reg.netPortStatus + 0x80 ∧ off % 16 = 0 then
    let p := s.ports.getD ((off - Reg.netPortStatus) / 16) {}
    some (p.txPaused * 2 ^ 16 + p.rxPaused * 2 ^ 8 + 16 * b2n p.up
      + (if p.up then 2 * (s.fld Reg.netPortMode 1 0 + 1) else 0) + b2n p.up)
  else if off = Reg.rdxQpEst then some (s.rdx.qps.count fun q => q.state == .established)
  else if off = Reg.rdxQpQuar then some (s.rdx.qps.count fun q => q.state == .quarantine)
  else if 0x9C0000 ≤ off ∧ off < 0x9C00A0 ∧ off % 0x20 = 8 then
    let i := (off - 0x9C0000) / 0x20
    some ((s.pool i).level * 2 ^ 16 + s.poolFree i)
  else none

/-- Views of TQM, PLC and HLC (R230, R278, R279, R307, R310, R312). -/
def State.viewPlc (s : State) (off : Nat) : Option Nat :=
  if off = Reg.tqmStatus then
    some (s.cmds.length + s.channels.length * 2 ^ 11 + b2n (decide (s.pauseCause ≠ 0)) * 2 ^ 16 + s.pauseCause * 2 ^ 17)
  else if off = Reg.plcStatus then
    some (s.movesInFlight + s.plc.k * 2 ^ 12
      + b2n (s.plc.frameDemand || decide (s.fld (Reg.plcTotals + 16) 29 0 ≠ 0)) * 2 ^ 16
      + b2n (s.moves.vals.any fun m => m.stage == .waitLedger) * 2 ^ 17
      + b2n s.promoBack * 2 ^ 18)
  else if off = Reg.plcTotals + 4 then some s.framesFree
  else if off = Reg.plcTotals + 8 then some s.pinnedCount
  else if off = Reg.plcTotals + 12 then some s.saveAreaCount
  else if off = Reg.hlcStatus then
    some (s.dirtyLines + s.hlc.evb.length * 2 ^ 20 + 2 ^ 31 * b2n (match s.hlc.maint with
      | some m => m.whole
      | none => false))
  else if Reg.hlcClassLines ≤ off ∧ off < Reg.hlcClassLines + 32 then
    some (s.hlc.ways.count fun w => w.cls == (off - Reg.hlcClassLines) / 4)
  else if off = Reg.hlcMaintStatus then
    some ((s.reg off).toNat / 2 * 2 + b2n s.hlc.maint.isSome)
  else none

/-- Views of DMC and FMC (R356, R358, R393). -/
def State.viewMedia (s : State) (off : Nat) : Option Nat :=
  if off = Reg.dmcEvent then
    some (s.fld off 17 16 * 2 ^ 16
      + bitsSet ((List.range 16).filter fun n => s.reg (chOff Reg.dmcChEvent n) ≠ 0))
  else if 0x600000 ≤ off ∧ off < 0x640000 ∧ off % 0x4000 = 0 then
    let n := (off - 0x600000) / 0x4000
    let c := s.chan n
    some (chCode c.state + 8 * b2n c.writeMode + 16 * maxOf c.temps.vals + 2 ^ 8 * s.chiveUsed n
      + 2 ^ 16 * b2n c.copying.isSome)
  else if off = Reg.fmcSaveStatus then
    some (s.saveNeed % 2 ^ 16 + 2 ^ 16 * minOf ((List.range s.sets).map s.readyIn) 0)
  else if off = Reg.fmcSaveCapLo then some (s.saveCap % 2 ^ 32)
  else if off = Reg.fmcSaveCapHi then some (s.saveCap / 2 ^ 32)
  else none

/-- Phase of Sage (R434). -/
def State.sagePhase (s : State) : Nat := match s.elg.sage with
  | some g => g.phase
  | none => 0

/-- Views of ELG (R433, R434). -/
def State.viewElg (s : State) (off : Nat) : Option Nat :=
  if off = Reg.elgLedger then some s.elg.eAvail
  else if off = Reg.elgLedger + 4 then some (s.limitNj / 10 ^ 6)
  else if off = Reg.elgLedger + 8 then some (s.fixedNj / 10 ^ 6)
  else if off = Reg.elgLedger + 12 then some (s.committedNj / 10 ^ 6)
  else if off = Reg.elgLedger + 16 then some s.charged
  else if off = Reg.elgLedger + 20 then some s.covered
  else if off = Reg.elgStatus then
    some (ledgerCode s.elg.state + 8 * b2n s.elgHeld + 16 * b2n (s.elg.test == .running || s.elg.probe.isSome) + 2 ^ 16 * s.sagePhase)
  else none

/-- The distinct elements of a list. -/
def insertAll (l : List Nat) : List Nat := l.foldl insertNew []

/-- Tiles still to copy (R494). -/
def State.resyncLeft (s : State) : Nat :=
  (s.twn.resync.vals.map fun r => r.todo.length + r.sent.length).foldl (· + ·) 0

/-- Views of TWN (R487, R488, R494). -/
def State.viewTwn (s : State) (off : Nat) : Option Nat :=
  if off = Reg.twnStatus then
    some (shaumCode s.twn.link + 8 * bitsSet s.lanesUp
      + 2 ^ 7 * (if s.bit Reg.twnCtl 1 = false then 0 else if s.twn.fast then 2 else 1)
      + 2 ^ 9 * peerCode s.twn.peer + 2 ^ 12 * b2n s.twn.fenceIn + 2 ^ 13 * b2n s.twn.fenceOut
      + 2 ^ 14 * b2n s.twn.fenceOk
      + 2 ^ 15 * (match s.twn.peerB with | some b => ledgerCode b.ledger | none => 0)
      + 2 ^ 18 * twinCode s.twn.self)
  else if off = Reg.twnEpoch then some (s.twn.epoch % 2 ^ 16)
  else if off = Reg.twnResyncRegions then
    some ((insertAll (s.twn.resync.keys ++ ((s.regions.filter fun e => e.2.state == .resync).map Prod.fst))).length)
  else if off = Reg.twnResyncTilesLo then some (s.resyncLeft % 2 ^ 32)
  else if off = Reg.twnResyncTilesHi then some (s.resyncLeft / 2 ^ 32)
  else none

/-- WIDTH of the firmware CRC unit (R239). -/
def State.crcWidth (s : State) : Nat := s.fld Reg.crcFwCfg 6 0

/-- STATE of the firmware CRC unit: bits above WIDTH read 0 (R225). -/
def State.crcState (s : State) : Nat := s.reg64 Reg.crcFwStateLo % 2 ^ s.crcWidth

/-- RESULT of the firmware CRC unit: STATE after reflection, if REFOUT is set, and the final XOR (R225). -/
def State.crcResult (s : State) : Nat :=
  let c := if s.bit Reg.crcFwCfg 8 then reflectBits s.crcWidth s.crcState else s.crcState
  (c ^^^ s.reg64 Reg.crcFwXoroutLo) % 2 ^ s.crcWidth

/-- Views of SEC and CRC (R225, R558–R561). -/
def State.viewSec (s : State) (off : Nat) : Option Nat :=
  if off = Reg.crcFwStateLo then some (s.crcState % 2 ^ 32)
  else if off = Reg.crcFwStateHi then some (s.crcState / 2 ^ 32)
  else if off = Reg.crcFwResultLo then some (s.crcResult % 2 ^ 32)
  else if off = Reg.crcFwResultHi then some (s.crcResult / 2 ^ 32)
  else if off = Reg.secLifecycle then
    some (s.sec.lifecycle + 2 ^ 6 * b2n s.sec.debugUnlocked + 2 ^ 7 * b2n (s.sec.rootHash1 != 0) + 2 ^ 8 * s.sec.rootRevoke)
  else if Reg.secSerial ≤ off ∧ off < Reg.secSerial + 16 then some (s.sec.serial.getD ((off - Reg.secSerial) / 4) 0)
  else if off = Reg.secArb then some s.sec.arb
  else if off = Reg.secBoot then
    some (b2n s.sec.slotB + 2 * b2n s.sec.bootSel + 4 * b2n s.sec.rootUsed + 8 * b2n s.sec.udsLocked
      + 2 ^ 8 * s.sec.failStep + 2 ^ 12 * s.sec.failOther)
  else if Reg.secChallenge ≤ off ∧ off < Reg.secChallenge + 32 then
    some (s.sec.challenge.getD ((off - Reg.secChallenge) / 4) 0)
  else none

/-- The record number that the next record written takes (R580). -/
def State.evrNextRn (s : State) : Nat :=
  if s.evr.keep < 1024 then s.evr.keep else 1024 + 2047 * s.evr.seq + (s.evr.slot - 1)

/-- Views of EFL and EVR (R586, R589, R590). -/
def State.viewEfl (s : State) (off : Nat) : Option Nat :=
  if off = Reg.eflStatus then
    let susp := s.eflSuspended
    some ((s.reg off).toNat % 2 ^ 16 / 2 ^ 11 * 2 ^ 11 + b2n s.eflBusy
      + 8 * (if s.efl.prog.isSome then 1 else if s.eflErasing then 2 else 0)
      + 2 ^ 5 * b2n susp + 2 ^ 6 * b2n s.efl.autoSusp + 2 ^ 7 * s.efl.err + 2 ^ 16 * b2n s.efl.lockout)
  else if off = Reg.evrNext then some s.evrNextRn
  else if off = Reg.evrOldest then some s.evr.oldest
  else if off = Reg.evrStatus then
    some (4 * b2n (decide (1024 ≤ s.evr.keep)) + 2 ^ 8 * s.evr.queue.length)
  else none

/-- Whether a staged aperture write is still on its way to its commit point. -/
def State.lapOpen (s : State) : Bool :=
  s.reqs.vals.any fun r => isWrite r.op && (match r.src with | .lap .. => true | _ => false)

/-- Whether staging is empty and every staged write has reached its commit point or been refused (R680, R683). -/
def State.lapDrained (s : State) : Bool := s.lap.staged.isEmpty && !s.lapOpen

/-- The aperture is ACTIVE while this twin holds the Ensign of region 0, ONLINE or RESYNC (R679). -/
def State.lapActive (s : State) : Bool :=
  ((s.region 0).ensign == .owner || ((s.region 0).ensign == .handing && !(s.region 0).offered)) && admits (s.region 0).state

/-- Whether a handoff of region 0 has stopped the acceptance of aperture writes (R680 step 1). -/
def State.lapStopped (s : State) : Bool := (s.region 0).ensign == .handing

/-- Views of PWS, TWB and LAP (R620, R622, R644, R647, R684–R686). -/
def State.viewPws (s : State) (off : Nat) : Option Nat :=
  if off = Reg.pwsStatus then
    some (seqCode s.pws.seq + 8 * s.pws.group + 2 ^ 6 * b2n s.pws.table
      + 2 ^ 7 * b2n (s.pws.pwrOk && s.pws.inputBad.isEmpty) + 2 ^ 8 * bitsSet s.pws.complete)
  else if Reg.pwsRailCfg0 ≤ off ∧ off < Reg.pwsRailCfg0 + 0x200 ∧ off % 16 = 12 then
    let r := s.pws.rails.getD ((off - Reg.pwsRailCfg0) / 16) {}
    some (railCode r.state + 2 ^ 7 * b2n r.pg + 2 ^ 8 * (r.retries % 4) + 2 ^ 16 * r.reading)
  else if off = Reg.twbMgtStatus then
    some (0x4C + s.twb.strap % 4 + 2 ^ 14 * b2n s.twb.alert + 2 ^ 15 * (8 - s.twb.rx.length) + 2 ^ 19 * s.twb.tx.length + 2 ^ 24 * s.twb.eid)
  else if off = Reg.twbAlert then some ((s.reg off).toNat / 2 * 2 + b2n (!s.twb.tx.isEmpty))
  else if off = Reg.twbPsbStatus then
    some (b2n (s.twb.fwWait || s.twb.psb == .firmware)
      + 2 * b2n (match s.twb.psb with | .elg _ => true | _ => false)
      + 2 ^ 16 * s.twb.result + 2 ^ 20 * bitsSet s.twb.stuck + 2 ^ 24 * s.twb.rxLen)
  else if off = Reg.lapDrain then
    some (b2n (s.bit Reg.lapCtl 1 && s.lapDrained))
  else if off = Reg.lapCommit then some s.lap.lastToken
  else if off = Reg.lapStatus then some (s.lap.staged.length + 2 ^ 13 * b2n s.lapActive)
  else none

/-- The read-only value that a register shows, where it is not the bank's. -/
def State.view (s : State) (off : Nat) : Option Nat :=
  if off < 0x100000 then s.viewCtl off
  else if off < 0x200000 then s.viewCx off
  else if off < 0x400000 then s.viewNet off
  else if off < 0x600000 then s.viewPlc off
  else if off < 0x800000 then s.viewMedia off
  else if off < 0x880000 then s.viewElg off
  else if off < 0x900000 then s.viewTwn off
  else if off < 0x9C0000 then s.viewSec off
  else if off < 0xA00000 then s.viewNet off
  else if off < 0xA80000 then s.viewEfl off
  else s.viewPws off

/-- What a register shows now. -/
def State.shows (s : State) (off : Nat) : Word := match s.view off with
  | some v => w32 v
  | none => s.reg off

end Sys2Proof.Machine
end

