-- ==== Sys2Proof/Machine/Changes.lean ====
section
/-! DEFINITION. Changes of descriptors and tables, which apply alike to a command's own twin and to the
peer through CONTROL (R42, R44, R53, R134, R197, R449, R508), and unmapping of tiles. -/

namespace Sys2Proof.Machine

/-! ### Unmapping (R44, R57, R221) -/

/-- Returns a tile to ZERO: its lines are dropped, a move of it is abandoned, its frame or flash location
is released, its contents are zeros (R44). With `scrub` the frame and location go to the scrub list of that region
instead of the free pools (R220). -/
def State.unmapTile (s : State) (scrub : Option Nat) (tile : Nat) : State :=
  let s := (s.dropMove tile true).dropLines tile
  let e := s.tile tile
  let t := if inDram e.home then
      (let u := s.freeFrameNo e.loc
       match scrub with
       | some r => { u with plc := { u.plc with scrub := u.plc.scrub.upd r [] (· ++ [e.loc]) } }
       | none => u)
    else if inFlash e.home then
      (match scrub with
       | some r => { s with plc := { s.plc with scrubLocs := s.plc.scrubLocs.upd r [] (· ++ [e.loc]) } }
       | none => s.invalidateLoc e.loc)
    else s
  ((t.setTile tile {}).clearTile tile).poisonDel (tileSectors tile)

/-- The tiles of a range that are not at home ZERO or hold contents. -/
def State.mappedIn (s : State) (first count : Nat) : List Nat :=
  (s.tiles.keys.filter fun t => decide (first ≤ t) && decide (t < first + count))

/-- Returns a range of tiles to ZERO (R44, R221). -/
def State.zeroRange (s : State) (first count : Nat) (scrub : Option Nat) : State :=
  (s.mappedIn first count).foldl (fun t x => t.unmapTile scrub x) s

/-! ### Granules (R39, R43) -/

/-- The RGT entries of changes that wait for the peer (R41, R42): they are taken already. -/
def State.rgtPending (s : State) : List (Nat × Nat) :=
  s.twn.ctl.vals.flatMap fun w => w.changes.filterMap fun c => match c with
    | .rgt i g => some (i, g)
    | _ => none

/-- The granules that regions occupy, or will once the peer has applied a change. -/
def State.granulesUsed (s : State) : List Nat := s.rgt.vals ++ s.rgtPending.map Prod.snd

/-- The `i`th granule that this twin looks at: twin 0 from the bottom of persistent space, twin 1 from its top, so that
two creations at one moment do not meet (DESIGN CHOICE, log 18). -/
def State.granuleAt (s : State) (i : Nat) : Nat := if s.twin then s.exposed - 1 - i else i

/-- The first `n` granules of the free pool in the order of `granuleAt`, looking at candidates from the `i`th. -/
def State.freeGranules (s : State) : Nat → Nat → Nat → List Nat
  | 0, _, _ => []
  | fuel + 1, n, i =>
    if n = 0 ∨ s.exposed ≤ i then []
    else if s.granulesUsed.contains (s.granuleAt i) then s.freeGranules fuel n (i + 1)
    else s.granuleAt i :: s.freeGranules fuel (n - 1) (i + 1)

/-- Takes `n` granules, if the pool has them (R41). -/
def State.takeGranules (s : State) (n : Nat) : Option (List Nat) :=
  let l := s.freeGranules (n + s.granulesUsed.length) n 0
  if l.length = n then some l else none

/-- Whether no entry of the RGT lies in a slice, and the slice lies within the table (R42, R45). -/
def State.sliceFree (s : State) (b n : Nat) : Bool :=
  let hit := fun (e : Nat × Nat) => decide (b ≤ e.1) && decide (e.1 < b + n)
  decide (b + n ≤ 98304) && !s.rgt.any hit && !s.rgtPending.any hit

/-- The first RGT entry of a free slice of `n` entries (R42). Twin 0 takes the lowest of the slices that begin the table
or follow an entry in use, twin 1 the highest of those that end the table or come before one (DESIGN CHOICE, log 18). -/
def State.freeBase (s : State) (n : Nat) : Option Nat :=
  let used := (s.rgt ++ s.rgtPending).map Prod.fst
  if s.twin then
    (((98304 - n) :: (used.filter fun i => decide (n ≤ i)).map (· - n)).filter fun b => s.sliceFree b n).foldl
      (fun a b => match a with
        | none => some b
        | some x => some (max x b)) none
  else
    ((0 :: used.map (· + 1)).filter fun b => s.sliceFree b n).foldl (fun a b => match a with
      | none => some b
      | some x => some (min x b)) none

/-! ### Applying a change -/

/-- A region descriptor as this twin holds it: the Ensign follows OWNER; the sequence this twin has
applied stays its own where the region was known; a region in RESYNC here leaves it only by RESYNC_CTL
(R42, R451, R454, R477). -/
def State.localRegion (s : State) (id : Nat) (r : Region) : Region :=
  let mine := r.owner == s.twin
  let old := s.regions.get? id
  { r with
    state := match old with
      | some o => if o.state == .resync && r.state == .online then .resync else r.state
      | none => r.state
    ensign := match old with
      | some o => if o.owner = r.owner then o.ensign else if mine then .owner else .peerOwns
      | none => if mine then .owner else .peerOwns
    pseq := match old with
      | some o => o.pseq
      | none => r.pseq }

/-- Removes from a table the queues that a FREE state leaves. -/
def State.freeRegion (s : State) (id : Nat) : State :=
  let r := s.region id
  let s := s.keyRetire id none
  { s with
    regions := s.regions.erase id
    rgt := s.rgt.filter fun e => !(decide (r.rgtBase ≤ e.1) && decide (e.1 < r.rgtBase + r.size))
    twn := { s.twn with window := s.twn.window.filter fun e => e.1 / 65536 != id }
    sec := { s.sec with keys := s.sec.keys.erase id, advanced := s.sec.advanced.filter (· != id) } }

/-- What a region's state does to the queues whose rings lie in it: an ACTIVE queue is STOPPED when the
region leaves ONLINE and RESYNC, and ACTIVE again when it returns (R199). -/
def State.sqRegion (s : State) (id : Nat) : State :=
  let ok := admits (s.region id).state
  (s.sqs.filter fun e => e.2.region == id).foldl (fun t e =>
    if ok && e.2.halted && e.2.state == .stopped then
      (t.modSq e.1 fun q => { q with state := .active, halted := false }).sqPublish e.1
    else if !ok && e.2.state == .active then
      (t.modSq e.1 fun q => { q with state := .stopped, halted := true }).sqPublish e.1
    else t) s

/-- Sets a region's state on this twin. -/
def State.regionState (s : State) (id : Nat) (st : RegionState) : State :=
  (s.modRegion id fun r => { r with state := st }).sqRegion id

/-- Whether the lifecycle state has data keys: MANUFACTURE and PRODUCTION (R533). -/
def State.dataKeys (s : State) : Bool := s.sec.lifecycle == 1 || s.sec.lifecycle == 2

/-- Sets a region's current RKS on this twin: its entry is appended, and the derived keys are loaded; a new epoch is counted,
and the keys of the old one are held for the media operations begun under it (R545–R548, R555, R564). -/
def State.loadKeys (s : State) (id epoch rks : Nat) : State :=
  let k : RgnKey := { epoch := epoch, rks := rks, xts := s.dataKeys, shaum := s.twn.keyed }
  match s.sec.keys.get? id with
  | some o =>
    if o.epoch = epoch ∧ o.rks = rks then { s with sec := { s.sec with keys := s.sec.keys.set id { o with xts := k.xts, shaum := k.shaum } } }
    else
      let moves := s.moves.filter fun e => e.2.stage != .waitSlot && s.regionOfTile e.1 == some id
      (s.count (Reg.secCount + 0xC)).keyPut id { k with
        oldMoves := moves.map fun e => e.2.order
        oldReads := s.fmc.reads.filter fun x => s.regionOfTile (x / 8) == some id }
  | none => s.keyPut id k

/-- Whether the key of a tile's slot is gone: its region has no current key in SEC, or a SANITIZE has advanced the epoch
and not yet unmapped the tile (R220, R548, R555). -/
def State.keyGone (s : State) (tile : Nat) : Bool :=
  match s.regionOfTile tile with
  | none => false
  | some r =>
    (match s.sec.keys.get? r with | some k => !k.xts | none => true)
      || (match s.progress.get? r with | some p => p.phase == 2 | none => false)

/-- Moves the QPs of a lease to ERROR (R136, R137). -/
def State.leaseQpsError (s : State) (host : Nat) : State :=
  (s.rdx.qps.filter fun e => e.2.host == host
      && (match e.2.state with | .error => false | .quarantine => false | _ => true)).foldl
    (fun t e => t.qpEnter (t.qpnOf e.1) .error) s

/-- Invalidates a memory key: its generation advances and its index goes into quarantine (R53, R167). -/
def State.keyKill (s : State) (idx : Nat) : State :=
  match s.mkeys.get? idx with
  | some k =>
    if k.live then
      { s with mkeys := s.mkeys.set idx { k with live := false, gen := (k.gen + 1) % 256, quar := true }
               mkeyGens := s.mkeyGens.set idx ((k.gen + 1) % 256) }
    else s
  | none => s

/-- Invalidates every key of a host (R137). -/
def State.hostKeysKill (s : State) (host : Nat) : State :=
  ((s.mkeys.filter fun e => e.2.host == host && e.2.live).map Prod.fst).foldl State.keyKill s

/-- Asks for a tile to be pinned when it reaches DRAM: a move of it is joined, a failed tile repaired, any
other promoted; where no move may start the tile cannot be pinned (R249, R267). -/
def State.pinJoin (s : State) (tile : Nat) (cmds peers : List Nat) : State :=
  let join := fun (t : State) => match t.moves.get? tile with
    | some _ => t.modMove tile fun x => { x with pin := true, cmds := x.cmds ++ cmds.filter (fun c => !x.cmds.contains c), peers := x.peers ++ peers }
    | none => t.joinEnd cmds peers tile false false
  let waits : Bool := match s.moves.get? tile with
    | some m => m.stage == .waitSlot && (m.kind == .evict || m.kind == .relocate)
    | none => false
  if (s.moves.get? tile).isSome && !waits then join s
  else match (s.tile tile).home with
  | .failed => join (s.repairTile tile)
  | _ => if s.mayMove then s.startMove tile .promote .pin cmds peers else s.joinEnd cmds peers tile false false

/-- Pins one tile for a PIN of this twin or of the peer: a tile in DRAM at once within PIN_PCT, any other once it has been
promoted or repaired (R267). -/
def State.pinFor (s : State) (tile : Nat) (cmds peers : List Nat) : State :=
  let e := s.tile tile
  let busy : Bool := match s.moves.get? tile with | some m => m.stage != .waitSlot | none => false
  if inDram e.home && !busy then
    let ok := e.pinned || s.pinRoom
    (if ok then s.modTile tile fun x => { x with pinned := true } else s).joinEnd cmds peers tile true ok
  else s.pinJoin tile cmds peers

/-- Applies one change on this twin. -/
def State.applyChange (s : State) (c : Change) : State :=
  match c with
  | .region id r =>
    if r.state == .free then s.freeRegion id
    else
      let old := s.regions.get? id
      let t := { s with regions := s.regions.set id (s.localRegion id r) }
      if (match old with | some o => o.epoch == r.epoch | none => true) then t.sqRegion id
      else
        let t := if r.state == .deleting then { t with sec := { t.sec with advanced := insertNew t.sec.advanced id } } else t
        (t.keyRetire id (some r.epoch)).sqRegion id
  | .key id epoch rks => s.loadKeys id epoch rks
  | .rgt idx g => { s with rgt := s.rgt.set idx g }
  | .rgtErase idx => { s with rgt := s.rgt.erase idx }
  | .zeroTiles first count => s.zeroRange first count none
  | .scrubTiles region first count => s.zeroRange first count (some region)
  | .progress region p =>
    let t := s.setProgress region p
    if (match p with | some x => x.phase == 3 | none => false) then t.scrubStart region else t
  | .extent idx e => { s with extents := s.extents.set idx e, extentGens := s.extentGens.set idx e.gen }
  | .extentErase idx => { s with extents := s.extents.erase idx }
  | .mkey idx k =>
    if k.live then { s with
      mkeys := s.mkeys.set idx k, mkeyGens := s.mkeyGens.set idx k.gen
      rdx := { s.rdx with keyFreed := s.rdx.keyFreed.filter (· != idx) } }
    else s.keyKill idx
  | .lease host l =>
    let st := match l.state, s.leases.get? host with
      | .revoked, _ => LeaseState.revoked
      | x, none => x
      | _, some o => o.state
    { s with leases := s.leases.set host { l with state := st } }
  | .leaseRevoke host =>
    ({ s with leases := s.leases.modify host fun l => { l with state := .revoked } }.leaseQpsError host).hostKeysKill host
  | .leaseErase host => { s with leases := s.leases.erase host }
  | .sq id q =>
    let q' := match s.sqs.get? id with
      | some o => { q with tail := o.tail, doneMask := o.doneMask, completed := o.completed, notes := o.notes }
      | none => q
    ({ s with sqs := s.sqs.set id q' }).sqPublish id
  | .sqErase id => s.sqGone id
  | .cq id q =>
    let q' := match s.cqs.get? id with
      | some o => { q with
          signal := o.signal, recs := o.recs, nextSeq := max o.nextSeq q.nextSeq, sent := if s.myTarget o = s.myTarget q then o.sent else min o.sent (max 1 (s.consOf o)) }
      | none => q
    (({ s with cqs := s.cqs.set id q' }).ringPut q.region q.base 64 (leBytes 8 q'.nextSeq)).cqPump id
  | .cqErase id => { s with cqs := s.cqs.erase id }
  | .binding ld b =>
    { s with lds := s.lds.upd ld {} fun l =>
        { l with bound := if b then some (l.bound.getD ld) else none
                 state := if b then (match l.state with | .unbound => .bound | x => x) else .unbound } }
  | .complete sq pos r cq seq => s.onComplete sq pos r cq seq
  | .assigned sq pos r cq seq => s.onAssigned sq pos r cq seq
  | .pin tile on =>
    if on then s.pinFor tile [] [] else s.modTile tile fun e => { e with pinned := false }
  | .pinAsk cmd tile => s.pinFor tile [] [cmd]
  | .pinEnd cmd tile miss => { s with cmds := s.cmds.modify cmd fun d =>
      { d with peerLeft := d.peerLeft.filter (· != tile), missed := if miss then insertNew d.missed tile else d.missed } }
  | .poison psa src => s.poisonAdd [psa / 64] src
  | .time ns => { s with time := ns }
  | .mode d => (s.setBit Reg.twnCtl 3 d).setBit Reg.fmcCtl 2 (!d)
  | .rejoin tiles full => { s with twn := { s.twn with peerRejoin := some (tiles, full) } }
  | .fetch _ => s
  | .fetchSlots _ _ => s
  | .claim _ => s
  | .cancel tags => s.cancelFwd tags
  | .handoff .. => s
  | .force id auth =>
    { s.modRegion id (fun r => { r with
        owner := auth, ensign := if auth = s.twin then .owner else .peerOwns, offered := false }) with
      twn := { s.twn with settled := s.twn.settled.set id (if auth = s.twin then 1 else 2) } }
  | .ctlWord region base val => s.ringPut region base 0 (leBytes 8 val)
  | .window region slot reqId host atomic result =>
    let w : WinSlot := { reqId := reqId, host := host, atomic := atomic, result := result }
    { s with twn := { s.twn with window := s.twn.window.set (region * 65536 + slot) w } }

/-- Applies changes in order. -/
def State.applyChanges (s : State) (cs : List Change) : State := cs.foldl State.applyChange s

/-- Makes changes that both twins must hold, sent to the peer in one CONTROL message while PAIRED. A
deferred change takes effect here only once the peer has applied it (R42); any other at once. `inst` is
the mailbox instance whose command waits for the peer (R508). Answers whether the peer is waited for. -/
def State.both (s : State) (cs : List Change) (defer : Bool) (inst : Option Nat) : State × Bool :=
  if s.paired then
    let t := if defer then s else s.applyChanges cs
    let p := t.send (.control cs)
    ({ p.1 with twn := { p.1.twn with ctl := p.1.twn.ctl.set p.2 {
      changes := if defer then cs else [], made := if defer then [] else cs, inst := inst } } }, true)
  else (s.applyChanges cs, false)

/-- The same, applied here at once, where nothing waits. -/
def State.bothNow (s : State) (cs : List Change) : State := (s.both cs false none).1

/-- The peer has applied a CONTROL message: a deferred change takes effect here (R42). Answers the
instance that waited for it. -/
def State.ctlDone (s : State) (seq : Nat) : State × Option Nat :=
  match s.twn.ctl.get? seq with
  | none => (s, none)
  | some w => ({ s with twn := { s.twn with ctl := s.twn.ctl.erase seq } }.applyChanges w.changes, w.inst)

end Sys2Proof.Machine
end

