-- ==== Sys2Proof/Machine/MbxCore.lean ====
section
/-! DEFINITION. What every mailbox transport shares: MCTP packets and the alert of the MGT bus, answers and
results of Jorrid commands, the completion of a command, the objects it holds, and the reset of a
transport session (R498–R508, R634, R635). -/

namespace Sys2Proof.Machine

/-! ### The MGT bus's transmit side (R634, R635) -/

/-- Whether any cause of SMBALERT_N is set (R635, R644). -/
def State.alertCause (s : State) : Bool := !s.twb.tx.isEmpty || decide (s.fld Reg.twbAlert 3 1 ≠ 0)

/-- Drives SMBALERT_N: asserted while a cause is set, but not within the 100 µs after an alert response
read has released it (R635). -/
def State.noteAlert (s : State) : State :=
  if s.alertCause && !s.twb.alert && !s.twb.alertHeld then
    { s with twb := { s.twb with alert := true } }.emit (.smbAlert true)
  else if !s.alertCause && s.twb.alert then
    { s with twb := { s.twb with alert := false } }.emit (.smbAlert false)
  else s

/-- The MCTP packets of a message: header version 1, destination, source, SOM, EOM, sequence and tag, and
at most 64 bytes of payload each (R630, R634). `n` is how many are still to be cut, `i` this one's number. -/
def mctpPackets (dest src tag : Nat) : Nat → Nat → List Byte → List (List Byte)
  | 0, _, _ => []
  | n + 1, i, bs =>
    let last := decide (bs.length ≤ 64)
    let flags := 128 * b2n (i == 0) + 64 * b2n last + 16 * (i % 4) + tag % 8
    (leBytes 1 1 ++ leBytes 1 dest ++ leBytes 1 src ++ leBytes 1 flags ++ bs.take 64)
      :: (if last then [] else mctpPackets dest src tag n (i + 1) (bs.drop 64))

/-- Moves packets that wait into the transmit queue of 16, in message order (R634). -/
def State.mctpFill (s : State) : State :=
  let n := 16 - s.twb.tx.length
  { s with twb := { s.twb with tx := s.twb.tx ++ s.twb.held.take n, held := s.twb.held.drop n } }.noteAlert

/-- Sends an MCTP message of a type to an endpoint (R634). -/
def State.mctpSend (s : State) (dest tag type : Nat) (body : List Byte) : State :=
  let bs := leBytes 1 type ++ body
  { s with twb := { s.twb with held := s.twb.held ++ mctpPackets dest s.twb.eid tag (bs.length / 64 + 1) 0 bs } }.mctpFill

/-! ### Commands -/

/-- OPCODE of a Jorrid command (R511). -/
def opcodeOf : JorridCmd → Nat
  | .identify => 0x0001
  | .getStatus => 0x0002
  | .abort => 0x0003
  | .setTime .. => 0x0004
  | .resetWarm => 0x0005
  | .plannedHandoff .. => 0x0006
  | .setMode .. => 0x0007
  | .relay .. => 0x0008
  | .regRead .. => 0x0010
  | .regWrite .. => 0x0011
  | .regionCreate .. => 0x0020
  | .regionResize .. => 0x0021
  | .regionDelete .. => 0x0022
  | .regionSetPolicy .. => 0x0023
  | .regionSetAttr .. => 0x0024
  | .regionForceOnline .. => 0x0025
  | .regionInfo .. => 0x0026
  | .ldBind .. => 0x0030
  | .ldUnbind .. => 0x0031
  | .setDurability .. => 0x0032
  | .extentAdd .. => 0x0033
  | .extentRelease .. => 0x0034
  | .notifyVector .. => 0x0035
  | .leaseGrant .. => 0x0040
  | .leaseChange .. => 0x0041
  | .leaseRevoke .. => 0x0042
  | .mkeyRegisterFor .. => 0x0043
  | .mkeyInvalidateFor .. => 0x0044
  | .sqCreate .. => 0x0050
  | .sqDelete .. => 0x0051
  | .sqStop .. => 0x0052
  | .sqResume .. => 0x0053
  | .sqReset .. => 0x0054
  | .cqCreate .. => 0x0055
  | .cqDelete .. => 0x0056
  | .cqSetTarget .. => 0x0057
  | .twinRelease => 0x0060
  | .twinTakeover => 0x0061
  | .twinRetrain => 0x0062
  | .scrubStart .. => 0x0070
  | .capTest => 0x0071
  | .savePlanned => 0x0072
  | .eventRead .. => 0x0080
  | .eventQueueSet .. => 0x0081
  | .fwInfo => 0x0090
  | .fwTransferInitiate .. => 0x0091
  | .fwTransferContinue .. => 0x0091
  | .fwTransferEnd .. => 0x0091
  | .fwTransferAbort .. => 0x0091
  | .fwActivateLive .. => 0x0092
  | .fwActivateNextReset .. => 0x0092
  | .provision .. => 0x00A0
  | .other n => n

/-- The status codes of R502. -/
def jrSuccess : Nat := 0
def jrBusy : Nat := 1
def jrInvalid : Nat := 2
def jrUnsupported : Nat := 3
def jrDenied : Nat := 4
def jrSeqError : Nat := 5
def jrRetry : Nat := 6
def jrConflict : Nat := 7
def jrState : Nat := 8
def jrInUse : Nat := 9
def jrNoSpace : Nat := 0xA
def jrNotReady : Nat := 0xB
def jrAborted : Nat := 0xC
def jrPeerAbsent : Nat := 0xD
def jrVerifyFail : Nat := 0xE
def jrNotLive : Nat := 0xF
def jrRollback : Nat := 0x10
def jrFailed : Nat := 0x11

/-- What a mailbox command may wait for: a scrub pass, a capacitance test, or an event of one extent. -/
def jwScrub : Nat := 0
def jwCap : Nat := 1
def jwExtent (i : Nat) : Nat := 2 ^ 16 + i

/-- The objects of R508: regions, LDs, leases, queues, key entries, firmware slots, the twin pair. -/
def objRegion (i : Nat) : Nat := i
def objLd (i : Nat) : Nat := 2 ^ 16 + i
def objLease (i : Nat) : Nat := 2 ^ 17 + i
def objSq (i : Nat) : Nat := 2 ^ 18 + i
def objCq (i : Nat) : Nat := 2 ^ 19 + i
def objKey (i : Nat) : Nat := 2 ^ 20 + i
def objSlot (b : Bool) : Nat := 2 ^ 21 + b2n b
def objTwin : Nat := 2 ^ 22

/-! ### Instances (R503–R506) -/

/-- Changes an LD. -/
def State.modLd (s : State) (n : Nat) (f : Ld → Ld) : State := { s with lds := s.lds.upd n {} f }

/-- A mailbox instance by key. -/
def State.mb (s : State) (k : Nat) : Mbx := s.mbx.getD k {}

/-- Changes a mailbox instance. -/
def State.modMb (s : State) (k : Nat) (f : Mbx → Mbx) : State := { s with mbx := s.mbx.upd k {} f }

/-- The bytes of a Jorrid result: its header and the numbers of its body, 4 bytes each (R501). -/
def jBytes (seq tag : Nat) (r : JResult) : List Byte :=
  leBytes 2 r.opcode ++ leBytes 2 tag ++ leBytes 4 seq ++ leBytes 2 (4 * r.body.length) ++ leBytes 1 r.status
    ++ leBytes 1 r.progress ++ leBytes 2 r.detail ++ leBytes 2 0 ++ r.body.flatMap (leBytes 4)

/-- The return code that a CXL mailbox shows for opcode 0xC000: Background Command Started for the BUSY result of a command
that goes on in the background, else Success (R108, R499, R505). -/
def State.mbxNote (s : State) (k : Nat) (r : JResult) : State :=
  if k < 32 then s.modLd k fun l => { l with mbxOp := 0xC000, mbxRet := b2n ((s.mb k).background && r.status == jrBusy) } else s

/-- Answers on an instance: on the peer mailbox by PEER_MBX, on MGT in an MCTP message, on a management QP in a WCM of
TYPE 0x30 with the TAG of the command's (R498, R505). -/
def State.mbxSay (s : State) (k seq tag : Nat) (r : JResult) : State :=
  if k = 32 then s.post (.peerMbxResult seq r)
  else
    let t := (s.mbxNote k r).emit (.jorrid k seq tag r)
    if 2 ^ 32 ≤ k ∧ k < 2 ^ 33 then
      let n := 16 + 4 * r.body.length
      t.wcmSend (k - 2 ^ 32) 0x30 (s.mb k).mtag 0 (16 + n) [(16, n, ofLe (jBytes seq tag r))]
    else if 2 ^ 33 ≤ k then t.mctpSend (k - 2 ^ 33) (s.mb k).mtag 0x7F (leBytes 4 (Config.firmwareDefined 0x7F) ++ jBytes seq tag r)
    else t

/-- An unsolicited notice on a management QP: a WCM of TYPE 0x30 whose Jorrid header has TAG 0xFFFF, SEQ 0, STATUS SUCCESS and
PROGRESS 100; it touches no instance, and is never sent again (R665). The spec gives the WCM's own TAG no value: 0xFFFF too. -/
def State.noticeSend (s : State) (qpn opcode : Nat) (body : List Nat) : State :=
  let n := 16 + 4 * body.length
  s.wcmSend qpn 0x30 0xFFFF 0 (16 + n)
    [(16, n, ofLe (jBytes 0 0xFFFF { opcode := opcode, status := jrSuccess, progress := 100, body := body }))]

/-- How a command that has gone to the background tells its host that it has ended (R505): MSI-X vector 0
on CXL, BG_DONE on MGT, a second result on the others. -/
def State.mbxSignal (s : State) (k seq tag : Nat) (r : JResult) : State :=
  if k < 32 then ((s.mbxNote k r).emit (.jorrid k seq tag r)).emit (.msix k 0)
  else if 2 ^ 33 ≤ k then (s.flag Reg.twbAlert 1).noteAlert
  else s.mbxSay k seq tag r

/-- Completes the command in progress on an instance with a result: stored, answered or signalled; its
background slot and objects are free (R503–R506, R508). The result of a command whose session was reset is
discarded (R522). -/
def State.mbxEnd (s : State) (k : Nat) (r : JResult) : State :=
  let m := s.mb k
  match m.state with
  | .busy =>
    if m.discard then { s with mbx := s.mbx.erase k } else
    let res := { r with opcode := (m.cmd.map opcodeOf).getD 0, progress := 100 }
    let t := s.modMb k fun x => { x with
      state := .done, result := res, mtag := m.ctag, cmd := none, objects := [], slot := false
      background := false, abortAsked := false, waits := [], access := [], step := 0, ending := {} }
    let seq := m.lastSeq.getD 0
    if m.background then t.mbxSignal k seq m.tag res else t.mbxSay k seq m.tag res
  | _ => s

/-- Completes with a status alone. -/
def State.mbxStatus (s : State) (k status : Nat) : State := s.mbxEnd k { status := status }

/-- Completes with SUCCESS and a body. -/
def State.mbxOk (s : State) (k : Nat) (body : List Nat) : State := s.mbxEnd k { status := jrSuccess, body := body }

/-- Completes with a status and a cause (R501). -/
def State.mbxFail (s : State) (k status detail : Nat) : State := s.mbxEnd k { status := status, detail := detail }

/-- Background slots in use (R506). -/
def State.slotsBusy (s : State) : Nat := s.mbx.count fun m => m.slot

/-- The objects that commands in progress hold (R508). -/
def State.objectsHeld (s : State) : List Nat := s.mbx.vals.flatMap fun m => m.objects

/-- The mailbox instance that waits for an event, taken off the list. -/
def State.jwTake (s : State) (w : Nat) : State × Option Nat :=
  ({ s with jwait := s.jwait.erase w }, s.jwait.get? w)

/-- Makes an instance's command wait for an event. -/
def State.jwPut (s : State) (w k : Nat) : State := { s with jwait := s.jwait.set w k }

/-- Completes the command that waits for an event, if one does. -/
def State.jwEnd (s : State) (w : Nat) (r : JResult) : State :=
  let p := s.jwTake w
  match p.2 with
  | some k => p.1.mbxEnd k r
  | none => p.1

/-- A reset of a transport session (R503, R522): LAST_SEQ unset, the result zeros, IDLE; a held command is
lost. A command in progress runs to its end under a key of its own, and its result is discarded. -/
def State.mbxReset (s : State) (k : Nat) : State :=
  let m := s.mb k
  let t := { s with mbx := s.mbx.erase k }
  match m.state with
  | .busy =>
    let o := s.mbx.fresh (2 ^ 40)
    let mv := fun (x : Option Nat) => if x = some k then some o else x
    { t with
      mbx := t.mbx.set o { m with discard := true, held := none }
      jwait := t.jwait.mapV fun x => if x = k then o else x
      twn := { t.twn with
        ctl := t.twn.ctl.mapV fun c => { c with inst := mv c.inst }
        releaseInst := mv t.twn.releaseInst, handoffInst := mv t.twn.handoffInst }
      fw := { t.fw with actInst := mv t.fw.actInst } }
  | _ => t

/-- Goes on with a command that waits for the peer to apply its changes: it ends once no CONTROL of it is
unacknowledged and no request that it waits for is in flight (R42, R508). -/
def State.mbxPoll (s : State) (k : Nat) : State :=
  let m := s.mb k
  if m.step = 1 && !(s.twn.ctl.vals.any fun c => c.inst == some k) && !(m.access.any s.flying)
  then s.mbxEnd k m.ending else s

/-- Makes changes on both twins for the command of an instance; the command ends with `r` when both have
applied them (R42, R508). -/
def State.mbxBoth (s : State) (k : Nat) (cs : List Change) (defer : Bool) (r : JResult) : State :=
  let p := s.both cs defer (some k)
  (p.1.modMb k fun m => { m with ending := r, step := 1 }).mbxPoll k

/-- Start-up phase of the twin (R509). -/
def State.phase (s : State) : Nat := s.fw.phase

/-- A firmware slot. -/
def State.fwSlot (s : State) (b : Bool) : FwSlot := if b then s.fw.b else s.fw.a

/-- Changes a firmware slot. -/
def State.modSlot (s : State) (b : Bool) (f : FwSlot → FwSlot) : State :=
  { s with fw := if b then { s.fw with b := f s.fw.b } else { s.fw with a := f s.fw.a } }

/-- Discards a transfer: the slot is EMPTY, and what waits of its erase is not begun (R513, R514). -/
def State.loadDrop (s : State) (b : Bool) : State :=
  let t := s.modSlot b fun _ => { factory := false }
  { t with
    fw := { t.fw with transfer := none, loadBy := none }
    efl := { t.efl with jobs := t.efl.jobs.filter fun j => !(decide (j.2 < 192) && j.2 / 96 == b2n b) } }

/-- Whether the lifecycle state allows an image with or without MFG: in BLANK only manufacturing images, in MANUFACTURE both,
from PRODUCTION on only production images (R533, R535). -/
def State.mfgOk (s : State) (mfg : Bool) : Bool :=
  if s.sec.lifecycle = 0 then mfg else if s.sec.lifecycle = 1 then true else !mfg

/-- SEC_ARB_ADVANCE: the missing anti-rollback bits up to a value are programmed; one at or below the counter is ignored
(R538). -/
def State.arbAdvance (s : State) (svn : Nat) : State :=
  { s with sec := { s.sec with arb := max s.sec.arb (svn % 256) } }

/-- Makes a slot ACTIVE, and the other one PREVIOUS if it was ACTIVE (R513). -/
def State.slotActive (s : State) (b : Bool) : State :=
  let t := s.modSlot b fun x => { x with state := .active }
  if (t.fwSlot (!b)).state == .active then t.modSlot (!b) fun x => { x with state := .previous } else t

/-- A boot from a PENDING slot is confirmed: the slot is ACTIVE, the other one PREVIOUS, and the anti-rollback counter
advances to the lower of their SVNs (R513, R538). -/
def State.fwConfirm (s : State) : State :=
  if (s.fwSlot s.fw.running).state == .pending then
    let t := s.slotActive s.fw.running
    if (t.fwSlot (!t.fw.running)).state == .previous then t.arbAdvance (min t.fw.a.svn t.fw.b.svn) else t
  else s

/-- Enters a start-up phase, with firmware's event record (R509, R583); reaching phase 7 or 8 confirms the boot (R513). -/
def State.setPhase (s : State) (n : Nat) : State :=
  if s.fw.phase = n then s
  else
    let t := { s with fw := { s.fw with phase := n } }.recordF 0x2001 n 0 0 { fw := true }
    if n = 7 ∨ n = 8 then t.fwConfirm else t

/-- Follows the phases ADMITTING and IN_SERVICE with the regions' states (R509): 7 once some region is
admitted, 8 when every region is ONLINE. -/
def State.notePhase (s : State) : State :=
  if 5 ≤ s.phase ∧ s.phase ≤ 8 then
    let st := s.regions.vals.map fun r => r.state
    if st.all fun x => x == .online then
      (if s.admitted || (st.isEmpty && (s.paired || s.single)) then s.setPhase 8 else s)
    else if st.any admits && s.admitted then s.setPhase 7
    else s
  else s

end Sys2Proof.Machine
end

