-- ==== Sys2Proof/Machine/CxlCore.lean ====
section
/-! DEFINITION. CXL ports: links and the LDs on them, resets of LDs, dynamic capacity extents, bindings,
event logs, and the admission of CXL.mem requests (R76–R108). -/

namespace Sys2Proof.Machine

/-! ### Links and LDs (R77, R78, R83) -/

/-- The key of a link. -/
def linkKey (port link : Nat) : Nat := 2 * port + link

/-- A link. -/
def State.link (s : State) (port link : Nat) : CxlLink := s.links.getD (linkKey port link) {}

/-- Changes a link. -/
def State.modLink (s : State) (port link : Nat) (f : CxlLink → CxlLink) : State :=
  { s with links := s.links.upd (linkKey port link) {} f }

/-- Whether a port is bifurcated: BIFURCATE took effect when LINK_EN last went to 1 (R78). -/
def State.bifurcated (s : State) (port : Nat) : Bool := decide ((s.link port 1).full ≠ 0)

/-- The LDs of a link, by host ID (R78). -/
def State.ldsOf (s : State) (port link : Nat) : List Nat :=
  let l := List.range 16
  (if s.bifurcated port then (if link = 0 then l.take 8 else l.drop 8) else if link = 0 then l else []).map
    (16 * port + ·)

/-- The link that an LD is on (R78). -/
def State.linkOf (s : State) (ld : Nat) : Nat := if s.bifurcated (ld / 16) && decide (8 ≤ ld % 16) then 1 else 0

/-- Whether a request came over a link. -/
def State.overLink (s : State) (port link : Nat) (r : Req) : Bool :=
  match r.src with
  | .cxl ld _ => (s.ldsOf port link).contains ld
  | _ => false

/-- A field of a port's configuration (R110). -/
def State.portBit (s : State) (port i : Nat) : Bool := s.bit (Reg.cxPortCfg + cxBase port) i

/-- LINK_EN of a port, which a fence overrides (R77, R106). -/
def State.linkEn (s : State) (port : Nat) : Bool := s.portBit port 0 && !s.twn.fenceIn && !s.twn.hostsHeld

/-- Starts training a link (R77). -/
def State.trainLink (s : State) (port link width : Nat) : State :=
  (s.modLink port link fun l => { l with state := .training, width := 0, speed := 0, full := width }).emit
    (.linkTrain port link)

/-- A link goes down: traffic in flight on it is affected as R104 says (R82, R113, R114). A fence, which forces the link
down, keeps every register value (R123). -/
def State.dropLink (s : State) (port link : Nat) (fence : Bool) : State :=
  match (s.link port link).state with
  | .down => s
  | _ =>
    let t := s.modLink port link fun l => { l with
      state := .down, width := 0, speed := 0, flitLo := false, gpf := if fence then l.gpf else none }
    let t := if fence then t else (t.flag (Reg.cxLinkEvent + cxBase port) (8 * link)).addSat
      (Reg.cxDownCount + cxBase port) (16 * link + 15) (16 * link) 1
    (s.ldsOf port link).foldl (fun (u : State) ld => (u.abortReqs (ofLd ld)).modLd ld fun l => { l with
      waits := [], rd := false, wr := false }) t

/-- Firmware restores the bindings that a warm reset has left without effect (R84): each bound LD reads BOUND. -/
def State.restoreBindings (s : State) : State :=
  { s with lds := s.lds.mapV fun l => match l.state with
      | .unbound => if l.bound.isSome then { l with state := .bound } else l
      | _ => l }

/-- What LINK_EN does: going to 1 it starts training on one link or, bifurcated, on two; going to 0 it
takes the links down (R77, R78). Firmware has restored every binding before it sets LINK_EN (R84). -/
def State.linkEnable (s : State) (port : Nat) (was now : Bool) : State :=
  if now && !was && !s.twn.fenceIn && !s.twn.hostsHeld then
    let s := s.restoreBindings
    if s.portBit port 1 then (s.trainLink port 0 8).trainLink port 1 8
    else (s.modLink port 1 fun l => { l with full := 0, state := .down }).trainLink port 0 16
  else if was && !now then (s.dropLink port 0 false).dropLink port 1 false
  else s

/-- Both ports forced off: hosts see surprise link-down (R106). -/
def State.portsOff (s : State) (fence : Bool) : State :=
  (((s.dropLink 0 0 fence).dropLink 0 1 fence).dropLink 1 0 fence).dropLink 1 1 fence

/-! ### Event logs (R85, R88, R664) -/

/-- Copies a record into one of an LD's event logs of 64 records; each copy raises MSI-X vector 1, a full
log sets its overflow flag (R664). -/
def State.logEvent (s : State) (ld log : Nat) (e : CxlEvent) : State :=
  let l := (s.ld ld).logs.getD log []
  if l.length < 64 then (s.modLd ld fun x => { x with logs := x.logs.set log (l ++ [e]) }).emit (.msix ld 1)
  else s.modLd ld fun x => { x with overflow := insertNew x.overflow log }

/-! ### Dynamic capacity (R52, R87–R90) -/

/-- The requester of the FM API on a port, among those that wait for an extent. -/
def fmInst (port : Nat) : Nat := 2 ^ 50 + port

/-- The decode length of a DC region in bytes: set at provisioning, 16,384 GiB where nothing is (R87,
DESIGN CHOICE, log 20). -/
def State.winLen (s : State) (ld k : Nat) : Nat := (s.ld ld).decode.getD k (16384 * gib)

/-- The DPA at which a DC region begins: windows are contiguous from DPA 0 (R87). -/
def State.winBase (s : State) (ld k : Nat) : Nat := ((List.range k).map (s.winLen ld)).foldl (· + ·) 0

/-- The 16-byte tag of an extent as its four words (R89): the region and the reserved half, ROF_GIB, GEN, the reserved
word. -/
def tagOf (e : Extent) : List Nat := [e.region, e.rof / gib, e.gen % 2 ^ 32, 0]

/-- A forced release that waits beside a request without FORCE for the same extent (R90). -/
def jwForce (i : Nat) : Nat := 2 ^ 16 + 8192 + i

/-- Completes the request that waits under a key: a Jorrid command or one of the FM. -/
def State.waitDone (s : State) (w opcode status : Nat) (body : List Nat) : State :=
  let p := s.jwTake w
  match p.2 with
  | none => p.1
  | some k =>
    if 2 ^ 50 ≤ k then p.1.emit (.fmReply (k - 2 ^ 50) opcode status body)
    else p.1.mbxEnd k { status := status, body := body }

/-- What completes a request to add or release an extent (R88, R90). -/
def State.extDone (s : State) (idx : Nat) (opcode status : Nat) (body : List Nat) : State :=
  s.waitDone (jwExtent idx) opcode status body

/-- Whether an extent may be added (R52, R87, R88): aligned, within its window, disjoint from the LD's
other extents, room in the table, inside a region that is neither FREE nor DELETING. -/
def State.extentOk (s : State) (ld dc dpa len region rof : Nat) : Bool :=
  let r := s.region region
  let mine := s.extents.vals.filter fun e => e.ld == ld
  dpa % gib == 0 && len % gib == 0 && rof % gib == 0 && decide (0 < len)
    && decide (dc < 8) && decide (s.winBase ld dc ≤ dpa) && decide (dpa + len ≤ s.winBase ld dc + s.winLen ld dc)
    && decide (rof + len ≤ r.size * gib)
    && (match r.state with | .free => false | .deleting => false | _ => true)
    && decide (s.extents.length < 8192) && decide (mine.length < 1024)
    && mine.all fun e => !overlaps e.dpa e.len dpa len

/-- Whether the extent table has room for an LD's next extent (R52). -/
def State.extentRoom (s : State) (ld : Nat) : Bool :=
  decide (s.extents.length < 8192) && decide ((s.extents.vals.filter fun e => e.ld == ld).length < 1024)

/-- Steps 2 and 3 of R88: the entry is written pending on both twins, and the Add Capacity record posted.
Answers its index. GEN advances by 1 at each use of an entry; the spec does not say where it starts: here an entry's
first use carries 1 (R89, DESIGN CHOICE, log 105). -/
def State.extentPut (s : State) (ld dc dpa len region rof : Nat) : State × Nat :=
  let idx := s.extents.fresh 0
  let e : Extent := { ld := ld, dcRegion := dc, dpa := dpa, len := len, region := region, rof := rof
                      gen := (s.extentGens.getD idx 0 + 1) % 2 ^ 32, pending := true
                      posted := maxOf (s.extents.vals.map fun x => x.posted) + 1 }
  ((s.bothNow [.extent idx e]).logEvent ld 4 (.addCapacity idx), idx)

/-- Withdraws an extent from the table on both twins (R88). -/
def State.extentDrop (s : State) (idx : Nat) : State := s.bothNow [.extentErase idx]

/-- Withdraws the pending extents of an LD, as a reset of it does; requests for them end (R88, R104). -/
def State.withdrawPending (s : State) (ld : Nat) : State :=
  (s.extents.filter fun e => e.2.ld == ld && e.2.pending).foldl (fun t e =>
    (t.extentDrop e.1).extDone e.1 0x5604 jrFailed (tagOf e.2)) s

/-- Starts the removal of a live extent: accesses that follow fail step 1 (R51, R90). -/
def State.extentRemove (s : State) (idx : Nat) (e : Extent) (forced : Bool) : State :=
  s.bothNow [.extent idx { e with removing := true, forced := forced }]

/-- Whether a CONTROL message about an extent is unacknowledged: the peer has not applied it, or holds accesses under
it (R51, R90). -/
def State.extentUnacked (s : State) (idx : Nat) : Bool :=
  s.unacked fun c => match c with
    | .extent i _ => i == idx
    | _ => false

/-- Whether an access under an extent is still in flight on either twin (R51, R90). -/
def State.underExtent (s : State) (idx : Nat) (e : Extent) : Bool :=
  !(s.extentAccess e).isEmpty || s.extentUnacked idx

/-- The index of an LD's extent that a host names by DPA and length. -/
def State.extentNamed (s : State) (ld dpa len : Nat) (pending : Bool) : Option (Nat × Extent) :=
  s.extents.find? fun e => e.ld == ld && e.pending == pending && !e.removing && e.dpa == dpa && e.len == len

/-- The index of an LD's extent by tag (R89). -/
def State.extentTagged (s : State) (ld region rof gen : Nat) : Option (Nat × Extent) :=
  s.extents.find? fun e => e.ld == ld && e.region == region && e.rof == rof && e.gen == gen && !e.removing

/-- Whether a release may be asked for: without FORCE the extent is live and no other request for it waits (R90; a
second request is refused, DESIGN CHOICE, log 106). -/
def State.askOk (s : State) (idx : Nat) (e : Extent) (force : Bool) : Bool :=
  force || (!e.pending && (s.jwait.get? (jwExtent idx)).isNone)

/-- Asks for the release of an extent, forced or not (R90). A forced release of a pending extent withdraws
it; a forced release on an ACTIVE LD is posted to the host when it completes, and a request without FORCE that waits
for the same extent completes with it. -/
def State.extentAsk (s : State) (k idx : Nat) (e : Extent) (force : Bool) : State :=
  if force then
    if e.pending then ((s.extentDrop idx).extDone idx 0x5604 jrFailed (tagOf e)).jwPut (jwForce idx) k |>.waitDone (jwForce idx) 0x5605 0 []
    else (s.jwPut (jwForce idx) k).extentRemove idx e true
  else (s.jwPut (jwExtent idx) k).logEvent e.ld 4 (.releaseCapacity idx false)

/-! ### Resets of an LD (R104, R105) -/

/-- What R104 does to an LD that is reset or has departed. Its credits, MSI-X state and the mailbox's interrupt policy
return to their reset state (DEDUCED, log 21). -/
def State.abortLd (s : State) (ld : Nat) (st : LdState) : State :=
  let t := (s.abortReqs (ofLd ld)).withdrawPending ld
  let t := t.modLd ld fun l => { l with
    state := st, memEnabled := false, waits := [], vectors := [], policy := 0, rd := false, wr := false }
  let t := { t with lap := { t.lap with staged := t.lap.staged.filter fun w => w.ld != ld } }
  t.mbxReset ld

/-- Starts the reset of an LD that a host reaches (R83, R104). -/
def State.resetLd (s : State) (ld : Nat) : State :=
  match (s.ld ld).state with
  | .unbound => s
  | .departed => s
  | _ => s.abortLd ld .flr

/-- An LD departs: as R104, with its event record (R105). -/
def State.departLd (s : State) (ld : Nat) : State :=
  match (s.ld ld).state with
  | .active => (s.abortLd ld .departed).record ((3 + ld / 16) * 2 ^ 8 + 3) ld 0 0
  | _ => s

/-- Makes BOUND LDs whose hosts have enabled memory ACTIVE, once the twin has admitted a region (R83, R86). -/
def State.activateLds (s : State) : State :=
  if s.admitted = false then s else
  let up := (s.lds.filterV fun l => l.state == .bound && l.memEnabled).keys
  up.foldl (fun (t : State) ld => t.resendFor 1 ld) { s with lds := s.lds.mapV fun l => match l.state with
      | .bound => if l.memEnabled then { l with state := .active } else l
      | _ => l }

/-! ### Bindings and durability (R84, R97) -/

/-- Whether an LD may be unbound: not while ACTIVE, nor while it is being reset (R83, R84). -/
def State.mayUnbind (s : State) (ld : Nat) : Bool :=
  match (s.ld ld).state with
  | .bound => true
  | .departed => true
  | .unbound => (s.ld ld).bound.isSome
  | _ => false

/-- Whether the FM may bind an LD: CXA_LD_CTL.ENABLE, and it is UNBOUND with no binding to restore (R83, R84, R120). -/
def State.mayBind (s : State) (ld : Nat) : Bool :=
  s.bit (ldReg Reg.cxLdCtl ld) 0 && (match (s.ld ld).state with | .unbound => (s.ld ld).bound.isNone | _ => false)

/-- Binds an LD to a host, on both twins (R84). -/
def State.bindLd (s : State) (ld host : Nat) : State :=
  (s.modLd ld fun l => { l with bound := some host }).bothNow [.binding ld true]

/-- Whether an LD is in complete-then-mirror mode (R24, R120). -/
def State.ctm (s : State) (ld : Nat) : Bool := s.bit (ldReg Reg.cxLdCtl ld) 1

/-- The writes of an LD that are not yet at their mirror or commit points. -/
def State.writesOf (s : State) (ld : Nat) : List Nat :=
  (s.reqs.filter fun e => ofLd ld e.2 && isWrite e.2.op).map Prod.fst

/-- Sets the durability mode of an LD, for writes received from now on; answers the completed writes that
leaving complete-then-mirror mode waits for (R97). -/
def State.setDur (s : State) (ld : Nat) (on : Bool) : State × List Nat :=
  let l := if s.ctm ld && !on then (s.reqs.filter fun e => ofLd ld e.2 && e.2.acked).map Prod.fst else []
  (s.setBit (ldReg Reg.cxLdCtl ld) 1 on, l)

/-! ### CXL.mem (R48, R49, R93, R96) -/

/-- Whether a write touches device-owned bytes 64–255 of the control block of a queue that is not FREE
(R198, R212). -/
def State.cbHit (s : State) (region off len : Nat) : Bool :=
  (s.sqs.vals.any fun q => q.region == region && overlaps (q.base + 64) 192 off len)
    || (s.cqs.vals.any fun c => c.region == region && overlaps (c.base + 64) 192 off len)

/-- Counts and flags a host write refused because of a control block (R198, R231, R236). -/
def State.cbRefuse (s : State) : State := (s.count (Reg.tqmCount + 8)).flag Reg.tqmEvent 1

/-- Translates a CXL.mem access (R48): the failing check, or region, offset and pieces. -/
def State.cxlWhere (s : State) (ld dpa : Nat) (need : Need) : Except XStep (Nat × Nat × List (Nat × Nat)) :=
  match s.dpaOf ld dpa with
  | none => .error .path
  | some (region, off) =>
  if (s.ld ld).state != .active then .error .state
  else match s.xlate ld region off 64 need with
    | .error e => .error e
    | .ok segs =>
      if (match need with | .read => false | _ => true) && s.cbHit region off 64 then .error .right
      else .ok (region, off, segs)

/-- Whether a CXL.mem write fails only because of a control block (R198). -/
def State.cxlCb (s : State) (ld dpa : Nat) : Bool :=
  match s.dpaOf ld dpa with
  | none => false
  | some (region, off) => (match s.xlate ld region off 64 .write with | .ok _ => true | _ => false) && s.cbHit region off 64

/-- Whether a host reaches an LD: it is not being reset, departed or unbound, and admission has not stopped (R83, R26). -/
def State.ldReached (s : State) (ld : Nat) : Bool :=
  !s.noAdmit && !s.twn.fenceIn && (match (s.ld ld).state with | .bound => true | .active => true | _ => false)

/-- Whether the chip runs, out of Quiet, its entry and its wake (R614–R617). -/
def State.awake (s : State) : Bool := match s.isl.quiet with
  | .awake => true
  | _ => false

/-- Whether the link of an LD carries requests: it is not in L1, and the chip is not in Quiet (R80, R617). -/
def State.linkCarries (s : State) (ld : Nat) : Bool :=
  s.awake && (match (s.link (ld / 16) (s.linkOf ld)).state with | .l1 => false | _ => true)

/-- Whether a CXL.mem request reaches the tracker: its link carries it, its LD is reached, and its host holds a credit for
it, without which it cannot send one (R93). -/
def State.cxlTakes (s : State) (ld : Nat) (write : Bool) : Bool := s.linkCarries ld && s.ldReached ld && s.hasCredit ld write

/-- Refuses a CXL.mem read: zeros with poison, counted and recorded (R49, R102). -/
def State.cxlRefuseRead (s : State) (ld tag dpa : Nat) (e : XStep) : State :=
  let t := (s.refuse (ld / 16) ld e (s.dpaFault ld dpa)).count (ldReg Reg.cxLdRefused ld)
  t.emit (.cxlData ld tag ((List.range 64).map fun _ => 0) true (t.devLoad (ld / 16)))

/-- Refuses a CXL.mem write: completed and not applied, counted, with its event record (R49). -/
def State.cxlRefuseWrite (s : State) (ld tag dpa : Nat) (e : XStep) : State :=
  let t := ((s.refuse (ld / 16) ld e (s.dpaFault ld dpa)).count (ldReg Reg.cxLdRefused ld)).count (ldReg Reg.cxLdWr ld)
  (t.record ((3 + ld / 16) * 2 ^ 8 + 1) ld 0 0).emit (.cxlCmp ld tag (t.devLoad (ld / 16)))

/-- Follows the highest number of staged lines (R117). -/
def State.stageNote (s : State) (port : Nat) : State :=
  let off := Reg.cxStageUsed + cxBase port
  if s.fld off 31 16 < s.stageUsed port then s.setFld off 31 16 (s.stageUsed port) else s

/-- Takes a CXL.mem write into the tracker; in complete-then-mirror mode it is staged and completed at
once (R24, R96). -/
def State.cxlWrite (s : State) (ld tag region off : Nat) (segs : List (Nat × Nat)) (data : List Byte)
    (poison : Bool) : State :=
  let r : Req := { src := .cxl ld tag, op := .write, host := ld, region := region, off := off, len := 64
                   segs := segs, data := sliceBytes data 0 64, poison := poison, acked := s.ctm ld }
  let p := s.enter r
  let t := if s.ctm ld then
      let u := (p.1.stageNote (ld / 16)).count (ldReg Reg.cxLdWr ld)
      u.emit (.cxlCmp ld tag (u.devLoad (ld / 16)))
    else p.1
  t.settle

/-! ### The CXL mailbox's own commands (R107) -/

/-- Whether a host's CXL mailbox takes commands: it reaches the LD, and CXL mailboxes are enabled (R525). -/
def State.cxlMbxUp (s : State) (ld : Nat) : Bool :=
  s.bit Reg.mbxCtl 0 && (match (s.ld ld).state with | .bound => true | .active => true | _ => false)

/-- Answers a CXL mailbox command, and keeps its opcode and return code for the mailbox registers (R499); a mailbox that
is not enabled is not ready. -/
def State.cxlAnswer (s : State) (ld opcode ret : Nat) (body : List Nat) : State :=
  if s.cxlMbxUp ld then (s.modLd ld fun l => { l with mbxOp := opcode, mbxRet := ret }).emit (.cxlMbx ld opcode ret body)
  else s.emit (.cxlNotReady ld)

/-- Whether an LD may inject and clear poison (R103). -/
def State.mayPoison (s : State) (ld : Nat) : Bool :=
  s.cxlMbxUp ld && s.privLd ld && s.bit (ldReg Reg.cxLdCtl ld) 2

/-- The Waloft event UUID (R664). -/
def eventUuid : Nat := Config.firmwareDefined 0x664 % 2 ^ 128

/-- An event of a log as numbers: kind and fields. That of an event record is a CXL common event record with the Waloft event
UUID, a number that the spec does not state, and as vendor data the 32-byte record and its RN (R664). -/
def eventBody : CxlEvent → List Nat
  | .record rn words => [0, eventUuid] ++ words ++ [rn]
  | .addCapacity i => [1, i]
  | .releaseCapacity i f => [2, i, b2n f]

/-- The opcodes of the Command Effects Log (R107, PRESUMED from CXL 3.1, log 22). -/
def celOpcodes : List Nat :=
  [0x0100, 0x0101, 0x0102, 0x0103, 0x0200, 0x0201, 0x0202, 0x0300, 0x0301, 0x0400, 0x0401, 0x4000, 0x4100,
   0x4300, 0x4301, 0x4302, 0x4800, 0x4801, 0x4802, 0x4803, 0xC000]

/-- The Command Effects Log: each entry an opcode and its effects, which the firmware defines. -/
def celWords : List Nat := celOpcodes.map fun o => o + 2 ^ 16 * (Config.firmwareDefined o % 2 ^ 16)

/-- The DPAs under an LD's live extents at which a sector lies: one for each extent that holds it (R90, R103). -/
def State.sectorDpas (s : State) (ld sector : Nat) : List Nat :=
  match s.regionOfPsa (sector * 64) with
  | none => []
  | some (region, off) =>
    (s.extents.vals.filter fun e => e.ld == ld && !e.pending && !e.removing && e.region == region && decide (e.rof ≤ off)
      && decide (off < e.rof + e.len)).map fun e => e.dpa + (off - e.rof)

/-- Poison-list entries under an LD's live extents, as DPA and source, in a range of DPA (R103). -/
def State.poisonUnder (s : State) (ld dpa len : Nat) : List Nat :=
  s.poisonList.flatMap fun e => e.sectors.flatMap fun n => (s.sectorDpas ld n).flatMap fun d =>
    if decide (dpa ≤ d) && decide (d < dpa + len) then [d, e.source] else []

end Sys2Proof.Machine
end

