-- ==== Sys2Proof/Machine/CxlConfig.lean ====
section
/-! DEFINITION. What a CXL host finds in the configuration space and the CDAT of an LD (R80, R81, R86, R87, R100, R107):
values that the spec fixes, and views of the state. No command of the table reads them. -/

namespace Sys2Proof.Machine

/-- The Vendor ID of the LD functions, which the spec does not state: a free value. -/
def vendorId : Nat := Config.firmwareDefined 0x10000 % 2 ^ 16

/-- The body of the Waloft DVSEC from byte offset 0x0A (R81): WAKE_US; TWIN, DUR_MODE and SERVICE; PBAR_OFFSET. -/
def State.dvsecBody (s : State) (ld : Nat) : List Nat :=
  [50, b2n s.twin + 2 * b2n (s.ctm ld) + 4 * s.service, 0x1F00]

/-- The Waloft DVSEC of an LD function: the standard header (its layout PRESUMED from PCIe 6.x, log 108: capability ID
0x0023 at version 1 with the offset of the next capability, which the spec does not give; DVSEC Vendor ID, revision 0 and
length; DVSEC ID 0x0001), and its body (R81). -/
def State.dvsec (s : State) (ld : Nat) : List Byte :=
  leBytes 4 (0x10023 + Config.firmwareDefined 0x10001 % 2 ^ 12 * 2 ^ 20) ++ leBytes 4 (vendorId + 0x10 * 2 ^ 20)
    ++ leBytes 2 0x0001 ++ (s.dvsecBody ld).flatMap (leBytes 2)

/-- Where an LD's mailbox window stands in BAR0 (R499). -/
def mbxWindow (ld : Nat) : Nat := 0x80000 + ld * 0x2000

/-- The Register Locator DVSEC of an LD function: DVSEC Vendor ID 0x1E98 and ID 0x0008, and one block, identifier 3 (the
Memory Device registers) in BAR 0 at a 64 KiB boundary (R499; the layout PRESUMED from CXL 3.1, log 108). -/
def regLocator (ld : Nat) : List Byte :=
  leBytes 4 (0x10023 + Config.firmwareDefined 0x10002 % 2 ^ 12 * 2 ^ 20) ++ leBytes 4 (0x1E98 + 0x14 * 2 ^ 20)
    ++ leBytes 2 0x0008 ++ leBytes 2 0 ++ leBytes 4 (3 * 2 ^ 8 + mbxWindow ld / 2 ^ 16 * 2 ^ 16) ++ leBytes 4 0

/-- The offset of the mailbox in that block (R499). -/
def mbxInBlock (ld : Nat) : Nat := mbxWindow ld % 2 ^ 16

/-- The L1 Exit Latency field of Link Capabilities: 32 µs to 64 µs (R80). -/
def l1ExitLatency : Nat := 6

/-- The GPF DVSEC: Phase 2 duration in µs and power in mW (R100). -/
def gpfDvsec : Nat × Nat := (100, 0)

/-- Media Status in an LD's Memory Device Status register: Ready once the twin has admitted a region, Not Ready before and
while the LD is reset or has no host (R86, R104). -/
def State.mediaReady (s : State) (ld : Nat) : Bool :=
  s.admitted && (match (s.ld ld).state with | .bound => true | .active => true | _ => false)

/-- The block size of every DC region (R87). -/
def dcBlock : Nat := gib

/-- The CDAT DSMAS entry of a DC region's window: DPA base, length, and the non-volatile attribute (R87). -/
def State.dsmas (s : State) (ld k : Nat) : Nat × Nat × Bool := (s.winBase ld k, s.winLen ld k, true)

/-- The Payload Size field of an LD's mailbox, as a power of 2 bytes (R107). -/
def mbxPayloadSize : Nat := 12

/-- The LDs that a port's link presents (R76). -/
def ldsPerLink (bifurcated : Bool) : Nat := if bifurcated then 8 else 16

end Sys2Proof.Machine
end

