-- ==== Sys2Proof/Machine/Hlc.lean ====
section
/-! DEFINITION. Chapter 7: fills, write-backs, cleaning, maintenance, and errors of the Hot Line Cache
(R285–R314). -/

namespace Sys2Proof.Machine

/-- The sectors of a line, by sector number, that a bit mask names. -/
def lineSectors (tile line mask : Nat) : List Nat :=
  ((List.range 4).filter mask.testBit).map fun i => tile * 64 + line * 4 + i

/-- The sectors of a line that are bad in DRAM: those that read bad now, and those already known to be. -/
def State.badInLine (s : State) (tile line mask : Nat) : List Nat :=
  (List.range 4).filter fun i => mask.testBit i || (s.sector (tile * 64 + line * 4 + i)).bad

/-- Whether every chive entry of a channel is in use, so that a further failing frame is retired (R343). -/
def State.chiveFull (s : State) (n : Nat) : Bool := decide (32 ≤ s.chiveUsed n)

/-- A line whose sectors read bad: the DMC counts them, and the tile is repaired (R292, R322, R654). -/
def State.lineBad (s : State) (tile line : Nat) (bad : List Nat) (parity : Bool) : State :=
  let frame := (s.tile tile).loc
  let n := chOfLine frame line
  let t := bad.foldl (fun (u : State) i => u.dmcBad n (caOf frame i) parity) s
  t.badRead tile (bad.map fun i => tile * 64 + line * 4 + i) (t.chiveFull n)

/-- A line has been read from DRAM without allocating: the reads that wait for it hold it (R27, R289). -/
def State.directDone (s : State) (line : Nat) : State :=
  { s with
    hlc := { s.hlc with direct := s.hlc.direct.filter (· != line) }
    reqs := s.reqs.mapV fun r => if r.stage == .waiting && !isWrite r.op && reqOnLine r line
      then { r with lines := insertNew r.lines line } else r }

/-- A line's DRAM read has ended: the way being filled is CLEAN, and reads without allocation have it; with bad
sectors the way is given up, and the tile is repaired (R27, R288, R292, R322). -/
def State.lineRead (s : State) (tile line : Nat) (bad : List Nat) (parity : Bool) : State :=
  let way : Option (Nat × Way) := match s.line? tile line with
    | some (key, w) => if w.state == .filling then some (key, w) else none
    | none => none
  if bad.isEmpty then
    (match way with | some (key, w) => s.setWay key { w with state := .clean } | none => s).directDone (tile * 16 + line)
  else
    let t := match way with | some (key, _) => s.freeWay key | none => s
    { t with hlc := { t.hlc with direct := t.hlc.direct.filter (· != tile * 16 + line) } }.lineBad tile line bad parity

/-- HLC_FILL_COMPLETE: a line's DRAM read completes, of a fill or of a read that does not allocate. `badSectors`
failed their checks on both reads, by parity or by line check; `retryOk` were good on the second read. It takes effect
for the request that the channel issues next (R27, R288, R292, R322, R326). -/
def execHlcFillComplete (tile : Nat) (line : Fin 16) (badSectors : Fin 16) (parity : Bool) (retryOk : Fin 5)
    (s : State) : Out :=
  let filling : Bool := match s.line? tile line with
    | some (_, w) => w.state == .filling
    | none => false
  let n := s.chanOf tile line
  .next (if !filling && !s.hlc.direct.contains (tile * 16 + line.val) || !inDram (s.tile tile).home then s
    else match s.served n 0 (tile * 16 + line) with
    | none => s
    | some t =>
      let t := (List.range retryOk).foldl (fun (u : State) _ =>
        (u.count (chOff Reg.dmcChCount n + 8)).err1 10 .corrected) (t.chiveHits n (s.tile tile).loc)
      (t.lineRead tile line (t.badInLine tile line badSectors) parity).settle)

/-- HLC_EVB_WRITE_COMPLETE: an eviction buffer's write, which the channel issues next, reaches DRAM and the buffer is free
(R295, R326). -/
def execHlcEvbWriteComplete (tile : Nat) (line : Fin 16) (s : State) : Out :=
  .next (if s.inEvb tile line = false then s
    else match s.served (s.chanOf tile line) 2 (tile * 16 + line) with
    | none => s
    | some t =>
      let t := t.chiveHits (s.chanOf tile line) (s.tile tile).loc
      ({ t with hlc := { t.hlc with evb := t.hlc.evb.erase { tile := tile, line := line } } }).settle)

/-- Whether background cleaning runs: from above HIGH_PCT until 5 percentage points below it; 100 stops it
(R297, R306). -/
def State.cleaningNow (s : State) : Bool :=
  let h := s.fld Reg.hlcDirty 6 0
  if h = 100 then false
  else if h * hlcLines < s.dirtyLines * 100 then true
  else if s.dirtyLines * 100 ≤ (h - 5) * hlcLines then false
  else s.hlc.cleaning

/-- HLC_CLEAN: with CLEAN_EN 1, the least recently used dirty line with OPEN 0 of its slice is written back in the
background (R297). -/
def execHlcClean (tile : Nat) (line : Fin 16) (s : State) : Out :=
  .next (
    let t := { s with hlc := { s.hlc with cleaning := s.cleaningNow } }
    if t.bit Reg.hlcCtl 0 = false || t.hlc.cleaning = false then t else
    match t.lruDirty (hlcSlice tile) with
    | some (key, w) =>
      if w.tile == tile && w.line == line.val then (t.setWay key { w with state := .writingBack }).settle else t
    | none => t)

/-- A sector written back that matches neither its line check nor its complement is written as supplied and
counted; its next read finds it bad (R323). -/
def State.writeCheck (s : State) (tile line mask : Nat) : State :=
  let frame := (s.tile tile).loc
  let n := chOfLine frame line
  let l := (List.range 4).filter mask.testBit
  let t := l.foldl (fun (u : State) i => ((u.flag (chOff Reg.dmcChEvent n) 2).count
    (chOff Reg.dmcChCount n + 0x10)).dmcFail n (caOf frame i) 2 false) s
  t.markBad (lineSectors tile line mask)

/-- HLC_WRITEBACK_DONE: a line's write-back, which the channel issues next, reaches DRAM; the line is CLEAN, or INVALID
where it was to be and OPEN is 0 (R291, R297–R299, R323, R326). -/
def execHlcWritebackDone (tile : Nat) (line : Fin 16) (wrCheck : Fin 16) (s : State) : Out :=
  .next (match s.line? tile line with
    | some (key, w) =>
      if w.state != .writingBack then s else
      match s.served (s.chanOf tile line) 2 (tile * 16 + line) with
      | none => s
      | some t =>
      let t := (t.chiveHits (s.chanOf tile line) (s.tile tile).loc).writeCheck tile line wrCheck
      if w.inval && w.opens == 0 then (t.freeWay key).settle
      else (t.setWay key { w with state := .clean, dirty := false }).settle
    | none => s)

/-- Starts a register maintenance command: one line, one tile, or the whole HLC; ignored while one runs, and
for scope 3 (R298, R311). Lines being filled are waited for and counted (R299). -/
def State.maintStart (s : State) (inval : Bool) (scope : Nat) : State :=
  if s.hlc.maint.isSome || decide (3 ≤ scope) then s else
  let tile := (s.reg Reg.hlcMaintLo).toNat / 16 + 2 ^ 28 * s.fld Reg.hlcMaintHi 6 0
  let l := if scope = 0 then [(tile, s.fld Reg.hlcMaintLo 3 0)]
    else if scope = 1 then (List.range 16).map fun i => (tile, i)
    else s.hlc.ways.vals.map fun w => (w.tile, w.line)
  let fills := (l.filter fun p => match s.line? p.1 p.2 with | some (_, w) => w.state == .filling | none => false).length
  let t := (s.countBy (Reg.hlcCount + 0x1C) fills).setReg Reg.hlcMaintStatus (w32 (2 * b2n (s.bit Reg.hlcMaintStatus 1)))
  ({ t with hlc := { t.hlc with maint := some { inval := inval, whole := scope == 2, todo := l } } }).settle

/-- HLC_MAINT_COMPLETE: every line of the command has been acted on; DONE is set (R299, R300, R312). -/
def execHlcMaintComplete (s : State) : Out :=
  .next (match s.hlc.maint with
    | some m => if m.todo.isEmpty then { s with hlc := { s.hlc with maint := none } }.flag Reg.hlcMaintStatus 1 else s
    | none => s)

/-! ### Errors (R301–R303) -/

/-- An uncorrectable word, or a line check that does not match, on a hit: a clean line is dropped and filled
again, a dirty line is lost here and its tile repaired from the peer (R301, R302). -/
def State.lineUncorr (s : State) (key tile line : Nat) (w : Way) : State :=
  let t := (s.count (Reg.hlcCount + 0x10)).freeWay key
  if w.dirty then
    (t.flagRecord Reg.hlcEvent 2 0x0901 ((s.regionOfTile tile).getD 0) 0).badRead tile (lineSectors tile line 15) false
  else t.flag Reg.hlcEvent 1

/-- What the HLC's checks find on the line that a read hits (R301–R303). A tag entry that cannot be rebuilt is
invalidated, with its tile no longer known to the HLC, and its set held for firmware's scan. -/
def State.hlcFault (s : State) (psa : Nat) (f : HlcFault) : State :=
  let tile := psa / 4096
  let line := psa / 256 % 16
  match s.line? tile line with
  | none => s
  | some (key, w) =>
    if w.state == .filling then s else
    match f with
    | .none => s
    | .corrected => ((s.flag Reg.hlcEvent 0).count (Reg.hlcCount + 0xC)).err1 9 .corrected
    | .uncorrectable => s.lineUncorr key tile line w
    | .tagRebuilt => ((s.flag Reg.hlcEvent 3).count (Reg.hlcCount + 0x14)).err1 9 .corrected
    | .tagLost =>
      let t := ((s.flag Reg.hlcEvent 3).count (Reg.hlcCount + 0x14)).flagRecord Reg.hlcEvent 4 0x0902 (hlcSlice tile) 0
      { t with hlc := { t.hlc with
          ways := t.hlc.ways.erase key, heldSets := insertNew t.hlc.heldSets (key / 16) } }

/-- The HLC_OVER_DRAM tiles that R286 places in a set. -/
def State.tilesInSet (s : State) (set : Nat) : List Nat :=
  (s.tiles.filter fun e => e.2.home == .hlcOverDram && (List.range 16).any fun l => hlcSet e.1 l == set).map Prod.fst

/-- Marks a tile FAILED after a tag entry was lost; it is repaired whole (R265, R303). -/
def State.scanFail (s : State) (tile : Nat) : State :=
  let t := match s.moves.get? tile with
    | some m => if m.kind = MoveKind.evict ∧ m.stage ≠ MoveStage.waitSlot then s.cancelEvict tile else s
    | none => s
  (t.markBad (tileSectors tile)).startRepair tile (t.openSectors tile) false

/-- TAG_SET_SCAN_DONE: firmware's scan has marked the set's tiles FAILED and the set is released (R303). -/
def execTagSetScanDone (slice : Fin 16) (set : Fin 2048) (s : State) : Out :=
  let n := slice.val * 2048 + set.val
  .next (if s.hlc.heldSets.contains n = false then s
    else
      let t := { s with hlc := { s.hlc with heldSets := s.hlc.heldSets.filter (· != n) } }
      ((t.tilesInSet n).foldl State.scanFail t).settle)

end Sys2Proof.Machine
end

