-- ==== Sys2Proof/Machine/Cxl.lean ====
section
/-! DEFINITION. The CXL commands (chapter 3): links, LDs, CXL.mem, GPF and barriers, the FM API, dynamic
capacity, and the CXL mailbox's own commands. -/

namespace Sys2Proof.Machine

/-! ### Links (R77–R82, R105) -/

/-- Whether a link trains with a host: 256-byte flits, a width that R76 lists, and at least 8 GT/s, whose code is 2
(R76, R112). -/
def trains (width speed : Nat) (flit : Flit) : Bool :=
  (match flit with | .b68 => false | _ => true) && [1, 2, 4, 8, 16].contains width && decide (2 ≤ speed)

/-- CXL_LINK_TRAINED: the link reaches L0 at the widest width and the highest speed that both ends support, and with the
flits that it prefers; a reduced width or speed sets DOWNTRAIN; its LDs leave DEPARTED for BOUND (R77, R83). `width`,
`speed` (a code of R112) and `flit` are what the host and the lanes support; a host that R76 shuts out does not train. -/
def execCxlLinkTrained (port link : Fin 2) (width speed : Nat) (flit : Flit) (s : State) : Out :=
  let l := s.link port link
  if s.linkEn port = false ∨ l.full = 0 ∨ trains width speed flit = false then .next s else
  let cfg := if s.bifurcated port then 8 else 16
  let mx := s.fld (Reg.cxPortCfg + cxBase port) 3 2 + 2
  let t := s.modLink port link fun x => { x with
    state := .l0, width := min width cfg, full := min width cfg, speed := min speed mx, flitLo := flit == .lo256 }
  let t := if width < cfg ∨ speed < mx then t.flag (Reg.cxLinkEvent + cxBase port) (8 * link + 2) else t
  let t := (t.ldsOf port link).foldl (fun (u : State) ld => u.modLd ld fun x =>
    match x.state with | .departed => { x with state := .bound } | _ => x) t
  .next (t.activateLds.wakeFor .cxl)

/-- CXL_LINK_DOWN (R82, R104, R113, R114). -/
def execCxlLinkDown (port link : Fin 2) (s : State) : Out := .next (s.dropLink port link false)

/-- CXL_LINK_RECOVERY: a link that is up enters Recovery and sets RETRAIN (R113). -/
def execCxlLinkRecovery (port link : Fin 2) (s : State) : Out :=
  .next (match (s.link port link).state with
    | .down => s
    | .training => s
    | _ => (s.modLink port link fun l => { l with state := .recovery }).flag
        (Reg.cxLinkEvent + cxBase port) (8 * link + 1))

/-- CXL_LINK_DOWN_HOLD_EXPIRY: 100 ms down without retraining moves the link's ACTIVE LDs to DEPARTED (R82,
R105). -/
def execCxlLinkDownHoldExpiry (port link : Fin 2) (s : State) : Out :=
  .next (match (s.link port link).state with
    | .down => (s.ldsOf port link).foldl State.departLd s
    | .training => (s.ldsOf port link).foldl State.departLd s
    | _ => s)

/-- DEPARTURE_HOLD_EXPIRY: a second event record for an LD still DEPARTED (R105). -/
def execDepartureHoldExpiry (ld : Fin 32) (s : State) : Out :=
  .next (match (s.ld ld).state with
    | .departed => s.record ((3 + ld.val / 16) * 2 ^ 8 + 4) ld 0 0
    | _ => s)

/-- Whether a link carries traffic at full or narrowed width. -/
def linkRuns (l : CxlLink) : Bool :=
  match l.state with
  | .l0 => true
  | .l0p => true
  | _ => false

/-- Sets a link's width without retraining; full width is L0, less is L0p (R79). -/
def State.setWidth (s : State) (port link w : Nat) : State :=
  (s.modLink port link fun l => { l with width := w, state := if w = l.full then .l0 else .l0p }).emit (.l0p port link w)

/-- L0P_NARROW_REQUEST: the HG960 asks for half the width, down to 4 lanes, while L0P_EN is 1 (R79). -/
def execL0pNarrowRequest (port link : Fin 2) (s : State) : Out :=
  let l := s.link port link
  .next (if linkRuns l ∧ s.portBit port 4 ∧ 8 ≤ l.width then s.setWidth port link (l.width / 2) else s)

/-- L0P_WIDEN_REQUEST: the HG960 asks for full width at once, while L0P_EN is 1 (R79). -/
def execL0pWidenRequest (port link : Fin 2) (s : State) : Out :=
  let l := s.link port link
  .next (if linkRuns l ∧ s.portBit port 4 ∧ l.width < l.full then s.setWidth port link l.full else s)

/-- L0P_HOST_REQUEST: honoured for the widths that R76 lists, whatever L0P_EN holds (R79). -/
def execL0pHostRequest (port link : Fin 2) (width : Nat) (s : State) : Out :=
  let l := s.link port link
  .next (if linkRuns l ∧ width ≤ l.full ∧ (width = l.full ∨ width = 16 ∨ width = 8 ∨ width = 4)
    then s.setWidth port link width else s)

/-- ASPM_L1_ENTRY: a link idle for 20 µs enters L1 where the host allows it and L1_EN is 1 (R80). -/
def execAspmL1Entry (port link : Fin 2) (hostAllows : Bool) (s : State) : Out :=
  let l := s.link port link
  .next (if linkRuns l ∧ hostAllows ∧ s.portBit port 5 then s.modLink port link fun x => { x with state := .l1 } else s)

/-- ASPM_L1_EXIT: in Quiet it wakes the chip, which accepts requests again once it is awake (R80, R617). -/
def execAspmL1Exit (port link : Fin 2) (s : State) : Out :=
  .next (match (s.link port link).state with
    | .l1 => (s.modLink port link fun l => { l with state := if l.width = l.full then .l0 else .l0p }).wakeFor .cxl
    | _ => s)

/-- CXL_HOST_CONNECTED: training starts when a host is connected while LINK_EN is 1 (R77, R106). -/
def execCxlHostConnected (port link : Fin 2) (s : State) : Out :=
  let l := s.link port link
  .next (match l.state with
    | .down =>
      if s.linkEn port ∧ l.full ≠ 0 then (s.trainLink port link (if s.bifurcated port then 8 else 16)).wakeFor .cxl else s
    | _ => s)

/-! ### LDs and CXL.mem (R20–R30, R48, R49, R83, R86, R104) -/

/-- CXL_MEM_ENABLE: a BOUND LD whose host enables memory goes ACTIVE once its twin has admitted a region
(R83, R86). -/
def execCxlMemEnable (ld : Fin 32) (s : State) : Out :=
  .next (match (s.ld ld).state with
    | .bound => (s.modLd ld fun l => { l with memEnabled := true }).activateLds
    | _ => s)

/-- CXL_MEMRD: the 64-byte line at a DPA is translated and served, or refused; `f` is what the HLC's checks
find where it hits (R27, R48, R49, R102, R301–R303). -/
def execCxlMemrd (ld : Fin 32) (tag dpa : Nat) (f : HlcFault) (s : State) : Out :=
  if s.cxlTakes ld false = false then .next s else
  let s := s.useCredit ld false
  match s.cxlWhere ld dpa .read with
  | .error e => .next (s.cxlRefuseRead ld tag dpa e)
  | .ok (region, off, segs) => .next ((s.hlcFault (segs.headD (0, 0)).1 f).submit {
      src := .cxl ld tag, op := .read, host := ld, region := region, off := off, len := 64, segs := segs }).1

/-- CXL_MEMWR: the 64-byte line at a DPA is translated and written by the life of a write, or refused (R20,
R24, R48, R49, R101). -/
def execCxlMemwr (ld : Fin 32) (tag dpa : Nat) (data : List Byte) (poison : Bool) (s : State) : Out :=
  if s.cxlTakes ld true = false then .next s else
  let s := s.useCredit ld true
  match s.cxlWhere ld dpa .write with
  | .error e => .next ((if s.cxlCb ld dpa then s.cbRefuse else s).cxlRefuseWrite ld tag dpa e)
  | .ok (region, off, segs) => .next (s.cxlWrite ld tag region off segs data poison)

/-- CXL_FLR (R83, R104). -/
def execCxlFlr (ld : Fin 32) (s : State) : Out := .next (s.resetLd ld).settle

/-- CXL_HOT_RESET: R104 for every LD on the link, which retrains (R83, R104). -/
def execCxlHotReset (port link : Fin 2) (s : State) : Out :=
  .next (match (s.link port link).state with
    | .down => s
    | _ => (((s.ldsOf port link).foldl State.resetLd s).modLink port link fun l =>
        { l with state := .training }).settle)

/-- FLR_DONE: an LD whose reset processing ends returns to BOUND (R83, R104). -/
def execFlrDone (ld : Fin 32) (s : State) : Out :=
  .next (match (s.ld ld).state with
    | .flr => s.modLd ld fun l => { l with state := .bound }
    | _ => s)

/-- PERSIST_BARRIER_READ: a read of MBX_LD_PBARRIER begins to wait for the LD's earlier writes (R98). -/
def execPersistBarrierRead (ld : Fin 32) (s : State) : Out :=
  .next (s.modLd ld fun l => { l with waits := l.waits ++ [s.writesOf ld] })

/-- PERSIST_BARRIER_RETURN: the oldest barrier read whose writes have all reached their points returns the
count of barriers completed, modulo 2^32 (R98). -/
def execPersistBarrierReturn (ld : Fin 32) (s : State) : Out :=
  .next (match (s.ld ld).waits with
    | [] => s
    | w :: rest =>
      if w.any fun i => (s.reqs.get? i).isSome then s
      else
        let n := ((s.ld ld).barriers + 1) % 2 ^ 32
        (s.modLd ld fun l => { l with waits := rest, barriers := n }).emit (.barrier ld n))

/-- GPF_PHASE1: acknowledged at once (R99). -/
def execGpfPhase1 (port link : Fin 2) (s : State) : Out := .next (s.emit (.gpfAck port link 1))

/-- GPF_PHASE2: a Phase 2 begins to wait for every earlier write on the link (R99). -/
def execGpfPhase2 (port link : Fin 2) (s : State) : Out :=
  .next (s.modLink port link fun l => { l with
    gpf := some ((s.reqs.filter fun e => s.overLink port link e.2 && isWrite e.2.op).map Prod.fst) })

/-- GPF_PHASE2_COMPLETE: a Phase 2 whose writes have all reached their points is answered; beyond 100 µs it
sets OVERRUN and writes an event record (R99, R100, R119). -/
def execGpfPhase2Complete (port link : Fin 2) (ns : Nat) (s : State) : Out :=
  .next (match (s.link port link).gpf with
    | none => s
    | some w =>
      if (w.any fun i => (s.reqs.get? i).isSome) || (s.link port link).state == .down then s
      else
        let off := Reg.cxGpf + cxBase port
        let t := (s.modLink port link fun l => { l with gpf := none }).emit (.gpfAck port link 2)
        let t := t.setFld off 15 0 (t.fld off 15 0 + 1)
        if 100000 < ns then t.flagRecord off 17 ((3 + port.val) * 2 ^ 8 + 2) port 0 else t)

/-! ### The FM API (R84, R88, R90, R97; opcodes PRESUMED from CXL 3.1, log 22) -/

/-- GET_LD_INFO: capacity and number of LDs. -/
def execGetLdInfo (port : Fin 2) (s : State) : Out := .next (s.emit (.fmReply port 0x5400 0 [s.exposed, 16]))

/-- GET_LD_ALLOCATIONS: the recorded allocations of the port's LDs. -/
def execGetLdAllocations (port : Fin 2) (s : State) : Out :=
  .next (s.emit (.fmReply port 0x5401 0 ((List.range 16).map fun n => (s.ld (16 * port.val + n)).alloc)))

/-- SET_LD_ALLOCATIONS: records an allocation for reporting only, and binds or unbinds an LD; unbinding an
ACTIVE LD is refused (R84). -/
def execSetLdAllocations (port : Fin 2) (ld : Fin 16) (bind : Bool) (alloc : Nat) (s : State) : Out :=
  let n := 16 * port.val + ld.val
  let ok := if bind then s.mayBind n || (s.ld n).bound.isSome else s.mayUnbind n || (s.ld n).bound.isNone
  if ok = false then .next (s.emit (.fmReply port 0x5402 2 [])) else
  let t := s.modLd n fun l => { l with alloc := alloc }
  let t := if bind then (if s.mayBind n then t.bindLd n n else t)
    else if s.mayUnbind n then t.bothNow [.binding n false] else t
  .next (t.emit (.fmReply port 0x5402 0 [(t.ld n).alloc]))

/-- The regions under an LD's live extents. -/
def State.ldRegions (s : State) (ld : Nat) : List Nat :=
  (s.extents.vals.filter fun e => e.ld == ld && !e.pending && !e.removing).foldl (fun l e => insertNew l e.region) []

/-- GET_QOS_CONTROL: the port's tracker share, and the QOS classes of the regions under each LD's live extents (R84,
R93). -/
def execGetQosControl (port : Fin 2) (s : State) : Out :=
  .next (s.emit (.fmReply port 0x5403 0 (s.trackLimit port :: (List.range 16).flatMap fun n =>
    (s.ldRegions (16 * port.val + n)).map fun id => (s.region id).qos)))

/-- Gives the regions under an LD's live extents a QOS class, on both twins (R84; which regions is a DESIGN CHOICE,
log 107). -/
def State.qosClass (s : State) (ld : Nat) (cls : Option (Fin 8)) : State :=
  match cls with
  | none => s
  | some c => s.bothNow ((s.ldRegions ld).map fun id => .region id { s.region id with qos := c })

/-- SET_QOS_CONTROL: the port's tracker share, the QOS class of an LD's regions, and its durability mode by the FM QoS
path; leaving complete-then-mirror mode waits for the completed writes' mirror points (R84, R93, R97). -/
def execSetQosControl (port : Fin 2) (ctl : Nat) (ld : Fin 16) (ctm : Bool) (cls : Option (Fin 8)) (s : State) : Out :=
  let n := 16 * port.val + ld.val
  let lim := clampStep 256 4096 256 ctl
  if 8192 < lim + s.trackLimit (1 - port.val) + s.fld Reg.rdxTrackLimit 13 0
  then .next (s.emit (.fmReply port 0x5404 2 [])) else
  let p := ((s.qosClass n cls).setFld (Reg.cxTrackLimit + cxBase port) 12 0 lim).setDur n ctm
  .next (p.1.modLd n fun l => { l with durWait := some p.2 }).durPoll

/-- FM_EXTENT_ADD: an extent is written pending and posted to the host, or the request refused (R88). -/
def execFmExtentAdd (ld : Fin 32) (dcRegion : Fin 8) (dpa len region rof : Nat) (s : State) : Out :=
  if s.extentOk ld dcRegion dpa len region rof then
    let p := s.extentPut ld dcRegion dpa len region rof
    .next (p.1.jwPut (jwExtent p.2) (fmInst (ld.val / 16)))
  else .next (s.emit (.fmReply (ld.val / 16) 0x5604 2 []))

/-- FM_EXTENT_RELEASE: the FM asks for a release, with or without FORCE (R90). -/
def execFmExtentRelease (ld : Fin 32) (region rof gen : Nat) (force : Bool) (s : State) : Out :=
  match s.extentTagged ld region rof gen with
  | none => .next (s.emit (.fmReply (ld.val / 16) 0x5605 2 []))
  | some (idx, e) =>
    if s.askOk idx e force then .next (s.extentAsk (fmInst (ld.val / 16)) idx e force)
    else .next (s.emit (.fmReply (ld.val / 16) 0x5605 2 []))

/-- DC_RESPONSE_TIMEOUT: a pending extent is withdrawn and its request completes with the outcome timed out
(2); a release that the host has not answered completes with FAILED, the extent staying live (R88, R90). -/
def execDcResponseTimeout (idx : Nat) (s : State) : Out :=
  .next (match s.extents.get? idx with
    | none => s
    | some e =>
      if e.pending then (s.extentDrop idx).extDone idx 0x5604 jrSuccess (tagOf e ++ [2])
      else if e.removing then s
      else s.extDone idx 0x5605 jrFailed [])

/-- EXTENT_REMOVAL_DRAINED: once no access under a removed extent is in flight, it leaves the table; the
host's release is answered, or the Release Capacity record of a forced one posted to an ACTIVE LD, and the
request that waits completes (R51, R90). -/
def execExtentRemovalDrained (idx : Nat) (s : State) : Out :=
  .next (match s.extents.get? idx with
    | none => s
    | some e =>
      if e.removing = false ∨ s.underExtent idx e then s
      else
        let t := s.extentDrop idx
        let t := if e.forced then
            (match (t.ld e.ld).state with | .active => t.logEvent e.ld 4 (.releaseCapacity idx true) | _ => t)
          else t.cxlAnswer e.ld 0x4803 0 []
        (t.extDone idx 0x5605 jrSuccess []).waitDone (jwForce idx) 0x5605 jrSuccess [])

/-! ### CXL mailbox commands (R87–R90, R103, R107; opcodes and return codes PRESUMED from CXL 3.1, log 22) -/

/-- GET_EVENT_RECORDS: a log's records and its overflow flag. -/
def execGetEventRecords (ld : Fin 32) (log : Fin 5) (s : State) : Out :=
  let l := (s.ld ld).logs.getD log []
  .next (s.cxlAnswer ld 0x0100 0
    (b2n ((s.ld ld).overflow.contains log.val) :: l.length :: l.flatMap eventBody))

/-- CLEAR_EVENT_RECORDS: all records, or the oldest ones named by their handles 1, 2, … in order; any other
handle is invalid. -/
def execClearEventRecords (ld : Fin 32) (log : Fin 5) (all : Bool) (handles : List Nat) (s : State) : Out :=
  if s.cxlMbxUp ld = false then .next (s.cxlAnswer ld 0x0101 0 []) else
  let l := (s.ld ld).logs.getD log []
  let n := if all then l.length else handles.length
  if all ∨ (handles = (List.range n).map (· + 1) ∧ n ≤ l.length) then
    .next ((s.modLd ld fun x => { x with
      logs := if n = l.length then x.logs.erase log else x.logs.set log (l.drop n)
      overflow := x.overflow.filter (· != log.val) }).cxlAnswer ld 0x0101 0 [])
  else .next (s.cxlAnswer ld 0x0101 0xE [])

/-- GET_EVENT_INTERRUPT_POLICY. -/
def execGetEventInterruptPolicy (ld : Fin 32) (s : State) : Out := .next (s.cxlAnswer ld 0x0102 0 [(s.ld ld).policy])

/-- SET_EVENT_INTERRUPT_POLICY. -/
def execSetEventInterruptPolicy (ld : Fin 32) (policy : Nat) (s : State) : Out :=
  if s.cxlMbxUp ld then .next ((s.modLd ld fun l => { l with policy := policy }).cxlAnswer ld 0x0103 0 [])
  else .next (s.cxlAnswer ld 0x0103 0 [])

/-- GET_SUPPORTED_LOGS: one log, the Command Effects Log, and its size. -/
def execGetSupportedLogs (ld : Fin 32) (s : State) : Out := .next (s.cxlAnswer ld 0x0400 0 [1, 4 * celWords.length])

/-- GET_LOG: a slice of the Command Effects Log; no other log exists. -/
def execGetLog (ld : Fin 32) (cel : Bool) (off len : Nat) (s : State) : Out :=
  if cel = false then .next (s.cxlAnswer ld 0x0401 0x17 [])
  else if 4 * celWords.length < off + len then .next (s.cxlAnswer ld 0x0401 2 [])
  else .next (s.cxlAnswer ld 0x0401 0 ((sliceBytes (celWords.flatMap (leBytes 4)) off len).map fun b => b.toNat))

/-- IDENTIFY_MEMORY_DEVICE: the running firmware's version; total, volatile and persistent static capacity
are 0 (R76, R107). -/
def execIdentifyMemoryDevice (ld : Fin 32) (s : State) : Out :=
  .next (s.cxlAnswer ld 0x4000 0 [(if s.fw.running then s.fw.b.version else s.fw.a.version), 0, 0, 0])

/-- GET_PARTITION_INFO: static capacity 0 (R107). -/
def execGetPartitionInfo (ld : Fin 32) (s : State) : Out := .next (s.cxlAnswer ld 0x4100 0 [0, 0, 0, 0])

/-- GET_FW_INFO: the slots' states and versions, mapped onto FW_INFO (R107, R513). -/
def execGetFwInfo (ld : Fin 32) (s : State) : Out :=
  if s.privLd ld = false then .next (s.cxlAnswer ld 0x0200 3 [])
  else .next (s.cxlAnswer ld 0x0200 0
    [2, b2n s.fw.running, slotCode s.fw.a.state, s.fw.a.version, slotCode s.fw.b.state, s.fw.b.version])

/-- GET_POISON_LIST: the entries that lie under the LD's live extents in a range of DPA (R103). -/
def execGetPoisonList (ld : Fin 32) (dpa len : Nat) (s : State) : Out :=
  .next (s.cxlAnswer ld 0x4300 0 (b2n s.poisonOverflow :: s.poisonUnder ld dpa len))

/-- INJECT_POISON: a privileged LD with POISON_INJECT_EN poisons the line at a DPA; the entry's source is
Injected on both twins (R101, R103). -/
def execInjectPoison (ld : Fin 32) (dpa : Nat) (s : State) : Out :=
  if s.mayPoison ld = false then .next (s.cxlAnswer ld 0x4301 3 []) else
  match s.cxlWhere ld dpa .write with
  | .error e => .next ((s.refuse (ld.val / 16) ld e (s.dpaFault ld dpa)).cxlAnswer ld 0x4301 0xF [])
  | .ok (region, off, segs) =>
    let psa := (segs.headD (0, 0)).1
    let p := (s.bothNow [.poison psa 3]).enter {
      src := .internal, op := .poisonWrite, host := ld, region := region, off := off, len := 64
      segs := segs, data := (List.range 64).map fun _ => 0, poison := true }
    .next (p.1.cxlAnswer ld 0x4301 0 []).settle

/-- CLEAR_POISON: a privileged LD with POISON_INJECT_EN writes the given data without poison (R101, R103). -/
def execClearPoison (ld : Fin 32) (dpa : Nat) (data : List Byte) (s : State) : Out :=
  if s.mayPoison ld = false then .next (s.cxlAnswer ld 0x4302 3 []) else
  match s.cxlWhere ld dpa .write with
  | .error e => .next ((s.refuse (ld.val / 16) ld e (s.dpaFault ld dpa)).cxlAnswer ld 0x4302 0xF [])
  | .ok (region, off, segs) =>
    let p := s.enter { src := .internal, op := .write, host := ld, region := region, off := off, len := 64
                       segs := segs, data := sliceBytes data 0 64 }
    .next (p.1.cxlAnswer ld 0x4302 0 []).settle

/-- GET_DYNAMIC_CAPACITY_CONFIGURATION: base, length and block size of each DC region's window (R87). -/
def execGetDynamicCapacityConfiguration (ld : Fin 32) (s : State) : Out :=
  .next (s.cxlAnswer ld 0x4800 0 (8 :: (List.range 8).flatMap fun k => [s.winBase ld k, s.winLen ld k, dcBlock]))

/-- GET_DYNAMIC_CAPACITY_EXTENT_LIST: the LD's live extents with their tags (R89, R107). -/
def execGetDynamicCapacityExtentList (ld : Fin 32) (s : State) : Out :=
  .next (s.cxlAnswer ld 0x4801 0 ((s.extents.vals.filter fun e => e.ld == ld.val && !e.pending && !e.removing).flatMap fun e =>
    [e.dpa, e.len] ++ tagOf e))

/-- The oldest pending extent of an LD. -/
def State.oldestPending (s : State) (ld : Nat) : Option (Nat × Extent) :=
  (s.extents.filter fun e => e.2.ld == ld && e.2.pending).foldl (fun a e => match a with
    | none => some e
    | some (b : Nat × Extent) => if e.2.posted < b.2.posted then some e else some b) none

/-- Makes a pending extent live on both twins; its request completes with the outcome accepted (0) (R88). -/
def State.extentLive (s : State) (idx : Nat) (e : Extent) : State :=
  (s.bothNow [.extent idx { e with pending := false }]).extDone idx 0x5604 jrSuccess (tagOf e ++ [0])

/-- ADD_DYNAMIC_CAPACITY_RESPONSE: the host accepts pending extents by DPA and length, or with an empty list
declines the oldest pending one, whose request completes with the outcome declined (1) (R88). -/
def execAddDynamicCapacityResponse (ld : Fin 32) (accepted : List (Nat × Nat)) (s : State) : Out :=
  if s.cxlMbxUp ld = false then .next (s.cxlAnswer ld 0x4802 0 []) else
  match accepted with
  | [] => match s.oldestPending ld with
    | none => .next (s.cxlAnswer ld 0x4802 0 [])
    | some (idx, e) => .next (((s.extentDrop idx).extDone idx 0x5604 jrSuccess (tagOf e ++ [1])).cxlAnswer ld 0x4802 0 [])
  | l =>
    if l.all fun a => (s.extentNamed ld a.1 a.2 true).isSome then
      .next ((l.foldl (fun (t : State) a => match t.extentNamed ld a.1 a.2 true with
        | some (idx, e) => t.extentLive idx e
        | none => t) s).cxlAnswer ld 0x4802 0 [])
    else .next (s.cxlAnswer ld 0x4802 0xF [])

/-- RELEASE_DYNAMIC_CAPACITY: the host releases a live extent; the answer follows when no access under it is
in flight (R51, R90). -/
def execReleaseDynamicCapacity (ld : Fin 32) (dpa len : Nat) (s : State) : Out :=
  if s.cxlMbxUp ld = false then .next (s.cxlAnswer ld 0x4803 0 []) else
  match s.extentNamed ld dpa len false with
  | some (idx, e) => .next (s.extentRemove idx e false)
  | none => .next (s.cxlAnswer ld 0x4803 0xF [])

/-- GET_TIMESTAMP: device time (R107). -/
def execGetTimestamp (ld : Fin 32) (s : State) : Out := .next (s.cxlAnswer ld 0x0300 0 [s.time])

/-- SET_TIMESTAMP: refused, because time is set by Jorrid command (R107). -/
def execSetTimestamp (ld : Fin 32) (_ns : Nat) (s : State) : Out := .next (s.cxlAnswer ld 0x0301 3 [])

/-- CXL_MBX_UNSUPPORTED: any other opcode is answered Unsupported (R107). -/
def execCxlMbxUnsupported (ld : Fin 32) (opcode : Nat) (s : State) : Out := .next (s.cxlAnswer ld opcode 3 [])

end Sys2Proof.Machine
end

