-- ==== Sys2Proof/Machine/Authority.lean ====
section
/-! DEFINITION. Who orders the writes of a region: planned handoff, fencing, takeover, service alone, release
of a fence and the start of a resynchronisation (R33–R36, R210, R455–R478). -/

namespace Sys2Proof.Machine

/-! ### Ensigns and handoff (R454, R455) -/

/-- The regions whose Ensign this twin holds, those being handed over among them (R457, R463). -/
def State.ensigns (s : State) : Nat := s.regions.count fun r => r.ensign == .owner || r.ensign == .handing

/-- Regions in HANDING. -/
def State.handingCount (s : State) : Nat := s.regions.count fun r => r.ensign == .handing

/-- Whether a started command of a queue whose ring lies in a region has not ended (R210). -/
def State.queueBusy (s : State) (id : Nat) : Bool :=
  s.cmds.vals.any fun c => c.stage != .fetched && (match s.sq? c.sq with | some q => q.region == id | none => false)

/-- What is done when the last region of a handoff has been accepted: its command completes with the number
of regions handed, a twin that leaves service announces LEAVING (R461), and a revertive return is done
(R456). -/
def State.handEnd (s : State) : State :=
  if !s.twn.handoffs.isEmpty || s.handingCount != 0 then s else
  let t := match s.twn.handoffInst with
    | some k =>
      let st := if (s.mb k).abortAsked then jrAborted else jrSuccess
      { s with twn := { s.twn with handoffInst := none } }.mbxEnd k { status := st, body := [s.twn.handed] }
    | none => s
  let t := if t.twn.leaving then { t with twn := { t.twn with leaving := false, self := .leaving } } else t
  if t.twn.reverting then { t with twn := { t.twn with reverting := false } }.flag Reg.twnEvent 14 else t

/-- Moves waiting regions to HANDING, at most 64 at a time, once the started commands of their queues have
ended (R210, R455 step 1). -/
def State.handStart (s : State) : State :=
  s.twn.handoffs.foldl (fun (t : State) id =>
    if (t.region id).ensign != .owner then
      { t with twn := { t.twn with handoffs := t.twn.handoffs.filter (· != id) } }
    else if t.handingCount < 64 && !t.queueBusy id then
      { t.modRegion id (fun r => { r with ensign := .handing }) with
        twn := { t.twn with handoffs := t.twn.handoffs.filter (· != id) } }
    else t) s

/-- Asks for regions to be handed to the peer; none is while the peer is not PAIRED (R455). -/
def State.startHandoff (s : State) (ids : List Nat) : State :=
  if s.paired = false then s.handEnd else
  let mine := ids.filter fun id => (s.regions.get? id).isSome && (s.region id).ensign == .owner
  ({ s with twn := { s.twn with handoffs := mine.foldl insertNew s.twn.handoffs } }).handStart.handEnd

/-- The regions whose Ensign this twin holds. -/
def State.ownedRegions (s : State) : List Nat :=
  (s.regions.filter fun e => e.2.ensign == .owner).map Prod.fst

/-- Firmware takes the twin out of service: every Ensign is handed to the peer, and LEAVING is announced
(R338, R461, R481, R602). Without a PAIRED peer nothing can be handed, and the twin goes on. -/
def State.leaveService (s : State) : State :=
  if s.paired then { s with twn := { s.twn with leaving := true } }.startHandoff s.ownedRegions else s

/-- Whether a write that this twin has sequenced to a region is still open (R455 step 2). -/
def State.regionOpen (s : State) (id : Nat) : Bool :=
  s.reqs.vals.any fun r => isWrite r.op && r.region == id && r.stage == .opened

/-- The entries of a region's queues that are fetched here and not started go with its Ensign. -/
def State.dropFetched (s : State) (id : Nat) : State :=
  { s with cmds := s.cmds.filter fun e => !(e.2.stage == .fetched
      && (match s.sq? e.2.sq with | some q => q.region == id | none => false)) }

/-! ### Silence of the peer: its messages and writes (R453, R455, R470) -/

/-- A forwarded request of a QP is dropped: the QP expects its PSN again, as if it had not arrived, and hosts
re-issue it (R470 step 1). -/
def State.rewindQp (s : State) (qpn psn : Nat) : State :=
  s.modQp qpn fun q => if q.resps.any fun e => e.psn == psn
    then { q with psnRx := psn, resps := q.resps.takeWhile fun e => e.psn != psn } else q

/-- Drops every FORWARD and READ_REQ that the peer has not answered: a write goes back to its host unless its
host has had it completed, a read is tried here (R453, R470 step 1). -/
def State.dropForwards (s : State) : State :=
  (s.reqs.filter fun e => e.2.stage == .forwarded).foldl (fun (t : State) e =>
    if isWrite e.2.op && !e.2.acked then
      match e.2.src with
      | .rdma qpn psn => (t.dropReq e.1).rewindQp qpn psn
      | .tq n => (t.modReq e.1 fun q => { q with stage := .waiting, done := 0 }).modCmd n id
      | _ => t.dropReq e.1
    else t.modReq e.1 fun q => { q with stage := .waiting, done := 0, data := if isWrite q.op then q.data else [] }) s

/-- Drops the reads that the peer has forwarded here, and its MIRROR messages that are not applied. -/
def State.dropPeerReqs (s : State) : State :=
  { s with reqs := s.reqs.filter fun e => match e.2.src with
      | .mirror _ => false
      | .forward .. => isWrite e.2.op
      | _ => true }

/-- Puts a request into a list in order of region and persist sequence. -/
def insertPseq (x : Nat × Req) : List (Nat × Req) → List (Nat × Req)
  | [] => [x]
  | y :: t =>
    if x.2.region < y.2.region ∨ x.2.region = y.2.region ∧ x.2.pseq ≤ y.2.pseq then x :: y :: t
    else y :: insertPseq x t

/-- A MIRROR that will have no acknowledgement: its lines are no longer open, and SYNC_DIRTY is set on its
tiles (R470 step 3). -/
def State.mirrorVoid (s : State) (m : MirrorMsg) : State :=
  let t := (linesOf m.psa m.data.length).foldl State.closeLine s
  (tilesOf m.psa m.data.length).foldl (fun (u : State) x => u.modTile x fun e => { e with syncDirty := true }) t

/-- Releases every write that waits for the peer's ACK, in persist-sequence order per region (R470 step 3). -/
def State.releaseWrites (s : State) : State :=
  let t := s.twn.tx.vals.foldl (fun (u : State) x => match x.msg with
    | .mirror m => u.mirrorVoid m
    | _ => u) s
  let t := { t with twn := { t.twn with tx := [] } }
  let l := (t.reqs.filter fun e => isWrite e.2.op && e.2.stage == .opened).foldl (fun a e => insertPseq e a) []
  l.foldl (fun (u : State) e => (u.modReq e.1 fun q => { q with msgs := [] }).writeDone e.1) t

/-- Changes that waited for the peer take effect here alone, and the commands that waited for them go on
(R42, R508). -/
def State.voidCtl (s : State) : State :=
  let l := s.twn.ctl
  let t := l.foldl (fun (u : State) e => u.applyChanges e.2.changes) { s with twn := { s.twn with ctl := [] } }
  (l.filterMap fun e => e.2.inst).foldl (fun (u : State) k => u.mbxPoll k) t

/-- An offer that the peer has not accepted is withdrawn: this twin keeps the region (R455). -/
def State.withdraw (s : State) : State :=
  { s with
    regions := s.regions.mapV fun r => if r.ensign == Ensign.handing then { r with ensign := .owner, offered := false } else r
    twn := { s.twn with handoffs := [] } }.handEnd

/-- Replays the pending-write logs of the last save, in staging order, through each region's owner: the writes
were admitted before the save, so they are not translated again (R422 step 8). -/
def State.replayLogs (s : State) : State :=
  s.elg.replay.foldl (fun (t : State) r => (t.enter r).1) { s with elg := { s.elg with replay := [] } }

/-- A resynchronisation that ends early: its tiles not yet acknowledged stay to be copied (R477, log 136). -/
def State.resyncBroken (s : State) : State :=
  (s.twn.resync.vals.flatMap fun x => x.todo ++ x.sent).foldl (fun (t : State) n =>
    t.modTile n fun e => { e with syncDirty := true }) s

/-- The survivor serves alone: what it sent the peer has no answer, its waiting writes are released and its
records sent again (R470 steps 1, 3 and 4). -/
def State.serveAlone (s₀ : State) : State :=
  let s := s₀.resyncBroken
  let t := { s with twn := { s.twn with
    mate := false, paired := false, peer := .failed, acted := []
    self := (match s.twn.self with | .saving => .saving | _ => .single)
    asm := [], pulls := [], pulled := [], tilesIn := [], resync := [], peerRejoin := none, verifyBusy := []
    ackHeld := [] } }
  (t.withdraw.dropPeerReqs.dropForwards.releaseWrites.voidCtl.seqAlone.resendAll.replayLogs).settle.notePhase

/-! ### Fencing and takeover (R466–R470) -/

/-- Drives TWIN_FENCE_OUT. -/
def State.driveFence (s : State) (level : Bool) : State :=
  if s.twn.fenceOut = level then s else
  { s with twn := { s.twn with fenceOut := level } }.emit (.fenceOut level)

/-- Steps 2 and 3 of R467: a twin whose own TWIN_FENCE_IN is asserted stops; otherwise it asserts
TWIN_FENCE_OUT, and its settle begins. -/
def State.fenceNow (s : State) : State :=
  if s.twn.fenceIn then { s with twn := { s.twn with fence := .none, forced := false } }
  else
    let t := { s.driveFence true with twn := { (s.driveFence true).twn with fence := .settle } }
    (t.flag Reg.twnEvent 3).recordF 0x0D04 0 ((t.flag Reg.twnEvent 3).reg Reg.twnEvent).toNat 0 { forced := s.twn.forced }

/-- Fences the peer under R467, with the fence defer of twin 1 where it applies (R467 step 1). -/
def State.fencePeer (s : State) (defer : Bool) : State :=
  if s.twn.fence != .none then s
  else if defer && s.twin then { s with twn := { s.twn with fence := .defer } }
  else s.fenceNow

/-- A twin that may not take over keeps its own Ensigns, serves them alone, and moves the peer's regions to
OFFLINE (R468). -/
def State.keepOwn (s : State) : State :=
  let theirs := (s.regions.filter fun e => e.2.ensign == .peerOwns && admits e.2.state).map Prod.fst
  let t := theirs.foldl (fun (u : State) id => u.regionState id .offline) s
  let t := { t with twn := { t.twn with offlined := theirs.foldl insertNew t.twn.offlined } }
  (t.record 0x0D06 0 (t.reg Reg.twnEvent).toNat 0).serveAlone

/-- Whether an automatic takeover is permitted: the fence path is proved, and TAKEOVER_EN is set (R468). -/
def State.mayTakeover (s : State) : Bool := s.twn.fenceOk && s.bit Reg.twnCtl 2

/-- The peer has failed: fenced and taken over, or its regions OFFLINE where no takeover is permitted (R467,
R468). -/
def State.peerLost (s : State) (defer : Bool) : State :=
  let t := { s with twn := { s.twn with peer := .failed } }.withdraw
  if s.mayTakeover then t.fencePeer defer else t.keepOwn

/-- One region's Ensign is taken: OWNER here, the next PSEQ is the highest applied + 65,537, and its queues
are re-executed (R470 step 2). A region that R468 took OFFLINE returns to service. -/
def State.takeRegion (s : State) (id : Nat) : State :=
  let t := s.modRegion id fun r => { r with ensign := .owner, owner := s.twin, pseq := r.pseq + 65536 }
  let t := if s.twn.offlined.contains id then
      { t.regionState id .online with twn := { t.twn with offlined := t.twn.offlined.filter (· != id) } }
    else t
  t.requeue id

/-- The takeover (R470): every Ensign of the peer is taken, then what waited is released. -/
def State.takeOver (s : State) : State :=
  let t := { s with twn := { s.twn with fence := .none, forced := false, mate := false, acted := [] } }
  let ids := (t.regions.filter fun e => e.2.ensign == .peerOwns || e.2.ensign == .taking).map Prod.fst
  let t := ids.foldl State.takeRegion t.dropPeerReqs
  (t.serveAlone.count (Reg.twnCount + 0x18)).settle

/-! ### Release of the fence (R478) -/

/-- Whether the automatic release may take place: the peer reports REJOIN, AUTO_RELEASE is 1 and the fence
path is proved. -/
def State.autoRelease (s : State) : Bool :=
  s.twn.fenceOut && s.twn.fenceOk && s.bit Reg.twnCtl 4 && (match s.twn.peer with | .rejoining => true | _ => false)

/-- Whether a minute has not passed since the last release. -/
def State.releaseRecent (s : State) : Bool := match s.twn.lastRelease with
  | some t => decide (s.time < t + 60 * 10 ^ 9)
  | none => false

/-- Releases the fence; a TWIN_RELEASE command completes when the release takes effect. -/
def State.releaseNow (s : State) : State :=
  let t := { s.driveFence false with twn := { (s.driveFence false).twn with
    lastRelease := some s.time, releaseDeferred := false, releaseInst := none } }
  match s.twn.releaseInst with
  | some k => t.mbxStatus k jrSuccess
  | none => t

/-- A release that is called for: at once, or deferred to the end of the minute after the last one. With
nothing to release it has taken effect. -/
def State.releaseAsk (s : State) : State :=
  if s.twn.fenceOut = false then
    { s with twn := { s.twn with releaseInst := none } }.mbxStatus (s.twn.releaseInst.getD (2 ^ 60)) jrSuccess
  else if s.releaseRecent then { s with twn := { s.twn with releaseDeferred := true } }
  else s.releaseNow

/-! ### Resynchronisation (R476, R477) -/

/-- The tables that go with a region: its granules, extents, keys, queues, rings and window slots (R477
step 4). -/
def State.regionTables (s : State) (id : Nat) : List Change :=
  let r := s.region id
  (match s.sec.keys.get? id with | some k => [Change.key id k.epoch k.rks] | none => [])
  ++ Change.region id { r with offered := false }
    :: (s.rgt.filter fun e => decide (r.rgtBase ≤ e.1) && decide (e.1 < r.rgtBase + r.size)).map (fun e => .rgt e.1 e.2)
  ++ (s.extents.filter fun e => e.2.region == id).map (fun e => .extent e.1 e.2)
  ++ (s.mkeys.filter fun e => e.2.region == id).map (fun e => .mkey e.1 e.2)
  ++ (s.sqs.filter fun e => e.2.region == id).map (fun e => .sq e.1 e.2)
  ++ (s.cqs.filter fun e => e.2.region == id).map (fun e => .cq e.1 e.2)
  ++ (match s.progress.get? id with | some p => [Change.progress id (some p)] | none => [])
  ++ (s.twn.window.filter fun e => e.1 / 65536 == id).map fun e =>
      .window id (e.1 % 65536) e.2.reqId e.2.host e.2.atomic e.2.result

/-- The tables of the whole appliance: leases and bindings, and the mode (R477 step 4). -/
def State.wideTables (s : State) : List Change :=
  s.leases.map (fun e => Change.lease e.1 e.2)
  ++ (s.lds.filter fun e => e.2.bound.isSome).map (fun e => .binding e.1 true)
  ++ [.mode (s.bit Reg.twnCtl 3)]

/-- Ends a region's resynchronisation once its last tile has been acknowledged (R477 step 6). -/
def State.resyncEnd (s : State) (id : Nat) : State :=
  match s.twn.resync.get? id with
  | none => s
  | some x =>
    if !x.todo.isEmpty || !x.sent.isEmpty then s else
    let t := { s with twn := { s.twn with resync := s.twn.resync.erase id } }.post (.resyncCtl id (s.region id).pseq false [])
    if t.twn.resync.isEmpty then t.flag Reg.twnEvent 13 else t

/-- Starts a region's resynchronisation towards the peer: RESYNC_CTL with the PSEQ from which MIRROR messages
follow and the pinned tiles, the tables, and then its tiles (R477 steps 3 and 4). -/
def State.resyncRegion (s : State) (id : Nat) (tiles : List Nat) : State :=
  let pins := s.tilesIn id ((s.tiles.filter fun e => e.2.pinned).map Prod.fst)
  let t := s.post (.resyncCtl id (s.region id).pseq true pins)
  let t := t.post (.control (s.regionTables id))
  ({ t with twn := { t.twn with resync := t.twn.resync.set id { todo := tiles } } }).resyncEnd id

/-- What a region's peer must copy from here: the SYNC_DIRTY tiles, those of the peer's rejoin list and those
that R423 names, or every tile that is not ZERO (R476). -/
def State.resyncTiles (s : State) (id : Nat) (rejoin : List Nat) (full : Bool) : List Nat :=
  let l := if full then (s.tiles.filter fun e => e.2.home != .zero).map Prod.fst
    else (s.twn.copy.getD id []).foldl insertNew
      (rejoin.foldl insertNew ((s.tiles.filter fun e => e.2.syncDirty).map Prod.fst))
  s.tilesIn id l

/-- Brings a returning peer up to date, once it has asked: every region that this twin owns (R476, R477). -/
def State.resyncStart (s : State) : State :=
  match s.twn.peerRejoin with
  | none => s
  | some (l, full) =>
    if s.paired = false then s else
    let t := { s with twn := { s.twn with peerRejoin := none } }.post (.control s.wideTables)
    let t := t.ownedRegions.foldl (fun (u : State) id => u.resyncRegion id (u.resyncTiles id l full)) t
    { t with twn := { t.twn with copy := [] } }

/-- A returning twin gives up its own descriptors and tables, which those of the resynchronisation replace, and
every PINNED, which the lists of RESYNC_CTL set again (R477 step 4). -/
def State.dropTables (s : State) : State :=
  let t := (s.tiles.filter fun e => e.2.pinned).foldl (fun (u : State) e => u.modTile e.1 fun x =>
    { x with pinned := false }) s
  { t with
    regions := [], rgt := [], extents := [], mkeys := [], leases := [], sqs := [], cqs := [], cmds := [], sqWait := []
    progress := []
    twn := { t.twn with window := [], written := [] } }

/-- The twins become PAIRED (R457, R477): writes are mirrored from now on. A returning twin invalidates its
HLC (R314) and asks for what it lacks; a survivor whose peer's regions R468 took OFFLINE asks for those. -/
def State.pairUp (s : State) : State :=
  let back := match s.twn.self with | .rejoin => true | .single => !s.twn.offlined.isEmpty | _ => false
  let ret := match s.twn.self with | .rejoin => true | _ => false
  let t := { s with twn := { s.twn with mate := true, self := .paired, peer := .present } }
  let t := { t with twn := { t.twn with returned := ret } }
  let t := if ret then (((insertAll (t.hlc.ways.vals.map fun w => w.tile)).foldl State.flushTile t).setPhase 6).dropTables
    else t
  let t := if back then
      { t.post (.control [.rejoin t.twn.rejoin t.twn.fullResync]) with
        twn := { (t.post (.control [.rejoin t.twn.rejoin t.twn.fullResync])).twn with
          rejoin := [], fullResync := false, offlined := [] } }
    else t
  let t := t.twn.copy.foldl (fun (u : State) e =>
    if (u.region e.1).ensign == .owner then u.resyncRegion e.1 (u.tilesIn e.1 e.2) else u) t
  ({ t with twn := { t.twn with copy := [] } }).resyncStart.replayLogs.settle.notePhase

end Sys2Proof.Machine
end

