-- ==== Sys2Proof/Machine/Placement.lean ====
section
/-! DEFINITION. Chapter 6: promotions, evictions and relocations switch, waiting moves are served, the
frame and map sweeps, the Tile Map Cache's fills, and the firmware map audit (R241–R284, R714). -/

namespace Sys2Proof.Machine

/-! ### Switches (R245–R249) -/

/-- The sectors of slices of a tile (R253). -/
def sliceSectors (tile : Nat) (l : List Nat) : List Nat :=
  l.flatMap fun k => (List.range 8).map fun i => tile * 64 + k * 8 + i

/-- A promotion whose reads met an uncorrectable slice: it is abandoned and the tile is repaired; the save
image, where it serves, is promoted in its place (R246, R265, R374, R654). -/
def State.promoteFail (s : State) (tile : Nat) (m : Move) (bad : List Nat) : State :=
  let t := { s with moves := s.moves.modify tile fun x => { x with cmds := [], peers := [] } }.dropMove tile false
  let t := (t.badRead tile (sliceSectors tile bad) false).modMove tile fun x =>
    { x with pin := x.pin || m.pin, peers := x.peers ++ m.peers }
  if (t.moves.get? tile).isSome then t
  else if (t.tile tile).home == .failed then t.joinEnd [] m.peers tile false false
  else t.startMove tile .promote m.why m.cmds m.peers

/-- PROMOTION_SWITCH: the reads of a promotion, which its dies have taken up, are complete, `bad` naming the slices that were
uncorrectable; the entry switches to DRAM and waiting requests proceed (R247). A tile-atomic command's
fresh frame is switched by the write that fills it (R208). -/
def execPromotionSwitch (tile : Nat) (bad : List (Fin 8)) (s : State) : Out :=
  .next (match s.moves.get? tile with
    | none => s
    | some m =>
      if m.kind != .promote || m.stage != .moving || m.why == .atomTile || s.mediaStep.readsIssued tile m = false then s
      else if bad.isEmpty then (match m.frame with
        | some f => (s.promoteDone tile m f).settle
        | none => s)
      else ((s.promoteFail tile m (bad.map Fin.val)).nextSlot (engineOf tile)).settle)

/-- What waited for the switch of an eviction or relocation promotes from the new home: a pin, a PREFETCH, which is refused
where its engine has no slot, or a read promotion (R249, R268). -/
def State.joinedPromote (s : State) (tile : Nat) (m : Move) : State :=
  if m.pin then s.pinJoin tile m.cmds m.peers
  else if !m.cmds.isEmpty then
    (if s.mayMove && s.slotFree (engineOf tile) .prefetch then s.startMove tile .promote .prefetch m.cmds
     else s.joinEnd m.cmds [] tile false false)
  else if m.hot then s.startMove tile .promote .readPromo []
  else s

/-- Counts an eviction off the ledger's demand (R262). -/
def State.demandDown (s : State) : State :=
  s.setFld (Reg.plcTotals + 16) 29 0 (s.fld (Reg.plcTotals + 16) 29 0 - 1)

/-- EVICTION_SWITCH: the eviction's program has verified; the entry switches to FLASH, the frame is freed and
its ledger charge released (R245, R248, R262). -/
def execEvictionSwitch (tile : Nat) (s : State) : Out :=
  .next (match s.moves.get? tile with
    | none => s
    | some m =>
      if m.kind != .evict || m.stage != .verified then s
      else
        let e := s.tile tile
        let t := { s with moves := s.moves.erase tile }.setTile tile
          { e with home := .flash, loc := m.dest, lock := false, evict := false }
        let t := (((t.validUp m.dest tile).freeFrameNo e.loc).count (Reg.plcCount + 4)).demandDown
        (((t.noteFrames.joinedPromote tile m).nextSlot (engineOf tile)).serveQueue).settle)

/-- RELOCATION_SWITCH: the program of a relocation, or of a repair whose frame the ledger refused, has verified;
the entry switches to the new location (R248, R265). -/
def execRelocationSwitch (tile : Nat) (s : State) : Out :=
  .next (match s.moves.get? tile with
    | none => s
    | some m =>
      if m.stage != .verified || !(m.kind == .relocate || m.kind == .repair) then s
      else
        let e := s.tile tile
        let t := { s with moves := s.moves.erase tile }.setTile tile
          { e with home := .flash, loc := m.dest, lock := false, evict := false }
        let t := t.validUp m.dest tile
        let t := if m.kind = .relocate then t.invalidateLoc e.loc
          else (t.err1 8 .repaired).loseSectors tile (t.badSectors tile)
        ((t.joinedPromote tile m).nextSlot (engineOf tile)).settle)

/-! ### Waiting writes (R257, R258) -/

/-- PROMO_WAIT_OVER: a write has waited for the promotion of a tile past the limit; new writes are
back-pressured until no write has (R258). -/
def execPromoWaitOver (tile : Nat) (s : State) : Out :=
  .next (if s.waitsPromo tile = false then s
    else
      let t := { s with plc := { s.plc with waitOver := insertNew s.plc.waitOver tile } }
      if s.plc.waitOver.isEmpty then t.flagRecord Reg.plcEvent 1 0x0802 ((s.regionOfTile tile).getD 0) 0 else t)

/-- PROMOTION_QUEUE_SERVE: the ledger admits frames again and waiting work is served in order (R257). -/
def execPromotionQueueServe (s : State) : Out := .next s.ledgerEval.serveQueue.settle

/-- SAVE_AREA_DRAIN: each SAVE_AREA tile is promoted, or relocated when the ledger refuses it a frame (R270). -/
def execSaveAreaDrain (s : State) : Out := .next s.drainSaveArea.settle

/-! ### Sweeps (R261–R264, R269) -/

/-- PLC_LEDGER_DEMAND (R262, R279). -/
def State.ledgerWant (s : State) : Nat := s.fld (Reg.plcTotals + 16) 29 0

/-- Whether there is eviction demand (R262). -/
def State.demand (s : State) : Bool := s.plc.frameDemand || decide (s.ledgerWant ≠ 0)

/-- The frames still short of HIGH_PCT, while the frame demand lasts (R261, R262). -/
def State.framesShort (s : State) : Nat :=
  if s.plc.frameDemand then ceilDiv (s.framesTotal * s.fld Reg.plcFreeWm 15 8) 100 - s.framesFree else 0

/-- The effective threshold of a class (R261). -/
def State.sweepThresh (s : State) (cls : Nat) : Nat :=
  min 255 (s.fld (Reg.plcClass + 4 * cls) 31 24 * 2 ^ s.plc.k)

/-- Whether a frame's tile may be evicted by the sweep: unlocked, unpinned, HEAT below the threshold (R261). -/
def State.sweepable (s : State) (f : Frame) : Bool :=
  let e := s.tile f.tile
  inDram e.home && !e.lock && !e.pinned && decide (e.heat < s.sweepThresh f.cls)

/-- Whether pins give way: ledger demand remains, K is 7, and no unpinned tile is eligible (R269). -/
def State.pinsYield (s : State) : Bool :=
  decide (s.ledgerWant ≠ 0) && s.plc.k == 7 && !(s.frames.vals.any s.sweepable)

/-- Moves the sweep on by one frame; at the end of a lap K rises if demand is unmet (R261). -/
def State.sweepNext (s : State) : State :=
  if s.plc.sweep + 1 < s.framesTotal then { s with plc := { s.plc with sweep := s.plc.sweep + 1 } }
  else
    let unmet := s.demand && decide (s.moves.count (fun m => m.kind == .evict && m.stage != .waitSlot) < max s.ledgerWant s.framesShort)
    let k := if s.demand = false then 0 else if unmet then min 7 (s.plc.k + 1) else s.plc.k
    let t := { s with plc := { s.plc with sweep := 0, k := k } }
    if k = 7 ∧ s.plc.k ≠ 7 then t.flag Reg.plcEvent 2 else t

/-- A sweep wants an entry whose line is not resident: it waits for the fill (R271, R272). -/
def State.mapWant (s : State) (tile : Nat) : State :=
  if s.plc.tmcFills.contains (mapLine tile) then s else s.mapMiss tile

/-- Halves a tile's HEAT, rounding down (R261, R263). -/
def State.cool (s : State) (tile : Nat) : State := s.modTile tile fun e => { e with heat := e.heat / 2 }

/-- A visit of the sweep to a frame that holds a tile (R261, R269). -/
def State.visitFrame (s : State) (f : Frame) : State :=
  let e := s.tile f.tile
  let yields := e.pinned && !e.lock && s.pinsYield
  if s.demand && s.mayMove && (s.sweepable f || yields) then
    if s.fld Reg.plcSweep 21 16 * 100000 ≤ s.plc.started then s
    else
      let t := if yields && !s.plc.pinDemoted then
          { s with plc := { s.plc with pinDemoted := true } }.flagRecord Reg.plcEvent 3 0x0804 0 0
        else s
      ((t.startMove f.tile .evict (if yields then .demote else .sweep) []).cool f.tile).sweepNext
  else
    let t := if s.demand && decide (e.heat < s.sweepThresh f.cls) && (e.lock || e.pinned)
      then s.count (Reg.plcCount + 12) else s
    (t.cool f.tile).sweepNext

/-- FRAME_SWEEP_VISIT: the sweep visits its next frame; a spent eviction cap holds it at an eligible tile
(R261). -/
def execFrameSweepVisit (s : State) : Out :=
  .next (if s.bit Reg.plcCtl 2 = false || s.framesTotal == 0 then s
    else
      let s := { s with plc := { s.plc with pinDemoted := s.plc.pinDemoted && decide (s.ledgerWant ≠ 0) } }
      match s.frames.get? (s.frameBase + s.plc.sweep) with
      | some f =>
        if s.mapHit f.tile = false then s.mapWant f.tile
        else if f.held || !inDram (s.tile f.tile).home || (s.tile f.tile).loc != s.frameBase + s.plc.sweep then s.sweepNext
        else (s.visitFrame f).settle
      | none => s.sweepNext)

/-- EVICTION_CAP_SECOND: a new second begins and the eviction cap is whole again, for evictions that wait as well (R261). -/
def execEvictionCapSecond (s : State) : Out := .next { s with plc := { s.plc with started := 0 } }.nextSlots.settle

/-- MAP_SWEEP_READ: the map sweep reads its next entry and halves the HEAT of a flash tile; a change
to an entry whose line is not resident waits for its fill (R263, R271). -/
def execMapSweepRead (s : State) : Out :=
  .next (if s.bit Reg.plcCtl 3 = false then s
    else
      let n := s.plc.mapSweep
      if inFlash (s.tile n).home && s.mapHit n = false then s.mapWant n else
      let t := if inFlash (s.tile n).home then s.cool n else s
      { t with plc := { t.plc with mapSweep := if n + 1 < s.exposed * 262144 then n + 1 else 0 } })

/-- DECAY_PERIOD: each engine's access counts are halved (R264). -/
def execDecayPeriod (s : State) : Out := .next { s with plc := { s.plc with heat := s.plc.heat.mapV (· / 2) } }

/-! ### The Tile Map Cache and the audit (R56, R272, R714) -/

/-- An entry that fails CHECK: HOME becomes FAILED, the old location is held for the audit, and the tile is
served from the peer (R56, R714). -/
def State.checkFail (s : State) (tile : Nat) : State :=
  let t := (s.dropMove tile true).dropLines tile
  let e := t.tile tile
  let t := if inDram e.home then t.holdFrame e.loc false
    else if inFlash e.home then { t with plc := { t.plc with heldFlash := insertNew t.plc.heldFlash e.loc } }
    else t
  let t := (t.modTile tile fun x => { x with home := .failed, lock := false, evict := false }).markBad (tileSectors tile)
  t.flagRecord Reg.plcEvent 4 0x0801 ((s.regionOfTile tile).getD 0) tile

/-- TMC_FILL: the DRAM read of a missed map line, which its channel issues next, returns; `badEntries` are the entries of
it that fail CHECK (R56, R271, R272, R326). -/
def execTmcFill (line : Nat) (badEntries : List Nat) (s : State) : Out :=
  .next (if s.plc.tmcFills.contains line = false then s
    else match s.served (chOfLine (line / 64) (line / 4)) 1 line with
    | none => s
    | some t =>
      let t := { t with plc := { t.plc with
        tmcFills := t.plc.tmcFills.filter (· != line)
        tmc := tmcPut t.dirtyLimit t.plc.clock t.plc.tmc line false
        clock := t.plc.clock + 1 } }
      (((badEntries.filter (· < 8)).map (line * 8 + ·)).foldl State.checkFail t).settle)

/-- Whether the tile that a location was held for names it again. -/
def State.namesLoc (s : State) (dram : Bool) (loc : Nat) : Bool :=
  s.tiles.vals.any fun e => e.loc == loc && (if dram then inDram e.home else inFlash e.home)

/-- MAP_AUDIT: firmware releases each held location that no entry names; a frame whose failing sector calls for
it is retired (R343, R714). -/
def execMapAudit (s : State) : Out :=
  .next (
    let fs := s.frames.filter fun e => e.2.held && !s.namesLoc true e.1
    let t := fs.foldl (fun (u : State) e =>
      let v := { u with frames := u.frames.erase e.1 }
      (if e.2.bad then v.retireFrame e.1 else v).noteFrames) s
    let ls := t.plc.heldFlash.filter fun l => !t.namesLoc false l
    let t := ls.foldl State.invalidateLoc { t with plc := { t.plc with
      heldFlash := t.plc.heldFlash.filter fun l => !ls.contains l } }
    t.serveQueue.settle)

end Sys2Proof.Machine
end

