-- ==== Sys2Proof/Machine/Flash.lean ====
section
/-! DEFINITION. Chapter 9: codeword reads, the patrol, program units, erases, garbage collection, refresh, the
save region's size and geometry discovery (R364–R398). -/

namespace Sys2Proof.Machine

/-! ### Refresh, garbage collection, wear (R375, R381, R383) -/

/-- Asks again for tiles of blocks queued for refresh whose lock was taken before. -/
def State.mediaPoll (s : State) : State :=
  (s.fmc.blocks.filter fun e => e.2.refresh && e.2.state == .full).foldl (fun t e =>
    (t.relocateAll (e.1 / 65536) (e.1 % 65536)).emptyCheck (e.1 / 65536) (e.1 % 65536)) s

/-- The FULL stripe block that garbage collection takes: fewest valid tiles, then lowest erase count (R381). -/
def State.gcVictim (s : State) (set : Nat) : Option Nat :=
  (((s.sbList set).filter fun e => e.2.state == .full && !e.2.refresh).foldl (fun a e => match a with
    | none => some e
    | some (b : Nat × Stripe) =>
      if e.2.valid < b.2.valid || (e.2.valid == b.2.valid && decide (e.2.erases < b.2.erases)) then some e else some b)
    none).map fun e => e.1 % 65536

/-- Starts garbage collection of a set whose FREE blocks fall below GC_LOW, and goes on with it until they
reach GC_HIGH (R381). -/
def State.gcCheck (s : State) (set : Nat) : State :=
  let run := if s.fmc.gc.contains set then decide (s.freeIn set < s.fld Reg.fmcGc 15 8)
    else s.bit Reg.fmcCtl 1 && decide (s.freeIn set < s.gcLow)
  if run then
    let t := { s with fmc := { s.fmc with gc := insertNew s.fmc.gc set } }
    match t.gcVictim set with
    | some b => (t.refresh set b).emptyCheck set b
    | none => t
  else { s with fmc := { s.fmc with gc := s.fmc.gc.filter (· != set) } }

/-- Wear levelling: a set whose erase counts differ by more than WL_DELTA has its least erased FULL block
refreshed (R383). Blocks that the table does not list were never erased. -/
def State.wearCheck (s : State) (set : Nat) : State :=
  let l := s.sbList set
  let lo := if l.length < s.sbPerSet then 0 else minOf (l.map fun e => e.2.erases) 0
  if s.bit Reg.fmcCtl 3 = false || decide (maxOf (l.map fun e => e.2.erases) ≤ lo + s.fld Reg.fmcGc 26 16) then s
  else match (l.filter fun e => e.2.state == .full && !e.2.refresh).foldl (fun a e => match a with
      | none => some e
      | some (b : Nat × Stripe) => if e.2.erases < b.2.erases then some e else some b) none with
    | some e => s.refresh set (e.1 % 65536)
    | none => s

/-- READY falling below NEED sets SAVE_SHORT (R385). -/
def State.saveShort (s : State) : State :=
  if 0 < s.sets ∧ minOf ((List.range s.sets).map s.readyIn) 0 < s.saveNeed then s.flag Reg.fmcEvent 3 else s

/-! ### Codeword reads (R372–R375) -/

/-- The location that slot `i` of the codeword of a location has. -/
def cwLoc (loc i : Nat) : Nat := loc / 8 * 8 + i

/-- Gives a decoded slice to the requests, and to the move, that wait for it (R253, R373). -/
def State.gotSlice (s : State) (x : Nat) : State :=
  { s with
    fmc := { s.fmc with reads := s.fmc.reads.filter (· != x) }
    reqs := s.reqs.mapV fun r =>
      if r.segs.any fun p => (slicesOf p.1 p.2).contains x then { r with got := insertNew r.got x } else r
    moves := s.moves.modify (x / 8) fun m => { m with read := insertNew m.read (x % 8) } }

/-- A slice of a tile that flash cannot give: a relocation or promotion of the tile is abandoned, and it is
repaired (R374). -/
def State.sliceBad (s : State) (tile slice : Nat) : State :=
  let t := { s with fmc := { s.fmc with reads := s.fmc.reads.filter (· != tile * 8 + slice) } }
  match t.moves.get? tile with
  | some m =>
    if m.kind = .promote then t.promoteFail tile m [slice]
    else if m.kind = .relocate then (t.dropMove tile true).badRead tile (sliceSectors tile [slice]) false
    else t.markBad (sliceSectors tile [slice])
  | none => t.badRead tile (sliceSectors tile [slice]) false

/-- The tiles whose slot in a codeword is valid and whose entry still names that location (R372, R374). -/
def State.cwTiles (s : State) (loc : Nat) : List Nat :=
  (List.range 8).filterMap fun i => match s.fmc.slots.get? (cwLoc loc i) with
    | some tile => if inFlash (s.tile tile).home && (s.tile tile).loc == cwLoc loc i then some tile else none
    | none => none

/-- An uncorrectable codeword: the requester's tile is repaired first, then the others (R374). -/
def State.cwFail (s : State) (loc slice : Nat) : State :=
  let t := ({ s with twn := { s.twn with flashUncorr := s.twn.flashUncorr + 1 } }.count Reg.fmcCount).flagRecord
    Reg.fmcEvent 0 0x0B02 (locSet loc) loc
  let mine := (t.cwTiles loc).filter fun x => t.fmc.reads.contains (x * 8 + slice)
  (mine ++ (t.cwTiles loc).filter fun x => !mine.contains x).foldl (fun (u : State) x => u.sliceBad x slice) t

/-- A codeword that decoded: the ladder's counts, the refresh test, and the error class of a correction (R373,
R375, R661). -/
def State.cwGood (s : State) (loc n corrected : Nat) : State :=
  let t := if n = 1 then s.count (Reg.fmcCount + 4) else if 2 ≤ n then s.count (Reg.fmcCount + 8) else s
  let t := if 1 ≤ n ∨ 0 < corrected then t.err1 11 .corrected else t
  if 1 ≤ n ∨ s.fld Reg.fmcLdpc 15 8 < corrected then t.refresh (locSet loc) (t.locBlock loc) else t

/-- Tiles that wait for a slice of a codeword, though its slot tag does not name them (R372). -/
def State.cwStrays (s : State) (loc slice : Nat) : List Nat :=
  (s.fmc.reads.filter fun x => x % 8 == slice && (s.tile (x / 8)).loc / 8 == loc / 8
    && inFlash (s.tile (x / 8)).home && !(s.cwTiles loc).contains (x / 8)).map (· / 8)

/-- Whether the retry ladder has a step: further hard levels up to HARD_RETRY_MAX, soft decodes as SOFT_LEVEL says
(R373, R389). -/
def State.ladderHas (s : State) (n : Nat) : Bool :=
  if n = 0 then true
  else if n = 1 then decide (1 ≤ s.fld Reg.fmcLdpc 3 0)
  else decide (n - 1 ≤ s.fld Reg.fmcLdpc 7 6)

/-- How a read ends on the ladder as it is configured: a codeword that needs a step beyond it is uncorrectable (R373). -/
def State.ladder (s : State) (r : Decode) : Decode :=
  match r with
  | .step n _ => if s.ladderHas n then r else .fail
  | .fail => .fail

/-- FLASH_READ_DECODE: the read of slice `slice` of the codeword at a location, which its die does, ends; the slots it
holds are returned, or reported uncorrectable, as a slot whose epoch has no key is (R253, R372–R375, R388, R555). -/
def execFlashReadDecode (loc slice : Nat) (r : Decode) (s : State) : Out :=
  .next (
    let s' := s.mediaStep
    if s.bit Reg.fmcCtl 0 = false || s'.onDie (s'.dieOf (locSet loc) slice) (.read (loc / 8) slice) = false then s
    else match s'.ladder r with
    | .fail => (s'.cwFail loc slice).settle
    | .step n corrected =>
      let t := s'.cwGood loc n corrected
      let t := (t.cwTiles loc).foldl (fun (u : State) x =>
        if u.keyGone x then (u.flag Reg.secEvent 3).sliceBad x slice else u.gotSlice (x * 8 + slice)) t
      ((t.cwStrays loc slice).foldl (fun (u : State) x => u.sliceBad x slice) t).settle)

/-- FLASH_PATROL: with PATROL_EN 1 the patrol reads a codeword of a FULL stripe block on a die that has nothing else to
do, and applies the refresh test (R374, R375, R388). -/
def execFlashPatrol (loc slice : Nat) (r : Decode) (s : State) : Out :=
  .next (
    let s' := s.mediaStep
    if s.bit Reg.fmcCtl 0 = false || s.bit Reg.fmcCtl 2 = false || s.elg.sage.isSome
      || (s.sb (locSet loc) (s.locBlock loc)).state != .full || s'.dieIdle (s'.dieOf (locSet loc) slice) = false then s
    else
      let t := { s' with fmc := { s'.fmc with patrol := loc } }
      match s'.ladder r with
      | .fail => (t.cwFail loc slice).settle
      | .step n corrected => (t.cwGood loc n corrected).settle)

/-! ### Suspension, programs, erases (R376–R380, R383) -/

/-- The stripe set of a die: die c × 16 + p lies in set p × G + c / 8 (R366, R369). -/
def State.setOfDie (s : State) (die : Nat) : Nat :=
  die % 16 * (s.fld Reg.fmcGeom0 9 0 / 8) + die / 16 / 8

/-- SUSPEND_WAIT_EXPIRY: a line read or promotion read has waited SUSPEND_US for a die; its program or erase is suspended
for it, at most 4 times; the read is done, and then the operation resumes (R376). -/
def execSuspendWaitExpiry (die : Nat) (s : State) : Out :=
  .next (
    let t := s.mediaStep
    if s.bit Reg.fmcCtl 4 && decide (s.fmc.suspends.getD die 0 < 4) && s.elg.sage.isNone then
      match t.suspendFor die with
      | some u => (u.count (Reg.fmcCount + 0x18)).emit (.die die 3)
      | none => s
    else s)

/-- The operation on a set has ended: its dies may be suspended afresh. -/
def State.suspendsClear (s : State) (set : Nat) : State :=
  { s with fmc := { s.fmc with suspends := s.fmc.suspends.filter fun e => s.setOfDie e.1 != set } }

/-- PROGRAM_FLUSH_TIMER: FLUSH_US after its first tile a partly filled unit is programmed, its empty slots with
VALID 0 (R378). -/
def execProgramFlushTimer (set : Nat) (s : State) : Out :=
  .next ((s.fmc.units.filter fun e => e.1 / 65536 == set && !e.2.flying && !e.2.tiles.isEmpty).foldl
    (fun t e => t.flyUnit set (e.1 % 65536)) s)

/-- The locations and tiles of a unit whose moves still wait for its program (R249, R378). -/
def State.unitMoves (s : State) (set : Nat) (u : Unit) : List Nat :=
  let sb := s.sb set u.block
  (u.tiles.zipIdx.filter fun p => match s.moves.get? p.1 with
    | some m => m.stage == .program && m.dest == s.locOf set u.block (sb.next + p.2) s.bitsPerCell
    | none => false).map Prod.fst

/-- Takes a unit's pages as programmed; a block whose last page is programmed is FULL, and a fresh one is opened (R377,
R378). -/
def State.unitUsed (s : State) (set : Nat) (u : Unit) (close : Bool) : State :=
  let sb := s.sb set u.block
  let next := sb.next + s.unitTiles
  let full := close || decide (s.sbTiles ≤ next)
  let t := s.setSb set u.block { sb with next := next, state := if full then .full else sb.state }
  let t := { t with fmc := { t.fmc with
      units := t.fmc.units.erase (sbKey set u.block)
      opens := if full then t.fmc.opens.filter fun e => !(e.1 / 2 == set && e.2 == u.block) else t.fmc.opens } }
  if full then t.openFresh set (b2n u.reloc) else t

/-- A unit that has verified: its moves may switch (R378). -/
def State.unitOk (s : State) (set : Nat) (u : Unit) : State :=
  let l := s.unitMoves set u
  let t := s.unitUsed set u false
  let t := l.foldl (fun (v : State) x => v.modMove x fun m => { m with stage := .verified }) t
  (t.emptyCheck set u.block).retryUnits

/-- A unit whose program failed: its tiles go into the next unit of another set, and the block is closed FULL,
queued for refresh and remapped once empty (R379). -/
def State.unitFail (s : State) (set : Nat) (u : Unit) : State :=
  let l := s.unitMoves set u
  let t := ((s.flag Reg.fmcEvent 1).count (Reg.fmcCount + 0xC)).unitUsed set u true
  let t := t.setSb set u.block { t.sb set u.block with remap := true }
  let t := l.foldl (fun (v : State) x => v.modMove x fun m => { m with stage := .moving }) t
  let t := { t with fmc := { t.fmc with turn := (set + 1) % max 1 t.sets } }
  let t := l.foldl (fun (v : State) x => match v.moves.get? x with
    | some m => v.moveProgram x { m with kind := if m.kind = .evict then .evict else .relocate }
    | none => v) t
  (t.refresh set u.block).emptyCheck set u.block

/-- PROGRAM_UNIT_DONE: a unit that its set's dies program has programmed and verified, or failed on some die (R378, R379,
R388). -/
def execProgramUnitDone (set block : Nat) (ok : Bool) (s : State) : Out :=
  .next (match s.fmc.units.get? (sbKey set block) with
    | some u =>
      if u.flying = false || s.mediaStep.onSet set (.prog (sbKey set block)) = false then s
      else ((if ok then s.unitOk set u else s.unitFail set u).suspendsClear set).gcCheck set |>.settle
    | none => s)

/-- Any block reaching 90 % of the rated cycles sets WEAR_WARN (R383). -/
def State.wearWarn (s : State) (set block erases : Nat) : State :=
  if 0 < s.fmc.ratedCycles ∧ s.fmc.ratedCycles * 9 ≤ erases * 10 ∧ (erases - 1) * 10 < s.fmc.ratedCycles * 9 then
    s.flagRecord Reg.fmcEvent 5 0x0B04 set block
  else s

/-- FLASH_ERASE_DONE: the erase of a stripe block, which its set's dies do, ends, FREE or READY; `spare` says whether a
spare is left for a bad physical block, without which the block is RETIRED; after a remap or a retirement the block table
is copied to a system block of set 0. The FMC erases nothing while a save runs (R368, R377, R379, R383, R386, R388). -/
def execFlashEraseDone (set block : Nat) (ok spare : Bool) (s : State) : Out :=
  let b := s.sb set block
  .next (if b.state != .erasing || s.elg.sage.isSome || s.mediaStep.onSet set (.erase (sbKey set block)) = false then s
    else
      let bad := b.remap || !ok
      let t := if ok then s else s.count (Reg.fmcCount + 0x10)
      let t := if bad && spare then { t with fmc := { t.fmc with remaps := t.fmc.remaps.upd set 0 (· + 1) } } else t
      let t := t.setSb set block { b with
        state := if bad && !spare then .retired else if b.pslc then .ready else .free
        erases := b.erases + 1, valid := 0, next := 0, refresh := false, remap := false }
      let t := { t with fmc := { t.fmc with chain := t.fmc.chain.erase (sbKey set block) } }
      let t := if bad && !spare then t.flag Reg.fmcEvent 2 else t
      let t := if bad then t.emit (.die 0 4) else t
      let t := ((t.suspendsClear set).wearWarn set block (b.erases + 1)).saveShort
      (((t.gcCheck set).wearCheck set).mediaPoll.retryUnits).noteFull.settle)

/-! ### The save region and the geometry (R365, R366, R384, R397) -/

/-- Stripe blocks of a set that belong to the save region. -/
def State.regionBlocks (s : State) (set : Nat) : Nat := ((s.sbList set).filter fun e => e.2.pslc).length

/-- SAVE_REGION_RESIZE: the FMC grows the save region of a set by a FREE block, or shrinks it by a READY one,
toward 2 × NEED (R384, R385). -/
def execSaveRegionResize (set : Nat) (s : State) : Out :=
  .next (if decide (s.sets ≤ set) || s.elg.sage.isSome then s
    else
      let target := 2 * s.saveNeed
      let t := if s.regionBlocks set < target then
          (match s.freeBlock set with
            | some b => s.setSb set b { s.sb set b with state := .ready, pslc := true, valid := 0, next := 0 }
            | none => s)
        else if target < s.regionBlocks set then
          (match (s.sbList set).find? fun e => e.2.state == .ready with
            | some e => (s.setSb set (e.1 % 65536) { e.2 with pslc := false }).eraseSb set (e.1 % 65536)
            | none => s)
        else s
      (t.saveShort.gcCheck set).noteFull)

/-- A twin that starts up in a state that it cannot serve from: phase HALTED, error class FATAL (R317, R365,
R509, R661). -/
def State.haltStart (s : State) (block : Nat) : State := (s.err1 block .fatal).setPhase 11

/-- Stripe blocks of a set's data area: those not RETIRED and not in the save region (R382). -/
def State.dataBlocks (s : State) (set : Nat) : Nat :=
  s.sbPerSet - ((s.sbList set).filter fun e => e.2.pslc || e.2.state == .retired).length

/-- Whether the data area, less GC_HIGH stripe blocks per set, holds a number of granules (R39, R382). -/
def State.holdsSpace (s : State) (granules : Nat) : Bool :=
  decide (granules * 262144 ≤ ((List.range s.sets).map fun n => (s.dataBlocks n - s.fld Reg.fmcGc 15 8) * s.sbTiles).sum)

/-- Firmware formats persistent space once the geometry is known; it refuses where the exposed capacity would exceed what
the data area holds, and then no capacity is exposed (R382; that nothing is exposed is DEDUCED, log 145). -/
def State.format (s : State) : State :=
  if s.fmc.formatted then s
  else if s.holdsSpace s.exposed then { s with fmc := { s.fmc with formatted := true } }
  else { s with exposed := 0 }

/-- PARITY in units of 64 bytes: the largest of 4 to 8 for which a page of `cw` codewords with `spare` bytes beside its
data holds them whole; 0 for none (R367). -/
def parity64 (cw spare : Nat) : Nat :=
  (([8, 7, 6, 5, 4].find? fun p => decide (cw * (4416 + 64 * p) ≤ cw * 4096 + spare))).getD 0

/-- FLASH_GEOMETRY_DISCOVERY: firmware reads the parameter pages, numbers the dies, writes the geometry, chooses PARITY and
trains the channels; `spare` is the spare bytes of a page, and `valid` says that the dies are alike, within 256 GiB, and
train. A population that breaks a rule halts the twin (R365–R367, R397). -/
def execFlashGeometryDiscovery (channels dies planes bits cw lblocks pages spare cycles : Nat) (valid : Bool) (s : State) : Out :=
  let ok := valid && (channels == 8 || channels == 16 || channels == 32) && decide (1 ≤ dies) && decide (dies ≤ 16)
    && decide (1 ≤ planes) && decide (planes ≤ 4) && (bits == 3 || bits == 4)
  let g0 := channels % 2 ^ 10 + dies % 2 ^ 5 * 2 ^ 10 + planes % 8 * 2 ^ 15 + b2n (bits == 4) * 2 ^ 18 + cw % 16 * 2 ^ 20
  let s1 := if s.bit Reg.fmcLock 0 then s
    else ((s.setReg Reg.fmcGeom0 (w32 g0)).setReg Reg.fmcGeom1 (w32 (lblocks % 2 ^ 16 * 2 ^ 16 + pages % 2 ^ 16))).setFld
      Reg.fmcLdpc 19 16 (if parity64 cw spare = 0 then s.fld Reg.fmcLdpc 19 16 else parity64 cw spare)
  let s2 := (List.range 32).foldl (fun (t : State) c => t.setReg (Reg.fmcChStatus + 4 * c)
    (w32 (if c < channels then dies % 32 * 8 + (if ok then 2 else 3) else 0))) s1
  let s3 := { s2 with fmc := { s2.fmc with ratedCycles := cycles } }
  .next (if ok then s3.format else (s3.flagRecord Reg.fmcEvent 6 0x0B01 0 0).haltStart 11)

end Sys2Proof.Machine
end

