-- ==== Sys2Proof/Machine/Dmc.lean ====
section
/-! DEFINITION. Chapter 8: channel training, self-refresh, refresh, temperature, alerts, the chive list and
scrub passes of the DRAM tier (R315–R363). -/

namespace Sys2Proof.Machine

/-- The channels. -/
def channels16 : List Nat := List.range 16

/-- Whether a channel serves requests. -/
def State.chActive (s : State) (n : Nat) : Bool := (s.chan n).state == .active

/-! ### Alerts, ageing, refresh (R323–R337) -/

/-- RETRAIN_DUE with its event record; the window's bad reads start again (R338). -/
def State.retrainNow (s : State) (n : Nat) : State :=
  (s.flagRecord (chOff Reg.dmcChEvent n) 4 0x0A03 n 0).modChan n fun c => { c with badReads := 0 }

/-- DMC_ALERT: the subchannel is precharged and its commands are sent again; the eighth alert within 1 ms sets
RETRAIN_DUE (R323). -/
def execDmcAlert (ch : Fin 16) (subB within1ms : Bool) (s : State) : Out :=
  .next (
    let t := ((s.flag (chOff Reg.dmcChEvent ch) 3).count (chOff Reg.dmcChCount ch + 0xC)).err1 10 .retried
    let t := (t.modChan ch fun c => { c with rows := [], hits := [] }).emit (.dramCmd ch 0 (b2n subB))
    if within1ms then t.retrainNow ch else t)

/-- RETRAIN_DUE: PAR_THRESH bad reads have occurred within WINDOW_S (R338). -/
def execRetrainDue (ch : Fin 16) (s : State) : Out := .next (s.retrainNow ch)

/-- MR4_POLL: a rank's refresh rate follows its report; one that newly reports a temperature above its range
sets THERMAL (R332). -/
def execMr4Poll (ch : Fin 16) (rank : Nat) (level : Fin 3) (s : State) : Out :=
  .next (
    let old := (s.chan ch).temps.getD rank 0
    let t := s.modChan ch fun c => { c with temps := if level.val = 0 then c.temps.erase rank else c.temps.set rank level }
    if level.val = 2 ∧ old ≠ 2 then t.flagRecord (chOff Reg.dmcChEvent ch) 8 0x0A02 ch 0 else t)

/-- OSC_TRACKING: oscillator tracking runs on a rank and touches no data (R337). -/
def execOscTracking (ch : Fin 16) (rank : Nat) (s : State) : Out :=
  .next (if s.chActive ch then s.emit (.dramCmd ch 3 rank) else s)

/-- The postponement limit: four refreshes (JESD79-5, PRESUMED, log 25). -/
def refreshLimit : Nat := 4

/-- REFRESH_DUE: a refresh is postponed while urgent requests are queued on the rank, up to the limit, and is
otherwise issued with every postponed one (R331). -/
def execRefreshDue (ch : Fin 16) (rank : Nat) (s : State) : Out :=
  .next (
    let c := s.chan ch
    let n := c.postponed.getD rank 0
    if c.state != .active && c.state != .retrain then s
    else if s.rankUrgent (s.queued ch c) rank && decide (n < refreshLimit) then
      s.modChan ch fun x => { x with postponed := x.postponed.set rank (n + 1) }
    else (s.modChan ch fun x => { x with postponed := x.postponed.erase rank }).refreshes ch rank (n + 1))

/-- RFM_DUE: a bank's activation count reaches the device's threshold, and a refresh-management command is
issued (R333). -/
def execRfmDue (ch : Fin 16) (bank : Nat) (s : State) : Out :=
  .next ((s.modChan ch fun c => { c with acts := c.acts.erase bank }).emit (.dramCmd ch 2 bank))

/-- BANK_IDLE_EXPIRY: an open row that has been idle is closed (R330). -/
def execBankIdleExpiry (ch : Fin 16) (bank : Nat) (s : State) : Out :=
  .next (s.modChan ch fun c => { c with rows := c.rows.erase bank, hits := c.hits.erase bank })

/-- REQUEST_AGE_TARGET: a queued request has reached its target, and so urgency 7; `late` says that it has reached twice
its target, which makes it LATE when it is served (R325, R326). -/
def execRequestAgeTarget (ch : Fin 16) (line : Nat) (late : Bool) (s : State) : Out :=
  .next (
    if (s.queued ch (s.chan ch)).queue.any fun r => r.line == line then
      (s.modChan ch fun c => { s.queued ch c with
        urgent := insertNew c.urgent line, late := if late then insertNew c.late line else c.late }).chanPoll
    else s)

/-! ### Self-refresh (R334) -/

/-- Places every channel in self-refresh, after every queued request and every postponed refresh has been issued; one
with nothing queued enters at once (R334). -/
def State.selfRefresh (s : State) : State :=
  (channels16.filter fun n => s.chActive n).foldl (fun (t : State) n =>
    (t.modChan n fun c => { t.queued n c with sleep := true }).sleepNow n) s

/-- Takes every channel out of self-refresh, with one oscillator tracking pass for each rank (R334). -/
def State.selfRefreshEnd (s : State) : State :=
  channels16.foldl (fun (t : State) n =>
    match (t.chan n).state with
    | .selfRefresh =>
      ((List.range t.rankCount).foldl (fun (v : State) r => v.emit (.dramCmd n 3 r)) t).modChan n fun c =>
        { c with state := .active }
    | _ => if (t.chan n).sleep then t.modChan n fun c => { c with sleep := false } else t) s

/-! ### Training (R316, R317, R335–R338, R355) -/

/-- Whether the DIMMs of a channel are those of the health record (R335). -/
def State.sameDimms (s : State) (n : Nat) : Bool :=
  s.health.serials.get? n == some (Config.dimmSerial n s.health.starts)

/-- A channel whose DIMMs have changed starts with an empty chive list, and its record names the new ones (R335, R343). -/
def State.noteDimms (s : State) (n : Nat) : State :=
  if s.sameDimms n then s else
  s.modHealth fun h => { h with
    serials := h.serials.set n (Config.dimmSerial n h.starts), chives := h.chives.erase n, dead := h.dead.erase n }

/-- Starts training of one channel; stored results of other DIMMs, or none, lead to a full training (R335). -/
def State.trainOne (s : State) (mode n : Nat) : State :=
  let full := mode = 0 ∨ mode = 1 ∧ (s.sameDimms n = false ∨ s.health.trained.contains n = false)
  (s.noteDimms n).modChan n fun c =>
    { c with state := if mode = 2 then .retrain else .training
             mode := if full then 0 else mode, attempts := 0
             kept := c.state == .selfRefresh || mode == 2 }

/-- Starts training of the channels of a mask: 0 full, 1 stored results, 2 the training span only. A start
while any of them trains, or with another mode, is ignored (R355). -/
def State.trainStart (s : State) (mode mask : Nat) : State :=
  let l := channels16.filter mask.testBit
  if 3 ≤ mode ∨ (l.any fun n => (s.chan n).state == .training || (s.chan n).state == .retrain) then s else
  let t := if s.phase = 2 ∧ mode ≠ 2 then s.setPhase 3 else s
  l.foldl (fun (u : State) n => u.trainOne mode n) t

/-- The DRAM of this twin in bytes, as DMC_CONFIG reports the population (R316, R350). -/
def State.dramBytes (s : State) : Nat :=
  s.fld Reg.dmcConfig 23 16 * 2 ^ 34 * s.fld Reg.dmcConfig 9 8 * 16

/-- The number of tile frames that fit beside a frame table of whole GiBs (R243). -/
def framesFor (room : Nat) : Nat :=
  maxOf ((List.range 10).map fun t => min (t * 2 ^ 27) ((room - t * 2 ^ 30) / 4096))

/-- A channel's training failed for good: TRAIN_FAIL and its record (R317, R338). -/
def State.trainFail (s : State) (n : Nat) : State :=
  (s.modChan n fun c => { c with state := .failed }).flagRecord (chOff Reg.dmcChEvent n) 9 0x0A01 n 0

/-- The population that training finds on a channel, in the bits of DMC_CONFIG; 0 where it carries no DIMM (R316, R350). -/
def State.found (s : State) (n : Nat) : Nat := Config.population n s.health.starts % 2 ^ 24

/-- The first channel that breaks a rule of R316: it carries no DIMM, or other ones than channel 0. -/
def State.oddChannel (s : State) : Option Nat :=
  channels16.find? fun n => bitsOf (s.found n) 23 16 == 0 || bitsOf (s.found n) 9 8 == 0 || s.found n != s.found 0

/-- All channels have trained: the population is reported, and the number of tile frames follows; a population that breaks
a rule, or lies beyond 4 TiB, halts the twin (R243, R316, R317). -/
def State.trained (s : State) : State :=
  if channels16.all s.chActive = false ∨ s.framesTotal ≠ 0 then s else
  let t := s.setReg Reg.dmcConfig (w32 (s.found 0))
  match s.oddChannel with
  | some n => (t.trainFail n).haltStart 10
  | none =>
    if 2 ^ 42 < t.dramBytes then (t.trainFail 0).haltStart 10
    else (t.setReg Reg.plcTotals (w32 (framesFor (t.dramBytes - t.exposed * 2 ^ 21 - 8 * gib)))).noteFrames

/-- Firmware reloads a channel's chive list from the health record, before its first access; nothing is copied (R342). -/
def State.chiveReload (s : State) (n : Nat) : State :=
  (s.health.chives.getD n []).foldl (fun (t : State) e =>
    (t.setReg (chOff Reg.dmcChiveLo n + 8 * e.1) (w32 e.2)).setBit (chOff Reg.dmcChiveHi n + 8 * e.1) 31 true) s

/-- DMC_TRAINING_DONE: a channel's training ends. Stored results that do not verify lead to a full training at a
cold start, and to the training span alone where the contents are kept; a full training has three attempts; a
failed retrain takes the twin out of service (R317, R335, R336, R338, R342). -/
def execDmcTrainingDone (ch : Fin 16) (ok : Bool) (s : State) : Out :=
  .next (
    let n := ch.val
    let c := s.chan n
    match c.state with
    | .training =>
      if ok then
        ((((s.chiveReload n).modChan n fun x => { x with state := .active }).modHealth fun h =>
            { h with trained := insertNew h.trained n }).trained).settle
      else if c.mode = 1 then
        s.modChan n fun x => { x with mode := if x.kept then 2 else 0, state := if x.kept then .retrain else .training }
      else if c.attempts < 2 then s.modChan n fun x => { x with attempts := x.attempts + 1 }
      else (s.trainFail n).haltStart 10
    | .retrain =>
      if ok then (((s.chiveReload n).modChan n fun x => { x with state := .active }).trained).settle
      else ((s.trainFail n).err1 10 .degraded).leaveService
    | _ => s)

/-! ### The chive list (R339–R343) -/

/-- Enables a chive entry for the sector in its LO word: VALID is set, and the sector is copied to the spare. A
write of VALID while an entry is being enabled is ignored (R340). -/
def State.chiveEnable (s : State) (n k : Nat) : State :=
  if (s.chan n).copying.isSome then s else
  ((s.setBit (chOff Reg.dmcChiveHi n + 8 * k) 31 true).modChan n fun c => { c with copying := some k }).emit (.dramCmd n 5 k)

/-- Disables a chive entry: later accesses go to the original sector (R340). -/
def State.chiveDisable (s : State) (n k : Nat) : State :=
  if (s.chan n).copying.isSome then s else
  (s.setBit (chOff Reg.dmcChiveHi n + 8 * k) 31 false).modHealth fun h =>
    { h with chives := h.chives.upd n [] fun t => t.erase k }

/-- Whether requests to the sector that were queued before the copy began have still to be issued (R340). -/
def State.copyWaits (s : State) (n : Nat) : Bool :=
  let c := s.queued n (s.chan n)
  match c.queue.find? fun r => decide (2 ^ 40 ≤ r.line) with
  | some r => !(s.free [] c.queue).contains r
  | none => false

/-- CHIVE_COPY_DONE: the requests queued before it have gone to the old location; the entry is enabled, and firmware's
health record follows (R340, R342). -/
def execChiveCopyDone (ch : Fin 16) (s : State) : Out :=
  .next (match (s.chan ch).copying with
    | some k =>
      if s.copyWaits ch then s else
      let sec := (s.reg (chOff Reg.dmcChiveLo ch + 8 * k)).toNat
      ((s.modChan ch fun c => { c with copying := none }).modHealth fun h =>
        { h with chives := h.chives.upd ch [] fun t => t.set k sec }).settle
    | none => s)

/-- The lowest chive entry of a channel that is free and whose spare has not failed (R341, R343). -/
def State.chiveFree (s : State) (n : Nat) : Option Nat :=
  (List.range 32).find? fun k => !s.bit (chOff Reg.dmcChiveHi n + 8 * k) 31 && !(s.health.dead.getD n []).contains k

/-- Retires the frame that holds a failing sector, now or when it is free (R343). -/
def State.retireLater (s : State) (frame : Nat) : State :=
  match s.frames.get? frame with
  | none => s.retireFrame frame
  | some _ => { s with frames := s.frames.modify frame fun f => { f with bad := true } }

/-- CHIVE_CANDIDATE: a sector has reached CHIVE_THRESH failures. With CHIVE_AUTO the lowest free entry is
enabled for it; without a free one CHIVE_FULL is set, and firmware retires its frame. A spare that fails gives
its entry up once the original sector's frame is retired (R341, R343). -/
def execChiveCandidate (ch : Fin 16) (sector : Nat) (s : State) : Out :=
  .next (
    let n := ch.val
    let fails := (((s.chan n).fails.find? fun e => e.1 == sector).map Prod.snd).getD 0
    if fails < s.fld Reg.dmcRetrain 29 26 ∨ fails = 0 then s else
    let t := s.flag (chOff Reg.dmcChEvent n) 5
    match t.chiveAt n sector with
    | some k =>
      let u := t.retireLater (sector / 4)
      (u.chiveDisable n k).modHealth fun h => { h with dead := h.dead.upd n [] fun l => insertNew l k }
    | none =>
      if t.bit Reg.dmcCtl 2 = false then t else
      match t.chiveFree n with
      | some k => (t.setReg (chOff Reg.dmcChiveLo n + 8 * k) (w32 sector)).chiveEnable n k
      | none => (t.flagRecord (chOff Reg.dmcChEvent n) 6 0x0A04 n 0).retireLater (sector / 4))

/-! ### Scrub passes (R344–R346) -/

/-- Starts a pass over the addresses and channels that the registers name; ignored while one runs. GO clears
the summary (R344, R357). -/
def State.scrubBegin (s : State) : State :=
  if s.bit Reg.dmcScrubCtl 31 then s else
  let t := [Reg.dmcScrubSectorsLo, Reg.dmcScrubSectorsHi, Reg.dmcScrubCounts, Reg.dmcScrubCounts + 4,
    Reg.dmcScrubCounts + 8, Reg.dmcScrubFirstLo, Reg.dmcScrubFirstHi, Reg.dmcScrubMs].foldl
      (fun (u : State) r => u.setReg r 0) s
  let t := t.chans.keys.foldl (fun (u : State) n => u.modChan n fun c => { c with scrubbed := 0 }) t
  (t.setBit Reg.dmcScrubCtl 31 true).setBit Reg.dmcScrubCtl 30 true

/-- The summary of a pass, as SCRUB_START returns it (R346, R511). -/
def State.scrubSummary (s : State) : List Nat :=
  [(s.reg Reg.dmcScrubSectorsLo).toNat, (s.reg Reg.dmcScrubSectorsHi).toNat, (s.reg Reg.dmcScrubCounts).toNat,
   (s.reg (Reg.dmcScrubCounts + 4)).toNat, (s.reg (Reg.dmcScrubCounts + 8)).toNat,
   (s.reg Reg.dmcScrubFirstLo).toNat, (s.reg Reg.dmcScrubFirstHi).toNat, (s.reg Reg.dmcScrubMs).toNat]

/-- Ends a pass: flags, its event record, and the command that started it (R346). -/
def State.scrubOver (s : State) (stopped : Bool) : State :=
  let t := (s.setBit Reg.dmcScrubCtl 31 false).flag Reg.dmcEvent 16
  let t := if s.reg Reg.dmcScrubCounts ≠ 0 then t.flag Reg.dmcEvent 17 else t
  let t := t.recordF 0x0A06 (t.fld Reg.dmcScrubCtl 15 0) (t.shows Reg.dmcEvent).toNat (t.reg64 Reg.dmcScrubFirstLo)
    { stopped := stopped }
  t.jwEnd jwScrub { status := if stopped then jrAborted else jrSuccess, body := t.scrubSummary }

/-- Stops a pass by clearing GO (R346). -/
def State.scrubHalt (s : State) : State :=
  let t := s.setBit Reg.dmcScrubCtl 30 false
  if s.bit Reg.dmcScrubCtl 31 then t.scrubOver true else t

/-- The tile of a failing sector that counts as an error of a tile frame: the frame table names it, its map
entry names the frame, and it is not locked (R345). -/
def State.scrubTile (s : State) (da : Nat) : Option Nat :=
  match s.frames.get? (da / 4096) with
  | some f => some f.tile
  | none => none

/-- Whether a failing sector is a race: its tile no longer lives in the frame, or is locked (R345). -/
def State.scrubRace (s : State) (da : Nat) : Bool :=
  match s.scrubTile da with
  | some x => (s.tile x).lock || !inDram (s.tile x).home || (s.tile x).loc != da / 4096
  | none => false

/-- The entries of a frame-table sector as firmware rebuilds them, from the map entries that name the frames and the moves that
hold them (R655). -/
def State.rebuildFrames (s : State) (fs : List Nat) : State :=
  { s with frames := s.frames.filter fun e =>
      !fs.contains e.1 || (s.tile e.2.tile).loc == e.1 && inDram (s.tile e.2.tile).home || s.moves.vals.any fun m => m.frame == some e.1 }

/-- A sector of the housekeeping area is recomputed according to what it holds. The spec does not say where in that area each of
its contents lies, so the layout is a free value (R655). The window's slots are fetched from the peer, or taken as empty. -/
def State.houseBad (s : State) (sec : Nat) : State :=
  let v := Config.firmwareLayout 0x243 [sec]
  let i := v / 6
  match v % 6 with
  | 0 =>
    let first := i % 2 ^ 26 * 4
    if s.paired then s.post (.control [.fetchSlots (first / 65536) (first % 65536)])
    else { s with twn := { s.twn with window := s.twn.window.filter fun e => decide (e.1 < first) || decide (first + 4 ≤ e.1) } }
  | 1 => { s with twn := { s.twn with fullResync := true } }
  | 2 => (s.rdx.qps.filter fun e => e.1 % 2 ^ 16 == i % 2 ^ 16).foldl (fun (t : State) e =>
      (t.qpEnter e.1 .error).err1 14 .contained) s
  | _ => s

/-- An uncorrectable sector outside the tile frames, by the area that holds it: the tile map, the frame table, or the
housekeeping area (R243, R655). -/
def State.metaBad (s : State) (da : Nat) : State :=
  let map := s.exposed * 2 ^ 21
  if da < map then ((List.range 8).map (da / 64 * 8 + ·)).foldl State.checkFail s
  else if da + 8 * 2 ^ 30 < s.frameBase * 4096 then
    s.rebuildFrames ((List.range 8).map fun i => s.frameBase + (da - map) / 64 * 8 + i)
  else s.houseBad (da / 64)

/-- One error of a pass: the DMC counts the bad read, and a tile-frame error starts the repair; firmware recomputes any other
sector (R345, R655). -/
def State.scrubFail (s : State) (da : Nat) (parity : Bool) : State :=
  let frame := da / 4096
  let n := chOfLine frame (da / 256 % 16)
  let t := s.dmcBad n (caOf frame (da / 64 % 4)) parity
  match s.scrubTile da with
  | some x => t.badRead x [x * 64 + da / 64 % 64] (decide (32 ≤ t.chiveUsed n))
  | none => if da < t.frameBase * 4096 then t.metaBad da else t

/-- SCRUB_PASS_END: a pass has read `sectors`, of which `poison` carried the marking, and those of `bad` (DA,
and whether parity failed) failed twice (R344–R346). -/
def execScrubPassEnd (sectors poison ms : Nat) (bad : List (Nat × Bool)) (s : State) : Out :=
  .next (
    if s.bit Reg.dmcScrubCtl 31 = false then s else
    let errs := bad.filter fun e => !s.scrubRace e.1
    let t := (s.setReg64 Reg.dmcScrubSectorsLo sectors).setReg Reg.dmcScrubCounts (w32 (min errs.length (2 ^ 32 - 1)))
    let t := (t.setReg (Reg.dmcScrubCounts + 4) (w32 (min poison (2 ^ 32 - 1)))).setReg (Reg.dmcScrubCounts + 8)
      (w32 (min (bad.length - errs.length) (2 ^ 32 - 1)))
    let t := (t.setReg64 Reg.dmcScrubFirstLo ((errs.map Prod.fst).headD 0)).setReg Reg.dmcScrubMs (w32 (ms % 2 ^ 32))
    ((errs.foldl (fun (u : State) e => u.scrubFail e.1 e.2) t).scrubOver false).settle)

end Sys2Proof.Machine
end

