-- ==== Sys2Proof/Machine/Rdma.lean ====
section
/-! DEFINITION. Queue pairs: the course of a connection, keying, requests in PSN order, request IDs, keys,
leases, and the device as requester (chapter 4). -/

namespace Sys2Proof.Machine

/-! ### States of a QP (R150–R155) -/

/-- Whether a QP is in a state. -/
def qpIs (st : QpState) (q : Qp) : Bool := q.state == st

/-- An error takes a QP out of service (R155, R661 class CONTAINED). -/
def State.qpError (s : State) (qpn : Nat) : State := (s.qpEnter qpn .error).err1 6 .contained

/-- Keying of a QP fails: ERROR, KEYING_FAIL and one event record (R146). -/
def State.keyFail (s : State) (qpn : Nat) : State :=
  ((s.qpEnter qpn .error).err1 6 .contained).flagRecord Reg.rdxEvent 1 0x0601 (qpIdx qpn) 0

/-- A packet's tag fails (R150): nothing of it is used, the QP goes to ERROR, DREQ is sent, AUTH_FAIL is set
and counted and one event record written. -/
def State.authFail (s : State) (qpn : Nat) : State :=
  let t := ((s.qpError qpn).emit (.cm 3 qpn [])).count (Reg.rdxCount + 4)
  t.flagRecord Reg.rdxEvent 0 0x0602 (qpIdx qpn) 0

/-- A message of a type that the QP's state or service does not permit, or an opcode outside R156, moves the
QP to ERROR (R143, R156). -/
def State.forbidden (s : State) (qpn : Nat) : State := s.qpError qpn

/-- The transmit rate at which a QP starts: the port line rate, in Mb/s (R125, R132). -/
def State.lineRate (s : State) : Nat := 200000 * 2 ^ s.fld Reg.netPortMode 1 0

/-! ### Requests in PSN order (R156–R165) -/

/-- How many PSNs a message of some length takes. -/
def psnSpan (len pmtu : Nat) : Nat := max 1 (ceilDiv len (max 1 pmtu))

/-- Where a request's PSN stands against the one expected: 0 expected, 1 a duplicate, 2 beyond it. -/
def psnClass (expected psn : Nat) : Nat :=
  if psn % 2 ^ 24 = expected % 2 ^ 24 then 0
  else if (expected + 2 ^ 24 - psn % 2 ^ 24) % 2 ^ 24 ≤ 2 ^ 23 then 1 else 2

/-- Answers a new request with an RNR NAK, which carries the timer code of RDX_RNR_CFG (R169, R171, R185, R258, R412). -/
def State.sendRnr (s : State) (qpn psn : Nat) : State :=
  (s.count (Reg.rdxCount + 4 * 5)).addResp qpn psn (.rnr (s.fld Reg.rdxRnr 4 0)) true

/-- TRACK_FULL is set when the RDMA tracker reaches its limit (R187). -/
def State.trackNote (s : State) : State := if s.rdmaFull then s.flag Reg.rdxEvent 4 else s

/-- Accepts a PSN: the next one expected follows the message. A request ID that a prefix has set is for this request, of
whatever kind (R163). -/
def State.psnTake (s : State) (qpn psn len : Nat) : State :=
  s.modQp qpn fun q => { q with psnRx := (psn + psnSpan len q.pmtu) % 2 ^ 24, nextReqId := 0 }

/-- NAKs a request beyond the expected PSN, or a new one on a DRAINING QP, after the responses due before it (R154, R161);
while one such NAK waits no other is sent. -/
def State.sendNak (s : State) (q : Qp) (qpn psn code : Nat) : State :=
  if q.resps.any fun e => e.resp == .nak code then s else s.addResp qpn psn (.nak code) true

/-- Refuses a request: NAK remote access error in its place in PSN order, and then ERROR; the fault registers hold the
appliance address (R49, R73, R161). -/
def State.rdmaRefuse (s : State) (q : Qp) (qpn psn addr : Nat) (e : XStep) : State :=
  (s.refuse 2 q.host e addr).addResp qpn psn .nakAccess true

/-- Counts a request that reached a region over a QP of another class (R130). -/
def State.classNote (s : State) (q : Qp) (region : Nat) : State :=
  if (s.region region).qos = q.qos then s else s.count (Reg.rdxCount + 4 * 3)

/-- Translates an RDMA access by its key (R48, R53, R198). `verb` is its bit of VERBS. -/
def State.rdmaWhere (s : State) (q : Qp) (rkey verb va len : Nat) (need : Need) :
    Except XStep (Nat × Nat × List (Nat × Nat)) :=
  match s.keyOf q.host rkey verb va len with
  | none => .error .path
  | some (region, off) => match s.xlate q.host region off len need with
    | .error e => .error e
    | .ok segs =>
      if (match need with | .read => false | _ => true) && s.cbHit region off len then .error .right
      else .ok (region, off, segs)

/-- Whether an RDMA write fails only because of a control block (R198). -/
def State.rdmaCb (s : State) (q : Qp) (rkey verb va len : Nat) (need : Need) : Bool :=
  match s.keyOf q.host rkey verb va len with
  | none => false
  | some (region, off) => (match s.xlate q.host region off len need with | .ok _ => true | _ => false) && s.cbHit region off len

/-- What a request of a QP is. -/
structure RdmaAsk where
  op : MemOp
  need : Need
  verb : Nat
  rkey : Nat
  va : Nat
  len : Nat
  data : List Byte := []
  arg : Nat := 0
  cmp : Nat := 0
  reqId : Option Nat := none
  deriving DecidableEq, Repr

/-- Whether a request counts against the 64 READs and atomics of a QP (R156). -/
def heavy (r : RdmaResp) : Bool :=
  match r with
  | .readData _ => true
  | .atomic _ => true
  | _ => false

/-- The response that a request's place in the list holds until it is known. -/
def blankResp (op : MemOp) : RdmaResp :=
  match op with
  | .read => .readData []
  | .fetchAdd => .atomic 0
  | .compareSwap => .atomic 0
  | _ => .ack

/-- Takes a translated request into the tracker with its buffer and request ID; in a FLUSH region a WRITE is
committed at its staging and acknowledged at once (R157–R160, R163, R170). A WRITE with Immediate that follows a prefix uses
its own ID, and the prefix is used up; the spec does not say (DESIGN CHOICE, log 115). -/
def State.rdmaAdmit (s : State) (qpn psn : Nat) (q : Qp) (a : RdmaAsk) (region off : Nat) (segs : List (Nat × Nat))
    (buf : Option (Nat × Nat)) : State :=
  let staged := a.op == .write && !(s.region region).onAck
  let id := match a.reqId with | some v => v | none => q.nextReqId
  let r : Req := { src := .rdma qpn psn, op := a.op, host := q.host, region := region, off := off, len := a.len
                   segs := segs, data := a.data, arg := a.arg, cmp := a.cmp, reqId := id, acked := staged, buf := buf }
  let p := ((s.classNote q region).psnTake qpn psn a.len).enter r
  (p.1.trackNote.addResp qpn psn (blankResp a.op) staged).settle

/-- A duplicate PSN (R162): a WRITE is acknowledged again, a READ executed again, an atomic answered from the
responder store; one whose original has not been answered yet gets that answer. -/
def State.rdmaDup (s : State) (qpn psn : Nat) (q : Qp) (a : RdmaAsk) : State :=
  if q.resps.any fun e => e.psn == psn then s
  else match a.op with
  | .read => match s.rdmaWhere q a.rkey a.verb a.va a.len a.need with
    | .error e => s.rdmaRefuse q qpn psn (s.keyFault q.host a.rkey a.verb a.va a.len) e
    | .ok (region, off, segs) =>
      let p := s.enter { src := .rdma qpn psn, op := .read, host := q.host, region := region, off := off
                         len := a.len, segs := segs }
      (p.1.addResp qpn psn (.readData []) false).settle
  | .write => s.qpSend qpn psn .ack
  | _ => match q.store.find? fun e => e.1 == psn with
    | some (_, v) => s.qpSend qpn psn (.atomic v)
    | none => s

/-- Whether a CNP interval has passed since a time (R131, R132). -/
def State.cnpFree (s : State) (last : Option Nat) : Bool :=
  match last with
  | none => true
  | some t => decide (t + s.fld Reg.rdxEcn 9 0 * 1000 ≤ s.time)

/-- Sends a CNP for a QP, at most one in each CNP interval; it travels at CNP_PRIO and is not encrypted (R127, R131). -/
def State.cnpSend (s : State) (qpn : Nat) (q : Qp) : State :=
  if s.cnpFree q.cnpSentAt then
    let prio := s.fld Reg.netDcb 18 16
    ((s.modQp qpn fun x => { x with cnpSentAt := some s.time }).count (Reg.rdxCount + 4 * 6)).txPkt q.port prio 16
      (.cnp (s.pktOf qpn q prio false) qpn)
  else s

/-- Sends a CNP where a packet's payload enters a pool at or above its warn threshold (R131). -/
def State.warnCnp (s : State) (qpn : Nat) (q : Qp) (pool : Nat) : State :=
  if decide (1 ≤ (s.pool pool).level) && q.state == .established then s.cnpSend qpn q else s

/-- A verified request of a QP (R156–R165): DRAINING NAKs new requests, back-pressure answers RNR, a
duplicate is handled by R162, a PSN beyond the expected one gets a sequence NAK; otherwise it is translated
and taken, or refused. A request past a limit of R156 moves the QP to ERROR like another opcode; the spec names no other
answer (DESIGN CHOICE, log 116). -/
def State.rdmaDo (s : State) (qpn psn : Nat) (a : RdmaAsk) : State :=
  s.withQp qpn fun s q =>
    match q.state with
    | .draining => if psnClass q.psnRx psn = 1 then s.rdmaDup qpn psn q a else s.sendNak q qpn psn 1
    | .established =>
      if s.noAdmit then s
      else if psnClass q.psnRx psn = 1 then s.rdmaDup qpn psn q a
      else if psnClass q.psnRx psn = 2 then s.sendNak q qpn psn 0
      else if 2 ^ 31 < a.len ∨ (a.op = .read ∨ isAtomic a.op) ∧ 64 ≤ (q.resps.filter fun e => heavy e.resp).length
      then s.forbidden qpn
      else if s.rnrNow (isWrite a.op) then s.sendRnr qpn psn
      else if a.len = 0 then
        (((s.psnTake qpn psn 0).modQp qpn fun x => { x with
          nextReqId := match a.reqId with | some v => v | none => 0 }).addResp qpn psn (blankResp a.op) true)
      else match s.rdmaWhere q a.rkey a.verb a.va a.len a.need with
      | .error e =>
        let t := if isWrite a.op && s.rdmaCb q a.rkey a.verb a.va a.len a.need then s.cbRefuse else s
        (t.psnTake qpn psn a.len).rdmaRefuse q qpn psn (s.keyFault q.host a.rkey a.verb a.va a.len) e
      | .ok (region, off, segs) =>
        if isWrite a.op then match s.takeBuf a.data.length with
          | none => (s.warnCnp qpn q (poolFor a.data.length)).sendRnr qpn psn
          | some (t, b) => (t.warnCnp qpn q b.1).rdmaAdmit qpn psn q a region off segs (some b)
        else s.rdmaAdmit qpn psn q a region off segs none
    | _ => s

/-- A WRITE (R156–R158). -/
def askWrite (rkey va : Nat) (data : List Byte) : RdmaAsk :=
  { op := .write, need := .write, verb := 1, rkey := rkey, va := va, len := data.length, data := data }

/-- A WRITE with Immediate: a request ID of its own, or with length 0 and R_Key 0 the next request's (R163). -/
def askWriteImm (rkey va : Nat) (data : List Byte) (imm : Nat) : RdmaAsk :=
  { askWrite rkey va data with reqId := if data.length ≠ 0 ∨ rkey = 0 then some (imm % 2 ^ 32) else none }

/-- A READ (R164). -/
def askRead (rkey va len : Nat) : RdmaAsk :=
  { op := .read, need := .read, verb := 0, rkey := rkey, va := va, len := len }

/-- An ATOMIC fetch-add (R160). -/
def askAdd (rkey va add : Nat) : RdmaAsk :=
  { op := .fetchAdd, need := .atomic, verb := 2, rkey := rkey, va := va, len := 8, arg := add
    data := (List.range 8).map fun _ => 0 }

/-- An ATOMIC compare-swap (R160). -/
def askSwap (rkey va cmp swap : Nat) : RdmaAsk :=
  { op := .compareSwap, need := .atomic, verb := 2, rkey := rkey, va := va, len := 8, arg := swap, cmp := cmp
    data := (List.range 8).map fun _ => 0 }

/-- An ATOMIC WRITE: acknowledged like a WRITE, under the right that R47 gives it (R160). -/
def askAtomicWrite (rkey va : Nat) (data : List Byte) : RdmaAsk :=
  { askWrite rkey va data with need := .atomic, verb := 2 }

/-- A request whose target must be 8-byte aligned; a misaligned one moves the QP to ERROR (R156; DESIGN CHOICE, log 116),
and on a DRAINING QP is NAKed like any new request (R154). -/
def State.rdmaAligned (s : State) (qpn psn : Nat) (a : RdmaAsk) : State :=
  if a.va % 8 = 0 ∧ a.len = 8 then s.rdmaDo qpn psn a
  else s.withQp qpn fun s q =>
    match q.state with
    | .established => s.forbidden qpn
    | .draining => s.sendNak q qpn psn 1
    | _ => s

/-! ### WRITEs of several packets (R149) -/

/-- The pieces of persistent space under `len` bytes from `start` of a range. -/
def sliceSegs : List (Nat × Nat) → Nat → Nat → List (Nat × Nat)
  | [], _, _ => []
  | (p, n) :: t, start, len =>
    if len = 0 then []
    else if n ≤ start then sliceSegs t (start - n) len
    else (p + start, min len (n - start)) :: sliceSegs t 0 (len - min len (n - start))

/-- How many of the bytes at hand are applied: up to the end of the last persist unit that they complete, or all with the
last packet (R23, R149). -/
def wholeUnits (w : WriteIn) (n : Nat) (last : Bool) : Nat :=
  if last then n else (w.off + w.done + n) / 256 * 256 - (w.off + w.done)

/-- Hands the whole persist units of a WRITE on to the tracker; answers the request's number, none where nothing is handed
on. None as a whole where no buffer is free. -/
def State.writePart (s : State) (qpn psn : Nat) (q : Qp) (w : WriteIn) (data : List Byte) (last : Bool) (reqId : Nat) :
    Option (State × WriteIn) :=
  let buf := w.part ++ data
  let cut := if w.skip then 0 else wholeUnits w buf.length last
  let rest := { w with done := w.done + (if w.skip then buf.length else cut)
                       part := if w.skip then [] else buf.drop cut, psns := w.psns ++ [psn] }
  if cut = 0 then some (s, rest)
  else match s.takeBuf cut with
  | none => none
  | some (t, b) =>
    let p := (t.warnCnp qpn q b.1).enter {
      src := .rdma qpn psn, op := .write, host := q.host, region := w.region, off := w.off + w.done, len := cut
      segs := sliceSegs w.segs w.done cut, data := buf.take cut, reqId := reqId, buf := some b }
    some (p.1.trackNote, { rest with reqs := w.reqs ++ [p.2] })

/-- A packet of a WRITE that is not its last. -/
def State.writeMore (s : State) (qpn psn : Nat) (q : Qp) (w : WriteIn) (data : List Byte) : State :=
  if w.len ≤ w.done + w.part.length + data.length then s.forbidden qpn
  else match s.writePart qpn psn q w data false 0 with
  | none => s
  | some (t, x) => (((t.psnTake qpn psn 0).modQp qpn fun y => { y with part := some x }).addResp qpn psn .quiet
      (x.reqs.length == w.reqs.length)).settle

/-- The last packet of a WRITE: in a FLUSH region the WRITE is now committed at its staging and acknowledged (R157, R158). -/
def State.writeEnd (s : State) (qpn psn : Nat) (q : Qp) (w : WriteIn) (data : List Byte) (imm : Option Nat) : State :=
  if w.len ≠ w.done + w.part.length + data.length then s.forbidden qpn
  else match s.writePart qpn psn q w data true (match imm with | some v => v % 2 ^ 32 | none => w.reqId) with
  | none => s
  | some (t, x) =>
    let staged := !(t.region w.region).onAck
    let t := (t.psnTake qpn psn 0).modQp qpn fun y => { y with part := none }
    let t := if staged then x.reqs.foldl (fun (u : State) i => u.modReq i fun r => { r with acked := true }) t else t
    let t := t.addResp qpn psn .ack (staged || x.reqs.isEmpty)
    (if staged then x.psns.foldl (fun (u : State) n => u.respDue qpn n .ack) t else t).settle

/-- The first packet of a WRITE of several: its whole range is translated, and back-pressure answers RNR (R48, R171). A WRITE
whose prefix names a request that the window holds is acknowledged and not applied (R163). -/
def State.writeBegin (s : State) (qpn psn : Nat) (q : Qp) (rkey va total : Nat) (data : List Byte) : State :=
  if 2 ^ 31 < total ∨ q.part.isSome then s.forbidden qpn
  else if s.rnrNow true then s.sendRnr qpn psn
  else match s.rdmaWhere q rkey 1 va total .write with
  | .error e =>
    let t := if s.rdmaCb q rkey 1 va total .write then s.cbRefuse else s
    (t.psnTake qpn psn 0).rdmaRefuse q qpn psn (s.keyFault q.host rkey 1 va total) e
  | .ok (region, off, segs) =>
    let hit := match s.winHit region q.host q.nextReqId with | some w => !w.opened | none => false
    let t := (s.classNote q region).countBy (Reg.rdxCount + 4 * 4) (b2n hit)
    t.writeMore qpn psn q { region := region, off := off, segs := segs, len := total, reqId := q.nextReqId, skip := hit } data

/-- Acts on a packet of a WRITE of several in PSN order: `f` on the next one expected; a duplicate of the last packet is
acknowledged again (R162), and a packet that no first packet has begun is out of place. -/
def State.writeTurn (s : State) (qpn psn : Nat) (first last : Bool) (f : State → Qp → State) : State :=
  s.withQp qpn fun s q =>
    if qpEncrypts q = false || s.noAdmit then s
    else if psnClass q.psnRx psn = 1 then (if last && !(q.resps.any fun e => e.psn == psn) then s.qpSend qpn psn .ack else s)
    else if psnClass q.psnRx psn = 2 then s.sendNak q qpn psn 0
    else if first && q.state == .draining then s.sendNak q qpn psn 1
    else if !first && q.part.isNone then s.forbidden qpn
    else f s q

/-- A packet of a WRITE of several (R149). -/
def State.writeFirstDo (s : State) (qpn psn rkey va total : Nat) (data : List Byte) : State :=
  s.writeTurn qpn psn true false fun t q => t.writeBegin qpn psn q rkey va total data
def State.writeMidDo (s : State) (qpn psn : Nat) (data : List Byte) : State :=
  s.writeTurn qpn psn false false fun t q => match q.part with
    | some w => t.writeMore qpn psn q w data
    | none => t
def State.writeLastDo (s : State) (qpn psn : Nat) (data : List Byte) (imm : Option Nat) : State :=
  s.writeTurn qpn psn false true fun t q => match q.part with
    | some w => t.writeEnd qpn psn q w data imm
    | none => t

/-! ### FLUSH (R159) -/

/-- The range that a FLUSH names: by its key alone where the selectivity level is the memory region. -/
def State.flushRange (s : State) (rkey va len : Nat) (whole : Bool) : Nat × Nat :=
  if whole then ((match s.mkeys.get? (rkeyIdx rkey) with | some k => k.va | none => 0), 0) else (va, len)

/-- The check of R48 that a FLUSH fails, if any: READ_WRITE is the right it needs (R47). -/
def State.flushFails (s : State) (q : Qp) (rkey va len : Nat) : Option XStep :=
  match s.keyOf q.host rkey 3 va len with
  | none => some .path
  | some (region, off) => match s.xlate q.host region off len .write with
    | .error e => some e
    | .ok _ => none

/-- A FLUSH begins to wait for every WRITE and ATOMIC WRITE received on the QP before it (R159). -/
def State.rdmaFlushDo (s : State) (qpn psn rkey va len : Nat) (whole : Bool) : State :=
  s.withQp qpn fun s q =>
    match q.state with
    | .draining => s.sendNak q qpn psn 1
    | .established =>
      if s.noAdmit then s
      else if psnClass q.psnRx psn = 1 then (if q.resps.any fun e => e.psn == psn then s else s.qpSend qpn psn .flush)
      else if psnClass q.psnRx psn = 2 then s.sendNak q qpn psn 0
      else if s.rnrNow true then s.sendRnr qpn psn
      else
        let r := s.flushRange rkey va len whole
        match s.flushFails q rkey r.1 r.2 with
        | some e => (s.psnTake qpn psn 0).rdmaRefuse q qpn psn (s.keyFault q.host rkey 3 r.1 r.2) e
        | none =>
          let l := (s.reqs.filter fun e => onQp qpn e.2 && isWrite e.2.op).map Prod.fst
          ((s.psnTake qpn psn 0).modQp qpn fun x => { x with flushes := x.flushes ++ [{ psn := psn, reqs := l }] }).addResp
            qpn psn .flush false
    | _ => s

/-! ### Control messages (R143–R146, R166, R167) -/

/-- Whether a control message has VERSION 1 and a LENGTH that its type may have (R143). -/
def wcmOk (w : WcmHdr) (lo hi : Nat) : Bool := w.version == 1 && decide (lo ≤ w.length) && decide (w.length ≤ hi)

/-- The longest control message. -/
def wcmMax : Nat := 65535

/-- A SEND on an ESTABLISHED QP is received in PSN order and acknowledged; then its message acts. A
duplicate is acknowledged again and does not act (R162); at the throttle level it is answered RNR (R171). -/
def State.wcmTake (s : State) (qpn psn : Nat) (ok : Qp → Bool) (act : State → Qp → State) : State :=
  s.withQp qpn fun s q =>
    match q.state with
    | .established =>
      if psnClass q.psnRx psn = 1 then s.qpSend qpn psn .ack
      else if psnClass q.psnRx psn = 2 then s.sendNak q qpn psn 0
      else if ok q = false then s.forbidden qpn
      else if s.rnrNow false then s.sendRnr qpn psn
      else act ((s.psnTake qpn psn 0).addResp qpn psn .ack true) q
    | .keying => s.forbidden qpn
    | .draining => s.sendNak q qpn psn 1
    | _ => s

/-- A control message with a reply: BAD_MESSAGE where its VERSION or LENGTH is not its type's (R143). -/
def State.wcmReply (s : State) (qpn type : Nat) (w : WcmHdr) (lo hi : Nat) (act : State → State) : State :=
  if wcmOk w lo hi then act s else s.wcmSend qpn type w.tag 4 16 []

/-- KEEPALIVE: answered with KEEPALIVE_ACK (R136, R143). -/
def State.keepaliveDo (s : State) (qpn psn : Nat) (w : WcmHdr) : State :=
  s.wcmTake qpn psn (fun _ => true) fun t _ => t.wcmReply qpn 0x11 w 16 16 fun u => u.wcmSend qpn 0x11 w.tag 0 16 []

/-- Whether a QP's service may register and invalidate keys: DATA and MGMT (R143). -/
def keyService (q : Qp) : Bool := q.service == 0 || q.service == 1

/-- The level of right that a set of verbs needs (R47, R166): READ 1, WRITE and FLUSH 2, atomics 3. -/
def verbsLevel (v : Nat) : Nat :=
  if v.testBit 2 then 3 else if v.testBit 1 || v.testBit 3 then 2 else if v.testBit 0 then 1 else 0

/-- The highest key at or below `n` that a table does not list, or 0. -/
def freeBelow (t : Tbl Nat) : Nat → Nat → Nat
  | 0, n => n
  | fuel + 1, n => if (t.get? n).isSome then freeBelow t fuel (n - 1) else n

/-- A key index that was never used: from the bottom of the table on twin 0, from its top on twin 1 (DESIGN CHOICE, log
18). -/
def State.keyUnused (s : State) : Nat :=
  if s.twin then freeBelow s.mkeyGens s.mkeyGens.length 65535 else s.mkeyGens.fresh 1

/-- The key index that a registration takes: one never used, or the least recently freed; index 0 never (R153, R166,
R167). -/
def State.takeKey (s : State) : Option (State × Nat) :=
  let i := s.keyUnused
  if 1 ≤ i ∧ i < 65536 ∧ (s.mkeyGens.get? i).isNone then some (s, i)
  else match s.rdx.keyFreed with
    | i :: t => some ({ s with rdx := { s.rdx with keyFreed := t } }, i)
    | [] => none

/-- The checks and the entry of MKEY_REGISTER (R166): a status (3 RANGE, 1 DENIED, 2 NO_SPACE), or the state
that has taken an index and its key. -/
def State.keyMake (s : State) (host region verbs tag rof va len : Nat) : Except Nat (State × Nat × Mkey) :=
  let r := s.region region
  let max := match s.leases.get? host with | some l => l.maxMkey | none => 0
  if len = 0 ∨ r.size * gib < rof + len then .error 3
  else if rightLevel (rightOf r host) < verbsLevel verbs then .error 1
  else if max ≤ s.mkeys.count fun k => k.live && k.host == host then .error 2
  else match s.takeKey with
  | none => .error 2
  | some (t, idx) => .ok (t, idx,
      { live := true, gen := t.mkeyGens.getD idx 0, tag := tag % 256, region := region, rof := rof, va := va
        len := len, host := host, verbs := verbs % 16 })

/-- The MSG_SEQ of the last CONTROL message that is unacknowledged. -/
def State.lastCtl (s : State) : Nat := maxOf s.twn.ctl.keys

/-- Puts a reply on the list of those that wait until both twins hold the change (R166, R167). -/
def State.replyLater (s : State) (sent : Bool) (reqs : List Access) (qpn type tag key : Nat) : State :=
  let k : KeyReply := { seq := if sent then s.lastCtl else 0, reqs := reqs, qpn := qpn, type := type, tag := tag, key := key }
  { s with rdx := { s.rdx with replies := s.rdx.replies ++ [k] } }.keyPoll

/-- Whether a host's lease is ACTIVE: otherwise its key messages are answered LEASE_STATE (R135, R143). -/
def State.leaseLive (s : State) (host : Nat) : Bool := match s.leases.get? host with
  | some l => l.state == .active
  | none => false

/-- MKEY_REGISTER of a QP's lease (R166). -/
def State.keyRegister (s : State) (qpn : Nat) (q : Qp) (w : WcmHdr) (region verbs tag rof va len : Nat) : State :=
  if s.leaseLive q.host = false then s.wcmSend qpn 0x21 w.tag 5 16 [] else
  match s.keyMake q.host region verbs tag rof va len with
  | .error st => s.wcmSend qpn 0x21 w.tag st 16 []
  | .ok (t, idx, k) =>
    let p := t.both [.mkey idx k] false none
    p.1.replyLater p.2 [] qpn 0x21 w.tag (rkeyOf idx k.gen k.tag)

/-- The live key that an R_Key names (R53). -/
def State.keyNamed (s : State) (rkey : Nat) : Option (Nat × Mkey) :=
  match s.mkeys.get? (rkeyIdx rkey) with
  | some k => if k.live && k.gen == bitsOf rkey 15 8 && k.tag == bitsOf rkey 7 0 then some (rkeyIdx rkey, k) else none
  | none => none

/-- MKEY_INVALIDATE of a QP's lease: DENIED unless the key is bound to it; the reply follows once R51 holds
(R167). -/
def State.keyInvalidate (s : State) (qpn : Nat) (q : Qp) (w : WcmHdr) (rkey : Nat) : State :=
  if s.leaseLive q.host = false then s.wcmSend qpn 0x23 w.tag 5 16 [] else
  match s.keyNamed rkey with
  | none => s.wcmSend qpn 0x23 w.tag 1 16 []
  | some (idx, k) =>
    if k.host ≠ q.host then s.wcmSend qpn 0x23 w.tag 1 16 []
    else
      let l := s.underKey k
      let p := s.both [.mkey idx { k with live := false }] false none
      p.1.replyLater p.2 l qpn 0x23 w.tag rkey

/-! ### Connections (R138–R142, R145, R146) -/

/-- QPs that a lease holds on this twin (R139). -/
def State.qpsHeld (s : State) (host : Nat) : Nat :=
  s.rdx.qps.count fun q => q.host == host && !(match q.state with | .quarantine => true | _ => false)

/-- The index that a QP takes: one never used, or the least recently freed (R153). -/
def State.takeQp (s : State) : Option (State × Nat) :=
  if s.rdx.nextIdx < 2 ^ 17 then some ({ s with rdx := { s.rdx with nextIdx := s.rdx.nextIdx + 1 } }, s.rdx.nextIdx)
  else match s.rdx.freed with
    | i :: t => some ({ s with rdx := { s.rdx with freed := t } }, i)
    | [] => none

/-- The check of R139 that a REQ fails, as its REJ reason and RETRY_MS (R141). -/
def State.reqFails (s : State) (r : ConnReq) : Option (Nat × Nat) :=
  if !s.bit Reg.rdxCtl 0 || !s.admitted || s.rdx.holdReqs then some (1, 1000)
  else if r.version ≠ 1 ∨ r.service ≠ r.serviceId - s.svcBase ∨ 8 ≤ r.qos then some (5, 0)
  else match s.leases.get? r.host with
  | none => some (2, 0)
  | some l =>
    if l.state == .revoked then some (2, 0)
    else if r.service = 1 ∧ l.mgmt = false then some (5, 0)
    else if l.maxQp ≤ s.qpsHeld r.host then some (3, 0)
    else if s.takeQp.isNone ∨ s.fld Reg.rdxKeying 22 14 ≤ s.rdx.qps.count (qpIs .keying) then some (4, 10)
    else none

/-- The PMTU that a REP answers: the largest of 1,024, 2,048 and 4,096 up to the one requested; a smaller one is not
supported (R124, R139). -/
def mtuOf (n : Nat) : Option Nat :=
  if 4096 ≤ n then some 4096 else if 2048 ≤ n then some 2048 else if 1024 ≤ n then some 1024 else none

/-- A CM REQ: REP with a QPN, a random starting PSN, the PMTU and 64 responder resources, or REJ (R138, R139).
CM messages sent: 1 REP, 2 REJ, 3 DREQ, 4 DREP. A PMTU below 1,024 is rejected with the IBA reason for an invalid path MTU
(DESIGN CHOICE, log 117). -/
def State.cmReqDo (s : State) (r : ConnReq) : State :=
  if r.serviceId < s.svcBase ∨ s.svcBase + 2 < r.serviceId then s.emit (.cm 2 r.hostQpn [8])
  else match s.reqFails r with
  | some (reason, retry) => s.emit (.cm 2 r.hostQpn [28, reason, retry])
  | none => match mtuOf r.pmtu, s.takeQp with
    | none, _ => s.emit (.cm 2 r.hostQpn [26])
    | _, none => s
    | some mtu, some (t, idx) =>
      let d := t.draw
      let psn := Config.random d.2 % 2 ^ 24
      let q : Qp := { state := .connecting, service := r.service, host := r.host, qos := r.qos, hostQpn := r.hostQpn
                      psnRx := r.psn % 2 ^ 24, psnTx := psn, pmtu := mtu, rate := s.lineRate, port := r.port, gid := r.gid }
      let u := { d.1 with rdx := { d.1.rdx with qps := d.1.rdx.qps.set idx q } }
      u.emit (.cm 1 (u.qpnOf idx) [psn, mtu, 64, s.fld Reg.rdxReqRetry 7 5, s.fld Reg.rdxReqRetry 10 8])

/-- The transcript T: 64 bytes of SHAKE256 over KEY_HELLO, bytes 0 to 1,143 of KEY_REPLY, both QPNs and both GIDs (R145). -/
def transcript (qpn : Nat) (q : Qp) (tag host suite hostNonce ek devNonce ct : Nat) : Nat :=
  Config.crypto [0x145, tag, host, suite, hostNonce, ek, devNonce, ct, qpn, q.hostQpn, portGid q.port q.gid, q.gid] % 2 ^ 512

/-- The digest of a client's public key that a lease holds (R134, R145): 32 bytes of SHAKE256. -/
def pkDigest (pk : Nat) : Nat := Config.crypto [0x134, pk] % 2 ^ 256

/-- The keys and salts of both directions: 88 bytes of SHAKE256 over K followed by T (R145 step 5). -/
def deriveKeys (g : Keying) : QpKeys :=
  let o := Config.crypto [0x88, g.k, g.t]
  { rxKey := bitsOf o 255 0, txKey := bitsOf o 511 256, rxSalt := bitsOf o 607 512, txSalt := bitsOf o 703 608 }

/-- KEY_HELLO (R144, R145 steps 1 and 2): a HOST_ID that differs from the connect data or a SUITE other than 1
fails; otherwise KEY_REPLY with a nonce, the ciphertext to EK and the signature of T. No key is drawn while the entropy
source fails its test (R563). -/
def State.keyHelloDo (s : State) (qpn : Nat) (w : WcmHdr) (host suite hostNonce ek : Nat) : State :=
  s.withQp qpn fun s q =>
    match q.state with
    | .keying =>
      if wcmOk w 1240 1240 = false then s.wcmSend qpn 0x02 w.tag 4 16 []
      else if host ≠ q.host ∨ suite ≠ 1 then s.keyFail qpn
      else if s.sec.entropyOk = false then s
      else
        let d := s.draw
        let nonce := Config.random d.2 % 2 ^ 256
        let ct := Config.crypto [0x768, ek, nonce] % 2 ^ 8704
        let t := transcript qpn q w.tag host suite hostNonce ek nonce ct
        let g : Keying := { k := Config.crypto [0x769, ek, nonce] % 2 ^ 256, t := t, sig := Config.crypto [0x65, t] % 2 ^ 26472 }
        ((d.1.count (Reg.secCount + 4)).modQp qpn fun x => { x with keying := some g }).wcmSend qpn 0x02 w.tag 0 4453
          [(16, 32, nonce), (48, 8, 0), (56, 1088, ct), (1144, 3309, g.sig)]
    | .established => s.forbidden qpn
    | _ => s

/-- Puts a QP's key set into SEC's cache of 16,384; which set leaves a full cache is a free choice (R554). -/
def State.cacheKey (s : State) (idx : Nat) : State :=
  let put := fun (t : State) (i : Nat) (b : Bool) =>
    { t with rdx := { t.rdx with qps := t.rdx.qps.modify i fun q => { q with keyCached := b } } }
  let held := (s.rdx.qps.filterV fun q => q.keyCached).keys
  if held.length < 16384 then put s idx true
  else
    let d := s.draw
    put (put d.1 (held.getD (Config.choice d.2 % held.length) 0) false) idx true

/-- T2, which the host signs: 64 bytes of SHAKE256 over T followed by DEV_SIG (R145 step 3). -/
def transcript2 (g : Keying) : Nat := Config.crypto [0x146, g.t, g.sig] % 2 ^ 512

/-- KEY_CONFIRM (R145 steps 4 to 6): the digest of HOST_PK must equal the lease's CRED_DIGEST and HOST_SIG verify on T2,
which `sigOk` answers; then the keys are derived, K, T and T2 erased, KEY_DONE is sent encrypted with counter 0, the QP is
ESTABLISHED and a LAPSED lease ACTIVE. -/
def State.keyConfirmDo (s : State) (qpn : Nat) (w : WcmHdr) (pk : Nat) (sigOk : Bool) : State :=
  s.withQp qpn fun s q =>
    match q.state with
    | .keying =>
      if wcmOk w 5277 5277 = false then s.wcmSend qpn 0x04 w.tag 4 16 [] else
      match s.leases.get? q.host, q.keying with
      | some l, some g =>
        if l.state == .revoked || l.cred != pkDigest pk then s.keyFail qpn
        else if !sigOk then (s.count (Reg.secCount + 8)).keyFail qpn
        else
          let t := s.modQp qpn fun x => { x with
            state := .established, ctrTx := 0, ctrRx := none, keyCached := false, keying := none, keys := some (deriveKeys g) }
          let t := t.cacheKey (qpIdx qpn)
          let t := { t with leases := t.leases.set q.host { l with state := .active } }
          let t := (t.wcmSend qpn 0x04 w.tag 0 16 []).mbxReset (2 ^ 32 + qpn)
          if q.service = 2 then t.resendFor 2 q.host else t
      | _, _ => s.keyFail qpn
    | .established => s.forbidden qpn
    | _ => s

/-- CERT_REQUEST: answered with CERT_CHAIN in KEYING (R143); the length of the chain is a free value. -/
def State.certRequestDo (s : State) (qpn : Nat) (w : WcmHdr) : State :=
  s.withQp qpn fun s q =>
    match q.state with
    | .keying =>
      let n := Config.bodyLen 0x06
      if wcmOk w 16 16 then s.wcmSend qpn 0x06 w.tag 0 (16 + n) [(16, n, Config.firmwareDefined 0x06)]
      else s.wcmSend qpn 0x06 w.tag 4 16 []
    | .established => s.forbidden qpn
    | _ => s

/-- What is held during a live activation is served by the new firmware (R517). -/
def State.cmServe (s : State) (i : Instr) : State :=
  match i with
  | .cmReq r => s.cmReqDo r
  | .keyHello q w h su n ek => s.keyHelloDo q w h su n ek
  | .keyConfirm q w pk _ ok => s.keyConfirmDo q w pk ok
  | .certRequest q w => s.certRequestDo q w
  | _ => s

/-- Serves a CM REQ or keying message, or holds it while the control cores are halted (R517). -/
def State.cmTake (s : State) (i : Instr) : State :=
  if s.fw.halted then { s with rdx := { s.rdx with heldCm := s.rdx.heldCm ++ [i] } } else s.cmServe i

/-- Whether a QP is in one of some states, then what happens to it. -/
def State.qpWhen (s : State) (qpn : Nat) (p : Qp → Bool) (f : State → Qp → State) : State :=
  match s.qp? qpn with
  | some q => if p q then f s q else s
  | none => s

end Sys2Proof.Machine
end

