-- ==== Sys2Proof/Machine/Net.lean ====
section
/-! DEFINITION. The commands of the Ethernet ports and the RDMA service (chapter 4), but for WCM_JORRID. -/

namespace Sys2Proof.Machine

/-! ### Ports (R125–R133) -/

/-- NET_LINK_UP: an enabled port's link comes up (R180). -/
def execNetLinkUp (port : Fin 8) (s : State) : Out :=
  .next (if s.portEn port then (if s.awake then s.modPort port fun p => { p with up := true } else s.wakeFor .ethernet) else s)

/-- A port's link goes down: DOWN is set and its event record written (R181, R583). -/
def State.netDown (s : State) (port : Nat) : State :=
  if (s.port port).up then
    (s.modPort port fun p => { p with
      up := false, rxPaused := 0, txPaused := 0, txq := [], served := [], headroom := [] }).flagRecord
      (Reg.netPortEvent + 16 * port) 0 0x0502 port 0
  else s

/-- NET_LINK_DOWN (R181). -/
def execNetLinkDown (port : Fin 8) (s : State) : Out := .next (s.netDown port)

/-- FEC_UNCORR: an uncorrectable FEC codeword is received (R181). -/
def execFecUncorr (port : Fin 8) (s : State) : Out := .next (s.flag (Reg.netPortEvent + 16 * port) 1)

/-- PFC_FRAME_RECEIVED: of the priorities that the frame names, those of PFC_EN pause or go on; what waited on one that
goes on is sent (R128, R129). -/
def execPfcFrameReceived (port : Fin 8) (prios xoff : BitVec 8) (s : State) : Out :=
  let m := prios.toNat &&& s.fld Reg.netDcb 7 0
  .next (if (s.port port).up then
    (s.modPort port fun p => { p with rxPaused := (p.rxPaused &&& (255 ^^^ m)) ||| (xoff.toNat &&& m) }).drainTx port
  else s)

/-- PAUSE_STORM: a priority held paused for more than 100 ms sets PAUSE_STORM and writes an event record; the
pause is still honoured (R128). -/
def execPauseStorm (port prio : Fin 8) (s : State) : Out :=
  .next (if s.paused port prio then s.flagRecord (Reg.netPortEvent + 16 * port) 2 0x0501 port 0 else s)

/-- CNP_RECEIVED: cuts the QP's rate to rate × (1 − CUT/256), at most once per CNP interval and never below
1 Gb/s (R132). Rates are in Mb/s. -/
def execCnpReceived (qpn : Nat) (s : State) : Out :=
  .next (s.withAny qpn fun t q => if t.cnpFree q.cnpSeenAt then t.modQp qpn fun x => { x with
      rate := max 1000 (q.rate * (256 - t.fld Reg.rdxEcn 17 10) / 256), cnpSeenAt := some t.time }
    else t)

/-- RATE_INCREASE_TICK: 55 µs without a CNP raise a QP's rate by AI_GBPS, up to line rate (R132). -/
def execRateIncreaseTick (qpn : Nat) (s : State) : Out :=
  .next (s.qpWhen qpn (fun _ => true) fun t q => t.modQp qpn fun x => { x with
    rate := min t.lineRate (q.rate + 1000 * t.fld Reg.rdxEcn 23 18) })

/-- LLDP_TRANSMIT: an enabled port sends the service TLV (R133, R178). -/
def execLldpTransmit (port : Fin 8) (s : State) : Out := .next (s.lldpSend port)

/-- LLDP_RECEIVED: read for link-partner identification (R133). -/
def execLldpReceived (port : Fin 8) (partner : Nat) (s : State) : Out :=
  .next (s.modPort port fun p => { p with partner := partner })

/-! ### Packets (R143, R147–R152) -/

/-- What a verified packet asks for. A control message other than KEEPALIVE acts by its own command; here its
type is checked against the QP's service (R143). -/
def State.verbDo (s : State) (qpn psn : Nat) (v : Verb) : State :=
  match v with
  | .write k va d => s.rdmaDo qpn psn (askWrite k va d)
  | .writeImm k va d i => s.rdmaDo qpn psn (askWriteImm k va d i)
  | .read k va n => s.rdmaDo qpn psn (askRead k va n)
  | .fetchAdd k va n => s.rdmaAligned qpn psn (askAdd k va n)
  | .compareSwap k va c w => s.rdmaAligned qpn psn (askSwap k va c w)
  | .atomicWrite k va d => s.rdmaAligned qpn psn (askAtomicWrite k va d)
  | .writeFirst k va n d => s.writeFirstDo qpn psn k va n d
  | .writeMid d => s.writeMidDo qpn psn d
  | .writeLast d i => s.writeLastDo qpn psn d i
  | .flush k va n whole => s.rdmaFlushDo qpn psn k va n whole
  | .keepalive w => s.keepaliveDo qpn psn w
  | .wcm type => s.qpWhen qpn (fun q => !((type == 0x10) || ((type == 0x20 || type == 0x22) && keyService q)
      || (type == 0x30 && q.service == 1))) fun t _ => t.forbidden qpn
  | .other _ => s.forbidden qpn

/-- A packet on an ESTABLISHED or DRAINING QP: a replay is dropped and counted; otherwise it is staged whole in a buffer, a
tag failure ends the QP with the buffer overwritten, and a verified packet advances the counter and is acted on, unless the
counter has reached its limit. A key set that is not in the cache is fetched and the miss counted (R131, R148–R151, R554).
With the Ethernet GCM pipelines disabled the packet is lost (R557, log 125).
Also answered: whether a buffer was free for the packet. -/
def State.packetIn (s : State) (h : PktHdr) (v : Verb) (q : Qp) : State × Bool :=
  if s.bit Reg.secCtl 0 = false then (s, true)
  else if (match q.ctrRx with | some c => decide (h.counter ≤ c) | none => false) then (s.count (Reg.rdxCount + 8), true)
  else match (if q.keyCached then s else (s.count Reg.secCount).cacheKey (qpIdx h.qpn)).takeBuf h.bytes with
  | none => (s.warnCnp h.qpn q (poolFor h.bytes), false)
  | some (t, b) =>
    let t := t.warnCnp h.qpn q b.1
    if h.tagOk = false then (((t.zeroBuf b).freeBuf b).authFail h.qpn, true)
    else ((((t.freeBuf b).modQp h.qpn fun x => { x with ctrRx := some h.counter }).ctrLimit h.qpn).verbDo h.qpn h.psn v, true)

/-- What a packet does in each state of its QP (R143, R152, R154), and whether a buffer was free for it. -/
def State.packetAt (s : State) (h : PktHdr) (v : Verb) : State × Bool :=
  match s.qp? h.qpn with
  | none => (s.withAny h.qpn fun t _ => t, true)
  | some q => match q.state with
    | .connecting => (s, true)
    | .keying => (match v with
      | .wcm 0x01 => s
      | .wcm 0x03 => s
      | .wcm 0x05 => s
      | _ => s.forbidden h.qpn, true)
    | .established => s.packetIn h v q
    | .draining => s.packetIn h v q
    | .error => (s, true)
    | .quarantine => (s.count Reg.rdxCount, true)

/-- Keeps a packet that found no buffer in the port's 192 KiB of headroom, on a priority of PFC_EN; elsewhere, or without
room, it is dropped (R128, DEDUCED, log 118). -/
def State.headPut (s : State) (h : PktHdr) (v : Verb) : State :=
  if s.bit Reg.netDcb (rxPrio h) && decide ((((s.port h.port).headroom.map fun e => e.1.bytes).sum + h.bytes) ≤ 196608) then
    s.modPort h.port fun p => { p with headroom := p.headroom ++ [(h, v)] }
  else s

/-- Serves the packets in a port's headroom, in order, while buffers are free (R128). -/
def State.headServe (s : State) (n : Nat) : Nat → State
  | 0 => s
  | fuel + 1 => match (s.port n).headroom with
    | [] => s
    | (h, v) :: rest =>
      let r := s.packetAt h v
      if r.2 then (r.1.modPort n fun p => { p with headroom := rest }).headServe n fuel else r.1

/-- Serves a port's headroom. -/
def State.headGo (s : State) (n : Nat) : State := s.headServe n (s.port n).headroom.length

/-- A CE-marked packet of an ESTABLISHED QP sends a CNP (R131). -/
def State.ceNote (s : State) (h : PktHdr) : State :=
  match s.qp? h.qpn with
  | some q => if h.ce && q.state == .established then s.cnpSend h.qpn q else s
  | none => s

/-- ROCE_PACKET_RECEIVE: staged whole, matched to its QP, and acted on only once its tag verifies (R143, R147–R152, R154);
behind packets that wait in the headroom it waits with them (R128). A packet whose ICRC fails, or with a WSH of another
VERSION on an encrypting QP, is dropped; the spec does not say what such a VERSION does (DESIGN CHOICE, log 119). -/
def execRocePacketReceive (h : PktHdr) (v : Verb) (s : State) : Out :=
  let enc := match s.qp? h.qpn with | some q => qpEncrypts q | none => false
  .next (if h.icrcOk = false || (enc && h.version != 1) then s
    else
      let t := (s.headGo h.port).ceNote h
      if (t.port h.port).headroom.isEmpty = false then t.headPut h v
      else
        let r := t.packetAt h v
        if r.2 then r.1 else r.1.headPut h v)

/-- PFC_XOFF_REPEAT: while a pool is at its stop level, XOFF goes out on every PFC_EN priority of every port;
when the condition has cleared, XON (R128, R171). Packets in the headroom for which a buffer is free now are served. -/
def execPfcXoffRepeat (s : State) : Out :=
  .next ((List.range 8).foldl State.headGo (s.pfcAll (decide (3 ≤ s.poolLevel))))

/-- SEND_COUNTER_LIMIT: a direction's counter that has reached 2^48 moves the QP to ERROR (R151). -/
def execSendCounterLimit (qpn : Nat) (s : State) : Out :=
  .next (s.ctrLimit qpn)

/-! ### Connections (R138–R146, R153, R154) -/

/-- CM_REQ (R138–R142). -/
def execCmReq (r : ConnReq) (s : State) : Out := .next (s.cmTake (.cmReq r))

/-- CM_RTU: CONNECTING to KEYING (R154). -/
def execCmRtu (qpn : Nat) (s : State) : Out :=
  .next (s.qpWhen qpn (qpIs .connecting) fun t _ => t.modQp qpn fun q => { q with state := .keying })

/-- CM_REJ: CONNECTING to QUARANTINE (R154). -/
def execCmRej (qpn : Nat) (s : State) : Out :=
  .next (s.qpWhen qpn (qpIs .connecting) fun t _ => t.qpEnter qpn .quarantine)

/-- CM_MRA: received; the spec gives it no effect on the QP's state (R124, R154). -/
def execCmMra (_qpn : Nat) (s : State) : Out := .next s

/-- CM_DREQ, received or sent: ESTABLISHED to DRAINING, which ends once the requests already received are done and DREP is
exchanged; an ERROR QP answers a host's DREQ with DREP and goes to QUARANTINE (R154). -/
def execCmDreq (qpn : Nat) (sent : Bool) (s : State) : Out :=
  .next (match s.qp? qpn with
    | none => s
    | some q =>
      let t := if sent then s.emit (.cm 3 qpn []) else s
      match q.state with
      | .established => (t.modQp qpn fun x => { x with state := .draining, asked := sent }).drainPoll
      | .error => if sent then t else (t.qpEnter qpn .quarantine).emit (.cm 4 qpn [])
      | _ => s)

/-- CM_DREP: ends an ERROR QP, and a DRAINING one whose requests are done, into QUARANTINE (R154). -/
def execCmDrep (qpn : Nat) (s : State) : Out :=
  .next (s.qpWhen qpn (fun q => qpIs .error q || (qpIs .draining q && q.resps.isEmpty)) fun t _ => t.qpEnter qpn .quarantine)

/-- CM_TIMEOUT: CONNECTING to QUARANTINE (R154). -/
def execCmTimeout (qpn : Nat) (s : State) : Out :=
  .next (s.qpWhen qpn (qpIs .connecting) fun t _ => t.qpEnter qpn .quarantine)

/-- DRAINING_TIMEOUT: after 1 s DRAINING to QUARANTINE (R154). -/
def execDrainingTimeout (qpn : Nat) (s : State) : Out :=
  .next (s.qpWhen qpn (qpIs .draining) fun t _ => (t.qpEnter qpn .quarantine).settle)

/-- ERROR_TIMEOUT: after 100 ms ERROR to QUARANTINE (R154). -/
def execErrorTimeout (qpn : Nat) (s : State) : Out :=
  .next (s.qpWhen qpn (qpIs .error) fun t _ => t.qpEnter qpn .quarantine)

/-- The end of a QP index's quarantine: its generation rises modulo 128 and the index returns to the free
list (R153). -/
def State.qpFree (s : State) (idx : Nat) : State :=
  match s.rdx.qps.get? idx with
  | some q => if qpIs .quarantine q then
      { s with
        mbx := s.mbx.erase (2 ^ 32 + s.qpnOf idx)
        rdx := { s.rdx with
          qps := s.rdx.qps.erase idx, gens := s.rdx.gens.set idx ((s.genOf idx + 1) % 128), freed := s.rdx.freed ++ [idx] } }
    else s
  | none => s

/-- The end of a key index's quarantine (R167). -/
def State.keyFree (s : State) (idx : Nat) : State :=
  match s.mkeys.get? idx with
  | some k => if k.quar then
      { s with mkeys := s.mkeys.erase idx, rdx := { s.rdx with keyFreed := s.rdx.keyFreed ++ [idx] } }
    else s
  | none => s

/-- QUARANTINE_END of a QPN or key index (R153, R167). The end of the wait of R142 after a reset is that of
index 0, which no connected QP uses (DEDUCED, log 23). -/
def execQuarantineEnd (mkey : Bool) (index : Nat) (s : State) : Out :=
  .next (if mkey then s.keyFree index
    else if index = 0 then { s with rdx := { s.rdx with holdReqs := false } } else s.qpFree index)

/-- KEY_HELLO (R144–R146). -/
def execKeyHello (qpn : Nat) (w : WcmHdr) (host suite nonce ek : Nat) (s : State) : Out :=
  .next (s.cmTake (.keyHello qpn w host suite nonce ek))

/-- KEY_CONFIRM (R144–R146). -/
def execKeyConfirm (qpn : Nat) (w : WcmHdr) (pk sig : Nat) (sigOk : Bool) (s : State) : Out :=
  .next (s.cmTake (.keyConfirm qpn w pk sig sigOk))

/-- CERT_REQUEST (R143). -/
def execCertRequest (qpn : Nat) (w : WcmHdr) (s : State) : Out := .next (s.cmTake (.certRequest qpn w))

/-- KEYING_TIMEOUT: keying longer than TIMEOUT_MS from the RTU fails (R146). -/
def execKeyingTimeout (qpn : Nat) (s : State) : Out := .next (s.qpWhen qpn (qpIs .keying) fun t _ => t.keyFail qpn)

/-! ### Requests (R156–R165) -/

/-- RDMA_WRITE (R156–R158). -/
def execRdmaWrite (qpn psn rkey va : Nat) (data : List Byte) (s : State) : Out :=
  .next (s.rdmaDo qpn psn (askWrite rkey va data))

/-- RDMA_WRITE_IMM: carries its own request ID or sets the next request's (R163). -/
def execRdmaWriteImm (qpn psn rkey va : Nat) (data : List Byte) (imm : Nat) (s : State) : Out :=
  .next (s.rdmaDo qpn psn (askWriteImm rkey va data imm))

/-- RDMA_READ (R164). -/
def execRdmaRead (qpn psn rkey va len : Nat) (s : State) : Out := .next (s.rdmaDo qpn psn (askRead rkey va len))

/-- ATOMIC_FETCH_ADD (R160). -/
def execAtomicFetchAdd (qpn psn rkey va : Nat) (add : DWord) (s : State) : Out :=
  .next (s.rdmaAligned qpn psn (askAdd rkey va add.toNat))

/-- ATOMIC_COMPARE_SWAP (R160). -/
def execAtomicCompareSwap (qpn psn rkey va : Nat) (cmp swap : DWord) (s : State) : Out :=
  .next (s.rdmaAligned qpn psn (askSwap rkey va cmp.toNat swap.toNat))

/-- ATOMIC_WRITE (R160). -/
def execAtomicWrite (qpn psn rkey va : Nat) (data : DWord) (s : State) : Out :=
  .next (s.rdmaAligned qpn psn (askAtomicWrite rkey va (leBytes 8 data.toNat)))

/-- RDMA_FLUSH (R159). -/
def execRdmaFlush (qpn psn rkey va len : Nat) (whole : Bool) (s : State) : Out :=
  .next (s.rdmaFlushDo qpn psn rkey va len whole)

/-- FLUSH_RESPONSE: sent once every write that the FLUSH waits for has reached its mirror point, in PSN order
(R159, R161). -/
def execFlushResponse (qpn psn : Nat) (s : State) : Out :=
  .next (s.qpWhen qpn (fun q => q.flushes.any fun f => f.psn == psn && !(f.reqs.any fun i => (s.reqs.get? i).isSome))
    fun t _ => ((t.modQp qpn fun q => { q with flushes := q.flushes.filter fun f => f.psn != psn }).respDue
      qpn psn .flush).settle)

/-- KEEPALIVE: renews the lease, whose lapse the environment times, and is answered (R136, R143). -/
def execKeepalive (qpn psn : Nat) (w : WcmHdr) (s : State) : Out := .next (s.keepaliveDo qpn psn w)

/-- MKEY_REGISTER (R166). -/
def execMkeyRegister (qpn psn : Nat) (w : WcmHdr) (region verbs tag rof va len : Nat) (s : State) : Out :=
  .next (s.wcmTake qpn psn keyService fun t q => t.wcmReply qpn 0x21 w 48 48 fun u =>
    u.keyRegister qpn q w region verbs tag rof va len)

/-- MKEY_INVALIDATE (R167). -/
def execMkeyInvalidate (qpn psn : Nat) (w : WcmHdr) (rkey : Nat) (s : State) : Out :=
  .next (s.wcmTake qpn psn keyService fun t q => t.wcmReply qpn 0x23 w 20 wcmMax fun u => u.keyInvalidate qpn q w rkey)

/-! ### Leases (R135, R136) and the device as requester (R169, R216) -/

/-- LEASE_LAPSE: an ACTIVE lease that was not renewed for its term lapses on this twin; its QPs go to ERROR
and its keys stay (R135, R136, R187). -/
def execLeaseLapse (host : Nat) (s : State) : Out :=
  .next (match s.leases.get? host with
    | some l => match l.state with
      | .active => ({ s with leases := s.leases.set host { l with state := .lapsed } }.flag Reg.rdxEvent 2).leaseQpsError host
      | _ => s
    | none => s)

/-- LEASE_RECORD_FREE: 10 s after the revoke command completed, the record is freed on both twins (R135). -/
def execLeaseRecordFree (host : Nat) (s : State) : Out :=
  .next (match s.leases.get? host with
    | some l => if l.state == .revoked && l.revokeDone then s.bothNow [.leaseErase host] else s
    | none => s)

/-- REQUESTER_ACK_TIMEOUT: the records outstanding are retransmitted after the backoff of R169, each under its PSN and after
CONS has been looked at again; after RETRY_CNT retransmissions the QP goes to ERROR and RETRY_EXHAUSTED is set (R169,
R215). -/
def execRequesterAckTimeout (qpn : Nat) (s : State) : Out :=
  .next (s.qpWhen qpn (fun q => qpIs .established q && !q.outstanding.isEmpty) fun t q =>
    if t.fld Reg.rdxReqRetry 7 5 ≤ q.retries then (t.qpError qpn).flag Reg.rdxEvent 3
    else (q.outstanding.foldl (fun (u : State) x => u.recordAgain qpn x) (t.modQp qpn fun x =>
      { x with retries := x.retries + 1 })).ctrLimit qpn)

/-- REQUESTER_ACK_RECEIVED: the oldest completion-record write outstanding is acknowledged (R216). -/
def execRequesterAckReceived (qpn : Nat) (s : State) : Out :=
  .next (s.qpWhen qpn (qpIs .established) fun t _ => t.modQp qpn fun x =>
    { x with outstanding := x.outstanding.drop 1, retries := 0 })

end Sys2Proof.Machine
end

