-- ==== Sys2Proof/Machine/Shaum.lean ====
section
/-! DEFINITION. Chapter 11: the Shaum Link's states, lane groups and keying, segments, resending, and what
each message does (R440–R456, R472–R477, R550–R552). -/

namespace Sys2Proof.Machine

/-! ### Link and lanes (R441, R442) -/

/-- A lane group. -/
def State.lane (s : State) (g : Nat) : Lane := s.twn.lanes.getD g {}

/-- Changes a lane group. -/
def State.modLane (s : State) (g : Nat) (f : Lane → Lane) : State :=
  { s with twn := { s.twn with lanes := s.twn.lanes.upd g {} f } }

/-- Whether the link is UP. -/
def State.linkIsUp (s : State) : Bool := match s.twn.link with
  | .up => true
  | _ => false

/-- Messages that leave again once the link is UP: those unacknowledged, and nothing half received (R447). -/
def State.linkLost (s : State) (st : LinkState) : State :=
  { s with twn := { s.twn with
      link := st, asm := []
      tx := s.twn.tx.mapV fun x => { x with sent := false, resends := 0, naks := 0 } } }

/-- Starts training: all four lane groups (R441, R442); a fenced twin's transmitters are off (R466). -/
def State.shaumTrain (s : State) : State :=
  if s.twn.fenceIn || !s.bit Reg.twnCtl 0 then s
  else match s.twn.link with
    | .down =>
      let t := { s with twn := { s.twn with link := .training } }
      [0, 1, 2, 3].foldl (fun (u : State) g =>
        (u.modLane g fun l => { l with up := false, retraining := true }).emit (.laneTrain g)) t
    | _ => s

/-- The link goes DOWN, with every lane group (R442, R466). -/
def State.shaumOff (s : State) : State :=
  let t := s.linkLost .down
  { t with twn := { t.twn with lanes := t.twn.lanes.mapV fun l => { l with up := false, retraining := false } } }

/-- What a change of LINK_EN does (R442, R484). -/
def State.linkEnDo (s : State) (was now : Bool) : State :=
  if now && !was then s.shaumTrain else if was && !now then s.shaumOff else s

/-- The link enters RETRAIN: every lane group that was up trains again; what is unacknowledged waits (R442,
R447). -/
def State.toRetrain (s : State) : State :=
  let gs := s.lanesUp
  let t := (s.linkLost .retrain).flag Reg.twnEvent 6
  gs.foldl (fun (u : State) g => (u.modLane g fun l => { l with up := false, retraining := true }).emit (.laneTrain g)) t

/-- A retrain of a link that is UP (R447, R448, R552). -/
def State.retrainUp (s : State) : State := if s.linkIsUp then s.toRetrain else s

/-- TWN_CMD.RETRAIN: from UP, or from MISMATCH once an appliance record is held (R442, R493). -/
def State.retrainCmd (s : State) : State :=
  match s.twn.link with
  | .up => s.toRetrain
  | .mismatch => if s.bit Reg.twnId 1 then s.toRetrain else s
  | _ => s

/-- The appliance identifier (R486). -/
def State.applianceId (s : State) : Nat := s.reg64 Reg.twnApplLo

/-- Sends a keying frame on the lowest-numbered lane group that has trained: KF_TYPE, LENGTH, BODY_CRC and the parts of the
body, each with its offset and bytes (R550). How many bytes the certificate chain has, and so the CRC over it, is a free
value. -/
def State.keyFrame (s : State) (kind len : Nat) (fields : List (Nat × Nat × Nat)) : State :=
  s.emit (.linkKey (s.lanesUp.headD 0) kind len (if fields.isEmpty then crc32c [] else
    Config.crypto ([0x550, kind, len] ++ fields.map fun e => e.2.2) % 2 ^ 32) fields)

/-- LINK_HELLO of twin 0: a nonce, a fresh encapsulation key, its appliance identifier and its chain (R550 step 1). -/
def State.helloSend (s : State) : State :=
  let d := s.draw
  let nonce := Config.random d.2 % 2 ^ 256
  let ek := Config.crypto [0x767, d.2] % 2 ^ 9472
  { d.1 with twn := { d.1.twn with linkKeys := { d.1.twn.linkKeys with nonce := nonce, ek := ek } } }.keyFrame 1
    (1224 + chainLen) [(16, 32, nonce), (48, 1184, ek), (1232, 8, s.applianceId)]

/-- The link enters KEYING; twin 0 sends LINK_HELLO (R442, R550). No key is drawn while the entropy source fails its
test (R563). -/
def State.toKeying (s : State) : State :=
  let t := { s with twn := { s.twn with
    link := .keying, linkKeys := { s.twn.linkKeys with ready := false }
    lanes := s.twn.lanes.mapV fun l => { l with retraining := l.retraining && !l.up } } }
  if t.twin || !t.sec.entropyOk then t else t.helloSend

/-- Whether a lane group that was up is still training again. -/
def State.lanesBusy (s : State) : Bool := s.twn.lanes.vals.any fun l => l.retraining && !l.up

/-- LANE_GROUP_TRAINED (R441, R442). -/
def execLaneGroupTrained (g : Fin 4) (s : State) : Out :=
  .next (
    let up := s.modLane g fun l => { l with up := true, retraining := false }
    match s.twn.link with
    | .down => s
    | .training => up.toKeying
    | .retrain => if up.lanesBusy then up else up.toKeying
    | .keying => up
    | .up => up
    | .mismatch => up)

/-- LANE_GROUP_DOWN: LG_DOWN, class DEGRADED, and its own retraining; the link goes DOWN with its last lane
group (R441, R442, R661). -/
def execLaneGroupDown (g : Fin 4) (s : State) : Out :=
  .next (
    if (s.lane g).up = false then s else
    let t := ((s.modLane g fun l => { l with up := false, retraining := true }).flag Reg.twnEvent 7).err1 13 .degraded
    match t.twn.link with
    | .mismatch => t.emit (.laneTrain g)
    | .retrain => t
    | _ => if t.lanesUp.isEmpty then t.shaumOff else t.emit (.laneTrain g))

/-- LANE_GROUP_RETRY: while the link is UP, a lane group that has not trained is tried again; a link that went
DOWN because none trained starts training again (R441, R442). -/
def execLaneGroupRetry (g : Fin 4) (s : State) : Out :=
  .next (match s.twn.link with
    | .up => if (s.lane g).up then s else (s.modLane g fun l => { l with retraining := true }).emit (.laneTrain g)
    | .down => s.shaumTrain
    | _ => s)

/-- LINK_TRAINING_TIMEOUT: no lane group trained within 500 ms (R442). In RETRAIN the link goes on with the
lane groups that have trained (DEDUCED from R441, log 26). -/
def execLinkTrainingTimeout (s : State) : Out :=
  .next (match s.twn.link with
    | .training => s.shaumOff
    | .retrain => if s.lanesUp.isEmpty then s.shaumOff else s.toKeying
    | _ => s)

/-! ### Keying (R440, R443, R550, R551) -/

/-- The firmware major version of the running image (R4, R527). -/
def State.fwMajor (s : State) : Nat := (if s.fw.running then s.fw.b.version else s.fw.a.version) / 2 ^ 24 % 256

/-- Whether R440's checks on identity hold. -/
def State.idOk (s : State) (twin : Bool) (id : Nat) (record : Bool) : Bool :=
  twin != s.twin && id == s.applianceId && record && s.bit Reg.twnId 1

/-- Whether R4 holds. -/
def State.majorOk (s : State) (variant major : Nat) : Bool := variant == b2n s.variantN && major == s.fwMajor

/-- The link enters MISMATCH (R440, R442): ID_MISMATCH and one event record, of GLB where R4 fails; a twin that
has not admitted hosts is HALTED (R509). -/
def State.mismatch (s : State) (r4 : Bool) : State :=
  let t := (s.linkLost .mismatch).flag Reg.twnEvent 10
  let t := if r4 then t.record 0x0002 0 (t.shows Reg.glbErrEvent).toNat 0
    else t.record 0x0D01 0 (t.shows Reg.twnEvent).toNat 0
  if t.admitted then t else t.setPhase 11

/-- The host ports of a twin whose fence has been released start again, once its link is UP or an operator forces
its regions online (R35, R701). -/
def State.hostsFree (s : State) : State :=
  if s.twn.hostsHeld = false || s.twn.fenceIn then s else
  let t := { s with twn := { s.twn with hostsHeld := false } }
  let t := if t.portBit 0 0 then t.linkEnable 0 false true else t
  if t.portBit 1 0 then t.linkEnable 1 false true else t

/-- The 120 bytes of H("HG-LINK", K, T): the link keys and salts of both directions and LS; K and T are no longer
held (R551). -/
def State.linkDerive (s : State) : State :=
  let o := Config.crypto [0x551, s.twn.linkKeys.k, s.twn.linkKeys.t]
  let k01 := bitsOf o 255 0
  let k10 := bitsOf o 511 256
  let s01 := bitsOf o 607 512
  let s10 := bitsOf o 703 608
  let keys : LinkKeys :=
    if s.twin then { txKey := k10, rxKey := k01, txSalt := s10, rxSalt := s01, ls := bitsOf o 959 704 }
    else { txKey := k01, rxKey := k10, txSalt := s01, rxSalt := s10, ls := bitsOf o 959 704 }
  { s with twn := { s.twn with linkKeys := keys } }

/-- Keying has succeeded: a new EPOCH, counters at 0, the region keys of every region, and what is
unacknowledged is sent (R443, R447, R551). The first EPOCH after a cold reset is random. Firmware locks TWN_ID
once the link has first reached UP (R440). -/
def State.linkUp (s₀ : State) : State :=
  let s := s₀.linkDerive
  let d := if s.twn.epochSet then (s, s.twn.epoch) else (s.draw.1, Config.random s.draw.2 % 65536)
  let t := d.1
  let t := { t with
    twn := { t.twn with
      link := .up, epoch := (d.2 + 1) % 65536, epochSet := true, keyed := true, asm := []
      lanes := t.twn.lanes.mapV fun l => { l with ctrTx := 0, ctrRx := 0 } }
    sec := { t.sec with keys := t.sec.keys.mapV fun k => { k with shaum := true } } }
  let t := t.setBit Reg.twnLock 0 true
  let t := if t.phase = 11 ∧ (t.chans.vals.all fun c => c.state != .failed) ∧ t.bit Reg.fmcEvent 6 = false
    then t.setPhase 5 else t
  (t.sendUnsent.hostsFree).settle

/-- Keying has failed: the link enters MISMATCH (R442, R550). -/
def State.keyingFailed (s : State) : State := { s with twn := { s.twn with link := .mismatch } }

/-- LINK_FAIL: a header alone (R550). -/
def State.failSend (s : State) : State := s.keyFrame 4 0 []

/-- T: 64 bytes of SHAKE256 over LINK_HELLO followed by LINK_REPLY up to its signature (R550 step 2). -/
def linkTranscript (nonce ek id nonce1 ct id1 : Nat) : Nat :=
  Config.crypto [0x54, nonce, ek, id, nonce1, ct, id1] % 2 ^ 512

/-- The ML-KEM-768 shared secret of an encapsulation key and a ciphertext. -/
def sharedSecret (ek ct : Nat) : Nat := Config.crypto [0x769, ek, ct] % 2 ^ 256

/-- A keying frame of the peer is checked; what follows a good one is sent (R440, R4, R550, R563). `ok` answers whether the
peer's chain, lifecycle state and signature pass. No key is drawn while the entropy source fails its test. -/
def State.keyCheck (s : State) (p : LinkPeer) (ok : Bool) (good : State → State) : State :=
  let u := s.flag Reg.secEvent 2
  if ok = false then (u.count (Reg.secCount + 8)).keyingFailed.failSend
  else if s.idOk p.twin p.id p.record = false then (u.mismatch false).failSend
  else if s.majorOk p.variant p.fwMajor = false then (u.mismatch true).failSend
  else if s.sec.entropyOk = false then s
  else good s

/-- Whether the link is in KEYING. -/
def State.isKeying (s : State) : Bool := match s.twn.link with
  | .keying => true
  | _ => false

/-- LINK_REPLY of twin 1: its nonce, the ciphertext to twin 0's key, its appliance identifier, its chain and its
signature over T (R550 step 2). -/
def State.replySend (s : State) (id nonce ek : Nat) : State :=
  let d := s.draw
  let nonce1 := Config.random d.2 % 2 ^ 256
  let ct := Config.crypto [0x768, ek, d.2] % 2 ^ 8704
  let t := linkTranscript nonce ek id nonce1 ct s.applianceId
  let sig := Config.crypto [0x65, t] % 2 ^ 26472
  (({ d.1 with twn := { d.1.twn with linkKeys := { d.1.twn.linkKeys with k := sharedSecret ek ct, t := t, sig := sig, ready := true } } }).count
    (Reg.secCount + 4)).keyFrame 2 (1128 + chainLen + 3309)
      [(16, 32, nonce1), (48, 1088, ct), (1136, 8, s.applianceId), (1144 + chainLen, 3309, sig)]

/-- LINK_HELLO at twin 1 (R550). -/
def execLinkHello (p : LinkPeer) (nonce ek : Nat) (ok : Bool) (s : State) : Out :=
  .next (if s.isKeying && s.twin then s.keyCheck p ok fun t => t.replySend p.id nonce ek else s)

/-- What twin 0 signs in LINK_CONFIRM: H("HG-LC", T, twin 1's signature) (R550 step 3). -/
def confirmDigest (t sig : Nat) : Nat := Config.crypto [0x4C43, t, sig] % 2 ^ 512

/-- LINK_CONFIRM of twin 0: its signature; then the keys are derived (R550 step 3, R551). -/
def State.confirmSend (s : State) (p : LinkPeer) (nonce1 ct sig : Nat) : State :=
  let k := s.twn.linkKeys
  let t := linkTranscript k.nonce k.ek s.applianceId nonce1 ct p.id
  let u := { s with twn := { s.twn with linkKeys := { k with k := sharedSecret k.ek ct, t := t, sig := sig } } }
  ((u.count (Reg.secCount + 4)).keyFrame 3 3309 [(16, 3309, Config.crypto [0x65, confirmDigest t sig] % 2 ^ 26472)]).linkUp

/-- LINK_REPLY at twin 0 (R550, R551). -/
def execLinkReply (p : LinkPeer) (nonce ct sig : Nat) (ok : Bool) (s : State) : Out :=
  .next (if s.isKeying && !s.twin then s.keyCheck p ok fun t => t.confirmSend p nonce ct sig else s)

/-- LINK_CONFIRM at twin 1, whose signature over `confirmDigest` verifies as `ok` answers (R550, R551). One before a
LINK_HELLO fails. -/
def execLinkConfirm (_sig : Nat) (ok : Bool) (s : State) : Out :=
  .next (if s.isKeying && s.twin then
    (if ok && s.twn.linkKeys.ready then s.linkUp
      else ((s.flag Reg.secEvent 2).count (Reg.secCount + 8)).keyingFailed.failSend) else s)

/-- LINK_FAIL (R550). -/
def execLinkFail (s : State) : Out :=
  .next (if s.isKeying then (s.flag Reg.secEvent 2).keyingFailed else s)

/-- Whether COUNTER of a lane group has reached 2^56 in either direction (R552). -/
def State.counterOver (s : State) (g : Nat) : Bool := decide (2 ^ 56 ≤ (s.lane g).ctrTx) || decide (2 ^ 56 ≤ (s.lane g).ctrRx)

/-- SHAUM_COUNTER_LIMIT: a COUNTER has reached 2^56, and the link is keyed afresh (R552). -/
def execShaumCounterLimit (g : Fin 4) (s : State) : Out := .next (if s.counterOver g then s.retrainUp else s)

/-! ### Segments and resending (R444–R448) -/

/-- RESEND_MAX (R462). -/
def State.resendMax (s : State) : Nat := s.fld Reg.twnShaum 11 8

/-- REASSEMBLY_TIMER_EXPIRY: SEG_NAK with the bitmap, flag and count (R446). -/
def execReassemblyTimerExpiry (seq : Nat) (s : State) : Out :=
  .next (match s.twn.asm.get? seq with
    | some a => if s.linkIsUp then
        (s.sendOnce (.segNak seq a.bitmap)).flag Reg.twnEvent 9 |>.count (Reg.twnCount + 4)
      else s
    | none => s)

/-- Changes a message that waits for its ACK. -/
def State.modTx (s : State) (seq : Nat) (f : TxMsg → TxMsg) : State :=
  { s with twn := { s.twn with tx := s.twn.tx.modify seq f } }

/-- MESSAGE_RESEND_TIMEOUT: the whole message again under its MSG_SEQ; once it has been resent RESEND_MAX times
the link retrains (R447). -/
def execMessageResendTimeout (seq : Nat) (s : State) : Out :=
  .next (match s.twn.tx.get? seq with
    | some x =>
      if !x.sent || !s.linkIsUp then s
      else if s.resendMax ≤ x.resends then s.toRetrain
      else ((s.modTx seq fun y => { y with resends := y.resends + 1 }).sendSegs seq x.msg).countBy Reg.twnCount (segCount x.msg)
    | none => s)

/-- Sends single segments of a message again, with new COUNTERs (R446). -/
def State.resendSegs (s : State) (seq : Nat) (m : ShaumMsg) (miss : List Nat) : State :=
  (s.sendSome seq m miss).countBy Reg.twnCount miss.length

/-- A SEG_NAK: only the missing segments are sent again; the last of RESEND_MAX for one message moves the link
to RETRAIN (R446, R447, log 123). -/
def State.onNak (s : State) (seq bitmap : Nat) : State :=
  match s.twn.tx.get? seq with
  | some x =>
    if !x.sent || !s.linkIsUp then s
    else if s.resendMax ≤ x.naks + 1 then s.toRetrain
    else (s.modTx seq fun y => { y with naks := y.naks + 1 }).resendSegs seq x.msg
      ((List.range (segCount x.msg)).filter fun i => !bitmap.testBit i)
  | none => s

/-- SEG_NAK (R446, R447). -/
def execSegNak (msgSeq bitmap : Nat) (s : State) : Out :=
  .next (if s.linkIsUp then (s.wakeFor .twin).onNak msgSeq bitmap else s)

/-- A tag that does not verify: counted, flagged; more than AUTH_LIMIT within a second retrain the link (R448). -/
def State.authBad (s : State) : State :=
  let l := (s.twn.authFails.filter fun x => decide (s.time < x + 10 ^ 9)) ++ [s.time]
  let t := ({ s with twn := { s.twn with authFails := l } }.count (Reg.twnCount + 8)).flag Reg.twnEvent 8
  if s.fld Reg.twnShaum 19 12 < l.length then
    let u := { t with twn := { t.twn with authFails := [] } }.toRetrain
    u.record 0x0D07 0 (u.shows Reg.twnEvent).toNat 0
  else t

/-! ### Acting on messages once (R447) -/

/-- The last `n` entries of a list. -/
def lastOf (n : Nat) (l : List Nat) : List Nat := (l.reverse.take n).reverse

/-- Puts a MSG_SEQ into the window of the last 65,536 acted on (R447). -/
def State.actOn (s : State) (seq : Nat) : State :=
  { s with twn := { s.twn with acted := lastOf 65536 (s.twn.acted ++ [seq]) } }

/-- A message that has been acted on: acknowledged again and counted (R447). -/
def State.dupMsg (s : State) (seq : Nat) : State := (s.ackMsg seq).count (Reg.twnCount + 0x10)

/-- Acts once on a complete message, and acknowledges it (R447); in Quiet it is a wake trigger (R617). Nothing arrives
while the link is not UP. -/
def State.takeMsg (s : State) (seq : Nat) (f : State → State) : State :=
  if !s.linkIsUp then s
  else
    let t := s.wakeFor .twin
    if t.twn.acted.contains seq then t.dupMsg seq
    else (f (t.actOn seq)).ackMsg seq

/-- The same for a message whose ACK comes later, when what it asks for has been done (R451, R477); `busy` says
that it is still under way. -/
def State.takeLater (s : State) (seq : Nat) (busy : Bool) (f : State → State) : State :=
  if !s.linkIsUp then s
  else
    let t := s.wakeFor .twin
    if busy then t
    else if t.twn.acted.contains seq then t.dupMsg seq
    else f (t.actOn seq)

/-! ### MIRROR and ACK (R450, R451) -/

/-- The request that a MIRROR message becomes (R450). -/
def mirrorReq (seq off : Nat) (m : MirrorMsg) : Req :=
  { src := .mirror seq, op := if m.tileSwitch then .tileSwitch else .write, host := m.host, region := m.region
    off := off, len := m.data.length, segs := [(m.psa, m.data.length)], data := m.data, map := m.poison
    pseq := m.pseq, reqId := m.reqId, result := m.result, cmp := b2n m.atomic, silent := !m.forwarded
    arg := m.entryTag }

/-- Whether a MIRROR is held here, waiting for its order, its tile or its lines. -/
def State.mirrorHeld (s : State) (seq : Nat) : Bool := s.reqs.vals.any fun r => match r.src with
  | .mirror q => q == seq
  | _ => false

/-- A MIRROR: applied in PSEQ order through the HLC, then acknowledged (R451). One for a region that this twin
owns comes from a peer that has lost it, and is not applied. -/
def State.onMirror (s : State) (seq : Nat) (m : MirrorMsg) : State :=
  s.takeLater seq (s.mirrorHeld seq) fun t =>
    match t.regions.get? m.region with
    | none => t
    | some r =>
      if r.ensign == .owner || m.data.isEmpty then t
      else (t.submit (mirrorReq seq (((t.regionOfPsa m.psa).map Prod.snd).getD 0) m)).1

/-- MIRROR (R450, R451). -/
def execMirror (seq : Nat) (m : MirrorMsg) (s : State) : Out := .next (s.onMirror seq m)

/-- The ACK of a MIRROR: its lines are no longer open, and its write has one message less to wait for (R20,
R294). -/
def State.mirrorAcked (s : State) (seq : Nat) (m : MirrorMsg) : State :=
  let t := (linesOf m.psa m.data.length).foldl State.closeLine s
  (t.reqs.filter fun e => e.2.msgs.contains seq).foldl (fun (u : State) e =>
    (u.modReq e.1 fun q => { q with msgs := q.msgs.filter (· != seq) }).writeDone e.1) t

/-- The ACK of a resynchronisation tile: SYNC_DIRTY is cleared (R477 steps 5 and 6). -/
def State.tileAcked (s : State) (tile : Nat) : State :=
  match s.regionOfTile tile with
  | none => s
  | some id =>
    let t := { s with twn := { s.twn with resync := s.twn.resync.modify id fun x =>
      { x with sent := x.sent.filter (· != tile) } } }
    (t.modTile tile fun e => { e with syncDirty := false }).resyncEnd id

/-- One acknowledged message (R447). -/
def State.ackOne (s : State) (seq : Nat) : State :=
  match s.twn.tx.get? seq with
  | none => s
  | some x =>
    let t := { s with twn := { s.twn with tx := s.twn.tx.erase seq } }
    match x.msg with
    | .mirror m => t.mirrorAcked seq m
    | .control _ =>
      let p := t.ctlDone seq
      (match p.2 with | some k => p.1.mbxPoll k | none => p.1)
    | .tileData tile _ _ true => t.tileAcked tile
    | .tileData _ _ _ false => { t with twn := { t.twn with pulled := t.twn.pulled.erase seq } }
    | _ => t

/-- An ACK releases the messages that it names (R447, R450). -/
def State.onAck (s : State) (seqs : List Nat) : State :=
  if s.linkIsUp then ((seqs.foldl State.ackOne (s.wakeFor .twin)).sendUnsent).settle else s

/-- SHAUM_ACK (R447). -/
def execShaumAck (seqs : List Nat) (s : State) : Out := .next (s.onAck seqs)

/-! ### Forwarded requests (R452, R453) -/

/-- The pieces of persistent space of a forwarded request: the translation with which it was admitted (R452). -/
def State.fwdSegs (s : State) (region off psa len : Nat) : List (Nat × Nat) :=
  if psa % gib + len ≤ gib then [(psa, len)] else s.segs (s.region region) (granules off len) off len

/-- A FORWARD: sequenced here, without a further check of state or rights (R452). -/
def State.onForward (s : State) (seq : Nat) (m : FwdMsg) : State :=
  s.takeMsg seq fun t => (t.submit {
    src := .forward m.tag m.host, op := m.op, host := m.host, region := m.region, off := m.off, len := m.len
    segs := t.fwdSegs m.region m.off m.psa m.len, data := m.data, poison := m.poison, arg := m.arg, cmp := m.cmp
    reqId := m.reqId, map := m.map }).1

/-- FORWARD (R452). -/
def execForward (seq : Nat) (m : FwdMsg) (s : State) : Out := .next (s.onForward seq m)

/-- A FWD_REPLY: the host is answered from it (R163, R165, R452). -/
def State.onFwdReply (s : State) (seq tag : Nat) (poisoned : Bool) (result : Nat) : State :=
  s.takeMsg seq fun t =>
    match t.reqs.get? tag with
    | some r =>
      if r.stage == .forwarded && isWrite r.op then
        (if poisoned then t.endReq tag .poisoned
         else ((t.modReq tag fun q => { q with result := result }).endReq tag (.written result)).countBy
           (Reg.rdxCount + 4 * 4) (match r.src with | .rdma .. => 1 | _ => 0)).settle
      else t
    | none => t

/-- FWD_REPLY (R452). -/
def execFwdReply (seq tag : Nat) (poisoned : Bool) (result : Nat) (s : State) : Out :=
  .next (s.onFwdReply seq tag poisoned result)

/-- A READ_REQ: answered from this twin's own copy (R453). -/
def State.onReadReq (s : State) (seq tag region off psa len : Nat) : State :=
  s.takeMsg seq fun t => (t.submit {
    src := .forward tag 0xFFFF, op := .read, host := 0xFFFF, region := region, off := off, len := len
    segs := t.fwdSegs region off psa len }).1

/-- READ_REQ (R453). -/
def execReadReq (seq tag region off psa len : Nat) (s : State) : Out := .next (s.onReadReq seq tag region off psa len)

/-- A READ_DATA: the next piece is asked for, or the read has its data (R27, R453). -/
def State.onReadData (s : State) (seq tag : Nat) (data : List Byte) (poison : List Bool) : State :=
  s.takeMsg seq fun t =>
    match t.reqs.get? tag with
    | some r =>
      if r.stage == .forwarded && !isWrite r.op then
        let r' := { r with data := r.data ++ data, map := r.map ++ poison, done := r.done + data.length }
        let u := t.modReq tag fun _ => r'
        if r.len ≤ r'.done || data.isEmpty then (u.endReq tag (.data (u.peerBytes tag r') (u.peerPoison tag r'))).settle
        else u.forwardRead tag r'
      else t
    | none => t

/-- READ_DATA (R453). -/
def execReadData (seq tag : Nat) (data : List Byte) (poison : List Bool) (s : State) : Out :=
  .next (s.onReadData seq tag data poison)

/-! ### Tiles (R254, R265, R477) -/

/-- A PROMO_HINT: a tile in flash starts its own promotion, which is counted; in any other home the hint is ignored (R254). -/
def State.onHint (s : State) (seq tile : Nat) : State :=
  s.takeMsg seq fun t =>
    if inFlash (t.tile tile).home then
      let u := t.startMove tile .promote .write []
      (if (t.moves.get? tile).isNone && (u.moves.get? tile).isSome then u.count (Reg.plcCount + 0x20) else u).settle
    else t

/-- PROMO_HINT (R254). -/
def execPromoHint (seq tile : Nat) (s : State) : Out := .next (s.onHint seq tile)

/-- A TILE_PULL: answered once no write to the tile is open here (R265 step 5). -/
def State.onPull (s : State) (seq tile : Nat) : State :=
  s.takeMsg seq fun t => { t with twn := { t.twn with pulls := insertNew t.twn.pulls tile } }.settle

/-- TILE_PULL (R265). -/
def execTilePull (seq tile : Nat) (s : State) : Out := .next (s.onPull seq tile)

/-- A TILE_DATA: a repair's reply is merged into its fresh frame (R265 step 6); a tile of a resynchronisation
waits for its tile to be in DRAM, and is then merged and acknowledged (R477 step 4). -/
def State.onTileData (s : State) (seq tile : Nat) (data : List Byte) (sectors : List SectorInfo) (resync : Bool) : State :=
  if resync then
    s.takeLater seq (s.twn.tilesIn.get? seq).isSome fun t =>
      { t with twn := { t.twn with tilesIn := t.twn.tilesIn.set seq { tile := tile, data := data, sectors := sectors } } }.settle
  else s.takeMsg seq fun t =>
    match t.moves.get? tile with
    | some m =>
      if m.kind == .repair && !m.late then
        ((t.mergeTile tile m.valid data sectors).modMove tile fun x => { x with late := true }).settle
      else t
    | none => t

/-- TILE_DATA (R265, R477). -/
def execTileData (seq tile : Nat) (data : List Byte) (sectors : List SectorInfo) (resync : Bool) (s : State) : Out :=
  .next (s.onTileData seq tile data sectors resync)

/-! ### Planned handoff (R455) -/

/-- An ENSIGN_OFFER: the region is owned here, the next persist sequence follows the peer's last, and the
queues are executed here (R210, R455 step 4). -/
def State.onOffer (s : State) (seq region pseq : Nat) : State :=
  s.takeMsg seq fun t =>
    if (t.regions.get? region).isSome && (t.region region).ensign == .peerOwns then
      let u := (t.modRegion region fun r => { r with ensign := .owner, owner := t.twin, pseq := pseq }).post (.ensignAccept region)
      (u.requeue region).settle
    else t

/-- ENSIGN_OFFER (R455). -/
def execEnsignOffer (seq region pseq : Nat) (s : State) : Out := .next (s.onOffer seq region pseq)

/-- An ENSIGN_ACCEPT: the region is the peer's; waiting writes are forwarded (R455 step 5). -/
def State.onAccept (s : State) (seq region : Nat) : State :=
  s.takeMsg seq fun t =>
    if (t.region region).ensign == .handing && (t.region region).offered then
      let u := t.modRegion region fun r => { r with ensign := .peerOwns, owner := !t.twin, offered := false }
      let u := { u with twn := { u.twn with handed := u.twn.handed + 1 } }
      ((u.dropFetched region).handStart.handEnd).settle
    else t

/-- ENSIGN_ACCEPT (R455). -/
def execEnsignAccept (seq region : Nat) (s : State) : Out := .next (s.onAccept seq region)

/-- HANDOFF_ACKS_DRAINED: every write sequenced to a HANDING region has its ACK; the offer goes out with the last
PSEQ (R455 steps 2 and 3). For region 0 the aperture's staged writes have been applied and committed too (R680). -/
def execHandoffAcksDrained (region : Fin 4096) (s : State) : Out :=
  .next (
    let r := s.region region
    if r.ensign == .handing && !r.offered && !s.regionOpen region && (region != 0 || (s.lapDrained && s.lap.reads.isEmpty)) then
      (s.modRegion region fun x => { x with offered := true }).post (.ensignOffer region r.pseq)
    else s)

/-- The newest valid save-outcome record with its slot (R419); one that an UNSAVED entry of the rail fault log names counts as
absent (R603). -/
def State.newestSlot (s : State) : Option (Nat × SaveRec) :=
  let l := s.elg.slots.filter fun e => s.slotValid e.1 && !(s.pws.log.any fun x => x.kind == 4 && x.saveGen == e.2.gen)
  l.foldl (fun a e => match a with
    | none => some e
    | some (b : Nat × SaveRec) => if b.2.gen < e.2.gen then some e else some b) none

/-- The newest valid save-outcome record (R419). -/
def State.newestRec (s : State) : Option SaveRec := s.newestSlot.map Prod.snd

/-- The spare save-outcome slot: the one that does not hold the newest record (R419, R421). -/
def State.spareSlot (s : State) : Nat := match s.newestSlot with
  | some (0, _) => 1
  | _ => 0

/-- The blocks of the spare slot. -/
def State.spareBlocks (s : State) : List Nat := [195 + 2 * s.spareSlot, 196 + 2 * s.spareSlot]

/-- Whether the spare slot is erased (R421). -/
def State.spareErased (s : State) : Bool := s.spareBlocks.all s.blockBlank

/-- After restore firmware erases the spare slot (R421). -/
def State.spareErase (s : State) : State :=
  let spare := s.spareSlot
  ({ s with elg := { s.elg with slots := s.elg.slots.filter fun e => e.1 != spare } }).eraseAsk 3
    (s.spareBlocks.filter fun b => !s.blockBlank b)

/-- The first admission after a reset (R34): PWS_SAVE_GEN is written, SAVE_ARM set, the spare slot being erased, and the image
that was restored released; LDs whose hosts have enabled memory become ACTIVE, and IMAGE stripe blocks that no tile
names are erased (R83, R86, R377, R386, R415, R421, R422 step 10, R603). -/
def State.admitHosts (s : State) : State :=
  if s.admitted || s.phase == 11 then s else
  let t := { s with
    admitted := true
    elg := { s.elg with slots := s.elg.slots.mapV fun x => { x with image := none } } }
  let t := t.setReg64 Reg.pwsSaveGenLo t.elg.saveGen
  let t := (if t.spareErased then t.setBit Reg.elgCtl 4 true else t).activateLds
  (t.fmc.blocks.filter fun e => e.2.state == .image).foldl (fun (u : State) e =>
    u.emptyCheck (e.1 / 65536) (e.1 % 65536)) t

/-- A region becomes ONLINE here by an operator's word: hosts are admitted, the host ports of a twin whose fence has
been released start again, and a PAIRED peer copies the region from here (R35, R423, R701). A HALTED twin admits no
host (R4). -/
def State.forceOnline (s : State) (id : Nat) : State :=
  if s.phase == 11 then s else
  let t := ((s.admitHosts.regionState id .online).hostsFree).notePhase
  let t := if t.paired then t.resyncRegion id (t.resyncTiles id [] true) else t
  (t.requeue id).settle

/-- What a change of CONTROL begins on the twin that it concerns: a region forced online here, or a planned handoff of
regions held here, begun or stopped (R423, R455, R511). -/
def State.changeStart (s : State) (c : Change) : State :=
  match c with
  | .force id auth => if auth = s.twin then s.forceOnline id else s
  | .handoff ids target go =>
    if target = s.twin then s
    else if go then s.startHandoff ids
    else { s with twn := { s.twn with handoffs := s.twn.handoffs.filter fun x => !ids.contains x } }.handEnd
  | .region _ r => if r.state == .online && s.paired && decide (5 ≤ s.phase) then s.admitHosts.notePhase else s
  | _ => s

/-! ### CONTROL and CQ_RELAY (R42, R472, R508) -/

/-- The object that a change of a command belongs to (R508); queue contexts travel at every fetch too, and decide
nothing. -/
def changeObj : Change → Option Nat
  | .region id _ => some (objRegion id)
  | .extent _ e => some (objLd e.ld)
  | .mkey i _ => some (objKey i)
  | .lease h _ => some (objLease h)
  | .leaseRevoke h => some (objLease h)
  | .leaseErase h => some (objLease h)
  | .binding ld _ => some (objLd ld)
  | .mode _ => some objTwin
  | .force id _ => some (objRegion id)
  | .time _ => some objTwin
  | .claim o => some o
  | _ => none

/-- Whether this twin's command goes first on an object: the holder of the region's Ensign for a region, twin 0
for any other (R508). -/
def State.decides (s : State) (obj : Nat) : Bool :=
  if obj < 4096 then (match (s.region obj).ensign with | .owner => true | .handing => true | _ => false) else !s.twin

/-- The instances whose commands change an object and wait for the peer to apply it. -/
def State.ctlOn (s : State) (obj : Nat) : List Nat :=
  (s.twn.ctl.filter fun e => (e.2.changes ++ e.2.made).any fun c => changeObj c == some obj).filterMap fun e => e.2.inst

/-- Commands that go second end with CONFLICT, and their changes are dropped (R508). -/
def State.ctlDrop (s : State) (ks : List Nat) : State :=
  let t := { s with twn := { s.twn with ctl := s.twn.ctl.mapV fun w =>
    if (match w.inst with | some k => ks.contains k | none => false) then { w with changes := [], inst := none } else w } }
  ks.foldl (fun (u : State) k => u.mbxStatus k jrConflict) t

/-- The commands that change an object go second (R508). -/
def State.ctlLoses (s : State) (obj : Nat) : State := s.ctlDrop (s.ctlOn obj)

/-- Whether a change takes an RGT entry or a granule that a change of this twin is taking at the same moment (R41). -/
def clashes (mine : List (Nat × Nat)) (c : Change) : Bool :=
  match c with
  | .rgt i g => mine.any fun e => e.1 == i || e.2 == g
  | _ => false

/-- The instances whose commands take an RGT entry or a granule that a CONTROL message of the peer takes. -/
def State.clashInsts (s : State) (cs : List Change) : List Nat :=
  (s.twn.ctl.vals.filter fun w => cs.any (clashes (w.changes.filterMap fun c => match c with
    | .rgt i g => some (i, g)
    | _ => none))).filterMap fun w => w.inst

/-- A region's descriptor and its granules, as a twin that lost its copy fetches them (R652). -/
def State.regionDesc (s : State) (id : Nat) : List Change :=
  let r := s.region id
  (match s.sec.keys.get? id with | some k => [Change.key id k.epoch k.rks] | none => [])
  ++ Change.region id { r with offered := false }
    :: (s.rgt.filter fun e => decide (r.rgtBase ≤ e.1) && decide (e.1 < r.rgtBase + r.size)).map (fun e => .rgt e.1 e.2)

/-- Whether a key's registration by the peer takes an index that a registration over a QP of this twin takes at the same
moment. -/
def keyClash (s : State) (c : Change) : Bool :=
  match c with
  | .mkey i k => k.live && s.rdx.replies.any fun r => r.type == 0x21 && rkeyIdx r.key == i && (s.twn.ctl.get? r.seq).isSome
  | _ => false

/-- Such a registration of this twin ends with NO_SPACE: twin 0's stands (the rule of R508 for other objects, DEDUCED,
log 138). -/
def State.keyLoses (s : State) (c : Change) : State :=
  match c with
  | .mkey i _ =>
    let lose := fun (r : KeyReply) => if r.type = 0x21 ∧ rkeyIdx r.key = i then { r with status := 2 } else r
    { s with rdx := { s.rdx with replies := s.rdx.replies.map lose } }
  | _ => s

/-- One change of a CONTROL message, with the choice of R508 where a command of this twin changes the same
object at the same moment. -/
def State.takeChange (s : State) (c : Change) : State :=
  match c with
  | .fetch id => s.post (.control (s.regionDesc id))
  | .fetchSlots id first => s.post (.control ((s.twn.window.filter fun e =>
      e.1 / 65536 == id && decide (first ≤ e.1 % 65536) && decide (e.1 % 65536 < first + 4)).map fun e =>
        .window id (e.1 % 65536) e.2.reqId e.2.host e.2.atomic e.2.result))
  | _ =>
  if keyClash s c && !s.twin then s else
  let s := if keyClash s c then s.keyLoses c else s
  let s := { s with err := { s.err with descFetch := s.err.descFetch.filter fun x => changeObj c != some (objRegion x) } }
  match changeObj c with
  | some o => if (s.ctlOn o).isEmpty then (s.applyChange c).changeStart c
    else if s.decides o then s else ((s.ctlLoses o).applyChange c).changeStart c
  | none => (s.applyChange c).changeStart c

/-- Whether a command of the peer claims a queue that a command of this twin, which goes first, changes at the same
moment (R508). -/
def State.claimLost (s : State) (c : Change) : Bool :=
  match c with
  | .claim o => !(s.ctlOn o).isEmpty && s.decides o
  | _ => false

/-- A CONTROL message: changes of descriptors and tables applied here too (R42, R508). Where both twins take the same
granules at one moment twin 0 goes first, so that regions never share one (R41; the rule of R508 for other objects,
DEDUCED, log 138). Its ACK is sent once every access that this twin had admitted under the old translation has completed
(R44, R51). -/
def State.onControl (s : State) (seq : Nat) (cs : List Change) : State :=
  s.takeLater seq (s.twn.ackHeld.get? seq).isSome fun t =>
    let meet := cs.any (clashes t.rgtPending)
    let t := if meet && t.twin then t.ctlDrop (t.clashInsts cs) else t
    let cs := if (meet && !t.twin) || cs.any t.claimLost then [] else cs
    let ids := cs.flatMap t.oldAccess
    let u := { t with twn := { t.twn with ackHeld := t.twn.ackHeld.set seq ids } }
    ((cs.foldl State.takeChange u).resyncStart).settle

/-- CONTROL (R449, R508). -/
def execControl (seq : Nat) (cs : List Change) (s : State) : Out := .next (s.onControl seq cs)

/-- A CQ_RELAY: written to this twin's target unless its own copy has been transmitted (R472). -/
def State.onRelay (s : State) (seq cq recSeq : Nat) (r : CqRec) : State :=
  s.takeMsg seq fun t =>
    match t.cq? cq with
    | some c =>
      if recSeq < c.sent then t
      else (if (c.recs.get? recSeq).isSome then t else t.cqAssign cq recSeq r).cqPump cq
    | none => t

/-- CQ_RELAY (R472). -/
def execCqRelay (seq cq recSeq : Nat) (r : CqRec) (s : State) : Out := .next (s.onRelay seq cq recSeq r)

/-! ### VERIFY (R480) -/

/-- LINE_CHECK of a sector of a tile: CRC-32C over data, PSEQ and salt; the complement where it is poisoned
(R101, R321, R322). -/
def State.lineCheck (s : State) (sector : Nat) : Nat :=
  let i := s.sector sector
  let c := crc32c (s.bytesAt (sector * 64) 64 ++ leBytes 4 i.pseq ++ leBytes 8 sector)
  if i.poison then c ^^^ 0xFFFFFFFF else c

/-- The CRC-32C over a tile's 64 pairs of LINE_CHECK and PSEQ, and its highest PSEQ (R480). -/
def State.tileCrc (s : State) (tile : Nat) : Nat × Nat :=
  (crc32c ((tileSectors tile).flatMap fun n => leBytes 4 (s.lineCheck n) ++ leBytes 4 (s.sector n).pseq),
   maxOf ((s.tileInfo tile).map fun i => i.pseq))

/-- A tile read for a comparison whose sectors fail their own checks is repaired (R480). -/
def State.verifyOwn (s : State) (tile : Nat) : State :=
  let bad := s.badSectors tile
  if bad.isEmpty then s else s.badRead tile bad false

/-- A VERIFY: the same over this twin's copy. With equal PSEQs and differing CRCs this twin's tile is repaired
from the owner's copy (R265, R480). -/
def State.onVerify (s : State) (seq tile crc pseq : Nat) : State :=
  s.takeMsg seq fun t =>
    let mine := t.tileCrc tile
    let u := (t.verifyOwn tile).post (.verifyReply tile mine.1 mine.2)
    (if mine.2 = pseq ∧ mine.1 ≠ crc then u.startRepair tile (u.openSectors tile) false else u).settle

/-- VERIFY (R480). -/
def execVerify (seq tile crc pseq : Nat) (s : State) : Out := .next (s.onVerify seq tile crc pseq)

/-- A VERIFY_REPLY: a race, a match, or a mismatch (R480). -/
def State.onVerifyReply (s : State) (seq tile crc pseq : Nat) : State :=
  s.takeMsg seq fun t =>
    match t.twn.verifyBusy.get? tile with
    | none => t
    | some mine =>
      let u := { t with twn := { t.twn with verifyBusy := t.twn.verifyBusy.erase tile } }
      if mine.2 ≠ pseq then { u with twn := { u.twn with races := u.twn.races + 1 } }
      else
        let u := { u with twn := { u.twn with sampled := u.twn.sampled + 1 } }
        if mine.1 = crc then u
        else ({ u with twn := { u.twn with mismatches := u.twn.mismatches + 1 } }.count (Reg.twnCount + 0x1C)).flagRecord
          Reg.twnEvent 11 0x0D09 ((u.regionOfTile tile).getD 0) tile

/-- VERIFY_REPLY (R480). -/
def execVerifyReply (seq tile crc pseq : Nat) (s : State) : Out := .next (s.onVerifyReply seq tile crc pseq)

/-! ### Resynchronisation (R477) -/

/-- The returning twin's side of a region's resynchronisation: RESYNC with the PSEQ from which MIRROR messages
follow and PINNED on exactly the listed tiles, then ONLINE (R477 steps 3, 4 and 6). A twin that rejoins serves the
region meanwhile (R43); at a cold start of both no host is admitted to it until it is ONLINE (R34). -/
def State.onResyncCtl (s : State) (seq region pseq : Nat) (start : Bool) (pinned : List Nat) : State :=
  s.takeMsg seq fun t =>
    if start then
      let t := { t with regions := t.regions.upd region {} fun r =>
        { r with ensign := .peerOwns, owner := !t.twin, offered := false, pseq := pseq } }
      let t := t.regionState region .resync
      let t := if s.twn.returned then t else { t with twn := { t.twn with coldSync := insertNew t.twn.coldSync region } }
      let t := (t.tilesIn region ((t.tiles.filter fun e => e.2.pinned && !pinned.contains e.1).map Prod.fst)).foldl
        (fun (u : State) x => u.modTile x fun e => { e with pinned := false }) t
      let t := pinned.foldl (fun (u : State) x => u.modTile x fun e => { e with pinned := true }) t
      let t := { t with twn := { t.twn with
        written := t.twn.written.filter fun e => t.regionOfTile e.1 != some region } }
      if t.twn.returned then t.admitHosts else t
    else if (t.region region).state == .resync then
      let t := { t with twn := { t.twn with coldSync := t.twn.coldSync.filter (· != region) } }
      let t := (t.admitHosts.regionState region .online).notePhase
      let t := if t.regions.vals.any fun r => r.state == .resync then t else t.flag Reg.twnEvent 13
      let w := t.twn.written.filter fun e => t.regionOfTile e.1 != some region
      ({ t with twn := { t.twn with written := w } }.servePinned).settle
    else t

/-- RESYNC_CTL (R477). -/
def execResyncCtl (seq region pseq : Nat) (start : Bool) (pinned : List Nat) (s : State) : Out :=
  .next (s.onResyncCtl seq region pseq start pinned)

/-- RESYNC_TILE_SEND: the owner sends a region's next tile that no open write touches (R477 step 4). -/
def execResyncTileSend (region : Fin 4096) (s : State) : Out :=
  .next (match s.twn.resync.get? region with
    | none => s
    | some x =>
      match x.todo.find? fun tile => !s.mirrorOpen tile && (s.moves.get? tile).isNone with
      | none => s
      | some tile =>
        if s.linkIsUp then
          let y : Resync := { todo := x.todo.filter (· != tile), sent := x.sent ++ [tile] }
          { s with twn := { s.twn with resync := s.twn.resync.set region y } }.post
            (.tileData tile (s.bytesAt (tile * 4096) 4096) (s.tileInfo tile) true)
        else s)

end Sys2Proof.Machine
end

