-- ==== Sys2Proof/Machine/Twin.lean ====
section
/-! DEFINITION. Chapter 11: Burgees and silent paths, the failure decision, fencing and takeover, release,
revertive return, and the standby self-test (R456–R471, R478–R482). -/

namespace Sys2Proof.Machine

/-! ### Burgees (R457, R458) -/

/-- The Burgee that this twin sends on a path, with its next BURGEE_SEQ (R457). -/
def State.burgeeNow (s : State) (tsb : Bool) : Burgee :=
  { twin := s.twin, state := s.twn.self, ledger := s.elg.state, fast := tsb && s.twn.fast, fwMajor := s.fwMajor
    applianceId := s.applianceId, seq := ((if tsb then s.twn.tsbTx else s.twn.shaumTx) + 1) % 2 ^ 32
    heard := if tsb then s.twn.tsbHeard else s.twn.shaumHeard, time := s.time, ensigns := s.ensigns
    fenceSeen := s.twn.fenceSeen, phase := s.phase }

/-- A Burgee on one lane group: a message of one segment under the link key (R443, R457). -/
def State.sendBurgee (s : State) (g seq : Nat) (b : Burgee) : State :=
  let n := (s.lane g).ctrTx
  let t := s.modLane g fun l => { l with ctrTx := n + 1, queue := s.laneQueue g + 64, since := s.time }
  (t.emit (.shaumSeg g (t.segHead seq (.burgee b) 0 n) (segIv s.twn.linkKeys.txSalt g n) s.twn.linkKeys.txKey)).emit
    (.shaum seq (.burgee b) (burgeeBytes b))

/-- SHAUM_BURGEE_INTERVAL: a Burgee on every up lane group, while the link is UP, or in MISMATCH (R442, R458). -/
def execShaumBurgeeInterval (s : State) : Out :=
  let go : Bool := match s.twn.link with | .up => true | .mismatch => true | _ => false
  .next (if go then s.lanesUp.foldl (fun (t : State) g =>
      let b := t.burgeeNow false
      let p := t.nextMsgSeq
      { p.1 with twn := { p.1.twn with shaumTx := b.seq } }.sendBurgee g p.2 b) s
    else s)

/-- Whether the TSB runs: TSB_EN is 1, and no save has powered it off (R416 phase 2, R484). -/
def State.tsbLive (s : State) : Bool := s.bit Reg.twnCtl 1 && decide (s.sagePhase < 2)

/-- TSB_BURGEE_INTERVAL: a TSB Burgee, while TSB_EN is 1 (R458, R484). -/
def execTsbBurgeeInterval (s : State) : Out :=
  .next (if s.tsbLive then
      let b := s.burgeeNow true
      { s with twn := { s.twn with tsbTx := b.seq } }.emit (.tsb b (burgeeBytes b))
    else s)

/-- FAST_MODE_EXPIRY: 10 ms after its causes have ended a twin leaves fast mode (R458). -/
def execFastModeExpiry (s : State) : Out :=
  .next (if s.twn.shaumSilent || s.twn.peerFast then s else { s with twn := { s.twn with fast := false } })

/-! ### The peer's state (R460, R487) -/

/-- Whether the peer has been declared failed or is held fenced: its state follows no path then. -/
def State.peerDown (s : State) : Bool := s.twn.fenceOut || s.twn.fence != .none

/-- The peer's state as its paths and its last Burgee give it (R460, R487). -/
def State.peerFollow (s : State) : State :=
  let st : PeerState := match (s.twn.peerB.map fun b => b.state : Option TwinState) with
    | some .fenced => .fenced
    | some .rejoin => .rejoining
    | _ =>
      if s.peerDown then (match s.twn.peer with | .rejoining => .fenced | x => x)
      else if s.twn.shaumSilent && s.twn.tsbSilent then .suspect
      else if s.twn.shaumSilent || s.twn.tsbSilent then .pathFault
      else .present
  { s with twn := { s.twn with peer := st } }

/-- A verified frame has arrived on a path: the path is no longer silent (R459, R460), unless the peer reports
hearing nothing on it (R458). -/
def State.heardOn (s : State) (tsb : Bool) : State :=
  let one := s.twn.oneWay.contains (b2n tsb)
  let t := { s with twn := { s.twn with
    heardPeer := true
    shaumSilent := if tsb || one then s.twn.shaumSilent else false
    tsbSilent := if tsb && !one then false else s.twn.tsbSilent } }
  match t.twn.peer with
  | .failed => t
  | .fenced => t
  | .rejoining => t
  | _ => t.peerFollow

/-- Counts missed Burgees (R482, R495). -/
def State.burgeeMiss (s : State) (n : Nat) : State :=
  { s with twn := { s.twn with burgeeMiss := s.twn.burgeeMiss + n } }.countBy (Reg.twnCount + 0x14) n

/-- Whether the peer announced a silence of its own (R461). -/
def State.peerLeaving (s : State) : Bool := match s.twn.peerB with
  | some b => b.state == .saving || b.state == .leaving
  | none => false

/-- Whether this twin is saving. -/
def State.selfSaving (s : State) : Bool := match s.twn.self with
  | .saving => true
  | _ => false

/-- Both paths are silent (R460, R461): before its first admission a twin counts its peer as one that has not
answered (R35); a peer that announced its silence is fenced at once, unless this twin saves too; any other is
SUSPECT. -/
def State.bothSilent (s : State) : State :=
  match s.twn.peer with
  | .failed => s
  | _ =>
    if s.peerDown then s
    else if s.admitted = false then { s with twn := { s.twn with peer := .suspect, heardPeer := false } }
    else if s.peerLeaving && !s.selfSaving then s.peerLost false
    else { s with twn := { s.twn with peer := .suspect } }

/-- A path goes silent: a wake trigger in Quiet, its flag and record, fast mode for a silent Shaum path, and what the
peer's state becomes (R458–R461, R463, R617). -/
def State.goSilent (s₀ : State) (tsb : Bool) : State :=
  let s := s₀.wakeFor .twin
  let t := if tsb then { s with twn := { s.twn with tsbSilent := true } }.flagRecord Reg.twnEvent 1 0x0D03 0 0
    else { s with twn := { s.twn with shaumSilent := true, fast := true, ensignsAtSilence := s.ensigns } }.flagRecord
      Reg.twnEvent 0 0x0D02 0 0
  let t := { t with twn := { t.twn with healthBits := t.twn.healthBits ||| 32 } }
  if t.twn.shaumSilent && t.twn.tsbSilent then t.bothSilent
  else match t.twn.peer with
    | .failed => t
    | .fenced => t
    | .rejoining => t
    | _ => if t.peerDown then t else { t with twn := { t.twn with peer := .pathFault } }

/-- SHAUM_PATH_SILENT: SHAUM_MISS intervals without a Burgee on any lane group (R459). -/
def execShaumPathSilent (s : State) : Out :=
  .next (if s.twn.shaumSilent then s else (s.burgeeMiss (s.fld Reg.twnHb 10 7)).goSilent false)

/-- TSB_PATH_SILENT: TSB_MISS intervals without a Burgee (R459). -/
def execTsbPathSilent (s : State) : Out :=
  .next (if s.twn.tsbSilent then s else (s.burgeeMiss (s.fld Reg.twnHb 28 25)).goSilent true)

/-! ### A Burgee received (R440, R457, R458, R461, R478) -/

/-- Whether a twin that reports a state and phase may become PAIRED (R457, R509). -/
def pairReady (st : TwinState) (phase : Nat) : Bool :=
  match st with
  | .single => true
  | .rejoin => true
  | .paired => true
  | .starting => decide (5 ≤ phase) && decide (phase ≤ 8)
  | _ => false

/-- Whether the twins become PAIRED now: Shaum Burgees flow, nothing is fenced, and both are ready. -/
def State.mayPair (s : State) (b : Burgee) : Bool :=
  !s.twn.mate && s.linkIsUp && !s.twn.fenceIn && !s.twn.fenceOut && s.twn.fence == .none
    && pairReady s.twn.self s.phase && pairReady b.state b.phase

/-- Follows HEARD_SEQ of a path: three Burgees in turn that report hearing nothing new, while this twin has sent
more, set ONE_WAY, and the path counts as silent (R458). -/
def State.hearBack (s : State) (tsb : Bool) (b : Burgee) : State :=
  let sent := if tsb then s.twn.tsbTx else s.twn.shaumTx
  let old := if tsb then s.twn.heardByTsb else s.twn.heardByShaum
  let stuck := b.heard == old && sent != b.heard && sent != 0
  let n := if stuck then (if tsb then s.twn.unheardTsb else s.twn.unheardShaum) + 1 else 0
  let t := if tsb then { s with twn := { s.twn with heardByTsb := b.heard, unheardTsb := n } }
    else { s with twn := { s.twn with heardByShaum := b.heard, unheardShaum := n } }
  if 3 ≤ n then
    let u := { t with twn := { t.twn with oneWay := insertNew t.twn.oneWay (b2n tsb) } }.flag Reg.twnEvent 15
    if (if tsb then u.twn.tsbSilent else u.twn.shaumSilent) then u else u.goSilent tsb
  else if stuck then t
  else { t with twn := { t.twn with oneWay := t.twn.oneWay.filter (· != b2n tsb) } }

/-- Checks the identity that a Burgee carries (R4, R440). -/
def State.burgeeId (s : State) (b : Burgee) : State :=
  match s.twn.link with
  | .mismatch => s
  | _ =>
    if s.idOk b.twin b.applianceId true = false then s.mismatch false
    else if b.fwMajor ≠ s.fwMajor ∧ s.admitted = false then s.mismatch true
    else s

/-- A good Burgee on a path; a TSB Burgee with FAST set is a wake trigger (R617). -/
def State.takeBurgee (s₀ : State) (tsb : Bool) (b : Burgee) : State :=
  let s := if tsb && b.fast then s₀.wakeFor .twin else s₀
  let t := { s with twn := { s.twn with
    peerB := some b
    shaumHeard := if tsb then s.twn.shaumHeard else b.seq
    tsbHeard := if tsb then b.seq else s.twn.tsbHeard
    peerFast := if tsb then b.fast else s.twn.peerFast
    fast := s.twn.fast || (tsb && b.fast) } }
  let t := (((t.hearBack tsb b).heardOn tsb).peerFollow).burgeeId b
  let t := if t.autoRelease && t.twn.releaseDeferred = false then t.releaseAsk else t
  if !tsb && t.mayPair b then t.pairUp else t

/-- A Burgee: one that fails its check is discarded, and counts as missed on the TSB (R446, R457). -/
def State.onBurgee (s : State) (tsb checkOk : Bool) (b : Burgee) : State :=
  let live : Bool := if tsb then s.tsbLive
    else (match s.twn.link with | .up => true | .mismatch => true | _ => false)
  if !live then s
  else if !checkOk then (if tsb then s.burgeeMiss 1 else s.count (Reg.twnCount + 4))
  else s.takeBurgee tsb b

/-- BURGEE (R457). -/
def execBurgee (tsb checkOk : Bool) (b : Burgee) (s : State) : Out := .next (s.onBurgee tsb checkOk b)

/-! ### The failure decision (R460, R463) -/

/-- CONFIRMATION_WINDOW_EXPIRY: both paths silent through the window; the peer has failed (R460). -/
def execConfirmationWindowExpiry (s : State) : Out :=
  .next (if s.twn.shaumSilent && s.twn.tsbSilent && s.admitted && !s.twn.fenceIn
      && (match s.twn.peer with | .suspect => true | _ => false) && !s.selfSaving
    then (s.flag Reg.twnEvent 2).peerLost true else s)

/-- Whether this twin keeps service after the Shaum hold: it held more Ensigns when the Shaum path went silent,
and twin 0 on a tie (R463). -/
def State.keepsService (s : State) : Bool := match s.twn.peerB with
  | some b => decide (b.ensigns < s.twn.ensignsAtSilence) || (b.ensigns == s.twn.ensignsAtSilence && !s.twin)
  | none => false

/-- SHAUM_HOLD_EXPIRY: the Shaum path silent with a live TSB past the hold (R463). -/
def execShaumHoldExpiry (s : State) : Out :=
  .next (if s.twn.shaumSilent && !s.twn.tsbSilent && s.twn.mate && s.admitted && !s.twn.fenceIn && !s.linkIsUp
      && !s.selfSaving && s.keepsService
    then s.peerLost false else s)

/-! ### Fencing and takeover (R466–R470) -/

/-- FENCE_DEFER_EXPIRY: twin 1's defer has ended (R467 steps 1 to 3). -/
def execFenceDeferExpiry (s : State) : Out := .next (if s.twn.fence == .defer then s.fenceNow else s)

/-- FENCE_SETTLE_EXPIRY: the settle has ended; the regions whose Ensign the peer held are TAKING (R454, R467 steps 4
and 5). -/
def execFenceSettleExpiry (s : State) : Out :=
  .next (if s.twn.fence == .settle then { s with
      regions := s.regions.mapV fun r => if r.ensign == .peerOwns then { r with ensign := .taking } else r
      twn := { s.twn with fence := .taking } }
    else s)

/-- TAKEOVER (R470); during a live activation it waits for the new firmware (R517). -/
def execTakeover (s : State) : Out := .next (if s.twn.fence == .taking && !s.fw.halted && s.awake then s.takeOver else s)

/-- A forced takeover: the peer is fenced without checking the fence path, recorded as forced (R468). -/
def State.forceTakeover (s : State) : State :=
  if s.twn.fence != .none then s
  else { s with twn := { s.twn with forced := true, peer := .failed } }.withdraw.fenceNow

/-- TWN_CMD.FENCE: asserts TWIN_FENCE_OUT (R493). -/
def State.fenceCmd (s : State) : State :=
  if s.twn.fenceOut then s else (s.driveFence true).flag Reg.twnEvent 3

/-- A QP's context is lost: its index is free again under the next generation (R31, R153). -/
def State.qpLost (s : State) (idx : Nat) : State :=
  (({ s with rdx := { s.rdx with qps := s.rdx.qps.modify idx fun q => { q with state := .quarantine } } }).mbxReset
    (2 ^ 32 + s.qpnOf idx)).qpFree idx

/-- Host connections end: ports forced off, queue pairs lost, commands held for a port's mailbox lost (R31, R106,
R466, R522). -/
def State.hostsOff (s : State) (fence : Bool) : State :=
  let t := s.portsOff fence
  let t := (List.range 8).foldl (fun (u : State) n => u.netDown n) t
  let t := t.rdx.qps.keys.foldl State.qpLost t
  (List.range 32).foldl (fun (u : State) k => if (u.mbx.get? k).isSome then u.modMb k fun m => { m with held := none } else u) t

/-- Commands of this twin that wait for the peer end: the owner of the object completes what is half applied
(R522). -/
def State.dropCtl (s : State) : State :=
  let ks := s.twn.ctl.vals.filterMap fun w => w.inst
  ks.foldl (fun (u : State) k => u.mbxStatus k jrPeerAbsent) { s with twn := { s.twn with ctl := [] } }

/-- Every region that this twin has goes OFFLINE here, and the peer holds its Ensign (R31, R469, R470). -/
def State.yieldRegions (s : State) : State :=
  s.regions.keys.foldl (fun (t : State) id =>
    let u := if admits (t.region id).state then t.regionState id .offline else t
    u.modRegion id fun r => { r with ensign := .peerOwns, owner := !t.twin, offered := false }) s

/-- The tiles of the lines that are open: the rejoin list (R469). -/
def State.openTiles (s : State) : List Nat :=
  ((s.hlc.ways.vals.filter fun w => w.opens != 0).map fun w => w.tile).foldl insertNew []

/-- What stops on a fenced twin: requests, commands and messages in flight are discarded (R31); its registers keep their
values (R240). -/
def State.dropWork (s : State) : State :=
  let t := s.reqs.keys.foldl State.dropReq s
  { t with
    cmds := [], sqWait := []
    hlc := { t.hlc with ways := t.hlc.ways.mapV fun w => { w with opens := 0 } }
    lap := { t.lap with staged := [] }
    rdx := { t.rdx with replies := [], heldCm := [] }
    twn := { t.twn with
      tx := [], pulls := [], pulled := [], tilesIn := [], resync := [], copy := [], verifyBusy := [], peerRejoin := none
      ackHeld := [], coldSync := [] } }

/-- TWIN_FENCE_IN_ASSERT: the input is high for `ns`; an assertion of 2 µs fences the twin (R31, R466, R469, R705). -/
def execTwinFenceInAssert (ns : Nat) (s : State) : Out :=
  .next (
    if s.twn.fenceIn || ns < 2000 then s else
    let t := { s with twn := { s.twn with
      fenceIn := true, hostsHeld := true, fence := .none, forced := false, mate := false, paired := false
      rejoin := s.openTiles.foldl insertNew s.twn.rejoin } }.flag Reg.twnEvent 4
    let t := t.withdraw.dropCtl.dropWork.hostsOff true |>.shaumOff.yieldRegions
    let t := { t with
      admitted := false
      twn := { t.twn with self := (match t.twn.self with | .saving => .saving | _ => .rejoin) } }
    (if t.selfSaving then t else t.setPhase 10).settle)

/-- TWIN_FENCE_IN_RELEASE: the input is low for `ns`; after 10 µs the link trains again, and the host ports stay off
until it is UP (R466, R701, R705). -/
def execTwinFenceInRelease (ns : Nat) (s : State) : Out :=
  .next (
    if s.twn.fenceIn = false || ns < 10000 then s else
    { s with twn := { s.twn with fenceIn := false } }.shaumTrain)

/-- FENCE_TEST_PULSE_SEEN: a pulse of `ns` on TWIN_FENCE_IN; one of 100 ns to 1 µs is counted in FENCE_SEEN, modulo
65,536 (R457, R466, R705). -/
def execFenceTestPulseSeen (ns : Nat) (s : State) : Out :=
  .next (if 100 ≤ ns ∧ ns ≤ 1000 then { s with twn := { s.twn with fenceSeen := (s.twn.fenceSeen + 1) % 65536 } } else s)

/-- What the peer reports as FENCE_SEEN. -/
def State.peerSeen (s : State) : Nat := match s.twn.peerB with
  | some b => b.fenceSeen
  | none => 0

/-- FENCE_TEST_PULSE_SEND: a 200 ns pulse, while TWIN_FENCE_OUT is not asserted (R468). -/
def execFenceTestPulseSend (s : State) : Out :=
  .next (if s.twn.fenceOut then s else
    { s with twn := { s.twn with
        pulses := s.twn.pulses + 1, pulseBase := if s.twn.pulses = 0 then s.peerSeen else s.twn.pulseBase } }.emit .fencePulse)

/-- FENCE_TEST_CHECK: two periods after a pulse the peer's FENCE_SEEN has counted one, or the fence path is at
fault (R468). -/
def execFenceTestCheck (s : State) : Out :=
  .next (
    if s.twn.pulses = 0 || s.twn.fenceOut then s
    else if s.peerSeen ≠ s.twn.pulseBase then
      { s with twn := { s.twn with fenceOk := true, pulseBase := s.peerSeen } }
    else ({ s with twn := { s.twn with fenceOk := false, healthBits := s.twn.healthBits ||| 16 } }.count
      Reg.twnFenceFail).flagRecord Reg.twnEvent 5 0x0D05 0 0)

/-! ### Release and return (R456, R478) -/

/-- RELEASE_LINK_TIMEOUT: no link within 10 s of a release; the fence is asserted again (R478). -/
def execReleaseLinkTimeout (s : State) : Out :=
  .next (if s.twn.fenceOut || s.twn.lastRelease.isNone || s.linkIsUp then s
    else
      let t := s.driveFence true
      t.record 0x0D08 0 (t.shows Reg.twnEvent).toNat 0)

/-- RELEASE_DEFER_EXPIRY: a deferred release takes effect if its conditions still hold (R478). -/
def execReleaseDeferExpiry (s : State) : Out :=
  .next (
    if s.twn.releaseDeferred = false then s else
    let t := { s with twn := { s.twn with releaseDeferred := false } }
    if t.twn.fenceOut && (t.autoRelease || !t.bit Reg.twnCtl 4 || t.twn.releaseInst.isSome) then t.releaseNow else t)

/-- REVERT_HOLDOFF_EXPIRY: regions whose PREF_OWNER is the peer are handed back (R456). -/
def execRevertHoldoffExpiry (s : State) : Out :=
  .next (
    let ids := (s.regions.filter fun e => e.2.ensign == .owner && e.2.prefOwner != s.twin).map Prod.fst
    if s.paired && s.twn.resync.isEmpty && s.twn.peerRejoin.isNone && !s.twn.fenceIn && !s.twn.fenceOut
        && (s.regions.vals.all fun r => r.state == .online) && !ids.isEmpty
    then ({ s with twn := { s.twn with reverting := true } }.startHandoff ids).settle else s)

/-! ### Standby self-test (R479–R483) -/

/-- Whether the twin is in WATCH mode (R484). -/
def State.watching (s : State) : Bool := !s.bit Reg.twnCtl 3

/-- WATCH_SAMPLE: a tile of a region that this twin owns, with no open write and no move, is compared with the
peer's (R480). -/
def execWatchSample (tile : Nat) (s : State) : Out :=
  .next (
    let mine : Bool := match s.regionOfTile tile with
      | some id => (s.region id).ensign == .owner
      | none => false
    if s.watching && s.paired && mine && !s.mirrorOpen tile && !(s.tile tile).lock then
      let t := { s with twn := { s.twn with verifyBusy := s.twn.verifyBusy.set tile (s.tileCrc tile) } }
      ((t.verifyOwn tile).post (.verify tile (s.tileCrc tile).1 (s.tileCrc tile).2)).settle
    else s)

/-- WATCH_SCRUB_PERIOD: a scrub pass over all the DRAM (R344, R479). -/
def execWatchScrubPeriod (s : State) : Out :=
  .next (
    if s.watching && !s.bit Reg.dmcScrubCtl 31 then
      let t := (s.setReg64 Reg.dmcScrubStartLo 0).setReg64 Reg.dmcScrubEndLo (s.dramBytes - 1)
      (t.setFld Reg.dmcScrubCtl 15 0 0xFFFF).scrubBegin
    else s)

/-- An engine that fails its test: TE and XE (0 to 19) are removed from scheduling, any other takes the twin out
of service (R481, R652, R661). -/
def State.engineFailed (s : State) (e : Nat) : State :=
  let t := { s with twn := { s.twn with engineFail := insertNew s.twn.engineFail e } }.flagRecord Reg.twnEvent 12 0x0D0A e 0
  if e < 20 then { t.err1 13 .contained with
    err := { (t.err1 13 .contained).err with removed := insertNew t.err.removed e } }
  else (t.err1 13 .fatal).leaveService

/-- ENGINE_SELF_TEST: one idle microcode engine each second in WATCH (R479, R481). -/
def execEngineSelfTest (engine : Fin 28) (pass : Bool) (s : State) : Out :=
  .next (
    if s.watching then
      let t := { s with twn := { s.twn with enginesTested := s.twn.enginesTested + 1 } }.emit (.selfTest engine)
      if pass then t else (t.engineFailed engine).settle
    else s)

/-- Sends a notice on every management event queue whose mask selects it and whose QP is up (R665). -/
def State.noticeTo (s : State) (bit opcode : Nat) (body : List Nat) : State :=
  s.evq.vals.foldl (fun (t : State) q =>
    if q.mask.testBit bit && (match t.qp? q.qpn with | some x => x.state == .established | none => false)
    then t.noticeSend q.qpn opcode body else t) s

/-- RESULT of a health record (R482). -/
def State.healthResult (s : State) : Nat :=
  (s.twn.healthBits &&& 48) + b2n (s.twn.mismatches != 0) + 2 * b2n (!s.twn.engineFail.isEmpty)
    + 4 * b2n (s.reg (Reg.dmcScrubCounts) != 0) + 8 * b2n (s.twn.flashUncorr != 0)

/-- The first 15 words of the health record (R482, R483); `pct` is the progress of the scrub pass. -/
def State.healthWords (s : State) (pct : Nat) : List Nat :=
  let w := b2n s.watching
  [s.twn.healthSeq % 2 ^ 32,
   b2n (!s.watching) + 2 * b2n (s.twn.paired && s.twn.mate) + 2 ^ 8 * s.healthResult,
   s.time % 2 ^ 32, s.time / 2 ^ 32 % 2 ^ 32, w * s.twn.sampled, s.twn.races, s.twn.mismatches,
   s.twn.engineFail.foldl (fun a e => a + 2 ^ e) 0,
   w * (s.twn.enginesTested % 2 ^ 16) + 2 ^ 16 * (w * pct),
   (s.reg Reg.dmcScrubCounts).toNat, s.twn.flashUncorr, s.twn.burgeeMiss, 0, 0, 0]

/-- HEALTH_RECORD: written into TWN_HEALTH, delivered on the management event queues, and recorded when RESULT is
not 0; the period's counts start again (R482, R583, R665). The progress of a running scrub pass is a free value. -/
def execHealthRecord (s : State) : Out :=
  .next (
    let d := s.draw
    let pct := if s.bit Reg.dmcScrubCtl 31 then Config.choice d.2 % 101 else 0
    let w := s.healthWords pct
    let ws := w ++ [crc32c (w.flatMap fun x => leBytes 4 x)]
    let t := (List.range 16).foldl (fun (u : State) i => u.setReg (Reg.twnHealth + 4 * i) (w32 (ws.getD i 0))) d.1
    let t := t.noticeTo 30 0x0081 ws
    let t := if s.healthResult = 0 then t else t.record 0x0D0B 0 (t.shows Reg.twnEvent).toNat s.healthResult
    { t with twn := { t.twn with
        healthSeq := t.twn.healthSeq + 1, sampled := 0, races := 0, mismatches := 0, engineFail := []
        enginesTested := 0, flashUncorr := 0, burgeeMiss := 0, healthBits := 0, paired := t.twn.mate } })

end Sys2Proof.Machine
end

