-- ==== Sys2Proof/Machine/PwsCore.lean ====
section
/-! DEFINITION. The rail supervisor's shared operations: the rail table, enabling and completing groups, the fault
log, and the power-down sequence (R593–R611). -/

namespace Sys2Proof.Machine

/-! ### The rail table (R593, R622) -/

/-- The offset of PWS_RAIL_CFG of a rail (R622). -/
def railReg (n : Nat) : Nat := Reg.pwsRailCfg0 + 16 * n

/-- PRESENT. -/
def State.railPresent (s : State) (n : Nat) : Bool := s.bit (railReg n) 15

/-- INPUT: the rail senses the input bus (R593). -/
def State.railInput (s : State) (n : Nat) : Bool := s.bit (railReg n) 10

/-- SAVE_NEED. -/
def State.railNeed (s : State) (n : Nat) : Bool := s.bit (railReg n) 12

/-- GROUP of a rail. -/
def State.railGroup (s : State) (n : Nat) : Nat := s.fld (railReg n) 5 3

/-- A rail. -/
def State.rail (s : State) (n : Nat) : Rail := s.pws.rails.getD n {}

/-- Changes a rail. -/
def State.modRail (s : State) (n : Nat) (f : Rail → Rail) : State :=
  { s with pws := { s.pws with rails := s.pws.rails.upd n {} f } }

/-- PRESENT rails of a group. -/
def State.groupRails (s : State) (g : Nat) : List Nat :=
  (List.range 32).filter fun n => s.railPresent n && s.railGroup n == g

/-- Drives RAIL_EN; that of an INPUT rail is never driven high (R593). -/
def State.railDrive (s : State) (n : Nat) (on : Bool) : State :=
  if s.railInput n && on then s else s.emit (.railEn n on)

/-- Whether a rail counts as qualified for sequencing: qualified, or failed with action IGNORE (R600, R602). -/
def railOk (r : Rail) : Bool :=
  r.ignored || (match r.state with | .qualified => true | _ => false)

/-- Whether a reading and RAIL_PG are good (R596). -/
def State.railGood (s : State) (n reading : Nat) (pg : Bool) : Bool :=
  (!s.bit (railReg n) 14 || pg)
    && (!s.bit (railReg n) 13 || (decide (s.fld (railReg n + 4) 11 0 ≤ reading) && decide (reading ≤ s.fld (railReg n + 4) 27 16)))

/-- The cause of a visit that is not good: under the window, over it, or RAIL_PG low (R610). -/
def State.railCause (s : State) (n reading : Nat) : Nat :=
  if s.bit (railReg n) 13 && decide (reading < s.fld (railReg n + 4) 11 0) then 1
  else if s.bit (railReg n) 13 && decide (s.fld (railReg n + 4) 27 16 < reading) then 2 else 3

/-- Appends an entry to the rail fault log (R610). -/
def State.railLog (s : State) (kind n cause : Nat) : State :=
  s.railAppend {
      kind := kind, rail := n, group := s.railGroup n, cause := cause, retries := (s.rail n).retries
      reading := (s.rail n).reading, time := s.time
      saveGen := if kind = 4 then s.reg64 Reg.pwsSaveGenLo else 0 }
    (match s.pws.seq with | .powerDown => true | _ => false)

/-- PWS_FIRST_OP or PWS_FIRST_PD as it captures a fault (R624). -/
def captureWord (n cause reading : Nat) : Word :=
  w32 (2 ^ 31 + reading % 2 ^ 12 * 2 ^ 12 + cause % 2 ^ 4 * 2 ^ 8 + n % 2 ^ 5)

/-! ### Power-up (R600, R604) -/

/-- Whether every PRESENT rail of a group counts as qualified (R600). -/
def State.groupOk (s : State) (g : Nat) : Bool := (s.groupRails g).all fun n => railOk (s.rail n)

/-- Whether the sequencer powers up. -/
def State.poweringUp (s : State) : Bool := match s.pws.seq with
  | .powerUp => true
  | _ => false

/-- The group being sequenced has become complete: the AON island is released after group 0, the next group
follows after its delay, and after group 7 SEQ is ON, the restart count is 0 and the islands are released
(R600, R604). -/
def State.groupNext (s : State) (g : Nat) : State :=
  if g = 0 then { s with pws := { s.pws with aonGood := true } }
  else if g = 7 then
    { s with pws := { s.pws with seq := .on, restarts := 0 }, isl := { s.isl with gated := [] } }
  else { s with pws := { s.pws with group := g + 1, groupDelay := true } }

/-- Follows whether a group is complete (R600). -/
def State.noteGroup (s : State) (g : Nat) : State :=
  if s.groupOk g = false then { s with pws := { s.pws with complete := s.pws.complete.filter (· != g) } }
  else if s.pws.complete.contains g then s
  else
    let t := { s with pws := { s.pws with complete := s.pws.complete ++ [g] } }
    if t.poweringUp && g == t.pws.group && !t.pws.groupDelay then t.groupNext g else t

/-- Enables a group (R600). -/
def State.enableGroup (s : State) (g : Nat) : State :=
  let t := (s.groupRails g).foldl (fun (u : State) n =>
    (u.modRail n fun r => { r with state := .ramping, good := 0, retries := 0, ignored := false }).railDrive n true)
    { s with pws := { s.pws with group := g, groupDelay := false, aonGood := s.pws.aonGood && g != 0 } }
  t.noteGroup g

/-- Starts power-up at step 1 of R600. -/
def State.powerUp (s : State) : State :=
  { s with pws := { s.pws with seq := .powerUp, complete := [], down := .other } }.enableGroup 0

/-- PWS_CTL.UP starts groups 1 to 7 once group 0 is complete (R600). -/
def State.pwsUp (s : State) : State :=
  if s.poweringUp && s.pws.group == 0 && s.pws.complete.contains 0 then
    { s with pws := { s.pws with group := 1, groupDelay := true } }
  else s

/-! ### Power-down (R602, R605–R608) -/

/-- Whether a rail has finished discharging. -/
def railDone (r : Rail) : Bool :=
  match r.state with
  | .discharged => true
  | .timedOut => true
  | _ => false

/-- Whether a power-down, or the switching off of groups by GROUP_OFF, is running. -/
def State.powerDownRuns (s : State) : Bool :=
  (match s.pws.seq with | .powerDown => true | _ => false)
    || (match s.pws.down with | .groupOff => s.pws.downGroup < 8 | _ => false)

/-- Ends a power-down whose last group has discharged, according to its cause (R604, R608). -/
def State.downEnd (s : State) : State :=
  match s.pws.down with
  | .groupOff => { s with pws := { s.pws with downGroup := 8 } }
  | .planned => { s with pws := { s.pws with seq := .halted, downGroup := 8 } }
  | .systemReset =>
    if 2 ≤ s.pws.restarts then
      ({ s with pws := { s.pws with seq := .halted, downGroup := 8 } }).flag Reg.pwsEvent 7
    else { s with pws := { s.pws with seq := .hold, downGroup := 8 } }
  | .other =>
    if s.pws.pwrOk then { s with pws := { s.pws with seq := .hold, downGroup := 8 } }
    else { s with pws := { s.pws with seq := .off, restartPending := true, downGroup := 8 } }

/-- Drives RAIL_EN low on every PRESENT rail of a group (R605 step 1); without group 0 the AON island stops (R593). -/
def State.disableGroup (s : State) (g : Nat) : State :=
  (s.groupRails g).foldl (fun (u : State) n =>
    if railDone (u.rail n) then u
    else (u.modRail n fun r => { r with state := .discharging, good := 0, ignored := false }).railDrive n false)
    { s with pws := { s.pws with
      downGroup := g, complete := s.pws.complete.filter (· != g), aonGood := s.pws.aonGood && g != 0 } }

/-- Goes on with the power-down: a group whose rails have all finished is followed by the next lower one; group 0 waits until
every queued entry of the rail fault log has been programmed (R605). -/
def State.downGo : Nat → State → State
  | 0, s => s
  | n + 1, s =>
    if (s.groupRails s.pws.downGroup).all fun k => railDone (s.rail k) then
      if s.pws.downGroup ≤ s.pws.downStop then s.downEnd
      else if s.pws.downGroup = 1 ∧ s.pendOf 3 then s
      else (s.disableGroup (s.pws.downGroup - 1)).downGo n
    else s

/-- Goes on with a power-down that is running. -/
def State.downCheck (s : State) : State := if s.powerDownRuns then s.downGo 8 else s

/-- Starts the power-down sequence (R605); from a sequencer that is off, halted or already powering down nothing
starts. -/
def State.downStart (s : State) (c : DownCause) : State :=
  let live : Bool := match s.pws.seq with | .powerUp => true | .on => true | _ => false
  if !live then s else
  let t := { s.setReg Reg.pwsFirstPd 0 with
    pws := { s.pws with seq := .powerDown, down := c, downStop := 0, groupDelay := false } }
  (t.disableGroup 7).downGo 8

/-- GROUP_OFF: groups 7 down to the rail's group are switched off; later groups are never started (R602). -/
def State.groupsOff (s : State) (g : Nat) : State :=
  if (match s.pws.seq with | .powerDown => true | _ => false) then s else
  let stop := match s.pws.down with
    | .groupOff => min g s.pws.downStop
    | _ => g
  let t := { s with pws := { s.pws with down := .groupOff, downStop := stop, groupDelay := false } }
  (t.disableGroup 7).downGo 8

end Sys2Proof.Machine
end

