-- ==== Sys2Proof/Machine/Psb.lean ====
section
/-! DEFINITION. The PSB controller (R638–R641, R646, R647): one transaction at a time, ELG's before firmware's, with
retries, stuck ports and results. -/

namespace Sys2Proof.Machine

/-- PSB port of the holdup module (R645). -/
def State.holdupPort (s : State) : Nat := s.fld Reg.twbHoldup 8 7

/-- Whether ELG's transactions are stopped: ADDR is 0 (R645). -/
def State.holdupOff (s : State) : Bool := s.fld Reg.twbHoldup 6 0 == 0

/-- Whether the controller runs no transaction. -/
def State.psbIdle (s : State) : Bool := match s.twb.psb with
  | .none => true
  | _ => false

/-- Bytes of the data window (R648). -/
def State.psbWindow (s : State) (n : Nat) : List Byte :=
  (List.range n).map fun i => BitVec.ofNat 8 (s.fld (Reg.twbPsbData + 4 * (i / 4)) (8 * (i % 4) + 7) (8 * (i % 4)))

/-- Puts bytes read into the data window (R648). -/
def State.psbPut (s : State) (d : List Byte) : State :=
  (d.zipIdx).foldl (fun (t : State) e =>
    t.setFld (Reg.twbPsbData + 4 * (e.2 / 4)) (8 * (e.2 % 4) + 7) (8 * (e.2 % 4)) e.1.toNat) s

/-- Whether a protocol writes bytes of the data window: 3 write, 5 block write, 7 block process call (R646). -/
def psbWrites (proto : Nat) : Bool := proto == 3 || proto == 5 || proto == 7

/-- ELG's commands to the holdup module (R639): a command code with its data byte, or the read of the temperature. -/
def psbCharger (run : Bool) : Nat := 0x0100 + if run then 0x80 else 0
def psbLoad (on : Bool) : Nat := 0xD000 + b2n on
def psbTemp : Nat := 0x18D00

/-- Drives the transaction that the controller holds: ELG's, Write Byte or Read Word with PEC (R639), or firmware's, which
stands in TWB_PSB_CMD (R646). -/
def State.psbDrive (s : State) : State :=
  match s.twb.psb with
  | .none => s
  | .elg code =>
    let read := code == psbTemp
    s.emit (.psb s.holdupPort (s.fld Reg.twbHoldup 6 0) (if read then 4 else 3) (code / 256 % 256) (if read then 2 else 1) true
      (if read then [] else [BitVec.ofNat 8 (code % 256)]))
  | .firmware =>
    let proto := s.fld Reg.twbPsbCmd 29 27
    s.emit (.psb (s.fld Reg.twbPsbCmd 26 25) (s.fld Reg.twbPsbCmd 24 18) proto (s.fld Reg.twbPsbCmd 17 10)
      (s.fld Reg.twbPsbCmd 9 2) (s.bit Reg.twbPsbCmd 30)
      (if psbWrites proto then s.psbWindow (min 255 (s.fld Reg.twbPsbCmd 9 2)) else []))

/-- Starts the next waiting transaction, ELG's first, while PSB_EN is 1 (R639, R643). -/
def State.psbNext (s : State) : State :=
  if !s.psbIdle || !s.bit Reg.twbCtl 0 then s else
  match s.twb.elgWait with
  | c :: rest => ({ s with twb := { s.twb with psb := .elg c, elgWait := rest, tries := 0 } }).psbDrive
  | [] =>
    if s.twb.fwWait then ({ s with twb := { s.twb with psb := .firmware, fwWait := false, tries := 0 } }).psbDrive else s

/-- ELG issues a transaction to the holdup module (R639). -/
def State.psbElg (s : State) (code : Nat) : State :=
  if s.holdupOff then s
  else { s with twb := { s.twb with elgWait := s.twb.elgWait ++ [code] } }.psbNext

/-- RESULT of a transaction (R647). -/
def psbCode : PsbResult → Nat
  | .ok _ => 0
  | .addrNack => 1
  | .dataNack => 2
  | .clkLowTo => 3
  | .pecErr => 4
  | .busClearFail => 5

/-- PSB_RETRY (R642). -/
def State.psbRetries (s : State) : Nat := s.fld Reg.twbTimeout 25 24

/-- Gives firmware the final result of its transaction: RESULT, the bytes read, DONE (R639, R647). -/
def State.psbFirmware (s : State) (r : PsbResult) : State :=
  let d : List Byte := match r with | .ok d => d | _ => []
  let t := s.psbPut d
  ({ t with twb := { t.twb with result := psbCode r, rxLen := d.length % 256 } }).flag Reg.twbPsbEvent 0

/-- A number in PMBus LINEAR11 format: a signed mantissa of 11 bits times two to a signed power of 5 bits (R639; the format is
PRESUMED from PMBus); rounded down, and held to the range of TEMP_C (DESIGN CHOICE, log 144). -/
def linear11 (w : Nat) : Int :=
  let y : Int := if w % 2048 < 1024 then (w % 2048 : Nat) else (w % 2048 : Nat) - 2048
  let e := w / 2048 % 32
  max (-128) (min 127 (if e < 16 then y * 2 ^ e else y / 2 ^ (32 - e)))

/-- An integer as a two's-complement field of `w` bits. -/
def twos (w : Nat) (v : Int) : Nat := (v % (2 ^ w : Nat)).toNat

/-- Gives ELG the final result of its transaction: a temperature, or a failed read, after which the last one is kept
(R399, R639). -/
def State.psbElgEnd (s : State) (code : Nat) (r : PsbResult) : State :=
  if code ≠ psbTemp then s
  else match r with
  | .ok d =>
    let t := s.setFld Reg.elgTempC 7 0 (twos 8 (linear11 (ofLe (d.take 2))))
    { t with elg := { t.elg with tempFails := 0 } }
  | _ => { s with elg := { s.elg with tempFails := s.elg.tempFails + 1 } }

/-- A port's bus clear has failed: SDA_STUCK, DATA_LOW_TO and a record; every transaction that waits for the port
ends with BUS_CLEAR_FAIL (R640). -/
def State.psbStuck (s : State) (port : Nat) : State :=
  let t := ({ s with twb := { s.twb with stuck := insertNew s.twb.stuck port } }).flagRecord Reg.twbPsbEvent 3 0x1402 port 0
  let t := if port = t.holdupPort then
      t.twb.elgWait.foldl (fun (u : State) c => u.psbElgEnd c .busClearFail) { t with twb := { t.twb with elgWait := [] } }
    else t
  if t.twb.fwWait && t.fld Reg.twbPsbCmd 26 25 == port then
    { t with twb := { t.twb with fwWait := false } }.psbFirmware .busClearFail
  else t

/-- The flags of a transaction's final result (R640, R641, R647). -/
def State.psbFlags (s : State) (port : Nat) (r : PsbResult) : State :=
  match r with
  | .ok _ => s
  | .addrNack => s.flag Reg.twbPsbEvent 1
  | .dataNack => s.flag Reg.twbPsbEvent 1
  | .clkLowTo => s.flag Reg.twbPsbEvent 2
  | .pecErr => s.flag Reg.twbPsbEvent 4
  | .busClearFail => s.psbStuck port

/-- Whether a result is retried: an address NACK or a clock-low timeout (R639). -/
def psbMayRetry (r : PsbResult) : Bool :=
  match r with
  | .addrNack => true
  | .clkLowTo => true
  | _ => false

/-- Counts a retry by its cause (R639, R649). -/
def State.psbCountRetry (s : State) (r : PsbResult) (n : Nat) : State :=
  match r with
  | .addrNack => s.countBy Reg.twbPsbCount n
  | .clkLowTo => (s.countBy (Reg.twbPsbCount + 4) n).flag Reg.twbPsbEvent 2
  | _ => s

/-- The port of the transaction that the controller holds. -/
def State.psbPort (s : State) : Nat := match s.twb.psb with
  | .firmware => s.fld Reg.twbPsbCmd 26 25
  | _ => s.holdupPort

/-- The transaction that the controller holds has ended for good: its result goes to its owner, and the next one starts. -/
def State.psbFinal (s : State) (r : PsbResult) : State :=
  let t := ({ s with twb := { s.twb with psb := .none } }).psbFlags s.psbPort r
  (match s.twb.psb with
    | .firmware => t.psbFirmware r
    | .elg code => t.psbElgEnd code r
    | .none => t).psbNext

/-- Whether a transaction that has ended so is issued again (R639). -/
def State.psbAgain (s : State) (r : PsbResult) : Bool := psbMayRetry r && decide (s.twb.tries < s.psbRetries)

/-- The running transaction has ended: it is retried, or it has its final result. -/
def State.psbEnd (s : State) (r : PsbResult) : State :=
  if s.psbIdle then s
  else if s.psbAgain r then
    let t := s.psbCountRetry r 1
    { t with twb := { t.twb with tries := t.twb.tries + 1 } }.psbDrive
  else s.psbFinal r

/-- A bus clear has succeeded (R640). -/
def State.psbCleared (s : State) (yes : Bool) : State := if yes then s.count (Reg.twbPsbCount + 8) else s

/-- PSB_TRANSACTION_DONE; `cleared` says that a bus clear before its START was needed and succeeded (R639, R640). -/
def execPsbTransactionDone (r : PsbResult) (cleared : Bool) (s : State) : Out :=
  .next (if s.psbIdle then s else (s.psbCleared cleared).psbEnd r)

/-- PSB_CLK_LOW_TIMEOUT: a target holds SCL low beyond PSB_CLK_LOW_MS. After STOP the port's SDA is sampled: where it stays low,
a retry, which would wait for the port, ends with BUS_CLEAR_FAIL (R640, R641). -/
def execPsbClkLowTimeout (sda : Sda) (s : State) : Out :=
  .next (if s.psbIdle then s
    else match sda with
    | .high => s.psbEnd .clkLowTo
    | .cleared => (s.psbCleared true).psbEnd .clkLowTo
    | .stuck =>
      if s.psbAgain .clkLowTo then (s.flag Reg.twbPsbEvent 2).psbFinal .busClearFail
      else ((s.psbFinal .clkLowTo).psbStuck s.psbPort).psbNext)

/-- PSB_SDA_STUCK_RETRY: a bus clear of a port, repeated every 100 ms while it is stuck (R640). -/
def execPsbSdaStuckRetry (port : Fin 4) (cleared : Bool) (s : State) : Out :=
  .next (if s.twb.stuck.contains port.val = false then s
    else if cleared then
      (({ s with twb := { s.twb with stuck := s.twb.stuck.filter (· != port.val) } }).count (Reg.twbPsbCount + 8)).psbNext
    else s.psbStuck port.val)

/-- TWB_CTL.PSB_RESET: the controller is reset and firmware's transaction in progress abandoned; ELG's is issued again, which
counts as no retry, as R640's worked example has it (DEDUCED, log 129). On leaving reset each port's SDA is sampled: `cleared` are
the ports that a bus clear freed, `stuck` those that stay low (R640, R643). -/
def State.psbReset (s : State) (cleared stuck : Nat) : State :=
  let again := match s.twb.psb with
    | .elg code => [code]
    | _ => []
  let t := { s with twb := { s.twb with psb := .none, elgWait := again ++ s.twb.elgWait, tries := 0, stuck := [] } }
  let t := ((List.range 4).filter cleared.testBit).foldl (fun (u : State) _ => u.psbCleared true) t
  (((List.range 4).filter stuck.testBit).foldl State.psbStuck t).psbNext

/-- A write of TWB_PSB_CMD: GO queues a transaction, unless BUSY (R646). -/
def State.psbGo (s : State) (val : Word) : State :=
  let busy : Bool := s.twb.fwWait || (match s.twb.psb with | .firmware => true | _ => false)
  if busy || !Word.bit val 31 then s
  else ({ s.setReg Reg.twbPsbCmd val with twb := { s.twb with fwWait := true } }).psbNext

end Sys2Proof.Machine
end

