-- ==== Sys2Proof/Machine/Ledger.lean ====
section
/-! DEFINITION. Chapter 10, metering and the ledger: samples, the 1 ms recomputation, the module temperature,
capacitance tests, the save-rate probe, and the checks of ELG's configuration writes (R399–R414, R432–R438). -/

namespace Sys2Proof.Machine

/-! ### Metering (R399, R402, R410, R411) -/

/-- METER_EN (R426). -/
def State.metering (s : State) : Bool := s.bit Reg.elgCtl 0

/-- METER_SAMPLE: one sample of HOLD_V_SENSE and HOLD_I_SENSE, every 10 µs (R399). -/
def execMeterSample (mv : Nat) (ma : Int) (s : State) : Out :=
  .next (if s.metering then
      { s with elg := { s.elg with vSum := s.elg.vSum + mv, iSum := s.elg.iSum + ma, samples := s.elg.samples + 1 } }
    else s)

/-- Averages the samples of the last ms into ELG_V_MV and ELG_I_MA, and keeps 10 s of voltages; without metering
no values exist (R399, R400). A running save integrates the energy drawn (R405, R420). -/
def State.meterMs (s : State) : State :=
  if !s.metering then { s with elg := { s.elg with vSum := 0, iSum := 0, samples := 0, history := [] } }
  else if s.elg.samples = 0 then s
  else
    let v := s.elg.vSum / s.elg.samples
    let i := s.elg.iSum / s.elg.samples
    let t := (s.setFld Reg.elgVmv 15 0 v).setFld Reg.elgIma 15 0 (twos 16 i)
    { t with elg := { t.elg with
      vSum := 0, iSum := 0, samples := 0, history := (v :: t.elg.history).take 10000
      sage := t.elg.sage.map fun g => { g with energy0 := g.energy0 + v * (-i).toNat } } }

/-- Whether the voltage has stayed within 1 % of its present value over the last 10 s (R400 step 1). -/
def State.steady (s : State) : Bool :=
  let v := s.fld Reg.elgVmv 15 0
  s.elg.history.all fun x => decide (v * 99 ≤ x * 100) && decide (x * 100 ≤ v * 101)

/-- The READY block of a set that a probe takes: the lowest-numbered. -/
def State.probeBlock (s : State) (set : Nat) : Option Nat :=
  ((s.sbList set).find? fun e => e.2.state == .ready).map fun e => e.1 % 65536

/-- Whether a save-rate probe may take a block: no save runs, and READY is above NEED (R405). -/
def State.mayProbe (s : State) : Bool :=
  s.elg.sage.isNone && decide (s.saveNeed < minOf ((List.range s.sets).map s.readyIn) 0)

/-- The probe takes a READY block of a set, which is PROBING until it has been timed (R377, R405). -/
def State.probeTake (s : State) (set sum : Nat) : State :=
  match (if s.mayProbe && decide (set < s.sets) then s.probeBlock set else none) with
  | some b =>
    let t := s.setSb set b { s.sb set b with state := .probing }
    { t with elg := { t.elg with probe := some (set, sum) } }
  | none => { s with elg := { s.elg with probe := none } }

/-- The probe's block of a set goes to ERASING (R377). -/
def State.probeErase (s : State) (set : Nat) : State :=
  match (s.sbList set).find? fun e => e.2.state == .probing with
  | some e => s.eraseSb set (e.1 % 65536)
  | none => s

/-- A save trigger ends a running probe at once (R377). -/
def State.probeEnd (s : State) : State :=
  match s.elg.probe with
  | some p => { s.probeErase p.1 with elg := { (s.probeErase p.1).elg with probe := none } }
  | none => s

/-- Starts the discharge of a capacitance test and its save-rate probe, or postpones the test by 10 minutes (R400 steps 1
and 2, R405). -/
def State.capBegin (s : State) : State :=
  if s.steady then
    (({ s.probeTake 0 0 with elg := { (s.probeTake 0 0).elg with test := .running, preMv := s.fld Reg.elgVmv 15 0 } }.psbElg
      (psbCharger false)).psbElg (psbLoad true))
  else { s with elg := { s.elg with test := .idle, retry := true } }

/-- Starts a capacitance test; with fewer than 10 s of values it waits until they exist (R400). None starts while
one runs or waits, while its probe runs, or during a save. -/
def State.capStart (s : State) : State :=
  match s.elg.test with
  | .running => s
  | .waiting => s
  | _ =>
    if s.elg.sage.isSome || s.elg.probe.isSome then s
    else if s.elg.history.length < 10000 then { s with elg := { s.elg with test := .waiting, retry := false } }
    else { s with elg := { s.elg with retry := false } }.capBegin

/-- What the ms brings to a capacitance test: a waiting one makes its check once 10 s of values exist, and after
one E_avail follows the live voltage again when it is within 1 % of its pre-test value (R400, R403). -/
def State.capMs (s : State) : State :=
  match s.elg.test with
  | .waiting => if s.elg.history.length < 10000 then s else s.capBegin
  | .recovering =>
    let v := s.fld Reg.elgVmv 15 0
    if s.elg.preMv * 99 ≤ v * 100 ∧ v * 100 ≤ s.elg.preMv * 101 then { s with elg := { s.elg with test := .idle } } else s
  | _ => s

/-- Counts a ms of the running save (R437). -/
def State.saveMs (s : State) : State :=
  match s.elg.sage with
  | some g =>
    { s with elg := { s.elg with sage := some { g with ms := g.ms + 1 } } }.setReg Reg.elgSageMs (w32 (g.ms + 1))
  | none => s

/-- A change of the ledger away from FIT wakes the chip (R617). -/
def State.ledgerWake (s : State) (was : LedgerState) : State :=
  match was, s.elg.state with
  | .fit, .fit => s
  | .fit, .off => s
  | .fit, _ => s.wakeFor .elg
  | _, _ => s

/-- Writes PLC_LEDGER_DEMAND (R411). -/
def State.writeDemand (s : State) : State :=
  (s.setFld (Reg.plcTotals + 16) 29 0 (min (2 ^ 30 - 1) s.ledgerDemand)).noteFrames

/-- Counts time in THROTTLE or CRITICAL (R410). -/
def State.throttleMs (s : State) : State := if throttles s.elg.state then s.count (Reg.elgCount + 8) else s

/-- The whole of ELG's 1 ms work (R399, R402–R411, R418), after which waiting moves may be granted (R257). -/
def State.ledgerMs (s : State) : State :=
  let t := s.meterMs.capMs
  let u := t.recomputeEnergy.ledgerEval
  (((u.ledgerWake s.elg.state).throttleMs.writeDemand.saveMs).saveShort.serveQueue).settle

/-- LEDGER_RECOMPUTE: every 1 ms (R402). -/
def execLedgerRecompute (s : State) : Out := .next s.ledgerMs

/-- CATCHUP_EXPIRY: DEFICIT has lasted CATCHUP_S (R410). -/
def execCatchupExpiry (s : State) : Out :=
  .next (match s.elg.state with
    | .deficit => s.ledgerEnter .throttle
    | _ => s)

/-- MODULE_TEMP_READ: every 100 ms while it meters, ELG issues its temperature read over PSB, unless the last one still waits
(R399, R639). -/
def execModuleTempRead (s : State) : Out :=
  .next (if !s.metering || s.twb.elgWait.contains psbTemp || s.twb.psb == .elg psbTemp then s else s.psbElg psbTemp)

/-! ### Capacitance tests (R400, R401) -/

/-- CAP_TEST_PERIOD: every PERIOD_H hours while TEST_AUTO is 1 (R400). -/
def execCapTestPeriod (s : State) : Out := .next (if s.bit Reg.elgCtl 3 then s.capStart else s)

/-- CAP_TEST_RETRY: a postponed test after 10 minutes, a failed one after 1 hour (R400). -/
def execCapTestRetry (s : State) : Out := .next (if s.elg.retry then s.capStart else s)

/-- Ends the discharge: the load off and the charger on again; E_avail stays held until the voltage has recovered
(R400 step 4, R403). -/
def State.capStop (s : State) : State :=
  (({ s with elg := { s.elg with test := .recovering } }.psbElg (psbLoad false)).psbElg (psbCharger true))

/-- A test has failed; a higher result before it is no longer consecutive with the next (R400, R401). -/
def State.capFail (s : State) : State :=
  let t := (s.capStop.flagRecord Reg.elgEvent 6 0x0C05 0 0).setFld Reg.elgCapLast 31 30 3
  ({ t with elg := { t.elg with retry := true, higher := none } }).jwEnd jwCap { status := jrFailed }

/-- What a result does to the accepted capacitance: the new value, the result that still awaits confirmation, and
whether it was accepted (R401). -/
def capAccept (cur : Nat) (higher : Option Nat) (c : Nat) : Nat × Option Nat × Bool :=
  if c ≤ cur then (c, none, true)
  else match higher with
    | none => (cur, some c, false)
    | some h =>
      if cur < h ∧ (max c h - min c h) * 100 ≤ 2 * min c h then (min c h, none, true) else (cur, some c, false)

/-- A test has given a result: ELG_CAP_MF, ELG_CAP_LAST_MF, TEST_DONE and the count (R401, R432, R435, R438). -/
def State.capResult (s : State) (c : Nat) : State :=
  let a := capAccept (s.fld Reg.elgCap 19 0) s.elg.higher (c % 2 ^ 20)
  let t := (s.capStop.setFld Reg.elgCap 19 0 a.1).setReg Reg.elgCapLast
    (w32 ((if a.2.2 then 1 else 2) * 2 ^ 30 + c % 2 ^ 20))
  let t := (({ t with elg := { t.elg with higher := a.2.1 } }).flag Reg.elgEvent 5).count (Reg.elgCount + 0xC)
  t.jwEnd jwCap { status := jrSuccess, body := [c % 2 ^ 20] }

/-- CAP_TEST_DROP_REACHED: the voltage has fallen by `dropMv`, DROP_MV or more, while `chargeUc` was drawn; `currentOk` says that the
load current stayed within 0.5 A to 10 A, `rose` that the voltage rose (R400, R401). µC over mV is mF. -/
def execCapTestDropReached (chargeUc dropMv : Nat) (currentOk rose : Bool) (s : State) : Out :=
  .next (match s.elg.test with
    | .running =>
      if !currentOk || rose then s.capFail
      else if dropMv < s.fld Reg.elgTestCfg 26 16 ∨ dropMv = 0 then s
      else s.capResult (chargeUc / dropMv)
    | _ => s)

/-- CAP_TEST_TIMEOUT: the drop is not reached within 10 s (R400). -/
def execCapTestTimeout (s : State) : Out :=
  .next (match s.elg.test with
    | .running => s.capFail
    | _ => s)

/-- A qualified save trigger aborts a running test, and one that waits, at once (R400). -/
def State.capAbort (s : State) : State :=
  match s.elg.test with
  | .running => s.capStop.jwEnd jwCap { status := jrAborted }
  | .waiting => ({ s with elg := { s.elg with test := .idle } }).jwEnd jwCap { status := jrAborted }
  | _ => s

/-! ### The tile cost (R405) -/

/-- COST in nJ from the save power in mW and the tiles per second, rounded up to a multiple of 10 nJ (R405). -/
def costOf (mw rate : Nat) : Nat := if rate = 0 then 0 else ceilDiv (mw * 10 ^ 6) (rate * 10) * 10

/-- Firmware writes a derived COST: a higher one at once, a lower one when two consecutive derivations give it
(R405); the register clamps (R431). -/
def State.costDerived (s : State) (c : Nat) : State :=
  let c := clampStep 1000 65535 1 c
  if s.costNj < c then { s.setFld Reg.elgCost 15 0 c with elg := { (s.setFld Reg.elgCost 15 0 c).elg with lowerCost := none } }
  else if c < s.costNj then
    if s.elg.lowerCost = some c then
      { s.setFld Reg.elgCost 15 0 c with elg := { (s.setFld Reg.elgCost 15 0 c).elg with lowerCost := none } }
    else { s with elg := { s.elg with lowerCost := some c } }
  else { s with elg := { s.elg with lowerCost := none } }

/-- SAVE_RATE_PROBE: the PROBING block of a set has been programmed with a pattern through the save stream, at `setRate`
tiles per second; it is erased, and the next set's turn comes. After the last set R_TILE is the sum of the rates, at most
`streamRate`, the DMC STREAM port's; `pSaveMw` is the provisioned save power, used until a save has been measured (R405). -/
def execSaveRateProbe (setRate streamRate pSaveMw : Nat) (s : State) : Out :=
  .next (match s.elg.probe with
    | none => s
    | some (set, sum) =>
      let t := s.probeErase set
      if set + 1 < t.sets then (t.probeTake (set + 1) (sum + setRate)).saveShort.settle
      else
        let t := { t with elg := { t.elg with probe := none } }
        let c := costOf (if t.elg.pSaveMw = 0 then pSaveMw else t.elg.pSaveMw) (min (sum + setRate) streamRate)
        ((if c = 0 then t else t.costDerived c).saveShort.ledgerEval).settle)

/-! ### Checked writes (R403, R414) -/

/-- Whether a test's derated dip energy keeps within half the reserve: C·(V² − (V − DROP)²)·ETA against
C·(V² − V_CUT²)·ETA·RESERVE/100, at the voltage of this instant (R403). -/
def State.dipOk (s : State) (drop reserve : Nat) : Bool :=
  let v : Int := s.fld Reg.elgVmv 15 0
  let cut : Int := s.fld Reg.elgModule 31 16
  let k : Int := s.fld Reg.elgNameplate 19 0 * s.fld Reg.elgModule 15 8
  decide (200 * (k * (v * v - (v - drop) * (v - drop))) ≤ k * (v * v - cut * cut) * reserve)

/-- A write of ELG_RESERVE (R403, R414). -/
def State.writeReserve (s : State) (val : Word) : State :=
  let pct := clampStep 5 40 1 (Word.fld val 5 0)
  if s.dipOk (s.fld Reg.elgTestCfg 26 16) pct then (s.setFld Reg.elgReserve 5 0 pct).recomputeEnergy.ledgerEval else s

/-- A write of ELG_TEST_CFG (R403, R414). -/
def State.writeTestCfg (s : State) (val : Word) : State :=
  let drop := clampStep 100 2000 10 (Word.fld val 26 16)
  let period := clampStep 1 168 1 (Word.fld val 7 0)
  if s.dipOk drop s.reservePct then s.setReg Reg.elgTestCfg (w32 (drop * 2 ^ 16 + period)) else s

/-- A write of ELG_SAVE_CFG: ignored when it leaves FINAL_J at or above BASE_J (R414). -/
def State.writeSaveCfg (s : State) (val : Word) : State :=
  let base := clampStep 20 255 1 (Word.fld val 15 8)
  let final := clampStep 5 100 1 (Word.fld val 7 0)
  if base ≤ final then s else s.setReg Reg.elgSaveCfg (w32 (base * 2 ^ 8 + final))

end Sys2Proof.Machine
end

