-- ==== Sys2Proof/Machine/Save.lean ====
section
/-! DEFINITION. Chapter 10, power-loss save and restore: triggers, Sage's phases, the save-outcome record and image,
restore, authority, and the admission of regions (R26, R34–R37, R415–R425). -/

namespace Sys2Proof.Machine

/-! ### Triggers (R26, R415) -/

/-- TRIGGER of a save-outcome record (R420). -/
def triggerCode : Trigger → Nat
  | .holdFail => 0
  | .inputRail => 1
  | .planned => 2

/-- How the power-down after a trigger ends (R603, R608). -/
def downOf (tr : Trigger) (sys : Bool) : DownCause :=
  if sys then .systemReset else match tr with
    | .planned => .planned
    | _ => .other

/-- Whether the peer's last Burgee says that it saves. -/
def State.peerSaving (s : State) : Bool := match s.twn.peerB with
  | some b => b.state == .saving
  | none => false

/-- A save trigger suspends a firmware erase (R582). -/
def eflSaveHold (e : Efl) : Efl :=
  match e.erase with
  | some b => if e.eraseBy = 3 then { e with
      autoSusp := false, blocks := e.blocks.modify b fun x => match x.state with
        | .erasing => { x with state := .suspended }
        | _ => x } else e
  | none => e

/-- A save ends a live activation: Sage runs the save, and the image boots at the next start as PENDING (R517). -/
def State.liveStop (s : State) : State :=
  match s.fw.activating with
  | none => s
  | some b =>
    let t := s.modSlot b fun x => { x with state := .pending }
    { t with fw := { t.fw with activating := none, halted := false, actInst := none } }

/-- A qualified save trigger: it wakes the chip from Quiet, aborts a test, and starts an armed save's drain, in
which the Ensigns go to a peer that does not save too; while SAVE_ARM is 0 the twin stops admission and powers down
(R26, R400, R415, R416, R461, R618). A twin that saves already goes on. -/
def State.saveTrigger (s : State) (tr : Trigger) (sys : Bool) : State :=
  if s.elg.sage.isSome || (match s.pws.seq with | .powerDown => true | _ => false) then s else
  let s := s.liveStop
  let t := ((s.wakeFor .elg).capAbort.probeEnd.flagRecord Reg.elgEvent 8 0x0C04 0 0)
  let t := { t with noAdmit := true, efl := eflSaveHold t.efl }
  if s.bit Reg.elgCtl 4 = false then t.downStart (downOf tr sys)
  else
    let g : Sage := { phase := 1, trigger := tr, startTime := s.time, single := s.single && !s.twn.fenceIn, saved := []
                      openList := [], logs := [], sys := sys, energy0 := 0, capMf := s.fld Reg.elgCap 19 0 }
    let t := { t with elg := { t.elg with sage := some g }
                      twn := { t.twn with self := .saving, fast := true } }
    let t := ((t.setReg Reg.elgSageTiles 0).setReg Reg.elgSageMs 0).setPhase 9
    (if t.paired && t.linkIsUp && !t.peerSaving then t.startHandoff t.ownedRegions else t).settle

/-- HOLD_FAIL: asserted for `samples` consecutive samples; fewer than three do not qualify (R415). -/
def execHoldFail (samples : Nat) (s : State) : Out :=
  .next (if samples = 0 then s
    else if samples < 3 then s.flag Reg.elgEvent 10
    else s.saveTrigger .holdFail false)

/-! ### Sage's phases (R416–R418) -/

/-- Changes the running save. -/
def State.modSage (s : State) (f : Sage → Sage) : State :=
  { s with elg := { s.elg with sage := s.elg.sage.map f } }

/-- What the save's own phase 2 does: links and ports off, engines halted, moves ended, the HLC and the Tile Map
Cache written back (R252, R300, R416). -/
def State.saveFlush (s : State) : State :=
  let t := s.moves.keys.foldl (fun (u : State) x => u.dropMove x true) s
  let t := t.cmds.foldl (fun (u : State) e => u.dropChannel e.1 e.2) t
  let t := (t.hostsOff false).shaumOff
  { t with
    cmds := []
    hlc := { t.hlc with
      ways := t.hlc.ways.mapV fun w => { w with state := (match w.state with | .filling => .filling | _ => .clean), dirty := false, opens := 0 }
      evb := [], flush := [], maint := none }
    fmc := { t.fmc with waiting := [], reads := [] }
    lap := { t.lap with staged := [] }
    plc := { t.plc with tmc := t.plc.tmc.mapV fun l => { l with dirty := false } } }

/-- SAVE_DRAIN_END: the drain window has ended, or no write is open. Staged writes that were completed to their
hosts go to the pending-write log, in staging order; what else is not sequenced is discarded. In Quiet the save waits for
the wake (R26, R415, R416). -/
def execSaveDrainEnd (s : State) : Out :=
  .next (match s.elg.sage with
    | none => s
    | some g =>
      if g.phase ≠ 1 ∨ s.isl.quiet ≠ .awake then s else
      let logs := (s.reqs.filter fun e => isWrite e.2.op && e.2.acked && (e.2.stage != .opened || !e.2.todo.isEmpty)).map
        fun e => { e.2 with src := .replay, stage := .waiting, msgs := [], done := 0, buf := none, acked := true
                            segs := if e.2.todo.isEmpty then e.2.segs else e.2.todo.map fun p => (p.1, p.2.1) }
      let list := s.openTiles
      let t := s.reqs.keys.foldl State.dropReq s
      t.saveFlush.modSage fun x => { x with phase := 2, logs := logs, openList := list })

/-- The READY stripe blocks in chain order (R417; lowest first). -/
def State.readyBlocks (s : State) : List Nat := (s.fmc.blocks.filter fun e => e.2.state == .ready).map Prod.fst

/-- Slots of the chain that the state and map sections take (R406, R416). -/
def State.sectionSlots (s : State) : Nat := 262144 + s.fld Reg.elgMapTiles 29 0

/-- The location of slot `i` of the chain, past each block's housekeeping slot (R417). -/
def State.chainLoc (s : State) (i : Nat) : Option Nat :=
  (s.readyBlocks.drop (i / (s.pslcTiles - 1))).head?.map fun k =>
    s.locOf (k / 65536) (k % 65536) (i % (s.pslcTiles - 1) + 1) 1

/-- Writes up to `n` of the phase's tiles to the next slots of the chain; the READY blocks may run out (R417,
R418). -/
def State.saveTiles (s : State) : Nat → List Nat → Sage → Sage
  | 0, _, g => g
  | _ + 1, [], g => g
  | n + 1, x :: rest, g => match s.chainLoc (s.sectionSlots + g.saved.length) with
    | some loc => s.saveTiles n rest { g with saved := g.saved ++ [(x, loc)] }
    | none => { g with phase := 7, result := 2, vEnd := s.fld Reg.elgVmv 15 0 }

/-- The stripe blocks of the chain of an image (R417). -/
def State.chainBlocks (s : State) (g : Sage) : List Nat :=
  s.readyBlocks.take (ceilDiv (s.sectionSlots + g.saved.length) (s.pslcTiles - 1))

/-- A stripe block as IMAGE_START names it: set in [31:26], block in [25:0] (R420). -/
def blockWord (key : Nat) : Nat := key / 65536 * 2 ^ 26 + key % 65536

/-- A region's entry in the save-outcome record (R418, R421). -/
def State.saveEntry (s : State) (g : Sage) (id : Nat) (r : Region) : SaveEnt :=
  let mine := s.tilesIn id ((s.tiles.filter fun e => inDram e.2.home).map Prod.fst)
  let left := mine.filter fun x => !(g.saved.any fun p => p.1 == x)
  { region := id, complete := left.isEmpty, dirtyComplete := !(left.any fun x => (s.tile x).syncDirty)
    owner := r.ensign == .owner || r.ensign == .handing, unsaved := left.length, pseq := r.pseq }

/-- What the image holds (R416); a pending extent is withdrawn (R88). -/
def State.imageNow (s : State) : Image :=
  { regions := s.regions, rgt := s.rgt, extents := s.extents.filterV (fun e => !e.pending), extentGens := s.extentGens, mkeys := s.mkeys
    mkeyGens := s.mkeyGens, keyFreed := s.rdx.keyFreed, leases := s.leases
    binds := s.lds.filterMap fun e => e.2.bound.map fun h => (e.1, h)
    sqs := s.sqs, cqs := s.cqs, poisonList := s.poisonList, tiles := s.tiles, mem := s.mem, sectors := s.sectors
    capMf := s.fld Reg.elgCap 19 0, costNj := s.costNj }

/-- The save-outcome record (R419–R421). -/
def State.recordNow (s : State) (g : Sage) : SaveRec :=
  { gen := s.elg.saveGen + 1, trigger := g.trigger, result := g.result, single := g.single, startTime := g.startTime
    durationMs := g.ms, tilesSaved := g.saved.length, tilesDram := g.tilesDram, energyMj := g.energy0 / 10 ^ 6
    capMf := g.capMf, costNj := s.costNj, vEndMv := g.vEnd
    entries := (s.regions.filter fun e => e.2.state != .free).map fun e => s.saveEntry g e.1 e.2
    tiles := g.saved, openList := g.openList, logs := g.logs
    imageStart := if g.result = 3 then 0 else blockWord ((s.chainBlocks g).headD 0)
    imageBlocks := if g.result = 3 then 0 else (s.chainBlocks g).length
    image := if g.result = 3 then none else some s.imageNow }

/-- The 16 bytes of a region's entry; reserved bits are left at 1 (R13, R421). -/
def entryBytes (e : SaveEnt) : List Byte :=
  leBytes 2 (e.region % 2 ^ 12 + 2 ^ 12 * b2n e.complete + 2 ^ 13 * b2n e.dirtyComplete + 2 ^ 14 * b2n e.owner + 2 ^ 15)
    ++ leBytes 2 0xFFFF ++ leBytes 4 e.unsaved ++ leBytes 8 e.pseq

/-- Bytes 0 to 55 of a save-outcome record (R420). -/
def saveHead (r : SaveRec) : List Byte :=
  leBytes 4 0x53414745 ++ leBytes 2 1 ++ leBytes 2 r.entries.length ++ leBytes 8 r.gen ++ leBytes 8 r.startTime
    ++ leBytes 4 r.durationMs ++ leBytes 1 (triggerCode r.trigger) ++ leBytes 1 r.result ++ leBytes 1 (b2n r.single + 0xFE)
    ++ leBytes 1 0xFF ++ leBytes 4 r.tilesSaved ++ leBytes 4 r.tilesDram ++ leBytes 4 r.energyMj
    ++ leBytes 4 (r.capMf % 2 ^ 20 + 0xFFF00000) ++ leBytes 4 r.imageStart ++ leBytes 4 r.imageBlocks

/-- Programs a record into a slot: the header, the region entries, RECORD_CHECK, and VALID last (R419–R421). -/
def State.savePut (s : State) (slot : Nat) (r : SaveRec) : State :=
  let a := saveBase slot
  let head := saveHead r
  let ents := r.entries.flatMap entryBytes
  let tail := fun (chk : Nat) => chk + r.vEndMv % 2 ^ 16 * 2 ^ 32 + 0xFFFF * 2 ^ 48
  let t := s.autoSuspend.eflPuts a (((List.range 7).map fun i => (8 * i, word64 head i)) ++ [(56, tail 0xFFFFFFFF)])
  let t := t.eflPuts (a + 80) ((List.range (2 * r.entries.length)).map fun i => (8 * i, word64 ents i))
  { (t.eflPut (a + 56) (tail (crc32c (head ++ ents)))).eflPut (a + 64) halfComplete with
    elg := { s.elg with slots := s.elg.slots.set slot r } }

/-- The blocks that an image has used become IMAGE; the housekeeping slot of each holds SAVE_GEN and its index in the chain,
and the other slots name the saved tiles (R377, R386, R417). -/
def State.useBlocks (s : State) (g : Sage) : State :=
  let t := (s.chainBlocks g).foldl (fun (u : State) k =>
    u.setSb (k / 65536) (k % 65536) { u.sb (k / 65536) (k % 65536) with state := .image, valid := 0 }) s
  let c := (s.chainBlocks g).zipIdx.foldl (fun (m : Tbl (Nat × Nat)) p => m.set p.1 (s.elg.saveGen + 1, p.2)) t.fmc.chain
  let t := { t with fmc := { t.fmc with chain := c } }
  { t with fmc := { t.fmc with slots := g.saved.foldl (fun m p => m.set p.2 p.1) t.fmc.slots } }

/-- Phase 7 is done: the record is written into the slot that is erased, and ELG asks PWS for the power-down sequence
(R416, R419). -/
def State.saveEnd (s : State) (g : Sage) : State :=
  let r := s.recordNow g
  let t := if g.result = 3 then s else s.useBlocks g
  let t := if t.spareErased then t.savePut t.spareSlot r else t
  let t := { t with elg := { t.elg with
    sage := none
    pSaveMw := if g.ms = 0 then t.elg.pSaveMw else g.energy0 / (1000 * g.ms) } }
  (if g.result = 1 then t else t.flag Reg.elgEvent 9).downStart (downOf g.trigger g.sys)

/-- Moves Sage to the next phase, noting what the new one begins with (R416, R420). -/
def State.nextSage (s : State) (g : Sage) : State :=
  s.modSage fun x => { x with
    phase := g.phase + 1
    tilesDram := if g.phase + 1 = 4 then s.tiles.count fun e => inDram e.home else x.tilesDram
    vEnd := if g.phase + 1 = 7 then s.fld Reg.elgVmv 15 0 else x.vEnd }

/-- SAGE_PHASE_END: in phases 5 and 6 `tiles` more tiles have been written, and the phase ends when none is left;
any other phase is complete. READY blocks that run out before the map is complete leave no usable image (R416, R418). -/
def execSagePhaseEnd (tiles : Nat) (s : State) : Out :=
  .next (match s.elg.sage with
    | none => s
    | some g =>
      if g.phase < 2 then s
      else if g.phase = 7 then s.saveEnd g
      else if g.phase = 5 ∨ g.phase = 6 then
        let h := s.saveTiles tiles (s.tilesLeft g) g
        let t := (s.modSage fun _ => h).setReg Reg.elgSageTiles (w32 h.saved.length)
        if h.phase = g.phase ∧ (t.tilesLeft h).isEmpty then t.nextSage h else t
      else if g.phase = 3 ∧ (s.chainLoc 262143).isNone ∨ g.phase = 4 ∧ (s.chainLoc (s.sectionSlots - 1)).isNone then
        s.modSage fun x => { x with phase := 7, result := 3, vEnd := s.fld Reg.elgVmv 15 0 }
      else s.nextSage g)

/-- SAVE_FINAL_ENERGY: E_avail has fallen to FINAL_J, or the READY blocks have run out: Sage goes to phase 7, with
no image if the map is not complete (R418). -/
def execSaveFinalEnergy (s : State) : Out :=
  .next (match s.elg.sage with
    | none => s
    | some g =>
      if g.phase < 3 ∨ g.phase = 7 then s
      else s.modSage fun x => { x with
        phase := 7, result := if g.phase ≤ 4 then 3 else 2, vEnd := s.fld Reg.elgVmv 15 0 })

/-! ### Restore (R37, R422, R424, R603) -/

/-- Places one saved tile: in its saved frame, or a new one where that is gone, if the ledger grants a reservation,
and at SAVE_AREA otherwise (R422 step 5). -/
def State.restoreTile (s : State) (tile loc : Nat) : State :=
  let e := s.tile tile
  let t := s.ledgerEval
  let own := decide (t.frameBase ≤ e.loc) && decide (e.loc < t.frameBase + t.framesTotal)
    && (t.frames.get? e.loc).isNone && !t.withheld.contains e.loc
  let f := if own then some e.loc else t.freeFrame
  match (if t.canReserve then f else none) with
  | some n => (t.takeFrame n tile).setTile tile { e with home := .dram, loc := n }
  | none => ((if t.canReserve then t else t.refuseFrame).setTile tile { e with home := .saveArea, loc := loc }).validUp loc tile

/-- Marks the entries that still show DRAM as not saved: FAILED, with no good sector here (R422 step 6). -/
def State.unsavedTile (s : State) (tile : Nat) : State :=
  (s.setTile tile { s.tile tile with home := .failed }).markBad (tileSectors tile)

/-- Restores the tables of the state section (R422 steps 3 and 4); a restored map holds no locks (R252), and firmware
restores every binding (R84). -/
def State.loadImage (s : State) (i : Image) : State :=
  { s with
    regions := i.regions.mapV fun r => { r with
      state := (match r.state with | .deleting => .deleting | _ => .offline), offered := false
      ensign := if r.owner == s.twin then .owner else .peerOwns }
    rgt := i.rgt, extents := i.extents, extentGens := i.extentGens, mkeys := i.mkeys, mkeyGens := i.mkeyGens
    rdx := { s.rdx with keyFreed := i.keyFreed }
    leases := i.leases, sqs := i.sqs, cqs := i.cqs, poisonList := i.poisonList
    lds := i.binds.foldl (fun m e => m.upd e.1 {} fun l => { l with bound := some e.2, state := .bound }) s.lds
    tiles := i.tiles.mapV fun e => { e with lock := false, evict := false }
    mem := i.mem, sectors := i.sectors, frames := [] }

/-- The blocks of a record's chain, from IMAGE_START as far as each carries SAVE_GEN and the next index (R422 step 2). -/
def State.chainGood (s : State) (r : SaveRec) : List Nat :=
  let at' := fun (i : Nat) => (s.fmc.chain.find? fun e => e.2 == (r.gen, i)).map Prod.fst
  let l := ((List.range r.imageBlocks).map at').takeWhile Option.isSome
  if (l.headD none).map blockWord = some r.imageStart then l.filterMap id else []

/-- The saved tiles of a record that lie past the point where its chain ends (R422 step 2). -/
def State.chainLost (s : State) (r : SaveRec) : List Nat :=
  let good := s.chainGood r
  (r.tiles.filter fun p => !good.contains (sbKey (locSet p.2) (s.locBlock p.2))).map Prod.fst

/-- Steps 3 to 6 of R422 with an image; `lost` are saved tiles past the point where the chain ends (step 2). -/
def State.restoreImage (s : State) (r : SaveRec) (i : Image) (lost : List Nat) : State :=
  let t := ((s.loadImage i).setFld Reg.elgCost 15 0 i.costNj).recomputeEnergy.ledgerEval
  let ok := r.tiles.filter fun p => !lost.contains p.1
  let dram := (i.tiles.filter fun e => inDram e.2.home).map Prod.fst
  let t := ok.foldl (fun (u : State) p => if inDram (u.tile p.1).home then u.restoreTile p.1 p.2 else u) t
  (dram.filter fun x => !(ok.any fun p => p.1 == x)).foldl State.unsavedTile t

/-- Without an image nothing is mapped: no stripe block holds a valid tile (R377, R422 step 1). -/
def State.restoreNone (s : State) : State :=
  let t := { s with
    regions := [], rgt := [], extents := [], mkeys := [], leases := [], sqs := [], cqs := [], poisonList := []
    tiles := [], frames := [], mem := [], sectors := [], progress := [], plc := { s.plc with heldFlash := [] }
    fmc := { s.fmc with slots := [] } }
  t.fmc.blocks.keys.foldl (fun (u : State) k =>
    let set := k / 65536
    let b := k % 65536
    (u.setSb set b { u.sb set b with valid := 0 }).emptyCheck set b) t

/-! ### Authority (R423, R425) -/

/-- What one side brings to the settlement of a region: its SINGLE flag, and its entry's COMPLETE, DIRTY_COMPLETE
and PSEQ, if it has an image and an entry. -/
structure Side where
  single : Bool
  complete : Bool
  dirty : Bool
  pseq : Nat
  deriving DecidableEq, Repr

/-- R423's authority from this twin's side and the peer's: 0 both, 1 this twin, 2 the peer, 3 none. -/
def settleOf : Option Side → Option Side → Nat
  | none, none => 3
  | none, some _ => 2
  | some _, none => 1
  | some a, some b =>
    if a.single && b.single then 3
    else if a.single then 1 else if b.single then 2
    else if a.complete && !b.complete then 1 else if b.complete && !a.complete then 2
    else if a.pseq = b.pseq then 0 else if b.pseq < a.pseq then 1 else 2

/-- This twin's side of a region, from the record that it restored. -/
def sideOf (r : Option SaveRec) (id : Nat) : Option Side :=
  match r with
  | none => none
  | some x => if x.image.isNone then none else
    (x.entries.find? fun e => e.region == id).map fun e =>
      { single := x.single, complete := e.complete, dirty := e.dirtyComplete, pseq := e.pseq }

/-- The peer's side of a region, as its entries give it. -/
def peerSide (single : Bool) (l : List (Nat × Bool × Bool × Nat)) (id : Nat) : Option Side :=
  (l.find? fun e => e.1 == id).map fun e =>
    { single := single, complete := e.2.1, dirty := e.2.2.1, pseq := e.2.2.2 }

/-- A tile that restore leaves with no usable copy on either twin (R425): a poison write covers it whole, in a frame
that the ledger grants, or else in the tile that is programmed to a new flash location; with the poison list, the
record and the count of a lost tile. -/
def State.loseTile (s : State) (tile : Nat) : State :=
  let t := s.ledgerEval
  match (if t.canReserve then t.freeFrame else none) with
  | some n =>
    (((t.takeFrame n tile).modTile tile fun e => { e with home := .dram, loc := n }).clearBad (tileSectors tile)).loseSectors
      tile (tileSectors tile)
  | none =>
    let t := if t.canReserve then t else t.refuseFrame
    let m : Move := { kind := .repair, why := .repair, stage := .pull, order := t.plc.moveSeq, toFlash := true
                      late := true, valid := tileSectors tile }
    let t := { t with moves := t.moves.set tile m, plc := { t.plc with moveSeq := t.plc.moveSeq + 1 } }
    ((t.modTile tile fun e => { e with lock := true }).clearBad (tileSectors tile)).loseSectors tile (tileSectors tile)

/-- SYNC_DIRTY tiles of a region that this single survivor did not save are lost (R423). -/
def State.loseDirty (s : State) (id : Nat) : State :=
  (s.tilesIn id ((s.tiles.filter fun e => e.2.syncDirty && e.2.home == .failed).map Prod.fst)).foldl
    State.loseTile s

/-- What the peer must copy from here after a region's settlement: SYNC_DIRTY tiles of a single survivor, the open
list of the twin with the higher PSEQ, every tile for a peer without an image (R423). -/
def State.settleCopy (s : State) (id : Nat) (a b : Option Side) (openList : List Nat) : List Nat :=
  match a, b with
  | some _, none => s.tilesIn id ((s.tiles.filter fun e => e.2.home != .zero).map Prod.fst)
  | some x, some y =>
    if x.single then s.tilesIn id ((s.tiles.filter fun e => e.2.syncDirty).map Prod.fst)
    else if x.complete == y.complete then s.tilesIn id openList else []
  | none, _ => []

/-- Repairs a region's FAILED tiles from the peer (R265, R423). -/
def State.repairFailed (s : State) (id : Nat) : State :=
  (s.tilesIn id ((s.tiles.filter fun e => e.2.home == .failed).map Prod.fst)).foldl State.repairTile s

/-- Whether both twins saved a region, neither as single survivor: each then repairs what it lacks from the other
(R423). -/
def bothSaved (a b : Option Side) : Bool :=
  match a, b with
  | some x, some y => !x.single && !y.single
  | _, _ => false

/-- Settles one region (R423): the authority, who holds the Ensign, what the peer copies, what is repaired, what is lost. -/
def State.settleRegion (s : State) (id : Nat) (a b : Option Side) (openList : List Nat) : State :=
  let w := settleOf a b
  let t := { s with twn := { s.twn with settled := s.twn.settled.set id w } }
  let t := if bothSaved a b then t.repairFailed id else t
  if w = 1 then
    let t := t.modRegion id fun r => { r with owner := t.twin, ensign := .owner }
    let t := { t with twn := { t.twn with copy := t.twn.copy.set id (t.settleCopy id a b openList) } }
    if (match a with | some x => x.single && !x.dirty | none => false) then t.loseDirty id else t
  else if w = 2 then
    let t := t.modRegion id fun r => { r with owner := !t.twin, ensign := .peerOwns }
    if a.isNone then { t with twn := { t.twn with fullResync := true } } else t
  else if w = 3 then t.record 0x0D0C id (t.shows Reg.twnEvent).toNat 0
  else t

/-- Settles every region that either twin's entries name (R423). -/
def State.settleAll (s : State) (r : Option SaveRec) (single : Bool) (l : List (Nat × Bool × Bool × Nat)) : State :=
  let ids := (s.regions.keys ++ l.map Prod.fst).foldl insertNew []
  ids.foldl (fun (t : State) id =>
    t.settleRegion id (sideOf r id) (peerSide single l id) (match r with | some x => x.openList | none => [])) s

/-- Whether the peer is in service already (R424). -/
def State.peerServes (s : State) : Bool := match s.twn.peerB with
  | some b => b.state == .single && s.twn.heardPeer
  | none => false

/-- A twin that starts beside a peer in service rejoins by resynchronisation (R424). -/
def State.restoreRejoin (s : State) (r : Option SaveRec) : State :=
  let t := s.yieldRegions
  let t := t.regions.keys.foldl (fun (u : State) id => u.regionState id .offline) t
  { t with twn := { t.twn with
    self := .rejoin, settled := []
    rejoin := (match r with | some x => x.openList.foldl insertNew t.twn.rejoin | none => t.twn.rejoin)
    fullResync := (match r with | some x => x.image.isNone | none => true) } }

/-- Firmware's loads before it sets LEDGER_EN: CAP_MF of the newest record, or 80 % of the nameplate, and the size
of the tile map; the first capacitance test runs as soon as its check passes (R401, R406). -/
def State.loadLedger (s : State) (r : Option SaveRec) : State :=
  let cap := match r with
    | some x => x.capMf
    | none => s.fld Reg.elgNameplate 19 0 * 80 / 100
  (((s.setFld Reg.elgCap 19 0 cap).setFld Reg.elgMapTiles 29 0 (s.exposed * 512)).setBit Reg.elgCtl 1 true).recomputeEnergy.ledgerEval.capStart

/-- Firmware loads each region's live RKS before admission, and destroys every other entry that names the region; a region
without one has lost its keys, and its tiles in flash are uncorrectable here (R547). -/
def State.loadRegionKeys (s : State) : State :=
  s.regions.foldl (fun (t : State) e => match (t.sec.keys.get? e.1).filter fun k => k.epoch == e.2.epoch with
    | some k =>
      let k := { k with xts := t.dataKeys && !t.sec.debugUnlocked, oldMoves := [], oldReads := [] }
      { t with sec := { t.sec with keys := t.sec.keys.set e.1 k } }.keyRetire e.1 (some k.epoch)
    | none =>
      let t := { t with sec := { t.sec with keys := t.sec.keys.erase e.1 } }
      (t.tilesIn e.1 ((t.tiles.filter fun x => inFlash x.2.home).map Prod.fst)).foldl (fun (u : State) x =>
        u.markBad (tileSectors x)) t) s

/-- Steps 1 to 6 of R422, and the firmware record of the outcome (R583). -/
def State.restoreDo (s : State) (lost : List Nat) : State :=
  let r := s.newestRec
  let t := (s.setPhase 4).loadLedger r
  let t := { t with elg := { t.elg with
    saveGen := (match r with | some x => x.gen | none => 0)
    pSaveMw := (match r with | some x => if x.durationMs = 0 then 0 else x.energyMj * 1000 / x.durationMs | none => 0)
    replay := (match r with | some x => x.logs | none => []) } }
  let t := match r.bind fun x => x.image.map fun i => (x, i) with
    | some (x, i) => t.restoreImage x i (lost ++ t.chainLost x)
    | none => t.restoreNone
  t.loadRegionKeys.spareErase.recordF 0x2002 (match r with | some x => x.gen % 2 ^ 32 | none => 0) (match r with | some x => x.result | none => 0) 0
    { fw := true }

/-- RESTORE: after DRAM training firmware restores the newest image, and settles authority with the peer that has
answered with its SINGLE flag and entries, or rejoins a peer in service. A peer that answers later is settled with
by another RESTORE; after a warm reset DRAM was kept and nothing is restored (R31, R422–R424). -/
def execRestore (unsaved : List Nat) (peer : Option (Bool × List (Nat × Bool × Bool × Nat))) (s : State) : Out :=
  .next (
    if s.admitted || decide (6 ≤ s.phase) || s.elg.sage.isSome then s
    else
      let t := if s.phase = 5 then s else if s.fw.warm then s.setPhase 5 else (s.restoreDo unsaved).setPhase 5
      let r := t.newestRec
      if t.fw.warm then t.notePhase
      else if t.peerServes then (t.restoreRejoin r).settle
      else match peer with
        | some (single, l) => (t.settleAll r single l).settle.notePhase
        | none => t.settle)

/-! ### Admission (R34–R36, R421) -/

/-- Whether the twin is HALTED: it then admits no host (R4, R509). -/
def State.isHalted (s : State) : Bool := s.phase == 11

/-- Whether an unfinished SANITIZE or FORMAT keeps a region from being admitted: a SANITIZE always, since the region stays
OFFLINE, a FORMAT until it has been resumed on the twin that executes its queue (R222). -/
def State.progressResumed (s : State) (id : Nat) : Bool :=
  match s.progress.get? id with
  | none => true
  | some p => p.phase == 0 && (match s.sq? p.sq with
    | some q => !s.execHere q || (s.cmdAt p.sq p.pos).isSome
    | none => true)

/-- Whether a region's conditions hold (R34): the twin is not HALTED (R4), authority settled in this twin's favour, the
Ensign known to both or this twin alone, and no pending-write log left to replay. The spare save-outcome slot is erased before
the first admission (R415, R421). -/
def State.mayAdmit (s : State) (id : Nat) : Bool :=
  !s.isHalted && (s.regions.get? id).isSome && (s.region id).state == .offline && !s.twn.fenceIn && s.elg.sage.isNone
    && (s.paired || s.single) && decide (s.twn.settled.getD id 3 ≤ 1) && s.elg.replay.isEmpty
    && !(s.reqs.vals.any fun r => r.region == id && (match r.src with | .replay => true | _ => false))
    && s.progressResumed id && s.spareErased

/-- A region whose conditions hold is admitted; one that has lost its keys here asks the peer for them (R547); its queues are executed again here where this twin owns it (R31,
R34). -/
def State.admitRegion (s : State) (id : Nat) : State :=
  if s.mayAdmit id then
    let t := (s.admitHosts.regionState id .online).notePhase
    let t := if t.paired && (t.sec.keys.get? id).isNone then t.post (.control [.fetch id]) else t
    (if (t.region id).ensign == .owner then t.requeue id else t).servePinned.settle
  else s

/-- REGION_ADMIT (R31, R34). -/
def execRegionAdmit (region : Fin 4096) (s : State) : Out := .next (s.admitRegion region)

/-- Whether the peer reports phase HALTED. -/
def State.peerHalted (s : State) : Bool := match s.twn.peerB with
  | some b => b.phase == 11
  | none => false

/-- Whether the peer counts as one that has answered: it has been heard, and it is not a HALTED twin to which no link
is UP (R35, R36). -/
def State.peerAnswered (s : State) : Bool := s.twn.heardPeer && (!s.peerHalted || s.linkIsUp)

/-- What a twin alone may claim of a region: 1 where its record says that it saved it as single survivor, or where it
served it as single survivor before the warm reset that it starts from; 3 otherwise (R35). -/
def State.aloneClaim (s : State) (r : Option SaveRec) (id : Nat) : Nat :=
  if s.fw.warm then s.twn.settled.getD id 3
  else match sideOf r id with
    | some a => if a.single then 1 else 3
    | none => 3

/-- PEER_WAIT_EXPIRY: the peer counts as one that has answered on no path; only the regions whose record shows this twin
as single survivor may be admitted, once the peer is fenced, whatever FENCE_PATH_OK reads (R35). A HALTED twin admits
none (R4). -/
def execPeerWaitExpiry (s : State) : Out :=
  .next (
    if s.admitted || s.peerAnswered || s.paired || s.single || s.twn.fenceIn || s.isHalted then s
    else
      let r := s.newestRec
      let ids := s.regions.keys
      let t := { s with twn := { s.twn with settled := ids.foldl (fun m id => m.set id (s.aloneClaim r id)) [] } }
      if ids.any fun id => decide (t.twn.settled.getD id 3 ≤ 1) then t.fencePeer true else t)

/-- HALTED_PEER_ADMISSION: the peer reports HALTED and its firmware sends its entries on a link that is UP; while
the fence path is proved it is fenced, and the regions settled for this twin, or complete on both and single on
neither, this twin takes into service (R36). -/
def execHaltedPeerAdmission (entries : List (Nat × Bool × Bool × Nat)) (single : Bool) (s : State) : Out :=
  .next (
    if s.admitted || !s.peerHalted || !s.linkIsUp || s.twn.fenceIn || s.isHalted then s
    else
      let r := s.newestRec
      let t := s.settleAll r single entries
      let w := t.regions.keys.foldl (fun (m : Tbl Nat) id => match sideOf r id, peerSide single entries id with
        | some a, some b => if a.complete && b.complete && !a.single && !b.single then m.set id 1 else m
        | _, _ => m) t.twn.settled
      let t := { t with twn := { t.twn with settled := w } }
      (if t.twn.fenceOk then t.fencePeer false else t).settle)

end Sys2Proof.Machine
end

