-- ==== Sys2Proof/Machine/Reset.lean ====
section
/-! DEFINITION. Cold and warm resets: what each block keeps and discards (R12, R31, R32, R196, R240, R252, R284, R314,
R363, R380, R398, R439, R497, R522, R530, R565, R573, R592, R629, R651, R675, R689). -/

namespace Sys2Proof.Machine

/-! ### What survives -/

/-- A slot that was LOADING is EMPTY after any reset (R513). -/
def slotReset (x : FwSlot) : FwSlot :=
  match x.state with
  | .loading => { state := .empty, factory := false }
  | _ => x

/-- Firmware reboots: the slots are kept, everything else starts again (R31, R522). -/
def fwReset (f : Fw) (warm : Bool) : Fw := { a := slotReset f.a, b := slotReset f.b, running := f.running, warm := warm, record := f.record }

/-- An erase that a reset ends leaves its block with its mark set, hence INTERRUPTED (R573). -/
def eflBlockReset (b : EflBlock) : EflBlock :=
  match b.state with
  | .erasing => { b with state := .interrupted }
  | .suspended => { b with state := .interrupted }
  | _ => b

/-- The erases that wait after a reset: PWS, Sage and the EVR start theirs again, the one that the reset ends first;
firmware's are forgotten with the firmware (R573, R574, R592). -/
def jobsReset (e : Efl) : List (Nat × Nat) :=
  (match e.erase with
    | some b => if e.eraseBy < 3 then [(e.eraseBy, b)] else []
    | none => []) ++ e.jobs.filter fun j => decide (j.1 < 3)

/-- The EFL after a reset (R573, R592): an erase ends at its pulse and leaves its block INTERRUPTED. Where every data word had
verified erased, the reset may fall between steps 4 and 5 of R572, which is a free choice: the block word is then all ones and
COUNT unknown. `w` is that choice. -/
def eflReset (e : Efl) (warm : Bool) (w : Nat) : Efl :=
  let gap := e.erased && w % 2 == 1
  let kept := { e with
    seq := .locked, keyErrs := 0, lockout := false, erase := none, eraseBy := 0, pulses := 0, erased := false
    autoSusp := false, jobs := jobsReset e, pend := e.pend.filter fun x => x.1 == 3, scanned := false
    blocks := e.blocks.mapV eflBlockReset }
  let done := match e.erase with
    | some b => if gap then { kept with
        jobs := kept.jobs.filter fun j => j.2 != b, words := kept.words.filter (fun x => x.1 / 8192 != b)
        passes := kept.passes.filter (fun x => x.1 / 8192 != b)
        blocks := kept.blocks.set b { state := .normal, countKnown := false } } else kept
    | none => kept
  if warm then done
  else { words := done.words, passes := done.passes, blocks := done.blocks, jobs := done.jobs, pend := done.pend }

/-- Stripe blocks after any reset: those that were OPEN are closed as FULL, a probe's goes to ERASING (R377, R380). -/
def stripeReset (b : Stripe) : Stripe :=
  match b.state with
  | .opened => { b with state := .full }
  | .probing => { b with state := .erasing }
  | _ => b

/-- The FMC after a reset: the block table, its slots and remaps are kept; no unit is open (R31, R380, R398). -/
def fmcReset (f : Fmc) : Fmc :=
  { blocks := f.blocks.mapV stripeReset, slots := f.slots, remaps := f.remaps, ratedCycles := f.ratedCycles, formatted := f.formatted, chain := f.chain }

/-- Placement after a reset: the retired frames of the health record (R335) and a SANITIZE's scrub list are kept;
locations held for the map audit stay so until it (R714); moves end, and the Tile Map Cache is rebuilt (R252, R271, R284). -/
def plcReset (p : Plc) : Plc :=
  { retired := p.retired, scrub := p.scrub, scrubLocs := p.scrubLocs, heldFlash := p.heldFlash, moveSeq := p.moveSeq }

/-! ### Cold reset -/

/-- A cold reset: every register at its reset value, volatile state lost, and what lies in flash, in the
configuration flash, in OTP and on the straps kept. The tables, the tile map and DRAM come back with RESTORE (R31,
R422); the link keys and caches are destroyed (R565); PWS keeps its own sequencing and the count of restarts (R604,
R629). -/
def State.coldReset (s : State) : State :=
  { State.reset with
    pending := s.pending, out := s.out, fresh := s.fresh + 2
    exposed := s.exposed, reqSeq := s.reqSeq, cmdSeq := s.cmdSeq
    progress := s.progress
    plc := { retired := s.plc.retired, scrubLocs := s.plc.scrubLocs, heldFlash := s.plc.heldFlash }
    health := { s.health with starts := s.health.starts + 1 }
    lds := (s.lds.filterV fun l => !l.decode.isEmpty).mapV fun l => { decode := l.decode }
    fmc := fmcReset s.fmc
    elg := { slots := s.elg.slots }
    twn := { fenceIn := s.twn.fenceIn, hostsHeld := s.twn.fenceIn }
    fw := fwReset s.fw false
    sec := {
      uds := s.sec.uds, rootHash0 := s.sec.rootHash0, rootHash1 := s.sec.rootHash1, rootRevoke := s.sec.rootRevoke, serial := s.sec.serial
      lifecycle := s.sec.lifecycle, arb := s.sec.arb, variantN := s.sec.variantN, engSample := s.sec.engSample
      challenge := (List.range 8).map (fun i => Config.crypto [0x561, i, Config.random (s.fresh + 1)] % 2 ^ 32)
      bootSel := s.sec.bootSel, keys := s.sec.keys.mapV fun k => { epoch := k.epoch, rks := k.rks } }
    efl := eflReset s.efl false (Config.choice s.fresh)
    evr := { recs := s.evr.recs, keep := s.evr.keep, seq := s.evr.seq, slot := s.evr.slot, oldest := s.evr.oldest }
    pws := { rails := s.pws.rails, pwrOk := s.pws.pwrOk, inputBad := s.pws.inputBad, restarts := s.pws.restarts
             log := s.pws.log }
    twb := { strap := s.twb.strap } }

/-! ### Warm reset (R32) -/

/-- What a warm reset leaves of a register: those of the AON island are kept whole; elsewhere the RWL fields and the
BLOCK_LOCK keep their values, and GLB_ERR_EVENT and GLB_ERR_LAST are held (R12, R675). -/
def warmReg (off : Nat) (w : Word) : Word :=
  if islandOf off = 0 ∨ off = Reg.glbErrEvent ∨ off = Reg.glbErrLast then w
  else match descAt off with
    | some d =>
      let m := d.rwl ||| d.w1s
      BitVec.ofNat 32 ((d.rst &&& (0xFFFFFFFF ^^^ m)) ||| (w.toNat &&& m))
    | none => 0

/-- The register bank after a warm reset; each BPM_POOL_LOW starts at the COUNT that is kept (R194, R196). -/
def State.warmRegs (s : State) : Tbl Word :=
  let kept := (s.regs.map fun e => (e.1, warmReg e.1 e.2)).filter fun e => e.2 != resetOf e.1
  (List.range 5).foldl (fun (m : Tbl Word) i =>
    let n := w32 (Word.fld (m.getD (Reg.bpmCfg0 + 0x20 * i) (resetOf (Reg.bpmCfg0 + 0x20 * i))) 15 0)
    let low := Reg.bpmLow0 + 0x20 * i
    if n = resetOf low then m.erase low else m.set low n) kept

/-- The twin machinery after a warm reset: the links stop; TWIN_FENCE_OUT, the windows and the rejoin list are kept
(R497). A twin whose peer takes over rejoins (R33); any other starts again. -/
def State.warmTwn (s : State) : Twn :=
  { epoch := s.twn.epoch, epochSet := s.twn.epochSet, msgSeq := s.twn.msgSeq, fenceIn := s.twn.fenceIn
    fenceOut := s.twn.fenceOut, fenceSeen := s.twn.fenceSeen, hostsHeld := s.twn.fenceIn
    rejoin := s.openTiles.foldl insertNew s.twn.rejoin, fullResync := s.twn.fullResync, window := s.twn.window
    lastRelease := s.twn.lastRelease, offlined := s.twn.offlined
    settled := if s.twn.mate then [] else if s.single then (s.regions.filter fun e => e.2.ensign == .owner).map fun e => (e.1, 1)
      else s.twn.settled
    self := if s.twn.mate || s.twn.fenceIn then .rejoin
      else (match s.twn.self with | .rejoin => .rejoin | .leaving => .rejoin | _ => .starting) }

/-- Dirty lines that the reset overtakes are lost on this twin, to be recovered from the peer (R32). -/
def State.loseDirtyLines (s : State) : State :=
  (s.hlc.ways.vals.filter fun w => w.dirty).foldl (fun (t : State) w =>
    t.markBad ((List.range 4).map fun i => (w.tile * 16 + w.line) * 4 + i)) s

/-- The frame table as it is rebuilt: frames that the tile map names (R284), and those held for the map audit (R714). -/
def State.mapFrames (s : State) : Tbl Frame :=
  (s.tiles.filter fun e => inDram e.2.home).foldl (fun (m : Tbl Frame) e =>
    m.set e.2.loc { tile := e.1, cls := s.classOfTile e.1 }) (s.frames.filterV fun f => f.held)

/-- Bytes that a command's writes have applied, from the start of its range (R520). -/
def State.appliedBytes (s : State) (n : Nat) : Nat :=
  ((s.reqs.vals.filter fun r => isWrite r.op && (match r.src with | .tq m => m == n | _ => false)).map fun r =>
    if r.stage == .forwarded then r.done else r.len - (r.todo.map fun p => p.2.1).sum).sum

/-- What a warm reset does to a fetched command (R218, R520): one not started completes with ABORTED_RESET, a started one
with INTERRUPTED at its atomic-unit boundary and the bytes applied; a started SANITIZE or FORMAT keeps its progress record
and completes later. -/
def State.cutCommand (s : State) (n : Nat) : State :=
  match s.cmds.get? n with
  | none => s
  | some c =>
    let t := { s with cmds := s.cmds.erase n }
    match c.stage with
    | .assigning => t.seqDone c.sq c.pos c.seq false
    | .fetched => ((s.tqFinish n c 7 0).seqDone c.sq c.pos 0 false).count Reg.tqmCount
    | _ =>
      if c.d.opcode = 8 ∨ c.d.opcode = 9 then t
      else ((s.tqFinish n c 8 (s.appliedBytes n)).seqDone c.sq c.pos 0 false).count Reg.tqmCount

/-- Transfer queues meet a warm reset: no fetched entry but an unfinished SANITIZE or FORMAT stays incomplete (R520). -/
def State.cutCommands (s : State) : State := s.cmds.keys.foldl State.cutCommand s

/-- The reset step of a warm reset: every island but AON. DRAM is kept in self-refresh, the tile map has been written
back, and its HLC_OVER_DRAM entries become DRAM (R32 step 5, R252, R314, R334). Pending extents are withdrawn, and the
LDs read UNBOUND until firmware restores their bindings (R83, R84, R88). -/
def State.warmReset (s : State) : State :=
  let s := (s.lds.keys.foldl State.withdrawPending s).cutCommands
  let s := if s.twn.mate then s.yieldRegions else s
  let s := s.regions.keys.foldl (fun (t : State) id => if admits (t.region id).state then t.regionState id .offline else t) s
  { s with
    regs := s.warmRegs
    paths := []
    tiles := s.tiles.mapV fun e => { e with
      lock := false, evict := false, home := (match e.home with | .hlcOverDram => .dram | h => h) }
    frames := s.mapFrames
    moves := [], plc := plcReset s.plc, hlc := {}
    reqs := [], ended := [], noAdmit := false, admitted := false
    links := []
    lds := s.lds.mapV fun l => { bound := l.bound, alloc := l.alloc, decode := l.decode }
    ports := [], rdx := { keyFreed := s.rdx.keyFreed }, pools := [], cmds := [], sqWait := []
    chans := s.chans.mapV fun c => match c.state with
      | .off => { c with queue := [], issued := [], urgent := [], copying := none }
      | _ => { state := .selfRefresh, kept := true }
    fmc := fmcReset s.fmc, elg := { s.elg with probe := none }
    twn := s.warmTwn
    mbx := [], jwait := []
    fw := fwReset s.fw true
    sec := { s.sec with
      spdm := [], advanced := [], debugUnlocked := s.sec.debugUnlocked, failStep := 0, failOther := 0, waits := [], slotB := false, rootUsed := false
      keys := s.sec.keys.mapV fun k => { k with shaum := false } }
    fresh := s.fresh + 1
    efl := eflReset s.efl true (Config.choice s.fresh)
    evq := [], isl := { s.isl with gated := [], quiet := .awake, warm := 0, warmFw := false }
    err := {}, lap := {} }

/-- Starts a warm reset: admission stops (R32 step 1). A save that runs is never stopped (R415). -/
def State.warmStart (s : State) (fw : Bool) : State :=
  if s.isl.warm ≠ 0 ∨ s.elg.sage.isSome then s
  else { s with noAdmit := true, isl := { s.isl with warm := 1, warmFw := fw } }

/-- Whether a commanded warm reset still waits for the handoff of its Ensigns (R461). -/
def State.handing (s : State) : Bool :=
  s.isl.warmFw && s.paired && s.linkIsUp && (!s.twn.handoffs.isEmpty || s.handingCount != 0)

/-- Whether RESET_N is ignored: while a save or a power-down runs, and from the start of a warm reset until the boot
ROM starts (R704). -/
def State.resetIgnored (s : State) : Bool :=
  s.elg.sage.isSome || (match s.pws.seq with | .powerDown => true | _ => false) || s.isl.warm != 0
    || (s.fw.warm && s.phase == 0)

/-- RESET_N_ASSERT: RESET_N low for `ns`; 1 µs starts a warm reset, and wakes the chip from Quiet (R32, R617, R704). -/
def execResetNAssert (ns : Nat) (s : State) : Out :=
  .next (if ns < 1000 || s.resetIgnored then s else (s.wakeFor .resetN).warmStart false)

/-- Whether a program or an erase is in flight, which finishes before the FLASH island resets (R398). -/
def State.mediaRuns (s : State) : Bool :=
  (s.fmc.run.vals ++ s.fmc.held.vals).any fun w => match w.job with | .read _ _ => false | _ => true

/-- WARM_RESET_DRAIN_END: committed writes have completed, or 1 ms has passed; dirty lines and map entries are
written back, the channels enter self-refresh, and the islands are reset, once no program or erase is in flight and a wake
from Quiet is complete (R32 steps 2 to 5, R398, R618). -/
def execWarmResetDrainEnd (s : State) : Out :=
  .next (if s.isl.warm = 0 || s.handing || s.mediaRuns || !s.awake then s else s.warmReset)

/-- WARM_RESET_OVERRUN: the steps before the reset have taken longer than 5 ms: the overrun is logged, under a code
that the spec does not state, and the reset proceeds; dirty lines not yet written back are lost here, and the twin asks
for a full resynchronisation, which recovers them from the peer (R32, R476). -/
def execWarmResetOverrun (s : State) : Out :=
  .next (if s.isl.warm = 0 then s
    else
      let t := (s.record (Config.firmwareDefined 0x32 % 2 ^ 16) 0 0 0).loseDirtyLines
      { t with twn := { t.twn with fullResync := true } }.warmReset)

end Sys2Proof.Machine
end

