-- ==== Sys2Proof/Machine/Pws.lean ====
section
/-! DEFINITION. Chapter 15: rail visits, faults and their actions, input loss, restarts, Quiet, and the resets of the
AON island (R593–R618, R574, R697). -/

namespace Sys2Proof.Machine

/-! ### Rail faults (R602, R603) -/

/-- SYSTEM_RESET (R603): a save first where the twin is armed and every SAVE_NEED rail is qualified; otherwise an
UNSAVED entry, if armed, and the power-down at once. Both end with a restart. -/
def State.sysReset (s : State) (n : Nat) : State :=
  let armed := s.bit Reg.elgCtl 4
  let ok := (List.range 32).all fun k => !s.railPresent k || !s.railNeed k
    || (match (s.rail k).state with | .qualified => true | _ => false)
  if armed && ok then s.saveTrigger .inputRail true
  else
    let t := if armed then (s.railLog 4 n 7).flag Reg.pwsEvent 6 else s
    ({ t with elg := { t.elg with sage := none } }).downStart .systemReset

/-- The action of a fault while MON_EN is 1 (R602). -/
def State.railAction (s : State) (n : Nat) : State :=
  let g := s.railGroup n
  match s.fld (railReg n) 7 6 with
  | 0 => (s.modRail n fun r => { r with ignored := true }).noteGroup g
  | 1 =>
    if (s.rail n).retries < s.fld (railReg n) 9 8 then
      ((s.modRail n fun r => { r with state := .retryWait }).railDrive n false).noteGroup g
    else (s.noteGroup g).sysReset n
  | 2 => (s.groupsOff g).leaveService
  | _ => (s.noteGroup g).sysReset n

/-- A rail fault (R602): flag `bit`, the counts, the first capture with its log entry, the event record, and the
rail's action, which an INPUT rail has not (R601). A fault wakes the chip from Quiet (R617). -/
def State.railFault (s : State) (n cause bit : Nat) : State :=
  let t := ((s.wakeFor .pws).modRail n fun r => { r with state := .failed, good := 0 }).count Reg.pwsCount
  let t := if cause = 4 then t.count (Reg.pwsCount + 8) else t
  let t := if t.bit Reg.pwsFirstOp 31 then t
    else ((t.setReg Reg.pwsFirstOp (captureWord n cause (t.rail n).reading)).setReg64 Reg.pwsFirstOpTimeLo t.time).railLog 1 n cause
  let t := t.flagRecord Reg.pwsEvent bit 0x1301 n 0
  if t.bit Reg.pwsCtl 0 && !t.railInput n then t.railAction n else t

/-- A rail that fails during power-down: the first is captured and logged, later ones only counted (R606). -/
def State.pdFault (s : State) (n cause : Nat) : State :=
  let t := (s.modRail n fun r => { r with state := .failed, good := 0 }).count Reg.pwsCount
  if t.bit Reg.pwsFirstPd 31 then t
  else (((t.setReg Reg.pwsFirstPd (captureWord n cause (t.rail n).reading)).setReg64 Reg.pwsFirstPdTimeLo t.time).railLog
    2 n cause).flagRecord Reg.pwsEvent 3 0x1302 n 0

/-- PWS reports loss of input power: INPUT_LOSS, and the rail supervisor's save trigger (R415, R601). -/
def State.inputLost (s : State) : State := (s.flag Reg.pwsEvent 5).saveTrigger .inputRail false

/-- Whether the sequencer is in its full power-down. -/
def State.poweringDown (s : State) : Bool := match s.pws.seq with
  | .powerDown => true
  | _ => false

/-- Whether a rail's group is still sequencing: some rail of it is enabled and has neither qualified nor failed (R598). -/
def State.sequencing (s : State) (n : Nat) : Bool :=
  (s.groupRails (s.railGroup n)).any fun k => match (s.rail k).state with | .ramping => true | _ => false

/-- A visit to an INPUT rail: one that is not good reports loss of input power (R601). -/
def State.visitInput (s : State) (n : Nat) (good : Bool) : State :=
  let t := { s with pws := { s.pws with
    inputBad := if good then s.pws.inputBad.filter (· != n) else insertNew s.pws.inputBad n } }
  if good then t else t.inputLost

/-- A visit to a rail that is ramping: 16 consecutive good visits qualify it (R597). -/
def State.visitRamping (s : State) (n : Nat) (good : Bool) : State :=
  if !good then s.modRail n fun r => { r with good := 0 }
  else if (s.rail n).good + 1 < 16 then s.modRail n fun r => { r with good := r.good + 1 }
  else (s.modRail n fun r => { r with state := .qualified, good := 16 }).noteGroup (s.railGroup n)

/-- Whether a rail being discharged has discharged at a visit (R605 step 2). -/
def State.dischargedAt (s : State) (n reading : Nat) (pg : Bool) : Bool :=
  if s.bit (railReg n) 13 then decide (reading ≤ s.fld (railReg n + 8) 11 0) else !pg

/-- Judges a rail that is enabled, outside power-down (R597, R598, R602). -/
def State.visitLive (s : State) (n reading : Nat) (good : Bool) (transitions : Nat) : State :=
  if s.sequencing n && decide (4 < transitions) then s.railFault n 4 2
  else match (s.rail n).state with
    | .ramping => s.visitRamping n good
    | _ => if good then s else s.railFault n (s.railCause n reading) 0

/-- Judges a visit (R596–R598, R601, R602, R605, R606). A rail of a group that is off or disabled is not judged; one that
has failed is watched no more, but for an INPUT rail's loss of input power. -/
def State.visitJudge (s : State) (n reading : Nat) (pg : Bool) (transitions : Nat) : State :=
  let good := s.railGood n reading pg
  match (s.rail n).state with
  | .discharging =>
    if s.dischargedAt n reading pg then (s.modRail n fun r => { r with state := .discharged }).downCheck else s
  | .failed => if s.railInput n then s.visitInput n good else s
  | .ramping | .qualified =>
    let t := if s.poweringDown then (if good then s else s.pdFault n (s.railCause n reading))
      else s.visitLive n reading good transitions
    if s.railInput n then t.visitInput n good else t
  | _ => s

/-- RAIL_VISIT: the converter visits a PRESENT rail; `transitions` are those of RAIL_PG, or with PG_USED 0 of its good
state, within 1 ms (R596, R598). -/
def execRailVisit (rail : Fin 32) (reading : BitVec 12) (pg : Bool) (transitions : Nat) (s : State) : Out :=
  .next (if s.railPresent rail then
      (s.modRail rail fun r => { r with reading := reading.toNat, pg := pg }).visitJudge rail reading.toNat pg transitions
    else s)

/-- QUAL_TIMEOUT: a rail not qualified within its group's time fails (R599). -/
def execQualTimeout (rail : Fin 32) (s : State) : Out :=
  .next (match (s.rail rail).state with
    | .ramping => if s.poweringDown then s else s.railFault rail 5 1
    | _ => s)

/-- RAIL_RETRY_EXPIRY: RAIL_EN goes high again and the rail qualifies again; the retry is counted (R602). A power-down
re-enables nothing (R606). -/
def execRailRetryExpiry (rail : Fin 32) (s : State) : Out :=
  .next (match (s.rail rail).state with
    | .retryWait =>
      if s.poweringDown then s else
      ((s.modRail rail fun r => { r with state := .ramping, good := 0, retries := r.retries + 1 }).railDrive rail true).count
        (Reg.pwsCount + 4)
    | _ => s)

/-- RETRY_COUNT_RESET: a rail has stayed qualified for 1 s (R602). -/
def execRetryCountReset (rail : Fin 32) (s : State) : Out :=
  .next (match (s.rail rail).state with
    | .qualified => s.modRail rail fun r => { r with retries := 0 }
    | _ => s)

/-! ### Power-up, power-down, restart (R600, R601, R604–R608) -/

/-- PWR_OK_IN_RISE: high for 16 samples with VDD_AON good: it starts power-up, and from HALTED or a wait after a
power-down the cold start that it brings about (R600, R604, R608). -/
def execPwrOkInRise (s : State) : Out :=
  .next (
    if s.pws.pwrOk then s else
    let t := { s with pws := { s.pws with pwrOk := true } }
    match s.pws.seq with
    | .off =>
      if s.pws.restartPending then
        ({ t.coldReset with pws := { t.coldReset.pws with restarts := 0 } }).powerUp
      else ({ t with pws := { t.pws with restarts := 0 } }).powerUp
    | .halted => ({ t.coldReset with pws := { t.coldReset.pws with restarts := 0 } }).powerUp
    | _ => t)

/-- GROUP_DELAY_EXPIRY: a group's DELAY after the previous one is complete; later groups wait while a lower one is not
(R600, R602). -/
def execGroupDelayExpiry (group : Fin 8) (s : State) : Out :=
  .next (if s.poweringUp && s.pws.groupDelay && s.pws.group == group.val
      && (List.range group).all fun g => s.pws.complete.contains g
    then s.enableGroup group else s)

/-- INPUT_LOSS: PWR_OK_IN low for 4 samples, or an INPUT rail not good at a visit (R601). -/
def execInputLoss (okLow : Bool) (s : State) : Out :=
  .next (if okLow then
      (if s.pws.pwrOk then ({ s with pws := { s.pws with pwrOk := false } }).inputLost else s)
    else s.inputLost)

/-- DISCHARGE_TIMEOUT: a rail has not discharged in time: logged, counted, and the sequence goes on (R607). -/
def execDischargeTimeout (rail : Fin 32) (s : State) : Out :=
  .next (match (s.rail rail).state with
    | .discharging =>
      let t := ((s.modRail rail fun r => { r with state := .timedOut }).railLog 3 rail 6).count (Reg.pwsCount + 0xC)
      (t.flagRecord Reg.pwsEvent 4 0x1303 rail 0).downCheck
    | _ => s)

/-- RESTART_HOLD_EXPIRY: after HOLD, with PWR_OK_IN high, PWS performs a cold reset and powers up; otherwise it waits
for PWR_OK_IN (R604, R608). -/
def execRestartHoldExpiry (s : State) : Out :=
  .next (match s.pws.seq with
    | .hold =>
      if s.pws.pwrOk then
        let sys : Bool := match s.pws.down with | .systemReset => true | _ => false
        let t := s.coldReset
        let t := if sys then { t.count (Reg.pwsCount + 0x10) with pws := { t.pws with restarts := t.pws.restarts + 1 } } else t
        t.powerUp
      else { s with pws := { s.pws with seq := .off, restartPending := true } }
    | _ => s)

/-! ### Quiet (R614–R618) -/

/-- The conditions of R615 for entering Quiet. -/
def State.quietOk (s : State) : Bool :=
  (s.links.vals.all fun l => match l.state with | .down => true | .l1 => true | _ => false)
    && ((List.range 8).all fun n => !s.bit Reg.netPortMode (8 + n) || !(s.port n).up)
    && (s.rdx.qps.vals.all fun q => match q.state with | .keying => false | .established => false | _ => true)
    && s.cmds.isEmpty && s.moves.isEmpty && s.hlc.maint.isNone && !s.bit Reg.dmcScrubCtl 31
    && (s.regions.vals.all fun r => match r.state with | .resync => false | _ => true)
    && s.elg.sage.isNone && (match s.elg.state with | .fit => true | _ => false)
    && (s.mbx.vals.all fun m => !(m.background && (match m.state with | .busy => true | _ => false)))

/-- ISL_QUIET_CMD.ENTER: entry begins, or is refused with ENTRY_REFUSED (R615, R616). -/
def State.quietEnter (s : State) : State :=
  match s.isl.quiet with
  | .awake =>
    if s.bit Reg.islCtl 0 && s.quietOk then { s with isl := { s.isl with quiet := .entering } }
    else s.flag Reg.islEvent 2
  | _ => s

/-- The islands that Quiet gates: NET, CXA, CXB, DRAM0 to DRAM3 and FLASH (R614, R627). -/
def quietIslands : List Nat := [2, 3, 4, 5, 6, 7, 8, 9]

/-- Entry is done: channels in self-refresh, islands gated, lane groups 1 to 3 parked; one event record (R616). No
chapter of NET, RDX, CXA, FMC or DMC says what its block keeps across the gating (R18); the model keeps all of it (DESIGN
CHOICE, log 120). -/
def State.quietDone (s : State) : State :=
  let t := s.selfRefresh
  (({ t with isl := { t.isl with quiet := .quiet, gated := quietIslands.foldl insertNew t.isl.gated } }).count
    (Reg.islCount + 4)).record 0x0101 0 (t.reg Reg.islEvent).toNat 0

/-- What a tick of the device's clock brings when no command waits: 10 ns of device time pass, which starts when ISL releases
the AON island, and an entry to Quiet that nothing has woken ends (R600, R616). -/
def State.tick (s : State) : State :=
  let t := if s.pws.aonGood then { s with time := s.time + 10 } else s
  match s.isl.quiet with
  | .entering => t.quietDone
  | _ => t

/-- WAKE_TRIGGER (R617). -/
def execWakeTrigger (c : WakeCause) (s : State) : Out := .next (s.wakeFor c)

/-! ### The AON island's reset (R573, R697) -/

/-- AON_RESET: VDD_AON falls below 0.70 V: the AON island is reset, and with it the whole chip; sequencing starts again
from nothing (R573, R697). The rail fault log is kept (R629); `addrSel` is what the ADDR_SEL straps show when the island's
reset ends, where they are sampled (R631, R695). -/
def execAonReset (addrSel : Fin 4) (s : State) : Out :=
  .next { s.coldReset with pws := { log := s.pws.log }, twb := { strap := addrSel } }

end Sys2Proof.Machine
end

