-- ==== Sys2Proof/Machine/Efl.lean ====
section
/-! DEFINITION. Chapter 14: the configuration flash (R566–R574, R584–R588) and the event recorder (R577–R582, R589–R591),
with the delivery of event records to hosts (R664–R666). -/

namespace Sys2Proof.Machine

/-! ### Firmware's command sequence (R568) -/

/-- The EFL's error code (R586). -/
def State.eflErr (s : State) (e : Nat) : State := { s with efl := { s.efl with err := e } }

/-- Whether an erase of a block is forbidden now (R567, R587). -/
def State.eflProtected (s : State) (b : Nat) : Bool :=
  (b == 192 && decide (2 ≤ s.sec.lifecycle)) || (b == 207 && decide (1 ≤ s.sec.lifecycle))

/-- A broken sequence: the EFL relocks, ERR is set, the break counted, and nothing changed; sixteen consecutive KEY
errors set KEY_LOCKOUT (R568, R588). -/
def State.eflBreak (s : State) (e : Nat) : State :=
  let n := if e = 1 then s.efl.keyErrs + 1 else s.efl.keyErrs
  { s.count Reg.eflKeyErr with efl := { s.efl with
      seq := .locked, err := e, keyErrs := n, lockout := s.efl.lockout || decide (16 ≤ n) } }

/-- A write of EFL_UNLOCK. -/
def State.eflUnlockWrite (s : State) (key : Nat) : State :=
  if s.efl.lockout then s else
  match s.efl.seq with
  | .locked => if key = 0xAA55 then { s with efl := { s.efl with seq := .key1 } } else s.eflBreak 1
  | .key1 => if key = 0x55AA then { s with efl := { s.efl with seq := .unlocked, keyErrs := 0 } } else s.eflBreak 1
  | _ => s.eflBreak 2

/-- A write of another EFL register between the two keys breaks the sequence (R568). -/
def State.eflOther (s : State) : State :=
  match s.efl.seq with
  | .key1 => s.eflBreak 2
  | _ => s

/-- SUSPEND (R570). -/
def State.eflSuspendDo (s : State) : State :=
  if s.eflErasing then { s.eraseState .suspended with efl := { (s.eraseState .suspended).efl with autoSusp := false } }
  else s.eflErr 10

/-- RESUME: the ended pulse is run again; while a program is queued the erase resumes after it (R570). -/
def State.eflResumeDo (s : State) : State :=
  if s.eflSuspended then
    (if s.efl.prog.isSome || s.efl.brownout then { s with efl := { s.efl with autoSusp := true } }
     else { s.eraseState .erasing with efl := { (s.eraseState .erasing).efl with autoSusp := false } })
  else s.eflErr 10

/-- A write of EFL_CMD: SUSPEND and RESUME need no unlock; PROGRAM and ERASE need it, and are ignored while an operation
of firmware's is queued or running; other values give SEQUENCE (R568, R584). -/
def State.eflCmdWrite (s : State) (v : Nat) : State :=
  if v % 16 = 3 then s.eflSuspendDo
  else if v % 16 = 4 then s.eflResumeDo
  else if (v % 16 = 1 ∨ v % 16 = 2) ∧ s.eflBusy then s.eflErr 3
  else match s.efl.seq with
    | .unlocked =>
      if v % 16 = 1 then { s with efl := { s.efl with seq := .program } }
      else if v % 16 = 2 then { s with efl := { s.efl with seq := .erase } }
      else s.eflBreak 2
    | _ => s.eflBreak 2

/-- ERASE of a block by firmware: refused while it is forbidden, or while one is ERASING or SUSPENDED (R567, R570). -/
def State.eraseFw (s : State) (b : Nat) : State :=
  let t := { s with efl := { s.efl with seq := .locked } }
  if t.eflProtected b then t.eflErr 8
  else if t.efl.erase.isSome then t.eflErr 7
  else t.eraseStart b 3

/-- A write of EFL_ADDR: it starts an erase, or gives the address of a program (R568). -/
def State.eflAddrWrite (s : State) (v : Nat) : State :=
  match s.efl.seq with
  | .program => { s with efl := { s.efl with seq := .programAddr, addr := v % 2 ^ 24 / 8 * 8 } }
  | .erase => s.eraseFw (v % 2 ^ 24 / 65536)
  | _ => s.eflBreak 2

/-- A write of EFL_DATA_LO (R568). -/
def State.eflLoWrite (s : State) (v : Nat) : State :=
  match s.efl.seq with
  | .programAddr => { s with efl := { s.efl with seq := .programLo, lo := v } }
  | _ => s.eflBreak 2

/-- The condition of R569 that refuses a program, in the order of its table; 0 for none. -/
def State.programErr (s : State) (addr data : Nat) : Nat :=
  let b := s.eflBlock (addr / 65536)
  if (eflOnes ^^^ s.eflWord addr) &&& data ≠ 0 then 4
  else if 2 ≤ s.eflPasses addr then 5
  else match b.state with
    | .interrupted => 6
    | .erasing => 7
    | .suspended => 7
    | .normal => 0

/-- PROGRAM of a word by firmware: refused under R569, or queued. -/
def State.programFw (s : State) (addr data : Nat) : State :=
  let t := { s with efl := { s.efl with seq := .locked } }
  let e := t.programErr addr data
  if e ≠ 0 then t.eflErr e
  else { t.autoSuspend with efl := { t.autoSuspend.efl with prog := some { addr := addr, data := data } } }

/-- A write of EFL_DATA_HI starts the program (R568, R585). -/
def State.eflHiWrite (s : State) (v : Nat) : State :=
  match s.efl.seq with
  | .programLo => s.programFw s.efl.addr (s.efl.lo + 2 ^ 32 * v)
  | _ => s.eflBreak 2

/-- UNLOCK_DEADLINE: no command within 100 µs of an unlock (R568). -/
def execUnlockDeadline (s : State) : Out :=
  .next (match s.efl.seq with
    | .unlocked => s.eflBreak 2
    | _ => s)

/-! ### Programs and erases (R566, R569–R574) -/

/-- EFL_PROGRAM_DONE: the word is programmed; DONE is set (R568, R569). -/
def execEflProgramDone (s : State) : Out :=
  .next (match s.efl.prog with
    | some p =>
      if s.efl.brownout then s
      else ({ s with efl := { s.efl with prog := none } }.eflPut p.addr p.data).flag Reg.eflStatus 11
    | none => s)

/-- EFL_ERASE_PULSE_DONE: one of the 40 pulses and its verify; the data words are erased once the last has verified
(R566, R572). -/
def execEflErasePulseDone (verified : Bool) (s : State) : Out :=
  .next (if s.eflErasing && !s.efl.brownout then
      { s with efl := { s.efl with
          pulses := s.efl.pulses + 1, erased := s.efl.erased || (verified && decide (40 ≤ s.efl.pulses + 1)) } }
    else s)

/-- The highest valid COUNT among all blocks (R572). -/
def State.countMax (s : State) : Nat :=
  maxOf (s.efl.blocks.vals.map fun b => if b.countKnown then b.count else 0)

/-- The block word rewritten: COUNT + 1, estimated where COUNT was unknown; MARK clear (R572 steps 4 and 5). -/
def State.countErase (s : State) (b : Nat) : State :=
  let x := s.eflBlock b
  let n := (if x.countKnown then x.count else s.countMax) + 1
  let t := s.modBlock b fun _ => { state := .normal, count := n, est := !x.countKnown }
  let t := if x.countKnown then t else t.record 0x1103 b (t.shows Reg.eflStatus).toNat 0
  if n = 90000 then t.flagRecord Reg.eflStatus 15 0x1104 b 0 else t

/-- SAVE_ARM is set once hosts are admitted and the spare save-outcome slot is erased (R415, R421). -/
def State.armSave (s : State) : State :=
  if s.admitted && s.spareErased && s.elg.sage.isNone then s.setBit Reg.elgCtl 4 true else s

/-- The end of an erase: after every data word has verified erased, the block is NORMAL, and DONE is set for firmware's own
(R568, R572). What waited for the block is written, and the erase that is next begins (R568, R570, R575). -/
def State.eraseDone (s : State) : State :=
  match s.efl.erase with
    | some b =>
      if s.eflErasing && s.efl.erased && !s.efl.brownout then
        let t := { s with efl := { s.efl with
          words := s.efl.words.filter (fun x => x.1 / 8192 != b)
          passes := s.efl.passes.filter (fun x => x.1 / 8192 != b)
          erase := none, pulses := 0, erased := false } }.countErase b
        ((if s.efl.eraseBy = 3 then t.flag Reg.eflStatus 11 else t).eflGo).armSave
      else s
    | none => s

/-- EFL_AUTO_RESUME: no program has been queued for 100 µs (R570). -/
def execEflAutoResume (s : State) : Out :=
  .next (if s.eflSuspended && s.efl.autoSusp && s.efl.prog.isNone && !s.efl.brownout then
      { s.eraseState .erasing with efl := { (s.eraseState .erasing).efl with autoSusp := false } }
    else s)

/-- What the two-half areas hold after a reset: a table whose area has no live half is lost (R575). -/
def State.areasRead (s : State) : State :=
  let has := fun (a : Nat) => (s.liveHalf a).isSome
  { s with
    fw := { s.fw with record := if has 1 then s.fw.record else none }
    sec := { s.sec with keys := if has 2 then s.sec.keys else [] }
    pws := { s.pws with log := if has 3 then s.pws.log else [] }
    progress := if has 4 then s.progress else [] }

/-- EFL_BLOCK_SCAN: after a reset every block word is read; each block with its marker set is INTERRUPTED, with
INTERRUPTED_FOUND and one event record each (R573). The areas that hold one, or an incomplete half, are put in order
before they are used (R575). -/
def execEflBlockScan (s : State) : Out :=
  .next (if s.efl.scanned then s
    else
      let found := (s.efl.blocks.filter fun e => match e.2.state with | .interrupted => true | _ => false).map Prod.fst
      (found.foldl (fun (t : State) b => t.flagRecord Reg.eflStatus 14 0x1101 b 0)
        ([1, 2, 3, 4, 5].foldl State.areaStart { s.areasRead with efl := { s.efl with scanned := true } })).eflKick)

/-- AON_BROWNOUT: no new pulse starts. A program in progress ends cleanly, with its pass unused and any of its bits
programmed, which is a free choice; an erase becomes SUSPENDED; firmware's report ERR BROWNOUT (R574). -/
def execAonBrownout (s : State) : Out :=
  .next (if s.efl.brownout then s
    else
      let fwOp := s.efl.prog.isSome || (s.eflErasing && s.efl.eraseBy == 3)
      let auto := s.eflErasing && s.efl.eraseBy != 3
      let t := match s.efl.prog with
        | some p =>
          let d := s.draw
          let part := s.eflWord p.addr &&& (p.data ||| Config.choice d.2 % 2 ^ 64)
          { d.1 with efl := { d.1.efl with prog := none, words := d.1.efl.words.set (p.addr / 8) part } }
        | none => s
      let t := if t.eflErasing then t.eraseState .suspended else t
      let t := { t with efl := { t.efl with brownout := true, autoSusp := t.efl.autoSusp || auto } }
      (if fwOp then t.eflErr 9 else t).flagRecord Reg.eflStatus 13 0x1102 0 0)

/-- VDD_AON is good again: internal requesters reissue their ended operations (R574). -/
def State.brownoutEnd (s : State) : State :=
  if s.efl.brownout = false then s
  else
    let t := { s with efl := { s.efl with brownout := false } }
    (if t.eflSuspended && t.efl.autoSusp && t.efl.eraseBy != 3 && t.efl.prog.isNone then
      { t.eraseState .erasing with efl := { (t.eraseState .erasing).efl with autoSusp := false } } else t).eflGo

/-! ### Reads (R571, R585, R587) -/

/-- Whether the model's array lists the contents of a block: all but the identity block and a slot that holds what it left the
factory with (log 27). -/
def State.eflListed (s : State) (b : Nat) : Bool :=
  b != 192 && !(decide (b < 96) && s.fw.a.factory) && !(decide (96 ≤ b) && decide (b < 192) && s.fw.b.factory)

/-- A read of a word: a block being erased or INTERRUPTED reads partly erased, which is a free value with the bits
already 1 kept, and sets ERASE_PARTIAL_READ; a word that left the factory with the part is a free value (R571). -/
def State.eflRead (s : State) (addr : Nat) : State × Nat :=
  let b := addr / 65536 % 256
  let a := addr % 2 ^ 24 / 8 * 8
  let d := s.draw
  match (s.eflBlock b).state with
  | .normal =>
    if s.eflListed b || (s.efl.words.get? (a / 8)).isSome then (s, s.eflWord a)
    else (d.1, Config.choice d.2 % 2 ^ 64)
  | _ => (d.1.flag Reg.eflStatus 12, (s.eflWord a ||| Config.choice d.2) % 2 ^ 64)

/-- A write of EFL_RADDR by a path: the word it selects is the path's (R585). -/
def State.eflRaddrWrite (s : State) (k : Nat) (w : Word) : State :=
  let p := s.eflRead w.toNat
  ((p.1.setOwn k Reg.eflRaddr w).setOwn k Reg.eflRdataLo (w32 (p.2 % 2 ^ 32))).setOwn k Reg.eflRdataHi (w32 (p.2 / 2 ^ 32))

/-- EFL_BLOCK_STATE of a block (R587). -/
def State.blockWord (s : State) (b : Nat) : Word :=
  let x := s.eflBlock b
  w32 ((if x.countKnown then x.count else 0) * 2 ^ 8 + 16 * b2n x.est + 8 * b2n (s.eflProtected b) + eflCode x.state)

/-! ### The event recorder (R577–R581) -/

/-- The 32 bytes of a written record; reserved bits are left at 1 (R13, R577). -/
def recBytes (r : EvRec) : List Byte :=
  let flags := r.severity % 4 + 4 * b2n r.twin + 8 * b2n r.lost + 16 * b2n r.stopped + 32 * b2n r.forced + 64 * b2n r.fw + 128
  let body := fun (v : Nat) => leBytes 2 r.code ++ leBytes 1 flags ++ leBytes 1 v ++ leBytes 8 r.time ++ leBytes 4 r.p0
    ++ leBytes 4 r.p1 ++ leBytes 4 r.p2 ++ leBytes 4 r.p3
  body 0xA5 ++ leBytes 4 (crc32c (body 0xFF))

/-- The eight 32-bit words of a record, as the window shows them (R581, R590). -/
def recWords (r : EvRec) : List Nat :=
  (List.range 8).map fun i => ofLe (sliceBytes (recBytes r) (4 * i) 4)

/-- Programs a record at a byte address: words 1, 2 and 3, then word 0 without its mark and word 0 with it (R578). -/
def State.recPut (s : State) (addr : Nat) (r : EvRec) : State :=
  let bs := recBytes r
  let w := fun (i : Nat) => ofLe (sliceBytes bs (8 * i) 8)
  ((((s.eflPut (addr + 8) (w 1)).eflPut (addr + 16) (w 2)).eflPut (addr + 24) (w 3)).eflPut addr
    (w 0 ||| 0xFF * 2 ^ 24)).eflPut addr (w 0)

/-- The byte address of the ring block of sequence `q` (R567, R579). -/
def ringBase (q : Nat) : Nat := (208 + q % 6) * 65536

/-- Programs the ring header of the open block (R579). -/
def State.ringHeader (s : State) : State :=
  let a := ringBase s.evr.seq
  let seq := leBytes 4 s.evr.seq ++ leBytes 4 (2 ^ 32 - 1)
  let magic := leBytes 4 0x45565252
  ((s.eflPut a (ofLe (magic ++ leBytes 4 (crc32c (magic ++ seq))))).eflPut (a + 8) (ofLe seq))

/-- Whether a block may be written: NORMAL, and no erase of it waits. -/
def State.blockReady (s : State) (b : Nat) : Bool :=
  (match (s.eflBlock b).state with | .normal => true | _ => false) && !s.eraseDue b

/-- Makes a slot of the ring ready: the next block is opened when the open one is full, and a header begins each block.
None while the block cannot be written yet (R573, R579). -/
def State.ringOpen (s : State) : Option State :=
  let t := if s.evr.slot = 2048 then { s with evr := { s.evr with seq := s.evr.seq + 1, slot := 1 } } else s
  if t.blockReady (208 + t.evr.seq % 6) = false then none
  else if t.evr.slot = 1 then some t.ringHeader else some t

/-- The erase of the ring block to be opened next starts with the open block's 1,024th record, where that block has been
used before (R579). -/
def State.ringAhead (s : State) : State :=
  if s.evr.slot = 1025 ∧ 5 ≤ s.evr.seq then s.eraseAsk 2 [208 + (s.evr.seq + 1) % 6] else s

/-- Writes a record in its place, under the next RN. -/
def State.recWrite (s : State) (r : EvRec) : Option State :=
  if s.evr.keep < 1024 then
    if s.blockReady 207 then
      let t := s.autoSuspend.recPut (207 * 65536 + 32 * s.evr.keep) r
      some { t with evr := { t.evr with recs := t.evr.recs.set t.evr.keep r, keep := t.evr.keep + 1 } }
    else none
  else s.autoSuspend.ringOpen.map fun u =>
    let t := u.recPut (ringBase u.evr.seq + 32 * u.evr.slot) r
    { t with evr := { t.evr with recs := t.evr.recs.set t.evrNextRn r, slot := t.evr.slot + 1 } }.ringAhead

/-- Whether an LD receives a record (R664): a privileged LD every one of CXL_SEV or above, another LD those of CXA and
CXB that name it and the loss of a tile of a region under its live extents. -/
def State.ldHears (s : State) (ld : Nat) (r : EvRec) : Bool :=
  if s.privLd ld then decide (s.fld Reg.glbEvtCfg 1 0 ≤ r.severity)
  else ((r.code / 256 == 3 || r.code / 256 == 4) && r.code % 256 != 2 && r.p0 == ld)
    || (r.code == 0x0803 && s.extents.vals.any fun e => e.ld == ld && !e.pending && e.region == r.p0)

/-- The bit of an event queue's mask that selects a record (R665). -/
def evClass (code : Nat) : Nat := if code / 256 = 0x20 then 31 else code / 256

/-- Delivers a written record: to the event logs of LDs, to the alert of the MGT bus, and to the event queues
(R635, R664–R666). -/
def State.recDeliver (s : State) (rn : Nat) (r : EvRec) : State :=
  let t := (List.range 32).foldl (fun (u : State) ld =>
    if u.ldHears ld r then u.logEvent ld r.severity (.record rn (recWords r)) else u) s
  let t := if t.bit Reg.twbCtl 3 && decide (t.fld Reg.twbCtl 5 4 ≤ r.severity) then (t.flag Reg.twbAlert 2).noteAlert else t
  { t with evq := t.evq.mapV fun q =>
      if q.mask.testBit (evClass r.code) && decide (q.severity ≤ r.severity) then { q with gathered := q.gathered ++ [rn] }
      else q }

/-- After records were dropped the next one written carries LOST, and the drop itself is recorded with its count (R580,
R583). -/
def State.lostNote (s : State) : State :=
  if s.evr.dropped = 0 ∨ s.bit Reg.evrCtl 0 = false then s
  else ({ s with evr := { s.evr with dropped := 0 } }).record 0x1201 0 0 s.evr.dropped

/-- EVR_RECORD_WRITE: the record at the head of the queue is written, and is valid from then on (R578–R580). -/
def execEvrRecordWrite (s : State) : Out :=
  .next (match s.evr.queue with
    | [] => s
    | r :: rest =>
      if s.efl.brownout then s
      else
        let r := { r with lost := r.lost || s.evr.lostPending }
        match ({ s with evr := { s.evr with queue := rest, lostPending := false } }).recWrite r with
        | none => s
        | some t => (t.lostNote).recDeliver s.evrNextRn r)

/-- Firmware's record: the EVR supplies TIME, FW, TWIN and the severity of the code (R580, R591, R662). -/
def State.evrSubmitDo (s : State) (p3 : Nat) : State :=
  let g := fun (i : Nat) => (s.evr.submit.getD i 0).toNat
  let flags := g 0 / 2 ^ 16
  s.evrPush {
    code := g 0 % 2 ^ 16, severity := severityOf (g 0 % 2 ^ 16), twin := s.twin, lost := flags.testBit 3
    stopped := flags.testBit 4, forced := flags.testBit 5, fw := true, time := s.time
    p0 := g 1, p1 := g 2, p2 := g 3, p3 := p3 }

/-- A write of EVR_SUBMIT_CODE, P0, P1 or P2 (index 0 to 3) is held; that of P3 queues the record (R591). -/
def State.evrSubmitWrite (s : State) (i : Nat) (w : Word) : State :=
  if i = 4 then s.evrSubmitDo w.toNat else { s with evr := { s.evr with submit := s.evr.submit.set i w } }

/-! ### The window (R581) -/

/-- Where a read at a cursor starts: at the oldest retained ring RN when the cursor lies between 1,024 and it, which
skips records; and the records at or above, in RN order. -/
def State.evrFrom (s : State) (cursor : Nat) : Bool × List (Nat × EvRec) :=
  let skip := decide (1024 ≤ cursor) && decide (cursor < s.evr.oldest)
  let from' := if skip then s.evr.oldest else cursor
  (skip, s.evr.recs.filter fun e => decide (from' ≤ e.1))

/-- The answer of EVENT_READ: NEXT_CURSOR, COUNT with SKIPPED above it, and the records' words (R581). -/
def State.eventBody (s : State) (cursor count : Nat) : List Nat :=
  let p := s.evrFrom cursor
  let l := p.2.take count
  let next := match l.getLast? with
    | some e => e.1 + 1
    | none => cursor
  [next, l.length + 2 ^ 16 * b2n p.1] ++ l.flatMap fun e => recWords e.2

/-- EVR_STATUS's EMPTY and SKIPPED of a path's last window read (R590). -/
def State.windowFlags (s : State) (k : Nat) : Word := s.own k Reg.evrStatus

/-- A read of EVR_WINDOW_n by a path: the value, with the path's flags set and, for n = 7, its cursor advanced (R581). -/
def State.windowRead (s : State) (k n : Nat) : State × Word :=
  let p := s.evrFrom (s.own k Reg.evrCursor).toNat
  match p.2 with
  | [] => (s.setOwn k Reg.evrStatus (w32 (2 + b2n p.1)), 0)
  | e :: _ =>
    let t := s.setOwn k Reg.evrStatus (w32 (b2n p.1))
    (if n = 7 then t.setOwn k Reg.evrCursor (w32 (e.1 + 1)) else t, w32 ((recWords e.2).getD n 0))

/-- EVENT_NOTICE: an event queue sends up to 127 of the records it has gathered; a queue whose QP is not up loses them
(R665). -/
def execEventNotice (queue : Fin 4) (s : State) : Out :=
  .next (match s.evq.get? queue with
    | none => s
    | some q =>
      let now := q.gathered.take 127
      if now.isEmpty then s
      else
        let recs := s.evr.recs.filter fun e => now.contains e.1
        let body := [maxOf now + 1, recs.length] ++ recs.flatMap fun e => recWords e.2
        let t := { s with evq := s.evq.set queue { q with gathered := q.gathered.drop 127 } }
        let up : Bool := match s.qp? q.qpn with
          | some x => x.state == .established
          | none => false
        if up then t.noticeSend q.qpn 0x0080 body else t)

end Sys2Proof.Machine
end

