-- ==== Sys2Proof/Machine/Sec.lean ====
section
/-! DEFINITION. Chapter 13: secure boot, the rail table that the boot ROM loads, debug tokens, the entropy source, and the
SPDM responder (R513, R531–R543, R556, R594, R595, R712). -/

namespace Sys2Proof.Machine

/-! ### The rail table and the appliance record (R440, R594, R595) -/

/-- Whether an offset is a register of the rail table: PWS_RAIL_CFG, PWS_RAIL_WIN, PWS_RAIL_PD or PWS_GROUP_CFG (R594). -/
def railTableOff (off : Nat) : Bool :=
  (decide (Reg.pwsRailCfg0 ≤ off) && decide (off < Reg.pwsRailCfg0 + 0x200) && off % 16 != 12 && off % 4 == 0)
    || (decide (Reg.pwsGroup ≤ off) && decide (off < Reg.pwsGroup + 0x20) && off % 4 == 0)

/-- The state with a rail table in its registers: what the record does not list has its reset value. -/
def State.railsPut (s : State) (l : List (Nat × Nat)) : State :=
  (l.filter fun e => railTableOff e.1).foldl (fun (t : State) e => t.setReg e.1 (w32 e.2)) s

/-- Whether the rail table in the registers is valid (R595). -/
def State.railsValid (s : State) : Bool :=
  let ns := (List.range 32).filter s.railPresent
  let off := fun (n : Nat) => s.fld (railReg n) 7 6 == 2
  (ns.any fun n => s.railGroup n == 0)
    && (ns.all fun n => !(s.railGroup n == 0 && off n))
    && (ns.all fun n => !off n || ns.all fun m => !s.railNeed m || decide (s.railGroup m < s.railGroup n))
    && ((List.range 32).all fun n => !s.bit (railReg n) 13
      || (decide (s.fld (railReg n + 8) 11 0 < s.fld (railReg n + 4) 11 0)
        && decide (s.fld (railReg n + 4) 11 0 < s.fld (railReg n + 4) 27 16)))
    && (ns.all fun n => !s.railInput n || (s.railGroup n == 0 && s.bit (railReg n) 13))

/-- The boot ROM's rail table: the record's if it is there and valid, else the default with TABLE 0; then PWS_LOCK is set
and groups 1 to 7 start (R594, R600). A table locked by an earlier start is left alone (R12). -/
def State.railsLoad (s : State) : State :=
  if s.bit Reg.pwsLock 0 then s.pwsUp
  else
    let t := match s.fw.record with
      | none => s
      | some r => if (s.railsPut r.rails).railsValid then
          { s.railsPut r.rails with pws := { s.pws with table := true } } else s
    (t.setBit Reg.pwsLock 0 true).pwsUp

/-- Firmware loads the twin number and the appliance identifier from the record, while TWN_LOCK is not set (R440, R486). -/
def State.recordLoad (s : State) : State :=
  match s.fw.record with
  | none => s
  | some r => if s.bit Reg.twnLock 0 then s
    else (s.setReg Reg.twnId (w32 (2 + b2n r.twin))).setReg64 Reg.twnApplLo r.id

/-! ### Secure boot (R513, R536, R539) -/

/-- The slot that R513 names: a PENDING one, else the ACTIVE one, else A. -/
def bootSlot (f : Fw) : Bool :=
  if f.a.state == .pending then false
  else if f.b.state == .pending then true
  else if f.a.state == .active then false
  else f.b.state == .active

/-- Whether every block of a slot is NORMAL (R571). -/
def State.slotNormal (s : State) (b : Bool) : Bool :=
  s.efl.blocks.all fun e => e.1 / 96 != b2n b || (match e.2.state with | .normal => true | _ => false)

/-- The step of R536 at which a slot fails, 0 for none: what the checks on its image find, with the refusals that the
device's own state gives (the root revoked or absent, MFG, SVN below the counter, a block not NORMAL, contents discarded). -/
def State.bootFails (s : State) (b : Bool) (step : Nat) (root : Bool) : Nat :=
  let x := s.fwSlot b
  let step := if x.state == .empty && !x.factory then max 1 step else step
  if s.sec.rootRevoke.testBit (b2n root) || (root && s.sec.rootHash1 == 0) then 1
  else if step = 1 ∨ step = 2 then step
  else if step = 3 ∨ (x.state ≠ .empty ∧ (s.mfgOk x.mfg = false ∨ x.svn < s.sec.arb)) then 3
  else if s.slotNormal b = false then 4
  else min step 6

/-- What identifies the lifecycle in a derivation: LC of R539. -/
def State.lc (s : State) : Nat := 2 * s.sec.lifecycle + b2n s.sec.debugUnlocked

/-- CDI_L0, derived once per cold start; in RMA the UDS is withheld (R532, R533, R539). -/
def State.cdiOf (s : State) : Nat := Config.crypto [0, if 3 ≤ s.sec.lifecycle then 0 else s.sec.uds, s.lc]

/-- CDI_L1, which the alias key comes from: CDI_L0 with the digests and SVN of the running image (R539); replaced with
it at a live activation (R537). -/
def State.cdi1 (s : State) : Nat :=
  let x := s.fwSlot s.fw.running
  Config.crypto [1, s.sec.cdi, x.loaderDigest, x.fwDigest, x.ucodeDigest, x.svn]

/-- An attempt on a slot has failed: SEC_BOOT_STATUS and one event record; a PENDING slot is INVALID, which is the
fallback of R513 (R536). -/
def State.bootFailed (s : State) (b : Bool) (other : Bool) (step : Nat) : State :=
  let t := { s with sec := if other then { s.sec with failOther := step } else { s.sec with failStep := step } }
  let t := t.record 0x0E01 0 (t.shows Reg.secBoot).toNat 0
  if (t.fwSlot b).state == .pending then
    (t.modSlot b fun x => { x with state := .invalid }).flagRecord Reg.mbxEvent 4 0x0201 0 0
  else t

/-- A slot that boots without having been loaded by this device's firmware holds its factory image, whose version, SVN and
section digests the spec does not give (log 28). -/
def State.factorySlot (s : State) (b : Bool) : State :=
  s.modSlot b fun x => match x.state with
    | .empty => { x with
        mfg := s.sec.lifecycle == 0
        loaderDigest := Config.firmwareDefined 0x539 % 2 ^ 512, fwDigest := Config.firmwareDefined 0x53A % 2 ^ 512
        ucodeDigest := Config.firmwareDefined 0x53B % 2 ^ 512
        version := Config.firmwareDefined 0x535 % 2 ^ 32
        svn := s.sec.arb + Config.firmwareDefined 0x536 % (256 - s.sec.arb % 256) }
    | _ => x

/-- A slot has verified: the identity is derived, firmware starts, and loads the appliance record (R536 steps 5 and 6,
R539, R440). A twin whose debug is unlocked admits no host and is HALTED (R534). -/
def State.booted (s : State) (b root : Bool) : State :=
  let t := s.factorySlot b
  let t := if (t.fwSlot b).state == .pending then t else t.slotActive b
  let t := { t with
    fw := { t.fw with running := b }
    sec := { t.sec with slotB := b, rootUsed := root, cdi := if t.sec.udsLocked then t.sec.cdi else t.cdiOf, udsLocked := true } }
  let t := (t.count (Reg.secCount + 4)).recordLoad
  if t.sec.debugUnlocked then { t with noAdmit := true }.setPhase 11 else t.setPhase 2

/-- BOOT_ROM_START: CC0 runs the boot ROM on the slot of R513, or with BOOT_SEL 1 on the other, and then on the one not
tried; if both fail it halts in phase BOOT_ROM (R536). `stepA` and `stepB` are the steps that the images of the two
slots fail, 0 for none; `bootSel` and `testEn` are the straps, and TEST_EN 1 holds the chip in factory test (R695). -/
def execBootRomStart (stepA stepB : Nat) (rootUsed bootSel testEn : Bool) (s : State) : Out :=
  .next (if testEn ∨ s.phase ≠ 0 ∨ (s.sec.failStep ≠ 0 ∧ s.sec.failOther ≠ 0) then s
    else
      let t := { s with sec := { s.sec with bootSel := bootSel } }.railsLoad
      let first := bootSlot t.fw != t.sec.bootSel
      let step := fun (u : State) (b : Bool) => u.bootFails b (if b then stepB else stepA) rootUsed
      if step t first = 0 then t.booted first rootUsed
      else
        let u := (t.bootFailed first false (step t first)).flag Reg.secEvent 0
        if step u (!first) = 0 then u.booted (!first) rootUsed
        else u.bootFailed (!first) true (step u (!first)))

/-- BOOT_CONFIRM_TIMEOUT: 60 s after phase 2 on an appliance with no admissible region a boot from a PENDING slot is
confirmed (R513). -/
def execBootConfirmTimeout (s : State) : Out :=
  .next (if 2 ≤ s.phase ∧ s.regions.isEmpty then s.fwConfirm else s)

/-! ### Debug, scan and entropy (R534, R563, R712) -/

/-- The challenge is renewed (R561). -/
def State.newChallenge (s : State) : State :=
  let d := s.draw
  let ws := (List.range 8).map fun i => Config.crypto [0x561, i, Config.random d.2] % 2 ^ 32
  { d.1 with sec := { d.1.sec with challenge := ws } }

/-- Every key cache is cleared, and every key derived again with the lifecycle state and the debug bit: what was wrapped
under the earlier keys cannot be unwrapped (R534, R544). -/
def State.keysLost (s : State) : State :=
  let kept := s.sec.keys.mapV fun k => { epoch := k.epoch, rks := k.rks }
  let qps := s.rdx.qps.mapV fun q => { q with keyCached := false }
  { s with
    sec := { s.sec with cdi := s.cdiOf, keys := if 3 ≤ s.sec.lifecycle then [] else kept }
    rdx := { s.rdx with qps := qps } }

/-- DEBUG_TOKEN: a token presented over JTAG in PRODUCTION. One that verifies unlocks debug until the next cold reset, or
also enters RMA; the twin then admits no host and is HALTED. The challenge is renewed after each (R534, R561). -/
def execDebugToken (valid rma : Bool) (s : State) : Out :=
  .next (
    let t := s.newChallenge
    if valid = false then (t.flag Reg.secEvent 4).count (Reg.secCount + 8)
    else if t.sec.lifecycle ≠ 2 then t
    else
      let u := { t with sec := { t.sec with debugUnlocked := true, lifecycle := if rma then 3 else 2 } }.keysLost
      ({ u.leaveService with noAdmit := true }.setPhase 11).settle)

/-- PIN_CONTROL_SCAN_LOAD: one event record for every load, in every lifecycle state (R534, R712). -/
def execPinControlScanLoad (_instruction : Nat) (s : State) : Out :=
  .next (s.record 0x0E02 0 (s.shows Reg.secEvent).toNat 0)

/-- ENTROPY_FAIL: the entropy source's health test fails, and no key is drawn until it passes (R563). -/
def execEntropyFail (passes : Bool) (s : State) : Out :=
  .next (if passes then { s with sec := { s.sec with entropyOk := true } }
    else { s with sec := { s.sec with entropyOk := false } }.flag Reg.secEvent 1)

/-! ### SPDM (R541–R543) -/

/-- The key of an SPDM requester. -/
def spdmKey : SpdmPath → Nat
  | .doe ld => ld
  | .mgt eid => 32 + eid

/-- A requester's session. -/
def State.spdmOf (s : State) (q : SpdmPath) : Spdm := s.sec.spdm.getD (spdmKey q) {}

/-- Changes a requester's session. -/
def State.modSpdm (s : State) (q : SpdmPath) (f : Spdm → Spdm) : State :=
  { s with sec := { s.sec with spdm := s.sec.spdm.upd (spdmKey q) {} f } }

/-- The SPDM response codes that the responder sends (PRESUMED from DSP0274, log 29). -/
def spdmDigests : Nat := 0x01
def spdmCertificate : Nat := 0x02
def spdmChallengeAuth : Nat := 0x03
def spdmVersion : Nat := 0x04
def spdmChunkSendAck : Nat := 0x05
def spdmChunkResponse : Nat := 0x06
def spdmMeasurements : Nat := 0x60
def spdmCapabilities : Nat := 0x61
def spdmAlgorithms : Nat := 0x63
def spdmError : Nat := 0x7F

/-- Sends a response: over DOE, or as MCTP message type 5 on MGT (R542, R630). -/
def State.spdmSay (s : State) (q : SpdmPath) (code : Nat) (body : List Nat) : State :=
  let t := s.emit (.spdm q code body)
  match q with
  | .doe _ => t
  | .mgt eid => t.mctpSend eid 0 5 (leBytes 2 (0x13 + 256 * code) ++ body.flatMap (leBytes 4))

/-- ERROR with its error code: 0x01 InvalidRequest, 0x04 UnexpectedRequest, 0x07 UnsupportedRequest, 0x0F LargeResponse. -/
def State.spdmErr (s : State) (q : SpdmPath) (e : Nat) : State := s.spdmSay q spdmError [e]

/-- Sends a response of `bytes` bytes; one longer than the requester's DataTransferSize is fetched in chunks (R542). -/
def State.spdmReply (s : State) (q : SpdmPath) (code bytes : Nat) (body : List Nat) : State :=
  let p := s.spdmOf q
  if p.dataXfer ≠ 0 ∧ p.dataXfer < bytes then
    (s.modSpdm q fun x => { x with large := code :: bytes :: body, sent := 0, nextChunk := 0, handle := (x.handle + 1) % 256 }).spdmSay
      q spdmError [0x0F, (p.handle + 1) % 256]
  else s.spdmSay q code body

/-- Adds to a session's transcript. -/
def State.spdmNote (s : State) (q : SpdmPath) (l : List Nat) : State :=
  s.modSpdm q fun x => { x with transcript := x.transcript ++ l }

/-- A signature by the alias key over a session's transcript (R539, R542). -/
def State.spdmSign (s : State) (q : SpdmPath) (nonce : Nat) : State × Nat :=
  (s.count (Reg.secCount + 4), Config.crypto ([0x542, s.cdi1, nonce] ++ (s.spdmOf q).transcript))

/-- The content of a measurement block (R543); of block 7 the digest of the appliance record. -/
def State.measurement (s : State) (i : Nat) : List Nat :=
  let x := s.fwSlot s.fw.running
  match i with
  | 1 => [Config.firmwareDefined 0x543 % 2 ^ 512]
  | 2 => [x.loaderDigest]
  | 3 => [x.fwDigest]
  | 4 => [x.ucodeDigest]
  | 5 => [x.version, x.svn, b2n s.fw.running]
  | 6 => [s.sec.lifecycle, b2n s.sec.debugUnlocked, s.sec.arb]
  | _ => [Config.crypto (0x7543 :: (match s.fw.record with
      | some r => [b2n r.twin, r.id] ++ r.rails.flatMap fun e => [e.1, e.2]
      | none => []))]

/-- The answer to a CHALLENGE: digest of the chain, nonce and signature (R542). -/
def State.challengeReply (s : State) (q : SpdmPath) (nonce : Nat) : State :=
  let d := s.draw
  let mine := Config.random d.2
  let p := (d.1.spdmNote q [0x83, nonce, mine]).spdmSign q nonce
  p.1.spdmReply q spdmChallengeAuth 3445 [Config.crypto [0x541, s.cdi1], mine, p.2]

/-- The answer to GET_MEASUREMENTS: index 0 the number of blocks, 0xFF all of them (R543). -/
def State.measureReply (s : State) (q : SpdmPath) (index nonce : Nat) (signed : Bool) : State :=
  let blocks := if index = 0xFF then (List.range 7).flatMap fun i => s.measurement (i + 1)
    else if index = 0 then [7] else s.measurement index
  let d := s.draw
  let mine := Config.random d.2
  let t := d.1.spdmNote q ([0xE0, index, nonce, mine] ++ blocks)
  if signed then
    let p := t.spdmSign q nonce
    p.1.spdmReply q spdmMeasurements (3400 + 4 * blocks.length) (blocks ++ [mine, p.2])
  else t.spdmReply q spdmMeasurements (64 + 4 * blocks.length) (blocks ++ [mine])

/-- Whether the lattice engines are stopped: in Quiet and until the wake is complete (R556). -/
def State.latticeOff (s : State) : Bool := s.gated 2 && (match s.isl.quiet with
  | .quiet => true
  | .waking => true
  | _ => false)

/-- Signs now, or once the wake is complete (R556). -/
def State.signWhen (s : State) (q : SpdmPath) (index : Option Nat) (nonce : Nat) : State :=
  if s.latticeOff then { s with sec := { s.sec with waits := s.sec.waits ++ [(q, index, nonce)] } }
  else match index with
    | none => s.challengeReply q nonce
    | some i => s.measureReply q i nonce true

/-- What needs the session's algorithms: UnexpectedRequest before they are negotiated. -/
def State.spdmWhen (s : State) (q : SpdmPath) (good : State → State) : State :=
  if (s.spdmOf q).algs then good s else s.spdmErr q 0x04

/-- The digest of the root certificate that the chain carries, 48 bytes (R541). -/
def rootDigest : Nat := Config.firmwareDefined 0x542 % 2 ^ 384

/-- Byte `j` of the certificates: those of manufacture, which carry SERIAL, then the alias certificate, which the alias key and
the image fix (R540). -/
def State.certByte (s : State) (j : Nat) : Nat :=
  (if j < Config.firmwareDefined 0x540 % chainLen then Config.firmwareLayout (0x540 * 2 ^ 32 + j) s.sec.serial
   else Config.firmwareLayout (0x540 * 2 ^ 32 + j) (s.cdi1 :: s.sec.lifecycle :: s.sec.serial)) % 256

/-- Byte `i` of the chain: its length, reserved bytes, the digest of the root certificate, the certificates (R541). -/
def State.chainByte (s : State) (i : Nat) : Nat :=
  if i < 2 then chainLen / 256 ^ i % 256
  else if i < 4 then 0
  else if i < 52 then rootDigest / 256 ^ (i - 4) % 256
  else s.certByte (i - 52)

/-- GET_CERTIFICATE of a slot, from an offset: the portion and what remains (R541). -/
def State.certReply (s : State) (q : SpdmPath) (slot off len : Nat) : State :=
  if slot ≠ 0 ∨ chainLen ≤ off then s.spdmErr q 0x01
  else
    let n := min len (chainLen - off)
    (s.spdmNote q [0x82, off, n]).spdmReply q spdmCertificate (8 + n)
      ([slot, n, chainLen - off - n] ++ (List.range n).map fun i => s.chainByte (off + i))

/-- GET_VERSION begins a session: versions 1.2 and 1.3 (R542). -/
def execGetVersion (q : SpdmPath) (s : State) : Out :=
  .next ((s.modSpdm q fun _ => { version := true, transcript := [0x84] }).spdmSay q spdmVersion [0x12, 0x13])

/-- GET_CAPABILITIES: DataTransferSize 4,096 (R542). -/
def execGetCapabilities (q : SpdmPath) (dataXfer : Nat) (s : State) : Out :=
  .next (if (s.spdmOf q).version then
      ((s.modSpdm q fun x => { x with caps := true, algs := false, dataXfer := dataXfer }).spdmNote q [0xE1, dataXfer]).spdmSay
        q spdmCapabilities [4096]
    else s.spdmErr q 0x04)

/-- NEGOTIATE_ALGORITHMS: SHA3-384 and ML-DSA-65; a requester that offers no ML-DSA-65 receives UnsupportedRequest
(R542). -/
def execNegotiateAlgorithms (q : SpdmPath) (supported : Bool) (s : State) : Out :=
  .next (if (s.spdmOf q).caps = false then s.spdmErr q 0x04
    else if supported = false then s.spdmErr q 0x07
    else ((s.modSpdm q fun x => { x with algs := true }).spdmNote q [0xE3]).spdmSay q spdmAlgorithms [1])

/-- GET_DIGESTS: slot 0 only (R542). -/
def execGetDigests (q : SpdmPath) (s : State) : Out :=
  .next (s.spdmWhen q fun t => (t.spdmNote q [0x81]).spdmReply q spdmDigests 52 [1, Config.crypto [0x541, t.cdi1]])

/-- GET_CERTIFICATE: slot 0 only (R541, R542). -/
def execGetCertificate (q : SpdmPath) (slot off len : Nat) (s : State) : Out :=
  .next (s.spdmWhen q fun t => t.certReply q slot off len)

/-- CHALLENGE: signed by the alias key (R542). -/
def execChallenge (q : SpdmPath) (slot nonce : Nat) (s : State) : Out :=
  .next (s.spdmWhen q fun t => if slot = 0 then t.signWhen q none nonce else t.spdmErr q 0x01)

/-- GET_MEASUREMENTS (R542, R543). -/
def State.measureDo (s : State) (q : SpdmPath) (index nonce : Nat) (signed : Bool) : State :=
  if 7 < index ∧ index ≠ 0xFF then s.spdmErr q 0x01
  else if signed then s.signWhen q (some index) nonce
  else s.measureReply q index nonce false

/-- GET_MEASUREMENTS: signed or unsigned (R542, R543). -/
def execGetMeasurements (q : SpdmPath) (index nonce : Nat) (signed : Bool) (s : State) : Out :=
  .next (s.spdmWhen q fun t => t.measureDo q index nonce signed)

/-- The request that the chunks of a large request spell (PRESUMED from DSP0274, log 29): those that R542 supports after
negotiation are served, others are unsupported. -/
def State.largeRequest (s : State) (q : SpdmPath) (bs : List Byte) : State :=
  let b := fun (i : Nat) => (bs.getD i 0).toNat
  let nonce := ofLe (sliceBytes bs 4 32)
  match b 1 with
  | 0x81 => s.spdmReply q spdmDigests 52 [1, Config.crypto [0x541, s.cdi1]]
  | 0x82 => s.certReply q (b 2) (ofLe (sliceBytes bs 4 2)) (ofLe (sliceBytes bs 6 2))
  | 0x83 => if b 2 = 0 then s.signWhen q none nonce else s.spdmErr q 0x01
  | 0xE0 => s.measureDo q (b 3) nonce (b 2 % 2 == 1)
  | _ => s.spdmErr q 0x07

/-- CHUNK_SEND: the chunks of a large request in order; each is acknowledged, and the last brings the request (R542). -/
def execChunkSend (q : SpdmPath) (chunk : Nat) (data : List Byte) (last : Bool) (s : State) : Out :=
  .next (s.spdmWhen q fun t =>
    let p := t.spdmOf q
    let at' := if chunk = 0 then 0 else p.nextChunk
    if chunk ≠ at' then (t.modSpdm q fun x => { x with chunksIn := [], nextChunk := 0 }).spdmErr q 0x01
    else
      let bs := (if chunk = 0 then [] else p.chunksIn) ++ data
      if last then ((t.modSpdm q fun x => { x with chunksIn := [], nextChunk := 0 }).spdmSay q spdmChunkSendAck [chunk]).largeRequest q bs
      else (t.modSpdm q fun x => { x with chunksIn := bs, nextChunk := chunk + 1 }).spdmSay q spdmChunkSendAck [chunk])

/-- CHUNK_GET: the chunks of a large response in order, each of at most the requester's DataTransferSize (R542). -/
def execChunkGet (q : SpdmPath) (handle chunk : Nat) (s : State) : Out :=
  .next (s.spdmWhen q fun t =>
    let p := t.spdmOf q
    match p.large with
    | code :: bytes :: body =>
      if handle ≠ p.handle ∨ chunk ≠ p.nextChunk then t.spdmErr q 0x01
      else
        let n := min (p.dataXfer - 16) (bytes - p.sent)
        let last := decide (bytes ≤ p.sent + n)
        let u := t.modSpdm q fun x =>
          if last then { x with large := [], sent := 0, nextChunk := 0 } else { x with sent := x.sent + n, nextChunk := chunk + 1 }
        u.spdmSay q spdmChunkResponse ([handle, chunk, b2n last, p.sent, n, code] ++ body)
    | _ => t.spdmErr q 0x04)

/-- Serves the signatures that waited for the lattice engines, once the wake is complete (R556). -/
def State.signWaiting (s : State) : State :=
  s.sec.waits.foldl (fun (t : State) w => t.signWhen w.1 w.2.1 w.2.2) { s with sec := { s.sec with waits := [] } }

/-- WAKE_COMPLETE: every island runs again and every channel is ACTIVE; `tenthUs` is the duration in 0.1 µs. A wake
that abandoned an entry leaves no Quiet (R556, R616, R617, R628). -/
def execWakeComplete (tenthUs : Nat) (s : State) : Out :=
  .next (match s.isl.quiet with
    | .waking =>
      let left := s.isl.gated.contains 2
      let t := if left then s.selfRefreshEnd else s
      let t := { t with isl := { t.isl with
        quiet := .awake, gated := if left then t.isl.gated.filter fun i => !quietIslands.contains i else t.isl.gated } }
      let t := t.setReg Reg.islWakeTime (w32 (min tenthUs (2 ^ 16 - 1)))
      let t := if 500 < tenthUs then t.flag Reg.islEvent 4 else t
      ((if left then t.record 0x0102 0 (t.reg Reg.islEvent).toNat 0 else t).signWaiting).settle
    | _ => s)

end Sys2Proof.Machine
end

