-- ==== Sys2Proof/Machine/Errors.lean ====
section
/-! DEFINITION. Chapter 17: errors of the mesh, the engines, the descriptor stores and the control cores, and the window of
the error rates (R652, R653, R661, R667). -/

namespace Sys2Proof.Machine

/-- An operation that failed a second time ends as a failed read of its source; a host's payload is not acknowledged (R653). -/
def State.meshLost (s : State) (m : MeshSource) : State :=
  match m with
  | .line tile line => s.badRead tile (lineSectors tile line 15) false
  | .slice tile slice => s.sliceBad tile slice
  | .payload => s

/-- MESH_PARITY_ERROR: the link replays from its retry buffer, up to 3 times; after replays that all failed the operation is
issued again, once, and `lost` is its source where that has failed too (R652, R653, R674). Both are errors of class RETRIED. -/
def execMeshParityError (_link replays : Nat) (ok : Bool) (lost : Option MeshSource) (s : State) : Out :=
  .next (
    let t := (s.countBy Reg.glbMeshReplay (if ok then max 1 (min 3 replays) else 3)).err1 0 .retried
    match ok, lost with
    | false, some m => (t.meshLost m).settle
    | _, _ => t)

/-- MESH_LINK_DEGRADED: more than 16 failed replays in one second; traffic is routed around the link (R652, R672). -/
def execMeshLinkDegraded (link : Nat) (s : State) : Out :=
  .next (if s.err.meshDown.contains link then s
    else ({ s with err := { s.err with meshDown := s.err.meshDown ++ [link] } }.flag Reg.glbErrEvent 2).err1 0 .degraded)

/-- ENGINE_ISTORE_PARITY: the engine halts and is reloaded from the verified image; a second failure within 1 s is a
self-test failure (R481, R652). -/
def execEngineIstoreParity (engine : Fin 28) (within1s : Bool) (s : State) : Out :=
  .next (if within1s then (s.engineFailed engine).settle
    else ({ s with err := { s.err with halted := insertNew s.err.halted engine } }.err1 0 .retried).emit (.engineReload engine))

/-- ENGINE_RELOAD_DONE: the engine runs again (R652). -/
def execEngineReloadDone (engine : Fin 28) (s : State) : Out :=
  .next { s with err := { s.err with halted := s.err.halted.filter (· != engine.val) } }

/-- A region's descriptor or RGT words are bad: the twin fetches its copy again from the peer by a CONTROL message; with the
peer absent the region goes OFFLINE here (R652, R672). -/
def State.descBad (s : State) (region : Nat) : State :=
  let t := s.flag Reg.glbErrEvent 3
  if t.paired then
    ({ t with err := { t.err with descFetch := insertNew t.err.descFetch region } }.err1 0 .retried).post (.control [.fetch region])
  else ((t.err1 0 .contained).regionState region .offline).notePhase.settle

/-- A line of the Tile Map Cache fails parity: a clean one is dropped, to be read again; every entry of a dirty one is handled
as a CHECK failure (R56, R652). -/
def State.mapLineBad (s : State) (line : Nat) : State :=
  match s.plc.tmc.get? line with
  | none => s
  | some l =>
    let t := { s with plc := { s.plc with tmc := s.plc.tmc.erase line } }
    if l.dirty then (((List.range 8).map (line * 8 + ·)).foldl State.checkFail t).settle else t.err1 8 .retried

/-- SRAM_DESCRIPTOR_ERROR: an on-chip store finds an error in one of its words (R652). A QP whose context is bad goes to ERROR; the
packet in a bad buffer is as if it had never been received; a cached key is derived or unwrapped again. -/
def execSramDescriptorError (word : SramWord) (s : State) : Out :=
  .next (match word with
    | .corrected block => s.err1 block .corrected
    | .descriptor region => s.descBad region
    | .mapLine line => s.mapLineBad line
    | .qpContext qpn => match s.qp? qpn with
      | some _ => ((s.qpEnter qpn .error).err1 6 .contained).settle
      | none => s
    | .buffer => s.err1 16 .retried
    | .keyCache => s.err1 14 .retried)

/-- CC_MEM_UNCORRECTABLE: CC_MEM, class FATAL, and a warm reset (R652, R661, R672). -/
def execCcMemUncorrectable (s : State) : Out :=
  .next (((s.flag Reg.glbErrEvent 4).err1 0 .fatal).warmStart false)

/-- ERROR_RATE_WINDOW: a window of WINDOW_S ends; the window counts start again (R667). A threshold is seen as each error is
counted (`State.err1`). -/
def execErrorRateWindow (s : State) : Out :=
  .next { s with err := { s.err with winCorr := 0, winRepair := 0, corrSet := false, repairSet := false } }

end Sys2Proof.Machine
end

