-- ==== Sys2Proof/Machine/Lap.lean ====
section
/-! DEFINITION. Chapter 18: the Legacy Aperture (R676–R689). -/

namespace Sys2Proof.Machine

/-- Whether the aperture serves an LD (R676). -/
def State.lapServes (s : State) (ld : Nat) : Bool :=
  s.bit Reg.lapCtl 0 && s.bit Reg.lapLdEn ld && s.privLd ld

/-- Whether a drain is requested (R683). -/
def State.lapDraining (s : State) : Bool := s.bit Reg.lapCtl 1

/-- The offset in region 0 of a BAR2 byte (R677). -/
def State.lapOff (s : State) (x : Nat) : Nat := s.fld Reg.lapBase 10 0 * 2 ^ 36 + x

/-- A read answered with all-ones. -/
def State.lapOnes (s : State) (ld tag size : Nat) (ep : Bool) : State :=
  s.emit (.bar2Data ld tag ((List.range size).map fun _ => 0xFF) ep)

/-- Whether a BAR2 access is one aligned 8-byte request (R678). -/
def lapGood (off size : Nat) : Bool := size == 8 && off % 8 == 0

/-- A bad access (R678). -/
def State.lapBad (s : State) : State := (s.flag Reg.lapEvent 0).count Reg.lapCount

/-- A dropped access (R676, R679, R683). -/
def State.lapDrop (s : State) : State := s.count (Reg.lapCount + 4)

/-- Whether a host reaches an LD's BAR2 at all: an HG960-N has none, and the LD must have a host (R3, R83, R676). -/
def State.bar2Up (s : State) (ld : Nat) : Bool := !s.variantN && s.ldReached ld

/-- BAR2_READ: served from region 0's current contents (R676–R679, R682, R683). One that came through an L1 exit in Quiet wakes
the chip (R617, R618). -/
def execBar2Read (ld : Fin 32) (tag off size : Nat) (s : State) : Out :=
  .next (
    if s.bar2Up ld = false then s
    else
    let s := s.wakeFor .cxl
    if s.lapServes ld = false then (s.lapDrop).lapOnes ld tag size false
    else if lapGood off size = false then (s.lapBad).lapOnes ld tag size false
    else if s.lapDraining || !s.lapActive then s.lapOnes ld tag 8 false
    else match s.xlate ld 0 (s.lapOff off) 8 .read with
      | .error e => (s.refuse 4 ld e (apAddr 0 (s.lapOff off))).lapOnes ld tag 8 true
      | .ok segs => (s.submit {
          src := .lap ld 0 tag, op := .read, host := ld, region := 0, off := s.lapOff off, len := 8, segs := segs }).1)

/-- BAR2_WRITE: staged into the open batch, in acceptance order; while the buffer is full, or a handoff of region 0 has stopped
acceptance, the port gives no credit (R676–R681, R683). -/
def execBar2Write (ld : Fin 32) (off size : Nat) (data : List Byte) (s : State) : Out :=
  .next (
    if s.bar2Up ld = false then s
    else
    let s := s.wakeFor .cxl
    if s.lapServes ld = false then s.lapDrop
    else if lapGood off size = false then s.lapBad
    else if s.lapDraining then (s.lapDrop).flag Reg.lapEvent 3
    else if s.lapActive = false then (s.lapDrop).flag Reg.lapEvent 1
    else if 4096 ≤ s.lap.staged.length ∨ s.lapStopped then s
    else { s with lap := { s.lap with
        staged := s.lap.staged ++ [{ ld := ld, host := ld, off := s.lapOff off, data := sliceBytes data 0 8, batch := s.lap.batch }]
        openUsed := true } })

/-- A staged write is refused: recorded, discarded, and its batch failed (R677). -/
def State.lapRefuse (s : State) (w : LapWr) (e : XStep) : State :=
  let t := s.refuse 4 w.host e (apAddr 0 w.off)
  { t with lap := { t.lap with failed := insertNew t.lap.failed w.batch } }

/-- LAP_STAGED_APPLY: the oldest staged write goes to the HLC, as any write of this twin's (R48, R198, R681). -/
def execLapStagedApply (s : State) : Out :=
  .next (match s.lap.staged with
    | [] => s
    | w :: rest =>
      let t := { s with lap := { s.lap with staged := rest } }
      match t.xlate w.host 0 w.off 8 .write with
      | .error e => t.lapRefuse w e
      | .ok segs =>
        if t.cbHit 0 w.off 8 then (t.lapRefuse w .right).cbRefuse
        else (t.submit {
          src := .lap w.ld w.batch 0, op := .write, host := w.host, region := 0, off := w.off, len := 8
          segs := segs, data := w.data }).1)

/-- Whether every write of every closed batch has reached its commit point or been refused (R681 step 2). -/
def State.lapClosedDone (s : State) : Bool :=
  !(s.lap.staged.any fun w => s.lap.closed.contains w.batch)
    && !(s.reqs.vals.any fun r => isWrite r.op && (match r.src with | .lap _ b _ => s.lap.closed.contains b | _ => false))

/-- A read of LAP_COMMIT by a path: it closes the open batch if that holds a write, and waits; while the aperture is not
ACTIVE it returns all-ones (R679, R681). -/
def State.lapCommitDo (s : State) (k : Nat) : State :=
  if s.lapActive = false then (s.count (Reg.lapCount + 8)).emit (.regRead k Reg.lapCommit 0xFFFFFFFF none)
  else
    let t := if s.lap.openUsed then
        { s with lap := { s.lap with
          closed := s.lap.closed ++ [s.lap.batch], batch := s.lap.batch + 1, openUsed := false
          lastToken := s.lap.token, token := if s.lap.token = 0xFFFFFFFE then 0 else s.lap.token + 1 } }
      else s
    { t with lap := { t.lap with reads := t.lap.reads ++ [k] } }

/-- LAP_COMMIT_RETURN: the oldest waiting read returns the token of the last closed batch, or all-ones with COMMIT_FAIL if a
write of that batch, or of an earlier one not yet reported, was refused (R681, R688). -/
def execLapCommitReturn (s : State) : Out :=
  .next (match s.lap.reads with
    | [] => s
    | k :: rest =>
      if s.lapClosedDone = false then s
      else
        let last := fun (b : Nat) => decide (0 < s.lap.batch) && b == s.lap.batch - 1
        let bad := s.lap.failed.any fun b => s.lap.closed.contains b || last b
        let kept := s.lap.failed.filter fun b => !s.lap.closed.contains b || last b
        let t := { s with lap := { s.lap with reads := rest, closed := [], failed := kept } }
        let t := (if bad then t.flag Reg.lapEvent 4 else t).count (Reg.lapCount + 8)
        t.emit (.regRead k Reg.lapCommit (if bad then 0xFFFFFFFF else w32 t.lap.lastToken) none))

/-- A write of LAP_BASE takes effect only while DRAINED reads 1 (R683). -/
def State.lapBaseDo (s : State) (w : Word) : State :=
  if s.lapDraining && s.lapDrained then s.setReg Reg.lapBase (w32 (w.toNat % 2 ^ 11))
  else (s.flag Reg.lapEvent 2).count Reg.lapCount

end Sys2Proof.Machine
end

