-- ==== Sys2Proof/Machine/Tq.lean ====
section
/-! DEFINITION. Transfer-queue commands (chapter 5): doorbells and fetch, the start of each command, SANITIZE
and FORMAT, completion, and the firmware CRC unit. -/

namespace Sys2Proof.Machine

/-! ### Doorbells (R200, R201) -/

/-- SQ_DOORBELL: a committed write covers PROD of an ACTIVE queue (R200). -/
def execSqDoorbell (sq : Fin 4096) (s : State) : Out := .next (s.ringBell sq).settle

/-- FETCH_RESUME: fetch resumes on every queue once its pause causes have cleared (R201). -/
def execFetchResume (s : State) : Out := .next s.fetchAll.settle

/-! ### Starting a command (R203–R208) -/

/-- The status that a failing check of R48 gives a command (R49, R218). -/
def xStatus (e : XStep) : Nat :=
  match e with
  | .path => 2
  | .bounds => 2
  | .state => 3
  | .right => 3

/-- Checks a command's range (R48, R54, R198); answers its translation. -/
def State.tqWhere (s : State) (host a len : Nat) (need : Need) : Except XStep (List (Nat × Nat)) :=
  match apSplit a with
  | none => .error .path
  | some (region, off) => match s.xlate host region off len need with
    | .error e => .error e
    | .ok segs => if (match need with | .write => true | _ => false) && s.cbHit region off len then .error .right
      else .ok segs

/-- Refuses a command: recorded in the fault registers, with address 0 where step 1 gave no region, and completed with
the status of R49 (R73). -/
def State.tqRefuse (s : State) (n : Nat) (c : Cmd) (host a : Nat) (e : XStep) : State :=
  ((s.refuse 3 host e (if e = .path then 0 else a)).tqOpen n c (xStatus e)).settle

/-- Starts the fetched command of a queue at a position, if it has the opcode and may start; a command whose
awaited queue is gone completes with CHAIN_BROKEN (R205–R207). -/
def State.tqStart (s : State) (sq pos opcode : Nat) (go : State → Nat → Cmd → Nat → State) : State :=
  match s.cmdAt sq pos, s.sq? sq with
  | some (n, c), some q =>
    if c.stage != .fetched || c.d.opcode != opcode || !s.execHere q then s
    else if c.d.waitEn && (s.sq? c.d.waitSq).isNone then (s.tqOpen n c 9).settle
    else if s.mayStart c then go s n c q.host else s
  | _, _ => s

/-- Sets how far a command has come. -/
def State.tqStage (s : State) (n : Nat) (st : CmdStage) : State := s.modCmd n fun c => { c with stage := st }

/-- Refuses a control-block write with its flag and count as well (R198). -/
def State.tqCbNote (s : State) (host a len : Nat) : State :=
  match apSplit a with
  | some (region, off) =>
    if (match s.xlate host region off len .write with | .ok _ => true | _ => false) && s.cbHit region off len
    then s.cbRefuse else s
  | none => s

/-- Starts a COPY: both ranges are checked, and the source is read, by an E2E copy once it has a CRC channel (R203,
R224). -/
def State.copyGo (s : State) (n : Nat) (c : Cmd) (host : Nat) : State :=
  match s.tqWhere host c.d.src c.d.len .read with
  | .error e => s.tqRefuse n c host c.d.src e
  | .ok src => match s.tqWhere host c.d.dst c.d.len .write with
    | .error e => (s.tqCbNote host c.d.dst c.d.len).tqRefuse n c host c.d.dst e
    | .ok dst =>
      let t := s.modCmd n fun x => { x with stage := .running, src := src, dst := dst, wait := c.d.e2e }
      (if c.d.e2e then t else t.tqRead n { c with src := src }).settle

/-- TQ_COPY (R203, R205–R208, R211). -/
def execTqCopy (sq : Fin 4096) (pos : Nat) (s : State) : Out := .next (s.tqStart sq pos 1 State.copyGo)

/-- Starts a FILL: the pattern is written over the range (R203). -/
def State.fillGo (s : State) (n : Nat) (c : Cmd) (host : Nat) : State :=
  match s.tqWhere host c.d.dst c.d.len .write with
  | .error e => (s.tqCbNote host c.d.dst c.d.len).tqRefuse n c host c.d.dst e
  | .ok dst => ((s.modCmd n fun x => { x with stage := .writing, dst := dst }).tqAsk n host (tqWriteOp c.d)
      (c.d.dst / 2 ^ 52, c.d.dst % 2 ^ 47, c.d.len) dst (fillBytes c.d.dst c.d.len c.d.arg) []).settle

/-- TQ_FILL (R203, R208). -/
def execTqFill (sq : Fin 4096) (pos : Nat) (s : State) : Out := .next (s.tqStart sq pos 2 State.fillGo)

/-- The notification record of a PERSIST_NOTIFY (R203, R214). -/
def noteRec (c : Cmd) : CqRec := { cmdRec c 0 c.d.arg with note := true }

/-- Asks for the sequence of a PERSIST_NOTIFY's notification, once: it has none yet, none is asked for, and the ring's
window is open (R203, R217). The command completes when the sequence is known. -/
def State.notePut (s : State) (n : Nat) (c : Cmd) (cq : Nat) (x : Cq) : State :=
  let t := s.tqStage n .running
  if c.msg ≠ 0 ∨ ((s.sq? c.sq).bind fun q => q.notes.get? c.pos).isSome ∨ s.inWindow x x.nextSeq = false then t.settle
  else
    let p := t.seqAsk c.sq c.pos cq (noteRec c)
    let t := p.1.modCmd n fun y => { y with msg := p.2.2 }
    (if p.2.1 = 0 then t else t.seqDone c.sq c.pos p.2.1 true).settle

/-- Starts a PERSIST_NOTIFY, or goes on with one that waits for its ring's window (R203, R206, R217). The spec does not
say what one whose ring is FREE does: it names no region, a failure of step 1 of R48 (DESIGN CHOICE, log 100). -/
def State.notifyGo (s : State) (n : Nat) (c : Cmd) (host : Nat) : State :=
  match s.cq? (c.d.src % 2 ^ 12) with
  | none => s.tqRefuse n c host 0 .path
  | some x => match s.xlate host x.region x.base 256 .write with
    | .error e => if c.stage == .running then s.notePut n c (c.d.src % 2 ^ 12) x else s.tqRefuse n c host (apAddr x.region x.base) e
    | .ok _ => s.notePut n c (c.d.src % 2 ^ 12) x

/-- TQ_PERSIST_NOTIFY (R203, R206, R217). -/
def execTqPersistNotify (sq : Fin 4096) (pos : Nat) (s : State) : Out :=
  .next (match s.cmdAt sq pos with
    | some (n, c) =>
      if c.stage == .running && c.d.opcode == 3 then
        (match s.sq? sq with | some q => s.notifyGo n c q.host | none => s)
      else s.tqStart sq pos 3 State.notifyGo
    | none => s)

/-- Starts a CRC_CHECK, which reads its range once it has a CRC channel (R224). -/
def State.crcGo (s : State) (n : Nat) (c : Cmd) (host : Nat) : State :=
  match s.tqWhere host c.d.src c.d.len .read with
  | .error e => s.tqRefuse n c host c.d.src e
  | .ok src => (s.modCmd n fun x => { x with stage := .running, src := src, wait := true }).settle

/-- TQ_CRC_CHECK (R203, R211, R224). -/
def execTqCrcCheck (sq : Fin 4096) (pos : Nat) (s : State) : Out := .next (s.tqStart sq pos 4 State.crcGo)

/-- The tiles of a command's range. -/
def State.cmdTiles (s : State) (a len : Nat) : List Nat :=
  match apSplit a with
  | some (region, off) => (s.segs (s.region region) (granules off len) off len).flatMap fun p => tilesOf p.1 p.2
  | none => []

/-- What a PREFETCH does for one tile: it joins a promotion or repair, waits for an eviction or relocation, and otherwise
queues a promotion, which is refused where no slot is free or moves may not start (R249, R250, R268). -/
def State.prefetchTile (s : State) (n : Nat) (tile : Nat) : State :=
  let begun : Bool := match s.moves.get? tile with
    | some m => m.stage != .waitSlot || m.kind == .promote || m.kind == .repair
    | none => false
  if begun then s.modMove tile fun x => { x with cmds := x.cmds ++ [n] }
  else if s.mayMove && s.slotFree (engineOf tile) .prefetch then s.startMove tile .promote .prefetch [n]
  else s.cmdTile n tile true

/-- Whether a PREFETCH is concerned with a tile: it is in FLASH or SAVE_AREA, or being evicted or repaired (R249, R268). -/
def State.prefetches (s : State) (tile : Nat) : Bool :=
  inFlash (s.tile tile).home || (match s.moves.get? tile with
    | some m => m.kind == .repair || (m.kind == .evict && m.stage != .waitSlot)
    | none => false)

/-- Starts a PREFETCH on the tiles of its range that are not in DRAM (R268). -/
def State.prefetchGo (s : State) (n : Nat) (c : Cmd) (host : Nat) : State :=
  match s.tqWhere host c.d.src c.d.len .read with
  | .error e => s.tqRefuse n c host c.d.src e
  | .ok _ =>
    let l := (s.cmdTiles c.d.src c.d.len).filter s.prefetches
    let t := s.modCmd n fun x => { x with stage := .running, left := l }
    (l.foldl (fun (u : State) x => u.prefetchTile n x) t).settle

/-- TQ_PREFETCH (R203, R268). -/
def execTqPrefetch (sq : Fin 4096) (pos : Nat) (s : State) : Out := .next (s.tqStart sq pos 5 State.prefetchGo)

/-- Starts a PIN: each tile is passed to the peer and pinned here (R267). -/
def State.pinGo (s : State) (n : Nat) (c : Cmd) (host : Nat) : State :=
  match s.tqWhere host c.d.dst c.d.len .write with
  | .error e => s.tqRefuse n c host c.d.dst e
  | .ok _ =>
    let l := s.cmdTiles c.d.dst c.d.len
    let t := if s.paired then s.post (.control (l.map fun x => .pinAsk n x)) else s
    let t := t.modCmd n fun x => { x with stage := .running, left := l, peerLeft := if s.paired then l else [] }
    (l.foldl (fun (u : State) x => u.pinFor x [n] []) t).settle

/-- TQ_PIN (R203, R267). -/
def execTqPin (sq : Fin 4096) (pos : Nat) (s : State) : Out := .next (s.tqStart sq pos 6 State.pinGo)

/-- Starts and ends an UNPIN: PINNED clears on both twins (R267). -/
def State.unpinGo (s : State) (n : Nat) (c : Cmd) (host : Nat) : State :=
  match s.tqWhere host c.d.dst c.d.len .write with
  | .error e => s.tqRefuse n c host c.d.dst e
  | .ok _ =>
    let t := s.bothNow ((s.cmdTiles c.d.dst c.d.len).map fun x => .pin x false)
    (t.tqFinish n c 0 0).settle

/-- TQ_UNPIN (R203, R267). -/
def execTqUnpin (sq : Fin 4096) (pos : Nat) (s : State) : Out := .next (s.tqStart sq pos 7 State.unpinGo)

/-! ### SANITIZE and FORMAT (R219–R222) -/

/-- Whether a command comes from a MAINT queue (R219). -/
def State.maintSq (s : State) (sq : Nat) : Bool := match s.sq? sq with | some q => q.maint | none => false

/-- Whether a change of a region's descriptor or of its progress still waits for the peer (R42, R222). -/
def State.ctlRegion (s : State) (id : Nat) : Bool :=
  s.unacked fun x => match x with
    | .region k _ => k == id
    | .progress k _ => k == id
    | _ => false

/-- The checks of R48 and R219 on a SANITIZE or FORMAT: path, state and right, then the MAINT attribute of its queue, then
the bounds. `none` is a queue without MAINT, which is no refusal of R48. -/
def State.maintWhere (s : State) (c : Cmd) (host len : Nat) : Except XStep (Option Nat) :=
  match apSplit c.d.dst with
  | none => .error .path
  | some (id, off) => match s.xlate host id 0 0 .atomic with
    | .error e => .error e
    | .ok _ =>
      if s.maintSq c.sq = false then .ok none
      else match s.xlate host id off len .atomic with
        | .error e => .error e
        | .ok _ => .ok (some id)

/-- Whether a region's SANITIZE or FORMAT is that of a command (R210, R222). -/
def ownProgress (p : Progress) (c : Cmd) : Bool := p.sq == c.sq && p.pos == c.pos

/-- Takes up again the SANITIZE or FORMAT of a region from its progress record (R210, R222); a FORMAT waits for the
accesses to the range of its step. -/
def State.takeUp (s : State) (n id : Nat) (p : Progress) : State :=
  { s.tqStage n .running with progress := s.progress.set id { p with
      access := if p.phase = 0 then s.accessIn id (formatStep p).1 (formatStep p).2 else [] } }

/-- Starts a SANITIZE: phase 1 takes the region OFFLINE on both twins, and both record it (R220, R222). A second one on
the region waits (R219); one whose progress is recorded is taken up, though its region is OFFLINE (R210, R222). -/
def State.sanitizeGo (s : State) (n : Nat) (c : Cmd) (host : Nat) : State :=
  match s.progress.get? (bitsOf c.d.dst 63 52) with
  | some p => if ownProgress p c then s.takeUp n (bitsOf c.d.dst 63 52) p else s
  | none => match s.maintWhere c host 0 with
    | .error e => s.tqRefuse n c host c.d.dst e
    | .ok none => (s.tqOpen n c 3).settle
    | .ok (some id) =>
      if s.ctlRegion id then s
      else
      let p : Progress := { phase := 1, sq := c.sq, pos := c.pos, d := c.d, next := 0 }
      ((s.tqStage n .running).both [.progress id (some p), .region id { s.region id with state := .offline }] true none).1.settle

/-- TQ_SANITIZE (R219, R220). -/
def execTqSanitize (sq : Fin 4096) (pos : Nat) (s : State) : Out := .next (s.tqStart sq pos 8 State.sanitizeGo)

/-- Starts a FORMAT of a range, which goes granule by granule: its first step waits for the accesses to the step's range
that are in flight on either twin (R44, R221, R222). -/
def State.formatGo (s : State) (n : Nat) (c : Cmd) (host : Nat) : State :=
  match s.progress.get? (bitsOf c.d.dst 63 52) with
  | some p => if ownProgress p c then s.takeUp n (bitsOf c.d.dst 63 52) p else s
  | none => match s.maintWhere c host c.d.len with
    | .error e => s.tqRefuse n c host c.d.dst e
    | .ok none => (s.tqOpen n c 3).settle
    | .ok (some id) =>
      if s.ctlRegion id then s
      else
      let p : Progress := { phase := 0, sq := c.sq, pos := c.pos, d := c.d, next := c.d.dst % 2 ^ 47 / gib }
      let p := { p with access := s.accessIn id (formatStep p).1 (formatStep p).2 }
      ((s.tqStage n .running).bothNow [.progress id (some p)]).settle

/-- TQ_FORMAT (R219, R221). -/
def execTqFormat (sq : Fin 4096) (pos : Nat) (s : State) : Out := .next (s.tqStart sq pos 9 State.formatGo)

/-- The tiles of a region's granule. -/
def State.granuleTiles (s : State) (id g : Nat) : Nat := s.rgt.getD ((s.region id).rgtBase + g) 0 * 262144

/-- Advances a region's key epoch: this twin's SEC draws a new RKS, both twins append its entry and load its keys, then the
descriptor advances and the old entry is destroyed; the peer answers once no media operation runs under its old keys
(R545, R548). -/
def State.epochAdvance (s : State) (id : Nat) (more : List Change) : State :=
  let d := s.draw
  let e := ((s.region id).epoch + 1) % 256
  (d.1.both ([.key id e (Config.random d.2 % 2 ^ 256), .region id { s.region id with epoch := e }] ++ more) true none).1

/-- Phase 2 of a SANITIZE: on both twins the granules of the region go to ZERO, their frames and flash locations to the
scrub list; the position is recorded after each granule, and at the end phase 3 begins (R220, R222). -/
def State.unmapRegion (s : State) (id : Nat) (p : Progress) : State :=
  let t := ((List.range (s.region id).size).drop p.next).foldl (fun (u : State) g =>
    u.bothNow [.scrubTiles id (u.granuleTiles id g) 262144, .progress id (some { p with next := g + 1 })]) s
  t.bothNow [.progress id (some { p with phase := 3, next := 0 })]

/-- Ends the command of a SANITIZE or FORMAT, whose RESULT the spec does not state; both twins record the end. -/
def State.progressEnd (s : State) (id n : Nat) (c : Cmd) : State := ((s.bothNow [.progress id none]).tqOpen n c 0).settle

/-- The running command of a region's SANITIZE or FORMAT, on the twin that executes it (R210). -/
def State.progressCmd (s : State) (p : Progress) : Option (Nat × Cmd) :=
  (s.cmdAt p.sq p.pos).filter fun e => e.2.stage == .running

/-- What this twin does when its part of phase 3 has ended: its frames are zeroed and its blocks erased. The executing twin
returns the region to ONLINE and completes the command once the other twin has answered that its own part is done
(R220). -/
def State.scrubStep (s : State) (id : Nat) (p : Progress) : State :=
  if p.phase = 3 ∧ s.scrubErased p.waits = false then s
  else
    let t := if p.phase = 3 then (s.scrubRelease id).settle else s
    match t.progressCmd p with
    | some (n, c) =>
      if t.ctlRegion id then t
      else (t.both [.region id { t.region id with state := .online }] true none).1.progressEnd id n c
    | none => t

/-- SANITIZE_PHASE_COMPLETE: phase 1 ends once every access admitted earlier has completed on both twins, and KEY_EPOCH
advances modulo 256; phase 2 unmaps, once the old epoch's keys are purged on both; phase 3 scrubs on each twin, and then the region returns to ONLINE and the command
completes (R220, R222, R548, R549). -/
def execSanitizePhaseComplete (region : Fin 4096) (s : State) : Out :=
  .next (match s.progress.get? region with
    | none => s
    | some p =>
      if p.phase = 0 then s
      else if 3 ≤ p.phase then s.scrubStep region p
      else if s.ctlRegion region || (s.progressCmd p).isNone then s
      else if p.phase = 1 then
        (match (s.region region).state with
          | .offline =>
            if s.regionBusy region || !s.sec.entropyOk then s
            else s.epochAdvance region [.progress region (some { p with phase := 2 })]
          | _ => s)
      else if s.oldHeld region then s
      else (s.unmapRegion region p).settle)

/-- FORMAT_STEP_COMPLETE: the accesses that the step waits for have completed on both twins; the granule's part of the
range is back at ZERO on both, its frames and flash tiles are released, and the position is recorded; after the last the
command completes (R44, R221, R222). -/
def execFormatStepComplete (region : Fin 4096) (s : State) : Out :=
  .next (match s.progress.get? region with
    | none => s
    | some p =>
      match s.progressCmd p with
      | none => s
      | some (n, c) =>
        if p.phase ≠ 0 ∨ s.ctlRegion region = true ∨ p.access.any s.flying = true then s
        else
          let st := formatStep p
          let zero : Change := .zeroTiles (s.psaOf (s.region region) st.1 / 4096) (st.2 / 4096)
          let q := { p with next := p.next + 1 }
          if c.d.dst % 2 ^ 47 + c.d.len ≤ (p.next + 1) * gib then (s.bothNow [zero]).progressEnd region n c
          else (s.bothNow [zero, .progress region (some { q with
            access := s.accessIn region (formatStep q).1 (formatStep q).2 })]).settle)

/-- SANITIZE_FORMAT_RESUME: after a reset firmware takes up an unfinished command from its last record, on the twin that
executes its queue; its position and tag are kept (R210, R222). -/
def execSanitizeFormatResume (region : Fin 4096) (s : State) : Out :=
  .next (match s.progress.get? region with
    | none => s
    | some p =>
      match s.cmdAt p.sq p.pos, s.sq? p.sq with
      | none, some q =>
        if s.execHere q then
          let t := { s with cmds := s.cmds.set s.cmdSeq { sq := p.sq, pos := p.pos, d := p.d }, cmdSeq := s.cmdSeq + 1 }
          t.takeUp s.cmdSeq region p
        else s
      | _, _ => s)

/-! ### Completion (R199, R209, R215, R216) -/

/-- TQ_COMMAND_COMPLETE: once the completion sequence is applied on both twins, DONE_MASK, TAIL and COMPLETED
are updated, the record goes to its target, and the queues fetch what now has room (R200, R209, R215, R236). -/
def execTqCommandComplete (sq : Fin 4096) (pos : Nat) (s : State) : Out :=
  .next (match s.cmdAt sq pos with
    | some (n, c) =>
      if c.stage != .assigning || c.seq == 0 || (s.twn.tx.get? c.msg).isSome then s
      else (({ s with cmds := s.cmds.erase n }.seqDone sq pos c.seq false).count Reg.tqmCount).settle
    | none => s)

/-- CQ_CONS_ADVANCE: the host has advanced CONS: records held for it are sent, and a PERSIST_NOTIFY that waits for the
ring's window goes on (R215, R217). -/
def execCqConsAdvance (cq : Fin 4096) (s : State) : Out :=
  .next (((s.cmds.filter fun e => e.2.stage == .running && e.2.d.opcode == 3 && e.2.d.src % 2 ^ 12 == cq.val).foldl
    (fun (t : State) e => t.notifyGo e.1 e.2 (t.tqHost e.2)) (s.cqPump cq)).settle)

/-- NOTIFY_COALESCE_EXPIRY: a ring's coalescing window ends and its signal is raised (R216). -/
def execNotifyCoalesceExpiry (cq : Fin 4096) (s : State) : Out :=
  .next (match s.cq? cq with
    | some c => match c.signal with
      | some seq => s.cqSignal cq c seq
      | none => s
    | none => s)

/-! ### The firmware CRC unit (R225, R226, R239) -/

/-- Writing 1 to LOAD copies INIT to STATE. -/
def State.crcLoad (s : State) : State := s.setReg64 Reg.crcFwStateLo (s.reg64 Reg.crcFwInitLo)

/-- Feeds bytes into the running value, in order. -/
def State.crcFeed (s : State) (bs : List Byte) : State :=
  s.setReg64 Reg.crcFwStateLo (bs.foldl (crcByte s.crcWidth (s.reg64 Reg.crcFwPolyLo % 2 ^ s.crcWidth) (s.bit Reg.crcFwCfg 7))
    s.crcState)

end Sys2Proof.Machine
end

