-- ==== Sys2Proof/Machine/RegFx.lean ====
section
/-! DEFINITION. What a write of a register does beside storing it: clamping to the ranges of the timer and
threshold tables, the settings that firmware rejects, the snapshots of the selector registers, and the actions of
command registers. -/

namespace Sys2Proof.Machine

/-! ### Ranges (R115, R168, R276, R297, R324, R389, R414, R462, R507, R642, R667) -/

/-- A field with its range and step. -/
structure Rng where
  hi : Nat
  lo : Nat
  mn : Nat
  mx : Nat
  step : Nat := 1

/-- Clamps the fields of a register to their ranges and rounds them down to their steps. -/
def clampFields (l : List Rng) (w : Word) : Word :=
  l.foldl (fun (u : Word) r => Word.withFld u r.hi r.lo (clampStep r.mn r.mx r.step (Word.fld u r.hi r.lo))) w

/-- The offset of a CXA or CXB register as CXA's. -/
def cxRep (off : Nat) : Nat :=
  if 0x140000 ≤ off ∧ off < 0x180000 then off - 0x40000 else off

/-- The register that stands for an array in the range table. -/
def rngRep (off : Nat) : Nat :=
  if Reg.dmcPort0 ≤ off ∧ off ≤ Reg.dmcPort5 then Reg.dmcPort0
  else if Reg.pwsGroup ≤ off ∧ off < Reg.pwsGroup + 32 then Reg.pwsGroup
  else if Reg.pwsRailPd ≤ off ∧ off < Reg.pwsRailPd + 512 ∧ off % 16 = 8 then Reg.pwsRailPd
  else if Reg.bpmThresh ≤ off ∧ off < Reg.bpmThresh + 160 ∧ off % 32 = 4 then Reg.bpmThresh
  else cxRep off

/-- Ranges of CXL, Ethernet, RDMA, buffer-pool and placement registers. For CXA_TIMERS, TX_INTERVAL_S and the buffer pools'
thresholds the spec gives a range and does not say what a value outside it does; they are clamped like the others (DESIGN
CHOICE, log 103). -/
def rangesA : List (Nat × List Rng) := [
  (Reg.cxTrackLimit, [{ hi := 12, lo := 0, mn := 256, mx := 4096, step := 256 }]),
  (Reg.cxStageLimit, [{ hi := 15, lo := 0, mn := 1024, mx := 32768, step := 1024 }]),
  (Reg.cxTimers, [{ hi := 21, lo := 12, mn := 1, mx := 600 }, { hi := 11, lo := 0, mn := 1, mx := 3600 }]),
  (Reg.netLldp, [{ hi := 12, lo := 1, mn := 5, mx := 3600 }]),
  (Reg.rdxTrackLimit, [{ hi := 13, lo := 0, mn := 256, mx := 8192, step := 256 }]),
  (Reg.rdxTimers, [{ hi := 25, lo := 14, mn := 1, mx := 3600 }, { hi := 13, lo := 0, mn := 10, mx := 10000, step := 10 }]),
  (Reg.rdxKeying, [{ hi := 22, lo := 14, mn := 16, mx := 256 }, { hi := 13, lo := 0, mn := 100, mx := 10000, step := 100 }]),
  (Reg.rdxEcn, [{ hi := 23, lo := 18, mn := 1, mx := 50 }, { hi := 17, lo := 10, mn := 16, mx := 255 },
    { hi := 9, lo := 0, mn := 4, mx := 1000 }]),
  (Reg.rdxReqRetry, [{ hi := 20, lo := 11, mn := 1, mx := 1000 }, { hi := 4, lo := 0, mn := 10, mx := 20 }]),
  (Reg.bpmThresh, [{ hi := 7, lo := 0, mn := 10, mx := 97 }, { hi := 15, lo := 8, mn := 11, mx := 98 },
    { hi := 23, lo := 16, mn := 12, mx := 99 }, { hi := 31, lo := 24, mn := 1, mx := 10 }]),
  (Reg.plcTimers, [{ hi := 25, lo := 16, mn := 1, mx := 1000 }, { hi := 9, lo := 0, mn := 1, mx := 600 }]),
  (Reg.plcFreeWm, [{ hi := 15, lo := 8, mn := 2, mx := 30 }, { hi := 7, lo := 0, mn := 1, mx := 20 }]),
  (Reg.plcPinLimit, [{ hi := 5, lo := 0, mn := 0, mx := 50 }]),
  (Reg.plcSweep, [{ hi := 21, lo := 16, mn := 1, mx := 40 }, { hi := 5, lo := 0, mn := 1, mx := 40 }]),
  (Reg.plcTmcCfg, [{ hi := 17, lo := 0, mn := 4096, mx := 131072, step := 4096 }]),
  (Reg.hlcDirty, [{ hi := 6, lo := 0, mn := 25, mx := 100 }])]

/-- Ranges of DRAM and flash registers. -/
def rangesB : List (Nat × List Rng) := [
  (Reg.dmcPort0, [{ hi := 13, lo := 0, mn := 10, mx := 10000 }]),
  (Reg.dmcPage, [{ hi := 13, lo := 8, mn := 1, mx := 63 }]),
  (Reg.dmcRefresh, [{ hi := 15, lo := 8, mn := 1, mx := 255 }]),
  (Reg.dmcRetrain, [{ hi := 29, lo := 26, mn := 1, mx := 15 }, { hi := 25, lo := 18, mn := 1, mx := 255 },
    { hi := 17, lo := 10, mn := 1, mx := 255 }, { hi := 9, lo := 0, mn := 10, mx := 1000, step := 10 }]),
  (Reg.dmcScrubCtl, [{ hi := 22, lo := 16, mn := 1, mx := 64 }]),
  (Reg.fmcLdpc, [{ hi := 15, lo := 8, mn := 8, mx := 255 }, { hi := 7, lo := 6, mn := 0, mx := 2 }]),
  (Reg.fmcProg, [{ hi := 22, lo := 16, mn := 1, mx := 100 }, { hi := 12, lo := 0, mn := 50, mx := 5000, step := 50 }]),
  (Reg.fmcGc, [{ hi := 26, lo := 16, mn := 50, mx := 2000, step := 50 }, { hi := 7, lo := 0, mn := 4, mx := 250 }]),
  (Reg.fmcPatrol, [{ hi := 6, lo := 0, mn := 1, mx := 90 }]),
  (Reg.fmcSaveCfg, [{ hi := 4, lo := 0, mn := 0, mx := 25 }])]

/-- Ranges of the energy, twin, mailbox, power, two-wire and error registers. -/
def rangesC : List (Nat × List Rng) := [
  (Reg.elgModule, [{ hi := 15, lo := 8, mn := 64, mx := 255 }]),
  (Reg.elgTemp, [{ hi := 7, lo := 0, mn := 0, mx := 85 }, { hi := 23, lo := 16, mn := 128, mx := 255 }]),
  (Reg.elgDrain, [{ hi := 5, lo := 0, mn := 5, mx := 50 }]),
  (Reg.elgThrottle, [{ hi := 9, lo := 0, mn := 1, mx := 600 }]),
  (Reg.elgCost, [{ hi := 15, lo := 0, mn := 1000, mx := 65535 }]),
  (Reg.twnHb, [{ hi := 6, lo := 0, mn := 5, mx := 100 }, { hi := 10, lo := 7, mn := 2, mx := 8 },
    { hi := 17, lo := 11, mn := 1, mx := 100 }, { hi := 24, lo := 18, mn := 5, mx := 100 },
    { hi := 28, lo := 25, mn := 2, mx := 8 }]),
  (Reg.twnFence, [{ hi := 6, lo := 0, mn := 5, mx := 100 }, { hi := 14, lo := 8, mn := 1, mx := 100 },
    { hi := 24, lo := 16, mn := 10, mx := 500 }, { hi := 30, lo := 25, mn := 1, mx := 60 }]),
  (Reg.twnPeerWait, [{ hi := 11, lo := 0, mn := 10, mx := 3600 }]),
  (Reg.twnRevert, [{ hi := 9, lo := 0, mn := 5, mx := 600 }]),
  (Reg.twnResync, [{ hi := 7, lo := 0, mn := 1, mx := 160 }]),
  (Reg.twnShaum, [{ hi := 6, lo := 0, mn := 1, mx := 100 }, { hi := 11, lo := 8, mn := 1, mx := 15 },
    { hi := 19, lo := 12, mn := 1, mx := 255 }, { hi := 30, lo := 20, mn := 1, mx := 1000 }]),
  (Reg.twnWatch, [{ hi := 9, lo := 0, mn := 1, mx := 1000 }, { hi := 23, lo := 16, mn := 1, mx := 168 }]),
  (Reg.mbxCfg, [{ hi := 6, lo := 0, mn := 1, mx := 100 }, { hi := 13, lo := 8, mn := 1, mx := 32 }]),
  (Reg.pwsTimers, [{ hi := 16, lo := 10, mn := 1, mx := 100 }, { hi := 9, lo := 0, mn := 1, mx := 1000 }]),
  (Reg.pwsGroup, [{ hi := 23, lo := 16, mn := 1, mx := 255 }, { hi := 9, lo := 0, mn := 0, mx := 1000 }]),
  (Reg.pwsRailPd, [{ hi := 21, lo := 12, mn := 1, mx := 1000 }]),
  (Reg.islQuietCfg, [{ hi := 15, lo := 0, mn := 1, mx := 60000 }]),
  (Reg.twbTimeout, [{ hi := 5, lo := 0, mn := 25, mx := 35 }, { hi := 13, lo := 8, mn := 25, mx := 35 },
    { hi := 21, lo := 16, mn := 5, mx := 35 }]),
  (Reg.glbErrThresh, [{ hi := 15, lo := 0, mn := 1, mx := 65535 }, { hi := 27, lo := 16, mn := 1, mx := 4095 }]),
  (Reg.glbErrWindow, [{ hi := 11, lo := 0, mn := 1, mx := 3600 }])]

/-- The ranges of the fields of a register. -/
def rangesOf (off : Nat) : List Rng :=
  match (rangesA ++ rangesB ++ rangesC).find? fun e => e.1 == rngRep off with
  | some e => e.2
  | none => []

/-- Keeps a field of the old value unless a condition holds of the new one. -/
def keepUnless (ok : Bool) (hi lo : Nat) (old w : Word) : Word :=
  if ok then w else Word.withFld w hi lo (Word.fld old hi lo)

/-- Fields whose range depends on another, or that keep their value when an unusable one is written (R97, R125, R239,
R277, R296, R330, R389, R392). -/
def fieldRules (off : Nat) (old w : Word) : Word :=
  if off = Reg.dmcWq then
    let low := clampStep 1 62 1 (Word.fld w 7 0)
    Word.withFld (Word.withFld w 7 0 low) 15 8 (clampStep (low + 1) 63 1 (Word.fld w 15 8))
  else if off = Reg.fmcGc then Word.withFld w 15 8 (clampStep (Word.fld w 7 0 + 4) 254 1 (Word.fld w 15 8))
  else if off = Reg.fmcLdpc then keepUnless (decide (4 ≤ Word.fld w 19 16) && decide (Word.fld w 19 16 ≤ 8)) 19 16 old w
  else if off = Reg.crcFwCfg then keepUnless (decide (8 ≤ Word.fld w 6 0) && decide (Word.fld w 6 0 ≤ 64)) 6 0 old w
  else if off = Reg.netPortMode then keepUnless (Word.fld w 1 0 != 3 && Word.fld old 15 8 == 0) 1 0 old w
  else if Reg.plcClass ≤ off ∧ off < Reg.plcClass + 32 then keepUnless (Word.fld w 7 0 != 0) 7 0 old w
  else if Reg.hlcClass ≤ off ∧ off < Reg.hlcClass + 32 then keepUnless (Word.fld w 15 0 != 0) 15 0 old w
  else if Reg.cxLdCtl ≤ cxRep off ∧ cxRep off < Reg.cxLdCtl + 0x400 then keepUnless false 1 1 old w
  else w

/-- A register value as it is stored: clamped, then by the field rules. -/
def storedVal (off : Nat) (old w : Word) : Word := fieldRules off old (clampFields (rangesOf off) w)

/-! ### Settings that firmware rejects (R93, R129, R170, R171, R276) -/

/-- A register's value after a write of `w` at `off`. -/
def State.regIf (s : State) (off : Nat) (w : Word) (r : Nat) : Word := if r = off then w else s.reg r

/-- The sum of the weights of the priorities that are not strict (R129). -/
def etsSum (w0 w1 : Word) (strict : Nat) : Nat :=
  (((List.range 8).filter fun p => !strict.testBit p).map fun p =>
    if p < 4 then Word.fld w0 (8 * p + 7) (8 * p) else Word.fld w1 (8 * p - 25) (8 * p - 32)).foldl (· + ·) 0

/-- Bytes of all buffer pools (R170). -/
def State.poolBytes (s : State) (off : Nat) (w : Word) : Nat :=
  ((List.range 5).map fun i => Word.fld (s.regIf off w (Reg.bpmCfg0 + 0x20 * i)) 15 0 * poolSizes.getD i 0).foldl (· + ·) 0

/-- Whether firmware rejects a setting; the register then keeps its value. -/
def State.rejects (s : State) (off : Nat) (w : Word) : Bool :=
  if cxRep off = Reg.cxTrackLimit ∨ off = Reg.rdxTrackLimit then
    decide (8192 < Word.fld (s.regIf off w Reg.cxTrackLimit) 12 0
      + Word.fld (s.regIf off w (Reg.cxTrackLimit + 0x40000)) 12 0 + Word.fld (s.regIf off w Reg.rdxTrackLimit) 13 0)
  else if rngRep off = Reg.bpmThresh then
    !(decide (Word.fld w 7 0 < Word.fld w 15 8) && decide (Word.fld w 15 8 < Word.fld w 23 16))
  else if Reg.bpmCfg0 ≤ off ∧ off < Reg.bpmCfg0 + 0xA0 ∧ off % 32 = 0 then decide (8 * 2 ^ 20 < s.poolBytes off w)
  else if off = Reg.netEts0 ∨ off = Reg.netEts1 then
    etsSum (s.regIf off w Reg.netEts0) (s.regIf off w Reg.netEts1) (s.fld Reg.netDcb 15 8) != 100
  else if off = Reg.plcFreeWm then !decide (Word.fld w 7 0 < Word.fld w 15 8)
  else if off = Reg.dmcScrubCtl then s.bit Reg.dmcScrubCtl 31 && Word.bit w 30
  else false

/-! ### Selectors and their snapshots (R68, R232, R282, R283, R396, R562, R587) -/

/-- Sets two registers of a path's own to a 64-bit value. -/
def State.setOwn64 (s : State) (k lo v : Nat) : State :=
  (s.setOwn k lo (w32 (v % 2 ^ 32))).setOwn k (lo + 4) (w32 (v / 2 ^ 32))

/-- GLB_RGN_SEL (R68–R71). -/
def State.selRegion (s : State) (k id : Nat) : State :=
  let r := s.region id
  ((((s.setOwn k Reg.glbRgnSel (w32 id)).setOwn k Reg.glbRgnAttr (w32 (2 ^ 17 * b2n r.onAck + 2 ^ 16 * b2n r.prefOwner
    + 2 ^ 15 * b2n r.owner + 2 ^ 12 * (r.qos % 8) + 2 ^ 4 * (r.epoch % 256) + regionCode r.state))).setOwn k
    Reg.glbRgnSize (w32 (r.size % 2 ^ 17))).setOwn64 k Reg.glbRgnPseqLo r.pseq)

/-- TQM_SQ_INFO of a queue (R233). -/
def State.sqInfo (s : State) (n : Nat) : Nat :=
  match s.sqs.get? n with
  | some q => 2 ^ 31 * b2n q.maint + 2 ^ 24 * (s.cmds.count fun c => c.sq == n) + 2 ^ 19 * q.log2 + 2 ^ 16 * sqCode q.state
      + q.cq % 2 ^ 12
  | none => 0

/-- TQM_SQ_SEL (R232–R234). -/
def State.selSq (s : State) (k n : Nat) : State :=
  let t := (s.setOwn k Reg.tqmSqSel (w32 n)).setOwn k Reg.tqmSqInfo (w32 (s.sqInfo n))
  match s.sqs.get? n with
  | some q => (t.setOwn64 k Reg.tqmSqFetchLo q.fetch).setOwn k Reg.tqmSqCompleted (w32 (q.completed % 2 ^ 32))
  | none => (t.setOwn64 k Reg.tqmSqFetchLo 0).setOwn k Reg.tqmSqCompleted 0

/-- TQM_CQ_SEL (R232, R234, R235). -/
def State.selCq (s : State) (k n : Nat) : State :=
  let t := s.setOwn k Reg.tqmCqSel (w32 n)
  match s.cqs.get? n with
  | some c => ((t.setOwn k Reg.tqmCqInfo (w32 (2 ^ 8 * c.t1.kind + 2 ^ 6 * c.t0.kind + 2 * c.log2 + 1))).setOwn64 k
      Reg.tqmCqNextLo c.nextSeq).setOwn64 k Reg.tqmCqConsLo (s.consOf c)
  | none => ((t.setOwn k Reg.tqmCqInfo 0).setOwn64 k Reg.tqmCqNextLo 0).setOwn64 k Reg.tqmCqConsLo 0

/-- The heat of a region: the sum over the four engines (R264). -/
def State.regionHeat (s : State) (id : Nat) : Nat :=
  ((List.range 4).map fun e => s.plc.heat.getD (id * 4 + e) 0).foldl (· + ·) 0

/-- Tiles of a region whose entry has a property. -/
def State.regionTiles (s : State) (id : Nat) (p : TileEnt → Bool) : Nat :=
  (s.tiles.filter fun e => p e.2 && s.regionOfTile e.1 == some id).length

/-- PLC_RGN_SEL (R282). -/
def State.selPlc (s : State) (k id : Nat) : State :=
  (((s.setOwn k Reg.plcRgnSel (w32 id)).setOwn k Reg.plcRgnVals (w32 (s.regionHeat id % 2 ^ 32))).setOwn k
    (Reg.plcRgnVals + 4) (w32 (s.regionTiles id fun e => inDram e.home))).setOwn k
    (Reg.plcRgnVals + 8) (w32 (s.regionTiles id fun e => e.pinned))

/-- PLC_TILE_SEL: the write of _HI takes the snapshot (R283). -/
def State.selTile (s : State) (k lo hi : Nat) : State :=
  let tile := lo + 2 ^ 32 * (hi % 8)
  ((s.setOwn k Reg.plcTileSelLo (w32 lo)).setOwn k Reg.plcTileSelHi (w32 (hi % 8))).setOwn64 k Reg.plcTileEntryLo
    (entryWord tile (s.tile tile))

/-- FMC_SET_SEL: blocks that the table does not list are FREE and unused (R396). -/
def State.selSet (s : State) (k n : Nat) : State :=
  let l := (s.sbList n).map Prod.snd
  let worn := l.map fun b => b.erases
  let least := if l.length < s.sbPerSet then 0 else minOf worn 0
  ((s.setOwn k Reg.fmcSetSel (w32 n)).setOwn k Reg.fmcSetVals
    (w32 (2 ^ 16 * (l.filter fun b => b.state == .retired).length + s.freeIn n))).setOwn k (Reg.fmcSetVals + 4)
    (w32 (2 ^ 16 * maxOf worn + least))

/-- SEC_RGN_KEY_SEL (R562). -/
def State.selKey (s : State) (k id : Nat) : State :=
  let q := s.sec.keys.getD id {}
  (s.setOwn k Reg.secKeySel (w32 id)).setOwn k Reg.secKeyInfo
    (w32 (2 ^ 10 * b2n (s.oldHeld id) + 2 ^ 9 * b2n q.shaum + 2 ^ 8 * b2n q.xts + q.epoch % 256))

/-- EFL_BLOCK_SEL (R587). -/
def State.selBlock (s : State) (k b : Nat) : State :=
  (s.setOwn k Reg.eflBlockSel (w32 b)).setOwn k Reg.eflBlockState (s.blockWord b)

/-- The registers that each path has of its own. -/
def ownRegs : List Nat := [Reg.glbRgnSel, Reg.glbRgnAttr, Reg.glbRgnSize, Reg.glbRgnPseqLo, Reg.glbRgnPseqHi,
  Reg.tqmSqSel, Reg.tqmSqInfo, Reg.tqmSqFetchLo, Reg.tqmSqFetchHi, Reg.tqmSqCompleted, Reg.tqmCqSel, Reg.tqmCqInfo,
  Reg.tqmCqNextLo, Reg.tqmCqNextHi, Reg.tqmCqConsLo, Reg.tqmCqConsHi, Reg.plcRgnSel, Reg.plcRgnVals,
  Reg.plcRgnVals + 4, Reg.plcRgnVals + 8, Reg.plcTileSelLo, Reg.plcTileSelHi, Reg.plcTileEntryLo, Reg.plcTileEntryHi,
  Reg.fmcSetSel, Reg.fmcSetVals, Reg.fmcSetVals + 4, Reg.secKeySel, Reg.secKeyInfo, Reg.eflBlockSel, Reg.eflBlockState,
  Reg.eflRaddr, Reg.eflRdataLo, Reg.eflRdataHi, Reg.evrCursor, Reg.islGatedAddr]

/-- A write of a selector by a path: the snapshot is the path's. -/
def State.selWrite (s : State) (k off : Nat) (w : Word) : State :=
  if off = Reg.glbRgnSel then s.selRegion k (Word.fld w 11 0)
  else if off = Reg.tqmSqSel then s.selSq k (Word.fld w 11 0)
  else if off = Reg.tqmCqSel then s.selCq k (Word.fld w 11 0)
  else if off = Reg.plcRgnSel then s.selPlc k (Word.fld w 11 0)
  else if off = Reg.fmcSetSel then s.selSet k (Word.fld w 5 0)
  else if off = Reg.secKeySel then s.selKey k (Word.fld w 11 0)
  else if off = Reg.eflBlockSel then s.eflOther.selBlock k (Word.fld w 7 0)
  else if off = Reg.eflRaddr then s.eflOther.eflRaddrWrite k w
  else if off = Reg.evrCursor then s.setOwn k off w
  else s

/-! ### Actions of command and control registers -/

/-- A write of a CXL, Ethernet or island register. -/
def State.fxCx (s : State) (off : Nat) (old new val : Word) : State :=
  if cxRep off = Reg.cxPortCfg then s.linkEnable ((off - 0x100000) / 0x40000) (Word.bit old 0) (Word.bit new 0)
  else if off = Reg.islQuietCmd then
    let t := if Word.bit val 0 then s.quietEnter else s
    if Word.bit val 1 then t.wakeFor .wake else t
  else if off = Reg.islEvent then
    (if Word.bit new 0 || Word.bit new 1 then s
     else { s with paths := s.paths.mapV fun q => { q with own := q.own.erase Reg.islGatedAddr } })
  else if off = Reg.netPortMode then
    ((List.range 8).filter fun n => !Word.bit new (8 + n)).foldl (fun (t : State) n => t.netDown n) s
  else if off = Reg.netDcb then (List.range 8).foldl State.drainTx s
  else s

/-- A write of a register of TQM, CRC, HLC or PLC. -/
def State.fxData (s : State) (off : Nat) (val : Word) : State :=
  if off = Reg.tqmDoorbell then s.ringBell (Word.fld val 11 0)
  else if off = Reg.crcFwCtl then (if Word.bit val 0 then s.crcLoad else s)
  else if off = Reg.crcFwData32 then s.crcFeed (leBytes 4 val.toNat)
  else if off = Reg.crcFwData8 then s.crcFeed (leBytes 1 val.toNat)
  else if off = Reg.hlcMaintCmd then
    (if Word.fld val 1 0 ≤ 1 then s.maintStart (Word.fld val 1 0 == 1) (Word.fld val 3 2) else s)
  else s

/-- A write of a DMC register (R334, R340, R346, R355). -/
def State.fxDmc (s : State) (off : Nat) (old new val : Word) : State :=
  if off = Reg.dmcCtl then
    (if Word.bit new 1 && !Word.bit old 1 then s.selfRefresh else if Word.bit old 1 && !Word.bit new 1 then s.selfRefreshEnd else s)
  else if off = Reg.dmcTrain then (if Word.bit val 31 then s.trainStart (Word.fld val 17 16) (Word.fld val 15 0) else s)
  else if off = Reg.dmcScrubCtl then (if Word.bit new 30 then s.scrubBegin else s.scrubHalt)
  else if off < 0x640000 ∧ 0x100 ≤ off % 0x4000 ∧ off % 8 = 4 then
    let n := (off - 0x600000) / 0x4000
    let i := (off % 0x4000 - 0x100) / 8
    if Word.bit val 31 then s.chiveEnable n i else s.chiveDisable n i
  else s

/-- The commands of TWN_CMD, in the order of their bits (R493). -/
def State.twnCmd (s : State) (val : Word) : State :=
  let t := if Word.bit val 0 then s.fenceCmd else s
  let t := if Word.bit val 1 then t.releaseAsk else t
  let t := if Word.bit val 2 then t.retrainCmd else t
  if Word.bit val 3 then t.forceTakeover else t

/-- A write of a register of ELG, TWN or SEC. -/
def State.fxTwin (s : State) (off : Nat) (old new val : Word) : State :=
  if off = Reg.elgCmd then
    let t := if Word.bit val 0 then s.capStart else s
    if Word.bit val 1 then t.saveTrigger .planned false else t
  else if off = Reg.twnCtl then s.linkEnDo (Word.bit old 0) (Word.bit new 0)
  else if off = Reg.twnCmd then s.twnCmd val
  else if off = Reg.secArbAdvance then s.arbAdvance (Word.fld val 7 0)
  else if off = Reg.secCtl then s.sendUnsent
  else s

/-- A write of a register of BPM, EFL, EVR, PWS, TWB or LAP. -/
def State.fxAon (s : State) (off : Nat) (old new val : Word) : State :=
  if off = Reg.eflUnlock then s.eflUnlockWrite val.toNat
  else if off = Reg.eflCmd then s.eflOther.eflCmdWrite val.toNat
  else if off = Reg.eflAddr then s.eflOther.eflAddrWrite val.toNat
  else if off = Reg.eflDataLo then s.eflOther.eflLoWrite val.toNat
  else if off = Reg.eflDataHi then s.eflOther.eflHiWrite val.toNat
  else if 0xA00000 ≤ off ∧ off < 0xA40000 then s.eflOther
  else if Reg.bpmCfg0 ≤ off ∧ off < Reg.bpmCfg0 + 0xA0 ∧ (off % 32 = 0 ∨ off % 32 = 4) then
    s.poolNote ((off - Reg.bpmCfg0) / 32) (s.pool ((off - Reg.bpmCfg0) / 32))
  else if Reg.evrSubmit ≤ off ∧ off < Reg.evrSubmit + 20 then s.evrSubmitWrite ((off - Reg.evrSubmit) / 4) val
  else if off = Reg.pwsCtl then (if Word.bit val 1 then s.pwsUp else s)
  else if off = Reg.twbCtl then
    let t := if Word.bit val 2 then s.psbReset 0 0 else s
    if Word.bit new 0 && !Word.bit old 0 then t.psbNext else t
  else if off = Reg.twbAlert then s.noteAlert
  else if off = Reg.twbPsbCmd then s.psbGo val
  else s

/-- Control registers whose enables let requests in the device go on. -/
def gateRegs : List Nat := [Reg.plcCtl, Reg.plcPinLimit, Reg.hlcCtl, Reg.dmcCtl, Reg.fmcCtl, Reg.secCtl, Reg.elgCtl,
  Reg.elgMapTiles, Reg.elgCost, Reg.cxTrackLimit, Reg.cxTrackLimit + 0x40000, Reg.cxStageLimit, Reg.cxStageLimit + 0x40000,
  Reg.rdxTrackLimit, Reg.bpmCfg0, Reg.bpmCfg1, Reg.bpmCfg2, Reg.bpmCfg3, Reg.bpmCfg4]

/-- What a write does beside storing the register: `old` and `new` are its content before and after, `val` what was
written. -/
def State.writeFx (s : State) (off : Nat) (old new val : Word) : State :=
  let t :=
    if off < 0x400000 then s.fxCx off old new val
    else if off < 0x600000 then s.fxData off val
    else if off < 0x700000 then s.fxDmc off old new val
    else if 0x980000 ≤ off ∧ off < 0x9C0000 then s.fxData off val
    else if off < 0x980000 then s.fxTwin off old new val
    else s.fxAon off old new val
  let t := if off = Reg.fmcCtl ∧ Word.bit new 0 = true ∧ Word.bit old 0 = false then t.openAll else t
  if gateRegs.contains off then t.settle else t

end Sys2Proof.Machine
end

