-- ==== Sys2Proof/Machine/RegBus.lean ====
section
/-! DEFINITION. Accesses to the register space: sizes and alignment (R59), the paths (R60–R62), islands (R612, R613),
reads with their latches and clears (R11, R12, R659), and writes (R11, R12, R14, R658). -/

namespace Sys2Proof.Machine

/-! ### What an offset is -/

/-- Whether an offset is the _LO of a pair whose _HI follows it (R11, R59). -/
def isLo (off : Nat) : Bool := match descAt off with
  | some d => d.pair == 1 || off == Reg.eflDataLo
  | none => false

/-- Whether an access is one of R59: 4 bytes aligned, or 8 bytes at a _LO. -/
def goodAccess (off size : Nat) : Bool := (size == 4 && off % 4 == 0 && decide (off < 0x4000000)) || (size == 8 && isLo off)

/-- Whether an HG960-N has the block: it lacks CXA and CXB (R3). -/
def State.absent (s : State) (off : Nat) : Bool :=
  s.variantN && decide (0x100000 ≤ off) && decide (off < 0x200000)

/-- Whether a path exists: an HG960-N has no CXL port, so no BAR0 and no CXL mailbox (R3). -/
def State.hasPath (s : State) (p : RegPath) : Bool := match p with
  | .bar0 _ => !s.variantN
  | .cxlMbx _ => !s.variantN
  | _ => true

/-- A BAR0 request in Quiet came through an L1 exit: it wakes the chip, is held until the wake is complete, and never
meets the Quiet pattern (R617, R618). -/
def State.barWake (s : State) (p : RegPath) : State × Bool :=
  match p, s.isl.quiet with
  | _, .awake => (s, false)
  | .bar0 _, _ => (s.wakeFor .cxl, true)
  | _, _ => (s, false)

/-- Records an access to a gated island (R613, R627). -/
def State.gatedNote (s : State) (k off : Nat) (write : Bool) : State :=
  let fresh := !s.bit Reg.islEvent 0 && !s.bit Reg.islEvent 1
  let t := (s.flag Reg.islEvent (b2n write)).count Reg.islCount
  let t := if fresh then { t with paths := t.paths.mapV fun q => { q with own := q.own.erase Reg.islGatedAddr } } else t
  if ((t.path k).own.get? Reg.islGatedAddr).isNone then t.setOwn k Reg.islGatedAddr (w32 (2 ^ 31 * b2n write + off % 2 ^ 26)) else t

/-! ### Reads -/

/-- What a register shows on a path. -/
def State.shownTo (s : State) (k off : Nat) : Word :=
  if ownRegs.contains off then s.own k off
  else if off = Reg.evrStatus then s.shows off ||| s.own k off
  else s.shows off

/-- What a read leaves in an RC field: nothing, or the value that the field now has where it is a low or high mark
(R12, R117, R194). -/
def State.rcLeft (s : State) (off : Nat) (d : RegDesc) : Word :=
  let old := s.reg off
  let cleared := w32 (old.toNat &&& (0xFFFFFFFF ^^^ d.rc))
  if Reg.bpmLow0 ≤ off ∧ off < Reg.bpmLow0 + 0xA0 ∧ off % 32 = 0x14 then w32 (s.poolFree ((off - Reg.bpmLow0) / 32))
  else if cxRep off = Reg.cxStageUsed then Word.withFld cleared 31 16 (s.stageUsed ((off - 0x100000) / 0x40000))
  else cleared

/-- The read of a register that exists on a path, with what reading does: WO bits read 0, a _HI returns the latched half,
a _LO latches it, and RC fields clear (R11, R12, R581). -/
def State.readReg (s : State) (k off : Nat) (d : RegDesc) : State × Word :=
  if Reg.evrWindow ≤ off ∧ off < Reg.evrWindow + 32 then s.windowRead k ((off - Reg.evrWindow) / 4)
  else
    let v := s.shownTo k off
    if d.pair = 2 then (s, (s.path k).latch.getD (off - 4) v)
    else if d.pair = 1 then (s.setPath k fun q => { q with latch := q.latch.set off (s.shownTo k (off + 4)) }, v)
    else if d.rc ≠ 0 then (s.setReg off (s.rcLeft off d), v)
    else (s, w32 (v.toNat &&& (0xFFFFFFFF ^^^ d.wo)))

/-- What the CXL mailbox window of an LD shows where no register of the register table stands (R499, R500; the places of
the fields are those of CXL 3.1, PRESUMED, log 22): Mailbox Capabilities with payload size 12 and the Background Command
Complete interrupt, message number 0; the last opcode and its return code; Background Command Status; and the output
buffer, which holds the instance's stored result. Other offsets are reserved. -/
def State.cxlWindow (s : State) (off : Nat) : Word :=
  let ld := (off - 0x80000) / 0x2000
  let r := (off - 0x80000) % 0x2000
  if off < 0x80000 ∨ 0xC0000 ≤ off then 0
  else
    let m := s.mb ld
    let done := m.state != .busy
    let bg := m.background && !done
    if r = 0 then w32 (12 + 2 ^ 6)
    else if r = 8 then w32 (s.ld ld).mbxOp
    else if r = 0x10 then w32 (b2n bg)
    else if r = 0x14 then w32 (s.ld ld).mbxRet
    else if r = 0x18 then w32 (if bg || m.lastSeq.isSome then 0xC000 + 2 ^ 16 * m.result.progress else 0)
    else if 0x20 ≤ r ∧ r < 0x1020 then
      (if m.lastSeq.isNone then 0
       else w32 (ofLe (sliceBytes (jBytes (m.lastSeq.getD 0) (if done then m.tag else 0) m.result) (r - 0x20) 4)))
    else 0

/-- A write of the window: the payload's bytes go to the input buffer (R500). -/
def State.cxlWindowPut (s : State) (off : Nat) (val : Word) : State :=
  let ld := (off - 0x80000) / 0x2000
  let r := (off - 0x80000) % 0x2000
  if 0x80000 ≤ off ∧ off < 0xC0000 ∧ 0x20 ≤ r ∧ r < 0x1020 then
    s.modLd ld fun l => { l with payload := l.payload.set ((r - 0x20) / 4) val }
  else s

/-- A 4-byte read on a path, and the value that it returns (R58, R61, R613). -/
def State.read4 (s : State) (p : RegPath) (off : Nat) : State × Word :=
  if s.reaches p off = false then (s.count Reg.glbBadAccess, 0)
  else if s.absent off then (s, 0)
  else match descAt off with
  | none => ((s.barWake p).1, s.cxlWindow off)
  | some d =>
    let w := s.barWake p
    if w.1.gated (islandOf off) && !w.2 then (s.gatedNote (pathKey p) off false, 0xDEAD0A0A)
    else w.1.readReg (pathKey p) off d

/-- An 8-byte read at a _LO: both halves as one latched value (R59). -/
def State.read8 (s : State) (p : RegPath) (off : Nat) : State × Word × Word :=
  if s.reaches p off = false then (s.count Reg.glbBadAccess, 0, 0)
  else
    let a := s.read4 p off
    if s.gated (islandOf off) && !(s.barWake p).2 then (a.1, a.2, a.2)
    else
      let b := a.1.read4 p (off + 4)
      (b.1, a.2, b.2)

/-- A read of the register space by a path. The persist-barrier register of the LD's own window and LAP_COMMIT return
later (R98, R681). -/
def State.readAccess (s : State) (p : RegPath) (off size : Nat) : State :=
  let k := pathKey p
  let barrier := match p with
    | .bar0 ld => off == Reg.mbxPbarrier + 0x2000 * ld.val
    | _ => false
  if s.hasPath p = false then s
  else if goodAccess off size = false then (s.count Reg.glbBadAccess).emit (.badRead k size)
  else if barrier then
    (match p with
      | .bar0 ld => (s.barWake p).1.modLd ld fun l => { l with waits := l.waits ++ [s.writesOf ld] }
      | _ => s)
  else if off = Reg.lapCommit ∧ s.reaches p off then (s.barWake p).1.lapCommitDo k
  else if size = 8 then
    let r := s.read8 p off
    r.1.emit (.regRead k off r.2.1 (some r.2.2))
  else
    let r := s.read4 p off
    r.1.emit (.regRead k off r.2 none)

/-! ### Writes -/

/-- Registers that are read-only and owned by firmware (R527, R528, R239). -/
def roFw (off : Nat) : Bool :=
  [Reg.mbxFwStatus, Reg.mbxFwVersion, Reg.mbxFwVersion + 4, Reg.mbxActHalt, Reg.crcFwResultLo, Reg.crcFwResultHi].contains off

/-- Whether a register is FW-marked as a whole: none of its writable bits is a host's (R12, R14). -/
def fwOwned (d : RegDesc) (off : Nat) : Bool :=
  (d.host == 0 && d.w1c == 0 && (d.rw ||| d.rwl ||| d.w1s ||| d.wo) != 0) || roFw off

/-- A host's write to an FW-marked register (R14). -/
def State.fwReject (s : State) (p : RegPath) (off : Nat) : State :=
  (s.count Reg.glbFwReject).record 0x0001 (pathHost p) 0 off

/-- The content of a register after a write: RW bits, RWL bits while the block is not locked, W1S and W1C bits; for a
host only those without the FW marker (R12). -/
def State.merged (s : State) (off : Nat) (d : RegDesc) (val : Word) (fw : Bool) : Word :=
  let m0 := d.rw ||| (if s.bit (lockOf off) 0 then 0 else d.rwl)
  let m := if fw then m0 else m0 &&& d.host
  let old := (s.reg off).toNat
  let v := val.toNat
  let a := (old &&& (0xFFFFFFFF ^^^ m)) ||| (v &&& m)
  let b := a ||| (if fw then v &&& d.w1s else 0)
  w32 (b &&& (0xFFFFFFFF ^^^ (v &&& d.w1c)))

/-- Stores a value and does what the write does, unless firmware rejects the setting. -/
def State.putReg (s : State) (off : Nat) (w val : Word) : State :=
  let old := s.reg off
  let new := storedVal off old w
  if s.rejects off new then s else (s.setReg off new).writeFx off old new val

/-- Both halves of a writable pair take effect at the write of _HI: the _LO half is the one held on the path, or the one
that the register holds (R11, R283). -/
def State.writeHi (s : State) (k off : Nat) (d : RegDesc) (val : Word) (fw : Bool) : State :=
  let lo := off - 4
  let held := (s.path k).held.get? lo
  let t := s.setPath k fun q => { q with held := q.held.erase lo }
  if off = Reg.plcTileSelHi then t.selTile k (held.getD (s.own k lo)).toNat (val.toNat % 8)
  else
    let t := match held, descAt lo with
      | some v, some dl => t.setReg lo (t.merged lo dl v fw)
      | _, _ => t
    t.putReg off (t.merged off d val fw) val

/-- A write of a register that exists, on a path that may write it. -/
def State.writeReg (s : State) (k off : Nat) (d : RegDesc) (val : Word) (fw : Bool) : State :=
  if d.pair = 1 ∧ (d.rw ||| d.rwl) ≠ 0 then s.setPath k fun q => { q with held := q.held.set off val }
  else if d.pair = 2 ∧ (d.rw ||| d.rwl) ≠ 0 then s.writeHi k off d val fw
  else if ownRegs.contains off then s.selWrite k off val
  else if off = Reg.elgReserve then s.writeReserve val
  else if off = Reg.elgTestCfg then s.writeTestCfg val
  else if off = Reg.elgSaveCfg then s.writeSaveCfg val
  else if off = Reg.lapBase then s.lapBaseDo val
  else s.putReg off (s.merged off d val fw) val

/-- A 4-byte write on a path, and whether R14 or R61 rejects it (R58, R61, R62, R613). -/
def State.write4 (s : State) (p : RegPath) (off : Nat) (val : Word) : State × Bool :=
  if s.reaches p off = false then (s.count Reg.glbBadAccess, true)
  else if s.absent off then (s, false)
  else match descAt off with
  | none => ((s.barWake p).1.cxlWindowPut off val, false)
  | some d =>
    let w := s.barWake p
    if w.1.gated (islandOf off) && !w.2 then (s.gatedNote (pathKey p) off true, false)
    else if fwOwned d off && !pathFw p then (w.1.fwReject p off, true)
    else (w.1.writeReg (pathKey p) off d val (pathFw p), false)

/-- A write of the register space by a path: 4 bytes, or both halves of a pair (R59). -/
def State.writeAccess (s : State) (p : RegPath) (off size val : Nat) : State :=
  if s.hasPath p = false then s
  else if goodAccess off size = false then s.count Reg.glbBadAccess
  else if size = 8 then
    (if s.reaches p off = false then s.count Reg.glbBadAccess
     else
       let r := s.write4 p off (w32 (val % 2 ^ 32))
       if r.2 || (s.gated (islandOf off) && !(s.barWake p).2) then r.1 else (r.1.write4 p (off + 4) (w32 (val / 2 ^ 32))).1)
  else (s.write4 p off (w32 val)).1

/-! ### Events in the same cycle (R658, R659) -/

/-- A counter and the number of its highest bit and lowest bit, that counts the event of a flag; the flags of a register
that no counter counts have none. -/
def flagCounter (off i : Nat) : Option Nat :=
  if off = Reg.islEvent then (if i ≤ 1 then some Reg.islCount else if i = 3 then some (Reg.islCount + 8) else none)
  else if off = Reg.glbXltStatus then some Reg.glbXltCount
  else if off = Reg.mbxEvent then (if i = 0 then some (Reg.mbxCount + 4) else if i = 1 then some (Reg.mbxCount + 8) else none)
  else if off = Reg.rdxEvent then (if i = 0 then some (Reg.rdxCount + 4) else none)
  else if off = Reg.tqmEvent then (if i = 1 then some (Reg.tqmCount + 8) else none)
  else if off = Reg.crcMismatch then some Reg.crcMismatchCount
  else if off = Reg.plcEvent then
    (if i = 0 then some (Reg.plcCount + 16) else if i = 5 then some (Reg.plcCount + 20)
     else if i = 6 then some (Reg.plcCount + 24) else none)
  else if off = Reg.hlcEvent then
    (if i = 0 then some (Reg.hlcCount + 12) else if i = 1 ∨ i = 2 then some (Reg.hlcCount + 16)
     else if i = 3 ∨ i = 4 then some (Reg.hlcCount + 20) else if i = 5 then some (Reg.hlcCount + 24) else none)
  else if off = Reg.fmcEvent then
    (if i = 0 then some Reg.fmcCount else if i = 1 then some (Reg.fmcCount + 12) else none)
  else if off = Reg.elgEvent then
    (if i = 0 then some Reg.elgCount else if i = 2 then some (Reg.elgCount + 4) else if i = 5 then some (Reg.elgCount + 12) else none)
  else if off = Reg.twnEvent then
    (if i = 9 then some (Reg.twnCount + 4) else if i = 8 then some (Reg.twnCount + 8)
     else if i = 11 then some (Reg.twnCount + 0x1C) else none)
  else if off = Reg.pwsEvent then
    (if i = 0 then some Reg.pwsCount else if i = 2 then some (Reg.pwsCount + 8) else if i = 4 then some (Reg.pwsCount + 12) else none)
  else if off = Reg.twbMgtEvent then (if i < 4 then some (Reg.twbMgtCount + 4 * i) else none)
  else if off = Reg.twbPsbEvent then
    (if i = 1 then some Reg.twbPsbCount else if i = 2 then some (Reg.twbPsbCount + 4) else none)
  else if off = Reg.lapEvent then
    (if i = 0 ∨ i = 2 then some Reg.lapCount else if i = 1 ∨ i = 3 then some (Reg.lapCount + 4) else none)
  else if 0x600000 ≤ off ∧ off < 0x640000 ∧ off % 0x4000 = 4 then
    (if i = 0 then some (off + 0x1C) else if i = 1 then some (off + 0x20) else if i = 3 then some (off + 0x28)
     else if i = 2 then some (off + 0x2C) else if i = 7 then some (off + 0x30) else none)
  else if 0x9C0000 ≤ off ∧ off < 0x9C00A0 ∧ off % 32 = 12 then (if i = 3 then some (off + 4) else none)
  else none

/-- The event of a capture register in the cycle of a W1C write (R660): where the write has cleared the guarding flag the flag
stays set and the capture holds the new event, whose register content is `hw` and whose address is `cap`; that event does not
set OVERFLOW. Where it has not, the event comes while the flag is set. -/
def State.captureSets (s : State) (off hw cap : Nat) : State :=
  if off = Reg.glbXltStatus then
    let t := s.count Reg.glbXltCount
    if t.bit off 0 then t.flag off 1
    else (t.setReg off (w32 (bitsOf hw 31 5 * 2 ^ 5 + 2 * b2n (t.bit off 1) + 1))).setReg64 Reg.glbXltAddrLo cap
  else
    let t := s.count Reg.pwsCount
    if t.bit off 31 then t
    else ((t.setReg off (w32 (2 ^ 31 + hw % 2 ^ 31))).setReg64 Reg.pwsFirstOpTimeLo t.time).railLog 1 (hw % 32) (bitsOf hw 11 8)

/-- Hardware sets flags in the cycle of a W1C write: they stay set, and the counters that count their events
increment (R658). -/
def State.hwSets (s : State) (off hw cap : Nat) : State :=
  if (off = Reg.glbXltStatus ∧ hw.testBit 0) ∨ (off = Reg.pwsFirstOp ∧ hw.testBit 31) then s.captureSets off hw cap
  else match descAt off with
  | none => s
  | some d => ((List.range 32).filter fun i => (hw &&& d.w1c).testBit i).foldl (fun (t : State) i =>
      let u := t.flag off i
      match flagCounter off i with
      | some c => if 0x9C0000 ≤ c ∧ c < 0x9C00A0 then u.addSat c 15 0 1 else u.count c
      | none => u) s

/-- Increments of an RC counter in the cycle of its read (R659): the counters of 16 bits saturate at 0xFFFF. -/
def State.rcAdd (s : State) (off n : Nat) : State :=
  match descAt off with
  | none => s
  | some d =>
    if d.rc = 0 ∨ n = 0 then s
    else if cxRep off = Reg.cxDownCount then (s.addSat off 15 0 (n % 2 ^ 16)).addSat off 31 16 (n / 2 ^ 16)
    else if d.rc = 0xFFFFFFFF then s.countBy off n
    else if Reg.bpmDfree ≤ off ∧ off < Reg.bpmDfree + 0xA0 ∧ off % 32 = 0x10 then s.addSat off 15 0 n
    else s

end Sys2Proof.Machine
end

