-- ==== Sys2Proof/Machine/RegExec.lean ====
section
/-! DEFINITION. The commands that are register accesses: the generic ones (chapter "Registers"), the selectors, and every
command register that has a row of its own. -/

namespace Sys2Proof.Machine

/-! ### Register accesses (R11, R12, R58–R62, R612, R613, R658, R659) -/

/-- REGISTER_WRITE: a 4- or 8-byte write. -/
def execRegisterWrite (p : RegPath) (off size val : Nat) (s : State) : Out := .next (s.writeAccess p off size val)

/-- REGISTER_HI_WRITE: a write of the _HI half of a pair. -/
def execRegisterHiWrite (p : RegPath) (off : Nat) (val : Word) (s : State) : Out :=
  .next (s.writeAccess p off 4 val.toNat)

/-- REGISTER_LO_READ: a 4-byte read; at a _LO it latches the _HI half for the path. -/
def execRegisterLoRead (p : RegPath) (off : Nat) (s : State) : Out := .next (s.readAccess p off 4)

/-- RC_COUNTER_READ: the value read is the one before the increments of the same cycle, which the counter keeps. -/
def execRcCounterRead (p : RegPath) (off sameCycle : Nat) (s : State) : Out :=
  .next ((s.readAccess p off 4).rcAdd off sameCycle)

/-- W1C_FLAG_CLEAR: a write of ones clears flags; those that hardware sets in the same cycle stay set; a capture
register takes the new event, of address `cap` (R658, R660). -/
def execW1cFlagClear (p : RegPath) (off : Nat) (val hwSet : Word) (cap : DWord) (s : State) : Out :=
  .next ((s.writeAccess p off 4 val.toNat).hwSets off hwSet.toNat cap.toNat)

/-- BAD_REGISTER_ACCESS: an access of a size or alignment that R59 does not allow (one that it allows is served). -/
def execBadRegisterAccess (p : RegPath) (write : Bool) (off size : Nat) (s : State) : Out :=
  .next (if write then s.writeAccess p off size 0 else s.readAccess p off size)

/-- GATED_ISLAND_ACCESS: a 4-byte access, to an island that is gated (one that runs serves it). -/
def execGatedIslandAccess (p : RegPath) (write : Bool) (off : Nat) (val : Word) (s : State) : Out :=
  .next (if write then s.writeAccess p off 4 val.toNat else s.readAccess p off 4)

/-- GLB_RGN_SEL (R68). -/
def execGlbRgnSel (p : RegPath) (region : Fin 4096) (s : State) : Out := .next (s.writeAccess p Reg.glbRgnSel 4 region)

/-- TQM_SQ_SEL (R232). -/
def execTqmSqSel (p : RegPath) (sq : Fin 4096) (s : State) : Out := .next (s.writeAccess p Reg.tqmSqSel 4 sq)

/-- TQM_CQ_SEL (R232). -/
def execTqmCqSel (p : RegPath) (cq : Fin 4096) (s : State) : Out := .next (s.writeAccess p Reg.tqmCqSel 4 cq)

/-- PLC_RGN_SEL (R282). -/
def execPlcRgnSel (p : RegPath) (region : Fin 4096) (s : State) : Out := .next (s.writeAccess p Reg.plcRgnSel 4 region)

/-- PLC_TILE_SEL: the write of PLC_TILE_SEL_HI (R283). -/
def execPlcTileSel (p : RegPath) (hi : Word) (s : State) : Out := .next (s.writeAccess p Reg.plcTileSelHi 4 hi.toNat)

/-- FMC_SET_SEL (R396). -/
def execFmcSetSel (p : RegPath) (set : Fin 64) (s : State) : Out := .next (s.writeAccess p Reg.fmcSetSel 4 set)

/-- SEC_RGN_KEY_SEL (R562). -/
def execSecRgnKeySel (p : RegPath) (region : Fin 4096) (s : State) : Out := .next (s.writeAccess p Reg.secKeySel 4 region)

/-- EFL_BLOCK_SEL (R587). -/
def execEflBlockSel (p : RegPath) (block : Fin 256) (s : State) : Out := .next (s.writeAccess p Reg.eflBlockSel 4 block)

/-- EFL_RADDR (R571, R585). -/
def execEflRaddr (p : RegPath) (addr : Word) (s : State) : Out := .next (s.writeAccess p Reg.eflRaddr 4 addr.toNat)

/-- EVR_WINDOW_READ (R581). -/
def execEvrWindowRead (p : RegPath) (word : Fin 8) (s : State) : Out := .next (s.readAccess p (Reg.evrWindow + 4 * word) 4)

/-! ### Command registers -/

/-- CXL_LINK_ENABLE: a write of CXA_PORT_CFG or CXB_PORT_CFG (R77, R110). -/
def execCxlLinkEnable (p : RegPath) (port : Fin 2) (val : Word) (s : State) : Out :=
  .next (s.writeAccess p (Reg.cxPortCfg + cxBase port) 4 val.toNat)

/-- TQM_DOORBELL (R200, R229). -/
def execTqmDoorbell (p : RegPath) (sq : Fin 4096) (s : State) : Out := .next (s.writeAccess p Reg.tqmDoorbell 4 sq)

/-- CRC_FW_LOAD (R225, R239). -/
def execCrcFwLoad (p : RegPath) (s : State) : Out := .next (s.writeAccess p Reg.crcFwCtl 4 1)

/-- CRC_FW_DATA32 (R225, R239). -/
def execCrcFwData32 (p : RegPath) (data : Word) (s : State) : Out := .next (s.writeAccess p Reg.crcFwData32 4 data.toNat)

/-- CRC_FW_DATA8 (R225, R239). -/
def execCrcFwData8 (p : RegPath) (data : Byte) (s : State) : Out := .next (s.writeAccess p Reg.crcFwData8 4 data.toNat)

/-- HLC_MAINT_WRITEBACK: OP 0 (R298, R311). -/
def execHlcMaintWriteback (p : RegPath) (scope : Fin 4) (s : State) : Out :=
  .next (s.writeAccess p Reg.hlcMaintCmd 4 (4 * scope))

/-- HLC_MAINT_WB_INVAL: OP 1 (R298, R311). -/
def execHlcMaintWbInval (p : RegPath) (scope : Fin 4) (s : State) : Out :=
  .next (s.writeAccess p Reg.hlcMaintCmd 4 (4 * scope + 1))

/-- DMC_SELF_REFRESH_ENTER: SELF_REFRESH written 1, the other bits as they stand (R334, R348). -/
def execDmcSelfRefreshEnter (p : RegPath) (s : State) : Out :=
  .next (s.writeAccess p Reg.dmcCtl 4 (Word.withFld (s.reg Reg.dmcCtl) 1 1 1).toNat)

/-- DMC_SELF_REFRESH_EXIT: SELF_REFRESH written 0 (R334, R348). -/
def execDmcSelfRefreshExit (p : RegPath) (s : State) : Out :=
  .next (s.writeAccess p Reg.dmcCtl 4 (Word.withFld (s.reg Reg.dmcCtl) 1 1 0).toNat)

/-- DMC_TRAIN_FULL: START, MODE 0 (R335, R355). -/
def execDmcTrainFull (p : RegPath) (mask : BitVec 16) (s : State) : Out :=
  .next (s.writeAccess p Reg.dmcTrain 4 (2 ^ 31 + mask.toNat))

/-- DMC_TRAIN_STORED: START, MODE 1 (R335, R355). -/
def execDmcTrainStored (p : RegPath) (mask : BitVec 16) (s : State) : Out :=
  .next (s.writeAccess p Reg.dmcTrain 4 (2 ^ 31 + 2 ^ 16 + mask.toNat))

/-- DMC_TRAIN_ROWS: START, MODE 2 (R336, R355). -/
def execDmcTrainRows (p : RegPath) (mask : BitVec 16) (s : State) : Out :=
  .next (s.writeAccess p Reg.dmcTrain 4 (2 ^ 31 + 2 ^ 17 + mask.toNat))

/-- The offset of DMC_CH_CHIVE_HI of an entry (R362). -/
def chiveOff (ch entry : Nat) : Nat := chOff Reg.dmcChiveHi ch + 8 * entry

/-- CHIVE_ENABLE: VALID written 1 (R340, R362). -/
def execChiveEnable (p : RegPath) (ch : Fin 16) (entry : Fin 32) (s : State) : Out :=
  .next (s.writeAccess p (chiveOff ch entry) 4 (2 ^ 31))

/-- CHIVE_DISABLE: VALID written 0 (R340, R362). -/
def execChiveDisable (p : RegPath) (ch : Fin 16) (entry : Fin 32) (s : State) : Out :=
  .next (s.writeAccess p (chiveOff ch entry) 4 0)

/-- SCRUB_GO: GO written 1 with the rate and the channels (R345, R357). -/
def execScrubGo (p : RegPath) (rate : Nat) (mask : BitVec 16) (s : State) : Out :=
  .next (s.writeAccess p Reg.dmcScrubCtl 4 (2 ^ 30 + 2 ^ 16 * (rate % 128) + mask.toNat))

/-- SCRUB_STOP: GO written 0 (R346, R357). -/
def execScrubStop (p : RegPath) (s : State) : Out :=
  .next (s.writeAccess p Reg.dmcScrubCtl 4 (Word.withFld (s.reg Reg.dmcScrubCtl) 30 30 0).toNat)

/-- ELG_CMD.TEST (R400, R436). -/
def execElgCmdTest (p : RegPath) (s : State) : Out := .next (s.writeAccess p Reg.elgCmd 4 1)

/-- ELG_RESERVE_WRITE (R403, R414). -/
def execElgReserveWrite (p : RegPath) (val : Word) (s : State) : Out := .next (s.writeAccess p Reg.elgReserve 4 val.toNat)

/-- ELG_TEST_CFG_WRITE (R403, R414). -/
def execElgTestCfgWrite (p : RegPath) (val : Word) (s : State) : Out := .next (s.writeAccess p Reg.elgTestCfg 4 val.toNat)

/-- ELG_SAVE_CFG_WRITE (R414). -/
def execElgSaveCfgWrite (p : RegPath) (val : Word) (s : State) : Out := .next (s.writeAccess p Reg.elgSaveCfg 4 val.toNat)

/-- ELG_CMD.SAVE (R415, R436). -/
def execElgCmdSave (p : RegPath) (s : State) : Out := .next (s.writeAccess p Reg.elgCmd 4 2)

/-- SHAUM_LINK_ENABLE: a write of TWN_CTL (R441, R442, R484). -/
def execShaumLinkEnable (p : RegPath) (val : Word) (s : State) : Out := .next (s.writeAccess p Reg.twnCtl 4 val.toNat)

/-- TWN_CMD.RETRAIN (R442, R493). -/
def execTwnCmdRetrain (p : RegPath) (s : State) : Out := .next (s.writeAccess p Reg.twnCmd 4 4)

/-- TWN_CMD.TAKEOVER (R468, R493). -/
def execTwnCmdTakeover (p : RegPath) (s : State) : Out := .next (s.writeAccess p Reg.twnCmd 4 8)

/-- TWN_CMD.RELEASE (R478, R493). -/
def execTwnCmdRelease (p : RegPath) (s : State) : Out := .next (s.writeAccess p Reg.twnCmd 4 2)

/-- TWN_CMD.FENCE (R467, R493). -/
def execTwnCmdFence (p : RegPath) (s : State) : Out := .next (s.writeAccess p Reg.twnCmd 4 1)

/-- SEC_ARB_ADVANCE (R538, R559). -/
def execSecArbAdvance (p : RegPath) (svn : Nat) (s : State) : Out :=
  .next (s.writeAccess p Reg.secArbAdvance 4 svn)

/-- EFL_UNLOCK: one key (R568, R584). -/
def execEflUnlock (p : RegPath) (key : Word) (s : State) : Out := .next (s.writeAccess p Reg.eflUnlock 4 key.toNat)

/-- EFL_PROGRAM: the writes of EFL_CMD (PROGRAM), EFL_ADDR, EFL_DATA_LO and EFL_DATA_HI (R568). -/
def execEflProgram (p : RegPath) (addr : Word) (data : DWord) (s : State) : Out :=
  .next ((((s.writeAccess p Reg.eflCmd 4 1).writeAccess p Reg.eflAddr 4 addr.toNat).writeAccess p Reg.eflDataLo 4
    (data.toNat % 2 ^ 32)).writeAccess p Reg.eflDataHi 4 (data.toNat / 2 ^ 32))

/-- EFL_ERASE: the writes of EFL_CMD (ERASE) and EFL_ADDR (R568). -/
def execEflErase (p : RegPath) (addr : Word) (s : State) : Out :=
  .next ((s.writeAccess p Reg.eflCmd 4 2).writeAccess p Reg.eflAddr 4 addr.toNat)

/-- EFL_SUSPEND (R570). -/
def execEflSuspend (p : RegPath) (s : State) : Out := .next (s.writeAccess p Reg.eflCmd 4 3)

/-- EFL_RESUME (R570). -/
def execEflResume (p : RegPath) (s : State) : Out := .next (s.writeAccess p Reg.eflCmd 4 4)

/-- EVR_SUBMIT: the write of EVR_SUBMIT_P3 queues firmware's record (R591). -/
def execEvrSubmit (p : RegPath) (p3 : Word) (s : State) : Out := .next (s.writeAccess p (Reg.evrSubmit + 16) 4 p3.toNat)

/-- PWS_CTL_UP: UP written 1, MON_EN as it stands (R600, R619). -/
def execPwsCtlUp (p : RegPath) (s : State) : Out :=
  .next (s.writeAccess p Reg.pwsCtl 4 (Word.withFld (s.reg Reg.pwsCtl) 1 1 1).toNat)

/-- QUIET_ENTER: ISL_QUIET_CMD.ENTER (R615, R626). -/
def execQuietEnter (p : RegPath) (s : State) : Out := .next (s.writeAccess p Reg.islQuietCmd 4 1)

/-- QUIET_WAKE: ISL_QUIET_CMD.WAKE (R617, R626). -/
def execQuietWake (p : RegPath) (s : State) : Out := .next (s.writeAccess p Reg.islQuietCmd 4 2)

/-- PSB_GO: a write of TWB_PSB_CMD (R639, R646). -/
def execPsbGo (p : RegPath) (val : Word) (s : State) : Out := .next (s.writeAccess p Reg.twbPsbCmd 4 val.toNat)

/-- PSB_RESET: PSB_RESET written 1, the other bits as they stand; `cleared` are the ports that a bus clear frees, `stuck` those
whose SDA stays low (R640, R643). The write itself is made with the bit clear, which holds nothing. -/
def execPsbReset (p : RegPath) (cleared stuck : BitVec 4) (s : State) : Out :=
  .next (let t := s.writeAccess p Reg.twbCtl 4 (Word.withFld (s.reg Reg.twbCtl) 2 2 0).toNat
    if pathFw p then t.psbReset cleared.toNat stuck.toNat else t)

/-- LAP_COMMIT_READ (R681). -/
def execLapCommitRead (p : RegPath) (s : State) : Out := .next (s.readAccess p Reg.lapCommit 4)

/-- LAP_DRAIN_REQ: DRAIN_REQ written 1 (R683, R684). -/
def execLapDrainReq (p : RegPath) (s : State) : Out :=
  .next (s.writeAccess p Reg.lapCtl 4 (Word.withFld (s.reg Reg.lapCtl) 1 1 1).toNat)

/-- LAP_DRAIN_CLEAR: DRAIN_REQ written 0 (R683, R684). -/
def execLapDrainClear (p : RegPath) (s : State) : Out :=
  .next (s.writeAccess p Reg.lapCtl 4 (Word.withFld (s.reg Reg.lapCtl) 1 1 0).toNat)

/-- LAP_BASE_WRITE (R683, R685). -/
def execLapBaseWrite (p : RegPath) (val : Word) (s : State) : Out := .next (s.writeAccess p Reg.lapBase 4 val.toNat)

end Sys2Proof.Machine
end

