-- ==== Sys2Proof/Machine/Jorrid.lean ====
section
/-! DEFINITION. Jorrid commands: how they arrive at a mailbox instance, are accepted, answered again, refused or held;
rights, start-up phases and objects; what starts a relayed or held command; the course of commands that outlast their
acceptance (R498–R512, R517, R522). -/

namespace Sys2Proof.Machine

/-! ### Transports and rights (R498, R512) -/

/-- Rights classes (R498). -/
inductive RightsClass
  | m | u | p
  deriving DecidableEq, Repr

/-- The rights class of an instance, by key (R498). -/
def State.classOf (s : State) (k : Nat) : RightsClass :=
  if k < 32 then (if s.privLd k then .m else .u) else if k = 32 then .p else .m

/-- The path on which an instance's register commands run (R62). -/
def pathOf (k : Nat) : RegPath :=
  if h : k < 32 then .cxlMbx ⟨k, h⟩ else if k = 32 then .peer else if k < 2 ^ 33 then .rdma else .mgt

/-- Whether a transport carries commands: it is enabled, its carrier is up, and during a save it is MGT (R416, R498,
R510, R525). -/
def State.instUp (s : State) (k : Nat) : Bool :=
  !s.gated (islandOf Reg.mbxCtl) && s.isl.warm == 0 &&
  (if k < 32 then s.cxlMbxUp k && s.elg.sage.isNone && !s.variantN
   else if k = 32 then s.bit Reg.mbxCtl 3 && s.linkIsUp && s.elg.sage.isNone
   else if k < 2 ^ 33 then
     s.bit Reg.mbxCtl 1 && s.elg.sage.isNone && (match s.qp? (k - 2 ^ 32) with
       | some q => q.state == .established && q.service == 1
           && (match s.leases.get? q.host with | some l => l.mgmt | none => false)
       | none => false)
   else s.bit Reg.mbxCtl 2 && decide (k < 2 ^ 33 + 256))

/-- Whether an MCTP endpoint finds no instance free: 8 others have one (R498). -/
def State.noInstance (s : State) (k : Nat) : Bool :=
  decide (2 ^ 33 ≤ k) && (s.mbx.get? k).isNone
    && decide (8 ≤ (s.mbx.keys.filter fun x => decide (2 ^ 33 ≤ x) && decide (x < 2 ^ 34)).length)

/-- Commands marked L: they take a background slot (R506, R511). -/
def takesSlot : JorridCmd → Bool
  | .plannedHandoff .. | .relay .. | .regionResize .. | .regionDelete _ | .regionSetPolicy .. | .setDurability ..
  | .extentAdd .. | .extentRelease .. | .leaseRevoke _ | .mkeyInvalidateFor _ | .sqDelete _ | .scrubStart .. | .capTest
  | .fwTransferInitiate .. | .fwTransferContinue .. | .fwTransferEnd .. | .fwTransferAbort _ | .fwActivateLive _
  | .fwActivateNextReset _ => true
  | _ => false

/-- Commands marked S: permitted during start-up (R509, R511). -/
def atStart : JorridCmd → Bool
  | .identify | .setTime _ | .regRead .. | .regWrite _ | .regionForceOnline .. | .regionInfo _ | .eventRead .. | .fwInfo
  | .provision .. => true
  | _ => false

/-- Commands marked both S and A (R511). -/
def startBoth : JorridCmd → Bool
  | .setTime _ | .regionForceOnline .. => true
  | _ => false

/-- Whether the phase forbids a command (R509, R510). -/
def notReady (phase : Nat) (c : JorridCmd) : Bool :=
  let always := (atStart c && !startBoth c) || (match c with | .resetWarm | .twinRetrain => true | _ => false)
  if phase ≤ 6 then !atStart c
  else if phase = 9 then (match c with | .identify | .eventRead .. | .regRead .. => false | _ => true)
  else if phase = 10 then !always
  else if phase = 11 then !always && (match c with
    | .fwTransferInitiate .. | .fwTransferContinue .. | .fwTransferEnd .. | .fwTransferAbort _ | .fwActivateNextReset _ => false
    | _ => true)
  else false

/-- Whether a target is one that only class M may set: KIND 2 with a HOST_ID other than the owning host's (R213). -/
def foreignTarget (host : Nat) (t : Target) : Bool := t.kind == 2 && t.host != host

/-- Whether a command sets a target that only class M may set (R213). -/
def State.setsForeign (s : State) (c : JorridCmd) : Bool :=
  match c with
  | .cqCreate _ host _ _ t0 t1 _ _ => foreignTarget host t0 || foreignTarget host t1
  | .cqSetTarget i _ t => match s.cq? i with
    | some q => foreignTarget q.host t
    | none => false
  | _ => false

/-- What class U is permitted beside the queries (R512). -/
def State.permitU (s : State) (ld : Nat) (c : JorridCmd) : Bool :=
  let sq := fun (i : Nat) => match s.sq? i with | some q => q.host == ld && !q.maint | none => false
  match c with
  | .identify | .regRead .. | .regWrite _ => true
  | .regionInfo r => s.extents.vals.any fun e => e.ld == ld && e.region == r && !e.pending && !e.removing
  | .sqCreate _ host _ _ _ _ maint => host == ld && !maint
  | .sqDelete i | .sqStop i | .sqResume i | .sqReset i => sq i
  | .cqCreate _ host .. => host == ld && !s.setsForeign c
  | .cqDelete i => (match s.cq? i with | some q => q.host == ld | none => false)
  | .cqSetTarget i _ _ => (match s.cq? i with | some q => q.host == ld && !s.setsForeign c | none => false)
  | .notifyVector l _ _ => l == ld
  | _ => false

/-- Whether a rights class permits a command (R213, R512). -/
def State.permits (s : State) (k : Nat) (c : JorridCmd) : Bool :=
  match s.classOf k with
  | .m => true
  | .u => s.permitU k c
  | .p => !s.setsForeign c && match c with
    | .regWrite _ | .fwTransferInitiate .. | .fwTransferContinue .. | .fwTransferEnd .. | .fwTransferAbort _
    | .fwActivateLive _ | .fwActivateNextReset _ | .provision .. | .relay .. => false
    | _ => true

/-- The objects that a command changes (R508). -/
def objectsOf : JorridCmd → List Nat
  | .plannedHandoff .. | .setMode _ | .twinRelease | .twinTakeover | .twinRetrain | .provision .. => [objTwin]
  | .regionCreate r _ _ _ _ _ => [objRegion r]
  | .regionResize r _ | .regionDelete r => [objRegion r]
  | .regionSetPolicy r _ _ => [objRegion r]
  | .regionSetAttr r _ _ _ => [objRegion r]
  | .regionForceOnline r _ => [objRegion r]
  | .ldBind l _ => [objLd l]
  | .ldUnbind l => [objLd l]
  | .setDurability l _ => [objLd l]
  | .extentAdd l _ _ _ _ _ => [objLd l]
  | .extentRelease l _ _ _ _ => [objLd l]
  | .notifyVector l _ _ => [objLd l]
  | .leaseGrant h _ _ _ _ => [objLease h]
  | .leaseChange h _ _ _ _ => [objLease h]
  | .leaseRevoke h => [objLease h]
  | .mkeyInvalidateFor k => [objKey (rkeyIdx k)]
  | .sqCreate q _ _ _ _ _ _ => [objSq q]
  | .sqDelete q | .sqStop q | .sqResume q | .sqReset q => [objSq q]
  | .cqCreate q _ _ _ _ _ _ _ => [objCq q]
  | .cqDelete q => [objCq q]
  | .cqSetTarget q _ _ => [objCq q]
  | .fwTransferInitiate b _ => [objSlot b]
  | .fwTransferContinue b _ _ => [objSlot b]
  | .fwTransferEnd b _ => [objSlot b]
  | .fwTransferAbort b | .fwActivateLive b | .fwActivateNextReset b => [objSlot b]
  | _ => []

/-- Whether an opcode names no command of the set (R502, R511). -/
def unknownOp : JorridCmd → Bool
  | .other _ => true
  | _ => false

/-! ### Answers (R503, R504) -/

/-- Answers SEQ_ERROR with the last accepted SEQ (R503, R504); with none accepted the body holds 0. -/
def State.jSeqError (s : State) (k : Nat) (h : JHdr) (c : JorridCmd) : State :=
  let t := (s.flag Reg.mbxEvent 0).count (Reg.mbxCount + 4)
  t.mbxSay k h.seq h.tag { opcode := opcodeOf c, status := jrSeqError, body := [(s.mb k).lastSeq.getD 0] }

/-- Answers without acceptance (R503). -/
def State.jRefuse (s : State) (k : Nat) (h : JHdr) (c : JorridCmd) (status : Nat) : State :=
  s.mbxSay k h.seq h.tag { opcode := opcodeOf c, status := status }

/-- Answers that the instance is busy with the command of a SEQ (R503). -/
def State.jBusy (s : State) (k seq : Nat) : State :=
  (s.count (Reg.mbxCount + 0xC)).mbxSay k seq 0 { status := jrBusy }

/-- Completes with DENIED, flagged and counted (R512, R528). -/
def State.jDeny (s : State) (k : Nat) : State :=
  ((s.flag Reg.mbxEvent 1).count (Reg.mbxCount + 8)).mbxStatus k jrDenied

/-- What an abortable command in progress does when it is asked to stop (R504, R511): a scrub pass stops, a planned
handoff starts no further region, a transfer's slot becomes EMPTY. -/
def State.jAbort (s : State) (k : Nat) : State :=
  let m := s.mb k
  match m.cmd with
  | some (.scrubStart ..) => s.scrubHalt
  | some (.plannedHandoff ids toPeer) =>
    let t := s.modMb k fun x => { x with abortAsked := true }
    if toPeer then { t with twn := { t.twn with handoffs := [] } }.handEnd
    else if t.paired then t.post (.control [.handoff ids t.twin false]) else t
  | some (.fwTransferInitiate b _) =>
    (s.loadDrop b).mbxStatus k jrAborted
  | _ => s

/-- A query: answered from the stored result, accepted by nothing; ABORT then asks the command to stop (R504). -/
def State.jQuery (s : State) (k : Nat) (h : JHdr) (c : JorridCmd) : State :=
  let m := s.mb k
  if m.lastSeq ≠ some h.seq then s.jSeqError k h c
  else match m.state with
  | .busy =>
    let t := s.mbxSay k h.seq h.tag { opcode := opcodeOf c, status := jrBusy, progress := m.result.progress }
    (match c with | .abort => t.jAbort k | _ => t)
  | _ => s.mbxSay k h.seq m.tag m.result

/-! ### Regions: what creation, resizing and deletion do (R43–R45) -/

/-- The RGT entries of a slice. -/
def State.sliceOf (s : State) (r : Region) : List (Nat × Nat) :=
  s.rgt.filter fun e => decide (r.rgtBase ≤ e.1) && decide (e.1 < r.rgtBase + r.size)

/-- RGT entries that lie in no region's slice: granules that a shrink has removed and not yet returned (R45). -/
def State.orphans (s : State) : List (Nat × Nat) :=
  s.rgt.filter fun e => !(s.regions.vals.any fun r => decide (r.rgtBase ≤ e.1) && decide (e.1 < r.rgtBase + r.size))

/-- The region whose slice stands last before an entry: the one that the entry was taken from. -/
def State.regionBefore (s : State) (idx : Nat) : Option Nat :=
  ((s.regions.filter fun e => decide (e.2.rgtBase + e.2.size ≤ idx)).foldl (fun (a : Option (Nat × Nat)) e => match a with
    | none => some (e.1, e.2.rgtBase)
    | some (i, b) => if b < e.2.rgtBase then some (e.1, e.2.rgtBase) else some (i, b)) none).map Prod.fst

/-- Whether this twin carries out the background work of a region: it holds its Ensign, or serves without a peer. -/
def State.carries (s : State) (id : Nat) : Bool := !s.paired || (s.region id).ensign == .owner

/-- Whether an access in flight covers a granule of persistent space, removed from a region's end as its granule `rg`
(R45). -/
def State.granuleBusy (s : State) (id : Option Nat) (rg g : Nat) : Bool :=
  !(s.accesses (fun r => r.segs.any fun p => decide (p.1 < (g + 1) * gib) && decide (g * gib < p.1 + p.2))
    fun x => some x.1 == id && overlaps x.2.1 x.2.2 (rg * gib) gib).isEmpty

/-- Finishes a deletion once every access admitted before it has completed: KEY_EPOCH advances, and once both twins have
purged the old keys every tile is ZERO, the granules and frames go back, and the descriptor is FREE on both (R44, R548). No key
is drawn while the entropy source fails (R563). -/
def State.deleteGo (s : State) (id : Nat) : State :=
  let r := s.region id
  if r.state == .deleting && s.carries id && !s.regionBusy id && !s.ctlRegion id then
    (if s.sec.advanced.contains id then
      (if s.oldHeld id then s
       else (s.both ((s.sliceOf r).map (fun e => .zeroTiles (e.2 * 262144) 262144) ++ [.region id { r with state := .free }])
        true none).1)
    else if s.sec.entropyOk then s.epochAdvance id []
    else s)
  else s

/-- Returns a granule that a shrink has removed, once no access in flight covers it (R45). -/
def State.orphanGo (s : State) (e : Nat × Nat) : State :=
  let mine : Bool := match s.regionBefore e.1 with
    | some id => s.carries id && !s.ctlRegion id
    | none => !s.paired || !s.twin
  let id := s.regionBefore e.1
  if mine && !s.granuleBusy id (e.1 - (s.region (id.getD 0)).rgtBase) e.2 then s.bothNow [.zeroTiles (e.2 * 262144) 262144, .rgtErase e.1] else s

/-- The background work of deletions and shrinks; after a reset it is taken up from what the tables record (R522). -/
def State.reclaim (s : State) : State :=
  let t := s.regions.keys.foldl State.deleteGo s
  t.orphans.foldl State.orphanGo t

/-- Whether an extent or a live key covers a byte of a region from an offset on (R45). -/
def State.coveredFrom (s : State) (id off : Nat) : Bool :=
  (s.extents.vals.any fun e => e.region == id && decide (off < e.rof + e.len))
    || (s.mkeys.vals.any fun k => k.live && k.region == id && decide (off < k.rof + k.len))

/-! ### The course of a command (R505, R508) -/

/-- Whether an unacknowledged CONTROL message belongs to an instance's command. -/
def State.ctlOpen (s : State) (k : Nat) : Bool := s.twn.ctl.vals.any fun c => c.inst == some k

/-- Whether a relayed command is on its way or being run at the peer (R498: one at a time). -/
def State.relaying (s : State) : Bool := s.mbx.vals.any fun m => m.step == 3

/-- Goes on with a command that has been accepted and has not ended. `step` 1 waits for the peer and for requests; 2 for
the peer mailbox to be free, 3 for the peer's result; 5 for an event that the state shows; 6 for the peer, and then for
the accesses admitted before the change (R51). -/
def State.jServe (s : State) (k : Nat) : State :=
  let m := s.mb k
  if m.state != .busy then s else
  match m.step, m.cmd with
  | 1, _ => s.mbxPoll k
  | 2, some (.relay h c) =>
    if !s.paired then s.mbxStatus k jrPeerAbsent
    else if s.relaying then s
    else (s.modMb k fun x => { x with step := 3, relayed := some h.seq }).post (.peerMbx h c)
  | 3, some (.relay ..) => if s.paired then s else (s.modMb k fun x => { x with relayed := none }).mbxStatus k jrPeerAbsent
  | 5, some (.regionCreate ..) => if s.ctlOpen k then s else (s.admitHosts.notePhase).mbxStatus k jrSuccess
  | 5, some (.regionDelete id) => if s.ctlOpen k || (s.regions.get? id).isSome then s else s.mbxStatus k jrSuccess
  | 5, some (.regionResize id _) =>
    if s.ctlOpen k || (s.orphans.any fun e => s.regionBefore e.1 == some id) then s else s.mbxStatus k jrSuccess
  | 5, some (.regionForceOnline id _) =>
    let t := s.admitRegion id
    if t.ctlOpen k || !admits (t.region id).state then t else t.mbxStatus k jrSuccess
  | 5, some (.plannedHandoff ..) =>
    if s.ctlOpen k then s
    else
      let left := (m.waits.filter fun id => (s.regions.get? id).isSome && (s.region id).ensign != .owner).length
      if left = 0 || m.abortAsked || !s.paired then
        s.mbxEnd k { status := if left = 0 then jrSuccess else if m.abortAsked then jrAborted else jrPeerAbsent
                     body := [m.waits.length - left] }
      else s
  | 5, some (.leaseRevoke host) =>
    if s.ctlOpen k || !(s.hostAccess host).isEmpty then s
    else match s.leases.get? host with
      | some l => (s.bothNow [.lease host { l with state := .revoked, revokeDone := true }]).mbxStatus k jrSuccess
      | none => s.mbxStatus k jrSuccess
  | 5, some (.sqDelete sq) => if s.ctlOpen k || (s.sq? sq).isSome then s.sqReap sq else s.mbxStatus k jrSuccess
  | 6, some (.regionSetPolicy id _ _) =>
    if s.ctlOpen k then s
    else (s.modMb k fun x => { x with step := 1, access := s.accessOn id, ending := { status := jrSuccess } }).mbxPoll k
  | _, _ => s

/-- Goes on with every command that is under way, and with the background work of regions and queues. -/
def State.jServeAll (s : State) : State :=
  let t := s.sqs.keys.foldl State.sqReap s.reclaim
  t.mbx.keys.foldl State.jServe t

/-- Waits for what the state shows, looked at once now. -/
def State.jWait (s : State) (k step : Nat) : State := (s.modMb k fun m => { m with step := step }).jServe k

/-- Makes changes on both twins and waits for the peer and then for what `step` says. -/
def State.jBoth (s : State) (k : Nat) (cs : List Change) (defer : Bool) (step : Nat) : State :=
  (s.both cs defer (some k)).1.jWait k step

end Sys2Proof.Machine
end

