-- ==== Sys2Proof/Machine/JorridRun.lean ====
section
/-! DEFINITION. What each Jorrid command does once it has been accepted and permitted (R511, R513–R516). -/

namespace Sys2Proof.Machine

/-! ### The device (R440, R511) -/

/-- The running slot. -/
def State.runningSlot (s : State) : FwSlot := s.fwSlot s.fw.running

/-- The version of a slot's microcode, which no field of the header gives: a free value of the section (R511, R535). -/
def microcodeVersion (x : FwSlot) : Nat := Config.firmwareLayout 0x511 [x.ucodeDigest] % 2 ^ 32

/-- IDENTIFY: part ID word, variant, stepping, twin number, appliance ID, firmware and microcode versions, running slot,
phase; and the event UUID (R3, R511, R664). -/
def State.jIdentify (s : State) (k : Nat) : State :=
  s.mbxOk k [(s.shows Reg.glbPartId).toNat, b2n s.variantN, (s.shows Reg.glbPartId).toNat / 2 ^ 8 % 2 ^ 4, b2n s.twin,
    s.reg64 Reg.twnApplLo % 2 ^ 32, s.reg64 Reg.twnApplLo / 2 ^ 32, s.runningSlot.version, microcodeVersion s.runningSlot,
    b2n s.fw.running, s.phase, eventUuid % 2 ^ 32, eventUuid / 2 ^ 32 % 2 ^ 32, eventUuid / 2 ^ 64 % 2 ^ 32, eventUuid / 2 ^ 96]

/-- REG_READ: up to 512 consecutive registers, each read as on its path (R62). -/
def State.jRegRead (s : State) (k off count : Nat) : State :=
  if count = 0 ∨ 512 < count ∨ 2 ^ 26 < off + 4 * count then s.mbxStatus k jrInvalid
  else if off % 4 ≠ 0 then (s.countBy Reg.glbBadAccess count).mbxOk k ((List.range count).map fun _ => 0)
  else
    let r := (List.range count).foldl (fun (a : State × List Nat) i =>
      let p := a.1.read4 (pathOf k) (off + 4 * i)
      (p.1, a.2 ++ [p.2.toNat])) (s, [])
    r.1.mbxOk k r.2

/-- REG_WRITE: up to 256 writes in order; those that R14 or R61 rejects are counted (R62). -/
def State.jRegWrite (s : State) (k : Nat) (pairs : List (Nat × Nat)) : State :=
  if pairs.isEmpty ∨ 256 < pairs.length then s.mbxStatus k jrInvalid
  else
    let r := pairs.foldl (fun (a : State × Nat) e =>
      if goodAccess e.1 4 then
        let p := a.1.write4 (pathOf k) e.1 (w32 (e.2 % 2 ^ 32))
        (p.1, a.2 + b2n p.2)
      else (a.1.count Reg.glbBadAccess, a.2)) (s, 0)
    r.1.mbxOk k [r.2]

/-- PROVISION: without REPLACE only while TWN_ID.VALID is 0; with it only from class M while the twin is HALTED or its
link in MISMATCH. The record is stored, and its values loaded (R440, R511, R583). -/
def State.jProvision (s : State) (k : Nat) (r : ApplRec) (replace : Bool) : State :=
  let mis : Bool := match s.twn.link with | .mismatch => true | _ => false
  if !replace && s.bit Reg.twnId 1 then s.mbxStatus k jrState
  else if replace && !(s.phase == 11 || mis) then s.mbxStatus k jrState
  else (((s.recordPut r).recordF 0x0205 0 (s.shows Reg.mbxEvent).toNat 0 { fw := true }).recordLoad).mbxStatus
    k jrSuccess

/-- RELAY: needs a PAIRED peer, whose mailbox runs one command at a time (R498, R511). -/
def State.jRelay (s : State) (k : Nat) : State :=
  if s.paired then s.jWait k 2 else s.mbxStatus k jrPeerAbsent

/-- PLANNED_HANDOFF of the listed regions, or of all where the list is empty, to the target twin (R455, R511). -/
def State.jHandoff (s : State) (k : Nat) (ids : List Nat) (toPeer : Bool) : State :=
  if !s.paired then s.mbxStatus k jrPeerAbsent
  else
    let l := if ids.isEmpty then s.regions.keys else ids
    if toPeer then
      ({ s with twn := { s.twn with handoffInst := some k, handed := 0 } }.startHandoff l).settle
    else
      let theirs := l.filter fun id => (s.regions.get? id).isSome && (s.region id).ensign == .peerOwns
      (s.modMb k fun m => { m with waits := theirs }).jBoth k [.handoff theirs s.twin true] false 5

/-! ### Regions (R41–R51, R423, R456) -/

/-- REGION_CREATE: granules from the pool, no map entry written, and an RKS for epoch 0 (R545); the descriptor is ONLINE once both twins hold it. The
Ensign is with PREF_OWNER while PAIRED (R41–R43, R454). -/
def State.jCreate (s : State) (k id gibs qos : Nat) (pref onAck : Bool) (dflt : Right) : State :=
  if 4096 ≤ id ∨ gibs = 0 ∨ 8 ≤ qos then s.mbxStatus k jrInvalid
  else if (s.regions.get? id).isSome then s.mbxStatus k jrState
  else match s.takeGranules gibs, s.freeBase gibs with
  | some gs, some b =>
    if !s.sec.entropyOk then s.mbxFail k jrFailed 0
    else
      let d := s.draw
      let s := d.1
      let r : Region := { state := .online, size := gibs, qos := qos, prefOwner := pref, onAck := onAck, dflt := dflt
                          owner := if s.paired then pref else s.twin, rgtBase := b }
      s.jBoth k ((gs.zipIdx.map fun e => Change.rgt (b + e.2) e.1)
        ++ [.key id 0 (Config.random d.2 % 2 ^ 256), .region id r]) true 5
  | _, _ => s.mbxStatus k jrNoSpace

/-- Whether a region's descriptor may be changed: neither FREE nor DELETING. -/
def State.regionLives (s : State) (id : Nat) : Bool :=
  match (s.region id).state with
  | .free => false
  | .deleting => false
  | _ => true

/-- A region's descriptor with more entries: at the end of its slice where they are free, or in a new slice to which the
existing entries are copied, with RGT_BASE switched in one update (R45). -/
def State.growTo (s : State) (id : Nat) (r : Region) (gibs : Nat) : Option (List Change) :=
  match s.takeGranules (gibs - r.size) with
  | none => none
  | some gs =>
    if s.sliceFree (r.rgtBase + r.size) (gibs - r.size) then
      some ((gs.zipIdx.map fun e => Change.rgt (r.rgtBase + r.size + e.2) e.1) ++ [.region id { r with size := gibs }])
    else match s.freeBase gibs with
    | none => none
    | some b =>
      some (((s.sliceOf r).map fun e => Change.rgt (b + (e.1 - r.rgtBase)) e.2)
        ++ (gs.zipIdx.map fun e => Change.rgt (b + r.size + e.2) e.1)
        ++ [.region id { r with size := gibs, rgtBase := b }] ++ (s.sliceOf r).map fun e => .rgtErase e.1)

/-- REGION_RESIZE (R45). -/
def State.jResize (s : State) (k id gibs : Nat) : State :=
  let r := s.region id
  if 4096 ≤ id ∨ gibs = 0 then s.mbxStatus k jrInvalid
  else if s.regionLives id = false then s.mbxStatus k jrState
  else if gibs < r.size then
    if s.coveredFrom id (gibs * gib) then s.mbxStatus k jrInUse
    else s.jBoth k [.region id { r with size := gibs }] true 5
  else if gibs = r.size then s.mbxStatus k jrSuccess
  else match s.growTo id r gibs with
    | some cs => s.jBoth k cs true 5
    | none => s.mbxStatus k jrNoSpace

/-- REGION_DELETE: DELETING at once; the rest follows when the accesses admitted before have completed (R44). -/
def State.jDelete (s : State) (k id : Nat) : State :=
  if 4096 ≤ id then s.mbxStatus k jrInvalid
  else if s.regionLives id = false then s.mbxStatus k jrState
  else (s.jBoth k [.region id { s.region id with state := .deleting }] false 5).jServeAll

/-- REGION_SET_POLICY: a default right and up to 64 host entries (R42, R47, R51). -/
def State.jPolicy (s : State) (k id : Nat) (dflt : Right) (entries : List (Nat × Right)) : State :=
  let p := entries.foldl (fun (m : Tbl Right) e => m.set e.1 e.2) []
  if 4096 ≤ id ∨ 64 < p.length ∨ (p.keys.any fun h => decide (0xFFFF ≤ h)) then s.mbxStatus k jrInvalid
  else if s.regionLives id = false then s.mbxStatus k jrState
  else s.jBoth k [.region id { s.region id with dflt := dflt, policy := p }] true 6

/-- REGION_SET_ATTR (R42, R456). -/
def State.jAttr (s : State) (k id qos : Nat) (pref onAck : Bool) : State :=
  if 4096 ≤ id ∨ 8 ≤ qos then s.mbxStatus k jrInvalid
  else if s.regionLives id = false then s.mbxStatus k jrState
  else s.mbxBoth k [.region id { s.region id with qos := qos, prefOwner := pref, onAck := onAck }] true { status := jrSuccess }

/-- REGION_FORCE_ONLINE: an operator names the authoritative twin of an OFFLINE region; it is recorded as forced. A twin
whose peer has answered on no path fences it first (R35, R36, R423). -/
def State.jForce (s : State) (k id : Nat) (auth : Bool) : State :=
  if 4096 ≤ id then s.mbxStatus k jrInvalid
  else if (s.region id).state != .offline || s.twn.fenceIn || s.phase == 11 then s.mbxStatus k jrState
  else if auth != s.twin && !s.paired then s.mbxStatus k jrPeerAbsent
  else
    let c := Change.force id auth
    let t := (s.recordF 0x0204 id (s.shows Reg.mbxEvent).toNat 0 { forced := true }).hostsFree
    let t := (t.both [c] false (some k)).1
    let t := if auth != t.twin then t
      else if t.paired || t.single then t.changeStart c
      else if t.twn.heardPeer then t else t.fencePeer true
    t.jWait k 5

/-- REGION_INFO: the descriptor, and this twin's state of the region (R42, R454). -/
def State.jInfo (s : State) (k id : Nat) : State :=
  let r := s.region id
  if 4096 ≤ id then s.mbxStatus k jrInvalid
  else s.mbxOk k ([regionCode r.state, r.size, r.qos, r.epoch, b2n r.owner, b2n r.prefOwner, b2n r.onAck, r.pseq % 2 ^ 32,
    r.pseq / 2 ^ 32, r.rgtBase,
    rightLevel r.dflt, r.policy.length] ++ r.policy.flatMap (fun e => [e.1, rightLevel e.2])
    ++ [match r.ensign with | .owner => 0 | .peerOwns => 1 | .handing => 2 | .taking => 3])

/-! ### LDs, extents, leases and keys (R84–R90, R97, R134–R137, R166, R167) -/

/-- LD_BIND (R83, R84). -/
def State.jBind (s : State) (k ld host : Nat) : State :=
  if 32 ≤ ld then s.mbxStatus k jrInvalid
  else if s.mayBind ld then (s.bindLd ld host).mbxStatus k jrSuccess else s.mbxStatus k jrState

/-- LD_UNBIND; unbinding an ACTIVE LD is refused (R84). -/
def State.jUnbind (s : State) (k ld : Nat) : State :=
  if 32 ≤ ld then s.mbxStatus k jrInvalid
  else if s.mayUnbind ld then (s.bothNow [.binding ld false]).mbxStatus k jrSuccess else s.mbxStatus k jrState

/-- SET_DURABILITY: leaving complete-then-mirror mode waits for the mirror points of the completed writes (R97). -/
def State.jDurability (s : State) (k ld : Nat) (ctm : Bool) : State :=
  if 32 ≤ ld then s.mbxStatus k jrInvalid
  else
    let p := s.setDur ld ctm
    (p.1.modMb k fun m => { m with waits := p.2, ending := { status := jrSuccess } }).jWait k 1

/-- EXTENT_ADD; its result follows at step 4 of R88. -/
def State.jExtentAdd (s : State) (k ld dc dpa len region rof : Nat) : State :=
  if 32 ≤ ld then s.mbxStatus k jrInvalid
  else if s.regionLives region = false then s.mbxStatus k jrState
  else if s.extentRoom ld = false then s.mbxStatus k jrNoSpace
  else if s.extentOk ld dc dpa len region rof then
    let p := s.extentPut ld dc dpa len region rof
    p.1.jwPut (jwExtent p.2) k
  else s.mbxStatus k jrInvalid

/-- EXTENT_RELEASE by tag (R89, R90). -/
def State.jExtentRelease (s : State) (k ld region rof gen : Nat) (force : Bool) : State :=
  if 32 ≤ ld then s.mbxStatus k jrInvalid
  else match s.extentTagged ld region rof gen with
  | none => s.mbxStatus k jrState
  | some (idx, e) => if s.askOk idx e force then s.extentAsk k idx e force else s.mbxStatus k jrState

/-- NOTIFY_VECTOR: vectors 2 to 63 (R85). -/
def State.jVector (s : State) (k ld vector source : Nat) : State :=
  if 32 ≤ ld ∨ vector < 2 ∨ 64 ≤ vector then s.mbxStatus k jrInvalid
  else (s.modLd ld fun l => { l with vectors := l.vectors.set vector source }).mbxStatus k jrSuccess

/-- Whether a lease's items are in range (R46, R134). -/
def leaseItemsOk (host maxQp maxMkey : Nat) : Bool :=
  decide (0x20 ≤ host) && decide (host ≤ 0xFFFE) && decide (1 ≤ maxQp) && decide (maxQp ≤ 4096)
    && decide (1 ≤ maxMkey) && decide (maxMkey ≤ 8192)

/-- The limits of a lease whose grant names none (R134). -/
def maxQpDefault : Nat := 256
def maxMkeyDefault : Nat := 1024

/-- LEASE_GRANT and LEASE_CHANGE: a grant needs a HOST_ID without a record, a change one that is not REVOKED (R134,
R135). -/
def State.jLease (s : State) (k : Nat) (grant : Bool) (host cred : Nat) (mgmt : Bool) (qp mkey : Option Nat) : State :=
  let maxQp := qp.getD maxQpDefault
  let maxMkey := mkey.getD maxMkeyDefault
  let ok : Bool := match s.leases.get? host with | none => grant | some l => !grant && l.state != .revoked
  if leaseItemsOk host maxQp maxMkey = false then s.mbxStatus k jrInvalid
  else if !ok then s.mbxStatus k jrState
  else s.mbxBoth k [.lease host { cred := cred, mgmt := mgmt, maxQp := maxQp, maxMkey := maxMkey }] false { status := jrSuccess }

/-- LEASE_REVOKE (R137). -/
def State.jRevoke (s : State) (k host : Nat) : State :=
  match s.leases.get? host with
  | some l => if l.state == .revoked then s.mbxStatus k jrState else (s.jBoth k [.leaseRevoke host] false 5).settle
  | none => s.mbxStatus k jrState

/-- MKEY_REGISTER_FOR a lease's HOST_ID; the R_Key is answered once both twins hold the entry (R166). -/
def State.jKeyRegister (s : State) (k host region verbs tag rof va len : Nat) : State :=
  if 16 ≤ verbs ∨ 256 ≤ tag then s.mbxStatus k jrInvalid
  else match s.leases.get? host with
  | none => s.mbxStatus k jrState
  | some l =>
    if l.state == .revoked then s.mbxStatus k jrState
    else match s.keyMake host region verbs tag rof va len with
    | .error e => if e = 3 then s.mbxStatus k jrInvalid else if e = 1 then s.jDeny k else s.mbxStatus k jrNoSpace
    | .ok (t, idx, x) => t.mbxBoth k [.mkey idx x] false { status := jrSuccess, body := [rkeyOf idx x.gen x.tag] }

/-- MKEY_INVALIDATE_FOR (R51, R167). -/
def State.jKeyInvalidate (s : State) (k rkey : Nat) : State :=
  match s.keyNamed rkey with
  | none => s.mbxStatus k jrState
  | some (idx, x) =>
    let t := s.modMb k fun m => { m with access := s.underKey x }
    t.mbxBoth k [.mkey idx { x with live := false }] false { status := jrSuccess }

/-! ### Queues (R197–R201, R212–R217, R472) -/

/-- The region and offset of a ring that may be created: 4 KiB aligned, a power of two of 16 to 65,536 entries, inside a
region that lives (R197). -/
def State.ringPlace (s : State) (addr log2 bytes : Nat) : Option (Nat × Nat) :=
  match apSplit addr with
  | none => none
  | some (region, off) =>
    if addr % 4096 = 0 ∧ 4 ≤ log2 ∧ log2 ≤ 16 ∧ s.regionLives region ∧ off + bytes ≤ (s.region region).size * gib
    then some (region, off) else none

/-- The in-flight limit of a queue whose creation names none (R201). -/
def sqLimitDefault : Nat := 32

/-- SQ_CREATE (R197, R201). -/
def State.jSqCreate (s : State) (k sq host addr log2 cq : Nat) (limit : Option Nat) (maint : Bool) : State :=
  let limit := limit.getD sqLimitDefault
  if 4096 ≤ sq ∨ 0x10000 ≤ host ∨ limit = 0 ∨ 64 < limit then s.mbxStatus k jrInvalid
  else match s.ringPlace addr log2 (256 + 64 * 2 ^ log2) with
  | none => s.mbxStatus k jrInvalid
  | some (region, off) =>
    if (s.sq? sq).isSome || (s.cq? cq).isNone then s.mbxStatus k jrState
    else
      let on := admits (s.region region).state
      let q : Sq := { host := host, region := region, base := off, log2 := log2, cq := cq, maint := maint, limit := limit
                      state := if on then .active else .stopped, halted := !on }
      s.mbxBoth k [.claim (objSq sq), .sq sq q] false { status := jrSuccess }

/-- SQ_DELETE: DELETING; FREE once its started commands have ended (R199). -/
def State.jSqDelete (s : State) (k sq : Nat) : State :=
  match s.sq? sq with
  | none => s.mbxStatus k jrState
  | some q =>
    if q.state == .deleting then s.mbxStatus k jrState
    else (s.jBoth k [.claim (objSq sq), .sq sq { q with state := .deleting, halted := false }] false 5).settle

/-- SQ_STOP, of a queue that runs, or that only its region's state has stopped (R199). -/
def State.jSqStop (s : State) (k sq : Nat) : State :=
  match s.sq? sq with
  | none => s.mbxStatus k jrState
  | some q =>
    if q.state == .active || q.halted then
      s.mbxBoth k [.claim (objSq sq), .sq sq { q with state := .stopped, halted := false }] false { status := jrSuccess }
    else s.mbxStatus k jrState

/-- SQ_RESUME; a queue whose region is neither ONLINE nor RESYNC runs when the region returns (R199). -/
def State.jSqResume (s : State) (k sq : Nat) : State :=
  match s.sq? sq with
  | none => s.mbxStatus k jrState
  | some q =>
    if q.state == .stopped then
      let on := admits (s.region q.region).state
      ((s.mbxBoth k [.claim (objSq sq), .sq sq { q with state := if on then .active else .stopped, halted := !on }] false
        { status := jrSuccess }).ringBell sq).settle
    else s.mbxStatus k jrState

/-- SQ_RESET: from ERROR, with PROD := FETCH (R199). -/
def State.jSqReset (s : State) (k sq : Nat) : State :=
  match s.sq? sq with
  | none => s.mbxStatus k jrState
  | some q =>
    if q.state == .error then
      let on := admits (s.region q.region).state
      s.mbxBoth k [.claim (objSq sq), .ctlWord q.region q.base q.fetch, .sq sq { q with state := if on then .active else .stopped, halted := !on }]
        false { status := jrSuccess }
    else s.mbxStatus k jrState

/-- Whether a ring's owner is an RDMA lease rather than a logical device (R46). -/
def leaseOwner (host : Nat) : Bool := decide (0x20 ≤ host) && host != 0xFFFF

/-- Whether a target of a ring is well formed: KIND 0 to 2, an LD for KIND 1, KEY 0 but for RDMA, HOST_ID 0 but for KIND 2,
and there the owner's where a lease owns the ring (R213). -/
def targetOk (owner : Nat) (t : Target) : Bool :=
  decide (t.kind ≤ 2) && (t.kind != 1 || decide (t.ld < 32)) && (t.kind == 2 || (t.key == 0 && t.host == 0))
    && (t.kind != 2 || !leaseOwner owner || t.host == owner)

/-- Whether a ring has a target, and every vector and window that it needs (R213, R216). -/
def ringOk (owner : Nat) (t0 t1 : Target) (vector window : Nat) : Bool :=
  targetOk owner t0 && targetOk owner t1 && (t0.kind != 0 || t1.kind != 0) && decide (window ≤ 1000)
    && ((t0.kind != 1 && t1.kind != 1) || (decide (2 ≤ vector) && decide (vector < 64)))

/-- The coalescing window of a ring whose creation names none, in µs (R216). -/
def cqWindowDefault : Nat := 10

/-- CQ_CREATE: CONS and NEXT_SEQ are 1 (R197, R212, R213). -/
def State.jCqCreate (s : State) (k cq host addr log2 : Nat) (t0 t1 : Target) (vector : Nat) (window : Option Nat) : State :=
  let window := window.getD cqWindowDefault
  if 4096 ≤ cq ∨ 0x10000 ≤ host ∨ ringOk host t0 t1 vector window = false then s.mbxStatus k jrInvalid
  else match s.ringPlace addr log2 256 with
  | none => s.mbxStatus k jrInvalid
  | some (region, off) =>
    if (s.cq? cq).isSome then s.mbxStatus k jrState
    else
      let q : Cq := { host := host, region := region, base := off, log2 := log2, t0 := t0, t1 := t1, vector := vector
                      window := window }
      s.mbxBoth k [.claim (objCq cq), .ctlWord region off 1, .cq cq q] false { status := jrSuccess }

/-- CQ_DELETE: not while a queue that is not FREE names it (R199). -/
def State.jCqDelete (s : State) (k cq : Nat) : State :=
  if (s.cq? cq).isNone || (s.sqs.vals.any fun q => q.cq == cq) then s.mbxStatus k jrState
  else s.mbxBoth k [.claim (objCq cq), .cqErase cq] false { status := jrSuccess }

/-- CQ_SET_TARGET: the twin whose target is set sends its records again from CONS (R213, R472). -/
def State.jCqTarget (s : State) (k cq : Nat) (twin : Bool) (t : Target) : State :=
  match s.cq? cq with
  | none => s.mbxStatus k jrState
  | some q =>
    let q' := if twin then { q with t1 := t } else { q with t0 := t }
    if ringOk q.host q'.t0 q'.t1 q'.vector q'.window then s.mbxBoth k [.claim (objCq cq), .cq cq q'] false { status := jrSuccess }
    else s.mbxStatus k jrInvalid

/-! ### Diagnostics and events (R344, R400, R581, R665) -/

/-- SCRUB_START: one pass at a time (R344). -/
def State.jScrub (s : State) (k first last mask rate : Nat) : State :=
  if mask = 0 ∨ 2 ^ 16 ≤ mask ∨ last < first ∨ s.dramBytes ≤ last then s.mbxStatus k jrInvalid
  else if s.bit Reg.dmcScrubCtl 31 then s.mbxStatus k jrState
  else
    let t := (s.setReg64 Reg.dmcScrubStartLo first).setReg64 Reg.dmcScrubEndLo last
    ((t.setFld Reg.dmcScrubCtl 15 0 mask).setFld Reg.dmcScrubCtl 22 16 (clampStep 1 64 1 rate)).scrubBegin.jwPut jwScrub k

/-- CAP_TEST: one test at a time (R400). -/
def State.jCapTest (s : State) (k : Nat) : State :=
  let busy : Bool := match s.elg.test with | .running => true | .waiting => true | _ => s.elg.probe.isSome
  if busy then s.mbxStatus k jrState else (s.jwPut jwCap k).capStart

/-- EVENT_QUEUE_SET: up to four queues on management QPs (R665). -/
def State.jEventQueue (s : State) (k slot qpn mask severity : Nat) : State :=
  if 4 ≤ slot ∨ 2 ^ 32 ≤ mask then s.mbxStatus k jrInvalid
  else if (match s.qp? qpn with | some q => q.service == 1 | none => false) then
    { s with evq := s.evq.set slot { qpn := qpn, mask := mask, severity := severity } }.mbxStatus k jrSuccess
  else s.mbxStatus k jrState

/-! ### Firmware (R513–R516) -/

/-- FW_INFO: slot states, versions, anti-rollback value (R511). -/
def State.jFwInfo (s : State) (k : Nat) : State :=
  s.mbxOk k [slotCode s.fw.a.state, s.fw.a.version, slotCode s.fw.b.state, s.fw.b.version, s.sec.arb, b2n s.fw.running]

/-- Whether another transfer runs, or a PLDM update (R514, R515). -/
def State.transferBusy (s : State) (b : Bool) : Bool :=
  s.fw.pldm != .idle || (match s.fw.transfer with | some x => x != b | none => false)

/-- Begins a transfer: the slot, never the ACTIVE one, is LOADING, and its 96 blocks are erased (R513, R514). -/
def State.loadBegin (s : State) (b : Bool) (total : Nat) : State :=
  let t := s.modSlot b fun _ => { state := .loading, factory := false, total := total }
  { t with fw := { t.fw with transfer := some b, loadBy := none } }.eraseAsk 3 (slotBlocks b)

/-- Adds bytes to the image being loaded: every word that is whole is programmed. -/
def State.loadPut (s : State) (b : Bool) (data : List Byte) : State :=
  let x := s.fwSlot b
  let image := x.image ++ data
  let first := x.image.length / 8
  let t := s.modSlot b fun x => { x with image := image }
  t.autoSuspend.eflPuts (slotBase b) ((List.range (image.length / 8 - first)).map fun i => (8 * (first + i), word64 image (first + i)))

/-- Programs the last word of an image that does not fill it; its other bytes stay erased. -/
def State.loadTail (s : State) (b : Bool) : State :=
  let x := s.fwSlot b
  let i := x.image.length / 8
  if x.image.length % 8 = 0 then s
  else s.autoSuspend.eflPut (slotBase b + 8 * i) (word64 (x.image ++ List.replicate 7 0xFF) i)

/-! ### The image header (R535) -/

/-- A field of an image header. -/
def hdrNum (l : List Byte) (off n : Nat) : Nat := ofLe (sliceBytes l off n)

/-- Whether a section lies after the header and within the image (R535). -/
def sectionOk (l : List Byte) (i : Nat) : Bool :=
  decide (12288 ≤ hdrNum l (32 + 8 * i) 4) && decide (hdrNum l (32 + 8 * i) 4 + hdrNum l (36 + 8 * i) 4 ≤ l.length)

/-- Whether an image has a header that R535 allows: MAGIC, HDR_VERSION, TOTAL_LEN and the sections. -/
def headerOk (l : List Byte) : Bool :=
  decide (12288 ≤ l.length) && hdrNum l 0 4 == 0x48574746 && hdrNum l 4 2 == 1 && hdrNum l 24 4 == l.length
    && sectionOk l 0 && sectionOk l 1 && sectionOk l 2

/-- What a slot declares when its image has been received (R535). -/
def headerRead (x : FwSlot) : FwSlot :=
  let l := x.image
  { x with
    mfg := hdrNum l 6 1 % 2 == 1, version := hdrNum l 8 4, svn := hdrNum l 12 1, loadBytes := hdrNum l 16 4
    startUs := hdrNum l 20 4, loaderDigest := hdrNum l 64 64, fwDigest := hdrNum l 128 64, ucodeDigest := hdrNum l 192 64 }

/-- Whether an image's firmware major fails R4: this twin is HALTED, and the major is not that of the peer it has heard
(R514, log 124). -/
def State.majorBad (s : State) (version : Nat) : Bool :=
  s.phase == 11 && (match s.twn.peerB with | some b => b.fwMajor != version / 2 ^ 24 % 256 | none => false)

/-- The status with which the end of a transfer is answered: the image's own verification, which `verifies` answers for its
keys, signatures and digests, with its whole length held, its header, its MFG bit against the lifecycle state and its major
against R4; then its version against the anti-rollback counter (R513, R514, R535, R536, R538). -/
def State.loadStatus (s : State) (b verifies : Bool) : Nat :=
  let x := headerRead (s.fwSlot b)
  if !verifies || x.image.length != x.total || !headerOk x.image || !s.mfgOk x.mfg || s.majorBad x.version then jrVerifyFail
  else if x.svn < s.sec.arb then jrRollback else jrSuccess

/-- Ends a transfer: the slot is VALID with what its header declares, or EMPTY (R513, R514). -/
def State.loadEnd (s : State) (b verifies : Bool) : State :=
  if s.loadStatus b verifies = jrSuccess then
    let t := (s.loadTail b).modSlot b fun x => { headerRead x with state := .valid }
    { t with fw := { t.fw with transfer := none } }
  else s.loadDrop b

/-- FW_TRANSFER INITIATE: a background command that ends when the slot's 96 blocks are erased (R514). A slot is loaded
from EMPTY, PREVIOUS or INVALID; VALID and PENDING images may be replaced too, since R514 shuts out only the ACTIVE slot. -/
def State.jLoadStart (s : State) (k : Nat) (b : Bool) (total : Nat) : State :=
  if 6 * 2 ^ 20 < total ∨ total = 0 then s.mbxStatus k jrInvalid
  else if (s.fwSlot b).state == .active then s.mbxStatus k jrInvalid
  else if s.transferBusy b || s.fw.transfer.isSome then s.mbxStatus k jrConflict
  else (s.loadBegin b total).modMb k fun m => { m with step := 4, ending := { status := jrSuccess, body := [0] } }

/-- FW_TRANSFER CONTINUE: data that does not start at the first byte not yet held is answered INVALID with DETAIL 1 and
the expected offset (R514). -/
def State.jLoadMore (s : State) (k : Nat) (b : Bool) (off : Nat) (data : List Byte) : State :=
  let x := s.fwSlot b
  if s.transferBusy b then s.mbxStatus k jrConflict
  else if x.state != .loading then s.mbxStatus k jrState
  else if off ≠ x.image.length then s.mbxEnd k { status := jrInvalid, detail := 1, body := [x.image.length] }
  else if 4064 < data.length ∨ x.total < x.image.length + data.length then s.mbxStatus k jrInvalid
  else (s.loadPut b data).mbxOk k [x.image.length + data.length]

/-- FW_TRANSFER END (R514). -/
def State.jLoadEnd (s : State) (k : Nat) (b verifies : Bool) : State :=
  let x := s.fwSlot b
  if s.transferBusy b then s.mbxStatus k jrConflict
  else if x.state != .loading then s.mbxStatus k jrState
  else (s.loadEnd b verifies).mbxEnd k
    { status := s.loadStatus b verifies, body := [x.image.length] }

/-- FW_TRANSFER ABORT: the slot becomes EMPTY (R513, R514). -/
def State.jLoadAbort (s : State) (k : Nat) (b : Bool) : State :=
  if s.transferBusy b then s.mbxStatus k jrConflict
  else if (s.fwSlot b).state != .loading then s.mbxStatus k jrState
  else (s.loadDrop b).mbxOk k [0]

/-- This twin's measured read rate of the configuration flash in bytes per second, about 200 MB/s: a free value (R516, R566). -/
def eflRate : Nat := 1 + Config.firmwareDefined 0x516

/-- Whether a slot's load and start time fits within 40 ms at the measured read rate (R516, R535). -/
def liveFits (x : FwSlot) : Bool := decide (x.startUs ≤ 40000) && decide (x.loadBytes * 10 ^ 6 ≤ (40000 - x.startUs) * eflRate)

/-- Whether the first four conditions of R516 hold. -/
def State.liveImage (s : State) (b : Bool) : Bool :=
  let x := s.fwSlot b
  x.state == .valid && x.version / 2 ^ 24 == s.runningSlot.version / 2 ^ 24 && x.ucodeDigest == s.runningSlot.ucodeDigest
    && liveFits x

/-- Whether the other conditions of R516 hold. -/
def State.liveNow (s : State) : Bool :=
  (s.phase == 7 || s.phase == 8) && (s.regions.vals.all fun r => r.state != .resync) && s.elg.sage.isNone
    && (match s.elg.state with | .fit => true | .deficit => true | _ => false)
    && !(s.paired && (match s.twn.peerB with | some b => b.phase == 12 | none => false))

/-- Halts CC0 to CC3 for a live activation: descriptor fetch is paused, phase 12 (R517). -/
def State.liveHalt (s : State) (b : Bool) (k : Option Nat) : State :=
  let t := s.setBit Reg.tqmCtl 0 false
  { t with fw := { t.fw with activating := some b, halted := true, actInst := k } }.setPhase 12

/-- FW_ACTIVATE with mode LIVE (R516, R517): its result is written by the new firmware. -/
def State.jLive (s : State) (k : Nat) (b : Bool) : State :=
  if !s.liveImage b then s.mbxStatus k jrNotLive
  else if !s.liveNow then s.mbxStatus k jrState
  else s.liveHalt b (some k)

/-- Makes a VALID image the one that boots at the next reset; one that was PENDING before is VALID again (R513). -/
def State.setPending (s : State) (b : Bool) : State :=
  let t := s.modSlot b fun x => { x with state := .pending }
  if (t.fwSlot !b).state == .pending then t.modSlot (!b) fun x => { x with state := .valid } else t

/-- FW_ACTIVATE with mode NEXT_RESET (R513, R516). -/
def State.jNextReset (s : State) (k : Nat) (b : Bool) : State :=
  match (s.fwSlot b).state with
  | .valid => (s.setPending b).mbxOk k [s.runningSlot.version]
  | .pending => s.mbxOk k [s.runningSlot.version]
  | _ => s.mbxStatus k jrState

/-! ### Every command -/

/-- Runs an accepted and permitted command (R511). -/
def State.jRun (s : State) (k : Nat) (c : JorridCmd) : State :=
  match c with
  | .identify => s.jIdentify k
  | .getStatus => s
  | .abort => s
  | .setTime ns => s.mbxBoth k [.time (ns % 2 ^ 64)] false { status := jrSuccess }
  | .resetWarm => ((s.mbxStatus k jrSuccess).leaveService).warmStart true
  | .plannedHandoff ids toPeer => s.jHandoff k ids toPeer
  | .setMode d => s.mbxBoth k [.mode d] false { status := jrSuccess }
  | .relay .. => s.jRelay k
  | .regRead off count => s.jRegRead k off count
  | .regWrite pairs => s.jRegWrite k pairs
  | .regionCreate r g q p a d => s.jCreate k r g q p a d
  | .regionResize r g => s.jResize k r g
  | .regionDelete r => s.jDelete k r
  | .regionSetPolicy r d es => s.jPolicy k r d es
  | .regionSetAttr r q p a => s.jAttr k r q p a
  | .regionForceOnline r a => s.jForce k r a
  | .regionInfo r => s.jInfo k r
  | .ldBind l h => s.jBind k l h
  | .ldUnbind l => s.jUnbind k l
  | .setDurability l on => s.jDurability k l on
  | .extentAdd l dc dpa len r rof => s.jExtentAdd k l dc dpa len r rof
  | .extentRelease l r rof gen f => s.jExtentRelease k l r rof gen f
  | .notifyVector l v src => s.jVector k l v src
  | .leaseGrant h cr m q n => s.jLease k true h cr m q n
  | .leaseChange h cr m q n => s.jLease k false h cr m (some q) (some n)
  | .leaseRevoke h => s.jRevoke k h
  | .mkeyRegisterFor h r v t rof va len => s.jKeyRegister k h r v t rof va len
  | .mkeyInvalidateFor rk => s.jKeyInvalidate k rk
  | .sqCreate q h a l cq lim m => s.jSqCreate k q h a l cq lim m
  | .sqDelete q => s.jSqDelete k q
  | .sqStop q => s.jSqStop k q
  | .sqResume q => s.jSqResume k q
  | .sqReset q => s.jSqReset k q
  | .cqCreate q h a l t0 t1 v w => s.jCqCreate k q h a l t0 t1 v w
  | .cqDelete q => s.jCqDelete k q
  | .cqSetTarget q tw t => s.jCqTarget k q tw t
  | .twinRelease => { s with twn := { s.twn with releaseInst := some k } }.releaseAsk
  | .twinTakeover => s.forceTakeover.mbxStatus k jrSuccess
  | .twinRetrain => s.retrainCmd.mbxStatus k jrSuccess
  | .scrubStart a b m r => s.jScrub k a b m r
  | .capTest => s.jCapTest k
  | .savePlanned => (s.mbxStatus k jrSuccess).saveTrigger .planned false
  | .eventRead cur n => if n = 0 ∨ 127 < n then s.mbxStatus k jrInvalid else s.mbxOk k (s.eventBody cur n)
  | .eventQueueSet i q m sv => s.jEventQueue k i q m sv
  | .fwInfo => s.jFwInfo k
  | .fwTransferInitiate b n => s.jLoadStart k b n
  | .fwTransferContinue b off d => s.jLoadMore k b off d
  | .fwTransferEnd b ok => s.jLoadEnd k b ok
  | .fwTransferAbort b => s.jLoadAbort k b
  | .fwActivateLive b => s.jLive k b
  | .fwActivateNextReset b => s.jNextReset k b
  | .provision tw id rails rep => s.jProvision k { twin := tw, id := id, rails := rails } rep
  | .other _ => s.mbxStatus k jrUnsupported

/-- Accepts a command: LAST_SEQ, BUSY, a background slot where it is marked L (R503, R506); then the rights, the opcode,
the phase and the objects decide, in this order, whether it is completed at once with an error or runs (R503, R508–R512). -/
def State.jAccept (s : State) (k : Nat) (h : JHdr) (c : JorridCmd) : State :=
  let held := s.objectsHeld
  let t := (s.modMb k fun m => { m with
    lastSeq := some (h.seq % 2 ^ 32), state := .busy, result := { status := jrBusy }, cmd := some c, tag := h.tag, ctag := m.mtag
    slot := takesSlot c, background := false, held := none, waits := [], step := 0, ending := {} }).count Reg.mbxCount
  if !t.permits k c then t.jDeny k
  else if unknownOp c then t.mbxStatus k jrUnsupported
  else if notReady t.phase c then t.mbxStatus k jrNotReady
  else if (objectsOf c).any fun o => held.contains o then t.mbxStatus k jrConflict
  else (t.modMb k fun m => { m with objects := objectsOf c }).jRun k c

/-- The sequence rules of R503 for a command other than a query. -/
def State.jTake (s : State) (k : Nat) (h : JHdr) (c : JorridCmd) : State :=
  let m := s.mb k
  match m.state with
  | .busy => s.jBusy k (m.lastSeq.getD 0)
  | _ =>
    match m.lastSeq with
    | some l =>
      if h.seq % 2 ^ 32 = (l + 1) % 2 ^ 32 then
        (if takesSlot c && decide (s.fld Reg.mbxCfg 13 8 ≤ s.slotsBusy) then s.jRefuse k h c jrRetry else s.jAccept k h c)
      else if h.seq % 2 ^ 32 = l then s.mbxSay k l m.tag m.result
      else s.jSeqError k h c
    | none => if takesSlot c && decide (s.fld Reg.mbxCfg 13 8 ≤ s.slotsBusy) then s.jRefuse k h c jrRetry else s.jAccept k h c

/-- Commands that CC0 answers in Quiet (R617). -/
def quietMay : JorridCmd → Bool
  | .identify | .eventRead .. | .regRead .. => true
  | _ => false

/-- Whether firmware takes commands now (R509, R517, R525). -/
def State.jTakes (s : State) : Bool := decide (2 ≤ s.phase) && s.phase != 12 && !s.fw.halted && s.bit Reg.mbxCtl 4

/-- Whether the chip is awake. -/
def State.isAwake (s : State) : Bool := match s.isl.quiet with
  | .awake => true
  | _ => false

/-- A command reaches an instance: answered INVALID, queried, held while firmware takes none or the chip wakes, or taken
(R498, R501, R503, R504, R517, R617). A second command while one is held is answered BUSY. -/
def State.jorrid (s : State) (k : Nat) (h : JHdr) (c : JorridCmd) : State :=
  if s.instUp k = false then s
  else if s.noInstance k then s.jRefuse k h c jrRetry
  else
    let s := s.modMb k id
    if h.wellFormed = false then s.jRefuse k h c jrInvalid
    else match c with
    | .getStatus => s.jQuery k h c
    | .abort => s.jQuery k h c
    | _ =>
      let m := s.mb k
      match m.state, m.held with
      | .busy, _ => s.jBusy k (m.lastSeq.getD 0)
      | _, some x => s.jBusy k x.1.seq
      | _, none =>
        if s.jTakes = false then (s.modMb k fun x => { x with held := some (h, c), htag := x.mtag }).count (Reg.mbxCount + 0x10)
        else if s.isAwake || quietMay c then s.jTake k h c
        else (s.modMb k fun x => { x with held := some (h, c), htag := x.mtag }).wakeFor .mailbox

/-- Takes up the command that an instance holds, once firmware takes commands and the chip is awake (R517, R617). -/
def State.jHeld (s : State) (k : Nat) : State :=
  match (s.mb k).held with
  | some (h, c) =>
    if s.jTakes && s.isAwake && s.instUp k then (s.modMb k fun x => { x with held := none, mtag := x.htag }).jTake k h c else s
  | none => s

/-- Takes up every held command. -/
def State.jHeldAll (s : State) : State := s.mbx.keys.foldl State.jHeld s

end Sys2Proof.Machine
end

