-- ==== Sys2Proof/Machine/JorridExec.lean ====
section
/-! DEFINITION. The Jorrid commands as they reach a mailbox instance, the completion of commands, live activation, and
PLDM for firmware update (R498–R518). -/

namespace Sys2Proof.Machine

/-! ### Jorrid commands -/

/-- IDENTIFY (R503, R511). -/
def execIdentify (i : MbxInst) (h : JHdr) (s : State) : Out := .next (s.jorrid (mbxKey i) h .identify)

/-- GET_STATUS (R503, R511). -/
def execGetStatus (i : MbxInst) (h : JHdr) (s : State) : Out := .next (s.jorrid (mbxKey i) h .getStatus)

/-- ABORT (R503, R511). -/
def execAbort (i : MbxInst) (h : JHdr) (s : State) : Out := .next (s.jorrid (mbxKey i) h .abort)

/-- SET_TIME (R503, R511). -/
def execSetTime (i : MbxInst) (h : JHdr) (ns : Nat) (s : State) : Out := .next (s.jorrid (mbxKey i) h (.setTime ns))

/-- RESET_WARM (R503, R511). -/
def execResetWarm (i : MbxInst) (h : JHdr) (s : State) : Out := .next (s.jorrid (mbxKey i) h .resetWarm)

/-- PLANNED_HANDOFF (R503, R511). -/
def execPlannedHandoff (i : MbxInst) (h : JHdr) (regions : List Nat) (toPeer : Bool) (s : State) : Out :=
  .next (s.jorrid (mbxKey i) h (.plannedHandoff regions toPeer))

/-- SET_MODE (R503, R511). -/
def execSetMode (i : MbxInst) (h : JHdr) (dormant : Bool) (s : State) : Out :=
  .next (s.jorrid (mbxKey i) h (.setMode dormant))

/-- RELAY (R503, R511). -/
def execRelay (i : MbxInst) (h : JHdr) (hc : JHdr) (c : JorridCmd) (s : State) : Out :=
  .next (s.jorrid (mbxKey i) h (.relay hc c))

/-- REG_READ (R503, R511). -/
def execRegRead (i : MbxInst) (h : JHdr) (off count : Nat) (s : State) : Out :=
  .next (s.jorrid (mbxKey i) h (.regRead off count))

/-- REG_WRITE (R503, R511). -/
def execRegWrite (i : MbxInst) (h : JHdr) (pairs : List (Nat × Nat)) (s : State) : Out :=
  .next (s.jorrid (mbxKey i) h (.regWrite pairs))

/-- REGION_CREATE (R503, R511). -/
def execRegionCreate (i : MbxInst) (h : JHdr) (region gib qos : Nat) (pref onAck : Bool) (dflt : Right) (s : State) : Out :=
  .next (s.jorrid (mbxKey i) h (.regionCreate region gib qos pref onAck dflt))

/-- REGION_RESIZE (R503, R511). -/
def execRegionResize (i : MbxInst) (h : JHdr) (region gib : Nat) (s : State) : Out :=
  .next (s.jorrid (mbxKey i) h (.regionResize region gib))

/-- REGION_DELETE (R503, R511). -/
def execRegionDelete (i : MbxInst) (h : JHdr) (region : Nat) (s : State) : Out :=
  .next (s.jorrid (mbxKey i) h (.regionDelete region))

/-- REGION_SET_POLICY (R503, R511). -/
def execRegionSetPolicy (i : MbxInst) (h : JHdr) (region : Nat) (dflt : Right) (entries : List (Nat × Right)) (s : State) : Out :=
  .next (s.jorrid (mbxKey i) h (.regionSetPolicy region dflt entries))

/-- REGION_SET_ATTR (R503, R511). -/
def execRegionSetAttr (i : MbxInst) (h : JHdr) (region qos : Nat) (pref onAck : Bool) (s : State) : Out :=
  .next (s.jorrid (mbxKey i) h (.regionSetAttr region qos pref onAck))

/-- REGION_FORCE_ONLINE (R503, R511). -/
def execRegionForceOnline (i : MbxInst) (h : JHdr) (region : Nat) (auth : Bool) (s : State) : Out :=
  .next (s.jorrid (mbxKey i) h (.regionForceOnline region auth))

/-- REGION_INFO (R503, R511). -/
def execRegionInfo (i : MbxInst) (h : JHdr) (region : Nat) (s : State) : Out :=
  .next (s.jorrid (mbxKey i) h (.regionInfo region))

/-- LD_BIND (R503, R511). -/
def execLdBind (i : MbxInst) (h : JHdr) (ld host : Nat) (s : State) : Out :=
  .next (s.jorrid (mbxKey i) h (.ldBind ld host))

/-- LD_UNBIND (R503, R511). -/
def execLdUnbind (i : MbxInst) (h : JHdr) (ld : Nat) (s : State) : Out := .next (s.jorrid (mbxKey i) h (.ldUnbind ld))

/-- SET_DURABILITY (R503, R511). -/
def execSetDurability (i : MbxInst) (h : JHdr) (ld : Nat) (ctm : Bool) (s : State) : Out :=
  .next (s.jorrid (mbxKey i) h (.setDurability ld ctm))

/-- EXTENT_ADD (R503, R511). -/
def execExtentAdd (i : MbxInst) (h : JHdr) (ld dcRegion dpa len region rof : Nat) (s : State) : Out :=
  .next (s.jorrid (mbxKey i) h (.extentAdd ld dcRegion dpa len region rof))

/-- EXTENT_RELEASE (R503, R511). -/
def execExtentRelease (i : MbxInst) (h : JHdr) (ld region rof gen : Nat) (force : Bool) (s : State) : Out :=
  .next (s.jorrid (mbxKey i) h (.extentRelease ld region rof gen force))

/-- NOTIFY_VECTOR (R503, R511). -/
def execNotifyVector (i : MbxInst) (h : JHdr) (ld vector source : Nat) (s : State) : Out :=
  .next (s.jorrid (mbxKey i) h (.notifyVector ld vector source))

/-- LEASE_GRANT (R503, R511). -/
def execLeaseGrant (i : MbxInst) (h : JHdr) (host cred : Nat) (mgmt : Bool) (maxQp maxMkey : Option Nat) (s : State) : Out :=
  .next (s.jorrid (mbxKey i) h (.leaseGrant host cred mgmt maxQp maxMkey))

/-- LEASE_CHANGE (R503, R511). -/
def execLeaseChange (i : MbxInst) (h : JHdr) (host cred : Nat) (mgmt : Bool) (maxQp maxMkey : Nat) (s : State) : Out :=
  .next (s.jorrid (mbxKey i) h (.leaseChange host cred mgmt maxQp maxMkey))

/-- LEASE_REVOKE (R503, R511). -/
def execLeaseRevoke (i : MbxInst) (h : JHdr) (host : Nat) (s : State) : Out :=
  .next (s.jorrid (mbxKey i) h (.leaseRevoke host))

/-- MKEY_REGISTER_FOR (R503, R511). -/
def execMkeyRegisterFor (i : MbxInst) (h : JHdr) (host region verbs tag rof va len : Nat) (s : State) : Out :=
  .next (s.jorrid (mbxKey i) h (.mkeyRegisterFor host region verbs tag rof va len))

/-- MKEY_INVALIDATE_FOR (R503, R511). -/
def execMkeyInvalidateFor (i : MbxInst) (h : JHdr) (rkey : Nat) (s : State) : Out :=
  .next (s.jorrid (mbxKey i) h (.mkeyInvalidateFor rkey))

/-- SQ_CREATE (R503, R511). -/
def execSqCreate (i : MbxInst) (h : JHdr) (sq host addr log2 cq : Nat) (limit : Option Nat) (maint : Bool) (s : State) : Out :=
  .next (s.jorrid (mbxKey i) h (.sqCreate sq host addr log2 cq limit maint))

/-- SQ_DELETE (R503, R511). -/
def execSqDelete (i : MbxInst) (h : JHdr) (sq : Nat) (s : State) : Out := .next (s.jorrid (mbxKey i) h (.sqDelete sq))

/-- SQ_STOP (R503, R511). -/
def execSqStop (i : MbxInst) (h : JHdr) (sq : Nat) (s : State) : Out := .next (s.jorrid (mbxKey i) h (.sqStop sq))

/-- SQ_RESUME (R503, R511). -/
def execSqResume (i : MbxInst) (h : JHdr) (sq : Nat) (s : State) : Out := .next (s.jorrid (mbxKey i) h (.sqResume sq))

/-- SQ_RESET (R503, R511). -/
def execSqReset (i : MbxInst) (h : JHdr) (sq : Nat) (s : State) : Out := .next (s.jorrid (mbxKey i) h (.sqReset sq))

/-- CQ_CREATE (R503, R511). -/
def execCqCreate (i : MbxInst) (h : JHdr) (cq host addr log2 : Nat) (t0 t1 : Target) (vector : Nat) (window : Option Nat) (s : State) : Out :=
  .next (s.jorrid (mbxKey i) h (.cqCreate cq host addr log2 t0 t1 vector window))

/-- CQ_DELETE (R503, R511). -/
def execCqDelete (i : MbxInst) (h : JHdr) (cq : Nat) (s : State) : Out := .next (s.jorrid (mbxKey i) h (.cqDelete cq))

/-- CQ_SET_TARGET (R503, R511). -/
def execCqSetTarget (i : MbxInst) (h : JHdr) (cq : Nat) (twin : Bool) (t : Target) (s : State) : Out :=
  .next (s.jorrid (mbxKey i) h (.cqSetTarget cq twin t))

/-- TWIN_RELEASE (R503, R511). -/
def execTwinRelease (i : MbxInst) (h : JHdr) (s : State) : Out := .next (s.jorrid (mbxKey i) h .twinRelease)

/-- TWIN_TAKEOVER (R503, R511). -/
def execTwinTakeover (i : MbxInst) (h : JHdr) (s : State) : Out := .next (s.jorrid (mbxKey i) h .twinTakeover)

/-- TWIN_RETRAIN (R503, R511). -/
def execTwinRetrain (i : MbxInst) (h : JHdr) (s : State) : Out := .next (s.jorrid (mbxKey i) h .twinRetrain)

/-- SCRUB_START (R503, R511). -/
def execScrubStart (i : MbxInst) (h : JHdr) (first last mask rate : Nat) (s : State) : Out :=
  .next (s.jorrid (mbxKey i) h (.scrubStart first last mask rate))

/-- CAP_TEST (R503, R511). -/
def execCapTest (i : MbxInst) (h : JHdr) (s : State) : Out := .next (s.jorrid (mbxKey i) h .capTest)

/-- SAVE_PLANNED (R503, R511). -/
def execSavePlanned (i : MbxInst) (h : JHdr) (s : State) : Out := .next (s.jorrid (mbxKey i) h .savePlanned)

/-- EVENT_READ (R503, R511). -/
def execEventRead (i : MbxInst) (h : JHdr) (cursor count : Nat) (s : State) : Out :=
  .next (s.jorrid (mbxKey i) h (.eventRead cursor count))

/-- EVENT_QUEUE_SET (R503, R511). -/
def execEventQueueSet (i : MbxInst) (h : JHdr) (slot qpn mask severity : Nat) (s : State) : Out :=
  .next (s.jorrid (mbxKey i) h (.eventQueueSet slot qpn mask severity))

/-- FW_INFO (R503, R511). -/
def execFwInfo (i : MbxInst) (h : JHdr) (s : State) : Out := .next (s.jorrid (mbxKey i) h .fwInfo)

/-- FW_TRANSFER_INITIATE (R503, R511). -/
def execFwTransferInitiate (i : MbxInst) (h : JHdr) (slotB : Bool) (total : Nat) (s : State) : Out :=
  .next (s.jorrid (mbxKey i) h (.fwTransferInitiate slotB total))

/-- FW_TRANSFER_CONTINUE (R503, R511). -/
def execFwTransferContinue (i : MbxInst) (h : JHdr) (slotB : Bool) (offset : Nat) (data : List Byte) (s : State) : Out :=
  .next (s.jorrid (mbxKey i) h (.fwTransferContinue slotB offset data))

/-- FW_TRANSFER_END (R503, R511). -/
def execFwTransferEnd (i : MbxInst) (h : JHdr) (slotB verifies : Bool) (s : State) : Out :=
  .next (s.jorrid (mbxKey i) h (.fwTransferEnd slotB verifies))

/-- FW_TRANSFER_ABORT (R503, R511). -/
def execFwTransferAbort (i : MbxInst) (h : JHdr) (slotB : Bool) (s : State) : Out :=
  .next (s.jorrid (mbxKey i) h (.fwTransferAbort slotB))

/-- FW_ACTIVATE_LIVE (R503, R511). -/
def execFwActivateLive (i : MbxInst) (h : JHdr) (slotB : Bool) (s : State) : Out :=
  .next (s.jorrid (mbxKey i) h (.fwActivateLive slotB))

/-- FW_ACTIVATE_NEXT_RESET (R503, R511). -/
def execFwActivateNextReset (i : MbxInst) (h : JHdr) (slotB : Bool) (s : State) : Out :=
  .next (s.jorrid (mbxKey i) h (.fwActivateNextReset slotB))

/-- PROVISION (R503, R511). -/
def execProvision (i : MbxInst) (h : JHdr) (twin : Bool) (applianceId : Nat) (rails : List (Nat × Nat)) (replace : Bool) (s : State) : Out :=
  .next (s.jorrid (mbxKey i) h (.provision twin applianceId rails replace))

/-- JORRID_ACCEPT: any command reaches an instance (R503). -/
def execJorridAccept (i : MbxInst) (h : JHdr) (c : JorridCmd) (s : State) : Out := .next (s.jorrid (mbxKey i) h c)

/-! ### Completion (R498, R505) -/

/-- FOREGROUND_LIMIT_EXPIRY: a command still in progress continues in the background, and its host is told BUSY with the
PROGRESS that firmware reports, a free value below 100 (R501, R505). -/
def execForegroundLimitExpiry (i : MbxInst) (s : State) : Out :=
  .next (
    let k := mbxKey i
    let m := s.mb k
    if m.state == .busy && !m.background then
      let d := s.draw
      let pct := max m.result.progress (Config.choice d.2 % 100)
      (d.1.modMb k fun x => { x with
        background := true, mtag := x.ctag, result := { x.result with progress := pct } }).mbxSay k (m.lastSeq.getD 0) m.tag
        { opcode := (m.cmd.map opcodeOf).getD 0, status := jrBusy, progress := pct }
    else s)

/-- JORRID_COMMAND_COMPLETE: a command in progress ends, if what it waits for is done; everything shows in the state, as the
erase of a slot does (R505, R514). -/
def execJorridCommandComplete (i : MbxInst) (s : State) : Out :=
  .next (
    let k := mbxKey i
    let m := s.mb k
    if m.state == .busy && m.step == 4 then
      (match m.cmd with
        | some (.fwTransferInitiate b _) => if s.slotErasing b then s else s.mbxEnd k m.ending
        | _ => s.mbxEnd k m.ending)
    else (s.reclaim.jServe k).settle)

/-- MCTP_ENDPOINT_IDLE: the instance of an endpoint that has sent nothing for 60 s is freed (R498). -/
def execMctpEndpointIdle (eid : Nat) (s : State) : Out := .next (s.mbxReset (2 ^ 33 + eid))

/-! ### Live activation (R517, R518, R537) -/

/-- The new firmware has signalled ready: its slot is ACTIVE and runs, fetch is enabled again, what was held is served,
and FW_ACTIVATE ends with the running version (R517, R537). -/
def State.liveReady (s : State) (b : Bool) (haltUs : Nat) : State :=
  let k := s.fw.actInst
  let t := s.slotActive b
  let t := { t with fw := { t.fw with running := b, activating := none, halted := false, actInst := none, pldm := .idle } }
  let t := (t.setFld Reg.mbxActHalt 15 0 haltUs).flagRecord Reg.mbxEvent 2 0x0202 0 0
  let t := ((t.setBit Reg.tqmCtl 0 true).setPhase 7).notePhase
  let l := t.rdx.heldCm
  let t := l.foldl State.cmServe { t with rdx := { t.rdx with heldCm := [] } }
  let t := match k with
    | some x => t.mbxOk x [t.runningSlot.version]
    | none => t
  t.jHeldAll.settle

/-- LIVE_ACTIVATION_READY, within 50 ms of the halt (R517, R518). -/
def execLiveActivationReady (haltUs : Nat) (s : State) : Out :=
  .next (match s.fw.activating with
    | some b => if haltUs ≤ 50000 then s.liveReady b haltUs else s
    | none => s)

/-- ACTIVATION_TIMEOUT: the loader abandons the activation: ACT_FAIL, the slot PENDING, and a warm reset (R518). -/
def execActivationTimeout (s : State) : Out :=
  .next (match s.fw.activating with
    | some b =>
      let t := s.modSlot b fun x => { x with state := .pending }
      let t := { t with fw := { t.fw with activating := none, actInst := none } }.flagRecord Reg.mbxEvent 3 0x0203 0 0
      t.warmStart true
    | none => s)

/-! ### PLDM for firmware update (R515; command and completion codes PRESUMED from DSP0267, log 30) -/

/-- Sends a PLDM message of type 5 to an endpoint. -/
def State.pldmSend (s : State) (eid cmd code : Nat) (body : List Nat) : State :=
  (s.emit (.pldm eid cmd code body)).mctpSend eid 0 1
    (leBytes 1 0 ++ leBytes 1 5 ++ leBytes 1 cmd ++ leBytes 1 code ++ body.flatMap (leBytes 4))

/-- Whether firmware takes PLDM messages: over MGT, outside a save, while it runs (R416, R515). -/
def State.pldmUp (s : State) (eid : Nat) : Bool := s.instUp (2 ^ 33 + eid) && s.jTakes && s.phase != 9

/-- A PLDM command of an update in one of some states; any other state answers a code. -/
def State.pldmIn (s : State) (eid cmd : Nat) (ok : PldmState → Bool) (f : State → State) : State :=
  if s.pldmUp eid = false then s
  else if ok s.fw.pldm then f s
  else s.pldmSend eid cmd (if s.fw.pldm == .idle then 0x80 else 0x84) []

/-- Sets the state of the update. -/
def State.pldmTo (s : State) (p : PldmState) : State := { s with fw := { s.fw with pldm := p } }

/-- QUERY_DEVICE_IDENTIFIERS: the descriptors are firmware-defined. -/
def execQueryDeviceIdentifiers (eid : Nat) (s : State) : Out :=
  .next (if s.pldmUp eid then s.pldmSend eid 0x01 0 [Config.firmwareDefined 0x515] else s)

/-- GET_FIRMWARE_PARAMETERS: the running version, and the version that waits for a reset, 0 with none. -/
def execGetFirmwareParameters (eid : Nat) (s : State) : Out :=
  .next (if s.pldmUp eid then
      s.pldmSend eid 0x02 0 [s.runningSlot.version,
        if s.fw.a.state == .pending then s.fw.a.version else if s.fw.b.state == .pending then s.fw.b.version else 0]
    else s)

/-- The number of a state of the update. -/
def pldmCode : PldmState → Nat
  | .idle => 0
  | .learn => 1
  | .ready => 2
  | .download => 3
  | .verify => 4
  | .apply => 5
  | .activate => 6

/-- PLDM_GET_STATUS. -/
def execPldmGetStatus (eid : Nat) (s : State) : Out :=
  .next (if s.pldmUp eid then s.pldmSend eid 0x1B 0 [pldmCode s.fw.pldm] else s)

/-- REQUEST_UPDATE: an update begins unless one runs (0x81), a Jorrid transfer runs, the phase forbids a transfer, or the
endpoint takes less than 1,024 bytes per request (0x8A). -/
def execRequestUpdate (eid maxTransfer : Nat) (s : State) : Out :=
  .next (
    if s.pldmUp eid = false then s
    else if s.fw.pldm != .idle then s.pldmSend eid 0x10 0x81 []
    else if s.fw.transfer.isSome || notReady s.phase (.fwTransferAbort false) || decide (maxTransfer < 1024) then
      s.pldmSend eid 0x10 0x8A []
    else (s.pldmTo .learn).pldmSend eid 0x10 0 [])

/-- PASS_COMPONENT_TABLE. -/
def execPassComponentTable (eid version : Nat) (s : State) : Out :=
  .next (s.pldmIn eid 0x13 (fun p => p == .learn) fun t => (t.pldmTo .ready).pldmSend eid 0x13 0 [version])

/-- The HG960 asks for the next bytes of the image, at most 1,024 (R515). -/
def State.pldmAsk (s : State) (eid : Nat) : State :=
  let x := s.fwSlot s.fw.pldmSlot
  s.pldmSend eid 0x15 0 [x.image.length, min 1024 (x.total - x.image.length)]

/-- A transfer that began over CXL or PLDM and waits for the erase of its slot goes on once that has ended: the background
command ends with its MSI-X, or the first bytes are asked for (R107, R514, R515). -/
def State.loadPoll (s : State) : State :=
  match s.fw.loadBy, s.fw.transfer with
  | some (cxl, id), some b =>
    if s.slotErasing b then s
    else
      let t := { s with fw := { s.fw with loadBy := none } }
      if cxl then t.emit (.msix id 0) else t.pldmAsk id
  | _, _ => s

/-- EFL_ERASE_DONE: the erases whose time is over have ended; the next ones begin, and what waited for them goes on
(R514, R574, R605). -/
def execEflEraseDone (s : State) : Out := .next s.eraseDone.loadPoll.downCheck

/-- AON_BROWNOUT_CLEAR: internal requesters reissue their ended operations, and a power-down that waits for the rail fault log
goes on (R574, R605). -/
def execAonBrownoutClear (s : State) : Out := .next s.brownoutEnd.downCheck

/-- UPDATE_COMPONENT: FW_TRANSFER INITIATE on the slot, and the first request for data (R514, R515). -/
def execUpdateComponent (eid : Nat) (slotB : Bool) (total : Nat) (s : State) : Out :=
  .next (s.pldmIn eid 0x14 (fun p => p == .ready) fun t =>
    if total = 0 ∨ 6 * 2 ^ 20 < total ∨ (t.fwSlot slotB).state = .active then t.pldmSend eid 0x14 0x82 []
    else
      let u := (t.loadBegin slotB total).pldmTo .download
      ({ u with fw := { u.fw with pldmSlot := slotB, loadBy := some (false, eid) } }.pldmSend eid 0x14 0 []).loadPoll)

/-- CANCEL_UPDATE_COMPONENT: FW_TRANSFER ABORT; the slot becomes EMPTY (R514, R515). -/
def execCancelUpdateComponent (eid : Nat) (s : State) : Out :=
  .next (s.pldmIn eid 0x1C (fun p => p == .download || p == .verify || p == .apply) fun t =>
    ((t.loadDrop t.fw.pldmSlot).pldmTo .ready).pldmSend eid 0x1C 0 [])

/-- CANCEL_UPDATE: the update ends; a component under way is aborted (R515). -/
def execCancelUpdate (eid : Nat) (s : State) : Out :=
  .next (s.pldmIn eid 0x1D (fun p => p != .idle && p != .activate) fun t =>
    let u := if t.fw.transfer.isSome then t.loadDrop t.fw.pldmSlot else t
    (u.pldmTo .idle).pldmSend eid 0x1D 0 [])

/-- REQUEST_FIRMWARE_DATA is answered: the bytes asked for are added as by CONTINUE, and the next ones are asked for; an
answer of another length is asked for again (R515). -/
def execRequestFirmwareData (eid : Nat) (data : List Byte) (s : State) : Out :=
  .next (
    if s.pldmUp eid && s.fw.pldm == .download && !s.slotErasing s.fw.pldmSlot then
      let x := s.fwSlot s.fw.pldmSlot
      if data.length ≠ min 1024 (x.total - x.image.length) ∨ data.isEmpty then s.pldmAsk eid
      else
        let t := s.loadPut s.fw.pldmSlot data
        if x.image.length + data.length < x.total then t.pldmAsk eid else t
    else s)

/-- TRANSFER_COMPLETE: the HG960 reports that it holds the whole image (R515). -/
def execTransferComplete (eid : Nat) (s : State) : Out :=
  .next (
    let x := s.fwSlot s.fw.pldmSlot
    if s.pldmUp eid && s.fw.pldm == .download && x.image.length == x.total then (s.pldmTo .verify).pldmSend eid 0x16 0 [0] else s)

/-- VERIFY_COMPLETE: the image is verified as by END, and the result reported; one that fails leaves the slot EMPTY
(R513–R515). -/
def execVerifyComplete (eid : Nat) (verifies : Bool) (s : State) : Out :=
  .next (
    if s.pldmUp eid && s.fw.pldm == .verify then
      let b := s.fw.pldmSlot
      if s.loadStatus b verifies = jrSuccess then
        let t := (s.loadTail b).modSlot b headerRead
        (t.pldmTo .apply).pldmSend eid 0x17 0 [0]
      else ((s.loadDrop b).pldmTo .ready).pldmSend eid 0x17 0 [1]
    else s)

/-- APPLY_COMPLETE: the slot becomes VALID (R513, R515). -/
def execApplyComplete (eid : Nat) (s : State) : Out :=
  .next (
    if s.pldmUp eid && s.fw.pldm == .apply then
      let t := s.modSlot s.fw.pldmSlot fun x => { x with state := .valid }
      ({ t with fw := { t.fw with transfer := none, pldm := .ready } }).pldmSend eid 0x18 0 [0]
    else s)

/-- ACTIVATE_FIRMWARE: SelfContainedActivationRequest set is FW_ACTIVATE LIVE, clear is NEXT_RESET (R515, R516). -/
def execActivateFirmware (eid : Nat) (selfContained : Bool) (s : State) : Out :=
  .next (s.pldmIn eid 0x1A (fun p => p == .ready) fun t =>
    let b := t.fw.pldmSlot
    if (t.fwSlot b).state != .valid then t.pldmSend eid 0x1A 0x85 []
    else if selfContained then
      if t.liveImage b && t.liveNow then ((t.pldmTo .activate).pldmSend eid 0x1A 0 [0]).liveHalt b none
      else t.pldmSend eid 0x1A 0x8C []
    else ((t.setPending b).pldmTo .idle).pldmSend eid 0x1A 0 [0])

end Sys2Proof.Machine
end

