-- ==== Sys2Proof/Machine/Mgt.lean ====
section
/-! DEFINITION. The MGT bus: packets received by block write and sent by block read, the alert, bus errors, and MCTP
control (R630–R637, R644); and what a tick of the clock brings to the block. -/

namespace Sys2Proof.Machine

/-- The HG960's 7-bit address on MGT (R631). -/
def State.mgtAddr (s : State) : Nat := 0x4C + s.twb.strap % 4

/-! ### MCTP control, answered in TWB hardware (R630, R631; encodings PRESUMED from DSP0236, log 30) -/

/-- Answers an MCTP control command. -/
def State.mctpControl (s : State) (eid tag cmd : Nat) (body : List Nat) : State :=
  (s.emit (.mctp eid cmd body)).mctpSend eid tag 0 ((0 :: cmd :: body).flatMap (leBytes 1))

/-- Set Endpoint ID: the HG960's EID; the sessions of the MGT instances are reset (R503, R631). The null and broadcast
identifiers are refused. -/
def State.setEid (s : State) (src tag eid : Nat) : State :=
  if eid % 256 = 0 ∨ eid % 256 = 255 then s.mctpControl src tag 1 [2]
  else
    let t := { s with twb := { s.twb with eid := eid % 256 } }
    let ks := t.mbx.keys.filter fun k => decide (2 ^ 33 ≤ k) && decide (k < 2 ^ 34)
    (ks.foldl State.mbxReset t).mctpControl src tag 1 [0, 0, eid % 256, 0]

/-- Get Endpoint ID. -/
def State.getEid (s : State) (src tag : Nat) : State := s.mctpControl src tag 2 [0, s.twb.eid, 0, 0]

/-- Get MCTP Version Support: one entry, whose version the spec does not state. -/
def State.getMctpVersion (s : State) (src tag : Nat) : State :=
  s.mctpControl src tag 4 [0, 1, Config.firmwareDefined 0x630 % 256]

/-- Get Message Type Support: PLDM, SPDM and vendor defined (R630). -/
def State.getMsgTypes (s : State) (src tag : Nat) : State := s.mctpControl src tag 5 [0, 3, 1, 5, 0x7F]

/-- Get Vendor Defined Message Support: one set, of the Waloft IANA enterprise number (R498, R630). -/
def State.getVendor (s : State) (src tag : Nat) : State :=
  s.mctpControl src tag 6 [0, 0xFF, 1, Config.firmwareDefined 0x7F / 2 ^ 24 % 256, Config.firmwareDefined 0x7F / 2 ^ 16 % 256,
    Config.firmwareDefined 0x7F / 2 ^ 8 % 256, Config.firmwareDefined 0x7F % 256]

/-- SET_ENDPOINT_ID. -/
def execSetEndpointId (srcEid eid : Nat) (s : State) : Out := .next (s.setEid srcEid 0 eid)

/-- GET_ENDPOINT_ID. -/
def execGetEndpointId (srcEid : Nat) (s : State) : Out := .next (s.getEid srcEid 0)

/-- GET_MCTP_VERSION_SUPPORT. -/
def execGetMctpVersionSupport (srcEid : Nat) (s : State) : Out := .next (s.getMctpVersion srcEid 0)

/-- GET_MESSAGE_TYPE_SUPPORT. -/
def execGetMessageTypeSupport (srcEid : Nat) (s : State) : Out := .next (s.getMsgTypes srcEid 0)

/-- GET_VENDOR_DEFINED_MESSAGE_SUPPORT. -/
def execGetVendorDefinedMessageSupport (srcEid : Nat) (s : State) : Out := .next (s.getVendor srcEid 0)

/-- A control packet: its command and operands follow the type and the request byte. -/
def State.mctpControlIn (s : State) (src tag : Nat) (bs : List Byte) : State :=
  match (bs.getD 2 0).toNat with
  | 1 => s.setEid src tag (bs.getD 4 0).toNat
  | 2 => s.getEid src tag
  | 4 => s.getMctpVersion src tag
  | 5 => s.getMsgTypes src tag
  | 6 => s.getVendor src tag
  | n => s.mctpControl src tag n [5]

/-! ### Messages that packets make up (R498, R501, R514, R633) -/

/-- The Jorrid command of an opcode and body where the spec gives the body's layout: those without input, and FW_TRANSFER
but for END, whose outcome the image decides. The body of any other command is firmware-defined, and the command's own
row is its arrival (R511). -/
def jorridOf (op : Nat) (body : List Byte) : Option JorridCmd :=
  let b := fun (i : Nat) => (body.getD i 0).toNat
  match op with
  | 0x0001 => some .identify
  | 0x0002 => some .getStatus
  | 0x0003 => some .abort
  | 0x0005 => some .resetWarm
  | 0x0060 => some .twinRelease
  | 0x0061 => some .twinTakeover
  | 0x0062 => some .twinRetrain
  | 0x0071 => some .capTest
  | 0x0072 => some .savePlanned
  | 0x0090 => some .fwInfo
  | 0x0091 =>
    let slot := b 1 % 2 == 1
    if b 0 = 1 then some (.fwTransferInitiate slot (ofLe (sliceBytes body 8 4)))
    else if b 0 = 2 then some (.fwTransferContinue slot (ofLe (sliceBytes body 4 4)) (body.drop 16))
    else if b 0 = 4 then some (.fwTransferAbort slot)
    else none
  | n => if [0x0004, 0x0006, 0x0007, 0x0008, 0x0010, 0x0011, 0x0020, 0x0021, 0x0022, 0x0023, 0x0024, 0x0025, 0x0026, 0x0030, 0x0031,
      0x0032, 0x0033, 0x0034, 0x0035, 0x0040, 0x0041, 0x0042, 0x0043, 0x0044, 0x0050, 0x0051, 0x0052, 0x0053, 0x0054, 0x0055, 0x0056,
      0x0057, 0x0070, 0x0080, 0x0081, 0x0092, 0x00A0].contains n then none else some (.other n)

/-- A Jorrid message over MGT: the Jorrid header and body after the type and the enterprise number (R498, R501). -/
def State.jorridBytes (s : State) (src tag : Nat) (bs : List Byte) : State :=
  let n := fun (i len : Nat) => ofLe (sliceBytes bs i len)
  let k := 2 ^ 33 + src
  if bs.length < 16 then s else
  let h : JHdr := { seq := n 4 4, tag := n 2 2
                    version := n 10 1, rsv := n 11 1 + 2 ^ 8 * n 12 4, inLen := n 8 2, len := bs.length - 16 }
  match jorridOf (n 0 2) (bs.drop 16) with
  | none => s
  | some c =>
    if s.noInstance k then
      let t := (s.modMb k fun m => { m with mtag := tag }).jRefuse k h c jrRetry
      { t with mbx := t.mbx.erase k }
    else (s.modMb k fun m => { m with mtag := tag }).jorrid k h c

/-- An SPDM request over MGT whose bytes decide it (R542). -/
def State.spdmBytes (s : State) (src : Nat) (bs : List Byte) : State :=
  match (bs.getD 1 0).toNat with
  | 0x84 => (match execGetVersion (.mgt src) s with | .next t => t | _ => s)
  | n => if [0x81, 0x82, 0x83, 0xE0].contains n then s.spdmWhen (.mgt src) fun t => t.largeRequest (.mgt src) bs else s

/-- Delivers a whole message by its type: vendor to the mailbox instances, SPDM to its responder. PLDM messages are their
own rows (R498, R542, R630). -/
def State.mctpTake (s : State) (src tag : Nat) (bs : List Byte) : State :=
  match (bs.getD 0 0).toNat % 128 with
  | 0x7F => s.jorridBytes src tag (bs.drop 5)
  | 5 => s.spdmBytes src (bs.drop 1)
  | _ => s

/-- Takes one packet into its assembly, keyed by source and tag: a gap in the sequence, or a message beyond 4,101 bytes,
discards it (R633). -/
def State.pktTake (s : State) (p : MctpPkt) : State :=
  let key := 8 * p.eid + p.tag
  let old := s.twb.asm.get? key
  let put := fun (m : Tbl MctpAsm) => { s with twb := { s.twb with asm := m } }
  let ok : Bool := match old with | some a => p.som || a.nextSeq == p.seq | none => p.som
  if !ok then put (s.twb.asm.erase key)
  else
    let data := (if p.som then [] else (match old with | some a => a.data | none => [])) ++ p.data
    if 4101 < data.length then put (s.twb.asm.erase key)
    else if p.eom then (put (s.twb.asm.erase key)).mctpTake p.eid p.tag data
    else put (s.twb.asm.set key { nextSeq := (p.seq + 1) % 4, data := data })

/-- Whether messages can be taken: the island of the mailboxes runs and no warm reset is under way (R632). -/
def State.mgtReady (s : State) : Bool := !s.gated (islandOf Reg.mbxCtl) && s.isl.warm == 0

/-- Takes every packet that waits in a receive buffer, in order; its buffer is free again (R632). -/
def State.mgtDrain (s : State) : State :=
  if s.mgtReady then s.twb.rx.foldl State.pktTake { s with twb := { s.twb with rx := [] } } else s

/-! ### Bus transactions (R632–R637) -/

/-- Acknowledges or refuses on the bus. -/
def State.smbAck (s : State) (ok : Bool) : State := s.emit (.smbAck ok)

/-- Whether a packet is accepted, its PEC apart (R633): Set Endpoint ID may be addressed to EID 0. -/
def State.pktOk (s : State) (cmd count dest : Nat) (data : List Byte) : Bool :=
  let setEid := (data.getD 0 0).toNat % 128 == 0 && (data.getD 2 0).toNat == 1
  cmd == 0x0F && count == data.length + 5 && decide (data.length ≤ 64) && ((dest == s.twb.eid && dest != 0) || (dest == 0 && setEid))

/-- MGT_BLOCK_WRITE: a packet takes a receive buffer or is refused at its address byte; one that passes its checks is
taken into a message (R632, R633). -/
def execMgtBlockWrite (cmd count : Nat) (destEid srcEid tag pktSeq : Nat) (som eom pecOk : Bool) (data : List Byte)
    (s : State) : Out :=
  .next (
    if 8 ≤ s.twb.rx.length then ((s.flag Reg.twbMgtEvent 2).count (Reg.twbMgtCount + 8)).smbAck false
    else if !pecOk then ((s.flag Reg.twbMgtEvent 1).count (Reg.twbMgtCount + 4)).smbAck false
    else if s.pktOk cmd count destEid data = false then s.smbAck true
    else
      let t := s.smbAck true
      if som && (data.getD 0 0).toNat % 128 == 0 then
        (if eom then t.mctpControlIn srcEid (tag % 8) data else t)
      else
        let p : MctpPkt := { eid := srcEid % 256, tag := tag % 8, seq := pktSeq % 4, som := som, eom := eom, data := data }
        { t with twb := { t.twb with rx := t.twb.rx ++ [p] } }.mgtDrain)

/-- MGT_BLOCK_READ: the packet at the head of the transmit queue, after its byte count and before a PEC over the whole
transaction; consumed only when the controller has ended the read as R634 says. With the queue empty the count is 0. -/
def execMgtBlockRead (completed : Bool) (s : State) : Out :=
  .next (
    let a := 2 * s.mgtAddr
    let body := match s.twb.tx with
      | [] => []
      | p :: _ => leBytes 1 (a + 1) ++ p
    let frame := leBytes 1 body.length ++ body
    let pec := crc8 (leBytes 1 a ++ leBytes 1 0x0F ++ leBytes 1 (a + 1) ++ frame)
    let t := s.emit (.smbRead (frame ++ leBytes 1 pec))
    if completed then { t with twb := { t.twb with tx := t.twb.tx.drop 1 } }.mctpFill else t)

/-- ALERT_RESPONSE_READ: a HG960 that asserts the alert and wins arbitration returns its address and releases the alert;
one that loses keeps it (R635). -/
def execAlertResponseRead (won : Bool) (s : State) : Out :=
  .next (if s.twb.alert && won then
      (({ s with twb := { s.twb with alert := false, alertHeld := true } }.emit (.smbRead (leBytes 1 (2 * s.mgtAddr))))).emit
        (.smbAlert false)
    else s)

/-- ALERT_REASSERT: 100 µs after a release the alert is asserted again if a cause is still set (R635). -/
def execAlertReassert (s : State) : Out :=
  .next { s with twb := { s.twb with alertHeld := false } }.noteAlert

/-- MGT_PROTOCOL_ERROR: a START in an acknowledge clock is a protocol error; one in a data bit only abandons the
transaction, of which nothing is applied (R636). -/
def execMgtProtocolError (inAck : Bool) (s : State) : Out :=
  .next (if inAck then (s.count Reg.twbMgtCount).flagRecord Reg.twbMgtEvent 0 0x1401 0 0 else s)

/-- MGT_CLK_LOW_TIMEOUT (R637). -/
def execMgtClkLowTimeout (s : State) : Out := .next ((s.flag Reg.twbMgtEvent 3).count (Reg.twbMgtCount + 0xC))

/-- MGT_DATA_LOW_TIMEOUT (R637). -/
def execMgtDataLowTimeout (s : State) : Out := .next (s.flag Reg.twbMgtEvent 4)

/-! ### The tick -/

/-- What a tick brings when no command waits: time passes and an entry to Quiet ends; packets, held commands and the
background work of the mailboxes are taken up (R505, R517, R522, R600, R616, R632; DESIGN CHOICE, log 1). -/
def State.idle (s : State) : State := s.tick.mgtDrain.jHeldAll.jServeAll

end Sys2Proof.Machine
end

