-- ==== Sys2Proof/Machine/MbxPaths.lean ====
section
/-! DEFINITION. Commands that reach the mailboxes by CXL and RDMA: Transfer FW, Activate FW, opcode 0xC000 and WCM TYPE
0x30 (R107, R108, R143, R498). -/

namespace Sys2Proof.Machine

/-- Whether a firmware command of a CXL mailbox may run now, as FW_TRANSFER and FW_ACTIVATE may (R107, R509, R510). -/
def State.cxlFwUp (s : State) (c : JorridCmd) : Bool := s.jTakes && !notReady s.phase c

/-- The return code of a Transfer FW, and what it does (R107, R514; return codes PRESUMED from CXL 3.1, log 22). -/
def State.cxlTransfer (s : State) (ld action : Nat) (b : Bool) (off total : Nat) (data : List Byte)
    (verifies : Bool) : State × Nat :=
  let x := s.fwSlot b
  if s.transferBusy b || (s.objectsHeld.contains (objSlot b)) then (s, 8)
  else match action with
  | 1 =>
    if 6 * 2 ^ 20 < total ∨ total = 0 then (s, 2)
    else if x.state = .active then (s, 0xB)
    else if s.fw.transfer.isSome then (s, 8)
    else
      let t := s.loadBegin b total
      ({ t with fw := { t.fw with loadBy := some (true, ld) } }, 1)
  | 2 =>
    if s.slotErasing b then (s, 6)
    else if x.state ≠ .loading ∨ off ≠ x.image.length then (s, 9)
    else if 4064 < data.length ∨ x.total < x.image.length + data.length then (s, 2)
    else (s.loadPut b data, 0)
  | 3 =>
    if x.state ≠ .loading then (s, 9)
    else (s.loadEnd b verifies, if s.loadStatus b verifies = jrSuccess then 0 else 0xA)
  | 4 => if x.state ≠ .loading then (s, 9) else (s.loadDrop b, 0)
  | _ => (s, 2)

/-- TRANSFER_FW, of privileged LDs only; INITIATE is a background command, whose end is signalled (R107, R514). -/
def execTransferFw (ld : Fin 32) (action : Nat) (slotB : Bool) (offset total : Nat) (data : List Byte)
    (verifies : Bool) (s : State) : Out :=
  if s.privLd ld = false then .next (s.cxlAnswer ld 0x0201 3 [])
  else if s.cxlMbxUp ld = false then .next (s.cxlAnswer ld 0x0201 0 [])
  else if s.cxlFwUp (.fwTransferAbort slotB) = false then .next (s.cxlAnswer ld 0x0201 5 [])
  else
    let p := s.cxlTransfer ld action slotB offset total data verifies
    .next ((p.1.cxlAnswer ld 0x0201 p.2 []).loadPoll)

/-- ACTIVATE_FW, of privileged LDs only (R107, R516). -/
def execActivateFw (ld : Fin 32) (slotB live : Bool) (s : State) : Out :=
  let c : JorridCmd := if live then .fwActivateLive slotB else .fwActivateNextReset slotB
  if s.privLd ld = false then .next (s.cxlAnswer ld 0x0202 3 [])
  else if s.cxlMbxUp ld = false then .next (s.cxlAnswer ld 0x0202 0 [])
  else if s.cxlFwUp c = false || s.objectsHeld.contains (objSlot slotB) then .next (s.cxlAnswer ld 0x0202 5 [])
  else if live then
    if !s.liveImage slotB then .next (s.cxlAnswer ld 0x0202 0xD [])
    else if !s.liveNow then .next (s.cxlAnswer ld 0x0202 5 [])
    else .next ((s.cxlAnswer ld 0x0202 1 []).liveHalt slotB none)
  else match (s.fwSlot slotB).state with
  | .valid => .next ((s.setPending slotB).cxlAnswer ld 0x0202 0 [])
  | .pending => .next (s.cxlAnswer ld 0x0202 0 [])
  | _ => .next (s.cxlAnswer ld 0x0202 0xB [])

/-- JORRID_VENDOR_OPCODE: opcode 0xC000 carries one Jorrid command to the LD's instance (R108, R498). -/
def execJorridVendorOpcode (ld : Fin 32) (h : JHdr) (c : JorridCmd) (s : State) : Out :=
  .next (if s.cxlMbxUp ld then s.jorrid (mbxKey (.cxl ld)) h c else s.cxlAnswer ld 0xC000 0 [])

/-- WCM_JORRID: a WCM of TYPE 0x30 on an ESTABLISHED QP of the MGMT service carries one Jorrid command; on any other
service the type is forbidden (R143, R498). -/
def execWcmJorrid (qpn psn : Nat) (w : WcmHdr) (h : JHdr) (c : JorridCmd) (s : State) : Out :=
  .next (s.wcmTake qpn psn (fun q => q.service == 1) fun t _ =>
    t.wcmReply qpn 0x30 w 16 wcmMax fun u =>
      (u.modMb (mbxKey (.mgmt qpn)) fun m => { m with mtag := w.tag }).jorrid (mbxKey (.mgmt qpn)) h c)

end Sys2Proof.Machine
end

