-- ==== Sys2Proof/Machine/ShaumIn.lean ====
section
/-! DEFINITION. What arrives on the Shaum Link: PEER_MBX messages, and segments with their assembly into messages
(R444–R448, R498). -/

namespace Sys2Proof.Machine

/-- A result of the peer mailbox: the instance whose command was relayed completes with SUCCESS, and the peer's result is
its body. A BUSY answer to the relayed command's own SEQ is not the end of it (R498, R505, R511). -/
def State.onPeerResult (s : State) (seq : Nat) (r : JResult) : State :=
  match s.mbx.find? fun m => m.step == 3 with
  | none => s
  | some e =>
    if r.status = jrBusy ∧ e.2.relayed = some seq then s
    else ((s.modMb e.1 fun x => { x with relayed := none }).mbxOk e.1
      ([r.opcode, r.status, r.progress, r.detail] ++ r.body)).jServeAll

/-- A PEER_MBX message: a Jorrid command for the peer mailbox, or the result of a command relayed to the peer. -/
def State.onPeerMbx (s : State) (seq : Nat) (h : JHdr) (c : Option JorridCmd) (r : JResult) : State :=
  s.takeMsg seq fun t => match c with
    | some c => t.jorrid (mbxKey .peer) h c
    | none => t.onPeerResult h.seq r

/-- PEER_MBX (R498). -/
def execPeerMbx (seq : Nat) (h : JHdr) (c : Option JorridCmd) (r : JResult) (s : State) : Out :=
  .next (s.onPeerMbx seq h c r)

/-- Acts on a complete message whose check has verified (R446, R449). -/
def State.onShaum (s : State) (seq : Nat) (m : ShaumMsg) : State :=
  match m with
  | .mirror x => s.onMirror seq x
  | .ack seqs => s.onAck seqs
  | .forward x => s.onForward seq x
  | .fwdReply tag poisoned result => s.onFwdReply seq tag poisoned result
  | .readReq tag region off psa len => s.onReadReq seq tag region off psa len
  | .readData _ tag data poison => s.onReadData seq tag data poison
  | .promoHint tile => s.onHint seq tile
  | .tilePull tile => s.onPull seq tile
  | .tileData tile data sectors resync => s.onTileData seq tile data sectors resync
  | .ensignOffer region pseq => s.onOffer seq region pseq
  | .ensignAccept region => s.onAccept seq region
  | .control cs => s.onControl seq cs
  | .cqRelay cq recSeq r => s.onRelay seq cq recSeq r
  | .verify tile crc pseq => s.onVerify seq tile crc pseq
  | .verifyReply tile crc pseq => s.onVerifyReply seq tile crc pseq
  | .peerMbx h c => s.onPeerMbx seq h (some c) {}
  | .peerMbxResult rseq r => s.onPeerMbx seq { seq := rseq } none r
  | .segNak nseq bitmap => (s.wakeFor .twin).onNak nseq bitmap
  | .burgee b => s.onBurgee false true b
  | .resyncCtl region pseq start pinned => s.onResyncCtl seq region pseq start pinned

/-- Whether a message is a Burgee. -/
def isBurgee : ShaumMsg → Bool
  | .burgee _ => true
  | _ => false

/-- Places a verified segment: a repeated one is discarded; the message is acted on once every one of its segments is
there and its check verifies, and is discarded and counted if that fails (R446). -/
def State.placeSeg (s : State) (h : SegHdr) (checkOk : Bool) (m : ShaumMsg) : State :=
  let a := s.twn.asm.getD h.msgSeq { count := h.segCount, bitmap := 0, type := h.type, msg := m }
  let i := h.segOffset / 2048
  if a.bitmap.testBit i then s
  else
    let a := { a with bitmap := a.bitmap ||| 2 ^ i }
    if (List.range a.count).all fun j => a.bitmap.testBit j then
      let t := { s with twn := { s.twn with asm := s.twn.asm.erase h.msgSeq } }
      if checkOk then t.onShaum h.msgSeq a.msg else t.count (Reg.twnCount + 4)
    else { s with twn := { s.twn with asm := s.twn.asm.set h.msgSeq a } }

/-- Whether this twin holds the key that KEY_SEL names (R443, R444, R551). -/
def State.segKey (s : State) (sel : Nat) : Bool :=
  if sel.testBit 23 then (match s.sec.keys.get? (bitsOf sel 19 8) with
    | some k => k.shaum && k.epoch % 256 == sel % 256
    | none => false)
  else true

/-- SHAUM_SEGMENT_RECEIVE: on a lane group that is up, with the link UP (or in MISMATCH, for a Burgee). A segment whose
VERSION is not 1 is dropped (log 119); one of another EPOCH is dropped before decryption and counted. One whose tag fails,
or whose key is not held here, is counted and flagged, and nothing in it is acted on. A verified one ends the path's
silence and is placed (R442–R448). With the Shaum GCM pipelines disabled a segment is lost (R557, log 125); a COUNTER that has
reached its limit brings a retrain (R552). -/
def execShaumSegmentReceive (g : Fin 4) (h : SegHdr) (tagOk checkOk : Bool) (m : ShaumMsg) (s : State) : Out :=
  .next (
    let passes : Bool := match s.twn.link with
      | .up => true
      | .mismatch => isBurgee m
      | _ => false
    if !passes || !s.bit Reg.secCtl 1 || !s.lanesUp.contains g.val || h.version != 1 then s
    else if h.epoch % 65536 ≠ s.twn.epoch then s.count (Reg.twnCount + 0xC)
    else match s.takeBuf h.segLen with
    | none => s
    | some (t, b) =>
      let t := (t.freeBuf b).modLane g fun l => { l with ctrRx := h.counter }
      if !tagOk || !s.segKey h.keySel then t.authBad
      else
        let t := t.heardOn false
        let t := (if isBurgee m then t else t.wakeFor .twin).placeSeg h checkOk m
        if t.counterOver g then t.retrainUp else t)

end Sys2Proof.Machine
end

