-- ==== Sys2Proof/Machine/Dispatch.lean ====
section
/-! DEFINITION. One arm per command: a direct call of its meaning. -/

namespace Sys2Proof.Machine

def exec (i : Instr) (s : State) : Host.Outcome State Fault Refusal :=
  match i with
  | .registerWrite p off size val => Sys2Proof.Machine.execRegisterWrite p off size val s
  | .registerHiWrite p off val => Sys2Proof.Machine.execRegisterHiWrite p off val s
  | .registerLoRead p off => Sys2Proof.Machine.execRegisterLoRead p off s
  | .rcCounterRead p off sameCycle => Sys2Proof.Machine.execRcCounterRead p off sameCycle s
  | .w1cFlagClear p off val hwSet cap => Sys2Proof.Machine.execW1cFlagClear p off val hwSet cap s
  | .badRegisterAccess p write off size => Sys2Proof.Machine.execBadRegisterAccess p write off size s
  | .gatedIslandAccess p write off val => Sys2Proof.Machine.execGatedIslandAccess p write off val s
  | .glbRgnSel p region => Sys2Proof.Machine.execGlbRgnSel p region s
  | .tqmSqSel p sq => Sys2Proof.Machine.execTqmSqSel p sq s
  | .tqmCqSel p cq => Sys2Proof.Machine.execTqmCqSel p cq s
  | .plcRgnSel p region => Sys2Proof.Machine.execPlcRgnSel p region s
  | .plcTileSel p hi => Sys2Proof.Machine.execPlcTileSel p hi s
  | .fmcSetSel p set => Sys2Proof.Machine.execFmcSetSel p set s
  | .secRgnKeySel p region => Sys2Proof.Machine.execSecRgnKeySel p region s
  | .eflBlockSel p block => Sys2Proof.Machine.execEflBlockSel p block s
  | .eflRaddr p addr => Sys2Proof.Machine.execEflRaddr p addr s
  | .evrWindowRead p word => Sys2Proof.Machine.execEvrWindowRead p word s
  | .cxlLinkEnable p port val => Sys2Proof.Machine.execCxlLinkEnable p port val s
  | .cxlLinkTrained port link width speed flit => Sys2Proof.Machine.execCxlLinkTrained port link width speed flit s
  | .cxlLinkDown port link => Sys2Proof.Machine.execCxlLinkDown port link s
  | .cxlLinkRecovery port link => Sys2Proof.Machine.execCxlLinkRecovery port link s
  | .cxlLinkDownHoldExpiry port link => Sys2Proof.Machine.execCxlLinkDownHoldExpiry port link s
  | .departureHoldExpiry ld => Sys2Proof.Machine.execDepartureHoldExpiry ld s
  | .l0pNarrowRequest port link => Sys2Proof.Machine.execL0pNarrowRequest port link s
  | .l0pWidenRequest port link => Sys2Proof.Machine.execL0pWidenRequest port link s
  | .l0pHostRequest port link width => Sys2Proof.Machine.execL0pHostRequest port link width s
  | .aspmL1Entry port link hostAllows => Sys2Proof.Machine.execAspmL1Entry port link hostAllows s
  | .aspmL1Exit port link => Sys2Proof.Machine.execAspmL1Exit port link s
  | .cxlMemEnable ld => Sys2Proof.Machine.execCxlMemEnable ld s
  | .cxlMemrd ld tag dpa f => Sys2Proof.Machine.execCxlMemrd ld tag dpa f s
  | .cxlMemwr ld tag dpa data poison => Sys2Proof.Machine.execCxlMemwr ld tag dpa data poison s
  | .cxlFlr ld => Sys2Proof.Machine.execCxlFlr ld s
  | .cxlHotReset port link => Sys2Proof.Machine.execCxlHotReset port link s
  | .flrDone ld => Sys2Proof.Machine.execFlrDone ld s
  | .persistBarrierRead ld => Sys2Proof.Machine.execPersistBarrierRead ld s
  | .persistBarrierReturn ld => Sys2Proof.Machine.execPersistBarrierReturn ld s
  | .gpfPhase1 port link => Sys2Proof.Machine.execGpfPhase1 port link s
  | .gpfPhase2 port link => Sys2Proof.Machine.execGpfPhase2 port link s
  | .gpfPhase2Complete port link ns => Sys2Proof.Machine.execGpfPhase2Complete port link ns s
  | .getLdInfo port => Sys2Proof.Machine.execGetLdInfo port s
  | .getLdAllocations port => Sys2Proof.Machine.execGetLdAllocations port s
  | .setLdAllocations port ld bind alloc => Sys2Proof.Machine.execSetLdAllocations port ld bind alloc s
  | .getQosControl port => Sys2Proof.Machine.execGetQosControl port s
  | .setQosControl port ctl ld ctm cls => Sys2Proof.Machine.execSetQosControl port ctl ld ctm cls s
  | .fmExtentAdd ld dcRegion dpa len region rof => Sys2Proof.Machine.execFmExtentAdd ld dcRegion dpa len region rof s
  | .fmExtentRelease ld region rof gen force => Sys2Proof.Machine.execFmExtentRelease ld region rof gen force s
  | .dcResponseTimeout idx => Sys2Proof.Machine.execDcResponseTimeout idx s
  | .extentRemovalDrained idx => Sys2Proof.Machine.execExtentRemovalDrained idx s
  | .getEventRecords ld log => Sys2Proof.Machine.execGetEventRecords ld log s
  | .clearEventRecords ld log all handles => Sys2Proof.Machine.execClearEventRecords ld log all handles s
  | .getEventInterruptPolicy ld => Sys2Proof.Machine.execGetEventInterruptPolicy ld s
  | .setEventInterruptPolicy ld policy => Sys2Proof.Machine.execSetEventInterruptPolicy ld policy s
  | .getSupportedLogs ld => Sys2Proof.Machine.execGetSupportedLogs ld s
  | .getLog ld cel off len => Sys2Proof.Machine.execGetLog ld cel off len s
  | .identifyMemoryDevice ld => Sys2Proof.Machine.execIdentifyMemoryDevice ld s
  | .getPartitionInfo ld => Sys2Proof.Machine.execGetPartitionInfo ld s
  | .getFwInfo ld => Sys2Proof.Machine.execGetFwInfo ld s
  | .transferFw ld action slotB offset total data verifies => Sys2Proof.Machine.execTransferFw ld action slotB offset total data verifies s
  | .activateFw ld slotB live => Sys2Proof.Machine.execActivateFw ld slotB live s
  | .getPoisonList ld dpa len => Sys2Proof.Machine.execGetPoisonList ld dpa len s
  | .injectPoison ld dpa => Sys2Proof.Machine.execInjectPoison ld dpa s
  | .clearPoison ld dpa data => Sys2Proof.Machine.execClearPoison ld dpa data s
  | .getDynamicCapacityConfiguration ld => Sys2Proof.Machine.execGetDynamicCapacityConfiguration ld s
  | .getDynamicCapacityExtentList ld => Sys2Proof.Machine.execGetDynamicCapacityExtentList ld s
  | .addDynamicCapacityResponse ld accepted => Sys2Proof.Machine.execAddDynamicCapacityResponse ld accepted s
  | .releaseDynamicCapacity ld dpa len => Sys2Proof.Machine.execReleaseDynamicCapacity ld dpa len s
  | .getTimestamp ld => Sys2Proof.Machine.execGetTimestamp ld s
  | .setTimestamp ld ns => Sys2Proof.Machine.execSetTimestamp ld ns s
  | .jorridVendorOpcode ld h c => Sys2Proof.Machine.execJorridVendorOpcode ld h c s
  | .cxlMbxUnsupported ld opcode => Sys2Proof.Machine.execCxlMbxUnsupported ld opcode s
  | .netLinkUp port => Sys2Proof.Machine.execNetLinkUp port s
  | .netLinkDown port => Sys2Proof.Machine.execNetLinkDown port s
  | .pfcFrameReceived port prios xoff => Sys2Proof.Machine.execPfcFrameReceived port prios xoff s
  | .pfcXoffRepeat => Sys2Proof.Machine.execPfcXoffRepeat s
  | .pauseStorm port prio => Sys2Proof.Machine.execPauseStorm port prio s
  | .cnpReceived qpn => Sys2Proof.Machine.execCnpReceived qpn s
  | .rateIncreaseTick qpn => Sys2Proof.Machine.execRateIncreaseTick qpn s
  | .lldpTransmit port => Sys2Proof.Machine.execLldpTransmit port s
  | .lldpReceived port partner => Sys2Proof.Machine.execLldpReceived port partner s
  | .rocePacketReceive h v => Sys2Proof.Machine.execRocePacketReceive h v s
  | .sendCounterLimit qpn => Sys2Proof.Machine.execSendCounterLimit qpn s
  | .cmReq r => Sys2Proof.Machine.execCmReq r s
  | .cmRtu qpn => Sys2Proof.Machine.execCmRtu qpn s
  | .cmRej qpn => Sys2Proof.Machine.execCmRej qpn s
  | .cmMra qpn => Sys2Proof.Machine.execCmMra qpn s
  | .cmDreq qpn sent => Sys2Proof.Machine.execCmDreq qpn sent s
  | .cmDrep qpn => Sys2Proof.Machine.execCmDrep qpn s
  | .cmTimeout qpn => Sys2Proof.Machine.execCmTimeout qpn s
  | .drainingTimeout qpn => Sys2Proof.Machine.execDrainingTimeout qpn s
  | .errorTimeout qpn => Sys2Proof.Machine.execErrorTimeout qpn s
  | .quarantineEnd mkey index => Sys2Proof.Machine.execQuarantineEnd mkey index s
  | .keyHello qpn w host suite nonce ek => Sys2Proof.Machine.execKeyHello qpn w host suite nonce ek s
  | .keyConfirm qpn w pk sig sigOk => Sys2Proof.Machine.execKeyConfirm qpn w pk sig sigOk s
  | .certRequest qpn w => Sys2Proof.Machine.execCertRequest qpn w s
  | .keyingTimeout qpn => Sys2Proof.Machine.execKeyingTimeout qpn s
  | .rdmaWrite qpn psn rkey va data => Sys2Proof.Machine.execRdmaWrite qpn psn rkey va data s
  | .rdmaWriteImm qpn psn rkey va data imm => Sys2Proof.Machine.execRdmaWriteImm qpn psn rkey va data imm s
  | .rdmaRead qpn psn rkey va len => Sys2Proof.Machine.execRdmaRead qpn psn rkey va len s
  | .atomicFetchAdd qpn psn rkey va add => Sys2Proof.Machine.execAtomicFetchAdd qpn psn rkey va add s
  | .atomicCompareSwap qpn psn rkey va cmp swap => Sys2Proof.Machine.execAtomicCompareSwap qpn psn rkey va cmp swap s
  | .atomicWrite qpn psn rkey va data => Sys2Proof.Machine.execAtomicWrite qpn psn rkey va data s
  | .rdmaFlush qpn psn rkey va len whole => Sys2Proof.Machine.execRdmaFlush qpn psn rkey va len whole s
  | .flushResponse qpn psn => Sys2Proof.Machine.execFlushResponse qpn psn s
  | .keepalive qpn psn w => Sys2Proof.Machine.execKeepalive qpn psn w s
  | .mkeyRegister qpn psn w region verbs tag rof va len => Sys2Proof.Machine.execMkeyRegister qpn psn w region verbs tag rof va len s
  | .mkeyInvalidate qpn psn w rkey => Sys2Proof.Machine.execMkeyInvalidate qpn psn w rkey s
  | .wcmJorrid qpn psn w h c => Sys2Proof.Machine.execWcmJorrid qpn psn w h c s
  | .leaseLapse host => Sys2Proof.Machine.execLeaseLapse host s
  | .leaseRecordFree host => Sys2Proof.Machine.execLeaseRecordFree host s
  | .requesterAckTimeout qpn => Sys2Proof.Machine.execRequesterAckTimeout qpn s
  | .requesterAckReceived qpn => Sys2Proof.Machine.execRequesterAckReceived qpn s
  | .sqDoorbell sq => Sys2Proof.Machine.execSqDoorbell sq s
  | .tqmDoorbell p sq => Sys2Proof.Machine.execTqmDoorbell p sq s
  | .fetchResume => Sys2Proof.Machine.execFetchResume s
  | .tqCopy sq pos => Sys2Proof.Machine.execTqCopy sq pos s
  | .tqFill sq pos => Sys2Proof.Machine.execTqFill sq pos s
  | .tqPersistNotify sq pos => Sys2Proof.Machine.execTqPersistNotify sq pos s
  | .tqCrcCheck sq pos => Sys2Proof.Machine.execTqCrcCheck sq pos s
  | .tqPrefetch sq pos => Sys2Proof.Machine.execTqPrefetch sq pos s
  | .tqPin sq pos => Sys2Proof.Machine.execTqPin sq pos s
  | .tqUnpin sq pos => Sys2Proof.Machine.execTqUnpin sq pos s
  | .tqSanitize sq pos => Sys2Proof.Machine.execTqSanitize sq pos s
  | .tqFormat sq pos => Sys2Proof.Machine.execTqFormat sq pos s
  | .sanitizePhaseComplete region => Sys2Proof.Machine.execSanitizePhaseComplete region s
  | .formatStepComplete region => Sys2Proof.Machine.execFormatStepComplete region s
  | .sanitizeFormatResume region => Sys2Proof.Machine.execSanitizeFormatResume region s
  | .tqCommandComplete sq pos => Sys2Proof.Machine.execTqCommandComplete sq pos s
  | .cqConsAdvance cq => Sys2Proof.Machine.execCqConsAdvance cq s
  | .notifyCoalesceExpiry cq => Sys2Proof.Machine.execNotifyCoalesceExpiry cq s
  | .crcFwLoad p => Sys2Proof.Machine.execCrcFwLoad p s
  | .crcFwData32 p data => Sys2Proof.Machine.execCrcFwData32 p data s
  | .crcFwData8 p data => Sys2Proof.Machine.execCrcFwData8 p data s
  | .promotionSwitch tile bad => Sys2Proof.Machine.execPromotionSwitch tile bad s
  | .promoWaitOver tile => Sys2Proof.Machine.execPromoWaitOver tile s
  | .promotionQueueServe => Sys2Proof.Machine.execPromotionQueueServe s
  | .frameSweepVisit => Sys2Proof.Machine.execFrameSweepVisit s
  | .evictionCapSecond => Sys2Proof.Machine.execEvictionCapSecond s
  | .evictionSwitch tile => Sys2Proof.Machine.execEvictionSwitch tile s
  | .relocationSwitch tile => Sys2Proof.Machine.execRelocationSwitch tile s
  | .mapSweepRead => Sys2Proof.Machine.execMapSweepRead s
  | .decayPeriod => Sys2Proof.Machine.execDecayPeriod s
  | .saveAreaDrain => Sys2Proof.Machine.execSaveAreaDrain s
  | .tmcFill line badEntries => Sys2Proof.Machine.execTmcFill line badEntries s
  | .mapAudit => Sys2Proof.Machine.execMapAudit s
  | .hlcFillComplete tile line badSectors parity retryOk => Sys2Proof.Machine.execHlcFillComplete tile line badSectors parity retryOk s
  | .hlcEvbWriteComplete tile line => Sys2Proof.Machine.execHlcEvbWriteComplete tile line s
  | .hlcClean tile line => Sys2Proof.Machine.execHlcClean tile line s
  | .hlcWritebackDone tile line wrCheck => Sys2Proof.Machine.execHlcWritebackDone tile line wrCheck s
  | .hlcMaintWriteback p scope => Sys2Proof.Machine.execHlcMaintWriteback p scope s
  | .hlcMaintWbInval p scope => Sys2Proof.Machine.execHlcMaintWbInval p scope s
  | .hlcMaintComplete => Sys2Proof.Machine.execHlcMaintComplete s
  | .tagSetScanDone slice set => Sys2Proof.Machine.execTagSetScanDone slice set s
  | .dmcAlert ch subB within1ms => Sys2Proof.Machine.execDmcAlert ch subB within1ms s
  | .retrainDue ch => Sys2Proof.Machine.execRetrainDue ch s
  | .mr4Poll ch rank level => Sys2Proof.Machine.execMr4Poll ch rank level s
  | .oscTracking ch rank => Sys2Proof.Machine.execOscTracking ch rank s
  | .refreshDue ch rank => Sys2Proof.Machine.execRefreshDue ch rank s
  | .rfmDue ch bank => Sys2Proof.Machine.execRfmDue ch bank s
  | .bankIdleExpiry ch bank => Sys2Proof.Machine.execBankIdleExpiry ch bank s
  | .requestAgeTarget ch line late => Sys2Proof.Machine.execRequestAgeTarget ch line late s
  | .dmcSelfRefreshEnter p => Sys2Proof.Machine.execDmcSelfRefreshEnter p s
  | .dmcSelfRefreshExit p => Sys2Proof.Machine.execDmcSelfRefreshExit p s
  | .dmcTrainFull p mask => Sys2Proof.Machine.execDmcTrainFull p mask s
  | .dmcTrainStored p mask => Sys2Proof.Machine.execDmcTrainStored p mask s
  | .dmcTrainRows p mask => Sys2Proof.Machine.execDmcTrainRows p mask s
  | .dmcTrainingDone ch ok => Sys2Proof.Machine.execDmcTrainingDone ch ok s
  | .chiveEnable p ch entry => Sys2Proof.Machine.execChiveEnable p ch entry s
  | .chiveDisable p ch entry => Sys2Proof.Machine.execChiveDisable p ch entry s
  | .chiveCopyDone ch => Sys2Proof.Machine.execChiveCopyDone ch s
  | .chiveCandidate ch sector => Sys2Proof.Machine.execChiveCandidate ch sector s
  | .scrubGo p rate mask => Sys2Proof.Machine.execScrubGo p rate mask s
  | .scrubStop p => Sys2Proof.Machine.execScrubStop p s
  | .scrubPassEnd sectors poison ms bad => Sys2Proof.Machine.execScrubPassEnd sectors poison ms bad s
  | .flashReadDecode loc slice r => Sys2Proof.Machine.execFlashReadDecode loc slice r s
  | .flashPatrol loc slice r => Sys2Proof.Machine.execFlashPatrol loc slice r s
  | .suspendWaitExpiry die => Sys2Proof.Machine.execSuspendWaitExpiry die s
  | .programFlushTimer set => Sys2Proof.Machine.execProgramFlushTimer set s
  | .programUnitDone set block ok => Sys2Proof.Machine.execProgramUnitDone set block ok s
  | .flashEraseDone set block ok spare => Sys2Proof.Machine.execFlashEraseDone set block ok spare s
  | .saveRegionResize set => Sys2Proof.Machine.execSaveRegionResize set s
  | .flashGeometryDiscovery channels dies planes bits cw lblocks pages spare cycles valid => Sys2Proof.Machine.execFlashGeometryDiscovery channels dies planes bits cw lblocks pages spare cycles valid s
  | .meterSample mv ma => Sys2Proof.Machine.execMeterSample mv ma s
  | .ledgerRecompute => Sys2Proof.Machine.execLedgerRecompute s
  | .catchupExpiry => Sys2Proof.Machine.execCatchupExpiry s
  | .moduleTempRead => Sys2Proof.Machine.execModuleTempRead s
  | .capTestPeriod => Sys2Proof.Machine.execCapTestPeriod s
  | .elgCmdTest p => Sys2Proof.Machine.execElgCmdTest p s
  | .capTestDropReached chargeUc dropMv currentOk rose => Sys2Proof.Machine.execCapTestDropReached chargeUc dropMv currentOk rose s
  | .capTestTimeout => Sys2Proof.Machine.execCapTestTimeout s
  | .capTestRetry => Sys2Proof.Machine.execCapTestRetry s
  | .saveRateProbe setRate streamRate pSaveMw => Sys2Proof.Machine.execSaveRateProbe setRate streamRate pSaveMw s
  | .elgReserveWrite p val => Sys2Proof.Machine.execElgReserveWrite p val s
  | .elgTestCfgWrite p val => Sys2Proof.Machine.execElgTestCfgWrite p val s
  | .elgSaveCfgWrite p val => Sys2Proof.Machine.execElgSaveCfgWrite p val s
  | .holdFail samples => Sys2Proof.Machine.execHoldFail samples s
  | .elgCmdSave p => Sys2Proof.Machine.execElgCmdSave p s
  | .saveDrainEnd => Sys2Proof.Machine.execSaveDrainEnd s
  | .sagePhaseEnd tiles => Sys2Proof.Machine.execSagePhaseEnd tiles s
  | .saveFinalEnergy => Sys2Proof.Machine.execSaveFinalEnergy s
  | .restore unsaved peer => Sys2Proof.Machine.execRestore unsaved peer s
  | .regionAdmit region => Sys2Proof.Machine.execRegionAdmit region s
  | .peerWaitExpiry => Sys2Proof.Machine.execPeerWaitExpiry s
  | .haltedPeerAdmission entries single => Sys2Proof.Machine.execHaltedPeerAdmission entries single s
  | .shaumLinkEnable p val => Sys2Proof.Machine.execShaumLinkEnable p val s
  | .laneGroupTrained g => Sys2Proof.Machine.execLaneGroupTrained g s
  | .laneGroupDown g => Sys2Proof.Machine.execLaneGroupDown g s
  | .laneGroupRetry g => Sys2Proof.Machine.execLaneGroupRetry g s
  | .linkTrainingTimeout => Sys2Proof.Machine.execLinkTrainingTimeout s
  | .linkHello p nonce ek ok => Sys2Proof.Machine.execLinkHello p nonce ek ok s
  | .linkReply p nonce ct sig ok => Sys2Proof.Machine.execLinkReply p nonce ct sig ok s
  | .linkConfirm sig ok => Sys2Proof.Machine.execLinkConfirm sig ok s
  | .linkFail => Sys2Proof.Machine.execLinkFail s
  | .twnCmdRetrain p => Sys2Proof.Machine.execTwnCmdRetrain p s
  | .shaumSegmentReceive g h tagOk checkOk m => Sys2Proof.Machine.execShaumSegmentReceive g h tagOk checkOk m s
  | .reassemblyTimerExpiry seq => Sys2Proof.Machine.execReassemblyTimerExpiry seq s
  | .messageResendTimeout seq => Sys2Proof.Machine.execMessageResendTimeout seq s
  | .shaumCounterLimit g => Sys2Proof.Machine.execShaumCounterLimit g s
  | .mirror seq m => Sys2Proof.Machine.execMirror seq m s
  | .shaumAck seqs => Sys2Proof.Machine.execShaumAck seqs s
  | .forward seq m => Sys2Proof.Machine.execForward seq m s
  | .fwdReply seq tag poisoned result => Sys2Proof.Machine.execFwdReply seq tag poisoned result s
  | .readReq seq tag region off psa len => Sys2Proof.Machine.execReadReq seq tag region off psa len s
  | .readData seq tag data poison => Sys2Proof.Machine.execReadData seq tag data poison s
  | .promoHint seq tile => Sys2Proof.Machine.execPromoHint seq tile s
  | .tilePull seq tile => Sys2Proof.Machine.execTilePull seq tile s
  | .tileData seq tile data sectors resync => Sys2Proof.Machine.execTileData seq tile data sectors resync s
  | .ensignOffer seq region pseq => Sys2Proof.Machine.execEnsignOffer seq region pseq s
  | .ensignAccept seq region => Sys2Proof.Machine.execEnsignAccept seq region s
  | .handoffAcksDrained region => Sys2Proof.Machine.execHandoffAcksDrained region s
  | .control seq cs => Sys2Proof.Machine.execControl seq cs s
  | .cqRelay seq cq recSeq r => Sys2Proof.Machine.execCqRelay seq cq recSeq r s
  | .verify seq tile crc pseq => Sys2Proof.Machine.execVerify seq tile crc pseq s
  | .verifyReply seq tile crc pseq => Sys2Proof.Machine.execVerifyReply seq tile crc pseq s
  | .peerMbx seq h c r => Sys2Proof.Machine.execPeerMbx seq h c r s
  | .segNak msgSeq bitmap => Sys2Proof.Machine.execSegNak msgSeq bitmap s
  | .burgee tsb checkOk b => Sys2Proof.Machine.execBurgee tsb checkOk b s
  | .resyncCtl seq region pseq start pinned => Sys2Proof.Machine.execResyncCtl seq region pseq start pinned s
  | .shaumBurgeeInterval => Sys2Proof.Machine.execShaumBurgeeInterval s
  | .tsbBurgeeInterval => Sys2Proof.Machine.execTsbBurgeeInterval s
  | .fastModeExpiry => Sys2Proof.Machine.execFastModeExpiry s
  | .shaumPathSilent => Sys2Proof.Machine.execShaumPathSilent s
  | .tsbPathSilent => Sys2Proof.Machine.execTsbPathSilent s
  | .confirmationWindowExpiry => Sys2Proof.Machine.execConfirmationWindowExpiry s
  | .fenceDeferExpiry => Sys2Proof.Machine.execFenceDeferExpiry s
  | .fenceSettleExpiry => Sys2Proof.Machine.execFenceSettleExpiry s
  | .takeover => Sys2Proof.Machine.execTakeover s
  | .shaumHoldExpiry => Sys2Proof.Machine.execShaumHoldExpiry s
  | .twinFenceInAssert ns => Sys2Proof.Machine.execTwinFenceInAssert ns s
  | .twinFenceInRelease ns => Sys2Proof.Machine.execTwinFenceInRelease ns s
  | .fenceTestPulseSeen ns => Sys2Proof.Machine.execFenceTestPulseSeen ns s
  | .fenceTestPulseSend => Sys2Proof.Machine.execFenceTestPulseSend s
  | .fenceTestCheck => Sys2Proof.Machine.execFenceTestCheck s
  | .releaseLinkTimeout => Sys2Proof.Machine.execReleaseLinkTimeout s
  | .releaseDeferExpiry => Sys2Proof.Machine.execReleaseDeferExpiry s
  | .resyncTileSend region => Sys2Proof.Machine.execResyncTileSend region s
  | .revertHoldoffExpiry => Sys2Proof.Machine.execRevertHoldoffExpiry s
  | .twnCmdTakeover p => Sys2Proof.Machine.execTwnCmdTakeover p s
  | .twnCmdRelease p => Sys2Proof.Machine.execTwnCmdRelease p s
  | .twnCmdFence p => Sys2Proof.Machine.execTwnCmdFence p s
  | .watchSample tile => Sys2Proof.Machine.execWatchSample tile s
  | .watchScrubPeriod => Sys2Proof.Machine.execWatchScrubPeriod s
  | .engineSelfTest engine pass => Sys2Proof.Machine.execEngineSelfTest engine pass s
  | .healthRecord => Sys2Proof.Machine.execHealthRecord s
  | .identify inst h => Sys2Proof.Machine.execIdentify inst h s
  | .getStatus inst h => Sys2Proof.Machine.execGetStatus inst h s
  | .abort inst h => Sys2Proof.Machine.execAbort inst h s
  | .setTime inst h ns => Sys2Proof.Machine.execSetTime inst h ns s
  | .resetWarm inst h => Sys2Proof.Machine.execResetWarm inst h s
  | .plannedHandoff inst h regions toPeer => Sys2Proof.Machine.execPlannedHandoff inst h regions toPeer s
  | .setMode inst h dormant => Sys2Proof.Machine.execSetMode inst h dormant s
  | .relay inst h hc c => Sys2Proof.Machine.execRelay inst h hc c s
  | .regRead inst h off count => Sys2Proof.Machine.execRegRead inst h off count s
  | .regWrite inst h pairs => Sys2Proof.Machine.execRegWrite inst h pairs s
  | .regionCreate inst h region gib qos pref onAck dflt => Sys2Proof.Machine.execRegionCreate inst h region gib qos pref onAck dflt s
  | .regionResize inst h region gib => Sys2Proof.Machine.execRegionResize inst h region gib s
  | .regionDelete inst h region => Sys2Proof.Machine.execRegionDelete inst h region s
  | .regionSetPolicy inst h region dflt entries => Sys2Proof.Machine.execRegionSetPolicy inst h region dflt entries s
  | .regionSetAttr inst h region qos pref onAck => Sys2Proof.Machine.execRegionSetAttr inst h region qos pref onAck s
  | .regionForceOnline inst h region auth => Sys2Proof.Machine.execRegionForceOnline inst h region auth s
  | .regionInfo inst h region => Sys2Proof.Machine.execRegionInfo inst h region s
  | .ldBind inst h ld host => Sys2Proof.Machine.execLdBind inst h ld host s
  | .ldUnbind inst h ld => Sys2Proof.Machine.execLdUnbind inst h ld s
  | .setDurability inst h ld ctm => Sys2Proof.Machine.execSetDurability inst h ld ctm s
  | .extentAdd inst h ld dcRegion dpa len region rof => Sys2Proof.Machine.execExtentAdd inst h ld dcRegion dpa len region rof s
  | .extentRelease inst h ld region rof gen force => Sys2Proof.Machine.execExtentRelease inst h ld region rof gen force s
  | .notifyVector inst h ld vector source => Sys2Proof.Machine.execNotifyVector inst h ld vector source s
  | .leaseGrant inst h host cred mgmt maxQp maxMkey => Sys2Proof.Machine.execLeaseGrant inst h host cred mgmt maxQp maxMkey s
  | .leaseChange inst h host cred mgmt maxQp maxMkey => Sys2Proof.Machine.execLeaseChange inst h host cred mgmt maxQp maxMkey s
  | .leaseRevoke inst h host => Sys2Proof.Machine.execLeaseRevoke inst h host s
  | .mkeyRegisterFor inst h host region verbs tag rof va len => Sys2Proof.Machine.execMkeyRegisterFor inst h host region verbs tag rof va len s
  | .mkeyInvalidateFor inst h rkey => Sys2Proof.Machine.execMkeyInvalidateFor inst h rkey s
  | .sqCreate inst h sq host addr log2 cq limit maint => Sys2Proof.Machine.execSqCreate inst h sq host addr log2 cq limit maint s
  | .sqDelete inst h sq => Sys2Proof.Machine.execSqDelete inst h sq s
  | .sqStop inst h sq => Sys2Proof.Machine.execSqStop inst h sq s
  | .sqResume inst h sq => Sys2Proof.Machine.execSqResume inst h sq s
  | .sqReset inst h sq => Sys2Proof.Machine.execSqReset inst h sq s
  | .cqCreate inst h cq host addr log2 t0 t1 vector window => Sys2Proof.Machine.execCqCreate inst h cq host addr log2 t0 t1 vector window s
  | .cqDelete inst h cq => Sys2Proof.Machine.execCqDelete inst h cq s
  | .cqSetTarget inst h cq twin t => Sys2Proof.Machine.execCqSetTarget inst h cq twin t s
  | .twinRelease inst h => Sys2Proof.Machine.execTwinRelease inst h s
  | .twinTakeover inst h => Sys2Proof.Machine.execTwinTakeover inst h s
  | .twinRetrain inst h => Sys2Proof.Machine.execTwinRetrain inst h s
  | .scrubStart inst h first last mask rate => Sys2Proof.Machine.execScrubStart inst h first last mask rate s
  | .capTest inst h => Sys2Proof.Machine.execCapTest inst h s
  | .savePlanned inst h => Sys2Proof.Machine.execSavePlanned inst h s
  | .eventRead inst h cursor count => Sys2Proof.Machine.execEventRead inst h cursor count s
  | .eventQueueSet inst h slot qpn mask severity => Sys2Proof.Machine.execEventQueueSet inst h slot qpn mask severity s
  | .fwInfo inst h => Sys2Proof.Machine.execFwInfo inst h s
  | .fwTransferInitiate inst h slotB total => Sys2Proof.Machine.execFwTransferInitiate inst h slotB total s
  | .fwTransferContinue inst h slotB offset data => Sys2Proof.Machine.execFwTransferContinue inst h slotB offset data s
  | .fwTransferEnd inst h slotB verifies => Sys2Proof.Machine.execFwTransferEnd inst h slotB verifies s
  | .fwTransferAbort inst h slotB => Sys2Proof.Machine.execFwTransferAbort inst h slotB s
  | .fwActivateLive inst h slotB => Sys2Proof.Machine.execFwActivateLive inst h slotB s
  | .fwActivateNextReset inst h slotB => Sys2Proof.Machine.execFwActivateNextReset inst h slotB s
  | .provision inst h twin applianceId rails replace => Sys2Proof.Machine.execProvision inst h twin applianceId rails replace s
  | .jorridAccept inst h c => Sys2Proof.Machine.execJorridAccept inst h c s
  | .foregroundLimitExpiry inst => Sys2Proof.Machine.execForegroundLimitExpiry inst s
  | .jorridCommandComplete inst => Sys2Proof.Machine.execJorridCommandComplete inst s
  | .mctpEndpointIdle eid => Sys2Proof.Machine.execMctpEndpointIdle eid s
  | .liveActivationReady haltUs => Sys2Proof.Machine.execLiveActivationReady haltUs s
  | .activationTimeout => Sys2Proof.Machine.execActivationTimeout s
  | .bootConfirmTimeout => Sys2Proof.Machine.execBootConfirmTimeout s
  | .queryDeviceIdentifiers eid => Sys2Proof.Machine.execQueryDeviceIdentifiers eid s
  | .getFirmwareParameters eid => Sys2Proof.Machine.execGetFirmwareParameters eid s
  | .pldmGetStatus eid => Sys2Proof.Machine.execPldmGetStatus eid s
  | .requestUpdate eid maxTransfer => Sys2Proof.Machine.execRequestUpdate eid maxTransfer s
  | .passComponentTable eid version => Sys2Proof.Machine.execPassComponentTable eid version s
  | .updateComponent eid slotB total => Sys2Proof.Machine.execUpdateComponent eid slotB total s
  | .cancelUpdateComponent eid => Sys2Proof.Machine.execCancelUpdateComponent eid s
  | .cancelUpdate eid => Sys2Proof.Machine.execCancelUpdate eid s
  | .requestFirmwareData eid data => Sys2Proof.Machine.execRequestFirmwareData eid data s
  | .transferComplete eid => Sys2Proof.Machine.execTransferComplete eid s
  | .verifyComplete eid verifies => Sys2Proof.Machine.execVerifyComplete eid verifies s
  | .applyComplete eid => Sys2Proof.Machine.execApplyComplete eid s
  | .activateFirmware eid selfContained => Sys2Proof.Machine.execActivateFirmware eid selfContained s
  | .bootRomStart stepA stepB rootUsed bootSel testEn => Sys2Proof.Machine.execBootRomStart stepA stepB rootUsed bootSel testEn s
  | .debugToken valid rma => Sys2Proof.Machine.execDebugToken valid rma s
  | .pinControlScanLoad instruction => Sys2Proof.Machine.execPinControlScanLoad instruction s
  | .secArbAdvance p svn => Sys2Proof.Machine.execSecArbAdvance p svn s
  | .entropyFail passes => Sys2Proof.Machine.execEntropyFail passes s
  | .getVersion q => Sys2Proof.Machine.execGetVersion q s
  | .getCapabilities q dataXfer => Sys2Proof.Machine.execGetCapabilities q dataXfer s
  | .negotiateAlgorithms q supported => Sys2Proof.Machine.execNegotiateAlgorithms q supported s
  | .getDigests q => Sys2Proof.Machine.execGetDigests q s
  | .getCertificate q slot off len => Sys2Proof.Machine.execGetCertificate q slot off len s
  | .challenge q slot nonce => Sys2Proof.Machine.execChallenge q slot nonce s
  | .getMeasurements q index nonce signed => Sys2Proof.Machine.execGetMeasurements q index nonce signed s
  | .chunkSend q chunk data last => Sys2Proof.Machine.execChunkSend q chunk data last s
  | .chunkGet q handle chunk => Sys2Proof.Machine.execChunkGet q handle chunk s
  | .eflUnlock p key => Sys2Proof.Machine.execEflUnlock p key s
  | .unlockDeadline => Sys2Proof.Machine.execUnlockDeadline s
  | .eflProgram p addr data => Sys2Proof.Machine.execEflProgram p addr data s
  | .eflErase p addr => Sys2Proof.Machine.execEflErase p addr s
  | .eflSuspend p => Sys2Proof.Machine.execEflSuspend p s
  | .eflResume p => Sys2Proof.Machine.execEflResume p s
  | .eflProgramDone => Sys2Proof.Machine.execEflProgramDone s
  | .eflErasePulseDone verified => Sys2Proof.Machine.execEflErasePulseDone verified s
  | .eflEraseDone => Sys2Proof.Machine.execEflEraseDone s
  | .eflAutoResume => Sys2Proof.Machine.execEflAutoResume s
  | .eflBlockScan => Sys2Proof.Machine.execEflBlockScan s
  | .aonBrownout => Sys2Proof.Machine.execAonBrownout s
  | .evrRecordWrite => Sys2Proof.Machine.execEvrRecordWrite s
  | .evrSubmit p p3 => Sys2Proof.Machine.execEvrSubmit p p3 s
  | .eventNotice queue => Sys2Proof.Machine.execEventNotice queue s
  | .pwrOkInRise => Sys2Proof.Machine.execPwrOkInRise s
  | .railVisit rail reading pg transitions => Sys2Proof.Machine.execRailVisit rail reading pg transitions s
  | .qualTimeout rail => Sys2Proof.Machine.execQualTimeout rail s
  | .pwsCtlUp p => Sys2Proof.Machine.execPwsCtlUp p s
  | .groupDelayExpiry group => Sys2Proof.Machine.execGroupDelayExpiry group s
  | .railRetryExpiry rail => Sys2Proof.Machine.execRailRetryExpiry rail s
  | .retryCountReset rail => Sys2Proof.Machine.execRetryCountReset rail s
  | .inputLoss okLow => Sys2Proof.Machine.execInputLoss okLow s
  | .dischargeTimeout rail => Sys2Proof.Machine.execDischargeTimeout rail s
  | .restartHoldExpiry => Sys2Proof.Machine.execRestartHoldExpiry s
  | .resetNAssert ns => Sys2Proof.Machine.execResetNAssert ns s
  | .warmResetDrainEnd => Sys2Proof.Machine.execWarmResetDrainEnd s
  | .warmResetOverrun => Sys2Proof.Machine.execWarmResetOverrun s
  | .quietEnter p => Sys2Proof.Machine.execQuietEnter p s
  | .quietWake p => Sys2Proof.Machine.execQuietWake p s
  | .wakeTrigger c => Sys2Proof.Machine.execWakeTrigger c s
  | .wakeComplete tenthUs => Sys2Proof.Machine.execWakeComplete tenthUs s
  | .mgtBlockWrite cmd count destEid srcEid tag pktSeq som eom pecOk data => Sys2Proof.Machine.execMgtBlockWrite cmd count destEid srcEid tag pktSeq som eom pecOk data s
  | .mgtBlockRead completed => Sys2Proof.Machine.execMgtBlockRead completed s
  | .alertResponseRead won => Sys2Proof.Machine.execAlertResponseRead won s
  | .alertReassert => Sys2Proof.Machine.execAlertReassert s
  | .mgtProtocolError inAck => Sys2Proof.Machine.execMgtProtocolError inAck s
  | .mgtClkLowTimeout => Sys2Proof.Machine.execMgtClkLowTimeout s
  | .mgtDataLowTimeout => Sys2Proof.Machine.execMgtDataLowTimeout s
  | .setEndpointId srcEid eid => Sys2Proof.Machine.execSetEndpointId srcEid eid s
  | .getEndpointId srcEid => Sys2Proof.Machine.execGetEndpointId srcEid s
  | .getMctpVersionSupport srcEid => Sys2Proof.Machine.execGetMctpVersionSupport srcEid s
  | .getMessageTypeSupport srcEid => Sys2Proof.Machine.execGetMessageTypeSupport srcEid s
  | .getVendorDefinedMessageSupport srcEid => Sys2Proof.Machine.execGetVendorDefinedMessageSupport srcEid s
  | .psbGo p val => Sys2Proof.Machine.execPsbGo p val s
  | .psbTransactionDone r cleared => Sys2Proof.Machine.execPsbTransactionDone r cleared s
  | .psbReset p cleared stuck => Sys2Proof.Machine.execPsbReset p cleared stuck s
  | .psbSdaStuckRetry port cleared => Sys2Proof.Machine.execPsbSdaStuckRetry port cleared s
  | .psbClkLowTimeout sda => Sys2Proof.Machine.execPsbClkLowTimeout sda s
  | .meshParityError link replays ok lost => Sys2Proof.Machine.execMeshParityError link replays ok lost s
  | .meshLinkDegraded link => Sys2Proof.Machine.execMeshLinkDegraded link s
  | .engineIstoreParity engine within1s => Sys2Proof.Machine.execEngineIstoreParity engine within1s s
  | .engineReloadDone engine => Sys2Proof.Machine.execEngineReloadDone engine s
  | .sramDescriptorError word => Sys2Proof.Machine.execSramDescriptorError word s
  | .ccMemUncorrectable => Sys2Proof.Machine.execCcMemUncorrectable s
  | .errorRateWindow => Sys2Proof.Machine.execErrorRateWindow s
  | .bar2Read ld tag off size => Sys2Proof.Machine.execBar2Read ld tag off size s
  | .bar2Write ld off size data => Sys2Proof.Machine.execBar2Write ld off size data s
  | .lapStagedApply => Sys2Proof.Machine.execLapStagedApply s
  | .lapCommitRead p => Sys2Proof.Machine.execLapCommitRead p s
  | .lapCommitReturn => Sys2Proof.Machine.execLapCommitReturn s
  | .lapDrainReq p => Sys2Proof.Machine.execLapDrainReq p s
  | .lapDrainClear p => Sys2Proof.Machine.execLapDrainClear p s
  | .lapBaseWrite p val => Sys2Proof.Machine.execLapBaseWrite p val s
  | .aonBrownoutClear => Sys2Proof.Machine.execAonBrownoutClear s
  | .aonReset addrSel => Sys2Proof.Machine.execAonReset addrSel s
  | .cxlHostConnected port link => Sys2Proof.Machine.execCxlHostConnected port link s
  | .fecUncorr port => Sys2Proof.Machine.execFecUncorr port s

end Sys2Proof.Machine
end

