-- ==== Sys2Proof/WellFormed.lean ====
section
/-! DEFINITION. Well-formed commands: every operand fits the width that the spec gives it, and data has the length of its
command. The machine is total on ill-formed commands too; what arrives from the outside is well formed. -/

namespace Sys2Proof

/-- A number of at most `w` bits. -/
def fits (w n : Nat) : Bool := decide (n < 2 ^ w)

/-- A length of at least 1 and at most `n`. -/
def upTo (n len : Nat) : Bool := decide (1 ≤ len) && decide (len ≤ n)

/-- The fields of a Jorrid header (R501). -/
def JHdr.wf (h : JHdr) : Bool := fits 32 h.seq && fits 16 h.tag

/-- The fields of a received packet (R147). -/
def PktHdr.wf (h : PktHdr) : Bool := fits 24 h.qpn && fits 24 h.psn && fits 64 h.counter && fits 14 h.bytes
  && fits 6 h.dscp && fits 8 h.version

/-- The header of a control message (R143). -/
def WcmHdr.wf (w : WcmHdr) : Bool := fits 32 w.tag && fits 16 w.length && fits 8 w.version

/-- The fields of a connection request (R140). -/
def ConnReq.wf (r : ConnReq) : Bool :=
  fits 64 r.serviceId && fits 8 r.version && fits 8 r.service && fits 16 r.host && fits 8 r.qos && fits 24 r.hostQpn
    && fits 16 r.pmtu && fits 24 r.psn && fits 128 r.gid

/-- What a packet carries under its tag (R147, R156). -/
def Verb.wf : Verb → Bool
  | .write k va _ => fits 32 k && fits 64 va
  | .writeImm k va _ imm => fits 32 k && fits 64 va && fits 32 imm
  | .read k va n => fits 32 k && fits 64 va && fits 32 n
  | .fetchAdd k va n => fits 32 k && fits 64 va && fits 64 n
  | .compareSwap k va c n => fits 32 k && fits 64 va && fits 64 c && fits 64 n
  | .atomicWrite k va d => fits 32 k && fits 64 va && d.length == 8
  | .flush k va n _ => fits 32 k && fits 64 va && fits 32 n
  | .keepalive w => w.wf
  | .wcm type => fits 8 type
  | .writeFirst k va n _ => fits 32 k && fits 64 va && fits 32 n
  | .writeMid _ => true
  | .writeLast _ imm => match imm with
    | some v => fits 32 v
    | none => true
  | .other op => fits 8 op

/-- The header of a Shaum segment (R444): the last segment carries the rest of the message, the others 2,048 bytes
(R445). -/
def SegHdr.wf (h : SegHdr) : Bool :=
  fits 8 h.type && upTo 2048 h.segLen && upTo 66560 h.msgLen && fits 48 h.msgSeq && fits 16 h.epoch && fits 64 h.counter && fits 8 h.version && fits 24 h.keySel
    && h.segOffset % 2048 == 0 && decide (h.segOffset < h.msgLen) && h.segCount == (h.msgLen + 2047) / 2048
    && h.segLen == min 2048 (h.msgLen - h.segOffset)

/-- The body of a MIRROR message (R450). -/
def MirrorMsg.wf (m : MirrorMsg) : Bool :=
  fits 12 m.region && fits 16 m.host && fits 16 m.entryTag && fits 64 m.pseq && fits 47 m.psa && upTo 65536 m.data.length
    && fits 32 m.reqId && fits 64 m.result

/-- The request that a FORWARD message carries (R452). -/
def FwdMsg.wf (m : FwdMsg) : Bool :=
  fits 16 m.tag && fits 16 m.host && fits 12 m.region && fits 47 m.off && fits 47 m.psa && fits 32 m.reqId

/-- A well-formed command. -/
def Instr.wf : Instr → Bool
  | .registerWrite _ off size val => fits 64 off && fits 7 size && fits 64 val
  | .registerHiWrite _ off _ => fits 64 off
  | .registerLoRead _ off => fits 64 off
  | .rcCounterRead _ off _ => fits 64 off
  | .w1cFlagClear _ off _ _ _ => fits 64 off
  | .badRegisterAccess _ _ off size => fits 64 off && fits 7 size
  | .gatedIslandAccess _ _ off _ => fits 64 off
  | .glbRgnSel _ _ => true
  | .tqmSqSel _ _ => true
  | .tqmCqSel _ _ => true
  | .plcRgnSel _ _ => true
  | .plcTileSel _ _ => true
  | .fmcSetSel _ _ => true
  | .secRgnKeySel _ _ => true
  | .eflBlockSel _ _ => true
  | .eflRaddr _ _ => true
  | .evrWindowRead _ _ => true
  | .cxlLinkEnable _ _ _ => true
  | .cxlLinkTrained _ _ _ _ _ => true
  | .cxlLinkDown _ _ => true
  | .cxlLinkRecovery _ _ => true
  | .cxlLinkDownHoldExpiry _ _ => true
  | .departureHoldExpiry _ => true
  | .l0pNarrowRequest _ _ => true
  | .l0pWidenRequest _ _ => true
  | .l0pHostRequest _ _ _ => true
  | .aspmL1Entry _ _ _ => true
  | .aspmL1Exit _ _ => true
  | .cxlMemEnable _ => true
  | .cxlMemrd _ tag dpa _ => fits 16 tag && fits 64 dpa
  | .cxlMemwr _ tag dpa data _ => fits 16 tag && fits 64 dpa && data.length == 64
  | .cxlFlr _ => true
  | .cxlHotReset _ _ => true
  | .flrDone _ => true
  | .persistBarrierRead _ => true
  | .persistBarrierReturn _ => true
  | .gpfPhase1 _ _ => true
  | .gpfPhase2 _ _ => true
  | .gpfPhase2Complete _ _ ns => fits 64 ns
  | .getLdInfo _ => true
  | .getLdAllocations _ => true
  | .setLdAllocations _ _ _ alloc => fits 32 alloc
  | .getQosControl _ => true
  | .setQosControl _ _ _ _ _ => true
  | .fmExtentAdd _ _ dpa len region rof => fits 64 dpa && fits 64 len && fits 12 region && fits 47 rof
  | .fmExtentRelease _ region rof gen _ => fits 12 region && fits 47 rof && fits 32 gen
  | .dcResponseTimeout _ => true
  | .extentRemovalDrained _ => true
  | .getEventRecords _ _ => true
  | .clearEventRecords _ _ _ _ => true
  | .getEventInterruptPolicy _ => true
  | .setEventInterruptPolicy _ policy => fits 32 policy
  | .getSupportedLogs _ => true
  | .getLog _ _ off len => fits 64 off && fits 64 len
  | .identifyMemoryDevice _ => true
  | .getPartitionInfo _ => true
  | .getFwInfo _ => true
  | .transferFw _ _ _ _ _ data _ => upTo 4080 data.length
  | .activateFw _ _ _ => true
  | .getPoisonList _ dpa len => fits 64 dpa && fits 64 len
  | .injectPoison _ dpa => fits 64 dpa
  | .clearPoison _ dpa data => fits 64 dpa && data.length == 64
  | .getDynamicCapacityConfiguration _ => true
  | .getDynamicCapacityExtentList _ => true
  | .addDynamicCapacityResponse _ _ => true
  | .releaseDynamicCapacity _ dpa len => fits 64 dpa && fits 64 len
  | .getTimestamp _ => true
  | .setTimestamp _ ns => fits 64 ns
  | .jorridVendorOpcode _ h _ => h.wf
  | .cxlMbxUnsupported _ opcode => fits 16 opcode
  | .netLinkUp _ => true
  | .netLinkDown _ => true
  | .pfcFrameReceived _ _ _ => true
  | .pfcXoffRepeat => true
  | .pauseStorm _ _ => true
  | .cnpReceived qpn => fits 24 qpn
  | .rateIncreaseTick qpn => fits 24 qpn
  | .lldpTransmit _ => true
  | .lldpReceived _ _ => true
  | .rocePacketReceive h v => h.wf && v.wf
  | .sendCounterLimit qpn => fits 24 qpn
  | .cmReq r => r.wf
  | .cmRtu qpn => fits 24 qpn
  | .cmRej qpn => fits 24 qpn
  | .cmMra qpn => fits 24 qpn
  | .cmDreq qpn _ => fits 24 qpn
  | .cmDrep qpn => fits 24 qpn
  | .cmTimeout qpn => fits 24 qpn
  | .drainingTimeout qpn => fits 24 qpn
  | .errorTimeout qpn => fits 24 qpn
  | .quarantineEnd _ _ => true
  | .keyHello qpn w host suite nonce ek => fits 24 qpn && w.wf && fits 16 host && fits 16 suite && fits 256 nonce && fits 9472 ek
  | .keyConfirm qpn w pk sig _ => fits 24 qpn && w.wf && fits 15616 pk && fits 26472 sig
  | .certRequest qpn w => fits 24 qpn && w.wf
  | .keyingTimeout qpn => fits 24 qpn
  | .rdmaWrite qpn psn rkey va _ => fits 24 qpn && fits 24 psn && fits 32 rkey && fits 64 va
  | .rdmaWriteImm qpn psn rkey va _ imm => fits 24 qpn && fits 24 psn && fits 32 rkey && fits 64 va && fits 32 imm
  | .rdmaRead qpn psn rkey va len => fits 24 qpn && fits 24 psn && fits 32 rkey && fits 64 va && fits 64 len
  | .atomicFetchAdd qpn psn rkey va _ => fits 24 qpn && fits 24 psn && fits 32 rkey && fits 64 va
  | .atomicCompareSwap qpn psn rkey va _ _ => fits 24 qpn && fits 24 psn && fits 32 rkey && fits 64 va
  | .atomicWrite qpn psn rkey va _ => fits 24 qpn && fits 24 psn && fits 32 rkey && fits 64 va
  | .rdmaFlush qpn psn rkey va len _ => fits 24 qpn && fits 24 psn && fits 32 rkey && fits 64 va && fits 64 len
  | .flushResponse qpn psn => fits 24 qpn && fits 24 psn
  | .keepalive qpn psn w => fits 24 qpn && fits 24 psn && w.wf
  | .mkeyRegister qpn psn w region verbs tag rof va len => fits 24 qpn && fits 24 psn && w.wf && fits 12 region && fits 16 verbs && fits 8 tag && fits 47 rof && fits 64 va && fits 64 len
  | .mkeyInvalidate qpn psn w rkey => fits 24 qpn && fits 24 psn && w.wf && fits 32 rkey
  | .wcmJorrid qpn psn w h _ => fits 24 qpn && fits 24 psn && w.wf && h.wf
  | .leaseLapse host => fits 16 host
  | .leaseRecordFree host => fits 16 host
  | .requesterAckTimeout qpn => fits 24 qpn
  | .requesterAckReceived qpn => fits 24 qpn
  | .sqDoorbell _ => true
  | .tqmDoorbell _ _ => true
  | .fetchResume => true
  | .tqCopy _ _ => true
  | .tqFill _ _ => true
  | .tqPersistNotify _ _ => true
  | .tqCrcCheck _ _ => true
  | .tqPrefetch _ _ => true
  | .tqPin _ _ => true
  | .tqUnpin _ _ => true
  | .tqSanitize _ _ => true
  | .tqFormat _ _ => true
  | .sanitizePhaseComplete _ => true
  | .formatStepComplete _ => true
  | .sanitizeFormatResume _ => true
  | .tqCommandComplete _ _ => true
  | .cqConsAdvance _ => true
  | .notifyCoalesceExpiry _ => true
  | .crcFwLoad _ => true
  | .crcFwData32 _ _ => true
  | .crcFwData8 _ _ => true
  | .promotionSwitch tile _ => fits 35 tile
  | .promoWaitOver tile => fits 35 tile
  | .promotionQueueServe => true
  | .frameSweepVisit => true
  | .evictionCapSecond => true
  | .evictionSwitch tile => fits 35 tile
  | .relocationSwitch tile => fits 35 tile
  | .mapSweepRead => true
  | .decayPeriod => true
  | .saveAreaDrain => true
  | .tmcFill _ _ => true
  | .mapAudit => true
  | .hlcFillComplete tile _ _ _ _ => fits 35 tile
  | .hlcEvbWriteComplete tile _ => fits 35 tile
  | .hlcClean tile _ => fits 35 tile
  | .hlcWritebackDone tile _ _ => fits 35 tile
  | .hlcMaintWriteback _ _ => true
  | .hlcMaintWbInval _ _ => true
  | .hlcMaintComplete => true
  | .tagSetScanDone _ _ => true
  | .dmcAlert _ _ _ => true
  | .retrainDue _ => true
  | .mr4Poll _ _ _ => true
  | .oscTracking _ _ => true
  | .refreshDue _ _ => true
  | .rfmDue _ _ => true
  | .bankIdleExpiry _ _ => true
  | .requestAgeTarget _ _ _ => true
  | .dmcSelfRefreshEnter _ => true
  | .dmcSelfRefreshExit _ => true
  | .dmcTrainFull _ _ => true
  | .dmcTrainStored _ _ => true
  | .dmcTrainRows _ _ => true
  | .dmcTrainingDone _ _ => true
  | .chiveEnable _ _ _ => true
  | .chiveDisable _ _ _ => true
  | .chiveCopyDone _ => true
  | .chiveCandidate _ _ => true
  | .scrubGo _ _ _ => true
  | .scrubStop _ => true
  | .scrubPassEnd _ _ _ _ => true
  | .flashReadDecode _ _ _ => true
  | .flashPatrol _ _ _ => true
  | .suspendWaitExpiry _ => true
  | .programFlushTimer _ => true
  | .programUnitDone _ _ _ => true
  | .flashEraseDone _ _ _ _ => true
  | .saveRegionResize _ => true
  | .flashGeometryDiscovery _ _ _ _ _ _ _ _ _ _ => true
  | .meterSample _ _ => true
  | .ledgerRecompute => true
  | .catchupExpiry => true
  | .moduleTempRead => true
  | .capTestPeriod => true
  | .elgCmdTest _ => true
  | .capTestDropReached _ _ _ _ => true
  | .capTestTimeout => true
  | .capTestRetry => true
  | .saveRateProbe _ _ _ => true
  | .elgReserveWrite _ _ => true
  | .elgTestCfgWrite _ _ => true
  | .elgSaveCfgWrite _ _ => true
  | .holdFail _ => true
  | .elgCmdSave _ => true
  | .saveDrainEnd => true
  | .sagePhaseEnd _ => true
  | .saveFinalEnergy => true
  | .restore _ _ => true
  | .regionAdmit _ => true
  | .peerWaitExpiry => true
  | .haltedPeerAdmission _ _ => true
  | .shaumLinkEnable _ _ => true
  | .laneGroupTrained _ => true
  | .laneGroupDown _ => true
  | .laneGroupRetry _ => true
  | .linkTrainingTimeout => true
  | .linkHello p nonce ek _ => fits 64 p.id && fits 8 p.fwMajor && fits 256 nonce && fits 9472 ek
  | .linkReply p nonce ct sig _ => fits 64 p.id && fits 8 p.fwMajor && fits 256 nonce && fits 8704 ct && fits 26472 sig
  | .linkConfirm sig _ => fits 26472 sig
  | .linkFail => true
  | .twnCmdRetrain _ => true
  | .shaumSegmentReceive _ h _ _ _ => h.wf
  | .reassemblyTimerExpiry seq => fits 48 seq
  | .messageResendTimeout seq => fits 48 seq
  | .shaumCounterLimit _ => true
  | .mirror seq m => fits 48 seq && m.wf
  | .shaumAck seqs => upTo 63 seqs.length && seqs.all (fits 48)
  | .forward seq m => fits 48 seq && m.wf
  | .fwdReply seq tag _ _ => fits 48 seq && fits 16 tag
  | .readReq seq tag region off psa len => fits 48 seq && fits 16 tag && fits 12 region && fits 64 off && fits 47 psa && fits 64 len
  | .readData seq tag data _ => fits 48 seq && fits 16 tag && upTo 65536 data.length
  | .promoHint seq tile => fits 48 seq && fits 35 tile
  | .tilePull seq tile => fits 48 seq && fits 35 tile
  | .tileData seq tile data sectors _ => fits 48 seq && fits 35 tile && data.length == 4096 && sectors.length == 64
  | .ensignOffer seq region pseq => fits 48 seq && fits 12 region && fits 64 pseq
  | .ensignAccept seq region => fits 48 seq && fits 12 region
  | .handoffAcksDrained _ => true
  | .control seq _ => fits 48 seq
  | .cqRelay seq cq recSeq _ => fits 48 seq && fits 12 cq && fits 64 recSeq
  | .verify seq tile crc pseq => fits 48 seq && fits 35 tile && fits 32 crc && fits 64 pseq
  | .verifyReply seq tile crc pseq => fits 48 seq && fits 35 tile && fits 32 crc && fits 64 pseq
  | .peerMbx seq h _ _ => fits 48 seq && h.wf
  | .segNak msgSeq bitmap => fits 48 msgSeq && fits 64 bitmap
  | .burgee _ _ _ => true
  | .resyncCtl seq region pseq _ _ => fits 48 seq && fits 12 region && fits 64 pseq
  | .shaumBurgeeInterval => true
  | .tsbBurgeeInterval => true
  | .fastModeExpiry => true
  | .shaumPathSilent => true
  | .tsbPathSilent => true
  | .confirmationWindowExpiry => true
  | .fenceDeferExpiry => true
  | .fenceSettleExpiry => true
  | .takeover => true
  | .shaumHoldExpiry => true
  | .twinFenceInAssert _ => true
  | .twinFenceInRelease _ => true
  | .fenceTestPulseSeen _ => true
  | .fenceTestPulseSend => true
  | .fenceTestCheck => true
  | .releaseLinkTimeout => true
  | .releaseDeferExpiry => true
  | .resyncTileSend _ => true
  | .revertHoldoffExpiry => true
  | .twnCmdTakeover _ => true
  | .twnCmdRelease _ => true
  | .twnCmdFence _ => true
  | .watchSample tile => fits 35 tile
  | .watchScrubPeriod => true
  | .engineSelfTest _ _ => true
  | .healthRecord => true
  | .identify _ h => h.wf
  | .getStatus _ h => h.wf
  | .abort _ h => h.wf
  | .setTime _ h ns => h.wf && fits 64 ns
  | .resetWarm _ h => h.wf
  | .plannedHandoff _ h _ _ => h.wf
  | .setMode _ h _ => h.wf
  | .relay _ h hc _ => h.wf && hc.wf
  | .regRead _ h off count => h.wf && fits 64 off && fits 16 count
  | .regWrite _ h _ => h.wf
  | .regionCreate _ h region _ qos _ _ _ => h.wf && fits 12 region && fits 4 qos
  | .regionResize _ h region _ => h.wf && fits 12 region
  | .regionDelete _ h region => h.wf && fits 12 region
  | .regionSetPolicy _ h region _ _ => h.wf && fits 12 region
  | .regionSetAttr _ h region qos _ _ => h.wf && fits 12 region && fits 4 qos
  | .regionForceOnline _ h region _ => h.wf && fits 12 region
  | .regionInfo _ h region => h.wf && fits 12 region
  | .ldBind _ h ld host => h.wf && fits 5 ld && fits 16 host
  | .ldUnbind _ h ld => h.wf && fits 5 ld
  | .setDurability _ h ld _ => h.wf && fits 5 ld
  | .extentAdd _ h ld dcRegion dpa len region rof => h.wf && fits 5 ld && fits 3 dcRegion && fits 64 dpa && fits 64 len && fits 12 region && fits 47 rof
  | .extentRelease _ h ld region rof gen _ => h.wf && fits 5 ld && fits 12 region && fits 47 rof && fits 32 gen
  | .notifyVector _ h ld vector _ => h.wf && fits 5 ld && fits 16 vector
  | .leaseGrant _ h host _ _ _ _ => h.wf && fits 16 host
  | .leaseChange _ h host _ _ _ _ => h.wf && fits 16 host
  | .leaseRevoke _ h host => h.wf && fits 16 host
  | .mkeyRegisterFor _ h host region verbs tag rof va len => h.wf && fits 16 host && fits 12 region && fits 16 verbs && fits 8 tag && fits 47 rof && fits 64 va && fits 64 len
  | .mkeyInvalidateFor _ h rkey => h.wf && fits 32 rkey
  | .sqCreate _ h sq host addr log2 cq _ _ => h.wf && fits 12 sq && fits 16 host && fits 64 addr && fits 8 log2 && fits 12 cq
  | .sqDelete _ h sq => h.wf && fits 12 sq
  | .sqStop _ h sq => h.wf && fits 12 sq
  | .sqResume _ h sq => h.wf && fits 12 sq
  | .sqReset _ h sq => h.wf && fits 12 sq
  | .cqCreate _ h cq host addr log2 _ _ vector _ => h.wf && fits 12 cq && fits 16 host && fits 64 addr && fits 8 log2 && fits 16 vector
  | .cqDelete _ h cq => h.wf && fits 12 cq
  | .cqSetTarget _ h cq _ _ => h.wf && fits 12 cq
  | .twinRelease _ h => h.wf
  | .twinTakeover _ h => h.wf
  | .twinRetrain _ h => h.wf
  | .scrubStart _ h _ _ _ _ => h.wf
  | .capTest _ h => h.wf
  | .savePlanned _ h => h.wf
  | .eventRead _ h _ count => h.wf && fits 16 count
  | .eventQueueSet _ h slot qpn _ _ => h.wf && fits 8 slot && fits 24 qpn
  | .fwInfo _ h => h.wf
  | .fwTransferInitiate _ h _ _ => h.wf
  | .fwTransferContinue _ h _ _ data => h.wf && upTo 4080 data.length
  | .fwTransferEnd _ h _ _ => h.wf
  | .fwTransferAbort _ h _ => h.wf
  | .fwActivateLive _ h _ => h.wf
  | .fwActivateNextReset _ h _ => h.wf
  | .provision _ h _ applianceId _ _ => h.wf && fits 64 applianceId
  | .jorridAccept _ h _ => h.wf
  | .foregroundLimitExpiry _ => true
  | .jorridCommandComplete _ => true
  | .mctpEndpointIdle eid => fits 8 eid
  | .liveActivationReady _ => true
  | .activationTimeout => true
  | .bootConfirmTimeout => true
  | .queryDeviceIdentifiers eid => fits 8 eid
  | .getFirmwareParameters eid => fits 8 eid
  | .pldmGetStatus eid => fits 8 eid
  | .requestUpdate eid _ => fits 8 eid
  | .passComponentTable eid version => fits 8 eid && fits 32 version
  | .updateComponent eid _ _ => fits 8 eid
  | .cancelUpdateComponent eid => fits 8 eid
  | .cancelUpdate eid => fits 8 eid
  | .requestFirmwareData eid _ => fits 8 eid
  | .transferComplete eid => fits 8 eid
  | .verifyComplete eid _ => fits 8 eid
  | .applyComplete eid => fits 8 eid
  | .activateFirmware eid _ => fits 8 eid
  | .bootRomStart _ _ _ _ _ => true
  | .debugToken _ _ => true
  | .pinControlScanLoad _ => true
  | .secArbAdvance _ svn => fits 8 svn
  | .entropyFail _ => true
  | .getVersion _ => true
  | .getCapabilities _ _ => true
  | .negotiateAlgorithms _ _ => true
  | .getDigests _ => true
  | .getCertificate _ slot off len => fits 8 slot && fits 64 off && fits 64 len
  | .challenge _ slot nonce => fits 8 slot && fits 256 nonce
  | .getMeasurements _ _ nonce _ => fits 256 nonce
  | .chunkSend _ _ _ _ => true
  | .chunkGet _ _ _ => true
  | .eflUnlock _ _ => true
  | .unlockDeadline => true
  | .eflProgram _ _ _ => true
  | .eflErase _ _ => true
  | .eflSuspend _ => true
  | .eflResume _ => true
  | .eflProgramDone => true
  | .eflErasePulseDone _ => true
  | .eflEraseDone => true
  | .eflAutoResume => true
  | .eflBlockScan => true
  | .aonBrownout => true
  | .evrRecordWrite => true
  | .evrSubmit _ _ => true
  | .eventNotice _ => true
  | .pwrOkInRise => true
  | .railVisit _ _ _ _ => true
  | .qualTimeout _ => true
  | .pwsCtlUp _ => true
  | .groupDelayExpiry _ => true
  | .railRetryExpiry _ => true
  | .retryCountReset _ => true
  | .inputLoss _ => true
  | .dischargeTimeout _ => true
  | .restartHoldExpiry => true
  | .resetNAssert ns => fits 64 ns
  | .warmResetDrainEnd => true
  | .warmResetOverrun => true
  | .quietEnter _ => true
  | .quietWake _ => true
  | .wakeTrigger _ => true
  | .wakeComplete _ => true
  | .mgtBlockWrite cmd count destEid srcEid tag pktSeq _ _ _ data => fits 8 cmd && fits 16 count && fits 8 destEid && fits 8 srcEid && fits 16 tag && fits 8 pktSeq && upTo 69 data.length
  | .mgtBlockRead _ => true
  | .alertResponseRead _ => true
  | .alertReassert => true
  | .mgtProtocolError _ => true
  | .mgtClkLowTimeout => true
  | .mgtDataLowTimeout => true
  | .setEndpointId srcEid eid => fits 8 srcEid && fits 8 eid
  | .getEndpointId srcEid => fits 8 srcEid
  | .getMctpVersionSupport srcEid => fits 8 srcEid
  | .getMessageTypeSupport srcEid => fits 8 srcEid
  | .getVendorDefinedMessageSupport srcEid => fits 8 srcEid
  | .psbGo _ _ => true
  | .psbTransactionDone _ _ => true
  | .psbReset _ _ _ => true
  | .psbSdaStuckRetry _ _ => true
  | .psbClkLowTimeout _ => true
  | .meshParityError _ _ _ _ => true
  | .meshLinkDegraded _ => true
  | .engineIstoreParity _ _ => true
  | .engineReloadDone _ => true
  | .sramDescriptorError _ => true
  | .ccMemUncorrectable => true
  | .errorRateWindow => true
  | .bar2Read _ tag off size => fits 16 tag && fits 64 off && fits 7 size
  | .bar2Write _ off size _ => fits 64 off && fits 7 size
  | .lapStagedApply => true
  | .lapCommitRead _ => true
  | .lapCommitReturn => true
  | .lapDrainReq _ => true
  | .lapDrainClear _ => true
  | .lapBaseWrite _ _ => true
  | .aonBrownoutClear => true
  | .aonReset _ => true
  | .cxlHostConnected _ _ => true
  | .fecUncorr _ => true

end Sys2Proof
end

