-- ==== Sys2Proof/Safety.lean ====
section
/-! DEFINITION. What counts as a sound state and a safe run: memory in its canonical form, here and in every save image,
and commands that complete. -/

namespace Sys2Proof.Machine

/-- Every image that a save-outcome record names holds canonical memory (R417, R421). -/
def slotsOk (l : Tbl SaveRec) : Bool :=
  l.all fun e => match e.2.image with
    | some i => memWf i.mem
    | none => true

/-- Memory holds its canonical form: addresses strictly rise, and no byte equal to what an unlisted one reads as is
listed; the same holds of the memory in every save image. -/
def State.memoryOk (s : State) : Prop := memWf s.mem = true ∧ slotsOk s.elg.slots = true

/-- A command completes in a state: it answers a next state, no fault and no refusal. -/
def Completes (c : Instr) (s : State) : Prop := ∃ t, exec c s = .next t

/-- A run of `n` steps, to the end of the commands that wait or beyond. -/
def run : Nat → State → Host.Outcome State Fault Refusal
  | 0, s => .next s
  | n + 1, s => match step s with
    | .next t => run n t
    | .fault r => .fault r
    | .refused r => .refused r

/-- A safe run: `n` steps end in a next state. -/
def SafeRun (n : Nat) (s : State) : Prop := ∃ t, run n s = .next t

/-- A register that a path reaches and that answers now: path and register exist, the chip is awake and its island runs (R3,
R58, R61, R612). -/
def State.serves (s : State) (p : RegPath) (off : Nat) (d : RegDesc) : Prop :=
  s.hasPath p = true ∧ s.reaches p off = true ∧ s.absent off = false ∧ descAt off = some d ∧ s.isl.quiet = .awake ∧ s.gated (islandOf off) = false

/-- An offset that the register table holds as a register of its own value: no selector, cursor or snapshot, and none of
the four whose write has a rule of its own (R403, R414, R685). -/
def plainOff (off : Nat) : Prop := off ∉ ownRegs ∧ off ∉ [Reg.elgReserve, Reg.elgTestCfg, Reg.elgSaveCfg, Reg.lapBase]

/-- An offset whose write does nothing beside storing the value. -/
def noAction (off : Nat) : Prop := ∀ (s : State) (old new val : Word), s.writeFx off old new val = s

/-- A command register at its reset value that takes a write now: the chip is awake and its island runs. -/
def State.cmdReady (s : State) (off : Nat) : Prop :=
  s.isl.quiet = .awake ∧ s.gated (islandOf off) = false ∧ s.regs.get? off = none

/-- A packet of a QP goes out at once: the Ethernet GCM pipelines run, its priority is not paused, and none waits before it
(R128, R557). -/
def State.sendsNow (s : State) (q : Qp) : Prop :=
  s.bit Reg.secCtl 0 = true ∧ s.paused q.port (s.prioOf q) = false ∧ (s.port q.port).txq.getD (s.prioOf q) [] = []

/-- A message of the peer that this twin acts on now: the link is UP, the chip is awake, and its MSG_SEQ is not among those
acted on (R447). -/
def State.hears (s : State) (seq : Nat) : Prop :=
  s.linkIsUp = true ∧ s.isl.quiet = .awake ∧ s.twn.acted.contains seq = false

/-- An instance that has just taken a Jorrid command: LAST_SEQ is its SEQ, the command is in progress, with a background
slot where it is marked L, and is counted (R503, R506). -/
def State.taken (s : State) (k : Nat) (h : JHdr) (c : JorridCmd) : State :=
  ((s.modMb k id).modMb k fun m => { m with
    lastSeq := some (h.seq % 2 ^ 32), state := .busy, result := { status := jrBusy }, cmd := some c, tag := h.tag
    ctag := m.mtag, slot := takesSlot c, background := false, held := none, waits := [], step := 0, ending := {} }).count
    Reg.mbxCount

/-- The state in which an accepted command runs: it holds the objects that it changes (R508). -/
def State.accepted (s : State) (k : Nat) (h : JHdr) (c : JorridCmd) : State :=
  (s.taken k h c).modMb k fun m => { m with objects := objectsOf c }

/-- A new command that an instance takes now: its transport carries commands, firmware takes them and the chip is awake,
the header is good, none is in progress or held, its SEQ follows LAST_SEQ, and a command marked L finds a slot free
(R498, R501, R503, R506, R509). Queries are taken by nothing (R504). -/
def State.jNew (s : State) (k : Nat) (h : JHdr) (c : JorridCmd) : Prop :=
  let u := s.modMb k id
  s.instUp k = true ∧ s.noInstance k = false ∧ h.wellFormed = true ∧ c ≠ .getStatus ∧ c ≠ .abort ∧
    (u.mb k).state ≠ .busy ∧ (u.mb k).held = none ∧ u.jTakes = true ∧ u.isAwake = true ∧
    (∀ l, (u.mb k).lastSeq = some l → h.seq % 2 ^ 32 = (l + 1) % 2 ^ 32) ∧
    (takesSlot c = true → u.slotsBusy < u.fld Reg.mbxCfg 13 8)

/-- A new command that is taken, permitted, known, allowed in the phase, and whose objects no other command holds (R508,
R509, R512). -/
def State.jRuns (s : State) (k : Nat) (h : JHdr) (c : JorridCmd) : Prop :=
  s.jNew k h c ∧ (s.taken k h c).permits k c = true ∧ unknownOp c = false ∧ notReady (s.taken k h c).phase c = false ∧
    ((objectsOf c).any fun o => (s.modMb k id).objectsHeld.contains o) = false

/-- A Jorrid command has an effect: whenever it runs and a condition holds of the state in which it runs, the command `e`
that brings it answers that effect. -/
def RunsAs (s : State) (i : MbxInst) (h : JHdr) (c : JorridCmd) (e : Instr) (P : State → Prop) (f : State → State) : Prop :=
  s.jRuns (mbxKey i) h c → P (s.accepted (mbxKey i) h c) → exec e s = .next (f (s.accepted (mbxKey i) h c))

/-- A command answers a next state of which something holds. -/
def Yields (c : Instr) (s : State) (P : State → Prop) : Prop := ∃ t, exec c s = .next t ∧ P t

/-- A fetched command of a queue that this twin executes, with an opcode, that may start now: its awaited queue exists and
R205 to R207 hold nothing against it. -/
def State.startable (s : State) (sq pos op n : Nat) (c : Cmd) (q : Sq) : Prop :=
  s.cmdAt sq pos = some (n, c) ∧ s.sq? sq = some q ∧ c.stage = .fetched ∧ c.d.opcode = op ∧ s.execHere q = true ∧
    (c.d.waitEn = true → (s.sq? c.d.waitSq).isSome = true) ∧ s.mayStart c = true

end Sys2Proof.Machine
end

