-- ==== Sys2Proof/Certificates/Slice0/Obligations.lean ====
section
/-! DEFINITION. The statements for the provers, from the numbered rules of the spec, chapter by chapter. -/

open Sys2Proof Sys2Proof.Machine

/-- The step of the block (the model's own queue, log 1): with a command at the front of the queue, a step is the
effect of that command on the state whose queue is the rest. -/
def Obligations.StepRunsTheFrontCommand : Prop :=
  ∀ (c : Instr) (rest : List Instr) (s : State),
    step { s with pending := c :: rest } = exec c { s with pending := rest }

/-- On an empty queue a step answers a next state, the idle tick's: 10 ns pass once AON is released, one count of the 100 MHz
device timestamp counter of R600, an entry to Quiet that was not woken is done, and the work that waits for no command goes
on (the model's choice, log 1). The clock's advance itself changes nothing but the time unless Quiet is being entered. -/
def Obligations.EmptyQueueStepIsOneTick : Prop :=
  (∀ s : State, s.pending = [] → step s = .next s.tick.mgtDrain.jHeldAll.jServeAll) ∧
  (∀ s : State, s.isl.quiet ≠ .entering → s.tick = { s with time := if s.pws.aonGood then s.time + 10 else s.time }) ∧
  (∀ s : State, s.isl.quiet = .entering →
    s.tick = State.quietDone { s with time := if s.pws.aonGood then s.time + 10 else s.time })

/-- No command of the table ends in a fault or a refusal, whatever the state and the operands. -/
def Obligations.EveryCommandAnswersANextState : Prop := ∀ (c : Instr) (s : State), Completes c s

/-- From every state whose memory is in canonical form (addresses strictly rising, no byte listed that reads as an
unlisted one), here and in every save image (R417, R421), every step gives such a state: the step of each of the 417
commands, and the idle tick. -/
def Obligations.StepKeepsMemorySound : Prop :=
  ∀ s t : State, s.memoryOk → step s = .next t → t.memoryOk

/-- The state after reset has canonical memory, here and in its save images, no command waiting, and reads zero at every
address of persistent space (every tile is at home ZERO, R43, R55). -/
def Obligations.ResetMemorySound : Prop :=
  State.reset.memoryOk ∧ State.reset.pending = [] ∧ ∀ a, State.reset.byteAt a = 0

/-- Whatever a command does, it leaves the queue of waiting commands as it is, where memory is canonical. -/
def Obligations.CommandsLeaveTheQueue : Prop :=
  ∀ (c : Instr) (s t : State), s.memoryOk → exec c s = .next t → t.pending = s.pending

/-- Applying a write of bytes at a persistent-space address (R20, R21): every byte of the range reads as written, every
byte outside it as before, a sector outside the range keeps its metadata, and a sector of the range carries the low 32
bits of the write's persist sequence; a sector that the write covers whole is poisoned exactly if the write is. -/
def Obligations.AppliedWriteReadsBack : Prop :=
  ∀ (s : State) (psa pseq : Nat) (data : List Byte) (poison : Bool), memWf s.mem = true →
    (∀ i, i < data.length → (s.applyBytes psa pseq data poison).byteAt (psa + i) = data.getD i 0) ∧
    (∀ a, a < psa ∨ psa + data.length ≤ a → (s.applyBytes psa pseq data poison).byteAt a = s.byteAt a) ∧
    (∀ n, n ∉ sectorsOf psa data.length → (s.applyBytes psa pseq data poison).sector n = s.sector n) ∧
    (∀ n, n ∈ sectorsOf psa data.length → ((s.applyBytes psa pseq data poison).sector n).pseq = pseq % 2 ^ 32) ∧
    (∀ n, n ∈ sectorsOf psa data.length → coversSector psa data.length n = true →
      ((s.applyBytes psa pseq data poison).sector n).poison = poison)

/-- What is put into a register reads back and every other register keeps its value. Counting `n` events in a 32-bit
counter gives the sum, or all ones where the sum is greater, and changes no other register (a saturated counter reads
0xFFFF_FFFF, R659); setting a flag sets that bit and no other. -/
def Obligations.RegisterBankAndCounters : Prop :=
  (∀ (s : State) (a b : Nat) (w : Word), (s.setReg a w).reg b = if b = a then w else s.reg b) ∧
  (∀ (s : State) (a n : Nat), ((s.countBy a n).reg a).toNat = min ((s.reg a).toNat + n) 0xFFFFFFFF) ∧
  (∀ (s : State) (a b n : Nat), b ≠ a → (s.countBy a n).reg b = s.reg b) ∧
  (∀ (s : State) (a b i j : Nat), i < 32 → j < 32 →
    (s.flag a i).bit b j = if b = a ∧ j = i then true else s.bit b j)

/-- The content of a register after a write, bit by bit: an RW bit takes the bit written, an RWL bit too while the
block's BLOCK_LOCK is clear and keeps its value once it is set, a W1S bit is set by a 1 (firmware owns every one), a W1C
bit is cleared by a 1, and every other bit keeps its value. A host's write reaches only the bits without the FW marker. A
read of a register whose bits are all write-only returns 0. -/
def Obligations.WriteMergesByAccessCode : Prop :=
  (∀ (s : State) (off : Nat) (d : RegDesc) (v : Word) (fw : Bool) (i : Nat), i < 32 →
    Word.bit (s.merged off d v fw) i =
      ((if (d.rw.testBit i || (d.rwl.testBit i && !s.bit (lockOf off) 0)) && (fw || d.host.testBit i) then Word.bit v i
        else s.bit off i) || (fw && d.w1s.testBit i && Word.bit v i)) && !(d.w1c.testBit i && Word.bit v i)) ∧
  (∀ (s : State) (k off : Nat) (d : RegDesc), d.pair = 0 → d.rc = 0 → d.wo = 0xFFFFFFFF → off < Reg.evrWindow →
    s.readReg k off d = (s, 0))

/-- A write of a register that the path may write. A register of its own (no pair): the merged value, clamped and ruled as
stored, is put unless firmware rejects the setting, and the write's action is done, which is none where the register has
none. So also by W1C_FLAG_CLEAR, with the flags that hardware sets in the same cycle set afterwards. A _LO of a writable
pair: the value is held on that path and nothing else changes. Its _HI: the held half is no longer held, both halves are put
(the _LO half with the value held, or left as the register holds it), and the write's action is done. The same by
REGISTER_HI_WRITE and by a 4-byte REGISTER_WRITE. An 8-byte REGISTER_WRITE at a _LO is the one and then the other. -/
def Obligations.RegisterWritesTakeEffect : Prop :=
  (∀ (s : State) (p : RegPath) (off : Nat) (d : RegDesc) (v : Nat), s.serves p off d → goodAccess off 4 = true →
    d.pair = 0 → plainOff off → (pathFw p = true ∨ fwOwned d off = false) →
    let new := storedVal off (s.reg off) (s.merged off d (w32 v) (pathFw p))
    exec (.registerWrite p off 4 v) s = .next (if s.rejects off new then s
      else (s.setReg off new).writeFx off (s.reg off) new (w32 v)) ∧
    (noAction off → s.rejects off new = false → exec (.registerWrite p off 4 v) s = .next (s.setReg off new))) ∧
  (∀ (s : State) (p : RegPath) (off : Nat) (d : RegDesc) (v hw : Word) (cap : DWord), s.serves p off d →
    goodAccess off 4 = true → d.pair = 0 → plainOff off → (pathFw p = true ∨ fwOwned d off = false) →
    let new := storedVal off (s.reg off) (s.merged off d v (pathFw p))
    noAction off → s.rejects off new = false →
    exec (.w1cFlagClear p off v hw cap) s = .next ((s.setReg off new).hwSets off hw.toNat cap.toNat) ∧
    ((hw.toNat &&& d.w1c) = 0 → exec (.w1cFlagClear p off v hw cap) s = .next (s.setReg off new))) ∧
  (∀ (s : State) (p : RegPath) (off : Nat) (d : RegDesc) (v : Nat), s.serves p off d → goodAccess off 4 = true →
    d.pair = 1 → (d.rw ||| d.rwl) ≠ 0 → (pathFw p = true ∨ fwOwned d off = false) →
    exec (.registerWrite p off 4 v) s =
      .next { s with paths := s.paths.upd (pathKey p) {} fun q => { q with held := q.held.set off (w32 v) } }) ∧
  (∀ (s : State) (p : RegPath) (off : Nat) (d dl : RegDesc) (v lo : Word), s.serves p off d → goodAccess off 4 = true →
    d.pair = 2 → (d.rw ||| d.rwl) ≠ 0 → off ≠ Reg.plcTileSelHi → descAt (off - 4) = some dl →
    (pathFw p = true ∨ fwOwned d off = false) → noAction off →
    (s.path (pathKey p)).held.get? (off - 4) = some lo →
    let u : State := { s with paths := s.paths.upd (pathKey p) {} fun q => { q with held := q.held.erase (off - 4) } }
    let w := u.setReg (off - 4) (u.merged (off - 4) dl lo (pathFw p))
    let new := storedVal off (w.reg off) (w.merged off d v (pathFw p))
    w.rejects off new = false →
    exec (.registerHiWrite p off v) s = .next (w.setReg off new) ∧
    exec (.registerWrite p off 4 v.toNat) s = .next (w.setReg off new)) ∧
  (∀ (s : State) (p : RegPath) (off v : Nat) (d dh : RegDesc), s.serves p off d → s.serves p (off + 4) dh →
    goodAccess off 8 = true → d.pair = 1 → (d.rw ||| d.rwl) ≠ 0 → (pathFw p = true ∨ fwOwned d off = false) →
    off % 4 = 0 → off + 4 < 0x4000000 →
    exec (.registerWrite p off 8 v) s = exec (.registerHiWrite p (off + 4) (w32 (v / 2 ^ 32)))
      { s with paths := s.paths.upd (pathKey p) {} fun q => { q with held := q.held.set off (w32 (v % 2 ^ 32)) } })

/-- A 4-byte read answers what the register shows on that path, without its write-only bits. A read of a _LO latches the
_HI half for that path, and a read of _HI answers the latched half, or what the _HI shows where that path has latched
none. A read of an RC counter answers its value and leaves what the clearing leaves, then the increments of the same
cycle; a plain 32-bit counter is left at 0. Nothing else changes but the output. -/
def Obligations.RegisterReadsAnswer : Prop :=
  (∀ (s : State) (p : RegPath) (off : Nat) (d : RegDesc), s.serves p off d → goodAccess off 4 = true → d.pair = 0 →
    d.rc = 0 → off ≠ Reg.lapCommit → (off < Reg.evrWindow ∨ Reg.evrWindow + 32 ≤ off) →
    (∀ ld, p = .bar0 ld → off ≠ Reg.mbxPbarrier + 0x2000 * ld.val) →
    exec (.registerLoRead p off) s = .next (s.emit (.regRead (pathKey p) off
      (w32 ((s.shownTo (pathKey p) off).toNat &&& (0xFFFFFFFF ^^^ d.wo))) none))) ∧
  (∀ (s : State) (p : RegPath) (off : Nat) (d : RegDesc), s.serves p off d → goodAccess off 4 = true → d.pair = 1 →
    off ≠ Reg.lapCommit → (off < Reg.evrWindow ∨ Reg.evrWindow + 32 ≤ off) →
    (∀ ld, p = .bar0 ld → off ≠ Reg.mbxPbarrier + 0x2000 * ld.val) →
    exec (.registerLoRead p off) s = .next ((s.setPath (pathKey p) fun q =>
      { q with latch := q.latch.set off (s.shownTo (pathKey p) (off + 4)) }).emit
        (.regRead (pathKey p) off (s.shownTo (pathKey p) off) none))) ∧
  (∀ (s : State) (p : RegPath) (off : Nat) (d : RegDesc), s.serves p off d → goodAccess off 4 = true → d.pair = 2 →
    off ≠ Reg.lapCommit → (off < Reg.evrWindow ∨ Reg.evrWindow + 32 ≤ off) →
    (∀ ld, p = .bar0 ld → off ≠ Reg.mbxPbarrier + 0x2000 * ld.val) →
    exec (.registerLoRead p off) s = .next (s.emit (.regRead (pathKey p) off
      (match (s.path (pathKey p)).latch.get? (off - 4) with
        | some v => v
        | none => s.shownTo (pathKey p) off) none))) ∧
  (∀ (s : State) (p : RegPath) (off n : Nat) (d : RegDesc), s.serves p off d → goodAccess off 4 = true → d.pair = 0 →
    d.rc ≠ 0 → off ≠ Reg.lapCommit → (off < Reg.evrWindow ∨ Reg.evrWindow + 32 ≤ off) →
    (∀ ld, p = .bar0 ld → off ≠ Reg.mbxPbarrier + 0x2000 * ld.val) →
    exec (.rcCounterRead p off n) s = .next (((s.setReg off (s.rcLeft off d)).emit
      (.regRead (pathKey p) off (s.shownTo (pathKey p) off) none)).rcAdd off n)) ∧
  (∀ (s : State) (d : RegDesc), d.rc = 0xFFFFFFFF → s.rcLeft Reg.glbFwReject d = 0 ∧ s.rcLeft Reg.glbBadAccess d = 0)

/-- An RC counter of 32 bits (the two whose whole register is RC in GLB: GLB_FW_WRITE_REJECT_COUNT and
GLB_BAD_ACCESS_COUNT), read by firmware with `n` increments in the same cycle: the answer is the counter's value from
before the increments, 0xFFFF_FFFF where it had saturated, and the counter then holds the increments, counted from 0 and
saturating. -/
def Obligations.RcReadKeepsSameCycleIncrements : Prop :=
  ∀ (s : State) (off n : Nat), off = Reg.glbFwReject ∨ off = Reg.glbBadAccess → s.isl.quiet = .awake →
    s.gated 1 = false →
    exec (.rcCounterRead .firmware off n) s =
      .next (if n = 0 then (s.setReg off 0).emit (.regRead 36 off (s.reg off) none)
        else ((s.setReg off 0).emit (.regRead 36 off (s.reg off) none)).setReg off (w32 (min n 0xFFFFFFFF)))

/-- W1C_FLAG_CLEAR on the event registers of TQM, PLC, HLC, FMC, ELG, TWN, RDX and SEC, from any path that reaches them:
afterwards a W1C flag is set exactly if hardware set it in the same cycle, or it was set and the write had 0 there; with no
flag set by hardware nothing but that register changes. -/
def Obligations.W1cClearsWhatHardwareDoesNotSet : Prop :=
  ∀ (s : State) (p : RegPath) (off : Nat) (d : RegDesc) (v hw : Word) (cap : DWord),
    off ∈ [Reg.tqmEvent, Reg.plcEvent, Reg.hlcEvent, Reg.fmcEvent, Reg.elgEvent, Reg.twnEvent, Reg.rdxEvent, Reg.secEvent] →
    s.serves p off d →
    (Yields (.w1cFlagClear p off v hw cap) s fun t => ∀ i, i < 32 → d.w1c.testBit i = true →
      t.bit off i = (Word.bit hw i || (s.bit off i && !Word.bit v i))) ∧
    ∃ w, exec (.w1cFlagClear p off v 0 cap) s = .next (s.setReg off w)

/-- An access of a size or alignment that is neither 4 bytes aligned nor 8 bytes at a _LO: GLB_BAD_ACCESS_COUNT counts it
once, a read answers zeros and a write changes nothing else, whatever the path, the island and the offset. -/
def Obligations.BadAccessCounts : Prop :=
  ∀ (s : State) (p : RegPath) (off size v : Nat), s.hasPath p = true → goodAccess off size = false →
    exec (.badRegisterAccess p true off size) s = .next (s.count Reg.glbBadAccess) ∧
    exec (.badRegisterAccess p false off size) s = .next ((s.count Reg.glbBadAccess).emit (.badRead (pathKey p) size)) ∧
    exec (.registerWrite p off size v) s = .next (s.count Reg.glbBadAccess)

/-- While the chip is awake, or on a path other than BAR0, an access to a register in a gated island: a read answers
0xDEAD_0A0A, a write is dropped; ISL_EVENT.GATED_READ or GATED_WRITE is set, ISL_GATED_ACCESS_COUNT counts it, and the
offset, with the direction in bit 31, is recorded in the path's ISL_GATED_ADDR where both flags were clear or none is
recorded there (the model's reading, log 45). No island wakes, and no memory and no other path's record changes while a flag
is set. -/
def Obligations.GatedAccessNoted : Prop :=
  ∀ (s : State) (p : RegPath) (off : Nat) (d : RegDesc) (v : Word), s.hasPath p = true → s.reaches p off = true →
    s.absent off = false → descAt off = some d → goodAccess off 4 = true → s.isl.quiet = .awake →
    s.gated (islandOf off) = true → off ≠ Reg.lapCommit → (∀ ld, p = .bar0 ld → off ≠ Reg.mbxPbarrier + 0x2000 * ld.val) →
    (Yields (.gatedIslandAccess p true off v) s fun t => t.bit Reg.islEvent 1 = true ∧ t.isl = s.isl ∧ t.mem = s.mem ∧
      t.out = s.out ∧ (t.reg Reg.islCount).toNat = min ((s.reg Reg.islCount).toNat + 1) 0xFFFFFFFF ∧
      (s.bit Reg.islEvent 0 = false ∧ s.bit Reg.islEvent 1 = false →
        t.own (pathKey p) Reg.islGatedAddr = w32 (2 ^ 31 + off % 2 ^ 26))) ∧
    (Yields (.gatedIslandAccess p false off v) s fun t => t.bit Reg.islEvent 0 = true ∧ t.isl = s.isl ∧ t.mem = s.mem ∧
      t.out = .regRead (pathKey p) off 0xDEAD0A0A none :: s.out ∧
      (t.reg Reg.islCount).toNat = min ((s.reg Reg.islCount).toNat + 1) 0xFFFFFFFF ∧
      (s.bit Reg.islEvent 0 = false ∧ s.bit Reg.islEvent 1 = false →
        t.own (pathKey p) Reg.islGatedAddr = w32 (off % 2 ^ 26))) ∧
    ((s.bit Reg.islEvent 0 = true ∨ s.bit Reg.islEvent 1 = true) →
      ((s.path (pathKey p)).own.get? Reg.islGatedAddr).isSome = true →
      exec (.gatedIslandAccess p true off v) s = .next ((s.flag Reg.islEvent 1).count Reg.islCount) ∧
      exec (.gatedIslandAccess p false off v) s =
        .next (((s.flag Reg.islEvent 0).count Reg.islCount).emit (.regRead (pathKey p) off 0xDEAD0A0A none)))

/-- A write of a selector by a path that reaches it, while the selector's island runs: the path's own copy of the selector
and of the registers that show the selected object hold the object's state at that moment (regions R68 to R71, queues R232
to R235, placement R282, tiles R283, stripe sets R396, keys R562, configuration-flash blocks R587), every other register of
the path's own keeps its value, and nothing else changes (an EFL access first ends a command sequence of firmware's that it
breaks, R568). EFL_RADDR reads the word (R571), and an EVR_WINDOW word is read at the path's cursor (R581). -/
def Obligations.SelectorsTakeSnapshots : Prop :=
  ∀ (s : State) (p : RegPath), s.hasPath p = true → (∀ off, s.reaches p off = true) → s.variantN = false →
    s.isl.quiet = .awake → (∀ i, s.gated i = false) →
    let k := pathKey p
    let shows := fun (t : State) (l : List (Nat × Nat)) => t = { s with paths := t.paths } ∧
      (∀ e ∈ l, t.own k e.1 = w32 e.2) ∧ (∀ a, a ∉ l.map Prod.fst → t.own k a = s.own k a)
    (∀ r : Fin 4096, Yields (.glbRgnSel p r) s fun t =>
      let x := s.region r
      shows t [(Reg.glbRgnSel, r.val), (Reg.glbRgnAttr, 2 ^ 17 * b2n x.onAck + 2 ^ 16 * b2n x.prefOwner + 2 ^ 15 * b2n x.owner
          + 2 ^ 12 * (x.qos % 8) + 2 ^ 4 * (x.epoch % 256) + regionCode x.state), (Reg.glbRgnSize, x.size % 2 ^ 17),
        (Reg.glbRgnPseqLo, x.pseq % 2 ^ 32), (Reg.glbRgnPseqLo + 4, x.pseq / 2 ^ 32)]) ∧
    (∀ (n : Fin 4096) (q : Sq), s.sqs.get? n = some q → Yields (.tqmSqSel p n) s fun t =>
      shows t [(Reg.tqmSqSel, n.val), (Reg.tqmSqInfo, 2 ^ 31 * b2n q.maint + 2 ^ 24 * (s.cmds.count fun c => c.sq == n.val)
          + 2 ^ 19 * q.log2 + 2 ^ 16 * sqCode q.state + q.cq % 2 ^ 12), (Reg.tqmSqFetchLo, q.fetch % 2 ^ 32),
        (Reg.tqmSqFetchLo + 4, q.fetch / 2 ^ 32), (Reg.tqmSqCompleted, q.completed % 2 ^ 32)]) ∧
    (∀ n : Fin 4096, s.sqs.get? n = none → Yields (.tqmSqSel p n) s fun t =>
      shows t [(Reg.tqmSqSel, n.val), (Reg.tqmSqInfo, 0), (Reg.tqmSqFetchLo, 0), (Reg.tqmSqFetchLo + 4, 0),
        (Reg.tqmSqCompleted, 0)]) ∧
    (∀ (n : Fin 4096) (c : Cq), s.cqs.get? n = some c → Yields (.tqmCqSel p n) s fun t =>
      shows t [(Reg.tqmCqSel, n.val), (Reg.tqmCqInfo, 2 ^ 8 * c.t1.kind + 2 ^ 6 * c.t0.kind + 2 * c.log2 + 1),
        (Reg.tqmCqNextLo, c.nextSeq % 2 ^ 32), (Reg.tqmCqNextLo + 4, c.nextSeq / 2 ^ 32),
        (Reg.tqmCqConsLo, s.consOf c % 2 ^ 32), (Reg.tqmCqConsLo + 4, s.consOf c / 2 ^ 32)]) ∧
    (∀ n : Fin 4096, s.cqs.get? n = none → Yields (.tqmCqSel p n) s fun t =>
      shows t [(Reg.tqmCqSel, n.val), (Reg.tqmCqInfo, 0), (Reg.tqmCqNextLo, 0), (Reg.tqmCqNextLo + 4, 0),
        (Reg.tqmCqConsLo, 0), (Reg.tqmCqConsLo + 4, 0)]) ∧
    (∀ r : Fin 4096, Yields (.plcRgnSel p r) s fun t =>
      shows t [(Reg.plcRgnSel, r.val), (Reg.plcRgnVals, s.regionHeat r % 2 ^ 32),
        (Reg.plcRgnVals + 4, s.regionTiles r fun e => inDram e.home), (Reg.plcRgnVals + 8, s.regionTiles r fun e => e.pinned)]) ∧
    (∀ h : Word, Yields (.plcTileSel p h) s fun t =>
      let lo := ((s.path k).held.getD Reg.plcTileSelLo (s.own k Reg.plcTileSelLo)).toNat
      let tile := lo + 2 ^ 32 * (h.toNat % 8)
      let w := entryWord tile (s.tile tile)
      shows t [(Reg.plcTileSelLo, lo), (Reg.plcTileSelHi, h.toNat % 8), (Reg.plcTileEntryLo, w % 2 ^ 32),
        (Reg.plcTileEntryLo + 4, w / 2 ^ 32)]) ∧
    (∀ n : Fin 64, Yields (.fmcSetSel p n) s fun t =>
      let l := (s.sbList n).map Prod.snd
      let worn := l.map fun b => b.erases
      shows t [(Reg.fmcSetSel, n.val), (Reg.fmcSetVals, 2 ^ 16 * (l.filter fun b => b.state == .retired).length + s.freeIn n),
        (Reg.fmcSetVals + 4, 2 ^ 16 * maxOf worn + if l.length < s.sbPerSet then 0 else minOf worn 0)]) ∧
    (∀ r : Fin 4096, Yields (.secRgnKeySel p r) s fun t =>
      let q := s.sec.keys.getD r {}
      shows t [(Reg.secKeySel, r.val), (Reg.secKeyInfo, 2 ^ 10 * b2n (s.oldHeld r) + 2 ^ 9 * b2n q.shaum + 2 ^ 8 * b2n q.xts
        + q.epoch % 256)]) ∧
    (∀ b : Fin 256, s.efl.seq = .locked → Yields (.eflBlockSel p b) s fun t =>
      shows t [(Reg.eflBlockSel, b.val), (Reg.eflBlockState, (s.blockWord b).toNat)]) ∧
    (∀ a : Word, s.efl.seq = .locked → (s.eflBlock (a.toNat / 65536 % 256)).state = .normal →
      s.eflListed (a.toNat / 65536 % 256) = true → Yields (.eflRaddr p a) s fun t =>
        let w := s.eflWord (a.toNat % 2 ^ 24 / 8 * 8)
        shows t [(Reg.eflRaddr, a.toNat), (Reg.eflRdataLo, w % 2 ^ 32), (Reg.eflRdataHi, w / 2 ^ 32)]) ∧
    (∀ (w : Fin 8) (e : Nat × EvRec) (l : List (Nat × EvRec)) (gap : Bool),
      s.evrFrom (s.own k Reg.evrCursor).toNat = (gap, e :: l) →
      Yields (.evrWindowRead p w) s fun t => t.out =
        .regRead k (Reg.evrWindow + 4 * w) (w32 ((recWords e.2).getD w 0)) none :: s.out ∧
        t.own k Reg.evrStatus = w32 (b2n gap) ∧ t.mem = s.mem ∧ t.regs = s.regs ∧
        t.own k Reg.evrCursor = if w = 7 then w32 (e.1 + 1) else s.own k Reg.evrCursor)

/-- The latch of a pair is kept for each path (the key of each LD's BAR0, each mailbox transport and firmware). A read of a
_LO by one path, whether the register's island runs or is gated, leaves every latch of every other path and the register
bank as they were where the island runs, so what another path's read of the _HI answers is unchanged. -/
def Obligations.LatchesAreEachPathsOwn : Prop :=
  ∀ (s t : State) (p q : RegPath) (off : Nat) (d : RegDesc), s.isl.quiet = .awake → descAt off = some d → d.pair = 1 →
    off ≠ Reg.lapCommit → (off + 4 < Reg.evrWindow ∨ Reg.evrWindow + 32 ≤ off) →
    (∀ ld, p = .bar0 ld → off ≠ Reg.mbxPbarrier + 0x2000 * ld.val) →
    pathKey p ≠ pathKey q → exec (.registerLoRead p off) s = .next t →
    (t.path (pathKey q)).latch = (s.path (pathKey q)).latch ∧
    (s.serves p off d → t.regs = s.regs ∧
      (t.readReg (pathKey q) (off + 4) { off := off + 4, pair := 2 }).2 =
        (s.readReg (pathKey q) (off + 4) { off := off + 4, pair := 2 }).2)

/-- CXL links. Firmware's write of LINK_EN stores the port's configuration; going to 1 on a twin that is not fenced it starts
training on the port's link, or on both where it is bifurcated, and going to 0 it takes both down. CXL_LINK_TRAINED, where
LINK_EN is 1, the link exists and trains with 256-byte flits at a width and speed of R76, brings it to L0 at that width and at
most MAX_SPEED, sets DOWNTRAIN where either is below what is configured, and takes its LDs out of DEPARTED. CXL_LINK_DOWN takes a link that is not down
to DOWN and sets its event bit. CXL_LINK_RECOVERY takes a link that is up to RECOVERY and sets RETRAIN. After 100 ms
without retraining the link's ACTIVE LDs are DEPARTED, and after the departure hold an LD still DEPARTED gets a second
event record. A connected host starts training where LINK_EN is 1. -/
def Obligations.CxlLinksFollowTheirEvents : Prop :=
  (∀ (s : State) (port : Fin 2) (v : Word) (d : RegDesc),
    s.serves .firmware (Reg.cxPortCfg + cxBase port) d →
    let off := Reg.cxPortCfg + cxBase port
    let new := storedVal off (s.reg off) (s.merged off d v true)
    (Word.bit (s.reg off) 0 = Word.bit new 0 → exec (.cxlLinkEnable .firmware port v) s = .next (s.setReg off new)) ∧
    (Word.bit (s.reg off) 0 = false → Word.bit new 0 = true → s.twn.fenceIn = false → s.twn.hostsHeld = false →
      Yields (.cxlLinkEnable .firmware port v) s fun t => t.reg off = new ∧ (t.link port 0).state = .training ∧
        (t.link port 0).full = (if Word.bit new 1 then 8 else 16) ∧
        (t.link port 1).state = (if Word.bit new 1 then .training else .down) ∧ t.mem = s.mem) ∧
    (Word.bit (s.reg off) 0 = true → Word.bit new 0 = false → Yields (.cxlLinkEnable .firmware port v) s fun t =>
      (t.link port 0).state = .down ∧ (t.link port 1).state = .down ∧ t.mem = s.mem)) ∧
  (∀ (s : State) (port link : Fin 2) (w sp : Nat) (f : Flit), s.linkEn port = true → (s.link port link).full ≠ 0 →
    trains w sp f = true → Yields (.cxlLinkTrained port link w sp f) s fun t =>
      let cfg := if s.bifurcated port then 8 else 16
      let mx := s.fld (Reg.cxPortCfg + cxBase port) 3 2 + 2
      (t.link port link).state = .l0 ∧ (t.link port link).width = min w cfg ∧ (t.link port link).speed = min sp mx ∧
      (w < cfg ∨ sp < mx → s.isl.quiet = .awake → t.bit (Reg.cxLinkEvent + cxBase port) (8 * link + 2) = true) ∧
      ∀ ld ∈ s.ldsOf port link, (t.ld ld).state ≠ .departed) ∧
  (∀ (s : State) (port link : Fin 2), (s.link port link).state ≠ .down →
    Yields (.cxlLinkDown port link) s fun t => (t.link port link).state = .down ∧ (t.link port link).gpf = none ∧ (t.link port link).width = 0 ∧
      t.bit (Reg.cxLinkEvent + cxBase port) (8 * link) = true ∧ t.mem = s.mem ∧ t.extents = s.extents ∧
      ∀ ld ∈ s.ldsOf port link, (t.ld ld).waits = []) ∧
  (∀ (s : State) (port link : Fin 2), (s.link port link).state ≠ .down → (s.link port link).state ≠ .training →
    exec (.cxlLinkRecovery port link) s = .next ((s.modLink port link fun l => { l with state := .recovery }).flag
      (Reg.cxLinkEvent + cxBase port) (8 * link + 1))) ∧
  (∀ (s : State) (port link : Fin 2), (s.link port link).state = .down ∨ (s.link port link).state = .training →
    Yields (.cxlLinkDownHoldExpiry port link) s fun t =>
      ∀ ld ∈ s.ldsOf port link, (s.ld ld).state = .active → (t.ld ld).state = .departed) ∧
  (∀ (s : State) (ld : Fin 32), (s.ld ld).state = .departed →
    exec (.departureHoldExpiry ld) s = .next (s.record ((3 + ld.val / 16) * 2 ^ 8 + 4) ld 0 0)) ∧
  (∀ (s : State) (port link : Fin 2), (s.link port link).state = .down → s.linkEn port = true →
    (s.link port link).full ≠ 0 →
    let cfg := if s.bifurcated port then 8 else 16
    exec (.cxlHostConnected port link) s = .next (((s.modLink port link fun l =>
      { l with state := .training, width := 0, speed := 0, full := cfg }).emit (.linkTrain port link)).wakeFor .cxl))

/-- While the chip is awake, on a link in L0 or L0p: the HG960's own request halves the width (from 8 lanes up) or restores the full width while
L0P_EN is 1; the host's request for a permitted width is honoured whatever L0P_EN holds; L1 is entered where the host
allows it and L1_EN is 1, and left for L0 or L0p by the width. Nothing else changes but the output of a width change. -/
def Obligations.CxlLinkPowerStates : Prop :=
  ∀ (s : State) (port link : Fin 2), s.isl.quiet = .awake →
    (linkRuns (s.link port link) = true → s.portBit port 4 = true → 8 ≤ (s.link port link).width →
      exec (.l0pNarrowRequest port link) s = .next ((s.modLink port link fun l =>
        { l with width := (s.link port link).width / 2
                 state := if (s.link port link).width / 2 = l.full then .l0 else .l0p }).emit
          (.l0p port link ((s.link port link).width / 2)))) ∧
    (linkRuns (s.link port link) = true → s.portBit port 4 = true →
      (s.link port link).width < (s.link port link).full →
      exec (.l0pWidenRequest port link) s = .next ((s.modLink port link fun l =>
        { l with width := (s.link port link).full, state := .l0 }).emit (.l0p port link (s.link port link).full))) ∧
    (∀ w, linkRuns (s.link port link) = true → w ≤ (s.link port link).full →
      (w = (s.link port link).full ∨ w = 16 ∨ w = 8 ∨ w = 4) →
      exec (.l0pHostRequest port link w) s = .next ((s.modLink port link fun l =>
        { l with width := w, state := if w = l.full then .l0 else .l0p }).emit (.l0p port link w))) ∧
    (linkRuns (s.link port link) = true → s.portBit port 5 = true →
      exec (.aspmL1Entry port link true) s = .next (s.modLink port link fun l => { l with state := .l1 })) ∧
    ((s.link port link).state = .l1 → exec (.aspmL1Exit port link) s =
      .next (s.modLink port link fun l => { l with state := if l.width = l.full then .l0 else .l0p }))

/-- An LD whose CXL.mem requests reach the tracker, its host holding a credit, which the request uses up (R93). Enabling
memory makes a BOUND LD ACTIVE once its twin has admitted a region. A read that translates is admitted as a 64-byte read of its region (what the HLC's checks find first), a read that
does not is refused: poisoned zeros, GLB_XLT_FAULT_COUNT and the LD's REFUSED count (R49, R102). A write that translates
is admitted with its data and poison; in mirror-before-complete mode its completion waits, in complete-then-mirror mode it
is staged, counted and completed at once (R24). A write that does not translate is completed, not applied, counted and
recorded (R49). What is admitted then goes on as far as it can (settle). -/
def Obligations.CxlMemAccesses : Prop :=
  (∀ (s : State) (ld : Fin 32), (s.ld ld).state = .bound →
    Yields (.cxlMemEnable ld) s fun t => (t.ld ld).memEnabled = true ∧
      (t.ld ld).state = if s.admitted then .active else .bound) ∧
  (∀ (s : State) (ld : Fin 32) (tag dpa region off : Nat) (segs : List (Nat × Nat)) (f : HlcFault),
    s.cxlTakes ld false = true → (s.useCredit ld false).cxlWhere ld dpa .read = .ok (region, off, segs) →
    exec (.cxlMemrd ld tag dpa f) s = .next (((s.useCredit ld false).hlcFault (segs.headD (0, 0)).1 f).enter {
      src := .cxl ld tag, op := .read, host := ld, region := region, off := off, len := 64, segs := segs }).1.settle) ∧
  (∀ (s : State) (ld : Fin 32) (tag dpa : Nat) (e : XStep) (f : HlcFault),
    s.cxlTakes ld false = true → (s.useCredit ld false).cxlWhere ld dpa .read = .error e →
    Yields (.cxlMemrd ld tag dpa f) s fun t => t.mem = s.mem ∧ t.reqs = s.reqs ∧
      (∃ load, t.out = .cxlData ld tag (List.replicate 64 0) true load :: s.out) ∧
      (t.reg Reg.glbXltCount).toNat = min ((s.reg Reg.glbXltCount).toNat + 1) 0xFFFFFFFF) ∧
  (∀ (s : State) (ld : Fin 32) (tag dpa region off : Nat) (segs : List (Nat × Nat)) (data : List Byte) (poison : Bool),
    s.cxlTakes ld true = true → (s.useCredit ld true).cxlWhere ld dpa .write = .ok (region, off, segs) → s.ctm ld = false →
    exec (.cxlMemwr ld tag dpa data poison) s = .next ((s.useCredit ld true).enter {
      src := .cxl ld tag, op := .write, host := ld, region := region, off := off, len := 64, segs := segs
      data := sliceBytes data 0 64, poison := poison }).1.settle) ∧
  (∀ (s : State) (ld : Fin 32) (tag dpa region off : Nat) (segs : List (Nat × Nat)) (data : List Byte) (poison : Bool),
    s.cxlTakes ld true = true → (s.useCredit ld true).cxlWhere ld dpa .write = .ok (region, off, segs) → s.ctm ld = true →
    let u := (((s.useCredit ld true).enter {
      src := .cxl ld tag, op := .write, host := ld, region := region, off := off, len := 64, segs := segs
      data := sliceBytes data 0 64, poison := poison, acked := true }).1.stageNote (ld.val / 16)).count (ldReg Reg.cxLdWr ld)
    exec (.cxlMemwr ld tag dpa data poison) s = .next (u.emit (.cxlCmp ld tag (u.devLoad (ld.val / 16)))).settle) ∧
  (∀ (s : State) (ld : Fin 32) (tag dpa : Nat) (data : List Byte) (poison : Bool) (e : XStep),
    s.cxlTakes ld true = true → (s.useCredit ld true).cxlWhere ld dpa .write = .error e →
    Yields (.cxlMemwr ld tag dpa data poison) s fun t => t.mem = s.mem ∧ t.sectors = s.sectors ∧ t.reqs = s.reqs ∧
      (∃ load, t.out = .cxlCmp ld tag load :: s.out) ∧
      (t.reg Reg.glbXltCount).toNat = min ((s.reg Reg.glbXltCount).toNat + 1) 0xFFFFFFFF)

/-- GPF Phase 1 on a link is acknowledged at once and changes nothing else. A Phase 2 request begins to wait for the writes
in flight on that link, those of any LD and either mode, and changes nothing else. It is not answered while one of them is
in flight; once none is, it is answered and counted, and OVERRUN is set and recorded exactly where it took more than
100 µs (R100, R119). Requests that arrive later are not waited for, and no memory, tile or flash content changes. -/
def Obligations.GpfWaitsForEarlierWrites : Prop :=
  ∀ (s : State) (port link : Fin 2),
    exec (.gpfPhase1 port link) s = .next (s.emit (.gpfAck port link 1)) ∧
    exec (.gpfPhase2 port link) s = .next (s.modLink port link fun l => { l with
      gpf := some ((s.reqs.filter fun e => s.overLink port link e.2 && isWrite e.2.op).map Prod.fst) }) ∧
    (∀ (w : List Nat) (ns : Nat), (s.link port link).gpf = some w → (∃ i ∈ w, (s.reqs.get? i).isSome = true) →
      exec (.gpfPhase2Complete port link ns) s = .next s) ∧
    (∀ (w : List Nat) (ns : Nat), (s.link port link).gpf = some w → (∀ i ∈ w, s.reqs.get? i = none) →
      (s.link port link).state ≠ .down → let off := Reg.cxGpf + cxBase port
      let t := ((s.modLink port link fun l => { l with gpf := none }).emit (.gpfAck port link 2)).setFld off 15 0
        (s.fld off 15 0 + 1)
      exec (.gpfPhase2Complete port link ns) s =
        .next (if 100000 < ns then t.flagRecord off 17 ((3 + port.val) * 2 ^ 8 + 2) port 0 else t))

/-- A function-level reset of an LD that is neither UNBOUND nor DEPARTED aborts its requests, withdraws its pending
extents and takes it to its reset processing; requests then go on. A hot reset of a link that is not down does so for
every LD of the link, and the link retrains. When its processing ends, the LD is BOUND. A persist-barrier read waits for the writes of the LD in flight; the oldest
returns, once they have reached their points, the count of barriers completed modulo 2^32, and not before. -/
def Obligations.LdResetsAndBarriers : Prop :=
  (∀ (s : State) (ld : Fin 32), (s.ld ld).state ≠ .unbound → (s.ld ld).state ≠ .departed →
    exec (.cxlFlr ld) s = .next (s.abortLd ld .flr).settle ∧ ((s.abortLd ld .flr).ld ld).state = .flr ∧
    ((s.abortLd ld .flr).ld ld).memEnabled = false ∧ ((s.abortLd ld .flr).ld ld).waits = [] ∧
    ((s.abortLd ld .flr).ld ld).vectors = [] ∧ ((s.abortLd ld .flr).ld ld).policy = 0 ∧
    ((s.abortLd ld .flr).ld ld).bound = (s.ld ld).bound ∧ (s.abortLd ld .flr).mem = s.mem) ∧
  (∀ (s : State) (port link : Fin 2), (s.link port link).state ≠ .down →
    exec (.cxlHotReset port link) s = .next (((s.ldsOf port link).foldl State.resetLd s).modLink port link fun l =>
        { l with state := .training }).settle) ∧
  (∀ (s : State) (ld : Fin 32), (s.ld ld).state = .flr →
    exec (.flrDone ld) s = .next (s.modLd ld fun l => { l with state := .bound })) ∧
  (∀ (s : State) (ld : Fin 32),
    exec (.persistBarrierRead ld) s = .next (s.modLd ld fun l => { l with waits := l.waits ++ [s.writesOf ld] })) ∧
  (∀ (s : State) (ld : Fin 32) (w : List Nat) (rest : List (List Nat)), (s.ld ld).waits = w :: rest →
    (∃ i ∈ w, (s.reqs.get? i).isSome = true) → exec (.persistBarrierReturn ld) s = .next s) ∧
  (∀ (s : State) (ld : Fin 32) (w : List Nat) (rest : List (List Nat)), (s.ld ld).waits = w :: rest →
    (∀ i ∈ w, s.reqs.get? i = none) →
    let n := ((s.ld ld).barriers + 1) % 2 ^ 32
    exec (.persistBarrierReturn ld) s =
      .next ((s.modLd ld fun l => { l with waits := rest, barriers := n }).emit (.barrier ld n)))

/-- The FM API. The information commands answer the exposed capacity, the recorded allocations and the port's tracker share.
SET_LD_ALLOCATIONS records an allocation and binds an enabled UNBOUND LD, or unbinds a BOUND one, on both twins.
SET_QOS_CONTROL, where the shares fit, gives the regions under the LD's extents a class if one is named (log 107), sets the
port's tracker share and the LD's durability mode, and answers when the completed writes have reached their mirror points. FM_EXTENT_ADD of an extent that may be added writes it pending on both
twins and waits; FM_EXTENT_RELEASE with FORCE of a live extent starts its removal, without FORCE posts the release to the
host. The host's time limit withdraws a pending extent with the outcome timed out (2); a removed extent leaves the table
once no access under it is in flight. -/
def Obligations.FmApiAndExtents : Prop :=
  (∀ (s : State) (port : Fin 2),
    exec (.getLdInfo port) s = .next (s.emit (.fmReply port 0x5400 0 [s.exposed, 16])) ∧
    exec (.getLdAllocations port) s =
      .next (s.emit (.fmReply port 0x5401 0 ((List.range 16).map fun n => (s.ld (16 * port.val + n)).alloc))) ∧
    exec (.getQosControl port) s = .next (s.emit (.fmReply port 0x5403 0 (s.trackLimit port :: (List.range 16).flatMap fun n =>
      (s.ldRegions (16 * port.val + n)).map fun id => (s.region id).qos)))) ∧
  (∀ (s : State) (port : Fin 2) (ld : Fin 16) (a : Nat),
    let n := 16 * port.val + ld.val
    (s.mayBind n = true → Yields (.setLdAllocations port ld true a) s fun t =>
      (t.ld n).alloc = a ∧ (t.ld n).bound = some n ∧ t.out.head? = some (.fmReply port 0x5402 0 [a])) ∧
    (s.mayUnbind n = true → exec (.setLdAllocations port ld false a) s =
      .next (let t := (s.modLd n fun l => { l with alloc := a }).bothNow [.binding n false]
        t.emit (.fmReply port 0x5402 0 [(t.ld n).alloc])))) ∧
  (∀ (s : State) (port : Fin 2) (ctl : Nat) (ld : Fin 16) (ctm : Bool) (cls : Option (Fin 8)),
    let n := 16 * port.val + ld.val
    let lim := clampStep 256 4096 256 ctl
    let q := match cls with
      | none => s
      | some c => s.bothNow ((s.ldRegions n).map fun id => .region id { s.region id with qos := c })
    let u := q.setFld (Reg.cxTrackLimit + cxBase port) 12 0 lim
    lim + s.trackLimit (1 - port.val) + s.fld Reg.rdxTrackLimit 13 0 ≤ 8192 →
    exec (.setQosControl port ctl ld ctm cls) s =
      .next ((u.setBit (ldReg Reg.cxLdCtl n) 1 ctm).modLd n fun l => { l with durWait := some (u.setDur n ctm).2 }).durPoll) ∧
  (∀ (s : State) (ld : Fin 32) (dc : Fin 8) (dpa len region rof : Nat), s.extentOk ld dc dpa len region rof = true →
    exec (.fmExtentAdd ld dc dpa len region rof) s =
      .next ((s.extentPut ld dc dpa len region rof).1.jwPut (jwExtent (s.extents.fresh 0)) (fmInst (ld.val / 16)))) ∧
  (∀ (s : State) (ld : Fin 32) (region rof gen idx : Nat) (e : Extent), s.extentTagged ld region rof gen = some (idx, e) →
    e.pending = false →
    (s.jwait.get? (jwExtent idx) = none → exec (.fmExtentRelease ld region rof gen false) s =
      .next ((s.jwPut (jwExtent idx) (fmInst (ld.val / 16))).logEvent e.ld 4 (.releaseCapacity idx false))) ∧
    exec (.fmExtentRelease ld region rof gen true) s = .next ((s.jwPut (jwForce idx) (fmInst (ld.val / 16))).bothNow
      [.extent idx { e with removing := true, forced := true }])) ∧
  (∀ (s : State) (idx : Nat) (e : Extent), s.extents.get? idx = some e → e.pending = true →
    exec (.dcResponseTimeout idx) s =
      .next ((s.bothNow [.extentErase idx]).extDone idx 0x5604 jrSuccess (tagOf e ++ [2]))) ∧
  (∀ (s : State) (idx : Nat) (e : Extent), s.extents.get? idx = some e → e.removing = true →
    s.underExtent idx e = false → e.forced = false →
    exec (.extentRemovalDrained idx) s =
      .next ((((s.bothNow [.extentErase idx]).cxlAnswer e.ld 0x4803 0 []).extDone idx 0x5605 jrSuccess []).waitDone
        (jwForce idx) 0x5605 jrSuccess []))

/-- On an LD whose mailbox is up, each reading command answers its body with return code 0, and only the LD's last opcode and
return code and the output change; the opcodes and return codes are CXL 3.1's (PRESUMED, log 22). GET_FW_INFO needs a
privileged LD; SET_TIMESTAMP is denied (3), because time is set by Jorrid command; any other opcode is Unsupported (3). -/
def Obligations.CxlMailboxReads : Prop :=
  ∀ (s : State) (ld : Fin 32), s.cxlMbxUp ld = true →
    let answer := fun (op ret : Nat) (body : List Nat) => (Host.Outcome.next
      ((s.modLd ld fun l => { l with mbxOp := op, mbxRet := ret }).emit (.cxlMbx ld op ret body)) : Out)
    (∀ log : Fin 5, exec (.getEventRecords ld log) s = answer 0x0100 0
      (b2n ((s.ld ld).overflow.contains log.val) :: ((s.ld ld).logs.getD log []).length ::
        ((s.ld ld).logs.getD log []).flatMap eventBody)) ∧
    exec (.getEventInterruptPolicy ld) s = answer 0x0102 0 [(s.ld ld).policy] ∧
    exec (.getSupportedLogs ld) s = answer 0x0400 0 [1, 4 * celWords.length] ∧
    (∀ off len, off + len ≤ 4 * celWords.length → exec (.getLog ld true off len) s =
      answer 0x0401 0 ((sliceBytes (celWords.flatMap (leBytes 4)) off len).map fun b => b.toNat)) ∧
    exec (.identifyMemoryDevice ld) s =
      answer 0x4000 0 [(if s.fw.running then s.fw.b.version else s.fw.a.version), 0, 0, 0] ∧
    exec (.getPartitionInfo ld) s = answer 0x4100 0 [0, 0, 0, 0] ∧
    (s.privLd ld = true → exec (.getFwInfo ld) s = answer 0x0200 0
      [2, b2n s.fw.running, slotCode s.fw.a.state, s.fw.a.version, slotCode s.fw.b.state, s.fw.b.version]) ∧
    (s.privLd ld = false → exec (.getFwInfo ld) s = answer 0x0200 3 []) ∧
    (∀ dpa len, exec (.getPoisonList ld dpa len) s =
      answer 0x4300 0 (b2n s.poisonOverflow :: s.poisonUnder ld dpa len)) ∧
    exec (.getDynamicCapacityConfiguration ld) s =
      answer 0x4800 0 (8 :: (List.range 8).flatMap fun k => [s.winBase ld k, s.winLen ld k, 2 ^ 30]) ∧
    exec (.getDynamicCapacityExtentList ld) s = answer 0x4801 0
      ((s.extents.vals.filter fun e => e.ld == ld.val && !e.pending && !e.removing).flatMap fun e => [e.dpa, e.len] ++ tagOf e) ∧
    exec (.getTimestamp ld) s = answer 0x0300 0 [s.time] ∧
    (∀ ns, exec (.setTimestamp ld ns) s = answer 0x0301 3 []) ∧
    (∀ op, exec (.cxlMbxUnsupported ld op) s = answer op 3 [])

/-- On an LD whose mailbox is up: clearing all records empties a log and its overflow flag, and clearing the oldest by their
handles removes those; the interrupt policy is set. A privileged LD with POISON_INJECT_EN injects poison at a line that
translates (a write of zeros with poison, listed as Injected on both twins) and clears it by a write of the data given;
without the permission either is denied (3) and changes nothing else. The host accepts a pending extent, which becomes live
with the outcome accepted (0), or declines the oldest pending one (1) by an empty list; it releases a live extent, whose
removal starts on both twins. -/
def Obligations.CxlMailboxActions : Prop :=
  ∀ (s : State) (ld : Fin 32), s.cxlMbxUp ld = true →
    (∀ (log : Fin 5), exec (.clearEventRecords ld log true []) s = .next ((s.modLd ld fun x => { x with
      logs := x.logs.erase log, overflow := x.overflow.filter (· != log.val) }).cxlAnswer ld 0x0101 0 [])) ∧
    (∀ (log : Fin 5) (n : Nat), n < ((s.ld ld).logs.getD log []).length →
      exec (.clearEventRecords ld log false ((List.range n).map (· + 1))) s = .next ((s.modLd ld fun x => { x with
        logs := x.logs.set log (((s.ld ld).logs.getD log []).drop n)
        overflow := x.overflow.filter (· != log.val) }).cxlAnswer ld 0x0101 0 [])) ∧
    (∀ p, exec (.setEventInterruptPolicy ld p) s =
      .next ((s.modLd ld fun l => { l with policy := p }).cxlAnswer ld 0x0103 0 [])) ∧
    (∀ dpa region off segs, s.mayPoison ld = true → s.cxlWhere ld dpa .write = .ok (region, off, segs) →
      exec (.injectPoison ld dpa) s = .next (State.settle (((s.bothNow [.poison (segs.headD (0, 0)).1 3]).enter {
        src := .internal, op := .poisonWrite, host := ld, region := region, off := off, len := 64, segs := segs
        data := (List.range 64).map fun _ => 0, poison := true }).1.cxlAnswer ld 0x4301 0 []))) ∧
    (∀ dpa data region off segs, s.mayPoison ld = true → s.cxlWhere ld dpa .write = .ok (region, off, segs) →
      exec (.clearPoison ld dpa data) s = .next (State.settle ((s.enter {
        src := .internal, op := .write, host := ld, region := region, off := off, len := 64, segs := segs
        data := sliceBytes data 0 64 }).1.cxlAnswer ld 0x4302 0 []))) ∧
    (∀ dpa data, s.mayPoison ld = false →
      exec (.injectPoison ld dpa) s = .next (s.cxlAnswer ld 0x4301 3 []) ∧
      exec (.clearPoison ld dpa data) s = .next (s.cxlAnswer ld 0x4302 3 [])) ∧
    (∀ idx e, s.oldestPending ld = some (idx, e) → exec (.addDynamicCapacityResponse ld []) s =
      .next (((s.bothNow [.extentErase idx]).extDone idx 0x5604 jrSuccess (tagOf e ++ [1])).cxlAnswer ld 0x4802 0 [])) ∧
    (∀ dpa len idx e, s.extentNamed ld dpa len true = some (idx, e) →
      exec (.addDynamicCapacityResponse ld [(dpa, len)]) s =
        .next (((s.bothNow [.extent idx { e with pending := false }]).extDone idx 0x5604 jrSuccess
          (tagOf e ++ [0])).cxlAnswer ld 0x4802 0 [])) ∧
    (∀ dpa len idx e, s.extentNamed ld dpa len false = some (idx, e) →
      exec (.releaseDynamicCapacity ld dpa len) s =
        .next (s.bothNow [.extent idx { e with removing := true, forced := false }]))

/-- An enabled port's link comes up while the chip is awake (asleep, the port wakes it). A port that is up goes down with its
pauses, its waiting packets and its headroom cleared, DOWN set and its event record written. A PFC frame sets the pause of
each priority that it names and that PFC_EN has, on a port that is up, and lets waiting packets of the others go. A pause
that has lasted 100 ms sets PAUSE_STORM with its record and stays honoured. While a pool is at its stop level, every port
that is up sends XOFF on the priorities of PFC_EN, and below it XON where XOFF was sent. An uncorrectable FEC codeword sets
its flag. An enabled port with LLDP enabled sends the service TLV; a received LLDPDU only names the link partner. -/
def Obligations.EthernetPortEvents : Prop :=
  ∀ (s : State) (port : Fin 8),
    (s.portEn port = true → s.isl.quiet = .awake →
      exec (.netLinkUp port) s = .next (s.modPort port fun p => { p with up := true })) ∧
    (s.portEn port = true → s.isl.quiet ≠ .awake → exec (.netLinkUp port) s = .next (s.wakeFor .ethernet)) ∧
    (s.portEn port = false → exec (.netLinkUp port) s = .next s) ∧
    ((s.port port).up = true → exec (.netLinkDown port) s =
      .next ((s.modPort port fun p => { partner := p.partner }).flagRecord (Reg.netPortEvent + 16 * port) 0 0x0502 port 0)) ∧
    exec (.fecUncorr port) s = .next (s.flag (Reg.netPortEvent + 16 * port) 1) ∧
    (∀ prios xoff : BitVec 8, (s.port port).up = true →
      Yields (.pfcFrameReceived port prios xoff) s fun t => t.regs = s.regs ∧ t.mem = s.mem ∧ t.rdx = s.rdx ∧
        (∀ i : Fin 8, (t.port port).rxPaused.testBit i =
          if prios.getLsbD i && s.bit Reg.netDcb i then xoff.getLsbD i else (s.port port).rxPaused.testBit i) ∧
        (∀ n, n ≠ port.val → t.port n = s.port n)) ∧
    ((∀ n, (s.port n).headroom = []) → (s.port port).up = true →
      (3 ≤ s.poolLevel → s.fld Reg.netDcb 7 0 ≠ 0 → Yields .pfcXoffRepeat s fun t =>
        (t.port port).txPaused = s.fld Reg.netDcb 7 0 ∧ .pfc port (s.fld Reg.netDcb 7 0) true ∈ t.out ∧
        t.regs = s.regs ∧ t.mem = s.mem) ∧
      (s.poolLevel < 3 → (s.port port).txPaused ≠ 0 → Yields .pfcXoffRepeat s fun t =>
        (t.port port).txPaused = 0 ∧ .pfc port (s.port port).txPaused false ∈ t.out ∧ t.regs = s.regs ∧ t.mem = s.mem)) ∧
    (∀ prio : Fin 8, (s.port port).rxPaused.testBit prio = true → s.bit Reg.netDcb prio = true →
      exec (.pauseStorm port prio) s = .next (s.flagRecord (Reg.netPortEvent + 16 * port) 2 0x0501 port 0)) ∧
    (s.portEn port = true → s.bit Reg.netLldp 0 = true →
      exec (.lldpTransmit port) s = .next (s.emit (.lldp port (s.lldpTlv port)))) ∧
    (∀ partner, exec (.lldpReceived port partner) s = .next (s.modPort port fun p => { p with partner := partner }))

/-- A CNP outside the CNP interval cuts the QP's rate to rate × (256 − CUT) / 256, never below 1 Gb/s, and a period without
one raises it by AI_GBPS up to line rate (rates in Mb/s). Where no packet waits in the port's headroom: a packet whose ICRC
fails is dropped; one of an older generation, or for a QP in QUARANTINE, is only counted. On an ESTABLISHED QP whose keys are
cached, not CE-marked: a counter not above the last is counted as a replay and has no other effect; with a buffer free below
the warn level, a packet whose tag fails has its buffer zeroed and freed and ends the QP (R150), and one that verifies
advances the counter and its verb acts; with none free, it waits in the headroom on a priority of PFC_EN with room. A counter
at 2^48 takes the QP to ERROR. -/
def Obligations.QpPacketsAndRates : Prop :=
  (∀ (s : State) (qpn : Nat) (q : Qp), s.qp? qpn = some q →
    (q.state ≠ .quarantine → s.cnpFree q.cnpSeenAt = true → exec (.cnpReceived qpn) s = .next (s.modQp qpn fun x => { x with
      rate := max 1000 (q.rate * (256 - s.fld Reg.rdxEcn 17 10) / 256), cnpSeenAt := some s.time })) ∧
    exec (.rateIncreaseTick qpn) s = .next (s.modQp qpn fun x => { x with
      rate := min (200000 * 2 ^ s.fld Reg.netPortMode 1 0) (q.rate + 1000 * s.fld Reg.rdxEcn 23 18) })) ∧
  (∀ (s : State) (h : PktHdr) (v : Verb), h.icrcOk = false → exec (.rocePacketReceive h v) s = .next s) ∧
  (∀ (s : State) (h : PktHdr) (v : Verb), h.icrcOk = true → (s.port h.port).headroom = [] →
    (s.genOf (qpIdx h.qpn) ≠ qpGen h.qpn ∨ (∃ q, s.qp? h.qpn = some q ∧ q.state = .quarantine) →
      exec (.rocePacketReceive h v) s = .next (s.count Reg.rdxCount)) ∧
    (∀ q : Qp, s.qp? h.qpn = some q → q.state = .established → s.bit Reg.secCtl 0 = true → h.version = 1 → h.ce = false →
      (∀ c, q.ctrRx = some c → h.counter ≤ c → exec (.rocePacketReceive h v) s = .next (s.count (Reg.rdxCount + 8))) ∧
      (q.keyCached = true → (∀ c, q.ctrRx = some c → c < h.counter) →
        (∀ (t : State) (b : Nat × Nat), s.takeBuf h.bytes = some (t, b) → (t.pool b.1).level = 0 →
          (h.tagOk = false → exec (.rocePacketReceive h v) s = .next (((t.zeroBuf b).freeBuf b).authFail h.qpn)) ∧
          (h.tagOk = true → h.counter < 2 ^ 48 → q.ctrTx < 2 ^ 48 → exec (.rocePacketReceive h v) s =
            .next (((t.freeBuf b).modQp h.qpn fun x => { x with ctrRx := some h.counter }).verbDo h.qpn h.psn v))) ∧
        (s.takeBuf h.bytes = none → (s.pool (poolFor h.bytes)).level = 0 → s.bit Reg.netDcb (rxPrio h) = true →
          h.bytes ≤ 196608 → exec (.rocePacketReceive h v) s =
            .next (s.modPort h.port fun p => { p with headroom := [(h, v)] }))))) ∧
  (∀ (s : State) (qpn : Nat) (q : Qp), s.qp? qpn = some q → q.state = .established →
    ((2 ^ 48 ≤ q.ctrTx ∨ ∃ c, q.ctrRx = some c ∧ 2 ^ 48 ≤ c) → exec (.sendCounterLimit qpn) s = .next (s.qpEnter qpn .error)) ∧
    (q.ctrTx < 2 ^ 48 → (∀ c, q.ctrRx = some c → c < 2 ^ 48) → exec (.sendCounterLimit qpn) s = .next s))

/-- The transitions of R154. A REQ for one of the three services that passes the checks of R139 takes an index and answers
REP with the largest PMTU up to its own, the QP CONNECTING; one that fails is rejected; while the control cores are halted it
is held (R517). RTU: CONNECTING to KEYING. REJ or a CM timeout: CONNECTING to QUARANTINE. MRA changes nothing. DREQ received
or sent: ESTABLISHED to DRAINING, which ends when the requests are done; an ERROR QP answers DREP and goes to QUARANTINE.
DREP or 100 ms take an ERROR QP there, DREP a DRAINING one whose requests are done, and 1 s any DRAINING one. A QP that
leaves so holds no response, FLUSH, keying or partial WRITE, and no key reply waits for it (R155). -/
def Obligations.QpStateTransitions : Prop :=
  (∀ (s : State) (r : ConnReq), s.fw.halted = true →
    exec (.cmReq r) s = .next { s with rdx := { s.rdx with heldCm := s.rdx.heldCm ++ [.cmReq r] } }) ∧
  (∀ (s : State) (r : ConnReq), s.fw.halted = false → r.serviceId < s.svcBase ∨ s.svcBase + 2 < r.serviceId →
    exec (.cmReq r) s = .next (s.emit (.cm 2 r.hostQpn [8]))) ∧
  (∀ (s : State) (r : ConnReq), s.fw.halted = false → s.svcBase ≤ r.serviceId → r.serviceId ≤ s.svcBase + 2 →
    (∀ reason retry : Nat, s.reqFails r = some (reason, retry) →
      exec (.cmReq r) s = .next (s.emit (.cm 2 r.hostQpn [28, reason, retry]))) ∧
    (∀ (t : State) (idx mtu : Nat), s.reqFails r = none → s.takeQp = some (t, idx) →
      (r.pmtu < 1024 → exec (.cmReq r) s = .next (s.emit (.cm 2 r.hostQpn [26]))) ∧
      (mtu = (if 4096 ≤ r.pmtu then 4096 else if 2048 ≤ r.pmtu then 2048 else 1024) → 1024 ≤ r.pmtu →
        Yields (.cmReq r) s fun u => ∃ q, u.rdx.qps.get? idx = some q ∧ q.state = .connecting ∧ q.host = r.host ∧
          q.service = r.service ∧ q.qos = r.qos ∧ q.psnRx = r.psn % 2 ^ 24 ∧ q.rate = s.lineRate ∧ q.pmtu = mtu ∧
          q.port = r.port ∧ q.gid = r.gid ∧
          u.out = .cm 1 (u.qpnOf idx) [q.psnTx, mtu, 64, s.fld Reg.rdxReqRetry 7 5, s.fld Reg.rdxReqRetry 10 8] :: s.out))) ∧
  (∀ (s : State) (qpn : Nat), exec (.cmMra qpn) s = .next s) ∧
  (∀ (s : State) (qpn : Nat) (q : Qp), s.qp? qpn = some q →
    (q.state = .connecting →
      exec (.cmRtu qpn) s = .next (s.modQp qpn fun q => { q with state := .keying }) ∧
      exec (.cmRej qpn) s = .next (s.qpEnter qpn .quarantine) ∧
      exec (.cmTimeout qpn) s = .next (s.qpEnter qpn .quarantine)) ∧
    (q.state = .established →
      exec (.cmDreq qpn false) s = .next (s.modQp qpn fun x => { x with state := .draining, asked := false }).drainPoll ∧
      exec (.cmDreq qpn true) s =
        .next ((s.emit (.cm 3 qpn [])).modQp qpn fun x => { x with state := .draining, asked := true }).drainPoll) ∧
    (q.state = .draining →
      (q.resps = [] → exec (.cmDrep qpn) s = .next (s.qpEnter qpn .quarantine)) ∧
      exec (.drainingTimeout qpn) s = .next (s.qpEnter qpn .quarantine).settle) ∧
    (q.state = .error →
      exec (.cmDreq qpn false) s = .next ((s.qpEnter qpn .quarantine).emit (.cm 4 qpn [])) ∧
      exec (.cmDreq qpn true) s = .next (s.emit (.cm 3 qpn [])) ∧
      exec (.cmDrep qpn) s = .next (s.qpEnter qpn .quarantine) ∧
      exec (.errorTimeout qpn) s = .next (s.qpEnter qpn .quarantine)) ∧
    ∀ st : QpState, (∃ x, (s.qpEnter qpn st).qp? qpn = some x ∧ x.state = st ∧ x.resps = [] ∧ x.flushes = [] ∧
      x.keying = none ∧ x.part = none) ∧ ∀ k ∈ (s.qpEnter qpn st).rdx.replies, k.qpn ≠ qpn)

/-- QUARANTINE_END, which comes RDX_TIMERS.QUARANTINE_MS after the index was destroyed: an index in QUARANTINE leaves the
contexts, its generation rises by 1 modulo 128, and it joins the end of the free list; an index in any other state keeps
its context. A new QP takes an index never used, or else the least recently freed one. A packet of the old generation is
then only counted: it meets a stale generation. A memory-key index leaves the table and joins the end of the keys' free list
in the same way. (Index 0, which no connected QP uses, is the model's way to end the wait of R142 after a reset, log 23.) -/
def Obligations.QuarantineEndsByGeneration : Prop :=
  (∀ (s : State) (i : Nat) (q : Qp), i ≠ 0 → s.rdx.qps.get? i = some q → q.state = .quarantine →
    Yields (.quarantineEnd false i) s fun t => t.rdx.qps.get? i = none ∧ t.genOf i = (s.genOf i + 1) % 128 ∧
      t.rdx.freed = s.rdx.freed ++ [i] ∧ (∀ j, j ≠ i → t.rdx.qps.get? j = s.rdx.qps.get? j ∧ t.genOf j = s.genOf j) ∧
      ∀ h v, h.qpn = s.qpnOf i → s.genOf i < 128 → i < 2 ^ 17 → h.icrcOk = true → (s.port h.port).headroom = [] →
        exec (.rocePacketReceive h v) t = .next (t.count Reg.rdxCount)) ∧
  (∀ (s : State) (i : Nat) (q : Qp), i ≠ 0 → s.rdx.qps.get? i = some q → q.state ≠ .quarantine →
    exec (.quarantineEnd false i) s = .next s) ∧
  (∀ s : State, exec (.quarantineEnd false 0) s = .next { s with rdx := { s.rdx with holdReqs := false } }) ∧
  (∀ s : State, s.rdx.nextIdx < 2 ^ 17 →
    s.takeQp = some ({ s with rdx := { s.rdx with nextIdx := s.rdx.nextIdx + 1 } }, s.rdx.nextIdx)) ∧
  (∀ (s : State) (i : Nat) (l : List Nat), 2 ^ 17 ≤ s.rdx.nextIdx → s.rdx.freed = i :: l →
    s.takeQp = some ({ s with rdx := { s.rdx with freed := l } }, i)) ∧
  (∀ (s : State) (i : Nat) (k : Mkey), s.mkeys.get? i = some k → k.quar = true →
    exec (.quarantineEnd true i) s = .next { s with
      mkeys := s.mkeys.erase i, rdx := { s.rdx with keyFreed := s.rdx.keyFreed ++ [i] } })

/-- On a QP in KEYING while the control cores run (halted, the messages are held, R517), its packets going out at once, with
messages of VERSION 1 and their type's LENGTH. KEY_HELLO with the connect data's host and SUITE 1 (entropy healthy) is
answered by KEY_REPLY under the request's TAG, and what keying needs is kept; any other host or suite fails. KEY_CONFIRM
after it, with the key whose digest the lease holds and a signature that verifies, makes the QP ESTABLISHED, its keys derived
and K and T erased, KEY_DONE sent with counter 0, and the lease ACTIVE; any other fails. CERT_REQUEST is answered with the
certificate chain. A failure, or keying that outlasts its time, takes the QP to ERROR with KEYING_FAIL set. A message of
another VERSION or LENGTH is answered BAD_MESSAGE. -/
def Obligations.QpKeying : Prop :=
  ∀ (s : State) (qpn : Nat) (q : Qp), s.qp? qpn = some q → q.state = .keying →
    (∀ w host suite nonce ek, s.fw.halted = true → exec (.keyHello qpn w host suite nonce ek) s =
      .next { s with rdx := { s.rdx with heldCm := s.rdx.heldCm ++ [.keyHello qpn w host suite nonce ek] } }) ∧
    exec (.keyingTimeout qpn) s = .next (s.keyFail qpn) ∧
    (∃ x, (s.keyFail qpn).qp? qpn = some x ∧ x.state = .error) ∧ (s.keyFail qpn).bit Reg.rdxEvent 1 = true ∧
    (s.fw.halted = false →
      (∀ w host suite nonce ek pk sig ok, w.version ≠ 1 →
        exec (.keyHello qpn w host suite nonce ek) s = .next (s.wcmSend qpn 0x02 w.tag 4 16 []) ∧
        exec (.keyConfirm qpn w pk sig ok) s = .next (s.wcmSend qpn 0x04 w.tag 4 16 []) ∧
        exec (.certRequest qpn w) s = .next (s.wcmSend qpn 0x06 w.tag 4 16 [])) ∧
      (∀ tag nonce ek, s.sec.entropyOk = true → s.sendsNow q →
        Yields (.keyHello qpn { tag := tag, length := 1240 } q.host 1 nonce ek) s fun t =>
          (∃ x g, t.qp? qpn = some x ∧ x.keying = some g ∧ x.state = .keying) ∧
          (∃ k fields, t.out = .rdmaWcm k qpn 0x02 tag 0 4453 fields :: s.out)) ∧
      (∀ tag host suite nonce ek, host ≠ q.host ∨ suite ≠ 1 →
        exec (.keyHello qpn { tag := tag, length := 1240 } host suite nonce ek) s = .next (s.keyFail qpn)) ∧
      (∀ tag pk sig l g, s.leases.get? q.host = some l → q.keying = some g →
        (l.state ≠ .revoked → l.cred = pkDigest pk →
          (q.service ≠ 2 → s.sendsNow q → Yields (.keyConfirm qpn { tag := tag, length := 5277 } pk sig true) s fun t =>
            (∃ x, t.qp? qpn = some x ∧ x.state = .established ∧ x.ctrTx = 1 ∧ x.ctrRx = none ∧ x.keying = none ∧
              x.keys = some (deriveKeys g)) ∧
            (∃ m, t.leases.get? q.host = some m ∧ m.state = .active) ∧
            (∃ k, k.counter = some 0 ∧ t.out = .rdmaWcm k qpn 0x04 tag 0 16 [] :: s.out)) ∧
          exec (.keyConfirm qpn { tag := tag, length := 5277 } pk sig false) s =
            .next ((s.count (Reg.secCount + 8)).keyFail qpn)) ∧
        (∀ ok, l.state = .revoked ∨ l.cred ≠ pkDigest pk →
          exec (.keyConfirm qpn { tag := tag, length := 5277 } pk sig ok) s = .next (s.keyFail qpn))) ∧
      (∀ tag pk sig ok, s.leases.get? q.host = none ∨ q.keying = none →
        exec (.keyConfirm qpn { tag := tag, length := 5277 } pk sig ok) s = .next (s.keyFail qpn)) ∧
      (∀ tag, s.sendsNow q → Yields (.certRequest qpn { tag := tag, length := 16 }) s fun t =>
        (∃ k, t.out = .rdmaWcm k qpn 0x06 tag 0 (16 + Config.bodyLen 0x06)
          [(16, Config.bodyLen 0x06, Config.firmwareDefined 0x06)] :: s.out) ∧
        ∃ x, t.qp? qpn = some x ∧ x.state = .keying ∧ x.psnTx = (q.psnTx + 1) % 2 ^ 24))

/-- A QP that is ESTABLISHED, at the PSN that it expects, under no back-pressure. A WRITE (with or without Immediate), or
an 8-byte aligned atomic, that translates under its key takes a buffer (below its pool's warn level) and enters the tracker,
its response waiting in PSN order; a READ is taken without a buffer. A request that does not translate is refused in its
place: NAK remote access error (R49). A WRITE of no bytes is acknowledged, and one with Immediate under R_Key 0 names the
next request (R163). A PSN beyond the expected one gets a sequence NAK. A FLUSH under READ_WRITE waits for the writes of the
QP in flight, and its response is due when none of them is left. -/
def Obligations.RdmaVerbs : Prop :=
  ∀ (s : State) (qpn psn : Nat) (q : Qp), s.qp? qpn = some q → q.state = .established → s.bit Reg.secCtl 0 = true →
    s.noAdmit = false →
    (psnClass q.psnRx psn = 0 → s.rnrNow true = false → s.rnrNow false = false →
      (q.resps.filter fun e => heavy e.resp).length < 64 →
      (∀ key va region off segs data t b, 0 < data.length → data.length ≤ 2 ^ 31 → s.takeBuf data.length = some (t, b) →
        (t.pool b.1).level = 0 → s.rdmaWhere q key 1 va data.length .write = .ok (region, off, segs) →
        exec (.rdmaWrite qpn psn key va data) s =
          .next (t.rdmaAdmit qpn psn q (askWrite key va data) region off segs (some b)) ∧
        ∀ imm, exec (.rdmaWriteImm qpn psn key va data imm) s =
          .next (t.rdmaAdmit qpn psn q (askWriteImm key va data imm) region off segs (some b))) ∧
      (∀ key va len region off segs, 0 < len → len ≤ 2 ^ 31 →
        s.rdmaWhere q key 0 va len .read = .ok (region, off, segs) →
        exec (.rdmaRead qpn psn key va len) s =
          .next (s.rdmaAdmit qpn psn q (askRead key va len) region off segs none)) ∧
      (∀ key va region off segs t b, va % 8 = 0 → s.takeBuf 8 = some (t, b) → (t.pool b.1).level = 0 →
        s.rdmaWhere q key 2 va 8 .atomic = .ok (region, off, segs) →
        (∀ x : DWord, exec (.atomicFetchAdd qpn psn key va x) s =
          .next (t.rdmaAdmit qpn psn q (askAdd key va x.toNat) region off segs (some b))) ∧
        (∀ x y : DWord, exec (.atomicCompareSwap qpn psn key va x y) s =
          .next (t.rdmaAdmit qpn psn q (askSwap key va x.toNat y.toNat) region off segs (some b))) ∧
        (∀ x : DWord, exec (.atomicWrite qpn psn key va x) s =
          .next (t.rdmaAdmit qpn psn q (askAtomicWrite key va (leBytes 8 x.toNat)) region off segs (some b)))) ∧
      (∀ key va len e, 0 < len → len ≤ 2 ^ 31 → s.rdmaWhere q key 0 va len .read = .error e →
        exec (.rdmaRead qpn psn key va len) s =
          .next ((s.psnTake qpn psn len).rdmaRefuse q qpn psn (s.keyFault q.host key 0 va len) e)) ∧
      (∀ key va imm,
        exec (.rdmaWrite qpn psn key va []) s = .next (((s.psnTake qpn psn 0).modQp qpn fun x => { x with
          nextReqId := 0 }).addResp qpn psn .ack true) ∧
        exec (.rdmaWriteImm qpn psn 0 va [] imm) s = .next (((s.psnTake qpn psn 0).modQp qpn fun x => { x with
          nextReqId := imm % 2 ^ 32 }).addResp qpn psn .ack true)) ∧
      (∀ key va len whole r, r = s.flushRange key va len whole →
        (s.flushFails q key r.1 r.2 = none →
          exec (.rdmaFlush qpn psn key va len whole) s = .next (((s.psnTake qpn psn 0).modQp qpn fun x => { x with
            flushes := x.flushes ++ [{
              psn := psn, reqs := (s.reqs.filter fun e => onQp qpn e.2 && isWrite e.2.op).map Prod.fst }] }).addResp
            qpn psn .flush false)) ∧
        (∀ e, s.flushFails q key r.1 r.2 = some e → exec (.rdmaFlush qpn psn key va len whole) s =
          .next ((s.psnTake qpn psn 0).rdmaRefuse q qpn psn (s.keyFault q.host key 3 r.1 r.2) e)))) ∧
    (∀ key va len, psnClass q.psnRx psn = 2 → (∀ e ∈ q.resps, e.resp ≠ .nak 0) →
      exec (.rdmaRead qpn psn key va len) s = .next (s.addResp qpn psn (.nak 0) true)) ∧
    (∀ f ∈ q.flushes, f.psn = psn → (∀ i ∈ f.reqs, s.reqs.get? i = none) → exec (.flushResponse qpn psn) s =
      .next ((s.modQp qpn fun x => { x with flushes := x.flushes.filter fun g => g.psn != psn }).respDue qpn psn
        .flush).settle)

/-- When a READ ends with a poisoned sector in its data, or a READ or atomic ends poisoned or lost (the tile is
uncorrectable on both twins), and its response is next in the order of an ESTABLISHED QP whose packets go out at once, the
NAK remote access error is sent in its place, with no data, and the QP is in ERROR. -/
def Obligations.PoisonedReadIsNakedAndEndsTheQp : Prop :=
  ∀ (s : State) (qpn psn : Nat) (q : Qp) (r : Req) (e : Ending) (x : RdmaResp) (l : List RespEnt),
    s.qp? qpn = some q → q.state = .established → s.sendsNow q → q.resps = { psn := psn, due := false, resp := x } :: l →
    r.acked = false → r.silent = false →
    ((∃ bytes poison, e = .data bytes poison ∧ poison.any id = true) ∨ e = .poisoned ∨ e = .lost) →
    (∃ k, .rdma k qpn psn .nakAccess ∈ (s.rdmaEnded qpn psn r e).out) ∧
    (∀ k bytes, .rdma k qpn psn (.readData bytes) ∈ (s.rdmaEnded qpn psn r e).out →
      .rdma k qpn psn (.readData bytes) ∈ s.out) ∧
    ∃ y, (s.rdmaEnded qpn psn r e).qp? qpn = some y ∧ y.state = .error

/-- On an ESTABLISHED QP in order, below the throttle level: KEEPALIVE is acknowledged and answered under its TAG; an
MKEY_REGISTER that passes its checks lists the key on both twins and replies once both hold it; MKEY_INVALIDATE of the
lease's own key makes it dead on both twins and replies once nothing under it is in flight; with a lease that is not ACTIVE
both answer LEASE_STATE. An ACTIVE lease that lapses is LAPSED on this twin, LEASE_LAPSE is set, and its QPs go to ERROR. The
record of a REVOKED lease is freed. An acknowledgement timeout sends what is outstanding again until RETRY_CNT, then takes the
QP to ERROR with RETRY_EXHAUSTED; an acknowledgement takes the oldest off and resets the retries. -/
def Obligations.KeysLeasesAndRequester : Prop :=
  (∀ (s u : State) (qpn psn : Nat) (q : Qp) (tag : Nat), s.qp? qpn = some q → q.state = .established →
    s.bit Reg.secCtl 0 = true → psnClass q.psnRx psn = 0 → s.rnrNow false = false →
    u = (s.psnTake qpn psn 0).addResp qpn psn .ack true →
    exec (.keepalive qpn psn { tag := tag, length := 16 }) s = .next (u.wcmSend qpn 0x11 tag 0 16 []) ∧
    (q.service ≤ 1 →
      (∀ region verbs tg rof va len idx k t,
        exec (.mkeyRegister qpn psn { tag := tag, length := 47 } region verbs tg rof va len) s =
          .next (u.wcmSend qpn 0x21 tag 4 16 []) ∧
        (u.leaseLive q.host = false →
          exec (.mkeyRegister qpn psn { tag := tag, length := 48 } region verbs tg rof va len) s =
            .next (u.wcmSend qpn 0x21 tag 5 16 [])) ∧
        (u.leaseLive q.host = true → u.keyMake q.host region verbs tg rof va len = .ok (t, idx, k) →
          exec (.mkeyRegister qpn psn { tag := tag, length := 48 } region verbs tg rof va len) s =
            .next ((t.both [.mkey idx k] false none).1.replyLater (t.both [.mkey idx k] false none).2 [] qpn 0x21 tag
              (rkeyOf idx k.gen k.tag)))) ∧
      (∀ rkey idx k, u.leaseLive q.host = true → u.keyNamed rkey = some (idx, k) →
        (k.host = q.host → exec (.mkeyInvalidate qpn psn { tag := tag, length := 20 } rkey) s =
          .next ((u.both [.mkey idx { k with live := false }] false none).1.replyLater
            (u.both [.mkey idx { k with live := false }] false none).2 (u.underKey k) qpn 0x23 tag rkey)) ∧
        (k.host ≠ q.host → exec (.mkeyInvalidate qpn psn { tag := tag, length := 20 } rkey) s =
          .next (u.wcmSend qpn 0x23 tag 1 16 []))))) ∧
  (∀ (s : State) (host : Nat) (l : Lease), s.leases.get? host = some l →
    (l.state = .active → Yields (.leaseLapse host) s fun t => (∃ m, t.leases.get? host = some m ∧ m.state = .lapsed) ∧
      t.bit Reg.rdxEvent 2 = true ∧ t.mkeys = s.mkeys) ∧
    (l.state = .revoked → l.revokeDone = true → Yields (.leaseRecordFree host) s fun t =>
      t.leases = s.leases.erase host ∧ t.mkeys = s.mkeys ∧ t.rdx = s.rdx ∧ t.mem = s.mem)) ∧
  (∀ (s : State) (qpn : Nat) (q : Qp), s.qp? qpn = some q → q.state = .established →
    (q.outstanding ≠ [] → q.retries < s.fld Reg.rdxReqRetry 7 5 → exec (.requesterAckTimeout qpn) s =
      .next ((q.outstanding.foldl (fun (u : State) x => u.recordAgain qpn x)
        (s.modQp qpn fun x => { x with retries := x.retries + 1 })).ctrLimit qpn)) ∧
    (q.outstanding ≠ [] → s.fld Reg.rdxReqRetry 7 5 ≤ q.retries →
      exec (.requesterAckTimeout qpn) s = .next ((s.qpError qpn).flag Reg.rdxEvent 3)) ∧
    exec (.requesterAckReceived qpn) s =
      .next (s.modQp qpn fun x => { x with outstanding := x.outstanding.drop 1, retries := 0 }))

/-- A fetched command that may start (R205 to R207). COPY reads its source under the translation of its admission, FILL writes
the pattern; an E2E COPY and a CRC_CHECK wait for a CRC channel, which they take in fetch order as requests go on. PREFETCH
acts on the tiles of its range that flash or a move holds, PIN on every tile here and at the peer, UNPIN clears PINNED on both
twins and ends, PERSIST_NOTIFY asks for its notification's sequence where the window is open, or waits. A COPY, FILL,
PERSIST_NOTIFY or CRC_CHECK whose range fails a check is refused: the fault registers record it (address 0 where no region is
named) and it ends with the status of R49. Then requests go on (settle). -/
def Obligations.TransferCommandsStart : Prop :=
  ∀ (s : State) (sq : Fin 4096) (pos n : Nat) (c : Cmd) (q : Sq),
    (s.startable sq pos 1 n c q →
      (∀ src dst, s.tqWhere q.host c.d.src c.d.len .read = .ok src → s.tqWhere q.host c.d.dst c.d.len .write = .ok dst →
        (c.d.e2e = false → exec (.tqCopy sq pos) s =
          .next ((s.modCmd n fun x => { x with stage := .running, src := src, dst := dst, wait := false }).tqAsk n q.host .read
            (c.d.src / 2 ^ 52, c.d.src % 2 ^ 47, c.d.len) src [] []).settle) ∧
        (c.d.e2e = true → exec (.tqCopy sq pos) s =
          .next (s.modCmd n fun x => { x with stage := .running, src := src, dst := dst, wait := true }).settle)) ∧
      (∀ e, s.tqWhere q.host c.d.src c.d.len .read = .error e → exec (.tqCopy sq pos) s =
        .next ((s.refuse 3 q.host e (if e = .path then 0 else c.d.src)).tqOpen n c (xStatus e)).settle)) ∧
    (s.startable sq pos 2 n c q →
      (∀ dst, s.tqWhere q.host c.d.dst c.d.len .write = .ok dst → exec (.tqFill sq pos) s =
        .next ((s.modCmd n fun x => { x with stage := .writing, dst := dst }).tqAsk n q.host (tqWriteOp c.d)
          (c.d.dst / 2 ^ 52, c.d.dst % 2 ^ 47, c.d.len) dst (fillBytes c.d.dst c.d.len c.d.arg) []).settle) ∧
      (∀ e, s.tqWhere q.host c.d.dst c.d.len .write = .error e → e ≠ .right → exec (.tqFill sq pos) s =
        .next (((s.tqCbNote q.host c.d.dst c.d.len).refuse 3 q.host e (if e = .path then 0 else c.d.dst)).tqOpen n c
          (xStatus e)).settle)) ∧
    (s.startable sq pos 3 n c q → ∀ x, s.cq? (c.d.src % 2 ^ 12) = some x →
      (∀ segs, s.xlate q.host x.region x.base 256 .write = .ok segs → c.msg = 0 → q.notes.get? pos = none →
        (s.inWindow x x.nextSeq = false → exec (.tqPersistNotify sq pos) s = .next (s.tqStage n .running).settle) ∧
        (s.inWindow x x.nextSeq = true → ∀ p, (s.tqStage n .running).seqAsk sq pos (c.d.src % 2 ^ 12) (noteRec c) = p →
          exec (.tqPersistNotify sq pos) s = .next (State.settle (if p.2.1 = 0 then p.1.modCmd n fun y => { y with msg := p.2.2 }
            else (p.1.modCmd n fun y => { y with msg := p.2.2 }).seqDone sq pos p.2.1 true)))) ∧
      (∀ e, s.xlate q.host x.region x.base 256 .write = .error e → exec (.tqPersistNotify sq pos) s =
        .next (s.tqRefuse n c q.host (apAddr x.region x.base) e))) ∧
    (s.startable sq pos 4 n c q →
      (∀ src, s.tqWhere q.host c.d.src c.d.len .read = .ok src → exec (.tqCrcCheck sq pos) s =
        .next (s.modCmd n fun x => { x with stage := .running, src := src, wait := true }).settle) ∧
      (∀ e, s.tqWhere q.host c.d.src c.d.len .read = .error e →
        exec (.tqCrcCheck sq pos) s = .next (s.tqRefuse n c q.host c.d.src e))) ∧
    (∀ rg, s.startable sq pos 5 n c q → s.tqWhere q.host c.d.src c.d.len .read = .ok rg →
      let l := (s.cmdTiles c.d.src c.d.len).filter s.prefetches
      exec (.tqPrefetch sq pos) s = .next (l.foldl (fun (u : State) x => u.prefetchTile n x)
        (s.modCmd n fun x => { x with stage := .running, left := l })).settle) ∧
    (∀ rg, s.startable sq pos 6 n c q → s.tqWhere q.host c.d.dst c.d.len .write = .ok rg →
      let l := s.cmdTiles c.d.dst c.d.len
      (s.paired = false → exec (.tqPin sq pos) s = .next (l.foldl (fun (u : State) x => u.pinFor x [n] [])
        (s.modCmd n fun x => { x with stage := .running, left := l, peerLeft := [] })).settle) ∧
      (s.paired = true → exec (.tqPin sq pos) s = .next (l.foldl (fun (u : State) x => u.pinFor x [n] [])
        ((s.post (.control (l.map fun x => .pinAsk n x))).modCmd n fun x => { x with
          stage := .running, left := l, peerLeft := l })).settle)) ∧
    (∀ rg, s.startable sq pos 7 n c q → s.tqWhere q.host c.d.dst c.d.len .write = .ok rg →
      exec (.tqUnpin sq pos) s =
        .next ((s.bothNow ((s.cmdTiles c.d.dst c.d.len).map fun x => .pin x false)).tqFinish n c 0 0).settle)

/-- With the path, state and right in order and no change of the region waiting for the peer: from a MAINT queue SANITIZE
takes the region OFFLINE and FORMAT begins at the first granule of its range, its progress recorded on both twins; without
MAINT either ends with PERMISSION; one on a region where another runs waits. SANITIZE's phase 1 ends, once nothing admitted is
in flight, with KEY_EPOCH advanced modulo 256 under a key just drawn; phase 2 unmaps; phase 3 ends on each twin when its
blocks are erased, and then the executing twin takes the region ONLINE and completes the command. A step of a FORMAT, its
accesses done, zeroes the granule's part of the range on both twins, and the last completes the command. After a reset the
command is taken up from its record at its position. -/
def Obligations.SanitizeAndFormat : Prop :=
  (∀ (s : State) (sq : Fin 4096) (pos n op : Nat) (c : Cmd) (q : Sq) (id off : Nat) (segs : List (Nat × Nat)),
    s.startable sq pos op n c q → c.sq = sq → apSplit c.d.dst = some (id, off) → bitsOf c.d.dst 63 52 = id →
    (∀ p, s.progress.get? id = some p → ownProgress p c = false →
      (op = 8 → exec (.tqSanitize sq pos) s = .next s) ∧ (op = 9 → exec (.tqFormat sq pos) s = .next s)) ∧
    (s.progress.get? id = none → s.xlate q.host id 0 0 .atomic = .ok segs →
      (q.maint = false → (op = 8 → exec (.tqSanitize sq pos) s = .next (s.tqOpen n c 3).settle) ∧
        (op = 9 → exec (.tqFormat sq pos) s = .next (s.tqOpen n c 3).settle)) ∧
      (q.maint = true → s.ctlRegion id = false →
        (∀ x, op = 8 → s.xlate q.host id off 0 .atomic = .ok x → exec (.tqSanitize sq pos) s =
          .next ((s.tqStage n .running).both [.progress id (some { phase := 1, sq := sq, pos := c.pos, d := c.d, next := 0 }),
            .region id { s.region id with state := .offline }] true none).1.settle) ∧
        (∀ x p, op = 9 → s.xlate q.host id off c.d.len .atomic = .ok x →
          p = ({ phase := 0, sq := sq, pos := c.pos, d := c.d, next := c.d.dst % 2 ^ 47 / gib } : Progress) →
          exec (.tqFormat sq pos) s = .next ((s.tqStage n .running).bothNow [.progress id (some { p with
            access := s.accessIn id (formatStep p).1 (formatStep p).2 })]).settle)))) ∧
  (∀ (s : State) (r : Fin 4096) (p : Progress) (n : Nat) (c : Cmd), s.progress.get? r = some p →
    s.progressCmd p = some (n, c) → s.ctlRegion r = false →
    (p.phase = 1 → (s.region r).state = .offline → s.regionBusy r = false → s.sec.entropyOk = true →
      exec (.sanitizePhaseComplete r) s = .next (s.draw.1.both
        [.key r (((s.region r).epoch + 1) % 256) (Config.random s.draw.2 % 2 ^ 256),
         .region r { s.region r with epoch := ((s.region r).epoch + 1) % 256 },
         .progress r (some { p with phase := 2 })] true none).1) ∧
    (p.phase = 2 → s.oldHeld r = false → exec (.sanitizePhaseComplete r) s = .next (s.unmapRegion r p).settle) ∧
    (p.phase = 4 → exec (.sanitizePhaseComplete r) s =
      .next ((s.both [.region r { s.region r with state := .online }] true none).1.progressEnd r n c)) ∧
    (p.phase = 0 → p.access.any s.flying = false →
      let zero : Change := .zeroTiles (s.psaOf (s.region r) (formatStep p).1 / 4096) ((formatStep p).2 / 4096)
      let q : Progress := { p with next := p.next + 1 }
      (c.d.dst % 2 ^ 47 + c.d.len ≤ (p.next + 1) * gib →
        exec (.formatStepComplete r) s = .next ((s.bothNow [zero]).progressEnd r n c)) ∧
      ((p.next + 1) * gib < c.d.dst % 2 ^ 47 + c.d.len →
        exec (.formatStepComplete r) s = .next (s.bothNow [zero, .progress r (some { q with
          access := s.accessIn r (formatStep q).1 (formatStep q).2 })]).settle))) ∧
  (∀ (s : State) (r : Fin 4096) (p : Progress), s.progress.get? r = some p → p.phase = 3 → s.scrubErased p.waits = true →
    (s.scrubRelease r).settle.progressCmd p = none →
    exec (.sanitizePhaseComplete r) s = .next (s.scrubRelease r).settle) ∧
  (∀ (s : State) (r : Fin 4096) (p : Progress) (q : Sq), s.progress.get? r = some p → s.cmdAt p.sq p.pos = none →
    s.sq? p.sq = some q → s.execHere q = true → exec (.sanitizeFormatResume r) s = .next (State.takeUp { s with
      cmds := s.cmds.set s.cmdSeq { sq := p.sq, pos := p.pos, d := p.d }, cmdSeq := s.cmdSeq + 1 } s.cmdSeq r p))

/-- A doorbell on an ACTIVE queue that is executed here and whose control block is not poisoned. PROD one past FETCH, room to
fetch and an entry with the phase of its lap that passes R204: the command is fetched, FETCH moves by one, is published, and
goes to the peer. The wrong phase: nothing is fetched, the flag is set and the queue waits for the slot to be written. More
than SIZE ahead: ERROR. A pause cause: nothing. The doorbell register of firmware and FETCH_RESUME act alike. A command whose
sequence both twins hold leaves the device, DONE_MASK, TAIL and COMPLETED following. When CONS opens the window the next record
goes to its target; a coalescing window's end raises its signal. The CRC unit: LOAD copies INIT to STATE, and a data write
feeds its 4 bytes or 1 byte, least significant byte first. -/
def Obligations.FetchCompletionAndCrc : Prop :=
  (∀ (s : State) (sq : Fin 4096) (q : Sq), s.sq? sq = some q → q.state = .active → s.execHere q = true →
    s.cbPoisoned q = false →
    (s.prodOf q = q.fetch + 1 → s.mayFetch sq q = true →
      ((s.entryAt q q.fetch).phase = phaseAt q q.fetch → s.descOk (s.entryAt q q.fetch) = true →
        exec (.sqDoorbell sq) s = .next (((State.modSq { s with
          sqWait := s.sqWait.erase sq, cmdSeq := s.cmdSeq + 1
          cmds := s.cmds.set s.cmdSeq { sq := sq, pos := q.fetch, d := s.entryAt q q.fetch } } sq
            fun x => { x with fetch := x.fetch + 1 }).sqPublish sq).tellPeer [.sq sq { q with fetch := q.fetch + 1 }]).settle) ∧
      ((s.entryAt q q.fetch).phase ≠ phaseAt q q.fetch → exec (.sqDoorbell sq) s =
        .next (State.settle { s.flag Reg.tqmEvent 0 with sqWait := (s.sqWait.erase sq).set sq q.fetch }))) ∧
    (2 ^ q.log2 < s.prodOf q - q.fetch → exec (.sqDoorbell sq) s = .next ((((State.sqError { s with
      sqWait := s.sqWait.erase sq } sq).sqPublish sq).tellPeer [.sq sq { q with state := .error }]).settle)) ∧
    (s.prodOf q - q.fetch ≤ 2 ^ q.log2 → 0 < s.pauseCause → exec (.sqDoorbell sq) s =
      .next (State.settle { s with sqWait := s.sqWait.erase sq }))) ∧
  (∀ (s : State) (sq : Fin 4096), s.cmdReady Reg.tqmDoorbell →
    exec (.tqmDoorbell .firmware sq) s = .next (s.ringBell sq)) ∧
  (∀ (s : State) (sq : Fin 4096) (q : Sq), s.sqs = [(sq.val, q)] → s.sqWait = [] →
    exec .fetchResume s = exec (.sqDoorbell sq) s) ∧
  (∀ (s : State) (sq : Fin 4096) (pos n : Nat) (c : Cmd), s.cmdAt sq pos = some (n, c) →
    c.stage = .assigning → c.seq ≠ 0 → s.twn.tx.get? c.msg = none →
    exec (.tqCommandComplete sq pos) s = .next ((((State.modSq { s with cmds := s.cmds.erase n } sq
      fun x => sqDone x pos).sqPublish sq).count Reg.tqmCount).settle)) ∧
  (∀ (s : State) (cq : Fin 4096) (c : Cq) (r : CqRec), (∀ e ∈ s.cmds, e.2.d.opcode ≠ 3) → s.cq? cq = some c →
    c.recs.get? c.sent = some r → c.recs.get? (c.sent + 1) = none → c.nextSeq = c.sent + 1 → (s.myTarget c).kind = 1 →
    s.recHeld cq c.sent = false → s.targetUp (s.myTarget c) = true → s.twn.fenceIn = false → s.inWindow c c.sent = true →
    r.notify = false → exec (.cqConsAdvance cq) s =
      .next ((s.emit (.cqRecord none (s.myTarget c) cq 0 (recordAddr (s.myTarget c) c c.sent) none
        (recordBytes s.twin c.sent r))).modCq cq fun x => { x with sent := x.sent + 1 }).settle) ∧
  (∀ (s : State) (cq : Fin 4096) (c : Cq) (seq : Nat), s.cq? cq = some c → c.signal = some seq →
    ((s.myTarget c).kind ≠ 2 → exec (.notifyCoalesceExpiry cq) s =
      .next ((s.modCq cq fun x => { x with signal := none }).emit (.msix (s.myTarget c).ld c.vector))) ∧
    (∀ r, (s.myTarget c).kind = 2 → c.recs.get? seq = some r → exec (.notifyCoalesceExpiry cq) s =
      .next ((s.modCq cq fun x => { x with signal := none }).rdmaRecord (s.myTarget c) cq c seq r (some (seq % 2 ^ 32))))) ∧
  (∀ (s : State), s.cmdReady Reg.crcFwCtl →
    exec (.crcFwLoad .firmware) s = .next (s.setReg64 Reg.crcFwStateLo (s.reg64 Reg.crcFwInitLo))) ∧
  (∀ (s : State) (w : Word), s.cmdReady Reg.crcFwData32 → exec (.crcFwData32 .firmware w) s =
    .next (s.setReg64 Reg.crcFwStateLo ((leBytes 4 w.toNat).foldl (crcByte s.crcWidth
      (s.reg64 Reg.crcFwPolyLo % 2 ^ s.crcWidth) (s.bit Reg.crcFwCfg 7)) s.crcState))) ∧
  (∀ (s : State) (b : Byte), s.cmdReady Reg.crcFwData8 → exec (.crcFwData8 .firmware b) s =
    .next (s.setReg64 Reg.crcFwStateLo (crcByte s.crcWidth
      (s.reg64 Reg.crcFwPolyLo % 2 ^ s.crcWidth) (s.bit Reg.crcFwCfg 7) s.crcState b)))

/-- A promotion whose reads, all taken up by their dies, are good switches the tile to its frame in DRAM (unlocked, its old
flash location returned as invalid), leaves the moves, is counted, and what joined it goes on; one with an uncorrectable slice
is abandoned and the tile repaired. An eviction whose program has verified switches it to FLASH at its new location, frees the
frame, counts, and takes one off the ledger's demand. A relocation switches it to the new location and returns the old one as
invalid; a repair that the ledger refused a frame switches to its new location too. Then waiting work is served. -/
def Obligations.MovesSwitchHomes : Prop :=
  (∀ (s : State) (tile f : Nat) (m : Move), s.moves.get? tile = some m → m.kind = .promote → m.stage = .moving →
    m.why ≠ .atomTile → s.mediaStep.readsIssued tile m = true →
    (∀ bad : List (Fin 8), bad ≠ [] → exec (.promotionSwitch tile bad) s =
      .next ((s.promoteFail tile m (bad.map Fin.val)).nextSlot (engineOf tile)).settle) ∧
    (m.frame = some f →
    let t : State := { s.switchDram tile f with moves := s.moves.erase tile }
    exec (.promotionSwitch tile []) s =
      .next (((t.count Reg.plcCount).moveJoined tile m).nextSlot (engineOf tile)).settle ∧
    (t.tile tile).home = .dram ∧ (t.tile tile).loc = f ∧ (t.tile tile).lock = false ∧ t.moves.get? tile = none)) ∧
  (∀ (s : State) (tile : Nat) (m : Move), s.moves.get? tile = some m → m.kind = .evict → m.stage = .verified →
    let t := State.setTile { s with moves := s.moves.erase tile } tile
      { s.tile tile with home := .flash, loc := m.dest, lock := false, evict := false }
    exec (.evictionSwitch tile) s = .next (State.settle (State.serveQueue (State.nextSlot (State.joinedPromote
      (((t.validUp m.dest tile).freeFrameNo (s.tile tile).loc).count (Reg.plcCount + 4)).demandDown.noteFrames tile m)
        (engineOf tile)))) ∧
    (t.tile tile).home = .flash ∧ (t.tile tile).loc = m.dest ∧ t.moves.get? tile = none) ∧
  (∀ (s : State) (tile : Nat) (m : Move), s.moves.get? tile = some m → m.stage = .verified →
    let t := State.setTile { s with moves := s.moves.erase tile } tile
      { s.tile tile with home := .flash, loc := m.dest, lock := false, evict := false }
    (m.kind = .relocate → exec (.relocationSwitch tile) s = .next (State.settle (State.nextSlot (State.joinedPromote
      ((t.validUp m.dest tile).invalidateLoc (s.tile tile).loc) tile m) (engineOf tile)))) ∧
    (m.kind = .repair → exec (.relocationSwitch tile) s = .next (State.settle (State.nextSlot (State.joinedPromote
      (((t.validUp m.dest tile).err1 8 .repaired).loseSectors tile ((t.validUp m.dest tile).badSectors tile)) tile m)
        (engineOf tile)))) ∧
    (t.tile tile).home = .flash ∧ (t.tile tile).loc = m.dest)

/-- A write that waits past the limit for a tile's promotion is noted, and the first of a period sets PROMO_WAIT_OVER with
its record. When the ledger admits frames again, waiting work is served; the save-area drain starts a promotion of every
unlocked SAVE_AREA tile. The frame sweep, enabled and with frames, moves past a frame that holds no tile, visits one whose map
line is resident, and misses else. A new second makes the eviction cap whole. The map sweep, enabled, halves the HEAT of a
flash tile whose line is resident, and goes on to the next entry. A decay period halves every access count. A map-line fill
that its channel issues next, its entries good, makes the line resident and clean. The
audit releases each held location that no entry names (with none held it only lets waiting work go on). -/
def Obligations.PlacementSweepsAndWaits : Prop :=
  (∀ (s : State) (tile : Nat), s.waitsPromo tile = true →
    let t : State := { s with plc := { s.plc with waitOver := insertNew s.plc.waitOver tile } }
    exec (.promoWaitOver tile) s = .next (if s.plc.waitOver.isEmpty
      then t.flagRecord Reg.plcEvent 1 0x0802 ((s.regionOfTile tile).getD 0) 0 else t)) ∧
  (∀ s : State, exec .promotionQueueServe s = .next s.ledgerEval.serveQueue.settle) ∧
  (∀ s : State, exec .saveAreaDrain s = .next ((s.tiles.filter fun e => e.2.home == .saveArea && !e.2.lock).foldl
    (fun t e => t.startMove e.1 .promote .drain []) s).settle) ∧
  (∀ s : State, s.bit Reg.plcCtl 2 = true → s.framesTotal ≠ 0 → s.frames.get? (s.frameBase + s.plc.sweep) = none →
    exec .frameSweepVisit s = .next (State.sweepNext { s with plc := { s.plc with
      pinDemoted := s.plc.pinDemoted && decide (s.ledgerWant ≠ 0) } })) ∧
  (∀ (s : State) (f : Frame), s.bit Reg.plcCtl 2 = true → s.framesTotal ≠ 0 →
    s.frames.get? (s.frameBase + s.plc.sweep) = some f →
    let t : State := { s with plc := { s.plc with pinDemoted := s.plc.pinDemoted && decide (s.ledgerWant ≠ 0) } }
    (s.mapHit f.tile = true → f.held = false → (s.tile f.tile).home = .dram →
      (s.tile f.tile).loc = s.frameBase + s.plc.sweep → exec .frameSweepVisit s = .next (t.visitFrame f).settle) ∧
    (s.mapHit f.tile = false → s.plc.tmcFills.contains (mapLine f.tile) = false →
      exec .frameSweepVisit s = .next ((t.count (Reg.plcCount + 0x1C)).mapFill f.tile))) ∧
  (∀ s : State, exec .evictionCapSecond s = .next (State.nextSlots { s with plc := { s.plc with started := 0 } }).settle) ∧
  (∀ s : State, s.bit Reg.plcCtl 3 = true → (inFlash (s.tile s.plc.mapSweep).home = true → s.mapHit s.plc.mapSweep = true) →
    Yields .mapSweepRead s fun t =>
    (inFlash (s.tile s.plc.mapSweep).home = true →
      (t.tile s.plc.mapSweep).heat = (s.tile s.plc.mapSweep).heat / 2) ∧
    (∀ x, x ≠ s.plc.mapSweep → t.tile x = s.tile x) ∧ t.mem = s.mem ∧ t.regs = s.regs ∧
    t.plc.mapSweep = if s.plc.mapSweep + 1 < s.exposed * 262144 then s.plc.mapSweep + 1 else 0) ∧
  (∀ s : State, exec .decayPeriod s = .next { s with plc := { s.plc with heat := s.plc.heat.mapV (· / 2) } }) ∧
  (∀ (s t : State) (line : Nat), s.plc.tmcFills.contains line = true →
    s.served (chOfLine (line / 64) (line / 4)) 1 line = some t → exec (.tmcFill line []) s = .next (State.settle
    { t with plc := { t.plc with
        tmcFills := t.plc.tmcFills.filter (· != line)
        tmc := tmcPut t.dirtyLimit t.plc.clock t.plc.tmc line false
        clock := t.plc.clock + 1 } })) ∧
  (∀ s : State, (s.frames.filter fun e => e.2.held && !s.namesLoc true e.1) = [] → s.plc.heldFlash = [] →
    exec .mapAudit s = .next s.serveQueue.settle) ∧
  (∀ (s : State) (k : Nat) (f : Frame), (s.frames.filter fun e => e.2.held && !s.namesLoc true e.1) = [(k, f)] →
    f.bad = false → s.plc.heldFlash = [] →
    exec .mapAudit s = .next (State.noteFrames { s with frames := s.frames.erase k }).serveQueue.settle)

/-- Each access of a line's channel takes effect for the request that the channel issues next. A line that is FILLING and whose
sectors are good, here and before, becomes CLEAN. A line that is WRITING_BACK is CLEAN when its write reaches DRAM, or INVALID
where it was to be and OPEN is 0. An eviction buffer is free when its write reaches DRAM. Cleaning, enabled and running,
begins the write-back of the least recently used DIRTY line with OPEN 0 of its slice. A register maintenance command, while
none runs and of scope 0 to 2, takes its lines and begins (OP 0 write-back, OP 1 write-back and invalidate), lines being filled
counted; when every line has been acted on DONE is set. A held set whose scan is done is released, its tiles FAILED. -/
def Obligations.HlcLines : Prop :=
  (∀ (s t u : State) (tile key : Nat) (line : Fin 16) (w : Way), s.line? tile line = some (key, w) →
    u = t.chiveHits (s.chanOf tile line) (s.tile tile).loc →
    (w.state = .filling → inDram (s.tile tile).home = true → s.served (s.chanOf tile line) 0 (tile * 16 + line) = some t →
      u.line? tile line = some (key, w) → u.badInLine tile line 0 = [] →
      exec (.hlcFillComplete tile line 0 false 0) s =
        .next ((u.setWay key { w with state := .clean }).directDone (tile * 16 + line)).settle) ∧
    (w.state = .writingBack → s.served (s.chanOf tile line) 2 (tile * 16 + line) = some t →
      exec (.hlcWritebackDone tile line 0) s = .next (if w.inval && w.opens == 0 then ((u.writeCheck tile line 0).freeWay key).settle
        else ((u.writeCheck tile line 0).setWay key { w with state := .clean, dirty := false }).settle))) ∧
  (∀ (s t u : State) (tile : Nat) (line : Fin 16), s.inEvb tile line = true →
    s.served (s.chanOf tile line) 2 (tile * 16 + line) = some t → u = t.chiveHits (s.chanOf tile line) (s.tile tile).loc →
    exec (.hlcEvbWriteComplete tile line) s = .next (State.settle { u with
      hlc := { u.hlc with evb := u.hlc.evb.erase ({ tile := tile, line := line } : Evb) } })) ∧
  (∀ (s : State) (tile key : Nat) (line : Fin 16) (w : Way), s.bit Reg.hlcCtl 0 = true → s.cleaningNow = true →
    s.lruDirty (hlcSlice tile) = some (key, w) → w.tile = tile → w.line = line →
    exec (.hlcClean tile line) s = .next (State.settle (State.setWay { s with hlc := { s.hlc with cleaning := true } } key
      { w with state := .writingBack }))) ∧
  (∀ (s : State) (scope : Fin 4) (l : List (Nat × Nat)) (t : State), s.cmdReady Reg.hlcMaintCmd → s.hlc.maint = none →
    scope.val < 3 →
    l = (if scope.val = 0 then [((s.reg Reg.hlcMaintLo).toNat / 16 + 2 ^ 28 * s.fld Reg.hlcMaintHi 6 0, s.fld Reg.hlcMaintLo 3 0)]
      else if scope.val = 1 then (List.range 16).map fun i =>
        ((s.reg Reg.hlcMaintLo).toNat / 16 + 2 ^ 28 * s.fld Reg.hlcMaintHi 6 0, i)
      else s.hlc.ways.vals.map fun w => (w.tile, w.line)) →
    t = (s.countBy (Reg.hlcCount + 0x1C) (l.filter fun p => match s.line? p.1 p.2 with
      | some (_, w) => w.state == .filling
      | none => false).length).setReg Reg.hlcMaintStatus (w32 (2 * b2n (s.bit Reg.hlcMaintStatus 1))) →
    exec (.hlcMaintWriteback .firmware scope) s = .next (State.settle { t with
      hlc := { t.hlc with maint := some { inval := false, whole := scope.val == 2, todo := l } } }) ∧
    exec (.hlcMaintWbInval .firmware scope) s = .next (State.settle { t with
      hlc := { t.hlc with maint := some { inval := true, whole := scope.val == 2, todo := l } } })) ∧
  (∀ (s : State) (m : Maint), s.hlc.maint = some m → m.todo = [] → exec .hlcMaintComplete s =
    .next (State.flag { s with hlc := { s.hlc with maint := none } } Reg.hlcMaintStatus 1)) ∧
  (∀ (s : State) (slice : Fin 16) (set : Fin 2048), s.hlc.heldSets.contains (slice.val * 2048 + set.val) = true →
    let t : State := { s with hlc := { s.hlc with
      heldSets := s.hlc.heldSets.filter (· != slice.val * 2048 + set.val) } }
    exec (.tagSetScanDone slice set) s =
      .next ((t.tilesInSet (slice.val * 2048 + set.val)).foldl State.scanFail t).settle)

/-- An alert flags, counts and classes a retried error, closes the channel's rows and sends its commands again, and the
eighth in a millisecond asks for retraining. RETRAIN_DUE flags and records, and its window starts again. A rank's MR4 level
is kept, and one newly above its range sets THERMAL with a record. An active channel tracks its oscillators. A refresh due
is issued with those postponed where no urgent request is queued on the rank or four are postponed, else postponed. A
refresh-management command clears its bank's count. An idle bank's row closes. A queued request that reaches its target is
urgent, and one at twice its target is also noted LATE, which counts when it is served. -/
def Obligations.DramChannelEvents : Prop :=
  ∀ (s : State) (ch : Fin 16),
    (∀ subB, let t := (((s.flag (chOff Reg.dmcChEvent ch) 3).count (chOff Reg.dmcChCount ch + 0xC)).err1 10
        .retried).modChan ch fun c => { c with rows := [], hits := [] }
      exec (.dmcAlert ch subB false) s = .next (t.emit (.dramCmd ch 0 (b2n subB))) ∧
      exec (.dmcAlert ch subB true) s = .next (((t.emit (.dramCmd ch 0 (b2n subB))).flagRecord
        (chOff Reg.dmcChEvent ch) 4 0x0A03 ch 0).modChan ch fun c => { c with badReads := 0 })) ∧
    exec (.retrainDue ch) s = .next ((s.flagRecord (chOff Reg.dmcChEvent ch) 4 0x0A03 ch 0).modChan ch
      fun c => { c with badReads := 0 }) ∧
    (∀ rank, exec (.mr4Poll ch rank 0) s = .next (s.modChan ch fun c => { c with temps := c.temps.erase rank }) ∧
      exec (.mr4Poll ch rank 1) s = .next (s.modChan ch fun c => { c with temps := c.temps.set rank 1 }) ∧
      ((s.chan ch).temps.getD rank 0 = 2 → exec (.mr4Poll ch rank 2) s =
        .next (s.modChan ch fun c => { c with temps := c.temps.set rank 2 })) ∧
      ((s.chan ch).temps.getD rank 0 ≠ 2 → exec (.mr4Poll ch rank 2) s =
        .next ((s.modChan ch fun c => { c with temps := c.temps.set rank 2 }).flagRecord (chOff Reg.dmcChEvent ch) 8
          0x0A02 ch 0))) ∧
    (∀ rank, (s.chan ch).state = .active →
      exec (.oscTracking ch rank) s = .next (s.emit (.dramCmd ch 3 rank)) ∧
      ((s.rankUrgent (s.queued ch (s.chan ch)) rank = false ∨ refreshLimit ≤ (s.chan ch).postponed.getD rank 0) →
        exec (.refreshDue ch rank) s = .next ((s.modChan ch fun x => { x with
          postponed := x.postponed.erase rank }).refreshes ch rank ((s.chan ch).postponed.getD rank 0 + 1))) ∧
      (s.rankUrgent (s.queued ch (s.chan ch)) rank = true → (s.chan ch).postponed.getD rank 0 < refreshLimit →
        exec (.refreshDue ch rank) s = .next (s.modChan ch fun x => { x with
          postponed := x.postponed.set rank ((s.chan ch).postponed.getD rank 0 + 1) }))) ∧
    (∀ bank, exec (.rfmDue ch bank) s =
      .next ((s.modChan ch fun c => { c with acts := c.acts.erase bank }).emit (.dramCmd ch 2 bank)) ∧
      exec (.bankIdleExpiry ch bank) s =
        .next (s.modChan ch fun c => { c with rows := c.rows.erase bank, hits := c.hits.erase bank })) ∧
    (∀ line, ((s.queued ch (s.chan ch)).queue.any fun r => r.line == line) = true →
      exec (.requestAgeTarget ch line false) s = .next (s.modChan ch fun c => { s.queued ch c with
        urgent := insertNew c.urgent line }).chanPoll ∧
      exec (.requestAgeTarget ch line true) s = .next (s.modChan ch fun c => { s.queued ch c with
        urgent := insertNew c.urgent line, late := insertNew c.late line }).chanPoll)

/-- Firmware's training commands start the channels of the mask, none of which trains: full, with stored results, or the
training span alone. Training that succeeds reloads the chive list and makes the channel ACTIVE; stored results that do not
verify lead to a full training, or to the training span where the contents are kept; the third failure of a full training
halts, and a failed retrain takes the twin out of service. SELF_REFRESH places each active channel in self-refresh once its
queue is empty, and its end takes each out. A chive entry is enabled or disabled by its VALID bit; its copy's end puts it in
the health record; a failing sector at the threshold takes the lowest free entry where CHIVE_AUTO is 1. A scrub pass starts,
is stopped, and ends with its summary and its flags. -/
def Obligations.DramTrainingChivesAndScrub : Prop :=
  (∀ (s : State) (mask : BitVec 16), s.cmdReady Reg.dmcTrain →
    (∀ n, n < 16 → mask.getLsbD n = true → (s.chan n).state ≠ .training ∧ (s.chan n).state ≠ .retrain) →
    (Yields (.dmcTrainFull .firmware mask) s fun t => t = s.trainStart 0 mask.toNat ∧ ∀ n, n < 16 →
      (mask.getLsbD n = true → (t.chan n).state = .training ∧ (t.chan n).mode = 0 ∧ (t.chan n).attempts = 0) ∧
      (mask.getLsbD n = false → t.chan n = s.chan n)) ∧
    (Yields (.dmcTrainStored .firmware mask) s fun t => t = s.trainStart 1 mask.toNat ∧ ∀ n, n < 16 →
      (mask.getLsbD n = true → (t.chan n).state = .training) ∧ (mask.getLsbD n = false → t.chan n = s.chan n)) ∧
    (Yields (.dmcTrainRows .firmware mask) s fun t => t = s.trainStart 2 mask.toNat ∧ ∀ n, n < 16 →
      (mask.getLsbD n = true → (t.chan n).state = .retrain ∧ (t.chan n).kept = true) ∧
      (mask.getLsbD n = false → t.chan n = s.chan n))) ∧
  (∀ (s : State) (ch : Fin 16), (s.chan ch).state = .training →
    exec (.dmcTrainingDone ch true) s = .next ((((s.chiveReload ch).modChan ch fun x =>
      { x with state := .active }).modHealth fun h => { h with trained := insertNew h.trained ch }).trained).settle ∧
    ((s.chan ch).mode = 1 → exec (.dmcTrainingDone ch false) s = .next (s.modChan ch fun x =>
      { x with mode := if x.kept then 2 else 0, state := if x.kept then .retrain else .training })) ∧
    ((s.chan ch).mode = 0 → (s.chan ch).attempts < 2 → exec (.dmcTrainingDone ch false) s =
      .next (s.modChan ch fun x => { x with attempts := x.attempts + 1 })) ∧
    ((s.chan ch).mode = 0 → (s.chan ch).attempts = 2 →
      exec (.dmcTrainingDone ch false) s = .next ((s.trainFail ch).haltStart 10))) ∧
  (∀ (s : State) (ch : Fin 16), (s.chan ch).state = .retrain →
    exec (.dmcTrainingDone ch true) s = .next (((s.chiveReload ch).modChan ch fun x =>
      { x with state := .active }).trained).settle ∧
    exec (.dmcTrainingDone ch false) s = .next ((s.trainFail ch).err1 10 .degraded).leaveService) ∧
  (∀ (s : State) (d : RegDesc), s.serves .firmware Reg.dmcCtl d →
    let on := Word.withFld (s.reg Reg.dmcCtl) 1 1 1
    let off := Word.withFld (s.reg Reg.dmcCtl) 1 1 0
    (s.bit Reg.dmcCtl 1 = false →
      exec (.dmcSelfRefreshEnter .firmware) s = .next (s.setReg Reg.dmcCtl on).selfRefresh.settle) ∧
    (s.bit Reg.dmcCtl 1 = true →
      exec (.dmcSelfRefreshExit .firmware) s = .next (s.setReg Reg.dmcCtl off).selfRefreshEnd.settle)) ∧
  (∀ (s : State) (n : Nat), (s.chan n).state = .active → (s.queued n (s.chan n)).queue = [] →
    ((s.modChan n fun c => { s.queued n c with sleep := true }).sleepNow n).chan n =
      { s.queued n (s.chan n) with
        state := .selfRefresh, sleep := false, postponed := [], rows := [], hits := [], writeMode := false }) ∧
  (∀ (s : State) (ch : Fin 16) (k : Fin 32), (s.chan ch).copying = none → s.isl.quiet = .awake →
    s.gated (islandOf (chiveOff ch k)) = false →
    (Yields (.chiveEnable .firmware ch k) s fun t => (t.chan ch).copying = some k.val ∧
      t.bit (chiveOff ch k) 31 = true) ∧
    (Yields (.chiveDisable .firmware ch k) s fun t => t.bit (chiveOff ch k) 31 = false ∧
      (t.health.chives.getD ch []).get? k = none)) ∧
  (∀ (s : State) (ch : Fin 16) (k : Nat), (s.chan ch).copying = some k → s.copyWaits ch = false →
    let sector := (s.reg (chOff Reg.dmcChiveLo ch + 8 * k)).toNat
    exec (.chiveCopyDone ch) s = .next (State.settle ((s.modChan ch fun c => { c with copying := none }).modHealth fun h =>
      { h with chives := h.chives.upd ch [] fun l => l.set k sector }))) ∧
  (∀ (s : State) (ch : Fin 16) (sector n k : Nat), ((s.chan ch).fails.find? fun e => e.1 == sector) = some (sector, n) →
    s.fld Reg.dmcRetrain 29 26 ≤ n → n ≠ 0 →
    let t := s.flag (chOff Reg.dmcChEvent ch) 5
    t.chiveAt ch sector = none → t.bit Reg.dmcCtl 2 = true → t.chiveFree ch = some k →
    exec (.chiveCandidate ch sector) s =
      .next ((t.setReg (chOff Reg.dmcChiveLo ch + 8 * k) (w32 sector)).chiveEnable ch k)) ∧
  (∀ (s : State) (rate : Nat) (mask : BitVec 16), s.isl.quiet = .awake → s.gated (islandOf Reg.dmcScrubCtl) = false →
    s.bit Reg.dmcScrubCtl 31 = false →
    (Yields (.scrubGo .firmware rate mask) s fun t => t.bit Reg.dmcScrubCtl 31 = true ∧
      t.fld Reg.dmcScrubCtl 15 0 = mask.toNat ∧ t.reg Reg.dmcScrubCounts = 0) ∧
    (Yields (.scrubStop .firmware) s fun t => t.bit Reg.dmcScrubCtl 30 = false)) ∧
  (∀ (s : State) (n poison ms : Nat), s.bit Reg.dmcScrubCtl 31 = true →
    exec (.scrubPassEnd n poison ms []) s = .next (State.settle (State.scrubOver (State.setReg (State.setReg64
      (State.setReg (State.setReg (State.setReg (s.setReg64 Reg.dmcScrubSectorsLo n) Reg.dmcScrubCounts 0)
        (Reg.dmcScrubCounts + 4) (w32 (min poison (2 ^ 32 - 1)))) (Reg.dmcScrubCounts + 8) 0) Reg.dmcScrubFirstLo 0)
        Reg.dmcScrubMs (w32 (ms % 2 ^ 32))) false)))

/-- With the media enabled and the dies given what they may do (mediaStep): a codeword read that its die does, good at the
first step without corrections, gives its slice to what waits for the one valid tile in it, and an uncorrectable one of no
valid tile is counted and recorded; the patrol, enabled, on an idle die, notes the codeword of a FULL block that it read. A
read that waited suspends its die's program or erase, at most 4 times. The flush timer sends the unit that is filling. A unit
that the set's dies programmed makes its moves verified, the block's next page following, and a failed one moves on and closes
its block; an erase that they did makes the block FREE or READY with one erase more (a bad block without a spare is RETIRED).
The save region grows by a FREE block. Discovery writes the geometry, PARITY, the channel status and the rated cycles. -/
def Obligations.FlashReadsProgramsAndErases : Prop :=
  (∀ (s t : State) (loc slice x : Nat), t = s.mediaStep → s.bit Reg.fmcCtl 0 = true →
    t.onDie (t.dieOf (locSet loc) slice) (.read (loc / 8) slice) = true →
    (t.cwTiles loc = [x] → t.keyGone x = false → (t.gotSlice (x * 8 + slice)).cwStrays loc slice = [] →
      exec (.flashReadDecode loc slice (.step 0 0)) s = .next (t.gotSlice (x * 8 + slice)).settle ∧
      (t.gotSlice (x * 8 + slice)).fmc.reads = t.fmc.reads.filter (· != x * 8 + slice) ∧
      ∀ r q, t.reqs.get? r = some q → (q.segs.any fun p => (slicesOf p.1 p.2).contains (x * 8 + slice)) = true →
        ((t.gotSlice (x * 8 + slice)).reqs.get? r).map (fun q => q.got.contains (x * 8 + slice)) = some true) ∧
    (t.cwTiles loc = [] → exec (.flashReadDecode loc slice .fail) s = .next (State.settle
      (({ t with twn := { t.twn with flashUncorr := t.twn.flashUncorr + 1 } }.count Reg.fmcCount).flagRecord
        Reg.fmcEvent 0 0x0B02 (locSet loc) loc)))) ∧
  (∀ (s t : State) (loc slice : Nat), t = s.mediaStep → s.bit Reg.fmcCtl 0 = true → s.bit Reg.fmcCtl 2 = true →
    s.elg.sage = none → (s.sb (locSet loc) (s.locBlock loc)).state = .full → t.dieIdle (t.dieOf (locSet loc) slice) = true →
    exec (.flashPatrol loc slice (.step 0 0)) s = .next (State.settle { t with fmc := { t.fmc with patrol := loc } })) ∧
  (∀ (s t u : State) (die : Nat) (op r : FWork), t = s.mediaStep → s.bit Reg.fmcCtl 4 = true →
    s.fmc.suspends.getD die 0 < 4 → s.elg.sage = none → t.suspendFor die = some u → t.fmc.run.get? die = some op →
    t.nextWork die = some r →
    exec (.suspendWaitExpiry die) s = .next ((u.count (Reg.fmcCount + 0x18)).emit (.die die 3)) ∧
    u.fmc.run.get? die = some r ∧ u.fmc.held.get? die = some op ∧ u.fmc.suspends.getD die 0 = t.fmc.suspends.getD die 0 + 1) ∧
  (∀ (s : State) (set k : Nat) (u : Machine.Unit), (s.fmc.units.filter fun e =>
      e.1 / 65536 == set && !e.2.flying && !e.2.tiles.isEmpty) = [(k, u)] →
    exec (.programFlushTimer set) s = .next (s.flyUnit set (k % 65536))) ∧
  (∀ (s : State) (set block : Nat) (u : Machine.Unit), s.fmc.units.get? (sbKey set block) = some u → u.flying = true →
    s.mediaStep.onSet set (.prog (sbKey set block)) = true →
    exec (.programUnitDone set block true) s = .next (((s.unitOk set u).suspendsClear set).gcCheck set).settle ∧
    exec (.programUnitDone set block false) s = .next (((s.unitFail set u).suspendsClear set).gcCheck set).settle ∧
    ((s.unitUsed set u false).sb set u.block).next = (s.sb set u.block).next + s.unitTiles ∧
    ((s.unitUsed set u true).sb set u.block).state = .full) ∧
  (∀ (s : State) (set block : Nat), (s.sb set block).state = .erasing → s.elg.sage = none →
    s.mediaStep.onSet set (.erase (sbKey set block)) = true →
    let b := s.sb set block
    let clear (t : State) : State := { t with fmc := { t.fmc with chain := t.fmc.chain.erase (sbKey set block) } }
    let after (t : State) : State := ((((((t.suspendsClear set).wearWarn set block (b.erases + 1)).saveShort.gcCheck set
      ).wearCheck set).mediaPoll.retryUnits).noteFull).settle
    (∀ spare, b.remap = false → exec (.flashEraseDone set block true spare) s = .next (after (clear (s.setSb set block { b with
      state := if b.pslc then .ready else .free, erases := b.erases + 1, valid := 0, next := 0, refresh := false,
      remap := false })))) ∧
    exec (.flashEraseDone set block false false) s = .next (after (((clear ((s.count (Reg.fmcCount + 0x10)).setSb set block {
      b with state := .retired, erases := b.erases + 1, valid := 0, next := 0, refresh := false,
             remap := false })).flag Reg.fmcEvent 2).emit (.die 0 4)))) ∧
  (∀ (s : State) (set b : Nat), set < s.sets → s.elg.sage = none → s.regionBlocks set < 2 * s.saveNeed →
    s.freeBlock set = some b → exec (.saveRegionResize set) s = .next (((s.setSb set b { s.sb set b with
      state := .ready, pslc := true, valid := 0, next := 0 }).saveShort.gcCheck set).noteFull)) ∧
  (∀ (s : State) (dies planes cw lblocks pages spare cycles : Nat), 1 ≤ dies → dies ≤ 16 → 1 ≤ planes → planes ≤ 4 →
    cw < 16 → lblocks < 2 ^ 16 → pages < 2 ^ 16 → s.bit Reg.fmcLock 0 = false →
    Yields (.flashGeometryDiscovery 16 dies planes 3 cw lblocks pages spare cycles true) s fun t =>
      t.reg Reg.fmcGeom0 = w32 (16 + dies * 2 ^ 10 + planes * 2 ^ 15 + cw * 2 ^ 20) ∧
      t.reg Reg.fmcGeom1 = w32 (lblocks * 2 ^ 16 + pages) ∧ t.reg Reg.fmcChStatus = w32 (dies * 8 + 2) ∧
      t.fld Reg.fmcLdpc 19 16 = (if parity64 cw spare = 0 then s.fld Reg.fmcLdpc 19 16 else parity64 cw spare) ∧
      t.reg (Reg.fmcChStatus + 4 * 31) = 0 ∧ t.fmc.ratedCycles = cycles ∧ t.mem = s.mem)

/-- A sample, while metering, adds to the sums. The 1 ms recomputation is the ledger's whole work. Catch-up ends DEFICIT in
THROTTLE, with its flag and record. While metering, a temperature read is issued over PSB unless one waits. A test that has
10 s of steady values starts the discharge (charger off, load on) with its probe, by its period, its retry or TEST; a dip of
DROP_MV reached with good current and no rise gives the charge over the drop, a bad current, a rise or a timeout fails. The
probe's block of a set is erased and the next set's turn comes; after the last, COST is derived from the summed rate.
Firmware's writes of the checked registers are taken when their check holds, and ignored otherwise (R403, R414). -/
def Obligations.LedgerMetersAndTests : Prop :=
  (∀ (s : State) (mv : Nat) (ma : Int), s.bit Reg.elgCtl 0 = true → exec (.meterSample mv ma) s =
    .next { s with elg := { s.elg with vSum := s.elg.vSum + mv, iSum := s.elg.iSum + ma, samples := s.elg.samples + 1 } }) ∧
  (∀ s : State, exec .ledgerRecompute s = .next s.ledgerMs) ∧
  (∀ s : State, s.elg.state = .deficit → exec .catchupExpiry s = .next ({ s with elg := { s.elg with
    state := .throttle } }.flagRecord Reg.elgEvent 3 0x0C02 0 s.charged)) ∧
  (∀ s : State, s.bit Reg.elgCtl 0 = true → s.fld Reg.twbHoldup 6 0 ≠ 0 → s.twb.elgWait.contains psbTemp = false →
    s.twb.psb ≠ .elg psbTemp → exec .moduleTempRead s =
      .next (State.psbNext { s with twb := { s.twb with elgWait := s.twb.elgWait ++ [psbTemp] } })) ∧
  (∀ s : State, s.elg.test = .idle → s.elg.sage = none → s.elg.probe = none → 10000 ≤ s.elg.history.length →
    s.steady = true →
    let u := State.probeTake { s with elg := { s.elg with retry := false } } 0 0
    let t := State.psbElg (State.psbElg { u with elg := { u.elg with
      test := .running, preMv := s.fld Reg.elgVmv 15 0 } } (psbCharger false)) (psbLoad true)
    (s.bit Reg.elgCtl 3 = true → exec .capTestPeriod s = .next t) ∧
    (s.elg.retry = true → exec .capTestRetry s = .next t) ∧
    (s.cmdReady Reg.elgCmd → exec (.elgCmdTest .firmware) s = .next t)) ∧
  (∀ (s : State) (uc mv : Nat), s.elg.test = .running →
    (mv ≠ 0 → s.fld Reg.elgTestCfg 26 16 ≤ mv → exec (.capTestDropReached uc mv true false) s = .next (s.capResult (uc / mv))) ∧
    (∀ ok, exec (.capTestDropReached uc mv ok true) s = .next s.capFail ∧
      exec (.capTestDropReached uc mv false ok) s = .next s.capFail) ∧
    exec .capTestTimeout s = .next s.capFail) ∧
  (∀ (s t : State) (rate stream p set sum : Nat), s.elg.probe = some (set, sum) → t = s.probeErase set →
    (set + 1 < t.sets → exec (.saveRateProbe rate stream p) s = .next ((t.probeTake (set + 1) (sum + rate)).saveShort.settle)) ∧
    (∀ c, t.sets ≤ set + 1 → c ≠ 0 → c = costOf (if t.elg.pSaveMw = 0 then p else t.elg.pSaveMw) (min (sum + rate) stream) →
      exec (.saveRateProbe rate stream p) s = .next ((State.costDerived { t with elg := { t.elg with
        probe := none } } c).saveShort.ledgerEval.settle))) ∧
  (∀ (s : State) (v : Word) (d : RegDesc),
    (s.serves .firmware Reg.elgReserve d → exec (.elgReserveWrite .firmware v) s = .next (
      if s.dipOk (s.fld Reg.elgTestCfg 26 16) (clampStep 5 40 1 (Word.fld v 5 0))
      then (s.setFld Reg.elgReserve 5 0 (clampStep 5 40 1 (Word.fld v 5 0))).recomputeEnergy.ledgerEval else s)) ∧
    (s.serves .firmware Reg.elgTestCfg d → exec (.elgTestCfgWrite .firmware v) s = .next (
      if s.dipOk (clampStep 100 2000 10 (Word.fld v 26 16)) s.reservePct
      then s.setReg Reg.elgTestCfg (w32 (clampStep 100 2000 10 (Word.fld v 26 16) * 2 ^ 16
        + clampStep 1 168 1 (Word.fld v 7 0))) else s)) ∧
    (s.serves .firmware Reg.elgSaveCfg d → exec (.elgSaveCfgWrite .firmware v) s = .next (
      if clampStep 20 255 1 (Word.fld v 15 8) ≤ clampStep 5 100 1 (Word.fld v 7 0) then s
      else s.setReg Reg.elgSaveCfg (w32 (clampStep 20 255 1 (Word.fld v 15 8) * 2 ^ 8
        + clampStep 5 100 1 (Word.fld v 7 0))))))

/-- LIMIT is E_avail less RESERVE per cent of it: exactly 100 times LIMIT (here in nJ, E_avail in mJ) is E_avail times
(100 − PCT), for every PCT that the register can hold up to 100; ELG_LIMIT_MJ shows it in mJ, rounded down.
ELG_COVERED shows floor((LIMIT − FIXED) / COST), or 0 if LIMIT does not exceed FIXED. -/
def Obligations.LimitAndCoveredTiles : Prop :=
  ∀ s : State, s.fld Reg.elgReserve 5 0 ≤ 100 →
    100 * s.limitNj = s.elg.eAvail * 10 ^ 6 * (100 - s.fld Reg.elgReserve 5 0) ∧
    s.shows (Reg.elgLedger + 4) = w32 (s.limitNj / 10 ^ 6) ∧
    s.shows (Reg.elgLedger + 20) = w32 (if s.limitNj ≤ s.fixedNj then 0 else (s.limitNj - s.fixedNj) / s.costNj)

/-- Three samples of HOLD_FAIL, or SAVE, trigger a save when none runs: the record 0x0C04, admission stopped, and with
SAVE_ARM Sage in phase 1, without it the power-down. The end of the drain logs the acknowledged writes and flushes (phase 2);
the phases follow while READY blocks hold the map, 5 and 6 write their tiles; phase 7 ends with the record, in the erased
slot, and the power-down. At the final energy Sage goes to phase 7, with no image before the map is complete. RESTORE before
admission restores the newest record, shows phase 5, and settles authority with a peer that answered. A region whose
conditions hold is admitted ONLINE. After the wait for the peer a single survivor's regions are settled for it and the peer is
fenced; with a HALTED peer the regions are settled from both records. -/
def Obligations.SaveRestoreAndAdmission : Prop :=
  (∀ (s : State) (tr : Trigger), s.elg.sage = none → s.pws.seq ≠ .powerDown → s.fw.activating = none →
    let t := (s.wakeFor .elg).capAbort.probeEnd.flagRecord Reg.elgEvent 8 0x0C04 0 0
    let u : State := { t with noAdmit := true, efl := eflSaveHold t.efl }
    let go : State := if s.bit Reg.elgCtl 4 = false then u.downStart (downOf tr false) else
      (let v := ((State.setReg { u with
          twn := { u.twn with self := .saving, fast := true },
          elg := { u.elg with sage := some { phase := 1, trigger := tr, startTime := s.time,
                                             single := s.single && !s.twn.fenceIn, saved := [], openList := [], logs := [],
                                             sys := false, energy0 := 0, capMf := s.fld Reg.elgCap 19 0 } } }
          Reg.elgSageTiles 0).setReg Reg.elgSageMs 0).setPhase 9
       (if v.paired && v.linkIsUp && !v.peerSaving then v.startHandoff v.ownedRegions else v).settle)
    (∀ n, 3 ≤ n → tr = .holdFail → exec (.holdFail n) s = .next go) ∧
    (tr = .planned → s.cmdReady Reg.elgCmd → exec (.elgCmdSave .firmware) s = .next go)) ∧
  (∀ s : State, exec (.holdFail 1) s = .next (s.flag Reg.elgEvent 10) ∧ exec (.holdFail 2) s = .next (s.flag Reg.elgEvent 10)) ∧
  (∀ (s : State) (g : Sage), s.elg.sage = some g →
    (g.phase = 1 → s.isl.quiet = .awake → Yields .saveDrainEnd s fun t => ∃ h, t.elg.sage = some h ∧ h.phase = 2 ∧
      h.openList = s.openTiles ∧ h.logs.length = (s.reqs.filter fun e => isWrite e.2.op && e.2.acked &&
        (e.2.stage != .opened || !e.2.todo.isEmpty)).length ∧ t.cmds = [] ∧ t.hlc.evb = []) ∧
    (g.phase = 2 ∨ g.phase = 3 ∧ (s.chainLoc 262143).isSome = true ∨
        g.phase = 4 ∧ (s.chainLoc (s.sectionSlots - 1)).isSome = true →
      ∀ n, exec (.sagePhaseEnd n) s = .next { s with elg := { s.elg with sage := some { g with
        phase := g.phase + 1,
        tilesDram := if g.phase + 1 = 4 then s.tiles.count fun e => inDram e.home else g.tilesDram,
        vEnd := if g.phase + 1 = 7 then s.fld Reg.elgVmv 15 0 else g.vEnd } } }) ∧
    (g.phase = 3 ∧ s.chainLoc 262143 = none ∨ g.phase = 4 ∧ s.chainLoc (s.sectionSlots - 1) = none →
      ∀ n, exec (.sagePhaseEnd n) s = .next { s with elg := { s.elg with sage := some { g with
        phase := 7, result := 3, vEnd := s.fld Reg.elgVmv 15 0 } } }) ∧
    (g.phase = 5 ∨ g.phase = 6 → ∀ n, s.tilesLeft g = [] →
      exec (.sagePhaseEnd n) s = .next (((s.modSage fun _ => g).setReg Reg.elgSageTiles (w32 g.saved.length)).nextSage g)) ∧
    (g.phase = 7 → ∀ n u v w, u = (if g.result = 3 then s else s.useBlocks g) →
      v = (if u.spareErased then u.savePut u.spareSlot (s.recordNow g) else u) →
      w = ({ v with elg := { v.elg with
        sage := none, pSaveMw := if g.ms = 0 then v.elg.pSaveMw else g.energy0 / (1000 * g.ms) } } : State) →
      exec (.sagePhaseEnd n) s = .next ((if g.result = 1 then w else w.flag Reg.elgEvent 9).downStart
        (downOf g.trigger g.sys))) ∧
    (3 ≤ g.phase → g.phase ≠ 7 → exec .saveFinalEnergy s = .next { s with elg := { s.elg with sage := some { g with
      phase := 7, result := if g.phase ≤ 4 then 3 else 2, vEnd := s.fld Reg.elgVmv 15 0 } } })) ∧
  (∀ (s t : State) (l : List Nat), s.admitted = false → s.phase < 5 → s.elg.sage = none → s.fw.warm = false →
    t = (s.restoreDo l).setPhase 5 → t.fw.warm = false → t.peerServes = false →
    exec (.restore l none) s = .next t.settle ∧
    ∀ single es, exec (.restore l (some (single, es))) s = .next (t.settleAll t.newestRec single es).settle.notePhase) ∧
  (∀ (s t : State) (id : Fin 4096), s.mayAdmit id = true → t = (s.admitHosts.regionState id .online).notePhase →
    ((t.paired && (t.sec.keys.get? id.val).isNone) = false → exec (.regionAdmit id) s =
      .next ((if (t.region id).ensign == .owner then t.requeue id else t).servePinned.settle))) ∧
  (∀ (s : State) (id : Nat) (r : Region), s.admitted = false → s.peerAnswered = false → s.paired = false →
    s.single = false → s.twn.fenceIn = false → s.isHalted = false → s.regions = [(id, r)] → s.fw.warm = false →
    let w := match sideOf s.newestRec id with | some a => if a.single then 1 else 3 | none => 3
    let t : State := { s with twn := { s.twn with settled := [(id, w)] } }
    exec .peerWaitExpiry s = .next (if w ≤ 1 then t.fencePeer true else t)) ∧
  (∀ (s t : State) (b : Burgee) (single : Bool) (es : List (Nat × Bool × Bool × Nat)), s.admitted = false →
    s.twn.peerB = some b → b.phase = 11 → s.linkIsUp = true → s.twn.fenceIn = false → s.isHalted = false →
    t = s.settleAll s.newestRec single es →
    let both (m : Tbl Nat) (id : Nat) : Tbl Nat := match sideOf s.newestRec id, peerSide single es id with
      | some a, some b => if a.complete && b.complete && !a.single && !b.single then m.set id 1 else m
      | _, _ => m
    let u : State := { t with twn := { t.twn with settled := t.regions.keys.foldl both t.twn.settled } }
    exec (.haltedPeerAdmission es single) s = .next (State.settle (if u.twn.fenceOk then u.fencePeer false else u)))

/-- LINK_EN begins training of all four lane groups. A lane group that trains comes up, and from TRAINING the link keys; in
UP one that goes down sets LG_DOWN and retrains alone; it is tried again. No lane group in time puts the link DOWN. Twin 1
answers a good LINK_HELLO, a good LINK_REPLY at twin 0 and a good LINK_CONFIRM at twin 1 bring the link UP under a new
EPOCH with counters at 0; a bad one, and LINK_FAIL, end in MISMATCH. RETRAIN, the counter limit and too many resends move
an UP link to RETRAIN, and until then the message is sent again and counted. A reassembly timer sends SEG_NAK, and a
SEG_NAK resends what is missing; that the RESEND_MAX-th for one message retrains is log entry 123. -/
def Obligations.ShaumLinkStates : Prop :=
  (∀ (s : State) (v : Word), s.cmdReady Reg.twnCtl → v.toNat < 32 → exec (.shaumLinkEnable .firmware v) s =
    .next (if Word.bit v 0 then (s.setReg Reg.twnCtl v).shaumTrain else s.setReg Reg.twnCtl v)) ∧
  (∀ s : State, s.twn.fenceIn = false → s.bit Reg.twnCtl 0 = true → s.twn.link = .down →
    s.shaumTrain.twn.link = .training ∧ ∀ g < 4, (s.shaumTrain.lane g).retraining = true) ∧
  (∀ (s : State) (g : Fin 4), s.twn.link = .training → exec (.laneGroupTrained g) s =
    .next (s.modLane g fun l => { l with up := true, retraining := false }).toKeying) ∧
  (∀ (s : State) (g : Fin 4), s.twn.link = .up → (s.lane g).up = false →
    exec (.laneGroupRetry g) s = .next ((s.modLane g fun l => { l with retraining := true }).emit (.laneTrain g)) ∧
    exec (.laneGroupTrained g) s = .next (s.modLane g fun l => { l with up := true, retraining := false })) ∧
  (∀ (s : State) (g : Fin 4), s.twn.link = .up → (s.lane g).up = true →
    let t := ((s.modLane g fun l => { l with up := false, retraining := true }).flag Reg.twnEvent 7).err1 13 .degraded
    exec (.laneGroupDown g) s = .next (if t.lanesUp.isEmpty then t.shaumOff else t.emit (.laneTrain g))) ∧
  (∀ s : State, s.twn.link = .training → exec .linkTrainingTimeout s = .next s.shaumOff ∧ s.shaumOff.twn.link = .down) ∧
  (∀ (s : State) (variant major nonce ek ct sig : Nat), s.twn.link = .keying → s.bit Reg.twnId 1 = true →
    variant = b2n s.variantN → major = s.fwMajor → s.sec.entropyOk = true →
    let peer (twin : Bool) : LinkPeer := {
      twin := twin, id := s.applianceId, record := true, variant := variant, fwMajor := major }
    let keys (u : State) (k : LinkKeys) : State := { u with twn := { u.twn with linkKeys := k } }
    let bad : State := (s.flag Reg.secEvent 2).count (Reg.secCount + 8)
    (s.twin = true →
      (let n1 := Config.random s.draw.2 % 2 ^ 256
       let c := Config.crypto [0x768, ek, s.draw.2] % 2 ^ 8704
       let tr := linkTranscript nonce ek s.applianceId n1 c s.applianceId
       let sg := Config.crypto [0x65, tr] % 2 ^ 26472
       exec (.linkHello (peer false) nonce ek true) s = .next (State.keyFrame ((keys s.draw.1 { s.draw.1.twn.linkKeys with
         k := sharedSecret ek c, t := tr, sig := sg, ready := true }).count (Reg.secCount + 4)) 2 (1128 + chainLen + 3309)
         [(16, 32, n1), (48, 1088, c), (1136, 8, s.applianceId), (1144 + chainLen, 3309, sg)])) ∧
      exec (.linkHello (peer true) nonce ek true) s = .next ((s.flag Reg.secEvent 2).mismatch false).failSend ∧
      (s.twn.linkKeys.ready = true → exec (.linkConfirm sig true) s = .next s.linkUp) ∧
      exec (.linkConfirm sig false) s = .next bad.keyingFailed.failSend) ∧
    (s.twin = false →
      (let k := s.twn.linkKeys
       let tr := linkTranscript k.nonce k.ek s.applianceId nonce ct s.applianceId
       exec (.linkReply (peer true) nonce ct sig true) s = .next (State.linkUp (State.keyFrame (State.count (keys s { k with
         k := sharedSecret k.ek ct, t := tr, sig := sig }) (Reg.secCount + 4)) 3 3309
           [(16, 3309, Config.crypto [0x65, confirmDigest tr sig] % 2 ^ 26472)]))) ∧
      exec (.linkReply (peer true) nonce ct sig false) s = .next bad.keyingFailed.failSend) ∧
    exec .linkFail s = .next (s.flag Reg.secEvent 2).keyingFailed ∧ bad.keyingFailed.twn.link = .mismatch) ∧
  (∀ s : State, s.linkIsUp = true →
    (s.cmdReady Reg.twnCmd → exec (.twnCmdRetrain .firmware) s = .next s.toRetrain) ∧
    (∀ g, 2 ^ 56 ≤ (s.lane g.val).ctrTx ∨ 2 ^ 56 ≤ (s.lane g.val).ctrRx →
      exec (.shaumCounterLimit g) s = .next s.toRetrain) ∧
    s.toRetrain.twn.link = .retrain ∧
    (∀ seq x, s.twn.tx.get? seq = some x → x.sent = true → exec (.messageResendTimeout seq) s = .next (
      if s.resendMax ≤ x.resends then s.toRetrain
      else ((s.modTx seq fun y => { y with resends := y.resends + 1 }).sendSegs seq x.msg).countBy Reg.twnCount
        (segCount x.msg))) ∧
    (∀ seq a, s.twn.asm.get? seq = some a → exec (.reassemblyTimerExpiry seq) s =
      .next (((s.sendOnce (.segNak seq a.bitmap)).flag Reg.twnEvent 9).count (Reg.twnCount + 4))) ∧
    (∀ seq bitmap x, s.isl.quiet = .awake → s.twn.tx.get? seq = some x → x.sent = true →
      (s.resendMax ≤ x.naks + 1 → exec (.segNak seq bitmap) s = .next s.toRetrain) ∧
      (x.naks + 1 < s.resendMax → exec (.segNak seq bitmap) s = .next ((s.modTx seq fun y => { y with naks := y.naks + 1 }).resendSegs seq x.msg
        ((List.range (segCount x.msg)).filter fun i => !bitmap.testBit i)))))

/-- A message whose MSG_SEQ has not been acted on enters the window, has its effect and is acknowledged. MIRROR for a region
of the peer's is submitted as its write, FORWARD and READ_REQ as the peer's request; FWD_REPLY and READ_DATA end the
request that waits; a hint for a flash tile starts its promotion; TILE_PULL waits for open writes, TILE_DATA gives a
repair or a resynchronisation its tile; an OFFER takes the region and answers ACCEPT, an ACCEPT gives it away, and the
offer leaves when the ACKs are drained; CONTROL applies its changes, its ACK held for the accesses under the old translation; CQ_RELAY, VERIFY, VERIFY_REPLY, PEER_MBX and
RESYNC_CTL act on their objects. A message acted on before is only acknowledged again and counted. An ACK releases what it
names. A good segment that completes a message acts on it; one of another EPOCH is only counted. -/
def Obligations.ShaumMessagesActOnce : Prop :=
  (∀ (s : State) (seq : Nat), s.hears seq →
    (∀ m r, s.mirrorHeld seq = false → s.regions.get? m.region = some r → r.ensign = .peerOwns → m.data ≠ [] →
      exec (.mirror seq m) s = .next ((s.actOn seq).submit
        (mirrorReq seq ((((s.actOn seq).regionOfPsa m.psa).map Prod.snd).getD 0) m)).1) ∧
    (∀ m : FwdMsg, exec (.forward seq m) s = .next (((s.actOn seq).submit {
      src := .forward m.tag m.host, op := m.op, host := m.host, region := m.region, off := m.off, len := m.len
      segs := (s.actOn seq).fwdSegs m.region m.off m.psa m.len, data := m.data, poison := m.poison, arg := m.arg
      cmp := m.cmp, reqId := m.reqId, map := m.map }).1.ackMsg seq)) ∧
    (∀ tag region off psa len, exec (.readReq seq tag region off psa len) s = .next (((s.actOn seq).submit {
      src := .forward tag 0xFFFF, op := .read, host := 0xFFFF, region := region, off := off, len := len
      segs := (s.actOn seq).fwdSegs region off psa len }).1.ackMsg seq)) ∧
    (∀ tag r, s.reqs.get? tag = some r → r.stage = .forwarded → isWrite r.op = true →
      exec (.fwdReply seq tag true 0) s = .next (((s.actOn seq).endReq tag .poisoned).settle.ackMsg seq) ∧
      ∀ result, exec (.fwdReply seq tag false result) s = .next (((((s.actOn seq).modReq tag fun q =>
        { q with result := result }).endReq tag (.written result)).countBy (Reg.rdxCount + 4 * 4)
          (match r.src with | .rdma .. => 1 | _ => 0)).settle.ackMsg seq)) ∧
    (∀ tag r data poison, s.reqs.get? tag = some r → r.stage = .forwarded → isWrite r.op = false →
      r.len ≤ r.done + data.length →
      let q : Req := { r with data := r.data ++ data, map := r.map ++ poison, done := r.done + data.length }
      let u := (s.actOn seq).modReq tag fun _ => q
      exec (.readData seq tag data poison) s =
        .next ((u.endReq tag (.data (u.peerBytes tag q) (u.peerPoison tag q))).settle.ackMsg seq)) ∧
    (∀ tile, inFlash (s.tile tile).home = true → s.moves.get? tile = none →
      let u := (s.actOn seq).startMove tile .promote .write []
      (u.moves.get? tile ≠ none → exec (.promoHint seq tile) s =
        .next ((u.count (Reg.plcCount + 0x20)).settle.ackMsg seq)) ∧
      (u.moves.get? tile = none → exec (.promoHint seq tile) s = .next (u.settle.ackMsg seq))) ∧
    (∀ tile, exec (.tilePull seq tile) s = .next ((State.settle { s.actOn seq with twn := { (s.actOn seq).twn with
      pulls := insertNew s.twn.pulls tile } }).ackMsg seq)) ∧
    (∀ tile data sectors, s.twn.tilesIn.get? seq = none → exec (.tileData seq tile data sectors true) s =
      .next (State.settle { s.actOn seq with twn := { (s.actOn seq).twn with
        tilesIn := s.twn.tilesIn.set seq { tile := tile, data := data, sectors := sectors } } })) ∧
    (∀ tile data sectors m, s.moves.get? tile = some m → m.kind = .repair → m.late = false →
      exec (.tileData seq tile data sectors false) s = .next (((((s.actOn seq).mergeTile tile m.valid data
        sectors).modMove tile fun x => { x with late := true }).settle).ackMsg seq))) ∧
  (∀ (s : State) (seq : Nat), s.hears seq →
    (∀ region pseq r, s.regions.get? region = some r → r.ensign = .peerOwns → exec (.ensignOffer seq region pseq) s =
      .next (((((s.actOn seq).modRegion region fun r => { r with ensign := .owner, owner := s.twin, pseq := pseq }).post
        (.ensignAccept region)).requeue region).settle.ackMsg seq)) ∧
    (∀ region, (s.region region).ensign = .handing → (s.region region).offered = true →
      let u := (s.actOn seq).modRegion region fun r => { r with ensign := .peerOwns, owner := !s.twin, offered := false }
      exec (.ensignAccept seq region) s = .next ((State.settle ((State.dropFetched
        { u with twn := { u.twn with handed := u.twn.handed + 1 } } region).handStart.handEnd)).ackMsg seq)) ∧
    (∀ cs, s.twn.ackHeld.get? seq = none → cs.any (clashes s.rgtPending) = false →
      cs.any (s.actOn seq).claimLost = false →
      let u : State := { s.actOn seq with twn := { (s.actOn seq).twn with
        ackHeld := s.twn.ackHeld.set seq (cs.flatMap (s.actOn seq).oldAccess) } }
      exec (.control seq cs) s = .next (cs.foldl State.takeChange u).resyncStart.settle) ∧
    (∀ cq recSeq r c, s.cq? cq = some c → c.sent ≤ recSeq → c.recs.get? recSeq = none →
      exec (.cqRelay seq cq recSeq r) s = .next ((((s.actOn seq).cqAssign cq recSeq r).cqPump cq).ackMsg seq)) ∧
    (∀ tile crc pseq, (s.actOn seq).tileCrc tile = (crc, pseq) → exec (.verify seq tile crc pseq) s =
      .next ((((s.actOn seq).verifyOwn tile).post (.verifyReply tile crc pseq)).settle.ackMsg seq)) ∧
    (∀ tile crc pseq, s.twn.verifyBusy.get? tile = some (crc, pseq) → exec (.verifyReply seq tile crc pseq) s =
      .next (State.ackMsg { s.actOn seq with twn := { (s.actOn seq).twn with
        verifyBusy := s.twn.verifyBusy.erase tile, sampled := s.twn.sampled + 1 } } seq)) ∧
    (∀ h c r, exec (.peerMbx seq h (some c) r) s = .next (((s.actOn seq).jorrid (mbxKey .peer) h c).ackMsg seq)) ∧
    (∀ region pseq, (s.region region).state = .resync →
      let u := (State.regionState (State.admitHosts { s.actOn seq with twn := { (s.actOn seq).twn with
        coldSync := s.twn.coldSync.filter (· != region) } }) region .online).notePhase
      let v := if u.regions.vals.any fun r => r.state == .resync then u else u.flag Reg.twnEvent 13
      exec (.resyncCtl seq region pseq false []) s = .next ((State.settle (State.servePinned { v with twn := { v.twn with
        written := v.twn.written.filter fun e => v.regionOfTile e.1 != some region } })).ackMsg seq)) ∧
    (∀ region pseq, s.twn.returned = true →
      let u := State.regionState { s.actOn seq with regions := s.regions.upd region {} fun r =>
        { r with ensign := .peerOwns, owner := !s.twin, offered := false, pseq := pseq } } region .resync
      let v := (u.tilesIn region ((u.tiles.filter fun e => e.2.pinned).map Prod.fst)).foldl
        (fun (u : State) x => u.modTile x fun e => { e with pinned := false }) u
      exec (.resyncCtl seq region pseq true []) s = .next ((State.admitHosts { v with twn := { v.twn with
        written := v.twn.written.filter fun e => v.regionOfTile e.1 != some region } }).ackMsg seq))) ∧
  (∀ (s : State) (seq : Nat), s.linkIsUp = true → s.isl.quiet = .awake → s.twn.acted.contains seq = true →
    (∀ m, exec (.forward seq m) s = .next ((s.ackMsg seq).count (Reg.twnCount + 0x10))) ∧
    (∀ m, s.mirrorHeld seq = false → exec (.mirror seq m) s = .next ((s.ackMsg seq).count (Reg.twnCount + 0x10))) ∧
    (∀ cs, s.twn.ackHeld.get? seq = none →
      exec (.control seq cs) s = .next ((s.ackMsg seq).count (Reg.twnCount + 0x10)))) ∧
  (∀ (s : State) (seqs : List Nat), s.linkIsUp = true → s.isl.quiet = .awake →
    exec (.shaumAck seqs) s = .next ((seqs.foldl State.ackOne s).sendUnsent).settle) ∧
  (∀ (s : State) (id : Fin 4096), (s.region id).ensign = .handing → (s.region id).offered = false →
    s.regionOpen id = false → (id.val = 0 → s.lapDrained = true ∧ s.lap.reads = []) → exec (.handoffAcksDrained id) s =
      .next ((s.modRegion id fun x => { x with offered := true }).post (.ensignOffer id (s.region id).pseq))) ∧
  (∀ (s : State) (id : Fin 4096) (x : Resync) (tile : Nat), s.twn.resync.get? id = some x →
    (x.todo.find? fun tile => !s.mirrorOpen tile && (s.moves.get? tile).isNone) = some tile → s.linkIsUp = true →
    exec (.resyncTileSend id) s = .next (State.post { s with twn := { s.twn with resync := s.twn.resync.set id (
      { todo := x.todo.filter (· != tile), sent := x.sent ++ [tile] } : Resync) } }
        (.tileData tile (s.bytesAt (tile * 4096) 4096) (s.tileInfo tile) true))) ∧
  (∀ (s : State) (g : Fin 4) (h : SegHdr) (ok : Bool) (m : ShaumMsg), s.linkIsUp = true → s.lanesUp.contains g.val = true →
    s.bit Reg.secCtl 1 = true → h.version = 1 →
    (h.epoch % 65536 ≠ s.twn.epoch →
      exec (.shaumSegmentReceive g h true ok m) s = .next (s.count (Reg.twnCount + 0xC))) ∧
    (∀ t b, h.epoch % 65536 = s.twn.epoch → s.takeBuf h.segLen = some (t, b) →
      let u := (t.freeBuf b).modLane g fun l => { l with ctrRx := h.counter }
      let v := (if isBurgee m then u.heardOn false else (u.heardOn false).wakeFor .twin).placeSeg h ok m
      (h.keySel.testBit 23 = false → v.counterOver g = false → exec (.shaumSegmentReceive g h true ok m) s = .next v) ∧
      exec (.shaumSegmentReceive g h false ok m) s = .next u.authBad))

/-- On each path a Burgee leaves every interval with the next BURGEE_SEQ. A good Burgee is taken as the peer's last. Fast
mode ends when its causes have. A path that goes silent sets its flag, counts the misses and is recorded. Both silent
through the window: the peer has failed and is fenced; so does the Shaum hold where this twin keeps service. Twin 1's
defer ends in the fence, the settle in the takeover. TWIN_FENCE_IN takes the twin out of service to REJOIN in phase 10, and
its release trains the link. FENCE asserts the fence, RELEASE asks for its release, TAKEOVER forces one. The fence test
counts pulses and proves the path. No link after a release asserts the fence again. Return hands the regions back. -/
def Obligations.PeerFailureFencingAndTakeover : Prop :=
  (∀ (s : State) (g : Nat), s.linkIsUp = true → s.lanesUp = [g] → Yields .shaumBurgeeInterval s fun t =>
    t.twn.shaumTx = (s.twn.shaumTx + 1) % 2 ^ 32 ∧ t.mem = s.mem ∧ t.regs = s.regs) ∧
  (∀ s : State, s.tsbLive = true → exec .tsbBurgeeInterval s = .next (State.emit
    { s with twn := { s.twn with tsbTx := (s.twn.tsbTx + 1) % 2 ^ 32 } } (.tsb (s.burgeeNow true) (burgeeBytes (s.burgeeNow true))))) ∧
  (∀ s : State, s.twn.shaumSilent = false → s.twn.peerFast = false →
    exec .fastModeExpiry s = .next { s with twn := { s.twn with fast := false } }) ∧
  (∀ (s : State) (b : Burgee), s.tsbLive = true → exec (.burgee true true b) s = .next (s.takeBurgee true b) ∧
    exec (.burgee true false b) s = .next (s.burgeeMiss 1)) ∧
  (∀ (s : State) (b : Burgee), s.linkIsUp = true → exec (.burgee false true b) s = .next (s.takeBurgee false b) ∧
    exec (.burgee false false b) s = .next (s.count (Reg.twnCount + 4))) ∧
  (∀ s : State, s.twn.shaumSilent = false →
    exec .shaumPathSilent s = .next ((s.burgeeMiss (s.fld Reg.twnHb 10 7)).goSilent false)) ∧
  (∀ s : State, s.twn.tsbSilent = false →
    exec .tsbPathSilent s = .next ((s.burgeeMiss (s.fld Reg.twnHb 28 25)).goSilent true)) ∧
  (∀ s : State, s.admitted = true → s.twn.fenceIn = false → s.selfSaving = false → s.twn.shaumSilent = true →
    (s.twn.tsbSilent = true → s.twn.peer = .suspect →
      exec .confirmationWindowExpiry s = .next ((s.flag Reg.twnEvent 2).peerLost true)) ∧
    (s.twn.tsbSilent = false → s.twn.mate = true → s.linkIsUp = false → s.keepsService = true →
      exec .shaumHoldExpiry s = .next (s.peerLost false))) ∧
  (∀ s : State, s.twn.fence = .defer → exec .fenceDeferExpiry s = .next s.fenceNow ∧
    (s.twn.fenceIn = false → s.fenceNow.twn.fence = .settle ∧ s.fenceNow.twn.fenceOut = true)) ∧
  (∀ s : State, s.twn.fence = .settle →
    exec .fenceSettleExpiry s = .next { s with
      regions := s.regions.mapV fun r => if r.ensign == .peerOwns then { r with ensign := .taking } else r
      twn := { s.twn with fence := .taking } }) ∧
  (∀ s : State, s.twn.fence = .taking → s.fw.halted = false → s.isl.quiet = .awake → exec .takeover s = .next s.takeOver) ∧
  (∀ (s : State) (ns : Nat), s.twn.fenceIn = false → 2000 ≤ ns →
    let t := State.flag { s with twn := { s.twn with
      fenceIn := true, hostsHeld := true, fence := .none, forced := false, mate := false, paired := false
      rejoin := s.openTiles.foldl insertNew s.twn.rejoin } } Reg.twnEvent 4
    let u := (t.withdraw.dropCtl.dropWork.hostsOff true).shaumOff.yieldRegions
    u.selfSaving = false → exec (.twinFenceInAssert ns) s = .next (State.setPhase
      { u with admitted := false, twn := { u.twn with self := .rejoin } } 10).settle) ∧
  (∀ (s : State) (ns : Nat), s.twn.fenceIn = true → 10000 ≤ ns →
    exec (.twinFenceInRelease ns) s = .next (State.shaumTrain { s with twn := { s.twn with fenceIn := false } })) ∧
  (∀ s : State, s.cmdReady Reg.twnCmd →
    (s.twn.fenceOut = false → exec (.twnCmdFence .firmware) s = .next ((s.driveFence true).flag Reg.twnEvent 3)) ∧
    exec (.twnCmdRelease .firmware) s = .next s.releaseAsk ∧
    (s.twn.fence = .none → exec (.twnCmdTakeover .firmware) s =
      .next (State.withdraw { s with twn := { s.twn with forced := true, peer := .failed } }).fenceNow)) ∧
  (∀ (s : State) (ns : Nat), 100 ≤ ns → ns ≤ 1000 → exec (.fenceTestPulseSeen ns) s =
    .next { s with twn := { s.twn with fenceSeen := (s.twn.fenceSeen + 1) % 65536 } }) ∧
  (∀ s : State, s.twn.fenceOut = false → 0 < s.twn.pulses →
    exec .fenceTestPulseSend s = .next (State.emit { s with twn := { s.twn with pulses := s.twn.pulses + 1 } } .fencePulse) ∧
    (s.peerSeen ≠ s.twn.pulseBase → exec .fenceTestCheck s =
      .next { s with twn := { s.twn with fenceOk := true, pulseBase := s.peerSeen } })) ∧
  (∀ s : State, s.twn.fenceOut = false → s.twn.lastRelease ≠ none → s.linkIsUp = false →
    Yields .releaseLinkTimeout s fun t => t.twn.fenceOut = true ∧ t.mem = s.mem) ∧
  (∀ s : State, s.twn.releaseDeferred = true → s.twn.fenceOut = true → s.bit Reg.twnCtl 4 = false →
    exec .releaseDeferExpiry s = .next (State.releaseNow { s with twn := { s.twn with releaseDeferred := false } })) ∧
  (∀ s : State, s.paired = true → s.twn.resync = [] → s.twn.peerRejoin = none → s.twn.fenceIn = false →
    s.twn.fenceOut = false → (s.regions.vals.all fun r => r.state == .online) = true →
    let ids := (s.regions.filter fun e => e.2.ensign == .owner && e.2.prefOwner != s.twin).map Prod.fst
    ids ≠ [] → exec .revertHoldoffExpiry s =
      .next (State.startHandoff { s with twn := { s.twn with reverting := true } } ids).settle)

/-- In WATCH and PAIRED, a sampled tile of a region that this twin owns, with no open write and no move, goes to the peer as
VERIFY with its CRC and PSEQ. Each period begins a scrub pass over the DRAM. An engine's test is counted, and one that
passes changes nothing else. The health record begins a new period: its sequence follows, and the counts start again. -/
def Obligations.StandbySelfTest : Prop :=
  (∀ (s : State) (tile id : Nat), s.bit Reg.twnCtl 3 = false → s.paired = true → s.regionOfTile tile = some id →
    (s.region id).ensign = .owner → s.mirrorOpen tile = false → (s.tile tile).lock = false →
    let t : State := { s with twn := { s.twn with verifyBusy := s.twn.verifyBusy.set tile (s.tileCrc tile) } }
    exec (.watchSample tile) s =
      .next ((t.verifyOwn tile).post (.verify tile (s.tileCrc tile).1 (s.tileCrc tile).2)).settle) ∧
  (∀ s : State, s.bit Reg.twnCtl 3 = false → s.bit Reg.dmcScrubCtl 31 = false → exec .watchScrubPeriod s =
    .next ((((s.setReg64 Reg.dmcScrubStartLo 0).setReg64 Reg.dmcScrubEndLo (s.dramBytes - 1)).setFld
      Reg.dmcScrubCtl 15 0 0xFFFF).scrubBegin)) ∧
  (∀ (s : State) (e : Fin 28), s.bit Reg.twnCtl 3 = false → exec (.engineSelfTest e true) s = .next (State.emit
    { s with twn := { s.twn with enginesTested := s.twn.enginesTested + 1 } } (.selfTest e))) ∧
  (∀ s : State, Yields .healthRecord s fun t => t.twn.healthSeq = s.twn.healthSeq + 1 ∧ t.twn.sampled = 0 ∧
    t.twn.races = 0 ∧ t.twn.mismatches = 0 ∧ t.twn.enginesTested = 0 ∧ t.twn.burgeeMiss = 0 ∧ t.mem = s.mem ∧
    t.reg Reg.twnHealth = w32 s.twn.healthSeq)

/-- Whichever transport brings it, a new command that may run does what R511 gives it in the state in which it has been
accepted. One whose rights forbid it ends DENIED, an unknown opcode UNSUPPORTED, a phase that does not allow it NOT_READY,
an object held by another command CONFLICT, each after acceptance. A repeated SEQ gets the stored result again, any other
SEQ_ERROR. While a command is in progress another is answered BUSY, and a query of its SEQ gets its progress; after it the
stored result. While firmware takes none a command is held and counted. The foreground limit sends a command in progress to
the background with BUSY, and a progress that the spec leaves open; one that waits only for time ends with its result; an idle endpoint's instance is freed. -/
def Obligations.JorridCommandsAreTakenInTurn : Prop :=
  (∀ (s : State) (i : MbxInst) (h : JHdr) (c : JorridCmd), s.jRuns (mbxKey i) h c →
    exec (.jorridAccept i h c) s = .next ((s.accepted (mbxKey i) h c).jRun (mbxKey i) c)) ∧
  (∀ (s : State) (ld : Fin 32) (h : JHdr) (c : JorridCmd), s.cxlMbxUp ld = true → s.jRuns (mbxKey (.cxl ld)) h c →
    exec (.jorridVendorOpcode ld h c) s = .next ((s.accepted (mbxKey (.cxl ld)) h c).jRun (mbxKey (.cxl ld)) c)) ∧
  (∀ (s : State) (qpn psn : Nat) (q : Qp) (w : WcmHdr) (h : JHdr) (c : JorridCmd), s.qp? qpn = some q →
    q.state = .established → psnClass q.psnRx psn = 0 → q.service = 1 → s.rnrNow false = false → s.bit Reg.secCtl 0 = true →
    w.version = 1 → 16 ≤ w.length → w.length ≤ 65535 →
    let t := ((s.psnTake qpn psn 0).addResp qpn psn .ack true).modMb (mbxKey (.mgmt qpn)) fun m => { m with mtag := w.tag }
    t.jRuns (mbxKey (.mgmt qpn)) h c →
    exec (.wcmJorrid qpn psn w h c) s = .next ((t.accepted (mbxKey (.mgmt qpn)) h c).jRun (mbxKey (.mgmt qpn)) c)) ∧
  (∀ (s : State) (i : MbxInst) (h : JHdr) (c : JorridCmd), s.jNew (mbxKey i) h c →
    let k := mbxKey i
    let t := s.taken k h c
    (t.permits k c = false → exec (.jorridAccept i h c) s = .next (t.jDeny k)) ∧
    (t.permits k c = true → unknownOp c = true → exec (.jorridAccept i h c) s = .next (t.mbxStatus k jrUnsupported)) ∧
    (t.permits k c = true → unknownOp c = false → notReady t.phase c = true →
      exec (.jorridAccept i h c) s = .next (t.mbxStatus k jrNotReady)) ∧
    (t.permits k c = true → unknownOp c = false → notReady t.phase c = false →
      ((objectsOf c).any fun o => (s.modMb k id).objectsHeld.contains o) = true →
      exec (.jorridAccept i h c) s = .next (t.mbxStatus k jrConflict))) ∧
  (∀ (s : State) (i : MbxInst) (h : JHdr) (c : JorridCmd), s.instUp (mbxKey i) = true → s.noInstance (mbxKey i) = false →
    h.wellFormed = true → c ≠ .getStatus → c ≠ .abort →
    let k := mbxKey i
    let u := s.modMb k id
    ((u.mb k).state = .busy → exec (.jorridAccept i h c) s = .next (u.jBusy k ((u.mb k).lastSeq.getD 0))) ∧
    ((u.mb k).state ≠ .busy → (u.mb k).held = none → u.jTakes = false → exec (.jorridAccept i h c) s =
      .next ((u.modMb k fun x => { x with held := some (h, c), htag := x.mtag }).count (Reg.mbxCount + 0x10))) ∧
    (∀ l, (u.mb k).state ≠ .busy → (u.mb k).held = none → u.jTakes = true → u.isAwake = true →
      (u.mb k).lastSeq = some l → h.seq % 2 ^ 32 ≠ (l + 1) % 2 ^ 32 →
      exec (.jorridAccept i h c) s = .next (if h.seq % 2 ^ 32 = l then u.mbxSay k l (u.mb k).tag (u.mb k).result
        else u.jSeqError k h c))) ∧
  (∀ (s : State) (i : MbxInst) (h : JHdr), s.instUp (mbxKey i) = true → s.noInstance (mbxKey i) = false →
    h.wellFormed = true →
    let k := mbxKey i
    let u := s.modMb k id
    (u.mb k).lastSeq = some h.seq →
    ((u.mb k).state ≠ .busy →
      exec (.getStatus i h) s = .next (u.mbxSay k h.seq (u.mb k).tag (u.mb k).result) ∧
      exec (.abort i h) s = .next (u.mbxSay k h.seq (u.mb k).tag (u.mb k).result)) ∧
    ((u.mb k).state = .busy →
      exec (.getStatus i h) s = .next (u.mbxSay k h.seq h.tag
        { opcode := 0x0002, status := jrBusy, progress := (u.mb k).result.progress }) ∧
      exec (.abort i h) s = .next ((u.mbxSay k h.seq h.tag
        { opcode := 0x0003, status := jrBusy, progress := (u.mb k).result.progress }).jAbort k))) ∧
  (∀ (s : State) (i : MbxInst) (l : Nat) (c : JorridCmd), (s.mb (mbxKey i)).state = .busy →
    (s.mb (mbxKey i)).lastSeq = some l → (s.mb (mbxKey i)).cmd = some c →
    ((s.mb (mbxKey i)).background = false →
      let pct := max (s.mb (mbxKey i)).result.progress (Config.choice s.draw.2 % 100)
      exec (.foregroundLimitExpiry i) s = .next ((s.draw.1.modMb (mbxKey i) fun x => { x with
        background := true, mtag := x.ctag, result := { x.result with progress := pct } }).mbxSay (mbxKey i) l
          (s.mb (mbxKey i)).tag { opcode := opcodeOf c, status := jrBusy, progress := pct })) ∧
    ((s.mb (mbxKey i)).step = 4 → s.slotErasing false = false → s.slotErasing true = false →
      exec (.jorridCommandComplete i) s = .next (s.mbxEnd (mbxKey i) (s.mb (mbxKey i)).ending)) ∧
    ((s.mb (mbxKey i)).step ≠ 4 →
      exec (.jorridCommandComplete i) s = .next (s.reclaim.jServe (mbxKey i)).settle)) ∧
  (∀ (s : State) (eid : Nat), (s.mb (2 ^ 33 + eid)).state ≠ .busy →
    exec (.mctpEndpointIdle eid) s = .next { s with mbx := s.mbx.erase (2 ^ 33 + eid) })

/-- The commands marked L are PLANNED_HANDOFF, RELAY, REGION_RESIZE, REGION_DELETE, REGION_SET_POLICY, SET_DURABILITY,
EXTENT_ADD, EXTENT_RELEASE, LEASE_REVOKE, MKEY_INVALIDATE_FOR, SQ_DELETE, SCRUB_START, CAP_TEST, FW_TRANSFER and
FW_ACTIVATE. A new one in the state that acceptance leaves holds a slot, and any other command holds none. With every slot
taken, a new one whose SEQ may be accepted is answered RETRY, and the instance's LAST_SEQ and state stay. -/
def Obligations.BackgroundSlotAtAcceptance : Prop :=
  (∀ c : JorridCmd, takesSlot c = true ↔ opcodeOf c ∈ [0x0006, 0x0008, 0x0021, 0x0022, 0x0023, 0x0032, 0x0033, 0x0034,
    0x0042, 0x0044, 0x0051, 0x0070, 0x0071, 0x0091, 0x0092] ∧ unknownOp c = false) ∧
  (∀ (s : State) (k : Nat) (h : JHdr) (c : JorridCmd), ((s.taken k h c).mb k).slot = takesSlot c) ∧
  (∀ (s : State) (i : MbxInst) (h : JHdr) (c : JorridCmd), s.instUp (mbxKey i) = true → s.noInstance (mbxKey i) = false →
    h.wellFormed = true → takesSlot c = true →
    let k := mbxKey i
    let u := s.modMb k id
    (u.mb k).state ≠ .busy → (u.mb k).held = none → u.jTakes = true → u.isAwake = true →
    (∀ l, (u.mb k).lastSeq = some l → h.seq % 2 ^ 32 = (l + 1) % 2 ^ 32) → u.fld Reg.mbxCfg 13 8 ≤ u.slotsBusy →
    exec (.jorridAccept i h c) s = .next (u.mbxSay k h.seq h.tag { opcode := opcodeOf c, status := jrRetry }))

/-- What each does once it runs, under the conditions on the objects that make it succeed, k its instance: IDENTIFY answers
the device's numbers; SET_TIME, SET_MODE, SET_ATTR change both twins and end when both have; RESET_WARM leaves service and
begins a warm reset; a planned handoff to the peer begins; RELAY posts to the peer; the register commands access their
registers in order; a region is created from granules and a slice, resized to its size (nothing to do), deleted, given its
policy, forced online, and described. PROVISION without a valid record stores it. -/
def Obligations.JorridDeviceAndRegions : Prop :=
  ∀ (s : State) (i : MbxInst) (h : JHdr),
    let k := mbxKey i
    RunsAs s i h .identify (.identify i h) (fun _ => True) (fun t => t.mbxOk k [(t.shows Reg.glbPartId).toNat,
      b2n t.variantN, (t.shows Reg.glbPartId).toNat / 2 ^ 8 % 2 ^ 4, b2n t.twin, t.reg64 Reg.twnApplLo % 2 ^ 32,
      t.reg64 Reg.twnApplLo / 2 ^ 32, t.runningSlot.version, microcodeVersion t.runningSlot, b2n t.fw.running, t.phase,
      eventUuid % 2 ^ 32, eventUuid / 2 ^ 32 % 2 ^ 32, eventUuid / 2 ^ 64 % 2 ^ 32, eventUuid / 2 ^ 96]) ∧
    (∀ ns, RunsAs s i h (.setTime ns) (.setTime i h ns) (fun _ => True) (fun t =>
      t.mbxBoth k [.time (ns % 2 ^ 64)] false { status := jrSuccess })) ∧
    RunsAs s i h .resetWarm (.resetWarm i h) (fun _ => True) (fun t =>
      ((t.mbxStatus k jrSuccess).leaveService).warmStart true) ∧
    (∀ ids, RunsAs s i h (.plannedHandoff ids true) (.plannedHandoff i h ids true) (fun t => t.paired = true) (fun t =>
      (State.startHandoff { t with twn := { t.twn with handoffInst := some k, handed := 0 } }
        (if ids.isEmpty then t.regions.keys else ids)).settle)) ∧
    (∀ ids, RunsAs s i h (.plannedHandoff ids true) (.plannedHandoff i h ids true) (fun t => t.paired = false) (fun t =>
      t.mbxStatus k jrPeerAbsent)) ∧
    (∀ d, RunsAs s i h (.setMode d) (.setMode i h d) (fun _ => True) (fun t =>
      t.mbxBoth k [.mode d] false { status := jrSuccess })) ∧
    (∀ hc c, RunsAs s i h (.relay hc c) (.relay i h hc c) (fun t => t.paired = true ∧
      (t.modMb k fun m => { m with step := 2 }).relaying = false) (fun t =>
      ((t.modMb k fun m => { m with step := 2 }).modMb k fun x => { x with step := 3, relayed := some hc.seq }).post
        (.peerMbx hc c))) ∧
    (∀ off count, 0 < count → count ≤ 512 → off % 4 = 0 → off + 4 * count ≤ 2 ^ 26 →
      RunsAs s i h (.regRead off count) (.regRead i h off count) (fun _ => True) (fun t =>
        let r := (List.range count).foldl (fun (a : State × List Nat) n =>
          let p := a.1.read4 (pathOf k) (off + 4 * n)
          (p.1, a.2 ++ [p.2.toNat])) (t, [])
        r.1.mbxOk k r.2)) ∧
    (∀ off v, goodAccess off 4 = true → RunsAs s i h (.regWrite [(off, v)]) (.regWrite i h [(off, v)]) (fun _ => True)
      (fun t => (t.write4 (pathOf k) off (w32 (v % 2 ^ 32))).1.mbxOk k
        [b2n (t.write4 (pathOf k) off (w32 (v % 2 ^ 32))).2])) ∧
    (∀ id gibs qos pref onAck dflt gs b, id < 4096 → 0 < gibs → qos < 8 →
      RunsAs s i h (.regionCreate id gibs qos pref onAck dflt) (.regionCreate i h id gibs qos pref onAck dflt)
        (fun t => t.regions.get? id = none ∧ t.takeGranules gibs = some gs ∧ t.freeBase gibs = some b ∧
          t.sec.entropyOk = true)
        (fun t =>
          let r : Region := { state := .online, size := gibs, qos := qos, prefOwner := pref, onAck := onAck, dflt := dflt
                              owner := if t.paired then pref else t.twin, rgtBase := b }
          t.draw.1.jBoth k ((gs.zipIdx.map fun e => Change.rgt (b + e.2) e.1)
            ++ [.key id 0 (Config.random t.draw.2 % 2 ^ 256), .region id r]) true 5)) ∧
    (∀ id gibs, id < 4096 → 0 < gibs → RunsAs s i h (.regionResize id gibs) (.regionResize i h id gibs)
      (fun t => t.regionLives id = true ∧ gibs < (t.region id).size ∧ t.coveredFrom id (gibs * gib) = false)
      (fun t => t.jBoth k [.region id { t.region id with size := gibs }] true 5)) ∧
    (∀ id gibs cs, id < 4096 → 0 < gibs → RunsAs s i h (.regionResize id gibs) (.regionResize i h id gibs)
      (fun t => t.regionLives id = true ∧ (t.region id).size < gibs ∧ t.growTo id (t.region id) gibs = some cs)
      (fun t => t.jBoth k cs true 5)) ∧
    (∀ id, id < 4096 → RunsAs s i h (.regionDelete id) (.regionDelete i h id) (fun t => t.regionLives id = true)
      (fun t => (t.jBoth k [.region id { t.region id with state := .deleting }] false 5).jServeAll)) ∧
    (∀ id dflt host right, id < 4096 → host < 0xFFFF →
      RunsAs s i h (.regionSetPolicy id dflt [(host, right)]) (.regionSetPolicy i h id dflt [(host, right)])
        (fun t => t.regionLives id = true)
        (fun t => t.jBoth k [.region id { t.region id with dflt := dflt, policy := [(host, right)] }] true 6)) ∧
    (∀ id qos pref onAck, id < 4096 → qos < 8 →
      RunsAs s i h (.regionSetAttr id qos pref onAck) (.regionSetAttr i h id qos pref onAck)
        (fun t => t.regionLives id = true)
        (fun t => t.mbxBoth k [.region id { t.region id with qos := qos, prefOwner := pref, onAck := onAck }] true
          { status := jrSuccess })) ∧
    (∀ id, id < 4096 → RunsAs s i h (.regionForceOnline id s.twin) (.regionForceOnline i h id s.twin)
      (fun t => (t.region id).state = .offline ∧ t.twn.fenceIn = false ∧ t.phase ≠ 11 ∧ t.twin = s.twin)
      (fun t =>
        let u := ((t.recordF 0x0204 id (t.shows Reg.mbxEvent).toNat 0 { forced := true }).hostsFree)
        let v := (u.both [.force id s.twin] false (some k)).1
        State.jWait (if s.twin != v.twin then v else if v.paired || v.single then v.changeStart (.force id s.twin)
          else if v.twn.heardPeer then v else v.fencePeer true) k 5)) ∧
    (∀ id, id < 4096 → RunsAs s i h (.regionInfo id) (.regionInfo i h id) (fun _ => True) (fun t =>
      let r := t.region id
      t.mbxOk k ([regionCode r.state, r.size, r.qos, r.epoch, b2n r.owner, b2n r.prefOwner, b2n r.onAck, r.pseq % 2 ^ 32,
        r.pseq / 2 ^ 32, r.rgtBase,
        rightLevel r.dflt, r.policy.length] ++ r.policy.flatMap (fun e => [e.1, rightLevel e.2])
        ++ [match r.ensign with | .owner => 0 | .peerOwns => 1 | .handing => 2 | .taking => 3]))) ∧
    (∀ tw id rails,
      let r : ApplRec := { twin := tw, id := id, rails := rails }
      RunsAs s i h (.provision tw id rails false) (.provision i h tw id rails false)
        (fun t => t.bit Reg.twnId 1 = false) (fun t => (((t.recordPut r).recordF 0x0205 0
          (t.shows Reg.mbxEvent).toNat 0 { fw := true }).recordLoad).mbxStatus k jrSuccess))

/-- What each does once it runs and its objects allow it: an LD is bound or unbound on both twins, its durability mode set, an
extent put before the host or taken back (by force at once), a vector chosen; a lease is granted, changed or revoked on
both twins; a key is registered for a lease's host and its R_Key answered, or invalidated once the accesses under it have
ended. -/
def Obligations.JorridLdsLeasesAndKeys : Prop :=
  ∀ (s : State) (i : MbxInst) (h : JHdr),
    let k := mbxKey i
    (∀ ld host, ld < 32 → RunsAs s i h (.ldBind ld host) (.ldBind i h ld host) (fun t => t.mayBind ld = true)
      (fun t => (t.bindLd ld host).mbxStatus k jrSuccess)) ∧
    (∀ ld, ld < 32 → RunsAs s i h (.ldUnbind ld) (.ldUnbind i h ld) (fun t => t.mayUnbind ld = true)
      (fun t => (t.bothNow [.binding ld false]).mbxStatus k jrSuccess)) ∧
    (∀ ld ctm, ld < 32 → RunsAs s i h (.setDurability ld ctm) (.setDurability i h ld ctm) (fun _ => True) (fun t =>
      ((t.setDur ld ctm).1.modMb k fun m => { m with waits := (t.setDur ld ctm).2, ending := { status := jrSuccess } }).jWait
        k 1)) ∧
    (∀ ld dc dpa len region rof, ld < 32 →
      RunsAs s i h (.extentAdd ld dc dpa len region rof) (.extentAdd i h ld dc dpa len region rof)
        (fun t => t.regionLives region = true ∧ t.extentRoom ld = true ∧ t.extentOk ld dc dpa len region rof = true)
        (fun t => (t.extentPut ld dc dpa len region rof).1.jwPut (jwExtent (t.extentPut ld dc dpa len region rof).2) k)) ∧
    (∀ ld region rof gen force idx e, ld < 32 →
      RunsAs s i h (.extentRelease ld region rof gen force) (.extentRelease i h ld region rof gen force)
        (fun t => t.extentTagged ld region rof gen = some (idx, e) ∧ t.askOk idx e force = true) (fun t => t.extentAsk k idx e force)) ∧
    (∀ ld vector source, ld < 32 → 2 ≤ vector → vector < 64 →
      RunsAs s i h (.notifyVector ld vector source) (.notifyVector i h ld vector source) (fun _ => True)
        (fun t => (t.modLd ld fun l => { l with vectors := l.vectors.set vector source }).mbxStatus k jrSuccess)) ∧
    (∀ host cred mgmt qp mkey, leaseItemsOk host (qp.getD 256) (mkey.getD 1024) = true →
      let l : Lease := { cred := cred, mgmt := mgmt, maxQp := qp.getD 256, maxMkey := mkey.getD 1024 }
      RunsAs s i h (.leaseGrant host cred mgmt qp mkey) (.leaseGrant i h host cred mgmt qp mkey)
        (fun t => t.leases.get? host = none) (fun t => t.mbxBoth k [.lease host l] false { status := jrSuccess })) ∧
    (∀ host cred mgmt maxQp maxMkey, leaseItemsOk host maxQp maxMkey = true →
      let l : Lease := { cred := cred, mgmt := mgmt, maxQp := maxQp, maxMkey := maxMkey }
      RunsAs s i h (.leaseChange host cred mgmt maxQp maxMkey) (.leaseChange i h host cred mgmt maxQp maxMkey)
        (fun t => ∃ x, t.leases.get? host = some x ∧ x.state ≠ .revoked)
        (fun t => t.mbxBoth k [.lease host l] false { status := jrSuccess })) ∧
    (∀ host x, RunsAs s i h (.leaseRevoke host) (.leaseRevoke i h host)
      (fun t => t.leases.get? host = some x ∧ x.state ≠ .revoked)
      (fun t => (t.jBoth k [.leaseRevoke host] false 5).settle)) ∧
    (∀ host region verbs tag rof va len l u idx x, verbs < 16 → tag < 256 →
      RunsAs s i h (.mkeyRegisterFor host region verbs tag rof va len)
        (.mkeyRegisterFor i h host region verbs tag rof va len)
        (fun t => t.leases.get? host = some l ∧ l.state ≠ .revoked ∧
          t.keyMake host region verbs tag rof va len = .ok (u, idx, x))
        (fun _ => u.mbxBoth k [.mkey idx x] false { status := jrSuccess, body := [rkeyOf idx x.gen x.tag] })) ∧
    (∀ rkey idx x, RunsAs s i h (.mkeyInvalidateFor rkey) (.mkeyInvalidateFor i h rkey)
      (fun t => t.keyNamed rkey = some (idx, x))
      (fun t => (t.modMb k fun m => { m with access := t.underKey x }).mbxBoth k [.mkey idx { x with live := false }] false
        { status := jrSuccess }))

/-- What each does once it runs and its objects allow it: a queue or ring is created, stopped, resumed, reset, deleted, or
given a target, on both twins; the fence is released, a takeover forced, the link retrained; a scrub pass or a test begins, a
planned save follows its answer; events are read, an event queue is set; firmware's slots are described; a transfer begins,
goes on, ends and is abandoned, and an image is activated live, or at the next reset. -/
def Obligations.JorridQueuesServicesAndFirmware : Prop :=
  ∀ (s : State) (i : MbxInst) (h : JHdr),
    let k := mbxKey i
    let ok : JResult := { status := jrSuccess }
    (∀ sq host addr log2 cq limit maint region off, sq < 4096 → host < 0x10000 → 0 < limit.getD 32 → limit.getD 32 ≤ 64 →
      RunsAs s i h (.sqCreate sq host addr log2 cq limit maint) (.sqCreate i h sq host addr log2 cq limit maint)
        (fun t => t.ringPlace addr log2 (256 + 64 * 2 ^ log2) = some (region, off) ∧ t.sq? sq = none ∧
          (t.cq? cq).isSome = true ∧ admits (t.region region).state = true)
        (fun t =>
          let q : Sq := { host := host, region := region, base := off, log2 := log2, cq := cq, maint := maint, limit := limit.getD 32
                          state := .active, halted := false }
          t.mbxBoth k [.claim (objSq sq), .sq sq q] false ok)) ∧
    (∀ sq q, RunsAs s i h (.sqDelete sq) (.sqDelete i h sq) (fun t => t.sq? sq = some q ∧ q.state ≠ .deleting)
      (fun t => (t.jBoth k [.claim (objSq sq), .sq sq { q with state := .deleting, halted := false }] false 5).settle)) ∧
    (∀ sq q, RunsAs s i h (.sqStop sq) (.sqStop i h sq) (fun t => t.sq? sq = some q ∧ q.state = .active)
      (fun t => t.mbxBoth k [.claim (objSq sq), .sq sq { q with state := .stopped, halted := false }] false ok)) ∧
    (∀ sq q, RunsAs s i h (.sqResume sq) (.sqResume i h sq)
      (fun t => t.sq? sq = some q ∧ q.state = .stopped ∧ admits (t.region q.region).state = true)
      (fun t => ((t.mbxBoth k [.claim (objSq sq), .sq sq { q with state := .active, halted := false }] false ok).ringBell sq).settle)) ∧
    (∀ sq q, RunsAs s i h (.sqReset sq) (.sqReset i h sq)
      (fun t => t.sq? sq = some q ∧ q.state = .error ∧ admits (t.region q.region).state = true)
      (fun t => t.mbxBoth k [.claim (objSq sq), .ctlWord q.region q.base q.fetch, .sq sq { q with state := .active, halted := false }] false
        ok)) ∧
    (∀ cq host addr log2 t0 t1 vector window region off, cq < 4096 → host < 0x10000 → ringOk host t0 t1 vector (window.getD 10) = true →
      RunsAs s i h (.cqCreate cq host addr log2 t0 t1 vector window) (.cqCreate i h cq host addr log2 t0 t1 vector window)
        (fun t => t.ringPlace addr log2 256 = some (region, off) ∧ t.cq? cq = none)
        (fun t =>
          let q : Cq := { host := host, region := region, base := off, log2 := log2, t0 := t0, t1 := t1, vector := vector
                          window := window.getD 10 }
          t.mbxBoth k [.claim (objCq cq), .ctlWord region off 1, .cq cq q] false ok)) ∧
    (∀ cq, RunsAs s i h (.cqDelete cq) (.cqDelete i h cq)
      (fun t => (t.cq? cq).isSome = true ∧ (t.sqs.vals.any fun q => q.cq == cq) = false)
      (fun t => t.mbxBoth k [.claim (objCq cq), .cqErase cq] false ok)) ∧
    (∀ cq q tg, RunsAs s i h (.cqSetTarget cq true tg) (.cqSetTarget i h cq true tg)
      (fun t => t.cq? cq = some q ∧ ringOk q.host q.t0 tg q.vector q.window = true)
      (fun t => t.mbxBoth k [.claim (objCq cq), .cq cq { q with t1 := tg }] false ok)) ∧
    (∀ cq q tg, RunsAs s i h (.cqSetTarget cq false tg) (.cqSetTarget i h cq false tg)
      (fun t => t.cq? cq = some q ∧ ringOk q.host tg q.t1 q.vector q.window = true)
      (fun t => t.mbxBoth k [.claim (objCq cq), .cq cq { q with t0 := tg }] false ok)) ∧
    RunsAs s i h .twinRelease (.twinRelease i h) (fun _ => True) (fun t =>
      State.releaseAsk { t with twn := { t.twn with releaseInst := some k } }) ∧
    RunsAs s i h .twinTakeover (.twinTakeover i h) (fun _ => True) (fun t => t.forceTakeover.mbxStatus k jrSuccess) ∧
    RunsAs s i h .twinRetrain (.twinRetrain i h) (fun _ => True) (fun t => t.retrainCmd.mbxStatus k jrSuccess) ∧
    (∀ first last mask rate, 0 < mask → mask < 2 ^ 16 → first ≤ last →
      RunsAs s i h (.scrubStart first last mask rate) (.scrubStart i h first last mask rate)
        (fun t => last < t.dramBytes ∧ t.bit Reg.dmcScrubCtl 31 = false)
        (fun t => (((((t.setReg64 Reg.dmcScrubStartLo first).setReg64 Reg.dmcScrubEndLo last).setFld Reg.dmcScrubCtl 15 0
          mask).setFld Reg.dmcScrubCtl 22 16 (clampStep 1 64 1 rate)).scrubBegin).jwPut jwScrub k)) ∧
    RunsAs s i h .capTest (.capTest i h) (fun t => t.elg.test = .idle ∧ t.elg.probe = none) (fun t => (t.jwPut jwCap k).capStart) ∧
    RunsAs s i h .savePlanned (.savePlanned i h) (fun _ => True) (fun t =>
      (t.mbxStatus k jrSuccess).saveTrigger .planned false) ∧
    (∀ cursor count, 0 < count → count ≤ 127 → RunsAs s i h (.eventRead cursor count) (.eventRead i h cursor count) (fun _ => True) (fun t =>
      t.mbxOk k (t.eventBody cursor count))) ∧
    (∀ slot qpn mask severity q, slot < 4 → mask < 2 ^ 32 →
      RunsAs s i h (.eventQueueSet slot qpn mask severity) (.eventQueueSet i h slot qpn mask severity)
        (fun t => t.qp? qpn = some q ∧ q.service = 1)
        (fun t => State.mbxStatus { t with evq := t.evq.set slot { qpn := qpn, mask := mask, severity := severity } }
          k jrSuccess)) ∧
    RunsAs s i h .fwInfo (.fwInfo i h) (fun _ => True) (fun t => t.mbxOk k [slotCode t.fw.a.state, t.fw.a.version,
      slotCode t.fw.b.state, t.fw.b.version, t.sec.arb, b2n t.fw.running]) ∧
    (∀ b total, 0 < total → total ≤ 6 * 2 ^ 20 →
      RunsAs s i h (.fwTransferInitiate b total) (.fwTransferInitiate i h b total)
        (fun t => (t.fwSlot b).state ≠ .active ∧ t.transferBusy b = false ∧ t.fw.transfer = none)
        (fun t => (t.loadBegin b total).modMb k fun m => { m with step := 4, ending := { status := jrSuccess, body := [0] } })) ∧
    (∀ b off data, data.length ≤ 4064 → RunsAs s i h (.fwTransferContinue b off data) (.fwTransferContinue i h b off data)
      (fun t => t.transferBusy b = false ∧ (t.fwSlot b).state = .loading ∧ off = (t.fwSlot b).image.length ∧
        (t.fwSlot b).image.length + data.length ≤ (t.fwSlot b).total)
      (fun t => (t.loadPut b data).mbxOk k [(t.fwSlot b).image.length + data.length])) ∧
    (∀ b verifies, RunsAs s i h (.fwTransferEnd b verifies) (.fwTransferEnd i h b verifies)
      (fun t => t.transferBusy b = false ∧ (t.fwSlot b).state = .loading)
      (fun t => (t.loadEnd b verifies).mbxEnd k
        { status := t.loadStatus b verifies, body := [(t.fwSlot b).image.length] })) ∧
    (∀ b, RunsAs s i h (.fwTransferAbort b) (.fwTransferAbort i h b)
      (fun t => t.transferBusy b = false ∧ (t.fwSlot b).state = .loading) (fun t => (t.loadDrop b).mbxOk k [0])) ∧
    (∀ b, RunsAs s i h (.fwActivateLive b) (.fwActivateLive i h b) (fun t => t.liveImage b = true ∧ t.liveNow = true)
      (fun t => t.liveHalt b (some k))) ∧
    (∀ b, RunsAs s i h (.fwActivateNextReset b) (.fwActivateNextReset i h b) (fun t => (t.fwSlot b).state = .valid)
      (fun t => (t.setPending b).mbxOk k [t.runningSlot.version]))

/-- A privileged LD's Transfer FW begins, adds, ends and abandons a transfer, and Activate FW makes an image PENDING or
starts it live. PLDM's commands answer, and move the update from state to state: request, table, component, data, transfer
complete, verify, apply, activate, and the cancels. The live image that is ready runs; one that is not in time stays PENDING
and the chip warm-resets. On MGT a good packet takes a receive buffer and waits or is drained, a read returns the packet at
the head, the alert is released by the controller that wins and asserted again, bus errors are counted and flagged; MCTP
control is answered, and Set Endpoint ID resets the sessions. -/
def Obligations.FirmwareUpdateAndMgtBus : Prop :=
  (∀ (s : State) (ld : Fin 32) (b : Bool), s.privLd ld = true → s.cxlMbxUp ld = true →
    s.objectsHeld.contains (objSlot b) = false →
    (s.cxlFwUp (.fwTransferAbort b) = true → s.transferBusy b = false →
      (∀ off total data ok, 0 < total → total ≤ 6 * 2 ^ 20 → (s.fwSlot b).state ≠ .active → s.fw.transfer = none →
        let t := s.loadBegin b total
        exec (.transferFw ld 1 b off total data ok) s = .next (State.loadPoll (State.cxlAnswer
          { t with fw := { t.fw with loadBy := some (true, ld.val) } } ld 0x0201 1 []))) ∧
      ((s.fwSlot b).state = .loading → s.slotErasing b = false →
        (∀ total data ok, data.length ≤ 4064 → (s.fwSlot b).image.length + data.length ≤ (s.fwSlot b).total →
          exec (.transferFw ld 2 b (s.fwSlot b).image.length total data ok) s =
            .next (((s.loadPut b data).cxlAnswer ld 0x0201 0 []).loadPoll)) ∧
        (∀ off total data ok, s.loadStatus b ok = jrSuccess →
          exec (.transferFw ld 3 b off total data ok) s = .next (((s.loadEnd b ok).cxlAnswer ld 0x0201 0 []).loadPoll)) ∧
        (∀ off total data ok, exec (.transferFw ld 4 b off total data ok) s =
          .next (((s.loadDrop b).cxlAnswer ld 0x0201 0 []).loadPoll)))) ∧
    (s.cxlFwUp (.fwActivateNextReset b) = true → (s.fwSlot b).state = .valid →
      exec (.activateFw ld b false) s = .next ((s.setPending b).cxlAnswer ld 0x0202 0 [])) ∧
    (s.cxlFwUp (.fwActivateLive b) = true → s.liveImage b = true → s.liveNow = true →
      exec (.activateFw ld b true) s = .next ((s.cxlAnswer ld 0x0202 1 []).liveHalt b none))) ∧
  (∀ (s : State) (eid : Nat), s.pldmUp eid = true →
    let x := s.fwSlot s.fw.pldmSlot
    exec (.queryDeviceIdentifiers eid) s = .next (s.pldmSend eid 0x01 0 [Config.firmwareDefined 0x515]) ∧
    exec (.getFirmwareParameters eid) s = .next (s.pldmSend eid 0x02 0 [s.runningSlot.version,
      if s.fw.a.state == .pending then s.fw.a.version else if s.fw.b.state == .pending then s.fw.b.version else 0]) ∧
    exec (.pldmGetStatus eid) s = .next (s.pldmSend eid 0x1B 0 [pldmCode s.fw.pldm]) ∧
    (∀ n, s.fw.pldm = .idle → s.fw.transfer = none → notReady s.phase (.fwTransferAbort false) = false → 1024 ≤ n →
      exec (.requestUpdate eid n) s = .next ((s.pldmTo .learn).pldmSend eid 0x10 0 [])) ∧
    (∀ v, s.fw.pldm = .learn → exec (.passComponentTable eid v) s = .next ((s.pldmTo .ready).pldmSend eid 0x13 0 [v])) ∧
    (∀ b total, s.fw.pldm = .ready → 0 < total → total ≤ 6 * 2 ^ 20 → (s.fwSlot b).state ≠ .active →
      let u := (s.loadBegin b total).pldmTo .download
      exec (.updateComponent eid b total) s =
        .next (State.pldmSend { u with fw := { u.fw with pldmSlot := b, loadBy := some (false, eid) } } eid 0x14 0 []).loadPoll) ∧
    (s.fw.pldm = .download → s.slotErasing s.fw.pldmSlot = false →
      exec (.cancelUpdateComponent eid) s = .next (((s.loadDrop s.fw.pldmSlot).pldmTo .ready).pldmSend eid 0x1C 0 []) ∧
      (∀ data, data ≠ [] → data.length = min 1024 (x.total - x.image.length) → x.image.length + data.length < x.total →
        exec (.requestFirmwareData eid data) s = .next ((s.loadPut s.fw.pldmSlot data).pldmAsk eid)) ∧
      (x.image.length = x.total → exec (.transferComplete eid) s = .next ((s.pldmTo .verify).pldmSend eid 0x16 0 [0]))) ∧
    (s.fw.pldm = .learn → s.fw.transfer = none →
      exec (.cancelUpdate eid) s = .next ((s.pldmTo .idle).pldmSend eid 0x1D 0 [])) ∧
    (∀ ok, s.fw.pldm = .verify → s.loadStatus s.fw.pldmSlot ok = jrSuccess →
      exec (.verifyComplete eid ok) s = .next ((((s.loadTail s.fw.pldmSlot).modSlot s.fw.pldmSlot headerRead).pldmTo
        .apply).pldmSend eid 0x17 0 [0])) ∧
    (s.fw.pldm = .apply →
      let t := s.modSlot s.fw.pldmSlot fun x => { x with state := .valid }
      exec (.applyComplete eid) s =
        .next (State.pldmSend { t with fw := { t.fw with transfer := none, pldm := .ready } } eid 0x18 0 [0])) ∧
    (s.fw.pldm = .ready → x.state = .valid → exec (.activateFirmware eid false) s =
      .next (((s.setPending s.fw.pldmSlot).pldmTo .idle).pldmSend eid 0x1A 0 [0]))) ∧
  (∀ (s : State) (b : Bool) (us : Nat), s.fw.activating = some b →
    (us ≤ 50000 → exec (.liveActivationReady us) s = .next (s.liveReady b us)) ∧
    let t := s.modSlot b fun x => { x with state := .pending }
    exec .activationTimeout s = .next ((State.flagRecord { t with fw := { t.fw with activating := none, actInst := none } }
      Reg.mbxEvent 3 0x0203 0 0).warmStart true)) ∧
  (∀ s : State, 2 ≤ s.phase → s.regions = [] → exec .bootConfirmTimeout s = .next s.fwConfirm) ∧
  (∀ (s : State) (dest src tag seq : Nat) (data : List Byte), s.twb.rx.length < 8 →
    s.pktOk 0x0F (data.length + 5) dest data = true → (data.getD 0 0).toNat % 128 ≠ 0 →
    let t := s.smbAck true
    exec (.mgtBlockWrite 0x0F (data.length + 5) dest src tag seq true false true data) s = .next (State.mgtDrain
      { t with twb := { t.twb with rx := t.twb.rx ++ [(
        { eid := src % 256, tag := tag % 8, seq := seq % 4, som := true, eom := false, data := data } : MctpPkt)] } }) ∧
    exec (.mgtBlockWrite 0x0F (data.length + 5) dest src tag seq true false false data) s =
      .next (((s.flag Reg.twbMgtEvent 1).count (Reg.twbMgtCount + 4)).smbAck false)) ∧
  (∀ (s : State) (p : List Byte) (rest : List (List Byte)), s.twb.tx = p :: rest →
    let a := 2 * s.mgtAddr
    let body := leBytes 1 (a + 1) ++ p
    let frame := leBytes 1 body.length ++ body
    let t := s.emit (.smbRead (frame ++ leBytes 1 (crc8 (leBytes 1 a ++ leBytes 1 0x0F ++ leBytes 1 (a + 1) ++ frame))))
    exec (.mgtBlockRead true) s = .next (State.mctpFill { t with twb := { t.twb with tx := rest } }) ∧
    exec (.mgtBlockRead false) s = .next t) ∧
  (∀ s : State, s.twb.alert = true → exec (.alertResponseRead true) s = .next ((State.emit (State.emit { s with twb :=
    { s.twb with alert := false, alertHeld := true } } (.smbRead (leBytes 1 (2 * s.mgtAddr)))) (.smbAlert false)))) ∧
  (∀ s : State, exec .alertReassert s = .next (State.noteAlert { s with twb := { s.twb with alertHeld := false } }) ∧
    exec (.mgtProtocolError true) s = .next ((s.count Reg.twbMgtCount).flagRecord Reg.twbMgtEvent 0 0x1401 0 0) ∧
    exec (.mgtProtocolError false) s = .next s ∧
    exec .mgtClkLowTimeout s = .next ((s.flag Reg.twbMgtEvent 3).count (Reg.twbMgtCount + 0xC)) ∧
    exec .mgtDataLowTimeout s = .next (s.flag Reg.twbMgtEvent 4)) ∧
  (∀ (s : State) (src eid : Nat),
    (0 < eid → eid < 255 →
      let t : State := { s with twb := { s.twb with eid := eid } }
      exec (.setEndpointId src eid) s = .next (((t.mbx.keys.filter fun k => decide (2 ^ 33 ≤ k) &&
        decide (k < 2 ^ 34)).foldl State.mbxReset t).mctpControl src 0 1 [0, 0, eid, 0])) ∧
    exec (.getEndpointId src) s = .next (s.mctpControl src 0 2 [0, s.twb.eid, 0, 0]) ∧
    exec (.getMctpVersionSupport src) s = .next (s.mctpControl src 0 4 [0, 1, Config.firmwareDefined 0x630 % 256]) ∧
    exec (.getMessageTypeSupport src) s = .next (s.mctpControl src 0 5 [0, 3, 1, 5, 0x7F]) ∧
    exec (.getVendorDefinedMessageSupport src) s = .next (s.mctpControl src 0 6 [0, 0xFF, 1,
      Config.firmwareDefined 0x7F / 2 ^ 24 % 256, Config.firmwareDefined 0x7F / 2 ^ 16 % 256,
      Config.firmwareDefined 0x7F / 2 ^ 8 % 256, Config.firmwareDefined 0x7F % 256]))

/-- The boot ROM loads the rail table and boots the slot that verifies first. A debug token that does not verify is flagged
and counted; one that does, in PRODUCTION, unlocks debug. A scan load is recorded. The entropy test sets or clears the
permission to draw keys. The anti-rollback counter never falls. GET_VERSION begins a session; capabilities and algorithms
follow in turn and a request out of turn gets ERROR; digests, certificates, a challenge and measurements are answered once
the algorithms are negotiated, and large messages go in chunks in order. -/
def Obligations.BootDebugAndSpdm : Prop :=
  (∀ (s : State) (a b : Nat) (root sel : Bool), s.phase = 0 → s.sec.failStep = 0 →
    let t := State.railsLoad { s with sec := { s.sec with bootSel := sel } }
    let first := bootSlot t.fw != t.sec.bootSel
    t.bootFails first (if first then b else a) root = 0 →
    exec (.bootRomStart a b root sel false) s = .next (t.booted first root)) ∧
  (∀ (s : State) (rma : Bool),
    exec (.debugToken false rma) s = .next ((s.newChallenge.flag Reg.secEvent 4).count (Reg.secCount + 8)) ∧
    (s.newChallenge.sec.lifecycle = 2 →
      let t := s.newChallenge
      let u := State.keysLost { t with sec := { t.sec with debugUnlocked := true, lifecycle := if rma then 3 else 2 } }
      exec (.debugToken true rma) s = .next (State.setPhase { u.leaveService with noAdmit := true } 11).settle)) ∧
  (∀ (s : State) (n : Nat), exec (.pinControlScanLoad n) s =
    .next (s.record 0x0E02 0 (s.shows Reg.secEvent).toNat 0)) ∧
  (∀ s : State, exec (.entropyFail true) s = .next { s with sec := { s.sec with entropyOk := true } } ∧
    exec (.entropyFail false) s = .next (State.flag { s with sec := { s.sec with entropyOk := false } } Reg.secEvent 1)) ∧
  (∀ (s : State) (svn : Nat), s.cmdReady Reg.secArbAdvance → svn < 256 → exec (.secArbAdvance .firmware svn) s =
    .next { s with sec := { s.sec with arb := max s.sec.arb svn } }) ∧
  (∀ (s : State) (q : SpdmPath), exec (.getVersion q) s =
    .next ((s.modSpdm q fun _ => { version := true, transcript := [0x84] }).spdmSay q spdmVersion [0x12, 0x13])) ∧
  (∀ (s : State) (q : SpdmPath) (n : Nat),
    ((s.spdmOf q).version = true → exec (.getCapabilities q n) s = .next ((((s.modSpdm q fun x => { x with
      caps := true, algs := false, dataXfer := n }).spdmNote q [0xE1, n]).spdmSay q spdmCapabilities [4096]))) ∧
    ((s.spdmOf q).version = false → exec (.getCapabilities q n) s = .next (s.spdmErr q 0x04)) ∧
    ((s.spdmOf q).caps = true →
      exec (.negotiateAlgorithms q true) s = .next (((s.modSpdm q fun x => { x with algs := true }).spdmNote q
        [0xE3]).spdmSay q spdmAlgorithms [1]) ∧
      exec (.negotiateAlgorithms q false) s = .next (s.spdmErr q 0x07))) ∧
  (∀ (s : State) (q : SpdmPath), (s.spdmOf q).algs = true →
    exec (.getDigests q) s = .next ((s.spdmNote q [0x81]).spdmReply q spdmDigests 52 [1, Config.crypto [0x541, s.cdi1]]) ∧
    (∀ off len, off < chainLen → let n := min len (chainLen - off)
      exec (.getCertificate q 0 off len) s = .next ((s.spdmNote q [0x82, off, n]).spdmReply q spdmCertificate (8 + n)
        ([0, n, chainLen - off - n] ++ (List.range n).map fun i => s.chainByte (off + i)))) ∧
    (∀ nonce, s.latticeOff = false → exec (.challenge q 0 nonce) s = .next (s.challengeReply q nonce)) ∧
    (∀ index nonce signed, index ≤ 7 → s.latticeOff = false →
      exec (.getMeasurements q index nonce signed) s = .next (s.measureReply q index nonce signed)) ∧
    (∀ data, exec (.chunkSend q 0 data false) s = .next ((s.modSpdm q fun x => { x with
      chunksIn := data, nextChunk := 1 }).spdmSay q spdmChunkSendAck [0])) ∧
    (∀ code bytes body n, (s.spdmOf q).large = code :: bytes :: body →
      n = min ((s.spdmOf q).dataXfer - 16) (bytes - (s.spdmOf q).sent) → bytes ≤ (s.spdmOf q).sent + n →
      exec (.chunkGet q (s.spdmOf q).handle (s.spdmOf q).nextChunk) s = .next ((s.modSpdm q fun x => { x with
        large := [], sent := 0, nextChunk := 0 }).spdmSay q spdmChunkResponse
          ([(s.spdmOf q).handle, (s.spdmOf q).nextChunk, 1, (s.spdmOf q).sent, n, code] ++ body))))

/-- The first key, then the second, unlock the EFL; a wrong key breaks the sequence, which locks it, and so does the deadline.
An unlocked PROGRAM of a word that R569 does not refuse is queued; when done its bits have gone from 1 to 0 only. An
unlocked ERASE of a block that may be erased starts; 40 pulses with a good verify erase it, and its end leaves it NORMAL.
SUSPEND, RESUME and the automatic resume follow. The scan after a reset finds each interrupted block once. A brown-out holds
the flash until it clears (what follows a start, an erase or a brown-out in the two-half areas is R575's). Firmware's record is queued with FW, TIME, TWIN and severity; a queued record is written under the
next RN. A notice sends what a queue gathered. -/
def Obligations.ConfigFlashAndEvents : Prop :=
  (∀ s : State, s.cmdReady Reg.eflUnlock → s.efl.lockout = false →
    (s.efl.seq = .locked → exec (.eflUnlock .firmware 0xAA55) s = .next { s with efl := { s.efl with seq := .key1 } }) ∧
    (s.efl.seq = .key1 →
      exec (.eflUnlock .firmware 0x55AA) s = .next { s with efl := { s.efl with seq := .unlocked, keyErrs := 0 } }) ∧
    (s.efl.seq = .locked → ∀ w : Word, w.toNat ≠ 0xAA55 → exec (.eflUnlock .firmware w) s = .next (s.eflBreak 1))) ∧
  (∀ s : State, s.efl.seq = .unlocked → exec .unlockDeadline s = .next (s.eflBreak 2)) ∧
  (∀ (s : State) (addr : Word) (data : DWord), s.isl.quiet = .awake → s.isl.gated = [] → s.regs = [] → s.efl.seq = .unlocked →
    s.efl.prog = none → s.efl.erase = none → s.efl.jobs = [] →
    let a := addr.toNat % 2 ^ 24 / 8 * 8
    s.programErr a data.toNat = 0 → Yields (.eflProgram .firmware addr data) s fun t =>
      t.efl.prog.map (fun p => (p.addr, p.data)) = some (a, data.toNat) ∧ t.efl.seq = .locked ∧
      t.efl.words = s.efl.words ∧ t.mem = s.mem) ∧
  (∀ (s : State) (addr : Word), s.isl.quiet = .awake → s.isl.gated = [] → s.regs = [] → s.efl.seq = .unlocked → s.efl.prog = none →
    s.efl.erase = none → s.efl.jobs = [] → let b := addr.toNat % 2 ^ 24 / 65536
    s.eflProtected b = false → exec (.eflErase .firmware addr) s =
      .next (State.eraseStart { s with efl := { s.efl with seq := .locked } } b 3)) ∧
  (∀ (s : State) (b : Nat), s.efl.erase = some b → s.cmdReady Reg.eflCmd → s.efl.seq = .locked →
    (s.eflErasing = true → exec (.eflSuspend .firmware) s = .next { s.eraseState .suspended with
      efl := { (s.eraseState .suspended).efl with autoSusp := false } }) ∧
    (s.eflSuspended = true → s.efl.prog = none → s.efl.brownout = false →
      exec (.eflResume .firmware) s = .next { s.eraseState .erasing with
        efl := { (s.eraseState .erasing).efl with autoSusp := false } } ∧
      (s.efl.autoSusp = true → exec .eflAutoResume s = .next { s.eraseState .erasing with
        efl := { (s.eraseState .erasing).efl with autoSusp := false } }))) ∧
  (∀ (s : State) (p : EflOp), s.efl.prog = some p → s.efl.brownout = false → exec .eflProgramDone s =
    .next ((State.eflPut { s with efl := { s.efl with prog := none } } p.addr p.data).flag Reg.eflStatus 11) ∧
    (s.eflPut p.addr p.data).eflWord p.addr = s.eflWord p.addr &&& p.data) ∧
  (∀ s : State, s.eflErasing = true → s.efl.brownout = false → ∀ v, exec (.eflErasePulseDone v) s = .next { s with efl :=
    { s.efl with pulses := s.efl.pulses + 1, erased := s.efl.erased || (v && decide (40 ≤ s.efl.pulses + 1)) } }) ∧
  (∀ (s : State) (b : Nat), s.efl.erase = some b → s.eflErasing = true → s.efl.erased = true → s.efl.brownout = false →
    let t := State.countErase { s with efl := { s.efl with
      words := s.efl.words.filter (fun x => x.1 / 8192 != b), passes := s.efl.passes.filter (fun x => x.1 / 8192 != b)
      erase := none, pulses := 0, erased := false } } b
    exec .eflEraseDone s =
      .next ((if s.efl.eraseBy = 3 then t.flag Reg.eflStatus 11 else t).eflGo.armSave).loadPoll.downCheck) ∧
  (∀ s : State, s.efl.scanned = false → exec .eflBlockScan s = .next ((((s.efl.blocks.filter fun e => match e.2.state with
      | .interrupted => true | _ => false).map Prod.fst).foldl (fun (t : State) b => t.flagRecord Reg.eflStatus 14 0x1101 b 0)
    ([1, 2, 3, 4, 5].foldl State.areaStart { s.areasRead with efl := { s.efl with scanned := true } })).eflKick)) ∧
  (∀ s : State, s.efl.brownout = false → s.efl.prog = none → s.eflErasing = false → exec .aonBrownout s =
    .next (State.flagRecord { s with efl := { s.efl with brownout := true } } Reg.eflStatus 13 0x1102 0 0)) ∧
  (∀ s : State, s.efl.brownout = true → s.eflSuspended = false → exec .aonBrownoutClear s =
    .next (State.eflGo { s with efl := { s.efl with brownout := false } }).downCheck) ∧
  (∀ (s : State) (w : Word), s.cmdReady (Reg.evrSubmit + 16) → s.efl.seq ≠ .key1 → exec (.evrSubmit .firmware w) s =
    .next (s.evrSubmitDo w.toNat)) ∧
  (∀ (s : State) (r : EvRec) (rest : List EvRec), s.evr.queue = r :: rest → s.efl.brownout = false →
    let x : EvRec := { r with lost := r.lost || s.evr.lostPending }
    ∀ t, State.recWrite { s with evr := { s.evr with queue := rest, lostPending := false } } x = some t →
      exec .evrRecordWrite s = .next (t.lostNote.recDeliver s.evrNextRn x)) ∧
  (∀ (s : State) (n : Fin 4) (q : EvQueue) (x : Qp), s.evq.get? n = some q → q.gathered ≠ [] → s.qp? q.qpn = some x →
    x.state = .established →
    let now := q.gathered.take 127
    let recs := s.evr.recs.filter fun e => now.contains e.1
    exec (.eventNotice n) s = .next (State.noticeSend
      { s with evq := s.evq.set n { q with gathered := q.gathered.drop 127 } }
        q.qpn 0x0080 ([maxOf now + 1, recs.length] ++ recs.flatMap fun e => recWords e.2)))

/-- PWR_OK rising from OFF begins power-up; a visit to a qualified good rail only notes the reading; a ramping rail that is
not qualified in time fails; UP starts group 1; a group whose turn it is is enabled; a retry drives the rail again; a stable
rail's retries are forgotten; input loss triggers a save; a rail that did not discharge is logged and the sequence goes on;
after HOLD the chip cold-resets and powers up. RESET_N of 1 us starts a warm reset, whose drain ends in the reset. Quiet is
entered when its conditions hold, and woken. The PSB controller queues, ends, retries and resets. Errors of the mesh, the
engines and memory are counted under their class. -/
def Obligations.PowerResetQuietPsbAndErrors : Prop :=
  (∀ s : State, s.pws.pwrOk = false → s.pws.seq = .off → s.pws.restartPending = false → exec .pwrOkInRise s =
    .next (State.powerUp { s with pws := { s.pws with pwrOk := true, restarts := 0 } })) ∧
  (∀ (s : State) (n : Fin 32) (v : BitVec 12) (pg : Bool), s.railPresent n = true → s.railInput n = false →
    (s.rail n).state = .qualified → s.poweringDown = false → s.railGood n v.toNat pg = true →
    exec (.railVisit n v pg 0) s = .next (s.modRail n fun r => { r with reading := v.toNat, pg := pg })) ∧
  (∀ (s : State) (n : Fin 32), (s.rail n).state = .ramping → s.poweringDown = false → s.railInput n = false →
    exec (.qualTimeout n) s = .next (s.railFault n 5 1)) ∧
  (∀ (s : State) (n : Fin 32), (s.rail n).state = .retryWait → s.poweringDown = false → exec (.railRetryExpiry n) s = .next (((s.modRail n fun r =>
    { r with state := .ramping, good := 0, retries := r.retries + 1 }).railDrive n true).count (Reg.pwsCount + 4))) ∧
  (∀ (s : State) (n : Fin 32), (s.rail n).state = .qualified →
    exec (.retryCountReset n) s = .next (s.modRail n fun r => { r with retries := 0 })) ∧
  (∀ (s : State) (g : Fin 8), s.pws.seq = .powerUp → s.pws.groupDelay = true → s.pws.group = g.val →
    ((List.range g).all fun k => s.pws.complete.contains k) = true → exec (.groupDelayExpiry g) s = .next (s.enableGroup g)) ∧
  (∀ s : State, s.cmdReady Reg.pwsCtl → s.pws.seq = .powerUp → s.pws.group = 0 → s.pws.complete.contains 0 = true →
    exec (.pwsCtlUp .firmware) s = .next { s with pws := { s.pws with group := 1, groupDelay := true } }) ∧
  (∀ s : State, exec (.inputLoss false) s = .next s.inputLost ∧ (s.pws.pwrOk = true →
    exec (.inputLoss true) s = .next (State.inputLost { s with pws := { s.pws with pwrOk := false } }))) ∧
  (∀ (s : State) (n : Fin 32), (s.rail n).state = .discharging → exec (.dischargeTimeout n) s =
    .next (((((s.modRail n fun r => { r with state := .timedOut }).railLog 3 n 6).count (Reg.pwsCount + 0xC)).flagRecord
      Reg.pwsEvent 4 0x1303 n 0).downCheck)) ∧
  (∀ s : State, s.pws.seq = .hold → s.pws.pwrOk = true → s.pws.down = .other →
    exec .restartHoldExpiry s = .next s.coldReset.powerUp) ∧
  (∀ (s : State) (a : Fin 4), exec (.aonReset a) s =
    .next { s.coldReset with pws := { log := s.pws.log }, twb := { strap := a } }) ∧
  (∀ (s : State) (ns : Nat), 1000 ≤ ns → s.resetIgnored = false → s.isl.quiet = .awake → exec (.resetNAssert ns) s =
    .next { s with noAdmit := true, isl := { s.isl with warm := 1, warmFw := false } }) ∧
  (∀ s : State, s.isl.warm ≠ 0 →
    (s.handing = false → s.mediaRuns = false → s.isl.quiet = .awake → exec .warmResetDrainEnd s = .next s.warmReset) ∧
    let t := (s.record (Config.firmwareDefined 0x32 % 2 ^ 16) 0 0 0).loseDirtyLines
    exec .warmResetOverrun s = .next (State.warmReset { t with twn := { t.twn with fullResync := true } })) ∧
  (∀ s : State, s.cmdReady Reg.islQuietCmd →
    (s.bit Reg.islCtl 0 = true → s.quietOk = true →
      exec (.quietEnter .firmware) s = .next { s with isl := { s.isl with quiet := .entering } }) ∧
    (s.quietOk = false → exec (.quietEnter .firmware) s = .next (s.flag Reg.islEvent 2))) ∧
  (∀ s : State, s.isl.quiet = .quiet → s.gated (islandOf Reg.islQuietCmd) = false → s.regs.get? Reg.islQuietCmd = none →
    exec (.quietWake .firmware) s = .next (s.wakeFor .wake)) ∧
  (∀ (s : State) (c : WakeCause), s.isl.quiet = .quiet → Yields (.wakeTrigger c) s fun t => t.isl.quiet = .waking ∧
    t.mem = s.mem) ∧
  (∀ (s : State) (us : Nat), s.isl.quiet = .waking → us ≤ 500 → s.isl.gated = [] → exec (.wakeComplete us) s =
    .next (State.settle (State.signWaiting (State.setReg { s with isl := { s.isl with quiet := .awake } }
      Reg.islWakeTime (w32 us))))) ∧
  (∀ (s : State) (v : Word), s.cmdReady Reg.twbPsbCmd → s.twb.psb = .none → s.twb.fwWait = false → Word.bit v 31 = true →
    exec (.psbGo .firmware v) s =
      .next (State.psbNext { s.setReg Reg.twbPsbCmd v with twb := { s.twb with fwWait := true } })) ∧
  (∀ s : State, s.twb.psb = .firmware → ∀ d, exec (.psbTransactionDone (.ok d) false) s =
    .next ((State.psbFirmware { s with twb := { s.twb with psb := .none } } (.ok d)).psbNext)) ∧
  (∀ s : State, s.twb.psb = .firmware → s.twb.tries < s.psbRetries →
    let t := (s.countBy (Reg.twbPsbCount + 4) 1).flag Reg.twbPsbEvent 2
    exec (.psbClkLowTimeout .high) s = .next (State.psbDrive { t with twb := { t.twb with tries := s.twb.tries + 1 } })) ∧
  (∀ (s : State) (p : Fin 4), s.twb.stuck.contains p.val = true → exec (.psbSdaStuckRetry p true) s = .next ((State.count
    { s with twb := { s.twb with stuck := s.twb.stuck.filter (· != p.val) } } (Reg.twbPsbCount + 8)).psbNext)) ∧
  (∀ s : State, s.cmdReady Reg.twbCtl → s.twb.elgWait = [] → s.twb.fwWait = false →
    (s.twb.psb = .none ∨ s.twb.psb = .firmware → Yields (.psbReset .firmware 0 0) s fun t =>
      t.twb.psb = .none ∧ t.twb.elgWait = [] ∧ t.twb.fwWait = false ∧ t.twb.stuck = [] ∧ t.mem = s.mem)) ∧
  (∀ (s : State) (link n : Nat) (m : MeshSource), 1 ≤ n → n ≤ 3 →
    let u := (s.countBy Reg.glbMeshReplay 3).err1 0 .retried
    (∀ l, exec (.meshParityError link n true l) s = .next ((s.countBy Reg.glbMeshReplay n).err1 0 .retried)) ∧
    exec (.meshParityError link n false none) s = .next u ∧
    (∀ tile line, m = .line tile line → exec (.meshParityError link n false (some m)) s =
      .next ((u.badRead tile (lineSectors tile line 15) false).settle)) ∧
    (∀ tile slice, m = .slice tile slice → exec (.meshParityError link n false (some m)) s =
      .next ((u.sliceBad tile slice).settle))) ∧
  (∀ (s : State) (link : Nat), s.err.meshDown.contains link = false → exec (.meshLinkDegraded link) s = .next ((State.flag
    { s with err := { s.err with meshDown := s.err.meshDown ++ [link] } } Reg.glbErrEvent 2).err1 0 .degraded)) ∧
  (∀ (s : State) (e : Fin 28), exec (.engineIstoreParity e false) s = .next ((State.err1 { s with err := { s.err with
      halted := insertNew s.err.halted e } } 0 .retried).emit (.engineReload e)) ∧
    exec (.engineReloadDone e) s = .next { s with err := { s.err with halted := s.err.halted.filter (· != e.val) } }) ∧
  (∀ (s : State) (r : Fin 4096), let t := s.flag Reg.glbErrEvent 3
    (t.paired = false → exec (.sramDescriptorError (.descriptor r)) s = .next (((t.err1 0 .contained).regionState r
      .offline).notePhase.settle)) ∧
    (t.paired = true → exec (.sramDescriptorError (.descriptor r)) s = .next ((State.err1 { t with err := { t.err with
      descFetch := insertNew t.err.descFetch r } } 0 .retried).post (.control [.fetch r])))) ∧
  (∀ (s : State) (b : Fin 22), exec (.sramDescriptorError (.corrected b)) s = .next (s.err1 b .corrected) ∧
    exec (.sramDescriptorError .keyCache) s = .next (s.err1 14 .retried) ∧
    (∀ line l, s.plc.tmc.get? line = some l → l.dirty = false → exec (.sramDescriptorError (.mapLine line)) s =
      .next (State.err1 { s with plc := { s.plc with tmc := s.plc.tmc.erase line } } 8 .retried)) ∧
    (∀ qpn q, s.qp? qpn = some q → exec (.sramDescriptorError (.qpContext qpn)) s =
      .next ((s.qpEnter qpn .error).err1 6 .contained).settle)) ∧
  (∀ s : State, exec .ccMemUncorrectable s = .next (((s.flag Reg.glbErrEvent 4).err1 0 .fatal).warmStart false) ∧
    exec .errorRateWindow s =
      .next { s with err := { s.err with winCorr := 0, winRepair := 0, corrSet := false, repairSet := false } })

/-- A BAR2 read that the aperture serves, ACTIVE and not draining, and that region 0 admits, is submitted as a read of
region 0; while it is not ACTIVE it returns all-ones. A write is staged into the open batch, and dropped with OTHER_OWNER
while it is not ACTIVE. The oldest staged write is submitted, or refused with its batch failed. LAP_COMMIT closes the batch
and waits; the oldest waiting read returns the token, or all-ones with COMMIT_FAIL. DRAIN_REQ is set and cleared, and
LAP_BASE takes a write only while drained. -/
def Obligations.LegacyAperture : Prop :=
  (∀ (s : State) (ld : Fin 32) (tag off : Nat), s.bar2Up ld = true → s.lapServes ld = true → off % 8 = 0 → s.isl.quiet = .awake →
    (∀ segs, s.lapDraining = false → s.lapActive = true → s.xlate ld 0 (s.lapOff off) 8 .read = .ok segs →
      exec (.bar2Read ld tag off 8) s = .next (s.submit { src := .lap ld 0 tag, op := .read, host := ld, region := 0
                                                          off := s.lapOff off, len := 8, segs := segs }).1) ∧
    (s.lapActive = false → exec (.bar2Read ld tag off 8) s = .next (s.emit (.bar2Data ld tag
      [0xFF, 0xFF, 0xFF, 0xFF, 0xFF, 0xFF, 0xFF, 0xFF] false)))) ∧
  (∀ (s : State) (ld : Fin 32) (off : Nat) (data : List Byte), s.bar2Up ld = true → s.lapServes ld = true →
    off % 8 = 0 → s.lapDraining = false → s.isl.quiet = .awake →
    (s.lapActive = true → s.lap.staged.length < 4096 → s.lapStopped = false →
      let w : LapWr := { ld := ld, host := ld, off := s.lapOff off, data := sliceBytes data 0 8, batch := s.lap.batch }
      exec (.bar2Write ld off 8 data) s =
        .next { s with lap := { s.lap with staged := s.lap.staged ++ [w], openUsed := true } }) ∧
    (s.lapActive = false →
      exec (.bar2Write ld off 8 data) s = .next ((s.count (Reg.lapCount + 4)).flag Reg.lapEvent 1))) ∧
  (∀ (s : State) (w : LapWr) (rest : List LapWr), s.lap.staged = w :: rest →
    let t : State := { s with lap := { s.lap with staged := rest } }
    (∀ segs, t.xlate w.host 0 w.off 8 .write = .ok segs → t.cbHit 0 w.off 8 = false → exec .lapStagedApply s =
      .next (t.submit { src := .lap w.ld w.batch 0, op := .write, host := w.host, region := 0, off := w.off, len := 8
                        segs := segs, data := w.data }).1) ∧
    (∀ e, t.xlate w.host 0 w.off 8 .write = .error e → exec .lapStagedApply s = .next (t.lapRefuse w e))) ∧
  (∀ (s : State) (p : RegPath), goodAccess Reg.lapCommit 4 = true → s.reaches p Reg.lapCommit = true →
    s.isl.quiet = .awake → exec (.lapCommitRead p) s = .next (s.lapCommitDo (pathKey p))) ∧
  (∀ s : State, s.lapActive = true → s.lap.openUsed = true → ∀ k, (s.lapCommitDo k).lap.closed = s.lap.closed ++ [s.lap.batch] ∧
    (s.lapCommitDo k).lap.reads = s.lap.reads ++ [k] ∧ (s.lapCommitDo k).lap.lastToken = s.lap.token) ∧
  (∀ (s : State) (k : Nat) (rest : List Nat), s.lap.reads = k :: rest → s.lapClosedDone = true → s.lap.failed = [] →
    exec .lapCommitReturn s = .next ((State.count { s with lap := { s.lap with reads := rest, closed := [] } }
      (Reg.lapCount + 8)).emit (.regRead k Reg.lapCommit (w32 s.lap.lastToken) none))) ∧
  (∀ (s : State), s.isl.quiet = .awake → s.gated (islandOf Reg.lapCtl) = false → s.absent Reg.lapCtl = false →
    Yields (.lapDrainReq .firmware) s (fun t => t.bit Reg.lapCtl 1 = true ∧ t.mem = s.mem ∧ t.lap = s.lap) ∧
    Yields (.lapDrainClear .firmware) s (fun t => t.bit Reg.lapCtl 1 = false ∧ t.mem = s.mem ∧ t.lap = s.lap)) ∧
  (∀ (s : State) (w : Word) (d : RegDesc), s.serves .firmware Reg.lapBase d → exec (.lapBaseWrite .firmware w) s = .next (
    if s.lapDraining && s.lapDrained then s.setReg Reg.lapBase (w32 (w.toNat % 2 ^ 11))
    else (s.flag Reg.lapEvent 2).count Reg.lapCount))

/-- From every host path that reaches it, a write of 4 bytes or of a pair's 8 to an FW-marked register (one with no bit that a
host may write) of an island that runs leaves the register as it was, increments GLB_FW_WRITE_REJECT_COUNT, and logs the
event record 0x0001 with the host and the offset; memory is untouched. A read of a register is answered on every path that
reaches it, FW-marked or not. -/
def Obligations.FwMarkedRegistersRejectHosts : Prop :=
  (∀ (s : State) (p : RegPath) (off size v : Nat) (d : RegDesc), s.serves p off d → goodAccess off size = true →
    pathFw p = false → fwOwned d off = true →
    exec (.registerWrite p off size v) s = .next ((s.count Reg.glbFwReject).record 0x0001 (pathHost p) 0 off)) ∧
  (∀ (s : State) (p : RegPath) (off : Nat) (v : Word) (d : RegDesc), s.serves p off d → goodAccess off 4 = true →
    pathFw p = false → fwOwned d off = true → off ≠ Reg.glbFwReject → off ≠ Reg.evrDrop →
    Yields (.registerHiWrite p off v) s fun t => t.reg off = s.reg off ∧ t.mem = s.mem) ∧
  (∀ (s : State) (p : RegPath) (off : Nat) (d : RegDesc), s.serves p off d → goodAccess off 4 = true →
    off ≠ Reg.lapCommit → (∀ ld, p = .bar0 ld → off ≠ Reg.mbxPbarrier + 0x2000 * ld.val) →
    exec (.registerLoRead p off) s = .next (((s.readReg (pathKey p) off d).1).emit
      (.regRead (pathKey p) off (s.readReg (pathKey p) off d).2 none)))
end

