-- ==== Sys2Proof/Laws/Memory.lean ====
section
/-! SUPPORT. Laws of memory: a read after a write, and that every memory operation keeps the canonical form. -/

namespace Sys2Proof.Machine

theorem memAbove_mono {m : List Host.Cell} {a b : Nat} (hb : b ≤ a) (h : memAbove a m = true) : memAbove b m = true := by
  cases m with
  | nil => rfl
  | cons x t => simp only [memAbove, Bool.and_eq_true, decide_eq_true_eq] at h ⊢; exact ⟨⟨by omega, h.1.2⟩, h.2⟩

theorem memPut_above {m : List Host.Cell} {b a : Nat} {v : Byte} (hb : b ≤ a) (h : memAbove b m = true) :
    memAbove b (memPut m a v) = true := by
  induction m generalizing b with
  | nil =>
    unfold memPut
    split
    · rfl
    · simp_all [memAbove]
  | cons x t ih =>
    obtain ⟨k, w⟩ := x
    simp only [memAbove, Bool.and_eq_true, decide_eq_true_eq] at h
    unfold memPut
    split
    · split
      · simp only [memAbove, Bool.and_eq_true, decide_eq_true_eq]; exact h
      · rename_i hak hv
        simp only [memAbove, Bool.and_eq_true, decide_eq_true_eq]
        exact ⟨⟨hb, hv⟩, ⟨by omega, h.1.2⟩, h.2⟩
    · split
      · rename_i hak
        split
        · exact memAbove_mono (by omega) h.2
        · rename_i hv
          simp only [memAbove, Bool.and_eq_true, decide_eq_true_eq]
          exact ⟨⟨hb, hv⟩, hak ▸ h.2⟩
      · simp only [memAbove, Bool.and_eq_true, decide_eq_true_eq]
        exact ⟨h.1, ih (by omega) h.2⟩

/-- Writing a byte keeps the canonical form. -/
theorem memPut_wf {m : List Host.Cell} {a : Nat} {v : Byte} (h : memWf m = true) : memWf (memPut m a v) = true :=
  memPut_above (Nat.zero_le a) h

/-- Writing bytes keeps the canonical form. -/
theorem memPutBytes_wf {bs : List Byte} {m : List Host.Cell} {a : Nat} (h : memWf m = true) :
    memWf (memPutBytes m a bs) = true := by
  induction bs generalizing m a with
  | nil => exact h
  | cons b t ih => exact ih (memPut_wf h)

theorem memAbove_filter {m : List Host.Cell} {b : Nat} {q : Host.Cell → Bool} (h : memAbove b m = true) :
    memAbove b (m.filter q) = true := by
  induction m generalizing b with
  | nil => rfl
  | cons x t ih =>
    obtain ⟨k, w⟩ := x
    simp only [memAbove, Bool.and_eq_true, decide_eq_true_eq] at h
    by_cases hq : q (k, w) = true
    · rw [List.filter_cons_of_pos hq]
      simp only [memAbove, Bool.and_eq_true, decide_eq_true_eq]
      exact ⟨h.1, ih h.2⟩
    · rw [List.filter_cons_of_neg hq]
      exact memAbove_mono (by omega) (ih h.2)

/-- Dropping listed bytes keeps the canonical form. -/
theorem memWf_filter {m : List Host.Cell} {q : Host.Cell → Bool} (h : memWf m = true) : memWf (m.filter q) = true :=
  memAbove_filter h

theorem memGet_below {m : List Host.Cell} {b a : Nat} (h : memAbove b m = true) (ha : a < b) : memGet m a = memDefault := by
  induction m generalizing b with
  | nil => rfl
  | cons x t ih =>
    obtain ⟨k, w⟩ := x
    simp only [memAbove, Bool.and_eq_true, decide_eq_true_eq] at h
    unfold memGet
    rw [if_neg (by omega)]
    exact ih h.2 (by omega)

theorem memGet_memPut_above {m : List Host.Cell} {b a c : Nat} {v : Byte} (h : memAbove b m = true) :
    memGet (memPut m a v) c = if c = a then v else memGet m c := by
  induction m generalizing b with
  | nil =>
    unfold memPut
    split <;> simp_all [memGet]
  | cons x t ih =>
    obtain ⟨k, w⟩ := x
    simp only [memAbove, Bool.and_eq_true, decide_eq_true_eq] at h
    unfold memPut
    by_cases h1 : a < k
    · rw [if_pos h1]
      by_cases hv : v = memDefault
      · rw [if_pos hv]
        by_cases hc : c = a
        · rw [if_pos hc, hv]
          exact memGet_below (b := k) (m := (k, w) :: t) (by simp [memAbove, h.1.2, h.2]) (by omega)
        · rw [if_neg hc]
      · rw [if_neg hv]
        by_cases hc : c = a <;> simp [memGet, hc]
    · rw [if_neg h1]
      by_cases h2 : a = k
      · rw [if_pos h2]
        by_cases hv : v = memDefault
        · rw [if_pos hv]
          by_cases hc : c = a
          · rw [if_pos hc, hv]
            exact memGet_below h.2 (by omega)
          · rw [if_neg hc]
            simp [memGet, show c ≠ k by omega]
        · rw [if_neg hv]
          by_cases hc : c = a
          · simp [memGet, hc]
          · simp [memGet, hc, show c ≠ k by omega]
      · rw [if_neg h2]
        unfold memGet
        by_cases hk : c = k
        · rw [if_pos hk, if_pos hk, if_neg (by omega)]
        · rw [if_neg hk, if_neg hk]
          exact ih h.2

/-- A read after a write of one byte: the written address gives the byte written, every other address what it gave
before. -/
theorem memGet_memPut {m : List Host.Cell} {a c : Nat} {v : Byte} (h : memWf m = true) :
    memGet (memPut m a v) c = if c = a then v else memGet m c := memGet_memPut_above h

/-- Bytes outside a written range read as before. -/
theorem memGet_memPutBytes_outside {bs : List Byte} {m : List Host.Cell} {a c : Nat} (h : memWf m = true)
    (hc : c < a ∨ a + bs.length ≤ c) : memGet (memPutBytes m a bs) c = memGet m c := by
  induction bs generalizing m a with
  | nil => rfl
  | cons b t ih =>
    simp only [List.length_cons] at hc
    rw [memPutBytes, ih (memPut_wf h) (by omega), memGet_memPut h, if_neg (by omega)]

/-- Bytes of a written range read as written. -/
theorem memGet_memPutBytes_inside {bs : List Byte} {m : List Host.Cell} {a i : Nat} (h : memWf m = true) (hi : i < bs.length) :
    memGet (memPutBytes m a bs) (a + i) = bs.getD i 0 := by
  induction bs generalizing m a i with
  | nil => simp at hi
  | cons b t ih =>
    rw [memPutBytes]
    cases i with
    | zero =>
      rw [memGet_memPutBytes_outside (memPut_wf h) (by omega), memGet_memPut h]
      simp
    | succ j =>
      have hj : j < t.length := by simpa using hi
      have := ih (m := memPut m a b) (a := a + 1) (memPut_wf h) hj
      rw [show a + (j + 1) = a + 1 + j by omega, this]
      simp

end Sys2Proof.Machine
end

