-- ==== Sys2Proof/Laws/Keeps.lean ====
section
/-! SUPPORT. What every operation of the machine keeps: memory's canonical form, here and in save images, and the queue of
commands. The files Laws/Keeps*.lean prove it operation by operation. -/

namespace Sys2Proof.Machine

/-- Memory is sound and the queue is `pq`. -/
def Ok (pq : List Instr) (s : State) : Prop := memWf s.mem = true ∧ slotsOk s.elg.slots = true ∧ s.pending = pq

/-- An answer that, where it is a next state, is `Ok`. -/
def OutOk (pq : List Instr) : Out → Prop
  | .next t => Ok pq t
  | _ => True

variable {pq : List Instr} {s t : State}

/-- A state whose memory, images and queue are another's. -/
theorem ok_of (h : Ok pq s) (hm : t.mem = s.mem) (hs : t.elg.slots = s.elg.slots) (hp : t.pending = s.pending) : Ok pq t := by
  obtain ⟨a, b, c⟩ := h
  exact ⟨hm ▸ a, hs ▸ b, hp ▸ c⟩

/-- What `Ok` says, of the three fields that it reads. -/
def Ok3 (pq : List Instr) (m : List Host.Cell) (l : Tbl SaveRec) (q : List Instr) : Prop :=
  memWf m = true ∧ slotsOk l = true ∧ q = pq

theorem ok_mk {q out' time' fresh' regs' paths' m sectors' exposed' regions' rgt' extents' extentGens' mkeys' mkeyGens'
    leases' poisonList' poisonOverflow' tiles' frames' moves' plc' hlc' reqs' reqSeq' ended' noAdmit'
    admitted' links' lds' ports' advert' rdx' pools' sqs' cqs' cmds' cmdSeq' progress' sqWait' chans' health' fmc' e twn'
    mbx' jwait' fw' sec' efl' evr' evq' pws' isl' twb' err' lap'} :
    Ok pq (State.mk q out' time' fresh' regs' paths' m sectors' exposed' regions' rgt' extents' extentGens' mkeys' mkeyGens'
      leases' poisonList' poisonOverflow' tiles' frames' moves' plc' hlc' reqs' reqSeq' ended' noAdmit'
      admitted' links' lds' ports' advert' rdx' pools' sqs' cqs' cmds' cmdSeq' progress' sqWait' chans' health' fmc' e
      twn' mbx' jwait' fw' sec' efl' evr' evq' pws' isl' twb' err' lap') = Ok3 pq m e.slots q := rfl

theorem ok3_eq : Ok3 pq s.mem s.elg.slots s.pending = Ok pq s := rfl

theorem ok_ite {c : Prop} [Decidable c] {a b : State} (ha : Ok pq a) (hb : Ok pq b) : Ok pq (if c then a else b) := by
  split <;> assumption

theorem ok_cond {c : Bool} {a b : State} (ha : Ok pq a) (hb : Ok pq b) : Ok pq (bif c then a else b) := by
  cases c <;> assumption

theorem ok_ite_fst {α : Type} {c : Prop} [Decidable c] {a b : State × α} (ha : Ok pq a.1) (hb : Ok pq b.1) :
    Ok pq (if c then a else b).1 := by
  split <;> assumption

theorem ok_foldl {α : Type} {f : State → α → State} {l : List α} (hf : ∀ t x, Ok pq t → Ok pq (f t x)) (h : Ok pq s) :
    Ok pq (l.foldl f s) := by
  induction l generalizing s with
  | nil => exact h
  | cons x l ih => exact ih (hf s x h)

theorem ok_foldl_fst {α β : Type} {f : State × β → α → State × β} {l : List α} {a : State × β}
    (hf : ∀ t x, Ok pq t.1 → Ok pq (f t x).1) (h : Ok pq a.1) : Ok pq (l.foldl f a).1 := by
  induction l generalizing a with
  | nil => exact h
  | cons x l ih => exact ih (hf a x h)

theorem outOk_next (h : Ok pq s) : OutOk pq (.next s) := h

theorem outOk_ite {c : Prop} [Decidable c] {a b : Out} (ha : OutOk pq a) (hb : OutOk pq b) : OutOk pq (if c then a else b) := by
  split <;> assumption

end Sys2Proof.Machine
end

