-- ==== Sys2Proof/Laws/KeepsOps.lean ====
section
/-! SUPPORT. The operations of Machine/Ops.lean keep memory sound and leave the queue alone. -/

namespace Sys2Proof.Machine

set_option linter.unusedVariables false
set_option linter.unusedTactic false
set_option linter.unreachableTactic false

variable {pq : List Instr}

theorem State.setReg_ok {s : State} {off : Nat} {w : Word} (hok : Ok pq s) :
    Ok pq (State.setReg s off w) := by
  unfold State.setReg
  try dsimp only
  repeat' (first
    | with_reducible assumption | with_reducible apply ok_ite | with_reducible apply ok_ite_fst
    | (simp only [ok_mk, ok3_eq]) | (intro _ _ _) | (intro _ _) | split | (dsimp only))

theorem State.setFld_ok {s : State} {off : Nat} {hi : Nat} {lo : Nat} {v : Nat} (hok : Ok pq s) :
    Ok pq (State.setFld s off hi lo v) := by
  unfold State.setFld
  try dsimp only
  repeat' (first
    | with_reducible assumption | with_reducible apply State.setReg_ok | (simp only [ok_mk, ok3_eq]) | (intro _ _ _)
    | (intro _ _) | split | (dsimp only))

theorem State.setBit_ok {s : State} {off : Nat} {i : Nat} {b : Bool} (hok : Ok pq s) :
    Ok pq (State.setBit s off i b) := by
  unfold State.setBit
  try dsimp only
  repeat' (first
    | with_reducible assumption | with_reducible apply State.setFld_ok | (simp only [ok_mk, ok3_eq]) | (intro _ _ _)
    | (intro _ _) | split | (dsimp only))

theorem State.addSat_ok {s : State} {off : Nat} {hi : Nat} {lo : Nat} {n : Nat} (hok : Ok pq s) :
    Ok pq (State.addSat s off hi lo n) := by
  unfold State.addSat
  try dsimp only
  repeat' (first
    | with_reducible assumption | with_reducible apply State.setFld_ok | (simp only [ok_mk, ok3_eq]) | (intro _ _ _)
    | (intro _ _) | split | (dsimp only))

theorem State.countBy_ok {s : State} {off : Nat} {n : Nat} (hok : Ok pq s) :
    Ok pq (State.countBy s off n) := by
  unfold State.countBy
  try dsimp only
  repeat' (first
    | with_reducible assumption | with_reducible apply State.addSat_ok | (simp only [ok_mk, ok3_eq]) | (intro _ _ _)
    | (intro _ _) | split | (dsimp only))

theorem State.count_ok {s : State} {off : Nat} (hok : Ok pq s) :
    Ok pq (State.count s off) := by
  unfold State.count
  try dsimp only
  repeat' (first
    | with_reducible assumption | with_reducible apply State.countBy_ok | (simp only [ok_mk, ok3_eq]) | (intro _ _ _)
    | (intro _ _) | split | (dsimp only))

theorem State.setReg64_ok {s : State} {lo : Nat} {v : Nat} (hok : Ok pq s) :
    Ok pq (State.setReg64 s lo v) := by
  unfold State.setReg64
  try dsimp only
  repeat' (first
    | with_reducible assumption | with_reducible apply State.setReg_ok | (simp only [ok_mk, ok3_eq]) | (intro _ _ _)
    | (intro _ _) | split | (dsimp only))

theorem State.emit_ok {s : State} {o : Output} (hok : Ok pq s) :
    Ok pq (State.emit s o) := by
  unfold State.emit
  try dsimp only
  repeat' (first
    | with_reducible assumption | (simp only [ok_mk, ok3_eq]) | (intro _ _ _) | (intro _ _) | split | (dsimp only))

theorem State.draw_ok {s : State} (hok : Ok pq s) :
    Ok pq (State.draw s).1 := by
  unfold State.draw
  try dsimp only
  repeat' (first
    | with_reducible assumption | (simp only [ok_mk, ok3_eq]) | (intro _ _ _) | (intro _ _) | split | (dsimp only))

theorem State.draw_ok_of {s : State} {t : State} {x : Nat} (e : State.draw s = (t, x)) (hok : Ok pq s) :
    Ok pq t := by
  rw [show t = (State.draw s).1 by rw [e]]
  exact State.draw_ok hok

theorem State.setPath_ok {s : State} {k : Nat} {f : PathSt → PathSt} (hok : Ok pq s) :
    Ok pq (State.setPath s k f) := by
  unfold State.setPath
  try dsimp only
  repeat' (first
    | with_reducible assumption | (simp only [ok_mk, ok3_eq]) | (intro _ _ _) | (intro _ _) | split | (dsimp only))

theorem State.setOwn_ok {s : State} {k : Nat} {off : Nat} {w : Word} (hok : Ok pq s) :
    Ok pq (State.setOwn s k off w) := by
  unfold State.setOwn
  try dsimp only
  repeat' (first
    | with_reducible assumption | with_reducible apply State.setPath_ok | (simp only [ok_mk, ok3_eq]) | (intro _ _ _)
    | (intro _ _) | split | (dsimp only))

theorem State.setSector_ok {s : State} {n : Nat} {i : SectorInfo} (hok : Ok pq s) :
    Ok pq (State.setSector s n i) := by
  unfold State.setSector
  try dsimp only
  repeat' (first
    | with_reducible assumption | with_reducible apply ok_ite | with_reducible apply ok_ite_fst
    | (simp only [ok_mk, ok3_eq]) | (intro _ _ _) | (intro _ _) | split | (dsimp only))

theorem State.applyBytes_ok {s : State} {psa pseq : Nat} {data : List Byte} {poison : Bool} (hok : Ok pq s) :
    Ok pq (State.applyBytes s psa pseq data poison) := by
  unfold State.applyBytes
  exact ok_foldl (fun _ _ ht => State.setSector_ok ht) ⟨memPutBytes_wf hok.1, hok.2.1, hok.2.2⟩

theorem State.clearTile_ok {s : State} {tile : Nat} (hok : Ok pq s) : Ok pq (State.clearTile s tile) :=
  ⟨memWf_filter hok.1, hok.2.1, hok.2.2⟩

end Sys2Proof.Machine
end

