-- ==== Sys2Proof/Laws/KeepsFlags.lean ====
section
/-! SUPPORT. The operations of Machine/Flags.lean keep memory sound and leave the queue alone. -/

namespace Sys2Proof.Machine

set_option linter.unusedVariables false
set_option linter.unusedTactic false
set_option linter.unreachableTactic false

variable {pq : List Instr}

theorem State.flag_ok {s : State} {off : Nat} {i : Nat} (hok : Ok pq s) :
    Ok pq (State.flag s off i) := by
  unfold State.flag
  try dsimp only
  repeat' (first
    | with_reducible assumption | with_reducible apply State.setBit_ok | (simp only [ok_mk, ok3_eq]) | (intro _ _ _)
    | (intro _ _) | split | (dsimp only))

theorem State.evrPush_ok {s : State} {r : EvRec} (hok : Ok pq s) :
    Ok pq (State.evrPush s r) := by
  unfold State.evrPush
  try dsimp only
  repeat' (first
    | with_reducible assumption | with_reducible apply ok_ite | with_reducible apply ok_ite_fst
    | with_reducible apply State.count_ok | (simp only [ok_mk, ok3_eq]) | (intro _ _ _) | (intro _ _) | split
    | (dsimp only))

theorem State.recordF_ok {s : State} {code : Nat} {p0 : Nat} {p1 : Nat} {p23 : Nat} {f : EvFlags} (hok : Ok pq s) :
    Ok pq (State.recordF s code p0 p1 p23 f) := by
  unfold State.recordF
  try dsimp only
  repeat' (first
    | with_reducible assumption | with_reducible apply State.evrPush_ok | (simp only [ok_mk, ok3_eq]) | (intro _ _ _)
    | (intro _ _) | split | (dsimp only))

theorem State.record_ok {s : State} {code : Nat} {p0 : Nat} {p1 : Nat} {p23 : Nat} (hok : Ok pq s) :
    Ok pq (State.record s code p0 p1 p23) := by
  unfold State.record
  try dsimp only
  repeat' (first
    | with_reducible assumption | with_reducible apply State.recordF_ok | (simp only [ok_mk, ok3_eq]) | (intro _ _ _)
    | (intro _ _) | split | (dsimp only))

theorem State.flagRecord_ok {s : State} {off : Nat} {i : Nat} {code : Nat} {p0 : Nat} {p23 : Nat} (hok : Ok pq s) :
    Ok pq (State.flagRecord s off i code p0 p23) := by
  unfold State.flagRecord
  try dsimp only
  repeat' (first
    | with_reducible assumption | with_reducible apply State.flag_ok | with_reducible apply State.record_ok
    | (simp only [ok_mk, ok3_eq]) | (intro _ _ _) | (intro _ _) | split | (dsimp only))

theorem State.rateCorr_ok {s : State} (hok : Ok pq s) :
    Ok pq (State.rateCorr s) := by
  unfold State.rateCorr
  try dsimp only
  repeat' (first
    | with_reducible assumption | with_reducible apply ok_ite | with_reducible apply ok_ite_fst
    | with_reducible apply State.flag_ok | (simp only [ok_mk, ok3_eq]) | (intro _ _ _) | (intro _ _) | split
    | (dsimp only))

theorem State.rateRepair_ok {s : State} (hok : Ok pq s) :
    Ok pq (State.rateRepair s) := by
  unfold State.rateRepair
  try dsimp only
  repeat' (first
    | with_reducible assumption | with_reducible apply ok_ite | with_reducible apply ok_ite_fst
    | with_reducible apply State.flag_ok | (simp only [ok_mk, ok3_eq]) | (intro _ _ _) | (intro _ _) | split
    | (dsimp only))

theorem State.rateOf_ok {s : State} {c : ErrClass} (hok : Ok pq s) : Ok pq (State.rateOf s c) := by
  cases c <;> simp only [State.rateOf] <;>
    repeat' (first | assumption | split | apply State.rateCorr_ok | apply State.rateRepair_ok)

theorem State.err1_ok {s : State} {block : Nat} {c : ErrClass} (hok : Ok pq s) :
    Ok pq (State.err1 s block c) := by
  unfold State.err1
  try dsimp only
  repeat' (first
    | with_reducible assumption | with_reducible apply State.setFld_ok | with_reducible apply State.count_ok
    | with_reducible apply State.rateOf_ok | (simp only [ok_mk, ok3_eq]) | (intro _ _ _) | (intro _ _) | split
    | (dsimp only))

end Sys2Proof.Machine
end

