-- ==== Sys2Proof/Laws/KeepsEflArea.lean ====
section
/-! SUPPORT. The operations of Machine/EflArea.lean keep memory sound and leave the queue alone. -/

namespace Sys2Proof.Machine

set_option linter.unusedVariables false
set_option linter.unusedTactic false
set_option linter.unreachableTactic false

variable {pq : List Instr}

theorem State.modBlock_ok {s : State} {b : Nat} {f : EflBlock → EflBlock} (hok : Ok pq s) :
    Ok pq (State.modBlock s b f) := by
  unfold State.modBlock
  try dsimp only
  repeat' (first
    | with_reducible assumption | (simp only [ok_mk, ok3_eq]) | (intro _ _ _) | (intro _ _) | split | (dsimp only))

theorem State.eflPut_ok {s : State} {addr : Nat} {data : Nat} (hok : Ok pq s) :
    Ok pq (State.eflPut s addr data) := by
  unfold State.eflPut
  try dsimp only
  repeat' (first
    | with_reducible assumption | (simp only [ok_mk, ok3_eq]) | (intro _ _ _) | (intro _ _) | split | (dsimp only))

theorem State.eflPuts_ok {s : State} {addr : Nat} {l : List (Nat × Nat)} (hok : Ok pq s) :
    Ok pq (State.eflPuts s addr l) := by
  unfold State.eflPuts
  try dsimp only
  repeat' (first
    | with_reducible assumption | with_reducible apply ok_foldl | with_reducible apply ok_foldl_fst
    | with_reducible apply State.eflPut_ok | (simp only [ok_mk, ok3_eq]) | (intro _ _ _) | (intro _ _) | split
    | (dsimp only))

theorem State.eraseState_ok {s : State} {st : EflState} (hok : Ok pq s) :
    Ok pq (State.eraseState s st) := by
  unfold State.eraseState
  try dsimp only
  repeat' (first
    | with_reducible assumption | with_reducible apply State.modBlock_ok | (simp only [ok_mk, ok3_eq]) | (intro _ _ _)
    | (intro _ _) | split | (dsimp only))

theorem State.autoSuspend_ok {s : State} (hok : Ok pq s) :
    Ok pq (State.autoSuspend s) := by
  unfold State.autoSuspend
  try dsimp only
  repeat' (first
    | with_reducible assumption | with_reducible apply ok_ite | with_reducible apply ok_ite_fst
    | with_reducible apply State.eraseState_ok | (simp only [ok_mk, ok3_eq]) | (intro _ _ _) | (intro _ _) | split
    | (dsimp only))

theorem State.eraseStart_ok {s : State} {b : Nat} {by' : Nat} (hok : Ok pq s) :
    Ok pq (State.eraseStart s b by') := by
  unfold State.eraseStart
  try dsimp only
  repeat' (first
    | with_reducible assumption | with_reducible apply State.modBlock_ok | (simp only [ok_mk, ok3_eq]) | (intro _ _ _)
    | (intro _ _) | split | (dsimp only))

theorem State.eflKick_ok {s : State} (hok : Ok pq s) :
    Ok pq (State.eflKick s) := by
  unfold State.eflKick
  try dsimp only
  repeat' (first
    | with_reducible assumption | with_reducible apply ok_ite | with_reducible apply ok_ite_fst
    | with_reducible apply State.eraseStart_ok | (simp only [ok_mk, ok3_eq]) | (intro _ _ _) | (intro _ _) | split
    | (dsimp only))

theorem State.eraseAsk_ok {s : State} {by' : Nat} {bs : List Nat} (hok : Ok pq s) :
    Ok pq (State.eraseAsk s by' bs) := by
  unfold State.eraseAsk
  try dsimp only
  repeat' (first
    | with_reducible assumption | with_reducible apply State.eflKick_ok | (simp only [ok_mk, ok3_eq]) | (intro _ _ _)
    | (intro _ _) | split | (dsimp only))

theorem State.areaMove_ok {s : State} {a : Nat} {into : Bool} {gen : Nat} (hok : Ok pq s) :
    Ok pq (State.areaMove s a into gen) := by
  unfold State.areaMove
  try dsimp only
  repeat' (first
    | with_reducible assumption | with_reducible apply ok_foldl | with_reducible apply ok_foldl_fst
    | with_reducible apply State.eflPut_ok | with_reducible apply State.eflPuts_ok
    | with_reducible apply State.autoSuspend_ok | with_reducible apply State.eraseAsk_ok | (simp only [ok_mk, ok3_eq])
    | (intro _ _ _) | (intro _ _) | split | (dsimp only))

theorem State.areaShift_ok {s : State} {a : Nat} (hok : Ok pq s) :
    Ok pq (State.areaShift s a).1 := by
  unfold State.areaShift
  try dsimp only
  repeat' (first
    | with_reducible assumption | with_reducible apply ok_ite | with_reducible apply ok_ite_fst
    | with_reducible apply State.eraseAsk_ok | with_reducible apply State.areaMove_ok | (simp only [ok_mk, ok3_eq])
    | (intro _ _ _) | (intro _ _) | split | (dsimp only))

theorem State.areaShift_ok_of {s : State} {a : Nat} {t : State} {x : Bool} (e : State.areaShift s a = (t, x)) (hok : Ok pq s) :
    Ok pq t := by
  rw [show t = (State.areaShift s a).1 by rw [e]]
  exact State.areaShift_ok hok

theorem State.pendPut_ok {s : State} {a : Nat} {at' : Option Nat} {l : List (Nat × Nat)} (hok : Ok pq s) :
    Ok pq (State.pendPut s a at' l) := by
  unfold State.pendPut
  try dsimp only
  repeat' (first
    | with_reducible assumption | (simp only [ok_mk, ok3_eq]) | (intro _ _ _) | (intro _ _) | split | (dsimp only))

theorem State.areaPut_ok {s : State} {a : Nat} {l : List (Nat × Nat)} (hok : Ok pq s) :
    Ok pq (State.areaPut s a l) := by
  unfold State.areaPut
  try dsimp only
  repeat' (first
    | with_reducible assumption | with_reducible apply ok_ite | with_reducible apply ok_ite_fst
    | with_reducible apply State.eflPuts_ok | with_reducible apply State.autoSuspend_ok
    | with_reducible apply State.areaShift_ok | (with_reducible refine State.areaShift_ok_of (by assumption) ?_)
    | with_reducible apply State.pendPut_ok | (simp only [ok_mk, ok3_eq]) | (intro _ _ _) | (intro _ _) | split
    | (dsimp only))

theorem State.areaAgain_ok {s : State} {a : Nat} {addr : Nat} {l : List (Nat × Nat)} (hok : Ok pq s) :
    Ok pq (State.areaAgain s a addr l) := by
  unfold State.areaAgain
  try dsimp only
  repeat' (first
    | with_reducible assumption | with_reducible apply ok_ite | with_reducible apply ok_ite_fst
    | with_reducible apply State.eflPuts_ok | with_reducible apply State.autoSuspend_ok
    | with_reducible apply State.pendPut_ok | (simp only [ok_mk, ok3_eq]) | (intro _ _ _) | (intro _ _) | split
    | (dsimp only))

theorem State.pendGo_ok {s : State} {a : Nat} (hok : Ok pq s) :
    Ok pq (State.pendGo s a) := by
  unfold State.pendGo
  try dsimp only
  repeat' (first
    | with_reducible assumption | with_reducible apply ok_ite | with_reducible apply ok_ite_fst
    | with_reducible apply ok_foldl | with_reducible apply ok_foldl_fst | with_reducible apply State.areaShift_ok
    | (with_reducible refine State.areaShift_ok_of (by assumption) ?_) | with_reducible apply State.areaPut_ok
    | with_reducible apply State.areaAgain_ok | (simp only [ok_mk, ok3_eq]) | (intro _ _ _) | (intro _ _) | split
    | (dsimp only))

theorem State.eflGo_ok {s : State} (hok : Ok pq s) :
    Ok pq (State.eflGo s) := by
  unfold State.eflGo
  try dsimp only
  repeat' (first
    | with_reducible assumption | with_reducible apply ok_ite | with_reducible apply ok_ite_fst
    | with_reducible apply ok_foldl | with_reducible apply ok_foldl_fst | with_reducible apply State.eflKick_ok
    | with_reducible apply State.pendGo_ok | (simp only [ok_mk, ok3_eq]) | (intro _ _ _) | (intro _ _) | split
    | (dsimp only))

theorem State.areaStart_ok {s : State} {a : Nat} (hok : Ok pq s) :
    Ok pq (State.areaStart s a) := by
  unfold State.areaStart
  try dsimp only
  repeat' (first
    | with_reducible assumption | with_reducible apply ok_ite | with_reducible apply ok_ite_fst
    | with_reducible apply ok_foldl | with_reducible apply ok_foldl_fst | with_reducible apply State.eraseAsk_ok
    | (simp only [ok_mk, ok3_eq]) | (intro _ _ _) | (intro _ _) | split | (dsimp only))

theorem State.recordPut_ok {s : State} {r : ApplRec} (hok : Ok pq s) :
    Ok pq (State.recordPut s r) := by
  unfold State.recordPut
  try dsimp only
  repeat' (first
    | with_reducible assumption | with_reducible apply State.record_ok | with_reducible apply State.areaPut_ok
    | (simp only [ok_mk, ok3_eq]) | (intro _ _ _) | (intro _ _) | split | (dsimp only))

theorem State.modHealth_ok {s : State} {f : Health → Health} (hok : Ok pq s) :
    Ok pq (State.modHealth s f) := by
  unfold State.modHealth
  try dsimp only
  repeat' (first
    | with_reducible assumption | with_reducible apply ok_ite | with_reducible apply ok_ite_fst
    | with_reducible apply State.areaPut_ok | (simp only [ok_mk, ok3_eq]) | (intro _ _ _) | (intro _ _) | split
    | (dsimp only))

theorem State.keyPut_ok {s : State} {id : Nat} {k : RgnKey} (hok : Ok pq s) :
    Ok pq (State.keyPut s id k) := by
  unfold State.keyPut
  try dsimp only
  repeat' (first
    | with_reducible assumption | with_reducible apply State.areaPut_ok | (simp only [ok_mk, ok3_eq]) | (intro _ _ _)
    | (intro _ _) | split | (dsimp only))

theorem State.keyRetire_ok {s : State} {id : Nat} {keep : Option Nat} (hok : Ok pq s) :
    Ok pq (State.keyRetire s id keep) := by
  unfold State.keyRetire
  try dsimp only
  repeat' (first
    | with_reducible assumption | with_reducible apply ok_foldl | with_reducible apply ok_foldl_fst
    | with_reducible apply State.areaAgain_ok | (simp only [ok_mk, ok3_eq]) | (intro _ _ _) | (intro _ _) | split
    | (dsimp only))

theorem State.railAppend_ok {s : State} {e : RailLog} {down : Bool} (hok : Ok pq s) :
    Ok pq (State.railAppend s e down) := by
  unfold State.railAppend
  try dsimp only
  repeat' (first
    | with_reducible assumption | with_reducible apply ok_ite | with_reducible apply ok_ite_fst
    | with_reducible apply State.areaShift_ok | (with_reducible refine State.areaShift_ok_of (by assumption) ?_)
    | with_reducible apply State.areaPut_ok | (simp only [ok_mk, ok3_eq]) | (intro _ _ _) | (intro _ _) | split
    | (dsimp only))

end Sys2Proof.Machine
end

