-- ==== Sys2Proof/Laws/KeepsOperands.lean ====
section
/-! SUPPORT. The operations of Machine/Operands.lean keep memory sound and leave the queue alone. -/

namespace Sys2Proof.Machine

set_option linter.unusedVariables false
set_option linter.unusedTactic false
set_option linter.unreachableTactic false

variable {pq : List Instr}

theorem State.modRegion_ok {s : State} {id : Nat} {f : Region → Region} (hok : Ok pq s) :
    Ok pq (State.modRegion s id f) := by
  unfold State.modRegion
  try dsimp only
  repeat' (first
    | with_reducible assumption | (simp only [ok_mk, ok3_eq]) | (intro _ _ _) | (intro _ _) | split | (dsimp only))

theorem State.refuse_ok {s : State} {path : Nat} {host : Nat} {st : XStep} {addr : Nat} (hok : Ok pq s) :
    Ok pq (State.refuse s path host st addr) := by
  unfold State.refuse
  try dsimp only
  repeat' (first
    | with_reducible assumption | with_reducible apply ok_ite | with_reducible apply ok_ite_fst
    | with_reducible apply State.setReg_ok | with_reducible apply State.count_ok
    | with_reducible apply State.setReg64_ok | with_reducible apply State.flag_ok | (simp only [ok_mk, ok3_eq])
    | (intro _ _ _) | (intro _ _) | split | (dsimp only))

theorem State.poisonAdd_ok {s : State} {sectors : List Nat} {source : Nat} (hok : Ok pq s) :
    Ok pq (State.poisonAdd s sectors source) := by
  unfold State.poisonAdd
  try dsimp only
  repeat' (first
    | with_reducible assumption | with_reducible apply ok_ite | with_reducible apply ok_ite_fst
    | with_reducible apply ok_foldl | with_reducible apply ok_foldl_fst | (simp only [ok_mk, ok3_eq]) | (intro _ _ _)
    | (intro _ _) | split | (dsimp only))

theorem State.poisonNew_ok {s : State} {sectors : List Nat} {source : Nat} (hok : Ok pq s) :
    Ok pq (State.poisonNew s sectors source) := by
  unfold State.poisonNew
  try dsimp only
  repeat' (first
    | with_reducible assumption | with_reducible apply ok_ite | with_reducible apply ok_ite_fst
    | with_reducible apply State.poisonAdd_ok | (simp only [ok_mk, ok3_eq]) | (intro _ _ _) | (intro _ _) | split
    | (dsimp only))

theorem State.poisonDel_ok {s : State} {sectors : List Nat} (hok : Ok pq s) :
    Ok pq (State.poisonDel s sectors) := by
  unfold State.poisonDel
  try dsimp only
  repeat' (first
    | with_reducible assumption | with_reducible apply ok_foldl | with_reducible apply ok_foldl_fst
    | (simp only [ok_mk, ok3_eq]) | (intro _ _ _) | (intro _ _) | split | (dsimp only))

end Sys2Proof.Machine
end

