-- ==== Sys2Proof/Laws/KeepsEnergy.lean ====
section
/-! SUPPORT. The operations of Machine/Energy.lean keep memory sound and leave the queue alone. -/

namespace Sys2Proof.Machine

set_option linter.unusedVariables false
set_option linter.unusedTactic false
set_option linter.unreachableTactic false

variable {pq : List Instr}

theorem State.ledgerEnter_ok {s : State} {st : LedgerState} (hok : Ok pq s) :
    Ok pq (State.ledgerEnter s st) := by
  unfold State.ledgerEnter
  try dsimp only
  repeat' (first
    | with_reducible assumption | with_reducible apply State.count_ok | with_reducible apply State.flagRecord_ok
    | (simp only [ok_mk, ok3_eq]) | (intro _ _ _) | (intro _ _) | split | (dsimp only))

theorem State.ledgerGo_ok {n : Nat} {s : State} (hok : Ok pq s) : Ok pq (State.ledgerGo n s) := by
  induction n generalizing s with
  | zero => exact hok
  | succ n ih =>
    unfold State.ledgerGo
    split
    · exact ih (State.ledgerEnter_ok hok)
    · exact hok

theorem State.ledgerEval_ok {s : State} (hok : Ok pq s) :
    Ok pq (State.ledgerEval s) := by
  unfold State.ledgerEval
  try dsimp only
  repeat' (first
    | with_reducible assumption | with_reducible apply State.ledgerGo_ok | (simp only [ok_mk, ok3_eq]) | (intro _ _ _)
    | (intro _ _) | split | (dsimp only))

theorem State.refuseFrame_ok {s : State} (hok : Ok pq s) :
    Ok pq (State.refuseFrame s) := by
  unfold State.refuseFrame
  try dsimp only
  repeat' (first
    | with_reducible assumption | with_reducible apply ok_ite | with_reducible apply ok_ite_fst
    | with_reducible apply State.count_ok | with_reducible apply State.flag_ok | (simp only [ok_mk, ok3_eq])
    | (intro _ _ _) | (intro _ _) | split | (dsimp only))

theorem State.recomputeEnergy_ok {s : State} (hok : Ok pq s) :
    Ok pq (State.recomputeEnergy s) := by
  unfold State.recomputeEnergy
  try dsimp only
  repeat' (first
    | with_reducible assumption | with_reducible apply ok_ite | with_reducible apply ok_ite_fst
    | with_reducible apply State.flag_ok | (simp only [ok_mk, ok3_eq]) | (intro _ _ _) | (intro _ _) | split
    | (dsimp only))

end Sys2Proof.Machine
end

