-- ==== Sys2Proof/Laws/KeepsShaumSend.lean ====
section
/-! SUPPORT. The operations of Machine/ShaumSend.lean keep memory sound and leave the queue alone. -/

namespace Sys2Proof.Machine

set_option linter.unusedVariables false
set_option linter.unusedTactic false
set_option linter.unreachableTactic false

variable {pq : List Instr}

theorem State.wakeFor_ok {s : State} {c : WakeCause} (hok : Ok pq s) :
    Ok pq (State.wakeFor s c) := by
  unfold State.wakeFor
  try dsimp only
  repeat' (first
    | with_reducible assumption | with_reducible apply State.setReg_ok | with_reducible apply State.setBit_ok
    | with_reducible apply State.count_ok | with_reducible apply State.flag_ok | (simp only [ok_mk, ok3_eq])
    | (intro _ _ _) | (intro _ _) | split | (dsimp only))

theorem State.sendSeg_ok {s : State} {seq : Nat} {m : ShaumMsg} {i : Nat} (hok : Ok pq s) :
    Ok pq (State.sendSeg s seq m i) := by
  unfold State.sendSeg
  try dsimp only
  repeat' (first
    | with_reducible assumption | with_reducible apply State.emit_ok | (simp only [ok_mk, ok3_eq]) | (intro _ _ _)
    | (intro _ _) | split | (dsimp only))

theorem State.sendSome_ok {s : State} {seq : Nat} {m : ShaumMsg} {is : List Nat} (hok : Ok pq s) :
    Ok pq (State.sendSome s seq m is) := by
  unfold State.sendSome
  try dsimp only
  repeat' (first
    | with_reducible assumption | with_reducible apply ok_foldl | with_reducible apply ok_foldl_fst
    | with_reducible apply State.emit_ok | with_reducible apply State.sendSeg_ok | (simp only [ok_mk, ok3_eq])
    | (intro _ _ _) | (intro _ _) | split | (dsimp only))

theorem State.sendSegs_ok {s : State} {seq : Nat} {m : ShaumMsg} (hok : Ok pq s) :
    Ok pq (State.sendSegs s seq m) := by
  unfold State.sendSegs
  try dsimp only
  repeat' (first
    | with_reducible assumption | with_reducible apply State.sendSome_ok | (simp only [ok_mk, ok3_eq]) | (intro _ _ _)
    | (intro _ _) | split | (dsimp only))

theorem State.nextMsgSeq_ok {s : State} (hok : Ok pq s) :
    Ok pq (State.nextMsgSeq s).1 := by
  unfold State.nextMsgSeq
  try dsimp only
  repeat' (first
    | with_reducible assumption | (simp only [ok_mk, ok3_eq]) | (intro _ _ _) | (intro _ _) | split | (dsimp only))

theorem State.nextMsgSeq_ok_of {s : State} {t : State} {x : Nat} (e : State.nextMsgSeq s = (t, x)) (hok : Ok pq s) :
    Ok pq t := by
  rw [show t = (State.nextMsgSeq s).1 by rw [e]]
  exact State.nextMsgSeq_ok hok

theorem State.sendOnce_ok {s : State} {m : ShaumMsg} (hok : Ok pq s) :
    Ok pq (State.sendOnce s m) := by
  unfold State.sendOnce
  try dsimp only
  repeat' (first
    | with_reducible assumption | with_reducible apply ok_ite | with_reducible apply ok_ite_fst
    | with_reducible apply State.sendSegs_ok | with_reducible apply State.nextMsgSeq_ok
    | (with_reducible refine State.nextMsgSeq_ok_of (by assumption) ?_) | (simp only [ok_mk, ok3_eq]) | (intro _ _ _)
    | (intro _ _) | split | (dsimp only))

theorem State.send_ok {s : State} {m : ShaumMsg} (hok : Ok pq s) :
    Ok pq (State.send s m).1 := by
  unfold State.send
  try dsimp only
  repeat' (first
    | with_reducible assumption | with_reducible apply ok_ite | with_reducible apply ok_ite_fst
    | with_reducible apply State.sendSegs_ok | with_reducible apply State.nextMsgSeq_ok
    | (with_reducible refine State.nextMsgSeq_ok_of (by assumption) ?_) | (simp only [ok_mk, ok3_eq]) | (intro _ _ _)
    | (intro _ _) | split | (dsimp only))

theorem State.send_ok_of {s : State} {m : ShaumMsg} {t : State} {x : Nat} (e : State.send s m = (t, x)) (hok : Ok pq s) :
    Ok pq t := by
  rw [show t = (State.send s m).1 by rw [e]]
  exact State.send_ok hok

theorem State.post_ok {s : State} {m : ShaumMsg} (hok : Ok pq s) :
    Ok pq (State.post s m) := by
  unfold State.post
  try dsimp only
  repeat' (first
    | with_reducible assumption | with_reducible apply State.send_ok
    | (with_reducible refine State.send_ok_of (by assumption) ?_) | (simp only [ok_mk, ok3_eq]) | (intro _ _ _)
    | (intro _ _) | split | (dsimp only))

theorem State.sendUnsent_ok {s : State} (hok : Ok pq s) :
    Ok pq (State.sendUnsent s) := by
  unfold State.sendUnsent
  try dsimp only
  repeat' (first
    | with_reducible assumption | with_reducible apply ok_ite | with_reducible apply ok_ite_fst
    | with_reducible apply ok_foldl | with_reducible apply ok_foldl_fst | with_reducible apply State.countBy_ok
    | with_reducible apply State.count_ok | with_reducible apply State.sendSegs_ok | (simp only [ok_mk, ok3_eq])
    | (intro _ _ _) | (intro _ _) | split | (dsimp only))

theorem State.ackMsg_ok {s : State} {seq : Nat} (hok : Ok pq s) :
    Ok pq (State.ackMsg s seq) := by
  unfold State.ackMsg
  try dsimp only
  repeat' (first
    | with_reducible assumption | with_reducible apply State.sendOnce_ok | (simp only [ok_mk, ok3_eq]) | (intro _ _ _)
    | (intro _ _) | split | (dsimp only))

end Sys2Proof.Machine
end

