-- ==== Sys2Proof/Laws/KeepsTileMap.lean ====
section
/-! SUPPORT. The operations of Machine/TileMap.lean keep memory sound and leave the queue alone. -/

namespace Sys2Proof.Machine

set_option linter.unusedVariables false
set_option linter.unusedTactic false
set_option linter.unreachableTactic false

variable {pq : List Instr}

theorem State.touchMap_ok {s : State} {tile : Nat} {dirty : Bool} (hok : Ok pq s) :
    Ok pq (State.touchMap s tile dirty) := by
  unfold State.touchMap
  try dsimp only
  repeat' (first
    | with_reducible assumption | (simp only [ok_mk, ok3_eq]) | (intro _ _ _) | (intro _ _) | split | (dsimp only))

theorem State.mapFill_ok {s : State} {tile : Nat} (hok : Ok pq s) :
    Ok pq (State.mapFill s tile) := by
  unfold State.mapFill
  try dsimp only
  repeat' (first
    | with_reducible assumption | (simp only [ok_mk, ok3_eq]) | (intro _ _ _) | (intro _ _) | split | (dsimp only))

theorem State.mapMiss_ok {s : State} {tile : Nat} (hok : Ok pq s) :
    Ok pq (State.mapMiss s tile) := by
  unfold State.mapMiss
  try dsimp only
  repeat' (first
    | with_reducible assumption | with_reducible apply State.count_ok | with_reducible apply State.mapFill_ok
    | (simp only [ok_mk, ok3_eq]) | (intro _ _ _) | (intro _ _) | split | (dsimp only))

theorem State.setTile_ok {s : State} {tile : Nat} {e : TileEnt} (hok : Ok pq s) :
    Ok pq (State.setTile s tile e) := by
  unfold State.setTile
  try dsimp only
  repeat' (first
    | with_reducible assumption | with_reducible apply ok_ite | with_reducible apply ok_ite_fst
    | with_reducible apply State.touchMap_ok | (simp only [ok_mk, ok3_eq]) | (intro _ _ _) | (intro _ _) | split
    | (dsimp only))

theorem State.modTile_ok {s : State} {tile : Nat} {f : TileEnt → TileEnt} (hok : Ok pq s) :
    Ok pq (State.modTile s tile f) := by
  unfold State.modTile
  try dsimp only
  repeat' (first
    | with_reducible assumption | with_reducible apply State.setTile_ok | (simp only [ok_mk, ok3_eq]) | (intro _ _ _)
    | (intro _ _) | split | (dsimp only))

theorem State.noteFrames_ok {s : State} (hok : Ok pq s) :
    Ok pq (State.noteFrames s) := by
  unfold State.noteFrames
  try dsimp only
  repeat' (first
    | with_reducible assumption | with_reducible apply ok_ite | with_reducible apply ok_ite_fst
    | (simp only [ok_mk, ok3_eq]) | (intro _ _ _) | (intro _ _) | split | (dsimp only))

theorem State.takeFrame_ok {s : State} {frame : Nat} {tile : Nat} (hok : Ok pq s) :
    Ok pq (State.takeFrame s frame tile) := by
  unfold State.takeFrame
  try dsimp only
  repeat' (first
    | with_reducible assumption | with_reducible apply State.noteFrames_ok | (simp only [ok_mk, ok3_eq])
    | (intro _ _ _) | (intro _ _) | split | (dsimp only))

theorem State.retireFrame_ok {s : State} {frame : Nat} (hok : Ok pq s) :
    Ok pq (State.retireFrame s frame) := by
  unfold State.retireFrame
  try dsimp only
  repeat' (first
    | with_reducible assumption | with_reducible apply ok_ite | with_reducible apply ok_ite_fst
    | with_reducible apply State.record_ok | with_reducible apply State.areaPut_ok | (simp only [ok_mk, ok3_eq])
    | (intro _ _ _) | (intro _ _) | split | (dsimp only))

theorem State.freeFrameNo_ok {s : State} {frame : Nat} (hok : Ok pq s) :
    Ok pq (State.freeFrameNo s frame) := by
  unfold State.freeFrameNo
  try dsimp only
  repeat' (first
    | with_reducible assumption | with_reducible apply ok_ite | with_reducible apply ok_ite_fst
    | with_reducible apply State.noteFrames_ok | with_reducible apply State.retireFrame_ok
    | (simp only [ok_mk, ok3_eq]) | (intro _ _ _) | (intro _ _) | split | (dsimp only))

theorem State.holdFrame_ok {s : State} {frame : Nat} {bad : Bool} (hok : Ok pq s) :
    Ok pq (State.holdFrame s frame bad) := by
  unfold State.holdFrame
  try dsimp only
  repeat' (first
    | with_reducible assumption | (simp only [ok_mk, ok3_eq]) | (intro _ _ _) | (intro _ _) | split | (dsimp only))

end Sys2Proof.Machine
end

