-- ==== Sys2Proof/Laws/KeepsLines.lean ====
section
/-! SUPPORT. The operations of Machine/Lines.lean keep memory sound and leave the queue alone. -/

namespace Sys2Proof.Machine

set_option linter.unusedVariables false
set_option linter.unusedTactic false
set_option linter.unreachableTactic false

variable {pq : List Instr}

/-- What an allocation leaves is `Ok`. -/
def AllocOk (pq : List Instr) : Alloc → Prop
  | .ok t => Ok pq t
  | .wait t => Ok pq t

theorem State.setWay_ok {s : State} {key : Nat} {w : Way} (hok : Ok pq s) :
    Ok pq (State.setWay s key w) := by
  unfold State.setWay
  try dsimp only
  repeat' (first
    | with_reducible assumption | (simp only [ok_mk, ok3_eq]) | (intro _ _ _) | (intro _ _) | split | (dsimp only))

theorem State.touchWay_ok {s : State} {key : Nat} (hok : Ok pq s) :
    Ok pq (State.touchWay s key) := by
  unfold State.touchWay
  try dsimp only
  repeat' (first
    | with_reducible assumption | (simp only [ok_mk, ok3_eq]) | (intro _ _ _) | (intro _ _) | split | (dsimp only))

theorem State.presenceUp_ok {s : State} {tile : Nat} (hok : Ok pq s) :
    Ok pq (State.presenceUp s tile) := by
  unfold State.presenceUp
  try dsimp only
  repeat' (first
    | with_reducible assumption | with_reducible apply State.count_ok | with_reducible apply State.modTile_ok
    | (simp only [ok_mk, ok3_eq]) | (intro _ _ _) | (intro _ _) | split | (dsimp only))

theorem State.presenceDown_ok {s : State} {tile : Nat} (hok : Ok pq s) :
    Ok pq (State.presenceDown s tile) := by
  unfold State.presenceDown
  try dsimp only
  repeat' (first
    | with_reducible assumption | with_reducible apply ok_ite | with_reducible apply ok_ite_fst
    | with_reducible apply State.count_ok | with_reducible apply State.modTile_ok | (simp only [ok_mk, ok3_eq])
    | (intro _ _ _) | (intro _ _) | split | (dsimp only))

theorem State.freeWay_ok {s : State} {key : Nat} (hok : Ok pq s) :
    Ok pq (State.freeWay s key) := by
  unfold State.freeWay
  try dsimp only
  repeat' (first
    | with_reducible assumption | with_reducible apply State.presenceDown_ok | (simp only [ok_mk, ok3_eq])
    | (intro _ _ _) | (intro _ _) | split | (dsimp only))

theorem State.invalWay_ok {s : State} {key : Nat} {w : Way} (hok : Ok pq s) :
    Ok pq (State.invalWay s key w) := by
  unfold State.invalWay
  try dsimp only
  repeat' (first
    | with_reducible assumption | with_reducible apply ok_ite | with_reducible apply ok_ite_fst
    | with_reducible apply State.setWay_ok | with_reducible apply State.freeWay_ok | (simp only [ok_mk, ok3_eq])
    | (intro _ _ _) | (intro _ _) | split | (dsimp only))

theorem State.flushStep_ok {s : State} {tile : Nat} (hok : Ok pq s) :
    Ok pq (State.flushStep s tile) := by
  unfold State.flushStep
  try dsimp only
  repeat' (first
    | with_reducible assumption | with_reducible apply ok_ite | with_reducible apply ok_ite_fst
    | with_reducible apply ok_foldl | with_reducible apply ok_foldl_fst | with_reducible apply State.invalWay_ok
    | (simp only [ok_mk, ok3_eq]) | (intro _ _ _) | (intro _ _) | split | (dsimp only))

theorem State.flushTile_ok {s : State} {tile : Nat} (hok : Ok pq s) :
    Ok pq (State.flushTile s tile) := by
  unfold State.flushTile
  try dsimp only
  repeat' (first
    | with_reducible assumption | with_reducible apply State.countBy_ok | with_reducible apply State.flushStep_ok
    | (simp only [ok_mk, ok3_eq]) | (intro _ _ _) | (intro _ _) | split | (dsimp only))

theorem State.allocLine_ok {s : State} {tile line : Nat} {st : LineState} {dirty : Bool} (hok : Ok pq s) :
    AllocOk pq (State.allocLine s tile line st dirty) := by
  have hw : ∀ u, Ok pq u → AllocOk pq (.wait u) := fun _ h => h
  have hk : ∀ u, Ok pq u → AllocOk pq (.ok u) := fun _ h => h
  unfold State.allocLine
  dsimp only
  split
  · split
    · exact hw _ hok
    · exact hw _ (State.flushTile_ok (State.count_ok (State.flag_ok hok)))
  · split
    · exact hw _ hok
    · split
      · exact hw _ (State.flag_ok hok)
      · rename_i x h1
        have hx : Ok pq x := by
          split at h1
          · simp only [Option.some.injEq] at h1; exact h1 ▸ hok
          · split at h1
            · split at h1
              · simp at h1
              · simp only [Option.some.injEq] at h1
                rw [← h1]
                exact State.freeWay_ok hok
            · simp only [Option.some.injEq] at h1
              rw [← h1]
              exact State.freeWay_ok hok
        apply hk
        repeat' (first
          | with_reducible assumption | with_reducible apply ok_ite | with_reducible apply State.presenceUp_ok | with_reducible apply State.touchWay_ok
          | with_reducible apply State.setWay_ok | (simp only [ok_mk, ok3_eq]) | split | (dsimp only))

theorem State.allocLine_ok_ok {s : State} {tile line : Nat} {st : LineState} {dirty : Bool} {t : State}
    (e : State.allocLine s tile line st dirty = .ok t) (hok : Ok pq s) : Ok pq t := by
  have := State.allocLine_ok (tile := tile) (line := line) (st := st) (dirty := dirty) hok
  rw [e] at this
  exact this

theorem State.allocLine_ok_wait {s : State} {tile line : Nat} {st : LineState} {dirty : Bool} {t : State}
    (e : State.allocLine s tile line st dirty = .wait t) (hok : Ok pq s) : Ok pq t := by
  have := State.allocLine_ok (tile := tile) (line := line) (st := st) (dirty := dirty) hok
  rw [e] at this
  exact this

theorem State.dropLines_ok {s : State} {tile : Nat} (hok : Ok pq s) :
    Ok pq (State.dropLines s tile) := by
  unfold State.dropLines
  try dsimp only
  repeat' (first
    | with_reducible assumption | with_reducible apply ok_foldl | with_reducible apply ok_foldl_fst
    | with_reducible apply State.freeWay_ok | (simp only [ok_mk, ok3_eq]) | (intro _ _ _) | (intro _ _) | split
    | (dsimp only))

theorem State.clearHlc_ok {s : State} (hok : Ok pq s) :
    Ok pq (State.clearHlc s) := by
  unfold State.clearHlc
  try dsimp only
  repeat' (first
    | with_reducible assumption | (simp only [ok_mk, ok3_eq]) | (intro _ _ _) | (intro _ _) | split | (dsimp only))

theorem State.maintLine_ok {s : State} {inval : Bool} {tile : Nat} {line : Nat} (hok : Ok pq s) :
    Ok pq (State.maintLine s inval tile line).1 := by
  unfold State.maintLine
  try dsimp only
  repeat' (first
    | with_reducible assumption | with_reducible apply ok_ite | with_reducible apply ok_ite_fst
    | with_reducible apply State.addSat_ok | with_reducible apply State.setWay_ok
    | with_reducible apply State.freeWay_ok | (simp only [ok_mk, ok3_eq]) | (intro _ _ _) | (intro _ _) | split
    | (dsimp only))

theorem State.maintLine_ok_of {s : State} {inval : Bool} {tile : Nat} {line : Nat} {t : State} {x : Bool} (e : State.maintLine s inval tile line = (t, x)) (hok : Ok pq s) :
    Ok pq t := by
  rw [show t = (State.maintLine s inval tile line).1 by rw [e]]
  exact State.maintLine_ok hok

theorem State.maintStep_ok {s : State} (hok : Ok pq s) :
    Ok pq (State.maintStep s) := by
  unfold State.maintStep
  try dsimp only
  repeat' (first
    | with_reducible assumption | with_reducible apply ok_ite | with_reducible apply ok_ite_fst
    | with_reducible apply ok_foldl | with_reducible apply ok_foldl_fst | with_reducible apply State.maintLine_ok
    | (with_reducible refine State.maintLine_ok_of (by assumption) ?_) | (simp only [ok_mk, ok3_eq]) | (intro _ _ _)
    | (intro _ _) | split | (dsimp only))

end Sys2Proof.Machine
end

