-- ==== Sys2Proof/Laws/KeepsUnits.lean ====
section
/-! SUPPORT. The operations of Machine/Units.lean keep memory sound and leave the queue alone. -/

namespace Sys2Proof.Machine

set_option linter.unusedVariables false
set_option linter.unusedTactic false
set_option linter.unreachableTactic false

variable {pq : List Instr}

theorem State.setSb_ok {s : State} {set : Nat} {block : Nat} {b : Stripe} (hok : Ok pq s) :
    Ok pq (State.setSb s set block b) := by
  unfold State.setSb
  try dsimp only
  repeat' (first
    | with_reducible assumption | (simp only [ok_mk, ok3_eq]) | (intro _ _ _) | (intro _ _) | split | (dsimp only))

theorem State.noteFull_ok {s : State} (hok : Ok pq s) :
    Ok pq (State.noteFull s) := by
  unfold State.noteFull
  try dsimp only
  repeat' (first
    | with_reducible assumption | with_reducible apply ok_ite | with_reducible apply ok_ite_fst
    | with_reducible apply State.flagRecord_ok | (simp only [ok_mk, ok3_eq]) | (intro _ _ _) | (intro _ _) | split
    | (dsimp only))

theorem State.openBlock_ok {s : State} {set : Nat} {kind : Nat} {t : State} {x : Nat} (e : State.openBlock s set kind = some (t, x)) (hok : Ok pq s) :
    Ok pq t := by
  unfold State.openBlock at e
  try dsimp only at e
  repeat' split at e
  all_goals first | (simp at e; done) | (simp only [Option.some.injEq, Prod.mk.injEq] at e; obtain ⟨e, _⟩ := e; subst e)
  repeat' (first
    | with_reducible assumption | with_reducible apply State.setSb_ok | (simp only [ok_mk, ok3_eq]) | (intro _ _ _)
    | (intro _ _) | split | (dsimp only))

theorem State.openFresh_ok {s : State} {set : Nat} {kind : Nat} (hok : Ok pq s) :
    Ok pq (State.openFresh s set kind) := by
  unfold State.openFresh
  try dsimp only
  repeat' (first
    | with_reducible assumption | (with_reducible refine State.openBlock_ok (by assumption) ?_)
    | (simp only [ok_mk, ok3_eq]) | (intro _ _ _) | (intro _ _) | split | (dsimp only))

theorem State.openAll_ok {s : State} (hok : Ok pq s) :
    Ok pq (State.openAll s) := by
  unfold State.openAll
  try dsimp only
  repeat' (first
    | with_reducible assumption | with_reducible apply ok_foldl | with_reducible apply ok_foldl_fst
    | with_reducible apply State.openFresh_ok | (simp only [ok_mk, ok3_eq]) | (intro _ _ _) | (intro _ _) | split
    | (dsimp only))

theorem State.flyUnit_ok {s : State} {set : Nat} {block : Nat} (hok : Ok pq s) :
    Ok pq (State.flyUnit s set block) := by
  unfold State.flyUnit
  try dsimp only
  repeat' (first
    | with_reducible assumption | with_reducible apply State.emit_ok | (simp only [ok_mk, ok3_eq]) | (intro _ _ _)
    | (intro _ _) | split | (dsimp only))

theorem State.fillUnit_ok {s : State} {set kind tile : Nat} {t : State} {x : Nat} (e : State.fillUnit s set kind tile = some (t, x))
    (hok : Ok pq s) : Ok pq t := by
  unfold State.fillUnit at e
  dsimp only at e
  split at e
  · simp at e
  · split at e
    · simp at e
    · rename_i u b hu
      have hk : Ok pq u := by
        split at hu
        · simp only [Option.some.injEq, Prod.mk.injEq] at hu
          exact hu.1 ▸ hok
        · exact State.openBlock_ok hu hok
      split at e
      · simp at e
      · simp only [Option.some.injEq, Prod.mk.injEq] at e
        obtain ⟨e, _⟩ := e
        subst e
        split
        · exact State.flyUnit_ok hk
        · exact hk

theorem State.placeTile_ok {s : State} {kind tile n set : Nat} {t : State} {x : Nat}
    (e : State.placeTile s kind tile n set = some (t, x)) (hok : Ok pq s) : Ok pq t := by
  induction n generalizing set with
  | zero => simp [State.placeTile] at e
  | succ n ih =>
    unfold State.placeTile at e
    split at e
    · rename_i q hq
      simp only [Option.some.injEq, Prod.mk.injEq] at e
      have := State.fillUnit_ok (t := q.1) (x := q.2) hq hok
      rw [← e.1]
      split
      · rw [ok_mk, ok3_eq]; exact this
      · exact this
    · exact ih e

theorem State.flashSlot_ok {s : State} {kind tile : Nat} {t : State} {x : Nat} (e : State.flashSlot s kind tile = some (t, x))
    (hok : Ok pq s) : Ok pq t := State.placeTile_ok e hok

theorem State.eraseSb_ok {s : State} {set : Nat} {block : Nat} (hok : Ok pq s) :
    Ok pq (State.eraseSb s set block) := by
  unfold State.eraseSb
  try dsimp only
  repeat' (first
    | with_reducible assumption | with_reducible apply State.emit_ok | with_reducible apply State.setSb_ok
    | (simp only [ok_mk, ok3_eq]) | (intro _ _ _) | (intro _ _) | split | (dsimp only))

theorem State.validUp_ok {s : State} {loc : Nat} {tile : Nat} (hok : Ok pq s) :
    Ok pq (State.validUp s loc tile) := by
  unfold State.validUp
  try dsimp only
  repeat' (first
    | with_reducible assumption | with_reducible apply State.setSb_ok | (simp only [ok_mk, ok3_eq]) | (intro _ _ _)
    | (intro _ _) | split | (dsimp only))

theorem State.emptyCheck_ok {s : State} {set : Nat} {block : Nat} (hok : Ok pq s) :
    Ok pq (State.emptyCheck s set block) := by
  unfold State.emptyCheck
  try dsimp only
  repeat' (first
    | with_reducible assumption | with_reducible apply ok_ite | with_reducible apply ok_ite_fst
    | with_reducible apply State.eraseSb_ok | (simp only [ok_mk, ok3_eq]) | (intro _ _ _) | (intro _ _) | split
    | (dsimp only))

theorem State.invalidateLoc_ok {s : State} {loc : Nat} (hok : Ok pq s) :
    Ok pq (State.invalidateLoc s loc) := by
  unfold State.invalidateLoc
  try dsimp only
  repeat' (first
    | with_reducible assumption | with_reducible apply State.setSb_ok | with_reducible apply State.emptyCheck_ok
    | (simp only [ok_mk, ok3_eq]) | (intro _ _ _) | (intro _ _) | split | (dsimp only))

end Sys2Proof.Machine
end

