-- ==== Sys2Proof/Laws/KeepsMoves.lean ====
section
/-! SUPPORT. The operations of Machine/Moves.lean keep memory sound and leave the queue alone. -/

namespace Sys2Proof.Machine

set_option linter.unusedVariables false
set_option linter.unusedTactic false
set_option linter.unreachableTactic false

variable {pq : List Instr}

theorem State.modMove_ok {s : State} {tile : Nat} {f : Move → Move} (hok : Ok pq s) :
    Ok pq (State.modMove s tile f) := by
  unfold State.modMove
  try dsimp only
  repeat' (first
    | with_reducible assumption | (simp only [ok_mk, ok3_eq]) | (intro _ _ _) | (intro _ _) | split | (dsimp only))

theorem State.cmdTile_ok {s : State} {cmd : Nat} {tile : Nat} {miss : Bool} (hok : Ok pq s) :
    Ok pq (State.cmdTile s cmd tile miss) := by
  unfold State.cmdTile
  try dsimp only
  repeat' (first
    | with_reducible assumption | with_reducible apply ok_ite | with_reducible apply ok_ite_fst
    | (simp only [ok_mk, ok3_eq]) | (intro _ _ _) | (intro _ _) | split | (dsimp only))

theorem State.joinEnd_ok {s : State} {cmds : List Nat} {peers : List Nat} {tile : Nat} {moved : Bool} {pinned : Bool} (hok : Ok pq s) :
    Ok pq (State.joinEnd s cmds peers tile moved pinned) := by
  unfold State.joinEnd
  try dsimp only
  repeat' (first
    | with_reducible assumption | with_reducible apply ok_ite | with_reducible apply ok_ite_fst
    | with_reducible apply ok_foldl | with_reducible apply ok_foldl_fst | with_reducible apply State.post_ok
    | with_reducible apply State.cmdTile_ok | (simp only [ok_mk, ok3_eq]) | (intro _ _ _) | (intro _ _) | split
    | (dsimp only))

theorem State.moveJoined_ok {s : State} {tile : Nat} {m : Move} (hok : Ok pq s) :
    Ok pq (State.moveJoined s tile m) := by
  unfold State.moveJoined
  try dsimp only
  repeat' (first
    | with_reducible assumption | with_reducible apply ok_ite | with_reducible apply ok_ite_fst
    | with_reducible apply State.modTile_ok | with_reducible apply State.joinEnd_ok | (simp only [ok_mk, ok3_eq])
    | (intro _ _ _) | (intro _ _) | split | (dsimp only))

theorem State.dropMove_ok {s : State} {tile : Nat} {miss : Bool} (hok : Ok pq s) :
    Ok pq (State.dropMove s tile miss) := by
  unfold State.dropMove
  try dsimp only
  repeat' (first
    | with_reducible assumption | with_reducible apply ok_ite | with_reducible apply ok_ite_fst
    | with_reducible apply State.modTile_ok | with_reducible apply State.freeFrameNo_ok
    | with_reducible apply State.emptyCheck_ok | with_reducible apply State.joinEnd_ok | (simp only [ok_mk, ok3_eq])
    | (intro _ _ _) | (intro _ _) | split | (dsimp only))

theorem State.pullTile_ok {s : State} {tile : Nat} (hok : Ok pq s) :
    Ok pq (State.pullTile s tile) := by
  unfold State.pullTile
  try dsimp only
  repeat' (first
    | with_reducible assumption | with_reducible apply ok_ite | with_reducible apply ok_ite_fst
    | with_reducible apply State.post_ok | (simp only [ok_mk, ok3_eq]) | (intro _ _ _) | (intro _ _) | split
    | (dsimp only))

theorem State.moveFrameTo_ok {s : State} {tile : Nat} {m : Move} {free : Option Nat} (hok : Ok pq s) :
    Ok pq (State.moveFrameTo s tile m free) := by
  unfold State.moveFrameTo
  try dsimp only
  repeat' (first
    | with_reducible assumption | with_reducible apply ok_ite | with_reducible apply ok_ite_fst
    | with_reducible apply State.count_ok | with_reducible apply State.takeFrame_ok
    | with_reducible apply State.modMove_ok | with_reducible apply State.dropMove_ok
    | with_reducible apply State.pullTile_ok | (simp only [ok_mk, ok3_eq]) | (intro _ _ _) | (intro _ _) | split
    | (dsimp only))

theorem State.moveFrame_ok {s : State} {tile : Nat} {m : Move} (hok : Ok pq s) :
    Ok pq (State.moveFrame s tile m) := by
  unfold State.moveFrame
  try dsimp only
  repeat' (first
    | with_reducible assumption | with_reducible apply State.moveFrameTo_ok | (simp only [ok_mk, ok3_eq])
    | (intro _ _ _) | (intro _ _) | split | (dsimp only))

theorem State.moveProgram_ok {s : State} {tile : Nat} {m : Move} (hok : Ok pq s) :
    Ok pq (State.moveProgram s tile m) := by
  unfold State.moveProgram
  try dsimp only
  repeat' (first
    | with_reducible assumption | with_reducible apply ok_ite | with_reducible apply ok_ite_fst
    | with_reducible apply State.noteFull_ok | (with_reducible refine State.flashSlot_ok (by assumption) ?_)
    | with_reducible apply State.modMove_ok | (simp only [ok_mk, ok3_eq]) | (intro _ _ _) | (intro _ _) | split
    | (dsimp only))

theorem State.moveRefused_ok {s : State} {tile : Nat} {m : Move} (hok : Ok pq s) :
    Ok pq (State.moveRefused s tile m) := by
  unfold State.moveRefused
  try dsimp only
  repeat' (first
    | with_reducible assumption | with_reducible apply ok_ite | with_reducible apply ok_ite_fst
    | with_reducible apply State.count_ok | with_reducible apply State.flag_ok
    | with_reducible apply State.refuseFrame_ok | with_reducible apply State.modTile_ok
    | with_reducible apply State.modMove_ok | with_reducible apply State.dropMove_ok
    | with_reducible apply State.pullTile_ok | with_reducible apply State.moveProgram_ok | (simp only [ok_mk, ok3_eq])
    | (intro _ _ _) | (intro _ _) | split | (dsimp only))

theorem State.moveReserve_ok {s : State} {tile : Nat} {m : Move} (hok : Ok pq s) :
    Ok pq (State.moveReserve s tile m) := by
  unfold State.moveReserve
  try dsimp only
  repeat' (first
    | with_reducible assumption | with_reducible apply ok_ite | with_reducible apply ok_ite_fst
    | with_reducible apply State.ledgerEval_ok | with_reducible apply State.moveFrame_ok
    | with_reducible apply State.moveRefused_ok | (simp only [ok_mk, ok3_eq]) | (intro _ _ _) | (intro _ _) | split
    | (dsimp only))

theorem State.beginMove_ok {s : State} {tile : Nat} {m : Move} (hok : Ok pq s) :
    Ok pq (State.beginMove s tile m) := by
  unfold State.beginMove
  try dsimp only
  repeat' (first
    | with_reducible assumption | with_reducible apply ok_ite | with_reducible apply ok_ite_fst
    | with_reducible apply State.modTile_ok | with_reducible apply State.flushTile_ok
    | with_reducible apply State.modMove_ok | with_reducible apply State.moveProgram_ok
    | with_reducible apply State.moveReserve_ok | (simp only [ok_mk, ok3_eq]) | (intro _ _ _) | (intro _ _) | split
    | (dsimp only))

theorem State.skipMove_ok {s : State} {tile : Nat} {m : Move} (hok : Ok pq s) :
    Ok pq (State.skipMove s tile m) := by
  unfold State.skipMove
  try dsimp only
  repeat' (first
    | with_reducible assumption | with_reducible apply ok_ite | with_reducible apply ok_ite_fst
    | with_reducible apply State.joinEnd_ok | with_reducible apply State.moveJoined_ok | (simp only [ok_mk, ok3_eq])
    | (intro _ _ _) | (intro _ _) | split | (dsimp only))

theorem State.slotsGo_ok {n : Nat} {s : State} {eng : Nat} (hok : Ok pq s) : Ok pq (State.slotsGo s eng n) := by
  induction n generalizing s with
  | zero => exact hok
  | succ n ih =>
    unfold State.slotsGo
    repeat' (first
      | with_reducible assumption | with_reducible apply ih | with_reducible apply ok_ite | with_reducible apply State.beginMove_ok
      | with_reducible apply State.skipMove_ok | split)

theorem State.nextSlot_ok {s : State} {eng : Nat} (hok : Ok pq s) :
    Ok pq (State.nextSlot s eng) := by
  unfold State.nextSlot
  try dsimp only
  repeat' (first
    | with_reducible assumption | with_reducible apply State.slotsGo_ok | (simp only [ok_mk, ok3_eq]) | (intro _ _ _)
    | (intro _ _) | split | (dsimp only))

theorem State.nextSlots_ok {s : State} (hok : Ok pq s) :
    Ok pq (State.nextSlots s) := by
  unfold State.nextSlots
  try dsimp only
  repeat' (first
    | with_reducible assumption | with_reducible apply ok_foldl | with_reducible apply ok_foldl_fst
    | with_reducible apply State.nextSlot_ok | (simp only [ok_mk, ok3_eq]) | (intro _ _ _) | (intro _ _) | split
    | (dsimp only))

theorem State.queueMove_ok {s : State} {tile : Nat} {m : Move} (hok : Ok pq s) :
    Ok pq (State.queueMove s tile m) := by
  unfold State.queueMove
  try dsimp only
  repeat' (first
    | with_reducible assumption | with_reducible apply State.nextSlot_ok | (simp only [ok_mk, ok3_eq]) | (intro _ _ _)
    | (intro _ _) | split | (dsimp only))

theorem State.startMove_ok {s : State} {tile : Nat} {kind : MoveKind} {why : MoveWhy} {cmds : List Nat} {peers : List Nat} (hok : Ok pq s) :
    Ok pq (State.startMove s tile kind why cmds peers) := by
  unfold State.startMove
  try dsimp only
  repeat' (first
    | with_reducible assumption | with_reducible apply ok_ite | with_reducible apply ok_ite_fst
    | with_reducible apply State.modMove_ok | with_reducible apply State.nextSlot_ok
    | with_reducible apply State.queueMove_ok | (simp only [ok_mk, ok3_eq]) | (intro _ _ _) | (intro _ _) | split
    | (dsimp only))

theorem State.serveFrames_ok {n : Nat} {s : State} (hok : Ok pq s) : Ok pq (State.serveFrames s n) := by
  induction n generalizing s with
  | zero => exact hok
  | succ n ih =>
    unfold State.serveFrames
    split
    · split
      · exact ih (State.moveFrame_ok hok)
      · exact hok
    · exact hok

theorem State.serveLedger_ok {n : Nat} {s : State} (hok : Ok pq s) : Ok pq (State.serveLedger s n) := by
  induction n generalizing s with
  | zero => exact hok
  | succ n ih =>
    unfold State.serveLedger
    split
    · split
      · exact ih (State.moveFrame_ok hok)
      · exact hok
    · exact hok

theorem State.servePinned_ok {s : State} (hok : Ok pq s) :
    Ok pq (State.servePinned s) := by
  unfold State.servePinned
  try dsimp only
  repeat' (first
    | with_reducible assumption | with_reducible apply ok_ite | with_reducible apply ok_ite_fst
    | with_reducible apply ok_foldl | with_reducible apply ok_foldl_fst | with_reducible apply State.startMove_ok
    | (simp only [ok_mk, ok3_eq]) | (intro _ _ _) | (intro _ _) | split | (dsimp only))

theorem State.drainSaveArea_ok {s : State} (hok : Ok pq s) :
    Ok pq (State.drainSaveArea s) := by
  unfold State.drainSaveArea
  try dsimp only
  repeat' (first
    | with_reducible assumption | with_reducible apply ok_foldl | with_reducible apply ok_foldl_fst
    | with_reducible apply State.startMove_ok | (simp only [ok_mk, ok3_eq]) | (intro _ _ _) | (intro _ _) | split
    | (dsimp only))

theorem State.serveQueue_ok {s : State} (hok : Ok pq s) :
    Ok pq (State.serveQueue s) := by
  unfold State.serveQueue
  try dsimp only
  repeat' (first
    | with_reducible assumption | with_reducible apply State.serveFrames_ok
    | with_reducible apply State.serveLedger_ok | with_reducible apply State.servePinned_ok
    | (simp only [ok_mk, ok3_eq]) | (intro _ _ _) | (intro _ _) | split | (dsimp only))

theorem State.switchDram_ok {s : State} {tile : Nat} {frame : Nat} (hok : Ok pq s) :
    Ok pq (State.switchDram s tile frame) := by
  unfold State.switchDram
  try dsimp only
  repeat' (first
    | with_reducible assumption | with_reducible apply ok_ite | with_reducible apply ok_ite_fst
    | with_reducible apply State.setTile_ok | with_reducible apply State.invalidateLoc_ok
    | (simp only [ok_mk, ok3_eq]) | (intro _ _ _) | (intro _ _) | split | (dsimp only))

theorem State.promoteDone_ok {s : State} {tile : Nat} {m : Move} {frame : Nat} (hok : Ok pq s) :
    Ok pq (State.promoteDone s tile m frame) := by
  unfold State.promoteDone
  try dsimp only
  repeat' (first
    | with_reducible assumption | with_reducible apply State.count_ok | with_reducible apply State.moveJoined_ok
    | with_reducible apply State.nextSlot_ok | with_reducible apply State.switchDram_ok | (simp only [ok_mk, ok3_eq])
    | (intro _ _ _) | (intro _ _) | split | (dsimp only))

theorem State.cancelEvict_ok {s : State} {tile : Nat} (hok : Ok pq s) :
    Ok pq (State.cancelEvict s tile) := by
  unfold State.cancelEvict
  try dsimp only
  repeat' (first
    | with_reducible assumption | with_reducible apply State.count_ok | with_reducible apply State.moveJoined_ok
    | with_reducible apply State.dropMove_ok | with_reducible apply State.nextSlot_ok | (simp only [ok_mk, ok3_eq])
    | (intro _ _ _) | (intro _ _) | split | (dsimp only))

theorem State.evictFlushed_ok {s : State} {tile : Nat} (hok : Ok pq s) :
    Ok pq (State.evictFlushed s tile) := by
  unfold State.evictFlushed
  try dsimp only
  repeat' (first
    | with_reducible assumption | with_reducible apply ok_ite | with_reducible apply ok_ite_fst
    | with_reducible apply State.moveProgram_ok | (simp only [ok_mk, ok3_eq]) | (intro _ _ _) | (intro _ _) | split
    | (dsimp only))

theorem State.retryUnits_ok {s : State} (hok : Ok pq s) :
    Ok pq (State.retryUnits s) := by
  unfold State.retryUnits
  try dsimp only
  repeat' (first
    | with_reducible assumption | with_reducible apply ok_foldl | with_reducible apply ok_foldl_fst
    | with_reducible apply State.moveProgram_ok | (simp only [ok_mk, ok3_eq]) | (intro _ _ _) | (intro _ _) | split
    | (dsimp only))

theorem State.startRepair_ok {s : State} {tile : Nat} {valid : List Nat} {bad : Bool} (hok : Ok pq s) :
    Ok pq (State.startRepair s tile valid bad) := by
  unfold State.startRepair
  try dsimp only
  repeat' (first
    | with_reducible assumption | with_reducible apply ok_ite | with_reducible apply ok_ite_fst
    | with_reducible apply State.count_ok | with_reducible apply State.flag_ok | with_reducible apply State.modTile_ok
    | with_reducible apply State.holdFrame_ok | with_reducible apply State.dropLines_ok
    | with_reducible apply State.queueMove_ok | (simp only [ok_mk, ok3_eq]) | (intro _ _ _) | (intro _ _) | split
    | (dsimp only))

theorem State.relocateAll_ok {s : State} {set : Nat} {block : Nat} (hok : Ok pq s) :
    Ok pq (State.relocateAll s set block) := by
  unfold State.relocateAll
  try dsimp only
  repeat' (first
    | with_reducible assumption | with_reducible apply ok_ite | with_reducible apply ok_ite_fst
    | with_reducible apply ok_foldl | with_reducible apply ok_foldl_fst | with_reducible apply State.startMove_ok
    | (simp only [ok_mk, ok3_eq]) | (intro _ _ _) | (intro _ _) | split | (dsimp only))

theorem State.refresh_ok {s : State} {set : Nat} {block : Nat} (hok : Ok pq s) :
    Ok pq (State.refresh s set block) := by
  unfold State.refresh
  try dsimp only
  repeat' (first
    | with_reducible assumption | with_reducible apply ok_ite | with_reducible apply ok_ite_fst
    | with_reducible apply State.count_ok | with_reducible apply State.setSb_ok
    | with_reducible apply State.relocateAll_ok | (simp only [ok_mk, ok3_eq]) | (intro _ _ _) | (intro _ _) | split
    | (dsimp only))

end Sys2Proof.Machine
end

