-- ==== Sys2Proof/Laws/KeepsPools.lean ====
section
/-! SUPPORT. The operations of Machine/Pools.lean keep memory sound and leave the queue alone. -/

namespace Sys2Proof.Machine

set_option linter.unusedVariables false
set_option linter.unusedTactic false
set_option linter.unreachableTactic false

variable {pq : List Instr}

theorem State.pfcAll_ok {s : State} {xoff : Bool} (hok : Ok pq s) :
    Ok pq (State.pfcAll s xoff) := by
  unfold State.pfcAll
  try dsimp only
  repeat' (first
    | with_reducible assumption | with_reducible apply ok_ite | with_reducible apply ok_ite_fst
    | with_reducible apply ok_foldl | with_reducible apply ok_foldl_fst | with_reducible apply State.emit_ok
    | (simp only [ok_mk, ok3_eq]) | (intro _ _ _) | (intro _ _) | split | (dsimp only))

theorem State.poolNote_ok {s : State} {i : Nat} {p : Pool} (hok : Ok pq s) :
    Ok pq (State.poolNote s i p) := by
  unfold State.poolNote
  try dsimp only
  repeat' (first
    | with_reducible assumption | with_reducible apply ok_ite | with_reducible apply ok_ite_fst
    | with_reducible apply ok_foldl | with_reducible apply ok_foldl_fst | with_reducible apply State.setFld_ok
    | with_reducible apply State.flag_ok | with_reducible apply State.pfcAll_ok | (simp only [ok_mk, ok3_eq])
    | (intro _ _ _) | (intro _ _) | split | (dsimp only))

theorem State.takeBuf_ok {s : State} {size : Nat} {t : State} {x : Nat × Nat} (e : State.takeBuf s size = some (t, x)) (hok : Ok pq s) :
    Ok pq t := by
  unfold State.takeBuf at e
  try dsimp only at e
  repeat' split at e
  all_goals first | (simp at e; done) | (simp only [Option.some.injEq, Prod.mk.injEq] at e; obtain ⟨e, _⟩ := e; subst e)
  repeat' (first
    | with_reducible assumption | with_reducible apply ok_ite | with_reducible apply ok_ite_fst
    | with_reducible apply State.poolNote_ok | (simp only [ok_mk, ok3_eq]) | (intro _ _ _) | (intro _ _) | split
    | (dsimp only))

theorem State.freeBuf_ok {s : State} {b : Nat × Nat} (hok : Ok pq s) :
    Ok pq (State.freeBuf s b) := by
  unfold State.freeBuf
  try dsimp only
  repeat' (first
    | with_reducible assumption | with_reducible apply ok_ite | with_reducible apply ok_ite_fst
    | with_reducible apply State.addSat_ok | with_reducible apply State.flagRecord_ok
    | with_reducible apply State.poolNote_ok | (simp only [ok_mk, ok3_eq]) | (intro _ _ _) | (intro _ _) | split
    | (dsimp only))

theorem State.zeroBuf_ok {s : State} {b : Nat × Nat} (hok : Ok pq s) :
    Ok pq (State.zeroBuf s b) := by
  unfold State.zeroBuf
  try dsimp only
  repeat' (first
    | with_reducible assumption | (simp only [ok_mk, ok3_eq]) | (intro _ _ _) | (intro _ _) | split | (dsimp only))

end Sys2Proof.Machine
end

