-- ==== Sys2Proof/Laws/KeepsRequests.lean ====
section
/-! SUPPORT. The operations of Machine/Requests.lean keep memory sound and leave the queue alone. -/

namespace Sys2Proof.Machine

set_option linter.unusedVariables false
set_option linter.unusedTactic false
set_option linter.unreachableTactic false

variable {pq : List Instr}

theorem State.winSet_ok {s : State} {region : Nat} {host : Nat} {reqId : Nat} {atomic : Bool} {result : Nat} {isOpen : Bool} (hok : Ok pq s) :
    Ok pq (State.winSet s region host reqId atomic result isOpen) := by
  unfold State.winSet
  try dsimp only
  repeat' (first
    | with_reducible assumption | with_reducible apply ok_ite | with_reducible apply ok_ite_fst
    | (simp only [ok_mk, ok3_eq]) | (intro _ _ _) | (intro _ _) | split | (dsimp only))

theorem State.modReq_ok {s : State} {id : Nat} {f : Req → Req} (hok : Ok pq s) :
    Ok pq (State.modReq s id f) := by
  unfold State.modReq
  try dsimp only
  repeat' (first
    | with_reducible assumption | (simp only [ok_mk, ok3_eq]) | (intro _ _ _) | (intro _ _) | split | (dsimp only))

theorem State.endReq_ok {s : State} {id : Nat} {e : Ending} (hok : Ok pq s) :
    Ok pq (State.endReq s id e) := by
  unfold State.endReq
  try dsimp only
  repeat' (first
    | with_reducible assumption | with_reducible apply State.freeBuf_ok | (simp only [ok_mk, ok3_eq]) | (intro _ _ _)
    | (intro _ _) | split | (dsimp only))

theorem State.dropReq_ok {s : State} {id : Nat} (hok : Ok pq s) :
    Ok pq (State.dropReq s id) := by
  unfold State.dropReq
  try dsimp only
  repeat' (first
    | with_reducible assumption | with_reducible apply State.freeBuf_ok | (simp only [ok_mk, ok3_eq]) | (intro _ _ _)
    | (intro _ _) | split | (dsimp only))

theorem State.abortReqs_ok {s : State} {mine : Req → Bool} (hok : Ok pq s) :
    Ok pq (State.abortReqs s mine) := by
  unfold State.abortReqs
  try dsimp only
  repeat' (first
    | with_reducible assumption | with_reducible apply ok_ite | with_reducible apply ok_ite_fst
    | with_reducible apply ok_foldl | with_reducible apply ok_foldl_fst | with_reducible apply State.post_ok
    | with_reducible apply State.modReq_ok | with_reducible apply State.dropReq_ok | (simp only [ok_mk, ok3_eq])
    | (intro _ _ _) | (intro _ _) | split | (dsimp only))

theorem State.cancelFwd_ok {s : State} {tags : List Nat} (hok : Ok pq s) :
    Ok pq (State.cancelFwd s tags) := by
  unfold State.cancelFwd
  try dsimp only
  repeat' (first
    | with_reducible assumption | with_reducible apply ok_foldl | with_reducible apply ok_foldl_fst
    | with_reducible apply State.post_ok | with_reducible apply State.dropReq_ok | (simp only [ok_mk, ok3_eq])
    | (intro _ _ _) | (intro _ _) | split | (dsimp only))

theorem State.heatCount_ok {s : State} {region : Nat} {eng : Nat} (hok : Ok pq s) :
    Ok pq (State.heatCount s region eng) := by
  unfold State.heatCount
  try dsimp only
  repeat' (first
    | with_reducible assumption | (simp only [ok_mk, ok3_eq]) | (intro _ _ _) | (intro _ _) | split | (dsimp only))

theorem State.heatReq_ok {s : State} {r : Req} (hok : Ok pq s) :
    Ok pq (State.heatReq s r) := by
  unfold State.heatReq
  try dsimp only
  repeat' (first
    | with_reducible assumption | with_reducible apply ok_ite | with_reducible apply ok_ite_fst
    | with_reducible apply ok_foldl | with_reducible apply ok_foldl_fst | with_reducible apply State.modTile_ok
    | with_reducible apply State.heatCount_ok | (simp only [ok_mk, ok3_eq]) | (intro _ _ _) | (intro _ _) | split
    | (dsimp only))

theorem State.promoteHot_ok {s : State} {r : Req} (hok : Ok pq s) :
    Ok pq (State.promoteHot s r) := by
  unfold State.promoteHot
  try dsimp only
  repeat' (first
    | with_reducible assumption | with_reducible apply ok_ite | with_reducible apply ok_ite_fst
    | with_reducible apply ok_foldl | with_reducible apply ok_foldl_fst | with_reducible apply State.modMove_ok
    | with_reducible apply State.startMove_ok | (simp only [ok_mk, ok3_eq]) | (intro _ _ _) | (intro _ _) | split
    | (dsimp only))

theorem allReady_ok {α : Type} {f : State → α → State × Bool} {l : List α} {s : State}
    (hf : ∀ t x, Ok pq t → Ok pq (f t x).1) (hok : Ok pq s) : Ok pq (allReady f s l).1 := by
  induction l generalizing s with
  | nil => exact hok
  | cons x l ih => exact ih (hf s x hok)

theorem State.mapReady_ok {s : State} {id : Nat} (hok : Ok pq s) :
    Ok pq (State.mapReady s id).1 := by
  unfold State.mapReady
  try dsimp only
  repeat' (first
    | with_reducible assumption | with_reducible apply ok_ite | with_reducible apply ok_ite_fst
    | with_reducible apply State.mapFill_ok | with_reducible apply State.mapMiss_ok
    | with_reducible apply State.modReq_ok | with_reducible apply allReady_ok | (simp only [ok_mk, ok3_eq])
    | (intro _ _ _) | (intro _ _) | split | (dsimp only))

theorem State.mapReady_ok_of {s : State} {id : Nat} {t : State} {x : Bool} (e : State.mapReady s id = (t, x)) (hok : Ok pq s) :
    Ok pq t := by
  rw [show t = (State.mapReady s id).1 by rw [e]]
  exact State.mapReady_ok hok

theorem State.repairTile_ok {s : State} {tile : Nat} (hok : Ok pq s) :
    Ok pq (State.repairTile s tile) := by
  unfold State.repairTile
  try dsimp only
  repeat' (first
    | with_reducible assumption | with_reducible apply State.startRepair_ok | (simp only [ok_mk, ok3_eq])
    | (intro _ _ _) | (intro _ _) | split | (dsimp only))

theorem State.tileForWrite_ok {s : State} {tile : Nat} {hint : Bool} {mirror : Bool} (hok : Ok pq s) :
    Ok pq (State.tileForWrite s tile hint mirror).1 := by
  unfold State.tileForWrite
  try dsimp only
  repeat' (first
    | with_reducible assumption | with_reducible apply ok_ite | with_reducible apply ok_ite_fst
    | with_reducible apply State.post_ok | with_reducible apply State.mapFill_ok
    | with_reducible apply State.startMove_ok | with_reducible apply State.cancelEvict_ok
    | with_reducible apply State.repairTile_ok | (simp only [ok_mk, ok3_eq]) | (intro _ _ _) | (intro _ _) | split
    | (dsimp only))

theorem State.tileForWrite_ok_of {s : State} {tile : Nat} {hint : Bool} {mirror : Bool} {t : State} {x : Bool} (e : State.tileForWrite s tile hint mirror = (t, x)) (hok : Ok pq s) :
    Ok pq t := by
  rw [show t = (State.tileForWrite s tile hint mirror).1 by rw [e]]
  exact State.tileForWrite_ok hok

theorem State.lineForWrite_ok {s : State} {line : Nat} {whole : Bool} (hok : Ok pq s) :
    Ok pq (State.lineForWrite s line whole).1 := by
  unfold State.lineForWrite
  try dsimp only
  repeat' (first
    | with_reducible assumption | with_reducible apply ok_ite | with_reducible apply ok_ite_fst
    | with_reducible apply State.count_ok | with_reducible apply State.allocLine_ok
    | (with_reducible refine State.allocLine_ok_ok (by assumption) ?_)
    | (with_reducible refine State.allocLine_ok_wait (by assumption) ?_) | (simp only [ok_mk, ok3_eq]) | (intro _ _ _)
    | (intro _ _) | split | (dsimp only))

theorem State.lineForWrite_ok_of {s : State} {line : Nat} {whole : Bool} {t : State} {x : Bool} (e : State.lineForWrite s line whole = (t, x)) (hok : Ok pq s) :
    Ok pq t := by
  rw [show t = (State.lineForWrite s line whole).1 by rw [e]]
  exact State.lineForWrite_ok hok

theorem State.pieceReady_ok {s : State} {psa : Nat} {len : Nat} {hint : Bool} {mirror : Bool} (hok : Ok pq s) :
    Ok pq (State.pieceReady s psa len hint mirror).1 := by
  unfold State.pieceReady
  try dsimp only
  repeat' (first
    | with_reducible assumption | with_reducible apply ok_ite | with_reducible apply ok_ite_fst
    | with_reducible apply allReady_ok | with_reducible apply State.tileForWrite_ok
    | (with_reducible refine State.tileForWrite_ok_of (by assumption) ?_) | with_reducible apply State.lineForWrite_ok
    | (with_reducible refine State.lineForWrite_ok_of (by assumption) ?_) | (simp only [ok_mk, ok3_eq])
    | (intro _ _ _) | (intro _ _) | split | (dsimp only))

theorem State.pieceReady_ok_of {s : State} {psa : Nat} {len : Nat} {hint : Bool} {mirror : Bool} {t : State} {x : Bool} (e : State.pieceReady s psa len hint mirror = (t, x)) (hok : Ok pq s) :
    Ok pq t := by
  rw [show t = (State.pieceReady s psa len hint mirror).1 by rw [e]]
  exact State.pieceReady_ok hok

theorem State.freshReady_ok {s : State} {tile : Nat} (hok : Ok pq s) :
    Ok pq (State.freshReady s tile).1 := by
  unfold State.freshReady
  try dsimp only
  repeat' (first
    | with_reducible assumption | with_reducible apply ok_ite | with_reducible apply ok_ite_fst
    | with_reducible apply State.mapFill_ok | with_reducible apply State.startMove_ok
    | with_reducible apply State.cancelEvict_ok | with_reducible apply State.repairTile_ok
    | (simp only [ok_mk, ok3_eq]) | (intro _ _ _) | (intro _ _) | split | (dsimp only))

theorem State.freshReady_ok_of {s : State} {tile : Nat} {t : State} {x : Bool} (e : State.freshReady s tile = (t, x)) (hok : Ok pq s) :
    Ok pq t := by
  rw [show t = (State.freshReady s tile).1 by rw [e]]
  exact State.freshReady_ok hok

theorem State.freshSwitch_ok {s : State} {tile : Nat} (hok : Ok pq s) :
    Ok pq (State.freshSwitch s tile) := by
  unfold State.freshSwitch
  try dsimp only
  repeat' (first
    | with_reducible assumption | with_reducible apply ok_ite | with_reducible apply ok_ite_fst
    | with_reducible apply State.freeFrameNo_ok | with_reducible apply State.dropLines_ok
    | with_reducible apply State.nextSlot_ok | with_reducible apply State.switchDram_ok | (simp only [ok_mk, ok3_eq])
    | (intro _ _ _) | (intro _ _) | split | (dsimp only))

theorem State.opReady_ok {s : State} {op : MemOp} {psa : Nat} {len : Nat} {hint : Bool} {mirror : Bool} (hok : Ok pq s) :
    Ok pq (State.opReady s op psa len hint mirror).1 := by
  unfold State.opReady
  try dsimp only
  repeat' (first
    | with_reducible assumption | with_reducible apply allReady_ok | with_reducible apply State.pieceReady_ok
    | (with_reducible refine State.pieceReady_ok_of (by assumption) ?_) | with_reducible apply State.freshReady_ok
    | (with_reducible refine State.freshReady_ok_of (by assumption) ?_) | (simp only [ok_mk, ok3_eq]) | (intro _ _ _)
    | (intro _ _) | split | (dsimp only))

theorem State.opReady_ok_of {s : State} {op : MemOp} {psa : Nat} {len : Nat} {hint : Bool} {mirror : Bool} {t : State} {x : Bool} (e : State.opReady s op psa len hint mirror = (t, x)) (hok : Ok pq s) :
    Ok pq t := by
  rw [show t = (State.opReady s op psa len hint mirror).1 by rw [e]]
  exact State.opReady_ok hok

theorem State.opSwitch_ok {s : State} {op : MemOp} {psa : Nat} {len : Nat} (hok : Ok pq s) :
    Ok pq (State.opSwitch s op psa len) := by
  unfold State.opSwitch
  try dsimp only
  repeat' (first
    | with_reducible assumption | with_reducible apply ok_foldl | with_reducible apply ok_foldl_fst
    | with_reducible apply State.freshSwitch_ok | (simp only [ok_mk, ok3_eq]) | (intro _ _ _) | (intro _ _) | split
    | (dsimp only))

theorem State.dirtyLine_ok {s : State} {line : Nat} {isOpen : Bool} (hok : Ok pq s) :
    Ok pq (State.dirtyLine s line isOpen) := by
  unfold State.dirtyLine
  try dsimp only
  repeat' (first
    | with_reducible assumption | with_reducible apply State.setWay_ok | with_reducible apply State.touchWay_ok
    | (simp only [ok_mk, ok3_eq]) | (intro _ _ _) | (intro _ _) | split | (dsimp only))

theorem State.closeLine_ok {s : State} {line : Nat} (hok : Ok pq s) :
    Ok pq (State.closeLine s line) := by
  unfold State.closeLine
  try dsimp only
  repeat' (first
    | with_reducible assumption | with_reducible apply ok_ite | with_reducible apply ok_ite_fst
    | with_reducible apply State.setWay_ok | with_reducible apply State.freeWay_ok | (simp only [ok_mk, ok3_eq])
    | (intro _ _ _) | (intro _ _) | split | (dsimp only))

theorem State.notePoison_ok {s : State} {psa : Nat} {len : Nat} {poison : Bool} (hok : Ok pq s) :
    Ok pq (State.notePoison s psa len poison) := by
  unfold State.notePoison
  try dsimp only
  repeat' (first
    | with_reducible assumption | with_reducible apply ok_ite | with_reducible apply ok_ite_fst
    | with_reducible apply State.poisonNew_ok | with_reducible apply State.poisonDel_ok | (simp only [ok_mk, ok3_eq])
    | (intro _ _ _) | (intro _ _) | split | (dsimp only))

theorem State.noteWritten_ok {s : State} {psa : Nat} {len : Nat} (hok : Ok pq s) :
    Ok pq (State.noteWritten s psa len) := by
  unfold State.noteWritten
  try dsimp only
  repeat' (first
    | with_reducible assumption | with_reducible apply ok_ite | with_reducible apply ok_ite_fst
    | with_reducible apply ok_foldl | with_reducible apply ok_foldl_fst | (simp only [ok_mk, ok3_eq]) | (intro _ _ _)
    | (intro _ _) | split | (dsimp only))

theorem State.applyPiece_ok {s : State} {psa : Nat} {pseq : Nat} {data : List Byte} {poison : Bool} {isOpen : Bool} {sync : Bool} (hok : Ok pq s) :
    Ok pq (State.applyPiece s psa pseq data poison isOpen sync) := by
  unfold State.applyPiece
  try dsimp only
  repeat' (first
    | with_reducible assumption | with_reducible apply ok_ite | with_reducible apply ok_ite_fst
    | with_reducible apply ok_foldl | with_reducible apply ok_foldl_fst | with_reducible apply State.applyBytes_ok
    | with_reducible apply State.modTile_ok | with_reducible apply State.modMove_ok
    | with_reducible apply State.dirtyLine_ok | with_reducible apply State.notePoison_ok
    | with_reducible apply State.noteWritten_ok | (simp only [ok_mk, ok3_eq]) | (intro _ _ _) | (intro _ _) | split
    | (dsimp only))

theorem State.markSectors_ok {s : State} {secs : List Nat} (hok : Ok pq s) :
    Ok pq (State.markSectors s secs) := by
  unfold State.markSectors
  try dsimp only
  repeat' (first
    | with_reducible assumption | with_reducible apply ok_foldl | with_reducible apply ok_foldl_fst
    | with_reducible apply State.setSector_ok | with_reducible apply State.poisonNew_ok | (simp only [ok_mk, ok3_eq])
    | (intro _ _ _) | (intro _ _) | split | (dsimp only))

theorem State.sequence_ok {s : State} {id : Nat} {r : Req} {piece : Nat × Nat × Nat} (hok : Ok pq s) :
    Ok pq (State.sequence s id r piece) := by
  unfold State.sequence
  try dsimp only
  repeat' (first
    | with_reducible assumption | with_reducible apply ok_ite | with_reducible apply ok_ite_fst
    | with_reducible apply State.modRegion_ok | with_reducible apply State.send_ok
    | (with_reducible refine State.send_ok_of (by assumption) ?_) | with_reducible apply State.modReq_ok
    | with_reducible apply State.opSwitch_ok | with_reducible apply State.applyPiece_ok
    | with_reducible apply State.markSectors_ok | (simp only [ok_mk, ok3_eq]) | (intro _ _ _) | (intro _ _) | split
    | (dsimp only))

theorem State.seqPieces_ok {n : Nat} {s : State} {id : Nat} (hok : Ok pq s) : Ok pq (State.seqPieces s id n) := by
  induction n generalizing s with
  | zero => exact hok
  | succ n ih =>
    unfold State.seqPieces
    dsimp only
    repeat' (first
      | with_reducible assumption | with_reducible apply ih | with_reducible apply ok_ite | with_reducible apply State.winSet_ok
      | with_reducible apply State.sequence_ok | with_reducible apply State.modReq_ok | with_reducible apply State.endReq_ok
      | with_reducible apply State.opReady_ok | split)

theorem State.writeDone_ok {s : State} {id : Nat} (hok : Ok pq s) :
    Ok pq (State.writeDone s id) := by
  unfold State.writeDone
  try dsimp only
  repeat' (first
    | with_reducible assumption | with_reducible apply ok_ite | with_reducible apply ok_ite_fst
    | with_reducible apply State.winSet_ok | with_reducible apply State.endReq_ok | (simp only [ok_mk, ok3_eq])
    | (intro _ _ _) | (intro _ _) | split | (dsimp only))

theorem State.lookOnce_ok {s : State} {id : Nat} (hok : Ok pq s) :
    Ok pq (State.lookOnce s id) := by
  unfold State.lookOnce
  try dsimp only
  repeat' (first
    | with_reducible assumption | with_reducible apply ok_ite | with_reducible apply ok_ite_fst
    | with_reducible apply ok_foldl | with_reducible apply ok_foldl_fst | with_reducible apply State.countBy_ok
    | with_reducible apply State.touchWay_ok | with_reducible apply State.modReq_ok | (simp only [ok_mk, ok3_eq])
    | (intro _ _ _) | (intro _ _) | split | (dsimp only))

theorem State.heatOnce_ok {s : State} {id : Nat} (hok : Ok pq s) :
    Ok pq (State.heatOnce s id) := by
  unfold State.heatOnce
  try dsimp only
  repeat' (first
    | with_reducible assumption | with_reducible apply ok_ite | with_reducible apply ok_ite_fst
    | with_reducible apply State.modReq_ok | with_reducible apply State.heatReq_ok | (simp only [ok_mk, ok3_eq])
    | (intro _ _ _) | (intro _ _) | split | (dsimp only))

theorem State.forwardReq_ok {s : State} {id : Nat} {r : Req} (hok : Ok pq s) :
    Ok pq (State.forwardReq s id r) := by
  unfold State.forwardReq
  try dsimp only
  repeat' (first
    | with_reducible assumption | with_reducible apply State.send_ok
    | (with_reducible refine State.send_ok_of (by assumption) ?_) | with_reducible apply State.freeBuf_ok
    | with_reducible apply State.modReq_ok | (simp only [ok_mk, ok3_eq]) | (intro _ _ _) | (intro _ _) | split
    | (dsimp only))

theorem State.tryWrite_ok {s : State} {id : Nat} {r : Req} (hok : Ok pq s) :
    Ok pq (State.tryWrite s id r) := by
  unfold State.tryWrite
  try dsimp only
  repeat' (first
    | with_reducible assumption | with_reducible apply ok_ite | with_reducible apply ok_ite_fst
    | with_reducible apply State.countBy_ok | with_reducible apply State.endReq_ok
    | with_reducible apply State.mapReady_ok | (with_reducible refine State.mapReady_ok_of (by assumption) ?_)
    | with_reducible apply State.seqPieces_ok | with_reducible apply State.writeDone_ok
    | with_reducible apply State.lookOnce_ok | with_reducible apply State.heatOnce_ok
    | with_reducible apply State.forwardReq_ok | (simp only [ok_mk, ok3_eq]) | (intro _ _ _) | (intro _ _) | split
    | (dsimp only))

theorem State.entryApplied_ok {s : State} {tag : Nat} {n : Nat} {result : Nat} (hok : Ok pq s) :
    Ok pq (State.entryApplied s tag n result) := by
  unfold State.entryApplied
  try dsimp only
  repeat' (first
    | with_reducible assumption | with_reducible apply ok_ite | with_reducible apply ok_ite_fst
    | with_reducible apply State.modReq_ok | with_reducible apply State.endReq_ok | (simp only [ok_mk, ok3_eq])
    | (intro _ _ _) | (intro _ _) | split | (dsimp only))

theorem State.tryMirror_ok {s : State} {id : Nat} {msg : Nat} {r : Req} (hok : Ok pq s) :
    Ok pq (State.tryMirror s id msg r) := by
  unfold State.tryMirror
  try dsimp only
  repeat' (first
    | with_reducible assumption | with_reducible apply ok_ite | with_reducible apply ok_ite_fst
    | with_reducible apply State.modRegion_ok | with_reducible apply State.ackMsg_ok
    | with_reducible apply State.winSet_ok | with_reducible apply State.mapReady_ok
    | (with_reducible refine State.mapReady_ok_of (by assumption) ?_) | with_reducible apply State.opReady_ok
    | (with_reducible refine State.opReady_ok_of (by assumption) ?_) | with_reducible apply State.opSwitch_ok
    | with_reducible apply State.applyPiece_ok | with_reducible apply State.markSectors_ok
    | with_reducible apply State.lookOnce_ok | with_reducible apply State.heatOnce_ok
    | with_reducible apply State.entryApplied_ok | (simp only [ok_mk, ok3_eq]) | (intro _ _ _) | (intro _ _) | split
    | (dsimp only))

theorem State.lineForRead_ok {s : State} {r : Req} {line : Nat} (hok : Ok pq s) :
    Ok pq (State.lineForRead s r line).1 := by
  unfold State.lineForRead
  try dsimp only
  repeat' (first
    | with_reducible assumption | with_reducible apply ok_ite | with_reducible apply ok_ite_fst
    | with_reducible apply State.count_ok | with_reducible apply State.allocLine_ok
    | (with_reducible refine State.allocLine_ok_ok (by assumption) ?_)
    | (with_reducible refine State.allocLine_ok_wait (by assumption) ?_) | (simp only [ok_mk, ok3_eq]) | (intro _ _ _)
    | (intro _ _) | split | (dsimp only))

theorem State.lineForRead_ok_of {s : State} {r : Req} {line : Nat} {t : State} {x : Bool} (e : State.lineForRead s r line = (t, x)) (hok : Ok pq s) :
    Ok pq t := by
  rw [show t = (State.lineForRead s r line).1 by rw [e]]
  exact State.lineForRead_ok hok

theorem State.tileForRead_ok {s : State} {r : Req} {tile : Nat} {psa : Nat} {len : Nat} (hok : Ok pq s) :
    Ok pq (State.tileForRead s r tile psa len).1 := by
  unfold State.tileForRead
  try dsimp only
  repeat' (first
    | with_reducible assumption | with_reducible apply ok_ite | with_reducible apply ok_ite_fst
    | with_reducible apply ok_foldl | with_reducible apply ok_foldl_fst | with_reducible apply State.mapFill_ok
    | with_reducible apply allReady_ok | with_reducible apply State.repairTile_ok
    | with_reducible apply State.lineForRead_ok | (with_reducible refine State.lineForRead_ok_of (by assumption) ?_)
    | (simp only [ok_mk, ok3_eq]) | (intro _ _ _) | (intro _ _) | split | (dsimp only))

theorem State.tileForRead_ok_of {s : State} {r : Req} {tile : Nat} {psa : Nat} {len : Nat} {t : State} {x : Bool} (e : State.tileForRead s r tile psa len = (t, x)) (hok : Ok pq s) :
    Ok pq t := by
  rw [show t = (State.tileForRead s r tile psa len).1 by rw [e]]
  exact State.tileForRead_ok hok

theorem State.forwardRead_ok {s : State} {id : Nat} {r : Req} (hok : Ok pq s) :
    Ok pq (State.forwardRead s id r) := by
  unfold State.forwardRead
  try dsimp only
  repeat' (first
    | with_reducible assumption | with_reducible apply State.post_ok | with_reducible apply State.modReq_ok
    | (simp only [ok_mk, ok3_eq]) | (intro _ _ _) | (intro _ _) | split | (dsimp only))

theorem State.repairMet_ok {s : State} {r : Req} (hok : Ok pq s) :
    Ok pq (State.repairMet s r) := by
  unfold State.repairMet
  try dsimp only
  repeat' (first
    | with_reducible assumption | with_reducible apply ok_ite | with_reducible apply ok_ite_fst
    | with_reducible apply ok_foldl | with_reducible apply ok_foldl_fst | with_reducible apply State.repairTile_ok
    | (simp only [ok_mk, ok3_eq]) | (intro _ _ _) | (intro _ _) | split | (dsimp only))

theorem State.tryRead_ok {s : State} {id : Nat} {r : Req} (hok : Ok pq s) :
    Ok pq (State.tryRead s id r) := by
  unfold State.tryRead
  try dsimp only
  repeat' (first
    | with_reducible assumption | with_reducible apply ok_ite | with_reducible apply ok_ite_fst
    | with_reducible apply ok_foldl | with_reducible apply ok_foldl_fst | with_reducible apply State.endReq_ok
    | with_reducible apply State.promoteHot_ok | with_reducible apply allReady_ok
    | with_reducible apply State.mapReady_ok | (with_reducible refine State.mapReady_ok_of (by assumption) ?_)
    | with_reducible apply State.lookOnce_ok | with_reducible apply State.heatOnce_ok
    | with_reducible apply State.tileForRead_ok | (with_reducible refine State.tileForRead_ok_of (by assumption) ?_)
    | with_reducible apply State.forwardRead_ok | with_reducible apply State.repairMet_ok
    | (simp only [ok_mk, ok3_eq]) | (intro _ _ _) | (intro _ _) | split | (dsimp only))

theorem State.tryReq_ok {s : State} {id : Nat} (hok : Ok pq s) :
    Ok pq (State.tryReq s id) := by
  unfold State.tryReq
  try dsimp only
  repeat' (first
    | with_reducible assumption | with_reducible apply ok_ite | with_reducible apply ok_ite_fst
    | with_reducible apply State.tryWrite_ok | with_reducible apply State.tryMirror_ok
    | with_reducible apply State.tryRead_ok | (simp only [ok_mk, ok3_eq]) | (intro _ _ _) | (intro _ _) | split
    | (dsimp only))

theorem State.tryAll_ok {s : State} (hok : Ok pq s) :
    Ok pq (State.tryAll s) := by
  unfold State.tryAll
  try dsimp only
  repeat' (first
    | with_reducible assumption | with_reducible apply ok_foldl | with_reducible apply ok_foldl_fst
    | with_reducible apply State.tryReq_ok | (simp only [ok_mk, ok3_eq]) | (intro _ _ _) | (intro _ _) | split
    | (dsimp only))

theorem State.enter_ok {s : State} {r : Req} (hok : Ok pq s) :
    Ok pq (State.enter s r).1 := by
  unfold State.enter
  try dsimp only
  repeat' (first
    | with_reducible assumption | with_reducible apply ok_ite | with_reducible apply ok_ite_fst
    | (simp only [ok_mk, ok3_eq]) | (intro _ _ _) | (intro _ _) | split | (dsimp only))

theorem State.enter_ok_of {s : State} {r : Req} {t : State} {x : Nat} (e : State.enter s r = (t, x)) (hok : Ok pq s) :
    Ok pq t := by
  rw [show t = (State.enter s r).1 by rw [e]]
  exact State.enter_ok hok

end Sys2Proof.Machine
end

