-- ==== Sys2Proof/Laws/KeepsRepair.lean ====
section
/-! SUPPORT. The operations of Machine/Repair.lean keep memory sound and leave the queue alone. -/

namespace Sys2Proof.Machine

set_option linter.unusedVariables false
set_option linter.unusedTactic false
set_option linter.unreachableTactic false

variable {pq : List Instr}

theorem State.markBad_ok {s : State} {secs : List Nat} (hok : Ok pq s) :
    Ok pq (State.markBad s secs) := by
  unfold State.markBad
  try dsimp only
  repeat' (first
    | with_reducible assumption | with_reducible apply ok_foldl | with_reducible apply ok_foldl_fst
    | with_reducible apply State.setSector_ok | (simp only [ok_mk, ok3_eq]) | (intro _ _ _) | (intro _ _) | split
    | (dsimp only))

theorem State.clearBad_ok {s : State} {secs : List Nat} (hok : Ok pq s) :
    Ok pq (State.clearBad s secs) := by
  unfold State.clearBad
  try dsimp only
  repeat' (first
    | with_reducible assumption | with_reducible apply ok_foldl | with_reducible apply ok_foldl_fst
    | with_reducible apply State.setSector_ok | (simp only [ok_mk, ok3_eq]) | (intro _ _ _) | (intro _ _) | split
    | (dsimp only))

theorem State.poisonRun_ok {s : State} {region : Nat} {off : Nat} {run : Nat × Nat} (hok : Ok pq s) :
    Ok pq (State.poisonRun s region off run) := by
  unfold State.poisonRun
  try dsimp only
  repeat' (first
    | with_reducible assumption | with_reducible apply State.sequence_ok | with_reducible apply State.writeDone_ok
    | with_reducible apply State.enter_ok | (with_reducible refine State.enter_ok_of (by assumption) ?_)
    | (simp only [ok_mk, ok3_eq]) | (intro _ _ _) | (intro _ _) | split | (dsimp only))

theorem State.loseSectors_ok {s : State} {tile : Nat} {secs : List Nat} (hok : Ok pq s) :
    Ok pq (State.loseSectors s tile secs) := by
  unfold State.loseSectors
  try dsimp only
  repeat' (first
    | with_reducible assumption | with_reducible apply ok_ite | with_reducible apply ok_ite_fst
    | with_reducible apply ok_foldl | with_reducible apply ok_foldl_fst | with_reducible apply State.count_ok
    | with_reducible apply State.flagRecord_ok | with_reducible apply State.err1_ok
    | with_reducible apply State.poisonAdd_ok | with_reducible apply State.poisonRun_ok | (simp only [ok_mk, ok3_eq])
    | (intro _ _ _) | (intro _ _) | split | (dsimp only))

theorem State.mergeTile_ok {s : State} {tile : Nat} {valid : List Nat} {data : List Byte} {info : List SectorInfo}
    (hok : Ok pq s) : Ok pq (State.mergeTile s tile valid data info) := by
  unfold State.mergeTile
  refine ok_foldl ?_ hok
  intro t e ht
  dsimp only
  split
  · exact ht
  · split
    · exact State.markBad_ok ht
    · apply State.setSector_ok
      simp only [ok_mk]
      exact ⟨memPutBytes_wf ht.1, ht.2.1, ht.2.2⟩

theorem State.pinAfter_ok {s : State} {tile : Nat} {m : Move} {lost : Bool} (hok : Ok pq s) :
    Ok pq (State.pinAfter s tile m lost) := by
  unfold State.pinAfter
  try dsimp only
  repeat' (first
    | with_reducible assumption | with_reducible apply ok_ite | with_reducible apply ok_ite_fst
    | with_reducible apply State.joinEnd_ok | with_reducible apply State.moveJoined_ok | (simp only [ok_mk, ok3_eq])
    | (intro _ _ _) | (intro _ _) | split | (dsimp only))

theorem State.endRepair_ok {s : State} {tile : Nat} {m : Move} {frame : Nat} (hok : Ok pq s) :
    Ok pq (State.endRepair s tile m frame) := by
  unfold State.endRepair
  try dsimp only
  repeat' (first
    | with_reducible assumption | with_reducible apply State.err1_ok | with_reducible apply State.nextSlot_ok
    | with_reducible apply State.switchDram_ok | with_reducible apply State.clearBad_ok
    | with_reducible apply State.loseSectors_ok | with_reducible apply State.pinAfter_ok | (simp only [ok_mk, ok3_eq])
    | (intro _ _ _) | (intro _ _) | split | (dsimp only))

theorem State.repairReady_ok {s : State} {tile : Nat} {m : Move} (hok : Ok pq s) :
    Ok pq (State.repairReady s tile m) := by
  unfold State.repairReady
  try dsimp only
  repeat' (first
    | with_reducible assumption | with_reducible apply ok_ite | with_reducible apply ok_ite_fst
    | with_reducible apply State.moveProgram_ok | with_reducible apply State.clearBad_ok
    | with_reducible apply State.endRepair_ok | (simp only [ok_mk, ok3_eq]) | (intro _ _ _) | (intro _ _) | split
    | (dsimp only))

theorem State.finishRepairs_ok {s : State} (hok : Ok pq s) :
    Ok pq (State.finishRepairs s) := by
  unfold State.finishRepairs
  try dsimp only
  repeat' (first
    | with_reducible assumption | with_reducible apply ok_ite | with_reducible apply ok_ite_fst
    | with_reducible apply ok_foldl | with_reducible apply ok_foldl_fst | with_reducible apply State.repairReady_ok
    | (simp only [ok_mk, ok3_eq]) | (intro _ _ _) | (intro _ _) | split | (dsimp only))

theorem State.refetchServe_ok {s : State} (hok : Ok pq s) :
    Ok pq (State.refetchServe s) := by
  unfold State.refetchServe
  try dsimp only
  repeat' (first
    | with_reducible assumption | with_reducible apply ok_ite | with_reducible apply ok_ite_fst
    | with_reducible apply ok_foldl | with_reducible apply ok_foldl_fst | with_reducible apply State.repairTile_ok
    | (simp only [ok_mk, ok3_eq]) | (intro _ _ _) | (intro _ _) | split | (dsimp only))

theorem State.badRead_ok {s : State} {tile : Nat} {secs : List Nat} {retire : Bool} (hok : Ok pq s) :
    Ok pq (State.badRead s tile secs retire) := by
  unfold State.badRead
  try dsimp only
  repeat' (first
    | with_reducible assumption | with_reducible apply ok_ite | with_reducible apply ok_ite_fst
    | with_reducible apply State.err1_ok | with_reducible apply State.startRepair_ok
    | with_reducible apply State.markBad_ok | with_reducible apply State.clearBad_ok | (simp only [ok_mk, ok3_eq])
    | (intro _ _ _) | (intro _ _) | split | (dsimp only))

end Sys2Proof.Machine
end

