-- ==== Sys2Proof/Laws/KeepsCopies.lean ====
section
/-! SUPPORT. The operations of Machine/Copies.lean keep memory sound and leave the queue alone. -/

namespace Sys2Proof.Machine

set_option linter.unusedVariables false
set_option linter.unusedTactic false
set_option linter.unreachableTactic false

variable {pq : List Instr}

theorem State.poisonOwn_ok {s : State} {tile : Nat} (hok : Ok pq s) :
    Ok pq (State.poisonOwn s tile) := by
  unfold State.poisonOwn
  try dsimp only
  repeat' (first
    | with_reducible assumption | with_reducible apply ok_ite | with_reducible apply ok_ite_fst
    | with_reducible apply ok_foldl | with_reducible apply ok_foldl_fst | with_reducible apply State.poisonAdd_ok
    | with_reducible apply State.poisonRun_ok | (simp only [ok_mk, ok3_eq]) | (intro _ _ _) | (intro _ _) | split
    | (dsimp only))

theorem State.answerPull_ok {s : State} {tile : Nat} (hok : Ok pq s) :
    Ok pq (State.answerPull s tile) := by
  unfold State.answerPull
  try dsimp only
  repeat' (first
    | with_reducible assumption | with_reducible apply State.send_ok
    | (with_reducible refine State.send_ok_of (by assumption) ?_) | with_reducible apply State.poisonOwn_ok
    | (simp only [ok_mk, ok3_eq]) | (intro _ _ _) | (intro _ _) | split | (dsimp only))

theorem State.pullPoll_ok {s : State} (hok : Ok pq s) :
    Ok pq (State.pullPoll s) := by
  unfold State.pullPoll
  try dsimp only
  repeat' (first
    | with_reducible assumption | with_reducible apply ok_ite | with_reducible apply ok_ite_fst
    | with_reducible apply ok_foldl | with_reducible apply ok_foldl_fst | with_reducible apply State.answerPull_ok
    | (simp only [ok_mk, ok3_eq]) | (intro _ _ _) | (intro _ _) | split | (dsimp only))

theorem State.mergeIn_ok {s : State} {seq : Nat} {x : TileIn} (hok : Ok pq s) :
    Ok pq (State.mergeIn s seq x) := by
  unfold State.mergeIn
  try dsimp only
  repeat' (first
    | with_reducible assumption | with_reducible apply State.ackMsg_ok | with_reducible apply State.modTile_ok
    | with_reducible apply State.mergeTile_ok | (simp only [ok_mk, ok3_eq]) | (intro _ _ _) | (intro _ _) | split
    | (dsimp only))

theorem State.tilePoll_ok {s : State} (hok : Ok pq s) :
    Ok pq (State.tilePoll s) := by
  unfold State.tilePoll
  try dsimp only
  repeat' (first
    | with_reducible assumption | with_reducible apply ok_ite | with_reducible apply ok_ite_fst
    | with_reducible apply ok_foldl | with_reducible apply ok_foldl_fst | with_reducible apply State.tileForWrite_ok
    | (with_reducible refine State.tileForWrite_ok_of (by assumption) ?_) | with_reducible apply State.mergeIn_ok
    | (simp only [ok_mk, ok3_eq]) | (intro _ _ _) | (intro _ _) | split | (dsimp only))

theorem State.copyPoll_ok {s : State} (hok : Ok pq s) :
    Ok pq (State.copyPoll s) := by
  unfold State.copyPoll
  try dsimp only
  repeat' (first
    | with_reducible assumption | with_reducible apply State.pullPoll_ok | with_reducible apply State.tilePoll_ok
    | (simp only [ok_mk, ok3_eq]) | (intro _ _ _) | (intro _ _) | split | (dsimp only))

end Sys2Proof.Machine
end

