-- ==== Sys2Proof/Laws/KeepsBack.lean ====
section
/-! SUPPORT. The operations of Machine/Back.lean keep memory sound and leave the queue alone. -/

namespace Sys2Proof.Machine

set_option linter.unusedVariables false
set_option linter.unusedTactic false
set_option linter.unreachableTactic false

variable {pq : List Instr}

theorem State.grantLd_ok {s : State} {ld : Nat} (hok : Ok pq s) :
    Ok pq (State.grantLd s ld) := by
  unfold State.grantLd
  try dsimp only
  repeat' (first
    | with_reducible assumption | with_reducible apply ok_ite | with_reducible apply ok_ite_fst
    | (simp only [ok_mk, ok3_eq]) | (intro _ _ _) | (intro _ _) | split | (dsimp only))

theorem State.grantCredits_ok {s : State} (hok : Ok pq s) :
    Ok pq (State.grantCredits s) := by
  unfold State.grantCredits
  try dsimp only
  repeat' (first
    | with_reducible assumption | with_reducible apply ok_foldl | with_reducible apply ok_foldl_fst
    | with_reducible apply State.grantLd_ok | (simp only [ok_mk, ok3_eq]) | (intro _ _ _) | (intro _ _) | split
    | (dsimp only))

theorem State.useCredit_ok {s : State} {ld : Nat} {write : Bool} (hok : Ok pq s) :
    Ok pq (State.useCredit s ld write) := by
  unfold State.useCredit
  try dsimp only
  repeat' (first
    | with_reducible assumption | with_reducible apply ok_ite | with_reducible apply ok_ite_fst
    | (simp only [ok_mk, ok3_eq]) | (intro _ _ _) | (intro _ _) | split | (dsimp only))

end Sys2Proof.Machine
end

