-- ==== Sys2Proof/Laws/KeepsDram.lean ====
section
/-! SUPPORT. The operations of Machine/Dram.lean keep memory sound and leave the queue alone. -/

namespace Sys2Proof.Machine

set_option linter.unusedVariables false
set_option linter.unusedTactic false
set_option linter.unreachableTactic false

variable {pq : List Instr}

theorem State.modChan_ok {s : State} {n : Nat} {f : Chan → Chan} (hok : Ok pq s) :
    Ok pq (State.modChan s n f) := by
  unfold State.modChan
  try dsimp only
  repeat' (first
    | with_reducible assumption | (simp only [ok_mk, ok3_eq]) | (intro _ _ _) | (intro _ _) | split | (dsimp only))

theorem State.refreshes_ok {k : Nat} {s : State} {n rank : Nat} (hok : Ok pq s) : Ok pq (State.refreshes s n rank k) := by
  induction k generalizing s with
  | zero => exact hok
  | succ k ih => exact ih (State.emit_ok hok)

theorem State.issue_ok {s : State} {n : Nat} {c : Chan} {r : DReq} (hok : Ok pq s) :
    Ok pq (State.issue s n c r) := by
  unfold State.issue
  try dsimp only
  repeat' (first
    | with_reducible assumption | with_reducible apply ok_ite | with_reducible apply ok_ite_fst
    | with_reducible apply State.count_ok | with_reducible apply State.flag_ok | with_reducible apply State.modChan_ok
    | with_reducible apply State.refreshes_ok | (simp only [ok_mk, ok3_eq]) | (intro _ _ _) | (intro _ _) | split
    | (dsimp only))

theorem State.issueBack_ok {k : Nat} {s : State} {n : Nat} (hok : Ok pq s) : Ok pq (State.issueBack s n k) := by
  induction k generalizing s with
  | zero => exact hok
  | succ k ih =>
    unfold State.issueBack
    dsimp only
    repeat' (first
      | with_reducible assumption | with_reducible apply ih | with_reducible apply ok_ite | with_reducible apply State.issue_ok
      | with_reducible apply State.modChan_ok | split)

theorem State.chanStep_ok {s : State} {n : Nat} (hok : Ok pq s) :
    Ok pq (State.chanStep s n) := by
  unfold State.chanStep
  try dsimp only
  repeat' (first
    | with_reducible assumption | with_reducible apply ok_ite | with_reducible apply ok_ite_fst
    | with_reducible apply State.modChan_ok | with_reducible apply State.issueBack_ok | (simp only [ok_mk, ok3_eq])
    | (intro _ _ _) | (intro _ _) | split | (dsimp only))

theorem State.served_ok {s : State} {n : Nat} {port : Nat} {line : Nat} {t : State} (e : State.served s n port line = some t) (hok : Ok pq s) :
    Ok pq t := by
  unfold State.served at e
  try dsimp only at e
  repeat' split at e
  all_goals first | (simp at e; done) | (simp only [Option.some.injEq] at e; subst e)
  repeat' (first
    | with_reducible assumption | with_reducible apply ok_ite | with_reducible apply ok_ite_fst
    | with_reducible apply State.issue_ok | with_reducible apply State.chanStep_ok | (simp only [ok_mk, ok3_eq])
    | (intro _ _ _) | (intro _ _) | split | (dsimp only))

theorem State.sleepNow_ok {s : State} {n : Nat} (hok : Ok pq s) :
    Ok pq (State.sleepNow s n) := by
  unfold State.sleepNow
  try dsimp only
  repeat' (first
    | with_reducible assumption | with_reducible apply ok_ite | with_reducible apply ok_ite_fst
    | with_reducible apply ok_foldl | with_reducible apply ok_foldl_fst | with_reducible apply State.modChan_ok
    | with_reducible apply State.refreshes_ok | with_reducible apply State.selfRefresh_ok
    | (simp only [ok_mk, ok3_eq]) | (intro _ _ _) | (intro _ _) | split | (dsimp only))

theorem State.chanPoll_ok {s : State} (hok : Ok pq s) :
    Ok pq (State.chanPoll s) := by
  unfold State.chanPoll
  try dsimp only
  repeat' (first
    | with_reducible assumption | with_reducible apply ok_foldl | with_reducible apply ok_foldl_fst
    | with_reducible apply State.modChan_ok | with_reducible apply State.chanStep_ok
    | with_reducible apply State.sleepNow_ok | (simp only [ok_mk, ok3_eq]) | (intro _ _ _) | (intro _ _) | split
    | (dsimp only))

theorem State.dmcFail_ok {s : State} {n : Nat} {ca : Nat} {kind : Nat} {counted : Bool} (hok : Ok pq s) :
    Ok pq (State.dmcFail s n ca kind counted) := by
  unfold State.dmcFail
  try dsimp only
  repeat' (first
    | with_reducible assumption | with_reducible apply ok_ite | with_reducible apply ok_ite_fst
    | with_reducible apply State.setReg_ok | with_reducible apply State.modChan_ok | (simp only [ok_mk, ok3_eq])
    | (intro _ _ _) | (intro _ _) | split | (dsimp only))

theorem State.dmcBad_ok {s : State} {n : Nat} {ca : Nat} {parity : Bool} (hok : Ok pq s) :
    Ok pq (State.dmcBad s n ca parity) := by
  unfold State.dmcBad
  try dsimp only
  repeat' (first
    | with_reducible assumption | with_reducible apply ok_ite | with_reducible apply ok_ite_fst
    | with_reducible apply State.count_ok | with_reducible apply State.flag_ok | with_reducible apply State.modChan_ok
    | with_reducible apply State.dmcFail_ok | (simp only [ok_mk, ok3_eq]) | (intro _ _ _) | (intro _ _) | split
    | (dsimp only))

theorem State.chiveHits_ok {s : State} {n : Nat} {frame : Nat} (hok : Ok pq s) :
    Ok pq (State.chiveHits s n frame) := by
  unfold State.chiveHits
  try dsimp only
  repeat' (first
    | with_reducible assumption | with_reducible apply State.countBy_ok | (simp only [ok_mk, ok3_eq]) | (intro _ _ _)
    | (intro _ _) | split | (dsimp only))

end Sys2Proof.Machine
end

