-- ==== Sys2Proof/Laws/KeepsNetCore.lean ====
section
/-! SUPPORT. The operations of Machine/NetCore.lean keep memory sound and leave the queue alone. -/

namespace Sys2Proof.Machine

set_option linter.unusedVariables false
set_option linter.unusedTactic false
set_option linter.unreachableTactic false

variable {pq : List Instr}

theorem State.modPort_ok {s : State} {n : Nat} {f : NetPort → NetPort} (hok : Ok pq s) :
    Ok pq (State.modPort s n f) := by
  unfold State.modPort
  try dsimp only
  repeat' (first
    | with_reducible assumption | (simp only [ok_mk, ok3_eq]) | (intro _ _ _) | (intro _ _) | split | (dsimp only))

theorem State.txPkt_ok {s : State} {n : Nat} {prio : Nat} {bytes : Nat} {o : Output} (hok : Ok pq s) :
    Ok pq (State.txPkt s n prio bytes o) := by
  unfold State.txPkt
  try dsimp only
  repeat' (first
    | with_reducible assumption | with_reducible apply ok_ite | with_reducible apply ok_ite_fst
    | with_reducible apply State.emit_ok | with_reducible apply State.modPort_ok | (simp only [ok_mk, ok3_eq])
    | (intro _ _ _) | (intro _ _) | split | (dsimp only))

theorem State.drainPort_ok {k : Nat} {s : State} {n : Nat} (hok : Ok pq s) : Ok pq (State.drainPort s n k) := by
  induction k generalizing s with
  | zero => exact hok
  | succ k ih =>
    unfold State.drainPort
    repeat' (first
      | with_reducible assumption | with_reducible apply ih | with_reducible apply ok_ite | with_reducible apply State.emit_ok
      | with_reducible apply State.modPort_ok | split)

theorem State.drainTx_ok {s : State} {n : Nat} (hok : Ok pq s) :
    Ok pq (State.drainTx s n) := by
  unfold State.drainTx
  try dsimp only
  repeat' (first
    | with_reducible assumption | with_reducible apply State.drainPort_ok | (simp only [ok_mk, ok3_eq])
    | (intro _ _ _) | (intro _ _) | split | (dsimp only))

theorem State.sendPkt_ok {s : State} {qpn : Nat} {bytes : Nat} {o : Pkt → Output} (hok : Ok pq s) :
    Ok pq (State.sendPkt s qpn bytes o) := by
  unfold State.sendPkt
  try dsimp only
  repeat' (first
    | with_reducible assumption | with_reducible apply ok_ite | with_reducible apply ok_ite_fst
    | with_reducible apply State.txPkt_ok | (simp only [ok_mk, ok3_eq]) | (intro _ _ _) | (intro _ _) | split
    | (dsimp only))

theorem State.lldpSend_ok {s : State} {n : Nat} (hok : Ok pq s) :
    Ok pq (State.lldpSend s n) := by
  unfold State.lldpSend
  try dsimp only
  repeat' (first
    | with_reducible assumption | with_reducible apply ok_ite | with_reducible apply ok_ite_fst
    | with_reducible apply State.emit_ok | (simp only [ok_mk, ok3_eq]) | (intro _ _ _) | (intro _ _) | split
    | (dsimp only))

theorem State.lldpPoll_ok {s : State} (hok : Ok pq s) :
    Ok pq (State.lldpPoll s) := by
  unfold State.lldpPoll
  try dsimp only
  repeat' (first
    | with_reducible assumption | with_reducible apply ok_ite | with_reducible apply ok_ite_fst
    | with_reducible apply ok_foldl | with_reducible apply ok_foldl_fst | with_reducible apply State.lldpSend_ok
    | (simp only [ok_mk, ok3_eq]) | (intro _ _ _) | (intro _ _) | split | (dsimp only))

end Sys2Proof.Machine
end

