-- ==== Sys2Proof/Laws/KeepsRdmaCore.lean ====
section
/-! SUPPORT. The operations of Machine/RdmaCore.lean keep memory sound and leave the queue alone. -/

namespace Sys2Proof.Machine

set_option linter.unusedVariables false
set_option linter.unusedTactic false
set_option linter.unreachableTactic false

variable {pq : List Instr}

theorem State.withAny_ok {s : State} {qpn : Nat} {f : State → Qp → State} (hok : Ok pq s) (hf : ∀ t0 t1, Ok pq t0 → Ok pq (f t0 t1)) :
    Ok pq (State.withAny s qpn f) := by
  unfold State.withAny
  try dsimp only
  repeat' (first
    | with_reducible assumption | with_reducible apply ok_ite | with_reducible apply ok_ite_fst
    | with_reducible apply State.count_ok | with_reducible apply hf | (simp only [ok_mk, ok3_eq]) | (intro _ _ _)
    | (intro _ _) | split | (dsimp only))

theorem State.withQp_ok {s : State} {qpn : Nat} {f : State → Qp → State} (hok : Ok pq s) (hf : ∀ t0 t1, Ok pq t0 → Ok pq (f t0 t1)) :
    Ok pq (State.withQp s qpn f) := by
  unfold State.withQp
  try dsimp only
  repeat' (first
    | with_reducible assumption | with_reducible apply ok_ite | with_reducible apply ok_ite_fst
    | with_reducible apply State.withAny_ok | with_reducible apply hf | (simp only [ok_mk, ok3_eq]) | (intro _ _ _)
    | (intro _ _) | split | (dsimp only))

theorem State.modQp_ok {s : State} {qpn : Nat} {f : Qp → Qp} (hok : Ok pq s) :
    Ok pq (State.modQp s qpn f) := by
  unfold State.modQp
  try dsimp only
  repeat' (first
    | with_reducible assumption | (simp only [ok_mk, ok3_eq]) | (intro _ _ _) | (intro _ _) | split | (dsimp only))

theorem State.qpSend_ok {s : State} {qpn : Nat} {psn : Nat} {r : RdmaResp} (hok : Ok pq s) :
    Ok pq (State.qpSend s qpn psn r) := by
  unfold State.qpSend
  try dsimp only
  repeat' (first
    | with_reducible assumption | with_reducible apply ok_foldl | with_reducible apply ok_foldl_fst
    | with_reducible apply State.sendPkt_ok | (simp only [ok_mk, ok3_eq]) | (intro _ _ _) | (intro _ _) | split
    | (dsimp only))

theorem State.qpEnter_ok {s : State} {qpn : Nat} {st : QpState} (hok : Ok pq s) :
    Ok pq (State.qpEnter s qpn st) := by
  unfold State.qpEnter
  try dsimp only
  repeat' (first
    | with_reducible assumption | with_reducible apply State.abortReqs_ok | with_reducible apply State.modQp_ok
    | (simp only [ok_mk, ok3_eq]) | (intro _ _ _) | (intro _ _) | split | (dsimp only))

theorem State.ctrLimit_ok {s : State} {qpn : Nat} (hok : Ok pq s) :
    Ok pq (State.ctrLimit s qpn) := by
  unfold State.ctrLimit
  try dsimp only
  repeat' (first
    | with_reducible assumption | with_reducible apply ok_ite | with_reducible apply ok_ite_fst
    | with_reducible apply State.qpEnter_ok | (simp only [ok_mk, ok3_eq]) | (intro _ _ _) | (intro _ _) | split
    | (dsimp only))

theorem State.wcmSend_ok {s : State} {qpn : Nat} {type : Nat} {tag : Nat} {status : Nat} {len : Nat} {fields : List (Nat × Nat × Nat)} (hok : Ok pq s) :
    Ok pq (State.wcmSend s qpn type tag status len fields) := by
  unfold State.wcmSend
  try dsimp only
  repeat' (first
    | with_reducible assumption | with_reducible apply State.sendPkt_ok | with_reducible apply State.modQp_ok
    | with_reducible apply State.ctrLimit_ok | (simp only [ok_mk, ok3_eq]) | (intro _ _ _) | (intro _ _) | split
    | (dsimp only))

theorem sendDue_ok {qpn : Nat} {l : List RespEnt} {s : State} (hok : Ok pq s) : Ok pq (sendDue qpn l s).1 := by
  induction l generalizing s with
  | nil => exact hok
  | cons x l ih =>
    unfold sendDue
    split
    · split
      · exact State.qpSend_ok hok
      · exact ih (State.qpSend_ok hok)
    · exact hok

theorem State.flushResps_ok {s : State} {qpn : Nat} (hok : Ok pq s) :
    Ok pq (State.flushResps s qpn) := by
  unfold State.flushResps
  try dsimp only
  repeat' (first
    | with_reducible assumption | with_reducible apply ok_ite | with_reducible apply ok_ite_fst
    | with_reducible apply State.modQp_ok | with_reducible apply State.qpEnter_ok
    | with_reducible apply State.ctrLimit_ok | with_reducible apply sendDue_ok | (simp only [ok_mk, ok3_eq])
    | (intro _ _ _) | (intro _ _) | split | (dsimp only))

theorem State.addResp_ok {s : State} {qpn : Nat} {psn : Nat} {r : RdmaResp} {due : Bool} (hok : Ok pq s) :
    Ok pq (State.addResp s qpn psn r due) := by
  unfold State.addResp
  try dsimp only
  repeat' (first
    | with_reducible assumption | with_reducible apply State.modQp_ok | with_reducible apply State.flushResps_ok
    | (simp only [ok_mk, ok3_eq]) | (intro _ _ _) | (intro _ _) | split | (dsimp only))

theorem State.respDue_ok {s : State} {qpn : Nat} {psn : Nat} {r : RdmaResp} (hok : Ok pq s) :
    Ok pq (State.respDue s qpn psn r) := by
  unfold State.respDue
  try dsimp only
  repeat' (first
    | with_reducible assumption | with_reducible apply ok_ite | with_reducible apply ok_ite_fst
    | with_reducible apply State.modQp_ok | with_reducible apply State.flushResps_ok | (simp only [ok_mk, ok3_eq])
    | (intro _ _ _) | (intro _ _) | split | (dsimp only))

theorem State.rdmaEnded_ok {s : State} {qpn : Nat} {psn : Nat} {r : Req} {e : Ending} (hok : Ok pq s) :
    Ok pq (State.rdmaEnded s qpn psn r e) := by
  unfold State.rdmaEnded
  try dsimp only
  repeat' (first
    | with_reducible assumption | with_reducible apply ok_ite | with_reducible apply ok_ite_fst
    | with_reducible apply State.err1_ok | with_reducible apply State.respDue_ok | (simp only [ok_mk, ok3_eq])
    | (intro _ _ _) | (intro _ _) | split | (dsimp only))

end Sys2Proof.Machine
end

