-- ==== Sys2Proof/Laws/KeepsTqCore.lean ====
section
/-! SUPPORT. The operations of Machine/TqCore.lean keep memory sound and leave the queue alone. -/

namespace Sys2Proof.Machine

set_option linter.unusedVariables false
set_option linter.unusedTactic false
set_option linter.unreachableTactic false

variable {pq : List Instr}

theorem State.ringPut_ok {s : State} {region base k : Nat} {bs : List Byte} (hok : Ok pq s) :
    Ok pq (State.ringPut s region base k bs) := by
  refine ⟨?_, hok.2.1, hok.2.2⟩
  have h : ∀ (l : List (Byte × Nat)) (m : List Host.Cell), memWf m = true →
      memWf (l.foldl (fun m p => memPut m (s.ringPsa region base (k + p.2)) p.1) m) = true := by
    intro l
    induction l with
    | nil => exact fun m hm => hm
    | cons x l ih => exact fun m hm => ih _ (memPut_wf hm)
  exact h _ _ hok.1

theorem State.modSq_ok {s : State} {sq : Nat} {f : Sq → Sq} (hok : Ok pq s) :
    Ok pq (State.modSq s sq f) := by
  unfold State.modSq
  try dsimp only
  repeat' (first
    | with_reducible assumption | (simp only [ok_mk, ok3_eq]) | (intro _ _ _) | (intro _ _) | split | (dsimp only))

theorem State.sqPublish_ok {s : State} {sq : Nat} (hok : Ok pq s) :
    Ok pq (State.sqPublish s sq) := by
  unfold State.sqPublish
  try dsimp only
  repeat' (first
    | with_reducible assumption | with_reducible apply State.ringPut_ok | (simp only [ok_mk, ok3_eq]) | (intro _ _ _)
    | (intro _ _) | split | (dsimp only))

theorem State.modCmd_ok {s : State} {n : Nat} {f : Cmd → Cmd} (hok : Ok pq s) :
    Ok pq (State.modCmd s n f) := by
  unfold State.modCmd
  try dsimp only
  repeat' (first
    | with_reducible assumption | (simp only [ok_mk, ok3_eq]) | (intro _ _ _) | (intro _ _) | split | (dsimp only))

theorem State.takeChannel_ok {s : State} {n : Nat} {c : Cmd} {ch : Nat} (hok : Ok pq s) :
    Ok pq (State.takeChannel s n c ch) := by
  unfold State.takeChannel
  try dsimp only
  repeat' (first
    | with_reducible assumption | with_reducible apply State.setReg_ok | with_reducible apply State.modCmd_ok
    | (simp only [ok_mk, ok3_eq]) | (intro _ _ _) | (intro _ _) | split | (dsimp only))

theorem State.endChannel_ok {s : State} {n : Nat} {c : Cmd} {crc : Nat} (hok : Ok pq s) :
    Ok pq (State.endChannel s n c crc) := by
  unfold State.endChannel
  try dsimp only
  repeat' (first
    | with_reducible assumption | with_reducible apply ok_ite | with_reducible apply ok_ite_fst
    | with_reducible apply State.setFld_ok | with_reducible apply State.setBit_ok
    | with_reducible apply State.count_ok | with_reducible apply State.setReg64_ok
    | with_reducible apply State.flag_ok | with_reducible apply State.modCmd_ok | (simp only [ok_mk, ok3_eq])
    | (intro _ _ _) | (intro _ _) | split | (dsimp only))

theorem State.dropChannel_ok {s : State} {n : Nat} {c : Cmd} (hok : Ok pq s) :
    Ok pq (State.dropChannel s n c) := by
  unfold State.dropChannel
  try dsimp only
  repeat' (first
    | with_reducible assumption | with_reducible apply State.setFld_ok | with_reducible apply State.modCmd_ok
    | (simp only [ok_mk, ok3_eq]) | (intro _ _ _) | (intro _ _) | split | (dsimp only))

theorem State.modCq_ok {s : State} {cq : Nat} {f : Cq → Cq} (hok : Ok pq s) :
    Ok pq (State.modCq s cq f) := by
  unfold State.modCq
  try dsimp only
  repeat' (first
    | with_reducible assumption | (simp only [ok_mk, ok3_eq]) | (intro _ _ _) | (intro _ _) | split | (dsimp only))

theorem State.rdmaRecord_ok {s : State} {tg : Target} {cq : Nat} {c : Cq} {seq : Nat} {r : CqRec} {imm : Option Nat} (hok : Ok pq s) :
    Ok pq (State.rdmaRecord s tg cq c seq r imm) := by
  unfold State.rdmaRecord
  try dsimp only
  repeat' (first
    | with_reducible assumption | with_reducible apply State.sendPkt_ok | with_reducible apply State.ctrLimit_ok
    | (simp only [ok_mk, ok3_eq]) | (intro _ _ _) | (intro _ _) | split | (dsimp only))

theorem State.putRecord_ok {s : State} {cq : Nat} {c : Cq} {seq : Nat} {r : CqRec} (hok : Ok pq s) :
    Ok pq (State.putRecord s cq c seq r) := by
  unfold State.putRecord
  try dsimp only
  repeat' (first
    | with_reducible assumption | with_reducible apply ok_ite | with_reducible apply ok_ite_fst
    | with_reducible apply State.emit_ok | with_reducible apply State.modCq_ok
    | with_reducible apply State.rdmaRecord_ok | (simp only [ok_mk, ok3_eq]) | (intro _ _ _) | (intro _ _) | split
    | (dsimp only))

theorem State.cqSignal_ok {s : State} {cq : Nat} {c : Cq} {seq : Nat} (hok : Ok pq s) :
    Ok pq (State.cqSignal s cq c seq) := by
  unfold State.cqSignal
  try dsimp only
  repeat' (first
    | with_reducible assumption | with_reducible apply ok_ite | with_reducible apply ok_ite_fst
    | with_reducible apply State.emit_ok | with_reducible apply State.modCq_ok
    | with_reducible apply State.rdmaRecord_ok | (simp only [ok_mk, ok3_eq]) | (intro _ _ _) | (intro _ _) | split
    | (dsimp only))

theorem State.recordAgain_ok {s : State} {qpn : Nat} {x : Nat × Nat × Nat} (hok : Ok pq s) :
    Ok pq (State.recordAgain s qpn x) := by
  unfold State.recordAgain
  try dsimp only
  repeat' (first
    | with_reducible assumption | with_reducible apply ok_ite | with_reducible apply ok_ite_fst
    | with_reducible apply State.count_ok | with_reducible apply State.sendPkt_ok | (simp only [ok_mk, ok3_eq])
    | (intro _ _ _) | (intro _ _) | split | (dsimp only))

theorem State.cqSend_ok {n : Nat} {s : State} {cq : Nat} (hok : Ok pq s) : Ok pq (State.cqSend s cq n) := by
  induction n generalizing s with
  | zero => exact hok
  | succ n ih =>
    unfold State.cqSend
    dsimp only
    repeat' (first
      | with_reducible assumption | with_reducible apply ih | with_reducible apply ok_ite | with_reducible apply State.modCq_ok
      | with_reducible apply State.post_ok | with_reducible apply State.putRecord_ok | split)

theorem State.cqPump_ok {s : State} {cq : Nat} (hok : Ok pq s) :
    Ok pq (State.cqPump s cq) := by
  unfold State.cqPump
  try dsimp only
  repeat' (first
    | with_reducible assumption | with_reducible apply State.cqSend_ok | (simp only [ok_mk, ok3_eq]) | (intro _ _ _)
    | (intro _ _) | split | (dsimp only))

theorem State.cqResend_ok {s : State} {cq : Nat} (hok : Ok pq s) :
    Ok pq (State.cqResend s cq) := by
  unfold State.cqResend
  try dsimp only
  repeat' (first
    | with_reducible assumption | with_reducible apply State.modCq_ok | with_reducible apply State.cqPump_ok
    | (simp only [ok_mk, ok3_eq]) | (intro _ _ _) | (intro _ _) | split | (dsimp only))

theorem State.resendAll_ok {s : State} (hok : Ok pq s) :
    Ok pq (State.resendAll s) := by
  unfold State.resendAll
  try dsimp only
  repeat' (first
    | with_reducible assumption | with_reducible apply ok_foldl | with_reducible apply ok_foldl_fst
    | with_reducible apply State.cqResend_ok | (simp only [ok_mk, ok3_eq]) | (intro _ _ _) | (intro _ _) | split
    | (dsimp only))

theorem State.resendFor_ok {s : State} {kind : Nat} {id : Nat} (hok : Ok pq s) :
    Ok pq (State.resendFor s kind id) := by
  unfold State.resendFor
  try dsimp only
  repeat' (first
    | with_reducible assumption | with_reducible apply ok_ite | with_reducible apply ok_ite_fst
    | with_reducible apply ok_foldl | with_reducible apply ok_foldl_fst | with_reducible apply State.cqResend_ok
    | (simp only [ok_mk, ok3_eq]) | (intro _ _ _) | (intro _ _) | split | (dsimp only))

theorem State.cqAssign_ok {s : State} {cq : Nat} {seq : Nat} {r : CqRec} (hok : Ok pq s) :
    Ok pq (State.cqAssign s cq seq r) := by
  unfold State.cqAssign
  try dsimp only
  repeat' (first
    | with_reducible assumption | with_reducible apply State.ringPut_ok | with_reducible apply State.modCq_ok
    | (simp only [ok_mk, ok3_eq]) | (intro _ _ _) | (intro _ _) | split | (dsimp only))

theorem State.seqAsk_ok {s : State} {sq : Nat} {pos : Nat} {cq : Nat} {r : CqRec} (hok : Ok pq s) :
    Ok pq (State.seqAsk s sq pos cq r).1 := by
  unfold State.seqAsk
  try dsimp only
  repeat' (first
    | with_reducible assumption | with_reducible apply ok_ite | with_reducible apply ok_ite_fst
    | with_reducible apply State.send_ok | (with_reducible refine State.send_ok_of (by assumption) ?_)
    | with_reducible apply State.cqAssign_ok | (simp only [ok_mk, ok3_eq]) | (intro _ _ _) | (intro _ _) | split
    | (dsimp only))

theorem State.seqAsk_ok_of {s : State} {sq : Nat} {pos : Nat} {cq : Nat} {r : CqRec} {t : State} {x : Nat × Nat} (e : State.seqAsk s sq pos cq r = (t, x)) (hok : Ok pq s) :
    Ok pq t := by
  rw [show t = (State.seqAsk s sq pos cq r).1 by rw [e]]
  exact State.seqAsk_ok hok

theorem State.tqFinish_ok {s : State} {n : Nat} {c : Cmd} {status : Nat} {result : Nat} (hok : Ok pq s) :
    Ok pq (State.tqFinish s n c status result) := by
  unfold State.tqFinish
  try dsimp only
  repeat' (first
    | with_reducible assumption | with_reducible apply ok_ite | with_reducible apply ok_ite_fst
    | with_reducible apply State.flag_ok | with_reducible apply State.modCmd_ok
    | with_reducible apply State.dropChannel_ok | with_reducible apply State.seqAsk_ok
    | (with_reducible refine State.seqAsk_ok_of (by assumption) ?_) | (simp only [ok_mk, ok3_eq]) | (intro _ _ _)
    | (intro _ _) | split | (dsimp only))

theorem State.tqOpen_ok {s : State} {n : Nat} {c : Cmd} {status : Nat} (hok : Ok pq s) :
    Ok pq (State.tqOpen s n c status) := by
  unfold State.tqOpen
  try dsimp only
  repeat' (first
    | with_reducible assumption | with_reducible apply State.draw_ok
    | (with_reducible refine State.draw_ok_of (by assumption) ?_) | with_reducible apply State.tqFinish_ok
    | (simp only [ok_mk, ok3_eq]) | (intro _ _ _) | (intro _ _) | split | (dsimp only))

theorem State.seqDone_ok {s : State} {sq : Nat} {pos : Nat} {seq : Nat} {note : Bool} (hok : Ok pq s) :
    Ok pq (State.seqDone s sq pos seq note) := by
  unfold State.seqDone
  try dsimp only
  repeat' (first
    | with_reducible assumption | with_reducible apply ok_ite | with_reducible apply ok_ite_fst
    | with_reducible apply State.modSq_ok | with_reducible apply State.sqPublish_ok | (simp only [ok_mk, ok3_eq])
    | (intro _ _ _) | (intro _ _) | split | (dsimp only))

theorem State.onComplete_ok {s : State} {sq : Nat} {pos : Nat} {r : CqRec} {cq : Nat} {seq : Nat} (hok : Ok pq s) :
    Ok pq (State.onComplete s sq pos r cq seq) := by
  unfold State.onComplete
  try dsimp only
  repeat' (first
    | with_reducible assumption | with_reducible apply ok_ite | with_reducible apply ok_ite_fst
    | with_reducible apply State.post_ok | with_reducible apply State.cqAssign_ok
    | with_reducible apply State.seqDone_ok | (simp only [ok_mk, ok3_eq]) | (intro _ _ _) | (intro _ _) | split
    | (dsimp only))

theorem State.onAssigned_ok {s : State} {sq : Nat} {pos : Nat} {r : CqRec} {cq : Nat} {seq : Nat} (hok : Ok pq s) :
    Ok pq (State.onAssigned s sq pos r cq seq) := by
  unfold State.onAssigned
  try dsimp only
  repeat' (first
    | with_reducible assumption | with_reducible apply ok_ite | with_reducible apply ok_ite_fst
    | with_reducible apply State.cqAssign_ok | with_reducible apply State.seqDone_ok | (simp only [ok_mk, ok3_eq])
    | (intro _ _ _) | (intro _ _) | split | (dsimp only))

theorem State.seqAlone_ok {s : State} (hok : Ok pq s) :
    Ok pq (State.seqAlone s) := by
  unfold State.seqAlone
  try dsimp only
  repeat' (first
    | with_reducible assumption | with_reducible apply ok_ite | with_reducible apply ok_ite_fst
    | with_reducible apply ok_foldl | with_reducible apply ok_foldl_fst | with_reducible apply State.modCmd_ok
    | with_reducible apply State.seqAsk_ok | (with_reducible refine State.seqAsk_ok_of (by assumption) ?_)
    | (simp only [ok_mk, ok3_eq]) | (intro _ _ _) | (intro _ _) | split | (dsimp only))

theorem State.tqAsk_ok {s : State} {n : Nat} {host : Nat} {op : MemOp} {rg : Nat × Nat × Nat} {segs : List (Nat × Nat)} {data : List Byte} {marks : List Bool} (hok : Ok pq s) :
    Ok pq (State.tqAsk s n host op rg segs data marks) := by
  unfold State.tqAsk
  try dsimp only
  repeat' (first
    | with_reducible assumption | with_reducible apply State.enter_ok
    | (with_reducible refine State.enter_ok_of (by assumption) ?_) | with_reducible apply State.modCmd_ok
    | (simp only [ok_mk, ok3_eq]) | (intro _ _ _) | (intro _ _) | split | (dsimp only))

theorem State.tqRead_ok {s : State} {n : Nat} {c : Cmd} (hok : Ok pq s) :
    Ok pq (State.tqRead s n c) := by
  unfold State.tqRead
  try dsimp only
  repeat' (first
    | with_reducible assumption | with_reducible apply State.tqAsk_ok | (simp only [ok_mk, ok3_eq]) | (intro _ _ _)
    | (intro _ _) | split | (dsimp only))

theorem State.tqGot_ok {s : State} {n : Nat} {c : Cmd} {bytes : List Byte} {poison : List Bool} (hok : Ok pq s) :
    Ok pq (State.tqGot s n c bytes poison) := by
  unfold State.tqGot
  try dsimp only
  repeat' (first
    | with_reducible assumption | with_reducible apply ok_ite | with_reducible apply ok_ite_fst
    | with_reducible apply ok_foldl | with_reducible apply ok_foldl_fst | with_reducible apply State.err1_ok
    | with_reducible apply State.modCmd_ok | with_reducible apply State.endChannel_ok
    | with_reducible apply State.tqFinish_ok | with_reducible apply State.tqOpen_ok
    | with_reducible apply State.tqAsk_ok | (simp only [ok_mk, ok3_eq]) | (intro _ _ _) | (intro _ _) | split
    | (dsimp only))

theorem State.tqEnded_ok {s : State} {n : Nat} {e : Ending} (hok : Ok pq s) :
    Ok pq (State.tqEnded s n e) := by
  unfold State.tqEnded
  try dsimp only
  repeat' (first
    | with_reducible assumption | with_reducible apply ok_ite | with_reducible apply ok_ite_fst
    | with_reducible apply State.err1_ok | with_reducible apply State.modCmd_ok
    | with_reducible apply State.tqFinish_ok | with_reducible apply State.tqGot_ok | (simp only [ok_mk, ok3_eq])
    | (intro _ _ _) | (intro _ _) | split | (dsimp only))

theorem State.tqPoll_ok {s : State} {n : Nat} (hok : Ok pq s) :
    Ok pq (State.tqPoll s n) := by
  unfold State.tqPoll
  try dsimp only
  repeat' (first
    | with_reducible assumption | with_reducible apply ok_ite | with_reducible apply ok_ite_fst
    | with_reducible apply State.takeChannel_ok | with_reducible apply State.tqFinish_ok
    | with_reducible apply State.tqRead_ok | (simp only [ok_mk, ok3_eq]) | (intro _ _ _) | (intro _ _) | split
    | (dsimp only))

end Sys2Proof.Machine
end

