-- ==== Sys2Proof/Laws/KeepsTqFetch.lean ====
section
/-! SUPPORT. The operations of Machine/TqFetch.lean keep memory sound and leave the queue alone. -/

namespace Sys2Proof.Machine

set_option linter.unusedVariables false
set_option linter.unusedTactic false
set_option linter.unreachableTactic false

variable {pq : List Instr}

theorem State.tellPeer_ok {s : State} {cs : List Change} (hok : Ok pq s) :
    Ok pq (State.tellPeer s cs) := by
  unfold State.tellPeer
  try dsimp only
  repeat' (first
    | with_reducible assumption | with_reducible apply ok_ite | with_reducible apply ok_ite_fst
    | with_reducible apply State.post_ok | (simp only [ok_mk, ok3_eq]) | (intro _ _ _) | (intro _ _) | split
    | (dsimp only))

theorem State.sqError_ok {s : State} {sq : Nat} (hok : Ok pq s) :
    Ok pq (State.sqError s sq) := by
  unfold State.sqError
  try dsimp only
  repeat' (first
    | with_reducible assumption | with_reducible apply State.flagRecord_ok | with_reducible apply State.modSq_ok
    | with_reducible apply State.sqPublish_ok | (simp only [ok_mk, ok3_eq]) | (intro _ _ _) | (intro _ _) | split
    | (dsimp only))

theorem State.takeEntry_ok {s : State} {sq : Nat} {pos : Nat} {d : Desc} (hok : Ok pq s) :
    Ok pq (State.takeEntry s sq pos d) := by
  unfold State.takeEntry
  try dsimp only
  repeat' (first
    | with_reducible assumption | with_reducible apply ok_ite | with_reducible apply ok_ite_fst
    | with_reducible apply State.tqOpen_ok | (simp only [ok_mk, ok3_eq]) | (intro _ _ _) | (intro _ _) | split
    | (dsimp only))

theorem State.fetchGo_ok {n : Nat} {s : State} {sq : Nat} (hok : Ok pq s) : Ok pq (State.fetchGo s sq n) := by
  induction n generalizing s with
  | zero => exact hok
  | succ n ih =>
    unfold State.fetchGo
    dsimp only
    repeat' (first
      | with_reducible assumption | with_reducible apply ih | with_reducible apply ok_ite | with_reducible apply State.takeEntry_ok
      | with_reducible apply State.modSq_ok | with_reducible apply State.sqError_ok | with_reducible apply State.flag_ok
      | (simp only [ok_mk, ok3_eq]) | split)

theorem State.fetchSq_ok {s : State} {sq : Nat} (hok : Ok pq s) :
    Ok pq (State.fetchSq s sq) := by
  unfold State.fetchSq
  try dsimp only
  repeat' (first
    | with_reducible assumption | with_reducible apply ok_ite | with_reducible apply ok_ite_fst
    | with_reducible apply State.sqPublish_ok | with_reducible apply State.tellPeer_ok
    | with_reducible apply State.fetchGo_ok | (simp only [ok_mk, ok3_eq]) | (intro _ _ _) | (intro _ _) | split
    | (dsimp only))

theorem State.ringBell_ok {s : State} {sq : Nat} (hok : Ok pq s) :
    Ok pq (State.ringBell s sq) := by
  unfold State.ringBell
  try dsimp only
  repeat' (first
    | with_reducible assumption | with_reducible apply State.fetchSq_ok | (simp only [ok_mk, ok3_eq]) | (intro _ _ _)
    | (intro _ _) | split | (dsimp only))

theorem State.fetchMore_ok {s : State} {sq : Nat} (hok : Ok pq s) :
    Ok pq (State.fetchMore s sq) := by
  unfold State.fetchMore
  try dsimp only
  repeat' (first
    | with_reducible assumption | with_reducible apply ok_ite | with_reducible apply ok_ite_fst
    | with_reducible apply State.fetchSq_ok | (simp only [ok_mk, ok3_eq]) | (intro _ _ _) | (intro _ _) | split
    | (dsimp only))

theorem State.fetchAll_ok {s : State} (hok : Ok pq s) :
    Ok pq (State.fetchAll s) := by
  unfold State.fetchAll
  try dsimp only
  repeat' (first
    | with_reducible assumption | with_reducible apply ok_foldl | with_reducible apply ok_foldl_fst
    | with_reducible apply State.fetchMore_ok | (simp only [ok_mk, ok3_eq]) | (intro _ _ _) | (intro _ _) | split
    | (dsimp only))

theorem State.ringWritten_ok {s : State} {r : Req} {e : Ending} (hok : Ok pq s) :
    Ok pq (State.ringWritten s r e) := by
  unfold State.ringWritten
  try dsimp only
  repeat' (first
    | with_reducible assumption | with_reducible apply ok_foldl | with_reducible apply ok_foldl_fst
    | with_reducible apply State.ringBell_ok | (simp only [ok_mk, ok3_eq]) | (intro _ _ _) | (intro _ _) | split
    | (dsimp only))

theorem State.sqGone_ok {s : State} {sq : Nat} (hok : Ok pq s) :
    Ok pq (State.sqGone s sq) := by
  unfold State.sqGone
  try dsimp only
  repeat' (first
    | with_reducible assumption | with_reducible apply ok_foldl | with_reducible apply ok_foldl_fst
    | with_reducible apply State.tqOpen_ok | (simp only [ok_mk, ok3_eq]) | (intro _ _ _) | (intro _ _) | split
    | (dsimp only))

theorem State.sqReap_ok {s : State} {sq : Nat} (hok : Ok pq s) :
    Ok pq (State.sqReap s sq) := by
  unfold State.sqReap
  try dsimp only
  repeat' (first
    | with_reducible assumption | with_reducible apply ok_ite | with_reducible apply ok_ite_fst
    | with_reducible apply State.tellPeer_ok | with_reducible apply State.sqGone_ok | (simp only [ok_mk, ok3_eq])
    | (intro _ _ _) | (intro _ _) | split | (dsimp only))

theorem State.refetchAt_ok {s : State} {sq : Nat} {q : Sq} {pos : Nat} (hok : Ok pq s) :
    Ok pq (State.refetchAt s sq q pos) := by
  unfold State.refetchAt
  try dsimp only
  repeat' (first
    | with_reducible assumption | with_reducible apply ok_ite | with_reducible apply ok_ite_fst
    | with_reducible apply State.takeEntry_ok | (simp only [ok_mk, ok3_eq]) | (intro _ _ _) | (intro _ _) | split
    | (dsimp only))

theorem State.requeue_ok {s : State} {id : Nat} (hok : Ok pq s) :
    Ok pq (State.requeue s id) := by
  unfold State.requeue
  try dsimp only
  repeat' (first
    | with_reducible assumption | with_reducible apply ok_foldl | with_reducible apply ok_foldl_fst
    | with_reducible apply State.refetchAt_ok | (simp only [ok_mk, ok3_eq]) | (intro _ _ _) | (intro _ _) | split
    | (dsimp only))

theorem State.scrubStart_ok {s : State} {region : Nat} (hok : Ok pq s) :
    Ok pq (State.scrubStart s region) := by
  unfold State.scrubStart
  try dsimp only
  repeat' (first
    | with_reducible assumption | with_reducible apply ok_ite | with_reducible apply ok_ite_fst
    | with_reducible apply ok_foldl | with_reducible apply ok_foldl_fst | with_reducible apply State.setSb_ok
    | with_reducible apply State.emptyCheck_ok | with_reducible apply State.invalidateLoc_ok
    | with_reducible apply State.refresh_ok | (simp only [ok_mk, ok3_eq]) | (intro _ _ _) | (intro _ _) | split
    | (dsimp only))

theorem State.scrubRelease_ok {s : State} {region : Nat} (hok : Ok pq s) :
    Ok pq (State.scrubRelease s region) := by
  unfold State.scrubRelease
  try dsimp only
  repeat' (first
    | with_reducible assumption | with_reducible apply State.noteFrames_ok | (simp only [ok_mk, ok3_eq])
    | (intro _ _ _) | (intro _ _) | split | (dsimp only))

theorem State.setProgress_ok {s : State} {region : Nat} {p : Option Progress} (hok : Ok pq s) :
    Ok pq (State.setProgress s region p) := by
  unfold State.setProgress
  try dsimp only
  repeat' (first
    | with_reducible assumption | with_reducible apply State.areaPut_ok | (simp only [ok_mk, ok3_eq]) | (intro _ _ _)
    | (intro _ _) | split | (dsimp only))

end Sys2Proof.Machine
end

