-- ==== Sys2Proof/Laws/KeepsMedia.lean ====
section
/-! SUPPORT. The operations of Machine/Media.lean keep memory sound and leave the queue alone. -/

namespace Sys2Proof.Machine

set_option linter.unusedVariables false
set_option linter.unusedTactic false
set_option linter.unreachableTactic false

variable {pq : List Instr}

theorem State.mediaQueue_ok {s : State} (hok : Ok pq s) :
    Ok pq (State.mediaQueue s) := by
  unfold State.mediaQueue
  try dsimp only
  repeat' (first
    | with_reducible assumption | with_reducible apply ok_ite | with_reducible apply ok_ite_fst
    | with_reducible apply ok_foldl | with_reducible apply ok_foldl_fst | (simp only [ok_mk, ok3_eq]) | (intro _ _ _)
    | (intro _ _) | split | (dsimp only))

theorem State.takeWork_ok {s : State} {w : FWork} (hok : Ok pq s) :
    Ok pq (State.takeWork s w) := by
  unfold State.takeWork
  try dsimp only
  repeat' (first
    | with_reducible assumption | (simp only [ok_mk, ok3_eq]) | (intro _ _ _) | (intro _ _) | split | (dsimp only))

theorem State.issueDie_ok {s : State} {die : Nat} (hok : Ok pq s) :
    Ok pq (State.issueDie s die) := by
  unfold State.issueDie
  try dsimp only
  repeat' (first
    | with_reducible assumption | with_reducible apply ok_ite | with_reducible apply ok_ite_fst
    | with_reducible apply ok_foldl | with_reducible apply ok_foldl_fst | with_reducible apply State.takeWork_ok
    | (simp only [ok_mk, ok3_eq]) | (intro _ _ _) | (intro _ _) | split | (dsimp only))

theorem State.mediaStep_ok {s : State} (hok : Ok pq s) :
    Ok pq (State.mediaStep s) := by
  unfold State.mediaStep
  try dsimp only
  repeat' (first
    | with_reducible assumption | with_reducible apply ok_ite | with_reducible apply ok_ite_fst
    | with_reducible apply ok_foldl | with_reducible apply ok_foldl_fst | with_reducible apply State.mediaQueue_ok
    | with_reducible apply State.issueDie_ok | (simp only [ok_mk, ok3_eq]) | (intro _ _ _) | (intro _ _) | split
    | (dsimp only))

theorem State.suspendFor_ok {s : State} {die : Nat} {t : State} (e : State.suspendFor s die = some t) (hok : Ok pq s) :
    Ok pq t := by
  unfold State.suspendFor at e
  try dsimp only at e
  repeat' split at e
  all_goals first | (simp at e; done) | (simp only [Option.some.injEq] at e; subst e)
  repeat' (first
    | with_reducible assumption | with_reducible apply ok_ite | with_reducible apply ok_ite_fst
    | (simp only [ok_mk, ok3_eq]) | (intro _ _ _) | (intro _ _) | split | (dsimp only))

end Sys2Proof.Machine
end

