-- ==== Sys2Proof/Laws/KeepsDeliver.lean ====
section
/-! SUPPORT. The operations of Machine/Deliver.lean keep memory sound and leave the queue alone. -/

namespace Sys2Proof.Machine

set_option linter.unusedVariables false
set_option linter.unusedTactic false
set_option linter.unreachableTactic false

variable {pq : List Instr}

theorem State.cxlEnded_ok {s : State} {ld : Nat} {tag : Nat} {r : Req} {e : Ending} (hok : Ok pq s) :
    Ok pq (State.cxlEnded s ld tag r e) := by
  unfold State.cxlEnded
  try dsimp only
  repeat' (first
    | with_reducible assumption | with_reducible apply ok_ite | with_reducible apply ok_ite_fst
    | with_reducible apply State.count_ok | with_reducible apply State.emit_ok | with_reducible apply State.err1_ok
    | (simp only [ok_mk, ok3_eq]) | (intro _ _ _) | (intro _ _) | split | (dsimp only))

theorem State.lapEnded_ok {s : State} {ld : Nat} {tag : Nat} {r : Req} {e : Ending} (hok : Ok pq s) :
    Ok pq (State.lapEnded s ld tag r e) := by
  unfold State.lapEnded
  try dsimp only
  repeat' (first
    | with_reducible assumption | with_reducible apply ok_ite | with_reducible apply ok_ite_fst
    | with_reducible apply State.emit_ok | with_reducible apply State.err1_ok | (simp only [ok_mk, ok3_eq])
    | (intro _ _ _) | (intro _ _) | split | (dsimp only))

theorem State.forwardEnded_ok {s : State} {tag : Nat} {r : Req} {e : Ending} (hok : Ok pq s) :
    Ok pq (State.forwardEnded s tag r e) := by
  unfold State.forwardEnded
  try dsimp only
  repeat' (first
    | with_reducible assumption | with_reducible apply ok_ite | with_reducible apply ok_ite_fst
    | with_reducible apply State.post_ok | (simp only [ok_mk, ok3_eq]) | (intro _ _ _) | (intro _ _) | split
    | (dsimp only))

theorem State.deliverTo_ok {s : State} {p : Req × Ending} (hok : Ok pq s) :
    Ok pq (State.deliverTo s p) := by
  unfold State.deliverTo
  try dsimp only
  repeat' (first
    | with_reducible assumption | with_reducible apply State.rdmaEnded_ok | with_reducible apply State.tqEnded_ok
    | with_reducible apply State.cxlEnded_ok | with_reducible apply State.lapEnded_ok
    | with_reducible apply State.forwardEnded_ok | (simp only [ok_mk, ok3_eq]) | (intro _ _ _) | (intro _ _) | split
    | (dsimp only))

theorem State.deliver_ok {s : State} {p : Req × Ending} (hok : Ok pq s) :
    Ok pq (State.deliver s p) := by
  unfold State.deliver
  try dsimp only
  repeat' (first
    | with_reducible assumption | with_reducible apply State.ringWritten_ok | with_reducible apply State.deliverTo_ok
    | (simp only [ok_mk, ok3_eq]) | (intro _ _ _) | (intro _ _) | split | (dsimp only))

theorem State.deliverAll_ok {s : State} (hok : Ok pq s) :
    Ok pq (State.deliverAll s) := by
  unfold State.deliverAll
  try dsimp only
  repeat' (first
    | with_reducible assumption | with_reducible apply ok_foldl | with_reducible apply ok_foldl_fst
    | with_reducible apply State.deliver_ok | (simp only [ok_mk, ok3_eq]) | (intro _ _ _) | (intro _ _) | split
    | (dsimp only))

theorem State.linePoll_ok {s : State} (hok : Ok pq s) :
    Ok pq (State.linePoll s) := by
  unfold State.linePoll
  try dsimp only
  repeat' (first
    | with_reducible assumption | with_reducible apply ok_foldl | with_reducible apply ok_foldl_fst
    | with_reducible apply State.flushStep_ok | with_reducible apply State.maintStep_ok
    | with_reducible apply State.evictFlushed_ok | (simp only [ok_mk, ok3_eq]) | (intro _ _ _) | (intro _ _) | split
    | (dsimp only))

theorem State.settlePass_ok {s : State} (hok : Ok pq s) :
    Ok pq (State.settlePass s) := by
  unfold State.settlePass
  try dsimp only
  repeat' (first
    | with_reducible assumption | with_reducible apply ok_foldl | with_reducible apply ok_foldl_fst
    | with_reducible apply State.nextSlots_ok | with_reducible apply State.serveFrames_ok
    | with_reducible apply State.tryAll_ok | with_reducible apply State.finishRepairs_ok
    | with_reducible apply State.refetchServe_ok | with_reducible apply State.copyPoll_ok
    | with_reducible apply State.tqPoll_ok | with_reducible apply State.linePoll_ok | (simp only [ok_mk, ok3_eq])
    | (intro _ _ _) | (intro _ _) | split | (dsimp only))

theorem State.settleGo_ok {n : Nat} {s : State} (hok : Ok pq s) : Ok pq (State.settleGo n s) := by
  induction n generalizing s with
  | zero => exact hok
  | succ n ih =>
    unfold State.settleGo
    dsimp only
    split
    · exact State.settlePass_ok hok
    · exact ih (State.deliverAll_ok (State.settlePass_ok hok))

theorem State.durPoll_ok {s : State} (hok : Ok pq s) :
    Ok pq (State.durPoll s) := by
  unfold State.durPoll
  try dsimp only
  repeat' (first
    | with_reducible assumption | with_reducible apply ok_foldl | with_reducible apply ok_foldl_fst
    | with_reducible apply State.emit_ok | (simp only [ok_mk, ok3_eq]) | (intro _ _ _) | (intro _ _) | split
    | (dsimp only))

theorem State.keySay_ok {s : State} {k : KeyReply} (hok : Ok pq s) :
    Ok pq (State.keySay s k) := by
  unfold State.keySay
  try dsimp only
  repeat' (first
    | with_reducible assumption | with_reducible apply ok_ite | with_reducible apply ok_ite_fst
    | with_reducible apply State.wcmSend_ok | (simp only [ok_mk, ok3_eq]) | (intro _ _ _) | (intro _ _) | split
    | (dsimp only))

theorem State.keyPoll_ok {s : State} (hok : Ok pq s) :
    Ok pq (State.keyPoll s) := by
  unfold State.keyPoll
  try dsimp only
  repeat' (first
    | with_reducible assumption | with_reducible apply ok_ite | with_reducible apply ok_ite_fst
    | with_reducible apply ok_foldl | with_reducible apply ok_foldl_fst | with_reducible apply State.keySay_ok
    | (simp only [ok_mk, ok3_eq]) | (intro _ _ _) | (intro _ _) | split | (dsimp only))

theorem State.ackPoll_ok {s : State} (hok : Ok pq s) :
    Ok pq (State.ackPoll s) := by
  unfold State.ackPoll
  try dsimp only
  repeat' (first
    | with_reducible assumption | with_reducible apply ok_foldl | with_reducible apply ok_foldl_fst
    | with_reducible apply State.ackMsg_ok | (simp only [ok_mk, ok3_eq]) | (intro _ _ _) | (intro _ _) | split
    | (dsimp only))

theorem State.drainPoll_ok {s : State} (hok : Ok pq s) :
    Ok pq (State.drainPoll s) := by
  unfold State.drainPoll
  try dsimp only
  repeat' (first
    | with_reducible assumption | with_reducible apply ok_foldl | with_reducible apply ok_foldl_fst
    | with_reducible apply State.emit_ok | with_reducible apply State.qpEnter_ok | (simp only [ok_mk, ok3_eq])
    | (intro _ _ _) | (intro _ _) | split | (dsimp only))

theorem State.waitPoll_ok {s : State} (hok : Ok pq s) :
    Ok pq (State.waitPoll s) := by
  unfold State.waitPoll
  try dsimp only
  repeat' (first
    | with_reducible assumption | with_reducible apply ok_ite | with_reducible apply ok_ite_fst
    | (simp only [ok_mk, ok3_eq]) | (intro _ _ _) | (intro _ _) | split | (dsimp only))

theorem State.recordPoll_ok {s : State} (hok : Ok pq s) :
    Ok pq (State.recordPoll s) := by
  unfold State.recordPoll
  try dsimp only
  repeat' (first
    | with_reducible assumption | with_reducible apply ok_foldl | with_reducible apply ok_foldl_fst
    | with_reducible apply State.cqPump_ok | with_reducible apply State.fetchAll_ok
    | with_reducible apply State.sqReap_ok | (simp only [ok_mk, ok3_eq]) | (intro _ _ _) | (intro _ _) | split
    | (dsimp only))

theorem State.settle_ok {s : State} (hok : Ok pq s) :
    Ok pq (State.settle s) := by
  unfold State.settle
  try dsimp only
  repeat' (first
    | with_reducible assumption | with_reducible apply State.grantCredits_ok | with_reducible apply State.chanPoll_ok
    | with_reducible apply State.lldpPoll_ok | with_reducible apply State.mediaStep_ok
    | with_reducible apply State.settleGo_ok | with_reducible apply State.durPoll_ok
    | with_reducible apply State.keyPoll_ok | with_reducible apply State.ackPoll_ok
    | with_reducible apply State.drainPoll_ok | with_reducible apply State.waitPoll_ok
    | with_reducible apply State.recordPoll_ok | (simp only [ok_mk, ok3_eq]) | (intro _ _ _) | (intro _ _) | split
    | (dsimp only))

theorem State.submit_ok {s : State} {r : Req} (hok : Ok pq s) :
    Ok pq (State.submit s r).1 := by
  unfold State.submit
  try dsimp only
  repeat' (first
    | with_reducible assumption | with_reducible apply State.enter_ok
    | (with_reducible refine State.enter_ok_of (by assumption) ?_) | with_reducible apply State.settle_ok
    | (simp only [ok_mk, ok3_eq]) | (intro _ _ _) | (intro _ _) | split | (dsimp only))

theorem State.submit_ok_of {s : State} {r : Req} {t : State} {x : Nat} (e : State.submit s r = (t, x)) (hok : Ok pq s) :
    Ok pq t := by
  rw [show t = (State.submit s r).1 by rw [e]]
  exact State.submit_ok hok

end Sys2Proof.Machine
end

