-- ==== Sys2Proof/Laws/KeepsChanges.lean ====
section
/-! SUPPORT. The operations of Machine/Changes.lean keep memory sound and leave the queue alone. -/

namespace Sys2Proof.Machine

set_option linter.unusedVariables false
set_option linter.unusedTactic false
set_option linter.unreachableTactic false

variable {pq : List Instr}

theorem State.unmapTile_ok {s : State} {scrub : Option Nat} {tile : Nat} (hok : Ok pq s) :
    Ok pq (State.unmapTile s scrub tile) := by
  unfold State.unmapTile
  try dsimp only
  repeat' (first
    | with_reducible assumption | with_reducible apply ok_ite | with_reducible apply ok_ite_fst
    | with_reducible apply State.clearTile_ok | with_reducible apply State.poisonDel_ok
    | with_reducible apply State.setTile_ok | with_reducible apply State.freeFrameNo_ok
    | with_reducible apply State.dropLines_ok | with_reducible apply State.invalidateLoc_ok
    | with_reducible apply State.dropMove_ok | (simp only [ok_mk, ok3_eq]) | (intro _ _ _) | (intro _ _) | split
    | (dsimp only))

theorem State.zeroRange_ok {s : State} {first : Nat} {count : Nat} {scrub : Option Nat} (hok : Ok pq s) :
    Ok pq (State.zeroRange s first count scrub) := by
  unfold State.zeroRange
  try dsimp only
  repeat' (first
    | with_reducible assumption | with_reducible apply ok_foldl | with_reducible apply ok_foldl_fst
    | with_reducible apply State.count_ok | with_reducible apply State.unmapTile_ok | (simp only [ok_mk, ok3_eq])
    | (intro _ _ _) | (intro _ _) | split | (dsimp only))

theorem State.freeRegion_ok {s : State} {id : Nat} (hok : Ok pq s) :
    Ok pq (State.freeRegion s id) := by
  unfold State.freeRegion
  try dsimp only
  repeat' (first
    | with_reducible assumption | with_reducible apply State.keyRetire_ok | (simp only [ok_mk, ok3_eq])
    | (intro _ _ _) | (intro _ _) | split | (dsimp only))

theorem State.sqRegion_ok {s : State} {id : Nat} (hok : Ok pq s) :
    Ok pq (State.sqRegion s id) := by
  unfold State.sqRegion
  try dsimp only
  repeat' (first
    | with_reducible assumption | with_reducible apply ok_ite | with_reducible apply ok_ite_fst
    | with_reducible apply ok_foldl | with_reducible apply ok_foldl_fst | with_reducible apply State.modSq_ok
    | with_reducible apply State.sqPublish_ok | (simp only [ok_mk, ok3_eq]) | (intro _ _ _) | (intro _ _) | split
    | (dsimp only))

theorem State.regionState_ok {s : State} {id : Nat} {st : RegionState} (hok : Ok pq s) :
    Ok pq (State.regionState s id st) := by
  unfold State.regionState
  try dsimp only
  repeat' (first
    | with_reducible assumption | with_reducible apply State.modRegion_ok | with_reducible apply State.sqRegion_ok
    | (simp only [ok_mk, ok3_eq]) | (intro _ _ _) | (intro _ _) | split | (dsimp only))

theorem State.loadKeys_ok {s : State} {id : Nat} {epoch : Nat} {rks : Nat} (hok : Ok pq s) :
    Ok pq (State.loadKeys s id epoch rks) := by
  unfold State.loadKeys
  try dsimp only
  repeat' (first
    | with_reducible assumption | with_reducible apply ok_ite | with_reducible apply ok_ite_fst
    | with_reducible apply State.count_ok | with_reducible apply State.keyPut_ok | (simp only [ok_mk, ok3_eq])
    | (intro _ _ _) | (intro _ _) | split | (dsimp only))

theorem State.leaseQpsError_ok {s : State} {host : Nat} (hok : Ok pq s) :
    Ok pq (State.leaseQpsError s host) := by
  unfold State.leaseQpsError
  try dsimp only
  repeat' (first
    | with_reducible assumption | with_reducible apply ok_foldl | with_reducible apply ok_foldl_fst
    | with_reducible apply State.qpEnter_ok | (simp only [ok_mk, ok3_eq]) | (intro _ _ _) | (intro _ _) | split
    | (dsimp only))

theorem State.keyKill_ok {s : State} {idx : Nat} (hok : Ok pq s) :
    Ok pq (State.keyKill s idx) := by
  unfold State.keyKill
  try dsimp only
  repeat' (first
    | with_reducible assumption | with_reducible apply ok_ite | with_reducible apply ok_ite_fst
    | (simp only [ok_mk, ok3_eq]) | (intro _ _ _) | (intro _ _) | split | (dsimp only))

theorem State.hostKeysKill_ok {s : State} {host : Nat} (hok : Ok pq s) :
    Ok pq (State.hostKeysKill s host) := by
  unfold State.hostKeysKill
  try dsimp only
  repeat' (first
    | with_reducible assumption | with_reducible apply ok_foldl | with_reducible apply ok_foldl_fst
    | with_reducible apply State.keyKill_ok | (simp only [ok_mk, ok3_eq]) | (intro _ _ _) | (intro _ _) | split
    | (dsimp only))

theorem State.pinJoin_ok {s : State} {tile : Nat} {cmds : List Nat} {peers : List Nat} (hok : Ok pq s) :
    Ok pq (State.pinJoin s tile cmds peers) := by
  unfold State.pinJoin
  try dsimp only
  repeat' (first
    | with_reducible assumption | with_reducible apply ok_ite | with_reducible apply ok_ite_fst
    | with_reducible apply State.modMove_ok | with_reducible apply State.joinEnd_ok
    | with_reducible apply State.startMove_ok | with_reducible apply State.repairTile_ok | (simp only [ok_mk, ok3_eq])
    | (intro _ _ _) | (intro _ _) | split | (dsimp only))

theorem State.pinFor_ok {s : State} {tile : Nat} {cmds : List Nat} {peers : List Nat} (hok : Ok pq s) :
    Ok pq (State.pinFor s tile cmds peers) := by
  unfold State.pinFor
  try dsimp only
  repeat' (first
    | with_reducible assumption | with_reducible apply ok_ite | with_reducible apply ok_ite_fst
    | with_reducible apply State.modTile_ok | with_reducible apply State.joinEnd_ok
    | with_reducible apply State.pinJoin_ok | (simp only [ok_mk, ok3_eq]) | (intro _ _ _) | (intro _ _) | split
    | (dsimp only))

theorem State.applyChange_ok {s : State} {c : Change} (hok : Ok pq s) :
    Ok pq (State.applyChange s c) := by
  unfold State.applyChange
  try dsimp only
  repeat' (first
    | with_reducible assumption | with_reducible apply ok_ite | with_reducible apply ok_ite_fst
    | with_reducible apply State.setBit_ok | with_reducible apply State.count_ok
    | with_reducible apply State.keyRetire_ok | with_reducible apply State.modRegion_ok
    | with_reducible apply State.poisonAdd_ok | with_reducible apply State.modTile_ok
    | with_reducible apply State.cancelFwd_ok | with_reducible apply State.ringPut_ok
    | with_reducible apply State.sqPublish_ok | with_reducible apply State.cqPump_ok
    | with_reducible apply State.onComplete_ok | with_reducible apply State.onAssigned_ok
    | with_reducible apply State.sqGone_ok | with_reducible apply State.scrubStart_ok
    | with_reducible apply State.setProgress_ok | with_reducible apply State.zeroRange_ok
    | with_reducible apply State.freeRegion_ok | with_reducible apply State.sqRegion_ok
    | with_reducible apply State.loadKeys_ok | with_reducible apply State.leaseQpsError_ok
    | with_reducible apply State.keyKill_ok | with_reducible apply State.hostKeysKill_ok
    | with_reducible apply State.pinFor_ok | (simp only [ok_mk, ok3_eq]) | (intro _ _ _) | (intro _ _) | split
    | (dsimp only))

theorem State.applyChanges_ok {s : State} {cs : List Change} (hok : Ok pq s) :
    Ok pq (State.applyChanges s cs) := by
  unfold State.applyChanges
  try dsimp only
  repeat' (first
    | with_reducible assumption | with_reducible apply ok_foldl | with_reducible apply ok_foldl_fst
    | with_reducible apply State.applyChange_ok | (simp only [ok_mk, ok3_eq]) | (intro _ _ _) | (intro _ _) | split
    | (dsimp only))

theorem State.both_ok {s : State} {cs : List Change} {defer : Bool} {inst : Option Nat} (hok : Ok pq s) :
    Ok pq (State.both s cs defer inst).1 := by
  unfold State.both
  try dsimp only
  repeat' (first
    | with_reducible assumption | with_reducible apply ok_ite | with_reducible apply ok_ite_fst
    | with_reducible apply State.send_ok | (with_reducible refine State.send_ok_of (by assumption) ?_)
    | with_reducible apply State.applyChanges_ok | (simp only [ok_mk, ok3_eq]) | (intro _ _ _) | (intro _ _) | split
    | (dsimp only))

theorem State.both_ok_of {s : State} {cs : List Change} {defer : Bool} {inst : Option Nat} {t : State} {x : Bool} (e : State.both s cs defer inst = (t, x)) (hok : Ok pq s) :
    Ok pq t := by
  rw [show t = (State.both s cs defer inst).1 by rw [e]]
  exact State.both_ok hok

theorem State.bothNow_ok {s : State} {cs : List Change} (hok : Ok pq s) :
    Ok pq (State.bothNow s cs) := by
  unfold State.bothNow
  try dsimp only
  repeat' (first
    | with_reducible assumption | with_reducible apply State.both_ok
    | (with_reducible refine State.both_ok_of (by assumption) ?_) | (simp only [ok_mk, ok3_eq]) | (intro _ _ _)
    | (intro _ _) | split | (dsimp only))

theorem State.ctlDone_ok {s : State} {seq : Nat} (hok : Ok pq s) :
    Ok pq (State.ctlDone s seq).1 := by
  unfold State.ctlDone
  try dsimp only
  repeat' (first
    | with_reducible assumption | with_reducible apply State.applyChanges_ok | (simp only [ok_mk, ok3_eq])
    | (intro _ _ _) | (intro _ _) | split | (dsimp only))

theorem State.ctlDone_ok_of {s : State} {seq : Nat} {t : State} {x : Option Nat} (e : State.ctlDone s seq = (t, x)) (hok : Ok pq s) :
    Ok pq t := by
  rw [show t = (State.ctlDone s seq).1 by rw [e]]
  exact State.ctlDone_ok hok

end Sys2Proof.Machine
end

