-- ==== Sys2Proof/Laws/KeepsMbxCore.lean ====
section
/-! SUPPORT. The operations of Machine/MbxCore.lean keep memory sound and leave the queue alone. -/

namespace Sys2Proof.Machine

set_option linter.unusedVariables false
set_option linter.unusedTactic false
set_option linter.unreachableTactic false

variable {pq : List Instr}

theorem State.noteAlert_ok {s : State} (hok : Ok pq s) :
    Ok pq (State.noteAlert s) := by
  unfold State.noteAlert
  try dsimp only
  repeat' (first
    | with_reducible assumption | with_reducible apply ok_ite | with_reducible apply ok_ite_fst
    | with_reducible apply State.emit_ok | (simp only [ok_mk, ok3_eq]) | (intro _ _ _) | (intro _ _) | split
    | (dsimp only))

theorem State.mctpFill_ok {s : State} (hok : Ok pq s) :
    Ok pq (State.mctpFill s) := by
  unfold State.mctpFill
  try dsimp only
  repeat' (first
    | with_reducible assumption | with_reducible apply State.noteAlert_ok | (simp only [ok_mk, ok3_eq])
    | (intro _ _ _) | (intro _ _) | split | (dsimp only))

theorem State.mctpSend_ok {s : State} {dest : Nat} {tag : Nat} {type : Nat} {body : List Byte} (hok : Ok pq s) :
    Ok pq (State.mctpSend s dest tag type body) := by
  unfold State.mctpSend
  try dsimp only
  repeat' (first
    | with_reducible assumption | with_reducible apply State.mctpFill_ok | (simp only [ok_mk, ok3_eq]) | (intro _ _ _)
    | (intro _ _) | split | (dsimp only))

theorem State.modLd_ok {s : State} {n : Nat} {f : Ld → Ld} (hok : Ok pq s) :
    Ok pq (State.modLd s n f) := by
  unfold State.modLd
  try dsimp only
  repeat' (first
    | with_reducible assumption | (simp only [ok_mk, ok3_eq]) | (intro _ _ _) | (intro _ _) | split | (dsimp only))

theorem State.modMb_ok {s : State} {k : Nat} {f : Mbx → Mbx} (hok : Ok pq s) :
    Ok pq (State.modMb s k f) := by
  unfold State.modMb
  try dsimp only
  repeat' (first
    | with_reducible assumption | (simp only [ok_mk, ok3_eq]) | (intro _ _ _) | (intro _ _) | split | (dsimp only))

theorem State.mbxNote_ok {s : State} {k : Nat} {r : JResult} (hok : Ok pq s) :
    Ok pq (State.mbxNote s k r) := by
  unfold State.mbxNote
  try dsimp only
  repeat' (first
    | with_reducible assumption | with_reducible apply ok_ite | with_reducible apply ok_ite_fst
    | with_reducible apply State.modLd_ok | (simp only [ok_mk, ok3_eq]) | (intro _ _ _) | (intro _ _) | split
    | (dsimp only))

theorem State.mbxSay_ok {s : State} {k : Nat} {seq : Nat} {tag : Nat} {r : JResult} (hok : Ok pq s) :
    Ok pq (State.mbxSay s k seq tag r) := by
  unfold State.mbxSay
  try dsimp only
  repeat' (first
    | with_reducible assumption | with_reducible apply ok_ite | with_reducible apply ok_ite_fst
    | with_reducible apply State.emit_ok | with_reducible apply State.post_ok | with_reducible apply State.wcmSend_ok
    | with_reducible apply State.mctpSend_ok | with_reducible apply State.mbxNote_ok
    | with_reducible apply State.jorrid_ok | (simp only [ok_mk, ok3_eq]) | (intro _ _ _) | (intro _ _) | split
    | (dsimp only))

theorem State.noticeSend_ok {s : State} {qpn : Nat} {opcode : Nat} {body : List Nat} (hok : Ok pq s) :
    Ok pq (State.noticeSend s qpn opcode body) := by
  unfold State.noticeSend
  try dsimp only
  repeat' (first
    | with_reducible assumption | with_reducible apply State.wcmSend_ok | (simp only [ok_mk, ok3_eq]) | (intro _ _ _)
    | (intro _ _) | split | (dsimp only))

theorem State.mbxSignal_ok {s : State} {k : Nat} {seq : Nat} {tag : Nat} {r : JResult} (hok : Ok pq s) :
    Ok pq (State.mbxSignal s k seq tag r) := by
  unfold State.mbxSignal
  try dsimp only
  repeat' (first
    | with_reducible assumption | with_reducible apply ok_ite | with_reducible apply ok_ite_fst
    | with_reducible apply State.emit_ok | with_reducible apply State.flag_ok
    | with_reducible apply State.noteAlert_ok | with_reducible apply State.mbxNote_ok
    | with_reducible apply State.mbxSay_ok | with_reducible apply State.jorrid_ok | (simp only [ok_mk, ok3_eq])
    | (intro _ _ _) | (intro _ _) | split | (dsimp only))

theorem State.mbxEnd_ok {s : State} {k : Nat} {r : JResult} (hok : Ok pq s) :
    Ok pq (State.mbxEnd s k r) := by
  unfold State.mbxEnd
  try dsimp only
  repeat' (first
    | with_reducible assumption | with_reducible apply ok_ite | with_reducible apply ok_ite_fst
    | with_reducible apply State.modMb_ok | with_reducible apply State.mbxSay_ok
    | with_reducible apply State.mbxSignal_ok | (simp only [ok_mk, ok3_eq]) | (intro _ _ _) | (intro _ _) | split
    | (dsimp only))

theorem State.mbxStatus_ok {s : State} {k : Nat} {status : Nat} (hok : Ok pq s) :
    Ok pq (State.mbxStatus s k status) := by
  unfold State.mbxStatus
  try dsimp only
  repeat' (first
    | with_reducible assumption | with_reducible apply State.mbxEnd_ok | (simp only [ok_mk, ok3_eq]) | (intro _ _ _)
    | (intro _ _) | split | (dsimp only))

theorem State.mbxOk_ok {s : State} {k : Nat} {body : List Nat} (hok : Ok pq s) :
    Ok pq (State.mbxOk s k body) := by
  unfold State.mbxOk
  try dsimp only
  repeat' (first
    | with_reducible assumption | with_reducible apply State.mbxEnd_ok | (simp only [ok_mk, ok3_eq]) | (intro _ _ _)
    | (intro _ _) | split | (dsimp only))

theorem State.mbxFail_ok {s : State} {k : Nat} {status : Nat} {detail : Nat} (hok : Ok pq s) :
    Ok pq (State.mbxFail s k status detail) := by
  unfold State.mbxFail
  try dsimp only
  repeat' (first
    | with_reducible assumption | with_reducible apply State.mbxEnd_ok | (simp only [ok_mk, ok3_eq]) | (intro _ _ _)
    | (intro _ _) | split | (dsimp only))

theorem State.jwTake_ok {s : State} {w : Nat} (hok : Ok pq s) :
    Ok pq (State.jwTake s w).1 := by
  unfold State.jwTake
  try dsimp only
  repeat' (first
    | with_reducible assumption | (simp only [ok_mk, ok3_eq]) | (intro _ _ _) | (intro _ _) | split | (dsimp only))

theorem State.jwTake_ok_of {s : State} {w : Nat} {t : State} {x : Option Nat} (e : State.jwTake s w = (t, x)) (hok : Ok pq s) :
    Ok pq t := by
  rw [show t = (State.jwTake s w).1 by rw [e]]
  exact State.jwTake_ok hok

theorem State.jwPut_ok {s : State} {w : Nat} {k : Nat} (hok : Ok pq s) :
    Ok pq (State.jwPut s w k) := by
  unfold State.jwPut
  try dsimp only
  repeat' (first
    | with_reducible assumption | (simp only [ok_mk, ok3_eq]) | (intro _ _ _) | (intro _ _) | split | (dsimp only))

theorem State.jwEnd_ok {s : State} {w : Nat} {r : JResult} (hok : Ok pq s) :
    Ok pq (State.jwEnd s w r) := by
  unfold State.jwEnd
  try dsimp only
  repeat' (first
    | with_reducible assumption | with_reducible apply State.mbxEnd_ok | with_reducible apply State.jwTake_ok
    | (with_reducible refine State.jwTake_ok_of (by assumption) ?_) | (simp only [ok_mk, ok3_eq]) | (intro _ _ _)
    | (intro _ _) | split | (dsimp only))

theorem State.mbxReset_ok {s : State} {k : Nat} (hok : Ok pq s) :
    Ok pq (State.mbxReset s k) := by
  unfold State.mbxReset
  try dsimp only
  repeat' (first
    | with_reducible assumption | with_reducible apply ok_ite | with_reducible apply ok_ite_fst
    | (simp only [ok_mk, ok3_eq]) | (intro _ _ _) | (intro _ _) | split | (dsimp only))

theorem State.mbxPoll_ok {s : State} {k : Nat} (hok : Ok pq s) :
    Ok pq (State.mbxPoll s k) := by
  unfold State.mbxPoll
  try dsimp only
  repeat' (first
    | with_reducible assumption | with_reducible apply ok_ite | with_reducible apply ok_ite_fst
    | with_reducible apply State.mbxEnd_ok | (simp only [ok_mk, ok3_eq]) | (intro _ _ _) | (intro _ _) | split
    | (dsimp only))

theorem State.mbxBoth_ok {s : State} {k : Nat} {cs : List Change} {defer : Bool} {r : JResult} (hok : Ok pq s) :
    Ok pq (State.mbxBoth s k cs defer r) := by
  unfold State.mbxBoth
  try dsimp only
  repeat' (first
    | with_reducible assumption | with_reducible apply State.both_ok
    | (with_reducible refine State.both_ok_of (by assumption) ?_) | with_reducible apply State.modMb_ok
    | with_reducible apply State.mbxPoll_ok | (simp only [ok_mk, ok3_eq]) | (intro _ _ _) | (intro _ _) | split
    | (dsimp only))

theorem State.modSlot_ok {s : State} {b : Bool} {f : FwSlot → FwSlot} (hok : Ok pq s) :
    Ok pq (State.modSlot s b f) := by
  unfold State.modSlot
  try dsimp only
  repeat' (first
    | with_reducible assumption | with_reducible apply ok_ite | with_reducible apply ok_ite_fst
    | (simp only [ok_mk, ok3_eq]) | (intro _ _ _) | (intro _ _) | split | (dsimp only))

theorem State.loadDrop_ok {s : State} {b : Bool} (hok : Ok pq s) :
    Ok pq (State.loadDrop s b) := by
  unfold State.loadDrop
  try dsimp only
  repeat' (first
    | with_reducible assumption | with_reducible apply State.modSlot_ok | (simp only [ok_mk, ok3_eq]) | (intro _ _ _)
    | (intro _ _) | split | (dsimp only))

theorem State.arbAdvance_ok {s : State} {svn : Nat} (hok : Ok pq s) :
    Ok pq (State.arbAdvance s svn) := by
  unfold State.arbAdvance
  try dsimp only
  repeat' (first
    | with_reducible assumption | (simp only [ok_mk, ok3_eq]) | (intro _ _ _) | (intro _ _) | split | (dsimp only))

theorem State.slotActive_ok {s : State} {b : Bool} (hok : Ok pq s) :
    Ok pq (State.slotActive s b) := by
  unfold State.slotActive
  try dsimp only
  repeat' (first
    | with_reducible assumption | with_reducible apply ok_ite | with_reducible apply ok_ite_fst
    | with_reducible apply State.modSlot_ok | (simp only [ok_mk, ok3_eq]) | (intro _ _ _) | (intro _ _) | split
    | (dsimp only))

theorem State.fwConfirm_ok {s : State} (hok : Ok pq s) :
    Ok pq (State.fwConfirm s) := by
  unfold State.fwConfirm
  try dsimp only
  repeat' (first
    | with_reducible assumption | with_reducible apply ok_ite | with_reducible apply ok_ite_fst
    | with_reducible apply State.arbAdvance_ok | with_reducible apply State.slotActive_ok
    | (simp only [ok_mk, ok3_eq]) | (intro _ _ _) | (intro _ _) | split | (dsimp only))

theorem State.setPhase_ok {s : State} {n : Nat} (hok : Ok pq s) :
    Ok pq (State.setPhase s n) := by
  unfold State.setPhase
  try dsimp only
  repeat' (first
    | with_reducible assumption | with_reducible apply ok_ite | with_reducible apply ok_ite_fst
    | with_reducible apply State.recordF_ok | with_reducible apply State.fwConfirm_ok | (simp only [ok_mk, ok3_eq])
    | (intro _ _ _) | (intro _ _) | split | (dsimp only))

theorem State.notePhase_ok {s : State} (hok : Ok pq s) :
    Ok pq (State.notePhase s) := by
  unfold State.notePhase
  try dsimp only
  repeat' (first
    | with_reducible assumption | with_reducible apply ok_ite | with_reducible apply ok_ite_fst
    | with_reducible apply State.setPhase_ok | (simp only [ok_mk, ok3_eq]) | (intro _ _ _) | (intro _ _) | split
    | (dsimp only))

end Sys2Proof.Machine
end

