-- ==== Sys2Proof/Laws/KeepsAuthority.lean ====
section
/-! SUPPORT. The operations of Machine/Authority.lean keep memory sound and leave the queue alone. -/

namespace Sys2Proof.Machine

set_option linter.unusedVariables false
set_option linter.unusedTactic false
set_option linter.unreachableTactic false

variable {pq : List Instr}

theorem State.handEnd_ok {s : State} (hok : Ok pq s) :
    Ok pq (State.handEnd s) := by
  unfold State.handEnd
  try dsimp only
  repeat' (first
    | with_reducible assumption | with_reducible apply ok_ite | with_reducible apply ok_ite_fst
    | with_reducible apply State.flag_ok | with_reducible apply State.mbxEnd_ok | (simp only [ok_mk, ok3_eq])
    | (intro _ _ _) | (intro _ _) | split | (dsimp only))

theorem State.handStart_ok {s : State} (hok : Ok pq s) :
    Ok pq (State.handStart s) := by
  unfold State.handStart
  try dsimp only
  repeat' (first
    | with_reducible assumption | with_reducible apply ok_ite | with_reducible apply ok_ite_fst
    | with_reducible apply ok_foldl | with_reducible apply ok_foldl_fst | with_reducible apply State.modRegion_ok
    | (simp only [ok_mk, ok3_eq]) | (intro _ _ _) | (intro _ _) | split | (dsimp only))

theorem State.startHandoff_ok {s : State} {ids : List Nat} (hok : Ok pq s) :
    Ok pq (State.startHandoff s ids) := by
  unfold State.startHandoff
  try dsimp only
  repeat' (first
    | with_reducible assumption | with_reducible apply ok_ite | with_reducible apply ok_ite_fst
    | with_reducible apply ok_foldl | with_reducible apply ok_foldl_fst | with_reducible apply State.handEnd_ok
    | with_reducible apply State.handStart_ok | (simp only [ok_mk, ok3_eq]) | (intro _ _ _) | (intro _ _) | split
    | (dsimp only))

theorem State.leaveService_ok {s : State} (hok : Ok pq s) :
    Ok pq (State.leaveService s) := by
  unfold State.leaveService
  try dsimp only
  repeat' (first
    | with_reducible assumption | with_reducible apply ok_ite | with_reducible apply ok_ite_fst
    | with_reducible apply State.startHandoff_ok | (simp only [ok_mk, ok3_eq]) | (intro _ _ _) | (intro _ _) | split
    | (dsimp only))

theorem State.dropFetched_ok {s : State} {id : Nat} (hok : Ok pq s) :
    Ok pq (State.dropFetched s id) := by
  unfold State.dropFetched
  try dsimp only
  repeat' (first
    | with_reducible assumption | (simp only [ok_mk, ok3_eq]) | (intro _ _ _) | (intro _ _) | split | (dsimp only))

theorem State.rewindQp_ok {s : State} {qpn : Nat} {psn : Nat} (hok : Ok pq s) :
    Ok pq (State.rewindQp s qpn psn) := by
  unfold State.rewindQp
  try dsimp only
  repeat' (first
    | with_reducible assumption | with_reducible apply ok_ite | with_reducible apply ok_ite_fst
    | with_reducible apply State.modQp_ok | (simp only [ok_mk, ok3_eq]) | (intro _ _ _) | (intro _ _) | split
    | (dsimp only))

theorem State.dropForwards_ok {s : State} (hok : Ok pq s) :
    Ok pq (State.dropForwards s) := by
  unfold State.dropForwards
  try dsimp only
  repeat' (first
    | with_reducible assumption | with_reducible apply ok_ite | with_reducible apply ok_ite_fst
    | with_reducible apply ok_foldl | with_reducible apply ok_foldl_fst | with_reducible apply State.modReq_ok
    | with_reducible apply State.dropReq_ok | with_reducible apply State.modCmd_ok
    | with_reducible apply State.rewindQp_ok | (simp only [ok_mk, ok3_eq]) | (intro _ _ _) | (intro _ _) | split
    | (dsimp only))

theorem State.dropPeerReqs_ok {s : State} (hok : Ok pq s) :
    Ok pq (State.dropPeerReqs s) := by
  unfold State.dropPeerReqs
  try dsimp only
  repeat' (first
    | with_reducible assumption | (simp only [ok_mk, ok3_eq]) | (intro _ _ _) | (intro _ _) | split | (dsimp only))

theorem State.mirrorVoid_ok {s : State} {m : MirrorMsg} (hok : Ok pq s) :
    Ok pq (State.mirrorVoid s m) := by
  unfold State.mirrorVoid
  try dsimp only
  repeat' (first
    | with_reducible assumption | with_reducible apply ok_foldl | with_reducible apply ok_foldl_fst
    | with_reducible apply State.modTile_ok | with_reducible apply State.closeLine_ok | (simp only [ok_mk, ok3_eq])
    | (intro _ _ _) | (intro _ _) | split | (dsimp only))

theorem State.releaseWrites_ok {s : State} (hok : Ok pq s) :
    Ok pq (State.releaseWrites s) := by
  unfold State.releaseWrites
  try dsimp only
  repeat' (first
    | with_reducible assumption | with_reducible apply ok_foldl | with_reducible apply ok_foldl_fst
    | with_reducible apply State.modReq_ok | with_reducible apply State.writeDone_ok
    | with_reducible apply State.mirrorVoid_ok | (simp only [ok_mk, ok3_eq]) | (intro _ _ _) | (intro _ _) | split
    | (dsimp only))

theorem State.voidCtl_ok {s : State} (hok : Ok pq s) :
    Ok pq (State.voidCtl s) := by
  unfold State.voidCtl
  try dsimp only
  repeat' (first
    | with_reducible assumption | with_reducible apply ok_foldl | with_reducible apply ok_foldl_fst
    | with_reducible apply State.applyChanges_ok | with_reducible apply State.mbxPoll_ok | (simp only [ok_mk, ok3_eq])
    | (intro _ _ _) | (intro _ _) | split | (dsimp only))

theorem State.withdraw_ok {s : State} (hok : Ok pq s) :
    Ok pq (State.withdraw s) := by
  unfold State.withdraw
  try dsimp only
  repeat' (first
    | with_reducible assumption | with_reducible apply ok_ite | with_reducible apply ok_ite_fst
    | with_reducible apply State.handEnd_ok | (simp only [ok_mk, ok3_eq]) | (intro _ _ _) | (intro _ _) | split
    | (dsimp only))

theorem State.replayLogs_ok {s : State} (hok : Ok pq s) :
    Ok pq (State.replayLogs s) := by
  unfold State.replayLogs
  try dsimp only
  repeat' (first
    | with_reducible assumption | with_reducible apply ok_foldl | with_reducible apply ok_foldl_fst
    | with_reducible apply State.enter_ok | (with_reducible refine State.enter_ok_of (by assumption) ?_)
    | (simp only [ok_mk, ok3_eq]) | (intro _ _ _) | (intro _ _) | split | (dsimp only))

theorem State.resyncBroken_ok {s : State} (hok : Ok pq s) :
    Ok pq (State.resyncBroken s) := by
  unfold State.resyncBroken
  try dsimp only
  repeat' (first
    | with_reducible assumption | with_reducible apply ok_foldl | with_reducible apply ok_foldl_fst
    | with_reducible apply State.modTile_ok | (simp only [ok_mk, ok3_eq]) | (intro _ _ _) | (intro _ _) | split
    | (dsimp only))

theorem State.serveAlone_ok {s₀ : State} (hok : Ok pq s₀) :
    Ok pq (State.serveAlone s₀) := by
  unfold State.serveAlone
  try dsimp only
  repeat' (first
    | with_reducible assumption | with_reducible apply State.resendAll_ok | with_reducible apply State.seqAlone_ok
    | with_reducible apply State.settle_ok | with_reducible apply State.notePhase_ok
    | with_reducible apply State.dropForwards_ok | with_reducible apply State.dropPeerReqs_ok
    | with_reducible apply State.releaseWrites_ok | with_reducible apply State.voidCtl_ok
    | with_reducible apply State.withdraw_ok | with_reducible apply State.replayLogs_ok
    | with_reducible apply State.resyncBroken_ok | (simp only [ok_mk, ok3_eq]) | (intro _ _ _) | (intro _ _) | split
    | (dsimp only))

theorem State.driveFence_ok {s : State} {level : Bool} (hok : Ok pq s) :
    Ok pq (State.driveFence s level) := by
  unfold State.driveFence
  try dsimp only
  repeat' (first
    | with_reducible assumption | with_reducible apply ok_ite | with_reducible apply ok_ite_fst
    | with_reducible apply State.emit_ok | (simp only [ok_mk, ok3_eq]) | (intro _ _ _) | (intro _ _) | split
    | (dsimp only))

theorem State.fenceNow_ok {s : State} (hok : Ok pq s) :
    Ok pq (State.fenceNow s) := by
  unfold State.fenceNow
  try dsimp only
  repeat' (first
    | with_reducible assumption | with_reducible apply ok_ite | with_reducible apply ok_ite_fst
    | with_reducible apply State.flag_ok | with_reducible apply State.recordF_ok
    | with_reducible apply State.settle_ok | with_reducible apply State.driveFence_ok | (simp only [ok_mk, ok3_eq])
    | (intro _ _ _) | (intro _ _) | split | (dsimp only))

theorem State.fencePeer_ok {s : State} {defer : Bool} (hok : Ok pq s) :
    Ok pq (State.fencePeer s defer) := by
  unfold State.fencePeer
  try dsimp only
  repeat' (first
    | with_reducible assumption | with_reducible apply ok_ite | with_reducible apply ok_ite_fst
    | with_reducible apply State.fenceNow_ok | (simp only [ok_mk, ok3_eq]) | (intro _ _ _) | (intro _ _) | split
    | (dsimp only))

theorem State.keepOwn_ok {s : State} (hok : Ok pq s) :
    Ok pq (State.keepOwn s) := by
  unfold State.keepOwn
  try dsimp only
  repeat' (first
    | with_reducible assumption | with_reducible apply ok_foldl | with_reducible apply ok_foldl_fst
    | with_reducible apply State.record_ok | with_reducible apply State.regionState_ok
    | with_reducible apply State.serveAlone_ok | (simp only [ok_mk, ok3_eq]) | (intro _ _ _) | (intro _ _) | split
    | (dsimp only))

theorem State.peerLost_ok {s : State} {defer : Bool} (hok : Ok pq s) :
    Ok pq (State.peerLost s defer) := by
  unfold State.peerLost
  try dsimp only
  repeat' (first
    | with_reducible assumption | with_reducible apply ok_ite | with_reducible apply ok_ite_fst
    | with_reducible apply State.withdraw_ok | with_reducible apply State.fencePeer_ok
    | with_reducible apply State.keepOwn_ok | (simp only [ok_mk, ok3_eq]) | (intro _ _ _) | (intro _ _) | split
    | (dsimp only))

theorem State.takeRegion_ok {s : State} {id : Nat} (hok : Ok pq s) :
    Ok pq (State.takeRegion s id) := by
  unfold State.takeRegion
  try dsimp only
  repeat' (first
    | with_reducible assumption | with_reducible apply ok_ite | with_reducible apply ok_ite_fst
    | with_reducible apply State.modRegion_ok | with_reducible apply State.requeue_ok
    | with_reducible apply State.regionState_ok | (simp only [ok_mk, ok3_eq]) | (intro _ _ _) | (intro _ _) | split
    | (dsimp only))

theorem State.takeOver_ok {s : State} (hok : Ok pq s) :
    Ok pq (State.takeOver s) := by
  unfold State.takeOver
  try dsimp only
  repeat' (first
    | with_reducible assumption | with_reducible apply ok_foldl | with_reducible apply ok_foldl_fst
    | with_reducible apply State.count_ok | with_reducible apply State.settle_ok
    | with_reducible apply State.dropPeerReqs_ok | with_reducible apply State.serveAlone_ok
    | with_reducible apply State.takeRegion_ok | (simp only [ok_mk, ok3_eq]) | (intro _ _ _) | (intro _ _) | split
    | (dsimp only))

theorem State.releaseNow_ok {s : State} (hok : Ok pq s) :
    Ok pq (State.releaseNow s) := by
  unfold State.releaseNow
  try dsimp only
  repeat' (first
    | with_reducible assumption | with_reducible apply State.mbxStatus_ok | with_reducible apply State.driveFence_ok
    | (simp only [ok_mk, ok3_eq]) | (intro _ _ _) | (intro _ _) | split | (dsimp only))

theorem State.releaseAsk_ok {s : State} (hok : Ok pq s) :
    Ok pq (State.releaseAsk s) := by
  unfold State.releaseAsk
  try dsimp only
  repeat' (first
    | with_reducible assumption | with_reducible apply ok_ite | with_reducible apply ok_ite_fst
    | with_reducible apply State.mbxStatus_ok | with_reducible apply State.releaseNow_ok | (simp only [ok_mk, ok3_eq])
    | (intro _ _ _) | (intro _ _) | split | (dsimp only))

theorem State.resyncEnd_ok {s : State} {id : Nat} (hok : Ok pq s) :
    Ok pq (State.resyncEnd s id) := by
  unfold State.resyncEnd
  try dsimp only
  repeat' (first
    | with_reducible assumption | with_reducible apply ok_ite | with_reducible apply ok_ite_fst
    | with_reducible apply State.flag_ok | with_reducible apply State.post_ok | (simp only [ok_mk, ok3_eq])
    | (intro _ _ _) | (intro _ _) | split | (dsimp only))

theorem State.resyncRegion_ok {s : State} {id : Nat} {tiles : List Nat} (hok : Ok pq s) :
    Ok pq (State.resyncRegion s id tiles) := by
  unfold State.resyncRegion
  try dsimp only
  repeat' (first
    | with_reducible assumption | with_reducible apply State.post_ok | with_reducible apply State.resyncEnd_ok
    | (simp only [ok_mk, ok3_eq]) | (intro _ _ _) | (intro _ _) | split | (dsimp only))

theorem State.resyncStart_ok {s : State} (hok : Ok pq s) :
    Ok pq (State.resyncStart s) := by
  unfold State.resyncStart
  try dsimp only
  repeat' (first
    | with_reducible assumption | with_reducible apply ok_ite | with_reducible apply ok_ite_fst
    | with_reducible apply ok_foldl | with_reducible apply ok_foldl_fst | with_reducible apply State.post_ok
    | with_reducible apply State.resyncRegion_ok | (simp only [ok_mk, ok3_eq]) | (intro _ _ _) | (intro _ _) | split
    | (dsimp only))

theorem State.dropTables_ok {s : State} (hok : Ok pq s) :
    Ok pq (State.dropTables s) := by
  unfold State.dropTables
  try dsimp only
  repeat' (first
    | with_reducible assumption | with_reducible apply ok_foldl | with_reducible apply ok_foldl_fst
    | with_reducible apply State.modTile_ok | (simp only [ok_mk, ok3_eq]) | (intro _ _ _) | (intro _ _) | split
    | (dsimp only))

theorem State.pairUp_ok {s : State} (hok : Ok pq s) :
    Ok pq (State.pairUp s) := by
  unfold State.pairUp
  try dsimp only
  repeat' (first
    | with_reducible assumption | with_reducible apply ok_ite | with_reducible apply ok_ite_fst
    | with_reducible apply ok_foldl | with_reducible apply ok_foldl_fst | with_reducible apply State.post_ok
    | with_reducible apply State.flushTile_ok | with_reducible apply State.settle_ok
    | with_reducible apply State.setPhase_ok | with_reducible apply State.notePhase_ok
    | with_reducible apply State.replayLogs_ok | with_reducible apply State.resyncRegion_ok
    | with_reducible apply State.resyncStart_ok | with_reducible apply State.dropTables_ok
    | (simp only [ok_mk, ok3_eq]) | (intro _ _ _) | (intro _ _) | split | (dsimp only))

end Sys2Proof.Machine
end

