-- ==== Sys2Proof/Laws/KeepsCxlCore.lean ====
section
/-! SUPPORT. The operations of Machine/CxlCore.lean keep memory sound and leave the queue alone. -/

namespace Sys2Proof.Machine

set_option linter.unusedVariables false
set_option linter.unusedTactic false
set_option linter.unreachableTactic false

variable {pq : List Instr}

theorem State.modLink_ok {s : State} {port : Nat} {link : Nat} {f : CxlLink → CxlLink} (hok : Ok pq s) :
    Ok pq (State.modLink s port link f) := by
  unfold State.modLink
  try dsimp only
  repeat' (first
    | with_reducible assumption | (simp only [ok_mk, ok3_eq]) | (intro _ _ _) | (intro _ _) | split | (dsimp only))

theorem State.trainLink_ok {s : State} {port : Nat} {link : Nat} {width : Nat} (hok : Ok pq s) :
    Ok pq (State.trainLink s port link width) := by
  unfold State.trainLink
  try dsimp only
  repeat' (first
    | with_reducible assumption | with_reducible apply State.emit_ok | with_reducible apply State.modLink_ok
    | (simp only [ok_mk, ok3_eq]) | (intro _ _ _) | (intro _ _) | split | (dsimp only))

theorem State.dropLink_ok {s : State} {port : Nat} {link : Nat} {fence : Bool} (hok : Ok pq s) :
    Ok pq (State.dropLink s port link fence) := by
  unfold State.dropLink
  try dsimp only
  repeat' (first
    | with_reducible assumption | with_reducible apply ok_ite | with_reducible apply ok_ite_fst
    | with_reducible apply ok_foldl | with_reducible apply ok_foldl_fst | with_reducible apply State.addSat_ok
    | with_reducible apply State.flag_ok | with_reducible apply State.abortReqs_ok
    | with_reducible apply State.modLd_ok | with_reducible apply State.modLink_ok | (simp only [ok_mk, ok3_eq])
    | (intro _ _ _) | (intro _ _) | split | (dsimp only))

theorem State.restoreBindings_ok {s : State} (hok : Ok pq s) :
    Ok pq (State.restoreBindings s) := by
  unfold State.restoreBindings
  try dsimp only
  repeat' (first
    | with_reducible assumption | with_reducible apply ok_ite | with_reducible apply ok_ite_fst
    | (simp only [ok_mk, ok3_eq]) | (intro _ _ _) | (intro _ _) | split | (dsimp only))

theorem State.linkEnable_ok {s : State} {port : Nat} {was : Bool} {now : Bool} (hok : Ok pq s) :
    Ok pq (State.linkEnable s port was now) := by
  unfold State.linkEnable
  try dsimp only
  repeat' (first
    | with_reducible assumption | with_reducible apply ok_ite | with_reducible apply ok_ite_fst
    | with_reducible apply State.modLink_ok | with_reducible apply State.trainLink_ok
    | with_reducible apply State.dropLink_ok | with_reducible apply State.restoreBindings_ok
    | (simp only [ok_mk, ok3_eq]) | (intro _ _ _) | (intro _ _) | split | (dsimp only))

theorem State.portsOff_ok {s : State} {fence : Bool} (hok : Ok pq s) :
    Ok pq (State.portsOff s fence) := by
  unfold State.portsOff
  try dsimp only
  repeat' (first
    | with_reducible assumption | with_reducible apply State.dropLink_ok | (simp only [ok_mk, ok3_eq]) | (intro _ _ _)
    | (intro _ _) | split | (dsimp only))

theorem State.logEvent_ok {s : State} {ld : Nat} {log : Nat} {e : CxlEvent} (hok : Ok pq s) :
    Ok pq (State.logEvent s ld log e) := by
  unfold State.logEvent
  try dsimp only
  repeat' (first
    | with_reducible assumption | with_reducible apply ok_ite | with_reducible apply ok_ite_fst
    | with_reducible apply State.emit_ok | with_reducible apply State.modLd_ok | (simp only [ok_mk, ok3_eq])
    | (intro _ _ _) | (intro _ _) | split | (dsimp only))

theorem State.waitDone_ok {s : State} {w : Nat} {opcode : Nat} {status : Nat} {body : List Nat} (hok : Ok pq s) :
    Ok pq (State.waitDone s w opcode status body) := by
  unfold State.waitDone
  try dsimp only
  repeat' (first
    | with_reducible assumption | with_reducible apply ok_ite | with_reducible apply ok_ite_fst
    | with_reducible apply State.emit_ok | with_reducible apply State.mbxEnd_ok | with_reducible apply State.jwTake_ok
    | (with_reducible refine State.jwTake_ok_of (by assumption) ?_) | (simp only [ok_mk, ok3_eq]) | (intro _ _ _)
    | (intro _ _) | split | (dsimp only))

theorem State.extDone_ok {s : State} {idx : Nat} {opcode : Nat} {status : Nat} {body : List Nat} (hok : Ok pq s) :
    Ok pq (State.extDone s idx opcode status body) := by
  unfold State.extDone
  try dsimp only
  repeat' (first
    | with_reducible assumption | with_reducible apply State.waitDone_ok | (simp only [ok_mk, ok3_eq]) | (intro _ _ _)
    | (intro _ _) | split | (dsimp only))

theorem State.extentPut_ok {s : State} {ld : Nat} {dc : Nat} {dpa : Nat} {len : Nat} {region : Nat} {rof : Nat} (hok : Ok pq s) :
    Ok pq (State.extentPut s ld dc dpa len region rof).1 := by
  unfold State.extentPut
  try dsimp only
  repeat' (first
    | with_reducible assumption | with_reducible apply State.bothNow_ok | with_reducible apply State.logEvent_ok
    | (simp only [ok_mk, ok3_eq]) | (intro _ _ _) | (intro _ _) | split | (dsimp only))

theorem State.extentPut_ok_of {s : State} {ld : Nat} {dc : Nat} {dpa : Nat} {len : Nat} {region : Nat} {rof : Nat} {t : State} {x : Nat} (e : State.extentPut s ld dc dpa len region rof = (t, x)) (hok : Ok pq s) :
    Ok pq t := by
  rw [show t = (State.extentPut s ld dc dpa len region rof).1 by rw [e]]
  exact State.extentPut_ok hok

theorem State.extentDrop_ok {s : State} {idx : Nat} (hok : Ok pq s) :
    Ok pq (State.extentDrop s idx) := by
  unfold State.extentDrop
  try dsimp only
  repeat' (first
    | with_reducible assumption | with_reducible apply State.bothNow_ok | (simp only [ok_mk, ok3_eq]) | (intro _ _ _)
    | (intro _ _) | split | (dsimp only))

theorem State.withdrawPending_ok {s : State} {ld : Nat} (hok : Ok pq s) :
    Ok pq (State.withdrawPending s ld) := by
  unfold State.withdrawPending
  try dsimp only
  repeat' (first
    | with_reducible assumption | with_reducible apply ok_foldl | with_reducible apply ok_foldl_fst
    | with_reducible apply State.extDone_ok | with_reducible apply State.extentDrop_ok | (simp only [ok_mk, ok3_eq])
    | (intro _ _ _) | (intro _ _) | split | (dsimp only))

theorem State.extentRemove_ok {s : State} {idx : Nat} {e : Extent} {forced : Bool} (hok : Ok pq s) :
    Ok pq (State.extentRemove s idx e forced) := by
  unfold State.extentRemove
  try dsimp only
  repeat' (first
    | with_reducible assumption | with_reducible apply State.bothNow_ok | (simp only [ok_mk, ok3_eq]) | (intro _ _ _)
    | (intro _ _) | split | (dsimp only))

theorem State.extentAsk_ok {s : State} {k : Nat} {idx : Nat} {e : Extent} {force : Bool} (hok : Ok pq s) :
    Ok pq (State.extentAsk s k idx e force) := by
  unfold State.extentAsk
  try dsimp only
  repeat' (first
    | with_reducible assumption | with_reducible apply ok_ite | with_reducible apply ok_ite_fst
    | with_reducible apply State.jwPut_ok | with_reducible apply State.logEvent_ok
    | with_reducible apply State.waitDone_ok | with_reducible apply State.extDone_ok
    | with_reducible apply State.extentDrop_ok | with_reducible apply State.extentRemove_ok
    | (simp only [ok_mk, ok3_eq]) | (intro _ _ _) | (intro _ _) | split | (dsimp only))

theorem State.abortLd_ok {s : State} {ld : Nat} {st : LdState} (hok : Ok pq s) :
    Ok pq (State.abortLd s ld st) := by
  unfold State.abortLd
  try dsimp only
  repeat' (first
    | with_reducible assumption | with_reducible apply State.abortReqs_ok | with_reducible apply State.modLd_ok
    | with_reducible apply State.mbxReset_ok | with_reducible apply State.withdrawPending_ok
    | (simp only [ok_mk, ok3_eq]) | (intro _ _ _) | (intro _ _) | split | (dsimp only))

theorem State.resetLd_ok {s : State} {ld : Nat} (hok : Ok pq s) :
    Ok pq (State.resetLd s ld) := by
  unfold State.resetLd
  try dsimp only
  repeat' (first
    | with_reducible assumption | with_reducible apply State.abortLd_ok | (simp only [ok_mk, ok3_eq]) | (intro _ _ _)
    | (intro _ _) | split | (dsimp only))

theorem State.departLd_ok {s : State} {ld : Nat} (hok : Ok pq s) :
    Ok pq (State.departLd s ld) := by
  unfold State.departLd
  try dsimp only
  repeat' (first
    | with_reducible assumption | with_reducible apply State.record_ok | with_reducible apply State.abortLd_ok
    | (simp only [ok_mk, ok3_eq]) | (intro _ _ _) | (intro _ _) | split | (dsimp only))

theorem State.activateLds_ok {s : State} (hok : Ok pq s) :
    Ok pq (State.activateLds s) := by
  unfold State.activateLds
  try dsimp only
  repeat' (first
    | with_reducible assumption | with_reducible apply ok_ite | with_reducible apply ok_ite_fst
    | with_reducible apply ok_foldl | with_reducible apply ok_foldl_fst | with_reducible apply State.resendFor_ok
    | (simp only [ok_mk, ok3_eq]) | (intro _ _ _) | (intro _ _) | split | (dsimp only))

theorem State.bindLd_ok {s : State} {ld : Nat} {host : Nat} (hok : Ok pq s) :
    Ok pq (State.bindLd s ld host) := by
  unfold State.bindLd
  try dsimp only
  repeat' (first
    | with_reducible assumption | with_reducible apply State.bothNow_ok | with_reducible apply State.modLd_ok
    | (simp only [ok_mk, ok3_eq]) | (intro _ _ _) | (intro _ _) | split | (dsimp only))

theorem State.setDur_ok {s : State} {ld : Nat} {on : Bool} (hok : Ok pq s) :
    Ok pq (State.setDur s ld on).1 := by
  unfold State.setDur
  try dsimp only
  repeat' (first
    | with_reducible assumption | with_reducible apply ok_ite | with_reducible apply ok_ite_fst
    | with_reducible apply State.setBit_ok | (simp only [ok_mk, ok3_eq]) | (intro _ _ _) | (intro _ _) | split
    | (dsimp only))

theorem State.setDur_ok_of {s : State} {ld : Nat} {on : Bool} {t : State} {x : List Nat} (e : State.setDur s ld on = (t, x)) (hok : Ok pq s) :
    Ok pq t := by
  rw [show t = (State.setDur s ld on).1 by rw [e]]
  exact State.setDur_ok hok

theorem State.cbRefuse_ok {s : State} (hok : Ok pq s) :
    Ok pq (State.cbRefuse s) := by
  unfold State.cbRefuse
  try dsimp only
  repeat' (first
    | with_reducible assumption | with_reducible apply State.count_ok | with_reducible apply State.flag_ok
    | (simp only [ok_mk, ok3_eq]) | (intro _ _ _) | (intro _ _) | split | (dsimp only))

theorem State.cxlRefuseRead_ok {s : State} {ld : Nat} {tag : Nat} {dpa : Nat} {e : XStep} (hok : Ok pq s) :
    Ok pq (State.cxlRefuseRead s ld tag dpa e) := by
  unfold State.cxlRefuseRead
  try dsimp only
  repeat' (first
    | with_reducible assumption | with_reducible apply State.count_ok | with_reducible apply State.emit_ok
    | with_reducible apply State.refuse_ok | (simp only [ok_mk, ok3_eq]) | (intro _ _ _) | (intro _ _) | split
    | (dsimp only))

theorem State.cxlRefuseWrite_ok {s : State} {ld : Nat} {tag : Nat} {dpa : Nat} {e : XStep} (hok : Ok pq s) :
    Ok pq (State.cxlRefuseWrite s ld tag dpa e) := by
  unfold State.cxlRefuseWrite
  try dsimp only
  repeat' (first
    | with_reducible assumption | with_reducible apply State.count_ok | with_reducible apply State.emit_ok
    | with_reducible apply State.record_ok | with_reducible apply State.refuse_ok | (simp only [ok_mk, ok3_eq])
    | (intro _ _ _) | (intro _ _) | split | (dsimp only))

theorem State.stageNote_ok {s : State} {port : Nat} (hok : Ok pq s) :
    Ok pq (State.stageNote s port) := by
  unfold State.stageNote
  try dsimp only
  repeat' (first
    | with_reducible assumption | with_reducible apply ok_ite | with_reducible apply ok_ite_fst
    | with_reducible apply State.setFld_ok | (simp only [ok_mk, ok3_eq]) | (intro _ _ _) | (intro _ _) | split
    | (dsimp only))

theorem State.cxlWrite_ok {s : State} {ld : Nat} {tag : Nat} {region : Nat} {off : Nat} {segs : List (Nat × Nat)} {data : List Byte} {poison : Bool} (hok : Ok pq s) :
    Ok pq (State.cxlWrite s ld tag region off segs data poison) := by
  unfold State.cxlWrite
  try dsimp only
  repeat' (first
    | with_reducible assumption | with_reducible apply ok_ite | with_reducible apply ok_ite_fst
    | with_reducible apply State.count_ok | with_reducible apply State.emit_ok | with_reducible apply State.enter_ok
    | (with_reducible refine State.enter_ok_of (by assumption) ?_) | with_reducible apply State.settle_ok
    | with_reducible apply State.stageNote_ok | (simp only [ok_mk, ok3_eq]) | (intro _ _ _) | (intro _ _) | split
    | (dsimp only))

theorem State.cxlAnswer_ok {s : State} {ld : Nat} {opcode : Nat} {ret : Nat} {body : List Nat} (hok : Ok pq s) :
    Ok pq (State.cxlAnswer s ld opcode ret body) := by
  unfold State.cxlAnswer
  try dsimp only
  repeat' (first
    | with_reducible assumption | with_reducible apply ok_ite | with_reducible apply ok_ite_fst
    | with_reducible apply State.emit_ok | with_reducible apply State.modLd_ok | (simp only [ok_mk, ok3_eq])
    | (intro _ _ _) | (intro _ _) | split | (dsimp only))

end Sys2Proof.Machine
end

