-- ==== Sys2Proof/Laws/KeepsHlc.lean ====
section
/-! SUPPORT. The operations of Machine/Hlc.lean keep memory sound and leave the queue alone. -/

namespace Sys2Proof.Machine

set_option linter.unusedVariables false
set_option linter.unusedTactic false
set_option linter.unreachableTactic false

variable {pq : List Instr}

theorem State.lineBad_ok {s : State} {tile : Nat} {line : Nat} {bad : List Nat} {parity : Bool} (hok : Ok pq s) :
    Ok pq (State.lineBad s tile line bad parity) := by
  unfold State.lineBad
  try dsimp only
  repeat' (first
    | with_reducible assumption | with_reducible apply ok_foldl | with_reducible apply ok_foldl_fst
    | with_reducible apply State.badRead_ok | with_reducible apply State.dmcBad_ok | (simp only [ok_mk, ok3_eq])
    | (intro _ _ _) | (intro _ _) | split | (dsimp only))

theorem State.directDone_ok {s : State} {line : Nat} (hok : Ok pq s) :
    Ok pq (State.directDone s line) := by
  unfold State.directDone
  try dsimp only
  repeat' (first
    | with_reducible assumption | with_reducible apply ok_ite | with_reducible apply ok_ite_fst
    | (simp only [ok_mk, ok3_eq]) | (intro _ _ _) | (intro _ _) | split | (dsimp only))

theorem State.lineRead_ok {s : State} {tile : Nat} {line : Nat} {bad : List Nat} {parity : Bool} (hok : Ok pq s) :
    Ok pq (State.lineRead s tile line bad parity) := by
  unfold State.lineRead
  try dsimp only
  repeat' (first
    | with_reducible assumption | with_reducible apply ok_ite | with_reducible apply ok_ite_fst
    | with_reducible apply State.setWay_ok | with_reducible apply State.freeWay_ok
    | with_reducible apply State.lineBad_ok | with_reducible apply State.directDone_ok | (simp only [ok_mk, ok3_eq])
    | (intro _ _ _) | (intro _ _) | split | (dsimp only))

theorem execHlcFillComplete_ok {s : State} {tile : Nat} {line : Fin 16} {badSectors : Fin 16} {parity : Bool} {retryOk : Fin 5} (hok : Ok pq s) :
    OutOk pq (execHlcFillComplete tile line badSectors parity retryOk s) := by
  unfold execHlcFillComplete
  try dsimp only
  repeat' (first
    | with_reducible assumption | exact True.intro | with_reducible apply outOk_next | with_reducible apply outOk_ite
    | with_reducible apply ok_ite | with_reducible apply ok_ite_fst | with_reducible apply ok_foldl
    | with_reducible apply ok_foldl_fst | with_reducible apply State.count_ok | with_reducible apply State.err1_ok
    | (with_reducible refine State.served_ok (by assumption) ?_) | with_reducible apply State.chiveHits_ok
    | with_reducible apply State.settle_ok | with_reducible apply State.lineRead_ok | (simp only [ok_mk, ok3_eq])
    | (intro _ _ _) | (intro _ _) | split | (dsimp only))

theorem execHlcEvbWriteComplete_ok {s : State} {tile : Nat} {line : Fin 16} (hok : Ok pq s) :
    OutOk pq (execHlcEvbWriteComplete tile line s) := by
  unfold execHlcEvbWriteComplete
  try dsimp only
  repeat' (first
    | with_reducible assumption | exact True.intro | with_reducible apply outOk_next | with_reducible apply outOk_ite
    | with_reducible apply ok_ite | with_reducible apply ok_ite_fst
    | (with_reducible refine State.served_ok (by assumption) ?_) | with_reducible apply State.chiveHits_ok
    | with_reducible apply State.settle_ok | (simp only [ok_mk, ok3_eq]) | (intro _ _ _) | (intro _ _) | split
    | (dsimp only))

theorem execHlcClean_ok {s : State} {tile : Nat} {line : Fin 16} (hok : Ok pq s) :
    OutOk pq (execHlcClean tile line s) := by
  unfold execHlcClean
  try dsimp only
  repeat' (first
    | with_reducible assumption | exact True.intro | with_reducible apply outOk_next | with_reducible apply outOk_ite
    | with_reducible apply ok_ite | with_reducible apply ok_ite_fst | with_reducible apply State.setWay_ok
    | with_reducible apply State.settle_ok | (simp only [ok_mk, ok3_eq]) | (intro _ _ _) | (intro _ _) | split
    | (dsimp only))

theorem State.writeCheck_ok {s : State} {tile : Nat} {line : Nat} {mask : Nat} (hok : Ok pq s) :
    Ok pq (State.writeCheck s tile line mask) := by
  unfold State.writeCheck
  try dsimp only
  repeat' (first
    | with_reducible assumption | with_reducible apply ok_foldl | with_reducible apply ok_foldl_fst
    | with_reducible apply State.count_ok | with_reducible apply State.flag_ok | with_reducible apply State.markBad_ok
    | with_reducible apply State.dmcFail_ok | (simp only [ok_mk, ok3_eq]) | (intro _ _ _) | (intro _ _) | split
    | (dsimp only))

theorem execHlcWritebackDone_ok {s : State} {tile : Nat} {line : Fin 16} {wrCheck : Fin 16} (hok : Ok pq s) :
    OutOk pq (execHlcWritebackDone tile line wrCheck s) := by
  unfold execHlcWritebackDone
  try dsimp only
  repeat' (first
    | with_reducible assumption | exact True.intro | with_reducible apply outOk_next | with_reducible apply outOk_ite
    | with_reducible apply ok_ite | with_reducible apply ok_ite_fst | with_reducible apply State.setWay_ok
    | with_reducible apply State.freeWay_ok | (with_reducible refine State.served_ok (by assumption) ?_)
    | with_reducible apply State.chiveHits_ok | with_reducible apply State.settle_ok
    | with_reducible apply State.writeCheck_ok | (simp only [ok_mk, ok3_eq]) | (intro _ _ _) | (intro _ _) | split
    | (dsimp only))

theorem State.maintStart_ok {s : State} {inval : Bool} {scope : Nat} (hok : Ok pq s) :
    Ok pq (State.maintStart s inval scope) := by
  unfold State.maintStart
  try dsimp only
  repeat' (first
    | with_reducible assumption | with_reducible apply ok_ite | with_reducible apply ok_ite_fst
    | with_reducible apply State.setReg_ok | with_reducible apply State.countBy_ok
    | with_reducible apply State.settle_ok | (simp only [ok_mk, ok3_eq]) | (intro _ _ _) | (intro _ _) | split
    | (dsimp only))

theorem execHlcMaintComplete_ok {s : State} (hok : Ok pq s) :
    OutOk pq (execHlcMaintComplete s) := by
  unfold execHlcMaintComplete
  try dsimp only
  repeat' (first
    | with_reducible assumption | exact True.intro | with_reducible apply outOk_next | with_reducible apply outOk_ite
    | with_reducible apply ok_ite | with_reducible apply ok_ite_fst | with_reducible apply State.flag_ok
    | (simp only [ok_mk, ok3_eq]) | (intro _ _ _) | (intro _ _) | split | (dsimp only))

theorem State.lineUncorr_ok {s : State} {key : Nat} {tile : Nat} {line : Nat} {w : Way} (hok : Ok pq s) :
    Ok pq (State.lineUncorr s key tile line w) := by
  unfold State.lineUncorr
  try dsimp only
  repeat' (first
    | with_reducible assumption | with_reducible apply ok_ite | with_reducible apply ok_ite_fst
    | with_reducible apply State.count_ok | with_reducible apply State.flag_ok
    | with_reducible apply State.flagRecord_ok | with_reducible apply State.freeWay_ok
    | with_reducible apply State.badRead_ok | (simp only [ok_mk, ok3_eq]) | (intro _ _ _) | (intro _ _) | split
    | (dsimp only))

theorem State.hlcFault_ok {s : State} {psa : Nat} {f : HlcFault} (hok : Ok pq s) :
    Ok pq (State.hlcFault s psa f) := by
  unfold State.hlcFault
  try dsimp only
  repeat' (first
    | with_reducible assumption | with_reducible apply ok_ite | with_reducible apply ok_ite_fst
    | with_reducible apply State.count_ok | with_reducible apply State.flag_ok
    | with_reducible apply State.flagRecord_ok | with_reducible apply State.err1_ok
    | with_reducible apply State.lineUncorr_ok | (simp only [ok_mk, ok3_eq]) | (intro _ _ _) | (intro _ _) | split
    | (dsimp only))

theorem State.scanFail_ok {s : State} {tile : Nat} (hok : Ok pq s) :
    Ok pq (State.scanFail s tile) := by
  unfold State.scanFail
  try dsimp only
  repeat' (first
    | with_reducible assumption | with_reducible apply ok_ite | with_reducible apply ok_ite_fst
    | with_reducible apply State.cancelEvict_ok | with_reducible apply State.startRepair_ok
    | with_reducible apply State.markBad_ok | (simp only [ok_mk, ok3_eq]) | (intro _ _ _) | (intro _ _) | split
    | (dsimp only))

theorem execTagSetScanDone_ok {s : State} {slice : Fin 16} {set : Fin 2048} (hok : Ok pq s) :
    OutOk pq (execTagSetScanDone slice set s) := by
  unfold execTagSetScanDone
  try dsimp only
  repeat' (first
    | with_reducible assumption | exact True.intro | with_reducible apply outOk_next | with_reducible apply outOk_ite
    | with_reducible apply ok_ite | with_reducible apply ok_ite_fst | with_reducible apply ok_foldl
    | with_reducible apply ok_foldl_fst | with_reducible apply State.settle_ok
    | with_reducible apply State.scanFail_ok | (simp only [ok_mk, ok3_eq]) | (intro _ _ _) | (intro _ _) | split
    | (dsimp only))

end Sys2Proof.Machine
end

