-- ==== Sys2Proof/Laws/KeepsCxl.lean ====
section
/-! SUPPORT. The operations of Machine/Cxl.lean keep memory sound and leave the queue alone. -/

namespace Sys2Proof.Machine

set_option linter.unusedVariables false
set_option linter.unusedTactic false
set_option linter.unreachableTactic false

variable {pq : List Instr}

theorem execCxlLinkTrained_ok {s : State} {port : Fin 2} {link : Fin 2} {width : Nat} {speed : Nat} {flit : Flit} (hok : Ok pq s) :
    OutOk pq (execCxlLinkTrained port link width speed flit s) := by
  unfold execCxlLinkTrained
  try dsimp only
  repeat' (first
    | with_reducible assumption | exact True.intro | with_reducible apply outOk_next | with_reducible apply outOk_ite
    | with_reducible apply ok_ite | with_reducible apply ok_ite_fst | with_reducible apply ok_cond
    | with_reducible apply ok_foldl | with_reducible apply ok_foldl_fst | with_reducible apply State.flag_ok
    | with_reducible apply State.wakeFor_ok | with_reducible apply State.modLd_ok
    | with_reducible apply State.modLink_ok | with_reducible apply State.activateLds_ok | (simp only [ok_mk, ok3_eq])
    | (intro _ _ _) | (intro _ _) | split | (dsimp only))

theorem execCxlLinkDown_ok {s : State} {port : Fin 2} {link : Fin 2} (hok : Ok pq s) :
    OutOk pq (execCxlLinkDown port link s) := by
  unfold execCxlLinkDown
  try dsimp only
  repeat' (first
    | with_reducible assumption | exact True.intro | with_reducible apply outOk_next | with_reducible apply outOk_ite
    | with_reducible apply State.dropLink_ok | (simp only [ok_mk, ok3_eq]) | (intro _ _ _) | (intro _ _) | split
    | (dsimp only))

theorem execCxlLinkRecovery_ok {s : State} {port : Fin 2} {link : Fin 2} (hok : Ok pq s) :
    OutOk pq (execCxlLinkRecovery port link s) := by
  unfold execCxlLinkRecovery
  try dsimp only
  repeat' (first
    | with_reducible assumption | exact True.intro | with_reducible apply outOk_next | with_reducible apply outOk_ite
    | with_reducible apply State.flag_ok | with_reducible apply State.modLink_ok | (simp only [ok_mk, ok3_eq])
    | (intro _ _ _) | (intro _ _) | split | (dsimp only))

theorem execCxlLinkDownHoldExpiry_ok {s : State} {port : Fin 2} {link : Fin 2} (hok : Ok pq s) :
    OutOk pq (execCxlLinkDownHoldExpiry port link s) := by
  unfold execCxlLinkDownHoldExpiry
  try dsimp only
  repeat' (first
    | with_reducible assumption | exact True.intro | with_reducible apply outOk_next | with_reducible apply outOk_ite
    | with_reducible apply ok_foldl | with_reducible apply ok_foldl_fst | with_reducible apply State.departLd_ok
    | (simp only [ok_mk, ok3_eq]) | (intro _ _ _) | (intro _ _) | split | (dsimp only))

theorem execDepartureHoldExpiry_ok {s : State} {ld : Fin 32} (hok : Ok pq s) :
    OutOk pq (execDepartureHoldExpiry ld s) := by
  unfold execDepartureHoldExpiry
  try dsimp only
  repeat' (first
    | with_reducible assumption | exact True.intro | with_reducible apply outOk_next | with_reducible apply outOk_ite
    | with_reducible apply State.record_ok | (simp only [ok_mk, ok3_eq]) | (intro _ _ _) | (intro _ _) | split
    | (dsimp only))

theorem State.setWidth_ok {s : State} {port : Nat} {link : Nat} {w : Nat} (hok : Ok pq s) :
    Ok pq (State.setWidth s port link w) := by
  unfold State.setWidth
  try dsimp only
  repeat' (first
    | with_reducible assumption | with_reducible apply ok_ite | with_reducible apply ok_ite_fst
    | with_reducible apply State.emit_ok | with_reducible apply State.modLink_ok | (simp only [ok_mk, ok3_eq])
    | (intro _ _ _) | (intro _ _) | split | (dsimp only))

theorem execL0pNarrowRequest_ok {s : State} {port : Fin 2} {link : Fin 2} (hok : Ok pq s) :
    OutOk pq (execL0pNarrowRequest port link s) := by
  unfold execL0pNarrowRequest
  try dsimp only
  repeat' (first
    | with_reducible assumption | exact True.intro | with_reducible apply outOk_next | with_reducible apply outOk_ite
    | with_reducible apply ok_ite | with_reducible apply ok_ite_fst | with_reducible apply State.setWidth_ok
    | (simp only [ok_mk, ok3_eq]) | (intro _ _ _) | (intro _ _) | split | (dsimp only))

theorem execL0pWidenRequest_ok {s : State} {port : Fin 2} {link : Fin 2} (hok : Ok pq s) :
    OutOk pq (execL0pWidenRequest port link s) := by
  unfold execL0pWidenRequest
  try dsimp only
  repeat' (first
    | with_reducible assumption | exact True.intro | with_reducible apply outOk_next | with_reducible apply outOk_ite
    | with_reducible apply ok_ite | with_reducible apply ok_ite_fst | with_reducible apply State.setWidth_ok
    | (simp only [ok_mk, ok3_eq]) | (intro _ _ _) | (intro _ _) | split | (dsimp only))

theorem execL0pHostRequest_ok {s : State} {port : Fin 2} {link : Fin 2} {width : Nat} (hok : Ok pq s) :
    OutOk pq (execL0pHostRequest port link width s) := by
  unfold execL0pHostRequest
  try dsimp only
  repeat' (first
    | with_reducible assumption | exact True.intro | with_reducible apply outOk_next | with_reducible apply outOk_ite
    | with_reducible apply ok_ite | with_reducible apply ok_ite_fst | with_reducible apply State.setWidth_ok
    | (simp only [ok_mk, ok3_eq]) | (intro _ _ _) | (intro _ _) | split | (dsimp only))

theorem execAspmL1Entry_ok {s : State} {port : Fin 2} {link : Fin 2} {hostAllows : Bool} (hok : Ok pq s) :
    OutOk pq (execAspmL1Entry port link hostAllows s) := by
  unfold execAspmL1Entry
  try dsimp only
  repeat' (first
    | with_reducible assumption | exact True.intro | with_reducible apply outOk_next | with_reducible apply outOk_ite
    | with_reducible apply ok_ite | with_reducible apply ok_ite_fst | with_reducible apply State.modLink_ok
    | (simp only [ok_mk, ok3_eq]) | (intro _ _ _) | (intro _ _) | split | (dsimp only))

theorem execAspmL1Exit_ok {s : State} {port : Fin 2} {link : Fin 2} (hok : Ok pq s) :
    OutOk pq (execAspmL1Exit port link s) := by
  unfold execAspmL1Exit
  try dsimp only
  repeat' (first
    | with_reducible assumption | exact True.intro | with_reducible apply outOk_next | with_reducible apply outOk_ite
    | with_reducible apply ok_ite | with_reducible apply ok_ite_fst | with_reducible apply State.wakeFor_ok
    | with_reducible apply State.modLink_ok | (simp only [ok_mk, ok3_eq]) | (intro _ _ _) | (intro _ _) | split
    | (dsimp only))

theorem execCxlHostConnected_ok {s : State} {port : Fin 2} {link : Fin 2} (hok : Ok pq s) :
    OutOk pq (execCxlHostConnected port link s) := by
  unfold execCxlHostConnected
  try dsimp only
  repeat' (first
    | with_reducible assumption | exact True.intro | with_reducible apply outOk_next | with_reducible apply outOk_ite
    | with_reducible apply ok_ite | with_reducible apply ok_ite_fst | with_reducible apply ok_cond
    | with_reducible apply State.wakeFor_ok | with_reducible apply State.trainLink_ok | (simp only [ok_mk, ok3_eq])
    | (intro _ _ _) | (intro _ _) | split | (dsimp only))

theorem execCxlMemEnable_ok {s : State} {ld : Fin 32} (hok : Ok pq s) :
    OutOk pq (execCxlMemEnable ld s) := by
  unfold execCxlMemEnable
  try dsimp only
  repeat' (first
    | with_reducible assumption | exact True.intro | with_reducible apply outOk_next | with_reducible apply outOk_ite
    | with_reducible apply State.modLd_ok | with_reducible apply State.activateLds_ok | (simp only [ok_mk, ok3_eq])
    | (intro _ _ _) | (intro _ _) | split | (dsimp only))

theorem execCxlMemrd_ok {s : State} {ld : Fin 32} {tag : Nat} {dpa : Nat} {f : HlcFault} (hok : Ok pq s) :
    OutOk pq (execCxlMemrd ld tag dpa f s) := by
  unfold execCxlMemrd
  try dsimp only
  repeat' (first
    | with_reducible assumption | exact True.intro | with_reducible apply outOk_next | with_reducible apply outOk_ite
    | with_reducible apply ok_ite | with_reducible apply ok_ite_fst | with_reducible apply State.useCredit_ok
    | with_reducible apply State.submit_ok | (with_reducible refine State.submit_ok_of (by assumption) ?_)
    | with_reducible apply State.cxlRefuseRead_ok | with_reducible apply State.hlcFault_ok
    | (simp only [ok_mk, ok3_eq]) | (intro _ _ _) | (intro _ _) | split | (dsimp only))

theorem execCxlMemwr_ok {s : State} {ld : Fin 32} {tag : Nat} {dpa : Nat} {data : List Byte} {poison : Bool} (hok : Ok pq s) :
    OutOk pq (execCxlMemwr ld tag dpa data poison s) := by
  unfold execCxlMemwr
  try dsimp only
  repeat' (first
    | with_reducible assumption | exact True.intro | with_reducible apply outOk_next | with_reducible apply outOk_ite
    | with_reducible apply ok_ite | with_reducible apply ok_ite_fst | with_reducible apply State.useCredit_ok
    | with_reducible apply State.cbRefuse_ok | with_reducible apply State.cxlRefuseWrite_ok
    | with_reducible apply State.cxlWrite_ok | (simp only [ok_mk, ok3_eq]) | (intro _ _ _) | (intro _ _) | split
    | (dsimp only))

theorem execCxlFlr_ok {s : State} {ld : Fin 32} (hok : Ok pq s) :
    OutOk pq (execCxlFlr ld s) := by
  unfold execCxlFlr
  try dsimp only
  repeat' (first
    | with_reducible assumption | exact True.intro | with_reducible apply outOk_next | with_reducible apply outOk_ite
    | with_reducible apply State.settle_ok | with_reducible apply State.resetLd_ok | (simp only [ok_mk, ok3_eq])
    | (intro _ _ _) | (intro _ _) | split | (dsimp only))

theorem execCxlHotReset_ok {s : State} {port : Fin 2} {link : Fin 2} (hok : Ok pq s) :
    OutOk pq (execCxlHotReset port link s) := by
  unfold execCxlHotReset
  try dsimp only
  repeat' (first
    | with_reducible assumption | exact True.intro | with_reducible apply outOk_next | with_reducible apply outOk_ite
    | with_reducible apply ok_foldl | with_reducible apply ok_foldl_fst | with_reducible apply State.settle_ok
    | with_reducible apply State.modLink_ok | with_reducible apply State.resetLd_ok | (simp only [ok_mk, ok3_eq])
    | (intro _ _ _) | (intro _ _) | split | (dsimp only))

theorem execFlrDone_ok {s : State} {ld : Fin 32} (hok : Ok pq s) :
    OutOk pq (execFlrDone ld s) := by
  unfold execFlrDone
  try dsimp only
  repeat' (first
    | with_reducible assumption | exact True.intro | with_reducible apply outOk_next | with_reducible apply outOk_ite
    | with_reducible apply State.modLd_ok | (simp only [ok_mk, ok3_eq]) | (intro _ _ _) | (intro _ _) | split
    | (dsimp only))

theorem execPersistBarrierRead_ok {s : State} {ld : Fin 32} (hok : Ok pq s) :
    OutOk pq (execPersistBarrierRead ld s) := by
  unfold execPersistBarrierRead
  try dsimp only
  repeat' (first
    | with_reducible assumption | exact True.intro | with_reducible apply outOk_next | with_reducible apply outOk_ite
    | with_reducible apply State.modLd_ok | (simp only [ok_mk, ok3_eq]) | (intro _ _ _) | (intro _ _) | split
    | (dsimp only))

theorem execPersistBarrierReturn_ok {s : State} {ld : Fin 32} (hok : Ok pq s) :
    OutOk pq (execPersistBarrierReturn ld s) := by
  unfold execPersistBarrierReturn
  try dsimp only
  repeat' (first
    | with_reducible assumption | exact True.intro | with_reducible apply outOk_next | with_reducible apply outOk_ite
    | with_reducible apply ok_ite | with_reducible apply ok_ite_fst | with_reducible apply State.emit_ok
    | with_reducible apply State.modLd_ok | (simp only [ok_mk, ok3_eq]) | (intro _ _ _) | (intro _ _) | split
    | (dsimp only))

theorem execGpfPhase1_ok {s : State} {port : Fin 2} {link : Fin 2} (hok : Ok pq s) :
    OutOk pq (execGpfPhase1 port link s) := by
  unfold execGpfPhase1
  try dsimp only
  repeat' (first
    | with_reducible assumption | exact True.intro | with_reducible apply outOk_next | with_reducible apply outOk_ite
    | with_reducible apply State.emit_ok | (simp only [ok_mk, ok3_eq]) | (intro _ _ _) | (intro _ _) | split
    | (dsimp only))

theorem execGpfPhase2_ok {s : State} {port : Fin 2} {link : Fin 2} (hok : Ok pq s) :
    OutOk pq (execGpfPhase2 port link s) := by
  unfold execGpfPhase2
  try dsimp only
  repeat' (first
    | with_reducible assumption | exact True.intro | with_reducible apply outOk_next | with_reducible apply outOk_ite
    | with_reducible apply State.modLink_ok | (simp only [ok_mk, ok3_eq]) | (intro _ _ _) | (intro _ _) | split
    | (dsimp only))

theorem execGpfPhase2Complete_ok {s : State} {port : Fin 2} {link : Fin 2} {ns : Nat} (hok : Ok pq s) :
    OutOk pq (execGpfPhase2Complete port link ns s) := by
  unfold execGpfPhase2Complete
  try dsimp only
  repeat' (first
    | with_reducible assumption | exact True.intro | with_reducible apply outOk_next | with_reducible apply outOk_ite
    | with_reducible apply ok_ite | with_reducible apply ok_ite_fst | with_reducible apply State.setFld_ok
    | with_reducible apply State.emit_ok | with_reducible apply State.flagRecord_ok
    | with_reducible apply State.modLink_ok | (simp only [ok_mk, ok3_eq]) | (intro _ _ _) | (intro _ _) | split
    | (dsimp only))

theorem execGetLdInfo_ok {s : State} {port : Fin 2} (hok : Ok pq s) :
    OutOk pq (execGetLdInfo port s) := by
  unfold execGetLdInfo
  try dsimp only
  repeat' (first
    | with_reducible assumption | exact True.intro | with_reducible apply outOk_next | with_reducible apply outOk_ite
    | with_reducible apply State.emit_ok | (simp only [ok_mk, ok3_eq]) | (intro _ _ _) | (intro _ _) | split
    | (dsimp only))

theorem execGetLdAllocations_ok {s : State} {port : Fin 2} (hok : Ok pq s) :
    OutOk pq (execGetLdAllocations port s) := by
  unfold execGetLdAllocations
  try dsimp only
  repeat' (first
    | with_reducible assumption | exact True.intro | with_reducible apply outOk_next | with_reducible apply outOk_ite
    | with_reducible apply State.emit_ok | (simp only [ok_mk, ok3_eq]) | (intro _ _ _) | (intro _ _) | split
    | (dsimp only))

theorem execSetLdAllocations_ok {s : State} {port : Fin 2} {ld : Fin 16} {bind : Bool} {alloc : Nat} (hok : Ok pq s) :
    OutOk pq (execSetLdAllocations port ld bind alloc s) := by
  unfold execSetLdAllocations
  try dsimp only
  repeat' (first
    | with_reducible assumption | exact True.intro | with_reducible apply outOk_next | with_reducible apply outOk_ite
    | with_reducible apply ok_ite | with_reducible apply ok_ite_fst | with_reducible apply State.emit_ok
    | with_reducible apply State.bothNow_ok | with_reducible apply State.modLd_ok
    | with_reducible apply State.bindLd_ok | (simp only [ok_mk, ok3_eq]) | (intro _ _ _) | (intro _ _) | split
    | (dsimp only))

theorem execGetQosControl_ok {s : State} {port : Fin 2} (hok : Ok pq s) :
    OutOk pq (execGetQosControl port s) := by
  unfold execGetQosControl
  try dsimp only
  repeat' (first
    | with_reducible assumption | exact True.intro | with_reducible apply outOk_next | with_reducible apply outOk_ite
    | with_reducible apply State.emit_ok | (simp only [ok_mk, ok3_eq]) | (intro _ _ _) | (intro _ _) | split
    | (dsimp only))

theorem State.qosClass_ok {s : State} {ld : Nat} {cls : Option (Fin 8)} (hok : Ok pq s) :
    Ok pq (State.qosClass s ld cls) := by
  unfold State.qosClass
  try dsimp only
  repeat' (first
    | with_reducible assumption | with_reducible apply State.bothNow_ok | (simp only [ok_mk, ok3_eq]) | (intro _ _ _)
    | (intro _ _) | split | (dsimp only))

theorem execSetQosControl_ok {s : State} {port : Fin 2} {ctl : Nat} {ld : Fin 16} {ctm : Bool} {cls : Option (Fin 8)} (hok : Ok pq s) :
    OutOk pq (execSetQosControl port ctl ld ctm cls s) := by
  unfold execSetQosControl
  try dsimp only
  repeat' (first
    | with_reducible assumption | exact True.intro | with_reducible apply outOk_next | with_reducible apply outOk_ite
    | with_reducible apply ok_ite | with_reducible apply ok_ite_fst | with_reducible apply State.setFld_ok
    | with_reducible apply State.emit_ok | with_reducible apply State.durPoll_ok | with_reducible apply State.modLd_ok
    | with_reducible apply State.setDur_ok | (with_reducible refine State.setDur_ok_of (by assumption) ?_)
    | with_reducible apply State.qosClass_ok | (simp only [ok_mk, ok3_eq]) | (intro _ _ _) | (intro _ _) | split
    | (dsimp only))

theorem execFmExtentAdd_ok {s : State} {ld : Fin 32} {dcRegion : Fin 8} {dpa : Nat} {len : Nat} {region : Nat} {rof : Nat} (hok : Ok pq s) :
    OutOk pq (execFmExtentAdd ld dcRegion dpa len region rof s) := by
  unfold execFmExtentAdd
  try dsimp only
  repeat' (first
    | with_reducible assumption | exact True.intro | with_reducible apply outOk_next | with_reducible apply outOk_ite
    | with_reducible apply ok_ite | with_reducible apply ok_ite_fst | with_reducible apply State.emit_ok
    | with_reducible apply State.jwPut_ok | with_reducible apply State.extentPut_ok
    | (with_reducible refine State.extentPut_ok_of (by assumption) ?_) | (simp only [ok_mk, ok3_eq]) | (intro _ _ _)
    | (intro _ _) | split | (dsimp only))

theorem execFmExtentRelease_ok {s : State} {ld : Fin 32} {region : Nat} {rof : Nat} {gen : Nat} {force : Bool} (hok : Ok pq s) :
    OutOk pq (execFmExtentRelease ld region rof gen force s) := by
  unfold execFmExtentRelease
  try dsimp only
  repeat' (first
    | with_reducible assumption | exact True.intro | with_reducible apply outOk_next | with_reducible apply outOk_ite
    | with_reducible apply ok_ite | with_reducible apply ok_ite_fst | with_reducible apply State.emit_ok
    | with_reducible apply State.extentAsk_ok | (simp only [ok_mk, ok3_eq]) | (intro _ _ _) | (intro _ _) | split
    | (dsimp only))

theorem execDcResponseTimeout_ok {s : State} {idx : Nat} (hok : Ok pq s) :
    OutOk pq (execDcResponseTimeout idx s) := by
  unfold execDcResponseTimeout
  try dsimp only
  repeat' (first
    | with_reducible assumption | exact True.intro | with_reducible apply outOk_next | with_reducible apply outOk_ite
    | with_reducible apply ok_ite | with_reducible apply ok_ite_fst | with_reducible apply State.extDone_ok
    | with_reducible apply State.extentDrop_ok | (simp only [ok_mk, ok3_eq]) | (intro _ _ _) | (intro _ _) | split
    | (dsimp only))

theorem execExtentRemovalDrained_ok {s : State} {idx : Nat} (hok : Ok pq s) :
    OutOk pq (execExtentRemovalDrained idx s) := by
  unfold execExtentRemovalDrained
  try dsimp only
  repeat' (first
    | with_reducible assumption | exact True.intro | with_reducible apply outOk_next | with_reducible apply outOk_ite
    | with_reducible apply ok_ite | with_reducible apply ok_ite_fst | with_reducible apply State.logEvent_ok
    | with_reducible apply State.waitDone_ok | with_reducible apply State.extDone_ok
    | with_reducible apply State.extentDrop_ok | with_reducible apply State.cxlAnswer_ok | (simp only [ok_mk, ok3_eq])
    | (intro _ _ _) | (intro _ _) | split | (dsimp only))

theorem execGetEventRecords_ok {s : State} {ld : Fin 32} {log : Fin 5} (hok : Ok pq s) :
    OutOk pq (execGetEventRecords ld log s) := by
  unfold execGetEventRecords
  try dsimp only
  repeat' (first
    | with_reducible assumption | exact True.intro | with_reducible apply outOk_next | with_reducible apply outOk_ite
    | with_reducible apply State.cxlAnswer_ok | (simp only [ok_mk, ok3_eq]) | (intro _ _ _) | (intro _ _) | split
    | (dsimp only))

theorem execClearEventRecords_ok {s : State} {ld : Fin 32} {log : Fin 5} {all : Bool} {handles : List Nat} (hok : Ok pq s) :
    OutOk pq (execClearEventRecords ld log all handles s) := by
  unfold execClearEventRecords
  try dsimp only
  repeat' (first
    | with_reducible assumption | exact True.intro | with_reducible apply outOk_next | with_reducible apply outOk_ite
    | with_reducible apply ok_ite | with_reducible apply ok_ite_fst | with_reducible apply State.modLd_ok
    | with_reducible apply State.cxlAnswer_ok | (simp only [ok_mk, ok3_eq]) | (intro _ _ _) | (intro _ _) | split
    | (dsimp only))

theorem execGetEventInterruptPolicy_ok {s : State} {ld : Fin 32} (hok : Ok pq s) :
    OutOk pq (execGetEventInterruptPolicy ld s) := by
  unfold execGetEventInterruptPolicy
  try dsimp only
  repeat' (first
    | with_reducible assumption | exact True.intro | with_reducible apply outOk_next | with_reducible apply outOk_ite
    | with_reducible apply State.cxlAnswer_ok | (simp only [ok_mk, ok3_eq]) | (intro _ _ _) | (intro _ _) | split
    | (dsimp only))

theorem execSetEventInterruptPolicy_ok {s : State} {ld : Fin 32} {policy : Nat} (hok : Ok pq s) :
    OutOk pq (execSetEventInterruptPolicy ld policy s) := by
  unfold execSetEventInterruptPolicy
  try dsimp only
  repeat' (first
    | with_reducible assumption | exact True.intro | with_reducible apply outOk_next | with_reducible apply outOk_ite
    | with_reducible apply ok_ite | with_reducible apply ok_ite_fst | with_reducible apply State.modLd_ok
    | with_reducible apply State.cxlAnswer_ok | (simp only [ok_mk, ok3_eq]) | (intro _ _ _) | (intro _ _) | split
    | (dsimp only))

theorem execGetSupportedLogs_ok {s : State} {ld : Fin 32} (hok : Ok pq s) :
    OutOk pq (execGetSupportedLogs ld s) := by
  unfold execGetSupportedLogs
  try dsimp only
  repeat' (first
    | with_reducible assumption | exact True.intro | with_reducible apply outOk_next | with_reducible apply outOk_ite
    | with_reducible apply State.cxlAnswer_ok | (simp only [ok_mk, ok3_eq]) | (intro _ _ _) | (intro _ _) | split
    | (dsimp only))

theorem execGetLog_ok {s : State} {ld : Fin 32} {cel : Bool} {off : Nat} {len : Nat} (hok : Ok pq s) :
    OutOk pq (execGetLog ld cel off len s) := by
  unfold execGetLog
  try dsimp only
  repeat' (first
    | with_reducible assumption | exact True.intro | with_reducible apply outOk_next | with_reducible apply outOk_ite
    | with_reducible apply ok_ite | with_reducible apply ok_ite_fst | with_reducible apply State.cxlAnswer_ok
    | (simp only [ok_mk, ok3_eq]) | (intro _ _ _) | (intro _ _) | split | (dsimp only))

theorem execIdentifyMemoryDevice_ok {s : State} {ld : Fin 32} (hok : Ok pq s) :
    OutOk pq (execIdentifyMemoryDevice ld s) := by
  unfold execIdentifyMemoryDevice
  try dsimp only
  repeat' (first
    | with_reducible assumption | exact True.intro | with_reducible apply outOk_next | with_reducible apply outOk_ite
    | with_reducible apply ok_ite | with_reducible apply ok_ite_fst | with_reducible apply State.cxlAnswer_ok
    | (simp only [ok_mk, ok3_eq]) | (intro _ _ _) | (intro _ _) | split | (dsimp only))

theorem execGetPartitionInfo_ok {s : State} {ld : Fin 32} (hok : Ok pq s) :
    OutOk pq (execGetPartitionInfo ld s) := by
  unfold execGetPartitionInfo
  try dsimp only
  repeat' (first
    | with_reducible assumption | exact True.intro | with_reducible apply outOk_next | with_reducible apply outOk_ite
    | with_reducible apply State.cxlAnswer_ok | (simp only [ok_mk, ok3_eq]) | (intro _ _ _) | (intro _ _) | split
    | (dsimp only))

theorem execGetFwInfo_ok {s : State} {ld : Fin 32} (hok : Ok pq s) :
    OutOk pq (execGetFwInfo ld s) := by
  unfold execGetFwInfo
  try dsimp only
  repeat' (first
    | with_reducible assumption | exact True.intro | with_reducible apply outOk_next | with_reducible apply outOk_ite
    | with_reducible apply ok_ite | with_reducible apply ok_ite_fst | with_reducible apply State.cxlAnswer_ok
    | (simp only [ok_mk, ok3_eq]) | (intro _ _ _) | (intro _ _) | split | (dsimp only))

theorem execGetPoisonList_ok {s : State} {ld : Fin 32} {dpa : Nat} {len : Nat} (hok : Ok pq s) :
    OutOk pq (execGetPoisonList ld dpa len s) := by
  unfold execGetPoisonList
  try dsimp only
  repeat' (first
    | with_reducible assumption | exact True.intro | with_reducible apply outOk_next | with_reducible apply outOk_ite
    | with_reducible apply State.cxlAnswer_ok | (simp only [ok_mk, ok3_eq]) | (intro _ _ _) | (intro _ _) | split
    | (dsimp only))

theorem execInjectPoison_ok {s : State} {ld : Fin 32} {dpa : Nat} (hok : Ok pq s) :
    OutOk pq (execInjectPoison ld dpa s) := by
  unfold execInjectPoison
  try dsimp only
  repeat' (first
    | with_reducible assumption | exact True.intro | with_reducible apply outOk_next | with_reducible apply outOk_ite
    | with_reducible apply ok_ite | with_reducible apply ok_ite_fst | with_reducible apply State.refuse_ok
    | with_reducible apply State.enter_ok | (with_reducible refine State.enter_ok_of (by assumption) ?_)
    | with_reducible apply State.settle_ok | with_reducible apply State.bothNow_ok
    | with_reducible apply State.cxlAnswer_ok | (simp only [ok_mk, ok3_eq]) | (intro _ _ _) | (intro _ _) | split
    | (dsimp only))

theorem execClearPoison_ok {s : State} {ld : Fin 32} {dpa : Nat} {data : List Byte} (hok : Ok pq s) :
    OutOk pq (execClearPoison ld dpa data s) := by
  unfold execClearPoison
  try dsimp only
  repeat' (first
    | with_reducible assumption | exact True.intro | with_reducible apply outOk_next | with_reducible apply outOk_ite
    | with_reducible apply ok_ite | with_reducible apply ok_ite_fst | with_reducible apply State.refuse_ok
    | with_reducible apply State.enter_ok | (with_reducible refine State.enter_ok_of (by assumption) ?_)
    | with_reducible apply State.settle_ok | with_reducible apply State.cxlAnswer_ok | (simp only [ok_mk, ok3_eq])
    | (intro _ _ _) | (intro _ _) | split | (dsimp only))

theorem execGetDynamicCapacityConfiguration_ok {s : State} {ld : Fin 32} (hok : Ok pq s) :
    OutOk pq (execGetDynamicCapacityConfiguration ld s) := by
  unfold execGetDynamicCapacityConfiguration
  try dsimp only
  repeat' (first
    | with_reducible assumption | exact True.intro | with_reducible apply outOk_next | with_reducible apply outOk_ite
    | with_reducible apply State.cxlAnswer_ok | (simp only [ok_mk, ok3_eq]) | (intro _ _ _) | (intro _ _) | split
    | (dsimp only))

theorem execGetDynamicCapacityExtentList_ok {s : State} {ld : Fin 32} (hok : Ok pq s) :
    OutOk pq (execGetDynamicCapacityExtentList ld s) := by
  unfold execGetDynamicCapacityExtentList
  try dsimp only
  repeat' (first
    | with_reducible assumption | exact True.intro | with_reducible apply outOk_next | with_reducible apply outOk_ite
    | with_reducible apply State.cxlAnswer_ok | (simp only [ok_mk, ok3_eq]) | (intro _ _ _) | (intro _ _) | split
    | (dsimp only))

theorem State.extentLive_ok {s : State} {idx : Nat} {e : Extent} (hok : Ok pq s) :
    Ok pq (State.extentLive s idx e) := by
  unfold State.extentLive
  try dsimp only
  repeat' (first
    | with_reducible assumption | with_reducible apply State.bothNow_ok | with_reducible apply State.extDone_ok
    | (simp only [ok_mk, ok3_eq]) | (intro _ _ _) | (intro _ _) | split | (dsimp only))

theorem execAddDynamicCapacityResponse_ok {s : State} {ld : Fin 32} {accepted : List (Nat × Nat)} (hok : Ok pq s) :
    OutOk pq (execAddDynamicCapacityResponse ld accepted s) := by
  unfold execAddDynamicCapacityResponse
  try dsimp only
  repeat' (first
    | with_reducible assumption | exact True.intro | with_reducible apply outOk_next | with_reducible apply outOk_ite
    | with_reducible apply ok_ite | with_reducible apply ok_ite_fst | with_reducible apply ok_foldl
    | with_reducible apply ok_foldl_fst | with_reducible apply State.extDone_ok
    | with_reducible apply State.extentDrop_ok | with_reducible apply State.cxlAnswer_ok
    | with_reducible apply State.extentLive_ok | (simp only [ok_mk, ok3_eq]) | (intro _ _ _) | (intro _ _) | split
    | (dsimp only))

theorem execReleaseDynamicCapacity_ok {s : State} {ld : Fin 32} {dpa : Nat} {len : Nat} (hok : Ok pq s) :
    OutOk pq (execReleaseDynamicCapacity ld dpa len s) := by
  unfold execReleaseDynamicCapacity
  try dsimp only
  repeat' (first
    | with_reducible assumption | exact True.intro | with_reducible apply outOk_next | with_reducible apply outOk_ite
    | with_reducible apply ok_ite | with_reducible apply ok_ite_fst | with_reducible apply State.extentRemove_ok
    | with_reducible apply State.cxlAnswer_ok | (simp only [ok_mk, ok3_eq]) | (intro _ _ _) | (intro _ _) | split
    | (dsimp only))

theorem execGetTimestamp_ok {s : State} {ld : Fin 32} (hok : Ok pq s) :
    OutOk pq (execGetTimestamp ld s) := by
  unfold execGetTimestamp
  try dsimp only
  repeat' (first
    | with_reducible assumption | exact True.intro | with_reducible apply outOk_next | with_reducible apply outOk_ite
    | with_reducible apply State.cxlAnswer_ok | (simp only [ok_mk, ok3_eq]) | (intro _ _ _) | (intro _ _) | split
    | (dsimp only))

theorem execSetTimestamp_ok {s : State} {ld : Fin 32} {_ns : Nat} (hok : Ok pq s) :
    OutOk pq (execSetTimestamp ld _ns s) := by
  unfold execSetTimestamp
  try dsimp only
  repeat' (first
    | with_reducible assumption | exact True.intro | with_reducible apply outOk_next | with_reducible apply outOk_ite
    | with_reducible apply State.cxlAnswer_ok | (simp only [ok_mk, ok3_eq]) | (intro _ _ _) | (intro _ _) | split
    | (dsimp only))

theorem execCxlMbxUnsupported_ok {s : State} {ld : Fin 32} {opcode : Nat} (hok : Ok pq s) :
    OutOk pq (execCxlMbxUnsupported ld opcode s) := by
  unfold execCxlMbxUnsupported
  try dsimp only
  repeat' (first
    | with_reducible assumption | exact True.intro | with_reducible apply outOk_next | with_reducible apply outOk_ite
    | with_reducible apply State.cxlAnswer_ok | (simp only [ok_mk, ok3_eq]) | (intro _ _ _) | (intro _ _) | split
    | (dsimp only))

end Sys2Proof.Machine
end

