-- ==== Sys2Proof/Laws/KeepsPlacement.lean ====
section
/-! SUPPORT. The operations of Machine/Placement.lean keep memory sound and leave the queue alone. -/

namespace Sys2Proof.Machine

set_option linter.unusedVariables false
set_option linter.unusedTactic false
set_option linter.unreachableTactic false

variable {pq : List Instr}

theorem State.promoteFail_ok {s : State} {tile : Nat} {m : Move} {bad : List Nat} (hok : Ok pq s) :
    Ok pq (State.promoteFail s tile m bad) := by
  unfold State.promoteFail
  try dsimp only
  repeat' (first
    | with_reducible assumption | with_reducible apply ok_ite | with_reducible apply ok_ite_fst
    | with_reducible apply State.modMove_ok | with_reducible apply State.joinEnd_ok
    | with_reducible apply State.dropMove_ok | with_reducible apply State.startMove_ok
    | with_reducible apply State.badRead_ok | (simp only [ok_mk, ok3_eq]) | (intro _ _ _) | (intro _ _) | split
    | (dsimp only))

theorem execPromotionSwitch_ok {s : State} {tile : Nat} {bad : List (Fin 8)} (hok : Ok pq s) :
    OutOk pq (execPromotionSwitch tile bad s) := by
  unfold execPromotionSwitch
  try dsimp only
  repeat' (first
    | with_reducible assumption | exact True.intro | with_reducible apply outOk_next | with_reducible apply outOk_ite
    | with_reducible apply ok_ite | with_reducible apply ok_ite_fst | with_reducible apply State.nextSlot_ok
    | with_reducible apply State.promoteDone_ok | with_reducible apply State.mediaStep_ok
    | with_reducible apply State.settle_ok | with_reducible apply State.promoteFail_ok | (simp only [ok_mk, ok3_eq])
    | (intro _ _ _) | (intro _ _) | split | (dsimp only))

theorem State.joinedPromote_ok {s : State} {tile : Nat} {m : Move} (hok : Ok pq s) :
    Ok pq (State.joinedPromote s tile m) := by
  unfold State.joinedPromote
  try dsimp only
  repeat' (first
    | with_reducible assumption | with_reducible apply ok_ite | with_reducible apply ok_ite_fst
    | with_reducible apply State.joinEnd_ok | with_reducible apply State.startMove_ok
    | with_reducible apply State.pinJoin_ok | (simp only [ok_mk, ok3_eq]) | (intro _ _ _) | (intro _ _) | split
    | (dsimp only))

theorem State.demandDown_ok {s : State} (hok : Ok pq s) :
    Ok pq (State.demandDown s) := by
  unfold State.demandDown
  try dsimp only
  repeat' (first
    | with_reducible assumption | with_reducible apply State.setFld_ok | (simp only [ok_mk, ok3_eq]) | (intro _ _ _)
    | (intro _ _) | split | (dsimp only))

theorem execEvictionSwitch_ok {s : State} {tile : Nat} (hok : Ok pq s) :
    OutOk pq (execEvictionSwitch tile s) := by
  unfold execEvictionSwitch
  try dsimp only
  repeat' (first
    | with_reducible assumption | exact True.intro | with_reducible apply outOk_next | with_reducible apply outOk_ite
    | with_reducible apply ok_ite | with_reducible apply ok_ite_fst | with_reducible apply State.count_ok
    | with_reducible apply State.setTile_ok | with_reducible apply State.noteFrames_ok
    | with_reducible apply State.freeFrameNo_ok | with_reducible apply State.validUp_ok
    | with_reducible apply State.nextSlot_ok | with_reducible apply State.serveQueue_ok
    | with_reducible apply State.settle_ok | with_reducible apply State.joinedPromote_ok
    | with_reducible apply State.demandDown_ok | (simp only [ok_mk, ok3_eq]) | (intro _ _ _) | (intro _ _) | split
    | (dsimp only))

theorem execRelocationSwitch_ok {s : State} {tile : Nat} (hok : Ok pq s) :
    OutOk pq (execRelocationSwitch tile s) := by
  unfold execRelocationSwitch
  try dsimp only
  repeat' (first
    | with_reducible assumption | exact True.intro | with_reducible apply outOk_next | with_reducible apply outOk_ite
    | with_reducible apply ok_ite | with_reducible apply ok_ite_fst | with_reducible apply State.err1_ok
    | with_reducible apply State.setTile_ok | with_reducible apply State.validUp_ok
    | with_reducible apply State.invalidateLoc_ok | with_reducible apply State.nextSlot_ok
    | with_reducible apply State.loseSectors_ok | with_reducible apply State.settle_ok
    | with_reducible apply State.joinedPromote_ok | (simp only [ok_mk, ok3_eq]) | (intro _ _ _) | (intro _ _) | split
    | (dsimp only))

theorem execPromoWaitOver_ok {s : State} {tile : Nat} (hok : Ok pq s) :
    OutOk pq (execPromoWaitOver tile s) := by
  unfold execPromoWaitOver
  try dsimp only
  repeat' (first
    | with_reducible assumption | exact True.intro | with_reducible apply outOk_next | with_reducible apply outOk_ite
    | with_reducible apply ok_ite | with_reducible apply ok_ite_fst | with_reducible apply State.flagRecord_ok
    | (simp only [ok_mk, ok3_eq]) | (intro _ _ _) | (intro _ _) | split | (dsimp only))

theorem execPromotionQueueServe_ok {s : State} (hok : Ok pq s) :
    OutOk pq (execPromotionQueueServe s) := by
  unfold execPromotionQueueServe
  try dsimp only
  repeat' (first
    | with_reducible assumption | exact True.intro | with_reducible apply outOk_next | with_reducible apply outOk_ite
    | with_reducible apply State.ledgerEval_ok | with_reducible apply State.serveQueue_ok
    | with_reducible apply State.settle_ok | (simp only [ok_mk, ok3_eq]) | (intro _ _ _) | (intro _ _) | split
    | (dsimp only))

theorem execSaveAreaDrain_ok {s : State} (hok : Ok pq s) :
    OutOk pq (execSaveAreaDrain s) := by
  unfold execSaveAreaDrain
  try dsimp only
  repeat' (first
    | with_reducible assumption | exact True.intro | with_reducible apply outOk_next | with_reducible apply outOk_ite
    | with_reducible apply State.drainSaveArea_ok | with_reducible apply State.settle_ok | (simp only [ok_mk, ok3_eq])
    | (intro _ _ _) | (intro _ _) | split | (dsimp only))

theorem State.sweepNext_ok {s : State} (hok : Ok pq s) :
    Ok pq (State.sweepNext s) := by
  unfold State.sweepNext
  try dsimp only
  repeat' (first
    | with_reducible assumption | with_reducible apply ok_ite | with_reducible apply ok_ite_fst
    | with_reducible apply State.count_ok | with_reducible apply State.flag_ok | (simp only [ok_mk, ok3_eq])
    | (intro _ _ _) | (intro _ _) | split | (dsimp only))

theorem State.mapWant_ok {s : State} {tile : Nat} (hok : Ok pq s) :
    Ok pq (State.mapWant s tile) := by
  unfold State.mapWant
  try dsimp only
  repeat' (first
    | with_reducible assumption | with_reducible apply ok_ite | with_reducible apply ok_ite_fst
    | with_reducible apply State.mapMiss_ok | (simp only [ok_mk, ok3_eq]) | (intro _ _ _) | (intro _ _) | split
    | (dsimp only))

theorem State.cool_ok {s : State} {tile : Nat} (hok : Ok pq s) :
    Ok pq (State.cool s tile) := by
  unfold State.cool
  try dsimp only
  repeat' (first
    | with_reducible assumption | with_reducible apply State.modTile_ok | (simp only [ok_mk, ok3_eq]) | (intro _ _ _)
    | (intro _ _) | split | (dsimp only))

theorem State.visitFrame_ok {s : State} {f : Frame} (hok : Ok pq s) :
    Ok pq (State.visitFrame s f) := by
  unfold State.visitFrame
  try dsimp only
  repeat' (first
    | with_reducible assumption | with_reducible apply ok_ite | with_reducible apply ok_ite_fst
    | with_reducible apply State.count_ok | with_reducible apply State.flagRecord_ok
    | with_reducible apply State.startMove_ok | with_reducible apply State.sweepNext_ok
    | with_reducible apply State.cool_ok | (simp only [ok_mk, ok3_eq]) | (intro _ _ _) | (intro _ _) | split
    | (dsimp only))

theorem execFrameSweepVisit_ok {s : State} (hok : Ok pq s) :
    OutOk pq (execFrameSweepVisit s) := by
  unfold execFrameSweepVisit
  try dsimp only
  repeat' (first
    | with_reducible assumption | exact True.intro | with_reducible apply outOk_next | with_reducible apply outOk_ite
    | with_reducible apply ok_ite | with_reducible apply ok_ite_fst | with_reducible apply State.settle_ok
    | with_reducible apply State.sweepNext_ok | with_reducible apply State.mapWant_ok
    | with_reducible apply State.visitFrame_ok | (simp only [ok_mk, ok3_eq]) | (intro _ _ _) | (intro _ _) | split
    | (dsimp only))

theorem execEvictionCapSecond_ok {s : State} (hok : Ok pq s) :
    OutOk pq (execEvictionCapSecond s) := by
  unfold execEvictionCapSecond
  try dsimp only
  repeat' (first
    | with_reducible assumption | exact True.intro | with_reducible apply outOk_next | with_reducible apply outOk_ite
    | with_reducible apply State.nextSlots_ok | with_reducible apply State.settle_ok | (simp only [ok_mk, ok3_eq])
    | (intro _ _ _) | (intro _ _) | split | (dsimp only))

theorem execMapSweepRead_ok {s : State} (hok : Ok pq s) :
    OutOk pq (execMapSweepRead s) := by
  unfold execMapSweepRead
  try dsimp only
  repeat' (first
    | with_reducible assumption | exact True.intro | with_reducible apply outOk_next | with_reducible apply outOk_ite
    | with_reducible apply ok_ite | with_reducible apply ok_ite_fst | with_reducible apply State.mapWant_ok
    | with_reducible apply State.cool_ok | (simp only [ok_mk, ok3_eq]) | (intro _ _ _) | (intro _ _) | split
    | (dsimp only))

theorem execDecayPeriod_ok {s : State} (hok : Ok pq s) :
    OutOk pq (execDecayPeriod s) := by
  unfold execDecayPeriod
  try dsimp only
  repeat' (first
    | with_reducible assumption | exact True.intro | with_reducible apply outOk_next | with_reducible apply outOk_ite
    | (simp only [ok_mk, ok3_eq]) | (intro _ _ _) | (intro _ _) | split | (dsimp only))

theorem State.checkFail_ok {s : State} {tile : Nat} (hok : Ok pq s) :
    Ok pq (State.checkFail s tile) := by
  unfold State.checkFail
  try dsimp only
  repeat' (first
    | with_reducible assumption | with_reducible apply ok_ite | with_reducible apply ok_ite_fst
    | with_reducible apply State.flagRecord_ok | with_reducible apply State.modTile_ok
    | with_reducible apply State.holdFrame_ok | with_reducible apply State.dropLines_ok
    | with_reducible apply State.dropMove_ok | with_reducible apply State.markBad_ok | (simp only [ok_mk, ok3_eq])
    | (intro _ _ _) | (intro _ _) | split | (dsimp only))

theorem execTmcFill_ok {s : State} {line : Nat} {badEntries : List Nat} (hok : Ok pq s) :
    OutOk pq (execTmcFill line badEntries s) := by
  unfold execTmcFill
  try dsimp only
  repeat' (first
    | with_reducible assumption | exact True.intro | with_reducible apply outOk_next | with_reducible apply outOk_ite
    | with_reducible apply ok_ite | with_reducible apply ok_ite_fst | with_reducible apply ok_foldl
    | with_reducible apply ok_foldl_fst | (with_reducible refine State.served_ok (by assumption) ?_)
    | with_reducible apply State.settle_ok | with_reducible apply State.checkFail_ok | (simp only [ok_mk, ok3_eq])
    | (intro _ _ _) | (intro _ _) | split | (dsimp only))

theorem execMapAudit_ok {s : State} (hok : Ok pq s) :
    OutOk pq (execMapAudit s) := by
  unfold execMapAudit
  try dsimp only
  repeat' (first
    | with_reducible assumption | exact True.intro | with_reducible apply outOk_next | with_reducible apply outOk_ite
    | with_reducible apply ok_ite | with_reducible apply ok_ite_fst | with_reducible apply ok_foldl
    | with_reducible apply ok_foldl_fst | with_reducible apply State.noteFrames_ok
    | with_reducible apply State.retireFrame_ok | with_reducible apply State.invalidateLoc_ok
    | with_reducible apply State.serveQueue_ok | with_reducible apply State.settle_ok | (simp only [ok_mk, ok3_eq])
    | (intro _ _ _) | (intro _ _) | split | (dsimp only))

end Sys2Proof.Machine
end

