-- ==== Sys2Proof/Laws/KeepsFlash.lean ====
section
/-! SUPPORT. The operations of Machine/Flash.lean keep memory sound and leave the queue alone. -/

namespace Sys2Proof.Machine

set_option linter.unusedVariables false
set_option linter.unusedTactic false
set_option linter.unreachableTactic false

variable {pq : List Instr}

theorem State.mediaPoll_ok {s : State} (hok : Ok pq s) :
    Ok pq (State.mediaPoll s) := by
  unfold State.mediaPoll
  try dsimp only
  repeat' (first
    | with_reducible assumption | with_reducible apply ok_foldl | with_reducible apply ok_foldl_fst
    | with_reducible apply State.emptyCheck_ok | with_reducible apply State.relocateAll_ok
    | with_reducible apply State.refresh_ok | (simp only [ok_mk, ok3_eq]) | (intro _ _ _) | (intro _ _) | split
    | (dsimp only))

theorem State.gcCheck_ok {s : State} {set : Nat} (hok : Ok pq s) :
    Ok pq (State.gcCheck s set) := by
  unfold State.gcCheck
  try dsimp only
  repeat' (first
    | with_reducible assumption | with_reducible apply ok_ite | with_reducible apply ok_ite_fst
    | with_reducible apply State.emptyCheck_ok | with_reducible apply State.refresh_ok | (simp only [ok_mk, ok3_eq])
    | (intro _ _ _) | (intro _ _) | split | (dsimp only))

theorem State.wearCheck_ok {s : State} {set : Nat} (hok : Ok pq s) :
    Ok pq (State.wearCheck s set) := by
  unfold State.wearCheck
  try dsimp only
  repeat' (first
    | with_reducible assumption | with_reducible apply ok_ite | with_reducible apply ok_ite_fst
    | with_reducible apply ok_foldl | with_reducible apply ok_foldl_fst | with_reducible apply State.refresh_ok
    | (simp only [ok_mk, ok3_eq]) | (intro _ _ _) | (intro _ _) | split | (dsimp only))

theorem State.saveShort_ok {s : State} (hok : Ok pq s) :
    Ok pq (State.saveShort s) := by
  unfold State.saveShort
  try dsimp only
  repeat' (first
    | with_reducible assumption | with_reducible apply ok_ite | with_reducible apply ok_ite_fst
    | with_reducible apply State.flag_ok | (simp only [ok_mk, ok3_eq]) | (intro _ _ _) | (intro _ _) | split
    | (dsimp only))

theorem State.gotSlice_ok {s : State} {x : Nat} (hok : Ok pq s) :
    Ok pq (State.gotSlice s x) := by
  unfold State.gotSlice
  try dsimp only
  repeat' (first
    | with_reducible assumption | with_reducible apply ok_ite | with_reducible apply ok_ite_fst
    | (simp only [ok_mk, ok3_eq]) | (intro _ _ _) | (intro _ _) | split | (dsimp only))

theorem State.sliceBad_ok {s : State} {tile : Nat} {slice : Nat} (hok : Ok pq s) :
    Ok pq (State.sliceBad s tile slice) := by
  unfold State.sliceBad
  try dsimp only
  repeat' (first
    | with_reducible assumption | with_reducible apply ok_ite | with_reducible apply ok_ite_fst
    | with_reducible apply State.dropMove_ok | with_reducible apply State.markBad_ok
    | with_reducible apply State.badRead_ok | with_reducible apply State.promoteFail_ok | (simp only [ok_mk, ok3_eq])
    | (intro _ _ _) | (intro _ _) | split | (dsimp only))

theorem State.cwFail_ok {s : State} {loc : Nat} {slice : Nat} (hok : Ok pq s) :
    Ok pq (State.cwFail s loc slice) := by
  unfold State.cwFail
  try dsimp only
  repeat' (first
    | with_reducible assumption | with_reducible apply ok_foldl | with_reducible apply ok_foldl_fst
    | with_reducible apply State.count_ok | with_reducible apply State.flagRecord_ok
    | with_reducible apply State.sliceBad_ok | (simp only [ok_mk, ok3_eq]) | (intro _ _ _) | (intro _ _) | split
    | (dsimp only))

theorem State.cwGood_ok {s : State} {loc : Nat} {n : Nat} {corrected : Nat} (hok : Ok pq s) :
    Ok pq (State.cwGood s loc n corrected) := by
  unfold State.cwGood
  try dsimp only
  repeat' (first
    | with_reducible assumption | with_reducible apply ok_ite | with_reducible apply ok_ite_fst
    | with_reducible apply State.count_ok | with_reducible apply State.err1_ok | with_reducible apply State.refresh_ok
    | (simp only [ok_mk, ok3_eq]) | (intro _ _ _) | (intro _ _) | split | (dsimp only))

theorem execFlashReadDecode_ok {s : State} {loc : Nat} {slice : Nat} {r : Decode} (hok : Ok pq s) :
    OutOk pq (execFlashReadDecode loc slice r s) := by
  unfold execFlashReadDecode
  try dsimp only
  repeat' (first
    | with_reducible assumption | exact True.intro | with_reducible apply outOk_next | with_reducible apply outOk_ite
    | with_reducible apply ok_ite | with_reducible apply ok_ite_fst | with_reducible apply ok_foldl
    | with_reducible apply ok_foldl_fst | with_reducible apply State.flag_ok | with_reducible apply State.mediaStep_ok
    | with_reducible apply State.settle_ok | with_reducible apply State.gotSlice_ok
    | with_reducible apply State.sliceBad_ok | with_reducible apply State.cwFail_ok
    | with_reducible apply State.cwGood_ok | (simp only [ok_mk, ok3_eq]) | (intro _ _ _) | (intro _ _) | split
    | (dsimp only))

theorem execFlashPatrol_ok {s : State} {loc : Nat} {slice : Nat} {r : Decode} (hok : Ok pq s) :
    OutOk pq (execFlashPatrol loc slice r s) := by
  unfold execFlashPatrol
  try dsimp only
  repeat' (first
    | with_reducible assumption | exact True.intro | with_reducible apply outOk_next | with_reducible apply outOk_ite
    | with_reducible apply ok_ite | with_reducible apply ok_ite_fst | with_reducible apply State.mediaStep_ok
    | with_reducible apply State.settle_ok | with_reducible apply State.cwFail_ok
    | with_reducible apply State.cwGood_ok | (simp only [ok_mk, ok3_eq]) | (intro _ _ _) | (intro _ _) | split
    | (dsimp only))

theorem execSuspendWaitExpiry_ok {s : State} {die : Nat} (hok : Ok pq s) :
    OutOk pq (execSuspendWaitExpiry die s) := by
  unfold execSuspendWaitExpiry
  try dsimp only
  repeat' (first
    | with_reducible assumption | exact True.intro | with_reducible apply outOk_next | with_reducible apply outOk_ite
    | with_reducible apply ok_ite | with_reducible apply ok_ite_fst | with_reducible apply State.count_ok
    | with_reducible apply State.emit_ok | with_reducible apply State.mediaStep_ok
    | (with_reducible refine State.suspendFor_ok (by assumption) ?_) | (simp only [ok_mk, ok3_eq]) | (intro _ _ _)
    | (intro _ _) | split | (dsimp only))

theorem State.suspendsClear_ok {s : State} {set : Nat} (hok : Ok pq s) :
    Ok pq (State.suspendsClear s set) := by
  unfold State.suspendsClear
  try dsimp only
  repeat' (first
    | with_reducible assumption | (simp only [ok_mk, ok3_eq]) | (intro _ _ _) | (intro _ _) | split | (dsimp only))

theorem execProgramFlushTimer_ok {s : State} {set : Nat} (hok : Ok pq s) :
    OutOk pq (execProgramFlushTimer set s) := by
  unfold execProgramFlushTimer
  try dsimp only
  repeat' (first
    | with_reducible assumption | exact True.intro | with_reducible apply outOk_next | with_reducible apply outOk_ite
    | with_reducible apply ok_foldl | with_reducible apply ok_foldl_fst | with_reducible apply State.flyUnit_ok
    | (simp only [ok_mk, ok3_eq]) | (intro _ _ _) | (intro _ _) | split | (dsimp only))

theorem State.unitUsed_ok {s : State} {set : Nat} {u : Unit} {close : Bool} (hok : Ok pq s) :
    Ok pq (State.unitUsed s set u close) := by
  unfold State.unitUsed
  try dsimp only
  repeat' (first
    | with_reducible assumption | with_reducible apply ok_ite | with_reducible apply ok_ite_fst
    | with_reducible apply State.setSb_ok | with_reducible apply State.openFresh_ok | (simp only [ok_mk, ok3_eq])
    | (intro _ _ _) | (intro _ _) | split | (dsimp only))

theorem State.unitOk_ok {s : State} {set : Nat} {u : Unit} (hok : Ok pq s) :
    Ok pq (State.unitOk s set u) := by
  unfold State.unitOk
  try dsimp only
  repeat' (first
    | with_reducible assumption | with_reducible apply ok_foldl | with_reducible apply ok_foldl_fst
    | with_reducible apply State.emptyCheck_ok | with_reducible apply State.modMove_ok
    | with_reducible apply State.retryUnits_ok | with_reducible apply State.unitUsed_ok | (simp only [ok_mk, ok3_eq])
    | (intro _ _ _) | (intro _ _) | split | (dsimp only))

theorem State.unitFail_ok {s : State} {set : Nat} {u : Unit} (hok : Ok pq s) :
    Ok pq (State.unitFail s set u) := by
  unfold State.unitFail
  try dsimp only
  repeat' (first
    | with_reducible assumption | with_reducible apply ok_ite | with_reducible apply ok_ite_fst
    | with_reducible apply ok_foldl | with_reducible apply ok_foldl_fst | with_reducible apply State.count_ok
    | with_reducible apply State.flag_ok | with_reducible apply State.setSb_ok
    | with_reducible apply State.emptyCheck_ok | with_reducible apply State.modMove_ok
    | with_reducible apply State.moveProgram_ok | with_reducible apply State.refresh_ok
    | with_reducible apply State.unitUsed_ok | (simp only [ok_mk, ok3_eq]) | (intro _ _ _) | (intro _ _) | split
    | (dsimp only))

theorem execProgramUnitDone_ok {s : State} {set : Nat} {block : Nat} {ok : Bool} (hok : Ok pq s) :
    OutOk pq (execProgramUnitDone set block ok s) := by
  unfold execProgramUnitDone
  try dsimp only
  repeat' (first
    | with_reducible assumption | exact True.intro | with_reducible apply outOk_next | with_reducible apply outOk_ite
    | with_reducible apply ok_ite | with_reducible apply ok_ite_fst | with_reducible apply State.mediaStep_ok
    | with_reducible apply State.settle_ok | with_reducible apply State.gcCheck_ok
    | with_reducible apply State.suspendsClear_ok | with_reducible apply State.unitOk_ok
    | with_reducible apply State.unitFail_ok | (simp only [ok_mk, ok3_eq]) | (intro _ _ _) | (intro _ _) | split
    | (dsimp only))

theorem State.wearWarn_ok {s : State} {set : Nat} {block : Nat} {erases : Nat} (hok : Ok pq s) :
    Ok pq (State.wearWarn s set block erases) := by
  unfold State.wearWarn
  try dsimp only
  repeat' (first
    | with_reducible assumption | with_reducible apply ok_ite | with_reducible apply ok_ite_fst
    | with_reducible apply State.flagRecord_ok | (simp only [ok_mk, ok3_eq]) | (intro _ _ _) | (intro _ _) | split
    | (dsimp only))

theorem execFlashEraseDone_ok {s : State} {set : Nat} {block : Nat} {ok : Bool} {spare : Bool} (hok : Ok pq s) :
    OutOk pq (execFlashEraseDone set block ok spare s) := by
  unfold execFlashEraseDone
  try dsimp only
  repeat' (first
    | with_reducible assumption | exact True.intro | with_reducible apply outOk_next | with_reducible apply outOk_ite
    | with_reducible apply ok_ite | with_reducible apply ok_ite_fst | with_reducible apply State.count_ok
    | with_reducible apply State.emit_ok | with_reducible apply State.flag_ok | with_reducible apply State.setSb_ok
    | with_reducible apply State.noteFull_ok | with_reducible apply State.retryUnits_ok
    | with_reducible apply State.refresh_ok | with_reducible apply State.mediaStep_ok
    | with_reducible apply State.settle_ok | with_reducible apply State.mediaPoll_ok
    | with_reducible apply State.gcCheck_ok | with_reducible apply State.wearCheck_ok
    | with_reducible apply State.saveShort_ok | with_reducible apply State.suspendsClear_ok
    | with_reducible apply State.wearWarn_ok | (simp only [ok_mk, ok3_eq]) | (intro _ _ _) | (intro _ _) | split
    | (dsimp only))

theorem execSaveRegionResize_ok {s : State} {set : Nat} (hok : Ok pq s) :
    OutOk pq (execSaveRegionResize set s) := by
  unfold execSaveRegionResize
  try dsimp only
  repeat' (first
    | with_reducible assumption | exact True.intro | with_reducible apply outOk_next | with_reducible apply outOk_ite
    | with_reducible apply ok_ite | with_reducible apply ok_ite_fst | with_reducible apply State.setSb_ok
    | with_reducible apply State.noteFull_ok | with_reducible apply State.eraseSb_ok
    | with_reducible apply State.gcCheck_ok | with_reducible apply State.saveShort_ok | (simp only [ok_mk, ok3_eq])
    | (intro _ _ _) | (intro _ _) | split | (dsimp only))

theorem State.haltStart_ok {s : State} {block : Nat} (hok : Ok pq s) :
    Ok pq (State.haltStart s block) := by
  unfold State.haltStart
  try dsimp only
  repeat' (first
    | with_reducible assumption | with_reducible apply State.err1_ok | with_reducible apply State.setPhase_ok
    | (simp only [ok_mk, ok3_eq]) | (intro _ _ _) | (intro _ _) | split | (dsimp only))

theorem State.format_ok {s : State} (hok : Ok pq s) :
    Ok pq (State.format s) := by
  unfold State.format
  try dsimp only
  repeat' (first
    | with_reducible assumption | with_reducible apply ok_ite | with_reducible apply ok_ite_fst
    | (simp only [ok_mk, ok3_eq]) | (intro _ _ _) | (intro _ _) | split | (dsimp only))

theorem execFlashGeometryDiscovery_ok {s : State} {channels : Nat} {dies : Nat} {planes : Nat} {bits : Nat} {cw : Nat} {lblocks : Nat} {pages : Nat} {spare : Nat} {cycles : Nat} {valid : Bool} (hok : Ok pq s) :
    OutOk pq (execFlashGeometryDiscovery channels dies planes bits cw lblocks pages spare cycles valid s) := by
  unfold execFlashGeometryDiscovery
  try dsimp only
  repeat' (first
    | with_reducible assumption | exact True.intro | with_reducible apply outOk_next | with_reducible apply outOk_ite
    | with_reducible apply ok_ite | with_reducible apply ok_ite_fst | with_reducible apply ok_foldl
    | with_reducible apply ok_foldl_fst | with_reducible apply State.setReg_ok | with_reducible apply State.setFld_ok
    | with_reducible apply State.flagRecord_ok | with_reducible apply State.haltStart_ok
    | with_reducible apply State.format_ok | (simp only [ok_mk, ok3_eq]) | (intro _ _ _) | (intro _ _) | split
    | (dsimp only))

end Sys2Proof.Machine
end

