-- ==== Sys2Proof/Laws/KeepsDmc.lean ====
section
/-! SUPPORT. The operations of Machine/Dmc.lean keep memory sound and leave the queue alone. -/

namespace Sys2Proof.Machine

set_option linter.unusedVariables false
set_option linter.unusedTactic false
set_option linter.unreachableTactic false

variable {pq : List Instr}

theorem State.retrainNow_ok {s : State} {n : Nat} (hok : Ok pq s) :
    Ok pq (State.retrainNow s n) := by
  unfold State.retrainNow
  try dsimp only
  repeat' (first
    | with_reducible assumption | with_reducible apply State.flagRecord_ok | with_reducible apply State.modChan_ok
    | (simp only [ok_mk, ok3_eq]) | (intro _ _ _) | (intro _ _) | split | (dsimp only))

theorem execDmcAlert_ok {s : State} {ch : Fin 16} {subB : Bool} {within1ms : Bool} (hok : Ok pq s) :
    OutOk pq (execDmcAlert ch subB within1ms s) := by
  unfold execDmcAlert
  try dsimp only
  repeat' (first
    | with_reducible assumption | exact True.intro | with_reducible apply outOk_next | with_reducible apply outOk_ite
    | with_reducible apply ok_ite | with_reducible apply ok_ite_fst | with_reducible apply State.count_ok
    | with_reducible apply State.emit_ok | with_reducible apply State.flag_ok | with_reducible apply State.err1_ok
    | with_reducible apply State.modChan_ok | with_reducible apply State.retrainNow_ok | (simp only [ok_mk, ok3_eq])
    | (intro _ _ _) | (intro _ _) | split | (dsimp only))

theorem execRetrainDue_ok {s : State} {ch : Fin 16} (hok : Ok pq s) :
    OutOk pq (execRetrainDue ch s) := by
  unfold execRetrainDue
  try dsimp only
  repeat' (first
    | with_reducible assumption | exact True.intro | with_reducible apply outOk_next | with_reducible apply outOk_ite
    | with_reducible apply State.retrainNow_ok | (simp only [ok_mk, ok3_eq]) | (intro _ _ _) | (intro _ _) | split
    | (dsimp only))

theorem execMr4Poll_ok {s : State} {ch : Fin 16} {rank : Nat} {level : Fin 3} (hok : Ok pq s) :
    OutOk pq (execMr4Poll ch rank level s) := by
  unfold execMr4Poll
  try dsimp only
  repeat' (first
    | with_reducible assumption | exact True.intro | with_reducible apply outOk_next | with_reducible apply outOk_ite
    | with_reducible apply ok_ite | with_reducible apply ok_ite_fst | with_reducible apply State.flagRecord_ok
    | with_reducible apply State.modChan_ok | (simp only [ok_mk, ok3_eq]) | (intro _ _ _) | (intro _ _) | split
    | (dsimp only))

theorem execOscTracking_ok {s : State} {ch : Fin 16} {rank : Nat} (hok : Ok pq s) :
    OutOk pq (execOscTracking ch rank s) := by
  unfold execOscTracking
  try dsimp only
  repeat' (first
    | with_reducible assumption | exact True.intro | with_reducible apply outOk_next | with_reducible apply outOk_ite
    | with_reducible apply ok_ite | with_reducible apply ok_ite_fst | with_reducible apply State.emit_ok
    | (simp only [ok_mk, ok3_eq]) | (intro _ _ _) | (intro _ _) | split | (dsimp only))

theorem execRefreshDue_ok {s : State} {ch : Fin 16} {rank : Nat} (hok : Ok pq s) :
    OutOk pq (execRefreshDue ch rank s) := by
  unfold execRefreshDue
  try dsimp only
  repeat' (first
    | with_reducible assumption | exact True.intro | with_reducible apply outOk_next | with_reducible apply outOk_ite
    | with_reducible apply ok_ite | with_reducible apply ok_ite_fst | with_reducible apply State.modChan_ok
    | with_reducible apply State.refreshes_ok | (simp only [ok_mk, ok3_eq]) | (intro _ _ _) | (intro _ _) | split
    | (dsimp only))

theorem execRfmDue_ok {s : State} {ch : Fin 16} {bank : Nat} (hok : Ok pq s) :
    OutOk pq (execRfmDue ch bank s) := by
  unfold execRfmDue
  try dsimp only
  repeat' (first
    | with_reducible assumption | exact True.intro | with_reducible apply outOk_next | with_reducible apply outOk_ite
    | with_reducible apply State.emit_ok | with_reducible apply State.modChan_ok | (simp only [ok_mk, ok3_eq])
    | (intro _ _ _) | (intro _ _) | split | (dsimp only))

theorem execBankIdleExpiry_ok {s : State} {ch : Fin 16} {bank : Nat} (hok : Ok pq s) :
    OutOk pq (execBankIdleExpiry ch bank s) := by
  unfold execBankIdleExpiry
  try dsimp only
  repeat' (first
    | with_reducible assumption | exact True.intro | with_reducible apply outOk_next | with_reducible apply outOk_ite
    | with_reducible apply State.modChan_ok | (simp only [ok_mk, ok3_eq]) | (intro _ _ _) | (intro _ _) | split
    | (dsimp only))

theorem execRequestAgeTarget_ok {s : State} {ch : Fin 16} {line : Nat} {late : Bool} (hok : Ok pq s) :
    OutOk pq (execRequestAgeTarget ch line late s) := by
  unfold execRequestAgeTarget
  try dsimp only
  repeat' (first
    | with_reducible assumption | exact True.intro | with_reducible apply outOk_next | with_reducible apply outOk_ite
    | with_reducible apply ok_ite | with_reducible apply ok_ite_fst | with_reducible apply State.modChan_ok
    | with_reducible apply State.chanPoll_ok | (simp only [ok_mk, ok3_eq]) | (intro _ _ _) | (intro _ _) | split
    | (dsimp only))

theorem State.selfRefresh_ok {s : State} (hok : Ok pq s) :
    Ok pq (State.selfRefresh s) := by
  unfold State.selfRefresh
  try dsimp only
  repeat' (first
    | with_reducible assumption | with_reducible apply ok_foldl | with_reducible apply ok_foldl_fst
    | with_reducible apply State.modChan_ok | with_reducible apply State.sleepNow_ok | (simp only [ok_mk, ok3_eq])
    | (intro _ _ _) | (intro _ _) | split | (dsimp only))

theorem State.selfRefreshEnd_ok {s : State} (hok : Ok pq s) :
    Ok pq (State.selfRefreshEnd s) := by
  unfold State.selfRefreshEnd
  try dsimp only
  repeat' (first
    | with_reducible assumption | with_reducible apply ok_ite | with_reducible apply ok_ite_fst
    | with_reducible apply ok_foldl | with_reducible apply ok_foldl_fst | with_reducible apply State.emit_ok
    | with_reducible apply State.modChan_ok | with_reducible apply State.selfRefresh_ok | (simp only [ok_mk, ok3_eq])
    | (intro _ _ _) | (intro _ _) | split | (dsimp only))

theorem State.noteDimms_ok {s : State} {n : Nat} (hok : Ok pq s) :
    Ok pq (State.noteDimms s n) := by
  unfold State.noteDimms
  try dsimp only
  repeat' (first
    | with_reducible assumption | with_reducible apply ok_ite | with_reducible apply ok_ite_fst
    | with_reducible apply State.modHealth_ok | (simp only [ok_mk, ok3_eq]) | (intro _ _ _) | (intro _ _) | split
    | (dsimp only))

theorem State.trainOne_ok {s : State} {mode : Nat} {n : Nat} (hok : Ok pq s) :
    Ok pq (State.trainOne s mode n) := by
  unfold State.trainOne
  try dsimp only
  repeat' (first
    | with_reducible assumption | with_reducible apply ok_ite | with_reducible apply ok_ite_fst
    | with_reducible apply State.modChan_ok | with_reducible apply State.selfRefresh_ok
    | with_reducible apply State.noteDimms_ok | with_reducible apply State.trained_ok | (simp only [ok_mk, ok3_eq])
    | (intro _ _ _) | (intro _ _) | split | (dsimp only))

theorem State.trainStart_ok {s : State} {mode : Nat} {mask : Nat} (hok : Ok pq s) :
    Ok pq (State.trainStart s mode mask) := by
  unfold State.trainStart
  try dsimp only
  repeat' (first
    | with_reducible assumption | with_reducible apply ok_ite | with_reducible apply ok_ite_fst
    | with_reducible apply ok_foldl | with_reducible apply ok_foldl_fst | with_reducible apply State.setPhase_ok
    | with_reducible apply State.trainOne_ok | (simp only [ok_mk, ok3_eq]) | (intro _ _ _) | (intro _ _) | split
    | (dsimp only))

theorem State.trainFail_ok {s : State} {n : Nat} (hok : Ok pq s) :
    Ok pq (State.trainFail s n) := by
  unfold State.trainFail
  try dsimp only
  repeat' (first
    | with_reducible assumption | with_reducible apply State.flagRecord_ok | with_reducible apply State.modChan_ok
    | (simp only [ok_mk, ok3_eq]) | (intro _ _ _) | (intro _ _) | split | (dsimp only))

theorem State.trained_ok {s : State} (hok : Ok pq s) :
    Ok pq (State.trained s) := by
  unfold State.trained
  try dsimp only
  repeat' (first
    | with_reducible assumption | with_reducible apply ok_ite | with_reducible apply ok_ite_fst
    | with_reducible apply State.setReg_ok | with_reducible apply State.noteFrames_ok
    | with_reducible apply State.haltStart_ok | with_reducible apply State.trainFail_ok | (simp only [ok_mk, ok3_eq])
    | (intro _ _ _) | (intro _ _) | split | (dsimp only))

theorem State.chiveReload_ok {s : State} {n : Nat} (hok : Ok pq s) :
    Ok pq (State.chiveReload s n) := by
  unfold State.chiveReload
  try dsimp only
  repeat' (first
    | with_reducible assumption | with_reducible apply ok_foldl | with_reducible apply ok_foldl_fst
    | with_reducible apply State.setReg_ok | with_reducible apply State.setBit_ok | (simp only [ok_mk, ok3_eq])
    | (intro _ _ _) | (intro _ _) | split | (dsimp only))

theorem execDmcTrainingDone_ok {s : State} {ch : Fin 16} {ok : Bool} (hok : Ok pq s) :
    OutOk pq (execDmcTrainingDone ch ok s) := by
  unfold execDmcTrainingDone
  try dsimp only
  repeat' (first
    | with_reducible assumption | exact True.intro | with_reducible apply outOk_next | with_reducible apply outOk_ite
    | with_reducible apply ok_ite | with_reducible apply ok_ite_fst | with_reducible apply State.err1_ok
    | with_reducible apply State.modHealth_ok | with_reducible apply State.modChan_ok
    | with_reducible apply State.settle_ok | with_reducible apply State.leaveService_ok
    | with_reducible apply State.haltStart_ok | with_reducible apply State.trainFail_ok
    | with_reducible apply State.trained_ok | with_reducible apply State.chiveReload_ok | (simp only [ok_mk, ok3_eq])
    | (intro _ _ _) | (intro _ _) | split | (dsimp only))

theorem State.chiveEnable_ok {s : State} {n : Nat} {k : Nat} (hok : Ok pq s) :
    Ok pq (State.chiveEnable s n k) := by
  unfold State.chiveEnable
  try dsimp only
  repeat' (first
    | with_reducible assumption | with_reducible apply ok_ite | with_reducible apply ok_ite_fst
    | with_reducible apply State.setBit_ok | with_reducible apply State.emit_ok
    | with_reducible apply State.modChan_ok | (simp only [ok_mk, ok3_eq]) | (intro _ _ _) | (intro _ _) | split
    | (dsimp only))

theorem State.chiveDisable_ok {s : State} {n : Nat} {k : Nat} (hok : Ok pq s) :
    Ok pq (State.chiveDisable s n k) := by
  unfold State.chiveDisable
  try dsimp only
  repeat' (first
    | with_reducible assumption | with_reducible apply ok_ite | with_reducible apply ok_ite_fst
    | with_reducible apply State.setBit_ok | with_reducible apply State.modHealth_ok | (simp only [ok_mk, ok3_eq])
    | (intro _ _ _) | (intro _ _) | split | (dsimp only))

theorem execChiveCopyDone_ok {s : State} {ch : Fin 16} (hok : Ok pq s) :
    OutOk pq (execChiveCopyDone ch s) := by
  unfold execChiveCopyDone
  try dsimp only
  repeat' (first
    | with_reducible assumption | exact True.intro | with_reducible apply outOk_next | with_reducible apply outOk_ite
    | with_reducible apply ok_ite | with_reducible apply ok_ite_fst | with_reducible apply State.modHealth_ok
    | with_reducible apply State.modChan_ok | with_reducible apply State.settle_ok | (simp only [ok_mk, ok3_eq])
    | (intro _ _ _) | (intro _ _) | split | (dsimp only))

theorem State.retireLater_ok {s : State} {frame : Nat} (hok : Ok pq s) :
    Ok pq (State.retireLater s frame) := by
  unfold State.retireLater
  try dsimp only
  repeat' (first
    | with_reducible assumption | with_reducible apply State.retireFrame_ok | (simp only [ok_mk, ok3_eq])
    | (intro _ _ _) | (intro _ _) | split | (dsimp only))

theorem execChiveCandidate_ok {s : State} {ch : Fin 16} {sector : Nat} (hok : Ok pq s) :
    OutOk pq (execChiveCandidate ch sector s) := by
  unfold execChiveCandidate
  try dsimp only
  repeat' (first
    | with_reducible assumption | exact True.intro | with_reducible apply outOk_next | with_reducible apply outOk_ite
    | with_reducible apply ok_ite | with_reducible apply ok_ite_fst | with_reducible apply State.setReg_ok
    | with_reducible apply State.flag_ok | with_reducible apply State.flagRecord_ok
    | with_reducible apply State.modHealth_ok | with_reducible apply State.chiveEnable_ok
    | with_reducible apply State.chiveDisable_ok | with_reducible apply State.retireLater_ok
    | (simp only [ok_mk, ok3_eq]) | (intro _ _ _) | (intro _ _) | split | (dsimp only))

theorem State.scrubBegin_ok {s : State} (hok : Ok pq s) :
    Ok pq (State.scrubBegin s) := by
  unfold State.scrubBegin
  try dsimp only
  repeat' (first
    | with_reducible assumption | with_reducible apply ok_ite | with_reducible apply ok_ite_fst
    | with_reducible apply ok_foldl | with_reducible apply ok_foldl_fst | with_reducible apply State.setReg_ok
    | with_reducible apply State.setBit_ok | with_reducible apply State.modChan_ok | (simp only [ok_mk, ok3_eq])
    | (intro _ _ _) | (intro _ _) | split | (dsimp only))

theorem State.scrubOver_ok {s : State} {stopped : Bool} (hok : Ok pq s) :
    Ok pq (State.scrubOver s stopped) := by
  unfold State.scrubOver
  try dsimp only
  repeat' (first
    | with_reducible assumption | with_reducible apply ok_ite | with_reducible apply ok_ite_fst
    | with_reducible apply State.setBit_ok | with_reducible apply State.flag_ok
    | with_reducible apply State.recordF_ok | with_reducible apply State.jwEnd_ok | (simp only [ok_mk, ok3_eq])
    | (intro _ _ _) | (intro _ _) | split | (dsimp only))

theorem State.scrubHalt_ok {s : State} (hok : Ok pq s) :
    Ok pq (State.scrubHalt s) := by
  unfold State.scrubHalt
  try dsimp only
  repeat' (first
    | with_reducible assumption | with_reducible apply ok_ite | with_reducible apply ok_ite_fst
    | with_reducible apply State.setBit_ok | with_reducible apply State.scrubOver_ok | (simp only [ok_mk, ok3_eq])
    | (intro _ _ _) | (intro _ _) | split | (dsimp only))

theorem State.rebuildFrames_ok {s : State} {fs : List Nat} (hok : Ok pq s) :
    Ok pq (State.rebuildFrames s fs) := by
  unfold State.rebuildFrames
  try dsimp only
  repeat' (first
    | with_reducible assumption | (simp only [ok_mk, ok3_eq]) | (intro _ _ _) | (intro _ _) | split | (dsimp only))

theorem State.houseBad_ok {s : State} {sec : Nat} (hok : Ok pq s) :
    Ok pq (State.houseBad s sec) := by
  unfold State.houseBad
  try dsimp only
  repeat' (first
    | with_reducible assumption | with_reducible apply ok_ite | with_reducible apply ok_ite_fst
    | with_reducible apply ok_foldl | with_reducible apply ok_foldl_fst | with_reducible apply State.err1_ok
    | with_reducible apply State.post_ok | with_reducible apply State.qpEnter_ok | (simp only [ok_mk, ok3_eq])
    | (intro _ _ _) | (intro _ _) | split | (dsimp only))

theorem State.metaBad_ok {s : State} {da : Nat} (hok : Ok pq s) :
    Ok pq (State.metaBad s da) := by
  unfold State.metaBad
  try dsimp only
  repeat' (first
    | with_reducible assumption | with_reducible apply ok_ite | with_reducible apply ok_ite_fst
    | with_reducible apply ok_foldl | with_reducible apply ok_foldl_fst | with_reducible apply State.checkFail_ok
    | with_reducible apply State.rebuildFrames_ok | with_reducible apply State.houseBad_ok
    | (simp only [ok_mk, ok3_eq]) | (intro _ _ _) | (intro _ _) | split | (dsimp only))

theorem State.scrubFail_ok {s : State} {da : Nat} {parity : Bool} (hok : Ok pq s) :
    Ok pq (State.scrubFail s da parity) := by
  unfold State.scrubFail
  try dsimp only
  repeat' (first
    | with_reducible assumption | with_reducible apply ok_ite | with_reducible apply ok_ite_fst
    | with_reducible apply State.badRead_ok | with_reducible apply State.dmcBad_ok
    | with_reducible apply State.metaBad_ok | (simp only [ok_mk, ok3_eq]) | (intro _ _ _) | (intro _ _) | split
    | (dsimp only))

theorem execScrubPassEnd_ok {s : State} {sectors : Nat} {poison : Nat} {ms : Nat} {bad : List (Nat × Bool)} (hok : Ok pq s) :
    OutOk pq (execScrubPassEnd sectors poison ms bad s) := by
  unfold execScrubPassEnd
  try dsimp only
  repeat' (first
    | with_reducible assumption | exact True.intro | with_reducible apply outOk_next | with_reducible apply outOk_ite
    | with_reducible apply ok_ite | with_reducible apply ok_ite_fst | with_reducible apply ok_foldl
    | with_reducible apply ok_foldl_fst | with_reducible apply State.setReg_ok
    | with_reducible apply State.setReg64_ok | with_reducible apply State.settle_ok
    | with_reducible apply State.scrubOver_ok | with_reducible apply State.scrubFail_ok | (simp only [ok_mk, ok3_eq])
    | (intro _ _ _) | (intro _ _) | split | (dsimp only))

end Sys2Proof.Machine
end

