-- ==== Sys2Proof/Laws/KeepsRdma.lean ====
section
/-! SUPPORT. The operations of Machine/Rdma.lean keep memory sound and leave the queue alone. -/

namespace Sys2Proof.Machine

set_option linter.unusedVariables false
set_option linter.unusedTactic false
set_option linter.unreachableTactic false

variable {pq : List Instr}

theorem State.qpError_ok {s : State} {qpn : Nat} (hok : Ok pq s) :
    Ok pq (State.qpError s qpn) := by
  unfold State.qpError
  try dsimp only
  repeat' (first
    | with_reducible assumption | with_reducible apply State.err1_ok | with_reducible apply State.qpEnter_ok
    | (simp only [ok_mk, ok3_eq]) | (intro _ _ _) | (intro _ _) | split | (dsimp only))

theorem State.keyFail_ok {s : State} {qpn : Nat} (hok : Ok pq s) :
    Ok pq (State.keyFail s qpn) := by
  unfold State.keyFail
  try dsimp only
  repeat' (first
    | with_reducible assumption | with_reducible apply State.flagRecord_ok | with_reducible apply State.err1_ok
    | with_reducible apply State.qpEnter_ok | (simp only [ok_mk, ok3_eq]) | (intro _ _ _) | (intro _ _) | split
    | (dsimp only))

theorem State.authFail_ok {s : State} {qpn : Nat} (hok : Ok pq s) :
    Ok pq (State.authFail s qpn) := by
  unfold State.authFail
  try dsimp only
  repeat' (first
    | with_reducible assumption | with_reducible apply State.count_ok | with_reducible apply State.emit_ok
    | with_reducible apply State.flagRecord_ok | with_reducible apply State.qpError_ok | (simp only [ok_mk, ok3_eq])
    | (intro _ _ _) | (intro _ _) | split | (dsimp only))

theorem State.forbidden_ok {s : State} {qpn : Nat} (hok : Ok pq s) :
    Ok pq (State.forbidden s qpn) := by
  unfold State.forbidden
  try dsimp only
  repeat' (first
    | with_reducible assumption | with_reducible apply State.qpError_ok | (simp only [ok_mk, ok3_eq]) | (intro _ _ _)
    | (intro _ _) | split | (dsimp only))

theorem State.sendRnr_ok {s : State} {qpn : Nat} {psn : Nat} (hok : Ok pq s) :
    Ok pq (State.sendRnr s qpn psn) := by
  unfold State.sendRnr
  try dsimp only
  repeat' (first
    | with_reducible assumption | with_reducible apply State.count_ok | with_reducible apply State.addResp_ok
    | (simp only [ok_mk, ok3_eq]) | (intro _ _ _) | (intro _ _) | split | (dsimp only))

theorem State.trackNote_ok {s : State} (hok : Ok pq s) :
    Ok pq (State.trackNote s) := by
  unfold State.trackNote
  try dsimp only
  repeat' (first
    | with_reducible assumption | with_reducible apply ok_ite | with_reducible apply ok_ite_fst
    | with_reducible apply State.flag_ok | (simp only [ok_mk, ok3_eq]) | (intro _ _ _) | (intro _ _) | split
    | (dsimp only))

theorem State.psnTake_ok {s : State} {qpn : Nat} {psn : Nat} {len : Nat} (hok : Ok pq s) :
    Ok pq (State.psnTake s qpn psn len) := by
  unfold State.psnTake
  try dsimp only
  repeat' (first
    | with_reducible assumption | with_reducible apply State.modQp_ok | (simp only [ok_mk, ok3_eq]) | (intro _ _ _)
    | (intro _ _) | split | (dsimp only))

theorem State.sendNak_ok {s : State} {q : Qp} {qpn : Nat} {psn : Nat} {code : Nat} (hok : Ok pq s) :
    Ok pq (State.sendNak s q qpn psn code) := by
  unfold State.sendNak
  try dsimp only
  repeat' (first
    | with_reducible assumption | with_reducible apply ok_ite | with_reducible apply ok_ite_fst
    | with_reducible apply State.addResp_ok | (simp only [ok_mk, ok3_eq]) | (intro _ _ _) | (intro _ _) | split
    | (dsimp only))

theorem State.rdmaRefuse_ok {s : State} {q : Qp} {qpn : Nat} {psn : Nat} {addr : Nat} {e : XStep} (hok : Ok pq s) :
    Ok pq (State.rdmaRefuse s q qpn psn addr e) := by
  unfold State.rdmaRefuse
  try dsimp only
  repeat' (first
    | with_reducible assumption | with_reducible apply State.refuse_ok | with_reducible apply State.addResp_ok
    | (simp only [ok_mk, ok3_eq]) | (intro _ _ _) | (intro _ _) | split | (dsimp only))

theorem State.classNote_ok {s : State} {q : Qp} {region : Nat} (hok : Ok pq s) :
    Ok pq (State.classNote s q region) := by
  unfold State.classNote
  try dsimp only
  repeat' (first
    | with_reducible assumption | with_reducible apply ok_ite | with_reducible apply ok_ite_fst
    | with_reducible apply State.count_ok | (simp only [ok_mk, ok3_eq]) | (intro _ _ _) | (intro _ _) | split
    | (dsimp only))

theorem State.rdmaAdmit_ok {s : State} {qpn : Nat} {psn : Nat} {q : Qp} {a : RdmaAsk} {region : Nat} {off : Nat} {segs : List (Nat × Nat)} {buf : Option (Nat × Nat)} (hok : Ok pq s) :
    Ok pq (State.rdmaAdmit s qpn psn q a region off segs buf) := by
  unfold State.rdmaAdmit
  try dsimp only
  repeat' (first
    | with_reducible assumption | with_reducible apply State.enter_ok
    | (with_reducible refine State.enter_ok_of (by assumption) ?_) | with_reducible apply State.addResp_ok
    | with_reducible apply State.settle_ok | with_reducible apply State.trackNote_ok
    | with_reducible apply State.psnTake_ok | with_reducible apply State.classNote_ok
    | with_reducible apply State.onAck_ok | (simp only [ok_mk, ok3_eq]) | (intro _ _ _) | (intro _ _) | split
    | (dsimp only))

theorem State.rdmaDup_ok {s : State} {qpn : Nat} {psn : Nat} {q : Qp} {a : RdmaAsk} (hok : Ok pq s) :
    Ok pq (State.rdmaDup s qpn psn q a) := by
  unfold State.rdmaDup
  try dsimp only
  repeat' (first
    | with_reducible assumption | with_reducible apply ok_ite | with_reducible apply ok_ite_fst
    | with_reducible apply State.enter_ok | (with_reducible refine State.enter_ok_of (by assumption) ?_)
    | with_reducible apply State.qpSend_ok | with_reducible apply State.addResp_ok
    | with_reducible apply State.settle_ok | with_reducible apply State.rdmaRefuse_ok | (simp only [ok_mk, ok3_eq])
    | (intro _ _ _) | (intro _ _) | split | (dsimp only))

theorem State.cnpSend_ok {s : State} {qpn : Nat} {q : Qp} (hok : Ok pq s) :
    Ok pq (State.cnpSend s qpn q) := by
  unfold State.cnpSend
  try dsimp only
  repeat' (first
    | with_reducible assumption | with_reducible apply ok_ite | with_reducible apply ok_ite_fst
    | with_reducible apply State.count_ok | with_reducible apply State.txPkt_ok | with_reducible apply State.modQp_ok
    | (simp only [ok_mk, ok3_eq]) | (intro _ _ _) | (intro _ _) | split | (dsimp only))

theorem State.warnCnp_ok {s : State} {qpn : Nat} {q : Qp} {pool : Nat} (hok : Ok pq s) :
    Ok pq (State.warnCnp s qpn q pool) := by
  unfold State.warnCnp
  try dsimp only
  repeat' (first
    | with_reducible assumption | with_reducible apply ok_ite | with_reducible apply ok_ite_fst
    | with_reducible apply State.cnpSend_ok | (simp only [ok_mk, ok3_eq]) | (intro _ _ _) | (intro _ _) | split
    | (dsimp only))

theorem State.rdmaDo_ok {s : State} {qpn : Nat} {psn : Nat} {a : RdmaAsk} (hok : Ok pq s) :
    Ok pq (State.rdmaDo s qpn psn a) := by
  unfold State.rdmaDo
  try dsimp only
  repeat' (first
    | with_reducible assumption | with_reducible apply ok_ite | with_reducible apply ok_ite_fst
    | (with_reducible refine State.takeBuf_ok (by assumption) ?_) | with_reducible apply State.withQp_ok
    | with_reducible apply State.modQp_ok | with_reducible apply State.addResp_ok
    | with_reducible apply State.cbRefuse_ok | with_reducible apply State.forbidden_ok
    | with_reducible apply State.sendRnr_ok | with_reducible apply State.psnTake_ok
    | with_reducible apply State.sendNak_ok | with_reducible apply State.rdmaRefuse_ok
    | with_reducible apply State.rdmaAdmit_ok | with_reducible apply State.rdmaDup_ok
    | with_reducible apply State.warnCnp_ok | (simp only [ok_mk, ok3_eq]) | (intro _ _ _) | (intro _ _) | split
    | (dsimp only))

theorem State.rdmaAligned_ok {s : State} {qpn : Nat} {psn : Nat} {a : RdmaAsk} (hok : Ok pq s) :
    Ok pq (State.rdmaAligned s qpn psn a) := by
  unfold State.rdmaAligned
  try dsimp only
  repeat' (first
    | with_reducible assumption | with_reducible apply ok_ite | with_reducible apply ok_ite_fst
    | with_reducible apply State.withQp_ok | with_reducible apply State.forbidden_ok
    | with_reducible apply State.sendNak_ok | with_reducible apply State.rdmaDo_ok | (simp only [ok_mk, ok3_eq])
    | (intro _ _ _) | (intro _ _) | split | (dsimp only))

theorem State.writePart_ok {s : State} {qpn : Nat} {psn : Nat} {q : Qp} {w : WriteIn} {data : List Byte} {last : Bool} {reqId : Nat} {t : State} {x : WriteIn} (e : State.writePart s qpn psn q w data last reqId = some (t, x)) (hok : Ok pq s) :
    Ok pq t := by
  unfold State.writePart at e
  try dsimp only at e
  repeat' split at e
  all_goals first | (simp at e; done) | (simp only [Option.some.injEq, Prod.mk.injEq] at e; obtain ⟨e, _⟩ := e; subst e)
  repeat' (first
    | with_reducible assumption | with_reducible apply ok_ite | with_reducible apply ok_ite_fst
    | (with_reducible refine State.takeBuf_ok (by assumption) ?_) | with_reducible apply State.enter_ok
    | (with_reducible refine State.enter_ok_of (by assumption) ?_) | with_reducible apply State.trackNote_ok
    | with_reducible apply State.warnCnp_ok | (simp only [ok_mk, ok3_eq]) | (intro _ _ _) | (intro _ _) | split
    | (dsimp only))

theorem State.writeMore_ok {s : State} {qpn : Nat} {psn : Nat} {q : Qp} {w : WriteIn} {data : List Byte} (hok : Ok pq s) :
    Ok pq (State.writeMore s qpn psn q w data) := by
  unfold State.writeMore
  try dsimp only
  repeat' (first
    | with_reducible assumption | with_reducible apply ok_ite | with_reducible apply ok_ite_fst
    | with_reducible apply State.modQp_ok | with_reducible apply State.addResp_ok
    | with_reducible apply State.settle_ok | with_reducible apply State.forbidden_ok
    | with_reducible apply State.psnTake_ok | (with_reducible refine State.writePart_ok (by assumption) ?_)
    | (simp only [ok_mk, ok3_eq]) | (intro _ _ _) | (intro _ _) | split | (dsimp only))

theorem State.writeEnd_ok {s : State} {qpn : Nat} {psn : Nat} {q : Qp} {w : WriteIn} {data : List Byte} {imm : Option Nat} (hok : Ok pq s) :
    Ok pq (State.writeEnd s qpn psn q w data imm) := by
  unfold State.writeEnd
  try dsimp only
  repeat' (first
    | with_reducible assumption | with_reducible apply ok_ite | with_reducible apply ok_ite_fst
    | with_reducible apply ok_foldl | with_reducible apply ok_foldl_fst | with_reducible apply State.modReq_ok
    | with_reducible apply State.modQp_ok | with_reducible apply State.addResp_ok
    | with_reducible apply State.respDue_ok | with_reducible apply State.settle_ok
    | with_reducible apply State.forbidden_ok | with_reducible apply State.psnTake_ok
    | (with_reducible refine State.writePart_ok (by assumption) ?_) | with_reducible apply State.onAck_ok
    | (simp only [ok_mk, ok3_eq]) | (intro _ _ _) | (intro _ _) | split | (dsimp only))

theorem State.writeBegin_ok {s : State} {qpn : Nat} {psn : Nat} {q : Qp} {rkey : Nat} {va : Nat} {total : Nat} {data : List Byte} (hok : Ok pq s) :
    Ok pq (State.writeBegin s qpn psn q rkey va total data) := by
  unfold State.writeBegin
  try dsimp only
  repeat' (first
    | with_reducible assumption | with_reducible apply ok_ite | with_reducible apply ok_ite_fst
    | with_reducible apply State.countBy_ok | with_reducible apply State.cbRefuse_ok
    | with_reducible apply State.forbidden_ok | with_reducible apply State.sendRnr_ok
    | with_reducible apply State.psnTake_ok | with_reducible apply State.rdmaRefuse_ok
    | with_reducible apply State.classNote_ok | with_reducible apply State.writeMore_ok | (simp only [ok_mk, ok3_eq])
    | (intro _ _ _) | (intro _ _) | split | (dsimp only))

theorem State.writeTurn_ok {s : State} {qpn : Nat} {psn : Nat} {first : Bool} {last : Bool} {f : State → Qp → State} (hok : Ok pq s) (hf : ∀ t0 t1, Ok pq t0 → Ok pq (f t0 t1)) :
    Ok pq (State.writeTurn s qpn psn first last f) := by
  unfold State.writeTurn
  try dsimp only
  repeat' (first
    | with_reducible assumption | with_reducible apply ok_ite | with_reducible apply ok_ite_fst
    | with_reducible apply State.withQp_ok | with_reducible apply State.qpSend_ok
    | with_reducible apply State.forbidden_ok | with_reducible apply State.sendNak_ok | with_reducible apply hf
    | (simp only [ok_mk, ok3_eq]) | (intro _ _ _) | (intro _ _) | split | (dsimp only))

theorem State.writeFirstDo_ok {s : State} {qpn : Nat} {psn : Nat} {rkey : Nat} {va : Nat} {total : Nat} {data : List Byte} (hok : Ok pq s) :
    Ok pq (State.writeFirstDo s qpn psn rkey va total data) := by
  unfold State.writeFirstDo
  try dsimp only
  repeat' (first
    | with_reducible assumption | with_reducible apply State.writeBegin_ok | with_reducible apply State.writeTurn_ok
    | (simp only [ok_mk, ok3_eq]) | (intro _ _ _) | (intro _ _) | split | (dsimp only))

theorem State.writeMidDo_ok {s : State} {qpn : Nat} {psn : Nat} {data : List Byte} (hok : Ok pq s) :
    Ok pq (State.writeMidDo s qpn psn data) := by
  unfold State.writeMidDo
  try dsimp only
  repeat' (first
    | with_reducible assumption | with_reducible apply State.writeMore_ok | with_reducible apply State.writeTurn_ok
    | (simp only [ok_mk, ok3_eq]) | (intro _ _ _) | (intro _ _) | split | (dsimp only))

theorem State.writeLastDo_ok {s : State} {qpn : Nat} {psn : Nat} {data : List Byte} {imm : Option Nat} (hok : Ok pq s) :
    Ok pq (State.writeLastDo s qpn psn data imm) := by
  unfold State.writeLastDo
  try dsimp only
  repeat' (first
    | with_reducible assumption | with_reducible apply State.writeEnd_ok | with_reducible apply State.writeTurn_ok
    | (simp only [ok_mk, ok3_eq]) | (intro _ _ _) | (intro _ _) | split | (dsimp only))

theorem State.rdmaFlushDo_ok {s : State} {qpn : Nat} {psn : Nat} {rkey : Nat} {va : Nat} {len : Nat} {whole : Bool} (hok : Ok pq s) :
    Ok pq (State.rdmaFlushDo s qpn psn rkey va len whole) := by
  unfold State.rdmaFlushDo
  try dsimp only
  repeat' (first
    | with_reducible assumption | with_reducible apply ok_ite | with_reducible apply ok_ite_fst
    | with_reducible apply State.withQp_ok | with_reducible apply State.modQp_ok
    | with_reducible apply State.qpSend_ok | with_reducible apply State.addResp_ok
    | with_reducible apply State.sendRnr_ok | with_reducible apply State.psnTake_ok
    | with_reducible apply State.sendNak_ok | with_reducible apply State.rdmaRefuse_ok | (simp only [ok_mk, ok3_eq])
    | (intro _ _ _) | (intro _ _) | split | (dsimp only))

theorem State.wcmTake_ok {s : State} {qpn : Nat} {psn : Nat} {ok : Qp → Bool} {act : State → Qp → State} (hok : Ok pq s) (hact : ∀ t0 t1, Ok pq t0 → Ok pq (act t0 t1)) :
    Ok pq (State.wcmTake s qpn psn ok act) := by
  unfold State.wcmTake
  try dsimp only
  repeat' (first
    | with_reducible assumption | with_reducible apply ok_ite | with_reducible apply ok_ite_fst
    | with_reducible apply State.withQp_ok | with_reducible apply State.qpSend_ok
    | with_reducible apply State.addResp_ok | with_reducible apply State.forbidden_ok
    | with_reducible apply State.sendRnr_ok | with_reducible apply State.psnTake_ok
    | with_reducible apply State.sendNak_ok | with_reducible apply hact | (simp only [ok_mk, ok3_eq]) | (intro _ _ _)
    | (intro _ _) | split | (dsimp only))

theorem State.wcmReply_ok {s : State} {qpn : Nat} {type : Nat} {w : WcmHdr} {lo : Nat} {hi : Nat} {act : State → State} (hok : Ok pq s) (hact : ∀ t0, Ok pq t0 → Ok pq (act t0)) :
    Ok pq (State.wcmReply s qpn type w lo hi act) := by
  unfold State.wcmReply
  try dsimp only
  repeat' (first
    | with_reducible assumption | with_reducible apply ok_ite | with_reducible apply ok_ite_fst
    | with_reducible apply State.wcmSend_ok | with_reducible apply hact | (simp only [ok_mk, ok3_eq]) | (intro _ _ _)
    | (intro _ _) | split | (dsimp only))

theorem State.keepaliveDo_ok {s : State} {qpn : Nat} {psn : Nat} {w : WcmHdr} (hok : Ok pq s) :
    Ok pq (State.keepaliveDo s qpn psn w) := by
  unfold State.keepaliveDo
  try dsimp only
  repeat' (first
    | with_reducible assumption | with_reducible apply State.wcmSend_ok | with_reducible apply State.wcmTake_ok
    | with_reducible apply State.wcmReply_ok | (simp only [ok_mk, ok3_eq]) | (intro _ _ _) | (intro _ _) | split
    | (dsimp only))

theorem State.takeKey_ok {s : State} {t : State} {x : Nat} (e : State.takeKey s = some (t, x)) (hok : Ok pq s) :
    Ok pq t := by
  unfold State.takeKey at e
  try dsimp only at e
  repeat' split at e
  all_goals first | (simp at e; done) | (simp only [Option.some.injEq, Prod.mk.injEq] at e; obtain ⟨e, _⟩ := e; subst e)
  repeat' (first
    | with_reducible assumption | with_reducible apply ok_ite | with_reducible apply ok_ite_fst
    | (simp only [ok_mk, ok3_eq]) | (intro _ _ _) | (intro _ _) | split | (dsimp only))

theorem State.keyMake_ok {s : State} {host region verbs tag rof va len : Nat} {t : State} {i : Nat} {k : Mkey}
    (e : State.keyMake s host region verbs tag rof va len = .ok (t, i, k)) (hok : Ok pq s) : Ok pq t := by
  unfold State.keyMake at e
  dsimp only at e
  repeat' split at e
  all_goals first
    | (cases e; done)
    | (cases e; exact State.takeKey_ok (by assumption) hok)

theorem State.replyLater_ok {s : State} {sent : Bool} {reqs : List Access} {qpn : Nat} {type : Nat} {tag : Nat} {key : Nat} (hok : Ok pq s) :
    Ok pq (State.replyLater s sent reqs qpn type tag key) := by
  unfold State.replyLater
  try dsimp only
  repeat' (first
    | with_reducible assumption | with_reducible apply ok_ite | with_reducible apply ok_ite_fst
    | with_reducible apply State.keyPoll_ok | (simp only [ok_mk, ok3_eq]) | (intro _ _ _) | (intro _ _) | split
    | (dsimp only))

theorem State.keyRegister_ok {s : State} {qpn : Nat} {q : Qp} {w : WcmHdr} {region : Nat} {verbs : Nat} {tag : Nat} {rof : Nat} {va : Nat} {len : Nat} (hok : Ok pq s) :
    Ok pq (State.keyRegister s qpn q w region verbs tag rof va len) := by
  unfold State.keyRegister
  try dsimp only
  repeat' (first
    | with_reducible assumption | with_reducible apply ok_ite | with_reducible apply ok_ite_fst
    | with_reducible apply State.wcmSend_ok | with_reducible apply State.both_ok
    | (with_reducible refine State.both_ok_of (by assumption) ?_)
    | (with_reducible refine State.keyMake_ok (by assumption) ?_) | with_reducible apply State.replyLater_ok
    | (simp only [ok_mk, ok3_eq]) | (intro _ _ _) | (intro _ _) | split | (dsimp only))

theorem State.keyInvalidate_ok {s : State} {qpn : Nat} {q : Qp} {w : WcmHdr} {rkey : Nat} (hok : Ok pq s) :
    Ok pq (State.keyInvalidate s qpn q w rkey) := by
  unfold State.keyInvalidate
  try dsimp only
  repeat' (first
    | with_reducible assumption | with_reducible apply ok_ite | with_reducible apply ok_ite_fst
    | with_reducible apply State.wcmSend_ok | with_reducible apply State.both_ok
    | (with_reducible refine State.both_ok_of (by assumption) ?_) | with_reducible apply State.replyLater_ok
    | (simp only [ok_mk, ok3_eq]) | (intro _ _ _) | (intro _ _) | split | (dsimp only))

theorem State.takeQp_ok {s : State} {t : State} {x : Nat} (e : State.takeQp s = some (t, x)) (hok : Ok pq s) :
    Ok pq t := by
  unfold State.takeQp at e
  try dsimp only at e
  repeat' split at e
  all_goals first | (simp at e; done) | (simp only [Option.some.injEq, Prod.mk.injEq] at e; obtain ⟨e, _⟩ := e; subst e)
  repeat' (first
    | with_reducible assumption | with_reducible apply ok_ite | with_reducible apply ok_ite_fst
    | (simp only [ok_mk, ok3_eq]) | (intro _ _ _) | (intro _ _) | split | (dsimp only))

theorem State.cmReqDo_ok {s : State} {r : ConnReq} (hok : Ok pq s) :
    Ok pq (State.cmReqDo s r) := by
  unfold State.cmReqDo
  try dsimp only
  repeat' (first
    | with_reducible assumption | with_reducible apply ok_ite | with_reducible apply ok_ite_fst
    | with_reducible apply State.emit_ok | with_reducible apply State.draw_ok
    | (with_reducible refine State.draw_ok_of (by assumption) ?_)
    | (with_reducible refine State.takeQp_ok (by assumption) ?_) | (simp only [ok_mk, ok3_eq]) | (intro _ _ _)
    | (intro _ _) | split | (dsimp only))

theorem State.keyHelloDo_ok {s : State} {qpn : Nat} {w : WcmHdr} {host : Nat} {suite : Nat} {hostNonce : Nat} {ek : Nat} (hok : Ok pq s) :
    Ok pq (State.keyHelloDo s qpn w host suite hostNonce ek) := by
  unfold State.keyHelloDo
  try dsimp only
  repeat' (first
    | with_reducible assumption | with_reducible apply ok_ite | with_reducible apply ok_ite_fst
    | with_reducible apply State.count_ok | with_reducible apply State.draw_ok
    | (with_reducible refine State.draw_ok_of (by assumption) ?_) | with_reducible apply State.withQp_ok
    | with_reducible apply State.modQp_ok | with_reducible apply State.wcmSend_ok
    | with_reducible apply State.keyFail_ok | with_reducible apply State.forbidden_ok | (simp only [ok_mk, ok3_eq])
    | (intro _ _ _) | (intro _ _) | split | (dsimp only))

theorem State.cacheKey_ok {s : State} {idx : Nat} (hok : Ok pq s) :
    Ok pq (State.cacheKey s idx) := by
  unfold State.cacheKey
  try dsimp only
  repeat' (first
    | with_reducible assumption | with_reducible apply ok_ite | with_reducible apply ok_ite_fst
    | with_reducible apply State.draw_ok | (with_reducible refine State.draw_ok_of (by assumption) ?_)
    | (simp only [ok_mk, ok3_eq]) | (intro _ _ _) | (intro _ _) | split | (dsimp only))

theorem State.keyConfirmDo_ok {s : State} {qpn : Nat} {w : WcmHdr} {pk : Nat} {sigOk : Bool} (hok : Ok pq s) :
    Ok pq (State.keyConfirmDo s qpn w pk sigOk) := by
  unfold State.keyConfirmDo
  try dsimp only
  repeat' (first
    | with_reducible assumption | with_reducible apply ok_ite | with_reducible apply ok_ite_fst
    | with_reducible apply State.count_ok | with_reducible apply State.withQp_ok | with_reducible apply State.modQp_ok
    | with_reducible apply State.wcmSend_ok | with_reducible apply State.resendFor_ok
    | with_reducible apply State.mbxReset_ok | with_reducible apply State.keyFail_ok
    | with_reducible apply State.forbidden_ok | with_reducible apply State.cacheKey_ok | (simp only [ok_mk, ok3_eq])
    | (intro _ _ _) | (intro _ _) | split | (dsimp only))

theorem State.certRequestDo_ok {s : State} {qpn : Nat} {w : WcmHdr} (hok : Ok pq s) :
    Ok pq (State.certRequestDo s qpn w) := by
  unfold State.certRequestDo
  try dsimp only
  repeat' (first
    | with_reducible assumption | with_reducible apply ok_ite | with_reducible apply ok_ite_fst
    | with_reducible apply State.withQp_ok | with_reducible apply State.wcmSend_ok
    | with_reducible apply State.forbidden_ok | (simp only [ok_mk, ok3_eq]) | (intro _ _ _) | (intro _ _) | split
    | (dsimp only))

theorem State.cmServe_ok {s : State} {i : Instr} (hok : Ok pq s) :
    Ok pq (State.cmServe s i) := by
  unfold State.cmServe
  try dsimp only
  repeat' (first
    | with_reducible assumption | with_reducible apply State.cmReqDo_ok | with_reducible apply State.keyHelloDo_ok
    | with_reducible apply State.keyConfirmDo_ok | with_reducible apply State.certRequestDo_ok
    | (simp only [ok_mk, ok3_eq]) | (intro _ _ _) | (intro _ _) | split | (dsimp only))

theorem State.cmTake_ok {s : State} {i : Instr} (hok : Ok pq s) :
    Ok pq (State.cmTake s i) := by
  unfold State.cmTake
  try dsimp only
  repeat' (first
    | with_reducible assumption | with_reducible apply ok_ite | with_reducible apply ok_ite_fst
    | with_reducible apply State.cmServe_ok | (simp only [ok_mk, ok3_eq]) | (intro _ _ _) | (intro _ _) | split
    | (dsimp only))

theorem State.qpWhen_ok {s : State} {qpn : Nat} {p : Qp → Bool} {f : State → Qp → State} (hok : Ok pq s) (hf : ∀ t0 t1, Ok pq t0 → Ok pq (f t0 t1)) :
    Ok pq (State.qpWhen s qpn p f) := by
  unfold State.qpWhen
  try dsimp only
  repeat' (first
    | with_reducible assumption | with_reducible apply ok_ite | with_reducible apply ok_ite_fst
    | with_reducible apply hf | (simp only [ok_mk, ok3_eq]) | (intro _ _ _) | (intro _ _) | split | (dsimp only))

end Sys2Proof.Machine
end

