-- ==== Sys2Proof/Laws/KeepsNet.lean ====
section
/-! SUPPORT. The operations of Machine/Net.lean keep memory sound and leave the queue alone. -/

namespace Sys2Proof.Machine

set_option linter.unusedVariables false
set_option linter.unusedTactic false
set_option linter.unreachableTactic false

variable {pq : List Instr}

theorem execNetLinkUp_ok {s : State} {port : Fin 8} (hok : Ok pq s) :
    OutOk pq (execNetLinkUp port s) := by
  unfold execNetLinkUp
  try dsimp only
  repeat' (first
    | with_reducible assumption | exact True.intro | with_reducible apply outOk_next | with_reducible apply outOk_ite
    | with_reducible apply ok_ite | with_reducible apply ok_ite_fst | with_reducible apply State.wakeFor_ok
    | with_reducible apply State.modPort_ok | (simp only [ok_mk, ok3_eq]) | (intro _ _ _) | (intro _ _) | split
    | (dsimp only))

theorem State.netDown_ok {s : State} {port : Nat} (hok : Ok pq s) :
    Ok pq (State.netDown s port) := by
  unfold State.netDown
  try dsimp only
  repeat' (first
    | with_reducible assumption | with_reducible apply ok_ite | with_reducible apply ok_ite_fst
    | with_reducible apply State.flagRecord_ok | (with_reducible refine State.served_ok (by assumption) ?_)
    | with_reducible apply State.modPort_ok | (simp only [ok_mk, ok3_eq]) | (intro _ _ _) | (intro _ _) | split
    | (dsimp only))

theorem execNetLinkDown_ok {s : State} {port : Fin 8} (hok : Ok pq s) :
    OutOk pq (execNetLinkDown port s) := by
  unfold execNetLinkDown
  try dsimp only
  repeat' (first
    | with_reducible assumption | exact True.intro | with_reducible apply outOk_next | with_reducible apply outOk_ite
    | with_reducible apply State.netDown_ok | (simp only [ok_mk, ok3_eq]) | (intro _ _ _) | (intro _ _) | split
    | (dsimp only))

theorem execFecUncorr_ok {s : State} {port : Fin 8} (hok : Ok pq s) :
    OutOk pq (execFecUncorr port s) := by
  unfold execFecUncorr
  try dsimp only
  repeat' (first
    | with_reducible assumption | exact True.intro | with_reducible apply outOk_next | with_reducible apply outOk_ite
    | with_reducible apply State.flag_ok | (simp only [ok_mk, ok3_eq]) | (intro _ _ _) | (intro _ _) | split
    | (dsimp only))

theorem execPfcFrameReceived_ok {s : State} {port : Fin 8} {prios : BitVec 8} {xoff : BitVec 8} (hok : Ok pq s) :
    OutOk pq (execPfcFrameReceived port prios xoff s) := by
  unfold execPfcFrameReceived
  try dsimp only
  repeat' (first
    | with_reducible assumption | exact True.intro | with_reducible apply outOk_next | with_reducible apply outOk_ite
    | with_reducible apply ok_ite | with_reducible apply ok_ite_fst | with_reducible apply State.modPort_ok
    | with_reducible apply State.drainTx_ok | (simp only [ok_mk, ok3_eq]) | (intro _ _ _) | (intro _ _) | split
    | (dsimp only))

theorem execPauseStorm_ok {s : State} {port : Fin 8} {prio : Fin 8} (hok : Ok pq s) :
    OutOk pq (execPauseStorm port prio s) := by
  unfold execPauseStorm
  try dsimp only
  repeat' (first
    | with_reducible assumption | exact True.intro | with_reducible apply outOk_next | with_reducible apply outOk_ite
    | with_reducible apply ok_ite | with_reducible apply ok_ite_fst | with_reducible apply State.flagRecord_ok
    | (simp only [ok_mk, ok3_eq]) | (intro _ _ _) | (intro _ _) | split | (dsimp only))

theorem execCnpReceived_ok {s : State} {qpn : Nat} (hok : Ok pq s) :
    OutOk pq (execCnpReceived qpn s) := by
  unfold execCnpReceived
  try dsimp only
  repeat' (first
    | with_reducible assumption | exact True.intro | with_reducible apply outOk_next | with_reducible apply outOk_ite
    | with_reducible apply ok_ite | with_reducible apply ok_ite_fst | with_reducible apply State.withAny_ok
    | with_reducible apply State.modQp_ok | (simp only [ok_mk, ok3_eq]) | (intro _ _ _) | (intro _ _) | split
    | (dsimp only))

theorem execRateIncreaseTick_ok {s : State} {qpn : Nat} (hok : Ok pq s) :
    OutOk pq (execRateIncreaseTick qpn s) := by
  unfold execRateIncreaseTick
  try dsimp only
  repeat' (first
    | with_reducible assumption | exact True.intro | with_reducible apply outOk_next | with_reducible apply outOk_ite
    | with_reducible apply State.modQp_ok | with_reducible apply State.qpWhen_ok | (simp only [ok_mk, ok3_eq])
    | (intro _ _ _) | (intro _ _) | split | (dsimp only))

theorem execLldpTransmit_ok {s : State} {port : Fin 8} (hok : Ok pq s) :
    OutOk pq (execLldpTransmit port s) := by
  unfold execLldpTransmit
  try dsimp only
  repeat' (first
    | with_reducible assumption | exact True.intro | with_reducible apply outOk_next | with_reducible apply outOk_ite
    | with_reducible apply State.lldpSend_ok | (simp only [ok_mk, ok3_eq]) | (intro _ _ _) | (intro _ _) | split
    | (dsimp only))

theorem execLldpReceived_ok {s : State} {port : Fin 8} {partner : Nat} (hok : Ok pq s) :
    OutOk pq (execLldpReceived port partner s) := by
  unfold execLldpReceived
  try dsimp only
  repeat' (first
    | with_reducible assumption | exact True.intro | with_reducible apply outOk_next | with_reducible apply outOk_ite
    | with_reducible apply State.modPort_ok | (simp only [ok_mk, ok3_eq]) | (intro _ _ _) | (intro _ _) | split
    | (dsimp only))

theorem State.verbDo_ok {s : State} {qpn : Nat} {psn : Nat} {v : Verb} (hok : Ok pq s) :
    Ok pq (State.verbDo s qpn psn v) := by
  unfold State.verbDo
  try dsimp only
  repeat' (first
    | with_reducible assumption | with_reducible apply State.forbidden_ok | with_reducible apply State.rdmaDo_ok
    | with_reducible apply State.rdmaAligned_ok | with_reducible apply State.writeFirstDo_ok
    | with_reducible apply State.writeMidDo_ok | with_reducible apply State.writeLastDo_ok
    | with_reducible apply State.rdmaFlushDo_ok | with_reducible apply State.keepaliveDo_ok
    | with_reducible apply State.qpWhen_ok | (simp only [ok_mk, ok3_eq]) | (intro _ _ _) | (intro _ _) | split
    | (dsimp only))

theorem State.packetIn_ok {s : State} {h : PktHdr} {v : Verb} {q : Qp} (hok : Ok pq s) :
    Ok pq (State.packetIn s h v q).1 := by
  unfold State.packetIn
  try dsimp only
  repeat' (first
    | with_reducible assumption | with_reducible apply ok_ite | with_reducible apply ok_ite_fst
    | with_reducible apply State.count_ok | (with_reducible refine State.takeBuf_ok (by assumption) ?_)
    | with_reducible apply State.freeBuf_ok | with_reducible apply State.zeroBuf_ok
    | with_reducible apply State.modQp_ok | with_reducible apply State.ctrLimit_ok
    | with_reducible apply State.authFail_ok | with_reducible apply State.warnCnp_ok
    | with_reducible apply State.cacheKey_ok | with_reducible apply State.verbDo_ok | (simp only [ok_mk, ok3_eq])
    | (intro _ _ _) | (intro _ _) | split | (dsimp only))

theorem State.packetIn_ok_of {s : State} {h : PktHdr} {v : Verb} {q : Qp} {t : State} {x : Bool} (e : State.packetIn s h v q = (t, x)) (hok : Ok pq s) :
    Ok pq t := by
  rw [show t = (State.packetIn s h v q).1 by rw [e]]
  exact State.packetIn_ok hok

theorem State.packetAt_ok {s : State} {h : PktHdr} {v : Verb} (hok : Ok pq s) :
    Ok pq (State.packetAt s h v).1 := by
  unfold State.packetAt
  try dsimp only
  repeat' (first
    | with_reducible assumption | with_reducible apply State.count_ok | with_reducible apply State.withAny_ok
    | with_reducible apply State.forbidden_ok | with_reducible apply State.packetIn_ok
    | (with_reducible refine State.packetIn_ok_of (by assumption) ?_) | (simp only [ok_mk, ok3_eq]) | (intro _ _ _)
    | (intro _ _) | split | (dsimp only))

theorem State.packetAt_ok_of {s : State} {h : PktHdr} {v : Verb} {t : State} {x : Bool} (e : State.packetAt s h v = (t, x)) (hok : Ok pq s) :
    Ok pq t := by
  rw [show t = (State.packetAt s h v).1 by rw [e]]
  exact State.packetAt_ok hok

theorem State.headPut_ok {s : State} {h : PktHdr} {v : Verb} (hok : Ok pq s) :
    Ok pq (State.headPut s h v) := by
  unfold State.headPut
  try dsimp only
  repeat' (first
    | with_reducible assumption | with_reducible apply ok_ite | with_reducible apply ok_ite_fst
    | with_reducible apply State.modPort_ok | (simp only [ok_mk, ok3_eq]) | (intro _ _ _) | (intro _ _) | split
    | (dsimp only))

theorem State.headServe_ok {k : Nat} {s : State} {n : Nat} (hok : Ok pq s) : Ok pq (State.headServe s n k) := by
  induction k generalizing s with
  | zero => exact hok
  | succ k ih =>
    unfold State.headServe
    dsimp only
    repeat' (first
      | with_reducible assumption | with_reducible apply ih | with_reducible apply ok_ite
      | with_reducible apply State.modPort_ok | with_reducible apply State.packetAt_ok | split)

theorem State.headGo_ok {s : State} {n : Nat} (hok : Ok pq s) :
    Ok pq (State.headGo s n) := by
  unfold State.headGo
  try dsimp only
  repeat' (first
    | with_reducible assumption | with_reducible apply State.headServe_ok | (simp only [ok_mk, ok3_eq])
    | (intro _ _ _) | (intro _ _) | split | (dsimp only))

theorem State.ceNote_ok {s : State} {h : PktHdr} (hok : Ok pq s) :
    Ok pq (State.ceNote s h) := by
  unfold State.ceNote
  try dsimp only
  repeat' (first
    | with_reducible assumption | with_reducible apply ok_ite | with_reducible apply ok_ite_fst
    | with_reducible apply State.cnpSend_ok | (simp only [ok_mk, ok3_eq]) | (intro _ _ _) | (intro _ _) | split
    | (dsimp only))

theorem execRocePacketReceive_ok {s : State} {h : PktHdr} {v : Verb} (hok : Ok pq s) :
    OutOk pq (execRocePacketReceive h v s) := by
  unfold execRocePacketReceive
  try dsimp only
  repeat' (first
    | with_reducible assumption | exact True.intro | with_reducible apply outOk_next | with_reducible apply outOk_ite
    | with_reducible apply ok_ite | with_reducible apply ok_ite_fst | with_reducible apply State.packetAt_ok
    | (with_reducible refine State.packetAt_ok_of (by assumption) ?_) | with_reducible apply State.headPut_ok
    | with_reducible apply State.headGo_ok | with_reducible apply State.ceNote_ok | (simp only [ok_mk, ok3_eq])
    | (intro _ _ _) | (intro _ _) | split | (dsimp only))

theorem execPfcXoffRepeat_ok {s : State} (hok : Ok pq s) :
    OutOk pq (execPfcXoffRepeat s) := by
  unfold execPfcXoffRepeat
  try dsimp only
  repeat' (first
    | with_reducible assumption | exact True.intro | with_reducible apply outOk_next | with_reducible apply outOk_ite
    | with_reducible apply ok_foldl | with_reducible apply ok_foldl_fst | with_reducible apply State.pfcAll_ok
    | with_reducible apply State.headGo_ok | (simp only [ok_mk, ok3_eq]) | (intro _ _ _) | (intro _ _) | split
    | (dsimp only))

theorem execSendCounterLimit_ok {s : State} {qpn : Nat} (hok : Ok pq s) :
    OutOk pq (execSendCounterLimit qpn s) := by
  unfold execSendCounterLimit
  try dsimp only
  repeat' (first
    | with_reducible assumption | exact True.intro | with_reducible apply outOk_next | with_reducible apply outOk_ite
    | with_reducible apply State.ctrLimit_ok | (simp only [ok_mk, ok3_eq]) | (intro _ _ _) | (intro _ _) | split
    | (dsimp only))

theorem execCmReq_ok {s : State} {r : ConnReq} (hok : Ok pq s) :
    OutOk pq (execCmReq r s) := by
  unfold execCmReq
  try dsimp only
  repeat' (first
    | with_reducible assumption | exact True.intro | with_reducible apply outOk_next | with_reducible apply outOk_ite
    | with_reducible apply State.cmTake_ok | (simp only [ok_mk, ok3_eq]) | (intro _ _ _) | (intro _ _) | split
    | (dsimp only))

theorem execCmRtu_ok {s : State} {qpn : Nat} (hok : Ok pq s) :
    OutOk pq (execCmRtu qpn s) := by
  unfold execCmRtu
  try dsimp only
  repeat' (first
    | with_reducible assumption | exact True.intro | with_reducible apply outOk_next | with_reducible apply outOk_ite
    | with_reducible apply State.modQp_ok | with_reducible apply State.qpWhen_ok | (simp only [ok_mk, ok3_eq])
    | (intro _ _ _) | (intro _ _) | split | (dsimp only))

theorem execCmRej_ok {s : State} {qpn : Nat} (hok : Ok pq s) :
    OutOk pq (execCmRej qpn s) := by
  unfold execCmRej
  try dsimp only
  repeat' (first
    | with_reducible assumption | exact True.intro | with_reducible apply outOk_next | with_reducible apply outOk_ite
    | with_reducible apply State.qpEnter_ok | with_reducible apply State.qpWhen_ok | (simp only [ok_mk, ok3_eq])
    | (intro _ _ _) | (intro _ _) | split | (dsimp only))

theorem execCmMra_ok {s : State} {_qpn : Nat} (hok : Ok pq s) :
    OutOk pq (execCmMra _qpn s) := by
  unfold execCmMra
  try dsimp only
  repeat' (first
    | with_reducible assumption | exact True.intro | with_reducible apply outOk_next | with_reducible apply outOk_ite
    | (simp only [ok_mk, ok3_eq]) | (intro _ _ _) | (intro _ _) | split | (dsimp only))

theorem execCmDreq_ok {s : State} {qpn : Nat} {sent : Bool} (hok : Ok pq s) :
    OutOk pq (execCmDreq qpn sent s) := by
  unfold execCmDreq
  try dsimp only
  repeat' (first
    | with_reducible assumption | exact True.intro | with_reducible apply outOk_next | with_reducible apply outOk_ite
    | with_reducible apply ok_ite | with_reducible apply ok_ite_fst | with_reducible apply State.emit_ok
    | with_reducible apply State.modQp_ok | with_reducible apply State.qpEnter_ok
    | with_reducible apply State.drainPoll_ok | (simp only [ok_mk, ok3_eq]) | (intro _ _ _) | (intro _ _) | split
    | (dsimp only))

theorem execCmDrep_ok {s : State} {qpn : Nat} (hok : Ok pq s) :
    OutOk pq (execCmDrep qpn s) := by
  unfold execCmDrep
  try dsimp only
  repeat' (first
    | with_reducible assumption | exact True.intro | with_reducible apply outOk_next | with_reducible apply outOk_ite
    | with_reducible apply State.qpEnter_ok | with_reducible apply State.qpWhen_ok | (simp only [ok_mk, ok3_eq])
    | (intro _ _ _) | (intro _ _) | split | (dsimp only))

theorem execCmTimeout_ok {s : State} {qpn : Nat} (hok : Ok pq s) :
    OutOk pq (execCmTimeout qpn s) := by
  unfold execCmTimeout
  try dsimp only
  repeat' (first
    | with_reducible assumption | exact True.intro | with_reducible apply outOk_next | with_reducible apply outOk_ite
    | with_reducible apply State.qpEnter_ok | with_reducible apply State.qpWhen_ok | (simp only [ok_mk, ok3_eq])
    | (intro _ _ _) | (intro _ _) | split | (dsimp only))

theorem execDrainingTimeout_ok {s : State} {qpn : Nat} (hok : Ok pq s) :
    OutOk pq (execDrainingTimeout qpn s) := by
  unfold execDrainingTimeout
  try dsimp only
  repeat' (first
    | with_reducible assumption | exact True.intro | with_reducible apply outOk_next | with_reducible apply outOk_ite
    | with_reducible apply State.qpEnter_ok | with_reducible apply State.settle_ok
    | with_reducible apply State.qpWhen_ok | (simp only [ok_mk, ok3_eq]) | (intro _ _ _) | (intro _ _) | split
    | (dsimp only))

theorem execErrorTimeout_ok {s : State} {qpn : Nat} (hok : Ok pq s) :
    OutOk pq (execErrorTimeout qpn s) := by
  unfold execErrorTimeout
  try dsimp only
  repeat' (first
    | with_reducible assumption | exact True.intro | with_reducible apply outOk_next | with_reducible apply outOk_ite
    | with_reducible apply State.qpEnter_ok | with_reducible apply State.qpWhen_ok | (simp only [ok_mk, ok3_eq])
    | (intro _ _ _) | (intro _ _) | split | (dsimp only))

theorem State.qpFree_ok {s : State} {idx : Nat} (hok : Ok pq s) :
    Ok pq (State.qpFree s idx) := by
  unfold State.qpFree
  try dsimp only
  repeat' (first
    | with_reducible assumption | with_reducible apply ok_ite | with_reducible apply ok_ite_fst
    | (simp only [ok_mk, ok3_eq]) | (intro _ _ _) | (intro _ _) | split | (dsimp only))

theorem State.keyFree_ok {s : State} {idx : Nat} (hok : Ok pq s) :
    Ok pq (State.keyFree s idx) := by
  unfold State.keyFree
  try dsimp only
  repeat' (first
    | with_reducible assumption | with_reducible apply ok_ite | with_reducible apply ok_ite_fst
    | (simp only [ok_mk, ok3_eq]) | (intro _ _ _) | (intro _ _) | split | (dsimp only))

theorem execQuarantineEnd_ok {s : State} {mkey : Bool} {index : Nat} (hok : Ok pq s) :
    OutOk pq (execQuarantineEnd mkey index s) := by
  unfold execQuarantineEnd
  try dsimp only
  repeat' (first
    | with_reducible assumption | exact True.intro | with_reducible apply outOk_next | with_reducible apply outOk_ite
    | with_reducible apply ok_ite | with_reducible apply ok_ite_fst | with_reducible apply State.qpFree_ok
    | with_reducible apply State.keyFree_ok | (simp only [ok_mk, ok3_eq]) | (intro _ _ _) | (intro _ _) | split
    | (dsimp only))

theorem execKeyHello_ok {s : State} {qpn : Nat} {w : WcmHdr} {host : Nat} {suite : Nat} {nonce : Nat} {ek : Nat} (hok : Ok pq s) :
    OutOk pq (execKeyHello qpn w host suite nonce ek s) := by
  unfold execKeyHello
  try dsimp only
  repeat' (first
    | with_reducible assumption | exact True.intro | with_reducible apply outOk_next | with_reducible apply outOk_ite
    | with_reducible apply State.cmTake_ok | (simp only [ok_mk, ok3_eq]) | (intro _ _ _) | (intro _ _) | split
    | (dsimp only))

theorem execKeyConfirm_ok {s : State} {qpn : Nat} {w : WcmHdr} {pk : Nat} {sig : Nat} {sigOk : Bool} (hok : Ok pq s) :
    OutOk pq (execKeyConfirm qpn w pk sig sigOk s) := by
  unfold execKeyConfirm
  try dsimp only
  repeat' (first
    | with_reducible assumption | exact True.intro | with_reducible apply outOk_next | with_reducible apply outOk_ite
    | with_reducible apply State.cmTake_ok | (simp only [ok_mk, ok3_eq]) | (intro _ _ _) | (intro _ _) | split
    | (dsimp only))

theorem execCertRequest_ok {s : State} {qpn : Nat} {w : WcmHdr} (hok : Ok pq s) :
    OutOk pq (execCertRequest qpn w s) := by
  unfold execCertRequest
  try dsimp only
  repeat' (first
    | with_reducible assumption | exact True.intro | with_reducible apply outOk_next | with_reducible apply outOk_ite
    | with_reducible apply State.cmTake_ok | (simp only [ok_mk, ok3_eq]) | (intro _ _ _) | (intro _ _) | split
    | (dsimp only))

theorem execKeyingTimeout_ok {s : State} {qpn : Nat} (hok : Ok pq s) :
    OutOk pq (execKeyingTimeout qpn s) := by
  unfold execKeyingTimeout
  try dsimp only
  repeat' (first
    | with_reducible assumption | exact True.intro | with_reducible apply outOk_next | with_reducible apply outOk_ite
    | with_reducible apply State.keyFail_ok | with_reducible apply State.qpWhen_ok | (simp only [ok_mk, ok3_eq])
    | (intro _ _ _) | (intro _ _) | split | (dsimp only))

theorem execRdmaWrite_ok {s : State} {qpn : Nat} {psn : Nat} {rkey : Nat} {va : Nat} {data : List Byte} (hok : Ok pq s) :
    OutOk pq (execRdmaWrite qpn psn rkey va data s) := by
  unfold execRdmaWrite
  try dsimp only
  repeat' (first
    | with_reducible assumption | exact True.intro | with_reducible apply outOk_next | with_reducible apply outOk_ite
    | with_reducible apply State.rdmaDo_ok | (simp only [ok_mk, ok3_eq]) | (intro _ _ _) | (intro _ _) | split
    | (dsimp only))

theorem execRdmaWriteImm_ok {s : State} {qpn : Nat} {psn : Nat} {rkey : Nat} {va : Nat} {data : List Byte} {imm : Nat} (hok : Ok pq s) :
    OutOk pq (execRdmaWriteImm qpn psn rkey va data imm s) := by
  unfold execRdmaWriteImm
  try dsimp only
  repeat' (first
    | with_reducible assumption | exact True.intro | with_reducible apply outOk_next | with_reducible apply outOk_ite
    | with_reducible apply State.rdmaDo_ok | (simp only [ok_mk, ok3_eq]) | (intro _ _ _) | (intro _ _) | split
    | (dsimp only))

theorem execRdmaRead_ok {s : State} {qpn : Nat} {psn : Nat} {rkey : Nat} {va : Nat} {len : Nat} (hok : Ok pq s) :
    OutOk pq (execRdmaRead qpn psn rkey va len s) := by
  unfold execRdmaRead
  try dsimp only
  repeat' (first
    | with_reducible assumption | exact True.intro | with_reducible apply outOk_next | with_reducible apply outOk_ite
    | with_reducible apply State.rdmaDo_ok | (simp only [ok_mk, ok3_eq]) | (intro _ _ _) | (intro _ _) | split
    | (dsimp only))

theorem execAtomicFetchAdd_ok {s : State} {qpn : Nat} {psn : Nat} {rkey : Nat} {va : Nat} {add : DWord} (hok : Ok pq s) :
    OutOk pq (execAtomicFetchAdd qpn psn rkey va add s) := by
  unfold execAtomicFetchAdd
  try dsimp only
  repeat' (first
    | with_reducible assumption | exact True.intro | with_reducible apply outOk_next | with_reducible apply outOk_ite
    | with_reducible apply State.rdmaAligned_ok | (simp only [ok_mk, ok3_eq]) | (intro _ _ _) | (intro _ _) | split
    | (dsimp only))

theorem execAtomicCompareSwap_ok {s : State} {qpn : Nat} {psn : Nat} {rkey : Nat} {va : Nat} {cmp : DWord} {swap : DWord} (hok : Ok pq s) :
    OutOk pq (execAtomicCompareSwap qpn psn rkey va cmp swap s) := by
  unfold execAtomicCompareSwap
  try dsimp only
  repeat' (first
    | with_reducible assumption | exact True.intro | with_reducible apply outOk_next | with_reducible apply outOk_ite
    | with_reducible apply State.rdmaAligned_ok | (simp only [ok_mk, ok3_eq]) | (intro _ _ _) | (intro _ _) | split
    | (dsimp only))

theorem execAtomicWrite_ok {s : State} {qpn : Nat} {psn : Nat} {rkey : Nat} {va : Nat} {data : DWord} (hok : Ok pq s) :
    OutOk pq (execAtomicWrite qpn psn rkey va data s) := by
  unfold execAtomicWrite
  try dsimp only
  repeat' (first
    | with_reducible assumption | exact True.intro | with_reducible apply outOk_next | with_reducible apply outOk_ite
    | with_reducible apply State.rdmaAligned_ok | (simp only [ok_mk, ok3_eq]) | (intro _ _ _) | (intro _ _) | split
    | (dsimp only))

theorem execRdmaFlush_ok {s : State} {qpn : Nat} {psn : Nat} {rkey : Nat} {va : Nat} {len : Nat} {whole : Bool} (hok : Ok pq s) :
    OutOk pq (execRdmaFlush qpn psn rkey va len whole s) := by
  unfold execRdmaFlush
  try dsimp only
  repeat' (first
    | with_reducible assumption | exact True.intro | with_reducible apply outOk_next | with_reducible apply outOk_ite
    | with_reducible apply State.rdmaFlushDo_ok | (simp only [ok_mk, ok3_eq]) | (intro _ _ _) | (intro _ _) | split
    | (dsimp only))

theorem execFlushResponse_ok {s : State} {qpn : Nat} {psn : Nat} (hok : Ok pq s) :
    OutOk pq (execFlushResponse qpn psn s) := by
  unfold execFlushResponse
  try dsimp only
  repeat' (first
    | with_reducible assumption | exact True.intro | with_reducible apply outOk_next | with_reducible apply outOk_ite
    | with_reducible apply State.modQp_ok | with_reducible apply State.respDue_ok
    | with_reducible apply State.settle_ok | with_reducible apply State.qpWhen_ok | (simp only [ok_mk, ok3_eq])
    | (intro _ _ _) | (intro _ _) | split | (dsimp only))

theorem execKeepalive_ok {s : State} {qpn : Nat} {psn : Nat} {w : WcmHdr} (hok : Ok pq s) :
    OutOk pq (execKeepalive qpn psn w s) := by
  unfold execKeepalive
  try dsimp only
  repeat' (first
    | with_reducible assumption | exact True.intro | with_reducible apply outOk_next | with_reducible apply outOk_ite
    | with_reducible apply State.keepaliveDo_ok | (simp only [ok_mk, ok3_eq]) | (intro _ _ _) | (intro _ _) | split
    | (dsimp only))

theorem execMkeyRegister_ok {s : State} {qpn : Nat} {psn : Nat} {w : WcmHdr} {region : Nat} {verbs : Nat} {tag : Nat} {rof : Nat} {va : Nat} {len : Nat} (hok : Ok pq s) :
    OutOk pq (execMkeyRegister qpn psn w region verbs tag rof va len s) := by
  unfold execMkeyRegister
  try dsimp only
  repeat' (first
    | with_reducible assumption | exact True.intro | with_reducible apply outOk_next | with_reducible apply outOk_ite
    | with_reducible apply State.wcmTake_ok | with_reducible apply State.wcmReply_ok
    | with_reducible apply State.keyRegister_ok | (simp only [ok_mk, ok3_eq]) | (intro _ _ _) | (intro _ _) | split
    | (dsimp only))

theorem execMkeyInvalidate_ok {s : State} {qpn : Nat} {psn : Nat} {w : WcmHdr} {rkey : Nat} (hok : Ok pq s) :
    OutOk pq (execMkeyInvalidate qpn psn w rkey s) := by
  unfold execMkeyInvalidate
  try dsimp only
  repeat' (first
    | with_reducible assumption | exact True.intro | with_reducible apply outOk_next | with_reducible apply outOk_ite
    | with_reducible apply State.wcmTake_ok | with_reducible apply State.wcmReply_ok
    | with_reducible apply State.keyInvalidate_ok | (simp only [ok_mk, ok3_eq]) | (intro _ _ _) | (intro _ _) | split
    | (dsimp only))

theorem execLeaseLapse_ok {s : State} {host : Nat} (hok : Ok pq s) :
    OutOk pq (execLeaseLapse host s) := by
  unfold execLeaseLapse
  try dsimp only
  repeat' (first
    | with_reducible assumption | exact True.intro | with_reducible apply outOk_next | with_reducible apply outOk_ite
    | with_reducible apply State.flag_ok | with_reducible apply State.leaseQpsError_ok | (simp only [ok_mk, ok3_eq])
    | (intro _ _ _) | (intro _ _) | split | (dsimp only))

theorem execLeaseRecordFree_ok {s : State} {host : Nat} (hok : Ok pq s) :
    OutOk pq (execLeaseRecordFree host s) := by
  unfold execLeaseRecordFree
  try dsimp only
  repeat' (first
    | with_reducible assumption | exact True.intro | with_reducible apply outOk_next | with_reducible apply outOk_ite
    | with_reducible apply ok_ite | with_reducible apply ok_ite_fst | with_reducible apply State.bothNow_ok
    | (simp only [ok_mk, ok3_eq]) | (intro _ _ _) | (intro _ _) | split | (dsimp only))

theorem execRequesterAckTimeout_ok {s : State} {qpn : Nat} (hok : Ok pq s) :
    OutOk pq (execRequesterAckTimeout qpn s) := by
  unfold execRequesterAckTimeout
  try dsimp only
  repeat' (first
    | with_reducible assumption | exact True.intro | with_reducible apply outOk_next | with_reducible apply outOk_ite
    | with_reducible apply ok_ite | with_reducible apply ok_ite_fst | with_reducible apply ok_foldl
    | with_reducible apply ok_foldl_fst | with_reducible apply State.flag_ok | with_reducible apply State.modQp_ok
    | with_reducible apply State.ctrLimit_ok | with_reducible apply State.recordAgain_ok
    | with_reducible apply State.qpError_ok | with_reducible apply State.qpWhen_ok | (simp only [ok_mk, ok3_eq])
    | (intro _ _ _) | (intro _ _) | split | (dsimp only))

theorem execRequesterAckReceived_ok {s : State} {qpn : Nat} (hok : Ok pq s) :
    OutOk pq (execRequesterAckReceived qpn s) := by
  unfold execRequesterAckReceived
  try dsimp only
  repeat' (first
    | with_reducible assumption | exact True.intro | with_reducible apply outOk_next | with_reducible apply outOk_ite
    | with_reducible apply State.modQp_ok | with_reducible apply State.qpWhen_ok | (simp only [ok_mk, ok3_eq])
    | (intro _ _ _) | (intro _ _) | split | (dsimp only))

end Sys2Proof.Machine
end

