-- ==== Sys2Proof/Laws/KeepsShaum.lean ====
section
/-! SUPPORT. The operations of Machine/Shaum.lean keep memory sound and leave the queue alone. -/

namespace Sys2Proof.Machine

set_option linter.unusedVariables false
set_option linter.unusedTactic false
set_option linter.unreachableTactic false

variable {pq : List Instr}

theorem slotsOk_iff {l : Tbl SaveRec} :
    slotsOk l = true ↔ ∀ e ∈ l, ∀ i, e.2.image = some i → memWf i.mem = true := by
  unfold slotsOk
  rw [List.all_eq_true]
  constructor
  · intro h e he i hi
    have := h e he
    rw [hi] at this
    exact this
  · intro h e he
    split
    · exact h e he _ (by assumption)
    · rfl

theorem tblSet_mem {α : Type} {l : Tbl α} {n : Nat} {v : α} {e : Nat × α} (h : e ∈ Tbl.set l n v) : e = (n, v) ∨ e ∈ l := by
  induction l with
  | nil => simp [Tbl.set] at h; exact .inl h
  | cons x t ih =>
    obtain ⟨k, w⟩ := x
    unfold Tbl.set at h
    split at h
    · simp only [List.mem_cons] at h ⊢; tauto
    · split at h
      · simp only [List.mem_cons] at h ⊢; tauto
      · simp only [List.mem_cons] at h ⊢
        rcases h with h | h
        · exact .inr (.inl h)
        · rcases ih h with h | h
          · exact .inl h
          · exact .inr (.inr h)

theorem slotsOk_set {l : Tbl SaveRec} {n : Nat} {r : SaveRec} (h : slotsOk l = true)
    (hr : ∀ i, r.image = some i → memWf i.mem = true) : slotsOk (l.set n r) = true := by
  rw [slotsOk_iff] at h ⊢
  intro e he i hi
  rcases tblSet_mem he with rfl | he
  · exact hr i hi
  · exact h e he i hi

/-- Records whose images are dropped hold no memory. -/
theorem slotsOk_dropped {l : Tbl SaveRec} {f : SaveRec → SaveRec} (hf : ∀ r, (f r).image = none) : slotsOk (l.mapV f) = true := by
  rw [slotsOk_iff]
  intro e he i hi
  simp only [Tbl.mapV, List.mem_map] at he
  obtain ⟨x, _, rfl⟩ := he
  simp [hf] at hi

theorem slotsOk_filter {l : Tbl SaveRec} {p : Nat × SaveRec → Bool} (h : slotsOk l = true) : slotsOk (l.filter p) = true := by
  rw [slotsOk_iff] at h ⊢
  exact fun e he => h e (List.mem_filter.mp he).1

theorem State.modLane_ok {s : State} {g : Nat} {f : Lane → Lane} (hok : Ok pq s) :
    Ok pq (State.modLane s g f) := by
  unfold State.modLane
  try dsimp only
  repeat' (first
    | with_reducible assumption | (simp only [ok_mk, ok3_eq]) | (intro _ _ _) | (intro _ _) | split | (dsimp only))

theorem State.linkLost_ok {s : State} {st : LinkState} (hok : Ok pq s) :
    Ok pq (State.linkLost s st) := by
  unfold State.linkLost
  try dsimp only
  repeat' (first
    | with_reducible assumption | (simp only [ok_mk, ok3_eq]) | (intro _ _ _) | (intro _ _) | split | (dsimp only))

theorem State.shaumTrain_ok {s : State} (hok : Ok pq s) :
    Ok pq (State.shaumTrain s) := by
  unfold State.shaumTrain
  try dsimp only
  repeat' (first
    | with_reducible assumption | with_reducible apply ok_ite | with_reducible apply ok_ite_fst
    | with_reducible apply ok_foldl | with_reducible apply ok_foldl_fst | with_reducible apply State.emit_ok
    | with_reducible apply State.modLane_ok | (simp only [ok_mk, ok3_eq]) | (intro _ _ _) | (intro _ _) | split
    | (dsimp only))

theorem State.shaumOff_ok {s : State} (hok : Ok pq s) :
    Ok pq (State.shaumOff s) := by
  unfold State.shaumOff
  try dsimp only
  repeat' (first
    | with_reducible assumption | with_reducible apply State.linkLost_ok | (simp only [ok_mk, ok3_eq]) | (intro _ _ _)
    | (intro _ _) | split | (dsimp only))

theorem State.linkEnDo_ok {s : State} {was : Bool} {now : Bool} (hok : Ok pq s) :
    Ok pq (State.linkEnDo s was now) := by
  unfold State.linkEnDo
  try dsimp only
  repeat' (first
    | with_reducible assumption | with_reducible apply ok_ite | with_reducible apply ok_ite_fst
    | with_reducible apply State.shaumTrain_ok | with_reducible apply State.shaumOff_ok | (simp only [ok_mk, ok3_eq])
    | (intro _ _ _) | (intro _ _) | split | (dsimp only))

theorem State.toRetrain_ok {s : State} (hok : Ok pq s) :
    Ok pq (State.toRetrain s) := by
  unfold State.toRetrain
  try dsimp only
  repeat' (first
    | with_reducible assumption | with_reducible apply ok_foldl | with_reducible apply ok_foldl_fst
    | with_reducible apply State.emit_ok | with_reducible apply State.flag_ok | with_reducible apply State.modLane_ok
    | with_reducible apply State.linkLost_ok | (simp only [ok_mk, ok3_eq]) | (intro _ _ _) | (intro _ _) | split
    | (dsimp only))

theorem State.retrainUp_ok {s : State} (hok : Ok pq s) :
    Ok pq (State.retrainUp s) := by
  unfold State.retrainUp
  try dsimp only
  repeat' (first
    | with_reducible assumption | with_reducible apply ok_ite | with_reducible apply ok_ite_fst
    | with_reducible apply State.toRetrain_ok | (simp only [ok_mk, ok3_eq]) | (intro _ _ _) | (intro _ _) | split
    | (dsimp only))

theorem State.retrainCmd_ok {s : State} (hok : Ok pq s) :
    Ok pq (State.retrainCmd s) := by
  unfold State.retrainCmd
  try dsimp only
  repeat' (first
    | with_reducible assumption | with_reducible apply ok_ite | with_reducible apply ok_ite_fst
    | with_reducible apply State.toRetrain_ok | with_reducible apply State.mismatch_ok | (simp only [ok_mk, ok3_eq])
    | (intro _ _ _) | (intro _ _) | split | (dsimp only))

theorem State.keyFrame_ok {s : State} {kind : Nat} {len : Nat} {fields : List (Nat × Nat × Nat)} (hok : Ok pq s) :
    Ok pq (State.keyFrame s kind len fields) := by
  unfold State.keyFrame
  try dsimp only
  repeat' (first
    | with_reducible assumption | with_reducible apply ok_ite | with_reducible apply ok_ite_fst
    | with_reducible apply State.emit_ok | (simp only [ok_mk, ok3_eq]) | (intro _ _ _) | (intro _ _) | split
    | (dsimp only))

theorem State.helloSend_ok {s : State} (hok : Ok pq s) :
    Ok pq (State.helloSend s) := by
  unfold State.helloSend
  try dsimp only
  repeat' (first
    | with_reducible assumption | with_reducible apply State.draw_ok
    | (with_reducible refine State.draw_ok_of (by assumption) ?_) | with_reducible apply State.keyFrame_ok
    | (simp only [ok_mk, ok3_eq]) | (intro _ _ _) | (intro _ _) | split | (dsimp only))

theorem State.toKeying_ok {s : State} (hok : Ok pq s) :
    Ok pq (State.toKeying s) := by
  unfold State.toKeying
  try dsimp only
  repeat' (first
    | with_reducible assumption | with_reducible apply ok_ite | with_reducible apply ok_ite_fst
    | with_reducible apply State.helloSend_ok | (simp only [ok_mk, ok3_eq]) | (intro _ _ _) | (intro _ _) | split
    | (dsimp only))

theorem execLaneGroupTrained_ok {s : State} {g : Fin 4} (hok : Ok pq s) :
    OutOk pq (execLaneGroupTrained g s) := by
  unfold execLaneGroupTrained
  try dsimp only
  repeat' (first
    | with_reducible assumption | exact True.intro | with_reducible apply outOk_next | with_reducible apply outOk_ite
    | with_reducible apply ok_ite | with_reducible apply ok_ite_fst | with_reducible apply State.modLane_ok
    | with_reducible apply State.toKeying_ok | with_reducible apply State.mismatch_ok | (simp only [ok_mk, ok3_eq])
    | (intro _ _ _) | (intro _ _) | split | (dsimp only))

theorem execLaneGroupDown_ok {s : State} {g : Fin 4} (hok : Ok pq s) :
    OutOk pq (execLaneGroupDown g s) := by
  unfold execLaneGroupDown
  try dsimp only
  repeat' (first
    | with_reducible assumption | exact True.intro | with_reducible apply outOk_next | with_reducible apply outOk_ite
    | with_reducible apply ok_ite | with_reducible apply ok_ite_fst | with_reducible apply State.emit_ok
    | with_reducible apply State.flag_ok | with_reducible apply State.err1_ok | with_reducible apply State.modLane_ok
    | with_reducible apply State.shaumOff_ok | with_reducible apply State.mismatch_ok | (simp only [ok_mk, ok3_eq])
    | (intro _ _ _) | (intro _ _) | split | (dsimp only))

theorem execLaneGroupRetry_ok {s : State} {g : Fin 4} (hok : Ok pq s) :
    OutOk pq (execLaneGroupRetry g s) := by
  unfold execLaneGroupRetry
  try dsimp only
  repeat' (first
    | with_reducible assumption | exact True.intro | with_reducible apply outOk_next | with_reducible apply outOk_ite
    | with_reducible apply ok_ite | with_reducible apply ok_ite_fst | with_reducible apply State.emit_ok
    | with_reducible apply State.modLane_ok | with_reducible apply State.shaumTrain_ok | (simp only [ok_mk, ok3_eq])
    | (intro _ _ _) | (intro _ _) | split | (dsimp only))

theorem execLinkTrainingTimeout_ok {s : State} (hok : Ok pq s) :
    OutOk pq (execLinkTrainingTimeout s) := by
  unfold execLinkTrainingTimeout
  try dsimp only
  repeat' (first
    | with_reducible assumption | exact True.intro | with_reducible apply outOk_next | with_reducible apply outOk_ite
    | with_reducible apply ok_ite | with_reducible apply ok_ite_fst | with_reducible apply State.shaumOff_ok
    | with_reducible apply State.toKeying_ok | (simp only [ok_mk, ok3_eq]) | (intro _ _ _) | (intro _ _) | split
    | (dsimp only))

theorem State.mismatch_ok {s : State} {r4 : Bool} (hok : Ok pq s) :
    Ok pq (State.mismatch s r4) := by
  unfold State.mismatch
  try dsimp only
  repeat' (first
    | with_reducible assumption | with_reducible apply ok_ite | with_reducible apply ok_ite_fst
    | with_reducible apply State.flag_ok | with_reducible apply State.record_ok
    | with_reducible apply State.setPhase_ok | with_reducible apply State.linkLost_ok | (simp only [ok_mk, ok3_eq])
    | (intro _ _ _) | (intro _ _) | split | (dsimp only))

theorem State.hostsFree_ok {s : State} (hok : Ok pq s) :
    Ok pq (State.hostsFree s) := by
  unfold State.hostsFree
  try dsimp only
  repeat' (first
    | with_reducible assumption | with_reducible apply ok_ite | with_reducible apply ok_ite_fst
    | with_reducible apply State.linkEnable_ok | (simp only [ok_mk, ok3_eq]) | (intro _ _ _) | (intro _ _) | split
    | (dsimp only))

theorem State.linkDerive_ok {s : State} (hok : Ok pq s) :
    Ok pq (State.linkDerive s) := by
  unfold State.linkDerive
  try dsimp only
  repeat' (first
    | with_reducible assumption | with_reducible apply ok_ite | with_reducible apply ok_ite_fst
    | (simp only [ok_mk, ok3_eq]) | (intro _ _ _) | (intro _ _) | split | (dsimp only))

theorem State.linkUp_ok {s₀ : State} (hok : Ok pq s₀) :
    Ok pq (State.linkUp s₀) := by
  unfold State.linkUp
  try dsimp only
  repeat' (first
    | with_reducible assumption | with_reducible apply ok_ite | with_reducible apply ok_ite_fst
    | with_reducible apply State.setBit_ok | with_reducible apply State.draw_ok
    | (with_reducible refine State.draw_ok_of (by assumption) ?_) | with_reducible apply State.sendUnsent_ok
    | with_reducible apply State.settle_ok | with_reducible apply State.setPhase_ok
    | with_reducible apply State.hostsFree_ok | with_reducible apply State.linkDerive_ok | (simp only [ok_mk, ok3_eq])
    | (intro _ _ _) | (intro _ _) | split | (dsimp only))

theorem State.keyingFailed_ok {s : State} (hok : Ok pq s) :
    Ok pq (State.keyingFailed s) := by
  unfold State.keyingFailed
  try dsimp only
  repeat' (first
    | with_reducible assumption | with_reducible apply State.mismatch_ok | (simp only [ok_mk, ok3_eq]) | (intro _ _ _)
    | (intro _ _) | split | (dsimp only))

theorem State.failSend_ok {s : State} (hok : Ok pq s) :
    Ok pq (State.failSend s) := by
  unfold State.failSend
  try dsimp only
  repeat' (first
    | with_reducible assumption | with_reducible apply State.keyFrame_ok | (simp only [ok_mk, ok3_eq]) | (intro _ _ _)
    | (intro _ _) | split | (dsimp only))

theorem State.keyCheck_ok {s : State} {p : LinkPeer} {ok : Bool} {good : State → State} (hok : Ok pq s) (hgood : ∀ t0, Ok pq t0 → Ok pq (good t0)) :
    Ok pq (State.keyCheck s p ok good) := by
  unfold State.keyCheck
  try dsimp only
  repeat' (first
    | with_reducible assumption | with_reducible apply ok_ite | with_reducible apply ok_ite_fst
    | with_reducible apply State.count_ok | with_reducible apply State.flag_ok | with_reducible apply State.record_ok
    | with_reducible apply State.mismatch_ok | with_reducible apply State.keyingFailed_ok
    | with_reducible apply State.failSend_ok | with_reducible apply hgood | (simp only [ok_mk, ok3_eq])
    | (intro _ _ _) | (intro _ _) | split | (dsimp only))

theorem State.replySend_ok {s : State} {id : Nat} {nonce : Nat} {ek : Nat} (hok : Ok pq s) :
    Ok pq (State.replySend s id nonce ek) := by
  unfold State.replySend
  try dsimp only
  repeat' (first
    | with_reducible assumption | with_reducible apply State.count_ok | with_reducible apply State.draw_ok
    | (with_reducible refine State.draw_ok_of (by assumption) ?_) | with_reducible apply State.keyFrame_ok
    | (simp only [ok_mk, ok3_eq]) | (intro _ _ _) | (intro _ _) | split | (dsimp only))

theorem execLinkHello_ok {s : State} {p : LinkPeer} {nonce : Nat} {ek : Nat} {ok : Bool} (hok : Ok pq s) :
    OutOk pq (execLinkHello p nonce ek ok s) := by
  unfold execLinkHello
  try dsimp only
  repeat' (first
    | with_reducible assumption | exact True.intro | with_reducible apply outOk_next | with_reducible apply outOk_ite
    | with_reducible apply ok_ite | with_reducible apply ok_ite_fst | with_reducible apply State.keyCheck_ok
    | with_reducible apply State.replySend_ok | (simp only [ok_mk, ok3_eq]) | (intro _ _ _) | (intro _ _) | split
    | (dsimp only))

theorem State.confirmSend_ok {s : State} {p : LinkPeer} {nonce1 : Nat} {ct : Nat} {sig : Nat} (hok : Ok pq s) :
    Ok pq (State.confirmSend s p nonce1 ct sig) := by
  unfold State.confirmSend
  try dsimp only
  repeat' (first
    | with_reducible assumption | with_reducible apply State.count_ok | with_reducible apply State.keyFrame_ok
    | with_reducible apply State.linkUp_ok | (simp only [ok_mk, ok3_eq]) | (intro _ _ _) | (intro _ _) | split
    | (dsimp only))

theorem execLinkReply_ok {s : State} {p : LinkPeer} {nonce : Nat} {ct : Nat} {sig : Nat} {ok : Bool} (hok : Ok pq s) :
    OutOk pq (execLinkReply p nonce ct sig ok s) := by
  unfold execLinkReply
  try dsimp only
  repeat' (first
    | with_reducible assumption | exact True.intro | with_reducible apply outOk_next | with_reducible apply outOk_ite
    | with_reducible apply ok_ite | with_reducible apply ok_ite_fst | with_reducible apply State.keyCheck_ok
    | with_reducible apply State.confirmSend_ok | (simp only [ok_mk, ok3_eq]) | (intro _ _ _) | (intro _ _) | split
    | (dsimp only))

theorem execLinkConfirm_ok {s : State} {_sig : Nat} {ok : Bool} (hok : Ok pq s) :
    OutOk pq (execLinkConfirm _sig ok s) := by
  unfold execLinkConfirm
  try dsimp only
  repeat' (first
    | with_reducible assumption | exact True.intro | with_reducible apply outOk_next | with_reducible apply outOk_ite
    | with_reducible apply ok_ite | with_reducible apply ok_ite_fst | with_reducible apply State.count_ok
    | with_reducible apply State.flag_ok | with_reducible apply State.linkUp_ok
    | with_reducible apply State.keyingFailed_ok | with_reducible apply State.failSend_ok
    | (simp only [ok_mk, ok3_eq]) | (intro _ _ _) | (intro _ _) | split | (dsimp only))

theorem execLinkFail_ok {s : State} (hok : Ok pq s) :
    OutOk pq (execLinkFail s) := by
  unfold execLinkFail
  try dsimp only
  repeat' (first
    | with_reducible assumption | exact True.intro | with_reducible apply outOk_next | with_reducible apply outOk_ite
    | with_reducible apply ok_ite | with_reducible apply ok_ite_fst | with_reducible apply State.flag_ok
    | with_reducible apply State.keyingFailed_ok | (simp only [ok_mk, ok3_eq]) | (intro _ _ _) | (intro _ _) | split
    | (dsimp only))

theorem execShaumCounterLimit_ok {s : State} {g : Fin 4} (hok : Ok pq s) :
    OutOk pq (execShaumCounterLimit g s) := by
  unfold execShaumCounterLimit
  try dsimp only
  repeat' (first
    | with_reducible assumption | exact True.intro | with_reducible apply outOk_next | with_reducible apply outOk_ite
    | with_reducible apply ok_ite | with_reducible apply ok_ite_fst | with_reducible apply State.retrainUp_ok
    | (simp only [ok_mk, ok3_eq]) | (intro _ _ _) | (intro _ _) | split | (dsimp only))

theorem execReassemblyTimerExpiry_ok {s : State} {seq : Nat} (hok : Ok pq s) :
    OutOk pq (execReassemblyTimerExpiry seq s) := by
  unfold execReassemblyTimerExpiry
  try dsimp only
  repeat' (first
    | with_reducible assumption | exact True.intro | with_reducible apply outOk_next | with_reducible apply outOk_ite
    | with_reducible apply ok_ite | with_reducible apply ok_ite_fst | with_reducible apply State.count_ok
    | with_reducible apply State.flag_ok | with_reducible apply State.sendOnce_ok | (simp only [ok_mk, ok3_eq])
    | (intro _ _ _) | (intro _ _) | split | (dsimp only))

theorem State.modTx_ok {s : State} {seq : Nat} {f : TxMsg → TxMsg} (hok : Ok pq s) :
    Ok pq (State.modTx s seq f) := by
  unfold State.modTx
  try dsimp only
  repeat' (first
    | with_reducible assumption | (simp only [ok_mk, ok3_eq]) | (intro _ _ _) | (intro _ _) | split | (dsimp only))

theorem execMessageResendTimeout_ok {s : State} {seq : Nat} (hok : Ok pq s) :
    OutOk pq (execMessageResendTimeout seq s) := by
  unfold execMessageResendTimeout
  try dsimp only
  repeat' (first
    | with_reducible assumption | exact True.intro | with_reducible apply outOk_next | with_reducible apply outOk_ite
    | with_reducible apply ok_ite | with_reducible apply ok_ite_fst | with_reducible apply State.countBy_ok
    | with_reducible apply State.sendSegs_ok | with_reducible apply State.toRetrain_ok
    | with_reducible apply State.modTx_ok | (simp only [ok_mk, ok3_eq]) | (intro _ _ _) | (intro _ _) | split
    | (dsimp only))

theorem State.resendSegs_ok {s : State} {seq : Nat} {m : ShaumMsg} {miss : List Nat} (hok : Ok pq s) :
    Ok pq (State.resendSegs s seq m miss) := by
  unfold State.resendSegs
  try dsimp only
  repeat' (first
    | with_reducible assumption | with_reducible apply State.countBy_ok | with_reducible apply State.sendSome_ok
    | (simp only [ok_mk, ok3_eq]) | (intro _ _ _) | (intro _ _) | split | (dsimp only))

theorem State.onNak_ok {s : State} {seq : Nat} {bitmap : Nat} (hok : Ok pq s) :
    Ok pq (State.onNak s seq bitmap) := by
  unfold State.onNak
  try dsimp only
  repeat' (first
    | with_reducible assumption | with_reducible apply ok_ite | with_reducible apply ok_ite_fst
    | with_reducible apply State.toRetrain_ok | with_reducible apply State.modTx_ok
    | with_reducible apply State.resendSegs_ok | (simp only [ok_mk, ok3_eq]) | (intro _ _ _) | (intro _ _) | split
    | (dsimp only))

theorem execSegNak_ok {s : State} {msgSeq : Nat} {bitmap : Nat} (hok : Ok pq s) :
    OutOk pq (execSegNak msgSeq bitmap s) := by
  unfold execSegNak
  try dsimp only
  repeat' (first
    | with_reducible assumption | exact True.intro | with_reducible apply outOk_next | with_reducible apply outOk_ite
    | with_reducible apply ok_ite | with_reducible apply ok_ite_fst | with_reducible apply State.wakeFor_ok
    | with_reducible apply State.onNak_ok | (simp only [ok_mk, ok3_eq]) | (intro _ _ _) | (intro _ _) | split
    | (dsimp only))

theorem State.authBad_ok {s : State} (hok : Ok pq s) :
    Ok pq (State.authBad s) := by
  unfold State.authBad
  try dsimp only
  repeat' (first
    | with_reducible assumption | with_reducible apply ok_ite | with_reducible apply ok_ite_fst
    | with_reducible apply State.count_ok | with_reducible apply State.flag_ok | with_reducible apply State.record_ok
    | with_reducible apply State.toRetrain_ok | (simp only [ok_mk, ok3_eq]) | (intro _ _ _) | (intro _ _) | split
    | (dsimp only))

theorem State.actOn_ok {s : State} {seq : Nat} (hok : Ok pq s) :
    Ok pq (State.actOn s seq) := by
  unfold State.actOn
  try dsimp only
  repeat' (first
    | with_reducible assumption | (simp only [ok_mk, ok3_eq]) | (intro _ _ _) | (intro _ _) | split | (dsimp only))

theorem State.dupMsg_ok {s : State} {seq : Nat} (hok : Ok pq s) :
    Ok pq (State.dupMsg s seq) := by
  unfold State.dupMsg
  try dsimp only
  repeat' (first
    | with_reducible assumption | with_reducible apply State.count_ok | with_reducible apply State.ackMsg_ok
    | (simp only [ok_mk, ok3_eq]) | (intro _ _ _) | (intro _ _) | split | (dsimp only))

theorem State.takeMsg_ok {s : State} {seq : Nat} {f : State → State} (hok : Ok pq s) (hf : ∀ t0, Ok pq t0 → Ok pq (f t0)) :
    Ok pq (State.takeMsg s seq f) := by
  unfold State.takeMsg
  try dsimp only
  repeat' (first
    | with_reducible assumption | with_reducible apply ok_ite | with_reducible apply ok_ite_fst
    | with_reducible apply State.wakeFor_ok | with_reducible apply State.ackMsg_ok
    | with_reducible apply State.actOn_ok | with_reducible apply State.dupMsg_ok | with_reducible apply hf
    | (simp only [ok_mk, ok3_eq]) | (intro _ _ _) | (intro _ _) | split | (dsimp only))

theorem State.takeLater_ok {s : State} {seq : Nat} {busy : Bool} {f : State → State} (hok : Ok pq s) (hf : ∀ t0, Ok pq t0 → Ok pq (f t0)) :
    Ok pq (State.takeLater s seq busy f) := by
  unfold State.takeLater
  try dsimp only
  repeat' (first
    | with_reducible assumption | with_reducible apply ok_ite | with_reducible apply ok_ite_fst
    | with_reducible apply State.wakeFor_ok | with_reducible apply State.actOn_ok
    | with_reducible apply State.dupMsg_ok | with_reducible apply hf | (simp only [ok_mk, ok3_eq]) | (intro _ _ _)
    | (intro _ _) | split | (dsimp only))

theorem State.onMirror_ok {s : State} {seq : Nat} {m : MirrorMsg} (hok : Ok pq s) :
    Ok pq (State.onMirror s seq m) := by
  unfold State.onMirror
  try dsimp only
  repeat' (first
    | with_reducible assumption | with_reducible apply ok_ite | with_reducible apply ok_ite_fst
    | with_reducible apply State.submit_ok | (with_reducible refine State.submit_ok_of (by assumption) ?_)
    | with_reducible apply State.takeLater_ok | (simp only [ok_mk, ok3_eq]) | (intro _ _ _) | (intro _ _) | split
    | (dsimp only))

theorem execMirror_ok {s : State} {seq : Nat} {m : MirrorMsg} (hok : Ok pq s) :
    OutOk pq (execMirror seq m s) := by
  unfold execMirror
  try dsimp only
  repeat' (first
    | with_reducible assumption | exact True.intro | with_reducible apply outOk_next | with_reducible apply outOk_ite
    | with_reducible apply State.onMirror_ok | (simp only [ok_mk, ok3_eq]) | (intro _ _ _) | (intro _ _) | split
    | (dsimp only))

theorem State.mirrorAcked_ok {s : State} {seq : Nat} {m : MirrorMsg} (hok : Ok pq s) :
    Ok pq (State.mirrorAcked s seq m) := by
  unfold State.mirrorAcked
  try dsimp only
  repeat' (first
    | with_reducible assumption | with_reducible apply ok_foldl | with_reducible apply ok_foldl_fst
    | with_reducible apply State.modReq_ok | with_reducible apply State.closeLine_ok
    | with_reducible apply State.writeDone_ok | (simp only [ok_mk, ok3_eq]) | (intro _ _ _) | (intro _ _) | split
    | (dsimp only))

theorem State.tileAcked_ok {s : State} {tile : Nat} (hok : Ok pq s) :
    Ok pq (State.tileAcked s tile) := by
  unfold State.tileAcked
  try dsimp only
  repeat' (first
    | with_reducible assumption | with_reducible apply State.modTile_ok | with_reducible apply State.resyncEnd_ok
    | (simp only [ok_mk, ok3_eq]) | (intro _ _ _) | (intro _ _) | split | (dsimp only))

theorem State.ackOne_ok {s : State} {seq : Nat} (hok : Ok pq s) :
    Ok pq (State.ackOne s seq) := by
  unfold State.ackOne
  try dsimp only
  repeat' (first
    | with_reducible assumption | with_reducible apply State.ctlDone_ok
    | (with_reducible refine State.ctlDone_ok_of (by assumption) ?_) | with_reducible apply State.mbxPoll_ok
    | with_reducible apply State.mirrorAcked_ok | with_reducible apply State.tileAcked_ok
    | (simp only [ok_mk, ok3_eq]) | (intro _ _ _) | (intro _ _) | split | (dsimp only))

theorem State.onAck_ok {s : State} {seqs : List Nat} (hok : Ok pq s) :
    Ok pq (State.onAck s seqs) := by
  unfold State.onAck
  try dsimp only
  repeat' (first
    | with_reducible assumption | with_reducible apply ok_ite | with_reducible apply ok_ite_fst
    | with_reducible apply ok_foldl | with_reducible apply ok_foldl_fst | with_reducible apply State.wakeFor_ok
    | with_reducible apply State.sendUnsent_ok | with_reducible apply State.settle_ok
    | with_reducible apply State.ackOne_ok | (simp only [ok_mk, ok3_eq]) | (intro _ _ _) | (intro _ _) | split
    | (dsimp only))

theorem execShaumAck_ok {s : State} {seqs : List Nat} (hok : Ok pq s) :
    OutOk pq (execShaumAck seqs s) := by
  unfold execShaumAck
  try dsimp only
  repeat' (first
    | with_reducible assumption | exact True.intro | with_reducible apply outOk_next | with_reducible apply outOk_ite
    | with_reducible apply State.onAck_ok | (simp only [ok_mk, ok3_eq]) | (intro _ _ _) | (intro _ _) | split
    | (dsimp only))

theorem State.onForward_ok {s : State} {seq : Nat} {m : FwdMsg} (hok : Ok pq s) :
    Ok pq (State.onForward s seq m) := by
  unfold State.onForward
  try dsimp only
  repeat' (first
    | with_reducible assumption | with_reducible apply State.submit_ok
    | (with_reducible refine State.submit_ok_of (by assumption) ?_) | with_reducible apply State.takeMsg_ok
    | (simp only [ok_mk, ok3_eq]) | (intro _ _ _) | (intro _ _) | split | (dsimp only))

theorem execForward_ok {s : State} {seq : Nat} {m : FwdMsg} (hok : Ok pq s) :
    OutOk pq (execForward seq m s) := by
  unfold execForward
  try dsimp only
  repeat' (first
    | with_reducible assumption | exact True.intro | with_reducible apply outOk_next | with_reducible apply outOk_ite
    | with_reducible apply State.onForward_ok | (simp only [ok_mk, ok3_eq]) | (intro _ _ _) | (intro _ _) | split
    | (dsimp only))

theorem State.onFwdReply_ok {s : State} {seq : Nat} {tag : Nat} {poisoned : Bool} {result : Nat} (hok : Ok pq s) :
    Ok pq (State.onFwdReply s seq tag poisoned result) := by
  unfold State.onFwdReply
  try dsimp only
  repeat' (first
    | with_reducible assumption | with_reducible apply ok_ite | with_reducible apply ok_ite_fst
    | with_reducible apply State.countBy_ok | with_reducible apply State.modReq_ok
    | with_reducible apply State.endReq_ok | with_reducible apply State.settle_ok
    | with_reducible apply State.takeMsg_ok | (simp only [ok_mk, ok3_eq]) | (intro _ _ _) | (intro _ _) | split
    | (dsimp only))

theorem execFwdReply_ok {s : State} {seq : Nat} {tag : Nat} {poisoned : Bool} {result : Nat} (hok : Ok pq s) :
    OutOk pq (execFwdReply seq tag poisoned result s) := by
  unfold execFwdReply
  try dsimp only
  repeat' (first
    | with_reducible assumption | exact True.intro | with_reducible apply outOk_next | with_reducible apply outOk_ite
    | with_reducible apply State.onFwdReply_ok | (simp only [ok_mk, ok3_eq]) | (intro _ _ _) | (intro _ _) | split
    | (dsimp only))

theorem State.onReadReq_ok {s : State} {seq : Nat} {tag : Nat} {region : Nat} {off : Nat} {psa : Nat} {len : Nat} (hok : Ok pq s) :
    Ok pq (State.onReadReq s seq tag region off psa len) := by
  unfold State.onReadReq
  try dsimp only
  repeat' (first
    | with_reducible assumption | with_reducible apply State.submit_ok
    | (with_reducible refine State.submit_ok_of (by assumption) ?_) | with_reducible apply State.takeMsg_ok
    | (simp only [ok_mk, ok3_eq]) | (intro _ _ _) | (intro _ _) | split | (dsimp only))

theorem execReadReq_ok {s : State} {seq : Nat} {tag : Nat} {region : Nat} {off : Nat} {psa : Nat} {len : Nat} (hok : Ok pq s) :
    OutOk pq (execReadReq seq tag region off psa len s) := by
  unfold execReadReq
  try dsimp only
  repeat' (first
    | with_reducible assumption | exact True.intro | with_reducible apply outOk_next | with_reducible apply outOk_ite
    | with_reducible apply State.onReadReq_ok | (simp only [ok_mk, ok3_eq]) | (intro _ _ _) | (intro _ _) | split
    | (dsimp only))

theorem State.onReadData_ok {s : State} {seq : Nat} {tag : Nat} {data : List Byte} {poison : List Bool} (hok : Ok pq s) :
    Ok pq (State.onReadData s seq tag data poison) := by
  unfold State.onReadData
  try dsimp only
  repeat' (first
    | with_reducible assumption | with_reducible apply ok_ite | with_reducible apply ok_ite_fst
    | with_reducible apply State.modReq_ok | with_reducible apply State.endReq_ok
    | with_reducible apply State.forwardRead_ok | with_reducible apply State.settle_ok
    | with_reducible apply State.takeMsg_ok | (simp only [ok_mk, ok3_eq]) | (intro _ _ _) | (intro _ _) | split
    | (dsimp only))

theorem execReadData_ok {s : State} {seq : Nat} {tag : Nat} {data : List Byte} {poison : List Bool} (hok : Ok pq s) :
    OutOk pq (execReadData seq tag data poison s) := by
  unfold execReadData
  try dsimp only
  repeat' (first
    | with_reducible assumption | exact True.intro | with_reducible apply outOk_next | with_reducible apply outOk_ite
    | with_reducible apply State.onReadData_ok | (simp only [ok_mk, ok3_eq]) | (intro _ _ _) | (intro _ _) | split
    | (dsimp only))

theorem State.onHint_ok {s : State} {seq : Nat} {tile : Nat} (hok : Ok pq s) :
    Ok pq (State.onHint s seq tile) := by
  unfold State.onHint
  try dsimp only
  repeat' (first
    | with_reducible assumption | with_reducible apply ok_ite | with_reducible apply ok_ite_fst
    | with_reducible apply State.count_ok | with_reducible apply State.startMove_ok
    | with_reducible apply State.settle_ok | with_reducible apply State.takeMsg_ok | (simp only [ok_mk, ok3_eq])
    | (intro _ _ _) | (intro _ _) | split | (dsimp only))

theorem execPromoHint_ok {s : State} {seq : Nat} {tile : Nat} (hok : Ok pq s) :
    OutOk pq (execPromoHint seq tile s) := by
  unfold execPromoHint
  try dsimp only
  repeat' (first
    | with_reducible assumption | exact True.intro | with_reducible apply outOk_next | with_reducible apply outOk_ite
    | with_reducible apply State.onHint_ok | (simp only [ok_mk, ok3_eq]) | (intro _ _ _) | (intro _ _) | split
    | (dsimp only))

theorem State.onPull_ok {s : State} {seq : Nat} {tile : Nat} (hok : Ok pq s) :
    Ok pq (State.onPull s seq tile) := by
  unfold State.onPull
  try dsimp only
  repeat' (first
    | with_reducible assumption | with_reducible apply State.settle_ok | with_reducible apply State.takeMsg_ok
    | (simp only [ok_mk, ok3_eq]) | (intro _ _ _) | (intro _ _) | split | (dsimp only))

theorem execTilePull_ok {s : State} {seq : Nat} {tile : Nat} (hok : Ok pq s) :
    OutOk pq (execTilePull seq tile s) := by
  unfold execTilePull
  try dsimp only
  repeat' (first
    | with_reducible assumption | exact True.intro | with_reducible apply outOk_next | with_reducible apply outOk_ite
    | with_reducible apply State.onPull_ok | (simp only [ok_mk, ok3_eq]) | (intro _ _ _) | (intro _ _) | split
    | (dsimp only))

theorem State.onTileData_ok {s : State} {seq : Nat} {tile : Nat} {data : List Byte} {sectors : List SectorInfo} {resync : Bool} (hok : Ok pq s) :
    Ok pq (State.onTileData s seq tile data sectors resync) := by
  unfold State.onTileData
  try dsimp only
  repeat' (first
    | with_reducible assumption | with_reducible apply ok_ite | with_reducible apply ok_ite_fst
    | with_reducible apply State.modMove_ok | with_reducible apply State.mergeTile_ok
    | with_reducible apply State.settle_ok | with_reducible apply State.takeMsg_ok
    | with_reducible apply State.takeLater_ok | (simp only [ok_mk, ok3_eq]) | (intro _ _ _) | (intro _ _) | split
    | (dsimp only))

theorem execTileData_ok {s : State} {seq : Nat} {tile : Nat} {data : List Byte} {sectors : List SectorInfo} {resync : Bool} (hok : Ok pq s) :
    OutOk pq (execTileData seq tile data sectors resync s) := by
  unfold execTileData
  try dsimp only
  repeat' (first
    | with_reducible assumption | exact True.intro | with_reducible apply outOk_next | with_reducible apply outOk_ite
    | with_reducible apply State.onTileData_ok | (simp only [ok_mk, ok3_eq]) | (intro _ _ _) | (intro _ _) | split
    | (dsimp only))

theorem State.onOffer_ok {s : State} {seq : Nat} {region : Nat} {pseq : Nat} (hok : Ok pq s) :
    Ok pq (State.onOffer s seq region pseq) := by
  unfold State.onOffer
  try dsimp only
  repeat' (first
    | with_reducible assumption | with_reducible apply ok_ite | with_reducible apply ok_ite_fst
    | with_reducible apply State.modRegion_ok | with_reducible apply State.post_ok
    | with_reducible apply State.requeue_ok | with_reducible apply State.settle_ok
    | with_reducible apply State.takeMsg_ok | (simp only [ok_mk, ok3_eq]) | (intro _ _ _) | (intro _ _) | split
    | (dsimp only))

theorem execEnsignOffer_ok {s : State} {seq : Nat} {region : Nat} {pseq : Nat} (hok : Ok pq s) :
    OutOk pq (execEnsignOffer seq region pseq s) := by
  unfold execEnsignOffer
  try dsimp only
  repeat' (first
    | with_reducible assumption | exact True.intro | with_reducible apply outOk_next | with_reducible apply outOk_ite
    | with_reducible apply State.onOffer_ok | (simp only [ok_mk, ok3_eq]) | (intro _ _ _) | (intro _ _) | split
    | (dsimp only))

theorem State.onAccept_ok {s : State} {seq : Nat} {region : Nat} (hok : Ok pq s) :
    Ok pq (State.onAccept s seq region) := by
  unfold State.onAccept
  try dsimp only
  repeat' (first
    | with_reducible assumption | with_reducible apply ok_ite | with_reducible apply ok_ite_fst
    | with_reducible apply State.modRegion_ok | with_reducible apply State.settle_ok
    | with_reducible apply State.handEnd_ok | with_reducible apply State.handStart_ok
    | with_reducible apply State.dropFetched_ok | with_reducible apply State.takeMsg_ok | (simp only [ok_mk, ok3_eq])
    | (intro _ _ _) | (intro _ _) | split | (dsimp only))

theorem execEnsignAccept_ok {s : State} {seq : Nat} {region : Nat} (hok : Ok pq s) :
    OutOk pq (execEnsignAccept seq region s) := by
  unfold execEnsignAccept
  try dsimp only
  repeat' (first
    | with_reducible assumption | exact True.intro | with_reducible apply outOk_next | with_reducible apply outOk_ite
    | with_reducible apply State.onAccept_ok | (simp only [ok_mk, ok3_eq]) | (intro _ _ _) | (intro _ _) | split
    | (dsimp only))

theorem execHandoffAcksDrained_ok {s : State} {region : Fin 4096} (hok : Ok pq s) :
    OutOk pq (execHandoffAcksDrained region s) := by
  unfold execHandoffAcksDrained
  try dsimp only
  repeat' (first
    | with_reducible assumption | exact True.intro | with_reducible apply outOk_next | with_reducible apply outOk_ite
    | with_reducible apply ok_ite | with_reducible apply ok_ite_fst | with_reducible apply State.modRegion_ok
    | with_reducible apply State.post_ok | (simp only [ok_mk, ok3_eq]) | (intro _ _ _) | (intro _ _) | split
    | (dsimp only))

theorem State.spareErase_ok {s : State} (hok : Ok pq s) : Ok pq (State.spareErase s) := by
  unfold State.spareErase
  exact State.eraseAsk_ok ⟨hok.1, slotsOk_filter hok.2.1, hok.2.2⟩

theorem State.admitHosts_ok {s : State} (hok : Ok pq s) : Ok pq (State.admitHosts s) := by
  have hd : ∀ (u : State) (f : SaveRec → SaveRec), (∀ r, (f r).image = none) → Ok pq u →
      Ok3 pq u.mem (u.elg.slots.mapV f) u.pending := fun u f hf hu => ⟨hu.1, slotsOk_dropped hf, hu.2.2⟩
  unfold State.admitHosts
  dsimp only
  repeat' (first
    | with_reducible assumption | with_reducible apply ok_ite | with_reducible apply ok_foldl
    | with_reducible apply State.setReg64_ok | with_reducible apply State.setBit_ok
    | with_reducible apply State.activateLds_ok | with_reducible apply State.emptyCheck_ok
    | exact hd _ _ (fun _ => rfl) ‹_›
    | (simp only [ok_mk, ok3_eq]) | (intro _ _ _) | split | (dsimp only))

theorem State.forceOnline_ok {s : State} {id : Nat} (hok : Ok pq s) :
    Ok pq (State.forceOnline s id) := by
  unfold State.forceOnline
  try dsimp only
  repeat' (first
    | with_reducible assumption | with_reducible apply ok_ite | with_reducible apply ok_ite_fst
    | with_reducible apply State.requeue_ok | with_reducible apply State.settle_ok
    | with_reducible apply State.regionState_ok | with_reducible apply State.notePhase_ok
    | with_reducible apply State.resyncRegion_ok | with_reducible apply State.hostsFree_ok
    | with_reducible apply State.admitHosts_ok | (simp only [ok_mk, ok3_eq]) | (intro _ _ _) | (intro _ _) | split
    | (dsimp only))

theorem State.changeStart_ok {s : State} {c : Change} (hok : Ok pq s) :
    Ok pq (State.changeStart s c) := by
  unfold State.changeStart
  try dsimp only
  repeat' (first
    | with_reducible assumption | with_reducible apply ok_ite | with_reducible apply ok_ite_fst
    | with_reducible apply State.notePhase_ok | with_reducible apply State.handEnd_ok
    | with_reducible apply State.startHandoff_ok | with_reducible apply State.admitHosts_ok
    | with_reducible apply State.forceOnline_ok | (simp only [ok_mk, ok3_eq]) | (intro _ _ _) | (intro _ _) | split
    | (dsimp only))

theorem State.ctlDrop_ok {s : State} {ks : List Nat} (hok : Ok pq s) :
    Ok pq (State.ctlDrop s ks) := by
  unfold State.ctlDrop
  try dsimp only
  repeat' (first
    | with_reducible assumption | with_reducible apply ok_ite | with_reducible apply ok_ite_fst
    | with_reducible apply ok_foldl | with_reducible apply ok_foldl_fst | with_reducible apply State.mbxStatus_ok
    | (simp only [ok_mk, ok3_eq]) | (intro _ _ _) | (intro _ _) | split | (dsimp only))

theorem State.ctlLoses_ok {s : State} {obj : Nat} (hok : Ok pq s) :
    Ok pq (State.ctlLoses s obj) := by
  unfold State.ctlLoses
  try dsimp only
  repeat' (first
    | with_reducible assumption | with_reducible apply State.ctlDrop_ok | (simp only [ok_mk, ok3_eq]) | (intro _ _ _)
    | (intro _ _) | split | (dsimp only))

theorem State.keyLoses_ok {s : State} {c : Change} (hok : Ok pq s) :
    Ok pq (State.keyLoses s c) := by
  unfold State.keyLoses
  try dsimp only
  repeat' (first
    | with_reducible assumption | with_reducible apply ok_ite | with_reducible apply ok_ite_fst
    | (simp only [ok_mk, ok3_eq]) | (intro _ _ _) | (intro _ _) | split | (dsimp only))

theorem State.takeChange_ok {s : State} {c : Change} (hok : Ok pq s) :
    Ok pq (State.takeChange s c) := by
  unfold State.takeChange
  try dsimp only
  repeat' (first
    | with_reducible assumption | with_reducible apply ok_ite | with_reducible apply ok_ite_fst
    | with_reducible apply State.post_ok | with_reducible apply State.applyChange_ok
    | with_reducible apply State.changeStart_ok | with_reducible apply State.ctlLoses_ok
    | with_reducible apply State.keyLoses_ok | (simp only [ok_mk, ok3_eq]) | (intro _ _ _) | (intro _ _) | split
    | (dsimp only))

theorem State.onControl_ok {s : State} {seq : Nat} {cs : List Change} (hok : Ok pq s) :
    Ok pq (State.onControl s seq cs) := by
  unfold State.onControl
  try dsimp only
  repeat' (first
    | with_reducible assumption | with_reducible apply ok_ite | with_reducible apply ok_ite_fst
    | with_reducible apply ok_foldl | with_reducible apply ok_foldl_fst | with_reducible apply State.settle_ok
    | with_reducible apply State.resyncStart_ok | with_reducible apply State.takeLater_ok
    | with_reducible apply State.ctlDrop_ok | with_reducible apply State.takeChange_ok | (simp only [ok_mk, ok3_eq])
    | (intro _ _ _) | (intro _ _) | split | (dsimp only))

theorem execControl_ok {s : State} {seq : Nat} {cs : List Change} (hok : Ok pq s) :
    OutOk pq (execControl seq cs s) := by
  unfold execControl
  try dsimp only
  repeat' (first
    | with_reducible assumption | exact True.intro | with_reducible apply outOk_next | with_reducible apply outOk_ite
    | with_reducible apply State.onControl_ok | (simp only [ok_mk, ok3_eq]) | (intro _ _ _) | (intro _ _) | split
    | (dsimp only))

theorem State.onRelay_ok {s : State} {seq : Nat} {cq : Nat} {recSeq : Nat} {r : CqRec} (hok : Ok pq s) :
    Ok pq (State.onRelay s seq cq recSeq r) := by
  unfold State.onRelay
  try dsimp only
  repeat' (first
    | with_reducible assumption | with_reducible apply ok_ite | with_reducible apply ok_ite_fst
    | with_reducible apply State.cqPump_ok | with_reducible apply State.cqAssign_ok
    | with_reducible apply State.takeMsg_ok | (simp only [ok_mk, ok3_eq]) | (intro _ _ _) | (intro _ _) | split
    | (dsimp only))

theorem execCqRelay_ok {s : State} {seq : Nat} {cq : Nat} {recSeq : Nat} {r : CqRec} (hok : Ok pq s) :
    OutOk pq (execCqRelay seq cq recSeq r s) := by
  unfold execCqRelay
  try dsimp only
  repeat' (first
    | with_reducible assumption | exact True.intro | with_reducible apply outOk_next | with_reducible apply outOk_ite
    | with_reducible apply State.onRelay_ok | (simp only [ok_mk, ok3_eq]) | (intro _ _ _) | (intro _ _) | split
    | (dsimp only))

theorem State.verifyOwn_ok {s : State} {tile : Nat} (hok : Ok pq s) :
    Ok pq (State.verifyOwn s tile) := by
  unfold State.verifyOwn
  try dsimp only
  repeat' (first
    | with_reducible assumption | with_reducible apply ok_ite | with_reducible apply ok_ite_fst
    | with_reducible apply State.badRead_ok | (simp only [ok_mk, ok3_eq]) | (intro _ _ _) | (intro _ _) | split
    | (dsimp only))

theorem State.onVerify_ok {s : State} {seq : Nat} {tile : Nat} {crc : Nat} {pseq : Nat} (hok : Ok pq s) :
    Ok pq (State.onVerify s seq tile crc pseq) := by
  unfold State.onVerify
  try dsimp only
  repeat' (first
    | with_reducible assumption | with_reducible apply ok_ite | with_reducible apply ok_ite_fst
    | with_reducible apply State.post_ok | with_reducible apply State.startRepair_ok
    | with_reducible apply State.settle_ok | with_reducible apply State.takeMsg_ok
    | with_reducible apply State.verifyOwn_ok | (simp only [ok_mk, ok3_eq]) | (intro _ _ _) | (intro _ _) | split
    | (dsimp only))

theorem execVerify_ok {s : State} {seq : Nat} {tile : Nat} {crc : Nat} {pseq : Nat} (hok : Ok pq s) :
    OutOk pq (execVerify seq tile crc pseq s) := by
  unfold execVerify
  try dsimp only
  repeat' (first
    | with_reducible assumption | exact True.intro | with_reducible apply outOk_next | with_reducible apply outOk_ite
    | with_reducible apply State.onVerify_ok | (simp only [ok_mk, ok3_eq]) | (intro _ _ _) | (intro _ _) | split
    | (dsimp only))

theorem State.onVerifyReply_ok {s : State} {seq : Nat} {tile : Nat} {crc : Nat} {pseq : Nat} (hok : Ok pq s) :
    Ok pq (State.onVerifyReply s seq tile crc pseq) := by
  unfold State.onVerifyReply
  try dsimp only
  repeat' (first
    | with_reducible assumption | with_reducible apply ok_ite | with_reducible apply ok_ite_fst
    | with_reducible apply State.count_ok | with_reducible apply State.flagRecord_ok
    | with_reducible apply State.takeMsg_ok | (simp only [ok_mk, ok3_eq]) | (intro _ _ _) | (intro _ _) | split
    | (dsimp only))

theorem execVerifyReply_ok {s : State} {seq : Nat} {tile : Nat} {crc : Nat} {pseq : Nat} (hok : Ok pq s) :
    OutOk pq (execVerifyReply seq tile crc pseq s) := by
  unfold execVerifyReply
  try dsimp only
  repeat' (first
    | with_reducible assumption | exact True.intro | with_reducible apply outOk_next | with_reducible apply outOk_ite
    | with_reducible apply State.onVerifyReply_ok | (simp only [ok_mk, ok3_eq]) | (intro _ _ _) | (intro _ _) | split
    | (dsimp only))

theorem State.onResyncCtl_ok {s : State} {seq : Nat} {region : Nat} {pseq : Nat} {start : Bool} {pinned : List Nat} (hok : Ok pq s) :
    Ok pq (State.onResyncCtl s seq region pseq start pinned) := by
  unfold State.onResyncCtl
  try dsimp only
  repeat' (first
    | with_reducible assumption | with_reducible apply ok_ite | with_reducible apply ok_ite_fst
    | with_reducible apply ok_foldl | with_reducible apply ok_foldl_fst | with_reducible apply State.flag_ok
    | with_reducible apply State.modTile_ok | with_reducible apply State.servePinned_ok
    | with_reducible apply State.settle_ok | with_reducible apply State.regionState_ok
    | with_reducible apply State.notePhase_ok | with_reducible apply State.takeMsg_ok
    | with_reducible apply State.admitHosts_ok | (simp only [ok_mk, ok3_eq]) | (intro _ _ _) | (intro _ _) | split
    | (dsimp only))

theorem execResyncCtl_ok {s : State} {seq : Nat} {region : Nat} {pseq : Nat} {start : Bool} {pinned : List Nat} (hok : Ok pq s) :
    OutOk pq (execResyncCtl seq region pseq start pinned s) := by
  unfold execResyncCtl
  try dsimp only
  repeat' (first
    | with_reducible assumption | exact True.intro | with_reducible apply outOk_next | with_reducible apply outOk_ite
    | with_reducible apply State.onResyncCtl_ok | (simp only [ok_mk, ok3_eq]) | (intro _ _ _) | (intro _ _) | split
    | (dsimp only))

theorem execResyncTileSend_ok {s : State} {region : Fin 4096} (hok : Ok pq s) :
    OutOk pq (execResyncTileSend region s) := by
  unfold execResyncTileSend
  try dsimp only
  repeat' (first
    | with_reducible assumption | exact True.intro | with_reducible apply outOk_next | with_reducible apply outOk_ite
    | with_reducible apply ok_ite | with_reducible apply ok_ite_fst | with_reducible apply State.post_ok
    | (simp only [ok_mk, ok3_eq]) | (intro _ _ _) | (intro _ _) | split | (dsimp only))

end Sys2Proof.Machine
end

