-- ==== Sys2Proof/Laws/KeepsTwin.lean ====
section
/-! SUPPORT. The operations of Machine/Twin.lean keep memory sound and leave the queue alone. -/

namespace Sys2Proof.Machine

set_option linter.unusedVariables false
set_option linter.unusedTactic false
set_option linter.unreachableTactic false

variable {pq : List Instr}

theorem State.sendBurgee_ok {s : State} {g : Nat} {seq : Nat} {b : Burgee} (hok : Ok pq s) :
    Ok pq (State.sendBurgee s g seq b) := by
  unfold State.sendBurgee
  try dsimp only
  repeat' (first
    | with_reducible assumption | with_reducible apply State.emit_ok | with_reducible apply State.modLane_ok
    | (simp only [ok_mk, ok3_eq]) | (intro _ _ _) | (intro _ _) | split | (dsimp only))

theorem execShaumBurgeeInterval_ok {s : State} (hok : Ok pq s) :
    OutOk pq (execShaumBurgeeInterval s) := by
  unfold execShaumBurgeeInterval
  try dsimp only
  repeat' (first
    | with_reducible assumption | exact True.intro | with_reducible apply outOk_next | with_reducible apply outOk_ite
    | with_reducible apply ok_ite | with_reducible apply ok_ite_fst | with_reducible apply ok_foldl
    | with_reducible apply ok_foldl_fst | with_reducible apply State.nextMsgSeq_ok
    | (with_reducible refine State.nextMsgSeq_ok_of (by assumption) ?_) | with_reducible apply State.mismatch_ok
    | with_reducible apply State.sendBurgee_ok | (simp only [ok_mk, ok3_eq]) | (intro _ _ _) | (intro _ _) | split
    | (dsimp only))

theorem execTsbBurgeeInterval_ok {s : State} (hok : Ok pq s) :
    OutOk pq (execTsbBurgeeInterval s) := by
  unfold execTsbBurgeeInterval
  try dsimp only
  repeat' (first
    | with_reducible assumption | exact True.intro | with_reducible apply outOk_next | with_reducible apply outOk_ite
    | with_reducible apply ok_ite | with_reducible apply ok_ite_fst | with_reducible apply State.emit_ok
    | (simp only [ok_mk, ok3_eq]) | (intro _ _ _) | (intro _ _) | split | (dsimp only))

theorem execFastModeExpiry_ok {s : State} (hok : Ok pq s) :
    OutOk pq (execFastModeExpiry s) := by
  unfold execFastModeExpiry
  try dsimp only
  repeat' (first
    | with_reducible assumption | exact True.intro | with_reducible apply outOk_next | with_reducible apply outOk_ite
    | with_reducible apply ok_ite | with_reducible apply ok_ite_fst | (simp only [ok_mk, ok3_eq]) | (intro _ _ _)
    | (intro _ _) | split | (dsimp only))

theorem State.peerFollow_ok {s : State} (hok : Ok pq s) :
    Ok pq (State.peerFollow s) := by
  unfold State.peerFollow
  try dsimp only
  repeat' (first
    | with_reducible assumption | with_reducible apply ok_ite | with_reducible apply ok_ite_fst
    | (simp only [ok_mk, ok3_eq]) | (intro _ _ _) | (intro _ _) | split | (dsimp only))

theorem State.heardOn_ok {s : State} {tsb : Bool} (hok : Ok pq s) :
    Ok pq (State.heardOn s tsb) := by
  unfold State.heardOn
  try dsimp only
  repeat' (first
    | with_reducible assumption | with_reducible apply ok_ite | with_reducible apply ok_ite_fst
    | with_reducible apply State.peerFollow_ok | (simp only [ok_mk, ok3_eq]) | (intro _ _ _) | (intro _ _) | split
    | (dsimp only))

theorem State.burgeeMiss_ok {s : State} {n : Nat} (hok : Ok pq s) :
    Ok pq (State.burgeeMiss s n) := by
  unfold State.burgeeMiss
  try dsimp only
  repeat' (first
    | with_reducible assumption | with_reducible apply State.countBy_ok | (simp only [ok_mk, ok3_eq]) | (intro _ _ _)
    | (intro _ _) | split | (dsimp only))

theorem State.bothSilent_ok {s : State} (hok : Ok pq s) :
    Ok pq (State.bothSilent s) := by
  unfold State.bothSilent
  try dsimp only
  repeat' (first
    | with_reducible assumption | with_reducible apply ok_ite | with_reducible apply ok_ite_fst
    | with_reducible apply State.peerLost_ok | (simp only [ok_mk, ok3_eq]) | (intro _ _ _) | (intro _ _) | split
    | (dsimp only))

theorem State.goSilent_ok {s₀ : State} {tsb : Bool} (hok : Ok pq s₀) :
    Ok pq (State.goSilent s₀ tsb) := by
  unfold State.goSilent
  try dsimp only
  repeat' (first
    | with_reducible assumption | with_reducible apply ok_ite | with_reducible apply ok_ite_fst
    | with_reducible apply State.flagRecord_ok | with_reducible apply State.wakeFor_ok
    | with_reducible apply State.bothSilent_ok | (simp only [ok_mk, ok3_eq]) | (intro _ _ _) | (intro _ _) | split
    | (dsimp only))

theorem execShaumPathSilent_ok {s : State} (hok : Ok pq s) :
    OutOk pq (execShaumPathSilent s) := by
  unfold execShaumPathSilent
  try dsimp only
  repeat' (first
    | with_reducible assumption | exact True.intro | with_reducible apply outOk_next | with_reducible apply outOk_ite
    | with_reducible apply ok_ite | with_reducible apply ok_ite_fst | with_reducible apply State.burgeeMiss_ok
    | with_reducible apply State.goSilent_ok | (simp only [ok_mk, ok3_eq]) | (intro _ _ _) | (intro _ _) | split
    | (dsimp only))

theorem execTsbPathSilent_ok {s : State} (hok : Ok pq s) :
    OutOk pq (execTsbPathSilent s) := by
  unfold execTsbPathSilent
  try dsimp only
  repeat' (first
    | with_reducible assumption | exact True.intro | with_reducible apply outOk_next | with_reducible apply outOk_ite
    | with_reducible apply ok_ite | with_reducible apply ok_ite_fst | with_reducible apply State.burgeeMiss_ok
    | with_reducible apply State.goSilent_ok | (simp only [ok_mk, ok3_eq]) | (intro _ _ _) | (intro _ _) | split
    | (dsimp only))

theorem State.hearBack_ok {s : State} {tsb : Bool} {b : Burgee} (hok : Ok pq s) :
    Ok pq (State.hearBack s tsb b) := by
  unfold State.hearBack
  try dsimp only
  repeat' (first
    | with_reducible assumption | with_reducible apply ok_ite | with_reducible apply ok_ite_fst
    | with_reducible apply State.flag_ok | with_reducible apply State.goSilent_ok | (simp only [ok_mk, ok3_eq])
    | (intro _ _ _) | (intro _ _) | split | (dsimp only))

theorem State.burgeeId_ok {s : State} {b : Burgee} (hok : Ok pq s) :
    Ok pq (State.burgeeId s b) := by
  unfold State.burgeeId
  try dsimp only
  repeat' (first
    | with_reducible assumption | with_reducible apply ok_ite | with_reducible apply ok_ite_fst
    | with_reducible apply State.mismatch_ok | (simp only [ok_mk, ok3_eq]) | (intro _ _ _) | (intro _ _) | split
    | (dsimp only))

theorem State.takeBurgee_ok {s₀ : State} {tsb : Bool} {b : Burgee} (hok : Ok pq s₀) :
    Ok pq (State.takeBurgee s₀ tsb b) := by
  unfold State.takeBurgee
  try dsimp only
  repeat' (first
    | with_reducible assumption | with_reducible apply ok_ite | with_reducible apply ok_ite_fst
    | with_reducible apply State.wakeFor_ok | with_reducible apply State.releaseAsk_ok
    | with_reducible apply State.pairUp_ok | with_reducible apply State.peerFollow_ok
    | with_reducible apply State.heardOn_ok | with_reducible apply State.hearBack_ok
    | with_reducible apply State.burgeeId_ok | (simp only [ok_mk, ok3_eq]) | (intro _ _ _) | (intro _ _) | split
    | (dsimp only))

theorem State.onBurgee_ok {s : State} {tsb : Bool} {checkOk : Bool} {b : Burgee} (hok : Ok pq s) :
    Ok pq (State.onBurgee s tsb checkOk b) := by
  unfold State.onBurgee
  try dsimp only
  repeat' (first
    | with_reducible assumption | with_reducible apply ok_ite | with_reducible apply ok_ite_fst
    | with_reducible apply State.count_ok | with_reducible apply State.mismatch_ok
    | with_reducible apply State.burgeeMiss_ok | with_reducible apply State.takeBurgee_ok
    | (simp only [ok_mk, ok3_eq]) | (intro _ _ _) | (intro _ _) | split | (dsimp only))

theorem execBurgee_ok {s : State} {tsb : Bool} {checkOk : Bool} {b : Burgee} (hok : Ok pq s) :
    OutOk pq (execBurgee tsb checkOk b s) := by
  unfold execBurgee
  try dsimp only
  repeat' (first
    | with_reducible assumption | exact True.intro | with_reducible apply outOk_next | with_reducible apply outOk_ite
    | with_reducible apply State.onBurgee_ok | (simp only [ok_mk, ok3_eq]) | (intro _ _ _) | (intro _ _) | split
    | (dsimp only))

theorem execConfirmationWindowExpiry_ok {s : State} (hok : Ok pq s) :
    OutOk pq (execConfirmationWindowExpiry s) := by
  unfold execConfirmationWindowExpiry
  try dsimp only
  repeat' (first
    | with_reducible assumption | exact True.intro | with_reducible apply outOk_next | with_reducible apply outOk_ite
    | with_reducible apply ok_ite | with_reducible apply ok_ite_fst | with_reducible apply State.flag_ok
    | with_reducible apply State.peerLost_ok | (simp only [ok_mk, ok3_eq]) | (intro _ _ _) | (intro _ _) | split
    | (dsimp only))

theorem execShaumHoldExpiry_ok {s : State} (hok : Ok pq s) :
    OutOk pq (execShaumHoldExpiry s) := by
  unfold execShaumHoldExpiry
  try dsimp only
  repeat' (first
    | with_reducible assumption | exact True.intro | with_reducible apply outOk_next | with_reducible apply outOk_ite
    | with_reducible apply ok_ite | with_reducible apply ok_ite_fst | with_reducible apply State.peerLost_ok
    | (simp only [ok_mk, ok3_eq]) | (intro _ _ _) | (intro _ _) | split | (dsimp only))

theorem execFenceDeferExpiry_ok {s : State} (hok : Ok pq s) :
    OutOk pq (execFenceDeferExpiry s) := by
  unfold execFenceDeferExpiry
  try dsimp only
  repeat' (first
    | with_reducible assumption | exact True.intro | with_reducible apply outOk_next | with_reducible apply outOk_ite
    | with_reducible apply ok_ite | with_reducible apply ok_ite_fst | with_reducible apply State.fenceNow_ok
    | (simp only [ok_mk, ok3_eq]) | (intro _ _ _) | (intro _ _) | split | (dsimp only))

theorem execFenceSettleExpiry_ok {s : State} (hok : Ok pq s) :
    OutOk pq (execFenceSettleExpiry s) := by
  unfold execFenceSettleExpiry
  try dsimp only
  repeat' (first
    | with_reducible assumption | exact True.intro | with_reducible apply outOk_next | with_reducible apply outOk_ite
    | with_reducible apply ok_ite | with_reducible apply ok_ite_fst | with_reducible apply State.settle_ok
    | (simp only [ok_mk, ok3_eq]) | (intro _ _ _) | (intro _ _) | split | (dsimp only))

theorem execTakeover_ok {s : State} (hok : Ok pq s) :
    OutOk pq (execTakeover s) := by
  unfold execTakeover
  try dsimp only
  repeat' (first
    | with_reducible assumption | exact True.intro | with_reducible apply outOk_next | with_reducible apply outOk_ite
    | with_reducible apply ok_ite | with_reducible apply ok_ite_fst | with_reducible apply State.takeOver_ok
    | (simp only [ok_mk, ok3_eq]) | (intro _ _ _) | (intro _ _) | split | (dsimp only))

theorem State.forceTakeover_ok {s : State} (hok : Ok pq s) :
    Ok pq (State.forceTakeover s) := by
  unfold State.forceTakeover
  try dsimp only
  repeat' (first
    | with_reducible assumption | with_reducible apply ok_ite | with_reducible apply ok_ite_fst
    | with_reducible apply State.withdraw_ok | with_reducible apply State.fenceNow_ok | (simp only [ok_mk, ok3_eq])
    | (intro _ _ _) | (intro _ _) | split | (dsimp only))

theorem State.fenceCmd_ok {s : State} (hok : Ok pq s) :
    Ok pq (State.fenceCmd s) := by
  unfold State.fenceCmd
  try dsimp only
  repeat' (first
    | with_reducible assumption | with_reducible apply ok_ite | with_reducible apply ok_ite_fst
    | with_reducible apply State.flag_ok | with_reducible apply State.driveFence_ok | (simp only [ok_mk, ok3_eq])
    | (intro _ _ _) | (intro _ _) | split | (dsimp only))

theorem State.qpLost_ok {s : State} {idx : Nat} (hok : Ok pq s) :
    Ok pq (State.qpLost s idx) := by
  unfold State.qpLost
  try dsimp only
  repeat' (first
    | with_reducible assumption | with_reducible apply State.mbxReset_ok | with_reducible apply State.qpFree_ok
    | (simp only [ok_mk, ok3_eq]) | (intro _ _ _) | (intro _ _) | split | (dsimp only))

theorem State.hostsOff_ok {s : State} {fence : Bool} (hok : Ok pq s) :
    Ok pq (State.hostsOff s fence) := by
  unfold State.hostsOff
  try dsimp only
  repeat' (first
    | with_reducible assumption | with_reducible apply ok_ite | with_reducible apply ok_ite_fst
    | with_reducible apply ok_foldl | with_reducible apply ok_foldl_fst | with_reducible apply State.modMb_ok
    | with_reducible apply State.portsOff_ok | with_reducible apply State.netDown_ok
    | with_reducible apply State.qpLost_ok | (simp only [ok_mk, ok3_eq]) | (intro _ _ _) | (intro _ _) | split
    | (dsimp only))

theorem State.dropCtl_ok {s : State} (hok : Ok pq s) :
    Ok pq (State.dropCtl s) := by
  unfold State.dropCtl
  try dsimp only
  repeat' (first
    | with_reducible assumption | with_reducible apply ok_foldl | with_reducible apply ok_foldl_fst
    | with_reducible apply State.mbxStatus_ok | (simp only [ok_mk, ok3_eq]) | (intro _ _ _) | (intro _ _) | split
    | (dsimp only))

theorem State.yieldRegions_ok {s : State} (hok : Ok pq s) :
    Ok pq (State.yieldRegions s) := by
  unfold State.yieldRegions
  try dsimp only
  repeat' (first
    | with_reducible assumption | with_reducible apply ok_ite | with_reducible apply ok_ite_fst
    | with_reducible apply ok_foldl | with_reducible apply ok_foldl_fst | with_reducible apply State.modRegion_ok
    | with_reducible apply State.regionState_ok | (simp only [ok_mk, ok3_eq]) | (intro _ _ _) | (intro _ _) | split
    | (dsimp only))

theorem State.dropWork_ok {s : State} (hok : Ok pq s) :
    Ok pq (State.dropWork s) := by
  unfold State.dropWork
  try dsimp only
  repeat' (first
    | with_reducible assumption | with_reducible apply ok_foldl | with_reducible apply ok_foldl_fst
    | with_reducible apply State.dropReq_ok | (simp only [ok_mk, ok3_eq]) | (intro _ _ _) | (intro _ _) | split
    | (dsimp only))

theorem execTwinFenceInAssert_ok {s : State} {ns : Nat} (hok : Ok pq s) :
    OutOk pq (execTwinFenceInAssert ns s) := by
  unfold execTwinFenceInAssert
  try dsimp only
  repeat' (first
    | with_reducible assumption | exact True.intro | with_reducible apply outOk_next | with_reducible apply outOk_ite
    | with_reducible apply ok_ite | with_reducible apply ok_ite_fst | with_reducible apply ok_foldl
    | with_reducible apply ok_foldl_fst | with_reducible apply State.flag_ok | with_reducible apply State.settle_ok
    | with_reducible apply State.setPhase_ok | with_reducible apply State.withdraw_ok
    | with_reducible apply State.shaumOff_ok | with_reducible apply State.hostsOff_ok
    | with_reducible apply State.dropCtl_ok | with_reducible apply State.yieldRegions_ok
    | with_reducible apply State.dropWork_ok | (simp only [ok_mk, ok3_eq]) | (intro _ _ _) | (intro _ _) | split
    | (dsimp only))

theorem execTwinFenceInRelease_ok {s : State} {ns : Nat} (hok : Ok pq s) :
    OutOk pq (execTwinFenceInRelease ns s) := by
  unfold execTwinFenceInRelease
  try dsimp only
  repeat' (first
    | with_reducible assumption | exact True.intro | with_reducible apply outOk_next | with_reducible apply outOk_ite
    | with_reducible apply ok_ite | with_reducible apply ok_ite_fst | with_reducible apply State.shaumTrain_ok
    | (simp only [ok_mk, ok3_eq]) | (intro _ _ _) | (intro _ _) | split | (dsimp only))

theorem execFenceTestPulseSeen_ok {s : State} {ns : Nat} (hok : Ok pq s) :
    OutOk pq (execFenceTestPulseSeen ns s) := by
  unfold execFenceTestPulseSeen
  try dsimp only
  repeat' (first
    | with_reducible assumption | exact True.intro | with_reducible apply outOk_next | with_reducible apply outOk_ite
    | with_reducible apply ok_ite | with_reducible apply ok_ite_fst | (simp only [ok_mk, ok3_eq]) | (intro _ _ _)
    | (intro _ _) | split | (dsimp only))

theorem execFenceTestPulseSend_ok {s : State} (hok : Ok pq s) :
    OutOk pq (execFenceTestPulseSend s) := by
  unfold execFenceTestPulseSend
  try dsimp only
  repeat' (first
    | with_reducible assumption | exact True.intro | with_reducible apply outOk_next | with_reducible apply outOk_ite
    | with_reducible apply ok_ite | with_reducible apply ok_ite_fst | with_reducible apply State.emit_ok
    | (simp only [ok_mk, ok3_eq]) | (intro _ _ _) | (intro _ _) | split | (dsimp only))

theorem execFenceTestCheck_ok {s : State} (hok : Ok pq s) :
    OutOk pq (execFenceTestCheck s) := by
  unfold execFenceTestCheck
  try dsimp only
  repeat' (first
    | with_reducible assumption | exact True.intro | with_reducible apply outOk_next | with_reducible apply outOk_ite
    | with_reducible apply ok_ite | with_reducible apply ok_ite_fst | with_reducible apply State.count_ok
    | with_reducible apply State.flagRecord_ok | (simp only [ok_mk, ok3_eq]) | (intro _ _ _) | (intro _ _) | split
    | (dsimp only))

theorem execReleaseLinkTimeout_ok {s : State} (hok : Ok pq s) :
    OutOk pq (execReleaseLinkTimeout s) := by
  unfold execReleaseLinkTimeout
  try dsimp only
  repeat' (first
    | with_reducible assumption | exact True.intro | with_reducible apply outOk_next | with_reducible apply outOk_ite
    | with_reducible apply ok_ite | with_reducible apply ok_ite_fst | with_reducible apply State.record_ok
    | with_reducible apply State.driveFence_ok | (simp only [ok_mk, ok3_eq]) | (intro _ _ _) | (intro _ _) | split
    | (dsimp only))

theorem execReleaseDeferExpiry_ok {s : State} (hok : Ok pq s) :
    OutOk pq (execReleaseDeferExpiry s) := by
  unfold execReleaseDeferExpiry
  try dsimp only
  repeat' (first
    | with_reducible assumption | exact True.intro | with_reducible apply outOk_next | with_reducible apply outOk_ite
    | with_reducible apply ok_ite | with_reducible apply ok_ite_fst | with_reducible apply State.releaseNow_ok
    | (simp only [ok_mk, ok3_eq]) | (intro _ _ _) | (intro _ _) | split | (dsimp only))

theorem execRevertHoldoffExpiry_ok {s : State} (hok : Ok pq s) :
    OutOk pq (execRevertHoldoffExpiry s) := by
  unfold execRevertHoldoffExpiry
  try dsimp only
  repeat' (first
    | with_reducible assumption | exact True.intro | with_reducible apply outOk_next | with_reducible apply outOk_ite
    | with_reducible apply ok_ite | with_reducible apply ok_ite_fst | with_reducible apply State.settle_ok
    | with_reducible apply State.startHandoff_ok | (simp only [ok_mk, ok3_eq]) | (intro _ _ _) | (intro _ _) | split
    | (dsimp only))

theorem execWatchSample_ok {s : State} {tile : Nat} (hok : Ok pq s) :
    OutOk pq (execWatchSample tile s) := by
  unfold execWatchSample
  try dsimp only
  repeat' (first
    | with_reducible assumption | exact True.intro | with_reducible apply outOk_next | with_reducible apply outOk_ite
    | with_reducible apply ok_ite | with_reducible apply ok_ite_fst | with_reducible apply State.post_ok
    | with_reducible apply State.settle_ok | with_reducible apply State.verifyOwn_ok | (simp only [ok_mk, ok3_eq])
    | (intro _ _ _) | (intro _ _) | split | (dsimp only))

theorem execWatchScrubPeriod_ok {s : State} (hok : Ok pq s) :
    OutOk pq (execWatchScrubPeriod s) := by
  unfold execWatchScrubPeriod
  try dsimp only
  repeat' (first
    | with_reducible assumption | exact True.intro | with_reducible apply outOk_next | with_reducible apply outOk_ite
    | with_reducible apply ok_ite | with_reducible apply ok_ite_fst | with_reducible apply State.setFld_ok
    | with_reducible apply State.setReg64_ok | with_reducible apply State.scrubBegin_ok | (simp only [ok_mk, ok3_eq])
    | (intro _ _ _) | (intro _ _) | split | (dsimp only))

theorem State.engineFailed_ok {s : State} {e : Nat} (hok : Ok pq s) :
    Ok pq (State.engineFailed s e) := by
  unfold State.engineFailed
  try dsimp only
  repeat' (first
    | with_reducible assumption | with_reducible apply ok_ite | with_reducible apply ok_ite_fst
    | with_reducible apply State.flagRecord_ok | with_reducible apply State.err1_ok
    | with_reducible apply State.leaveService_ok | (simp only [ok_mk, ok3_eq]) | (intro _ _ _) | (intro _ _) | split
    | (dsimp only))

theorem execEngineSelfTest_ok {s : State} {engine : Fin 28} {pass : Bool} (hok : Ok pq s) :
    OutOk pq (execEngineSelfTest engine pass s) := by
  unfold execEngineSelfTest
  try dsimp only
  repeat' (first
    | with_reducible assumption | exact True.intro | with_reducible apply outOk_next | with_reducible apply outOk_ite
    | with_reducible apply ok_ite | with_reducible apply ok_ite_fst | with_reducible apply State.emit_ok
    | with_reducible apply State.settle_ok | with_reducible apply State.engineFailed_ok | (simp only [ok_mk, ok3_eq])
    | (intro _ _ _) | (intro _ _) | split | (dsimp only))

theorem State.noticeTo_ok {s : State} {bit : Nat} {opcode : Nat} {body : List Nat} (hok : Ok pq s) :
    Ok pq (State.noticeTo s bit opcode body) := by
  unfold State.noticeTo
  try dsimp only
  repeat' (first
    | with_reducible assumption | with_reducible apply ok_ite | with_reducible apply ok_ite_fst
    | with_reducible apply ok_foldl | with_reducible apply ok_foldl_fst | with_reducible apply State.noticeSend_ok
    | (simp only [ok_mk, ok3_eq]) | (intro _ _ _) | (intro _ _) | split | (dsimp only))

theorem execHealthRecord_ok {s : State} (hok : Ok pq s) :
    OutOk pq (execHealthRecord s) := by
  unfold execHealthRecord
  try dsimp only
  repeat' (first
    | with_reducible assumption | exact True.intro | with_reducible apply outOk_next | with_reducible apply outOk_ite
    | with_reducible apply ok_ite | with_reducible apply ok_ite_fst | with_reducible apply ok_foldl
    | with_reducible apply ok_foldl_fst | with_reducible apply State.setReg_ok | with_reducible apply State.draw_ok
    | (with_reducible refine State.draw_ok_of (by assumption) ?_) | with_reducible apply State.record_ok
    | with_reducible apply State.burgeeMiss_ok | with_reducible apply State.noticeTo_ok | (simp only [ok_mk, ok3_eq])
    | (intro _ _ _) | (intro _ _) | split | (dsimp only))

end Sys2Proof.Machine
end

