-- ==== Sys2Proof/Laws/KeepsPwsCore.lean ====
section
/-! SUPPORT. The operations of Machine/PwsCore.lean keep memory sound and leave the queue alone. -/

namespace Sys2Proof.Machine

set_option linter.unusedVariables false
set_option linter.unusedTactic false
set_option linter.unreachableTactic false

variable {pq : List Instr}

theorem State.modRail_ok {s : State} {n : Nat} {f : Rail → Rail} (hok : Ok pq s) :
    Ok pq (State.modRail s n f) := by
  unfold State.modRail
  try dsimp only
  repeat' (first
    | with_reducible assumption | (simp only [ok_mk, ok3_eq]) | (intro _ _ _) | (intro _ _) | split | (dsimp only))

theorem State.railDrive_ok {s : State} {n : Nat} {on : Bool} (hok : Ok pq s) :
    Ok pq (State.railDrive s n on) := by
  unfold State.railDrive
  try dsimp only
  repeat' (first
    | with_reducible assumption | with_reducible apply ok_ite | with_reducible apply ok_ite_fst
    | with_reducible apply State.emit_ok | (simp only [ok_mk, ok3_eq]) | (intro _ _ _) | (intro _ _) | split
    | (dsimp only))

theorem State.railLog_ok {s : State} {kind : Nat} {n : Nat} {cause : Nat} (hok : Ok pq s) :
    Ok pq (State.railLog s kind n cause) := by
  unfold State.railLog
  try dsimp only
  repeat' (first
    | with_reducible assumption | with_reducible apply ok_ite | with_reducible apply ok_ite_fst
    | with_reducible apply State.railAppend_ok | (simp only [ok_mk, ok3_eq]) | (intro _ _ _) | (intro _ _) | split
    | (dsimp only))

theorem State.groupNext_ok {s : State} {g : Nat} (hok : Ok pq s) :
    Ok pq (State.groupNext s g) := by
  unfold State.groupNext
  try dsimp only
  repeat' (first
    | with_reducible assumption | with_reducible apply ok_ite | with_reducible apply ok_ite_fst
    | (simp only [ok_mk, ok3_eq]) | (intro _ _ _) | (intro _ _) | split | (dsimp only))

theorem State.noteGroup_ok {s : State} {g : Nat} (hok : Ok pq s) :
    Ok pq (State.noteGroup s g) := by
  unfold State.noteGroup
  try dsimp only
  repeat' (first
    | with_reducible assumption | with_reducible apply ok_ite | with_reducible apply ok_ite_fst
    | with_reducible apply State.groupNext_ok | (simp only [ok_mk, ok3_eq]) | (intro _ _ _) | (intro _ _) | split
    | (dsimp only))

theorem State.enableGroup_ok {s : State} {g : Nat} (hok : Ok pq s) :
    Ok pq (State.enableGroup s g) := by
  unfold State.enableGroup
  try dsimp only
  repeat' (first
    | with_reducible assumption | with_reducible apply ok_foldl | with_reducible apply ok_foldl_fst
    | with_reducible apply State.modRail_ok | with_reducible apply State.railDrive_ok
    | with_reducible apply State.noteGroup_ok | (simp only [ok_mk, ok3_eq]) | (intro _ _ _) | (intro _ _) | split
    | (dsimp only))

theorem State.powerUp_ok {s : State} (hok : Ok pq s) :
    Ok pq (State.powerUp s) := by
  unfold State.powerUp
  try dsimp only
  repeat' (first
    | with_reducible assumption | with_reducible apply State.enableGroup_ok | (simp only [ok_mk, ok3_eq])
    | (intro _ _ _) | (intro _ _) | split | (dsimp only))

theorem State.pwsUp_ok {s : State} (hok : Ok pq s) :
    Ok pq (State.pwsUp s) := by
  unfold State.pwsUp
  try dsimp only
  repeat' (first
    | with_reducible assumption | with_reducible apply ok_ite | with_reducible apply ok_ite_fst
    | (simp only [ok_mk, ok3_eq]) | (intro _ _ _) | (intro _ _) | split | (dsimp only))

theorem State.downEnd_ok {s : State} (hok : Ok pq s) :
    Ok pq (State.downEnd s) := by
  unfold State.downEnd
  try dsimp only
  repeat' (first
    | with_reducible assumption | with_reducible apply ok_ite | with_reducible apply ok_ite_fst
    | with_reducible apply State.flag_ok | (simp only [ok_mk, ok3_eq]) | (intro _ _ _) | (intro _ _) | split
    | (dsimp only))

theorem State.disableGroup_ok {s : State} {g : Nat} (hok : Ok pq s) :
    Ok pq (State.disableGroup s g) := by
  unfold State.disableGroup
  try dsimp only
  repeat' (first
    | with_reducible assumption | with_reducible apply ok_ite | with_reducible apply ok_ite_fst
    | with_reducible apply ok_foldl | with_reducible apply ok_foldl_fst | with_reducible apply State.modRail_ok
    | with_reducible apply State.railDrive_ok | (simp only [ok_mk, ok3_eq]) | (intro _ _ _) | (intro _ _) | split
    | (dsimp only))

theorem State.downGo_ok {n : Nat} {s : State} (hok : Ok pq s) : Ok pq (State.downGo n s) := by
  induction n generalizing s with
  | zero => exact hok
  | succ n ih =>
    unfold State.downGo
    repeat' (first
      | with_reducible assumption | with_reducible apply ih | with_reducible apply ok_ite | with_reducible apply State.downEnd_ok
      | with_reducible apply State.disableGroup_ok | (simp only [ok_mk, ok3_eq]) | split)

theorem State.downCheck_ok {s : State} (hok : Ok pq s) :
    Ok pq (State.downCheck s) := by
  unfold State.downCheck
  try dsimp only
  repeat' (first
    | with_reducible assumption | with_reducible apply ok_ite | with_reducible apply ok_ite_fst
    | with_reducible apply State.downGo_ok | (simp only [ok_mk, ok3_eq]) | (intro _ _ _) | (intro _ _) | split
    | (dsimp only))

theorem State.downStart_ok {s : State} {c : DownCause} (hok : Ok pq s) :
    Ok pq (State.downStart s c) := by
  unfold State.downStart
  try dsimp only
  repeat' (first
    | with_reducible assumption | with_reducible apply ok_ite | with_reducible apply ok_ite_fst
    | with_reducible apply State.setReg_ok | with_reducible apply State.powerUp_ok
    | with_reducible apply State.disableGroup_ok | with_reducible apply State.downGo_ok | (simp only [ok_mk, ok3_eq])
    | (intro _ _ _) | (intro _ _) | split | (dsimp only))

theorem State.groupsOff_ok {s : State} {g : Nat} (hok : Ok pq s) :
    Ok pq (State.groupsOff s g) := by
  unfold State.groupsOff
  try dsimp only
  repeat' (first
    | with_reducible assumption | with_reducible apply ok_ite | with_reducible apply ok_ite_fst
    | with_reducible apply State.disableGroup_ok | with_reducible apply State.downGo_ok | (simp only [ok_mk, ok3_eq])
    | (intro _ _ _) | (intro _ _) | split | (dsimp only))

end Sys2Proof.Machine
end

