-- ==== Sys2Proof/Laws/KeepsPsb.lean ====
section
/-! SUPPORT. The operations of Machine/Psb.lean keep memory sound and leave the queue alone. -/

namespace Sys2Proof.Machine

set_option linter.unusedVariables false
set_option linter.unusedTactic false
set_option linter.unreachableTactic false

variable {pq : List Instr}

theorem State.psbPut_ok {s : State} {d : List Byte} (hok : Ok pq s) :
    Ok pq (State.psbPut s d) := by
  unfold State.psbPut
  try dsimp only
  repeat' (first
    | with_reducible assumption | with_reducible apply ok_foldl | with_reducible apply ok_foldl_fst
    | with_reducible apply State.setFld_ok | (simp only [ok_mk, ok3_eq]) | (intro _ _ _) | (intro _ _) | split
    | (dsimp only))

theorem State.psbDrive_ok {s : State} (hok : Ok pq s) :
    Ok pq (State.psbDrive s) := by
  unfold State.psbDrive
  try dsimp only
  repeat' (first
    | with_reducible assumption | with_reducible apply ok_ite | with_reducible apply ok_ite_fst
    | with_reducible apply State.emit_ok | (simp only [ok_mk, ok3_eq]) | (intro _ _ _) | (intro _ _) | split
    | (dsimp only))

theorem State.psbNext_ok {s : State} (hok : Ok pq s) :
    Ok pq (State.psbNext s) := by
  unfold State.psbNext
  try dsimp only
  repeat' (first
    | with_reducible assumption | with_reducible apply ok_ite | with_reducible apply ok_ite_fst
    | with_reducible apply State.psbDrive_ok | (simp only [ok_mk, ok3_eq]) | (intro _ _ _) | (intro _ _) | split
    | (dsimp only))

theorem State.psbElg_ok {s : State} {code : Nat} (hok : Ok pq s) :
    Ok pq (State.psbElg s code) := by
  unfold State.psbElg
  try dsimp only
  repeat' (first
    | with_reducible assumption | with_reducible apply ok_ite | with_reducible apply ok_ite_fst
    | with_reducible apply State.psbNext_ok | (simp only [ok_mk, ok3_eq]) | (intro _ _ _) | (intro _ _) | split
    | (dsimp only))

theorem State.psbFirmware_ok {s : State} {r : PsbResult} (hok : Ok pq s) :
    Ok pq (State.psbFirmware s r) := by
  unfold State.psbFirmware
  try dsimp only
  repeat' (first
    | with_reducible assumption | with_reducible apply State.flag_ok | with_reducible apply State.psbPut_ok
    | (simp only [ok_mk, ok3_eq]) | (intro _ _ _) | (intro _ _) | split | (dsimp only))

theorem State.psbElgEnd_ok {s : State} {code : Nat} {r : PsbResult} (hok : Ok pq s) :
    Ok pq (State.psbElgEnd s code r) := by
  unfold State.psbElgEnd
  try dsimp only
  repeat' (first
    | with_reducible assumption | with_reducible apply ok_ite | with_reducible apply ok_ite_fst
    | with_reducible apply State.setFld_ok | (simp only [ok_mk, ok3_eq]) | (intro _ _ _) | (intro _ _) | split
    | (dsimp only))

theorem State.psbStuck_ok {s : State} {port : Nat} (hok : Ok pq s) :
    Ok pq (State.psbStuck s port) := by
  unfold State.psbStuck
  try dsimp only
  repeat' (first
    | with_reducible assumption | with_reducible apply ok_ite | with_reducible apply ok_ite_fst
    | with_reducible apply ok_foldl | with_reducible apply ok_foldl_fst | with_reducible apply State.flagRecord_ok
    | with_reducible apply State.psbFirmware_ok | with_reducible apply State.psbElgEnd_ok
    | (simp only [ok_mk, ok3_eq]) | (intro _ _ _) | (intro _ _) | split | (dsimp only))

theorem State.psbFlags_ok {s : State} {port : Nat} {r : PsbResult} (hok : Ok pq s) :
    Ok pq (State.psbFlags s port r) := by
  unfold State.psbFlags
  try dsimp only
  repeat' (first
    | with_reducible assumption | with_reducible apply State.flag_ok | with_reducible apply State.psbStuck_ok
    | (simp only [ok_mk, ok3_eq]) | (intro _ _ _) | (intro _ _) | split | (dsimp only))

theorem State.psbCountRetry_ok {s : State} {r : PsbResult} {n : Nat} (hok : Ok pq s) :
    Ok pq (State.psbCountRetry s r n) := by
  unfold State.psbCountRetry
  try dsimp only
  repeat' (first
    | with_reducible assumption | with_reducible apply State.countBy_ok | with_reducible apply State.flag_ok
    | (simp only [ok_mk, ok3_eq]) | (intro _ _ _) | (intro _ _) | split | (dsimp only))

theorem State.psbFinal_ok {s : State} {r : PsbResult} (hok : Ok pq s) :
    Ok pq (State.psbFinal s r) := by
  unfold State.psbFinal
  try dsimp only
  repeat' (first
    | with_reducible assumption | with_reducible apply State.psbNext_ok | with_reducible apply State.psbFirmware_ok
    | with_reducible apply State.psbElgEnd_ok | with_reducible apply State.psbFlags_ok | (simp only [ok_mk, ok3_eq])
    | (intro _ _ _) | (intro _ _) | split | (dsimp only))

theorem State.psbEnd_ok {s : State} {r : PsbResult} (hok : Ok pq s) :
    Ok pq (State.psbEnd s r) := by
  unfold State.psbEnd
  try dsimp only
  repeat' (first
    | with_reducible assumption | with_reducible apply ok_ite | with_reducible apply ok_ite_fst
    | with_reducible apply State.psbDrive_ok | with_reducible apply State.psbCountRetry_ok
    | with_reducible apply State.psbFinal_ok | (simp only [ok_mk, ok3_eq]) | (intro _ _ _) | (intro _ _) | split
    | (dsimp only))

theorem State.psbCleared_ok {s : State} {yes : Bool} (hok : Ok pq s) :
    Ok pq (State.psbCleared s yes) := by
  unfold State.psbCleared
  try dsimp only
  repeat' (first
    | with_reducible assumption | with_reducible apply ok_ite | with_reducible apply ok_ite_fst
    | with_reducible apply State.count_ok | (simp only [ok_mk, ok3_eq]) | (intro _ _ _) | (intro _ _) | split
    | (dsimp only))

theorem execPsbTransactionDone_ok {s : State} {r : PsbResult} {cleared : Bool} (hok : Ok pq s) :
    OutOk pq (execPsbTransactionDone r cleared s) := by
  unfold execPsbTransactionDone
  try dsimp only
  repeat' (first
    | with_reducible assumption | exact True.intro | with_reducible apply outOk_next | with_reducible apply outOk_ite
    | with_reducible apply ok_ite | with_reducible apply ok_ite_fst | with_reducible apply State.psbEnd_ok
    | with_reducible apply State.psbCleared_ok | (simp only [ok_mk, ok3_eq]) | (intro _ _ _) | (intro _ _) | split
    | (dsimp only))

theorem execPsbClkLowTimeout_ok {s : State} {sda : Sda} (hok : Ok pq s) :
    OutOk pq (execPsbClkLowTimeout sda s) := by
  unfold execPsbClkLowTimeout
  try dsimp only
  repeat' (first
    | with_reducible assumption | exact True.intro | with_reducible apply outOk_next | with_reducible apply outOk_ite
    | with_reducible apply ok_ite | with_reducible apply ok_ite_fst | with_reducible apply State.flag_ok
    | with_reducible apply State.psbNext_ok | with_reducible apply State.psbStuck_ok
    | with_reducible apply State.psbFinal_ok | with_reducible apply State.psbEnd_ok
    | with_reducible apply State.psbCleared_ok | (simp only [ok_mk, ok3_eq]) | (intro _ _ _) | (intro _ _) | split
    | (dsimp only))

theorem execPsbSdaStuckRetry_ok {s : State} {port : Fin 4} {cleared : Bool} (hok : Ok pq s) :
    OutOk pq (execPsbSdaStuckRetry port cleared s) := by
  unfold execPsbSdaStuckRetry
  try dsimp only
  repeat' (first
    | with_reducible assumption | exact True.intro | with_reducible apply outOk_next | with_reducible apply outOk_ite
    | with_reducible apply ok_ite | with_reducible apply ok_ite_fst | with_reducible apply State.count_ok
    | with_reducible apply State.psbNext_ok | with_reducible apply State.psbStuck_ok | (simp only [ok_mk, ok3_eq])
    | (intro _ _ _) | (intro _ _) | split | (dsimp only))

theorem State.psbReset_ok {s : State} {cleared : Nat} {stuck : Nat} (hok : Ok pq s) :
    Ok pq (State.psbReset s cleared stuck) := by
  unfold State.psbReset
  try dsimp only
  repeat' (first
    | with_reducible assumption | with_reducible apply ok_foldl | with_reducible apply ok_foldl_fst
    | with_reducible apply State.psbNext_ok | with_reducible apply State.psbStuck_ok
    | with_reducible apply State.psbCleared_ok | (simp only [ok_mk, ok3_eq]) | (intro _ _ _) | (intro _ _) | split
    | (dsimp only))

theorem State.psbGo_ok {s : State} {val : Word} (hok : Ok pq s) :
    Ok pq (State.psbGo s val) := by
  unfold State.psbGo
  try dsimp only
  repeat' (first
    | with_reducible assumption | with_reducible apply ok_ite | with_reducible apply ok_ite_fst
    | with_reducible apply State.setReg_ok | with_reducible apply State.psbNext_ok | (simp only [ok_mk, ok3_eq])
    | (intro _ _ _) | (intro _ _) | split | (dsimp only))

end Sys2Proof.Machine
end

