-- ==== Sys2Proof/Laws/KeepsLedger.lean ====
section
/-! SUPPORT. The operations of Machine/Ledger.lean keep memory sound and leave the queue alone. -/

namespace Sys2Proof.Machine

set_option linter.unusedVariables false
set_option linter.unusedTactic false
set_option linter.unreachableTactic false

variable {pq : List Instr}

theorem execMeterSample_ok {s : State} {mv : Nat} {ma : Int} (hok : Ok pq s) :
    OutOk pq (execMeterSample mv ma s) := by
  unfold execMeterSample
  try dsimp only
  repeat' (first
    | with_reducible assumption | exact True.intro | with_reducible apply outOk_next | with_reducible apply outOk_ite
    | with_reducible apply ok_ite | with_reducible apply ok_ite_fst | (simp only [ok_mk, ok3_eq]) | (intro _ _ _)
    | (intro _ _) | split | (dsimp only))

theorem State.meterMs_ok {s : State} (hok : Ok pq s) :
    Ok pq (State.meterMs s) := by
  unfold State.meterMs
  try dsimp only
  repeat' (first
    | with_reducible assumption | with_reducible apply ok_ite | with_reducible apply ok_ite_fst
    | with_reducible apply State.setFld_ok | (simp only [ok_mk, ok3_eq]) | (intro _ _ _) | (intro _ _) | split
    | (dsimp only))

theorem State.probeTake_ok {s : State} {set : Nat} {sum : Nat} (hok : Ok pq s) :
    Ok pq (State.probeTake s set sum) := by
  unfold State.probeTake
  try dsimp only
  repeat' (first
    | with_reducible assumption | with_reducible apply ok_ite | with_reducible apply ok_ite_fst
    | with_reducible apply State.setSb_ok | (simp only [ok_mk, ok3_eq]) | (intro _ _ _) | (intro _ _) | split
    | (dsimp only))

theorem State.probeErase_ok {s : State} {set : Nat} (hok : Ok pq s) :
    Ok pq (State.probeErase s set) := by
  unfold State.probeErase
  try dsimp only
  repeat' (first
    | with_reducible assumption | with_reducible apply State.eraseSb_ok | (simp only [ok_mk, ok3_eq]) | (intro _ _ _)
    | (intro _ _) | split | (dsimp only))

theorem State.probeEnd_ok {s : State} (hok : Ok pq s) :
    Ok pq (State.probeEnd s) := by
  unfold State.probeEnd
  try dsimp only
  repeat' (first
    | with_reducible assumption | with_reducible apply State.probeErase_ok | (simp only [ok_mk, ok3_eq])
    | (intro _ _ _) | (intro _ _) | split | (dsimp only))

theorem State.capBegin_ok {s : State} (hok : Ok pq s) :
    Ok pq (State.capBegin s) := by
  unfold State.capBegin
  try dsimp only
  repeat' (first
    | with_reducible assumption | with_reducible apply ok_ite | with_reducible apply ok_ite_fst
    | with_reducible apply State.psbElg_ok | with_reducible apply State.probeTake_ok
    | with_reducible apply State.idle_ok | (simp only [ok_mk, ok3_eq]) | (intro _ _ _) | (intro _ _) | split
    | (dsimp only))

theorem State.capStart_ok {s : State} (hok : Ok pq s) :
    Ok pq (State.capStart s) := by
  unfold State.capStart
  try dsimp only
  repeat' (first
    | with_reducible assumption | with_reducible apply ok_ite | with_reducible apply ok_ite_fst
    | with_reducible apply State.capBegin_ok | (simp only [ok_mk, ok3_eq]) | (intro _ _ _) | (intro _ _) | split
    | (dsimp only))

theorem State.capMs_ok {s : State} (hok : Ok pq s) :
    Ok pq (State.capMs s) := by
  unfold State.capMs
  try dsimp only
  repeat' (first
    | with_reducible assumption | with_reducible apply ok_ite | with_reducible apply ok_ite_fst
    | with_reducible apply State.capBegin_ok | with_reducible apply State.idle_ok | (simp only [ok_mk, ok3_eq])
    | (intro _ _ _) | (intro _ _) | split | (dsimp only))

theorem State.saveMs_ok {s : State} (hok : Ok pq s) :
    Ok pq (State.saveMs s) := by
  unfold State.saveMs
  try dsimp only
  repeat' (first
    | with_reducible assumption | with_reducible apply State.setReg_ok | (simp only [ok_mk, ok3_eq]) | (intro _ _ _)
    | (intro _ _) | split | (dsimp only))

theorem State.ledgerWake_ok {s : State} {was : LedgerState} (hok : Ok pq s) :
    Ok pq (State.ledgerWake s was) := by
  unfold State.ledgerWake
  try dsimp only
  repeat' (first
    | with_reducible assumption | with_reducible apply State.wakeFor_ok | (simp only [ok_mk, ok3_eq]) | (intro _ _ _)
    | (intro _ _) | split | (dsimp only))

theorem State.writeDemand_ok {s : State} (hok : Ok pq s) :
    Ok pq (State.writeDemand s) := by
  unfold State.writeDemand
  try dsimp only
  repeat' (first
    | with_reducible assumption | with_reducible apply State.setFld_ok | with_reducible apply State.noteFrames_ok
    | (simp only [ok_mk, ok3_eq]) | (intro _ _ _) | (intro _ _) | split | (dsimp only))

theorem State.throttleMs_ok {s : State} (hok : Ok pq s) :
    Ok pq (State.throttleMs s) := by
  unfold State.throttleMs
  try dsimp only
  repeat' (first
    | with_reducible assumption | with_reducible apply ok_ite | with_reducible apply ok_ite_fst
    | with_reducible apply State.count_ok | (simp only [ok_mk, ok3_eq]) | (intro _ _ _) | (intro _ _) | split
    | (dsimp only))

theorem State.ledgerMs_ok {s : State} (hok : Ok pq s) :
    Ok pq (State.ledgerMs s) := by
  unfold State.ledgerMs
  try dsimp only
  repeat' (first
    | with_reducible assumption | with_reducible apply State.ledgerEval_ok
    | with_reducible apply State.recomputeEnergy_ok | with_reducible apply State.serveQueue_ok
    | with_reducible apply State.settle_ok | with_reducible apply State.saveShort_ok
    | with_reducible apply State.meterMs_ok | with_reducible apply State.capMs_ok
    | with_reducible apply State.saveMs_ok | with_reducible apply State.ledgerWake_ok
    | with_reducible apply State.writeDemand_ok | with_reducible apply State.throttleMs_ok
    | (simp only [ok_mk, ok3_eq]) | (intro _ _ _) | (intro _ _) | split | (dsimp only))

theorem execLedgerRecompute_ok {s : State} (hok : Ok pq s) :
    OutOk pq (execLedgerRecompute s) := by
  unfold execLedgerRecompute
  try dsimp only
  repeat' (first
    | with_reducible assumption | exact True.intro | with_reducible apply outOk_next | with_reducible apply outOk_ite
    | with_reducible apply State.ledgerMs_ok | (simp only [ok_mk, ok3_eq]) | (intro _ _ _) | (intro _ _) | split
    | (dsimp only))

theorem execCatchupExpiry_ok {s : State} (hok : Ok pq s) :
    OutOk pq (execCatchupExpiry s) := by
  unfold execCatchupExpiry
  try dsimp only
  repeat' (first
    | with_reducible assumption | exact True.intro | with_reducible apply outOk_next | with_reducible apply outOk_ite
    | with_reducible apply State.ledgerEnter_ok | (simp only [ok_mk, ok3_eq]) | (intro _ _ _) | (intro _ _) | split
    | (dsimp only))

theorem execModuleTempRead_ok {s : State} (hok : Ok pq s) :
    OutOk pq (execModuleTempRead s) := by
  unfold execModuleTempRead
  try dsimp only
  repeat' (first
    | with_reducible assumption | exact True.intro | with_reducible apply outOk_next | with_reducible apply outOk_ite
    | with_reducible apply ok_ite | with_reducible apply ok_ite_fst | with_reducible apply State.psbElg_ok
    | (simp only [ok_mk, ok3_eq]) | (intro _ _ _) | (intro _ _) | split | (dsimp only))

theorem execCapTestPeriod_ok {s : State} (hok : Ok pq s) :
    OutOk pq (execCapTestPeriod s) := by
  unfold execCapTestPeriod
  try dsimp only
  repeat' (first
    | with_reducible assumption | exact True.intro | with_reducible apply outOk_next | with_reducible apply outOk_ite
    | with_reducible apply ok_ite | with_reducible apply ok_ite_fst | with_reducible apply State.capStart_ok
    | (simp only [ok_mk, ok3_eq]) | (intro _ _ _) | (intro _ _) | split | (dsimp only))

theorem execCapTestRetry_ok {s : State} (hok : Ok pq s) :
    OutOk pq (execCapTestRetry s) := by
  unfold execCapTestRetry
  try dsimp only
  repeat' (first
    | with_reducible assumption | exact True.intro | with_reducible apply outOk_next | with_reducible apply outOk_ite
    | with_reducible apply ok_ite | with_reducible apply ok_ite_fst | with_reducible apply State.capStart_ok
    | (simp only [ok_mk, ok3_eq]) | (intro _ _ _) | (intro _ _) | split | (dsimp only))

theorem State.capStop_ok {s : State} (hok : Ok pq s) :
    Ok pq (State.capStop s) := by
  unfold State.capStop
  try dsimp only
  repeat' (first
    | with_reducible assumption | with_reducible apply State.psbElg_ok | (simp only [ok_mk, ok3_eq]) | (intro _ _ _)
    | (intro _ _) | split | (dsimp only))

theorem State.capFail_ok {s : State} (hok : Ok pq s) :
    Ok pq (State.capFail s) := by
  unfold State.capFail
  try dsimp only
  repeat' (first
    | with_reducible assumption | with_reducible apply State.setFld_ok | with_reducible apply State.flagRecord_ok
    | with_reducible apply State.jwEnd_ok | with_reducible apply State.capStop_ok | (simp only [ok_mk, ok3_eq])
    | (intro _ _ _) | (intro _ _) | split | (dsimp only))

theorem State.capResult_ok {s : State} {c : Nat} (hok : Ok pq s) : Ok pq (State.capResult s c) := by
  unfold State.capResult
  have h : ∀ x y w, Ok pq ((s.capStop.setFld Reg.elgCap 19 0 x).setReg y w) := fun _ _ _ =>
    State.setReg_ok (State.setFld_ok (State.capStop_ok hok))
  refine State.jwEnd_ok (State.count_ok (State.flag_ok ?_))
  rw [ok_mk, ok3_eq]
  exact h _ _ _

theorem execCapTestDropReached_ok {s : State} {chargeUc : Nat} {dropMv : Nat} {currentOk : Bool} {rose : Bool} (hok : Ok pq s) :
    OutOk pq (execCapTestDropReached chargeUc dropMv currentOk rose s) := by
  unfold execCapTestDropReached
  try dsimp only
  repeat' (first
    | with_reducible assumption | exact True.intro | with_reducible apply outOk_next | with_reducible apply outOk_ite
    | with_reducible apply ok_ite | with_reducible apply ok_ite_fst | with_reducible apply State.capFail_ok
    | with_reducible apply State.capResult_ok | (simp only [ok_mk, ok3_eq]) | (intro _ _ _) | (intro _ _) | split
    | (dsimp only))

theorem execCapTestTimeout_ok {s : State} (hok : Ok pq s) :
    OutOk pq (execCapTestTimeout s) := by
  unfold execCapTestTimeout
  try dsimp only
  repeat' (first
    | with_reducible assumption | exact True.intro | with_reducible apply outOk_next | with_reducible apply outOk_ite
    | with_reducible apply State.capFail_ok | (simp only [ok_mk, ok3_eq]) | (intro _ _ _) | (intro _ _) | split
    | (dsimp only))

theorem State.capAbort_ok {s : State} (hok : Ok pq s) :
    Ok pq (State.capAbort s) := by
  unfold State.capAbort
  try dsimp only
  repeat' (first
    | with_reducible assumption | with_reducible apply State.jwEnd_ok | with_reducible apply State.capStop_ok
    | with_reducible apply State.idle_ok | (simp only [ok_mk, ok3_eq]) | (intro _ _ _) | (intro _ _) | split
    | (dsimp only))

theorem State.costDerived_ok {s : State} {c : Nat} (hok : Ok pq s) :
    Ok pq (State.costDerived s c) := by
  unfold State.costDerived
  try dsimp only
  repeat' (first
    | with_reducible assumption | with_reducible apply ok_ite | with_reducible apply ok_ite_fst
    | with_reducible apply State.setFld_ok | (simp only [ok_mk, ok3_eq]) | (intro _ _ _) | (intro _ _) | split
    | (dsimp only))

theorem execSaveRateProbe_ok {s : State} {setRate : Nat} {streamRate : Nat} {pSaveMw : Nat} (hok : Ok pq s) :
    OutOk pq (execSaveRateProbe setRate streamRate pSaveMw s) := by
  unfold execSaveRateProbe
  try dsimp only
  repeat' (first
    | with_reducible assumption | exact True.intro | with_reducible apply outOk_next | with_reducible apply outOk_ite
    | with_reducible apply ok_ite | with_reducible apply ok_ite_fst | with_reducible apply State.ledgerEval_ok
    | with_reducible apply State.settle_ok | with_reducible apply State.saveShort_ok
    | with_reducible apply State.probeTake_ok | with_reducible apply State.probeErase_ok
    | with_reducible apply State.costDerived_ok | (simp only [ok_mk, ok3_eq]) | (intro _ _ _) | (intro _ _) | split
    | (dsimp only))

theorem State.writeReserve_ok {s : State} {val : Word} (hok : Ok pq s) :
    Ok pq (State.writeReserve s val) := by
  unfold State.writeReserve
  try dsimp only
  repeat' (first
    | with_reducible assumption | with_reducible apply ok_ite | with_reducible apply ok_ite_fst
    | with_reducible apply State.setFld_ok | with_reducible apply State.ledgerEval_ok
    | with_reducible apply State.recomputeEnergy_ok | (simp only [ok_mk, ok3_eq]) | (intro _ _ _) | (intro _ _)
    | split | (dsimp only))

theorem State.writeTestCfg_ok {s : State} {val : Word} (hok : Ok pq s) :
    Ok pq (State.writeTestCfg s val) := by
  unfold State.writeTestCfg
  try dsimp only
  repeat' (first
    | with_reducible assumption | with_reducible apply ok_ite | with_reducible apply ok_ite_fst
    | with_reducible apply State.setReg_ok | (simp only [ok_mk, ok3_eq]) | (intro _ _ _) | (intro _ _) | split
    | (dsimp only))

theorem State.writeSaveCfg_ok {s : State} {val : Word} (hok : Ok pq s) :
    Ok pq (State.writeSaveCfg s val) := by
  unfold State.writeSaveCfg
  try dsimp only
  repeat' (first
    | with_reducible assumption | with_reducible apply ok_ite | with_reducible apply ok_ite_fst
    | with_reducible apply State.setReg_ok | (simp only [ok_mk, ok3_eq]) | (intro _ _ _) | (intro _ _) | split
    | (dsimp only))

end Sys2Proof.Machine
end

