-- ==== Sys2Proof/Laws/KeepsSave.lean ====
section
/-! SUPPORT. The operations of Machine/Save.lean keep memory sound and leave the queue alone. -/

namespace Sys2Proof.Machine

set_option linter.unusedVariables false
set_option linter.unusedTactic false
set_option linter.unreachableTactic false

variable {pq : List Instr}

theorem State.liveStop_ok {s : State} (hok : Ok pq s) :
    Ok pq (State.liveStop s) := by
  unfold State.liveStop
  try dsimp only
  repeat' (first
    | with_reducible assumption | with_reducible apply State.modSlot_ok | (simp only [ok_mk, ok3_eq]) | (intro _ _ _)
    | (intro _ _) | split | (dsimp only))

theorem State.saveTrigger_ok {s : State} {tr : Trigger} {sys : Bool} (hok : Ok pq s) :
    Ok pq (State.saveTrigger s tr sys) := by
  unfold State.saveTrigger
  try dsimp only
  repeat' (first
    | with_reducible assumption | with_reducible apply ok_ite | with_reducible apply ok_ite_fst
    | with_reducible apply State.setReg_ok | with_reducible apply State.flagRecord_ok
    | with_reducible apply State.wakeFor_ok | with_reducible apply State.settle_ok
    | with_reducible apply State.setPhase_ok | with_reducible apply State.startHandoff_ok
    | with_reducible apply State.downStart_ok | with_reducible apply State.probeEnd_ok
    | with_reducible apply State.capAbort_ok | with_reducible apply State.liveStop_ok | (simp only [ok_mk, ok3_eq])
    | (intro _ _ _) | (intro _ _) | split | (dsimp only))

theorem execHoldFail_ok {s : State} {samples : Nat} (hok : Ok pq s) :
    OutOk pq (execHoldFail samples s) := by
  unfold execHoldFail
  try dsimp only
  repeat' (first
    | with_reducible assumption | exact True.intro | with_reducible apply outOk_next | with_reducible apply outOk_ite
    | with_reducible apply ok_ite | with_reducible apply ok_ite_fst | with_reducible apply State.flag_ok
    | with_reducible apply State.saveTrigger_ok | (simp only [ok_mk, ok3_eq]) | (intro _ _ _) | (intro _ _) | split
    | (dsimp only))

theorem State.modSage_ok {s : State} {f : Sage → Sage} (hok : Ok pq s) :
    Ok pq (State.modSage s f) := by
  unfold State.modSage
  try dsimp only
  repeat' (first
    | with_reducible assumption | (simp only [ok_mk, ok3_eq]) | (intro _ _ _) | (intro _ _) | split | (dsimp only))

theorem State.saveFlush_ok {s : State} (hok : Ok pq s) :
    Ok pq (State.saveFlush s) := by
  unfold State.saveFlush
  try dsimp only
  repeat' (first
    | with_reducible assumption | with_reducible apply ok_foldl | with_reducible apply ok_foldl_fst
    | with_reducible apply State.dropMove_ok | with_reducible apply State.dropChannel_ok
    | with_reducible apply State.shaumOff_ok | with_reducible apply State.hostsOff_ok | (simp only [ok_mk, ok3_eq])
    | (intro _ _ _) | (intro _ _) | split | (dsimp only))

theorem execSaveDrainEnd_ok {s : State} (hok : Ok pq s) :
    OutOk pq (execSaveDrainEnd s) := by
  unfold execSaveDrainEnd
  try dsimp only
  repeat' (first
    | with_reducible assumption | exact True.intro | with_reducible apply outOk_next | with_reducible apply outOk_ite
    | with_reducible apply ok_ite | with_reducible apply ok_ite_fst | with_reducible apply ok_foldl
    | with_reducible apply ok_foldl_fst | with_reducible apply State.dropReq_ok
    | with_reducible apply State.modSage_ok | with_reducible apply State.saveFlush_ok | (simp only [ok_mk, ok3_eq])
    | (intro _ _ _) | (intro _ _) | split | (dsimp only))

theorem State.savePut_ok {s : State} {slot : Nat} {r : SaveRec} (hr : ∀ i, r.image = some i → memWf i.mem = true)
    (hok : Ok pq s) : Ok pq (State.savePut s slot r) := by
  have h : ∀ u : State, Ok pq u → Ok pq { u with elg := { s.elg with slots := s.elg.slots.set slot r } } :=
    fun u hu => ⟨hu.1, slotsOk_set hok.2.1 hr, hu.2.2⟩
  unfold State.savePut
  exact h _ (State.eflPut_ok (State.eflPut_ok (State.eflPuts_ok (State.eflPuts_ok (State.autoSuspend_ok hok)))))

theorem State.useBlocks_ok {s : State} {g : Sage} (hok : Ok pq s) :
    Ok pq (State.useBlocks s g) := by
  unfold State.useBlocks
  try dsimp only
  repeat' (first
    | with_reducible assumption | with_reducible apply ok_foldl | with_reducible apply ok_foldl_fst
    | with_reducible apply State.setSb_ok | (simp only [ok_mk, ok3_eq]) | (intro _ _ _) | (intro _ _) | split
    | (dsimp only))

theorem State.saveEnd_ok {s : State} {g : Sage} (hok : Ok pq s) : Ok pq (State.saveEnd s g) := by
  have hr : ∀ i, (s.recordNow g).image = some i → memWf i.mem = true := by
    intro i hi
    simp only [State.recordNow] at hi
    split at hi
    · simp at hi
    · simp only [Option.some.injEq] at hi
      rw [← hi]
      exact hok.1
  have hu := State.useBlocks_ok (g := g) hok
  unfold State.saveEnd
  dsimp only
  repeat' (first
    | with_reducible assumption | with_reducible apply State.downStart_ok | with_reducible apply ok_ite
    | with_reducible apply State.flag_ok | with_reducible apply State.savePut_ok hr | (simp only [ok_mk, ok3_eq]) | split)

theorem State.nextSage_ok {s : State} {g : Sage} (hok : Ok pq s) :
    Ok pq (State.nextSage s g) := by
  unfold State.nextSage
  try dsimp only
  repeat' (first
    | with_reducible assumption | with_reducible apply ok_ite | with_reducible apply ok_ite_fst
    | with_reducible apply State.count_ok | with_reducible apply State.modSage_ok | (simp only [ok_mk, ok3_eq])
    | (intro _ _ _) | (intro _ _) | split | (dsimp only))

theorem execSagePhaseEnd_ok {s : State} {tiles : Nat} (hok : Ok pq s) :
    OutOk pq (execSagePhaseEnd tiles s) := by
  unfold execSagePhaseEnd
  try dsimp only
  repeat' (first
    | with_reducible assumption | exact True.intro | with_reducible apply outOk_next | with_reducible apply outOk_ite
    | with_reducible apply ok_ite | with_reducible apply ok_ite_fst | with_reducible apply State.setReg_ok
    | with_reducible apply State.modSage_ok | with_reducible apply State.saveEnd_ok
    | with_reducible apply State.nextSage_ok | (simp only [ok_mk, ok3_eq]) | (intro _ _ _) | (intro _ _) | split
    | (dsimp only))

theorem execSaveFinalEnergy_ok {s : State} (hok : Ok pq s) :
    OutOk pq (execSaveFinalEnergy s) := by
  unfold execSaveFinalEnergy
  try dsimp only
  repeat' (first
    | with_reducible assumption | exact True.intro | with_reducible apply outOk_next | with_reducible apply outOk_ite
    | with_reducible apply ok_ite | with_reducible apply ok_ite_fst | with_reducible apply State.modSage_ok
    | (simp only [ok_mk, ok3_eq]) | (intro _ _ _) | (intro _ _) | split | (dsimp only))

theorem State.restoreTile_ok {s : State} {tile : Nat} {loc : Nat} (hok : Ok pq s) :
    Ok pq (State.restoreTile s tile loc) := by
  unfold State.restoreTile
  try dsimp only
  repeat' (first
    | with_reducible assumption | with_reducible apply ok_ite | with_reducible apply ok_ite_fst
    | with_reducible apply State.ledgerEval_ok | with_reducible apply State.refuseFrame_ok
    | with_reducible apply State.setTile_ok | with_reducible apply State.takeFrame_ok
    | with_reducible apply State.validUp_ok | (simp only [ok_mk, ok3_eq]) | (intro _ _ _) | (intro _ _) | split
    | (dsimp only))

theorem State.unsavedTile_ok {s : State} {tile : Nat} (hok : Ok pq s) :
    Ok pq (State.unsavedTile s tile) := by
  unfold State.unsavedTile
  try dsimp only
  repeat' (first
    | with_reducible assumption | with_reducible apply State.setTile_ok | with_reducible apply State.markBad_ok
    | (simp only [ok_mk, ok3_eq]) | (intro _ _ _) | (intro _ _) | split | (dsimp only))

theorem State.loadImage_ok {s : State} {i : Image} (hi : memWf i.mem = true) (hok : Ok pq s) : Ok pq (State.loadImage s i) :=
  ⟨hi, hok.2.1, hok.2.2⟩

theorem State.restoreImage_ok {s : State} {r : SaveRec} {i : Image} {lost : List Nat} (hi : memWf i.mem = true)
    (hok : Ok pq s) : Ok pq (State.restoreImage s r i lost) := by
  unfold State.restoreImage
  apply ok_foldl (fun _ _ h => State.unsavedTile_ok h)
  apply ok_foldl
  · intro u p hu
    split
    · exact State.restoreTile_ok hu
    · exact hu
  · exact State.ledgerEval_ok (State.recomputeEnergy_ok (State.setFld_ok (State.loadImage_ok hi hok)))

theorem State.restoreNone_ok {s : State} (hok : Ok pq s) : Ok pq (State.restoreNone s) := by
  unfold State.restoreNone
  apply ok_foldl
  · intro u k hu
    exact State.emptyCheck_ok (State.setSb_ok hu)
  · exact ⟨rfl, hok.2.1, hok.2.2⟩

theorem State.loseTile_ok {s : State} {tile : Nat} (hok : Ok pq s) :
    Ok pq (State.loseTile s tile) := by
  unfold State.loseTile
  try dsimp only
  repeat' (first
    | with_reducible assumption | with_reducible apply ok_ite | with_reducible apply ok_ite_fst
    | with_reducible apply State.ledgerEval_ok | with_reducible apply State.refuseFrame_ok
    | with_reducible apply State.modTile_ok | with_reducible apply State.takeFrame_ok
    | with_reducible apply State.clearBad_ok | with_reducible apply State.loseSectors_ok | (simp only [ok_mk, ok3_eq])
    | (intro _ _ _) | (intro _ _) | split | (dsimp only))

theorem State.loseDirty_ok {s : State} {id : Nat} (hok : Ok pq s) :
    Ok pq (State.loseDirty s id) := by
  unfold State.loseDirty
  try dsimp only
  repeat' (first
    | with_reducible assumption | with_reducible apply ok_foldl | with_reducible apply ok_foldl_fst
    | with_reducible apply State.loseTile_ok | (simp only [ok_mk, ok3_eq]) | (intro _ _ _) | (intro _ _) | split
    | (dsimp only))

theorem State.repairFailed_ok {s : State} {id : Nat} (hok : Ok pq s) :
    Ok pq (State.repairFailed s id) := by
  unfold State.repairFailed
  try dsimp only
  repeat' (first
    | with_reducible assumption | with_reducible apply ok_foldl | with_reducible apply ok_foldl_fst
    | with_reducible apply State.repairTile_ok | (simp only [ok_mk, ok3_eq]) | (intro _ _ _) | (intro _ _) | split
    | (dsimp only))

theorem State.settleRegion_ok {s : State} {id : Nat} {a : Option Side} {b : Option Side} {openList : List Nat} (hok : Ok pq s) :
    Ok pq (State.settleRegion s id a b openList) := by
  unfold State.settleRegion
  try dsimp only
  repeat' (first
    | with_reducible assumption | with_reducible apply ok_ite | with_reducible apply ok_ite_fst
    | with_reducible apply State.record_ok | with_reducible apply State.modRegion_ok
    | with_reducible apply State.loseDirty_ok | with_reducible apply State.repairFailed_ok
    | (simp only [ok_mk, ok3_eq]) | (intro _ _ _) | (intro _ _) | split | (dsimp only))

theorem State.settleAll_ok {s : State} {r : Option SaveRec} {single : Bool} {l : List (Nat × Bool × Bool × Nat)} (hok : Ok pq s) :
    Ok pq (State.settleAll s r single l) := by
  unfold State.settleAll
  try dsimp only
  repeat' (first
    | with_reducible assumption | with_reducible apply ok_foldl | with_reducible apply ok_foldl_fst
    | with_reducible apply State.settleRegion_ok | (simp only [ok_mk, ok3_eq]) | (intro _ _ _) | (intro _ _) | split
    | (dsimp only))

theorem State.restoreRejoin_ok {s : State} {r : Option SaveRec} (hok : Ok pq s) :
    Ok pq (State.restoreRejoin s r) := by
  unfold State.restoreRejoin
  try dsimp only
  repeat' (first
    | with_reducible assumption | with_reducible apply ok_foldl | with_reducible apply ok_foldl_fst
    | with_reducible apply State.regionState_ok | with_reducible apply State.yieldRegions_ok
    | (simp only [ok_mk, ok3_eq]) | (intro _ _ _) | (intro _ _) | split | (dsimp only))

theorem State.loadLedger_ok {s : State} {r : Option SaveRec} (hok : Ok pq s) :
    Ok pq (State.loadLedger s r) := by
  unfold State.loadLedger
  try dsimp only
  repeat' (first
    | with_reducible assumption | with_reducible apply State.setFld_ok | with_reducible apply State.setBit_ok
    | with_reducible apply State.ledgerEval_ok | with_reducible apply State.recomputeEnergy_ok
    | with_reducible apply State.capStart_ok | (simp only [ok_mk, ok3_eq]) | (intro _ _ _) | (intro _ _) | split
    | (dsimp only))

theorem State.loadRegionKeys_ok {s : State} (hok : Ok pq s) :
    Ok pq (State.loadRegionKeys s) := by
  unfold State.loadRegionKeys
  try dsimp only
  repeat' (first
    | with_reducible assumption | with_reducible apply ok_foldl | with_reducible apply ok_foldl_fst
    | with_reducible apply State.keyRetire_ok | with_reducible apply State.markBad_ok | (simp only [ok_mk, ok3_eq])
    | (intro _ _ _) | (intro _ _) | split | (dsimp only))

theorem foldl_pick {α : Type} {l : List α} {a : Option α} {r : α} {f : Option α → α → Option α}
    (hf : ∀ a x, f a x = a ∨ f a x = some x) (h : l.foldl f a = some r) : a = some r ∨ r ∈ l := by
  induction l generalizing a with
  | nil => exact .inl h
  | cons x l ih =>
    rcases ih h with h | h
    · rcases hf a x with h2 | h2
      · exact .inl (h2 ▸ h)
      · rw [h2] at h
        simp only [Option.some.injEq] at h
        exact .inr (by simp [h])
    · exact .inr (by simp [h])

/-- The newest record is one of the slots'. -/
theorem newestRec_mem {s : State} {r : SaveRec} (h : s.newestRec = some r) : ∃ e ∈ s.elg.slots, e.2 = r := by
  unfold State.newestRec at h
  simp only [Option.map_eq_some_iff] at h
  obtain ⟨e, he, rfl⟩ := h
  unfold State.newestSlot at he
  dsimp only at he
  rcases foldl_pick (fun a x => by
      cases a with
      | none => simp
      | some b =>
        dsimp only
        split <;> simp) he with h | h
  · simp at h
  · exact ⟨e, (List.mem_filter.mp h).1, rfl⟩

/-- Memory in the image of the newest record is canonical. -/
theorem newestImage_ok {s : State} {r : SaveRec} {i : Image} (hs : slotsOk s.elg.slots = true) (h : s.newestRec = some r)
    (hi : r.image = some i) : memWf i.mem = true := by
  rw [slotsOk_iff] at hs
  obtain ⟨e, he, rfl⟩ := newestRec_mem h
  exact hs e he i hi

theorem State.restoreDo_ok {s : State} {lost : List Nat} (hok : Ok pq s) : Ok pq (State.restoreDo s lost) := by
  unfold State.restoreDo
  apply State.recordF_ok
  apply State.spareErase_ok
  apply State.loadRegionKeys_ok
  split
  · rename_i x i hx
    apply State.restoreImage_ok
    · simp only [Option.bind_eq_some_iff, Option.map_eq_some_iff] at hx
      obtain ⟨r, hr, j, hj, he⟩ := hx
      cases he
      exact newestImage_ok hok.2.1 hr hj
    · rw [ok_mk, ok3_eq]
      exact State.loadLedger_ok (State.setPhase_ok hok)
  · apply State.restoreNone_ok
    rw [ok_mk, ok3_eq]
    exact State.loadLedger_ok (State.setPhase_ok hok)

theorem execRestore_ok {s : State} {unsaved : List Nat} {peer : Option (Bool × List (Nat × Bool × Bool × Nat))} (hok : Ok pq s) :
    OutOk pq (execRestore unsaved peer s) := by
  unfold execRestore
  try dsimp only
  repeat' (first
    | with_reducible assumption | exact True.intro | with_reducible apply outOk_next | with_reducible apply outOk_ite
    | with_reducible apply ok_ite | with_reducible apply ok_ite_fst | with_reducible apply State.settle_ok
    | with_reducible apply State.setPhase_ok | with_reducible apply State.notePhase_ok
    | with_reducible apply State.settleAll_ok | with_reducible apply State.restoreRejoin_ok
    | with_reducible apply foldl_pick | with_reducible apply newestRec_mem | with_reducible apply newestImage_ok
    | with_reducible apply State.restoreDo_ok | (simp only [ok_mk, ok3_eq]) | (intro _ _ _) | (intro _ _) | split
    | (dsimp only))

theorem State.admitRegion_ok {s : State} {id : Nat} (hok : Ok pq s) :
    Ok pq (State.admitRegion s id) := by
  unfold State.admitRegion
  try dsimp only
  repeat' (first
    | with_reducible assumption | with_reducible apply ok_ite | with_reducible apply ok_ite_fst
    | with_reducible apply State.post_ok | with_reducible apply State.servePinned_ok
    | with_reducible apply State.requeue_ok | with_reducible apply State.settle_ok
    | with_reducible apply State.regionState_ok | with_reducible apply State.notePhase_ok
    | with_reducible apply State.admitHosts_ok | (simp only [ok_mk, ok3_eq]) | (intro _ _ _) | (intro _ _) | split
    | (dsimp only))

theorem execRegionAdmit_ok {s : State} {region : Fin 4096} (hok : Ok pq s) :
    OutOk pq (execRegionAdmit region s) := by
  unfold execRegionAdmit
  try dsimp only
  repeat' (first
    | with_reducible assumption | exact True.intro | with_reducible apply outOk_next | with_reducible apply outOk_ite
    | with_reducible apply State.admitRegion_ok | (simp only [ok_mk, ok3_eq]) | (intro _ _ _) | (intro _ _) | split
    | (dsimp only))

theorem execPeerWaitExpiry_ok {s : State} (hok : Ok pq s) :
    OutOk pq (execPeerWaitExpiry s) := by
  unfold execPeerWaitExpiry
  try dsimp only
  repeat' (first
    | with_reducible assumption | exact True.intro | with_reducible apply outOk_next | with_reducible apply outOk_ite
    | with_reducible apply ok_ite | with_reducible apply ok_ite_fst | with_reducible apply ok_foldl
    | with_reducible apply ok_foldl_fst | with_reducible apply State.fencePeer_ok | (simp only [ok_mk, ok3_eq])
    | (intro _ _ _) | (intro _ _) | split | (dsimp only))

theorem execHaltedPeerAdmission_ok {s : State} {entries : List (Nat × Bool × Bool × Nat)} {single : Bool} (hok : Ok pq s) :
    OutOk pq (execHaltedPeerAdmission entries single s) := by
  unfold execHaltedPeerAdmission
  try dsimp only
  repeat' (first
    | with_reducible assumption | exact True.intro | with_reducible apply outOk_next | with_reducible apply outOk_ite
    | with_reducible apply ok_ite | with_reducible apply ok_ite_fst | with_reducible apply ok_foldl
    | with_reducible apply ok_foldl_fst | with_reducible apply State.settle_ok
    | with_reducible apply State.fencePeer_ok | with_reducible apply State.settleAll_ok | (simp only [ok_mk, ok3_eq])
    | (intro _ _ _) | (intro _ _) | split | (dsimp only))

end Sys2Proof.Machine
end

