-- ==== Sys2Proof/Laws/KeepsReset.lean ====
section
/-! SUPPORT. The operations of Machine/Reset.lean keep memory sound and leave the queue alone. -/

namespace Sys2Proof.Machine

set_option linter.unusedVariables false
set_option linter.unusedTactic false
set_option linter.unreachableTactic false

variable {pq : List Instr}

theorem State.coldReset_ok {s : State} (hok : Ok pq s) : Ok pq (State.coldReset s) := ⟨rfl, hok.2.1, hok.2.2⟩

theorem State.loseDirtyLines_ok {s : State} (hok : Ok pq s) :
    Ok pq (State.loseDirtyLines s) := by
  unfold State.loseDirtyLines
  try dsimp only
  repeat' (first
    | with_reducible assumption | with_reducible apply ok_foldl | with_reducible apply ok_foldl_fst
    | with_reducible apply State.markBad_ok | (simp only [ok_mk, ok3_eq]) | (intro _ _ _) | (intro _ _) | split
    | (dsimp only))

theorem State.cutCommand_ok {s : State} {n : Nat} (hok : Ok pq s) :
    Ok pq (State.cutCommand s n) := by
  unfold State.cutCommand
  try dsimp only
  repeat' (first
    | with_reducible assumption | with_reducible apply ok_ite | with_reducible apply ok_ite_fst
    | with_reducible apply State.count_ok | with_reducible apply State.tqFinish_ok
    | with_reducible apply State.seqDone_ok | (simp only [ok_mk, ok3_eq]) | (intro _ _ _) | (intro _ _) | split
    | (dsimp only))

theorem State.cutCommands_ok {s : State} (hok : Ok pq s) :
    Ok pq (State.cutCommands s) := by
  unfold State.cutCommands
  try dsimp only
  repeat' (first
    | with_reducible assumption | with_reducible apply ok_foldl | with_reducible apply ok_foldl_fst
    | with_reducible apply State.cutCommand_ok | (simp only [ok_mk, ok3_eq]) | (intro _ _ _) | (intro _ _) | split
    | (dsimp only))

theorem State.warmReset_ok {s : State} (hok : Ok pq s) :
    Ok pq (State.warmReset s) := by
  unfold State.warmReset
  try dsimp only
  repeat' (first
    | with_reducible assumption | with_reducible apply ok_ite | with_reducible apply ok_ite_fst
    | with_reducible apply ok_foldl | with_reducible apply ok_foldl_fst | with_reducible apply State.regionState_ok
    | with_reducible apply State.withdrawPending_ok | with_reducible apply State.selfRefresh_ok
    | with_reducible apply State.yieldRegions_ok | with_reducible apply State.cutCommands_ok
    | (simp only [ok_mk, ok3_eq]) | (intro _ _ _) | (intro _ _) | split | (dsimp only))

theorem State.warmStart_ok {s : State} {fw : Bool} (hok : Ok pq s) :
    Ok pq (State.warmStart s fw) := by
  unfold State.warmStart
  try dsimp only
  repeat' (first
    | with_reducible assumption | with_reducible apply ok_ite | with_reducible apply ok_ite_fst
    | (simp only [ok_mk, ok3_eq]) | (intro _ _ _) | (intro _ _) | split | (dsimp only))

theorem execResetNAssert_ok {s : State} {ns : Nat} (hok : Ok pq s) :
    OutOk pq (execResetNAssert ns s) := by
  unfold execResetNAssert
  try dsimp only
  repeat' (first
    | with_reducible assumption | exact True.intro | with_reducible apply outOk_next | with_reducible apply outOk_ite
    | with_reducible apply ok_ite | with_reducible apply ok_ite_fst | with_reducible apply State.wakeFor_ok
    | with_reducible apply State.warmStart_ok | (simp only [ok_mk, ok3_eq]) | (intro _ _ _) | (intro _ _) | split
    | (dsimp only))

theorem execWarmResetDrainEnd_ok {s : State} (hok : Ok pq s) :
    OutOk pq (execWarmResetDrainEnd s) := by
  unfold execWarmResetDrainEnd
  try dsimp only
  repeat' (first
    | with_reducible assumption | exact True.intro | with_reducible apply outOk_next | with_reducible apply outOk_ite
    | with_reducible apply ok_ite | with_reducible apply ok_ite_fst | with_reducible apply State.warmReset_ok
    | (simp only [ok_mk, ok3_eq]) | (intro _ _ _) | (intro _ _) | split | (dsimp only))

theorem execWarmResetOverrun_ok {s : State} (hok : Ok pq s) :
    OutOk pq (execWarmResetOverrun s) := by
  unfold execWarmResetOverrun
  try dsimp only
  repeat' (first
    | with_reducible assumption | exact True.intro | with_reducible apply outOk_next | with_reducible apply outOk_ite
    | with_reducible apply ok_ite | with_reducible apply ok_ite_fst | with_reducible apply State.record_ok
    | with_reducible apply State.loseDirtyLines_ok | with_reducible apply State.warmReset_ok
    | (simp only [ok_mk, ok3_eq]) | (intro _ _ _) | (intro _ _) | split | (dsimp only))

end Sys2Proof.Machine
end

