-- ==== Sys2Proof/Laws/KeepsPws.lean ====
section
/-! SUPPORT. The operations of Machine/Pws.lean keep memory sound and leave the queue alone. -/

namespace Sys2Proof.Machine

set_option linter.unusedVariables false
set_option linter.unusedTactic false
set_option linter.unreachableTactic false

variable {pq : List Instr}

theorem State.sysReset_ok {s : State} {n : Nat} (hok : Ok pq s) :
    Ok pq (State.sysReset s n) := by
  unfold State.sysReset
  try dsimp only
  repeat' (first
    | with_reducible assumption | with_reducible apply ok_ite | with_reducible apply ok_ite_fst
    | with_reducible apply State.flag_ok | with_reducible apply State.railLog_ok
    | with_reducible apply State.downStart_ok | with_reducible apply State.saveTrigger_ok
    | (simp only [ok_mk, ok3_eq]) | (intro _ _ _) | (intro _ _) | split | (dsimp only))

theorem State.railAction_ok {s : State} {n : Nat} (hok : Ok pq s) :
    Ok pq (State.railAction s n) := by
  unfold State.railAction
  try dsimp only
  repeat' (first
    | with_reducible assumption | with_reducible apply ok_ite | with_reducible apply ok_ite_fst
    | with_reducible apply State.leaveService_ok | with_reducible apply State.modRail_ok
    | with_reducible apply State.railDrive_ok | with_reducible apply State.noteGroup_ok
    | with_reducible apply State.groupsOff_ok | with_reducible apply State.sysReset_ok | (simp only [ok_mk, ok3_eq])
    | (intro _ _ _) | (intro _ _) | split | (dsimp only))

theorem State.railFault_ok {s : State} {n : Nat} {cause : Nat} {bit : Nat} (hok : Ok pq s) :
    Ok pq (State.railFault s n cause bit) := by
  unfold State.railFault
  try dsimp only
  repeat' (first
    | with_reducible assumption | with_reducible apply ok_ite | with_reducible apply ok_ite_fst
    | with_reducible apply State.setReg_ok | with_reducible apply State.count_ok
    | with_reducible apply State.setReg64_ok | with_reducible apply State.flagRecord_ok
    | with_reducible apply State.wakeFor_ok | with_reducible apply State.modRail_ok
    | with_reducible apply State.railLog_ok | with_reducible apply State.railAction_ok | (simp only [ok_mk, ok3_eq])
    | (intro _ _ _) | (intro _ _) | split | (dsimp only))

theorem State.pdFault_ok {s : State} {n : Nat} {cause : Nat} (hok : Ok pq s) :
    Ok pq (State.pdFault s n cause) := by
  unfold State.pdFault
  try dsimp only
  repeat' (first
    | with_reducible assumption | with_reducible apply ok_ite | with_reducible apply ok_ite_fst
    | with_reducible apply State.setReg_ok | with_reducible apply State.count_ok
    | with_reducible apply State.setReg64_ok | with_reducible apply State.flagRecord_ok
    | with_reducible apply State.modRail_ok | with_reducible apply State.railLog_ok | (simp only [ok_mk, ok3_eq])
    | (intro _ _ _) | (intro _ _) | split | (dsimp only))

theorem State.inputLost_ok {s : State} (hok : Ok pq s) :
    Ok pq (State.inputLost s) := by
  unfold State.inputLost
  try dsimp only
  repeat' (first
    | with_reducible assumption | with_reducible apply State.flag_ok | with_reducible apply State.saveTrigger_ok
    | (simp only [ok_mk, ok3_eq]) | (intro _ _ _) | (intro _ _) | split | (dsimp only))

theorem State.visitInput_ok {s : State} {n : Nat} {good : Bool} (hok : Ok pq s) :
    Ok pq (State.visitInput s n good) := by
  unfold State.visitInput
  try dsimp only
  repeat' (first
    | with_reducible assumption | with_reducible apply ok_ite | with_reducible apply ok_ite_fst
    | with_reducible apply State.inputLost_ok | (simp only [ok_mk, ok3_eq]) | (intro _ _ _) | (intro _ _) | split
    | (dsimp only))

theorem State.visitRamping_ok {s : State} {n : Nat} {good : Bool} (hok : Ok pq s) :
    Ok pq (State.visitRamping s n good) := by
  unfold State.visitRamping
  try dsimp only
  repeat' (first
    | with_reducible assumption | with_reducible apply ok_ite | with_reducible apply ok_ite_fst
    | with_reducible apply State.modRail_ok | with_reducible apply State.noteGroup_ok | (simp only [ok_mk, ok3_eq])
    | (intro _ _ _) | (intro _ _) | split | (dsimp only))

theorem State.visitLive_ok {s : State} {n : Nat} {reading : Nat} {good : Bool} {transitions : Nat} (hok : Ok pq s) :
    Ok pq (State.visitLive s n reading good transitions) := by
  unfold State.visitLive
  try dsimp only
  repeat' (first
    | with_reducible assumption | with_reducible apply ok_ite | with_reducible apply ok_ite_fst
    | with_reducible apply State.railFault_ok | with_reducible apply State.visitRamping_ok
    | (simp only [ok_mk, ok3_eq]) | (intro _ _ _) | (intro _ _) | split | (dsimp only))

theorem State.visitJudge_ok {s : State} {n : Nat} {reading : Nat} {pg : Bool} {transitions : Nat} (hok : Ok pq s) :
    Ok pq (State.visitJudge s n reading pg transitions) := by
  unfold State.visitJudge
  try dsimp only
  repeat' (first
    | with_reducible assumption | with_reducible apply ok_ite | with_reducible apply ok_ite_fst
    | with_reducible apply State.modRail_ok | with_reducible apply State.downCheck_ok
    | with_reducible apply State.pdFault_ok | with_reducible apply State.visitInput_ok
    | with_reducible apply State.visitLive_ok | (simp only [ok_mk, ok3_eq]) | (intro _ _ _) | (intro _ _) | split
    | (dsimp only))

theorem execRailVisit_ok {s : State} {rail : Fin 32} {reading : BitVec 12} {pg : Bool} {transitions : Nat} (hok : Ok pq s) :
    OutOk pq (execRailVisit rail reading pg transitions s) := by
  unfold execRailVisit
  try dsimp only
  repeat' (first
    | with_reducible assumption | exact True.intro | with_reducible apply outOk_next | with_reducible apply outOk_ite
    | with_reducible apply ok_ite | with_reducible apply ok_ite_fst | with_reducible apply State.modRail_ok
    | with_reducible apply State.visitJudge_ok | (simp only [ok_mk, ok3_eq]) | (intro _ _ _) | (intro _ _) | split
    | (dsimp only))

theorem execQualTimeout_ok {s : State} {rail : Fin 32} (hok : Ok pq s) :
    OutOk pq (execQualTimeout rail s) := by
  unfold execQualTimeout
  try dsimp only
  repeat' (first
    | with_reducible assumption | exact True.intro | with_reducible apply outOk_next | with_reducible apply outOk_ite
    | with_reducible apply ok_ite | with_reducible apply ok_ite_fst | with_reducible apply State.railFault_ok
    | (simp only [ok_mk, ok3_eq]) | (intro _ _ _) | (intro _ _) | split | (dsimp only))

theorem execRailRetryExpiry_ok {s : State} {rail : Fin 32} (hok : Ok pq s) :
    OutOk pq (execRailRetryExpiry rail s) := by
  unfold execRailRetryExpiry
  try dsimp only
  repeat' (first
    | with_reducible assumption | exact True.intro | with_reducible apply outOk_next | with_reducible apply outOk_ite
    | with_reducible apply ok_ite | with_reducible apply ok_ite_fst | with_reducible apply State.count_ok
    | with_reducible apply State.modRail_ok | with_reducible apply State.railDrive_ok | (simp only [ok_mk, ok3_eq])
    | (intro _ _ _) | (intro _ _) | split | (dsimp only))

theorem execRetryCountReset_ok {s : State} {rail : Fin 32} (hok : Ok pq s) :
    OutOk pq (execRetryCountReset rail s) := by
  unfold execRetryCountReset
  try dsimp only
  repeat' (first
    | with_reducible assumption | exact True.intro | with_reducible apply outOk_next | with_reducible apply outOk_ite
    | with_reducible apply State.modRail_ok | (simp only [ok_mk, ok3_eq]) | (intro _ _ _) | (intro _ _) | split
    | (dsimp only))

theorem execPwrOkInRise_ok {s : State} (hok : Ok pq s) :
    OutOk pq (execPwrOkInRise s) := by
  unfold execPwrOkInRise
  try dsimp only
  repeat' (first
    | with_reducible assumption | exact True.intro | with_reducible apply outOk_next | with_reducible apply outOk_ite
    | with_reducible apply ok_ite | with_reducible apply ok_ite_fst | with_reducible apply State.powerUp_ok
    | with_reducible apply State.coldReset_ok | (simp only [ok_mk, ok3_eq]) | (intro _ _ _) | (intro _ _) | split
    | (dsimp only))

theorem execGroupDelayExpiry_ok {s : State} {group : Fin 8} (hok : Ok pq s) :
    OutOk pq (execGroupDelayExpiry group s) := by
  unfold execGroupDelayExpiry
  try dsimp only
  repeat' (first
    | with_reducible assumption | exact True.intro | with_reducible apply outOk_next | with_reducible apply outOk_ite
    | with_reducible apply ok_ite | with_reducible apply ok_ite_fst | with_reducible apply State.enableGroup_ok
    | (simp only [ok_mk, ok3_eq]) | (intro _ _ _) | (intro _ _) | split | (dsimp only))

theorem execInputLoss_ok {s : State} {okLow : Bool} (hok : Ok pq s) :
    OutOk pq (execInputLoss okLow s) := by
  unfold execInputLoss
  try dsimp only
  repeat' (first
    | with_reducible assumption | exact True.intro | with_reducible apply outOk_next | with_reducible apply outOk_ite
    | with_reducible apply ok_ite | with_reducible apply ok_ite_fst | with_reducible apply State.inputLost_ok
    | (simp only [ok_mk, ok3_eq]) | (intro _ _ _) | (intro _ _) | split | (dsimp only))

theorem execDischargeTimeout_ok {s : State} {rail : Fin 32} (hok : Ok pq s) :
    OutOk pq (execDischargeTimeout rail s) := by
  unfold execDischargeTimeout
  try dsimp only
  repeat' (first
    | with_reducible assumption | exact True.intro | with_reducible apply outOk_next | with_reducible apply outOk_ite
    | with_reducible apply State.count_ok | with_reducible apply State.flagRecord_ok
    | with_reducible apply State.modRail_ok | with_reducible apply State.railLog_ok
    | with_reducible apply State.downCheck_ok | (simp only [ok_mk, ok3_eq]) | (intro _ _ _) | (intro _ _) | split
    | (dsimp only))

theorem execRestartHoldExpiry_ok {s : State} (hok : Ok pq s) :
    OutOk pq (execRestartHoldExpiry s) := by
  unfold execRestartHoldExpiry
  try dsimp only
  repeat' (first
    | with_reducible assumption | exact True.intro | with_reducible apply outOk_next | with_reducible apply outOk_ite
    | with_reducible apply ok_ite | with_reducible apply ok_ite_fst | with_reducible apply State.count_ok
    | with_reducible apply State.powerUp_ok | with_reducible apply State.coldReset_ok | (simp only [ok_mk, ok3_eq])
    | (intro _ _ _) | (intro _ _) | split | (dsimp only))

theorem State.quietEnter_ok {s : State} (hok : Ok pq s) :
    Ok pq (State.quietEnter s) := by
  unfold State.quietEnter
  try dsimp only
  repeat' (first
    | with_reducible assumption | with_reducible apply ok_ite | with_reducible apply ok_ite_fst
    | with_reducible apply State.flag_ok | (simp only [ok_mk, ok3_eq]) | (intro _ _ _) | (intro _ _) | split
    | (dsimp only))

theorem State.quietDone_ok {s : State} (hok : Ok pq s) :
    Ok pq (State.quietDone s) := by
  unfold State.quietDone
  try dsimp only
  repeat' (first
    | with_reducible assumption | with_reducible apply ok_foldl | with_reducible apply ok_foldl_fst
    | with_reducible apply State.count_ok | with_reducible apply State.record_ok
    | with_reducible apply State.selfRefresh_ok | (simp only [ok_mk, ok3_eq]) | (intro _ _ _) | (intro _ _) | split
    | (dsimp only))

theorem State.tick_ok {s : State} (hok : Ok pq s) :
    Ok pq (State.tick s) := by
  unfold State.tick
  try dsimp only
  repeat' (first
    | with_reducible assumption | with_reducible apply ok_ite | with_reducible apply ok_ite_fst
    | with_reducible apply State.quietDone_ok | (simp only [ok_mk, ok3_eq]) | (intro _ _ _) | (intro _ _) | split
    | (dsimp only))

theorem execWakeTrigger_ok {s : State} {c : WakeCause} (hok : Ok pq s) :
    OutOk pq (execWakeTrigger c s) := by
  unfold execWakeTrigger
  try dsimp only
  repeat' (first
    | with_reducible assumption | exact True.intro | with_reducible apply outOk_next | with_reducible apply outOk_ite
    | with_reducible apply State.wakeFor_ok | (simp only [ok_mk, ok3_eq]) | (intro _ _ _) | (intro _ _) | split
    | (dsimp only))

theorem execAonReset_ok {s : State} {addrSel : Fin 4} (hok : Ok pq s) :
    OutOk pq (execAonReset addrSel s) := by
  unfold execAonReset
  try dsimp only
  repeat' (first
    | with_reducible assumption | exact True.intro | with_reducible apply outOk_next | with_reducible apply outOk_ite
    | with_reducible apply State.coldReset_ok | (simp only [ok_mk, ok3_eq]) | (intro _ _ _) | (intro _ _) | split
    | (dsimp only))

end Sys2Proof.Machine
end

