-- ==== Sys2Proof/Laws/KeepsEfl.lean ====
section
/-! SUPPORT. The operations of Machine/Efl.lean keep memory sound and leave the queue alone. -/

namespace Sys2Proof.Machine

set_option linter.unusedVariables false
set_option linter.unusedTactic false
set_option linter.unreachableTactic false

variable {pq : List Instr}

theorem State.eflErr_ok {s : State} {e : Nat} (hok : Ok pq s) :
    Ok pq (State.eflErr s e) := by
  unfold State.eflErr
  try dsimp only
  repeat' (first
    | with_reducible assumption | (simp only [ok_mk, ok3_eq]) | (intro _ _ _) | (intro _ _) | split | (dsimp only))

theorem State.eflBreak_ok {s : State} {e : Nat} (hok : Ok pq s) :
    Ok pq (State.eflBreak s e) := by
  unfold State.eflBreak
  try dsimp only
  repeat' (first
    | with_reducible assumption | with_reducible apply ok_ite | with_reducible apply ok_ite_fst
    | with_reducible apply State.count_ok | (simp only [ok_mk, ok3_eq]) | (intro _ _ _) | (intro _ _) | split
    | (dsimp only))

theorem State.eflUnlockWrite_ok {s : State} {key : Nat} (hok : Ok pq s) :
    Ok pq (State.eflUnlockWrite s key) := by
  unfold State.eflUnlockWrite
  try dsimp only
  repeat' (first
    | with_reducible assumption | with_reducible apply ok_ite | with_reducible apply ok_ite_fst
    | with_reducible apply State.eflBreak_ok | (simp only [ok_mk, ok3_eq]) | (intro _ _ _) | (intro _ _) | split
    | (dsimp only))

theorem State.eflOther_ok {s : State} (hok : Ok pq s) :
    Ok pq (State.eflOther s) := by
  unfold State.eflOther
  try dsimp only
  repeat' (first
    | with_reducible assumption | with_reducible apply State.eflBreak_ok | (simp only [ok_mk, ok3_eq]) | (intro _ _ _)
    | (intro _ _) | split | (dsimp only))

theorem State.eflSuspendDo_ok {s : State} (hok : Ok pq s) :
    Ok pq (State.eflSuspendDo s) := by
  unfold State.eflSuspendDo
  try dsimp only
  repeat' (first
    | with_reducible assumption | with_reducible apply ok_ite | with_reducible apply ok_ite_fst
    | with_reducible apply State.eraseState_ok | with_reducible apply State.eflErr_ok | (simp only [ok_mk, ok3_eq])
    | (intro _ _ _) | (intro _ _) | split | (dsimp only))

theorem State.eflResumeDo_ok {s : State} (hok : Ok pq s) :
    Ok pq (State.eflResumeDo s) := by
  unfold State.eflResumeDo
  try dsimp only
  repeat' (first
    | with_reducible assumption | with_reducible apply ok_ite | with_reducible apply ok_ite_fst
    | with_reducible apply State.eraseState_ok | with_reducible apply State.eflErr_ok | (simp only [ok_mk, ok3_eq])
    | (intro _ _ _) | (intro _ _) | split | (dsimp only))

theorem State.eflCmdWrite_ok {s : State} {v : Nat} (hok : Ok pq s) :
    Ok pq (State.eflCmdWrite s v) := by
  unfold State.eflCmdWrite
  try dsimp only
  repeat' (first
    | with_reducible assumption | with_reducible apply ok_ite | with_reducible apply ok_ite_fst
    | with_reducible apply State.eflErr_ok | with_reducible apply State.eflBreak_ok
    | with_reducible apply State.eflSuspendDo_ok | with_reducible apply State.eflResumeDo_ok
    | (simp only [ok_mk, ok3_eq]) | (intro _ _ _) | (intro _ _) | split | (dsimp only))

theorem State.eraseFw_ok {s : State} {b : Nat} (hok : Ok pq s) :
    Ok pq (State.eraseFw s b) := by
  unfold State.eraseFw
  try dsimp only
  repeat' (first
    | with_reducible assumption | with_reducible apply ok_ite | with_reducible apply ok_ite_fst
    | with_reducible apply State.eraseStart_ok | with_reducible apply State.eflErr_ok | (simp only [ok_mk, ok3_eq])
    | (intro _ _ _) | (intro _ _) | split | (dsimp only))

theorem State.eflAddrWrite_ok {s : State} {v : Nat} (hok : Ok pq s) :
    Ok pq (State.eflAddrWrite s v) := by
  unfold State.eflAddrWrite
  try dsimp only
  repeat' (first
    | with_reducible assumption | with_reducible apply State.eflBreak_ok | with_reducible apply State.eraseFw_ok
    | (simp only [ok_mk, ok3_eq]) | (intro _ _ _) | (intro _ _) | split | (dsimp only))

theorem State.eflLoWrite_ok {s : State} {v : Nat} (hok : Ok pq s) :
    Ok pq (State.eflLoWrite s v) := by
  unfold State.eflLoWrite
  try dsimp only
  repeat' (first
    | with_reducible assumption | with_reducible apply State.eflBreak_ok | (simp only [ok_mk, ok3_eq]) | (intro _ _ _)
    | (intro _ _) | split | (dsimp only))

theorem State.programFw_ok {s : State} {addr : Nat} {data : Nat} (hok : Ok pq s) :
    Ok pq (State.programFw s addr data) := by
  unfold State.programFw
  try dsimp only
  repeat' (first
    | with_reducible assumption | with_reducible apply ok_ite | with_reducible apply ok_ite_fst
    | with_reducible apply State.autoSuspend_ok | with_reducible apply State.eflErr_ok | (simp only [ok_mk, ok3_eq])
    | (intro _ _ _) | (intro _ _) | split | (dsimp only))

theorem State.eflHiWrite_ok {s : State} {v : Nat} (hok : Ok pq s) :
    Ok pq (State.eflHiWrite s v) := by
  unfold State.eflHiWrite
  try dsimp only
  repeat' (first
    | with_reducible assumption | with_reducible apply State.eflBreak_ok | with_reducible apply State.programFw_ok
    | (simp only [ok_mk, ok3_eq]) | (intro _ _ _) | (intro _ _) | split | (dsimp only))

theorem execUnlockDeadline_ok {s : State} (hok : Ok pq s) :
    OutOk pq (execUnlockDeadline s) := by
  unfold execUnlockDeadline
  try dsimp only
  repeat' (first
    | with_reducible assumption | exact True.intro | with_reducible apply outOk_next | with_reducible apply outOk_ite
    | with_reducible apply State.eflBreak_ok | (simp only [ok_mk, ok3_eq]) | (intro _ _ _) | (intro _ _) | split
    | (dsimp only))

theorem execEflProgramDone_ok {s : State} (hok : Ok pq s) :
    OutOk pq (execEflProgramDone s) := by
  unfold execEflProgramDone
  try dsimp only
  repeat' (first
    | with_reducible assumption | exact True.intro | with_reducible apply outOk_next | with_reducible apply outOk_ite
    | with_reducible apply ok_ite | with_reducible apply ok_ite_fst | with_reducible apply State.flag_ok
    | with_reducible apply State.eflPut_ok | (simp only [ok_mk, ok3_eq]) | (intro _ _ _) | (intro _ _) | split
    | (dsimp only))

theorem execEflErasePulseDone_ok {s : State} {verified : Bool} (hok : Ok pq s) :
    OutOk pq (execEflErasePulseDone verified s) := by
  unfold execEflErasePulseDone
  try dsimp only
  repeat' (first
    | with_reducible assumption | exact True.intro | with_reducible apply outOk_next | with_reducible apply outOk_ite
    | with_reducible apply ok_ite | with_reducible apply ok_ite_fst | (simp only [ok_mk, ok3_eq]) | (intro _ _ _)
    | (intro _ _) | split | (dsimp only))

theorem State.countErase_ok {s : State} {b : Nat} (hok : Ok pq s) :
    Ok pq (State.countErase s b) := by
  unfold State.countErase
  try dsimp only
  repeat' (first
    | with_reducible assumption | with_reducible apply ok_ite | with_reducible apply ok_ite_fst
    | with_reducible apply State.count_ok | with_reducible apply State.record_ok
    | with_reducible apply State.flagRecord_ok | with_reducible apply State.modBlock_ok | (simp only [ok_mk, ok3_eq])
    | (intro _ _ _) | (intro _ _) | split | (dsimp only))

theorem State.armSave_ok {s : State} (hok : Ok pq s) :
    Ok pq (State.armSave s) := by
  unfold State.armSave
  try dsimp only
  repeat' (first
    | with_reducible assumption | with_reducible apply ok_ite | with_reducible apply ok_ite_fst
    | with_reducible apply State.setBit_ok | (simp only [ok_mk, ok3_eq]) | (intro _ _ _) | (intro _ _) | split
    | (dsimp only))

theorem State.eraseDone_ok {s : State} (hok : Ok pq s) :
    Ok pq (State.eraseDone s) := by
  unfold State.eraseDone
  try dsimp only
  repeat' (first
    | with_reducible assumption | with_reducible apply ok_ite | with_reducible apply ok_ite_fst
    | with_reducible apply State.flag_ok | with_reducible apply State.eflGo_ok
    | with_reducible apply State.countErase_ok | with_reducible apply State.armSave_ok | (simp only [ok_mk, ok3_eq])
    | (intro _ _ _) | (intro _ _) | split | (dsimp only))

theorem execEflAutoResume_ok {s : State} (hok : Ok pq s) :
    OutOk pq (execEflAutoResume s) := by
  unfold execEflAutoResume
  try dsimp only
  repeat' (first
    | with_reducible assumption | exact True.intro | with_reducible apply outOk_next | with_reducible apply outOk_ite
    | with_reducible apply ok_ite | with_reducible apply ok_ite_fst | with_reducible apply State.eraseState_ok
    | (simp only [ok_mk, ok3_eq]) | (intro _ _ _) | (intro _ _) | split | (dsimp only))

theorem State.areasRead_ok {s : State} (hok : Ok pq s) :
    Ok pq (State.areasRead s) := by
  unfold State.areasRead
  try dsimp only
  repeat' (first
    | with_reducible assumption | with_reducible apply ok_ite | with_reducible apply ok_ite_fst
    | with_reducible apply State.record_ok | (simp only [ok_mk, ok3_eq]) | (intro _ _ _) | (intro _ _) | split
    | (dsimp only))

theorem execEflBlockScan_ok {s : State} (hok : Ok pq s) :
    OutOk pq (execEflBlockScan s) := by
  unfold execEflBlockScan
  try dsimp only
  repeat' (first
    | with_reducible assumption | exact True.intro | with_reducible apply outOk_next | with_reducible apply outOk_ite
    | with_reducible apply ok_ite | with_reducible apply ok_ite_fst | with_reducible apply ok_foldl
    | with_reducible apply ok_foldl_fst | with_reducible apply State.flagRecord_ok
    | with_reducible apply State.eflKick_ok | with_reducible apply State.areaStart_ok
    | with_reducible apply State.areasRead_ok | (simp only [ok_mk, ok3_eq]) | (intro _ _ _) | (intro _ _) | split
    | (dsimp only))

theorem execAonBrownout_ok {s : State} (hok : Ok pq s) :
    OutOk pq (execAonBrownout s) := by
  unfold execAonBrownout
  try dsimp only
  repeat' (first
    | with_reducible assumption | exact True.intro | with_reducible apply outOk_next | with_reducible apply outOk_ite
    | with_reducible apply ok_ite | with_reducible apply ok_ite_fst | with_reducible apply State.draw_ok
    | (with_reducible refine State.draw_ok_of (by assumption) ?_) | with_reducible apply State.flagRecord_ok
    | with_reducible apply State.eraseState_ok | with_reducible apply State.eflErr_ok | (simp only [ok_mk, ok3_eq])
    | (intro _ _ _) | (intro _ _) | split | (dsimp only))

theorem State.brownoutEnd_ok {s : State} (hok : Ok pq s) :
    Ok pq (State.brownoutEnd s) := by
  unfold State.brownoutEnd
  try dsimp only
  repeat' (first
    | with_reducible assumption | with_reducible apply ok_ite | with_reducible apply ok_ite_fst
    | with_reducible apply State.eraseState_ok | with_reducible apply State.eflGo_ok | (simp only [ok_mk, ok3_eq])
    | (intro _ _ _) | (intro _ _) | split | (dsimp only))

theorem State.eflRead_ok {s : State} {addr : Nat} (hok : Ok pq s) :
    Ok pq (State.eflRead s addr).1 := by
  unfold State.eflRead
  try dsimp only
  repeat' (first
    | with_reducible assumption | with_reducible apply ok_ite | with_reducible apply ok_ite_fst
    | with_reducible apply State.draw_ok | (with_reducible refine State.draw_ok_of (by assumption) ?_)
    | with_reducible apply State.flag_ok | (simp only [ok_mk, ok3_eq]) | (intro _ _ _) | (intro _ _) | split
    | (dsimp only))

theorem State.eflRead_ok_of {s : State} {addr : Nat} {t : State} {x : Nat} (e : State.eflRead s addr = (t, x)) (hok : Ok pq s) :
    Ok pq t := by
  rw [show t = (State.eflRead s addr).1 by rw [e]]
  exact State.eflRead_ok hok

theorem State.eflRaddrWrite_ok {s : State} {k : Nat} {w : Word} (hok : Ok pq s) :
    Ok pq (State.eflRaddrWrite s k w) := by
  unfold State.eflRaddrWrite
  try dsimp only
  repeat' (first
    | with_reducible assumption | with_reducible apply State.setOwn_ok | with_reducible apply State.eflRead_ok
    | (with_reducible refine State.eflRead_ok_of (by assumption) ?_) | (simp only [ok_mk, ok3_eq]) | (intro _ _ _)
    | (intro _ _) | split | (dsimp only))

theorem State.recPut_ok {s : State} {addr : Nat} {r : EvRec} (hok : Ok pq s) :
    Ok pq (State.recPut s addr r) := by
  unfold State.recPut
  try dsimp only
  repeat' (first
    | with_reducible assumption | with_reducible apply State.eflPut_ok | (simp only [ok_mk, ok3_eq]) | (intro _ _ _)
    | (intro _ _) | split | (dsimp only))

theorem State.ringHeader_ok {s : State} (hok : Ok pq s) :
    Ok pq (State.ringHeader s) := by
  unfold State.ringHeader
  try dsimp only
  repeat' (first
    | with_reducible assumption | with_reducible apply State.eflPut_ok | (simp only [ok_mk, ok3_eq]) | (intro _ _ _)
    | (intro _ _) | split | (dsimp only))

theorem State.ringOpen_ok {s : State} {t : State} (e : State.ringOpen s = some t) (hok : Ok pq s) :
    Ok pq t := by
  unfold State.ringOpen at e
  try dsimp only at e
  repeat' split at e
  all_goals first | (simp at e; done) | (simp only [Option.some.injEq] at e; subst e)
  repeat' (first
    | with_reducible assumption | with_reducible apply ok_ite | with_reducible apply ok_ite_fst
    | with_reducible apply State.ringHeader_ok | (simp only [ok_mk, ok3_eq]) | (intro _ _ _) | (intro _ _) | split
    | (dsimp only))

theorem State.ringAhead_ok {s : State} (hok : Ok pq s) :
    Ok pq (State.ringAhead s) := by
  unfold State.ringAhead
  try dsimp only
  repeat' (first
    | with_reducible assumption | with_reducible apply ok_ite | with_reducible apply ok_ite_fst
    | with_reducible apply State.eraseAsk_ok | (simp only [ok_mk, ok3_eq]) | (intro _ _ _) | (intro _ _) | split
    | (dsimp only))

theorem State.recWrite_ok {s : State} {r : EvRec} {t : State} (e : State.recWrite s r = some t) (hok : Ok pq s) : Ok pq t := by
  unfold State.recWrite at e
  dsimp only at e
  split at e
  · split at e
    · simp only [Option.some.injEq] at e
      rw [← e, ok_mk, ok3_eq]
      exact State.recPut_ok (State.autoSuspend_ok hok)
    · simp at e
  · simp only [Option.map_eq_some_iff] at e
    obtain ⟨u, hu, rfl⟩ := e
    have h := State.ringOpen_ok hu (State.autoSuspend_ok hok)
    apply State.ringAhead_ok
    rw [ok_mk, ok3_eq]
    exact State.recPut_ok h

theorem State.recDeliver_ok {s : State} {rn : Nat} {r : EvRec} (hok : Ok pq s) :
    Ok pq (State.recDeliver s rn r) := by
  unfold State.recDeliver
  try dsimp only
  repeat' (first
    | with_reducible assumption | with_reducible apply ok_ite | with_reducible apply ok_ite_fst
    | with_reducible apply ok_foldl | with_reducible apply ok_foldl_fst | with_reducible apply State.flag_ok
    | with_reducible apply State.record_ok | with_reducible apply State.noteAlert_ok
    | with_reducible apply State.logEvent_ok | (simp only [ok_mk, ok3_eq]) | (intro _ _ _) | (intro _ _) | split
    | (dsimp only))

theorem State.lostNote_ok {s : State} (hok : Ok pq s) :
    Ok pq (State.lostNote s) := by
  unfold State.lostNote
  try dsimp only
  repeat' (first
    | with_reducible assumption | with_reducible apply ok_ite | with_reducible apply ok_ite_fst
    | with_reducible apply State.record_ok | (simp only [ok_mk, ok3_eq]) | (intro _ _ _) | (intro _ _) | split
    | (dsimp only))

theorem execEvrRecordWrite_ok {s : State} (hok : Ok pq s) :
    OutOk pq (execEvrRecordWrite s) := by
  unfold execEvrRecordWrite
  try dsimp only
  repeat' (first
    | with_reducible assumption | exact True.intro | with_reducible apply outOk_next | with_reducible apply outOk_ite
    | with_reducible apply ok_ite | with_reducible apply ok_ite_fst
    | (with_reducible refine State.recWrite_ok (by assumption) ?_) | with_reducible apply State.recDeliver_ok
    | with_reducible apply State.lostNote_ok | (simp only [ok_mk, ok3_eq]) | (intro _ _ _) | (intro _ _) | split
    | (dsimp only))

theorem State.evrSubmitDo_ok {s : State} {p3 : Nat} (hok : Ok pq s) :
    Ok pq (State.evrSubmitDo s p3) := by
  unfold State.evrSubmitDo
  try dsimp only
  repeat' (first
    | with_reducible assumption | with_reducible apply State.evrPush_ok | with_reducible apply State.submit_ok
    | (with_reducible refine State.submit_ok_of (by assumption) ?_) | (simp only [ok_mk, ok3_eq]) | (intro _ _ _)
    | (intro _ _) | split | (dsimp only))

theorem State.evrSubmitWrite_ok {s : State} {i : Nat} {w : Word} (hok : Ok pq s) :
    Ok pq (State.evrSubmitWrite s i w) := by
  unfold State.evrSubmitWrite
  try dsimp only
  repeat' (first
    | with_reducible assumption | with_reducible apply ok_ite | with_reducible apply ok_ite_fst
    | with_reducible apply State.submit_ok | (with_reducible refine State.submit_ok_of (by assumption) ?_)
    | with_reducible apply State.evrSubmitDo_ok | (simp only [ok_mk, ok3_eq]) | (intro _ _ _) | (intro _ _) | split
    | (dsimp only))

theorem State.windowRead_ok {s : State} {k : Nat} {n : Nat} (hok : Ok pq s) :
    Ok pq (State.windowRead s k n).1 := by
  unfold State.windowRead
  try dsimp only
  repeat' (first
    | with_reducible assumption | with_reducible apply ok_ite | with_reducible apply ok_ite_fst
    | with_reducible apply State.setOwn_ok | (simp only [ok_mk, ok3_eq]) | (intro _ _ _) | (intro _ _) | split
    | (dsimp only))

theorem State.windowRead_ok_of {s : State} {k : Nat} {n : Nat} {t : State} {x : Word} (e : State.windowRead s k n = (t, x)) (hok : Ok pq s) :
    Ok pq t := by
  rw [show t = (State.windowRead s k n).1 by rw [e]]
  exact State.windowRead_ok hok

theorem execEventNotice_ok {s : State} {queue : Fin 4} (hok : Ok pq s) :
    OutOk pq (execEventNotice queue s) := by
  unfold execEventNotice
  try dsimp only
  repeat' (first
    | with_reducible assumption | exact True.intro | with_reducible apply outOk_next | with_reducible apply outOk_ite
    | with_reducible apply ok_ite | with_reducible apply ok_ite_fst | with_reducible apply State.noticeSend_ok
    | (simp only [ok_mk, ok3_eq]) | (intro _ _ _) | (intro _ _) | split | (dsimp only))

end Sys2Proof.Machine
end

