-- ==== Sys2Proof/Laws/KeepsSec.lean ====
section
/-! SUPPORT. The operations of Machine/Sec.lean keep memory sound and leave the queue alone. -/

namespace Sys2Proof.Machine

set_option linter.unusedVariables false
set_option linter.unusedTactic false
set_option linter.unreachableTactic false

variable {pq : List Instr}

theorem State.railsPut_ok {s : State} {l : List (Nat × Nat)} (hok : Ok pq s) :
    Ok pq (State.railsPut s l) := by
  unfold State.railsPut
  try dsimp only
  repeat' (first
    | with_reducible assumption | with_reducible apply ok_foldl | with_reducible apply ok_foldl_fst
    | with_reducible apply State.setReg_ok | (simp only [ok_mk, ok3_eq]) | (intro _ _ _) | (intro _ _) | split
    | (dsimp only))

theorem State.railsLoad_ok {s : State} (hok : Ok pq s) :
    Ok pq (State.railsLoad s) := by
  unfold State.railsLoad
  try dsimp only
  repeat' (first
    | with_reducible assumption | with_reducible apply ok_ite | with_reducible apply ok_ite_fst
    | with_reducible apply State.setBit_ok | with_reducible apply State.record_ok
    | with_reducible apply State.pwsUp_ok | with_reducible apply State.railsPut_ok | (simp only [ok_mk, ok3_eq])
    | (intro _ _ _) | (intro _ _) | split | (dsimp only))

theorem State.recordLoad_ok {s : State} (hok : Ok pq s) :
    Ok pq (State.recordLoad s) := by
  unfold State.recordLoad
  try dsimp only
  repeat' (first
    | with_reducible assumption | with_reducible apply ok_ite | with_reducible apply ok_ite_fst
    | with_reducible apply State.setReg_ok | with_reducible apply State.setReg64_ok
    | with_reducible apply State.record_ok | (simp only [ok_mk, ok3_eq]) | (intro _ _ _) | (intro _ _) | split
    | (dsimp only))

theorem State.bootFailed_ok {s : State} {b : Bool} {other : Bool} {step : Nat} (hok : Ok pq s) :
    Ok pq (State.bootFailed s b other step) := by
  unfold State.bootFailed
  try dsimp only
  repeat' (first
    | with_reducible assumption | with_reducible apply ok_ite | with_reducible apply ok_ite_fst
    | with_reducible apply State.record_ok | with_reducible apply State.flagRecord_ok
    | with_reducible apply State.modSlot_ok | (simp only [ok_mk, ok3_eq]) | (intro _ _ _) | (intro _ _) | split
    | (dsimp only))

theorem State.factorySlot_ok {s : State} {b : Bool} (hok : Ok pq s) :
    Ok pq (State.factorySlot s b) := by
  unfold State.factorySlot
  try dsimp only
  repeat' (first
    | with_reducible assumption | with_reducible apply State.modSlot_ok | (simp only [ok_mk, ok3_eq]) | (intro _ _ _)
    | (intro _ _) | split | (dsimp only))

theorem State.booted_ok {s : State} {b : Bool} {root : Bool} (hok : Ok pq s) :
    Ok pq (State.booted s b root) := by
  unfold State.booted
  try dsimp only
  repeat' (first
    | with_reducible assumption | with_reducible apply ok_ite | with_reducible apply ok_ite_fst
    | with_reducible apply State.count_ok | with_reducible apply State.slotActive_ok
    | with_reducible apply State.setPhase_ok | with_reducible apply State.recordLoad_ok
    | with_reducible apply State.factorySlot_ok | (simp only [ok_mk, ok3_eq]) | (intro _ _ _) | (intro _ _) | split
    | (dsimp only))

theorem execBootRomStart_ok {s : State} {stepA : Nat} {stepB : Nat} {rootUsed : Bool} {bootSel : Bool} {testEn : Bool} (hok : Ok pq s) :
    OutOk pq (execBootRomStart stepA stepB rootUsed bootSel testEn s) := by
  unfold execBootRomStart
  try dsimp only
  repeat' (first
    | with_reducible assumption | exact True.intro | with_reducible apply outOk_next | with_reducible apply outOk_ite
    | with_reducible apply ok_ite | with_reducible apply ok_ite_fst | with_reducible apply State.flag_ok
    | with_reducible apply State.railsLoad_ok | with_reducible apply State.bootFailed_ok
    | with_reducible apply State.booted_ok | (simp only [ok_mk, ok3_eq]) | (intro _ _ _) | (intro _ _) | split
    | (dsimp only))

theorem execBootConfirmTimeout_ok {s : State} (hok : Ok pq s) :
    OutOk pq (execBootConfirmTimeout s) := by
  unfold execBootConfirmTimeout
  try dsimp only
  repeat' (first
    | with_reducible assumption | exact True.intro | with_reducible apply outOk_next | with_reducible apply outOk_ite
    | with_reducible apply ok_ite | with_reducible apply ok_ite_fst | with_reducible apply State.fwConfirm_ok
    | (simp only [ok_mk, ok3_eq]) | (intro _ _ _) | (intro _ _) | split | (dsimp only))

theorem State.newChallenge_ok {s : State} (hok : Ok pq s) :
    Ok pq (State.newChallenge s) := by
  unfold State.newChallenge
  try dsimp only
  repeat' (first
    | with_reducible assumption | with_reducible apply State.draw_ok
    | (with_reducible refine State.draw_ok_of (by assumption) ?_) | (simp only [ok_mk, ok3_eq]) | (intro _ _ _)
    | (intro _ _) | split | (dsimp only))

theorem State.keysLost_ok {s : State} (hok : Ok pq s) :
    Ok pq (State.keysLost s) := by
  unfold State.keysLost
  try dsimp only
  repeat' (first
    | with_reducible assumption | with_reducible apply ok_ite | with_reducible apply ok_ite_fst
    | (simp only [ok_mk, ok3_eq]) | (intro _ _ _) | (intro _ _) | split | (dsimp only))

theorem execDebugToken_ok {s : State} {valid : Bool} {rma : Bool} (hok : Ok pq s) :
    OutOk pq (execDebugToken valid rma s) := by
  unfold execDebugToken
  try dsimp only
  repeat' (first
    | with_reducible assumption | exact True.intro | with_reducible apply outOk_next | with_reducible apply outOk_ite
    | with_reducible apply ok_ite | with_reducible apply ok_ite_fst | with_reducible apply State.count_ok
    | with_reducible apply State.flag_ok | with_reducible apply State.settle_ok
    | with_reducible apply State.setPhase_ok | with_reducible apply State.leaveService_ok
    | with_reducible apply State.newChallenge_ok | with_reducible apply State.keysLost_ok
    | (simp only [ok_mk, ok3_eq]) | (intro _ _ _) | (intro _ _) | split | (dsimp only))

theorem execPinControlScanLoad_ok {s : State} {_instruction : Nat} (hok : Ok pq s) :
    OutOk pq (execPinControlScanLoad _instruction s) := by
  unfold execPinControlScanLoad
  try dsimp only
  repeat' (first
    | with_reducible assumption | exact True.intro | with_reducible apply outOk_next | with_reducible apply outOk_ite
    | with_reducible apply State.record_ok | (simp only [ok_mk, ok3_eq]) | (intro _ _ _) | (intro _ _) | split
    | (dsimp only))

theorem execEntropyFail_ok {s : State} {passes : Bool} (hok : Ok pq s) :
    OutOk pq (execEntropyFail passes s) := by
  unfold execEntropyFail
  try dsimp only
  repeat' (first
    | with_reducible assumption | exact True.intro | with_reducible apply outOk_next | with_reducible apply outOk_ite
    | with_reducible apply ok_ite | with_reducible apply ok_ite_fst | with_reducible apply State.flag_ok
    | (simp only [ok_mk, ok3_eq]) | (intro _ _ _) | (intro _ _) | split | (dsimp only))

theorem State.modSpdm_ok {s : State} {q : SpdmPath} {f : Spdm → Spdm} (hok : Ok pq s) :
    Ok pq (State.modSpdm s q f) := by
  unfold State.modSpdm
  try dsimp only
  repeat' (first
    | with_reducible assumption | (simp only [ok_mk, ok3_eq]) | (intro _ _ _) | (intro _ _) | split | (dsimp only))

theorem State.spdmSay_ok {s : State} {q : SpdmPath} {code : Nat} {body : List Nat} (hok : Ok pq s) :
    Ok pq (State.spdmSay s q code body) := by
  unfold State.spdmSay
  try dsimp only
  repeat' (first
    | with_reducible assumption | with_reducible apply State.emit_ok | with_reducible apply State.mctpSend_ok
    | (simp only [ok_mk, ok3_eq]) | (intro _ _ _) | (intro _ _) | split | (dsimp only))

theorem State.spdmErr_ok {s : State} {q : SpdmPath} {e : Nat} (hok : Ok pq s) :
    Ok pq (State.spdmErr s q e) := by
  unfold State.spdmErr
  try dsimp only
  repeat' (first
    | with_reducible assumption | with_reducible apply State.spdmSay_ok | (simp only [ok_mk, ok3_eq]) | (intro _ _ _)
    | (intro _ _) | split | (dsimp only))

theorem State.spdmReply_ok {s : State} {q : SpdmPath} {code : Nat} {bytes : Nat} {body : List Nat} (hok : Ok pq s) :
    Ok pq (State.spdmReply s q code bytes body) := by
  unfold State.spdmReply
  try dsimp only
  repeat' (first
    | with_reducible assumption | with_reducible apply ok_ite | with_reducible apply ok_ite_fst
    | with_reducible apply State.modSpdm_ok | with_reducible apply State.spdmSay_ok | (simp only [ok_mk, ok3_eq])
    | (intro _ _ _) | (intro _ _) | split | (dsimp only))

theorem State.spdmNote_ok {s : State} {q : SpdmPath} {l : List Nat} (hok : Ok pq s) :
    Ok pq (State.spdmNote s q l) := by
  unfold State.spdmNote
  try dsimp only
  repeat' (first
    | with_reducible assumption | with_reducible apply State.modSpdm_ok | (simp only [ok_mk, ok3_eq]) | (intro _ _ _)
    | (intro _ _) | split | (dsimp only))

theorem State.spdmSign_ok {s : State} {q : SpdmPath} {nonce : Nat} (hok : Ok pq s) :
    Ok pq (State.spdmSign s q nonce).1 := by
  unfold State.spdmSign
  try dsimp only
  repeat' (first
    | with_reducible assumption | with_reducible apply State.count_ok | (simp only [ok_mk, ok3_eq]) | (intro _ _ _)
    | (intro _ _) | split | (dsimp only))

theorem State.spdmSign_ok_of {s : State} {q : SpdmPath} {nonce : Nat} {t : State} {x : Nat} (e : State.spdmSign s q nonce = (t, x)) (hok : Ok pq s) :
    Ok pq t := by
  rw [show t = (State.spdmSign s q nonce).1 by rw [e]]
  exact State.spdmSign_ok hok

theorem State.challengeReply_ok {s : State} {q : SpdmPath} {nonce : Nat} (hok : Ok pq s) :
    Ok pq (State.challengeReply s q nonce) := by
  unfold State.challengeReply
  try dsimp only
  repeat' (first
    | with_reducible assumption | with_reducible apply State.draw_ok
    | (with_reducible refine State.draw_ok_of (by assumption) ?_) | with_reducible apply State.spdmReply_ok
    | with_reducible apply State.spdmNote_ok | with_reducible apply State.spdmSign_ok
    | (with_reducible refine State.spdmSign_ok_of (by assumption) ?_) | (simp only [ok_mk, ok3_eq]) | (intro _ _ _)
    | (intro _ _) | split | (dsimp only))

theorem State.measureReply_ok {s : State} {q : SpdmPath} {index : Nat} {nonce : Nat} {signed : Bool} (hok : Ok pq s) :
    Ok pq (State.measureReply s q index nonce signed) := by
  unfold State.measureReply
  try dsimp only
  repeat' (first
    | with_reducible assumption | with_reducible apply ok_ite | with_reducible apply ok_ite_fst
    | with_reducible apply State.draw_ok | (with_reducible refine State.draw_ok_of (by assumption) ?_)
    | with_reducible apply State.spdmReply_ok | with_reducible apply State.spdmNote_ok
    | with_reducible apply State.spdmSign_ok | (with_reducible refine State.spdmSign_ok_of (by assumption) ?_)
    | (simp only [ok_mk, ok3_eq]) | (intro _ _ _) | (intro _ _) | split | (dsimp only))

theorem State.signWhen_ok {s : State} {q : SpdmPath} {index : Option Nat} {nonce : Nat} (hok : Ok pq s) :
    Ok pq (State.signWhen s q index nonce) := by
  unfold State.signWhen
  try dsimp only
  repeat' (first
    | with_reducible assumption | with_reducible apply ok_ite | with_reducible apply ok_ite_fst
    | with_reducible apply State.challengeReply_ok | with_reducible apply State.measureReply_ok
    | (simp only [ok_mk, ok3_eq]) | (intro _ _ _) | (intro _ _) | split | (dsimp only))

theorem State.spdmWhen_ok {s : State} {q : SpdmPath} {good : State → State} (hok : Ok pq s) (hgood : ∀ t0, Ok pq t0 → Ok pq (good t0)) :
    Ok pq (State.spdmWhen s q good) := by
  unfold State.spdmWhen
  try dsimp only
  repeat' (first
    | with_reducible assumption | with_reducible apply ok_ite | with_reducible apply ok_ite_fst
    | with_reducible apply State.spdmErr_ok | with_reducible apply hgood | (simp only [ok_mk, ok3_eq]) | (intro _ _ _)
    | (intro _ _) | split | (dsimp only))

theorem State.certReply_ok {s : State} {q : SpdmPath} {slot : Nat} {off : Nat} {len : Nat} (hok : Ok pq s) :
    Ok pq (State.certReply s q slot off len) := by
  unfold State.certReply
  try dsimp only
  repeat' (first
    | with_reducible assumption | with_reducible apply ok_ite | with_reducible apply ok_ite_fst
    | with_reducible apply State.spdmErr_ok | with_reducible apply State.spdmReply_ok
    | with_reducible apply State.spdmNote_ok | (simp only [ok_mk, ok3_eq]) | (intro _ _ _) | (intro _ _) | split
    | (dsimp only))

theorem execGetVersion_ok {s : State} {q : SpdmPath} (hok : Ok pq s) :
    OutOk pq (execGetVersion q s) := by
  unfold execGetVersion
  try dsimp only
  repeat' (first
    | with_reducible assumption | exact True.intro | with_reducible apply outOk_next | with_reducible apply outOk_ite
    | with_reducible apply State.modSpdm_ok | with_reducible apply State.spdmSay_ok | (simp only [ok_mk, ok3_eq])
    | (intro _ _ _) | (intro _ _) | split | (dsimp only))

theorem execGetCapabilities_ok {s : State} {q : SpdmPath} {dataXfer : Nat} (hok : Ok pq s) :
    OutOk pq (execGetCapabilities q dataXfer s) := by
  unfold execGetCapabilities
  try dsimp only
  repeat' (first
    | with_reducible assumption | exact True.intro | with_reducible apply outOk_next | with_reducible apply outOk_ite
    | with_reducible apply ok_ite | with_reducible apply ok_ite_fst | with_reducible apply State.modSpdm_ok
    | with_reducible apply State.spdmSay_ok | with_reducible apply State.spdmErr_ok
    | with_reducible apply State.spdmNote_ok | (simp only [ok_mk, ok3_eq]) | (intro _ _ _) | (intro _ _) | split
    | (dsimp only))

theorem execNegotiateAlgorithms_ok {s : State} {q : SpdmPath} {supported : Bool} (hok : Ok pq s) :
    OutOk pq (execNegotiateAlgorithms q supported s) := by
  unfold execNegotiateAlgorithms
  try dsimp only
  repeat' (first
    | with_reducible assumption | exact True.intro | with_reducible apply outOk_next | with_reducible apply outOk_ite
    | with_reducible apply ok_ite | with_reducible apply ok_ite_fst | with_reducible apply State.modSpdm_ok
    | with_reducible apply State.spdmSay_ok | with_reducible apply State.spdmErr_ok
    | with_reducible apply State.spdmNote_ok | (simp only [ok_mk, ok3_eq]) | (intro _ _ _) | (intro _ _) | split
    | (dsimp only))

theorem execGetDigests_ok {s : State} {q : SpdmPath} (hok : Ok pq s) :
    OutOk pq (execGetDigests q s) := by
  unfold execGetDigests
  try dsimp only
  repeat' (first
    | with_reducible assumption | exact True.intro | with_reducible apply outOk_next | with_reducible apply outOk_ite
    | with_reducible apply State.spdmReply_ok | with_reducible apply State.spdmNote_ok
    | with_reducible apply State.spdmWhen_ok | (simp only [ok_mk, ok3_eq]) | (intro _ _ _) | (intro _ _) | split
    | (dsimp only))

theorem execGetCertificate_ok {s : State} {q : SpdmPath} {slot : Nat} {off : Nat} {len : Nat} (hok : Ok pq s) :
    OutOk pq (execGetCertificate q slot off len s) := by
  unfold execGetCertificate
  try dsimp only
  repeat' (first
    | with_reducible assumption | exact True.intro | with_reducible apply outOk_next | with_reducible apply outOk_ite
    | with_reducible apply State.spdmWhen_ok | with_reducible apply State.certReply_ok | (simp only [ok_mk, ok3_eq])
    | (intro _ _ _) | (intro _ _) | split | (dsimp only))

theorem execChallenge_ok {s : State} {q : SpdmPath} {slot : Nat} {nonce : Nat} (hok : Ok pq s) :
    OutOk pq (execChallenge q slot nonce s) := by
  unfold execChallenge
  try dsimp only
  repeat' (first
    | with_reducible assumption | exact True.intro | with_reducible apply outOk_next | with_reducible apply outOk_ite
    | with_reducible apply ok_ite | with_reducible apply ok_ite_fst | with_reducible apply State.spdmErr_ok
    | with_reducible apply State.signWhen_ok | with_reducible apply State.spdmWhen_ok | (simp only [ok_mk, ok3_eq])
    | (intro _ _ _) | (intro _ _) | split | (dsimp only))

theorem State.measureDo_ok {s : State} {q : SpdmPath} {index : Nat} {nonce : Nat} {signed : Bool} (hok : Ok pq s) :
    Ok pq (State.measureDo s q index nonce signed) := by
  unfold State.measureDo
  try dsimp only
  repeat' (first
    | with_reducible assumption | with_reducible apply ok_ite | with_reducible apply ok_ite_fst
    | with_reducible apply State.spdmErr_ok | with_reducible apply State.measureReply_ok
    | with_reducible apply State.signWhen_ok | (simp only [ok_mk, ok3_eq]) | (intro _ _ _) | (intro _ _) | split
    | (dsimp only))

theorem execGetMeasurements_ok {s : State} {q : SpdmPath} {index : Nat} {nonce : Nat} {signed : Bool} (hok : Ok pq s) :
    OutOk pq (execGetMeasurements q index nonce signed s) := by
  unfold execGetMeasurements
  try dsimp only
  repeat' (first
    | with_reducible assumption | exact True.intro | with_reducible apply outOk_next | with_reducible apply outOk_ite
    | with_reducible apply State.spdmWhen_ok | with_reducible apply State.measureDo_ok | (simp only [ok_mk, ok3_eq])
    | (intro _ _ _) | (intro _ _) | split | (dsimp only))

theorem State.largeRequest_ok {s : State} {q : SpdmPath} {bs : List Byte} (hok : Ok pq s) :
    Ok pq (State.largeRequest s q bs) := by
  unfold State.largeRequest
  try dsimp only
  repeat' (first
    | with_reducible assumption | with_reducible apply ok_ite | with_reducible apply ok_ite_fst
    | with_reducible apply State.spdmErr_ok | with_reducible apply State.spdmReply_ok
    | with_reducible apply State.signWhen_ok | with_reducible apply State.certReply_ok
    | with_reducible apply State.measureDo_ok | (simp only [ok_mk, ok3_eq]) | (intro _ _ _) | (intro _ _) | split
    | (dsimp only))

theorem execChunkSend_ok {s : State} {q : SpdmPath} {chunk : Nat} {data : List Byte} {last : Bool} (hok : Ok pq s) :
    OutOk pq (execChunkSend q chunk data last s) := by
  unfold execChunkSend
  try dsimp only
  repeat' (first
    | with_reducible assumption | exact True.intro | with_reducible apply outOk_next | with_reducible apply outOk_ite
    | with_reducible apply ok_ite | with_reducible apply ok_ite_fst | with_reducible apply State.modSpdm_ok
    | with_reducible apply State.spdmSay_ok | with_reducible apply State.spdmErr_ok
    | with_reducible apply State.spdmWhen_ok | with_reducible apply State.largeRequest_ok
    | (simp only [ok_mk, ok3_eq]) | (intro _ _ _) | (intro _ _) | split | (dsimp only))

theorem execChunkGet_ok {s : State} {q : SpdmPath} {handle : Nat} {chunk : Nat} (hok : Ok pq s) :
    OutOk pq (execChunkGet q handle chunk s) := by
  unfold execChunkGet
  try dsimp only
  repeat' (first
    | with_reducible assumption | exact True.intro | with_reducible apply outOk_next | with_reducible apply outOk_ite
    | with_reducible apply ok_ite | with_reducible apply ok_ite_fst | with_reducible apply State.modSpdm_ok
    | with_reducible apply State.spdmSay_ok | with_reducible apply State.spdmErr_ok
    | with_reducible apply State.spdmWhen_ok | (simp only [ok_mk, ok3_eq]) | (intro _ _ _) | (intro _ _) | split
    | (dsimp only))

theorem State.signWaiting_ok {s : State} (hok : Ok pq s) :
    Ok pq (State.signWaiting s) := by
  unfold State.signWaiting
  try dsimp only
  repeat' (first
    | with_reducible assumption | with_reducible apply ok_foldl | with_reducible apply ok_foldl_fst
    | with_reducible apply State.signWhen_ok | (simp only [ok_mk, ok3_eq]) | (intro _ _ _) | (intro _ _) | split
    | (dsimp only))

theorem execWakeComplete_ok {s : State} {tenthUs : Nat} (hok : Ok pq s) :
    OutOk pq (execWakeComplete tenthUs s) := by
  unfold execWakeComplete
  try dsimp only
  repeat' (first
    | with_reducible assumption | exact True.intro | with_reducible apply outOk_next | with_reducible apply outOk_ite
    | with_reducible apply ok_ite | with_reducible apply ok_ite_fst | with_reducible apply State.setReg_ok
    | with_reducible apply State.flag_ok | with_reducible apply State.record_ok | with_reducible apply State.settle_ok
    | with_reducible apply State.selfRefreshEnd_ok | with_reducible apply State.signWaiting_ok
    | (simp only [ok_mk, ok3_eq]) | (intro _ _ _) | (intro _ _) | split | (dsimp only))

end Sys2Proof.Machine
end

