-- ==== Sys2Proof/Laws/KeepsErrors.lean ====
section
/-! SUPPORT. The operations of Machine/Errors.lean keep memory sound and leave the queue alone. -/

namespace Sys2Proof.Machine

set_option linter.unusedVariables false
set_option linter.unusedTactic false
set_option linter.unreachableTactic false

variable {pq : List Instr}

theorem State.meshLost_ok {s : State} {m : MeshSource} (hok : Ok pq s) :
    Ok pq (State.meshLost s m) := by
  unfold State.meshLost
  try dsimp only
  repeat' (first
    | with_reducible assumption | with_reducible apply State.badRead_ok | with_reducible apply State.sliceBad_ok
    | (simp only [ok_mk, ok3_eq]) | (intro _ _ _) | (intro _ _) | split | (dsimp only))

theorem execMeshParityError_ok {s : State} {_link : Nat} {replays : Nat} {ok : Bool} {lost : Option MeshSource} (hok : Ok pq s) :
    OutOk pq (execMeshParityError _link replays ok lost s) := by
  unfold execMeshParityError
  try dsimp only
  repeat' (first
    | with_reducible assumption | exact True.intro | with_reducible apply outOk_next | with_reducible apply outOk_ite
    | with_reducible apply ok_ite | with_reducible apply ok_ite_fst | with_reducible apply State.countBy_ok
    | with_reducible apply State.err1_ok | with_reducible apply State.settle_ok
    | with_reducible apply State.meshLost_ok | (simp only [ok_mk, ok3_eq]) | (intro _ _ _) | (intro _ _) | split
    | (dsimp only))

theorem execMeshLinkDegraded_ok {s : State} {link : Nat} (hok : Ok pq s) :
    OutOk pq (execMeshLinkDegraded link s) := by
  unfold execMeshLinkDegraded
  try dsimp only
  repeat' (first
    | with_reducible assumption | exact True.intro | with_reducible apply outOk_next | with_reducible apply outOk_ite
    | with_reducible apply ok_ite | with_reducible apply ok_ite_fst | with_reducible apply State.flag_ok
    | with_reducible apply State.err1_ok | (simp only [ok_mk, ok3_eq]) | (intro _ _ _) | (intro _ _) | split
    | (dsimp only))

theorem execEngineIstoreParity_ok {s : State} {engine : Fin 28} {within1s : Bool} (hok : Ok pq s) :
    OutOk pq (execEngineIstoreParity engine within1s s) := by
  unfold execEngineIstoreParity
  try dsimp only
  repeat' (first
    | with_reducible assumption | exact True.intro | with_reducible apply outOk_next | with_reducible apply outOk_ite
    | with_reducible apply ok_ite | with_reducible apply ok_ite_fst | with_reducible apply State.emit_ok
    | with_reducible apply State.err1_ok | with_reducible apply State.settle_ok
    | with_reducible apply State.engineFailed_ok | (simp only [ok_mk, ok3_eq]) | (intro _ _ _) | (intro _ _) | split
    | (dsimp only))

theorem execEngineReloadDone_ok {s : State} {engine : Fin 28} (hok : Ok pq s) :
    OutOk pq (execEngineReloadDone engine s) := by
  unfold execEngineReloadDone
  try dsimp only
  repeat' (first
    | with_reducible assumption | exact True.intro | with_reducible apply outOk_next | with_reducible apply outOk_ite
    | (simp only [ok_mk, ok3_eq]) | (intro _ _ _) | (intro _ _) | split | (dsimp only))

theorem State.descBad_ok {s : State} {region : Nat} (hok : Ok pq s) :
    Ok pq (State.descBad s region) := by
  unfold State.descBad
  try dsimp only
  repeat' (first
    | with_reducible assumption | with_reducible apply ok_ite | with_reducible apply ok_ite_fst
    | with_reducible apply State.flag_ok | with_reducible apply State.err1_ok | with_reducible apply State.post_ok
    | with_reducible apply State.settle_ok | with_reducible apply State.regionState_ok
    | with_reducible apply State.notePhase_ok | (simp only [ok_mk, ok3_eq]) | (intro _ _ _) | (intro _ _) | split
    | (dsimp only))

theorem State.mapLineBad_ok {s : State} {line : Nat} (hok : Ok pq s) :
    Ok pq (State.mapLineBad s line) := by
  unfold State.mapLineBad
  try dsimp only
  repeat' (first
    | with_reducible assumption | with_reducible apply ok_ite | with_reducible apply ok_ite_fst
    | with_reducible apply ok_foldl | with_reducible apply ok_foldl_fst | with_reducible apply State.err1_ok
    | with_reducible apply State.settle_ok | with_reducible apply State.checkFail_ok | (simp only [ok_mk, ok3_eq])
    | (intro _ _ _) | (intro _ _) | split | (dsimp only))

theorem execSramDescriptorError_ok {s : State} {word : SramWord} (hok : Ok pq s) :
    OutOk pq (execSramDescriptorError word s) := by
  unfold execSramDescriptorError
  try dsimp only
  repeat' (first
    | with_reducible assumption | exact True.intro | with_reducible apply outOk_next | with_reducible apply outOk_ite
    | with_reducible apply State.err1_ok | with_reducible apply State.qpEnter_ok
    | with_reducible apply State.settle_ok | with_reducible apply State.descBad_ok
    | with_reducible apply State.mapLineBad_ok | (simp only [ok_mk, ok3_eq]) | (intro _ _ _) | (intro _ _) | split
    | (dsimp only))

theorem execCcMemUncorrectable_ok {s : State} (hok : Ok pq s) :
    OutOk pq (execCcMemUncorrectable s) := by
  unfold execCcMemUncorrectable
  try dsimp only
  repeat' (first
    | with_reducible assumption | exact True.intro | with_reducible apply outOk_next | with_reducible apply outOk_ite
    | with_reducible apply State.flag_ok | with_reducible apply State.err1_ok
    | with_reducible apply State.warmStart_ok | (simp only [ok_mk, ok3_eq]) | (intro _ _ _) | (intro _ _) | split
    | (dsimp only))

theorem execErrorRateWindow_ok {s : State} (hok : Ok pq s) :
    OutOk pq (execErrorRateWindow s) := by
  unfold execErrorRateWindow
  try dsimp only
  repeat' (first
    | with_reducible assumption | exact True.intro | with_reducible apply outOk_next | with_reducible apply outOk_ite
    | (simp only [ok_mk, ok3_eq]) | (intro _ _ _) | (intro _ _) | split | (dsimp only))

end Sys2Proof.Machine
end

