-- ==== Sys2Proof/Laws/KeepsLap.lean ====
section
/-! SUPPORT. The operations of Machine/Lap.lean keep memory sound and leave the queue alone. -/

namespace Sys2Proof.Machine

set_option linter.unusedVariables false
set_option linter.unusedTactic false
set_option linter.unreachableTactic false

variable {pq : List Instr}

theorem State.lapOnes_ok {s : State} {ld : Nat} {tag : Nat} {size : Nat} {ep : Bool} (hok : Ok pq s) :
    Ok pq (State.lapOnes s ld tag size ep) := by
  unfold State.lapOnes
  try dsimp only
  repeat' (first
    | with_reducible assumption | with_reducible apply State.emit_ok | (simp only [ok_mk, ok3_eq]) | (intro _ _ _)
    | (intro _ _) | split | (dsimp only))

theorem State.lapBad_ok {s : State} (hok : Ok pq s) :
    Ok pq (State.lapBad s) := by
  unfold State.lapBad
  try dsimp only
  repeat' (first
    | with_reducible assumption | with_reducible apply State.count_ok | with_reducible apply State.flag_ok
    | (simp only [ok_mk, ok3_eq]) | (intro _ _ _) | (intro _ _) | split | (dsimp only))

theorem State.lapDrop_ok {s : State} (hok : Ok pq s) :
    Ok pq (State.lapDrop s) := by
  unfold State.lapDrop
  try dsimp only
  repeat' (first
    | with_reducible assumption | with_reducible apply State.count_ok | (simp only [ok_mk, ok3_eq]) | (intro _ _ _)
    | (intro _ _) | split | (dsimp only))

theorem execBar2Read_ok {s : State} {ld : Fin 32} {tag : Nat} {off : Nat} {size : Nat} (hok : Ok pq s) :
    OutOk pq (execBar2Read ld tag off size s) := by
  unfold execBar2Read
  try dsimp only
  repeat' (first
    | with_reducible assumption | exact True.intro | with_reducible apply outOk_next | with_reducible apply outOk_ite
    | with_reducible apply ok_ite | with_reducible apply ok_ite_fst | with_reducible apply State.refuse_ok
    | with_reducible apply State.wakeFor_ok | with_reducible apply State.submit_ok
    | (with_reducible refine State.submit_ok_of (by assumption) ?_) | with_reducible apply State.lapOnes_ok
    | with_reducible apply State.lapBad_ok | with_reducible apply State.lapDrop_ok | (simp only [ok_mk, ok3_eq])
    | (intro _ _ _) | (intro _ _) | split | (dsimp only))

theorem execBar2Write_ok {s : State} {ld : Fin 32} {off : Nat} {size : Nat} {data : List Byte} (hok : Ok pq s) :
    OutOk pq (execBar2Write ld off size data s) := by
  unfold execBar2Write
  try dsimp only
  repeat' (first
    | with_reducible assumption | exact True.intro | with_reducible apply outOk_next | with_reducible apply outOk_ite
    | with_reducible apply ok_ite | with_reducible apply ok_ite_fst | with_reducible apply State.flag_ok
    | with_reducible apply State.wakeFor_ok | with_reducible apply State.lapBad_ok
    | with_reducible apply State.lapDrop_ok | (simp only [ok_mk, ok3_eq]) | (intro _ _ _) | (intro _ _) | split
    | (dsimp only))

theorem State.lapRefuse_ok {s : State} {w : LapWr} {e : XStep} (hok : Ok pq s) :
    Ok pq (State.lapRefuse s w e) := by
  unfold State.lapRefuse
  try dsimp only
  repeat' (first
    | with_reducible assumption | with_reducible apply State.refuse_ok | (simp only [ok_mk, ok3_eq]) | (intro _ _ _)
    | (intro _ _) | split | (dsimp only))

theorem execLapStagedApply_ok {s : State} (hok : Ok pq s) :
    OutOk pq (execLapStagedApply s) := by
  unfold execLapStagedApply
  try dsimp only
  repeat' (first
    | with_reducible assumption | exact True.intro | with_reducible apply outOk_next | with_reducible apply outOk_ite
    | with_reducible apply ok_ite | with_reducible apply ok_ite_fst | with_reducible apply State.submit_ok
    | (with_reducible refine State.submit_ok_of (by assumption) ?_) | with_reducible apply State.cbRefuse_ok
    | with_reducible apply State.lapRefuse_ok | (simp only [ok_mk, ok3_eq]) | (intro _ _ _) | (intro _ _) | split
    | (dsimp only))

theorem State.lapCommitDo_ok {s : State} {k : Nat} (hok : Ok pq s) :
    Ok pq (State.lapCommitDo s k) := by
  unfold State.lapCommitDo
  try dsimp only
  repeat' (first
    | with_reducible assumption | with_reducible apply ok_ite | with_reducible apply ok_ite_fst
    | with_reducible apply State.count_ok | with_reducible apply State.emit_ok | (simp only [ok_mk, ok3_eq])
    | (intro _ _ _) | (intro _ _) | split | (dsimp only))

theorem execLapCommitReturn_ok {s : State} (hok : Ok pq s) :
    OutOk pq (execLapCommitReturn s) := by
  unfold execLapCommitReturn
  try dsimp only
  repeat' (first
    | with_reducible assumption | exact True.intro | with_reducible apply outOk_next | with_reducible apply outOk_ite
    | with_reducible apply ok_ite | with_reducible apply ok_ite_fst | with_reducible apply State.count_ok
    | with_reducible apply State.emit_ok | with_reducible apply State.flag_ok | (simp only [ok_mk, ok3_eq])
    | (intro _ _ _) | (intro _ _) | split | (dsimp only))

theorem State.lapBaseDo_ok {s : State} {w : Word} (hok : Ok pq s) :
    Ok pq (State.lapBaseDo s w) := by
  unfold State.lapBaseDo
  try dsimp only
  repeat' (first
    | with_reducible assumption | with_reducible apply ok_ite | with_reducible apply ok_ite_fst
    | with_reducible apply State.setReg_ok | with_reducible apply State.count_ok | with_reducible apply State.flag_ok
    | (simp only [ok_mk, ok3_eq]) | (intro _ _ _) | (intro _ _) | split | (dsimp only))

end Sys2Proof.Machine
end

