-- ==== Sys2Proof/Laws/KeepsTq.lean ====
section
/-! SUPPORT. The operations of Machine/Tq.lean keep memory sound and leave the queue alone. -/

namespace Sys2Proof.Machine

set_option linter.unusedVariables false
set_option linter.unusedTactic false
set_option linter.unreachableTactic false

variable {pq : List Instr}

theorem execSqDoorbell_ok {s : State} {sq : Fin 4096} (hok : Ok pq s) :
    OutOk pq (execSqDoorbell sq s) := by
  unfold execSqDoorbell
  try dsimp only
  repeat' (first
    | with_reducible assumption | exact True.intro | with_reducible apply outOk_next | with_reducible apply outOk_ite
    | with_reducible apply State.ringBell_ok | with_reducible apply State.settle_ok | (simp only [ok_mk, ok3_eq])
    | (intro _ _ _) | (intro _ _) | split | (dsimp only))

theorem execFetchResume_ok {s : State} (hok : Ok pq s) :
    OutOk pq (execFetchResume s) := by
  unfold execFetchResume
  try dsimp only
  repeat' (first
    | with_reducible assumption | exact True.intro | with_reducible apply outOk_next | with_reducible apply outOk_ite
    | with_reducible apply State.fetchAll_ok | with_reducible apply State.settle_ok | (simp only [ok_mk, ok3_eq])
    | (intro _ _ _) | (intro _ _) | split | (dsimp only))

theorem State.tqRefuse_ok {s : State} {n : Nat} {c : Cmd} {host : Nat} {a : Nat} {e : XStep} (hok : Ok pq s) :
    Ok pq (State.tqRefuse s n c host a e) := by
  unfold State.tqRefuse
  try dsimp only
  repeat' (first
    | with_reducible assumption | with_reducible apply ok_ite | with_reducible apply ok_ite_fst
    | with_reducible apply State.refuse_ok | with_reducible apply State.tqOpen_ok
    | with_reducible apply State.settle_ok | (simp only [ok_mk, ok3_eq]) | (intro _ _ _) | (intro _ _) | split
    | (dsimp only))

theorem State.tqStart_ok {s : State} {sq : Nat} {pos : Nat} {opcode : Nat} {go : State → Nat → Cmd → Nat → State} (hok : Ok pq s) (hgo : ∀ t0 t1 t2 t3, Ok pq t0 → Ok pq (go t0 t1 t2 t3)) :
    Ok pq (State.tqStart s sq pos opcode go) := by
  unfold State.tqStart
  try dsimp only
  repeat' (first
    | with_reducible assumption | with_reducible apply ok_ite | with_reducible apply ok_ite_fst
    | with_reducible apply State.tqOpen_ok | with_reducible apply State.settle_ok | with_reducible apply hgo
    | (simp only [ok_mk, ok3_eq]) | (intro _ _ _) | (intro _ _) | split | (dsimp only))

theorem State.tqStage_ok {s : State} {n : Nat} {st : CmdStage} (hok : Ok pq s) :
    Ok pq (State.tqStage s n st) := by
  unfold State.tqStage
  try dsimp only
  repeat' (first
    | with_reducible assumption | with_reducible apply State.modCmd_ok | (simp only [ok_mk, ok3_eq]) | (intro _ _ _)
    | (intro _ _) | split | (dsimp only))

theorem State.tqCbNote_ok {s : State} {host : Nat} {a : Nat} {len : Nat} (hok : Ok pq s) :
    Ok pq (State.tqCbNote s host a len) := by
  unfold State.tqCbNote
  try dsimp only
  repeat' (first
    | with_reducible assumption | with_reducible apply ok_ite | with_reducible apply ok_ite_fst
    | with_reducible apply State.cbRefuse_ok | (simp only [ok_mk, ok3_eq]) | (intro _ _ _) | (intro _ _) | split
    | (dsimp only))

theorem State.copyGo_ok {s : State} {n : Nat} {c : Cmd} {host : Nat} (hok : Ok pq s) :
    Ok pq (State.copyGo s n c host) := by
  unfold State.copyGo
  try dsimp only
  repeat' (first
    | with_reducible assumption | with_reducible apply ok_ite | with_reducible apply ok_ite_fst
    | with_reducible apply State.modCmd_ok | with_reducible apply State.tqRead_ok
    | with_reducible apply State.settle_ok | with_reducible apply State.tqRefuse_ok
    | with_reducible apply State.tqCbNote_ok | (simp only [ok_mk, ok3_eq]) | (intro _ _ _) | (intro _ _) | split
    | (dsimp only))

theorem execTqCopy_ok {s : State} {sq : Fin 4096} {pos : Nat} (hok : Ok pq s) :
    OutOk pq (execTqCopy sq pos s) := by
  unfold execTqCopy
  try dsimp only
  repeat' (first
    | with_reducible assumption | exact True.intro | with_reducible apply outOk_next | with_reducible apply outOk_ite
    | with_reducible apply State.tqStart_ok | with_reducible apply State.copyGo_ok | (simp only [ok_mk, ok3_eq])
    | (intro _ _ _) | (intro _ _) | split | (dsimp only))

theorem State.fillGo_ok {s : State} {n : Nat} {c : Cmd} {host : Nat} (hok : Ok pq s) :
    Ok pq (State.fillGo s n c host) := by
  unfold State.fillGo
  try dsimp only
  repeat' (first
    | with_reducible assumption | with_reducible apply State.modCmd_ok | with_reducible apply State.tqAsk_ok
    | with_reducible apply State.settle_ok | with_reducible apply State.tqRefuse_ok
    | with_reducible apply State.tqCbNote_ok | (simp only [ok_mk, ok3_eq]) | (intro _ _ _) | (intro _ _) | split
    | (dsimp only))

theorem execTqFill_ok {s : State} {sq : Fin 4096} {pos : Nat} (hok : Ok pq s) :
    OutOk pq (execTqFill sq pos s) := by
  unfold execTqFill
  try dsimp only
  repeat' (first
    | with_reducible assumption | exact True.intro | with_reducible apply outOk_next | with_reducible apply outOk_ite
    | with_reducible apply State.tqStart_ok | with_reducible apply State.fillGo_ok | (simp only [ok_mk, ok3_eq])
    | (intro _ _ _) | (intro _ _) | split | (dsimp only))

theorem State.notePut_ok {s : State} {n : Nat} {c : Cmd} {cq : Nat} {x : Cq} (hok : Ok pq s) :
    Ok pq (State.notePut s n c cq x) := by
  unfold State.notePut
  try dsimp only
  repeat' (first
    | with_reducible assumption | with_reducible apply ok_ite | with_reducible apply ok_ite_fst
    | with_reducible apply State.modCmd_ok | with_reducible apply State.seqAsk_ok
    | (with_reducible refine State.seqAsk_ok_of (by assumption) ?_) | with_reducible apply State.seqDone_ok
    | with_reducible apply State.settle_ok | with_reducible apply State.tqStage_ok | (simp only [ok_mk, ok3_eq])
    | (intro _ _ _) | (intro _ _) | split | (dsimp only))

theorem State.notifyGo_ok {s : State} {n : Nat} {c : Cmd} {host : Nat} (hok : Ok pq s) :
    Ok pq (State.notifyGo s n c host) := by
  unfold State.notifyGo
  try dsimp only
  repeat' (first
    | with_reducible assumption | with_reducible apply ok_ite | with_reducible apply ok_ite_fst
    | with_reducible apply State.tqRefuse_ok | with_reducible apply State.notePut_ok | (simp only [ok_mk, ok3_eq])
    | (intro _ _ _) | (intro _ _) | split | (dsimp only))

theorem execTqPersistNotify_ok {s : State} {sq : Fin 4096} {pos : Nat} (hok : Ok pq s) :
    OutOk pq (execTqPersistNotify sq pos s) := by
  unfold execTqPersistNotify
  try dsimp only
  repeat' (first
    | with_reducible assumption | exact True.intro | with_reducible apply outOk_next | with_reducible apply outOk_ite
    | with_reducible apply ok_ite | with_reducible apply ok_ite_fst | with_reducible apply State.tqStart_ok
    | with_reducible apply State.notifyGo_ok | (simp only [ok_mk, ok3_eq]) | (intro _ _ _) | (intro _ _) | split
    | (dsimp only))

theorem State.crcGo_ok {s : State} {n : Nat} {c : Cmd} {host : Nat} (hok : Ok pq s) :
    Ok pq (State.crcGo s n c host) := by
  unfold State.crcGo
  try dsimp only
  repeat' (first
    | with_reducible assumption | with_reducible apply State.modCmd_ok | with_reducible apply State.settle_ok
    | with_reducible apply State.tqRefuse_ok | (simp only [ok_mk, ok3_eq]) | (intro _ _ _) | (intro _ _) | split
    | (dsimp only))

theorem execTqCrcCheck_ok {s : State} {sq : Fin 4096} {pos : Nat} (hok : Ok pq s) :
    OutOk pq (execTqCrcCheck sq pos s) := by
  unfold execTqCrcCheck
  try dsimp only
  repeat' (first
    | with_reducible assumption | exact True.intro | with_reducible apply outOk_next | with_reducible apply outOk_ite
    | with_reducible apply State.tqStart_ok | with_reducible apply State.crcGo_ok | (simp only [ok_mk, ok3_eq])
    | (intro _ _ _) | (intro _ _) | split | (dsimp only))

theorem State.prefetchTile_ok {s : State} {n : Nat} {tile : Nat} (hok : Ok pq s) :
    Ok pq (State.prefetchTile s n tile) := by
  unfold State.prefetchTile
  try dsimp only
  repeat' (first
    | with_reducible assumption | with_reducible apply ok_ite | with_reducible apply ok_ite_fst
    | with_reducible apply State.modMove_ok | with_reducible apply State.cmdTile_ok
    | with_reducible apply State.startMove_ok | (simp only [ok_mk, ok3_eq]) | (intro _ _ _) | (intro _ _) | split
    | (dsimp only))

theorem State.prefetchGo_ok {s : State} {n : Nat} {c : Cmd} {host : Nat} (hok : Ok pq s) :
    Ok pq (State.prefetchGo s n c host) := by
  unfold State.prefetchGo
  try dsimp only
  repeat' (first
    | with_reducible assumption | with_reducible apply ok_foldl | with_reducible apply ok_foldl_fst
    | with_reducible apply State.modCmd_ok | with_reducible apply State.settle_ok
    | with_reducible apply State.tqRefuse_ok | with_reducible apply State.prefetchTile_ok
    | (simp only [ok_mk, ok3_eq]) | (intro _ _ _) | (intro _ _) | split | (dsimp only))

theorem execTqPrefetch_ok {s : State} {sq : Fin 4096} {pos : Nat} (hok : Ok pq s) :
    OutOk pq (execTqPrefetch sq pos s) := by
  unfold execTqPrefetch
  try dsimp only
  repeat' (first
    | with_reducible assumption | exact True.intro | with_reducible apply outOk_next | with_reducible apply outOk_ite
    | with_reducible apply State.tqStart_ok | with_reducible apply State.prefetchGo_ok | (simp only [ok_mk, ok3_eq])
    | (intro _ _ _) | (intro _ _) | split | (dsimp only))

theorem State.pinGo_ok {s : State} {n : Nat} {c : Cmd} {host : Nat} (hok : Ok pq s) :
    Ok pq (State.pinGo s n c host) := by
  unfold State.pinGo
  try dsimp only
  repeat' (first
    | with_reducible assumption | with_reducible apply ok_ite | with_reducible apply ok_ite_fst
    | with_reducible apply ok_foldl | with_reducible apply ok_foldl_fst | with_reducible apply State.post_ok
    | with_reducible apply State.modCmd_ok | with_reducible apply State.settle_ok
    | with_reducible apply State.pinFor_ok | with_reducible apply State.tqRefuse_ok | (simp only [ok_mk, ok3_eq])
    | (intro _ _ _) | (intro _ _) | split | (dsimp only))

theorem execTqPin_ok {s : State} {sq : Fin 4096} {pos : Nat} (hok : Ok pq s) :
    OutOk pq (execTqPin sq pos s) := by
  unfold execTqPin
  try dsimp only
  repeat' (first
    | with_reducible assumption | exact True.intro | with_reducible apply outOk_next | with_reducible apply outOk_ite
    | with_reducible apply State.tqStart_ok | with_reducible apply State.pinGo_ok | (simp only [ok_mk, ok3_eq])
    | (intro _ _ _) | (intro _ _) | split | (dsimp only))

theorem State.unpinGo_ok {s : State} {n : Nat} {c : Cmd} {host : Nat} (hok : Ok pq s) :
    Ok pq (State.unpinGo s n c host) := by
  unfold State.unpinGo
  try dsimp only
  repeat' (first
    | with_reducible assumption | with_reducible apply State.tqFinish_ok | with_reducible apply State.settle_ok
    | with_reducible apply State.bothNow_ok | with_reducible apply State.tqRefuse_ok | (simp only [ok_mk, ok3_eq])
    | (intro _ _ _) | (intro _ _) | split | (dsimp only))

theorem execTqUnpin_ok {s : State} {sq : Fin 4096} {pos : Nat} (hok : Ok pq s) :
    OutOk pq (execTqUnpin sq pos s) := by
  unfold execTqUnpin
  try dsimp only
  repeat' (first
    | with_reducible assumption | exact True.intro | with_reducible apply outOk_next | with_reducible apply outOk_ite
    | with_reducible apply State.tqStart_ok | with_reducible apply State.unpinGo_ok | (simp only [ok_mk, ok3_eq])
    | (intro _ _ _) | (intro _ _) | split | (dsimp only))

theorem State.takeUp_ok {s : State} {n : Nat} {id : Nat} {p : Progress} (hok : Ok pq s) :
    Ok pq (State.takeUp s n id p) := by
  unfold State.takeUp
  try dsimp only
  repeat' (first
    | with_reducible assumption | with_reducible apply ok_ite | with_reducible apply ok_ite_fst
    | with_reducible apply State.tqStage_ok | (simp only [ok_mk, ok3_eq]) | (intro _ _ _) | (intro _ _) | split
    | (dsimp only))

theorem State.sanitizeGo_ok {s : State} {n : Nat} {c : Cmd} {host : Nat} (hok : Ok pq s) :
    Ok pq (State.sanitizeGo s n c host) := by
  unfold State.sanitizeGo
  try dsimp only
  repeat' (first
    | with_reducible assumption | with_reducible apply ok_ite | with_reducible apply ok_ite_fst
    | with_reducible apply State.tqOpen_ok | with_reducible apply State.settle_ok | with_reducible apply State.both_ok
    | (with_reducible refine State.both_ok_of (by assumption) ?_) | with_reducible apply State.tqRefuse_ok
    | with_reducible apply State.tqStage_ok | with_reducible apply State.takeUp_ok | (simp only [ok_mk, ok3_eq])
    | (intro _ _ _) | (intro _ _) | split | (dsimp only))

theorem execTqSanitize_ok {s : State} {sq : Fin 4096} {pos : Nat} (hok : Ok pq s) :
    OutOk pq (execTqSanitize sq pos s) := by
  unfold execTqSanitize
  try dsimp only
  repeat' (first
    | with_reducible assumption | exact True.intro | with_reducible apply outOk_next | with_reducible apply outOk_ite
    | with_reducible apply State.tqStart_ok | with_reducible apply State.sanitizeGo_ok | (simp only [ok_mk, ok3_eq])
    | (intro _ _ _) | (intro _ _) | split | (dsimp only))

theorem State.formatGo_ok {s : State} {n : Nat} {c : Cmd} {host : Nat} (hok : Ok pq s) :
    Ok pq (State.formatGo s n c host) := by
  unfold State.formatGo
  try dsimp only
  repeat' (first
    | with_reducible assumption | with_reducible apply ok_ite | with_reducible apply ok_ite_fst
    | with_reducible apply State.tqOpen_ok | with_reducible apply State.settle_ok
    | with_reducible apply State.bothNow_ok | with_reducible apply State.tqRefuse_ok
    | with_reducible apply State.tqStage_ok | with_reducible apply State.takeUp_ok | (simp only [ok_mk, ok3_eq])
    | (intro _ _ _) | (intro _ _) | split | (dsimp only))

theorem execTqFormat_ok {s : State} {sq : Fin 4096} {pos : Nat} (hok : Ok pq s) :
    OutOk pq (execTqFormat sq pos s) := by
  unfold execTqFormat
  try dsimp only
  repeat' (first
    | with_reducible assumption | exact True.intro | with_reducible apply outOk_next | with_reducible apply outOk_ite
    | with_reducible apply State.tqStart_ok | with_reducible apply State.formatGo_ok | (simp only [ok_mk, ok3_eq])
    | (intro _ _ _) | (intro _ _) | split | (dsimp only))

theorem State.epochAdvance_ok {s : State} {id : Nat} {more : List Change} (hok : Ok pq s) :
    Ok pq (State.epochAdvance s id more) := by
  unfold State.epochAdvance
  try dsimp only
  repeat' (first
    | with_reducible assumption | with_reducible apply State.draw_ok
    | (with_reducible refine State.draw_ok_of (by assumption) ?_) | with_reducible apply State.both_ok
    | (with_reducible refine State.both_ok_of (by assumption) ?_) | (simp only [ok_mk, ok3_eq]) | (intro _ _ _)
    | (intro _ _) | split | (dsimp only))

theorem State.unmapRegion_ok {s : State} {id : Nat} {p : Progress} (hok : Ok pq s) :
    Ok pq (State.unmapRegion s id p) := by
  unfold State.unmapRegion
  try dsimp only
  repeat' (first
    | with_reducible assumption | with_reducible apply ok_foldl | with_reducible apply ok_foldl_fst
    | with_reducible apply State.bothNow_ok | (simp only [ok_mk, ok3_eq]) | (intro _ _ _) | (intro _ _) | split
    | (dsimp only))

theorem State.progressEnd_ok {s : State} {id : Nat} {n : Nat} {c : Cmd} (hok : Ok pq s) :
    Ok pq (State.progressEnd s id n c) := by
  unfold State.progressEnd
  try dsimp only
  repeat' (first
    | with_reducible assumption | with_reducible apply State.tqOpen_ok | with_reducible apply State.settle_ok
    | with_reducible apply State.bothNow_ok | (simp only [ok_mk, ok3_eq]) | (intro _ _ _) | (intro _ _) | split
    | (dsimp only))

theorem State.scrubStep_ok {s : State} {id : Nat} {p : Progress} (hok : Ok pq s) :
    Ok pq (State.scrubStep s id p) := by
  unfold State.scrubStep
  try dsimp only
  repeat' (first
    | with_reducible assumption | with_reducible apply ok_ite | with_reducible apply ok_ite_fst
    | with_reducible apply State.scrubRelease_ok | with_reducible apply State.settle_ok
    | with_reducible apply State.both_ok | (with_reducible refine State.both_ok_of (by assumption) ?_)
    | with_reducible apply State.progressEnd_ok | (simp only [ok_mk, ok3_eq]) | (intro _ _ _) | (intro _ _) | split
    | (dsimp only))

theorem execSanitizePhaseComplete_ok {s : State} {region : Fin 4096} (hok : Ok pq s) :
    OutOk pq (execSanitizePhaseComplete region s) := by
  unfold execSanitizePhaseComplete
  try dsimp only
  repeat' (first
    | with_reducible assumption | exact True.intro | with_reducible apply outOk_next | with_reducible apply outOk_ite
    | with_reducible apply ok_ite | with_reducible apply ok_ite_fst | with_reducible apply State.settle_ok
    | with_reducible apply State.epochAdvance_ok | with_reducible apply State.unmapRegion_ok
    | with_reducible apply State.scrubStep_ok | (simp only [ok_mk, ok3_eq]) | (intro _ _ _) | (intro _ _) | split
    | (dsimp only))

theorem execFormatStepComplete_ok {s : State} {region : Fin 4096} (hok : Ok pq s) :
    OutOk pq (execFormatStepComplete region s) := by
  unfold execFormatStepComplete
  try dsimp only
  repeat' (first
    | with_reducible assumption | exact True.intro | with_reducible apply outOk_next | with_reducible apply outOk_ite
    | with_reducible apply ok_ite | with_reducible apply ok_ite_fst | with_reducible apply State.settle_ok
    | with_reducible apply State.bothNow_ok | with_reducible apply State.progressEnd_ok | (simp only [ok_mk, ok3_eq])
    | (intro _ _ _) | (intro _ _) | split | (dsimp only))

theorem execSanitizeFormatResume_ok {s : State} {region : Fin 4096} (hok : Ok pq s) :
    OutOk pq (execSanitizeFormatResume region s) := by
  unfold execSanitizeFormatResume
  try dsimp only
  repeat' (first
    | with_reducible assumption | exact True.intro | with_reducible apply outOk_next | with_reducible apply outOk_ite
    | with_reducible apply ok_ite | with_reducible apply ok_ite_fst | with_reducible apply State.takeUp_ok
    | (simp only [ok_mk, ok3_eq]) | (intro _ _ _) | (intro _ _) | split | (dsimp only))

theorem execTqCommandComplete_ok {s : State} {sq : Fin 4096} {pos : Nat} (hok : Ok pq s) :
    OutOk pq (execTqCommandComplete sq pos s) := by
  unfold execTqCommandComplete
  try dsimp only
  repeat' (first
    | with_reducible assumption | exact True.intro | with_reducible apply outOk_next | with_reducible apply outOk_ite
    | with_reducible apply ok_ite | with_reducible apply ok_ite_fst | with_reducible apply State.count_ok
    | with_reducible apply State.seqDone_ok | with_reducible apply State.settle_ok | (simp only [ok_mk, ok3_eq])
    | (intro _ _ _) | (intro _ _) | split | (dsimp only))

theorem execCqConsAdvance_ok {s : State} {cq : Fin 4096} (hok : Ok pq s) :
    OutOk pq (execCqConsAdvance cq s) := by
  unfold execCqConsAdvance
  try dsimp only
  repeat' (first
    | with_reducible assumption | exact True.intro | with_reducible apply outOk_next | with_reducible apply outOk_ite
    | with_reducible apply ok_foldl | with_reducible apply ok_foldl_fst | with_reducible apply State.cqPump_ok
    | with_reducible apply State.settle_ok | with_reducible apply State.notifyGo_ok | (simp only [ok_mk, ok3_eq])
    | (intro _ _ _) | (intro _ _) | split | (dsimp only))

theorem execNotifyCoalesceExpiry_ok {s : State} {cq : Fin 4096} (hok : Ok pq s) :
    OutOk pq (execNotifyCoalesceExpiry cq s) := by
  unfold execNotifyCoalesceExpiry
  try dsimp only
  repeat' (first
    | with_reducible assumption | exact True.intro | with_reducible apply outOk_next | with_reducible apply outOk_ite
    | with_reducible apply State.cqSignal_ok | (simp only [ok_mk, ok3_eq]) | (intro _ _ _) | (intro _ _) | split
    | (dsimp only))

theorem State.crcLoad_ok {s : State} (hok : Ok pq s) :
    Ok pq (State.crcLoad s) := by
  unfold State.crcLoad
  try dsimp only
  repeat' (first
    | with_reducible assumption | with_reducible apply State.setReg64_ok | (simp only [ok_mk, ok3_eq]) | (intro _ _ _)
    | (intro _ _) | split | (dsimp only))

theorem State.crcFeed_ok {s : State} {bs : List Byte} (hok : Ok pq s) :
    Ok pq (State.crcFeed s bs) := by
  unfold State.crcFeed
  try dsimp only
  repeat' (first
    | with_reducible assumption | with_reducible apply ok_foldl | with_reducible apply ok_foldl_fst
    | with_reducible apply State.setReg64_ok | (simp only [ok_mk, ok3_eq]) | (intro _ _ _) | (intro _ _) | split
    | (dsimp only))

end Sys2Proof.Machine
end

