-- ==== Sys2Proof/Laws/KeepsRegFx.lean ====
section
/-! SUPPORT. The operations of Machine/RegFx.lean keep memory sound and leave the queue alone. -/

namespace Sys2Proof.Machine

set_option linter.unusedVariables false
set_option linter.unusedTactic false
set_option linter.unreachableTactic false

variable {pq : List Instr}

theorem State.setOwn64_ok {s : State} {k : Nat} {lo : Nat} {v : Nat} (hok : Ok pq s) :
    Ok pq (State.setOwn64 s k lo v) := by
  unfold State.setOwn64
  try dsimp only
  repeat' (first
    | with_reducible assumption | with_reducible apply State.setOwn_ok | (simp only [ok_mk, ok3_eq]) | (intro _ _ _)
    | (intro _ _) | split | (dsimp only))

theorem State.selRegion_ok {s : State} {k : Nat} {id : Nat} (hok : Ok pq s) :
    Ok pq (State.selRegion s k id) := by
  unfold State.selRegion
  try dsimp only
  repeat' (first
    | with_reducible assumption | with_reducible apply State.setOwn_ok | with_reducible apply State.onAck_ok
    | with_reducible apply State.setOwn64_ok | (simp only [ok_mk, ok3_eq]) | (intro _ _ _) | (intro _ _) | split
    | (dsimp only))

theorem State.selSq_ok {s : State} {k : Nat} {n : Nat} (hok : Ok pq s) :
    Ok pq (State.selSq s k n) := by
  unfold State.selSq
  try dsimp only
  repeat' (first
    | with_reducible assumption | with_reducible apply State.setOwn_ok | with_reducible apply State.setOwn64_ok
    | (simp only [ok_mk, ok3_eq]) | (intro _ _ _) | (intro _ _) | split | (dsimp only))

theorem State.selCq_ok {s : State} {k : Nat} {n : Nat} (hok : Ok pq s) :
    Ok pq (State.selCq s k n) := by
  unfold State.selCq
  try dsimp only
  repeat' (first
    | with_reducible assumption | with_reducible apply State.setOwn_ok | with_reducible apply State.setOwn64_ok
    | (simp only [ok_mk, ok3_eq]) | (intro _ _ _) | (intro _ _) | split | (dsimp only))

theorem State.selPlc_ok {s : State} {k : Nat} {id : Nat} (hok : Ok pq s) :
    Ok pq (State.selPlc s k id) := by
  unfold State.selPlc
  try dsimp only
  repeat' (first
    | with_reducible assumption | with_reducible apply State.setOwn_ok | (simp only [ok_mk, ok3_eq]) | (intro _ _ _)
    | (intro _ _) | split | (dsimp only))

theorem State.selTile_ok {s : State} {k : Nat} {lo : Nat} {hi : Nat} (hok : Ok pq s) :
    Ok pq (State.selTile s k lo hi) := by
  unfold State.selTile
  try dsimp only
  repeat' (first
    | with_reducible assumption | with_reducible apply State.setOwn_ok | with_reducible apply State.setOwn64_ok
    | (simp only [ok_mk, ok3_eq]) | (intro _ _ _) | (intro _ _) | split | (dsimp only))

theorem State.selSet_ok {s : State} {k : Nat} {n : Nat} (hok : Ok pq s) :
    Ok pq (State.selSet s k n) := by
  unfold State.selSet
  try dsimp only
  repeat' (first
    | with_reducible assumption | with_reducible apply ok_ite | with_reducible apply ok_ite_fst
    | with_reducible apply State.setOwn_ok | (simp only [ok_mk, ok3_eq]) | (intro _ _ _) | (intro _ _) | split
    | (dsimp only))

theorem State.selKey_ok {s : State} {k : Nat} {id : Nat} (hok : Ok pq s) :
    Ok pq (State.selKey s k id) := by
  unfold State.selKey
  try dsimp only
  repeat' (first
    | with_reducible assumption | with_reducible apply State.setOwn_ok | (simp only [ok_mk, ok3_eq]) | (intro _ _ _)
    | (intro _ _) | split | (dsimp only))

theorem State.selBlock_ok {s : State} {k : Nat} {b : Nat} (hok : Ok pq s) :
    Ok pq (State.selBlock s k b) := by
  unfold State.selBlock
  try dsimp only
  repeat' (first
    | with_reducible assumption | with_reducible apply State.setOwn_ok | (simp only [ok_mk, ok3_eq]) | (intro _ _ _)
    | (intro _ _) | split | (dsimp only))

theorem State.selWrite_ok {s : State} {k : Nat} {off : Nat} {w : Word} (hok : Ok pq s) :
    Ok pq (State.selWrite s k off w) := by
  unfold State.selWrite
  try dsimp only
  repeat' (first
    | with_reducible assumption | with_reducible apply ok_ite | with_reducible apply ok_ite_fst
    | with_reducible apply State.setOwn_ok | with_reducible apply State.eflOther_ok
    | with_reducible apply State.eflRaddrWrite_ok | with_reducible apply State.selRegion_ok
    | with_reducible apply State.selSq_ok | with_reducible apply State.selCq_ok | with_reducible apply State.selPlc_ok
    | with_reducible apply State.selSet_ok | with_reducible apply State.selKey_ok
    | with_reducible apply State.selBlock_ok | (simp only [ok_mk, ok3_eq]) | (intro _ _ _) | (intro _ _) | split
    | (dsimp only))

theorem State.fxCx_ok {s : State} {off : Nat} {old : Word} {new : Word} {val : Word} (hok : Ok pq s) :
    Ok pq (State.fxCx s off old new val) := by
  unfold State.fxCx
  try dsimp only
  repeat' (first
    | with_reducible assumption | with_reducible apply ok_ite | with_reducible apply ok_ite_fst
    | with_reducible apply ok_foldl | with_reducible apply ok_foldl_fst | with_reducible apply State.wakeFor_ok
    | with_reducible apply State.drainTx_ok | with_reducible apply State.linkEnable_ok
    | with_reducible apply State.netDown_ok | with_reducible apply State.quietEnter_ok | (simp only [ok_mk, ok3_eq])
    | (intro _ _ _) | (intro _ _) | split | (dsimp only))

theorem State.fxData_ok {s : State} {off : Nat} {val : Word} (hok : Ok pq s) :
    Ok pq (State.fxData s off val) := by
  unfold State.fxData
  try dsimp only
  repeat' (first
    | with_reducible assumption | with_reducible apply ok_ite | with_reducible apply ok_ite_fst
    | with_reducible apply State.ringBell_ok | with_reducible apply State.maintStart_ok
    | with_reducible apply State.crcLoad_ok | with_reducible apply State.crcFeed_ok | (simp only [ok_mk, ok3_eq])
    | (intro _ _ _) | (intro _ _) | split | (dsimp only))

theorem State.fxDmc_ok {s : State} {off : Nat} {old : Word} {new : Word} {val : Word} (hok : Ok pq s) :
    Ok pq (State.fxDmc s off old new val) := by
  unfold State.fxDmc
  try dsimp only
  repeat' (first
    | with_reducible assumption | with_reducible apply ok_ite | with_reducible apply ok_ite_fst
    | with_reducible apply State.selfRefresh_ok | with_reducible apply State.selfRefreshEnd_ok
    | with_reducible apply State.trainStart_ok | with_reducible apply State.chiveEnable_ok
    | with_reducible apply State.chiveDisable_ok | with_reducible apply State.scrubBegin_ok
    | with_reducible apply State.scrubHalt_ok | (simp only [ok_mk, ok3_eq]) | (intro _ _ _) | (intro _ _) | split
    | (dsimp only))

theorem State.twnCmd_ok {s : State} {val : Word} (hok : Ok pq s) :
    Ok pq (State.twnCmd s val) := by
  unfold State.twnCmd
  try dsimp only
  repeat' (first
    | with_reducible assumption | with_reducible apply ok_ite | with_reducible apply ok_ite_fst
    | with_reducible apply State.releaseAsk_ok | with_reducible apply State.retrainCmd_ok
    | with_reducible apply State.forceTakeover_ok | with_reducible apply State.fenceCmd_ok
    | (simp only [ok_mk, ok3_eq]) | (intro _ _ _) | (intro _ _) | split | (dsimp only))

theorem State.fxTwin_ok {s : State} {off : Nat} {old : Word} {new : Word} {val : Word} (hok : Ok pq s) :
    Ok pq (State.fxTwin s off old new val) := by
  unfold State.fxTwin
  try dsimp only
  repeat' (first
    | with_reducible assumption | with_reducible apply ok_ite | with_reducible apply ok_ite_fst
    | with_reducible apply State.sendUnsent_ok | with_reducible apply State.arbAdvance_ok
    | with_reducible apply State.linkEnDo_ok | with_reducible apply State.capStart_ok
    | with_reducible apply State.saveTrigger_ok | with_reducible apply State.twnCmd_ok | (simp only [ok_mk, ok3_eq])
    | (intro _ _ _) | (intro _ _) | split | (dsimp only))

theorem State.fxAon_ok {s : State} {off : Nat} {old : Word} {new : Word} {val : Word} (hok : Ok pq s) :
    Ok pq (State.fxAon s off old new val) := by
  unfold State.fxAon
  try dsimp only
  repeat' (first
    | with_reducible assumption | with_reducible apply ok_ite | with_reducible apply ok_ite_fst
    | with_reducible apply State.poolNote_ok | with_reducible apply State.noteAlert_ok
    | with_reducible apply State.pwsUp_ok | with_reducible apply State.psbNext_ok
    | with_reducible apply State.psbReset_ok | with_reducible apply State.psbGo_ok
    | with_reducible apply State.eflUnlockWrite_ok | with_reducible apply State.eflOther_ok
    | with_reducible apply State.eflCmdWrite_ok | with_reducible apply State.eflAddrWrite_ok
    | with_reducible apply State.eflLoWrite_ok | with_reducible apply State.eflHiWrite_ok
    | with_reducible apply State.evrSubmitWrite_ok | (simp only [ok_mk, ok3_eq]) | (intro _ _ _) | (intro _ _) | split
    | (dsimp only))

theorem State.writeFx_ok {s : State} {off : Nat} {old : Word} {new : Word} {val : Word} (hok : Ok pq s) :
    Ok pq (State.writeFx s off old new val) := by
  unfold State.writeFx
  try dsimp only
  repeat' (first
    | with_reducible assumption | with_reducible apply ok_ite | with_reducible apply ok_ite_fst
    | with_reducible apply State.openAll_ok | with_reducible apply State.settle_ok
    | with_reducible apply State.fxCx_ok | with_reducible apply State.fxData_ok | with_reducible apply State.fxDmc_ok
    | with_reducible apply State.fxTwin_ok | with_reducible apply State.fxAon_ok | (simp only [ok_mk, ok3_eq])
    | (intro _ _ _) | (intro _ _) | split | (dsimp only))

end Sys2Proof.Machine
end

