-- ==== Sys2Proof/Laws/KeepsRegBus.lean ====
section
/-! SUPPORT. The operations of Machine/RegBus.lean keep memory sound and leave the queue alone. -/

namespace Sys2Proof.Machine

set_option linter.unusedVariables false
set_option linter.unusedTactic false
set_option linter.unreachableTactic false

variable {pq : List Instr}

theorem State.barWake_ok {s : State} {p : RegPath} (hok : Ok pq s) :
    Ok pq (State.barWake s p).1 := by
  unfold State.barWake
  try dsimp only
  repeat' (first
    | with_reducible assumption | with_reducible apply State.wakeFor_ok | (simp only [ok_mk, ok3_eq]) | (intro _ _ _)
    | (intro _ _) | split | (dsimp only))

theorem State.barWake_ok_of {s : State} {p : RegPath} {t : State} {x : Bool} (e : State.barWake s p = (t, x)) (hok : Ok pq s) :
    Ok pq t := by
  rw [show t = (State.barWake s p).1 by rw [e]]
  exact State.barWake_ok hok

theorem State.gatedNote_ok {s : State} {k : Nat} {off : Nat} {write : Bool} (hok : Ok pq s) :
    Ok pq (State.gatedNote s k off write) := by
  unfold State.gatedNote
  try dsimp only
  repeat' (first
    | with_reducible assumption | with_reducible apply ok_ite | with_reducible apply ok_ite_fst
    | with_reducible apply State.count_ok | with_reducible apply State.setOwn_ok | with_reducible apply State.flag_ok
    | (simp only [ok_mk, ok3_eq]) | (intro _ _ _) | (intro _ _) | split | (dsimp only))

theorem State.readReg_ok {s : State} {k : Nat} {off : Nat} {d : RegDesc} (hok : Ok pq s) :
    Ok pq (State.readReg s k off d).1 := by
  unfold State.readReg
  try dsimp only
  repeat' (first
    | with_reducible assumption | with_reducible apply ok_ite | with_reducible apply ok_ite_fst
    | with_reducible apply State.setReg_ok | with_reducible apply State.setPath_ok
    | with_reducible apply State.windowRead_ok | (with_reducible refine State.windowRead_ok_of (by assumption) ?_)
    | (simp only [ok_mk, ok3_eq]) | (intro _ _ _) | (intro _ _) | split | (dsimp only))

theorem State.readReg_ok_of {s : State} {k : Nat} {off : Nat} {d : RegDesc} {t : State} {x : Word} (e : State.readReg s k off d = (t, x)) (hok : Ok pq s) :
    Ok pq t := by
  rw [show t = (State.readReg s k off d).1 by rw [e]]
  exact State.readReg_ok hok

theorem State.cxlWindowPut_ok {s : State} {off : Nat} {val : Word} (hok : Ok pq s) :
    Ok pq (State.cxlWindowPut s off val) := by
  unfold State.cxlWindowPut
  try dsimp only
  repeat' (first
    | with_reducible assumption | with_reducible apply ok_ite | with_reducible apply ok_ite_fst
    | with_reducible apply State.modLd_ok | (simp only [ok_mk, ok3_eq]) | (intro _ _ _) | (intro _ _) | split
    | (dsimp only))

theorem State.read4_ok {s : State} {p : RegPath} {off : Nat} (hok : Ok pq s) :
    Ok pq (State.read4 s p off).1 := by
  unfold State.read4
  try dsimp only
  repeat' (first
    | with_reducible assumption | with_reducible apply ok_ite | with_reducible apply ok_ite_fst
    | with_reducible apply State.count_ok | with_reducible apply State.barWake_ok
    | (with_reducible refine State.barWake_ok_of (by assumption) ?_) | with_reducible apply State.gatedNote_ok
    | with_reducible apply State.readReg_ok | (with_reducible refine State.readReg_ok_of (by assumption) ?_)
    | (simp only [ok_mk, ok3_eq]) | (intro _ _ _) | (intro _ _) | split | (dsimp only))

theorem State.read4_ok_of {s : State} {p : RegPath} {off : Nat} {t : State} {x : Word} (e : State.read4 s p off = (t, x)) (hok : Ok pq s) :
    Ok pq t := by
  rw [show t = (State.read4 s p off).1 by rw [e]]
  exact State.read4_ok hok

theorem State.read8_ok {s : State} {p : RegPath} {off : Nat} (hok : Ok pq s) :
    Ok pq (State.read8 s p off).1 := by
  unfold State.read8
  try dsimp only
  repeat' (first
    | with_reducible assumption | with_reducible apply ok_ite | with_reducible apply ok_ite_fst
    | with_reducible apply State.count_ok | with_reducible apply State.barWake_ok
    | (with_reducible refine State.barWake_ok_of (by assumption) ?_) | with_reducible apply State.read4_ok
    | (with_reducible refine State.read4_ok_of (by assumption) ?_) | (simp only [ok_mk, ok3_eq]) | (intro _ _ _)
    | (intro _ _) | split | (dsimp only))

theorem State.read8_ok_of {s : State} {p : RegPath} {off : Nat} {t : State} {x : Word × Word} (e : State.read8 s p off = (t, x)) (hok : Ok pq s) :
    Ok pq t := by
  rw [show t = (State.read8 s p off).1 by rw [e]]
  exact State.read8_ok hok

theorem State.readAccess_ok {s : State} {p : RegPath} {off : Nat} {size : Nat} (hok : Ok pq s) :
    Ok pq (State.readAccess s p off size) := by
  unfold State.readAccess
  try dsimp only
  repeat' (first
    | with_reducible assumption | with_reducible apply ok_ite | with_reducible apply ok_ite_fst
    | with_reducible apply State.count_ok | with_reducible apply State.emit_ok | with_reducible apply State.badRead_ok
    | with_reducible apply State.modLd_ok | with_reducible apply State.lapCommitDo_ok
    | with_reducible apply State.barWake_ok | (with_reducible refine State.barWake_ok_of (by assumption) ?_)
    | with_reducible apply State.read4_ok | (with_reducible refine State.read4_ok_of (by assumption) ?_)
    | with_reducible apply State.read8_ok | (with_reducible refine State.read8_ok_of (by assumption) ?_)
    | (simp only [ok_mk, ok3_eq]) | (intro _ _ _) | (intro _ _) | split | (dsimp only))

theorem State.fwReject_ok {s : State} {p : RegPath} {off : Nat} (hok : Ok pq s) :
    Ok pq (State.fwReject s p off) := by
  unfold State.fwReject
  try dsimp only
  repeat' (first
    | with_reducible assumption | with_reducible apply State.count_ok | with_reducible apply State.record_ok
    | (simp only [ok_mk, ok3_eq]) | (intro _ _ _) | (intro _ _) | split | (dsimp only))

theorem State.putReg_ok {s : State} {off : Nat} {w : Word} {val : Word} (hok : Ok pq s) :
    Ok pq (State.putReg s off w val) := by
  unfold State.putReg
  try dsimp only
  repeat' (first
    | with_reducible assumption | with_reducible apply ok_ite | with_reducible apply ok_ite_fst
    | with_reducible apply State.setReg_ok | with_reducible apply State.writeFx_ok | (simp only [ok_mk, ok3_eq])
    | (intro _ _ _) | (intro _ _) | split | (dsimp only))

theorem State.writeHi_ok {s : State} {k : Nat} {off : Nat} {d : RegDesc} {val : Word} {fw : Bool} (hok : Ok pq s) :
    Ok pq (State.writeHi s k off d val fw) := by
  unfold State.writeHi
  try dsimp only
  repeat' (first
    | with_reducible assumption | with_reducible apply ok_ite | with_reducible apply ok_ite_fst
    | with_reducible apply State.setReg_ok | with_reducible apply State.setPath_ok
    | with_reducible apply State.selTile_ok | with_reducible apply State.putReg_ok | (simp only [ok_mk, ok3_eq])
    | (intro _ _ _) | (intro _ _) | split | (dsimp only))

theorem State.writeReg_ok {s : State} {k : Nat} {off : Nat} {d : RegDesc} {val : Word} {fw : Bool} (hok : Ok pq s) :
    Ok pq (State.writeReg s k off d val fw) := by
  unfold State.writeReg
  try dsimp only
  repeat' (first
    | with_reducible assumption | with_reducible apply ok_ite | with_reducible apply ok_ite_fst
    | with_reducible apply State.setPath_ok | with_reducible apply State.writeReserve_ok
    | with_reducible apply State.writeTestCfg_ok | with_reducible apply State.writeSaveCfg_ok
    | with_reducible apply State.lapBaseDo_ok | with_reducible apply State.selWrite_ok
    | with_reducible apply State.putReg_ok | with_reducible apply State.writeHi_ok | (simp only [ok_mk, ok3_eq])
    | (intro _ _ _) | (intro _ _) | split | (dsimp only))

theorem State.write4_ok {s : State} {p : RegPath} {off : Nat} {val : Word} (hok : Ok pq s) :
    Ok pq (State.write4 s p off val).1 := by
  unfold State.write4
  try dsimp only
  repeat' (first
    | with_reducible assumption | with_reducible apply ok_ite | with_reducible apply ok_ite_fst
    | with_reducible apply State.count_ok | with_reducible apply State.barWake_ok
    | (with_reducible refine State.barWake_ok_of (by assumption) ?_) | with_reducible apply State.gatedNote_ok
    | with_reducible apply State.cxlWindowPut_ok | with_reducible apply State.fwReject_ok
    | with_reducible apply State.writeReg_ok | (simp only [ok_mk, ok3_eq]) | (intro _ _ _) | (intro _ _) | split
    | (dsimp only))

theorem State.write4_ok_of {s : State} {p : RegPath} {off : Nat} {val : Word} {t : State} {x : Bool} (e : State.write4 s p off val = (t, x)) (hok : Ok pq s) :
    Ok pq t := by
  rw [show t = (State.write4 s p off val).1 by rw [e]]
  exact State.write4_ok hok

theorem State.writeAccess_ok {s : State} {p : RegPath} {off : Nat} {size : Nat} {val : Nat} (hok : Ok pq s) :
    Ok pq (State.writeAccess s p off size val) := by
  unfold State.writeAccess
  try dsimp only
  repeat' (first
    | with_reducible assumption | with_reducible apply ok_ite | with_reducible apply ok_ite_fst
    | with_reducible apply State.count_ok | with_reducible apply State.barWake_ok
    | (with_reducible refine State.barWake_ok_of (by assumption) ?_) | with_reducible apply State.write4_ok
    | (with_reducible refine State.write4_ok_of (by assumption) ?_) | (simp only [ok_mk, ok3_eq]) | (intro _ _ _)
    | (intro _ _) | split | (dsimp only))

theorem State.captureSets_ok {s : State} {off : Nat} {hw : Nat} {cap : Nat} (hok : Ok pq s) :
    Ok pq (State.captureSets s off hw cap) := by
  unfold State.captureSets
  try dsimp only
  repeat' (first
    | with_reducible assumption | with_reducible apply ok_ite | with_reducible apply ok_ite_fst
    | with_reducible apply State.setReg_ok | with_reducible apply State.count_ok
    | with_reducible apply State.setReg64_ok | with_reducible apply State.flag_ok
    | with_reducible apply State.railLog_ok | (simp only [ok_mk, ok3_eq]) | (intro _ _ _) | (intro _ _) | split
    | (dsimp only))

theorem State.hwSets_ok {s : State} {off : Nat} {hw : Nat} {cap : Nat} (hok : Ok pq s) :
    Ok pq (State.hwSets s off hw cap) := by
  unfold State.hwSets
  try dsimp only
  repeat' (first
    | with_reducible assumption | with_reducible apply ok_ite | with_reducible apply ok_ite_fst
    | with_reducible apply ok_foldl | with_reducible apply ok_foldl_fst | with_reducible apply State.addSat_ok
    | with_reducible apply State.count_ok | with_reducible apply State.flag_ok
    | with_reducible apply State.captureSets_ok | (simp only [ok_mk, ok3_eq]) | (intro _ _ _) | (intro _ _) | split
    | (dsimp only))

theorem State.rcAdd_ok {s : State} {off : Nat} {n : Nat} (hok : Ok pq s) :
    Ok pq (State.rcAdd s off n) := by
  unfold State.rcAdd
  try dsimp only
  repeat' (first
    | with_reducible assumption | with_reducible apply ok_ite | with_reducible apply ok_ite_fst
    | with_reducible apply State.addSat_ok | with_reducible apply State.countBy_ok | (simp only [ok_mk, ok3_eq])
    | (intro _ _ _) | (intro _ _) | split | (dsimp only))

end Sys2Proof.Machine
end

