-- ==== Sys2Proof/Laws/KeepsRegExec.lean ====
section
/-! SUPPORT. The operations of Machine/RegExec.lean keep memory sound and leave the queue alone. -/

namespace Sys2Proof.Machine

set_option linter.unusedVariables false
set_option linter.unusedTactic false
set_option linter.unreachableTactic false

variable {pq : List Instr}

theorem execRegisterWrite_ok {s : State} {p : RegPath} {off : Nat} {size : Nat} {val : Nat} (hok : Ok pq s) :
    OutOk pq (execRegisterWrite p off size val s) := by
  unfold execRegisterWrite
  try dsimp only
  repeat' (first
    | with_reducible assumption | exact True.intro | with_reducible apply outOk_next | with_reducible apply outOk_ite
    | with_reducible apply State.writeAccess_ok | (simp only [ok_mk, ok3_eq]) | (intro _ _ _) | (intro _ _) | split
    | (dsimp only))

theorem execRegisterHiWrite_ok {s : State} {p : RegPath} {off : Nat} {val : Word} (hok : Ok pq s) :
    OutOk pq (execRegisterHiWrite p off val s) := by
  unfold execRegisterHiWrite
  try dsimp only
  repeat' (first
    | with_reducible assumption | exact True.intro | with_reducible apply outOk_next | with_reducible apply outOk_ite
    | with_reducible apply State.writeAccess_ok | (simp only [ok_mk, ok3_eq]) | (intro _ _ _) | (intro _ _) | split
    | (dsimp only))

theorem execRegisterLoRead_ok {s : State} {p : RegPath} {off : Nat} (hok : Ok pq s) :
    OutOk pq (execRegisterLoRead p off s) := by
  unfold execRegisterLoRead
  try dsimp only
  repeat' (first
    | with_reducible assumption | exact True.intro | with_reducible apply outOk_next | with_reducible apply outOk_ite
    | with_reducible apply State.readAccess_ok | (simp only [ok_mk, ok3_eq]) | (intro _ _ _) | (intro _ _) | split
    | (dsimp only))

theorem execRcCounterRead_ok {s : State} {p : RegPath} {off : Nat} {sameCycle : Nat} (hok : Ok pq s) :
    OutOk pq (execRcCounterRead p off sameCycle s) := by
  unfold execRcCounterRead
  try dsimp only
  repeat' (first
    | with_reducible assumption | exact True.intro | with_reducible apply outOk_next | with_reducible apply outOk_ite
    | with_reducible apply State.readAccess_ok | with_reducible apply State.rcAdd_ok | (simp only [ok_mk, ok3_eq])
    | (intro _ _ _) | (intro _ _) | split | (dsimp only))

theorem execW1cFlagClear_ok {s : State} {p : RegPath} {off : Nat} {val : Word} {hwSet : Word} {cap : DWord} (hok : Ok pq s) :
    OutOk pq (execW1cFlagClear p off val hwSet cap s) := by
  unfold execW1cFlagClear
  try dsimp only
  repeat' (first
    | with_reducible assumption | exact True.intro | with_reducible apply outOk_next | with_reducible apply outOk_ite
    | with_reducible apply State.writeAccess_ok | with_reducible apply State.hwSets_ok | (simp only [ok_mk, ok3_eq])
    | (intro _ _ _) | (intro _ _) | split | (dsimp only))

theorem execBadRegisterAccess_ok {s : State} {p : RegPath} {write : Bool} {off : Nat} {size : Nat} (hok : Ok pq s) :
    OutOk pq (execBadRegisterAccess p write off size s) := by
  unfold execBadRegisterAccess
  try dsimp only
  repeat' (first
    | with_reducible assumption | exact True.intro | with_reducible apply outOk_next | with_reducible apply outOk_ite
    | with_reducible apply ok_ite | with_reducible apply ok_ite_fst | with_reducible apply State.readAccess_ok
    | with_reducible apply State.writeAccess_ok | (simp only [ok_mk, ok3_eq]) | (intro _ _ _) | (intro _ _) | split
    | (dsimp only))

theorem execGatedIslandAccess_ok {s : State} {p : RegPath} {write : Bool} {off : Nat} {val : Word} (hok : Ok pq s) :
    OutOk pq (execGatedIslandAccess p write off val s) := by
  unfold execGatedIslandAccess
  try dsimp only
  repeat' (first
    | with_reducible assumption | exact True.intro | with_reducible apply outOk_next | with_reducible apply outOk_ite
    | with_reducible apply ok_ite | with_reducible apply ok_ite_fst | with_reducible apply State.readAccess_ok
    | with_reducible apply State.writeAccess_ok | (simp only [ok_mk, ok3_eq]) | (intro _ _ _) | (intro _ _) | split
    | (dsimp only))

theorem execGlbRgnSel_ok {s : State} {p : RegPath} {region : Fin 4096} (hok : Ok pq s) :
    OutOk pq (execGlbRgnSel p region s) := by
  unfold execGlbRgnSel
  try dsimp only
  repeat' (first
    | with_reducible assumption | exact True.intro | with_reducible apply outOk_next | with_reducible apply outOk_ite
    | with_reducible apply State.writeAccess_ok | (simp only [ok_mk, ok3_eq]) | (intro _ _ _) | (intro _ _) | split
    | (dsimp only))

theorem execTqmSqSel_ok {s : State} {p : RegPath} {sq : Fin 4096} (hok : Ok pq s) :
    OutOk pq (execTqmSqSel p sq s) := by
  unfold execTqmSqSel
  try dsimp only
  repeat' (first
    | with_reducible assumption | exact True.intro | with_reducible apply outOk_next | with_reducible apply outOk_ite
    | with_reducible apply State.writeAccess_ok | (simp only [ok_mk, ok3_eq]) | (intro _ _ _) | (intro _ _) | split
    | (dsimp only))

theorem execTqmCqSel_ok {s : State} {p : RegPath} {cq : Fin 4096} (hok : Ok pq s) :
    OutOk pq (execTqmCqSel p cq s) := by
  unfold execTqmCqSel
  try dsimp only
  repeat' (first
    | with_reducible assumption | exact True.intro | with_reducible apply outOk_next | with_reducible apply outOk_ite
    | with_reducible apply State.writeAccess_ok | (simp only [ok_mk, ok3_eq]) | (intro _ _ _) | (intro _ _) | split
    | (dsimp only))

theorem execPlcRgnSel_ok {s : State} {p : RegPath} {region : Fin 4096} (hok : Ok pq s) :
    OutOk pq (execPlcRgnSel p region s) := by
  unfold execPlcRgnSel
  try dsimp only
  repeat' (first
    | with_reducible assumption | exact True.intro | with_reducible apply outOk_next | with_reducible apply outOk_ite
    | with_reducible apply State.writeAccess_ok | (simp only [ok_mk, ok3_eq]) | (intro _ _ _) | (intro _ _) | split
    | (dsimp only))

theorem execPlcTileSel_ok {s : State} {p : RegPath} {hi : Word} (hok : Ok pq s) :
    OutOk pq (execPlcTileSel p hi s) := by
  unfold execPlcTileSel
  try dsimp only
  repeat' (first
    | with_reducible assumption | exact True.intro | with_reducible apply outOk_next | with_reducible apply outOk_ite
    | with_reducible apply State.writeAccess_ok | (simp only [ok_mk, ok3_eq]) | (intro _ _ _) | (intro _ _) | split
    | (dsimp only))

theorem execFmcSetSel_ok {s : State} {p : RegPath} {set : Fin 64} (hok : Ok pq s) :
    OutOk pq (execFmcSetSel p set s) := by
  unfold execFmcSetSel
  try dsimp only
  repeat' (first
    | with_reducible assumption | exact True.intro | with_reducible apply outOk_next | with_reducible apply outOk_ite
    | with_reducible apply State.writeAccess_ok | (simp only [ok_mk, ok3_eq]) | (intro _ _ _) | (intro _ _) | split
    | (dsimp only))

theorem execSecRgnKeySel_ok {s : State} {p : RegPath} {region : Fin 4096} (hok : Ok pq s) :
    OutOk pq (execSecRgnKeySel p region s) := by
  unfold execSecRgnKeySel
  try dsimp only
  repeat' (first
    | with_reducible assumption | exact True.intro | with_reducible apply outOk_next | with_reducible apply outOk_ite
    | with_reducible apply State.writeAccess_ok | (simp only [ok_mk, ok3_eq]) | (intro _ _ _) | (intro _ _) | split
    | (dsimp only))

theorem execEflBlockSel_ok {s : State} {p : RegPath} {block : Fin 256} (hok : Ok pq s) :
    OutOk pq (execEflBlockSel p block s) := by
  unfold execEflBlockSel
  try dsimp only
  repeat' (first
    | with_reducible assumption | exact True.intro | with_reducible apply outOk_next | with_reducible apply outOk_ite
    | with_reducible apply State.writeAccess_ok | (simp only [ok_mk, ok3_eq]) | (intro _ _ _) | (intro _ _) | split
    | (dsimp only))

theorem execEflRaddr_ok {s : State} {p : RegPath} {addr : Word} (hok : Ok pq s) :
    OutOk pq (execEflRaddr p addr s) := by
  unfold execEflRaddr
  try dsimp only
  repeat' (first
    | with_reducible assumption | exact True.intro | with_reducible apply outOk_next | with_reducible apply outOk_ite
    | with_reducible apply State.writeAccess_ok | (simp only [ok_mk, ok3_eq]) | (intro _ _ _) | (intro _ _) | split
    | (dsimp only))

theorem execEvrWindowRead_ok {s : State} {p : RegPath} {word : Fin 8} (hok : Ok pq s) :
    OutOk pq (execEvrWindowRead p word s) := by
  unfold execEvrWindowRead
  try dsimp only
  repeat' (first
    | with_reducible assumption | exact True.intro | with_reducible apply outOk_next | with_reducible apply outOk_ite
    | with_reducible apply State.readAccess_ok | (simp only [ok_mk, ok3_eq]) | (intro _ _ _) | (intro _ _) | split
    | (dsimp only))

theorem execCxlLinkEnable_ok {s : State} {p : RegPath} {port : Fin 2} {val : Word} (hok : Ok pq s) :
    OutOk pq (execCxlLinkEnable p port val s) := by
  unfold execCxlLinkEnable
  try dsimp only
  repeat' (first
    | with_reducible assumption | exact True.intro | with_reducible apply outOk_next | with_reducible apply outOk_ite
    | with_reducible apply State.writeAccess_ok | (simp only [ok_mk, ok3_eq]) | (intro _ _ _) | (intro _ _) | split
    | (dsimp only))

theorem execTqmDoorbell_ok {s : State} {p : RegPath} {sq : Fin 4096} (hok : Ok pq s) :
    OutOk pq (execTqmDoorbell p sq s) := by
  unfold execTqmDoorbell
  try dsimp only
  repeat' (first
    | with_reducible assumption | exact True.intro | with_reducible apply outOk_next | with_reducible apply outOk_ite
    | with_reducible apply State.writeAccess_ok | (simp only [ok_mk, ok3_eq]) | (intro _ _ _) | (intro _ _) | split
    | (dsimp only))

theorem execCrcFwLoad_ok {s : State} {p : RegPath} (hok : Ok pq s) :
    OutOk pq (execCrcFwLoad p s) := by
  unfold execCrcFwLoad
  try dsimp only
  repeat' (first
    | with_reducible assumption | exact True.intro | with_reducible apply outOk_next | with_reducible apply outOk_ite
    | with_reducible apply State.writeAccess_ok | (simp only [ok_mk, ok3_eq]) | (intro _ _ _) | (intro _ _) | split
    | (dsimp only))

theorem execCrcFwData32_ok {s : State} {p : RegPath} {data : Word} (hok : Ok pq s) :
    OutOk pq (execCrcFwData32 p data s) := by
  unfold execCrcFwData32
  try dsimp only
  repeat' (first
    | with_reducible assumption | exact True.intro | with_reducible apply outOk_next | with_reducible apply outOk_ite
    | with_reducible apply State.writeAccess_ok | (simp only [ok_mk, ok3_eq]) | (intro _ _ _) | (intro _ _) | split
    | (dsimp only))

theorem execCrcFwData8_ok {s : State} {p : RegPath} {data : Byte} (hok : Ok pq s) :
    OutOk pq (execCrcFwData8 p data s) := by
  unfold execCrcFwData8
  try dsimp only
  repeat' (first
    | with_reducible assumption | exact True.intro | with_reducible apply outOk_next | with_reducible apply outOk_ite
    | with_reducible apply State.writeAccess_ok | (simp only [ok_mk, ok3_eq]) | (intro _ _ _) | (intro _ _) | split
    | (dsimp only))

theorem execHlcMaintWriteback_ok {s : State} {p : RegPath} {scope : Fin 4} (hok : Ok pq s) :
    OutOk pq (execHlcMaintWriteback p scope s) := by
  unfold execHlcMaintWriteback
  try dsimp only
  repeat' (first
    | with_reducible assumption | exact True.intro | with_reducible apply outOk_next | with_reducible apply outOk_ite
    | with_reducible apply State.writeAccess_ok | (simp only [ok_mk, ok3_eq]) | (intro _ _ _) | (intro _ _) | split
    | (dsimp only))

theorem execHlcMaintWbInval_ok {s : State} {p : RegPath} {scope : Fin 4} (hok : Ok pq s) :
    OutOk pq (execHlcMaintWbInval p scope s) := by
  unfold execHlcMaintWbInval
  try dsimp only
  repeat' (first
    | with_reducible assumption | exact True.intro | with_reducible apply outOk_next | with_reducible apply outOk_ite
    | with_reducible apply State.writeAccess_ok | (simp only [ok_mk, ok3_eq]) | (intro _ _ _) | (intro _ _) | split
    | (dsimp only))

theorem execDmcSelfRefreshEnter_ok {s : State} {p : RegPath} (hok : Ok pq s) :
    OutOk pq (execDmcSelfRefreshEnter p s) := by
  unfold execDmcSelfRefreshEnter
  try dsimp only
  repeat' (first
    | with_reducible assumption | exact True.intro | with_reducible apply outOk_next | with_reducible apply outOk_ite
    | with_reducible apply State.writeAccess_ok | (simp only [ok_mk, ok3_eq]) | (intro _ _ _) | (intro _ _) | split
    | (dsimp only))

theorem execDmcSelfRefreshExit_ok {s : State} {p : RegPath} (hok : Ok pq s) :
    OutOk pq (execDmcSelfRefreshExit p s) := by
  unfold execDmcSelfRefreshExit
  try dsimp only
  repeat' (first
    | with_reducible assumption | exact True.intro | with_reducible apply outOk_next | with_reducible apply outOk_ite
    | with_reducible apply State.writeAccess_ok | (simp only [ok_mk, ok3_eq]) | (intro _ _ _) | (intro _ _) | split
    | (dsimp only))

theorem execDmcTrainFull_ok {s : State} {p : RegPath} {mask : BitVec 16} (hok : Ok pq s) :
    OutOk pq (execDmcTrainFull p mask s) := by
  unfold execDmcTrainFull
  try dsimp only
  repeat' (first
    | with_reducible assumption | exact True.intro | with_reducible apply outOk_next | with_reducible apply outOk_ite
    | with_reducible apply State.writeAccess_ok | (simp only [ok_mk, ok3_eq]) | (intro _ _ _) | (intro _ _) | split
    | (dsimp only))

theorem execDmcTrainStored_ok {s : State} {p : RegPath} {mask : BitVec 16} (hok : Ok pq s) :
    OutOk pq (execDmcTrainStored p mask s) := by
  unfold execDmcTrainStored
  try dsimp only
  repeat' (first
    | with_reducible assumption | exact True.intro | with_reducible apply outOk_next | with_reducible apply outOk_ite
    | with_reducible apply State.writeAccess_ok | (simp only [ok_mk, ok3_eq]) | (intro _ _ _) | (intro _ _) | split
    | (dsimp only))

theorem execDmcTrainRows_ok {s : State} {p : RegPath} {mask : BitVec 16} (hok : Ok pq s) :
    OutOk pq (execDmcTrainRows p mask s) := by
  unfold execDmcTrainRows
  try dsimp only
  repeat' (first
    | with_reducible assumption | exact True.intro | with_reducible apply outOk_next | with_reducible apply outOk_ite
    | with_reducible apply State.writeAccess_ok | (simp only [ok_mk, ok3_eq]) | (intro _ _ _) | (intro _ _) | split
    | (dsimp only))

theorem execChiveEnable_ok {s : State} {p : RegPath} {ch : Fin 16} {entry : Fin 32} (hok : Ok pq s) :
    OutOk pq (execChiveEnable p ch entry s) := by
  unfold execChiveEnable
  try dsimp only
  repeat' (first
    | with_reducible assumption | exact True.intro | with_reducible apply outOk_next | with_reducible apply outOk_ite
    | with_reducible apply State.writeAccess_ok | (simp only [ok_mk, ok3_eq]) | (intro _ _ _) | (intro _ _) | split
    | (dsimp only))

theorem execChiveDisable_ok {s : State} {p : RegPath} {ch : Fin 16} {entry : Fin 32} (hok : Ok pq s) :
    OutOk pq (execChiveDisable p ch entry s) := by
  unfold execChiveDisable
  try dsimp only
  repeat' (first
    | with_reducible assumption | exact True.intro | with_reducible apply outOk_next | with_reducible apply outOk_ite
    | with_reducible apply State.writeAccess_ok | (simp only [ok_mk, ok3_eq]) | (intro _ _ _) | (intro _ _) | split
    | (dsimp only))

theorem execScrubGo_ok {s : State} {p : RegPath} {rate : Nat} {mask : BitVec 16} (hok : Ok pq s) :
    OutOk pq (execScrubGo p rate mask s) := by
  unfold execScrubGo
  try dsimp only
  repeat' (first
    | with_reducible assumption | exact True.intro | with_reducible apply outOk_next | with_reducible apply outOk_ite
    | with_reducible apply State.writeAccess_ok | (simp only [ok_mk, ok3_eq]) | (intro _ _ _) | (intro _ _) | split
    | (dsimp only))

theorem execScrubStop_ok {s : State} {p : RegPath} (hok : Ok pq s) :
    OutOk pq (execScrubStop p s) := by
  unfold execScrubStop
  try dsimp only
  repeat' (first
    | with_reducible assumption | exact True.intro | with_reducible apply outOk_next | with_reducible apply outOk_ite
    | with_reducible apply State.writeAccess_ok | (simp only [ok_mk, ok3_eq]) | (intro _ _ _) | (intro _ _) | split
    | (dsimp only))

theorem execElgCmdTest_ok {s : State} {p : RegPath} (hok : Ok pq s) :
    OutOk pq (execElgCmdTest p s) := by
  unfold execElgCmdTest
  try dsimp only
  repeat' (first
    | with_reducible assumption | exact True.intro | with_reducible apply outOk_next | with_reducible apply outOk_ite
    | with_reducible apply State.writeAccess_ok | (simp only [ok_mk, ok3_eq]) | (intro _ _ _) | (intro _ _) | split
    | (dsimp only))

theorem execElgReserveWrite_ok {s : State} {p : RegPath} {val : Word} (hok : Ok pq s) :
    OutOk pq (execElgReserveWrite p val s) := by
  unfold execElgReserveWrite
  try dsimp only
  repeat' (first
    | with_reducible assumption | exact True.intro | with_reducible apply outOk_next | with_reducible apply outOk_ite
    | with_reducible apply State.writeAccess_ok | (simp only [ok_mk, ok3_eq]) | (intro _ _ _) | (intro _ _) | split
    | (dsimp only))

theorem execElgTestCfgWrite_ok {s : State} {p : RegPath} {val : Word} (hok : Ok pq s) :
    OutOk pq (execElgTestCfgWrite p val s) := by
  unfold execElgTestCfgWrite
  try dsimp only
  repeat' (first
    | with_reducible assumption | exact True.intro | with_reducible apply outOk_next | with_reducible apply outOk_ite
    | with_reducible apply State.writeAccess_ok | (simp only [ok_mk, ok3_eq]) | (intro _ _ _) | (intro _ _) | split
    | (dsimp only))

theorem execElgSaveCfgWrite_ok {s : State} {p : RegPath} {val : Word} (hok : Ok pq s) :
    OutOk pq (execElgSaveCfgWrite p val s) := by
  unfold execElgSaveCfgWrite
  try dsimp only
  repeat' (first
    | with_reducible assumption | exact True.intro | with_reducible apply outOk_next | with_reducible apply outOk_ite
    | with_reducible apply State.writeAccess_ok | (simp only [ok_mk, ok3_eq]) | (intro _ _ _) | (intro _ _) | split
    | (dsimp only))

theorem execElgCmdSave_ok {s : State} {p : RegPath} (hok : Ok pq s) :
    OutOk pq (execElgCmdSave p s) := by
  unfold execElgCmdSave
  try dsimp only
  repeat' (first
    | with_reducible assumption | exact True.intro | with_reducible apply outOk_next | with_reducible apply outOk_ite
    | with_reducible apply State.writeAccess_ok | (simp only [ok_mk, ok3_eq]) | (intro _ _ _) | (intro _ _) | split
    | (dsimp only))

theorem execShaumLinkEnable_ok {s : State} {p : RegPath} {val : Word} (hok : Ok pq s) :
    OutOk pq (execShaumLinkEnable p val s) := by
  unfold execShaumLinkEnable
  try dsimp only
  repeat' (first
    | with_reducible assumption | exact True.intro | with_reducible apply outOk_next | with_reducible apply outOk_ite
    | with_reducible apply State.writeAccess_ok | (simp only [ok_mk, ok3_eq]) | (intro _ _ _) | (intro _ _) | split
    | (dsimp only))

theorem execTwnCmdRetrain_ok {s : State} {p : RegPath} (hok : Ok pq s) :
    OutOk pq (execTwnCmdRetrain p s) := by
  unfold execTwnCmdRetrain
  try dsimp only
  repeat' (first
    | with_reducible assumption | exact True.intro | with_reducible apply outOk_next | with_reducible apply outOk_ite
    | with_reducible apply State.twnCmd_ok | with_reducible apply State.writeAccess_ok | (simp only [ok_mk, ok3_eq])
    | (intro _ _ _) | (intro _ _) | split | (dsimp only))

theorem execTwnCmdTakeover_ok {s : State} {p : RegPath} (hok : Ok pq s) :
    OutOk pq (execTwnCmdTakeover p s) := by
  unfold execTwnCmdTakeover
  try dsimp only
  repeat' (first
    | with_reducible assumption | exact True.intro | with_reducible apply outOk_next | with_reducible apply outOk_ite
    | with_reducible apply State.twnCmd_ok | with_reducible apply State.writeAccess_ok | (simp only [ok_mk, ok3_eq])
    | (intro _ _ _) | (intro _ _) | split | (dsimp only))

theorem execTwnCmdRelease_ok {s : State} {p : RegPath} (hok : Ok pq s) :
    OutOk pq (execTwnCmdRelease p s) := by
  unfold execTwnCmdRelease
  try dsimp only
  repeat' (first
    | with_reducible assumption | exact True.intro | with_reducible apply outOk_next | with_reducible apply outOk_ite
    | with_reducible apply State.twnCmd_ok | with_reducible apply State.writeAccess_ok | (simp only [ok_mk, ok3_eq])
    | (intro _ _ _) | (intro _ _) | split | (dsimp only))

theorem execTwnCmdFence_ok {s : State} {p : RegPath} (hok : Ok pq s) :
    OutOk pq (execTwnCmdFence p s) := by
  unfold execTwnCmdFence
  try dsimp only
  repeat' (first
    | with_reducible assumption | exact True.intro | with_reducible apply outOk_next | with_reducible apply outOk_ite
    | with_reducible apply State.twnCmd_ok | with_reducible apply State.writeAccess_ok | (simp only [ok_mk, ok3_eq])
    | (intro _ _ _) | (intro _ _) | split | (dsimp only))

theorem execSecArbAdvance_ok {s : State} {p : RegPath} {svn : Nat} (hok : Ok pq s) :
    OutOk pq (execSecArbAdvance p svn s) := by
  unfold execSecArbAdvance
  try dsimp only
  repeat' (first
    | with_reducible assumption | exact True.intro | with_reducible apply outOk_next | with_reducible apply outOk_ite
    | with_reducible apply State.writeAccess_ok | (simp only [ok_mk, ok3_eq]) | (intro _ _ _) | (intro _ _) | split
    | (dsimp only))

theorem execEflUnlock_ok {s : State} {p : RegPath} {key : Word} (hok : Ok pq s) :
    OutOk pq (execEflUnlock p key s) := by
  unfold execEflUnlock
  try dsimp only
  repeat' (first
    | with_reducible assumption | exact True.intro | with_reducible apply outOk_next | with_reducible apply outOk_ite
    | with_reducible apply State.writeAccess_ok | (simp only [ok_mk, ok3_eq]) | (intro _ _ _) | (intro _ _) | split
    | (dsimp only))

theorem execEflProgram_ok {s : State} {p : RegPath} {addr : Word} {data : DWord} (hok : Ok pq s) :
    OutOk pq (execEflProgram p addr data s) := by
  unfold execEflProgram
  try dsimp only
  repeat' (first
    | with_reducible assumption | exact True.intro | with_reducible apply outOk_next | with_reducible apply outOk_ite
    | with_reducible apply State.writeAccess_ok | (simp only [ok_mk, ok3_eq]) | (intro _ _ _) | (intro _ _) | split
    | (dsimp only))

theorem execEflErase_ok {s : State} {p : RegPath} {addr : Word} (hok : Ok pq s) :
    OutOk pq (execEflErase p addr s) := by
  unfold execEflErase
  try dsimp only
  repeat' (first
    | with_reducible assumption | exact True.intro | with_reducible apply outOk_next | with_reducible apply outOk_ite
    | with_reducible apply State.writeAccess_ok | (simp only [ok_mk, ok3_eq]) | (intro _ _ _) | (intro _ _) | split
    | (dsimp only))

theorem execEflSuspend_ok {s : State} {p : RegPath} (hok : Ok pq s) :
    OutOk pq (execEflSuspend p s) := by
  unfold execEflSuspend
  try dsimp only
  repeat' (first
    | with_reducible assumption | exact True.intro | with_reducible apply outOk_next | with_reducible apply outOk_ite
    | with_reducible apply State.writeAccess_ok | (simp only [ok_mk, ok3_eq]) | (intro _ _ _) | (intro _ _) | split
    | (dsimp only))

theorem execEflResume_ok {s : State} {p : RegPath} (hok : Ok pq s) :
    OutOk pq (execEflResume p s) := by
  unfold execEflResume
  try dsimp only
  repeat' (first
    | with_reducible assumption | exact True.intro | with_reducible apply outOk_next | with_reducible apply outOk_ite
    | with_reducible apply State.writeAccess_ok | (simp only [ok_mk, ok3_eq]) | (intro _ _ _) | (intro _ _) | split
    | (dsimp only))

theorem execEvrSubmit_ok {s : State} {p : RegPath} {p3 : Word} (hok : Ok pq s) :
    OutOk pq (execEvrSubmit p p3 s) := by
  unfold execEvrSubmit
  try dsimp only
  repeat' (first
    | with_reducible assumption | exact True.intro | with_reducible apply outOk_next | with_reducible apply outOk_ite
    | with_reducible apply State.writeAccess_ok | (simp only [ok_mk, ok3_eq]) | (intro _ _ _) | (intro _ _) | split
    | (dsimp only))

theorem execPwsCtlUp_ok {s : State} {p : RegPath} (hok : Ok pq s) :
    OutOk pq (execPwsCtlUp p s) := by
  unfold execPwsCtlUp
  try dsimp only
  repeat' (first
    | with_reducible assumption | exact True.intro | with_reducible apply outOk_next | with_reducible apply outOk_ite
    | with_reducible apply State.writeAccess_ok | (simp only [ok_mk, ok3_eq]) | (intro _ _ _) | (intro _ _) | split
    | (dsimp only))

theorem execQuietEnter_ok {s : State} {p : RegPath} (hok : Ok pq s) :
    OutOk pq (execQuietEnter p s) := by
  unfold execQuietEnter
  try dsimp only
  repeat' (first
    | with_reducible assumption | exact True.intro | with_reducible apply outOk_next | with_reducible apply outOk_ite
    | with_reducible apply State.writeAccess_ok | (simp only [ok_mk, ok3_eq]) | (intro _ _ _) | (intro _ _) | split
    | (dsimp only))

theorem execQuietWake_ok {s : State} {p : RegPath} (hok : Ok pq s) :
    OutOk pq (execQuietWake p s) := by
  unfold execQuietWake
  try dsimp only
  repeat' (first
    | with_reducible assumption | exact True.intro | with_reducible apply outOk_next | with_reducible apply outOk_ite
    | with_reducible apply State.writeAccess_ok | (simp only [ok_mk, ok3_eq]) | (intro _ _ _) | (intro _ _) | split
    | (dsimp only))

theorem execPsbGo_ok {s : State} {p : RegPath} {val : Word} (hok : Ok pq s) :
    OutOk pq (execPsbGo p val s) := by
  unfold execPsbGo
  try dsimp only
  repeat' (first
    | with_reducible assumption | exact True.intro | with_reducible apply outOk_next | with_reducible apply outOk_ite
    | with_reducible apply State.writeAccess_ok | (simp only [ok_mk, ok3_eq]) | (intro _ _ _) | (intro _ _) | split
    | (dsimp only))

theorem execPsbReset_ok {s : State} {p : RegPath} {cleared : BitVec 4} {stuck : BitVec 4} (hok : Ok pq s) :
    OutOk pq (execPsbReset p cleared stuck s) := by
  unfold execPsbReset
  try dsimp only
  repeat' (first
    | with_reducible assumption | exact True.intro | with_reducible apply outOk_next | with_reducible apply outOk_ite
    | with_reducible apply ok_ite | with_reducible apply ok_ite_fst | with_reducible apply State.psbReset_ok
    | with_reducible apply State.writeAccess_ok | (simp only [ok_mk, ok3_eq]) | (intro _ _ _) | (intro _ _) | split
    | (dsimp only))

theorem execLapCommitRead_ok {s : State} {p : RegPath} (hok : Ok pq s) :
    OutOk pq (execLapCommitRead p s) := by
  unfold execLapCommitRead
  try dsimp only
  repeat' (first
    | with_reducible assumption | exact True.intro | with_reducible apply outOk_next | with_reducible apply outOk_ite
    | with_reducible apply State.readAccess_ok | (simp only [ok_mk, ok3_eq]) | (intro _ _ _) | (intro _ _) | split
    | (dsimp only))

theorem execLapDrainReq_ok {s : State} {p : RegPath} (hok : Ok pq s) :
    OutOk pq (execLapDrainReq p s) := by
  unfold execLapDrainReq
  try dsimp only
  repeat' (first
    | with_reducible assumption | exact True.intro | with_reducible apply outOk_next | with_reducible apply outOk_ite
    | with_reducible apply State.writeAccess_ok | (simp only [ok_mk, ok3_eq]) | (intro _ _ _) | (intro _ _) | split
    | (dsimp only))

theorem execLapDrainClear_ok {s : State} {p : RegPath} (hok : Ok pq s) :
    OutOk pq (execLapDrainClear p s) := by
  unfold execLapDrainClear
  try dsimp only
  repeat' (first
    | with_reducible assumption | exact True.intro | with_reducible apply outOk_next | with_reducible apply outOk_ite
    | with_reducible apply State.writeAccess_ok | (simp only [ok_mk, ok3_eq]) | (intro _ _ _) | (intro _ _) | split
    | (dsimp only))

theorem execLapBaseWrite_ok {s : State} {p : RegPath} {val : Word} (hok : Ok pq s) :
    OutOk pq (execLapBaseWrite p val s) := by
  unfold execLapBaseWrite
  try dsimp only
  repeat' (first
    | with_reducible assumption | exact True.intro | with_reducible apply outOk_next | with_reducible apply outOk_ite
    | with_reducible apply State.writeAccess_ok | (simp only [ok_mk, ok3_eq]) | (intro _ _ _) | (intro _ _) | split
    | (dsimp only))

end Sys2Proof.Machine
end

