-- ==== Sys2Proof/Laws/KeepsJorrid.lean ====
section
/-! SUPPORT. The operations of Machine/Jorrid.lean keep memory sound and leave the queue alone. -/

namespace Sys2Proof.Machine

set_option linter.unusedVariables false
set_option linter.unusedTactic false
set_option linter.unreachableTactic false

variable {pq : List Instr}

theorem State.jSeqError_ok {s : State} {k : Nat} {h : JHdr} {c : JorridCmd} (hok : Ok pq s) :
    Ok pq (State.jSeqError s k h c) := by
  unfold State.jSeqError
  try dsimp only
  repeat' (first
    | with_reducible assumption | with_reducible apply State.count_ok | with_reducible apply State.flag_ok
    | with_reducible apply State.mbxSay_ok | (simp only [ok_mk, ok3_eq]) | (intro _ _ _) | (intro _ _) | split
    | (dsimp only))

theorem State.jRefuse_ok {s : State} {k : Nat} {h : JHdr} {c : JorridCmd} {status : Nat} (hok : Ok pq s) :
    Ok pq (State.jRefuse s k h c status) := by
  unfold State.jRefuse
  try dsimp only
  repeat' (first
    | with_reducible assumption | with_reducible apply State.mbxSay_ok | (simp only [ok_mk, ok3_eq]) | (intro _ _ _)
    | (intro _ _) | split | (dsimp only))

theorem State.jBusy_ok {s : State} {k : Nat} {seq : Nat} (hok : Ok pq s) :
    Ok pq (State.jBusy s k seq) := by
  unfold State.jBusy
  try dsimp only
  repeat' (first
    | with_reducible assumption | with_reducible apply State.count_ok | with_reducible apply State.mbxSay_ok
    | (simp only [ok_mk, ok3_eq]) | (intro _ _ _) | (intro _ _) | split | (dsimp only))

theorem State.jDeny_ok {s : State} {k : Nat} (hok : Ok pq s) :
    Ok pq (State.jDeny s k) := by
  unfold State.jDeny
  try dsimp only
  repeat' (first
    | with_reducible assumption | with_reducible apply State.count_ok | with_reducible apply State.flag_ok
    | with_reducible apply State.mbxStatus_ok | (simp only [ok_mk, ok3_eq]) | (intro _ _ _) | (intro _ _) | split
    | (dsimp only))

theorem State.jAbort_ok {s : State} {k : Nat} (hok : Ok pq s) :
    Ok pq (State.jAbort s k) := by
  unfold State.jAbort
  try dsimp only
  repeat' (first
    | with_reducible assumption | with_reducible apply ok_ite | with_reducible apply ok_ite_fst
    | with_reducible apply State.post_ok | with_reducible apply State.scrubStart_ok
    | with_reducible apply State.modMb_ok | with_reducible apply State.mbxStatus_ok
    | with_reducible apply State.loadDrop_ok | with_reducible apply State.handEnd_ok
    | with_reducible apply State.scrubHalt_ok | (simp only [ok_mk, ok3_eq]) | (intro _ _ _) | (intro _ _) | split
    | (dsimp only))

theorem State.jQuery_ok {s : State} {k : Nat} {h : JHdr} {c : JorridCmd} (hok : Ok pq s) :
    Ok pq (State.jQuery s k h c) := by
  unfold State.jQuery
  try dsimp only
  repeat' (first
    | with_reducible assumption | with_reducible apply ok_ite | with_reducible apply ok_ite_fst
    | with_reducible apply State.mbxSay_ok | with_reducible apply State.jSeqError_ok
    | with_reducible apply State.jAbort_ok | (simp only [ok_mk, ok3_eq]) | (intro _ _ _) | (intro _ _) | split
    | (dsimp only))

theorem State.deleteGo_ok {s : State} {id : Nat} (hok : Ok pq s) :
    Ok pq (State.deleteGo s id) := by
  unfold State.deleteGo
  try dsimp only
  repeat' (first
    | with_reducible assumption | with_reducible apply ok_ite | with_reducible apply ok_ite_fst
    | with_reducible apply State.both_ok | (with_reducible refine State.both_ok_of (by assumption) ?_)
    | with_reducible apply State.epochAdvance_ok | (simp only [ok_mk, ok3_eq]) | (intro _ _ _) | (intro _ _) | split
    | (dsimp only))

theorem State.orphanGo_ok {s : State} {e : Nat × Nat} (hok : Ok pq s) :
    Ok pq (State.orphanGo s e) := by
  unfold State.orphanGo
  try dsimp only
  repeat' (first
    | with_reducible assumption | with_reducible apply ok_ite | with_reducible apply ok_ite_fst
    | with_reducible apply State.bothNow_ok | (simp only [ok_mk, ok3_eq]) | (intro _ _ _) | (intro _ _) | split
    | (dsimp only))

theorem State.reclaim_ok {s : State} (hok : Ok pq s) :
    Ok pq (State.reclaim s) := by
  unfold State.reclaim
  try dsimp only
  repeat' (first
    | with_reducible assumption | with_reducible apply ok_foldl | with_reducible apply ok_foldl_fst
    | with_reducible apply State.deleteGo_ok | with_reducible apply State.orphanGo_ok | (simp only [ok_mk, ok3_eq])
    | (intro _ _ _) | (intro _ _) | split | (dsimp only))

theorem State.jServe_ok {s : State} {k : Nat} (hok : Ok pq s) :
    Ok pq (State.jServe s k) := by
  unfold State.jServe
  try dsimp only
  repeat' (first
    | with_reducible assumption | with_reducible apply ok_ite | with_reducible apply ok_ite_fst
    | with_reducible apply State.post_ok | with_reducible apply State.sqReap_ok
    | with_reducible apply State.bothNow_ok | with_reducible apply State.modMb_ok
    | with_reducible apply State.mbxEnd_ok | with_reducible apply State.mbxStatus_ok
    | with_reducible apply State.mbxPoll_ok | with_reducible apply State.notePhase_ok
    | with_reducible apply State.admitHosts_ok | with_reducible apply State.admitRegion_ok
    | (simp only [ok_mk, ok3_eq]) | (intro _ _ _) | (intro _ _) | split | (dsimp only))

theorem State.jServeAll_ok {s : State} (hok : Ok pq s) :
    Ok pq (State.jServeAll s) := by
  unfold State.jServeAll
  try dsimp only
  repeat' (first
    | with_reducible assumption | with_reducible apply ok_foldl | with_reducible apply ok_foldl_fst
    | with_reducible apply State.sqReap_ok | with_reducible apply State.reclaim_ok
    | with_reducible apply State.jServe_ok | (simp only [ok_mk, ok3_eq]) | (intro _ _ _) | (intro _ _) | split
    | (dsimp only))

theorem State.jWait_ok {s : State} {k : Nat} {step : Nat} (hok : Ok pq s) :
    Ok pq (State.jWait s k step) := by
  unfold State.jWait
  try dsimp only
  repeat' (first
    | with_reducible assumption | with_reducible apply State.modMb_ok | with_reducible apply State.jServe_ok
    | (simp only [ok_mk, ok3_eq]) | (intro _ _ _) | (intro _ _) | split | (dsimp only))

theorem State.jBoth_ok {s : State} {k : Nat} {cs : List Change} {defer : Bool} {step : Nat} (hok : Ok pq s) :
    Ok pq (State.jBoth s k cs defer step) := by
  unfold State.jBoth
  try dsimp only
  repeat' (first
    | with_reducible assumption | with_reducible apply State.both_ok
    | (with_reducible refine State.both_ok_of (by assumption) ?_) | with_reducible apply State.jWait_ok
    | (simp only [ok_mk, ok3_eq]) | (intro _ _ _) | (intro _ _) | split | (dsimp only))

end Sys2Proof.Machine
end

