-- ==== Sys2Proof/Laws/KeepsJorridRun.lean ====
section
/-! SUPPORT. The operations of Machine/JorridRun.lean keep memory sound and leave the queue alone. -/

namespace Sys2Proof.Machine

set_option linter.unusedVariables false
set_option linter.unusedTactic false
set_option linter.unreachableTactic false

variable {pq : List Instr}

theorem State.jIdentify_ok {s : State} {k : Nat} (hok : Ok pq s) :
    Ok pq (State.jIdentify s k) := by
  unfold State.jIdentify
  try dsimp only
  repeat' (first
    | with_reducible assumption | with_reducible apply State.mbxOk_ok | (simp only [ok_mk, ok3_eq]) | (intro _ _ _)
    | (intro _ _) | split | (dsimp only))

theorem State.jRegRead_ok {s : State} {k : Nat} {off : Nat} {count : Nat} (hok : Ok pq s) :
    Ok pq (State.jRegRead s k off count) := by
  unfold State.jRegRead
  try dsimp only
  repeat' (first
    | with_reducible assumption | with_reducible apply ok_ite | with_reducible apply ok_ite_fst
    | with_reducible apply ok_foldl | with_reducible apply ok_foldl_fst | with_reducible apply State.countBy_ok
    | with_reducible apply State.count_ok | with_reducible apply State.mbxStatus_ok
    | with_reducible apply State.mbxOk_ok | with_reducible apply State.read4_ok
    | (with_reducible refine State.read4_ok_of (by assumption) ?_) | (simp only [ok_mk, ok3_eq]) | (intro _ _ _)
    | (intro _ _) | split | (dsimp only))

theorem State.jRegWrite_ok {s : State} {k : Nat} {pairs : List (Nat × Nat)} (hok : Ok pq s) :
    Ok pq (State.jRegWrite s k pairs) := by
  unfold State.jRegWrite
  try dsimp only
  repeat' (first
    | with_reducible assumption | with_reducible apply ok_ite | with_reducible apply ok_ite_fst
    | with_reducible apply ok_foldl | with_reducible apply ok_foldl_fst | with_reducible apply State.count_ok
    | with_reducible apply State.mbxStatus_ok | with_reducible apply State.mbxOk_ok
    | with_reducible apply State.write4_ok | (with_reducible refine State.write4_ok_of (by assumption) ?_)
    | (simp only [ok_mk, ok3_eq]) | (intro _ _ _) | (intro _ _) | split | (dsimp only))

theorem State.jProvision_ok {s : State} {k : Nat} {r : ApplRec} {replace : Bool} (hok : Ok pq s) :
    Ok pq (State.jProvision s k r replace) := by
  unfold State.jProvision
  try dsimp only
  repeat' (first
    | with_reducible assumption | with_reducible apply ok_ite | with_reducible apply ok_ite_fst
    | with_reducible apply State.recordF_ok | with_reducible apply State.recordPut_ok
    | with_reducible apply State.mbxStatus_ok | with_reducible apply State.mismatch_ok
    | with_reducible apply State.recordLoad_ok | (simp only [ok_mk, ok3_eq]) | (intro _ _ _) | (intro _ _) | split
    | (dsimp only))

theorem State.jRelay_ok {s : State} {k : Nat} (hok : Ok pq s) :
    Ok pq (State.jRelay s k) := by
  unfold State.jRelay
  try dsimp only
  repeat' (first
    | with_reducible assumption | with_reducible apply ok_ite | with_reducible apply ok_ite_fst
    | with_reducible apply State.mbxStatus_ok | with_reducible apply State.jWait_ok | (simp only [ok_mk, ok3_eq])
    | (intro _ _ _) | (intro _ _) | split | (dsimp only))

theorem State.jHandoff_ok {s : State} {k : Nat} {ids : List Nat} {toPeer : Bool} (hok : Ok pq s) :
    Ok pq (State.jHandoff s k ids toPeer) := by
  unfold State.jHandoff
  try dsimp only
  repeat' (first
    | with_reducible assumption | with_reducible apply ok_ite | with_reducible apply ok_ite_fst
    | with_reducible apply State.settle_ok | with_reducible apply State.modMb_ok
    | with_reducible apply State.mbxStatus_ok | with_reducible apply State.startHandoff_ok
    | with_reducible apply State.jBoth_ok | (simp only [ok_mk, ok3_eq]) | (intro _ _ _) | (intro _ _) | split
    | (dsimp only))

theorem State.jCreate_ok {s : State} {k : Nat} {id : Nat} {gibs : Nat} {qos : Nat} {pref : Bool} {onAck : Bool} {dflt : Right} (hok : Ok pq s) :
    Ok pq (State.jCreate s k id gibs qos pref onAck dflt) := by
  unfold State.jCreate
  try dsimp only
  repeat' (first
    | with_reducible assumption | with_reducible apply ok_ite | with_reducible apply ok_ite_fst
    | with_reducible apply State.draw_ok | (with_reducible refine State.draw_ok_of (by assumption) ?_)
    | with_reducible apply State.mbxStatus_ok | with_reducible apply State.mbxFail_ok
    | with_reducible apply State.onAck_ok | with_reducible apply State.jBoth_ok | (simp only [ok_mk, ok3_eq])
    | (intro _ _ _) | (intro _ _) | split | (dsimp only))

theorem State.jResize_ok {s : State} {k : Nat} {id : Nat} {gibs : Nat} (hok : Ok pq s) :
    Ok pq (State.jResize s k id gibs) := by
  unfold State.jResize
  try dsimp only
  repeat' (first
    | with_reducible assumption | with_reducible apply ok_ite | with_reducible apply ok_ite_fst
    | with_reducible apply State.mbxStatus_ok | with_reducible apply State.jBoth_ok | (simp only [ok_mk, ok3_eq])
    | (intro _ _ _) | (intro _ _) | split | (dsimp only))

theorem State.jDelete_ok {s : State} {k : Nat} {id : Nat} (hok : Ok pq s) :
    Ok pq (State.jDelete s k id) := by
  unfold State.jDelete
  try dsimp only
  repeat' (first
    | with_reducible assumption | with_reducible apply ok_ite | with_reducible apply ok_ite_fst
    | with_reducible apply State.mbxStatus_ok | with_reducible apply State.jServeAll_ok
    | with_reducible apply State.jBoth_ok | (simp only [ok_mk, ok3_eq]) | (intro _ _ _) | (intro _ _) | split
    | (dsimp only))

theorem State.jPolicy_ok {s : State} {k : Nat} {id : Nat} {dflt : Right} {entries : List (Nat × Right)} (hok : Ok pq s) :
    Ok pq (State.jPolicy s k id dflt entries) := by
  unfold State.jPolicy
  try dsimp only
  repeat' (first
    | with_reducible assumption | with_reducible apply ok_ite | with_reducible apply ok_ite_fst
    | with_reducible apply ok_foldl | with_reducible apply ok_foldl_fst | with_reducible apply State.mbxStatus_ok
    | with_reducible apply State.jBoth_ok | (simp only [ok_mk, ok3_eq]) | (intro _ _ _) | (intro _ _) | split
    | (dsimp only))

theorem State.jAttr_ok {s : State} {k : Nat} {id : Nat} {qos : Nat} {pref : Bool} {onAck : Bool} (hok : Ok pq s) :
    Ok pq (State.jAttr s k id qos pref onAck) := by
  unfold State.jAttr
  try dsimp only
  repeat' (first
    | with_reducible assumption | with_reducible apply ok_ite | with_reducible apply ok_ite_fst
    | with_reducible apply State.mbxStatus_ok | with_reducible apply State.mbxBoth_ok
    | with_reducible apply State.onAck_ok | (simp only [ok_mk, ok3_eq]) | (intro _ _ _) | (intro _ _) | split
    | (dsimp only))

theorem State.jForce_ok {s : State} {k : Nat} {id : Nat} {auth : Bool} (hok : Ok pq s) :
    Ok pq (State.jForce s k id auth) := by
  unfold State.jForce
  try dsimp only
  repeat' (first
    | with_reducible assumption | with_reducible apply ok_ite | with_reducible apply ok_ite_fst
    | with_reducible apply State.recordF_ok | with_reducible apply State.both_ok
    | (with_reducible refine State.both_ok_of (by assumption) ?_) | with_reducible apply State.mbxStatus_ok
    | with_reducible apply State.fencePeer_ok | with_reducible apply State.hostsFree_ok
    | with_reducible apply State.changeStart_ok | with_reducible apply State.jWait_ok | (simp only [ok_mk, ok3_eq])
    | (intro _ _ _) | (intro _ _) | split | (dsimp only))

theorem State.jInfo_ok {s : State} {k : Nat} {id : Nat} (hok : Ok pq s) :
    Ok pq (State.jInfo s k id) := by
  unfold State.jInfo
  try dsimp only
  repeat' (first
    | with_reducible assumption | with_reducible apply ok_ite | with_reducible apply ok_ite_fst
    | with_reducible apply State.mbxStatus_ok | with_reducible apply State.mbxOk_ok
    | with_reducible apply State.onAck_ok | (simp only [ok_mk, ok3_eq]) | (intro _ _ _) | (intro _ _) | split
    | (dsimp only))

theorem State.jBind_ok {s : State} {k : Nat} {ld : Nat} {host : Nat} (hok : Ok pq s) :
    Ok pq (State.jBind s k ld host) := by
  unfold State.jBind
  try dsimp only
  repeat' (first
    | with_reducible assumption | with_reducible apply ok_ite | with_reducible apply ok_ite_fst
    | with_reducible apply State.mbxStatus_ok | with_reducible apply State.bindLd_ok | (simp only [ok_mk, ok3_eq])
    | (intro _ _ _) | (intro _ _) | split | (dsimp only))

theorem State.jUnbind_ok {s : State} {k : Nat} {ld : Nat} (hok : Ok pq s) :
    Ok pq (State.jUnbind s k ld) := by
  unfold State.jUnbind
  try dsimp only
  repeat' (first
    | with_reducible assumption | with_reducible apply ok_ite | with_reducible apply ok_ite_fst
    | with_reducible apply State.bothNow_ok | with_reducible apply State.mbxStatus_ok | (simp only [ok_mk, ok3_eq])
    | (intro _ _ _) | (intro _ _) | split | (dsimp only))

theorem State.jDurability_ok {s : State} {k : Nat} {ld : Nat} {ctm : Bool} (hok : Ok pq s) :
    Ok pq (State.jDurability s k ld ctm) := by
  unfold State.jDurability
  try dsimp only
  repeat' (first
    | with_reducible assumption | with_reducible apply ok_ite | with_reducible apply ok_ite_fst
    | with_reducible apply State.modMb_ok | with_reducible apply State.mbxStatus_ok
    | with_reducible apply State.setDur_ok | (with_reducible refine State.setDur_ok_of (by assumption) ?_)
    | with_reducible apply State.jWait_ok | (simp only [ok_mk, ok3_eq]) | (intro _ _ _) | (intro _ _) | split
    | (dsimp only))

theorem State.jExtentAdd_ok {s : State} {k : Nat} {ld : Nat} {dc : Nat} {dpa : Nat} {len : Nat} {region : Nat} {rof : Nat} (hok : Ok pq s) :
    Ok pq (State.jExtentAdd s k ld dc dpa len region rof) := by
  unfold State.jExtentAdd
  try dsimp only
  repeat' (first
    | with_reducible assumption | with_reducible apply ok_ite | with_reducible apply ok_ite_fst
    | with_reducible apply State.mbxStatus_ok | with_reducible apply State.jwPut_ok
    | with_reducible apply State.extentPut_ok | (with_reducible refine State.extentPut_ok_of (by assumption) ?_)
    | (simp only [ok_mk, ok3_eq]) | (intro _ _ _) | (intro _ _) | split | (dsimp only))

theorem State.jExtentRelease_ok {s : State} {k : Nat} {ld : Nat} {region : Nat} {rof : Nat} {gen : Nat} {force : Bool} (hok : Ok pq s) :
    Ok pq (State.jExtentRelease s k ld region rof gen force) := by
  unfold State.jExtentRelease
  try dsimp only
  repeat' (first
    | with_reducible assumption | with_reducible apply ok_ite | with_reducible apply ok_ite_fst
    | with_reducible apply State.mbxStatus_ok | with_reducible apply State.extentAsk_ok | (simp only [ok_mk, ok3_eq])
    | (intro _ _ _) | (intro _ _) | split | (dsimp only))

theorem State.jVector_ok {s : State} {k : Nat} {ld : Nat} {vector : Nat} {source : Nat} (hok : Ok pq s) :
    Ok pq (State.jVector s k ld vector source) := by
  unfold State.jVector
  try dsimp only
  repeat' (first
    | with_reducible assumption | with_reducible apply ok_ite | with_reducible apply ok_ite_fst
    | with_reducible apply State.modLd_ok | with_reducible apply State.mbxStatus_ok | (simp only [ok_mk, ok3_eq])
    | (intro _ _ _) | (intro _ _) | split | (dsimp only))

theorem State.jLease_ok {s : State} {k : Nat} {grant : Bool} {host : Nat} {cred : Nat} {mgmt : Bool} {qp : Option Nat} {mkey : Option Nat} (hok : Ok pq s) :
    Ok pq (State.jLease s k grant host cred mgmt qp mkey) := by
  unfold State.jLease
  try dsimp only
  repeat' (first
    | with_reducible assumption | with_reducible apply ok_ite | with_reducible apply ok_ite_fst
    | with_reducible apply State.mbxStatus_ok | with_reducible apply State.mbxBoth_ok | (simp only [ok_mk, ok3_eq])
    | (intro _ _ _) | (intro _ _) | split | (dsimp only))

theorem State.jRevoke_ok {s : State} {k : Nat} {host : Nat} (hok : Ok pq s) :
    Ok pq (State.jRevoke s k host) := by
  unfold State.jRevoke
  try dsimp only
  repeat' (first
    | with_reducible assumption | with_reducible apply ok_ite | with_reducible apply ok_ite_fst
    | with_reducible apply State.settle_ok | with_reducible apply State.mbxStatus_ok
    | with_reducible apply State.jBoth_ok | (simp only [ok_mk, ok3_eq]) | (intro _ _ _) | (intro _ _) | split
    | (dsimp only))

theorem State.jKeyRegister_ok {s : State} {k : Nat} {host : Nat} {region : Nat} {verbs : Nat} {tag : Nat} {rof : Nat} {va : Nat} {len : Nat} (hok : Ok pq s) :
    Ok pq (State.jKeyRegister s k host region verbs tag rof va len) := by
  unfold State.jKeyRegister
  try dsimp only
  repeat' (first
    | with_reducible assumption | with_reducible apply ok_ite | with_reducible apply ok_ite_fst
    | with_reducible apply State.mbxStatus_ok | with_reducible apply State.mbxBoth_ok
    | (with_reducible refine State.keyMake_ok (by assumption) ?_) | with_reducible apply State.jDeny_ok
    | (simp only [ok_mk, ok3_eq]) | (intro _ _ _) | (intro _ _) | split | (dsimp only))

theorem State.jKeyInvalidate_ok {s : State} {k : Nat} {rkey : Nat} (hok : Ok pq s) :
    Ok pq (State.jKeyInvalidate s k rkey) := by
  unfold State.jKeyInvalidate
  try dsimp only
  repeat' (first
    | with_reducible assumption | with_reducible apply State.modMb_ok | with_reducible apply State.mbxStatus_ok
    | with_reducible apply State.mbxBoth_ok | (simp only [ok_mk, ok3_eq]) | (intro _ _ _) | (intro _ _) | split
    | (dsimp only))

theorem State.jSqCreate_ok {s : State} {k : Nat} {sq : Nat} {host : Nat} {addr : Nat} {log2 : Nat} {cq : Nat} {limit : Option Nat} {maint : Bool} (hok : Ok pq s) :
    Ok pq (State.jSqCreate s k sq host addr log2 cq limit maint) := by
  unfold State.jSqCreate
  try dsimp only
  repeat' (first
    | with_reducible assumption | with_reducible apply ok_ite | with_reducible apply ok_ite_fst
    | with_reducible apply State.mbxStatus_ok | with_reducible apply State.mbxBoth_ok | (simp only [ok_mk, ok3_eq])
    | (intro _ _ _) | (intro _ _) | split | (dsimp only))

theorem State.jSqDelete_ok {s : State} {k : Nat} {sq : Nat} (hok : Ok pq s) :
    Ok pq (State.jSqDelete s k sq) := by
  unfold State.jSqDelete
  try dsimp only
  repeat' (first
    | with_reducible assumption | with_reducible apply ok_ite | with_reducible apply ok_ite_fst
    | with_reducible apply State.settle_ok | with_reducible apply State.mbxStatus_ok
    | with_reducible apply State.jBoth_ok | (simp only [ok_mk, ok3_eq]) | (intro _ _ _) | (intro _ _) | split
    | (dsimp only))

theorem State.jSqStop_ok {s : State} {k : Nat} {sq : Nat} (hok : Ok pq s) :
    Ok pq (State.jSqStop s k sq) := by
  unfold State.jSqStop
  try dsimp only
  repeat' (first
    | with_reducible assumption | with_reducible apply ok_ite | with_reducible apply ok_ite_fst
    | with_reducible apply State.mbxStatus_ok | with_reducible apply State.mbxBoth_ok | (simp only [ok_mk, ok3_eq])
    | (intro _ _ _) | (intro _ _) | split | (dsimp only))

theorem State.jSqResume_ok {s : State} {k : Nat} {sq : Nat} (hok : Ok pq s) :
    Ok pq (State.jSqResume s k sq) := by
  unfold State.jSqResume
  try dsimp only
  repeat' (first
    | with_reducible assumption | with_reducible apply ok_ite | with_reducible apply ok_ite_fst
    | with_reducible apply State.ringBell_ok | with_reducible apply State.settle_ok
    | with_reducible apply State.mbxStatus_ok | with_reducible apply State.mbxBoth_ok | (simp only [ok_mk, ok3_eq])
    | (intro _ _ _) | (intro _ _) | split | (dsimp only))

theorem State.jSqReset_ok {s : State} {k : Nat} {sq : Nat} (hok : Ok pq s) :
    Ok pq (State.jSqReset s k sq) := by
  unfold State.jSqReset
  try dsimp only
  repeat' (first
    | with_reducible assumption | with_reducible apply ok_ite | with_reducible apply ok_ite_fst
    | with_reducible apply State.mbxStatus_ok | with_reducible apply State.mbxBoth_ok | (simp only [ok_mk, ok3_eq])
    | (intro _ _ _) | (intro _ _) | split | (dsimp only))

theorem State.jCqCreate_ok {s : State} {k : Nat} {cq : Nat} {host : Nat} {addr : Nat} {log2 : Nat} {t0 : Target} {t1 : Target} {vector : Nat} {window : Option Nat} (hok : Ok pq s) :
    Ok pq (State.jCqCreate s k cq host addr log2 t0 t1 vector window) := by
  unfold State.jCqCreate
  try dsimp only
  repeat' (first
    | with_reducible assumption | with_reducible apply ok_ite | with_reducible apply ok_ite_fst
    | with_reducible apply State.mbxStatus_ok | with_reducible apply State.mbxBoth_ok | (simp only [ok_mk, ok3_eq])
    | (intro _ _ _) | (intro _ _) | split | (dsimp only))

theorem State.jCqDelete_ok {s : State} {k : Nat} {cq : Nat} (hok : Ok pq s) :
    Ok pq (State.jCqDelete s k cq) := by
  unfold State.jCqDelete
  try dsimp only
  repeat' (first
    | with_reducible assumption | with_reducible apply ok_ite | with_reducible apply ok_ite_fst
    | with_reducible apply State.mbxStatus_ok | with_reducible apply State.mbxBoth_ok | (simp only [ok_mk, ok3_eq])
    | (intro _ _ _) | (intro _ _) | split | (dsimp only))

theorem State.jCqTarget_ok {s : State} {k : Nat} {cq : Nat} {twin : Bool} {t : Target} (hok : Ok pq s) :
    Ok pq (State.jCqTarget s k cq twin t) := by
  unfold State.jCqTarget
  try dsimp only
  repeat' (first
    | with_reducible assumption | with_reducible apply ok_ite | with_reducible apply ok_ite_fst
    | with_reducible apply State.mbxStatus_ok | with_reducible apply State.mbxBoth_ok | (simp only [ok_mk, ok3_eq])
    | (intro _ _ _) | (intro _ _) | split | (dsimp only))

theorem State.jScrub_ok {s : State} {k : Nat} {first : Nat} {last : Nat} {mask : Nat} {rate : Nat} (hok : Ok pq s) :
    Ok pq (State.jScrub s k first last mask rate) := by
  unfold State.jScrub
  try dsimp only
  repeat' (first
    | with_reducible assumption | with_reducible apply ok_ite | with_reducible apply ok_ite_fst
    | with_reducible apply State.setFld_ok | with_reducible apply State.setReg64_ok
    | with_reducible apply State.mbxStatus_ok | with_reducible apply State.jwPut_ok
    | with_reducible apply State.scrubBegin_ok | (simp only [ok_mk, ok3_eq]) | (intro _ _ _) | (intro _ _) | split
    | (dsimp only))

theorem State.jCapTest_ok {s : State} {k : Nat} (hok : Ok pq s) :
    Ok pq (State.jCapTest s k) := by
  unfold State.jCapTest
  try dsimp only
  repeat' (first
    | with_reducible assumption | with_reducible apply ok_ite | with_reducible apply ok_ite_fst
    | with_reducible apply State.mbxStatus_ok | with_reducible apply State.jwPut_ok
    | with_reducible apply State.capStart_ok | (simp only [ok_mk, ok3_eq]) | (intro _ _ _) | (intro _ _) | split
    | (dsimp only))

theorem State.jEventQueue_ok {s : State} {k : Nat} {slot : Nat} {qpn : Nat} {mask : Nat} {severity : Nat} (hok : Ok pq s) :
    Ok pq (State.jEventQueue s k slot qpn mask severity) := by
  unfold State.jEventQueue
  try dsimp only
  repeat' (first
    | with_reducible assumption | with_reducible apply ok_ite | with_reducible apply ok_ite_fst
    | with_reducible apply State.mbxStatus_ok | (simp only [ok_mk, ok3_eq]) | (intro _ _ _) | (intro _ _) | split
    | (dsimp only))

theorem State.jFwInfo_ok {s : State} {k : Nat} (hok : Ok pq s) :
    Ok pq (State.jFwInfo s k) := by
  unfold State.jFwInfo
  try dsimp only
  repeat' (first
    | with_reducible assumption | with_reducible apply State.mbxOk_ok | (simp only [ok_mk, ok3_eq]) | (intro _ _ _)
    | (intro _ _) | split | (dsimp only))

theorem State.loadBegin_ok {s : State} {b : Bool} {total : Nat} (hok : Ok pq s) :
    Ok pq (State.loadBegin s b total) := by
  unfold State.loadBegin
  try dsimp only
  repeat' (first
    | with_reducible assumption | with_reducible apply State.eraseAsk_ok | with_reducible apply State.modSlot_ok
    | (simp only [ok_mk, ok3_eq]) | (intro _ _ _) | (intro _ _) | split | (dsimp only))

theorem State.loadPut_ok {s : State} {b : Bool} {data : List Byte} (hok : Ok pq s) :
    Ok pq (State.loadPut s b data) := by
  unfold State.loadPut
  try dsimp only
  repeat' (first
    | with_reducible assumption | with_reducible apply State.eflPuts_ok | with_reducible apply State.autoSuspend_ok
    | with_reducible apply State.modSlot_ok | (simp only [ok_mk, ok3_eq]) | (intro _ _ _) | (intro _ _) | split
    | (dsimp only))

theorem State.loadTail_ok {s : State} {b : Bool} (hok : Ok pq s) :
    Ok pq (State.loadTail s b) := by
  unfold State.loadTail
  try dsimp only
  repeat' (first
    | with_reducible assumption | with_reducible apply ok_ite | with_reducible apply ok_ite_fst
    | with_reducible apply State.eflPut_ok | with_reducible apply State.autoSuspend_ok | (simp only [ok_mk, ok3_eq])
    | (intro _ _ _) | (intro _ _) | split | (dsimp only))

theorem State.loadEnd_ok {s : State} {b : Bool} {verifies : Bool} (hok : Ok pq s) :
    Ok pq (State.loadEnd s b verifies) := by
  unfold State.loadEnd
  try dsimp only
  repeat' (first
    | with_reducible assumption | with_reducible apply ok_ite | with_reducible apply ok_ite_fst
    | with_reducible apply State.modSlot_ok | with_reducible apply State.loadDrop_ok
    | with_reducible apply State.loadTail_ok | (simp only [ok_mk, ok3_eq]) | (intro _ _ _) | (intro _ _) | split
    | (dsimp only))

theorem State.jLoadStart_ok {s : State} {k : Nat} {b : Bool} {total : Nat} (hok : Ok pq s) :
    Ok pq (State.jLoadStart s k b total) := by
  unfold State.jLoadStart
  try dsimp only
  repeat' (first
    | with_reducible assumption | with_reducible apply ok_ite | with_reducible apply ok_ite_fst
    | with_reducible apply State.modMb_ok | with_reducible apply State.mbxStatus_ok
    | with_reducible apply State.loadBegin_ok | (simp only [ok_mk, ok3_eq]) | (intro _ _ _) | (intro _ _) | split
    | (dsimp only))

theorem State.jLoadMore_ok {s : State} {k : Nat} {b : Bool} {off : Nat} {data : List Byte} (hok : Ok pq s) :
    Ok pq (State.jLoadMore s k b off data) := by
  unfold State.jLoadMore
  try dsimp only
  repeat' (first
    | with_reducible assumption | with_reducible apply ok_ite | with_reducible apply ok_ite_fst
    | with_reducible apply State.mbxEnd_ok | with_reducible apply State.mbxStatus_ok
    | with_reducible apply State.mbxOk_ok | with_reducible apply State.loadPut_ok | (simp only [ok_mk, ok3_eq])
    | (intro _ _ _) | (intro _ _) | split | (dsimp only))

theorem State.jLoadEnd_ok {s : State} {k : Nat} {b : Bool} {verifies : Bool} (hok : Ok pq s) :
    Ok pq (State.jLoadEnd s k b verifies) := by
  unfold State.jLoadEnd
  try dsimp only
  repeat' (first
    | with_reducible assumption | with_reducible apply ok_ite | with_reducible apply ok_ite_fst
    | with_reducible apply State.mbxEnd_ok | with_reducible apply State.mbxStatus_ok
    | with_reducible apply State.loadEnd_ok | (simp only [ok_mk, ok3_eq]) | (intro _ _ _) | (intro _ _) | split
    | (dsimp only))

theorem State.jLoadAbort_ok {s : State} {k : Nat} {b : Bool} (hok : Ok pq s) :
    Ok pq (State.jLoadAbort s k b) := by
  unfold State.jLoadAbort
  try dsimp only
  repeat' (first
    | with_reducible assumption | with_reducible apply ok_ite | with_reducible apply ok_ite_fst
    | with_reducible apply State.mbxStatus_ok | with_reducible apply State.mbxOk_ok
    | with_reducible apply State.loadDrop_ok | (simp only [ok_mk, ok3_eq]) | (intro _ _ _) | (intro _ _) | split
    | (dsimp only))

theorem State.liveHalt_ok {s : State} {b : Bool} {k : Option Nat} (hok : Ok pq s) :
    Ok pq (State.liveHalt s b k) := by
  unfold State.liveHalt
  try dsimp only
  repeat' (first
    | with_reducible assumption | with_reducible apply State.setBit_ok | with_reducible apply State.setPhase_ok
    | (simp only [ok_mk, ok3_eq]) | (intro _ _ _) | (intro _ _) | split | (dsimp only))

theorem State.jLive_ok {s : State} {k : Nat} {b : Bool} (hok : Ok pq s) :
    Ok pq (State.jLive s k b) := by
  unfold State.jLive
  try dsimp only
  repeat' (first
    | with_reducible assumption | with_reducible apply ok_ite | with_reducible apply ok_ite_fst
    | with_reducible apply State.mbxStatus_ok | with_reducible apply State.liveHalt_ok | (simp only [ok_mk, ok3_eq])
    | (intro _ _ _) | (intro _ _) | split | (dsimp only))

theorem State.setPending_ok {s : State} {b : Bool} (hok : Ok pq s) :
    Ok pq (State.setPending s b) := by
  unfold State.setPending
  try dsimp only
  repeat' (first
    | with_reducible assumption | with_reducible apply ok_ite | with_reducible apply ok_ite_fst
    | with_reducible apply State.modSlot_ok | (simp only [ok_mk, ok3_eq]) | (intro _ _ _) | (intro _ _) | split
    | (dsimp only))

theorem State.jNextReset_ok {s : State} {k : Nat} {b : Bool} (hok : Ok pq s) :
    Ok pq (State.jNextReset s k b) := by
  unfold State.jNextReset
  try dsimp only
  repeat' (first
    | with_reducible assumption | with_reducible apply State.mbxStatus_ok | with_reducible apply State.mbxOk_ok
    | with_reducible apply State.setPending_ok | (simp only [ok_mk, ok3_eq]) | (intro _ _ _) | (intro _ _) | split
    | (dsimp only))

theorem State.jRun_ok {s : State} {k : Nat} {c : JorridCmd} (hok : Ok pq s) :
    Ok pq (State.jRun s k c) := by
  unfold State.jRun
  try dsimp only
  repeat' (first
    | with_reducible assumption | with_reducible apply ok_ite | with_reducible apply ok_ite_fst
    | with_reducible apply State.count_ok | with_reducible apply State.scrubStart_ok
    | with_reducible apply State.mbxStatus_ok | with_reducible apply State.mbxOk_ok
    | with_reducible apply State.mbxBoth_ok | with_reducible apply State.leaveService_ok
    | with_reducible apply State.releaseAsk_ok | with_reducible apply State.retrainCmd_ok
    | with_reducible apply State.forceTakeover_ok | with_reducible apply State.saveTrigger_ok
    | with_reducible apply State.warmStart_ok | with_reducible apply State.jIdentify_ok
    | with_reducible apply State.jRegRead_ok | with_reducible apply State.jRegWrite_ok
    | with_reducible apply State.jProvision_ok | with_reducible apply State.jRelay_ok
    | with_reducible apply State.jHandoff_ok | with_reducible apply State.jCreate_ok
    | with_reducible apply State.jResize_ok | with_reducible apply State.jDelete_ok
    | with_reducible apply State.jPolicy_ok | with_reducible apply State.jAttr_ok
    | with_reducible apply State.jForce_ok | with_reducible apply State.jInfo_ok | with_reducible apply State.jBind_ok
    | with_reducible apply State.jUnbind_ok | with_reducible apply State.jDurability_ok
    | with_reducible apply State.jExtentAdd_ok | with_reducible apply State.jExtentRelease_ok
    | with_reducible apply State.jVector_ok | with_reducible apply State.jLease_ok
    | with_reducible apply State.jRevoke_ok | with_reducible apply State.jKeyRegister_ok
    | with_reducible apply State.jKeyInvalidate_ok | with_reducible apply State.jSqCreate_ok
    | with_reducible apply State.jSqDelete_ok | with_reducible apply State.jSqStop_ok
    | with_reducible apply State.jSqResume_ok | with_reducible apply State.jSqReset_ok
    | with_reducible apply State.jCqCreate_ok | with_reducible apply State.jCqDelete_ok
    | with_reducible apply State.jCqTarget_ok | with_reducible apply State.jScrub_ok
    | with_reducible apply State.jCapTest_ok | with_reducible apply State.jEventQueue_ok
    | with_reducible apply State.jFwInfo_ok | with_reducible apply State.jLoadStart_ok
    | with_reducible apply State.jLoadMore_ok | with_reducible apply State.jLoadEnd_ok
    | with_reducible apply State.jLoadAbort_ok | with_reducible apply State.jLive_ok
    | with_reducible apply State.jNextReset_ok | (simp only [ok_mk, ok3_eq]) | (intro _ _ _) | (intro _ _) | split
    | (dsimp only))

theorem State.jAccept_ok {s : State} {k : Nat} {h : JHdr} {c : JorridCmd} (hok : Ok pq s) :
    Ok pq (State.jAccept s k h c) := by
  unfold State.jAccept
  try dsimp only
  repeat' (first
    | with_reducible assumption | with_reducible apply ok_ite | with_reducible apply ok_ite_fst
    | with_reducible apply State.count_ok | with_reducible apply State.modMb_ok
    | with_reducible apply State.mbxStatus_ok | with_reducible apply State.jDeny_ok
    | with_reducible apply State.jRun_ok | (simp only [ok_mk, ok3_eq]) | (intro _ _ _) | (intro _ _) | split
    | (dsimp only))

theorem State.jTake_ok {s : State} {k : Nat} {h : JHdr} {c : JorridCmd} (hok : Ok pq s) :
    Ok pq (State.jTake s k h c) := by
  unfold State.jTake
  try dsimp only
  repeat' (first
    | with_reducible assumption | with_reducible apply ok_ite | with_reducible apply ok_ite_fst
    | with_reducible apply State.mbxSay_ok | with_reducible apply State.jSeqError_ok
    | with_reducible apply State.jRefuse_ok | with_reducible apply State.jBusy_ok
    | with_reducible apply State.jAccept_ok | (simp only [ok_mk, ok3_eq]) | (intro _ _ _) | (intro _ _) | split
    | (dsimp only))

theorem State.jorrid_ok {s : State} {k : Nat} {h : JHdr} {c : JorridCmd} (hok : Ok pq s) :
    Ok pq (State.jorrid s k h c) := by
  unfold State.jorrid
  try dsimp only
  repeat' (first
    | with_reducible assumption | with_reducible apply ok_ite | with_reducible apply ok_ite_fst
    | with_reducible apply State.count_ok | with_reducible apply State.wakeFor_ok
    | with_reducible apply State.modMb_ok | with_reducible apply State.jRefuse_ok
    | with_reducible apply State.jBusy_ok | with_reducible apply State.jQuery_ok | with_reducible apply State.jTake_ok
    | (simp only [ok_mk, ok3_eq]) | (intro _ _ _) | (intro _ _) | split | (dsimp only))

theorem State.jHeld_ok {s : State} {k : Nat} (hok : Ok pq s) :
    Ok pq (State.jHeld s k) := by
  unfold State.jHeld
  try dsimp only
  repeat' (first
    | with_reducible assumption | with_reducible apply ok_ite | with_reducible apply ok_ite_fst
    | with_reducible apply State.modMb_ok | with_reducible apply State.jTake_ok | (simp only [ok_mk, ok3_eq])
    | (intro _ _ _) | (intro _ _) | split | (dsimp only))

theorem State.jHeldAll_ok {s : State} (hok : Ok pq s) :
    Ok pq (State.jHeldAll s) := by
  unfold State.jHeldAll
  try dsimp only
  repeat' (first
    | with_reducible assumption | with_reducible apply ok_foldl | with_reducible apply ok_foldl_fst
    | with_reducible apply State.jHeld_ok | (simp only [ok_mk, ok3_eq]) | (intro _ _ _) | (intro _ _) | split
    | (dsimp only))

end Sys2Proof.Machine
end

