-- ==== Sys2Proof/Laws/KeepsJorridExec.lean ====
section
/-! SUPPORT. The operations of Machine/JorridExec.lean keep memory sound and leave the queue alone. -/

namespace Sys2Proof.Machine

set_option linter.unusedVariables false
set_option linter.unusedTactic false
set_option linter.unreachableTactic false

variable {pq : List Instr}

theorem execIdentify_ok {s : State} {i : MbxInst} {h : JHdr} (hok : Ok pq s) :
    OutOk pq (execIdentify i h s) := by
  unfold execIdentify
  try dsimp only
  repeat' (first
    | with_reducible assumption | exact True.intro | with_reducible apply outOk_next | with_reducible apply outOk_ite
    | with_reducible apply State.jorrid_ok | (simp only [ok_mk, ok3_eq]) | (intro _ _ _) | (intro _ _) | split
    | (dsimp only))

theorem execGetStatus_ok {s : State} {i : MbxInst} {h : JHdr} (hok : Ok pq s) :
    OutOk pq (execGetStatus i h s) := by
  unfold execGetStatus
  try dsimp only
  repeat' (first
    | with_reducible assumption | exact True.intro | with_reducible apply outOk_next | with_reducible apply outOk_ite
    | with_reducible apply State.jorrid_ok | (simp only [ok_mk, ok3_eq]) | (intro _ _ _) | (intro _ _) | split
    | (dsimp only))

theorem execAbort_ok {s : State} {i : MbxInst} {h : JHdr} (hok : Ok pq s) :
    OutOk pq (execAbort i h s) := by
  unfold execAbort
  try dsimp only
  repeat' (first
    | with_reducible assumption | exact True.intro | with_reducible apply outOk_next | with_reducible apply outOk_ite
    | with_reducible apply State.jorrid_ok | (simp only [ok_mk, ok3_eq]) | (intro _ _ _) | (intro _ _) | split
    | (dsimp only))

theorem execSetTime_ok {s : State} {i : MbxInst} {h : JHdr} {ns : Nat} (hok : Ok pq s) :
    OutOk pq (execSetTime i h ns s) := by
  unfold execSetTime
  try dsimp only
  repeat' (first
    | with_reducible assumption | exact True.intro | with_reducible apply outOk_next | with_reducible apply outOk_ite
    | with_reducible apply State.jorrid_ok | (simp only [ok_mk, ok3_eq]) | (intro _ _ _) | (intro _ _) | split
    | (dsimp only))

theorem execResetWarm_ok {s : State} {i : MbxInst} {h : JHdr} (hok : Ok pq s) :
    OutOk pq (execResetWarm i h s) := by
  unfold execResetWarm
  try dsimp only
  repeat' (first
    | with_reducible assumption | exact True.intro | with_reducible apply outOk_next | with_reducible apply outOk_ite
    | with_reducible apply State.jorrid_ok | (simp only [ok_mk, ok3_eq]) | (intro _ _ _) | (intro _ _) | split
    | (dsimp only))

theorem execPlannedHandoff_ok {s : State} {i : MbxInst} {h : JHdr} {regions : List Nat} {toPeer : Bool} (hok : Ok pq s) :
    OutOk pq (execPlannedHandoff i h regions toPeer s) := by
  unfold execPlannedHandoff
  try dsimp only
  repeat' (first
    | with_reducible assumption | exact True.intro | with_reducible apply outOk_next | with_reducible apply outOk_ite
    | with_reducible apply State.jorrid_ok | (simp only [ok_mk, ok3_eq]) | (intro _ _ _) | (intro _ _) | split
    | (dsimp only))

theorem execSetMode_ok {s : State} {i : MbxInst} {h : JHdr} {dormant : Bool} (hok : Ok pq s) :
    OutOk pq (execSetMode i h dormant s) := by
  unfold execSetMode
  try dsimp only
  repeat' (first
    | with_reducible assumption | exact True.intro | with_reducible apply outOk_next | with_reducible apply outOk_ite
    | with_reducible apply State.jorrid_ok | (simp only [ok_mk, ok3_eq]) | (intro _ _ _) | (intro _ _) | split
    | (dsimp only))

theorem execRelay_ok {s : State} {i : MbxInst} {h : JHdr} {hc : JHdr} {c : JorridCmd} (hok : Ok pq s) :
    OutOk pq (execRelay i h hc c s) := by
  unfold execRelay
  try dsimp only
  repeat' (first
    | with_reducible assumption | exact True.intro | with_reducible apply outOk_next | with_reducible apply outOk_ite
    | with_reducible apply State.jorrid_ok | (simp only [ok_mk, ok3_eq]) | (intro _ _ _) | (intro _ _) | split
    | (dsimp only))

theorem execRegRead_ok {s : State} {i : MbxInst} {h : JHdr} {off : Nat} {count : Nat} (hok : Ok pq s) :
    OutOk pq (execRegRead i h off count s) := by
  unfold execRegRead
  try dsimp only
  repeat' (first
    | with_reducible assumption | exact True.intro | with_reducible apply outOk_next | with_reducible apply outOk_ite
    | with_reducible apply State.count_ok | with_reducible apply State.jorrid_ok | (simp only [ok_mk, ok3_eq])
    | (intro _ _ _) | (intro _ _) | split | (dsimp only))

theorem execRegWrite_ok {s : State} {i : MbxInst} {h : JHdr} {pairs : List (Nat × Nat)} (hok : Ok pq s) :
    OutOk pq (execRegWrite i h pairs s) := by
  unfold execRegWrite
  try dsimp only
  repeat' (first
    | with_reducible assumption | exact True.intro | with_reducible apply outOk_next | with_reducible apply outOk_ite
    | with_reducible apply State.jorrid_ok | (simp only [ok_mk, ok3_eq]) | (intro _ _ _) | (intro _ _) | split
    | (dsimp only))

theorem execRegionCreate_ok {s : State} {i : MbxInst} {h : JHdr} {region : Nat} {gib : Nat} {qos : Nat} {pref : Bool} {onAck : Bool} {dflt : Right} (hok : Ok pq s) :
    OutOk pq (execRegionCreate i h region gib qos pref onAck dflt s) := by
  unfold execRegionCreate
  try dsimp only
  repeat' (first
    | with_reducible assumption | exact True.intro | with_reducible apply outOk_next | with_reducible apply outOk_ite
    | with_reducible apply State.onAck_ok | with_reducible apply State.jorrid_ok | (simp only [ok_mk, ok3_eq])
    | (intro _ _ _) | (intro _ _) | split | (dsimp only))

theorem execRegionResize_ok {s : State} {i : MbxInst} {h : JHdr} {region : Nat} {gib : Nat} (hok : Ok pq s) :
    OutOk pq (execRegionResize i h region gib s) := by
  unfold execRegionResize
  try dsimp only
  repeat' (first
    | with_reducible assumption | exact True.intro | with_reducible apply outOk_next | with_reducible apply outOk_ite
    | with_reducible apply State.jorrid_ok | (simp only [ok_mk, ok3_eq]) | (intro _ _ _) | (intro _ _) | split
    | (dsimp only))

theorem execRegionDelete_ok {s : State} {i : MbxInst} {h : JHdr} {region : Nat} (hok : Ok pq s) :
    OutOk pq (execRegionDelete i h region s) := by
  unfold execRegionDelete
  try dsimp only
  repeat' (first
    | with_reducible assumption | exact True.intro | with_reducible apply outOk_next | with_reducible apply outOk_ite
    | with_reducible apply State.jorrid_ok | (simp only [ok_mk, ok3_eq]) | (intro _ _ _) | (intro _ _) | split
    | (dsimp only))

theorem execRegionSetPolicy_ok {s : State} {i : MbxInst} {h : JHdr} {region : Nat} {dflt : Right} {entries : List (Nat × Right)} (hok : Ok pq s) :
    OutOk pq (execRegionSetPolicy i h region dflt entries s) := by
  unfold execRegionSetPolicy
  try dsimp only
  repeat' (first
    | with_reducible assumption | exact True.intro | with_reducible apply outOk_next | with_reducible apply outOk_ite
    | with_reducible apply State.jorrid_ok | (simp only [ok_mk, ok3_eq]) | (intro _ _ _) | (intro _ _) | split
    | (dsimp only))

theorem execRegionSetAttr_ok {s : State} {i : MbxInst} {h : JHdr} {region : Nat} {qos : Nat} {pref : Bool} {onAck : Bool} (hok : Ok pq s) :
    OutOk pq (execRegionSetAttr i h region qos pref onAck s) := by
  unfold execRegionSetAttr
  try dsimp only
  repeat' (first
    | with_reducible assumption | exact True.intro | with_reducible apply outOk_next | with_reducible apply outOk_ite
    | with_reducible apply State.onAck_ok | with_reducible apply State.jorrid_ok | (simp only [ok_mk, ok3_eq])
    | (intro _ _ _) | (intro _ _) | split | (dsimp only))

theorem execRegionForceOnline_ok {s : State} {i : MbxInst} {h : JHdr} {region : Nat} {auth : Bool} (hok : Ok pq s) :
    OutOk pq (execRegionForceOnline i h region auth s) := by
  unfold execRegionForceOnline
  try dsimp only
  repeat' (first
    | with_reducible assumption | exact True.intro | with_reducible apply outOk_next | with_reducible apply outOk_ite
    | with_reducible apply State.jorrid_ok | (simp only [ok_mk, ok3_eq]) | (intro _ _ _) | (intro _ _) | split
    | (dsimp only))

theorem execRegionInfo_ok {s : State} {i : MbxInst} {h : JHdr} {region : Nat} (hok : Ok pq s) :
    OutOk pq (execRegionInfo i h region s) := by
  unfold execRegionInfo
  try dsimp only
  repeat' (first
    | with_reducible assumption | exact True.intro | with_reducible apply outOk_next | with_reducible apply outOk_ite
    | with_reducible apply State.jorrid_ok | (simp only [ok_mk, ok3_eq]) | (intro _ _ _) | (intro _ _) | split
    | (dsimp only))

theorem execLdBind_ok {s : State} {i : MbxInst} {h : JHdr} {ld : Nat} {host : Nat} (hok : Ok pq s) :
    OutOk pq (execLdBind i h ld host s) := by
  unfold execLdBind
  try dsimp only
  repeat' (first
    | with_reducible assumption | exact True.intro | with_reducible apply outOk_next | with_reducible apply outOk_ite
    | with_reducible apply State.jorrid_ok | (simp only [ok_mk, ok3_eq]) | (intro _ _ _) | (intro _ _) | split
    | (dsimp only))

theorem execLdUnbind_ok {s : State} {i : MbxInst} {h : JHdr} {ld : Nat} (hok : Ok pq s) :
    OutOk pq (execLdUnbind i h ld s) := by
  unfold execLdUnbind
  try dsimp only
  repeat' (first
    | with_reducible assumption | exact True.intro | with_reducible apply outOk_next | with_reducible apply outOk_ite
    | with_reducible apply State.jorrid_ok | (simp only [ok_mk, ok3_eq]) | (intro _ _ _) | (intro _ _) | split
    | (dsimp only))

theorem execSetDurability_ok {s : State} {i : MbxInst} {h : JHdr} {ld : Nat} {ctm : Bool} (hok : Ok pq s) :
    OutOk pq (execSetDurability i h ld ctm s) := by
  unfold execSetDurability
  try dsimp only
  repeat' (first
    | with_reducible assumption | exact True.intro | with_reducible apply outOk_next | with_reducible apply outOk_ite
    | with_reducible apply State.jorrid_ok | (simp only [ok_mk, ok3_eq]) | (intro _ _ _) | (intro _ _) | split
    | (dsimp only))

theorem execExtentAdd_ok {s : State} {i : MbxInst} {h : JHdr} {ld : Nat} {dcRegion : Nat} {dpa : Nat} {len : Nat} {region : Nat} {rof : Nat} (hok : Ok pq s) :
    OutOk pq (execExtentAdd i h ld dcRegion dpa len region rof s) := by
  unfold execExtentAdd
  try dsimp only
  repeat' (first
    | with_reducible assumption | exact True.intro | with_reducible apply outOk_next | with_reducible apply outOk_ite
    | with_reducible apply State.jorrid_ok | (simp only [ok_mk, ok3_eq]) | (intro _ _ _) | (intro _ _) | split
    | (dsimp only))

theorem execExtentRelease_ok {s : State} {i : MbxInst} {h : JHdr} {ld : Nat} {region : Nat} {rof : Nat} {gen : Nat} {force : Bool} (hok : Ok pq s) :
    OutOk pq (execExtentRelease i h ld region rof gen force s) := by
  unfold execExtentRelease
  try dsimp only
  repeat' (first
    | with_reducible assumption | exact True.intro | with_reducible apply outOk_next | with_reducible apply outOk_ite
    | with_reducible apply State.jorrid_ok | (simp only [ok_mk, ok3_eq]) | (intro _ _ _) | (intro _ _) | split
    | (dsimp only))

theorem execNotifyVector_ok {s : State} {i : MbxInst} {h : JHdr} {ld : Nat} {vector : Nat} {source : Nat} (hok : Ok pq s) :
    OutOk pq (execNotifyVector i h ld vector source s) := by
  unfold execNotifyVector
  try dsimp only
  repeat' (first
    | with_reducible assumption | exact True.intro | with_reducible apply outOk_next | with_reducible apply outOk_ite
    | with_reducible apply State.jorrid_ok | (simp only [ok_mk, ok3_eq]) | (intro _ _ _) | (intro _ _) | split
    | (dsimp only))

theorem execLeaseGrant_ok {s : State} {i : MbxInst} {h : JHdr} {host : Nat} {cred : Nat} {mgmt : Bool} {maxQp : Option Nat} {maxMkey : Option Nat} (hok : Ok pq s) :
    OutOk pq (execLeaseGrant i h host cred mgmt maxQp maxMkey s) := by
  unfold execLeaseGrant
  try dsimp only
  repeat' (first
    | with_reducible assumption | exact True.intro | with_reducible apply outOk_next | with_reducible apply outOk_ite
    | with_reducible apply State.jorrid_ok | (simp only [ok_mk, ok3_eq]) | (intro _ _ _) | (intro _ _) | split
    | (dsimp only))

theorem execLeaseChange_ok {s : State} {i : MbxInst} {h : JHdr} {host : Nat} {cred : Nat} {mgmt : Bool} {maxQp : Nat} {maxMkey : Nat} (hok : Ok pq s) :
    OutOk pq (execLeaseChange i h host cred mgmt maxQp maxMkey s) := by
  unfold execLeaseChange
  try dsimp only
  repeat' (first
    | with_reducible assumption | exact True.intro | with_reducible apply outOk_next | with_reducible apply outOk_ite
    | with_reducible apply State.jorrid_ok | (simp only [ok_mk, ok3_eq]) | (intro _ _ _) | (intro _ _) | split
    | (dsimp only))

theorem execLeaseRevoke_ok {s : State} {i : MbxInst} {h : JHdr} {host : Nat} (hok : Ok pq s) :
    OutOk pq (execLeaseRevoke i h host s) := by
  unfold execLeaseRevoke
  try dsimp only
  repeat' (first
    | with_reducible assumption | exact True.intro | with_reducible apply outOk_next | with_reducible apply outOk_ite
    | with_reducible apply State.jorrid_ok | (simp only [ok_mk, ok3_eq]) | (intro _ _ _) | (intro _ _) | split
    | (dsimp only))

theorem execMkeyRegisterFor_ok {s : State} {i : MbxInst} {h : JHdr} {host : Nat} {region : Nat} {verbs : Nat} {tag : Nat} {rof : Nat} {va : Nat} {len : Nat} (hok : Ok pq s) :
    OutOk pq (execMkeyRegisterFor i h host region verbs tag rof va len s) := by
  unfold execMkeyRegisterFor
  try dsimp only
  repeat' (first
    | with_reducible assumption | exact True.intro | with_reducible apply outOk_next | with_reducible apply outOk_ite
    | with_reducible apply State.jorrid_ok | (simp only [ok_mk, ok3_eq]) | (intro _ _ _) | (intro _ _) | split
    | (dsimp only))

theorem execMkeyInvalidateFor_ok {s : State} {i : MbxInst} {h : JHdr} {rkey : Nat} (hok : Ok pq s) :
    OutOk pq (execMkeyInvalidateFor i h rkey s) := by
  unfold execMkeyInvalidateFor
  try dsimp only
  repeat' (first
    | with_reducible assumption | exact True.intro | with_reducible apply outOk_next | with_reducible apply outOk_ite
    | with_reducible apply State.jorrid_ok | (simp only [ok_mk, ok3_eq]) | (intro _ _ _) | (intro _ _) | split
    | (dsimp only))

theorem execSqCreate_ok {s : State} {i : MbxInst} {h : JHdr} {sq : Nat} {host : Nat} {addr : Nat} {log2 : Nat} {cq : Nat} {limit : Option Nat} {maint : Bool} (hok : Ok pq s) :
    OutOk pq (execSqCreate i h sq host addr log2 cq limit maint s) := by
  unfold execSqCreate
  try dsimp only
  repeat' (first
    | with_reducible assumption | exact True.intro | with_reducible apply outOk_next | with_reducible apply outOk_ite
    | with_reducible apply State.jorrid_ok | (simp only [ok_mk, ok3_eq]) | (intro _ _ _) | (intro _ _) | split
    | (dsimp only))

theorem execSqDelete_ok {s : State} {i : MbxInst} {h : JHdr} {sq : Nat} (hok : Ok pq s) :
    OutOk pq (execSqDelete i h sq s) := by
  unfold execSqDelete
  try dsimp only
  repeat' (first
    | with_reducible assumption | exact True.intro | with_reducible apply outOk_next | with_reducible apply outOk_ite
    | with_reducible apply State.jorrid_ok | (simp only [ok_mk, ok3_eq]) | (intro _ _ _) | (intro _ _) | split
    | (dsimp only))

theorem execSqStop_ok {s : State} {i : MbxInst} {h : JHdr} {sq : Nat} (hok : Ok pq s) :
    OutOk pq (execSqStop i h sq s) := by
  unfold execSqStop
  try dsimp only
  repeat' (first
    | with_reducible assumption | exact True.intro | with_reducible apply outOk_next | with_reducible apply outOk_ite
    | with_reducible apply State.jorrid_ok | (simp only [ok_mk, ok3_eq]) | (intro _ _ _) | (intro _ _) | split
    | (dsimp only))

theorem execSqResume_ok {s : State} {i : MbxInst} {h : JHdr} {sq : Nat} (hok : Ok pq s) :
    OutOk pq (execSqResume i h sq s) := by
  unfold execSqResume
  try dsimp only
  repeat' (first
    | with_reducible assumption | exact True.intro | with_reducible apply outOk_next | with_reducible apply outOk_ite
    | with_reducible apply State.jorrid_ok | (simp only [ok_mk, ok3_eq]) | (intro _ _ _) | (intro _ _) | split
    | (dsimp only))

theorem execSqReset_ok {s : State} {i : MbxInst} {h : JHdr} {sq : Nat} (hok : Ok pq s) :
    OutOk pq (execSqReset i h sq s) := by
  unfold execSqReset
  try dsimp only
  repeat' (first
    | with_reducible assumption | exact True.intro | with_reducible apply outOk_next | with_reducible apply outOk_ite
    | with_reducible apply State.jorrid_ok | (simp only [ok_mk, ok3_eq]) | (intro _ _ _) | (intro _ _) | split
    | (dsimp only))

theorem execCqCreate_ok {s : State} {i : MbxInst} {h : JHdr} {cq : Nat} {host : Nat} {addr : Nat} {log2 : Nat} {t0 : Target} {t1 : Target} {vector : Nat} {window : Option Nat} (hok : Ok pq s) :
    OutOk pq (execCqCreate i h cq host addr log2 t0 t1 vector window s) := by
  unfold execCqCreate
  try dsimp only
  repeat' (first
    | with_reducible assumption | exact True.intro | with_reducible apply outOk_next | with_reducible apply outOk_ite
    | with_reducible apply State.jorrid_ok | (simp only [ok_mk, ok3_eq]) | (intro _ _ _) | (intro _ _) | split
    | (dsimp only))

theorem execCqDelete_ok {s : State} {i : MbxInst} {h : JHdr} {cq : Nat} (hok : Ok pq s) :
    OutOk pq (execCqDelete i h cq s) := by
  unfold execCqDelete
  try dsimp only
  repeat' (first
    | with_reducible assumption | exact True.intro | with_reducible apply outOk_next | with_reducible apply outOk_ite
    | with_reducible apply State.jorrid_ok | (simp only [ok_mk, ok3_eq]) | (intro _ _ _) | (intro _ _) | split
    | (dsimp only))

theorem execCqSetTarget_ok {s : State} {i : MbxInst} {h : JHdr} {cq : Nat} {twin : Bool} {t : Target} (hok : Ok pq s) :
    OutOk pq (execCqSetTarget i h cq twin t s) := by
  unfold execCqSetTarget
  try dsimp only
  repeat' (first
    | with_reducible assumption | exact True.intro | with_reducible apply outOk_next | with_reducible apply outOk_ite
    | with_reducible apply State.jorrid_ok | (simp only [ok_mk, ok3_eq]) | (intro _ _ _) | (intro _ _) | split
    | (dsimp only))

theorem execTwinRelease_ok {s : State} {i : MbxInst} {h : JHdr} (hok : Ok pq s) :
    OutOk pq (execTwinRelease i h s) := by
  unfold execTwinRelease
  try dsimp only
  repeat' (first
    | with_reducible assumption | exact True.intro | with_reducible apply outOk_next | with_reducible apply outOk_ite
    | with_reducible apply State.jorrid_ok | (simp only [ok_mk, ok3_eq]) | (intro _ _ _) | (intro _ _) | split
    | (dsimp only))

theorem execTwinTakeover_ok {s : State} {i : MbxInst} {h : JHdr} (hok : Ok pq s) :
    OutOk pq (execTwinTakeover i h s) := by
  unfold execTwinTakeover
  try dsimp only
  repeat' (first
    | with_reducible assumption | exact True.intro | with_reducible apply outOk_next | with_reducible apply outOk_ite
    | with_reducible apply State.jorrid_ok | (simp only [ok_mk, ok3_eq]) | (intro _ _ _) | (intro _ _) | split
    | (dsimp only))

theorem execTwinRetrain_ok {s : State} {i : MbxInst} {h : JHdr} (hok : Ok pq s) :
    OutOk pq (execTwinRetrain i h s) := by
  unfold execTwinRetrain
  try dsimp only
  repeat' (first
    | with_reducible assumption | exact True.intro | with_reducible apply outOk_next | with_reducible apply outOk_ite
    | with_reducible apply State.jorrid_ok | (simp only [ok_mk, ok3_eq]) | (intro _ _ _) | (intro _ _) | split
    | (dsimp only))

theorem execScrubStart_ok {s : State} {i : MbxInst} {h : JHdr} {first : Nat} {last : Nat} {mask : Nat} {rate : Nat} (hok : Ok pq s) :
    OutOk pq (execScrubStart i h first last mask rate s) := by
  unfold execScrubStart
  try dsimp only
  repeat' (first
    | with_reducible assumption | exact True.intro | with_reducible apply outOk_next | with_reducible apply outOk_ite
    | with_reducible apply State.scrubStart_ok | with_reducible apply State.jorrid_ok | (simp only [ok_mk, ok3_eq])
    | (intro _ _ _) | (intro _ _) | split | (dsimp only))

theorem execCapTest_ok {s : State} {i : MbxInst} {h : JHdr} (hok : Ok pq s) :
    OutOk pq (execCapTest i h s) := by
  unfold execCapTest
  try dsimp only
  repeat' (first
    | with_reducible assumption | exact True.intro | with_reducible apply outOk_next | with_reducible apply outOk_ite
    | with_reducible apply State.jorrid_ok | (simp only [ok_mk, ok3_eq]) | (intro _ _ _) | (intro _ _) | split
    | (dsimp only))

theorem execSavePlanned_ok {s : State} {i : MbxInst} {h : JHdr} (hok : Ok pq s) :
    OutOk pq (execSavePlanned i h s) := by
  unfold execSavePlanned
  try dsimp only
  repeat' (first
    | with_reducible assumption | exact True.intro | with_reducible apply outOk_next | with_reducible apply outOk_ite
    | with_reducible apply State.jorrid_ok | (simp only [ok_mk, ok3_eq]) | (intro _ _ _) | (intro _ _) | split
    | (dsimp only))

theorem execEventRead_ok {s : State} {i : MbxInst} {h : JHdr} {cursor : Nat} {count : Nat} (hok : Ok pq s) :
    OutOk pq (execEventRead i h cursor count s) := by
  unfold execEventRead
  try dsimp only
  repeat' (first
    | with_reducible assumption | exact True.intro | with_reducible apply outOk_next | with_reducible apply outOk_ite
    | with_reducible apply State.count_ok | with_reducible apply State.jorrid_ok | (simp only [ok_mk, ok3_eq])
    | (intro _ _ _) | (intro _ _) | split | (dsimp only))

theorem execEventQueueSet_ok {s : State} {i : MbxInst} {h : JHdr} {slot : Nat} {qpn : Nat} {mask : Nat} {severity : Nat} (hok : Ok pq s) :
    OutOk pq (execEventQueueSet i h slot qpn mask severity s) := by
  unfold execEventQueueSet
  try dsimp only
  repeat' (first
    | with_reducible assumption | exact True.intro | with_reducible apply outOk_next | with_reducible apply outOk_ite
    | with_reducible apply State.jorrid_ok | (simp only [ok_mk, ok3_eq]) | (intro _ _ _) | (intro _ _) | split
    | (dsimp only))

theorem execFwInfo_ok {s : State} {i : MbxInst} {h : JHdr} (hok : Ok pq s) :
    OutOk pq (execFwInfo i h s) := by
  unfold execFwInfo
  try dsimp only
  repeat' (first
    | with_reducible assumption | exact True.intro | with_reducible apply outOk_next | with_reducible apply outOk_ite
    | with_reducible apply State.jorrid_ok | (simp only [ok_mk, ok3_eq]) | (intro _ _ _) | (intro _ _) | split
    | (dsimp only))

theorem execFwTransferInitiate_ok {s : State} {i : MbxInst} {h : JHdr} {slotB : Bool} {total : Nat} (hok : Ok pq s) :
    OutOk pq (execFwTransferInitiate i h slotB total s) := by
  unfold execFwTransferInitiate
  try dsimp only
  repeat' (first
    | with_reducible assumption | exact True.intro | with_reducible apply outOk_next | with_reducible apply outOk_ite
    | with_reducible apply State.jorrid_ok | (simp only [ok_mk, ok3_eq]) | (intro _ _ _) | (intro _ _) | split
    | (dsimp only))

theorem execFwTransferContinue_ok {s : State} {i : MbxInst} {h : JHdr} {slotB : Bool} {offset : Nat} {data : List Byte} (hok : Ok pq s) :
    OutOk pq (execFwTransferContinue i h slotB offset data s) := by
  unfold execFwTransferContinue
  try dsimp only
  repeat' (first
    | with_reducible assumption | exact True.intro | with_reducible apply outOk_next | with_reducible apply outOk_ite
    | with_reducible apply State.jorrid_ok | (simp only [ok_mk, ok3_eq]) | (intro _ _ _) | (intro _ _) | split
    | (dsimp only))

theorem execFwTransferEnd_ok {s : State} {i : MbxInst} {h : JHdr} {slotB : Bool} {verifies : Bool} (hok : Ok pq s) :
    OutOk pq (execFwTransferEnd i h slotB verifies s) := by
  unfold execFwTransferEnd
  try dsimp only
  repeat' (first
    | with_reducible assumption | exact True.intro | with_reducible apply outOk_next | with_reducible apply outOk_ite
    | with_reducible apply State.jorrid_ok | (simp only [ok_mk, ok3_eq]) | (intro _ _ _) | (intro _ _) | split
    | (dsimp only))

theorem execFwTransferAbort_ok {s : State} {i : MbxInst} {h : JHdr} {slotB : Bool} (hok : Ok pq s) :
    OutOk pq (execFwTransferAbort i h slotB s) := by
  unfold execFwTransferAbort
  try dsimp only
  repeat' (first
    | with_reducible assumption | exact True.intro | with_reducible apply outOk_next | with_reducible apply outOk_ite
    | with_reducible apply State.jorrid_ok | (simp only [ok_mk, ok3_eq]) | (intro _ _ _) | (intro _ _) | split
    | (dsimp only))

theorem execFwActivateLive_ok {s : State} {i : MbxInst} {h : JHdr} {slotB : Bool} (hok : Ok pq s) :
    OutOk pq (execFwActivateLive i h slotB s) := by
  unfold execFwActivateLive
  try dsimp only
  repeat' (first
    | with_reducible assumption | exact True.intro | with_reducible apply outOk_next | with_reducible apply outOk_ite
    | with_reducible apply State.jorrid_ok | (simp only [ok_mk, ok3_eq]) | (intro _ _ _) | (intro _ _) | split
    | (dsimp only))

theorem execFwActivateNextReset_ok {s : State} {i : MbxInst} {h : JHdr} {slotB : Bool} (hok : Ok pq s) :
    OutOk pq (execFwActivateNextReset i h slotB s) := by
  unfold execFwActivateNextReset
  try dsimp only
  repeat' (first
    | with_reducible assumption | exact True.intro | with_reducible apply outOk_next | with_reducible apply outOk_ite
    | with_reducible apply State.jorrid_ok | (simp only [ok_mk, ok3_eq]) | (intro _ _ _) | (intro _ _) | split
    | (dsimp only))

theorem execProvision_ok {s : State} {i : MbxInst} {h : JHdr} {twin : Bool} {applianceId : Nat} {rails : List (Nat × Nat)} {replace : Bool} (hok : Ok pq s) :
    OutOk pq (execProvision i h twin applianceId rails replace s) := by
  unfold execProvision
  try dsimp only
  repeat' (first
    | with_reducible assumption | exact True.intro | with_reducible apply outOk_next | with_reducible apply outOk_ite
    | with_reducible apply State.jorrid_ok | (simp only [ok_mk, ok3_eq]) | (intro _ _ _) | (intro _ _) | split
    | (dsimp only))

theorem execJorridAccept_ok {s : State} {i : MbxInst} {h : JHdr} {c : JorridCmd} (hok : Ok pq s) :
    OutOk pq (execJorridAccept i h c s) := by
  unfold execJorridAccept
  try dsimp only
  repeat' (first
    | with_reducible assumption | exact True.intro | with_reducible apply outOk_next | with_reducible apply outOk_ite
    | with_reducible apply State.jorrid_ok | (simp only [ok_mk, ok3_eq]) | (intro _ _ _) | (intro _ _) | split
    | (dsimp only))

theorem execForegroundLimitExpiry_ok {s : State} {i : MbxInst} (hok : Ok pq s) :
    OutOk pq (execForegroundLimitExpiry i s) := by
  unfold execForegroundLimitExpiry
  try dsimp only
  repeat' (first
    | with_reducible assumption | exact True.intro | with_reducible apply outOk_next | with_reducible apply outOk_ite
    | with_reducible apply ok_ite | with_reducible apply ok_ite_fst | with_reducible apply State.draw_ok
    | (with_reducible refine State.draw_ok_of (by assumption) ?_) | with_reducible apply State.modMb_ok
    | with_reducible apply State.mbxSay_ok | (simp only [ok_mk, ok3_eq]) | (intro _ _ _) | (intro _ _) | split
    | (dsimp only))

theorem execJorridCommandComplete_ok {s : State} {i : MbxInst} (hok : Ok pq s) :
    OutOk pq (execJorridCommandComplete i s) := by
  unfold execJorridCommandComplete
  try dsimp only
  repeat' (first
    | with_reducible assumption | exact True.intro | with_reducible apply outOk_next | with_reducible apply outOk_ite
    | with_reducible apply ok_ite | with_reducible apply ok_ite_fst | with_reducible apply State.settle_ok
    | with_reducible apply State.mbxEnd_ok | with_reducible apply State.reclaim_ok
    | with_reducible apply State.jServe_ok | (simp only [ok_mk, ok3_eq]) | (intro _ _ _) | (intro _ _) | split
    | (dsimp only))

theorem execMctpEndpointIdle_ok {s : State} {eid : Nat} (hok : Ok pq s) :
    OutOk pq (execMctpEndpointIdle eid s) := by
  unfold execMctpEndpointIdle
  try dsimp only
  repeat' (first
    | with_reducible assumption | exact True.intro | with_reducible apply outOk_next | with_reducible apply outOk_ite
    | with_reducible apply State.mbxReset_ok | (simp only [ok_mk, ok3_eq]) | (intro _ _ _) | (intro _ _) | split
    | (dsimp only))

theorem State.liveReady_ok {s : State} {b : Bool} {haltUs : Nat} (hok : Ok pq s) :
    Ok pq (State.liveReady s b haltUs) := by
  unfold State.liveReady
  try dsimp only
  repeat' (first
    | with_reducible assumption | with_reducible apply ok_foldl | with_reducible apply ok_foldl_fst
    | with_reducible apply State.setFld_ok | with_reducible apply State.setBit_ok
    | with_reducible apply State.flagRecord_ok | with_reducible apply State.settle_ok
    | with_reducible apply State.mbxOk_ok | with_reducible apply State.slotActive_ok
    | with_reducible apply State.setPhase_ok | with_reducible apply State.notePhase_ok
    | with_reducible apply State.cmServe_ok | with_reducible apply State.jHeldAll_ok
    | with_reducible apply State.idle_ok | (simp only [ok_mk, ok3_eq]) | (intro _ _ _) | (intro _ _) | split
    | (dsimp only))

theorem execLiveActivationReady_ok {s : State} {haltUs : Nat} (hok : Ok pq s) :
    OutOk pq (execLiveActivationReady haltUs s) := by
  unfold execLiveActivationReady
  try dsimp only
  repeat' (first
    | with_reducible assumption | exact True.intro | with_reducible apply outOk_next | with_reducible apply outOk_ite
    | with_reducible apply ok_ite | with_reducible apply ok_ite_fst | with_reducible apply State.liveReady_ok
    | (simp only [ok_mk, ok3_eq]) | (intro _ _ _) | (intro _ _) | split | (dsimp only))

theorem execActivationTimeout_ok {s : State} (hok : Ok pq s) :
    OutOk pq (execActivationTimeout s) := by
  unfold execActivationTimeout
  try dsimp only
  repeat' (first
    | with_reducible assumption | exact True.intro | with_reducible apply outOk_next | with_reducible apply outOk_ite
    | with_reducible apply State.flagRecord_ok | with_reducible apply State.modSlot_ok
    | with_reducible apply State.warmStart_ok | (simp only [ok_mk, ok3_eq]) | (intro _ _ _) | (intro _ _) | split
    | (dsimp only))

theorem State.pldmSend_ok {s : State} {eid : Nat} {cmd : Nat} {code : Nat} {body : List Nat} (hok : Ok pq s) :
    Ok pq (State.pldmSend s eid cmd code body) := by
  unfold State.pldmSend
  try dsimp only
  repeat' (first
    | with_reducible assumption | with_reducible apply State.emit_ok | with_reducible apply State.mctpSend_ok
    | (simp only [ok_mk, ok3_eq]) | (intro _ _ _) | (intro _ _) | split | (dsimp only))

theorem State.pldmIn_ok {s : State} {eid : Nat} {cmd : Nat} {ok : PldmState → Bool} {f : State → State} (hok : Ok pq s) (hf : ∀ t0, Ok pq t0 → Ok pq (f t0)) :
    Ok pq (State.pldmIn s eid cmd ok f) := by
  unfold State.pldmIn
  try dsimp only
  repeat' (first
    | with_reducible assumption | with_reducible apply ok_ite | with_reducible apply ok_ite_fst
    | with_reducible apply State.pldmSend_ok | with_reducible apply State.idle_ok | with_reducible apply hf
    | (simp only [ok_mk, ok3_eq]) | (intro _ _ _) | (intro _ _) | split | (dsimp only))

theorem State.pldmTo_ok {s : State} {p : PldmState} (hok : Ok pq s) :
    Ok pq (State.pldmTo s p) := by
  unfold State.pldmTo
  try dsimp only
  repeat' (first
    | with_reducible assumption | (simp only [ok_mk, ok3_eq]) | (intro _ _ _) | (intro _ _) | split | (dsimp only))

theorem execQueryDeviceIdentifiers_ok {s : State} {eid : Nat} (hok : Ok pq s) :
    OutOk pq (execQueryDeviceIdentifiers eid s) := by
  unfold execQueryDeviceIdentifiers
  try dsimp only
  repeat' (first
    | with_reducible assumption | exact True.intro | with_reducible apply outOk_next | with_reducible apply outOk_ite
    | with_reducible apply ok_ite | with_reducible apply ok_ite_fst | with_reducible apply State.pldmSend_ok
    | (simp only [ok_mk, ok3_eq]) | (intro _ _ _) | (intro _ _) | split | (dsimp only))

theorem execGetFirmwareParameters_ok {s : State} {eid : Nat} (hok : Ok pq s) :
    OutOk pq (execGetFirmwareParameters eid s) := by
  unfold execGetFirmwareParameters
  try dsimp only
  repeat' (first
    | with_reducible assumption | exact True.intro | with_reducible apply outOk_next | with_reducible apply outOk_ite
    | with_reducible apply ok_ite | with_reducible apply ok_ite_fst | with_reducible apply State.pldmSend_ok
    | (simp only [ok_mk, ok3_eq]) | (intro _ _ _) | (intro _ _) | split | (dsimp only))

theorem execPldmGetStatus_ok {s : State} {eid : Nat} (hok : Ok pq s) :
    OutOk pq (execPldmGetStatus eid s) := by
  unfold execPldmGetStatus
  try dsimp only
  repeat' (first
    | with_reducible assumption | exact True.intro | with_reducible apply outOk_next | with_reducible apply outOk_ite
    | with_reducible apply ok_ite | with_reducible apply ok_ite_fst | with_reducible apply State.pldmSend_ok
    | (simp only [ok_mk, ok3_eq]) | (intro _ _ _) | (intro _ _) | split | (dsimp only))

theorem execRequestUpdate_ok {s : State} {eid : Nat} {maxTransfer : Nat} (hok : Ok pq s) :
    OutOk pq (execRequestUpdate eid maxTransfer s) := by
  unfold execRequestUpdate
  try dsimp only
  repeat' (first
    | with_reducible assumption | exact True.intro | with_reducible apply outOk_next | with_reducible apply outOk_ite
    | with_reducible apply ok_ite | with_reducible apply ok_ite_fst | with_reducible apply State.pldmSend_ok
    | with_reducible apply State.pldmTo_ok | with_reducible apply State.idle_ok | (simp only [ok_mk, ok3_eq])
    | (intro _ _ _) | (intro _ _) | split | (dsimp only))

theorem execPassComponentTable_ok {s : State} {eid : Nat} {version : Nat} (hok : Ok pq s) :
    OutOk pq (execPassComponentTable eid version s) := by
  unfold execPassComponentTable
  try dsimp only
  repeat' (first
    | with_reducible assumption | exact True.intro | with_reducible apply outOk_next | with_reducible apply outOk_ite
    | with_reducible apply State.pldmSend_ok | with_reducible apply State.pldmIn_ok
    | with_reducible apply State.pldmTo_ok | (simp only [ok_mk, ok3_eq]) | (intro _ _ _) | (intro _ _) | split
    | (dsimp only))

theorem State.pldmAsk_ok {s : State} {eid : Nat} (hok : Ok pq s) :
    Ok pq (State.pldmAsk s eid) := by
  unfold State.pldmAsk
  try dsimp only
  repeat' (first
    | with_reducible assumption | with_reducible apply State.pldmSend_ok | (simp only [ok_mk, ok3_eq]) | (intro _ _ _)
    | (intro _ _) | split | (dsimp only))

theorem State.loadPoll_ok {s : State} (hok : Ok pq s) :
    Ok pq (State.loadPoll s) := by
  unfold State.loadPoll
  try dsimp only
  repeat' (first
    | with_reducible assumption | with_reducible apply ok_ite | with_reducible apply ok_ite_fst
    | with_reducible apply State.emit_ok | with_reducible apply State.pldmAsk_ok | (simp only [ok_mk, ok3_eq])
    | (intro _ _ _) | (intro _ _) | split | (dsimp only))

theorem execEflEraseDone_ok {s : State} (hok : Ok pq s) :
    OutOk pq (execEflEraseDone s) := by
  unfold execEflEraseDone
  try dsimp only
  repeat' (first
    | with_reducible assumption | exact True.intro | with_reducible apply outOk_next | with_reducible apply outOk_ite
    | with_reducible apply State.downCheck_ok | with_reducible apply State.eraseDone_ok
    | with_reducible apply State.loadPoll_ok | (simp only [ok_mk, ok3_eq]) | (intro _ _ _) | (intro _ _) | split
    | (dsimp only))

theorem execAonBrownoutClear_ok {s : State} (hok : Ok pq s) :
    OutOk pq (execAonBrownoutClear s) := by
  unfold execAonBrownoutClear
  try dsimp only
  repeat' (first
    | with_reducible assumption | exact True.intro | with_reducible apply outOk_next | with_reducible apply outOk_ite
    | with_reducible apply State.downCheck_ok | with_reducible apply State.brownoutEnd_ok
    | (simp only [ok_mk, ok3_eq]) | (intro _ _ _) | (intro _ _) | split | (dsimp only))

theorem execUpdateComponent_ok {s : State} {eid : Nat} {slotB : Bool} {total : Nat} (hok : Ok pq s) :
    OutOk pq (execUpdateComponent eid slotB total s) := by
  unfold execUpdateComponent
  try dsimp only
  repeat' (first
    | with_reducible assumption | exact True.intro | with_reducible apply outOk_next | with_reducible apply outOk_ite
    | with_reducible apply ok_ite | with_reducible apply ok_ite_fst | with_reducible apply State.loadBegin_ok
    | with_reducible apply State.pldmSend_ok | with_reducible apply State.pldmIn_ok
    | with_reducible apply State.pldmTo_ok | with_reducible apply State.loadPoll_ok | (simp only [ok_mk, ok3_eq])
    | (intro _ _ _) | (intro _ _) | split | (dsimp only))

theorem execCancelUpdateComponent_ok {s : State} {eid : Nat} (hok : Ok pq s) :
    OutOk pq (execCancelUpdateComponent eid s) := by
  unfold execCancelUpdateComponent
  try dsimp only
  repeat' (first
    | with_reducible assumption | exact True.intro | with_reducible apply outOk_next | with_reducible apply outOk_ite
    | with_reducible apply State.loadDrop_ok | with_reducible apply State.pldmSend_ok
    | with_reducible apply State.pldmIn_ok | with_reducible apply State.pldmTo_ok | (simp only [ok_mk, ok3_eq])
    | (intro _ _ _) | (intro _ _) | split | (dsimp only))

theorem execCancelUpdate_ok {s : State} {eid : Nat} (hok : Ok pq s) :
    OutOk pq (execCancelUpdate eid s) := by
  unfold execCancelUpdate
  try dsimp only
  repeat' (first
    | with_reducible assumption | exact True.intro | with_reducible apply outOk_next | with_reducible apply outOk_ite
    | with_reducible apply ok_ite | with_reducible apply ok_ite_fst | with_reducible apply State.loadDrop_ok
    | with_reducible apply State.pldmSend_ok | with_reducible apply State.pldmIn_ok
    | with_reducible apply State.pldmTo_ok | with_reducible apply State.idle_ok | (simp only [ok_mk, ok3_eq])
    | (intro _ _ _) | (intro _ _) | split | (dsimp only))

theorem execRequestFirmwareData_ok {s : State} {eid : Nat} {data : List Byte} (hok : Ok pq s) :
    OutOk pq (execRequestFirmwareData eid data s) := by
  unfold execRequestFirmwareData
  try dsimp only
  repeat' (first
    | with_reducible assumption | exact True.intro | with_reducible apply outOk_next | with_reducible apply outOk_ite
    | with_reducible apply ok_ite | with_reducible apply ok_ite_fst | with_reducible apply State.loadPut_ok
    | with_reducible apply State.pldmAsk_ok | (simp only [ok_mk, ok3_eq]) | (intro _ _ _) | (intro _ _) | split
    | (dsimp only))

theorem execTransferComplete_ok {s : State} {eid : Nat} (hok : Ok pq s) :
    OutOk pq (execTransferComplete eid s) := by
  unfold execTransferComplete
  try dsimp only
  repeat' (first
    | with_reducible assumption | exact True.intro | with_reducible apply outOk_next | with_reducible apply outOk_ite
    | with_reducible apply ok_ite | with_reducible apply ok_ite_fst | with_reducible apply State.pldmSend_ok
    | with_reducible apply State.pldmTo_ok | (simp only [ok_mk, ok3_eq]) | (intro _ _ _) | (intro _ _) | split
    | (dsimp only))

theorem execVerifyComplete_ok {s : State} {eid : Nat} {verifies : Bool} (hok : Ok pq s) :
    OutOk pq (execVerifyComplete eid verifies s) := by
  unfold execVerifyComplete
  try dsimp only
  repeat' (first
    | with_reducible assumption | exact True.intro | with_reducible apply outOk_next | with_reducible apply outOk_ite
    | with_reducible apply ok_ite | with_reducible apply ok_ite_fst | with_reducible apply State.modSlot_ok
    | with_reducible apply State.loadDrop_ok | with_reducible apply State.loadTail_ok
    | with_reducible apply State.pldmSend_ok | with_reducible apply State.pldmTo_ok | (simp only [ok_mk, ok3_eq])
    | (intro _ _ _) | (intro _ _) | split | (dsimp only))

theorem execApplyComplete_ok {s : State} {eid : Nat} (hok : Ok pq s) :
    OutOk pq (execApplyComplete eid s) := by
  unfold execApplyComplete
  try dsimp only
  repeat' (first
    | with_reducible assumption | exact True.intro | with_reducible apply outOk_next | with_reducible apply outOk_ite
    | with_reducible apply ok_ite | with_reducible apply ok_ite_fst | with_reducible apply State.modSlot_ok
    | with_reducible apply State.pldmSend_ok | (simp only [ok_mk, ok3_eq]) | (intro _ _ _) | (intro _ _) | split
    | (dsimp only))

theorem execActivateFirmware_ok {s : State} {eid : Nat} {selfContained : Bool} (hok : Ok pq s) :
    OutOk pq (execActivateFirmware eid selfContained s) := by
  unfold execActivateFirmware
  try dsimp only
  repeat' (first
    | with_reducible assumption | exact True.intro | with_reducible apply outOk_next | with_reducible apply outOk_ite
    | with_reducible apply ok_ite | with_reducible apply ok_ite_fst | with_reducible apply State.liveHalt_ok
    | with_reducible apply State.setPending_ok | with_reducible apply State.pldmSend_ok
    | with_reducible apply State.pldmIn_ok | with_reducible apply State.pldmTo_ok | with_reducible apply State.idle_ok
    | (simp only [ok_mk, ok3_eq]) | (intro _ _ _) | (intro _ _) | split | (dsimp only))

end Sys2Proof.Machine
end

