-- ==== Sys2Proof/Laws/KeepsMgt.lean ====
section
/-! SUPPORT. The operations of Machine/Mgt.lean keep memory sound and leave the queue alone. -/

namespace Sys2Proof.Machine

set_option linter.unusedVariables false
set_option linter.unusedTactic false
set_option linter.unreachableTactic false

variable {pq : List Instr}

theorem State.mctpControl_ok {s : State} {eid : Nat} {tag : Nat} {cmd : Nat} {body : List Nat} (hok : Ok pq s) :
    Ok pq (State.mctpControl s eid tag cmd body) := by
  unfold State.mctpControl
  try dsimp only
  repeat' (first
    | with_reducible assumption | with_reducible apply State.emit_ok | with_reducible apply State.mctpSend_ok
    | (simp only [ok_mk, ok3_eq]) | (intro _ _ _) | (intro _ _) | split | (dsimp only))

theorem State.setEid_ok {s : State} {src : Nat} {tag : Nat} {eid : Nat} (hok : Ok pq s) :
    Ok pq (State.setEid s src tag eid) := by
  unfold State.setEid
  try dsimp only
  repeat' (first
    | with_reducible assumption | with_reducible apply ok_ite | with_reducible apply ok_ite_fst
    | with_reducible apply ok_foldl | with_reducible apply ok_foldl_fst | with_reducible apply State.mbxReset_ok
    | with_reducible apply State.mctpControl_ok | (simp only [ok_mk, ok3_eq]) | (intro _ _ _) | (intro _ _) | split
    | (dsimp only))

theorem State.getEid_ok {s : State} {src : Nat} {tag : Nat} (hok : Ok pq s) :
    Ok pq (State.getEid s src tag) := by
  unfold State.getEid
  try dsimp only
  repeat' (first
    | with_reducible assumption | with_reducible apply State.mctpControl_ok | (simp only [ok_mk, ok3_eq])
    | (intro _ _ _) | (intro _ _) | split | (dsimp only))

theorem State.getMctpVersion_ok {s : State} {src : Nat} {tag : Nat} (hok : Ok pq s) :
    Ok pq (State.getMctpVersion s src tag) := by
  unfold State.getMctpVersion
  try dsimp only
  repeat' (first
    | with_reducible assumption | with_reducible apply State.mctpControl_ok | (simp only [ok_mk, ok3_eq])
    | (intro _ _ _) | (intro _ _) | split | (dsimp only))

theorem State.getMsgTypes_ok {s : State} {src : Nat} {tag : Nat} (hok : Ok pq s) :
    Ok pq (State.getMsgTypes s src tag) := by
  unfold State.getMsgTypes
  try dsimp only
  repeat' (first
    | with_reducible assumption | with_reducible apply State.mctpControl_ok | (simp only [ok_mk, ok3_eq])
    | (intro _ _ _) | (intro _ _) | split | (dsimp only))

theorem State.getVendor_ok {s : State} {src : Nat} {tag : Nat} (hok : Ok pq s) :
    Ok pq (State.getVendor s src tag) := by
  unfold State.getVendor
  try dsimp only
  repeat' (first
    | with_reducible assumption | with_reducible apply State.mctpControl_ok | (simp only [ok_mk, ok3_eq])
    | (intro _ _ _) | (intro _ _) | split | (dsimp only))

theorem execSetEndpointId_ok {s : State} {srcEid : Nat} {eid : Nat} (hok : Ok pq s) :
    OutOk pq (execSetEndpointId srcEid eid s) := by
  unfold execSetEndpointId
  try dsimp only
  repeat' (first
    | with_reducible assumption | exact True.intro | with_reducible apply outOk_next | with_reducible apply outOk_ite
    | with_reducible apply State.setEid_ok | (simp only [ok_mk, ok3_eq]) | (intro _ _ _) | (intro _ _) | split
    | (dsimp only))

theorem execGetEndpointId_ok {s : State} {srcEid : Nat} (hok : Ok pq s) :
    OutOk pq (execGetEndpointId srcEid s) := by
  unfold execGetEndpointId
  try dsimp only
  repeat' (first
    | with_reducible assumption | exact True.intro | with_reducible apply outOk_next | with_reducible apply outOk_ite
    | with_reducible apply State.getEid_ok | (simp only [ok_mk, ok3_eq]) | (intro _ _ _) | (intro _ _) | split
    | (dsimp only))

theorem execGetMctpVersionSupport_ok {s : State} {srcEid : Nat} (hok : Ok pq s) :
    OutOk pq (execGetMctpVersionSupport srcEid s) := by
  unfold execGetMctpVersionSupport
  try dsimp only
  repeat' (first
    | with_reducible assumption | exact True.intro | with_reducible apply outOk_next | with_reducible apply outOk_ite
    | with_reducible apply State.getMctpVersion_ok | (simp only [ok_mk, ok3_eq]) | (intro _ _ _) | (intro _ _) | split
    | (dsimp only))

theorem execGetMessageTypeSupport_ok {s : State} {srcEid : Nat} (hok : Ok pq s) :
    OutOk pq (execGetMessageTypeSupport srcEid s) := by
  unfold execGetMessageTypeSupport
  try dsimp only
  repeat' (first
    | with_reducible assumption | exact True.intro | with_reducible apply outOk_next | with_reducible apply outOk_ite
    | with_reducible apply State.getMsgTypes_ok | (simp only [ok_mk, ok3_eq]) | (intro _ _ _) | (intro _ _) | split
    | (dsimp only))

theorem execGetVendorDefinedMessageSupport_ok {s : State} {srcEid : Nat} (hok : Ok pq s) :
    OutOk pq (execGetVendorDefinedMessageSupport srcEid s) := by
  unfold execGetVendorDefinedMessageSupport
  try dsimp only
  repeat' (first
    | with_reducible assumption | exact True.intro | with_reducible apply outOk_next | with_reducible apply outOk_ite
    | with_reducible apply State.getVendor_ok | (simp only [ok_mk, ok3_eq]) | (intro _ _ _) | (intro _ _) | split
    | (dsimp only))

theorem State.mctpControlIn_ok {s : State} {src : Nat} {tag : Nat} {bs : List Byte} (hok : Ok pq s) :
    Ok pq (State.mctpControlIn s src tag bs) := by
  unfold State.mctpControlIn
  try dsimp only
  repeat' (first
    | with_reducible assumption | with_reducible apply State.mctpControl_ok | with_reducible apply State.setEid_ok
    | with_reducible apply State.getEid_ok | with_reducible apply State.getMctpVersion_ok
    | with_reducible apply State.getMsgTypes_ok | with_reducible apply State.getVendor_ok
    | (simp only [ok_mk, ok3_eq]) | (intro _ _ _) | (intro _ _) | split | (dsimp only))

theorem State.jorridBytes_ok {s : State} {src : Nat} {tag : Nat} {bs : List Byte} (hok : Ok pq s) :
    Ok pq (State.jorridBytes s src tag bs) := by
  unfold State.jorridBytes
  try dsimp only
  repeat' (first
    | with_reducible assumption | with_reducible apply ok_ite | with_reducible apply ok_ite_fst
    | with_reducible apply State.modMb_ok | with_reducible apply State.jRefuse_ok
    | with_reducible apply State.jorrid_ok | (simp only [ok_mk, ok3_eq]) | (intro _ _ _) | (intro _ _) | split
    | (dsimp only))

theorem State.spdmBytes_ok {s : State} {src : Nat} {bs : List Byte} (hok : Ok pq s) : Ok pq (State.spdmBytes s src bs) := by
  unfold State.spdmBytes
  split
  · split
    · rename_i t ht
      have := execGetVersion_ok (q := .mgt src) hok
      rw [ht] at this
      exact this
    · exact hok
  · split
    · exact State.spdmWhen_ok hok (fun _ h => State.largeRequest_ok h)
    · exact hok

theorem State.mctpTake_ok {s : State} {src : Nat} {tag : Nat} {bs : List Byte} (hok : Ok pq s) :
    Ok pq (State.mctpTake s src tag bs) := by
  unfold State.mctpTake
  try dsimp only
  repeat' (first
    | with_reducible assumption | with_reducible apply State.jorridBytes_ok | with_reducible apply State.spdmBytes_ok
    | (simp only [ok_mk, ok3_eq]) | (intro _ _ _) | (intro _ _) | split | (dsimp only))

theorem State.pktTake_ok {s : State} {p : MctpPkt} (hok : Ok pq s) :
    Ok pq (State.pktTake s p) := by
  unfold State.pktTake
  try dsimp only
  repeat' (first
    | with_reducible assumption | with_reducible apply ok_ite | with_reducible apply ok_ite_fst
    | with_reducible apply State.mctpTake_ok | (simp only [ok_mk, ok3_eq]) | (intro _ _ _) | (intro _ _) | split
    | (dsimp only))

theorem State.mgtDrain_ok {s : State} (hok : Ok pq s) :
    Ok pq (State.mgtDrain s) := by
  unfold State.mgtDrain
  try dsimp only
  repeat' (first
    | with_reducible assumption | with_reducible apply ok_ite | with_reducible apply ok_ite_fst
    | with_reducible apply ok_foldl | with_reducible apply ok_foldl_fst | with_reducible apply State.pktTake_ok
    | (simp only [ok_mk, ok3_eq]) | (intro _ _ _) | (intro _ _) | split | (dsimp only))

theorem State.smbAck_ok {s : State} {ok : Bool} (hok : Ok pq s) :
    Ok pq (State.smbAck s ok) := by
  unfold State.smbAck
  try dsimp only
  repeat' (first
    | with_reducible assumption | with_reducible apply State.emit_ok | (simp only [ok_mk, ok3_eq]) | (intro _ _ _)
    | (intro _ _) | split | (dsimp only))

theorem execMgtBlockWrite_ok {s : State} {cmd : Nat} {count : Nat} {destEid : Nat} {srcEid : Nat} {tag : Nat} {pktSeq : Nat} {som : Bool} {eom : Bool} {pecOk : Bool} {data : List Byte} (hok : Ok pq s) :
    OutOk pq (execMgtBlockWrite cmd count destEid srcEid tag pktSeq som eom pecOk data s) := by
  unfold execMgtBlockWrite
  try dsimp only
  repeat' (first
    | with_reducible assumption | exact True.intro | with_reducible apply outOk_next | with_reducible apply outOk_ite
    | with_reducible apply ok_ite | with_reducible apply ok_ite_fst | with_reducible apply State.count_ok
    | with_reducible apply State.flag_ok | with_reducible apply State.mctpControlIn_ok
    | with_reducible apply State.mgtDrain_ok | with_reducible apply State.smbAck_ok | (simp only [ok_mk, ok3_eq])
    | (intro _ _ _) | (intro _ _) | split | (dsimp only))

theorem execMgtBlockRead_ok {s : State} {completed : Bool} (hok : Ok pq s) :
    OutOk pq (execMgtBlockRead completed s) := by
  unfold execMgtBlockRead
  try dsimp only
  repeat' (first
    | with_reducible assumption | exact True.intro | with_reducible apply outOk_next | with_reducible apply outOk_ite
    | with_reducible apply ok_ite | with_reducible apply ok_ite_fst | with_reducible apply State.emit_ok
    | with_reducible apply State.mctpFill_ok | (simp only [ok_mk, ok3_eq]) | (intro _ _ _) | (intro _ _) | split
    | (dsimp only))

theorem execAlertResponseRead_ok {s : State} {won : Bool} (hok : Ok pq s) :
    OutOk pq (execAlertResponseRead won s) := by
  unfold execAlertResponseRead
  try dsimp only
  repeat' (first
    | with_reducible assumption | exact True.intro | with_reducible apply outOk_next | with_reducible apply outOk_ite
    | with_reducible apply ok_ite | with_reducible apply ok_ite_fst | with_reducible apply State.emit_ok
    | (simp only [ok_mk, ok3_eq]) | (intro _ _ _) | (intro _ _) | split | (dsimp only))

theorem execAlertReassert_ok {s : State} (hok : Ok pq s) :
    OutOk pq (execAlertReassert s) := by
  unfold execAlertReassert
  try dsimp only
  repeat' (first
    | with_reducible assumption | exact True.intro | with_reducible apply outOk_next | with_reducible apply outOk_ite
    | with_reducible apply State.noteAlert_ok | (simp only [ok_mk, ok3_eq]) | (intro _ _ _) | (intro _ _) | split
    | (dsimp only))

theorem execMgtProtocolError_ok {s : State} {inAck : Bool} (hok : Ok pq s) :
    OutOk pq (execMgtProtocolError inAck s) := by
  unfold execMgtProtocolError
  try dsimp only
  repeat' (first
    | with_reducible assumption | exact True.intro | with_reducible apply outOk_next | with_reducible apply outOk_ite
    | with_reducible apply ok_ite | with_reducible apply ok_ite_fst | with_reducible apply State.count_ok
    | with_reducible apply State.flagRecord_ok | (simp only [ok_mk, ok3_eq]) | (intro _ _ _) | (intro _ _) | split
    | (dsimp only))

theorem execMgtClkLowTimeout_ok {s : State} (hok : Ok pq s) :
    OutOk pq (execMgtClkLowTimeout s) := by
  unfold execMgtClkLowTimeout
  try dsimp only
  repeat' (first
    | with_reducible assumption | exact True.intro | with_reducible apply outOk_next | with_reducible apply outOk_ite
    | with_reducible apply State.count_ok | with_reducible apply State.flag_ok | (simp only [ok_mk, ok3_eq])
    | (intro _ _ _) | (intro _ _) | split | (dsimp only))

theorem execMgtDataLowTimeout_ok {s : State} (hok : Ok pq s) :
    OutOk pq (execMgtDataLowTimeout s) := by
  unfold execMgtDataLowTimeout
  try dsimp only
  repeat' (first
    | with_reducible assumption | exact True.intro | with_reducible apply outOk_next | with_reducible apply outOk_ite
    | with_reducible apply State.flag_ok | (simp only [ok_mk, ok3_eq]) | (intro _ _ _) | (intro _ _) | split
    | (dsimp only))

theorem State.idle_ok {s : State} (hok : Ok pq s) :
    Ok pq (State.idle s) := by
  unfold State.idle
  try dsimp only
  repeat' (first
    | with_reducible assumption | with_reducible apply State.tick_ok | with_reducible apply State.jServeAll_ok
    | with_reducible apply State.jHeldAll_ok | with_reducible apply State.mgtDrain_ok | (simp only [ok_mk, ok3_eq])
    | (intro _ _ _) | (intro _ _) | split | (dsimp only))

end Sys2Proof.Machine
end

