-- ==== Sys2Proof/Laws/KeepsMbxPaths.lean ====
section
/-! SUPPORT. The operations of Machine/MbxPaths.lean keep memory sound and leave the queue alone. -/

namespace Sys2Proof.Machine

set_option linter.unusedVariables false
set_option linter.unusedTactic false
set_option linter.unreachableTactic false

variable {pq : List Instr}

theorem State.cxlTransfer_ok {s : State} {ld : Nat} {action : Nat} {b : Bool} {off : Nat} {total : Nat} {data : List Byte} {verifies : Bool} (hok : Ok pq s) :
    Ok pq (State.cxlTransfer s ld action b off total data verifies).1 := by
  unfold State.cxlTransfer
  try dsimp only
  repeat' (first
    | with_reducible assumption | with_reducible apply ok_ite | with_reducible apply ok_ite_fst
    | with_reducible apply State.loadDrop_ok | with_reducible apply State.loadBegin_ok
    | with_reducible apply State.loadPut_ok | with_reducible apply State.loadEnd_ok | (simp only [ok_mk, ok3_eq])
    | (intro _ _ _) | (intro _ _) | split | (dsimp only))

theorem State.cxlTransfer_ok_of {s : State} {ld : Nat} {action : Nat} {b : Bool} {off : Nat} {total : Nat} {data : List Byte} {verifies : Bool} {t : State} {x : Nat} (e : State.cxlTransfer s ld action b off total data verifies = (t, x)) (hok : Ok pq s) :
    Ok pq t := by
  rw [show t = (State.cxlTransfer s ld action b off total data verifies).1 by rw [e]]
  exact State.cxlTransfer_ok hok

theorem execTransferFw_ok {s : State} {ld : Fin 32} {action : Nat} {slotB : Bool} {offset : Nat} {total : Nat} {data : List Byte} {verifies : Bool} (hok : Ok pq s) :
    OutOk pq (execTransferFw ld action slotB offset total data verifies s) := by
  unfold execTransferFw
  try dsimp only
  repeat' (first
    | with_reducible assumption | exact True.intro | with_reducible apply outOk_next | with_reducible apply outOk_ite
    | with_reducible apply ok_ite | with_reducible apply ok_ite_fst | with_reducible apply State.cxlAnswer_ok
    | with_reducible apply State.loadPoll_ok | with_reducible apply State.cxlTransfer_ok
    | (with_reducible refine State.cxlTransfer_ok_of (by assumption) ?_) | (simp only [ok_mk, ok3_eq]) | (intro _ _ _)
    | (intro _ _) | split | (dsimp only))

theorem execActivateFw_ok {s : State} {ld : Fin 32} {slotB : Bool} {live : Bool} (hok : Ok pq s) :
    OutOk pq (execActivateFw ld slotB live s) := by
  unfold execActivateFw
  try dsimp only
  repeat' (first
    | with_reducible assumption | exact True.intro | with_reducible apply outOk_next | with_reducible apply outOk_ite
    | with_reducible apply ok_ite | with_reducible apply ok_ite_fst | with_reducible apply State.cxlAnswer_ok
    | with_reducible apply State.liveHalt_ok | with_reducible apply State.setPending_ok | (simp only [ok_mk, ok3_eq])
    | (intro _ _ _) | (intro _ _) | split | (dsimp only))

theorem execJorridVendorOpcode_ok {s : State} {ld : Fin 32} {h : JHdr} {c : JorridCmd} (hok : Ok pq s) :
    OutOk pq (execJorridVendorOpcode ld h c s) := by
  unfold execJorridVendorOpcode
  try dsimp only
  repeat' (first
    | with_reducible assumption | exact True.intro | with_reducible apply outOk_next | with_reducible apply outOk_ite
    | with_reducible apply ok_ite | with_reducible apply ok_ite_fst | with_reducible apply State.cxlAnswer_ok
    | with_reducible apply State.jorrid_ok | (simp only [ok_mk, ok3_eq]) | (intro _ _ _) | (intro _ _) | split
    | (dsimp only))

theorem execWcmJorrid_ok {s : State} {qpn : Nat} {psn : Nat} {w : WcmHdr} {h : JHdr} {c : JorridCmd} (hok : Ok pq s) :
    OutOk pq (execWcmJorrid qpn psn w h c s) := by
  unfold execWcmJorrid
  try dsimp only
  repeat' (first
    | with_reducible assumption | exact True.intro | with_reducible apply outOk_next | with_reducible apply outOk_ite
    | with_reducible apply State.modMb_ok | with_reducible apply State.wcmTake_ok
    | with_reducible apply State.wcmReply_ok | with_reducible apply State.jorrid_ok | (simp only [ok_mk, ok3_eq])
    | (intro _ _ _) | (intro _ _) | split | (dsimp only))

end Sys2Proof.Machine
end

