-- ==== Sys2Proof/Laws/KeepsShaumIn.lean ====
section
/-! SUPPORT. The operations of Machine/ShaumIn.lean keep memory sound and leave the queue alone. -/

namespace Sys2Proof.Machine

set_option linter.unusedVariables false
set_option linter.unusedTactic false
set_option linter.unreachableTactic false

variable {pq : List Instr}

theorem State.onPeerResult_ok {s : State} {seq : Nat} {r : JResult} (hok : Ok pq s) :
    Ok pq (State.onPeerResult s seq r) := by
  unfold State.onPeerResult
  try dsimp only
  repeat' (first
    | with_reducible assumption | with_reducible apply ok_ite | with_reducible apply ok_ite_fst
    | with_reducible apply State.modMb_ok | with_reducible apply State.mbxOk_ok
    | with_reducible apply State.jServeAll_ok | (simp only [ok_mk, ok3_eq]) | (intro _ _ _) | (intro _ _) | split
    | (dsimp only))

theorem State.onPeerMbx_ok {s : State} {seq : Nat} {h : JHdr} {c : Option JorridCmd} {r : JResult} (hok : Ok pq s) :
    Ok pq (State.onPeerMbx s seq h c r) := by
  unfold State.onPeerMbx
  try dsimp only
  repeat' (first
    | with_reducible assumption | with_reducible apply State.takeMsg_ok | with_reducible apply State.jorrid_ok
    | with_reducible apply State.onPeerResult_ok | (simp only [ok_mk, ok3_eq]) | (intro _ _ _) | (intro _ _) | split
    | (dsimp only))

theorem execPeerMbx_ok {s : State} {seq : Nat} {h : JHdr} {c : Option JorridCmd} {r : JResult} (hok : Ok pq s) :
    OutOk pq (execPeerMbx seq h c r s) := by
  unfold execPeerMbx
  try dsimp only
  repeat' (first
    | with_reducible assumption | exact True.intro | with_reducible apply outOk_next | with_reducible apply outOk_ite
    | with_reducible apply State.onPeerMbx_ok | (simp only [ok_mk, ok3_eq]) | (intro _ _ _) | (intro _ _) | split
    | (dsimp only))

theorem State.onShaum_ok {s : State} {seq : Nat} {m : ShaumMsg} (hok : Ok pq s) :
    Ok pq (State.onShaum s seq m) := by
  unfold State.onShaum
  try dsimp only
  repeat' (first
    | with_reducible assumption | with_reducible apply State.wakeFor_ok | with_reducible apply State.onNak_ok
    | with_reducible apply State.onMirror_ok | with_reducible apply State.onAck_ok
    | with_reducible apply State.onForward_ok | with_reducible apply State.onFwdReply_ok
    | with_reducible apply State.onReadReq_ok | with_reducible apply State.onReadData_ok
    | with_reducible apply State.onHint_ok | with_reducible apply State.onPull_ok
    | with_reducible apply State.onTileData_ok | with_reducible apply State.onOffer_ok
    | with_reducible apply State.onAccept_ok | with_reducible apply State.onControl_ok
    | with_reducible apply State.onRelay_ok | with_reducible apply State.onVerify_ok
    | with_reducible apply State.onVerifyReply_ok | with_reducible apply State.onResyncCtl_ok
    | with_reducible apply State.onBurgee_ok | with_reducible apply State.onPeerMbx_ok | (simp only [ok_mk, ok3_eq])
    | (intro _ _ _) | (intro _ _) | split | (dsimp only))

theorem State.placeSeg_ok {s : State} {h : SegHdr} {checkOk : Bool} {m : ShaumMsg} (hok : Ok pq s) :
    Ok pq (State.placeSeg s h checkOk m) := by
  unfold State.placeSeg
  try dsimp only
  repeat' (first
    | with_reducible assumption | with_reducible apply ok_ite | with_reducible apply ok_ite_fst
    | with_reducible apply State.count_ok | with_reducible apply State.onShaum_ok | (simp only [ok_mk, ok3_eq])
    | (intro _ _ _) | (intro _ _) | split | (dsimp only))

theorem execShaumSegmentReceive_ok {s : State} {g : Fin 4} {h : SegHdr} {tagOk : Bool} {checkOk : Bool} {m : ShaumMsg} (hok : Ok pq s) :
    OutOk pq (execShaumSegmentReceive g h tagOk checkOk m s) := by
  unfold execShaumSegmentReceive
  try dsimp only
  repeat' (first
    | with_reducible assumption | exact True.intro | with_reducible apply outOk_next | with_reducible apply outOk_ite
    | with_reducible apply ok_ite | with_reducible apply ok_ite_fst | with_reducible apply State.count_ok
    | with_reducible apply State.wakeFor_ok | (with_reducible refine State.takeBuf_ok (by assumption) ?_)
    | with_reducible apply State.freeBuf_ok | with_reducible apply State.modLane_ok
    | with_reducible apply State.retrainUp_ok | with_reducible apply State.mismatch_ok
    | with_reducible apply State.authBad_ok | with_reducible apply State.heardOn_ok
    | with_reducible apply State.placeSeg_ok | (simp only [ok_mk, ok3_eq]) | (intro _ _ _) | (intro _ _) | split
    | (dsimp only))

end Sys2Proof.Machine
end

