-- ==== Sys2Proof/Laws/State.lean ====
section
/-! SUPPORT. What each named update of the state leaves in each field: one equation per field and update, true by
definition, so that no proof unfolds a record update. -/

namespace Sys2Proof.Machine

variable (s : State)

/-! `State.emit` -/

@[simp] theorem State.emit_pending (o : Output) : (s.emit o).pending = s.pending := rfl
@[simp] theorem State.emit_out (o : Output) : (s.emit o).out = o :: s.out := rfl
@[simp] theorem State.emit_time (o : Output) : (s.emit o).time = s.time := rfl
@[simp] theorem State.emit_fresh (o : Output) : (s.emit o).fresh = s.fresh := rfl
@[simp] theorem State.emit_regs (o : Output) : (s.emit o).regs = s.regs := rfl
@[simp] theorem State.emit_paths (o : Output) : (s.emit o).paths = s.paths := rfl
@[simp] theorem State.emit_mem (o : Output) : (s.emit o).mem = s.mem := rfl
@[simp] theorem State.emit_sectors (o : Output) : (s.emit o).sectors = s.sectors := rfl
@[simp] theorem State.emit_exposed (o : Output) : (s.emit o).exposed = s.exposed := rfl
@[simp] theorem State.emit_regions (o : Output) : (s.emit o).regions = s.regions := rfl
@[simp] theorem State.emit_rgt (o : Output) : (s.emit o).rgt = s.rgt := rfl
@[simp] theorem State.emit_extents (o : Output) : (s.emit o).extents = s.extents := rfl
@[simp] theorem State.emit_extentGens (o : Output) : (s.emit o).extentGens = s.extentGens := rfl
@[simp] theorem State.emit_mkeys (o : Output) : (s.emit o).mkeys = s.mkeys := rfl
@[simp] theorem State.emit_mkeyGens (o : Output) : (s.emit o).mkeyGens = s.mkeyGens := rfl
@[simp] theorem State.emit_leases (o : Output) : (s.emit o).leases = s.leases := rfl
@[simp] theorem State.emit_poisonList (o : Output) : (s.emit o).poisonList = s.poisonList := rfl
@[simp] theorem State.emit_poisonOverflow (o : Output) : (s.emit o).poisonOverflow = s.poisonOverflow := rfl
@[simp] theorem State.emit_tiles (o : Output) : (s.emit o).tiles = s.tiles := rfl
@[simp] theorem State.emit_frames (o : Output) : (s.emit o).frames = s.frames := rfl
@[simp] theorem State.emit_moves (o : Output) : (s.emit o).moves = s.moves := rfl
@[simp] theorem State.emit_plc (o : Output) : (s.emit o).plc = s.plc := rfl
@[simp] theorem State.emit_hlc (o : Output) : (s.emit o).hlc = s.hlc := rfl
@[simp] theorem State.emit_reqs (o : Output) : (s.emit o).reqs = s.reqs := rfl
@[simp] theorem State.emit_reqSeq (o : Output) : (s.emit o).reqSeq = s.reqSeq := rfl
@[simp] theorem State.emit_ended (o : Output) : (s.emit o).ended = s.ended := rfl
@[simp] theorem State.emit_noAdmit (o : Output) : (s.emit o).noAdmit = s.noAdmit := rfl
@[simp] theorem State.emit_admitted (o : Output) : (s.emit o).admitted = s.admitted := rfl
@[simp] theorem State.emit_links (o : Output) : (s.emit o).links = s.links := rfl
@[simp] theorem State.emit_lds (o : Output) : (s.emit o).lds = s.lds := rfl
@[simp] theorem State.emit_ports (o : Output) : (s.emit o).ports = s.ports := rfl
@[simp] theorem State.emit_advert (o : Output) : (s.emit o).advert = s.advert := rfl
@[simp] theorem State.emit_rdx (o : Output) : (s.emit o).rdx = s.rdx := rfl
@[simp] theorem State.emit_pools (o : Output) : (s.emit o).pools = s.pools := rfl
@[simp] theorem State.emit_sqs (o : Output) : (s.emit o).sqs = s.sqs := rfl
@[simp] theorem State.emit_cqs (o : Output) : (s.emit o).cqs = s.cqs := rfl
@[simp] theorem State.emit_cmds (o : Output) : (s.emit o).cmds = s.cmds := rfl
@[simp] theorem State.emit_cmdSeq (o : Output) : (s.emit o).cmdSeq = s.cmdSeq := rfl
@[simp] theorem State.emit_progress (o : Output) : (s.emit o).progress = s.progress := rfl
@[simp] theorem State.emit_sqWait (o : Output) : (s.emit o).sqWait = s.sqWait := rfl
@[simp] theorem State.emit_chans (o : Output) : (s.emit o).chans = s.chans := rfl
@[simp] theorem State.emit_health (o : Output) : (s.emit o).health = s.health := rfl
@[simp] theorem State.emit_fmc (o : Output) : (s.emit o).fmc = s.fmc := rfl
@[simp] theorem State.emit_elg (o : Output) : (s.emit o).elg = s.elg := rfl
@[simp] theorem State.emit_twn (o : Output) : (s.emit o).twn = s.twn := rfl
@[simp] theorem State.emit_mbx (o : Output) : (s.emit o).mbx = s.mbx := rfl
@[simp] theorem State.emit_jwait (o : Output) : (s.emit o).jwait = s.jwait := rfl
@[simp] theorem State.emit_fw (o : Output) : (s.emit o).fw = s.fw := rfl
@[simp] theorem State.emit_sec (o : Output) : (s.emit o).sec = s.sec := rfl
@[simp] theorem State.emit_efl (o : Output) : (s.emit o).efl = s.efl := rfl
@[simp] theorem State.emit_evr (o : Output) : (s.emit o).evr = s.evr := rfl
@[simp] theorem State.emit_evq (o : Output) : (s.emit o).evq = s.evq := rfl
@[simp] theorem State.emit_pws (o : Output) : (s.emit o).pws = s.pws := rfl
@[simp] theorem State.emit_isl (o : Output) : (s.emit o).isl = s.isl := rfl
@[simp] theorem State.emit_twb (o : Output) : (s.emit o).twb = s.twb := rfl
@[simp] theorem State.emit_err (o : Output) : (s.emit o).err = s.err := rfl
@[simp] theorem State.emit_lap (o : Output) : (s.emit o).lap = s.lap := rfl

/-! `State.setReg` -/

@[simp] theorem State.setReg_pending (a : Nat) (w : Word) : (s.setReg a w).pending = s.pending := rfl
@[simp] theorem State.setReg_out (a : Nat) (w : Word) : (s.setReg a w).out = s.out := rfl
@[simp] theorem State.setReg_time (a : Nat) (w : Word) : (s.setReg a w).time = s.time := rfl
@[simp] theorem State.setReg_fresh (a : Nat) (w : Word) : (s.setReg a w).fresh = s.fresh := rfl
@[simp] theorem State.setReg_regs (a : Nat) (w : Word) : (s.setReg a w).regs = if w = resetOf a then s.regs.erase a else s.regs.set a w := rfl
@[simp] theorem State.setReg_paths (a : Nat) (w : Word) : (s.setReg a w).paths = s.paths := rfl
@[simp] theorem State.setReg_mem (a : Nat) (w : Word) : (s.setReg a w).mem = s.mem := rfl
@[simp] theorem State.setReg_sectors (a : Nat) (w : Word) : (s.setReg a w).sectors = s.sectors := rfl
@[simp] theorem State.setReg_exposed (a : Nat) (w : Word) : (s.setReg a w).exposed = s.exposed := rfl
@[simp] theorem State.setReg_regions (a : Nat) (w : Word) : (s.setReg a w).regions = s.regions := rfl
@[simp] theorem State.setReg_rgt (a : Nat) (w : Word) : (s.setReg a w).rgt = s.rgt := rfl
@[simp] theorem State.setReg_extents (a : Nat) (w : Word) : (s.setReg a w).extents = s.extents := rfl
@[simp] theorem State.setReg_extentGens (a : Nat) (w : Word) : (s.setReg a w).extentGens = s.extentGens := rfl
@[simp] theorem State.setReg_mkeys (a : Nat) (w : Word) : (s.setReg a w).mkeys = s.mkeys := rfl
@[simp] theorem State.setReg_mkeyGens (a : Nat) (w : Word) : (s.setReg a w).mkeyGens = s.mkeyGens := rfl
@[simp] theorem State.setReg_leases (a : Nat) (w : Word) : (s.setReg a w).leases = s.leases := rfl
@[simp] theorem State.setReg_poisonList (a : Nat) (w : Word) : (s.setReg a w).poisonList = s.poisonList := rfl
@[simp] theorem State.setReg_poisonOverflow (a : Nat) (w : Word) : (s.setReg a w).poisonOverflow = s.poisonOverflow := rfl
@[simp] theorem State.setReg_tiles (a : Nat) (w : Word) : (s.setReg a w).tiles = s.tiles := rfl
@[simp] theorem State.setReg_frames (a : Nat) (w : Word) : (s.setReg a w).frames = s.frames := rfl
@[simp] theorem State.setReg_moves (a : Nat) (w : Word) : (s.setReg a w).moves = s.moves := rfl
@[simp] theorem State.setReg_plc (a : Nat) (w : Word) : (s.setReg a w).plc = s.plc := rfl
@[simp] theorem State.setReg_hlc (a : Nat) (w : Word) : (s.setReg a w).hlc = s.hlc := rfl
@[simp] theorem State.setReg_reqs (a : Nat) (w : Word) : (s.setReg a w).reqs = s.reqs := rfl
@[simp] theorem State.setReg_reqSeq (a : Nat) (w : Word) : (s.setReg a w).reqSeq = s.reqSeq := rfl
@[simp] theorem State.setReg_ended (a : Nat) (w : Word) : (s.setReg a w).ended = s.ended := rfl
@[simp] theorem State.setReg_noAdmit (a : Nat) (w : Word) : (s.setReg a w).noAdmit = s.noAdmit := rfl
@[simp] theorem State.setReg_admitted (a : Nat) (w : Word) : (s.setReg a w).admitted = s.admitted := rfl
@[simp] theorem State.setReg_links (a : Nat) (w : Word) : (s.setReg a w).links = s.links := rfl
@[simp] theorem State.setReg_lds (a : Nat) (w : Word) : (s.setReg a w).lds = s.lds := rfl
@[simp] theorem State.setReg_ports (a : Nat) (w : Word) : (s.setReg a w).ports = s.ports := rfl
@[simp] theorem State.setReg_advert (a : Nat) (w : Word) : (s.setReg a w).advert = s.advert := rfl
@[simp] theorem State.setReg_rdx (a : Nat) (w : Word) : (s.setReg a w).rdx = s.rdx := rfl
@[simp] theorem State.setReg_pools (a : Nat) (w : Word) : (s.setReg a w).pools = s.pools := rfl
@[simp] theorem State.setReg_sqs (a : Nat) (w : Word) : (s.setReg a w).sqs = s.sqs := rfl
@[simp] theorem State.setReg_cqs (a : Nat) (w : Word) : (s.setReg a w).cqs = s.cqs := rfl
@[simp] theorem State.setReg_cmds (a : Nat) (w : Word) : (s.setReg a w).cmds = s.cmds := rfl
@[simp] theorem State.setReg_cmdSeq (a : Nat) (w : Word) : (s.setReg a w).cmdSeq = s.cmdSeq := rfl
@[simp] theorem State.setReg_progress (a : Nat) (w : Word) : (s.setReg a w).progress = s.progress := rfl
@[simp] theorem State.setReg_sqWait (a : Nat) (w : Word) : (s.setReg a w).sqWait = s.sqWait := rfl
@[simp] theorem State.setReg_chans (a : Nat) (w : Word) : (s.setReg a w).chans = s.chans := rfl
@[simp] theorem State.setReg_health (a : Nat) (w : Word) : (s.setReg a w).health = s.health := rfl
@[simp] theorem State.setReg_fmc (a : Nat) (w : Word) : (s.setReg a w).fmc = s.fmc := rfl
@[simp] theorem State.setReg_elg (a : Nat) (w : Word) : (s.setReg a w).elg = s.elg := rfl
@[simp] theorem State.setReg_twn (a : Nat) (w : Word) : (s.setReg a w).twn = s.twn := rfl
@[simp] theorem State.setReg_mbx (a : Nat) (w : Word) : (s.setReg a w).mbx = s.mbx := rfl
@[simp] theorem State.setReg_jwait (a : Nat) (w : Word) : (s.setReg a w).jwait = s.jwait := rfl
@[simp] theorem State.setReg_fw (a : Nat) (w : Word) : (s.setReg a w).fw = s.fw := rfl
@[simp] theorem State.setReg_sec (a : Nat) (w : Word) : (s.setReg a w).sec = s.sec := rfl
@[simp] theorem State.setReg_efl (a : Nat) (w : Word) : (s.setReg a w).efl = s.efl := rfl
@[simp] theorem State.setReg_evr (a : Nat) (w : Word) : (s.setReg a w).evr = s.evr := rfl
@[simp] theorem State.setReg_evq (a : Nat) (w : Word) : (s.setReg a w).evq = s.evq := rfl
@[simp] theorem State.setReg_pws (a : Nat) (w : Word) : (s.setReg a w).pws = s.pws := rfl
@[simp] theorem State.setReg_isl (a : Nat) (w : Word) : (s.setReg a w).isl = s.isl := rfl
@[simp] theorem State.setReg_twb (a : Nat) (w : Word) : (s.setReg a w).twb = s.twb := rfl
@[simp] theorem State.setReg_err (a : Nat) (w : Word) : (s.setReg a w).err = s.err := rfl
@[simp] theorem State.setReg_lap (a : Nat) (w : Word) : (s.setReg a w).lap = s.lap := rfl

/-! `State.setPath` -/

@[simp] theorem State.setPath_pending (k : Nat) (f : PathSt → PathSt) : (s.setPath k f).pending = s.pending := rfl
@[simp] theorem State.setPath_out (k : Nat) (f : PathSt → PathSt) : (s.setPath k f).out = s.out := rfl
@[simp] theorem State.setPath_time (k : Nat) (f : PathSt → PathSt) : (s.setPath k f).time = s.time := rfl
@[simp] theorem State.setPath_fresh (k : Nat) (f : PathSt → PathSt) : (s.setPath k f).fresh = s.fresh := rfl
@[simp] theorem State.setPath_regs (k : Nat) (f : PathSt → PathSt) : (s.setPath k f).regs = s.regs := rfl
@[simp] theorem State.setPath_paths (k : Nat) (f : PathSt → PathSt) : (s.setPath k f).paths = s.paths.upd k {} f := rfl
@[simp] theorem State.setPath_mem (k : Nat) (f : PathSt → PathSt) : (s.setPath k f).mem = s.mem := rfl
@[simp] theorem State.setPath_sectors (k : Nat) (f : PathSt → PathSt) : (s.setPath k f).sectors = s.sectors := rfl
@[simp] theorem State.setPath_exposed (k : Nat) (f : PathSt → PathSt) : (s.setPath k f).exposed = s.exposed := rfl
@[simp] theorem State.setPath_regions (k : Nat) (f : PathSt → PathSt) : (s.setPath k f).regions = s.regions := rfl
@[simp] theorem State.setPath_rgt (k : Nat) (f : PathSt → PathSt) : (s.setPath k f).rgt = s.rgt := rfl
@[simp] theorem State.setPath_extents (k : Nat) (f : PathSt → PathSt) : (s.setPath k f).extents = s.extents := rfl
@[simp] theorem State.setPath_extentGens (k : Nat) (f : PathSt → PathSt) : (s.setPath k f).extentGens = s.extentGens := rfl
@[simp] theorem State.setPath_mkeys (k : Nat) (f : PathSt → PathSt) : (s.setPath k f).mkeys = s.mkeys := rfl
@[simp] theorem State.setPath_mkeyGens (k : Nat) (f : PathSt → PathSt) : (s.setPath k f).mkeyGens = s.mkeyGens := rfl
@[simp] theorem State.setPath_leases (k : Nat) (f : PathSt → PathSt) : (s.setPath k f).leases = s.leases := rfl
@[simp] theorem State.setPath_poisonList (k : Nat) (f : PathSt → PathSt) : (s.setPath k f).poisonList = s.poisonList := rfl
@[simp] theorem State.setPath_poisonOverflow (k : Nat) (f : PathSt → PathSt) : (s.setPath k f).poisonOverflow = s.poisonOverflow := rfl
@[simp] theorem State.setPath_tiles (k : Nat) (f : PathSt → PathSt) : (s.setPath k f).tiles = s.tiles := rfl
@[simp] theorem State.setPath_frames (k : Nat) (f : PathSt → PathSt) : (s.setPath k f).frames = s.frames := rfl
@[simp] theorem State.setPath_moves (k : Nat) (f : PathSt → PathSt) : (s.setPath k f).moves = s.moves := rfl
@[simp] theorem State.setPath_plc (k : Nat) (f : PathSt → PathSt) : (s.setPath k f).plc = s.plc := rfl
@[simp] theorem State.setPath_hlc (k : Nat) (f : PathSt → PathSt) : (s.setPath k f).hlc = s.hlc := rfl
@[simp] theorem State.setPath_reqs (k : Nat) (f : PathSt → PathSt) : (s.setPath k f).reqs = s.reqs := rfl
@[simp] theorem State.setPath_reqSeq (k : Nat) (f : PathSt → PathSt) : (s.setPath k f).reqSeq = s.reqSeq := rfl
@[simp] theorem State.setPath_ended (k : Nat) (f : PathSt → PathSt) : (s.setPath k f).ended = s.ended := rfl
@[simp] theorem State.setPath_noAdmit (k : Nat) (f : PathSt → PathSt) : (s.setPath k f).noAdmit = s.noAdmit := rfl
@[simp] theorem State.setPath_admitted (k : Nat) (f : PathSt → PathSt) : (s.setPath k f).admitted = s.admitted := rfl
@[simp] theorem State.setPath_links (k : Nat) (f : PathSt → PathSt) : (s.setPath k f).links = s.links := rfl
@[simp] theorem State.setPath_lds (k : Nat) (f : PathSt → PathSt) : (s.setPath k f).lds = s.lds := rfl
@[simp] theorem State.setPath_ports (k : Nat) (f : PathSt → PathSt) : (s.setPath k f).ports = s.ports := rfl
@[simp] theorem State.setPath_advert (k : Nat) (f : PathSt → PathSt) : (s.setPath k f).advert = s.advert := rfl
@[simp] theorem State.setPath_rdx (k : Nat) (f : PathSt → PathSt) : (s.setPath k f).rdx = s.rdx := rfl
@[simp] theorem State.setPath_pools (k : Nat) (f : PathSt → PathSt) : (s.setPath k f).pools = s.pools := rfl
@[simp] theorem State.setPath_sqs (k : Nat) (f : PathSt → PathSt) : (s.setPath k f).sqs = s.sqs := rfl
@[simp] theorem State.setPath_cqs (k : Nat) (f : PathSt → PathSt) : (s.setPath k f).cqs = s.cqs := rfl
@[simp] theorem State.setPath_cmds (k : Nat) (f : PathSt → PathSt) : (s.setPath k f).cmds = s.cmds := rfl
@[simp] theorem State.setPath_cmdSeq (k : Nat) (f : PathSt → PathSt) : (s.setPath k f).cmdSeq = s.cmdSeq := rfl
@[simp] theorem State.setPath_progress (k : Nat) (f : PathSt → PathSt) : (s.setPath k f).progress = s.progress := rfl
@[simp] theorem State.setPath_sqWait (k : Nat) (f : PathSt → PathSt) : (s.setPath k f).sqWait = s.sqWait := rfl
@[simp] theorem State.setPath_chans (k : Nat) (f : PathSt → PathSt) : (s.setPath k f).chans = s.chans := rfl
@[simp] theorem State.setPath_health (k : Nat) (f : PathSt → PathSt) : (s.setPath k f).health = s.health := rfl
@[simp] theorem State.setPath_fmc (k : Nat) (f : PathSt → PathSt) : (s.setPath k f).fmc = s.fmc := rfl
@[simp] theorem State.setPath_elg (k : Nat) (f : PathSt → PathSt) : (s.setPath k f).elg = s.elg := rfl
@[simp] theorem State.setPath_twn (k : Nat) (f : PathSt → PathSt) : (s.setPath k f).twn = s.twn := rfl
@[simp] theorem State.setPath_mbx (k : Nat) (f : PathSt → PathSt) : (s.setPath k f).mbx = s.mbx := rfl
@[simp] theorem State.setPath_jwait (k : Nat) (f : PathSt → PathSt) : (s.setPath k f).jwait = s.jwait := rfl
@[simp] theorem State.setPath_fw (k : Nat) (f : PathSt → PathSt) : (s.setPath k f).fw = s.fw := rfl
@[simp] theorem State.setPath_sec (k : Nat) (f : PathSt → PathSt) : (s.setPath k f).sec = s.sec := rfl
@[simp] theorem State.setPath_efl (k : Nat) (f : PathSt → PathSt) : (s.setPath k f).efl = s.efl := rfl
@[simp] theorem State.setPath_evr (k : Nat) (f : PathSt → PathSt) : (s.setPath k f).evr = s.evr := rfl
@[simp] theorem State.setPath_evq (k : Nat) (f : PathSt → PathSt) : (s.setPath k f).evq = s.evq := rfl
@[simp] theorem State.setPath_pws (k : Nat) (f : PathSt → PathSt) : (s.setPath k f).pws = s.pws := rfl
@[simp] theorem State.setPath_isl (k : Nat) (f : PathSt → PathSt) : (s.setPath k f).isl = s.isl := rfl
@[simp] theorem State.setPath_twb (k : Nat) (f : PathSt → PathSt) : (s.setPath k f).twb = s.twb := rfl
@[simp] theorem State.setPath_err (k : Nat) (f : PathSt → PathSt) : (s.setPath k f).err = s.err := rfl
@[simp] theorem State.setPath_lap (k : Nat) (f : PathSt → PathSt) : (s.setPath k f).lap = s.lap := rfl

/-! `State.setSector` -/

@[simp] theorem State.setSector_pending (n : Nat) (i : SectorInfo) : (s.setSector n i).pending = s.pending := rfl
@[simp] theorem State.setSector_out (n : Nat) (i : SectorInfo) : (s.setSector n i).out = s.out := rfl
@[simp] theorem State.setSector_time (n : Nat) (i : SectorInfo) : (s.setSector n i).time = s.time := rfl
@[simp] theorem State.setSector_fresh (n : Nat) (i : SectorInfo) : (s.setSector n i).fresh = s.fresh := rfl
@[simp] theorem State.setSector_regs (n : Nat) (i : SectorInfo) : (s.setSector n i).regs = s.regs := rfl
@[simp] theorem State.setSector_paths (n : Nat) (i : SectorInfo) : (s.setSector n i).paths = s.paths := rfl
@[simp] theorem State.setSector_mem (n : Nat) (i : SectorInfo) : (s.setSector n i).mem = s.mem := rfl
@[simp] theorem State.setSector_sectors (n : Nat) (i : SectorInfo) : (s.setSector n i).sectors = if i = {} then s.sectors.erase n else s.sectors.set n i := rfl
@[simp] theorem State.setSector_exposed (n : Nat) (i : SectorInfo) : (s.setSector n i).exposed = s.exposed := rfl
@[simp] theorem State.setSector_regions (n : Nat) (i : SectorInfo) : (s.setSector n i).regions = s.regions := rfl
@[simp] theorem State.setSector_rgt (n : Nat) (i : SectorInfo) : (s.setSector n i).rgt = s.rgt := rfl
@[simp] theorem State.setSector_extents (n : Nat) (i : SectorInfo) : (s.setSector n i).extents = s.extents := rfl
@[simp] theorem State.setSector_extentGens (n : Nat) (i : SectorInfo) : (s.setSector n i).extentGens = s.extentGens := rfl
@[simp] theorem State.setSector_mkeys (n : Nat) (i : SectorInfo) : (s.setSector n i).mkeys = s.mkeys := rfl
@[simp] theorem State.setSector_mkeyGens (n : Nat) (i : SectorInfo) : (s.setSector n i).mkeyGens = s.mkeyGens := rfl
@[simp] theorem State.setSector_leases (n : Nat) (i : SectorInfo) : (s.setSector n i).leases = s.leases := rfl
@[simp] theorem State.setSector_poisonList (n : Nat) (i : SectorInfo) : (s.setSector n i).poisonList = s.poisonList := rfl
@[simp] theorem State.setSector_poisonOverflow (n : Nat) (i : SectorInfo) : (s.setSector n i).poisonOverflow = s.poisonOverflow := rfl
@[simp] theorem State.setSector_tiles (n : Nat) (i : SectorInfo) : (s.setSector n i).tiles = s.tiles := rfl
@[simp] theorem State.setSector_frames (n : Nat) (i : SectorInfo) : (s.setSector n i).frames = s.frames := rfl
@[simp] theorem State.setSector_moves (n : Nat) (i : SectorInfo) : (s.setSector n i).moves = s.moves := rfl
@[simp] theorem State.setSector_plc (n : Nat) (i : SectorInfo) : (s.setSector n i).plc = s.plc := rfl
@[simp] theorem State.setSector_hlc (n : Nat) (i : SectorInfo) : (s.setSector n i).hlc = s.hlc := rfl
@[simp] theorem State.setSector_reqs (n : Nat) (i : SectorInfo) : (s.setSector n i).reqs = s.reqs := rfl
@[simp] theorem State.setSector_reqSeq (n : Nat) (i : SectorInfo) : (s.setSector n i).reqSeq = s.reqSeq := rfl
@[simp] theorem State.setSector_ended (n : Nat) (i : SectorInfo) : (s.setSector n i).ended = s.ended := rfl
@[simp] theorem State.setSector_noAdmit (n : Nat) (i : SectorInfo) : (s.setSector n i).noAdmit = s.noAdmit := rfl
@[simp] theorem State.setSector_admitted (n : Nat) (i : SectorInfo) : (s.setSector n i).admitted = s.admitted := rfl
@[simp] theorem State.setSector_links (n : Nat) (i : SectorInfo) : (s.setSector n i).links = s.links := rfl
@[simp] theorem State.setSector_lds (n : Nat) (i : SectorInfo) : (s.setSector n i).lds = s.lds := rfl
@[simp] theorem State.setSector_ports (n : Nat) (i : SectorInfo) : (s.setSector n i).ports = s.ports := rfl
@[simp] theorem State.setSector_advert (n : Nat) (i : SectorInfo) : (s.setSector n i).advert = s.advert := rfl
@[simp] theorem State.setSector_rdx (n : Nat) (i : SectorInfo) : (s.setSector n i).rdx = s.rdx := rfl
@[simp] theorem State.setSector_pools (n : Nat) (i : SectorInfo) : (s.setSector n i).pools = s.pools := rfl
@[simp] theorem State.setSector_sqs (n : Nat) (i : SectorInfo) : (s.setSector n i).sqs = s.sqs := rfl
@[simp] theorem State.setSector_cqs (n : Nat) (i : SectorInfo) : (s.setSector n i).cqs = s.cqs := rfl
@[simp] theorem State.setSector_cmds (n : Nat) (i : SectorInfo) : (s.setSector n i).cmds = s.cmds := rfl
@[simp] theorem State.setSector_cmdSeq (n : Nat) (i : SectorInfo) : (s.setSector n i).cmdSeq = s.cmdSeq := rfl
@[simp] theorem State.setSector_progress (n : Nat) (i : SectorInfo) : (s.setSector n i).progress = s.progress := rfl
@[simp] theorem State.setSector_sqWait (n : Nat) (i : SectorInfo) : (s.setSector n i).sqWait = s.sqWait := rfl
@[simp] theorem State.setSector_chans (n : Nat) (i : SectorInfo) : (s.setSector n i).chans = s.chans := rfl
@[simp] theorem State.setSector_health (n : Nat) (i : SectorInfo) : (s.setSector n i).health = s.health := rfl
@[simp] theorem State.setSector_fmc (n : Nat) (i : SectorInfo) : (s.setSector n i).fmc = s.fmc := rfl
@[simp] theorem State.setSector_elg (n : Nat) (i : SectorInfo) : (s.setSector n i).elg = s.elg := rfl
@[simp] theorem State.setSector_twn (n : Nat) (i : SectorInfo) : (s.setSector n i).twn = s.twn := rfl
@[simp] theorem State.setSector_mbx (n : Nat) (i : SectorInfo) : (s.setSector n i).mbx = s.mbx := rfl
@[simp] theorem State.setSector_jwait (n : Nat) (i : SectorInfo) : (s.setSector n i).jwait = s.jwait := rfl
@[simp] theorem State.setSector_fw (n : Nat) (i : SectorInfo) : (s.setSector n i).fw = s.fw := rfl
@[simp] theorem State.setSector_sec (n : Nat) (i : SectorInfo) : (s.setSector n i).sec = s.sec := rfl
@[simp] theorem State.setSector_efl (n : Nat) (i : SectorInfo) : (s.setSector n i).efl = s.efl := rfl
@[simp] theorem State.setSector_evr (n : Nat) (i : SectorInfo) : (s.setSector n i).evr = s.evr := rfl
@[simp] theorem State.setSector_evq (n : Nat) (i : SectorInfo) : (s.setSector n i).evq = s.evq := rfl
@[simp] theorem State.setSector_pws (n : Nat) (i : SectorInfo) : (s.setSector n i).pws = s.pws := rfl
@[simp] theorem State.setSector_isl (n : Nat) (i : SectorInfo) : (s.setSector n i).isl = s.isl := rfl
@[simp] theorem State.setSector_twb (n : Nat) (i : SectorInfo) : (s.setSector n i).twb = s.twb := rfl
@[simp] theorem State.setSector_err (n : Nat) (i : SectorInfo) : (s.setSector n i).err = s.err := rfl
@[simp] theorem State.setSector_lap (n : Nat) (i : SectorInfo) : (s.setSector n i).lap = s.lap := rfl

/-! `State.modRegion` -/

@[simp] theorem State.modRegion_pending (n : Nat) (f : Region → Region) : (s.modRegion n f).pending = s.pending := rfl
@[simp] theorem State.modRegion_out (n : Nat) (f : Region → Region) : (s.modRegion n f).out = s.out := rfl
@[simp] theorem State.modRegion_time (n : Nat) (f : Region → Region) : (s.modRegion n f).time = s.time := rfl
@[simp] theorem State.modRegion_fresh (n : Nat) (f : Region → Region) : (s.modRegion n f).fresh = s.fresh := rfl
@[simp] theorem State.modRegion_regs (n : Nat) (f : Region → Region) : (s.modRegion n f).regs = s.regs := rfl
@[simp] theorem State.modRegion_paths (n : Nat) (f : Region → Region) : (s.modRegion n f).paths = s.paths := rfl
@[simp] theorem State.modRegion_mem (n : Nat) (f : Region → Region) : (s.modRegion n f).mem = s.mem := rfl
@[simp] theorem State.modRegion_sectors (n : Nat) (f : Region → Region) : (s.modRegion n f).sectors = s.sectors := rfl
@[simp] theorem State.modRegion_exposed (n : Nat) (f : Region → Region) : (s.modRegion n f).exposed = s.exposed := rfl
@[simp] theorem State.modRegion_regions (n : Nat) (f : Region → Region) : (s.modRegion n f).regions = s.regions.modify n f := rfl
@[simp] theorem State.modRegion_rgt (n : Nat) (f : Region → Region) : (s.modRegion n f).rgt = s.rgt := rfl
@[simp] theorem State.modRegion_extents (n : Nat) (f : Region → Region) : (s.modRegion n f).extents = s.extents := rfl
@[simp] theorem State.modRegion_extentGens (n : Nat) (f : Region → Region) : (s.modRegion n f).extentGens = s.extentGens := rfl
@[simp] theorem State.modRegion_mkeys (n : Nat) (f : Region → Region) : (s.modRegion n f).mkeys = s.mkeys := rfl
@[simp] theorem State.modRegion_mkeyGens (n : Nat) (f : Region → Region) : (s.modRegion n f).mkeyGens = s.mkeyGens := rfl
@[simp] theorem State.modRegion_leases (n : Nat) (f : Region → Region) : (s.modRegion n f).leases = s.leases := rfl
@[simp] theorem State.modRegion_poisonList (n : Nat) (f : Region → Region) : (s.modRegion n f).poisonList = s.poisonList := rfl
@[simp] theorem State.modRegion_poisonOverflow (n : Nat) (f : Region → Region) : (s.modRegion n f).poisonOverflow = s.poisonOverflow := rfl
@[simp] theorem State.modRegion_tiles (n : Nat) (f : Region → Region) : (s.modRegion n f).tiles = s.tiles := rfl
@[simp] theorem State.modRegion_frames (n : Nat) (f : Region → Region) : (s.modRegion n f).frames = s.frames := rfl
@[simp] theorem State.modRegion_moves (n : Nat) (f : Region → Region) : (s.modRegion n f).moves = s.moves := rfl
@[simp] theorem State.modRegion_plc (n : Nat) (f : Region → Region) : (s.modRegion n f).plc = s.plc := rfl
@[simp] theorem State.modRegion_hlc (n : Nat) (f : Region → Region) : (s.modRegion n f).hlc = s.hlc := rfl
@[simp] theorem State.modRegion_reqs (n : Nat) (f : Region → Region) : (s.modRegion n f).reqs = s.reqs := rfl
@[simp] theorem State.modRegion_reqSeq (n : Nat) (f : Region → Region) : (s.modRegion n f).reqSeq = s.reqSeq := rfl
@[simp] theorem State.modRegion_ended (n : Nat) (f : Region → Region) : (s.modRegion n f).ended = s.ended := rfl
@[simp] theorem State.modRegion_noAdmit (n : Nat) (f : Region → Region) : (s.modRegion n f).noAdmit = s.noAdmit := rfl
@[simp] theorem State.modRegion_admitted (n : Nat) (f : Region → Region) : (s.modRegion n f).admitted = s.admitted := rfl
@[simp] theorem State.modRegion_links (n : Nat) (f : Region → Region) : (s.modRegion n f).links = s.links := rfl
@[simp] theorem State.modRegion_lds (n : Nat) (f : Region → Region) : (s.modRegion n f).lds = s.lds := rfl
@[simp] theorem State.modRegion_ports (n : Nat) (f : Region → Region) : (s.modRegion n f).ports = s.ports := rfl
@[simp] theorem State.modRegion_advert (n : Nat) (f : Region → Region) : (s.modRegion n f).advert = s.advert := rfl
@[simp] theorem State.modRegion_rdx (n : Nat) (f : Region → Region) : (s.modRegion n f).rdx = s.rdx := rfl
@[simp] theorem State.modRegion_pools (n : Nat) (f : Region → Region) : (s.modRegion n f).pools = s.pools := rfl
@[simp] theorem State.modRegion_sqs (n : Nat) (f : Region → Region) : (s.modRegion n f).sqs = s.sqs := rfl
@[simp] theorem State.modRegion_cqs (n : Nat) (f : Region → Region) : (s.modRegion n f).cqs = s.cqs := rfl
@[simp] theorem State.modRegion_cmds (n : Nat) (f : Region → Region) : (s.modRegion n f).cmds = s.cmds := rfl
@[simp] theorem State.modRegion_cmdSeq (n : Nat) (f : Region → Region) : (s.modRegion n f).cmdSeq = s.cmdSeq := rfl
@[simp] theorem State.modRegion_progress (n : Nat) (f : Region → Region) : (s.modRegion n f).progress = s.progress := rfl
@[simp] theorem State.modRegion_sqWait (n : Nat) (f : Region → Region) : (s.modRegion n f).sqWait = s.sqWait := rfl
@[simp] theorem State.modRegion_chans (n : Nat) (f : Region → Region) : (s.modRegion n f).chans = s.chans := rfl
@[simp] theorem State.modRegion_health (n : Nat) (f : Region → Region) : (s.modRegion n f).health = s.health := rfl
@[simp] theorem State.modRegion_fmc (n : Nat) (f : Region → Region) : (s.modRegion n f).fmc = s.fmc := rfl
@[simp] theorem State.modRegion_elg (n : Nat) (f : Region → Region) : (s.modRegion n f).elg = s.elg := rfl
@[simp] theorem State.modRegion_twn (n : Nat) (f : Region → Region) : (s.modRegion n f).twn = s.twn := rfl
@[simp] theorem State.modRegion_mbx (n : Nat) (f : Region → Region) : (s.modRegion n f).mbx = s.mbx := rfl
@[simp] theorem State.modRegion_jwait (n : Nat) (f : Region → Region) : (s.modRegion n f).jwait = s.jwait := rfl
@[simp] theorem State.modRegion_fw (n : Nat) (f : Region → Region) : (s.modRegion n f).fw = s.fw := rfl
@[simp] theorem State.modRegion_sec (n : Nat) (f : Region → Region) : (s.modRegion n f).sec = s.sec := rfl
@[simp] theorem State.modRegion_efl (n : Nat) (f : Region → Region) : (s.modRegion n f).efl = s.efl := rfl
@[simp] theorem State.modRegion_evr (n : Nat) (f : Region → Region) : (s.modRegion n f).evr = s.evr := rfl
@[simp] theorem State.modRegion_evq (n : Nat) (f : Region → Region) : (s.modRegion n f).evq = s.evq := rfl
@[simp] theorem State.modRegion_pws (n : Nat) (f : Region → Region) : (s.modRegion n f).pws = s.pws := rfl
@[simp] theorem State.modRegion_isl (n : Nat) (f : Region → Region) : (s.modRegion n f).isl = s.isl := rfl
@[simp] theorem State.modRegion_twb (n : Nat) (f : Region → Region) : (s.modRegion n f).twb = s.twb := rfl
@[simp] theorem State.modRegion_err (n : Nat) (f : Region → Region) : (s.modRegion n f).err = s.err := rfl
@[simp] theorem State.modRegion_lap (n : Nat) (f : Region → Region) : (s.modRegion n f).lap = s.lap := rfl

/-! `State.modLd` -/

@[simp] theorem State.modLd_pending (n : Nat) (f : Ld → Ld) : (s.modLd n f).pending = s.pending := rfl
@[simp] theorem State.modLd_out (n : Nat) (f : Ld → Ld) : (s.modLd n f).out = s.out := rfl
@[simp] theorem State.modLd_time (n : Nat) (f : Ld → Ld) : (s.modLd n f).time = s.time := rfl
@[simp] theorem State.modLd_fresh (n : Nat) (f : Ld → Ld) : (s.modLd n f).fresh = s.fresh := rfl
@[simp] theorem State.modLd_regs (n : Nat) (f : Ld → Ld) : (s.modLd n f).regs = s.regs := rfl
@[simp] theorem State.modLd_paths (n : Nat) (f : Ld → Ld) : (s.modLd n f).paths = s.paths := rfl
@[simp] theorem State.modLd_mem (n : Nat) (f : Ld → Ld) : (s.modLd n f).mem = s.mem := rfl
@[simp] theorem State.modLd_sectors (n : Nat) (f : Ld → Ld) : (s.modLd n f).sectors = s.sectors := rfl
@[simp] theorem State.modLd_exposed (n : Nat) (f : Ld → Ld) : (s.modLd n f).exposed = s.exposed := rfl
@[simp] theorem State.modLd_regions (n : Nat) (f : Ld → Ld) : (s.modLd n f).regions = s.regions := rfl
@[simp] theorem State.modLd_rgt (n : Nat) (f : Ld → Ld) : (s.modLd n f).rgt = s.rgt := rfl
@[simp] theorem State.modLd_extents (n : Nat) (f : Ld → Ld) : (s.modLd n f).extents = s.extents := rfl
@[simp] theorem State.modLd_extentGens (n : Nat) (f : Ld → Ld) : (s.modLd n f).extentGens = s.extentGens := rfl
@[simp] theorem State.modLd_mkeys (n : Nat) (f : Ld → Ld) : (s.modLd n f).mkeys = s.mkeys := rfl
@[simp] theorem State.modLd_mkeyGens (n : Nat) (f : Ld → Ld) : (s.modLd n f).mkeyGens = s.mkeyGens := rfl
@[simp] theorem State.modLd_leases (n : Nat) (f : Ld → Ld) : (s.modLd n f).leases = s.leases := rfl
@[simp] theorem State.modLd_poisonList (n : Nat) (f : Ld → Ld) : (s.modLd n f).poisonList = s.poisonList := rfl
@[simp] theorem State.modLd_poisonOverflow (n : Nat) (f : Ld → Ld) : (s.modLd n f).poisonOverflow = s.poisonOverflow := rfl
@[simp] theorem State.modLd_tiles (n : Nat) (f : Ld → Ld) : (s.modLd n f).tiles = s.tiles := rfl
@[simp] theorem State.modLd_frames (n : Nat) (f : Ld → Ld) : (s.modLd n f).frames = s.frames := rfl
@[simp] theorem State.modLd_moves (n : Nat) (f : Ld → Ld) : (s.modLd n f).moves = s.moves := rfl
@[simp] theorem State.modLd_plc (n : Nat) (f : Ld → Ld) : (s.modLd n f).plc = s.plc := rfl
@[simp] theorem State.modLd_hlc (n : Nat) (f : Ld → Ld) : (s.modLd n f).hlc = s.hlc := rfl
@[simp] theorem State.modLd_reqs (n : Nat) (f : Ld → Ld) : (s.modLd n f).reqs = s.reqs := rfl
@[simp] theorem State.modLd_reqSeq (n : Nat) (f : Ld → Ld) : (s.modLd n f).reqSeq = s.reqSeq := rfl
@[simp] theorem State.modLd_ended (n : Nat) (f : Ld → Ld) : (s.modLd n f).ended = s.ended := rfl
@[simp] theorem State.modLd_noAdmit (n : Nat) (f : Ld → Ld) : (s.modLd n f).noAdmit = s.noAdmit := rfl
@[simp] theorem State.modLd_admitted (n : Nat) (f : Ld → Ld) : (s.modLd n f).admitted = s.admitted := rfl
@[simp] theorem State.modLd_links (n : Nat) (f : Ld → Ld) : (s.modLd n f).links = s.links := rfl
@[simp] theorem State.modLd_lds (n : Nat) (f : Ld → Ld) : (s.modLd n f).lds = s.lds.upd n {} f := rfl
@[simp] theorem State.modLd_ports (n : Nat) (f : Ld → Ld) : (s.modLd n f).ports = s.ports := rfl
@[simp] theorem State.modLd_advert (n : Nat) (f : Ld → Ld) : (s.modLd n f).advert = s.advert := rfl
@[simp] theorem State.modLd_rdx (n : Nat) (f : Ld → Ld) : (s.modLd n f).rdx = s.rdx := rfl
@[simp] theorem State.modLd_pools (n : Nat) (f : Ld → Ld) : (s.modLd n f).pools = s.pools := rfl
@[simp] theorem State.modLd_sqs (n : Nat) (f : Ld → Ld) : (s.modLd n f).sqs = s.sqs := rfl
@[simp] theorem State.modLd_cqs (n : Nat) (f : Ld → Ld) : (s.modLd n f).cqs = s.cqs := rfl
@[simp] theorem State.modLd_cmds (n : Nat) (f : Ld → Ld) : (s.modLd n f).cmds = s.cmds := rfl
@[simp] theorem State.modLd_cmdSeq (n : Nat) (f : Ld → Ld) : (s.modLd n f).cmdSeq = s.cmdSeq := rfl
@[simp] theorem State.modLd_progress (n : Nat) (f : Ld → Ld) : (s.modLd n f).progress = s.progress := rfl
@[simp] theorem State.modLd_sqWait (n : Nat) (f : Ld → Ld) : (s.modLd n f).sqWait = s.sqWait := rfl
@[simp] theorem State.modLd_chans (n : Nat) (f : Ld → Ld) : (s.modLd n f).chans = s.chans := rfl
@[simp] theorem State.modLd_health (n : Nat) (f : Ld → Ld) : (s.modLd n f).health = s.health := rfl
@[simp] theorem State.modLd_fmc (n : Nat) (f : Ld → Ld) : (s.modLd n f).fmc = s.fmc := rfl
@[simp] theorem State.modLd_elg (n : Nat) (f : Ld → Ld) : (s.modLd n f).elg = s.elg := rfl
@[simp] theorem State.modLd_twn (n : Nat) (f : Ld → Ld) : (s.modLd n f).twn = s.twn := rfl
@[simp] theorem State.modLd_mbx (n : Nat) (f : Ld → Ld) : (s.modLd n f).mbx = s.mbx := rfl
@[simp] theorem State.modLd_jwait (n : Nat) (f : Ld → Ld) : (s.modLd n f).jwait = s.jwait := rfl
@[simp] theorem State.modLd_fw (n : Nat) (f : Ld → Ld) : (s.modLd n f).fw = s.fw := rfl
@[simp] theorem State.modLd_sec (n : Nat) (f : Ld → Ld) : (s.modLd n f).sec = s.sec := rfl
@[simp] theorem State.modLd_efl (n : Nat) (f : Ld → Ld) : (s.modLd n f).efl = s.efl := rfl
@[simp] theorem State.modLd_evr (n : Nat) (f : Ld → Ld) : (s.modLd n f).evr = s.evr := rfl
@[simp] theorem State.modLd_evq (n : Nat) (f : Ld → Ld) : (s.modLd n f).evq = s.evq := rfl
@[simp] theorem State.modLd_pws (n : Nat) (f : Ld → Ld) : (s.modLd n f).pws = s.pws := rfl
@[simp] theorem State.modLd_isl (n : Nat) (f : Ld → Ld) : (s.modLd n f).isl = s.isl := rfl
@[simp] theorem State.modLd_twb (n : Nat) (f : Ld → Ld) : (s.modLd n f).twb = s.twb := rfl
@[simp] theorem State.modLd_err (n : Nat) (f : Ld → Ld) : (s.modLd n f).err = s.err := rfl
@[simp] theorem State.modLd_lap (n : Nat) (f : Ld → Ld) : (s.modLd n f).lap = s.lap := rfl

/-! `State.modMb` -/

@[simp] theorem State.modMb_pending (n : Nat) (f : Mbx → Mbx) : (s.modMb n f).pending = s.pending := rfl
@[simp] theorem State.modMb_out (n : Nat) (f : Mbx → Mbx) : (s.modMb n f).out = s.out := rfl
@[simp] theorem State.modMb_time (n : Nat) (f : Mbx → Mbx) : (s.modMb n f).time = s.time := rfl
@[simp] theorem State.modMb_fresh (n : Nat) (f : Mbx → Mbx) : (s.modMb n f).fresh = s.fresh := rfl
@[simp] theorem State.modMb_regs (n : Nat) (f : Mbx → Mbx) : (s.modMb n f).regs = s.regs := rfl
@[simp] theorem State.modMb_paths (n : Nat) (f : Mbx → Mbx) : (s.modMb n f).paths = s.paths := rfl
@[simp] theorem State.modMb_mem (n : Nat) (f : Mbx → Mbx) : (s.modMb n f).mem = s.mem := rfl
@[simp] theorem State.modMb_sectors (n : Nat) (f : Mbx → Mbx) : (s.modMb n f).sectors = s.sectors := rfl
@[simp] theorem State.modMb_exposed (n : Nat) (f : Mbx → Mbx) : (s.modMb n f).exposed = s.exposed := rfl
@[simp] theorem State.modMb_regions (n : Nat) (f : Mbx → Mbx) : (s.modMb n f).regions = s.regions := rfl
@[simp] theorem State.modMb_rgt (n : Nat) (f : Mbx → Mbx) : (s.modMb n f).rgt = s.rgt := rfl
@[simp] theorem State.modMb_extents (n : Nat) (f : Mbx → Mbx) : (s.modMb n f).extents = s.extents := rfl
@[simp] theorem State.modMb_extentGens (n : Nat) (f : Mbx → Mbx) : (s.modMb n f).extentGens = s.extentGens := rfl
@[simp] theorem State.modMb_mkeys (n : Nat) (f : Mbx → Mbx) : (s.modMb n f).mkeys = s.mkeys := rfl
@[simp] theorem State.modMb_mkeyGens (n : Nat) (f : Mbx → Mbx) : (s.modMb n f).mkeyGens = s.mkeyGens := rfl
@[simp] theorem State.modMb_leases (n : Nat) (f : Mbx → Mbx) : (s.modMb n f).leases = s.leases := rfl
@[simp] theorem State.modMb_poisonList (n : Nat) (f : Mbx → Mbx) : (s.modMb n f).poisonList = s.poisonList := rfl
@[simp] theorem State.modMb_poisonOverflow (n : Nat) (f : Mbx → Mbx) : (s.modMb n f).poisonOverflow = s.poisonOverflow := rfl
@[simp] theorem State.modMb_tiles (n : Nat) (f : Mbx → Mbx) : (s.modMb n f).tiles = s.tiles := rfl
@[simp] theorem State.modMb_frames (n : Nat) (f : Mbx → Mbx) : (s.modMb n f).frames = s.frames := rfl
@[simp] theorem State.modMb_moves (n : Nat) (f : Mbx → Mbx) : (s.modMb n f).moves = s.moves := rfl
@[simp] theorem State.modMb_plc (n : Nat) (f : Mbx → Mbx) : (s.modMb n f).plc = s.plc := rfl
@[simp] theorem State.modMb_hlc (n : Nat) (f : Mbx → Mbx) : (s.modMb n f).hlc = s.hlc := rfl
@[simp] theorem State.modMb_reqs (n : Nat) (f : Mbx → Mbx) : (s.modMb n f).reqs = s.reqs := rfl
@[simp] theorem State.modMb_reqSeq (n : Nat) (f : Mbx → Mbx) : (s.modMb n f).reqSeq = s.reqSeq := rfl
@[simp] theorem State.modMb_ended (n : Nat) (f : Mbx → Mbx) : (s.modMb n f).ended = s.ended := rfl
@[simp] theorem State.modMb_noAdmit (n : Nat) (f : Mbx → Mbx) : (s.modMb n f).noAdmit = s.noAdmit := rfl
@[simp] theorem State.modMb_admitted (n : Nat) (f : Mbx → Mbx) : (s.modMb n f).admitted = s.admitted := rfl
@[simp] theorem State.modMb_links (n : Nat) (f : Mbx → Mbx) : (s.modMb n f).links = s.links := rfl
@[simp] theorem State.modMb_lds (n : Nat) (f : Mbx → Mbx) : (s.modMb n f).lds = s.lds := rfl
@[simp] theorem State.modMb_ports (n : Nat) (f : Mbx → Mbx) : (s.modMb n f).ports = s.ports := rfl
@[simp] theorem State.modMb_advert (n : Nat) (f : Mbx → Mbx) : (s.modMb n f).advert = s.advert := rfl
@[simp] theorem State.modMb_rdx (n : Nat) (f : Mbx → Mbx) : (s.modMb n f).rdx = s.rdx := rfl
@[simp] theorem State.modMb_pools (n : Nat) (f : Mbx → Mbx) : (s.modMb n f).pools = s.pools := rfl
@[simp] theorem State.modMb_sqs (n : Nat) (f : Mbx → Mbx) : (s.modMb n f).sqs = s.sqs := rfl
@[simp] theorem State.modMb_cqs (n : Nat) (f : Mbx → Mbx) : (s.modMb n f).cqs = s.cqs := rfl
@[simp] theorem State.modMb_cmds (n : Nat) (f : Mbx → Mbx) : (s.modMb n f).cmds = s.cmds := rfl
@[simp] theorem State.modMb_cmdSeq (n : Nat) (f : Mbx → Mbx) : (s.modMb n f).cmdSeq = s.cmdSeq := rfl
@[simp] theorem State.modMb_progress (n : Nat) (f : Mbx → Mbx) : (s.modMb n f).progress = s.progress := rfl
@[simp] theorem State.modMb_sqWait (n : Nat) (f : Mbx → Mbx) : (s.modMb n f).sqWait = s.sqWait := rfl
@[simp] theorem State.modMb_chans (n : Nat) (f : Mbx → Mbx) : (s.modMb n f).chans = s.chans := rfl
@[simp] theorem State.modMb_health (n : Nat) (f : Mbx → Mbx) : (s.modMb n f).health = s.health := rfl
@[simp] theorem State.modMb_fmc (n : Nat) (f : Mbx → Mbx) : (s.modMb n f).fmc = s.fmc := rfl
@[simp] theorem State.modMb_elg (n : Nat) (f : Mbx → Mbx) : (s.modMb n f).elg = s.elg := rfl
@[simp] theorem State.modMb_twn (n : Nat) (f : Mbx → Mbx) : (s.modMb n f).twn = s.twn := rfl
@[simp] theorem State.modMb_mbx (n : Nat) (f : Mbx → Mbx) : (s.modMb n f).mbx = s.mbx.upd n {} f := rfl
@[simp] theorem State.modMb_jwait (n : Nat) (f : Mbx → Mbx) : (s.modMb n f).jwait = s.jwait := rfl
@[simp] theorem State.modMb_fw (n : Nat) (f : Mbx → Mbx) : (s.modMb n f).fw = s.fw := rfl
@[simp] theorem State.modMb_sec (n : Nat) (f : Mbx → Mbx) : (s.modMb n f).sec = s.sec := rfl
@[simp] theorem State.modMb_efl (n : Nat) (f : Mbx → Mbx) : (s.modMb n f).efl = s.efl := rfl
@[simp] theorem State.modMb_evr (n : Nat) (f : Mbx → Mbx) : (s.modMb n f).evr = s.evr := rfl
@[simp] theorem State.modMb_evq (n : Nat) (f : Mbx → Mbx) : (s.modMb n f).evq = s.evq := rfl
@[simp] theorem State.modMb_pws (n : Nat) (f : Mbx → Mbx) : (s.modMb n f).pws = s.pws := rfl
@[simp] theorem State.modMb_isl (n : Nat) (f : Mbx → Mbx) : (s.modMb n f).isl = s.isl := rfl
@[simp] theorem State.modMb_twb (n : Nat) (f : Mbx → Mbx) : (s.modMb n f).twb = s.twb := rfl
@[simp] theorem State.modMb_err (n : Nat) (f : Mbx → Mbx) : (s.modMb n f).err = s.err := rfl
@[simp] theorem State.modMb_lap (n : Nat) (f : Mbx → Mbx) : (s.modMb n f).lap = s.lap := rfl

/-! `State.modLink` -/

@[simp] theorem State.modLink_pending (p l : Nat) (f : CxlLink → CxlLink) : (s.modLink p l f).pending = s.pending := rfl
@[simp] theorem State.modLink_out (p l : Nat) (f : CxlLink → CxlLink) : (s.modLink p l f).out = s.out := rfl
@[simp] theorem State.modLink_time (p l : Nat) (f : CxlLink → CxlLink) : (s.modLink p l f).time = s.time := rfl
@[simp] theorem State.modLink_fresh (p l : Nat) (f : CxlLink → CxlLink) : (s.modLink p l f).fresh = s.fresh := rfl
@[simp] theorem State.modLink_regs (p l : Nat) (f : CxlLink → CxlLink) : (s.modLink p l f).regs = s.regs := rfl
@[simp] theorem State.modLink_paths (p l : Nat) (f : CxlLink → CxlLink) : (s.modLink p l f).paths = s.paths := rfl
@[simp] theorem State.modLink_mem (p l : Nat) (f : CxlLink → CxlLink) : (s.modLink p l f).mem = s.mem := rfl
@[simp] theorem State.modLink_sectors (p l : Nat) (f : CxlLink → CxlLink) : (s.modLink p l f).sectors = s.sectors := rfl
@[simp] theorem State.modLink_exposed (p l : Nat) (f : CxlLink → CxlLink) : (s.modLink p l f).exposed = s.exposed := rfl
@[simp] theorem State.modLink_regions (p l : Nat) (f : CxlLink → CxlLink) : (s.modLink p l f).regions = s.regions := rfl
@[simp] theorem State.modLink_rgt (p l : Nat) (f : CxlLink → CxlLink) : (s.modLink p l f).rgt = s.rgt := rfl
@[simp] theorem State.modLink_extents (p l : Nat) (f : CxlLink → CxlLink) : (s.modLink p l f).extents = s.extents := rfl
@[simp] theorem State.modLink_extentGens (p l : Nat) (f : CxlLink → CxlLink) : (s.modLink p l f).extentGens = s.extentGens := rfl
@[simp] theorem State.modLink_mkeys (p l : Nat) (f : CxlLink → CxlLink) : (s.modLink p l f).mkeys = s.mkeys := rfl
@[simp] theorem State.modLink_mkeyGens (p l : Nat) (f : CxlLink → CxlLink) : (s.modLink p l f).mkeyGens = s.mkeyGens := rfl
@[simp] theorem State.modLink_leases (p l : Nat) (f : CxlLink → CxlLink) : (s.modLink p l f).leases = s.leases := rfl
@[simp] theorem State.modLink_poisonList (p l : Nat) (f : CxlLink → CxlLink) : (s.modLink p l f).poisonList = s.poisonList := rfl
@[simp] theorem State.modLink_poisonOverflow (p l : Nat) (f : CxlLink → CxlLink) : (s.modLink p l f).poisonOverflow = s.poisonOverflow := rfl
@[simp] theorem State.modLink_tiles (p l : Nat) (f : CxlLink → CxlLink) : (s.modLink p l f).tiles = s.tiles := rfl
@[simp] theorem State.modLink_frames (p l : Nat) (f : CxlLink → CxlLink) : (s.modLink p l f).frames = s.frames := rfl
@[simp] theorem State.modLink_moves (p l : Nat) (f : CxlLink → CxlLink) : (s.modLink p l f).moves = s.moves := rfl
@[simp] theorem State.modLink_plc (p l : Nat) (f : CxlLink → CxlLink) : (s.modLink p l f).plc = s.plc := rfl
@[simp] theorem State.modLink_hlc (p l : Nat) (f : CxlLink → CxlLink) : (s.modLink p l f).hlc = s.hlc := rfl
@[simp] theorem State.modLink_reqs (p l : Nat) (f : CxlLink → CxlLink) : (s.modLink p l f).reqs = s.reqs := rfl
@[simp] theorem State.modLink_reqSeq (p l : Nat) (f : CxlLink → CxlLink) : (s.modLink p l f).reqSeq = s.reqSeq := rfl
@[simp] theorem State.modLink_ended (p l : Nat) (f : CxlLink → CxlLink) : (s.modLink p l f).ended = s.ended := rfl
@[simp] theorem State.modLink_noAdmit (p l : Nat) (f : CxlLink → CxlLink) : (s.modLink p l f).noAdmit = s.noAdmit := rfl
@[simp] theorem State.modLink_admitted (p l : Nat) (f : CxlLink → CxlLink) : (s.modLink p l f).admitted = s.admitted := rfl
@[simp] theorem State.modLink_links (p l : Nat) (f : CxlLink → CxlLink) : (s.modLink p l f).links = s.links.upd (linkKey p l) {} f := rfl
@[simp] theorem State.modLink_lds (p l : Nat) (f : CxlLink → CxlLink) : (s.modLink p l f).lds = s.lds := rfl
@[simp] theorem State.modLink_ports (p l : Nat) (f : CxlLink → CxlLink) : (s.modLink p l f).ports = s.ports := rfl
@[simp] theorem State.modLink_advert (p l : Nat) (f : CxlLink → CxlLink) : (s.modLink p l f).advert = s.advert := rfl
@[simp] theorem State.modLink_rdx (p l : Nat) (f : CxlLink → CxlLink) : (s.modLink p l f).rdx = s.rdx := rfl
@[simp] theorem State.modLink_pools (p l : Nat) (f : CxlLink → CxlLink) : (s.modLink p l f).pools = s.pools := rfl
@[simp] theorem State.modLink_sqs (p l : Nat) (f : CxlLink → CxlLink) : (s.modLink p l f).sqs = s.sqs := rfl
@[simp] theorem State.modLink_cqs (p l : Nat) (f : CxlLink → CxlLink) : (s.modLink p l f).cqs = s.cqs := rfl
@[simp] theorem State.modLink_cmds (p l : Nat) (f : CxlLink → CxlLink) : (s.modLink p l f).cmds = s.cmds := rfl
@[simp] theorem State.modLink_cmdSeq (p l : Nat) (f : CxlLink → CxlLink) : (s.modLink p l f).cmdSeq = s.cmdSeq := rfl
@[simp] theorem State.modLink_progress (p l : Nat) (f : CxlLink → CxlLink) : (s.modLink p l f).progress = s.progress := rfl
@[simp] theorem State.modLink_sqWait (p l : Nat) (f : CxlLink → CxlLink) : (s.modLink p l f).sqWait = s.sqWait := rfl
@[simp] theorem State.modLink_chans (p l : Nat) (f : CxlLink → CxlLink) : (s.modLink p l f).chans = s.chans := rfl
@[simp] theorem State.modLink_health (p l : Nat) (f : CxlLink → CxlLink) : (s.modLink p l f).health = s.health := rfl
@[simp] theorem State.modLink_fmc (p l : Nat) (f : CxlLink → CxlLink) : (s.modLink p l f).fmc = s.fmc := rfl
@[simp] theorem State.modLink_elg (p l : Nat) (f : CxlLink → CxlLink) : (s.modLink p l f).elg = s.elg := rfl
@[simp] theorem State.modLink_twn (p l : Nat) (f : CxlLink → CxlLink) : (s.modLink p l f).twn = s.twn := rfl
@[simp] theorem State.modLink_mbx (p l : Nat) (f : CxlLink → CxlLink) : (s.modLink p l f).mbx = s.mbx := rfl
@[simp] theorem State.modLink_jwait (p l : Nat) (f : CxlLink → CxlLink) : (s.modLink p l f).jwait = s.jwait := rfl
@[simp] theorem State.modLink_fw (p l : Nat) (f : CxlLink → CxlLink) : (s.modLink p l f).fw = s.fw := rfl
@[simp] theorem State.modLink_sec (p l : Nat) (f : CxlLink → CxlLink) : (s.modLink p l f).sec = s.sec := rfl
@[simp] theorem State.modLink_efl (p l : Nat) (f : CxlLink → CxlLink) : (s.modLink p l f).efl = s.efl := rfl
@[simp] theorem State.modLink_evr (p l : Nat) (f : CxlLink → CxlLink) : (s.modLink p l f).evr = s.evr := rfl
@[simp] theorem State.modLink_evq (p l : Nat) (f : CxlLink → CxlLink) : (s.modLink p l f).evq = s.evq := rfl
@[simp] theorem State.modLink_pws (p l : Nat) (f : CxlLink → CxlLink) : (s.modLink p l f).pws = s.pws := rfl
@[simp] theorem State.modLink_isl (p l : Nat) (f : CxlLink → CxlLink) : (s.modLink p l f).isl = s.isl := rfl
@[simp] theorem State.modLink_twb (p l : Nat) (f : CxlLink → CxlLink) : (s.modLink p l f).twb = s.twb := rfl
@[simp] theorem State.modLink_err (p l : Nat) (f : CxlLink → CxlLink) : (s.modLink p l f).err = s.err := rfl
@[simp] theorem State.modLink_lap (p l : Nat) (f : CxlLink → CxlLink) : (s.modLink p l f).lap = s.lap := rfl

/-! `State.modChan` -/

@[simp] theorem State.modChan_pending (n : Nat) (f : Chan → Chan) : (s.modChan n f).pending = s.pending := rfl
@[simp] theorem State.modChan_out (n : Nat) (f : Chan → Chan) : (s.modChan n f).out = s.out := rfl
@[simp] theorem State.modChan_time (n : Nat) (f : Chan → Chan) : (s.modChan n f).time = s.time := rfl
@[simp] theorem State.modChan_fresh (n : Nat) (f : Chan → Chan) : (s.modChan n f).fresh = s.fresh := rfl
@[simp] theorem State.modChan_regs (n : Nat) (f : Chan → Chan) : (s.modChan n f).regs = s.regs := rfl
@[simp] theorem State.modChan_paths (n : Nat) (f : Chan → Chan) : (s.modChan n f).paths = s.paths := rfl
@[simp] theorem State.modChan_mem (n : Nat) (f : Chan → Chan) : (s.modChan n f).mem = s.mem := rfl
@[simp] theorem State.modChan_sectors (n : Nat) (f : Chan → Chan) : (s.modChan n f).sectors = s.sectors := rfl
@[simp] theorem State.modChan_exposed (n : Nat) (f : Chan → Chan) : (s.modChan n f).exposed = s.exposed := rfl
@[simp] theorem State.modChan_regions (n : Nat) (f : Chan → Chan) : (s.modChan n f).regions = s.regions := rfl
@[simp] theorem State.modChan_rgt (n : Nat) (f : Chan → Chan) : (s.modChan n f).rgt = s.rgt := rfl
@[simp] theorem State.modChan_extents (n : Nat) (f : Chan → Chan) : (s.modChan n f).extents = s.extents := rfl
@[simp] theorem State.modChan_extentGens (n : Nat) (f : Chan → Chan) : (s.modChan n f).extentGens = s.extentGens := rfl
@[simp] theorem State.modChan_mkeys (n : Nat) (f : Chan → Chan) : (s.modChan n f).mkeys = s.mkeys := rfl
@[simp] theorem State.modChan_mkeyGens (n : Nat) (f : Chan → Chan) : (s.modChan n f).mkeyGens = s.mkeyGens := rfl
@[simp] theorem State.modChan_leases (n : Nat) (f : Chan → Chan) : (s.modChan n f).leases = s.leases := rfl
@[simp] theorem State.modChan_poisonList (n : Nat) (f : Chan → Chan) : (s.modChan n f).poisonList = s.poisonList := rfl
@[simp] theorem State.modChan_poisonOverflow (n : Nat) (f : Chan → Chan) : (s.modChan n f).poisonOverflow = s.poisonOverflow := rfl
@[simp] theorem State.modChan_tiles (n : Nat) (f : Chan → Chan) : (s.modChan n f).tiles = s.tiles := rfl
@[simp] theorem State.modChan_frames (n : Nat) (f : Chan → Chan) : (s.modChan n f).frames = s.frames := rfl
@[simp] theorem State.modChan_moves (n : Nat) (f : Chan → Chan) : (s.modChan n f).moves = s.moves := rfl
@[simp] theorem State.modChan_plc (n : Nat) (f : Chan → Chan) : (s.modChan n f).plc = s.plc := rfl
@[simp] theorem State.modChan_hlc (n : Nat) (f : Chan → Chan) : (s.modChan n f).hlc = s.hlc := rfl
@[simp] theorem State.modChan_reqs (n : Nat) (f : Chan → Chan) : (s.modChan n f).reqs = s.reqs := rfl
@[simp] theorem State.modChan_reqSeq (n : Nat) (f : Chan → Chan) : (s.modChan n f).reqSeq = s.reqSeq := rfl
@[simp] theorem State.modChan_ended (n : Nat) (f : Chan → Chan) : (s.modChan n f).ended = s.ended := rfl
@[simp] theorem State.modChan_noAdmit (n : Nat) (f : Chan → Chan) : (s.modChan n f).noAdmit = s.noAdmit := rfl
@[simp] theorem State.modChan_admitted (n : Nat) (f : Chan → Chan) : (s.modChan n f).admitted = s.admitted := rfl
@[simp] theorem State.modChan_links (n : Nat) (f : Chan → Chan) : (s.modChan n f).links = s.links := rfl
@[simp] theorem State.modChan_lds (n : Nat) (f : Chan → Chan) : (s.modChan n f).lds = s.lds := rfl
@[simp] theorem State.modChan_ports (n : Nat) (f : Chan → Chan) : (s.modChan n f).ports = s.ports := rfl
@[simp] theorem State.modChan_advert (n : Nat) (f : Chan → Chan) : (s.modChan n f).advert = s.advert := rfl
@[simp] theorem State.modChan_rdx (n : Nat) (f : Chan → Chan) : (s.modChan n f).rdx = s.rdx := rfl
@[simp] theorem State.modChan_pools (n : Nat) (f : Chan → Chan) : (s.modChan n f).pools = s.pools := rfl
@[simp] theorem State.modChan_sqs (n : Nat) (f : Chan → Chan) : (s.modChan n f).sqs = s.sqs := rfl
@[simp] theorem State.modChan_cqs (n : Nat) (f : Chan → Chan) : (s.modChan n f).cqs = s.cqs := rfl
@[simp] theorem State.modChan_cmds (n : Nat) (f : Chan → Chan) : (s.modChan n f).cmds = s.cmds := rfl
@[simp] theorem State.modChan_cmdSeq (n : Nat) (f : Chan → Chan) : (s.modChan n f).cmdSeq = s.cmdSeq := rfl
@[simp] theorem State.modChan_progress (n : Nat) (f : Chan → Chan) : (s.modChan n f).progress = s.progress := rfl
@[simp] theorem State.modChan_sqWait (n : Nat) (f : Chan → Chan) : (s.modChan n f).sqWait = s.sqWait := rfl
@[simp] theorem State.modChan_chans (n : Nat) (f : Chan → Chan) : (s.modChan n f).chans = s.chans.upd n {} f := rfl
@[simp] theorem State.modChan_health (n : Nat) (f : Chan → Chan) : (s.modChan n f).health = s.health := rfl
@[simp] theorem State.modChan_fmc (n : Nat) (f : Chan → Chan) : (s.modChan n f).fmc = s.fmc := rfl
@[simp] theorem State.modChan_elg (n : Nat) (f : Chan → Chan) : (s.modChan n f).elg = s.elg := rfl
@[simp] theorem State.modChan_twn (n : Nat) (f : Chan → Chan) : (s.modChan n f).twn = s.twn := rfl
@[simp] theorem State.modChan_mbx (n : Nat) (f : Chan → Chan) : (s.modChan n f).mbx = s.mbx := rfl
@[simp] theorem State.modChan_jwait (n : Nat) (f : Chan → Chan) : (s.modChan n f).jwait = s.jwait := rfl
@[simp] theorem State.modChan_fw (n : Nat) (f : Chan → Chan) : (s.modChan n f).fw = s.fw := rfl
@[simp] theorem State.modChan_sec (n : Nat) (f : Chan → Chan) : (s.modChan n f).sec = s.sec := rfl
@[simp] theorem State.modChan_efl (n : Nat) (f : Chan → Chan) : (s.modChan n f).efl = s.efl := rfl
@[simp] theorem State.modChan_evr (n : Nat) (f : Chan → Chan) : (s.modChan n f).evr = s.evr := rfl
@[simp] theorem State.modChan_evq (n : Nat) (f : Chan → Chan) : (s.modChan n f).evq = s.evq := rfl
@[simp] theorem State.modChan_pws (n : Nat) (f : Chan → Chan) : (s.modChan n f).pws = s.pws := rfl
@[simp] theorem State.modChan_isl (n : Nat) (f : Chan → Chan) : (s.modChan n f).isl = s.isl := rfl
@[simp] theorem State.modChan_twb (n : Nat) (f : Chan → Chan) : (s.modChan n f).twb = s.twb := rfl
@[simp] theorem State.modChan_err (n : Nat) (f : Chan → Chan) : (s.modChan n f).err = s.err := rfl
@[simp] theorem State.modChan_lap (n : Nat) (f : Chan → Chan) : (s.modChan n f).lap = s.lap := rfl

/-! `State.modPort` -/

@[simp] theorem State.modPort_pending (n : Nat) (f : NetPort → NetPort) : (s.modPort n f).pending = s.pending := rfl
@[simp] theorem State.modPort_out (n : Nat) (f : NetPort → NetPort) : (s.modPort n f).out = s.out := rfl
@[simp] theorem State.modPort_time (n : Nat) (f : NetPort → NetPort) : (s.modPort n f).time = s.time := rfl
@[simp] theorem State.modPort_fresh (n : Nat) (f : NetPort → NetPort) : (s.modPort n f).fresh = s.fresh := rfl
@[simp] theorem State.modPort_regs (n : Nat) (f : NetPort → NetPort) : (s.modPort n f).regs = s.regs := rfl
@[simp] theorem State.modPort_paths (n : Nat) (f : NetPort → NetPort) : (s.modPort n f).paths = s.paths := rfl
@[simp] theorem State.modPort_mem (n : Nat) (f : NetPort → NetPort) : (s.modPort n f).mem = s.mem := rfl
@[simp] theorem State.modPort_sectors (n : Nat) (f : NetPort → NetPort) : (s.modPort n f).sectors = s.sectors := rfl
@[simp] theorem State.modPort_exposed (n : Nat) (f : NetPort → NetPort) : (s.modPort n f).exposed = s.exposed := rfl
@[simp] theorem State.modPort_regions (n : Nat) (f : NetPort → NetPort) : (s.modPort n f).regions = s.regions := rfl
@[simp] theorem State.modPort_rgt (n : Nat) (f : NetPort → NetPort) : (s.modPort n f).rgt = s.rgt := rfl
@[simp] theorem State.modPort_extents (n : Nat) (f : NetPort → NetPort) : (s.modPort n f).extents = s.extents := rfl
@[simp] theorem State.modPort_extentGens (n : Nat) (f : NetPort → NetPort) : (s.modPort n f).extentGens = s.extentGens := rfl
@[simp] theorem State.modPort_mkeys (n : Nat) (f : NetPort → NetPort) : (s.modPort n f).mkeys = s.mkeys := rfl
@[simp] theorem State.modPort_mkeyGens (n : Nat) (f : NetPort → NetPort) : (s.modPort n f).mkeyGens = s.mkeyGens := rfl
@[simp] theorem State.modPort_leases (n : Nat) (f : NetPort → NetPort) : (s.modPort n f).leases = s.leases := rfl
@[simp] theorem State.modPort_poisonList (n : Nat) (f : NetPort → NetPort) : (s.modPort n f).poisonList = s.poisonList := rfl
@[simp] theorem State.modPort_poisonOverflow (n : Nat) (f : NetPort → NetPort) : (s.modPort n f).poisonOverflow = s.poisonOverflow := rfl
@[simp] theorem State.modPort_tiles (n : Nat) (f : NetPort → NetPort) : (s.modPort n f).tiles = s.tiles := rfl
@[simp] theorem State.modPort_frames (n : Nat) (f : NetPort → NetPort) : (s.modPort n f).frames = s.frames := rfl
@[simp] theorem State.modPort_moves (n : Nat) (f : NetPort → NetPort) : (s.modPort n f).moves = s.moves := rfl
@[simp] theorem State.modPort_plc (n : Nat) (f : NetPort → NetPort) : (s.modPort n f).plc = s.plc := rfl
@[simp] theorem State.modPort_hlc (n : Nat) (f : NetPort → NetPort) : (s.modPort n f).hlc = s.hlc := rfl
@[simp] theorem State.modPort_reqs (n : Nat) (f : NetPort → NetPort) : (s.modPort n f).reqs = s.reqs := rfl
@[simp] theorem State.modPort_reqSeq (n : Nat) (f : NetPort → NetPort) : (s.modPort n f).reqSeq = s.reqSeq := rfl
@[simp] theorem State.modPort_ended (n : Nat) (f : NetPort → NetPort) : (s.modPort n f).ended = s.ended := rfl
@[simp] theorem State.modPort_noAdmit (n : Nat) (f : NetPort → NetPort) : (s.modPort n f).noAdmit = s.noAdmit := rfl
@[simp] theorem State.modPort_admitted (n : Nat) (f : NetPort → NetPort) : (s.modPort n f).admitted = s.admitted := rfl
@[simp] theorem State.modPort_links (n : Nat) (f : NetPort → NetPort) : (s.modPort n f).links = s.links := rfl
@[simp] theorem State.modPort_lds (n : Nat) (f : NetPort → NetPort) : (s.modPort n f).lds = s.lds := rfl
@[simp] theorem State.modPort_ports (n : Nat) (f : NetPort → NetPort) : (s.modPort n f).ports = s.ports.upd n {} f := rfl
@[simp] theorem State.modPort_advert (n : Nat) (f : NetPort → NetPort) : (s.modPort n f).advert = s.advert := rfl
@[simp] theorem State.modPort_rdx (n : Nat) (f : NetPort → NetPort) : (s.modPort n f).rdx = s.rdx := rfl
@[simp] theorem State.modPort_pools (n : Nat) (f : NetPort → NetPort) : (s.modPort n f).pools = s.pools := rfl
@[simp] theorem State.modPort_sqs (n : Nat) (f : NetPort → NetPort) : (s.modPort n f).sqs = s.sqs := rfl
@[simp] theorem State.modPort_cqs (n : Nat) (f : NetPort → NetPort) : (s.modPort n f).cqs = s.cqs := rfl
@[simp] theorem State.modPort_cmds (n : Nat) (f : NetPort → NetPort) : (s.modPort n f).cmds = s.cmds := rfl
@[simp] theorem State.modPort_cmdSeq (n : Nat) (f : NetPort → NetPort) : (s.modPort n f).cmdSeq = s.cmdSeq := rfl
@[simp] theorem State.modPort_progress (n : Nat) (f : NetPort → NetPort) : (s.modPort n f).progress = s.progress := rfl
@[simp] theorem State.modPort_sqWait (n : Nat) (f : NetPort → NetPort) : (s.modPort n f).sqWait = s.sqWait := rfl
@[simp] theorem State.modPort_chans (n : Nat) (f : NetPort → NetPort) : (s.modPort n f).chans = s.chans := rfl
@[simp] theorem State.modPort_health (n : Nat) (f : NetPort → NetPort) : (s.modPort n f).health = s.health := rfl
@[simp] theorem State.modPort_fmc (n : Nat) (f : NetPort → NetPort) : (s.modPort n f).fmc = s.fmc := rfl
@[simp] theorem State.modPort_elg (n : Nat) (f : NetPort → NetPort) : (s.modPort n f).elg = s.elg := rfl
@[simp] theorem State.modPort_twn (n : Nat) (f : NetPort → NetPort) : (s.modPort n f).twn = s.twn := rfl
@[simp] theorem State.modPort_mbx (n : Nat) (f : NetPort → NetPort) : (s.modPort n f).mbx = s.mbx := rfl
@[simp] theorem State.modPort_jwait (n : Nat) (f : NetPort → NetPort) : (s.modPort n f).jwait = s.jwait := rfl
@[simp] theorem State.modPort_fw (n : Nat) (f : NetPort → NetPort) : (s.modPort n f).fw = s.fw := rfl
@[simp] theorem State.modPort_sec (n : Nat) (f : NetPort → NetPort) : (s.modPort n f).sec = s.sec := rfl
@[simp] theorem State.modPort_efl (n : Nat) (f : NetPort → NetPort) : (s.modPort n f).efl = s.efl := rfl
@[simp] theorem State.modPort_evr (n : Nat) (f : NetPort → NetPort) : (s.modPort n f).evr = s.evr := rfl
@[simp] theorem State.modPort_evq (n : Nat) (f : NetPort → NetPort) : (s.modPort n f).evq = s.evq := rfl
@[simp] theorem State.modPort_pws (n : Nat) (f : NetPort → NetPort) : (s.modPort n f).pws = s.pws := rfl
@[simp] theorem State.modPort_isl (n : Nat) (f : NetPort → NetPort) : (s.modPort n f).isl = s.isl := rfl
@[simp] theorem State.modPort_twb (n : Nat) (f : NetPort → NetPort) : (s.modPort n f).twb = s.twb := rfl
@[simp] theorem State.modPort_err (n : Nat) (f : NetPort → NetPort) : (s.modPort n f).err = s.err := rfl
@[simp] theorem State.modPort_lap (n : Nat) (f : NetPort → NetPort) : (s.modPort n f).lap = s.lap := rfl

/-! `State.modReq` -/

@[simp] theorem State.modReq_pending (n : Nat) (f : Req → Req) : (s.modReq n f).pending = s.pending := rfl
@[simp] theorem State.modReq_out (n : Nat) (f : Req → Req) : (s.modReq n f).out = s.out := rfl
@[simp] theorem State.modReq_time (n : Nat) (f : Req → Req) : (s.modReq n f).time = s.time := rfl
@[simp] theorem State.modReq_fresh (n : Nat) (f : Req → Req) : (s.modReq n f).fresh = s.fresh := rfl
@[simp] theorem State.modReq_regs (n : Nat) (f : Req → Req) : (s.modReq n f).regs = s.regs := rfl
@[simp] theorem State.modReq_paths (n : Nat) (f : Req → Req) : (s.modReq n f).paths = s.paths := rfl
@[simp] theorem State.modReq_mem (n : Nat) (f : Req → Req) : (s.modReq n f).mem = s.mem := rfl
@[simp] theorem State.modReq_sectors (n : Nat) (f : Req → Req) : (s.modReq n f).sectors = s.sectors := rfl
@[simp] theorem State.modReq_exposed (n : Nat) (f : Req → Req) : (s.modReq n f).exposed = s.exposed := rfl
@[simp] theorem State.modReq_regions (n : Nat) (f : Req → Req) : (s.modReq n f).regions = s.regions := rfl
@[simp] theorem State.modReq_rgt (n : Nat) (f : Req → Req) : (s.modReq n f).rgt = s.rgt := rfl
@[simp] theorem State.modReq_extents (n : Nat) (f : Req → Req) : (s.modReq n f).extents = s.extents := rfl
@[simp] theorem State.modReq_extentGens (n : Nat) (f : Req → Req) : (s.modReq n f).extentGens = s.extentGens := rfl
@[simp] theorem State.modReq_mkeys (n : Nat) (f : Req → Req) : (s.modReq n f).mkeys = s.mkeys := rfl
@[simp] theorem State.modReq_mkeyGens (n : Nat) (f : Req → Req) : (s.modReq n f).mkeyGens = s.mkeyGens := rfl
@[simp] theorem State.modReq_leases (n : Nat) (f : Req → Req) : (s.modReq n f).leases = s.leases := rfl
@[simp] theorem State.modReq_poisonList (n : Nat) (f : Req → Req) : (s.modReq n f).poisonList = s.poisonList := rfl
@[simp] theorem State.modReq_poisonOverflow (n : Nat) (f : Req → Req) : (s.modReq n f).poisonOverflow = s.poisonOverflow := rfl
@[simp] theorem State.modReq_tiles (n : Nat) (f : Req → Req) : (s.modReq n f).tiles = s.tiles := rfl
@[simp] theorem State.modReq_frames (n : Nat) (f : Req → Req) : (s.modReq n f).frames = s.frames := rfl
@[simp] theorem State.modReq_moves (n : Nat) (f : Req → Req) : (s.modReq n f).moves = s.moves := rfl
@[simp] theorem State.modReq_plc (n : Nat) (f : Req → Req) : (s.modReq n f).plc = s.plc := rfl
@[simp] theorem State.modReq_hlc (n : Nat) (f : Req → Req) : (s.modReq n f).hlc = s.hlc := rfl
@[simp] theorem State.modReq_reqs (n : Nat) (f : Req → Req) : (s.modReq n f).reqs = s.reqs.modify n f := rfl
@[simp] theorem State.modReq_reqSeq (n : Nat) (f : Req → Req) : (s.modReq n f).reqSeq = s.reqSeq := rfl
@[simp] theorem State.modReq_ended (n : Nat) (f : Req → Req) : (s.modReq n f).ended = s.ended := rfl
@[simp] theorem State.modReq_noAdmit (n : Nat) (f : Req → Req) : (s.modReq n f).noAdmit = s.noAdmit := rfl
@[simp] theorem State.modReq_admitted (n : Nat) (f : Req → Req) : (s.modReq n f).admitted = s.admitted := rfl
@[simp] theorem State.modReq_links (n : Nat) (f : Req → Req) : (s.modReq n f).links = s.links := rfl
@[simp] theorem State.modReq_lds (n : Nat) (f : Req → Req) : (s.modReq n f).lds = s.lds := rfl
@[simp] theorem State.modReq_ports (n : Nat) (f : Req → Req) : (s.modReq n f).ports = s.ports := rfl
@[simp] theorem State.modReq_advert (n : Nat) (f : Req → Req) : (s.modReq n f).advert = s.advert := rfl
@[simp] theorem State.modReq_rdx (n : Nat) (f : Req → Req) : (s.modReq n f).rdx = s.rdx := rfl
@[simp] theorem State.modReq_pools (n : Nat) (f : Req → Req) : (s.modReq n f).pools = s.pools := rfl
@[simp] theorem State.modReq_sqs (n : Nat) (f : Req → Req) : (s.modReq n f).sqs = s.sqs := rfl
@[simp] theorem State.modReq_cqs (n : Nat) (f : Req → Req) : (s.modReq n f).cqs = s.cqs := rfl
@[simp] theorem State.modReq_cmds (n : Nat) (f : Req → Req) : (s.modReq n f).cmds = s.cmds := rfl
@[simp] theorem State.modReq_cmdSeq (n : Nat) (f : Req → Req) : (s.modReq n f).cmdSeq = s.cmdSeq := rfl
@[simp] theorem State.modReq_progress (n : Nat) (f : Req → Req) : (s.modReq n f).progress = s.progress := rfl
@[simp] theorem State.modReq_sqWait (n : Nat) (f : Req → Req) : (s.modReq n f).sqWait = s.sqWait := rfl
@[simp] theorem State.modReq_chans (n : Nat) (f : Req → Req) : (s.modReq n f).chans = s.chans := rfl
@[simp] theorem State.modReq_health (n : Nat) (f : Req → Req) : (s.modReq n f).health = s.health := rfl
@[simp] theorem State.modReq_fmc (n : Nat) (f : Req → Req) : (s.modReq n f).fmc = s.fmc := rfl
@[simp] theorem State.modReq_elg (n : Nat) (f : Req → Req) : (s.modReq n f).elg = s.elg := rfl
@[simp] theorem State.modReq_twn (n : Nat) (f : Req → Req) : (s.modReq n f).twn = s.twn := rfl
@[simp] theorem State.modReq_mbx (n : Nat) (f : Req → Req) : (s.modReq n f).mbx = s.mbx := rfl
@[simp] theorem State.modReq_jwait (n : Nat) (f : Req → Req) : (s.modReq n f).jwait = s.jwait := rfl
@[simp] theorem State.modReq_fw (n : Nat) (f : Req → Req) : (s.modReq n f).fw = s.fw := rfl
@[simp] theorem State.modReq_sec (n : Nat) (f : Req → Req) : (s.modReq n f).sec = s.sec := rfl
@[simp] theorem State.modReq_efl (n : Nat) (f : Req → Req) : (s.modReq n f).efl = s.efl := rfl
@[simp] theorem State.modReq_evr (n : Nat) (f : Req → Req) : (s.modReq n f).evr = s.evr := rfl
@[simp] theorem State.modReq_evq (n : Nat) (f : Req → Req) : (s.modReq n f).evq = s.evq := rfl
@[simp] theorem State.modReq_pws (n : Nat) (f : Req → Req) : (s.modReq n f).pws = s.pws := rfl
@[simp] theorem State.modReq_isl (n : Nat) (f : Req → Req) : (s.modReq n f).isl = s.isl := rfl
@[simp] theorem State.modReq_twb (n : Nat) (f : Req → Req) : (s.modReq n f).twb = s.twb := rfl
@[simp] theorem State.modReq_err (n : Nat) (f : Req → Req) : (s.modReq n f).err = s.err := rfl
@[simp] theorem State.modReq_lap (n : Nat) (f : Req → Req) : (s.modReq n f).lap = s.lap := rfl

/-! `State.modMove` -/

@[simp] theorem State.modMove_pending (n : Nat) (f : Move → Move) : (s.modMove n f).pending = s.pending := rfl
@[simp] theorem State.modMove_out (n : Nat) (f : Move → Move) : (s.modMove n f).out = s.out := rfl
@[simp] theorem State.modMove_time (n : Nat) (f : Move → Move) : (s.modMove n f).time = s.time := rfl
@[simp] theorem State.modMove_fresh (n : Nat) (f : Move → Move) : (s.modMove n f).fresh = s.fresh := rfl
@[simp] theorem State.modMove_regs (n : Nat) (f : Move → Move) : (s.modMove n f).regs = s.regs := rfl
@[simp] theorem State.modMove_paths (n : Nat) (f : Move → Move) : (s.modMove n f).paths = s.paths := rfl
@[simp] theorem State.modMove_mem (n : Nat) (f : Move → Move) : (s.modMove n f).mem = s.mem := rfl
@[simp] theorem State.modMove_sectors (n : Nat) (f : Move → Move) : (s.modMove n f).sectors = s.sectors := rfl
@[simp] theorem State.modMove_exposed (n : Nat) (f : Move → Move) : (s.modMove n f).exposed = s.exposed := rfl
@[simp] theorem State.modMove_regions (n : Nat) (f : Move → Move) : (s.modMove n f).regions = s.regions := rfl
@[simp] theorem State.modMove_rgt (n : Nat) (f : Move → Move) : (s.modMove n f).rgt = s.rgt := rfl
@[simp] theorem State.modMove_extents (n : Nat) (f : Move → Move) : (s.modMove n f).extents = s.extents := rfl
@[simp] theorem State.modMove_extentGens (n : Nat) (f : Move → Move) : (s.modMove n f).extentGens = s.extentGens := rfl
@[simp] theorem State.modMove_mkeys (n : Nat) (f : Move → Move) : (s.modMove n f).mkeys = s.mkeys := rfl
@[simp] theorem State.modMove_mkeyGens (n : Nat) (f : Move → Move) : (s.modMove n f).mkeyGens = s.mkeyGens := rfl
@[simp] theorem State.modMove_leases (n : Nat) (f : Move → Move) : (s.modMove n f).leases = s.leases := rfl
@[simp] theorem State.modMove_poisonList (n : Nat) (f : Move → Move) : (s.modMove n f).poisonList = s.poisonList := rfl
@[simp] theorem State.modMove_poisonOverflow (n : Nat) (f : Move → Move) : (s.modMove n f).poisonOverflow = s.poisonOverflow := rfl
@[simp] theorem State.modMove_tiles (n : Nat) (f : Move → Move) : (s.modMove n f).tiles = s.tiles := rfl
@[simp] theorem State.modMove_frames (n : Nat) (f : Move → Move) : (s.modMove n f).frames = s.frames := rfl
@[simp] theorem State.modMove_moves (n : Nat) (f : Move → Move) : (s.modMove n f).moves = s.moves.modify n f := rfl
@[simp] theorem State.modMove_plc (n : Nat) (f : Move → Move) : (s.modMove n f).plc = s.plc := rfl
@[simp] theorem State.modMove_hlc (n : Nat) (f : Move → Move) : (s.modMove n f).hlc = s.hlc := rfl
@[simp] theorem State.modMove_reqs (n : Nat) (f : Move → Move) : (s.modMove n f).reqs = s.reqs := rfl
@[simp] theorem State.modMove_reqSeq (n : Nat) (f : Move → Move) : (s.modMove n f).reqSeq = s.reqSeq := rfl
@[simp] theorem State.modMove_ended (n : Nat) (f : Move → Move) : (s.modMove n f).ended = s.ended := rfl
@[simp] theorem State.modMove_noAdmit (n : Nat) (f : Move → Move) : (s.modMove n f).noAdmit = s.noAdmit := rfl
@[simp] theorem State.modMove_admitted (n : Nat) (f : Move → Move) : (s.modMove n f).admitted = s.admitted := rfl
@[simp] theorem State.modMove_links (n : Nat) (f : Move → Move) : (s.modMove n f).links = s.links := rfl
@[simp] theorem State.modMove_lds (n : Nat) (f : Move → Move) : (s.modMove n f).lds = s.lds := rfl
@[simp] theorem State.modMove_ports (n : Nat) (f : Move → Move) : (s.modMove n f).ports = s.ports := rfl
@[simp] theorem State.modMove_advert (n : Nat) (f : Move → Move) : (s.modMove n f).advert = s.advert := rfl
@[simp] theorem State.modMove_rdx (n : Nat) (f : Move → Move) : (s.modMove n f).rdx = s.rdx := rfl
@[simp] theorem State.modMove_pools (n : Nat) (f : Move → Move) : (s.modMove n f).pools = s.pools := rfl
@[simp] theorem State.modMove_sqs (n : Nat) (f : Move → Move) : (s.modMove n f).sqs = s.sqs := rfl
@[simp] theorem State.modMove_cqs (n : Nat) (f : Move → Move) : (s.modMove n f).cqs = s.cqs := rfl
@[simp] theorem State.modMove_cmds (n : Nat) (f : Move → Move) : (s.modMove n f).cmds = s.cmds := rfl
@[simp] theorem State.modMove_cmdSeq (n : Nat) (f : Move → Move) : (s.modMove n f).cmdSeq = s.cmdSeq := rfl
@[simp] theorem State.modMove_progress (n : Nat) (f : Move → Move) : (s.modMove n f).progress = s.progress := rfl
@[simp] theorem State.modMove_sqWait (n : Nat) (f : Move → Move) : (s.modMove n f).sqWait = s.sqWait := rfl
@[simp] theorem State.modMove_chans (n : Nat) (f : Move → Move) : (s.modMove n f).chans = s.chans := rfl
@[simp] theorem State.modMove_health (n : Nat) (f : Move → Move) : (s.modMove n f).health = s.health := rfl
@[simp] theorem State.modMove_fmc (n : Nat) (f : Move → Move) : (s.modMove n f).fmc = s.fmc := rfl
@[simp] theorem State.modMove_elg (n : Nat) (f : Move → Move) : (s.modMove n f).elg = s.elg := rfl
@[simp] theorem State.modMove_twn (n : Nat) (f : Move → Move) : (s.modMove n f).twn = s.twn := rfl
@[simp] theorem State.modMove_mbx (n : Nat) (f : Move → Move) : (s.modMove n f).mbx = s.mbx := rfl
@[simp] theorem State.modMove_jwait (n : Nat) (f : Move → Move) : (s.modMove n f).jwait = s.jwait := rfl
@[simp] theorem State.modMove_fw (n : Nat) (f : Move → Move) : (s.modMove n f).fw = s.fw := rfl
@[simp] theorem State.modMove_sec (n : Nat) (f : Move → Move) : (s.modMove n f).sec = s.sec := rfl
@[simp] theorem State.modMove_efl (n : Nat) (f : Move → Move) : (s.modMove n f).efl = s.efl := rfl
@[simp] theorem State.modMove_evr (n : Nat) (f : Move → Move) : (s.modMove n f).evr = s.evr := rfl
@[simp] theorem State.modMove_evq (n : Nat) (f : Move → Move) : (s.modMove n f).evq = s.evq := rfl
@[simp] theorem State.modMove_pws (n : Nat) (f : Move → Move) : (s.modMove n f).pws = s.pws := rfl
@[simp] theorem State.modMove_isl (n : Nat) (f : Move → Move) : (s.modMove n f).isl = s.isl := rfl
@[simp] theorem State.modMove_twb (n : Nat) (f : Move → Move) : (s.modMove n f).twb = s.twb := rfl
@[simp] theorem State.modMove_err (n : Nat) (f : Move → Move) : (s.modMove n f).err = s.err := rfl
@[simp] theorem State.modMove_lap (n : Nat) (f : Move → Move) : (s.modMove n f).lap = s.lap := rfl

/-! `State.modCmd` -/

@[simp] theorem State.modCmd_pending (n : Nat) (f : Cmd → Cmd) : (s.modCmd n f).pending = s.pending := rfl
@[simp] theorem State.modCmd_out (n : Nat) (f : Cmd → Cmd) : (s.modCmd n f).out = s.out := rfl
@[simp] theorem State.modCmd_time (n : Nat) (f : Cmd → Cmd) : (s.modCmd n f).time = s.time := rfl
@[simp] theorem State.modCmd_fresh (n : Nat) (f : Cmd → Cmd) : (s.modCmd n f).fresh = s.fresh := rfl
@[simp] theorem State.modCmd_regs (n : Nat) (f : Cmd → Cmd) : (s.modCmd n f).regs = s.regs := rfl
@[simp] theorem State.modCmd_paths (n : Nat) (f : Cmd → Cmd) : (s.modCmd n f).paths = s.paths := rfl
@[simp] theorem State.modCmd_mem (n : Nat) (f : Cmd → Cmd) : (s.modCmd n f).mem = s.mem := rfl
@[simp] theorem State.modCmd_sectors (n : Nat) (f : Cmd → Cmd) : (s.modCmd n f).sectors = s.sectors := rfl
@[simp] theorem State.modCmd_exposed (n : Nat) (f : Cmd → Cmd) : (s.modCmd n f).exposed = s.exposed := rfl
@[simp] theorem State.modCmd_regions (n : Nat) (f : Cmd → Cmd) : (s.modCmd n f).regions = s.regions := rfl
@[simp] theorem State.modCmd_rgt (n : Nat) (f : Cmd → Cmd) : (s.modCmd n f).rgt = s.rgt := rfl
@[simp] theorem State.modCmd_extents (n : Nat) (f : Cmd → Cmd) : (s.modCmd n f).extents = s.extents := rfl
@[simp] theorem State.modCmd_extentGens (n : Nat) (f : Cmd → Cmd) : (s.modCmd n f).extentGens = s.extentGens := rfl
@[simp] theorem State.modCmd_mkeys (n : Nat) (f : Cmd → Cmd) : (s.modCmd n f).mkeys = s.mkeys := rfl
@[simp] theorem State.modCmd_mkeyGens (n : Nat) (f : Cmd → Cmd) : (s.modCmd n f).mkeyGens = s.mkeyGens := rfl
@[simp] theorem State.modCmd_leases (n : Nat) (f : Cmd → Cmd) : (s.modCmd n f).leases = s.leases := rfl
@[simp] theorem State.modCmd_poisonList (n : Nat) (f : Cmd → Cmd) : (s.modCmd n f).poisonList = s.poisonList := rfl
@[simp] theorem State.modCmd_poisonOverflow (n : Nat) (f : Cmd → Cmd) : (s.modCmd n f).poisonOverflow = s.poisonOverflow := rfl
@[simp] theorem State.modCmd_tiles (n : Nat) (f : Cmd → Cmd) : (s.modCmd n f).tiles = s.tiles := rfl
@[simp] theorem State.modCmd_frames (n : Nat) (f : Cmd → Cmd) : (s.modCmd n f).frames = s.frames := rfl
@[simp] theorem State.modCmd_moves (n : Nat) (f : Cmd → Cmd) : (s.modCmd n f).moves = s.moves := rfl
@[simp] theorem State.modCmd_plc (n : Nat) (f : Cmd → Cmd) : (s.modCmd n f).plc = s.plc := rfl
@[simp] theorem State.modCmd_hlc (n : Nat) (f : Cmd → Cmd) : (s.modCmd n f).hlc = s.hlc := rfl
@[simp] theorem State.modCmd_reqs (n : Nat) (f : Cmd → Cmd) : (s.modCmd n f).reqs = s.reqs := rfl
@[simp] theorem State.modCmd_reqSeq (n : Nat) (f : Cmd → Cmd) : (s.modCmd n f).reqSeq = s.reqSeq := rfl
@[simp] theorem State.modCmd_ended (n : Nat) (f : Cmd → Cmd) : (s.modCmd n f).ended = s.ended := rfl
@[simp] theorem State.modCmd_noAdmit (n : Nat) (f : Cmd → Cmd) : (s.modCmd n f).noAdmit = s.noAdmit := rfl
@[simp] theorem State.modCmd_admitted (n : Nat) (f : Cmd → Cmd) : (s.modCmd n f).admitted = s.admitted := rfl
@[simp] theorem State.modCmd_links (n : Nat) (f : Cmd → Cmd) : (s.modCmd n f).links = s.links := rfl
@[simp] theorem State.modCmd_lds (n : Nat) (f : Cmd → Cmd) : (s.modCmd n f).lds = s.lds := rfl
@[simp] theorem State.modCmd_ports (n : Nat) (f : Cmd → Cmd) : (s.modCmd n f).ports = s.ports := rfl
@[simp] theorem State.modCmd_advert (n : Nat) (f : Cmd → Cmd) : (s.modCmd n f).advert = s.advert := rfl
@[simp] theorem State.modCmd_rdx (n : Nat) (f : Cmd → Cmd) : (s.modCmd n f).rdx = s.rdx := rfl
@[simp] theorem State.modCmd_pools (n : Nat) (f : Cmd → Cmd) : (s.modCmd n f).pools = s.pools := rfl
@[simp] theorem State.modCmd_sqs (n : Nat) (f : Cmd → Cmd) : (s.modCmd n f).sqs = s.sqs := rfl
@[simp] theorem State.modCmd_cqs (n : Nat) (f : Cmd → Cmd) : (s.modCmd n f).cqs = s.cqs := rfl
@[simp] theorem State.modCmd_cmds (n : Nat) (f : Cmd → Cmd) : (s.modCmd n f).cmds = s.cmds.modify n f := rfl
@[simp] theorem State.modCmd_cmdSeq (n : Nat) (f : Cmd → Cmd) : (s.modCmd n f).cmdSeq = s.cmdSeq := rfl
@[simp] theorem State.modCmd_progress (n : Nat) (f : Cmd → Cmd) : (s.modCmd n f).progress = s.progress := rfl
@[simp] theorem State.modCmd_sqWait (n : Nat) (f : Cmd → Cmd) : (s.modCmd n f).sqWait = s.sqWait := rfl
@[simp] theorem State.modCmd_chans (n : Nat) (f : Cmd → Cmd) : (s.modCmd n f).chans = s.chans := rfl
@[simp] theorem State.modCmd_health (n : Nat) (f : Cmd → Cmd) : (s.modCmd n f).health = s.health := rfl
@[simp] theorem State.modCmd_fmc (n : Nat) (f : Cmd → Cmd) : (s.modCmd n f).fmc = s.fmc := rfl
@[simp] theorem State.modCmd_elg (n : Nat) (f : Cmd → Cmd) : (s.modCmd n f).elg = s.elg := rfl
@[simp] theorem State.modCmd_twn (n : Nat) (f : Cmd → Cmd) : (s.modCmd n f).twn = s.twn := rfl
@[simp] theorem State.modCmd_mbx (n : Nat) (f : Cmd → Cmd) : (s.modCmd n f).mbx = s.mbx := rfl
@[simp] theorem State.modCmd_jwait (n : Nat) (f : Cmd → Cmd) : (s.modCmd n f).jwait = s.jwait := rfl
@[simp] theorem State.modCmd_fw (n : Nat) (f : Cmd → Cmd) : (s.modCmd n f).fw = s.fw := rfl
@[simp] theorem State.modCmd_sec (n : Nat) (f : Cmd → Cmd) : (s.modCmd n f).sec = s.sec := rfl
@[simp] theorem State.modCmd_efl (n : Nat) (f : Cmd → Cmd) : (s.modCmd n f).efl = s.efl := rfl
@[simp] theorem State.modCmd_evr (n : Nat) (f : Cmd → Cmd) : (s.modCmd n f).evr = s.evr := rfl
@[simp] theorem State.modCmd_evq (n : Nat) (f : Cmd → Cmd) : (s.modCmd n f).evq = s.evq := rfl
@[simp] theorem State.modCmd_pws (n : Nat) (f : Cmd → Cmd) : (s.modCmd n f).pws = s.pws := rfl
@[simp] theorem State.modCmd_isl (n : Nat) (f : Cmd → Cmd) : (s.modCmd n f).isl = s.isl := rfl
@[simp] theorem State.modCmd_twb (n : Nat) (f : Cmd → Cmd) : (s.modCmd n f).twb = s.twb := rfl
@[simp] theorem State.modCmd_err (n : Nat) (f : Cmd → Cmd) : (s.modCmd n f).err = s.err := rfl
@[simp] theorem State.modCmd_lap (n : Nat) (f : Cmd → Cmd) : (s.modCmd n f).lap = s.lap := rfl

/-! `State.modSq` -/

@[simp] theorem State.modSq_pending (n : Nat) (f : Sq → Sq) : (s.modSq n f).pending = s.pending := rfl
@[simp] theorem State.modSq_out (n : Nat) (f : Sq → Sq) : (s.modSq n f).out = s.out := rfl
@[simp] theorem State.modSq_time (n : Nat) (f : Sq → Sq) : (s.modSq n f).time = s.time := rfl
@[simp] theorem State.modSq_fresh (n : Nat) (f : Sq → Sq) : (s.modSq n f).fresh = s.fresh := rfl
@[simp] theorem State.modSq_regs (n : Nat) (f : Sq → Sq) : (s.modSq n f).regs = s.regs := rfl
@[simp] theorem State.modSq_paths (n : Nat) (f : Sq → Sq) : (s.modSq n f).paths = s.paths := rfl
@[simp] theorem State.modSq_mem (n : Nat) (f : Sq → Sq) : (s.modSq n f).mem = s.mem := rfl
@[simp] theorem State.modSq_sectors (n : Nat) (f : Sq → Sq) : (s.modSq n f).sectors = s.sectors := rfl
@[simp] theorem State.modSq_exposed (n : Nat) (f : Sq → Sq) : (s.modSq n f).exposed = s.exposed := rfl
@[simp] theorem State.modSq_regions (n : Nat) (f : Sq → Sq) : (s.modSq n f).regions = s.regions := rfl
@[simp] theorem State.modSq_rgt (n : Nat) (f : Sq → Sq) : (s.modSq n f).rgt = s.rgt := rfl
@[simp] theorem State.modSq_extents (n : Nat) (f : Sq → Sq) : (s.modSq n f).extents = s.extents := rfl
@[simp] theorem State.modSq_extentGens (n : Nat) (f : Sq → Sq) : (s.modSq n f).extentGens = s.extentGens := rfl
@[simp] theorem State.modSq_mkeys (n : Nat) (f : Sq → Sq) : (s.modSq n f).mkeys = s.mkeys := rfl
@[simp] theorem State.modSq_mkeyGens (n : Nat) (f : Sq → Sq) : (s.modSq n f).mkeyGens = s.mkeyGens := rfl
@[simp] theorem State.modSq_leases (n : Nat) (f : Sq → Sq) : (s.modSq n f).leases = s.leases := rfl
@[simp] theorem State.modSq_poisonList (n : Nat) (f : Sq → Sq) : (s.modSq n f).poisonList = s.poisonList := rfl
@[simp] theorem State.modSq_poisonOverflow (n : Nat) (f : Sq → Sq) : (s.modSq n f).poisonOverflow = s.poisonOverflow := rfl
@[simp] theorem State.modSq_tiles (n : Nat) (f : Sq → Sq) : (s.modSq n f).tiles = s.tiles := rfl
@[simp] theorem State.modSq_frames (n : Nat) (f : Sq → Sq) : (s.modSq n f).frames = s.frames := rfl
@[simp] theorem State.modSq_moves (n : Nat) (f : Sq → Sq) : (s.modSq n f).moves = s.moves := rfl
@[simp] theorem State.modSq_plc (n : Nat) (f : Sq → Sq) : (s.modSq n f).plc = s.plc := rfl
@[simp] theorem State.modSq_hlc (n : Nat) (f : Sq → Sq) : (s.modSq n f).hlc = s.hlc := rfl
@[simp] theorem State.modSq_reqs (n : Nat) (f : Sq → Sq) : (s.modSq n f).reqs = s.reqs := rfl
@[simp] theorem State.modSq_reqSeq (n : Nat) (f : Sq → Sq) : (s.modSq n f).reqSeq = s.reqSeq := rfl
@[simp] theorem State.modSq_ended (n : Nat) (f : Sq → Sq) : (s.modSq n f).ended = s.ended := rfl
@[simp] theorem State.modSq_noAdmit (n : Nat) (f : Sq → Sq) : (s.modSq n f).noAdmit = s.noAdmit := rfl
@[simp] theorem State.modSq_admitted (n : Nat) (f : Sq → Sq) : (s.modSq n f).admitted = s.admitted := rfl
@[simp] theorem State.modSq_links (n : Nat) (f : Sq → Sq) : (s.modSq n f).links = s.links := rfl
@[simp] theorem State.modSq_lds (n : Nat) (f : Sq → Sq) : (s.modSq n f).lds = s.lds := rfl
@[simp] theorem State.modSq_ports (n : Nat) (f : Sq → Sq) : (s.modSq n f).ports = s.ports := rfl
@[simp] theorem State.modSq_advert (n : Nat) (f : Sq → Sq) : (s.modSq n f).advert = s.advert := rfl
@[simp] theorem State.modSq_rdx (n : Nat) (f : Sq → Sq) : (s.modSq n f).rdx = s.rdx := rfl
@[simp] theorem State.modSq_pools (n : Nat) (f : Sq → Sq) : (s.modSq n f).pools = s.pools := rfl
@[simp] theorem State.modSq_sqs (n : Nat) (f : Sq → Sq) : (s.modSq n f).sqs = s.sqs.modify n f := rfl
@[simp] theorem State.modSq_cqs (n : Nat) (f : Sq → Sq) : (s.modSq n f).cqs = s.cqs := rfl
@[simp] theorem State.modSq_cmds (n : Nat) (f : Sq → Sq) : (s.modSq n f).cmds = s.cmds := rfl
@[simp] theorem State.modSq_cmdSeq (n : Nat) (f : Sq → Sq) : (s.modSq n f).cmdSeq = s.cmdSeq := rfl
@[simp] theorem State.modSq_progress (n : Nat) (f : Sq → Sq) : (s.modSq n f).progress = s.progress := rfl
@[simp] theorem State.modSq_sqWait (n : Nat) (f : Sq → Sq) : (s.modSq n f).sqWait = s.sqWait := rfl
@[simp] theorem State.modSq_chans (n : Nat) (f : Sq → Sq) : (s.modSq n f).chans = s.chans := rfl
@[simp] theorem State.modSq_health (n : Nat) (f : Sq → Sq) : (s.modSq n f).health = s.health := rfl
@[simp] theorem State.modSq_fmc (n : Nat) (f : Sq → Sq) : (s.modSq n f).fmc = s.fmc := rfl
@[simp] theorem State.modSq_elg (n : Nat) (f : Sq → Sq) : (s.modSq n f).elg = s.elg := rfl
@[simp] theorem State.modSq_twn (n : Nat) (f : Sq → Sq) : (s.modSq n f).twn = s.twn := rfl
@[simp] theorem State.modSq_mbx (n : Nat) (f : Sq → Sq) : (s.modSq n f).mbx = s.mbx := rfl
@[simp] theorem State.modSq_jwait (n : Nat) (f : Sq → Sq) : (s.modSq n f).jwait = s.jwait := rfl
@[simp] theorem State.modSq_fw (n : Nat) (f : Sq → Sq) : (s.modSq n f).fw = s.fw := rfl
@[simp] theorem State.modSq_sec (n : Nat) (f : Sq → Sq) : (s.modSq n f).sec = s.sec := rfl
@[simp] theorem State.modSq_efl (n : Nat) (f : Sq → Sq) : (s.modSq n f).efl = s.efl := rfl
@[simp] theorem State.modSq_evr (n : Nat) (f : Sq → Sq) : (s.modSq n f).evr = s.evr := rfl
@[simp] theorem State.modSq_evq (n : Nat) (f : Sq → Sq) : (s.modSq n f).evq = s.evq := rfl
@[simp] theorem State.modSq_pws (n : Nat) (f : Sq → Sq) : (s.modSq n f).pws = s.pws := rfl
@[simp] theorem State.modSq_isl (n : Nat) (f : Sq → Sq) : (s.modSq n f).isl = s.isl := rfl
@[simp] theorem State.modSq_twb (n : Nat) (f : Sq → Sq) : (s.modSq n f).twb = s.twb := rfl
@[simp] theorem State.modSq_err (n : Nat) (f : Sq → Sq) : (s.modSq n f).err = s.err := rfl
@[simp] theorem State.modSq_lap (n : Nat) (f : Sq → Sq) : (s.modSq n f).lap = s.lap := rfl

/-! `State.modCq` -/

@[simp] theorem State.modCq_pending (n : Nat) (f : Cq → Cq) : (s.modCq n f).pending = s.pending := rfl
@[simp] theorem State.modCq_out (n : Nat) (f : Cq → Cq) : (s.modCq n f).out = s.out := rfl
@[simp] theorem State.modCq_time (n : Nat) (f : Cq → Cq) : (s.modCq n f).time = s.time := rfl
@[simp] theorem State.modCq_fresh (n : Nat) (f : Cq → Cq) : (s.modCq n f).fresh = s.fresh := rfl
@[simp] theorem State.modCq_regs (n : Nat) (f : Cq → Cq) : (s.modCq n f).regs = s.regs := rfl
@[simp] theorem State.modCq_paths (n : Nat) (f : Cq → Cq) : (s.modCq n f).paths = s.paths := rfl
@[simp] theorem State.modCq_mem (n : Nat) (f : Cq → Cq) : (s.modCq n f).mem = s.mem := rfl
@[simp] theorem State.modCq_sectors (n : Nat) (f : Cq → Cq) : (s.modCq n f).sectors = s.sectors := rfl
@[simp] theorem State.modCq_exposed (n : Nat) (f : Cq → Cq) : (s.modCq n f).exposed = s.exposed := rfl
@[simp] theorem State.modCq_regions (n : Nat) (f : Cq → Cq) : (s.modCq n f).regions = s.regions := rfl
@[simp] theorem State.modCq_rgt (n : Nat) (f : Cq → Cq) : (s.modCq n f).rgt = s.rgt := rfl
@[simp] theorem State.modCq_extents (n : Nat) (f : Cq → Cq) : (s.modCq n f).extents = s.extents := rfl
@[simp] theorem State.modCq_extentGens (n : Nat) (f : Cq → Cq) : (s.modCq n f).extentGens = s.extentGens := rfl
@[simp] theorem State.modCq_mkeys (n : Nat) (f : Cq → Cq) : (s.modCq n f).mkeys = s.mkeys := rfl
@[simp] theorem State.modCq_mkeyGens (n : Nat) (f : Cq → Cq) : (s.modCq n f).mkeyGens = s.mkeyGens := rfl
@[simp] theorem State.modCq_leases (n : Nat) (f : Cq → Cq) : (s.modCq n f).leases = s.leases := rfl
@[simp] theorem State.modCq_poisonList (n : Nat) (f : Cq → Cq) : (s.modCq n f).poisonList = s.poisonList := rfl
@[simp] theorem State.modCq_poisonOverflow (n : Nat) (f : Cq → Cq) : (s.modCq n f).poisonOverflow = s.poisonOverflow := rfl
@[simp] theorem State.modCq_tiles (n : Nat) (f : Cq → Cq) : (s.modCq n f).tiles = s.tiles := rfl
@[simp] theorem State.modCq_frames (n : Nat) (f : Cq → Cq) : (s.modCq n f).frames = s.frames := rfl
@[simp] theorem State.modCq_moves (n : Nat) (f : Cq → Cq) : (s.modCq n f).moves = s.moves := rfl
@[simp] theorem State.modCq_plc (n : Nat) (f : Cq → Cq) : (s.modCq n f).plc = s.plc := rfl
@[simp] theorem State.modCq_hlc (n : Nat) (f : Cq → Cq) : (s.modCq n f).hlc = s.hlc := rfl
@[simp] theorem State.modCq_reqs (n : Nat) (f : Cq → Cq) : (s.modCq n f).reqs = s.reqs := rfl
@[simp] theorem State.modCq_reqSeq (n : Nat) (f : Cq → Cq) : (s.modCq n f).reqSeq = s.reqSeq := rfl
@[simp] theorem State.modCq_ended (n : Nat) (f : Cq → Cq) : (s.modCq n f).ended = s.ended := rfl
@[simp] theorem State.modCq_noAdmit (n : Nat) (f : Cq → Cq) : (s.modCq n f).noAdmit = s.noAdmit := rfl
@[simp] theorem State.modCq_admitted (n : Nat) (f : Cq → Cq) : (s.modCq n f).admitted = s.admitted := rfl
@[simp] theorem State.modCq_links (n : Nat) (f : Cq → Cq) : (s.modCq n f).links = s.links := rfl
@[simp] theorem State.modCq_lds (n : Nat) (f : Cq → Cq) : (s.modCq n f).lds = s.lds := rfl
@[simp] theorem State.modCq_ports (n : Nat) (f : Cq → Cq) : (s.modCq n f).ports = s.ports := rfl
@[simp] theorem State.modCq_advert (n : Nat) (f : Cq → Cq) : (s.modCq n f).advert = s.advert := rfl
@[simp] theorem State.modCq_rdx (n : Nat) (f : Cq → Cq) : (s.modCq n f).rdx = s.rdx := rfl
@[simp] theorem State.modCq_pools (n : Nat) (f : Cq → Cq) : (s.modCq n f).pools = s.pools := rfl
@[simp] theorem State.modCq_sqs (n : Nat) (f : Cq → Cq) : (s.modCq n f).sqs = s.sqs := rfl
@[simp] theorem State.modCq_cqs (n : Nat) (f : Cq → Cq) : (s.modCq n f).cqs = s.cqs.modify n f := rfl
@[simp] theorem State.modCq_cmds (n : Nat) (f : Cq → Cq) : (s.modCq n f).cmds = s.cmds := rfl
@[simp] theorem State.modCq_cmdSeq (n : Nat) (f : Cq → Cq) : (s.modCq n f).cmdSeq = s.cmdSeq := rfl
@[simp] theorem State.modCq_progress (n : Nat) (f : Cq → Cq) : (s.modCq n f).progress = s.progress := rfl
@[simp] theorem State.modCq_sqWait (n : Nat) (f : Cq → Cq) : (s.modCq n f).sqWait = s.sqWait := rfl
@[simp] theorem State.modCq_chans (n : Nat) (f : Cq → Cq) : (s.modCq n f).chans = s.chans := rfl
@[simp] theorem State.modCq_health (n : Nat) (f : Cq → Cq) : (s.modCq n f).health = s.health := rfl
@[simp] theorem State.modCq_fmc (n : Nat) (f : Cq → Cq) : (s.modCq n f).fmc = s.fmc := rfl
@[simp] theorem State.modCq_elg (n : Nat) (f : Cq → Cq) : (s.modCq n f).elg = s.elg := rfl
@[simp] theorem State.modCq_twn (n : Nat) (f : Cq → Cq) : (s.modCq n f).twn = s.twn := rfl
@[simp] theorem State.modCq_mbx (n : Nat) (f : Cq → Cq) : (s.modCq n f).mbx = s.mbx := rfl
@[simp] theorem State.modCq_jwait (n : Nat) (f : Cq → Cq) : (s.modCq n f).jwait = s.jwait := rfl
@[simp] theorem State.modCq_fw (n : Nat) (f : Cq → Cq) : (s.modCq n f).fw = s.fw := rfl
@[simp] theorem State.modCq_sec (n : Nat) (f : Cq → Cq) : (s.modCq n f).sec = s.sec := rfl
@[simp] theorem State.modCq_efl (n : Nat) (f : Cq → Cq) : (s.modCq n f).efl = s.efl := rfl
@[simp] theorem State.modCq_evr (n : Nat) (f : Cq → Cq) : (s.modCq n f).evr = s.evr := rfl
@[simp] theorem State.modCq_evq (n : Nat) (f : Cq → Cq) : (s.modCq n f).evq = s.evq := rfl
@[simp] theorem State.modCq_pws (n : Nat) (f : Cq → Cq) : (s.modCq n f).pws = s.pws := rfl
@[simp] theorem State.modCq_isl (n : Nat) (f : Cq → Cq) : (s.modCq n f).isl = s.isl := rfl
@[simp] theorem State.modCq_twb (n : Nat) (f : Cq → Cq) : (s.modCq n f).twb = s.twb := rfl
@[simp] theorem State.modCq_err (n : Nat) (f : Cq → Cq) : (s.modCq n f).err = s.err := rfl
@[simp] theorem State.modCq_lap (n : Nat) (f : Cq → Cq) : (s.modCq n f).lap = s.lap := rfl

/-! `State.modQp` -/

@[simp] theorem State.modQp_pending (n : Nat) (f : Qp → Qp) : (s.modQp n f).pending = s.pending := rfl
@[simp] theorem State.modQp_out (n : Nat) (f : Qp → Qp) : (s.modQp n f).out = s.out := rfl
@[simp] theorem State.modQp_time (n : Nat) (f : Qp → Qp) : (s.modQp n f).time = s.time := rfl
@[simp] theorem State.modQp_fresh (n : Nat) (f : Qp → Qp) : (s.modQp n f).fresh = s.fresh := rfl
@[simp] theorem State.modQp_regs (n : Nat) (f : Qp → Qp) : (s.modQp n f).regs = s.regs := rfl
@[simp] theorem State.modQp_paths (n : Nat) (f : Qp → Qp) : (s.modQp n f).paths = s.paths := rfl
@[simp] theorem State.modQp_mem (n : Nat) (f : Qp → Qp) : (s.modQp n f).mem = s.mem := rfl
@[simp] theorem State.modQp_sectors (n : Nat) (f : Qp → Qp) : (s.modQp n f).sectors = s.sectors := rfl
@[simp] theorem State.modQp_exposed (n : Nat) (f : Qp → Qp) : (s.modQp n f).exposed = s.exposed := rfl
@[simp] theorem State.modQp_regions (n : Nat) (f : Qp → Qp) : (s.modQp n f).regions = s.regions := rfl
@[simp] theorem State.modQp_rgt (n : Nat) (f : Qp → Qp) : (s.modQp n f).rgt = s.rgt := rfl
@[simp] theorem State.modQp_extents (n : Nat) (f : Qp → Qp) : (s.modQp n f).extents = s.extents := rfl
@[simp] theorem State.modQp_extentGens (n : Nat) (f : Qp → Qp) : (s.modQp n f).extentGens = s.extentGens := rfl
@[simp] theorem State.modQp_mkeys (n : Nat) (f : Qp → Qp) : (s.modQp n f).mkeys = s.mkeys := rfl
@[simp] theorem State.modQp_mkeyGens (n : Nat) (f : Qp → Qp) : (s.modQp n f).mkeyGens = s.mkeyGens := rfl
@[simp] theorem State.modQp_leases (n : Nat) (f : Qp → Qp) : (s.modQp n f).leases = s.leases := rfl
@[simp] theorem State.modQp_poisonList (n : Nat) (f : Qp → Qp) : (s.modQp n f).poisonList = s.poisonList := rfl
@[simp] theorem State.modQp_poisonOverflow (n : Nat) (f : Qp → Qp) : (s.modQp n f).poisonOverflow = s.poisonOverflow := rfl
@[simp] theorem State.modQp_tiles (n : Nat) (f : Qp → Qp) : (s.modQp n f).tiles = s.tiles := rfl
@[simp] theorem State.modQp_frames (n : Nat) (f : Qp → Qp) : (s.modQp n f).frames = s.frames := rfl
@[simp] theorem State.modQp_moves (n : Nat) (f : Qp → Qp) : (s.modQp n f).moves = s.moves := rfl
@[simp] theorem State.modQp_plc (n : Nat) (f : Qp → Qp) : (s.modQp n f).plc = s.plc := rfl
@[simp] theorem State.modQp_hlc (n : Nat) (f : Qp → Qp) : (s.modQp n f).hlc = s.hlc := rfl
@[simp] theorem State.modQp_reqs (n : Nat) (f : Qp → Qp) : (s.modQp n f).reqs = s.reqs := rfl
@[simp] theorem State.modQp_reqSeq (n : Nat) (f : Qp → Qp) : (s.modQp n f).reqSeq = s.reqSeq := rfl
@[simp] theorem State.modQp_ended (n : Nat) (f : Qp → Qp) : (s.modQp n f).ended = s.ended := rfl
@[simp] theorem State.modQp_noAdmit (n : Nat) (f : Qp → Qp) : (s.modQp n f).noAdmit = s.noAdmit := rfl
@[simp] theorem State.modQp_admitted (n : Nat) (f : Qp → Qp) : (s.modQp n f).admitted = s.admitted := rfl
@[simp] theorem State.modQp_links (n : Nat) (f : Qp → Qp) : (s.modQp n f).links = s.links := rfl
@[simp] theorem State.modQp_lds (n : Nat) (f : Qp → Qp) : (s.modQp n f).lds = s.lds := rfl
@[simp] theorem State.modQp_ports (n : Nat) (f : Qp → Qp) : (s.modQp n f).ports = s.ports := rfl
@[simp] theorem State.modQp_advert (n : Nat) (f : Qp → Qp) : (s.modQp n f).advert = s.advert := rfl
@[simp] theorem State.modQp_rdx (n : Nat) (f : Qp → Qp) : (s.modQp n f).rdx = { s.rdx with qps := s.rdx.qps.modify (qpIdx n) f } := rfl
@[simp] theorem State.modQp_pools (n : Nat) (f : Qp → Qp) : (s.modQp n f).pools = s.pools := rfl
@[simp] theorem State.modQp_sqs (n : Nat) (f : Qp → Qp) : (s.modQp n f).sqs = s.sqs := rfl
@[simp] theorem State.modQp_cqs (n : Nat) (f : Qp → Qp) : (s.modQp n f).cqs = s.cqs := rfl
@[simp] theorem State.modQp_cmds (n : Nat) (f : Qp → Qp) : (s.modQp n f).cmds = s.cmds := rfl
@[simp] theorem State.modQp_cmdSeq (n : Nat) (f : Qp → Qp) : (s.modQp n f).cmdSeq = s.cmdSeq := rfl
@[simp] theorem State.modQp_progress (n : Nat) (f : Qp → Qp) : (s.modQp n f).progress = s.progress := rfl
@[simp] theorem State.modQp_sqWait (n : Nat) (f : Qp → Qp) : (s.modQp n f).sqWait = s.sqWait := rfl
@[simp] theorem State.modQp_chans (n : Nat) (f : Qp → Qp) : (s.modQp n f).chans = s.chans := rfl
@[simp] theorem State.modQp_health (n : Nat) (f : Qp → Qp) : (s.modQp n f).health = s.health := rfl
@[simp] theorem State.modQp_fmc (n : Nat) (f : Qp → Qp) : (s.modQp n f).fmc = s.fmc := rfl
@[simp] theorem State.modQp_elg (n : Nat) (f : Qp → Qp) : (s.modQp n f).elg = s.elg := rfl
@[simp] theorem State.modQp_twn (n : Nat) (f : Qp → Qp) : (s.modQp n f).twn = s.twn := rfl
@[simp] theorem State.modQp_mbx (n : Nat) (f : Qp → Qp) : (s.modQp n f).mbx = s.mbx := rfl
@[simp] theorem State.modQp_jwait (n : Nat) (f : Qp → Qp) : (s.modQp n f).jwait = s.jwait := rfl
@[simp] theorem State.modQp_fw (n : Nat) (f : Qp → Qp) : (s.modQp n f).fw = s.fw := rfl
@[simp] theorem State.modQp_sec (n : Nat) (f : Qp → Qp) : (s.modQp n f).sec = s.sec := rfl
@[simp] theorem State.modQp_efl (n : Nat) (f : Qp → Qp) : (s.modQp n f).efl = s.efl := rfl
@[simp] theorem State.modQp_evr (n : Nat) (f : Qp → Qp) : (s.modQp n f).evr = s.evr := rfl
@[simp] theorem State.modQp_evq (n : Nat) (f : Qp → Qp) : (s.modQp n f).evq = s.evq := rfl
@[simp] theorem State.modQp_pws (n : Nat) (f : Qp → Qp) : (s.modQp n f).pws = s.pws := rfl
@[simp] theorem State.modQp_isl (n : Nat) (f : Qp → Qp) : (s.modQp n f).isl = s.isl := rfl
@[simp] theorem State.modQp_twb (n : Nat) (f : Qp → Qp) : (s.modQp n f).twb = s.twb := rfl
@[simp] theorem State.modQp_err (n : Nat) (f : Qp → Qp) : (s.modQp n f).err = s.err := rfl
@[simp] theorem State.modQp_lap (n : Nat) (f : Qp → Qp) : (s.modQp n f).lap = s.lap := rfl

/-! `State.modRail` -/

@[simp] theorem State.modRail_pending (n : Nat) (f : Rail → Rail) : (s.modRail n f).pending = s.pending := rfl
@[simp] theorem State.modRail_out (n : Nat) (f : Rail → Rail) : (s.modRail n f).out = s.out := rfl
@[simp] theorem State.modRail_time (n : Nat) (f : Rail → Rail) : (s.modRail n f).time = s.time := rfl
@[simp] theorem State.modRail_fresh (n : Nat) (f : Rail → Rail) : (s.modRail n f).fresh = s.fresh := rfl
@[simp] theorem State.modRail_regs (n : Nat) (f : Rail → Rail) : (s.modRail n f).regs = s.regs := rfl
@[simp] theorem State.modRail_paths (n : Nat) (f : Rail → Rail) : (s.modRail n f).paths = s.paths := rfl
@[simp] theorem State.modRail_mem (n : Nat) (f : Rail → Rail) : (s.modRail n f).mem = s.mem := rfl
@[simp] theorem State.modRail_sectors (n : Nat) (f : Rail → Rail) : (s.modRail n f).sectors = s.sectors := rfl
@[simp] theorem State.modRail_exposed (n : Nat) (f : Rail → Rail) : (s.modRail n f).exposed = s.exposed := rfl
@[simp] theorem State.modRail_regions (n : Nat) (f : Rail → Rail) : (s.modRail n f).regions = s.regions := rfl
@[simp] theorem State.modRail_rgt (n : Nat) (f : Rail → Rail) : (s.modRail n f).rgt = s.rgt := rfl
@[simp] theorem State.modRail_extents (n : Nat) (f : Rail → Rail) : (s.modRail n f).extents = s.extents := rfl
@[simp] theorem State.modRail_extentGens (n : Nat) (f : Rail → Rail) : (s.modRail n f).extentGens = s.extentGens := rfl
@[simp] theorem State.modRail_mkeys (n : Nat) (f : Rail → Rail) : (s.modRail n f).mkeys = s.mkeys := rfl
@[simp] theorem State.modRail_mkeyGens (n : Nat) (f : Rail → Rail) : (s.modRail n f).mkeyGens = s.mkeyGens := rfl
@[simp] theorem State.modRail_leases (n : Nat) (f : Rail → Rail) : (s.modRail n f).leases = s.leases := rfl
@[simp] theorem State.modRail_poisonList (n : Nat) (f : Rail → Rail) : (s.modRail n f).poisonList = s.poisonList := rfl
@[simp] theorem State.modRail_poisonOverflow (n : Nat) (f : Rail → Rail) : (s.modRail n f).poisonOverflow = s.poisonOverflow := rfl
@[simp] theorem State.modRail_tiles (n : Nat) (f : Rail → Rail) : (s.modRail n f).tiles = s.tiles := rfl
@[simp] theorem State.modRail_frames (n : Nat) (f : Rail → Rail) : (s.modRail n f).frames = s.frames := rfl
@[simp] theorem State.modRail_moves (n : Nat) (f : Rail → Rail) : (s.modRail n f).moves = s.moves := rfl
@[simp] theorem State.modRail_plc (n : Nat) (f : Rail → Rail) : (s.modRail n f).plc = s.plc := rfl
@[simp] theorem State.modRail_hlc (n : Nat) (f : Rail → Rail) : (s.modRail n f).hlc = s.hlc := rfl
@[simp] theorem State.modRail_reqs (n : Nat) (f : Rail → Rail) : (s.modRail n f).reqs = s.reqs := rfl
@[simp] theorem State.modRail_reqSeq (n : Nat) (f : Rail → Rail) : (s.modRail n f).reqSeq = s.reqSeq := rfl
@[simp] theorem State.modRail_ended (n : Nat) (f : Rail → Rail) : (s.modRail n f).ended = s.ended := rfl
@[simp] theorem State.modRail_noAdmit (n : Nat) (f : Rail → Rail) : (s.modRail n f).noAdmit = s.noAdmit := rfl
@[simp] theorem State.modRail_admitted (n : Nat) (f : Rail → Rail) : (s.modRail n f).admitted = s.admitted := rfl
@[simp] theorem State.modRail_links (n : Nat) (f : Rail → Rail) : (s.modRail n f).links = s.links := rfl
@[simp] theorem State.modRail_lds (n : Nat) (f : Rail → Rail) : (s.modRail n f).lds = s.lds := rfl
@[simp] theorem State.modRail_ports (n : Nat) (f : Rail → Rail) : (s.modRail n f).ports = s.ports := rfl
@[simp] theorem State.modRail_advert (n : Nat) (f : Rail → Rail) : (s.modRail n f).advert = s.advert := rfl
@[simp] theorem State.modRail_rdx (n : Nat) (f : Rail → Rail) : (s.modRail n f).rdx = s.rdx := rfl
@[simp] theorem State.modRail_pools (n : Nat) (f : Rail → Rail) : (s.modRail n f).pools = s.pools := rfl
@[simp] theorem State.modRail_sqs (n : Nat) (f : Rail → Rail) : (s.modRail n f).sqs = s.sqs := rfl
@[simp] theorem State.modRail_cqs (n : Nat) (f : Rail → Rail) : (s.modRail n f).cqs = s.cqs := rfl
@[simp] theorem State.modRail_cmds (n : Nat) (f : Rail → Rail) : (s.modRail n f).cmds = s.cmds := rfl
@[simp] theorem State.modRail_cmdSeq (n : Nat) (f : Rail → Rail) : (s.modRail n f).cmdSeq = s.cmdSeq := rfl
@[simp] theorem State.modRail_progress (n : Nat) (f : Rail → Rail) : (s.modRail n f).progress = s.progress := rfl
@[simp] theorem State.modRail_sqWait (n : Nat) (f : Rail → Rail) : (s.modRail n f).sqWait = s.sqWait := rfl
@[simp] theorem State.modRail_chans (n : Nat) (f : Rail → Rail) : (s.modRail n f).chans = s.chans := rfl
@[simp] theorem State.modRail_health (n : Nat) (f : Rail → Rail) : (s.modRail n f).health = s.health := rfl
@[simp] theorem State.modRail_fmc (n : Nat) (f : Rail → Rail) : (s.modRail n f).fmc = s.fmc := rfl
@[simp] theorem State.modRail_elg (n : Nat) (f : Rail → Rail) : (s.modRail n f).elg = s.elg := rfl
@[simp] theorem State.modRail_twn (n : Nat) (f : Rail → Rail) : (s.modRail n f).twn = s.twn := rfl
@[simp] theorem State.modRail_mbx (n : Nat) (f : Rail → Rail) : (s.modRail n f).mbx = s.mbx := rfl
@[simp] theorem State.modRail_jwait (n : Nat) (f : Rail → Rail) : (s.modRail n f).jwait = s.jwait := rfl
@[simp] theorem State.modRail_fw (n : Nat) (f : Rail → Rail) : (s.modRail n f).fw = s.fw := rfl
@[simp] theorem State.modRail_sec (n : Nat) (f : Rail → Rail) : (s.modRail n f).sec = s.sec := rfl
@[simp] theorem State.modRail_efl (n : Nat) (f : Rail → Rail) : (s.modRail n f).efl = s.efl := rfl
@[simp] theorem State.modRail_evr (n : Nat) (f : Rail → Rail) : (s.modRail n f).evr = s.evr := rfl
@[simp] theorem State.modRail_evq (n : Nat) (f : Rail → Rail) : (s.modRail n f).evq = s.evq := rfl
@[simp] theorem State.modRail_pws (n : Nat) (f : Rail → Rail) : (s.modRail n f).pws = { s.pws with rails := s.pws.rails.upd n {} f } := rfl
@[simp] theorem State.modRail_isl (n : Nat) (f : Rail → Rail) : (s.modRail n f).isl = s.isl := rfl
@[simp] theorem State.modRail_twb (n : Nat) (f : Rail → Rail) : (s.modRail n f).twb = s.twb := rfl
@[simp] theorem State.modRail_err (n : Nat) (f : Rail → Rail) : (s.modRail n f).err = s.err := rfl
@[simp] theorem State.modRail_lap (n : Nat) (f : Rail → Rail) : (s.modRail n f).lap = s.lap := rfl

/-! `State.modSlot` -/

@[simp] theorem State.modSlot_pending (b : Bool) (f : FwSlot → FwSlot) : (s.modSlot b f).pending = s.pending := rfl
@[simp] theorem State.modSlot_out (b : Bool) (f : FwSlot → FwSlot) : (s.modSlot b f).out = s.out := rfl
@[simp] theorem State.modSlot_time (b : Bool) (f : FwSlot → FwSlot) : (s.modSlot b f).time = s.time := rfl
@[simp] theorem State.modSlot_fresh (b : Bool) (f : FwSlot → FwSlot) : (s.modSlot b f).fresh = s.fresh := rfl
@[simp] theorem State.modSlot_regs (b : Bool) (f : FwSlot → FwSlot) : (s.modSlot b f).regs = s.regs := rfl
@[simp] theorem State.modSlot_paths (b : Bool) (f : FwSlot → FwSlot) : (s.modSlot b f).paths = s.paths := rfl
@[simp] theorem State.modSlot_mem (b : Bool) (f : FwSlot → FwSlot) : (s.modSlot b f).mem = s.mem := rfl
@[simp] theorem State.modSlot_sectors (b : Bool) (f : FwSlot → FwSlot) : (s.modSlot b f).sectors = s.sectors := rfl
@[simp] theorem State.modSlot_exposed (b : Bool) (f : FwSlot → FwSlot) : (s.modSlot b f).exposed = s.exposed := rfl
@[simp] theorem State.modSlot_regions (b : Bool) (f : FwSlot → FwSlot) : (s.modSlot b f).regions = s.regions := rfl
@[simp] theorem State.modSlot_rgt (b : Bool) (f : FwSlot → FwSlot) : (s.modSlot b f).rgt = s.rgt := rfl
@[simp] theorem State.modSlot_extents (b : Bool) (f : FwSlot → FwSlot) : (s.modSlot b f).extents = s.extents := rfl
@[simp] theorem State.modSlot_extentGens (b : Bool) (f : FwSlot → FwSlot) : (s.modSlot b f).extentGens = s.extentGens := rfl
@[simp] theorem State.modSlot_mkeys (b : Bool) (f : FwSlot → FwSlot) : (s.modSlot b f).mkeys = s.mkeys := rfl
@[simp] theorem State.modSlot_mkeyGens (b : Bool) (f : FwSlot → FwSlot) : (s.modSlot b f).mkeyGens = s.mkeyGens := rfl
@[simp] theorem State.modSlot_leases (b : Bool) (f : FwSlot → FwSlot) : (s.modSlot b f).leases = s.leases := rfl
@[simp] theorem State.modSlot_poisonList (b : Bool) (f : FwSlot → FwSlot) : (s.modSlot b f).poisonList = s.poisonList := rfl
@[simp] theorem State.modSlot_poisonOverflow (b : Bool) (f : FwSlot → FwSlot) : (s.modSlot b f).poisonOverflow = s.poisonOverflow := rfl
@[simp] theorem State.modSlot_tiles (b : Bool) (f : FwSlot → FwSlot) : (s.modSlot b f).tiles = s.tiles := rfl
@[simp] theorem State.modSlot_frames (b : Bool) (f : FwSlot → FwSlot) : (s.modSlot b f).frames = s.frames := rfl
@[simp] theorem State.modSlot_moves (b : Bool) (f : FwSlot → FwSlot) : (s.modSlot b f).moves = s.moves := rfl
@[simp] theorem State.modSlot_plc (b : Bool) (f : FwSlot → FwSlot) : (s.modSlot b f).plc = s.plc := rfl
@[simp] theorem State.modSlot_hlc (b : Bool) (f : FwSlot → FwSlot) : (s.modSlot b f).hlc = s.hlc := rfl
@[simp] theorem State.modSlot_reqs (b : Bool) (f : FwSlot → FwSlot) : (s.modSlot b f).reqs = s.reqs := rfl
@[simp] theorem State.modSlot_reqSeq (b : Bool) (f : FwSlot → FwSlot) : (s.modSlot b f).reqSeq = s.reqSeq := rfl
@[simp] theorem State.modSlot_ended (b : Bool) (f : FwSlot → FwSlot) : (s.modSlot b f).ended = s.ended := rfl
@[simp] theorem State.modSlot_noAdmit (b : Bool) (f : FwSlot → FwSlot) : (s.modSlot b f).noAdmit = s.noAdmit := rfl
@[simp] theorem State.modSlot_admitted (b : Bool) (f : FwSlot → FwSlot) : (s.modSlot b f).admitted = s.admitted := rfl
@[simp] theorem State.modSlot_links (b : Bool) (f : FwSlot → FwSlot) : (s.modSlot b f).links = s.links := rfl
@[simp] theorem State.modSlot_lds (b : Bool) (f : FwSlot → FwSlot) : (s.modSlot b f).lds = s.lds := rfl
@[simp] theorem State.modSlot_ports (b : Bool) (f : FwSlot → FwSlot) : (s.modSlot b f).ports = s.ports := rfl
@[simp] theorem State.modSlot_advert (b : Bool) (f : FwSlot → FwSlot) : (s.modSlot b f).advert = s.advert := rfl
@[simp] theorem State.modSlot_rdx (b : Bool) (f : FwSlot → FwSlot) : (s.modSlot b f).rdx = s.rdx := rfl
@[simp] theorem State.modSlot_pools (b : Bool) (f : FwSlot → FwSlot) : (s.modSlot b f).pools = s.pools := rfl
@[simp] theorem State.modSlot_sqs (b : Bool) (f : FwSlot → FwSlot) : (s.modSlot b f).sqs = s.sqs := rfl
@[simp] theorem State.modSlot_cqs (b : Bool) (f : FwSlot → FwSlot) : (s.modSlot b f).cqs = s.cqs := rfl
@[simp] theorem State.modSlot_cmds (b : Bool) (f : FwSlot → FwSlot) : (s.modSlot b f).cmds = s.cmds := rfl
@[simp] theorem State.modSlot_cmdSeq (b : Bool) (f : FwSlot → FwSlot) : (s.modSlot b f).cmdSeq = s.cmdSeq := rfl
@[simp] theorem State.modSlot_progress (b : Bool) (f : FwSlot → FwSlot) : (s.modSlot b f).progress = s.progress := rfl
@[simp] theorem State.modSlot_sqWait (b : Bool) (f : FwSlot → FwSlot) : (s.modSlot b f).sqWait = s.sqWait := rfl
@[simp] theorem State.modSlot_chans (b : Bool) (f : FwSlot → FwSlot) : (s.modSlot b f).chans = s.chans := rfl
@[simp] theorem State.modSlot_health (b : Bool) (f : FwSlot → FwSlot) : (s.modSlot b f).health = s.health := rfl
@[simp] theorem State.modSlot_fmc (b : Bool) (f : FwSlot → FwSlot) : (s.modSlot b f).fmc = s.fmc := rfl
@[simp] theorem State.modSlot_elg (b : Bool) (f : FwSlot → FwSlot) : (s.modSlot b f).elg = s.elg := rfl
@[simp] theorem State.modSlot_twn (b : Bool) (f : FwSlot → FwSlot) : (s.modSlot b f).twn = s.twn := rfl
@[simp] theorem State.modSlot_mbx (b : Bool) (f : FwSlot → FwSlot) : (s.modSlot b f).mbx = s.mbx := rfl
@[simp] theorem State.modSlot_jwait (b : Bool) (f : FwSlot → FwSlot) : (s.modSlot b f).jwait = s.jwait := rfl
@[simp] theorem State.modSlot_fw (b : Bool) (f : FwSlot → FwSlot) : (s.modSlot b f).fw = if b then { s.fw with b := f s.fw.b } else { s.fw with a := f s.fw.a } := rfl
@[simp] theorem State.modSlot_sec (b : Bool) (f : FwSlot → FwSlot) : (s.modSlot b f).sec = s.sec := rfl
@[simp] theorem State.modSlot_efl (b : Bool) (f : FwSlot → FwSlot) : (s.modSlot b f).efl = s.efl := rfl
@[simp] theorem State.modSlot_evr (b : Bool) (f : FwSlot → FwSlot) : (s.modSlot b f).evr = s.evr := rfl
@[simp] theorem State.modSlot_evq (b : Bool) (f : FwSlot → FwSlot) : (s.modSlot b f).evq = s.evq := rfl
@[simp] theorem State.modSlot_pws (b : Bool) (f : FwSlot → FwSlot) : (s.modSlot b f).pws = s.pws := rfl
@[simp] theorem State.modSlot_isl (b : Bool) (f : FwSlot → FwSlot) : (s.modSlot b f).isl = s.isl := rfl
@[simp] theorem State.modSlot_twb (b : Bool) (f : FwSlot → FwSlot) : (s.modSlot b f).twb = s.twb := rfl
@[simp] theorem State.modSlot_err (b : Bool) (f : FwSlot → FwSlot) : (s.modSlot b f).err = s.err := rfl
@[simp] theorem State.modSlot_lap (b : Bool) (f : FwSlot → FwSlot) : (s.modSlot b f).lap = s.lap := rfl

/-! `State.modLane` -/

@[simp] theorem State.modLane_pending (g : Nat) (f : Lane → Lane) : (s.modLane g f).pending = s.pending := rfl
@[simp] theorem State.modLane_out (g : Nat) (f : Lane → Lane) : (s.modLane g f).out = s.out := rfl
@[simp] theorem State.modLane_time (g : Nat) (f : Lane → Lane) : (s.modLane g f).time = s.time := rfl
@[simp] theorem State.modLane_fresh (g : Nat) (f : Lane → Lane) : (s.modLane g f).fresh = s.fresh := rfl
@[simp] theorem State.modLane_regs (g : Nat) (f : Lane → Lane) : (s.modLane g f).regs = s.regs := rfl
@[simp] theorem State.modLane_paths (g : Nat) (f : Lane → Lane) : (s.modLane g f).paths = s.paths := rfl
@[simp] theorem State.modLane_mem (g : Nat) (f : Lane → Lane) : (s.modLane g f).mem = s.mem := rfl
@[simp] theorem State.modLane_sectors (g : Nat) (f : Lane → Lane) : (s.modLane g f).sectors = s.sectors := rfl
@[simp] theorem State.modLane_exposed (g : Nat) (f : Lane → Lane) : (s.modLane g f).exposed = s.exposed := rfl
@[simp] theorem State.modLane_regions (g : Nat) (f : Lane → Lane) : (s.modLane g f).regions = s.regions := rfl
@[simp] theorem State.modLane_rgt (g : Nat) (f : Lane → Lane) : (s.modLane g f).rgt = s.rgt := rfl
@[simp] theorem State.modLane_extents (g : Nat) (f : Lane → Lane) : (s.modLane g f).extents = s.extents := rfl
@[simp] theorem State.modLane_extentGens (g : Nat) (f : Lane → Lane) : (s.modLane g f).extentGens = s.extentGens := rfl
@[simp] theorem State.modLane_mkeys (g : Nat) (f : Lane → Lane) : (s.modLane g f).mkeys = s.mkeys := rfl
@[simp] theorem State.modLane_mkeyGens (g : Nat) (f : Lane → Lane) : (s.modLane g f).mkeyGens = s.mkeyGens := rfl
@[simp] theorem State.modLane_leases (g : Nat) (f : Lane → Lane) : (s.modLane g f).leases = s.leases := rfl
@[simp] theorem State.modLane_poisonList (g : Nat) (f : Lane → Lane) : (s.modLane g f).poisonList = s.poisonList := rfl
@[simp] theorem State.modLane_poisonOverflow (g : Nat) (f : Lane → Lane) : (s.modLane g f).poisonOverflow = s.poisonOverflow := rfl
@[simp] theorem State.modLane_tiles (g : Nat) (f : Lane → Lane) : (s.modLane g f).tiles = s.tiles := rfl
@[simp] theorem State.modLane_frames (g : Nat) (f : Lane → Lane) : (s.modLane g f).frames = s.frames := rfl
@[simp] theorem State.modLane_moves (g : Nat) (f : Lane → Lane) : (s.modLane g f).moves = s.moves := rfl
@[simp] theorem State.modLane_plc (g : Nat) (f : Lane → Lane) : (s.modLane g f).plc = s.plc := rfl
@[simp] theorem State.modLane_hlc (g : Nat) (f : Lane → Lane) : (s.modLane g f).hlc = s.hlc := rfl
@[simp] theorem State.modLane_reqs (g : Nat) (f : Lane → Lane) : (s.modLane g f).reqs = s.reqs := rfl
@[simp] theorem State.modLane_reqSeq (g : Nat) (f : Lane → Lane) : (s.modLane g f).reqSeq = s.reqSeq := rfl
@[simp] theorem State.modLane_ended (g : Nat) (f : Lane → Lane) : (s.modLane g f).ended = s.ended := rfl
@[simp] theorem State.modLane_noAdmit (g : Nat) (f : Lane → Lane) : (s.modLane g f).noAdmit = s.noAdmit := rfl
@[simp] theorem State.modLane_admitted (g : Nat) (f : Lane → Lane) : (s.modLane g f).admitted = s.admitted := rfl
@[simp] theorem State.modLane_links (g : Nat) (f : Lane → Lane) : (s.modLane g f).links = s.links := rfl
@[simp] theorem State.modLane_lds (g : Nat) (f : Lane → Lane) : (s.modLane g f).lds = s.lds := rfl
@[simp] theorem State.modLane_ports (g : Nat) (f : Lane → Lane) : (s.modLane g f).ports = s.ports := rfl
@[simp] theorem State.modLane_advert (g : Nat) (f : Lane → Lane) : (s.modLane g f).advert = s.advert := rfl
@[simp] theorem State.modLane_rdx (g : Nat) (f : Lane → Lane) : (s.modLane g f).rdx = s.rdx := rfl
@[simp] theorem State.modLane_pools (g : Nat) (f : Lane → Lane) : (s.modLane g f).pools = s.pools := rfl
@[simp] theorem State.modLane_sqs (g : Nat) (f : Lane → Lane) : (s.modLane g f).sqs = s.sqs := rfl
@[simp] theorem State.modLane_cqs (g : Nat) (f : Lane → Lane) : (s.modLane g f).cqs = s.cqs := rfl
@[simp] theorem State.modLane_cmds (g : Nat) (f : Lane → Lane) : (s.modLane g f).cmds = s.cmds := rfl
@[simp] theorem State.modLane_cmdSeq (g : Nat) (f : Lane → Lane) : (s.modLane g f).cmdSeq = s.cmdSeq := rfl
@[simp] theorem State.modLane_progress (g : Nat) (f : Lane → Lane) : (s.modLane g f).progress = s.progress := rfl
@[simp] theorem State.modLane_sqWait (g : Nat) (f : Lane → Lane) : (s.modLane g f).sqWait = s.sqWait := rfl
@[simp] theorem State.modLane_chans (g : Nat) (f : Lane → Lane) : (s.modLane g f).chans = s.chans := rfl
@[simp] theorem State.modLane_health (g : Nat) (f : Lane → Lane) : (s.modLane g f).health = s.health := rfl
@[simp] theorem State.modLane_fmc (g : Nat) (f : Lane → Lane) : (s.modLane g f).fmc = s.fmc := rfl
@[simp] theorem State.modLane_elg (g : Nat) (f : Lane → Lane) : (s.modLane g f).elg = s.elg := rfl
@[simp] theorem State.modLane_twn (g : Nat) (f : Lane → Lane) : (s.modLane g f).twn = { s.twn with lanes := s.twn.lanes.upd g {} f } := rfl
@[simp] theorem State.modLane_mbx (g : Nat) (f : Lane → Lane) : (s.modLane g f).mbx = s.mbx := rfl
@[simp] theorem State.modLane_jwait (g : Nat) (f : Lane → Lane) : (s.modLane g f).jwait = s.jwait := rfl
@[simp] theorem State.modLane_fw (g : Nat) (f : Lane → Lane) : (s.modLane g f).fw = s.fw := rfl
@[simp] theorem State.modLane_sec (g : Nat) (f : Lane → Lane) : (s.modLane g f).sec = s.sec := rfl
@[simp] theorem State.modLane_efl (g : Nat) (f : Lane → Lane) : (s.modLane g f).efl = s.efl := rfl
@[simp] theorem State.modLane_evr (g : Nat) (f : Lane → Lane) : (s.modLane g f).evr = s.evr := rfl
@[simp] theorem State.modLane_evq (g : Nat) (f : Lane → Lane) : (s.modLane g f).evq = s.evq := rfl
@[simp] theorem State.modLane_pws (g : Nat) (f : Lane → Lane) : (s.modLane g f).pws = s.pws := rfl
@[simp] theorem State.modLane_isl (g : Nat) (f : Lane → Lane) : (s.modLane g f).isl = s.isl := rfl
@[simp] theorem State.modLane_twb (g : Nat) (f : Lane → Lane) : (s.modLane g f).twb = s.twb := rfl
@[simp] theorem State.modLane_err (g : Nat) (f : Lane → Lane) : (s.modLane g f).err = s.err := rfl
@[simp] theorem State.modLane_lap (g : Nat) (f : Lane → Lane) : (s.modLane g f).lap = s.lap := rfl

/-! `State.modTx` -/

@[simp] theorem State.modTx_pending (n : Nat) (f : TxMsg → TxMsg) : (s.modTx n f).pending = s.pending := rfl
@[simp] theorem State.modTx_out (n : Nat) (f : TxMsg → TxMsg) : (s.modTx n f).out = s.out := rfl
@[simp] theorem State.modTx_time (n : Nat) (f : TxMsg → TxMsg) : (s.modTx n f).time = s.time := rfl
@[simp] theorem State.modTx_fresh (n : Nat) (f : TxMsg → TxMsg) : (s.modTx n f).fresh = s.fresh := rfl
@[simp] theorem State.modTx_regs (n : Nat) (f : TxMsg → TxMsg) : (s.modTx n f).regs = s.regs := rfl
@[simp] theorem State.modTx_paths (n : Nat) (f : TxMsg → TxMsg) : (s.modTx n f).paths = s.paths := rfl
@[simp] theorem State.modTx_mem (n : Nat) (f : TxMsg → TxMsg) : (s.modTx n f).mem = s.mem := rfl
@[simp] theorem State.modTx_sectors (n : Nat) (f : TxMsg → TxMsg) : (s.modTx n f).sectors = s.sectors := rfl
@[simp] theorem State.modTx_exposed (n : Nat) (f : TxMsg → TxMsg) : (s.modTx n f).exposed = s.exposed := rfl
@[simp] theorem State.modTx_regions (n : Nat) (f : TxMsg → TxMsg) : (s.modTx n f).regions = s.regions := rfl
@[simp] theorem State.modTx_rgt (n : Nat) (f : TxMsg → TxMsg) : (s.modTx n f).rgt = s.rgt := rfl
@[simp] theorem State.modTx_extents (n : Nat) (f : TxMsg → TxMsg) : (s.modTx n f).extents = s.extents := rfl
@[simp] theorem State.modTx_extentGens (n : Nat) (f : TxMsg → TxMsg) : (s.modTx n f).extentGens = s.extentGens := rfl
@[simp] theorem State.modTx_mkeys (n : Nat) (f : TxMsg → TxMsg) : (s.modTx n f).mkeys = s.mkeys := rfl
@[simp] theorem State.modTx_mkeyGens (n : Nat) (f : TxMsg → TxMsg) : (s.modTx n f).mkeyGens = s.mkeyGens := rfl
@[simp] theorem State.modTx_leases (n : Nat) (f : TxMsg → TxMsg) : (s.modTx n f).leases = s.leases := rfl
@[simp] theorem State.modTx_poisonList (n : Nat) (f : TxMsg → TxMsg) : (s.modTx n f).poisonList = s.poisonList := rfl
@[simp] theorem State.modTx_poisonOverflow (n : Nat) (f : TxMsg → TxMsg) : (s.modTx n f).poisonOverflow = s.poisonOverflow := rfl
@[simp] theorem State.modTx_tiles (n : Nat) (f : TxMsg → TxMsg) : (s.modTx n f).tiles = s.tiles := rfl
@[simp] theorem State.modTx_frames (n : Nat) (f : TxMsg → TxMsg) : (s.modTx n f).frames = s.frames := rfl
@[simp] theorem State.modTx_moves (n : Nat) (f : TxMsg → TxMsg) : (s.modTx n f).moves = s.moves := rfl
@[simp] theorem State.modTx_plc (n : Nat) (f : TxMsg → TxMsg) : (s.modTx n f).plc = s.plc := rfl
@[simp] theorem State.modTx_hlc (n : Nat) (f : TxMsg → TxMsg) : (s.modTx n f).hlc = s.hlc := rfl
@[simp] theorem State.modTx_reqs (n : Nat) (f : TxMsg → TxMsg) : (s.modTx n f).reqs = s.reqs := rfl
@[simp] theorem State.modTx_reqSeq (n : Nat) (f : TxMsg → TxMsg) : (s.modTx n f).reqSeq = s.reqSeq := rfl
@[simp] theorem State.modTx_ended (n : Nat) (f : TxMsg → TxMsg) : (s.modTx n f).ended = s.ended := rfl
@[simp] theorem State.modTx_noAdmit (n : Nat) (f : TxMsg → TxMsg) : (s.modTx n f).noAdmit = s.noAdmit := rfl
@[simp] theorem State.modTx_admitted (n : Nat) (f : TxMsg → TxMsg) : (s.modTx n f).admitted = s.admitted := rfl
@[simp] theorem State.modTx_links (n : Nat) (f : TxMsg → TxMsg) : (s.modTx n f).links = s.links := rfl
@[simp] theorem State.modTx_lds (n : Nat) (f : TxMsg → TxMsg) : (s.modTx n f).lds = s.lds := rfl
@[simp] theorem State.modTx_ports (n : Nat) (f : TxMsg → TxMsg) : (s.modTx n f).ports = s.ports := rfl
@[simp] theorem State.modTx_advert (n : Nat) (f : TxMsg → TxMsg) : (s.modTx n f).advert = s.advert := rfl
@[simp] theorem State.modTx_rdx (n : Nat) (f : TxMsg → TxMsg) : (s.modTx n f).rdx = s.rdx := rfl
@[simp] theorem State.modTx_pools (n : Nat) (f : TxMsg → TxMsg) : (s.modTx n f).pools = s.pools := rfl
@[simp] theorem State.modTx_sqs (n : Nat) (f : TxMsg → TxMsg) : (s.modTx n f).sqs = s.sqs := rfl
@[simp] theorem State.modTx_cqs (n : Nat) (f : TxMsg → TxMsg) : (s.modTx n f).cqs = s.cqs := rfl
@[simp] theorem State.modTx_cmds (n : Nat) (f : TxMsg → TxMsg) : (s.modTx n f).cmds = s.cmds := rfl
@[simp] theorem State.modTx_cmdSeq (n : Nat) (f : TxMsg → TxMsg) : (s.modTx n f).cmdSeq = s.cmdSeq := rfl
@[simp] theorem State.modTx_progress (n : Nat) (f : TxMsg → TxMsg) : (s.modTx n f).progress = s.progress := rfl
@[simp] theorem State.modTx_sqWait (n : Nat) (f : TxMsg → TxMsg) : (s.modTx n f).sqWait = s.sqWait := rfl
@[simp] theorem State.modTx_chans (n : Nat) (f : TxMsg → TxMsg) : (s.modTx n f).chans = s.chans := rfl
@[simp] theorem State.modTx_health (n : Nat) (f : TxMsg → TxMsg) : (s.modTx n f).health = s.health := rfl
@[simp] theorem State.modTx_fmc (n : Nat) (f : TxMsg → TxMsg) : (s.modTx n f).fmc = s.fmc := rfl
@[simp] theorem State.modTx_elg (n : Nat) (f : TxMsg → TxMsg) : (s.modTx n f).elg = s.elg := rfl
@[simp] theorem State.modTx_twn (n : Nat) (f : TxMsg → TxMsg) : (s.modTx n f).twn = { s.twn with tx := s.twn.tx.modify n f } := rfl
@[simp] theorem State.modTx_mbx (n : Nat) (f : TxMsg → TxMsg) : (s.modTx n f).mbx = s.mbx := rfl
@[simp] theorem State.modTx_jwait (n : Nat) (f : TxMsg → TxMsg) : (s.modTx n f).jwait = s.jwait := rfl
@[simp] theorem State.modTx_fw (n : Nat) (f : TxMsg → TxMsg) : (s.modTx n f).fw = s.fw := rfl
@[simp] theorem State.modTx_sec (n : Nat) (f : TxMsg → TxMsg) : (s.modTx n f).sec = s.sec := rfl
@[simp] theorem State.modTx_efl (n : Nat) (f : TxMsg → TxMsg) : (s.modTx n f).efl = s.efl := rfl
@[simp] theorem State.modTx_evr (n : Nat) (f : TxMsg → TxMsg) : (s.modTx n f).evr = s.evr := rfl
@[simp] theorem State.modTx_evq (n : Nat) (f : TxMsg → TxMsg) : (s.modTx n f).evq = s.evq := rfl
@[simp] theorem State.modTx_pws (n : Nat) (f : TxMsg → TxMsg) : (s.modTx n f).pws = s.pws := rfl
@[simp] theorem State.modTx_isl (n : Nat) (f : TxMsg → TxMsg) : (s.modTx n f).isl = s.isl := rfl
@[simp] theorem State.modTx_twb (n : Nat) (f : TxMsg → TxMsg) : (s.modTx n f).twb = s.twb := rfl
@[simp] theorem State.modTx_err (n : Nat) (f : TxMsg → TxMsg) : (s.modTx n f).err = s.err := rfl
@[simp] theorem State.modTx_lap (n : Nat) (f : TxMsg → TxMsg) : (s.modTx n f).lap = s.lap := rfl

/-! `State.modSage` -/

@[simp] theorem State.modSage_pending (f : Sage → Sage) : (s.modSage f).pending = s.pending := rfl
@[simp] theorem State.modSage_out (f : Sage → Sage) : (s.modSage f).out = s.out := rfl
@[simp] theorem State.modSage_time (f : Sage → Sage) : (s.modSage f).time = s.time := rfl
@[simp] theorem State.modSage_fresh (f : Sage → Sage) : (s.modSage f).fresh = s.fresh := rfl
@[simp] theorem State.modSage_regs (f : Sage → Sage) : (s.modSage f).regs = s.regs := rfl
@[simp] theorem State.modSage_paths (f : Sage → Sage) : (s.modSage f).paths = s.paths := rfl
@[simp] theorem State.modSage_mem (f : Sage → Sage) : (s.modSage f).mem = s.mem := rfl
@[simp] theorem State.modSage_sectors (f : Sage → Sage) : (s.modSage f).sectors = s.sectors := rfl
@[simp] theorem State.modSage_exposed (f : Sage → Sage) : (s.modSage f).exposed = s.exposed := rfl
@[simp] theorem State.modSage_regions (f : Sage → Sage) : (s.modSage f).regions = s.regions := rfl
@[simp] theorem State.modSage_rgt (f : Sage → Sage) : (s.modSage f).rgt = s.rgt := rfl
@[simp] theorem State.modSage_extents (f : Sage → Sage) : (s.modSage f).extents = s.extents := rfl
@[simp] theorem State.modSage_extentGens (f : Sage → Sage) : (s.modSage f).extentGens = s.extentGens := rfl
@[simp] theorem State.modSage_mkeys (f : Sage → Sage) : (s.modSage f).mkeys = s.mkeys := rfl
@[simp] theorem State.modSage_mkeyGens (f : Sage → Sage) : (s.modSage f).mkeyGens = s.mkeyGens := rfl
@[simp] theorem State.modSage_leases (f : Sage → Sage) : (s.modSage f).leases = s.leases := rfl
@[simp] theorem State.modSage_poisonList (f : Sage → Sage) : (s.modSage f).poisonList = s.poisonList := rfl
@[simp] theorem State.modSage_poisonOverflow (f : Sage → Sage) : (s.modSage f).poisonOverflow = s.poisonOverflow := rfl
@[simp] theorem State.modSage_tiles (f : Sage → Sage) : (s.modSage f).tiles = s.tiles := rfl
@[simp] theorem State.modSage_frames (f : Sage → Sage) : (s.modSage f).frames = s.frames := rfl
@[simp] theorem State.modSage_moves (f : Sage → Sage) : (s.modSage f).moves = s.moves := rfl
@[simp] theorem State.modSage_plc (f : Sage → Sage) : (s.modSage f).plc = s.plc := rfl
@[simp] theorem State.modSage_hlc (f : Sage → Sage) : (s.modSage f).hlc = s.hlc := rfl
@[simp] theorem State.modSage_reqs (f : Sage → Sage) : (s.modSage f).reqs = s.reqs := rfl
@[simp] theorem State.modSage_reqSeq (f : Sage → Sage) : (s.modSage f).reqSeq = s.reqSeq := rfl
@[simp] theorem State.modSage_ended (f : Sage → Sage) : (s.modSage f).ended = s.ended := rfl
@[simp] theorem State.modSage_noAdmit (f : Sage → Sage) : (s.modSage f).noAdmit = s.noAdmit := rfl
@[simp] theorem State.modSage_admitted (f : Sage → Sage) : (s.modSage f).admitted = s.admitted := rfl
@[simp] theorem State.modSage_links (f : Sage → Sage) : (s.modSage f).links = s.links := rfl
@[simp] theorem State.modSage_lds (f : Sage → Sage) : (s.modSage f).lds = s.lds := rfl
@[simp] theorem State.modSage_ports (f : Sage → Sage) : (s.modSage f).ports = s.ports := rfl
@[simp] theorem State.modSage_advert (f : Sage → Sage) : (s.modSage f).advert = s.advert := rfl
@[simp] theorem State.modSage_rdx (f : Sage → Sage) : (s.modSage f).rdx = s.rdx := rfl
@[simp] theorem State.modSage_pools (f : Sage → Sage) : (s.modSage f).pools = s.pools := rfl
@[simp] theorem State.modSage_sqs (f : Sage → Sage) : (s.modSage f).sqs = s.sqs := rfl
@[simp] theorem State.modSage_cqs (f : Sage → Sage) : (s.modSage f).cqs = s.cqs := rfl
@[simp] theorem State.modSage_cmds (f : Sage → Sage) : (s.modSage f).cmds = s.cmds := rfl
@[simp] theorem State.modSage_cmdSeq (f : Sage → Sage) : (s.modSage f).cmdSeq = s.cmdSeq := rfl
@[simp] theorem State.modSage_progress (f : Sage → Sage) : (s.modSage f).progress = s.progress := rfl
@[simp] theorem State.modSage_sqWait (f : Sage → Sage) : (s.modSage f).sqWait = s.sqWait := rfl
@[simp] theorem State.modSage_chans (f : Sage → Sage) : (s.modSage f).chans = s.chans := rfl
@[simp] theorem State.modSage_health (f : Sage → Sage) : (s.modSage f).health = s.health := rfl
@[simp] theorem State.modSage_fmc (f : Sage → Sage) : (s.modSage f).fmc = s.fmc := rfl
@[simp] theorem State.modSage_elg (f : Sage → Sage) : (s.modSage f).elg = { s.elg with sage := s.elg.sage.map f } := rfl
@[simp] theorem State.modSage_twn (f : Sage → Sage) : (s.modSage f).twn = s.twn := rfl
@[simp] theorem State.modSage_mbx (f : Sage → Sage) : (s.modSage f).mbx = s.mbx := rfl
@[simp] theorem State.modSage_jwait (f : Sage → Sage) : (s.modSage f).jwait = s.jwait := rfl
@[simp] theorem State.modSage_fw (f : Sage → Sage) : (s.modSage f).fw = s.fw := rfl
@[simp] theorem State.modSage_sec (f : Sage → Sage) : (s.modSage f).sec = s.sec := rfl
@[simp] theorem State.modSage_efl (f : Sage → Sage) : (s.modSage f).efl = s.efl := rfl
@[simp] theorem State.modSage_evr (f : Sage → Sage) : (s.modSage f).evr = s.evr := rfl
@[simp] theorem State.modSage_evq (f : Sage → Sage) : (s.modSage f).evq = s.evq := rfl
@[simp] theorem State.modSage_pws (f : Sage → Sage) : (s.modSage f).pws = s.pws := rfl
@[simp] theorem State.modSage_isl (f : Sage → Sage) : (s.modSage f).isl = s.isl := rfl
@[simp] theorem State.modSage_twb (f : Sage → Sage) : (s.modSage f).twb = s.twb := rfl
@[simp] theorem State.modSage_err (f : Sage → Sage) : (s.modSage f).err = s.err := rfl
@[simp] theorem State.modSage_lap (f : Sage → Sage) : (s.modSage f).lap = s.lap := rfl

/-! `State.modBlock` -/

@[simp] theorem State.modBlock_pending (n : Nat) (f : EflBlock → EflBlock) : (s.modBlock n f).pending = s.pending := rfl
@[simp] theorem State.modBlock_out (n : Nat) (f : EflBlock → EflBlock) : (s.modBlock n f).out = s.out := rfl
@[simp] theorem State.modBlock_time (n : Nat) (f : EflBlock → EflBlock) : (s.modBlock n f).time = s.time := rfl
@[simp] theorem State.modBlock_fresh (n : Nat) (f : EflBlock → EflBlock) : (s.modBlock n f).fresh = s.fresh := rfl
@[simp] theorem State.modBlock_regs (n : Nat) (f : EflBlock → EflBlock) : (s.modBlock n f).regs = s.regs := rfl
@[simp] theorem State.modBlock_paths (n : Nat) (f : EflBlock → EflBlock) : (s.modBlock n f).paths = s.paths := rfl
@[simp] theorem State.modBlock_mem (n : Nat) (f : EflBlock → EflBlock) : (s.modBlock n f).mem = s.mem := rfl
@[simp] theorem State.modBlock_sectors (n : Nat) (f : EflBlock → EflBlock) : (s.modBlock n f).sectors = s.sectors := rfl
@[simp] theorem State.modBlock_exposed (n : Nat) (f : EflBlock → EflBlock) : (s.modBlock n f).exposed = s.exposed := rfl
@[simp] theorem State.modBlock_regions (n : Nat) (f : EflBlock → EflBlock) : (s.modBlock n f).regions = s.regions := rfl
@[simp] theorem State.modBlock_rgt (n : Nat) (f : EflBlock → EflBlock) : (s.modBlock n f).rgt = s.rgt := rfl
@[simp] theorem State.modBlock_extents (n : Nat) (f : EflBlock → EflBlock) : (s.modBlock n f).extents = s.extents := rfl
@[simp] theorem State.modBlock_extentGens (n : Nat) (f : EflBlock → EflBlock) : (s.modBlock n f).extentGens = s.extentGens := rfl
@[simp] theorem State.modBlock_mkeys (n : Nat) (f : EflBlock → EflBlock) : (s.modBlock n f).mkeys = s.mkeys := rfl
@[simp] theorem State.modBlock_mkeyGens (n : Nat) (f : EflBlock → EflBlock) : (s.modBlock n f).mkeyGens = s.mkeyGens := rfl
@[simp] theorem State.modBlock_leases (n : Nat) (f : EflBlock → EflBlock) : (s.modBlock n f).leases = s.leases := rfl
@[simp] theorem State.modBlock_poisonList (n : Nat) (f : EflBlock → EflBlock) : (s.modBlock n f).poisonList = s.poisonList := rfl
@[simp] theorem State.modBlock_poisonOverflow (n : Nat) (f : EflBlock → EflBlock) : (s.modBlock n f).poisonOverflow = s.poisonOverflow := rfl
@[simp] theorem State.modBlock_tiles (n : Nat) (f : EflBlock → EflBlock) : (s.modBlock n f).tiles = s.tiles := rfl
@[simp] theorem State.modBlock_frames (n : Nat) (f : EflBlock → EflBlock) : (s.modBlock n f).frames = s.frames := rfl
@[simp] theorem State.modBlock_moves (n : Nat) (f : EflBlock → EflBlock) : (s.modBlock n f).moves = s.moves := rfl
@[simp] theorem State.modBlock_plc (n : Nat) (f : EflBlock → EflBlock) : (s.modBlock n f).plc = s.plc := rfl
@[simp] theorem State.modBlock_hlc (n : Nat) (f : EflBlock → EflBlock) : (s.modBlock n f).hlc = s.hlc := rfl
@[simp] theorem State.modBlock_reqs (n : Nat) (f : EflBlock → EflBlock) : (s.modBlock n f).reqs = s.reqs := rfl
@[simp] theorem State.modBlock_reqSeq (n : Nat) (f : EflBlock → EflBlock) : (s.modBlock n f).reqSeq = s.reqSeq := rfl
@[simp] theorem State.modBlock_ended (n : Nat) (f : EflBlock → EflBlock) : (s.modBlock n f).ended = s.ended := rfl
@[simp] theorem State.modBlock_noAdmit (n : Nat) (f : EflBlock → EflBlock) : (s.modBlock n f).noAdmit = s.noAdmit := rfl
@[simp] theorem State.modBlock_admitted (n : Nat) (f : EflBlock → EflBlock) : (s.modBlock n f).admitted = s.admitted := rfl
@[simp] theorem State.modBlock_links (n : Nat) (f : EflBlock → EflBlock) : (s.modBlock n f).links = s.links := rfl
@[simp] theorem State.modBlock_lds (n : Nat) (f : EflBlock → EflBlock) : (s.modBlock n f).lds = s.lds := rfl
@[simp] theorem State.modBlock_ports (n : Nat) (f : EflBlock → EflBlock) : (s.modBlock n f).ports = s.ports := rfl
@[simp] theorem State.modBlock_advert (n : Nat) (f : EflBlock → EflBlock) : (s.modBlock n f).advert = s.advert := rfl
@[simp] theorem State.modBlock_rdx (n : Nat) (f : EflBlock → EflBlock) : (s.modBlock n f).rdx = s.rdx := rfl
@[simp] theorem State.modBlock_pools (n : Nat) (f : EflBlock → EflBlock) : (s.modBlock n f).pools = s.pools := rfl
@[simp] theorem State.modBlock_sqs (n : Nat) (f : EflBlock → EflBlock) : (s.modBlock n f).sqs = s.sqs := rfl
@[simp] theorem State.modBlock_cqs (n : Nat) (f : EflBlock → EflBlock) : (s.modBlock n f).cqs = s.cqs := rfl
@[simp] theorem State.modBlock_cmds (n : Nat) (f : EflBlock → EflBlock) : (s.modBlock n f).cmds = s.cmds := rfl
@[simp] theorem State.modBlock_cmdSeq (n : Nat) (f : EflBlock → EflBlock) : (s.modBlock n f).cmdSeq = s.cmdSeq := rfl
@[simp] theorem State.modBlock_progress (n : Nat) (f : EflBlock → EflBlock) : (s.modBlock n f).progress = s.progress := rfl
@[simp] theorem State.modBlock_sqWait (n : Nat) (f : EflBlock → EflBlock) : (s.modBlock n f).sqWait = s.sqWait := rfl
@[simp] theorem State.modBlock_chans (n : Nat) (f : EflBlock → EflBlock) : (s.modBlock n f).chans = s.chans := rfl
@[simp] theorem State.modBlock_health (n : Nat) (f : EflBlock → EflBlock) : (s.modBlock n f).health = s.health := rfl
@[simp] theorem State.modBlock_fmc (n : Nat) (f : EflBlock → EflBlock) : (s.modBlock n f).fmc = s.fmc := rfl
@[simp] theorem State.modBlock_elg (n : Nat) (f : EflBlock → EflBlock) : (s.modBlock n f).elg = s.elg := rfl
@[simp] theorem State.modBlock_twn (n : Nat) (f : EflBlock → EflBlock) : (s.modBlock n f).twn = s.twn := rfl
@[simp] theorem State.modBlock_mbx (n : Nat) (f : EflBlock → EflBlock) : (s.modBlock n f).mbx = s.mbx := rfl
@[simp] theorem State.modBlock_jwait (n : Nat) (f : EflBlock → EflBlock) : (s.modBlock n f).jwait = s.jwait := rfl
@[simp] theorem State.modBlock_fw (n : Nat) (f : EflBlock → EflBlock) : (s.modBlock n f).fw = s.fw := rfl
@[simp] theorem State.modBlock_sec (n : Nat) (f : EflBlock → EflBlock) : (s.modBlock n f).sec = s.sec := rfl
@[simp] theorem State.modBlock_efl (n : Nat) (f : EflBlock → EflBlock) : (s.modBlock n f).efl = { s.efl with blocks := s.efl.blocks.upd n {} f } := rfl
@[simp] theorem State.modBlock_evr (n : Nat) (f : EflBlock → EflBlock) : (s.modBlock n f).evr = s.evr := rfl
@[simp] theorem State.modBlock_evq (n : Nat) (f : EflBlock → EflBlock) : (s.modBlock n f).evq = s.evq := rfl
@[simp] theorem State.modBlock_pws (n : Nat) (f : EflBlock → EflBlock) : (s.modBlock n f).pws = s.pws := rfl
@[simp] theorem State.modBlock_isl (n : Nat) (f : EflBlock → EflBlock) : (s.modBlock n f).isl = s.isl := rfl
@[simp] theorem State.modBlock_twb (n : Nat) (f : EflBlock → EflBlock) : (s.modBlock n f).twb = s.twb := rfl
@[simp] theorem State.modBlock_err (n : Nat) (f : EflBlock → EflBlock) : (s.modBlock n f).err = s.err := rfl
@[simp] theorem State.modBlock_lap (n : Nat) (f : EflBlock → EflBlock) : (s.modBlock n f).lap = s.lap := rfl

/-! `State.draw` -/

@[simp] theorem State.draw_pending : s.draw.1.pending = s.pending := rfl
@[simp] theorem State.draw_out : s.draw.1.out = s.out := rfl
@[simp] theorem State.draw_time : s.draw.1.time = s.time := rfl
@[simp] theorem State.draw_fresh : s.draw.1.fresh = s.fresh + 1 := rfl
@[simp] theorem State.draw_regs : s.draw.1.regs = s.regs := rfl
@[simp] theorem State.draw_paths : s.draw.1.paths = s.paths := rfl
@[simp] theorem State.draw_mem : s.draw.1.mem = s.mem := rfl
@[simp] theorem State.draw_sectors : s.draw.1.sectors = s.sectors := rfl
@[simp] theorem State.draw_exposed : s.draw.1.exposed = s.exposed := rfl
@[simp] theorem State.draw_regions : s.draw.1.regions = s.regions := rfl
@[simp] theorem State.draw_rgt : s.draw.1.rgt = s.rgt := rfl
@[simp] theorem State.draw_extents : s.draw.1.extents = s.extents := rfl
@[simp] theorem State.draw_extentGens : s.draw.1.extentGens = s.extentGens := rfl
@[simp] theorem State.draw_mkeys : s.draw.1.mkeys = s.mkeys := rfl
@[simp] theorem State.draw_mkeyGens : s.draw.1.mkeyGens = s.mkeyGens := rfl
@[simp] theorem State.draw_leases : s.draw.1.leases = s.leases := rfl
@[simp] theorem State.draw_poisonList : s.draw.1.poisonList = s.poisonList := rfl
@[simp] theorem State.draw_poisonOverflow : s.draw.1.poisonOverflow = s.poisonOverflow := rfl
@[simp] theorem State.draw_tiles : s.draw.1.tiles = s.tiles := rfl
@[simp] theorem State.draw_frames : s.draw.1.frames = s.frames := rfl
@[simp] theorem State.draw_moves : s.draw.1.moves = s.moves := rfl
@[simp] theorem State.draw_plc : s.draw.1.plc = s.plc := rfl
@[simp] theorem State.draw_hlc : s.draw.1.hlc = s.hlc := rfl
@[simp] theorem State.draw_reqs : s.draw.1.reqs = s.reqs := rfl
@[simp] theorem State.draw_reqSeq : s.draw.1.reqSeq = s.reqSeq := rfl
@[simp] theorem State.draw_ended : s.draw.1.ended = s.ended := rfl
@[simp] theorem State.draw_noAdmit : s.draw.1.noAdmit = s.noAdmit := rfl
@[simp] theorem State.draw_admitted : s.draw.1.admitted = s.admitted := rfl
@[simp] theorem State.draw_links : s.draw.1.links = s.links := rfl
@[simp] theorem State.draw_lds : s.draw.1.lds = s.lds := rfl
@[simp] theorem State.draw_ports : s.draw.1.ports = s.ports := rfl
@[simp] theorem State.draw_advert : s.draw.1.advert = s.advert := rfl
@[simp] theorem State.draw_rdx : s.draw.1.rdx = s.rdx := rfl
@[simp] theorem State.draw_pools : s.draw.1.pools = s.pools := rfl
@[simp] theorem State.draw_sqs : s.draw.1.sqs = s.sqs := rfl
@[simp] theorem State.draw_cqs : s.draw.1.cqs = s.cqs := rfl
@[simp] theorem State.draw_cmds : s.draw.1.cmds = s.cmds := rfl
@[simp] theorem State.draw_cmdSeq : s.draw.1.cmdSeq = s.cmdSeq := rfl
@[simp] theorem State.draw_progress : s.draw.1.progress = s.progress := rfl
@[simp] theorem State.draw_sqWait : s.draw.1.sqWait = s.sqWait := rfl
@[simp] theorem State.draw_chans : s.draw.1.chans = s.chans := rfl
@[simp] theorem State.draw_health : s.draw.1.health = s.health := rfl
@[simp] theorem State.draw_fmc : s.draw.1.fmc = s.fmc := rfl
@[simp] theorem State.draw_elg : s.draw.1.elg = s.elg := rfl
@[simp] theorem State.draw_twn : s.draw.1.twn = s.twn := rfl
@[simp] theorem State.draw_mbx : s.draw.1.mbx = s.mbx := rfl
@[simp] theorem State.draw_jwait : s.draw.1.jwait = s.jwait := rfl
@[simp] theorem State.draw_fw : s.draw.1.fw = s.fw := rfl
@[simp] theorem State.draw_sec : s.draw.1.sec = s.sec := rfl
@[simp] theorem State.draw_efl : s.draw.1.efl = s.efl := rfl
@[simp] theorem State.draw_evr : s.draw.1.evr = s.evr := rfl
@[simp] theorem State.draw_evq : s.draw.1.evq = s.evq := rfl
@[simp] theorem State.draw_pws : s.draw.1.pws = s.pws := rfl
@[simp] theorem State.draw_isl : s.draw.1.isl = s.isl := rfl
@[simp] theorem State.draw_twb : s.draw.1.twb = s.twb := rfl
@[simp] theorem State.draw_err : s.draw.1.err = s.err := rfl
@[simp] theorem State.draw_lap : s.draw.1.lap = s.lap := rfl
@[simp] theorem State.draw_snd : s.draw.2 = s.fresh := rfl

end Sys2Proof.Machine
end

