-- ==== Sys2Proof/Laws/Registers.lean ====
section
/-! SUPPORT. Laws of sparse tables and of the register bank: a read after a write, and the fields of a word. -/

namespace Sys2Proof.Machine

variable {α : Type}

/-- A listed value reads back; every other key reads as before. -/
theorem Tbl.get?_set (t : Tbl α) (n m : Nat) (v : α) : Tbl.get? (Tbl.set t n v) m = if m = n then some v else Tbl.get? t m := by
  induction t with
  | nil => simp [Tbl.set, Tbl.get?]
  | cons e t ih =>
    obtain ⟨k, w⟩ := e
    simp only [Tbl.set]
    split
    · simp [Tbl.get?]
    · split
      · subst_vars
        simp only [Tbl.get?]
        split <;> rfl
      · rename_i h1 h2
        simp only [Tbl.get?, ih]
        by_cases hk : m = k
        · subst hk
          simp [Ne.symm h2]
        · simp [hk]

/-- A removed key is not listed; every other key reads as before. -/
theorem Tbl.get?_erase (t : Tbl α) (n m : Nat) : Tbl.get? (Tbl.erase t n) m = if m = n then none else Tbl.get? t m := by
  induction t with
  | nil => simp [Tbl.erase, Tbl.get?]
  | cons e t ih =>
    obtain ⟨k, w⟩ := e
    simp only [Tbl.erase]
    by_cases hn : n = k
    · subst hn
      simp only [if_pos, ih, Tbl.get?]
      by_cases hm : m = n <;> simp [hm]
    · simp only [if_neg hn, Tbl.get?, ih]
      by_cases hk : m = k
      · subst hk
        simp [Ne.symm hn]
      · simp [hk]

/-- Removing a key that is not listed changes nothing. -/
theorem Tbl.erase_absent {t : Tbl α} {n : Nat} (h : Tbl.get? t n = none) : Tbl.erase t n = t := by
  induction t with
  | nil => rfl
  | cons e t ih =>
    obtain ⟨k, w⟩ := e
    simp only [Tbl.get?] at h
    by_cases hn : n = k
    · simp [hn] at h
    · rw [if_neg hn] at h
      rw [Tbl.erase, if_neg hn, ih h]

/-- The register bank: what was put reads back, and every other register reads as before. -/
theorem State.reg_setReg (s : State) (a b : Nat) (w : Word) : (s.setReg a w).reg b = if b = a then w else s.reg b := by
  unfold State.reg
  rw [State.setReg_regs]
  by_cases hw : w = resetOf a
  · rw [if_pos hw, Tbl.get?_erase]
    by_cases h : b = a
    · simp [h, hw]
    · simp [h]
  · rw [if_neg hw, Tbl.get?_set]
    by_cases h : b = a <;> simp [h]

/-- Putting the value that a register at its reset value holds changes nothing. -/
theorem State.setReg_same {s : State} {a : Nat} (h : s.regs.get? a = none) : s.setReg a (s.reg a) = s := by
  have hr : s.reg a = resetOf a := by simp only [State.reg, h]
  unfold State.setReg
  rw [if_pos hr, Tbl.erase_absent h]

/-- Setting a bit of a word: that bit is the new one, the others are the old ones. -/
theorem Word.bit_withFld (w : Word) (i j : Nat) (b : Bool) (hi : i < 32) (hj : j < 32) :
    Word.bit (Word.withFld w i i (b2n b)) j = if j = i then b else Word.bit w j := by
  have h : (0xFFFFFFFF : Nat) = 2 ^ 32 - 1 := by decide
  simp only [Word.bit, Word.withFld, maskOf, BitVec.toNat_ofNat, Nat.testBit_mod_two_pow, Nat.testBit_or, Nat.testBit_and,
    Nat.testBit_xor, h, Nat.testBit_two_pow_sub_one, Nat.testBit_shiftLeft, hj, decide_true, Bool.true_and,
    Nat.add_sub_cancel_left, Nat.pow_one]
  by_cases hji : j = i
  · subst hji
    cases b <;> simp [b2n]
  · rcases Nat.lt_or_ge i j with h1 | h1
    · have : j - i ≠ 0 := by omega
      obtain ⟨k, hk⟩ : ∃ k, j - i = k + 1 := ⟨j - i - 1, by omega⟩
      rw [hk]
      cases b <;> simp [b2n, hji, Nat.testBit_succ]
    · have : ¬ i ≤ j := by omega
      simp [this, hji]

end Sys2Proof.Machine
end

