-- ==== Sys2Proof/Tests/States.lean ====
section
/-! SUPPORT. Small states from which the tests and the witnesses start. -/

namespace Sys2Proof.Tests

open Sys2Proof Sys2Proof.Machine

/-- The machine after reset with every island running. -/
def up : State := { State.reset with isl := { gated := [] } }

/-- The descriptor of a register that exists. -/
def dAt (off : Nat) : RegDesc := (descAt off).getD { off := off }

/-- Region 1, ONLINE on this twin: 1 GiB at granule 0, every host READ_WRITE_ATOMIC. -/
def region1 : Region :=
  { state := .online, ensign := .owner, size := 1, qos := 0, dflt := .readWriteAtomic, rgtBase := 0 }

/-- The machine in service with region 1. -/
def served : State :=
  { up with admitted := true, regions := [(1, region1)], rgt := [(0, 0)] }

/-- A queue pair of host 7 in a state: index 2, service 0 (memory access), generation 0. -/
def qpIn (st : QpState) : Qp := { state := st, service := 0, host := 7, qos := 0, hostQpn := 5 }

/-- The machine with one queue pair, index 2, in a state. -/
def withQp (st : QpState) : State := { served with rdx := { qps := [(2, qpIn st)], nextIdx := 3 } }

/-- A computation that does not fail answers something. -/
theorem ok_of_isOk {ε α : Type} {x : Except ε α} (h : x.isOk = true) : ∃ y, x = .ok y := by
  cases x with
  | ok y => exact ⟨y, rfl⟩
  | error e => cases h

/-- A computation whose success is this one answers it. -/
theorem eq_ok {ε α : Type} {x : Except ε α} {y : α} (h : x.toOption = some y) : x = .ok y := by
  cases x with
  | ok z => cases h; rfl
  | error e => cases h

/-- An option that is there is some value. -/
theorem some_of_isSome {α : Type} {x : Option α} (h : x.isSome = true) : ∃ y, x = some y := by
  cases x with
  | some y => exact ⟨y, rfl⟩
  | none => cases h

end Sys2Proof.Tests
end

