-- ==== Sys2Proof/Tests/WitnessJorrid.lean ====
section
/-! SUPPORT. For each statement on Jorrid commands that has hypotheses: states and operands that meet the hypotheses of
each clause. -/

namespace Sys2Proof.Tests

set_option Elab.async false

open Sys2Proof Sys2Proof.Machine

/-- Whether the conditions of `State.jNew` hold. -/
def jNewB (s : State) (k : Nat) (h : JHdr) (c : JorridCmd) : Bool :=
  let u := s.modMb k id
  s.instUp k && !s.noInstance k && h.wellFormed && decide (c ≠ .getStatus) && decide (c ≠ .abort) &&
    decide ((u.mb k).state ≠ .busy) && decide ((u.mb k).held = none) && u.jTakes && u.isAwake &&
    (match (u.mb k).lastSeq with | none => true | some l => decide (h.seq % 2 ^ 32 = (l + 1) % 2 ^ 32)) &&
    (!takesSlot c || decide (u.slotsBusy < u.fld Reg.mbxCfg 13 8))

theorem jNew_of {s : State} {k : Nat} {h : JHdr} {c : JorridCmd} (e : jNewB s k h c = true) : s.jNew k h c := by
  simp only [jNewB, Bool.and_eq_true, Bool.not_eq_true', decide_eq_true_eq, Bool.or_eq_true] at e
  obtain ⟨⟨⟨⟨⟨⟨⟨⟨⟨⟨a, b⟩, c1⟩, d⟩, e1⟩, f⟩, g⟩, i⟩, j⟩, l⟩, m⟩ := e
  refine ⟨a, b, c1, d, e1, f, g, i, j, ?_, ?_⟩
  · intro n hn; simpa [hn] using l
  · intro hs
    rcases m with m | m
    · rw [hs] at m; cases m
    · exact m

/-- Whether the conditions of `State.jRuns` hold. -/
def jRunsB (s : State) (k : Nat) (h : JHdr) (c : JorridCmd) : Bool :=
  jNewB s k h c && (s.taken k h c).permits k c && !unknownOp c && !notReady (s.taken k h c).phase c &&
    !((objectsOf c).any fun o => (s.modMb k id).objectsHeld.contains o)

theorem jRuns_of {s : State} {k : Nat} {h : JHdr} {c : JorridCmd} (e : jRunsB s k h c = true) : s.jRuns k h c := by
  simp only [jRunsB, Bool.and_eq_true, Bool.not_eq_true'] at e
  exact ⟨jNew_of e.1.1.1.1, e.1.1.1.2, e.1.1.2, e.1.2, e.2⟩

theorem allRun_of {s : State} {k : Nat} {h : JHdr} {l : List JorridCmd} (e : l.all (jRunsB s k h) = true) :
    ∀ c ∈ l, s.jRuns k h c := fun _ hc => jRuns_of (List.all_eq_true.mp e _ hc)

/-- The instance of the MGT endpoint 8, and a header. -/
def inst8 : MbxInst := .mgt 8

/-- SEQ 1, TAG 2. -/
def hd1 : JHdr := { seq := 1, tag := 2 }

/-- Phase 8 with firmware running and every mailbox transport enabled. -/
def jup : State := ({ served with fw := { running := true, phase := 8 }, twn := { mate := false } } : State).setReg Reg.mbxCtl 0x1F

/-- The state in which a command runs for the instance. -/
def acc (s : State) (c : JorridCmd) : State := s.accepted (mbxKey inst8) hd1 c

/-- The instance in a state, with a command in progress or done, the last SEQ 1. -/
def jWith (st : MbxState) : State :=
  { jup with mbx := [(mbxKey inst8, { state := st, lastSeq := some 1, cmd := some .identify, step := 4 })] }

/-- A MGMT queue pair of host 0x20, with a lease that gives it the management right. -/
def jMgmt : State :=
  { jup.setReg Reg.secCtl 1 with
    rdx := { qps := [(2, { state := .established, service := 1, host := 0x20, qos := 0, hostQpn := 5 })] }
    leases := [(0x20, { cred := 3, mgmt := true, maxQp := 4, maxMkey := 4 })] }

theorem witness_JorridCommandsAreTakenInTurn :
    jup.jRuns (mbxKey inst8) hd1 .identify ∧
    (let s : State := { jup with lds := [(0, { state := .bound })] }
     s.cxlMbxUp 0 = true ∧ s.jRuns (mbxKey (.cxl 0)) hd1 .identify) ∧
    (let q : Qp := { state := .established, service := 1, host := 0x20, qos := 0, hostQpn := 5 }
     jMgmt.qp? 2 = some q ∧ q.state = .established ∧ psnClass q.psnRx 0 = 0 ∧ q.service = 1 ∧
       jMgmt.rnrNow false = false ∧ jMgmt.bit Reg.secCtl 0 = true ∧
       (State.modMb ((jMgmt.psnTake 2 0 0).addResp 2 0 .ack true) (mbxKey (.mgmt 2)) fun m => { m with mtag := 9 }).jRuns
         (mbxKey (.mgmt 2)) hd1 .identify) ∧
    (let s : State := { jup with lds := [(1, { state := .bound })] }
     s.jNew (mbxKey (.cxl 1)) hd1 .resetWarm ∧
       (s.taken (mbxKey (.cxl 1)) hd1 .resetWarm).permits (mbxKey (.cxl 1)) .resetWarm = false) ∧
    (jup.jNew (mbxKey inst8) hd1 (.other 0x7777) ∧
      (jup.taken (mbxKey inst8) hd1 (.other 0x7777)).permits (mbxKey inst8) (.other 0x7777) = true ∧
      unknownOp (.other 0x7777) = true) ∧
    (let s : State := { jup with fw := { running := true, phase := 6 } }
     s.jNew (mbxKey inst8) hd1 .twinRelease ∧
       (s.taken (mbxKey inst8) hd1 .twinRelease).permits (mbxKey inst8) .twinRelease = true ∧
       unknownOp .twinRelease = false ∧ notReady (s.taken (mbxKey inst8) hd1 .twinRelease).phase .twinRelease = true) ∧
    (let s : State := { jup with mbx := [(7, { objects := [objTwin] })] }
     s.jNew (mbxKey inst8) hd1 .twinRelease ∧
       ((objectsOf .twinRelease).any fun o => (s.modMb (mbxKey inst8) id).objectsHeld.contains o) = true) ∧
    ((jWith .busy).instUp (mbxKey inst8) = true ∧ (jWith .busy).noInstance (mbxKey inst8) = false ∧ hd1.wellFormed = true ∧
      JorridCmd.identify ≠ .getStatus ∧ (((jWith .busy).modMb (mbxKey inst8) id).mb (mbxKey inst8)).state = .busy) ∧
    (let s : State := { jup with fw := { phase := 8, halted := true } }
     ((s.modMb (mbxKey inst8) id).mb (mbxKey inst8)).state ≠ .busy ∧
       ((s.modMb (mbxKey inst8) id).mb (mbxKey inst8)).held = none ∧ (s.modMb (mbxKey inst8) id).jTakes = false) ∧
    (let u := (jWith .done).modMb (mbxKey inst8) id
     (u.mb (mbxKey inst8)).state ≠ .busy ∧ u.jTakes = true ∧ u.isAwake = true ∧ (u.mb (mbxKey inst8)).lastSeq = some 1 ∧
       1 % 2 ^ 32 ≠ (1 + 1) % 2 ^ 32 ∧ (u.mb (mbxKey inst8)).lastSeq = some hd1.seq) ∧
    (((jWith .busy).mb (mbxKey inst8)).state = .busy ∧ ((jWith .busy).mb (mbxKey inst8)).lastSeq = some 1 ∧
      ((jWith .busy).mb (mbxKey inst8)).cmd = some .identify ∧ ((jWith .busy).mb (mbxKey inst8)).background = false ∧
      ((jWith .busy).mb (mbxKey inst8)).step = 4 ∧ (jWith .busy).slotErasing false = false ∧
      (jWith .busy).slotErasing true = false ∧ ((jWith .done).mb (mbxKey inst8)).lastSeq = some hd1.seq) ∧
    (((jWith .busy).modMb (mbxKey inst8) fun m => { m with step := 5 }).mb (mbxKey inst8)).step ≠ 4 ∧
    ((jWith .done).mb (2 ^ 33 + 8)).state ≠ .busy :=
  ⟨jRuns_of (by decide +kernel), ⟨by decide +kernel, jRuns_of (by decide +kernel)⟩,
    ⟨by decide +kernel, by decide +kernel, by decide +kernel, by decide +kernel, by decide +kernel, by decide +kernel,
      jRuns_of (by decide +kernel)⟩,
    ⟨jNew_of (by decide +kernel), by decide +kernel⟩, ⟨jNew_of (by decide +kernel), by decide +kernel⟩,
    ⟨jNew_of (by decide +kernel), by decide +kernel⟩, ⟨jNew_of (by decide +kernel), by decide +kernel⟩,
    by decide +kernel, by decide +kernel, by decide +kernel, by decide +kernel, by decide +kernel, by decide +kernel⟩

theorem witness_BackgroundSlotAtAcceptance :
    (let s := jup.setReg Reg.mbxCfg 0
     let u := s.modMb (mbxKey inst8) id
     s.instUp (mbxKey inst8) = true ∧ s.noInstance (mbxKey inst8) = false ∧ hd1.wellFormed = true ∧ takesSlot .capTest = true ∧
       (u.mb (mbxKey inst8)).state ≠ .busy ∧ (u.mb (mbxKey inst8)).held = none ∧ u.jTakes = true ∧ u.isAwake = true ∧
       (u.mb (mbxKey inst8)).lastSeq = none ∧ u.fld Reg.mbxCfg 13 8 ≤ u.slotsBusy) := by decide +kernel

end Sys2Proof.Tests
end

