-- ==== Sys2Proof/Tests/WitnessDevice.lean ====
section
/-! SUPPORT. For each statement on firmware, MGT, boot, the configuration flash, power, resets, errors and the Legacy
Aperture that has hypotheses: states and operands that meet the hypotheses of each clause. -/

namespace Sys2Proof.Tests

set_option Elab.async false

open Sys2Proof Sys2Proof.Machine

/-- LD 0 bound and privileged, and slot B in a state, in phase 8. -/
def fwUp (st : SlotState) (transfer : Option Bool) : State :=
  ({ jup with
    lds := [(0, { state := .bound })], elg := { state := .fit }
    fw := { running := false, phase := 8, transfer := transfer, b := { state := st, total := 1, image := [] } } } :
    State).setReg Reg.glbPrivLd 1

/-- PLDM in a state, its slot B. -/
def pldmIn (p : PldmState) (x : FwSlot) : State :=
  { jup with fw := { running := false, phase := 8, pldm := p, pldmSlot := true, b := x } }

/-- A production image of version 0 and SVN 0 that is no more than its header. -/
def image0 : List Byte :=
  leBytes 4 0x48574746 ++ leBytes 4 1 ++ leBytes 16 0 ++ leBytes 8 12288 ++ leBytes 8 12288 ++ leBytes 8 12288
    ++ leBytes 8 12288 ++ List.replicate 12232 0

set_option maxRecDepth 100000 in
theorem witness_FirmwareUpdateAndMgtBus :
    (let s := fwUp .empty none
     s.privLd 0 = true ∧ s.cxlMbxUp 0 = true ∧ s.objectsHeld.contains (objSlot true) = false ∧
       s.cxlFwUp (.fwTransferAbort true) = true ∧ s.transferBusy true = false ∧ (s.fwSlot true).state ≠ .active ∧
       s.fw.transfer = none) ∧
    (let s := fwUp .loading (some true)
     s.transferBusy true = false ∧ (s.fwSlot true).state = .loading ∧ s.slotErasing true = false ∧ [(1 : Byte)].length ≤ 4064 ∧
       (s.fwSlot true).image.length + [(1 : Byte)].length ≤ (s.fwSlot true).total) ∧
    (({ fwUp .loading (some true) with fw := { phase := 8, b := { state := .loading, total := 12288, image := image0 } } } :
      State).loadStatus true true = jrSuccess) ∧
    (let s := fwUp .valid none
     s.cxlFwUp (.fwActivateNextReset true) = true ∧ (s.fwSlot true).state = .valid ∧
       s.cxlFwUp (.fwActivateLive true) = true ∧ s.liveImage true = true ∧ s.liveNow = true) ∧
    (let s := pldmIn .idle {}
     s.pldmUp 8 = true ∧ s.fw.pldm = .idle ∧ s.fw.transfer = none ∧ notReady s.phase (.fwTransferAbort false) = false) ∧
    ((pldmIn .learn {}).fw.pldm = .learn ∧ (pldmIn .ready {}).fw.pldm = .ready ∧ ((pldmIn .ready {}).fwSlot true).state ≠ .active) ∧
    (let s := pldmIn .download { state := .loading, total := 3 }
     s.fw.pldm = .download ∧ s.slotErasing s.fw.pldmSlot = false ∧ [(1 : Byte)] ≠ [] ∧
       (List.replicate 2 (1 : Byte)).length + 1 = min 1024 ((s.fwSlot s.fw.pldmSlot).total - (s.fwSlot s.fw.pldmSlot).image.length)) ∧
    (let s := pldmIn .download { state := .loading, total := 1025 }
     (List.replicate 1024 (1 : Byte)).length = min 1024 ((s.fwSlot s.fw.pldmSlot).total - (s.fwSlot s.fw.pldmSlot).image.length) ∧
       (s.fwSlot s.fw.pldmSlot).image.length + (List.replicate 1024 (1 : Byte)).length < (s.fwSlot s.fw.pldmSlot).total) ∧
    (let s := pldmIn .verify { state := .loading, total := 12288, image := image0 }
     (s.fwSlot s.fw.pldmSlot).image.length = (s.fwSlot s.fw.pldmSlot).total ∧ s.fw.pldm = .verify ∧
       s.loadStatus s.fw.pldmSlot true = jrSuccess) ∧
    (pldmIn .apply {}).fw.pldm = .apply ∧ ((pldmIn .ready { state := .valid }).fwSlot true).state = .valid ∧
    ({ jup with fw := { phase := 8, activating := some true } } : State).fw.activating = some true ∧
    (let s : State := { jup with regions := [] }
     2 ≤ s.phase ∧ s.regions = []) ∧
    (({ up with twb := { eid := 9 } } : State).twb.rx.length < 8 ∧ State.pktOk { up with twb := { eid := 9 } } 0x0F (64 + 5) 9 (List.replicate 64 1) = true ∧
      ((List.replicate 64 (1 : Byte)).getD 0 0).toNat % 128 ≠ 0) ∧
    ({ up with twb := { tx := [[1]] } } : State).twb.tx = [1] :: [] ∧
    ({ up with twb := { alert := true } } : State).twb.alert = true := by decide +kernel

/-- A session that has negotiated, with a large message of 20 bytes to send. -/
def spdmUp : State :=
  { up with sec := { spdm := [(spdmKey (.mgt 8), { version := true, caps := true, algs := true, dataXfer := 64
                                                   large := [0x60, 20, 1], handle := 3 })] } }

theorem witness_BootDebugAndSpdm :
    (let t := State.reset.railsLoad
     State.reset.phase = 0 ∧ State.reset.sec.failStep = 0 ∧ t.bootFails (bootSlot t.fw != t.sec.bootSel) 0 false = 0) ∧
    up.newChallenge.sec.lifecycle = 2 ∧ (up.cmdReady Reg.secArbAdvance ∧ 255 < 256) ∧
    ((spdmUp.spdmOf (.mgt 8)).version = true ∧ (up.spdmOf (.mgt 8)).version = false ∧
      (spdmUp.spdmOf (.mgt 8)).caps = true ∧ (spdmUp.spdmOf (.mgt 8)).algs = true ∧ spdmUp.latticeOff = false ∧ 7 ≤ 7) ∧
    ((spdmUp.spdmOf (.mgt 8)).large = 0x60 :: 20 :: [1] ∧
      20 = min ((spdmUp.spdmOf (.mgt 8)).dataXfer - 16) (20 - (spdmUp.spdmOf (.mgt 8)).sent) ∧
      20 ≤ (spdmUp.spdmOf (.mgt 8)).sent + 20) := by
  unfold State.cmdReady; decide +kernel

theorem witness_BootDebugAndSpdm_certificate : 0 < chainLen := Nat.lt_of_lt_of_le Nat.zero_lt_one (Nat.le_add_right 1 _)

/-- The configuration flash in a state. -/
def eflIn (e : Efl) : State := { up with efl := e }

/-- Block 5 ERASING or SUSPENDED, its erase firmware's. -/
def erasing5 (st : EflState) (auto : Bool) : State :=
  eflIn { blocks := [(5, { state := st })], erase := some 5, eraseBy := 3, autoSusp := auto, erased := true }

/-- A record in the recorder's queue. -/
def recA : EvRec := { code := 0x0C04, severity := 1, twin := false, time := 0, p0 := 0, p1 := 0, p2 := 0, p3 := 0 }

theorem witness_ConfigFlashAndEvents :
    (up.cmdReady Reg.eflUnlock ∧ up.efl.lockout = false ∧ up.efl.seq = .locked ∧ (eflIn { seq := .key1 }).efl.seq = .key1 ∧
      (0x55AA : Word).toNat ≠ 0xAA55) ∧
    (let s := eflIn { seq := .unlocked }
     s.efl.seq = .unlocked ∧ s.isl.quiet = .awake ∧ s.isl.gated = [] ∧ s.regs = [] ∧ s.efl.prog = none ∧ s.efl.erase = none ∧ s.efl.jobs = [] ∧
       s.programErr (2 ^ 24 - 8) 0 = 0 ∧ s.eflProtected 255 = false) ∧
    ((erasing5 .erasing false).efl.erase = some 5 ∧ (erasing5 .erasing false).cmdReady Reg.eflCmd ∧
      (erasing5 .erasing false).efl.seq = .locked ∧ (erasing5 .erasing false).eflErasing = true ∧
      (erasing5 .erasing false).efl.erased = true ∧ (erasing5 .erasing false).efl.brownout = false) ∧
    ((erasing5 .suspended true).eflSuspended = true ∧ (erasing5 .suspended true).efl.prog = none ∧
      (erasing5 .suspended true).efl.autoSusp = true) ∧
    ((eflIn { prog := some { addr := 8, data := 1 } }).efl.prog = some { addr := 8, data := 1 }) ∧
    (up.efl.scanned = false ∧ up.efl.brownout = false ∧ up.efl.prog = none ∧ up.eflErasing = false) ∧
    ((eflIn { brownout := true }).efl.brownout = true ∧ (eflIn { brownout := true }).eflSuspended = false) ∧
    (up.cmdReady (Reg.evrSubmit + 16) ∧ up.efl.seq ≠ .key1) ∧
    (let s : State := { up with evr := { queue := [recA] } }
     s.evr.queue = recA :: [] ∧ s.efl.brownout = false ∧
       (State.recWrite { s with evr := { s.evr with queue := [], lostPending := false } } recA).isSome = true) ∧
    (let s : State := { jMgmt with evq := [(3, { qpn := 2, mask := 1, severity := 0, gathered := [1024] })] }
     s.evq.get? 3 = some { qpn := 2, mask := 1, severity := 0, gathered := [1024] } ∧
       ((s.qp? 2).map fun x => x.state) = some .established) := by
  unfold State.cmdReady; decide +kernel

/-- The sequencer and the rails in a state; rail 31 present in group 7, its reading checked for PG alone. -/
def pwsIn (p : Pws) : State := ({ up with pws := p } : State).setReg (railReg 31) 0xC038

theorem witness_PowerResetQuietPsbAndErrors :
    (up.pws.pwrOk = false ∧ up.pws.seq = .off ∧ up.pws.restartPending = false) ∧
    (let s := pwsIn { rails := [(31, { state := .qualified })] }
     s.railPresent 31 = true ∧ s.railInput 31 = false ∧ (s.rail 31).state = .qualified ∧ s.poweringDown = false ∧
       s.railGood 31 4095 true = true) ∧
    (let s := pwsIn { rails := [(31, { state := .ramping })] }
     (s.rail 31).state = .ramping ∧ s.poweringDown = false ∧ s.railInput 31 = false) ∧
    (((pwsIn { rails := [(31, { state := .retryWait })] }).rail 31).state = .retryWait ∧
      (pwsIn { rails := [(31, { state := .retryWait })] }).poweringDown = false ∧
      ((pwsIn { rails := [(31, { state := .discharging })] }).rail 31).state = .discharging) ∧
    (let s := pwsIn { seq := .powerUp, groupDelay := true, group := 7, complete := [0, 1, 2, 3, 4, 5, 6] }
     s.pws.seq = .powerUp ∧ s.pws.groupDelay = true ∧ s.pws.group = (7 : Fin 8).val ∧
       ((List.range 7).all fun k => s.pws.complete.contains k) = true) ∧
    (let s := pwsIn { seq := .powerUp, complete := [0] }
     s.cmdReady Reg.pwsCtl ∧ s.pws.group = 0 ∧ s.pws.complete.contains 0 = true) ∧
    (pwsIn { pwrOk := true }).pws.pwrOk = true ∧
    (let s := pwsIn { seq := .hold, pwrOk := true, down := .other }
     s.pws.seq = .hold ∧ s.pws.pwrOk = true ∧ s.pws.down = .other) ∧
    (1000 ≤ 1000 ∧ up.resetIgnored = false ∧ up.isl.quiet = .awake) ∧
    (let s : State := { up with isl := { gated := [], warm := 1 } }
     s.isl.warm ≠ 0 ∧ s.handing = false ∧ s.mediaRuns = false ∧ s.isl.quiet = .awake) ∧
    (let s : State := ({ up with elg := { state := .fit } } : State).setReg Reg.islCtl 1
     s.cmdReady Reg.islQuietCmd ∧ s.bit Reg.islCtl 0 = true ∧ s.quietOk = true ∧ up.quietOk = false) ∧
    (let s : State := { up with isl := { gated := [], quiet := .quiet } }
     s.isl.quiet = .quiet ∧ s.gated (islandOf Reg.islQuietCmd) = false ∧ s.regs.get? Reg.islQuietCmd = none) ∧
    (let s : State := { up with isl := { gated := [], quiet := .waking } }
     s.isl.quiet = .waking ∧ 500 ≤ 500 ∧ s.isl.gated = []) ∧
    (up.cmdReady Reg.twbPsbCmd ∧ up.twb.psb = .none ∧ up.twb.fwWait = false ∧ Word.bit 0x80000000 31 = true ∧
      up.cmdReady Reg.twbCtl ∧ up.twb.elgWait = []) ∧
    (let s : State := { up with twb := { psb := .firmware, stuck := [3] } }
     s.twb.psb = .firmware ∧ s.twb.tries < s.psbRetries ∧ s.twb.stuck.contains (3 : Fin 4).val = true) ∧
    up.err.meshDown.contains 0 = false ∧
    ((up.flag Reg.glbErrEvent 3).paired = false ∧
      ((({ up with twn := { mate := true } } : State).flag Reg.glbErrEvent 3).paired = true)) := by
  unfold State.cmdReady; decide +kernel

theorem witness_PowerResetQuietPsbAndErrors_sram :
    let s : State := { withQp .established with plc := { tmc := [(4, { dirty := false, used := 0 })] } }
    s.plc.tmc.get? 4 = some { dirty := false, used := 0 } ∧ s.qp? 2 = some (qpIn .established) := by decide +kernel

/-- Region 0 on this twin, the aperture enabled for LD 0, which is privileged. -/
def aperture (e : Ensign) : State :=
  ((({ up with regions := [(0, { region1 with ensign := e })], rgt := [(0, 0)], lds := [(0, { state := .active })] } :
    State).setReg Reg.lapCtl 1).setReg Reg.lapLdEn 1).setReg Reg.glbPrivLd 1

/-- An aperture write of 8 bytes at the region's start, or beyond its end. -/
def lapWr (off : Nat) : LapWr := { ld := 0, host := 0, off := off, data := List.replicate 8 1, batch := 0 }

theorem witness_LegacyAperture :
    (let s := aperture .owner
     s.bar2Up 0 = true ∧ s.lapServes 0 = true ∧ (2 ^ 30 - 8) % 8 = 0 ∧ s.lapDraining = false ∧ s.lapActive = true ∧
       (s.xlate 0 0 (s.lapOff (2 ^ 30 - 8)) 8 .read).isOk = true ∧ s.lap.staged.length < 4096 ∧
       s.lapStopped = false ∧ s.isl.quiet = .awake) ∧
    ((aperture .peerOwns).bar2Up 0 = true ∧ (aperture .peerOwns).lapServes 0 = true ∧ (aperture .peerOwns).lapActive = false) ∧
    (let s : State := { aperture .owner with lap := { staged := [lapWr 0] } }
     let t : State := { s with lap := { s.lap with staged := [] } }
     s.lap.staged = lapWr 0 :: [] ∧ (t.xlate 0 0 0 8 .write).isOk = true ∧ t.cbHit 0 0 8 = false) ∧
    (let s : State := { aperture .owner with lap := { staged := [lapWr (2 ^ 30)] } }
     s.lap.staged = lapWr (2 ^ 30) :: [] ∧ (s.xlate 0 0 (2 ^ 30) 8 .write).isOk = false) ∧
    (goodAccess Reg.lapCommit 4 = true ∧ (aperture .owner).reaches (.bar0 0) Reg.lapCommit = true) ∧
    ({ aperture .owner with lap := { openUsed := true } } : State).lap.openUsed = true ∧
    (let s : State := { aperture .owner with lap := { reads := [0] } }
     s.lap.reads = 0 :: [] ∧ s.lapClosedDone = true ∧ s.lap.failed = []) ∧
    (up.isl.quiet = .awake ∧ up.gated (islandOf Reg.lapCtl) = false ∧ up.absent Reg.lapCtl = false) ∧
    up.serves .firmware Reg.lapBase (dAt Reg.lapBase) := by
  unfold State.serves; decide +kernel

theorem witness_FwMarkedRegistersRejectHosts :
    (up.serves .mgt Reg.twnHb (dAt Reg.twnHb) ∧ goodAccess Reg.twnHb 4 = true ∧ pathFw .mgt = false ∧
      fwOwned (dAt Reg.twnHb) Reg.twnHb = true ∧ Reg.twnHb ≠ Reg.glbFwReject ∧ Reg.twnHb ≠ Reg.evrDrop) ∧
    (up.serves (.bar0 0) Reg.glbPartId (dAt Reg.glbPartId) ∧ goodAccess Reg.glbPartId 4 = true ∧
      Reg.glbPartId ≠ Reg.lapCommit ∧
      (∀ ld, RegPath.bar0 0 = .bar0 ld → Reg.glbPartId ≠ Reg.mbxPbarrier + 0x2000 * ld.val)) := by
  unfold State.serves; decide +kernel

end Sys2Proof.Tests
end

