-- ==== Sys2Proof/Tests/Slice0.lean ====
section
/-! SUPPORT. Tests: the smoke test of well-formedness, and small one-step tests whose expected results stand in the
spec's tables and worked examples. -/

namespace Sys2Proof.Tests

set_option Elab.async false

open Sys2Proof Sys2Proof.Machine

/-! ### Well-formedness: for each check of each command an ill-formed term, which the check refuses -/

def okH : JHdr := { seq := 1, tag := 1 }
def badH : JHdr := { seq := 2 ^ 32, tag := 1 }
def okP : PktHdr := { qpn := 1, psn := 1, counter := 1, bytes := 64 }
def okS : SegHdr :=
  { type := 1, segLen := 1, msgLen := 2049, msgSeq := 1, epoch := 1, segOffset := 2048, segCount := 2, counter := 1 }
def okM : MirrorMsg :=
  { region := 1, forwarded := false, atomic := false, tileSwitch := false, host := 0, entryTag := 0, pseq := 1
    psa := 0, data := [1], reqId := 0, result := 0, poison := [] }
def okF : FwdMsg :=
  { tag := 1, op := .read, host := 1, region := 1, off := 0, psa := 0, len := 1, data := [], poison := false, arg := 0
    cmp := 0, reqId := 0 }
def okB : Burgee :=
  { twin := true, state := .single, ledger := .fit, fast := false, fwMajor := 1, applianceId := 1, seq := 1, heard := 1
    time := 1, ensigns := 0, fenceSeen := 0, phase := 8 }
def okR : ConnReq :=
  { serviceId := 1, version := 1, service := 0, host := 7, qos := 0, hostQpn := 5, pmtu := 4096, psn := 1 }
def okC : CqRec := { pos := 0, tag := 0, sq := 4, note := false, status := 0, opcode := 7, result := 0, notify := false }
def okW : WcmHdr := { tag := 1, length := 16 }
def okL : LinkPeer := { twin := true, id := 1, record := true, variant := 0, fwMajor := 1 }
def okT : Target := { kind := 1, addr := 0, key := 0, ld := 0, host := 0 }

theorem test_ill_formed_headers : (!okH.wf || badH.wf || { okH with tag := 2 ^ 16 }.wf || !okP.wf ||
    { okP with qpn := 2 ^ 24 }.wf || { okP with psn := 2 ^ 24 }.wf || { okP with counter := 2 ^ 64 }.wf ||
    { okP with bytes := 2 ^ 14 }.wf || { okP with dscp := 2 ^ 6 }.wf || { okP with version := 2 ^ 8 }.wf || !okW.wf ||
    { okW with tag := 2 ^ 32 }.wf || { okW with length := 2 ^ 16 }.wf || { okW with version := 2 ^ 8 }.wf) = false := by
  decide +kernel

theorem test_ill_formed_requests : (!okR.wf || { okR with serviceId := 2 ^ 64 }.wf || { okR with version := 2 ^ 8 }.wf ||
    { okR with service := 2 ^ 8 }.wf || { okR with host := 2 ^ 16 }.wf || { okR with qos := 2 ^ 8 }.wf ||
    { okR with hostQpn := 2 ^ 24 }.wf || { okR with pmtu := 2 ^ 16 }.wf || { okR with psn := 2 ^ 24 }.wf ||
    { okR with gid := 2 ^ 128 }.wf) = false ∧ ([Verb.write (2 ^ 32) 0 [], .write 0 (2 ^ 64) [], .writeImm (2 ^ 32) 0 [] 0,
    .writeImm 0 (2 ^ 64) [] 0, .writeImm 0 0 [] (2 ^ 32), .read (2 ^ 32) 0 1, .read 0 (2 ^ 64) 1, .read 0 0 (2 ^ 32),
    .fetchAdd (2 ^ 32) 0 0, .fetchAdd 0 (2 ^ 64) 0, .fetchAdd 0 0 (2 ^ 64), .compareSwap (2 ^ 32) 0 0 0,
    .compareSwap 0 (2 ^ 64) 0 0, .compareSwap 0 0 (2 ^ 64) 0, .compareSwap 0 0 0 (2 ^ 64), .atomicWrite (2 ^ 32) 0 [],
    .atomicWrite 0 0 [1], .flush (2 ^ 32) 0 0 false, .flush 0 (2 ^ 64) 0 false, .flush 0 0 (2 ^ 32) false,
    .keepalive { okW with tag := 2 ^ 32 }, .wcm (2 ^ 8), .writeFirst (2 ^ 32) 0 0 [], .writeFirst 0 (2 ^ 64) 0 [],
    .writeFirst 0 0 (2 ^ 32) [], .writeLast [] (some (2 ^ 32)), .other (2 ^ 8)].all fun v => !v.wf) = true := by
  decide +kernel

theorem test_ill_formed_segments : (!okS.wf || { okS with type := 2 ^ 8 }.wf || { okS with segLen := 2 }.wf ||
    { okS with msgLen := 0 }.wf || { okS with msgLen := 66561 }.wf || { okS with msgSeq := 2 ^ 48 }.wf ||
    { okS with epoch := 2 ^ 16 }.wf || { okS with counter := 2 ^ 64 }.wf || { okS with version := 2 ^ 8 }.wf ||
    { okS with keySel := 2 ^ 24 }.wf || { okS with segOffset := 1 }.wf ||
    { okS with segOffset := 4096 }.wf || { okS with segCount := 1 }.wf || { okS with segLen := 0 }.wf) = false := by
  decide +kernel

theorem test_ill_formed_messages : (!okM.wf || { okM with region := 4096 }.wf || { okM with host := 2 ^ 16 }.wf ||
    { okM with entryTag := 2 ^ 16 }.wf || { okM with pseq := 2 ^ 64 }.wf || { okM with psa := 2 ^ 47 }.wf ||
    { okM with data := [] }.wf || { okM with reqId := 2 ^ 32 }.wf || { okM with result := 2 ^ 64 }.wf || !okF.wf ||
    { okF with tag := 2 ^ 16 }.wf || { okF with host := 2 ^ 16 }.wf || { okF with region := 4096 }.wf ||
    { okF with off := 2 ^ 47 }.wf || { okF with psa := 2 ^ 47 }.wf || { okF with reqId := 2 ^ 32 }.wf) = false := by
  decide +kernel

theorem test_ill_formed_1 : (([
    .registerWrite .firmware (2 ^ 64) 1 1, .registerWrite .firmware 1 (2 ^ 7) 1,
    .registerWrite .firmware 1 1 (2 ^ 64), .registerHiWrite .firmware (2 ^ 64) 0, .registerLoRead .firmware (2 ^ 64),
    .rcCounterRead .firmware (2 ^ 64) 1, .w1cFlagClear .firmware (2 ^ 64) 0 0 0,
    .badRegisterAccess .firmware false (2 ^ 64) 1, .badRegisterAccess .firmware false 1 (2 ^ 7),
    .gatedIslandAccess .firmware false (2 ^ 64) 0, .cxlMemrd 0 (2 ^ 16) 1 .none, .cxlMemrd 0 1 (2 ^ 64) .none,
    .cxlMemwr 0 (2 ^ 16) 1 (List.replicate 64 0) false, .cxlMemwr 0 1 (2 ^ 64) (List.replicate 64 0) false,
    .cxlMemwr 0 1 1 [] false, .gpfPhase2Complete 0 0 (2 ^ 64), .setLdAllocations 0 0 false (2 ^ 32),
    .fmExtentAdd 0 0 (2 ^ 64) 1 1 1, .fmExtentAdd 0 0 1 (2 ^ 64) 1 1, .fmExtentAdd 0 0 1 1 (2 ^ 12) 1,
    .fmExtentAdd 0 0 1 1 1 (2 ^ 47), .fmExtentRelease 0 (2 ^ 12) 1 1 false, .fmExtentRelease 0 1 (2 ^ 47) 1 false,
    .fmExtentRelease 0 1 1 (2 ^ 32) false, .setEventInterruptPolicy 0 (2 ^ 32), .getLog 0 false (2 ^ 64) 1,
    .getLog 0 false 1 (2 ^ 64), .transferFw 0 1 false 1 1 [] false,
    .transferFw 0 1 false 1 1 (List.replicate 4081 0) false, .getPoisonList 0 (2 ^ 64) 1, .getPoisonList 0 1 (2 ^ 64),
    .injectPoison 0 (2 ^ 64), .clearPoison 0 (2 ^ 64) (List.replicate 64 0), .clearPoison 0 1 [],
    .releaseDynamicCapacity 0 (2 ^ 64) 1, .releaseDynamicCapacity 0 1 (2 ^ 64), .setTimestamp 0 (2 ^ 64),
    .jorridVendorOpcode 0 badH .identify, .cxlMbxUnsupported 0 (2 ^ 16), .cnpReceived (2 ^ 24),
    .rateIncreaseTick (2 ^ 24), .rocePacketReceive { okP with qpn := 2 ^ 24 } (.read 0 0 1),
    .rocePacketReceive okP (.read (2 ^ 32) 0 1), .sendCounterLimit (2 ^ 24), .cmReq { okR with psn := 2 ^ 24 }] : List Instr).all fun i => !i.wf) = true := by decide +kernel

theorem test_ill_formed_2 : (([
    .cmRtu (2 ^ 24), .cmRej (2 ^ 24), .cmMra (2 ^ 24), .cmDreq (2 ^ 24) false, .cmDrep (2 ^ 24), .cmTimeout (2 ^ 24),
    .drainingTimeout (2 ^ 24), .errorTimeout (2 ^ 24), .keyHello (2 ^ 24) okW 1 1 1 1,
    .keyHello 1 { okW with tag := 2 ^ 32 } 1 1 1 1, .keyHello 1 okW (2 ^ 16) 1 1 1, .keyHello 1 okW 1 (2 ^ 16) 1 1,
    .keyHello 1 okW 1 1 (2 ^ 256) 1, .keyHello 1 okW 1 1 1 (2 ^ 9472), .keyConfirm (2 ^ 24) okW 1 1 false,
    .keyConfirm 1 { okW with tag := 2 ^ 32 } 1 1 false, .keyConfirm 1 okW (2 ^ 15616) 1 false,
    .keyConfirm 1 okW 1 (2 ^ 26472) false, .certRequest (2 ^ 24) okW, .certRequest 1 { okW with tag := 2 ^ 32 },
    .keyingTimeout (2 ^ 24), .rdmaWrite (2 ^ 24) 1 1 1 [1], .rdmaWrite 1 (2 ^ 24) 1 1 [1],
    .rdmaWrite 1 1 (2 ^ 32) 1 [1], .rdmaWrite 1 1 1 (2 ^ 64) [1], .rdmaWriteImm (2 ^ 24) 1 1 1 [1] 1,
    .rdmaWriteImm 1 (2 ^ 24) 1 1 [1] 1, .rdmaWriteImm 1 1 (2 ^ 32) 1 [1] 1, .rdmaWriteImm 1 1 1 (2 ^ 64) [1] 1,
    .rdmaWriteImm 1 1 1 1 [1] (2 ^ 32), .rdmaRead (2 ^ 24) 1 1 1 1, .rdmaRead 1 (2 ^ 24) 1 1 1,
    .rdmaRead 1 1 (2 ^ 32) 1 1, .rdmaRead 1 1 1 (2 ^ 64) 1, .rdmaRead 1 1 1 1 (2 ^ 64),
    .atomicFetchAdd (2 ^ 24) 1 1 1 0, .atomicFetchAdd 1 (2 ^ 24) 1 1 0, .atomicFetchAdd 1 1 (2 ^ 32) 1 0,
    .atomicFetchAdd 1 1 1 (2 ^ 64) 0, .atomicCompareSwap (2 ^ 24) 1 1 1 0 0, .atomicCompareSwap 1 (2 ^ 24) 1 1 0 0,
    .atomicCompareSwap 1 1 (2 ^ 32) 1 0 0, .atomicCompareSwap 1 1 1 (2 ^ 64) 0 0, .atomicWrite (2 ^ 24) 1 1 1 0,
    .atomicWrite 1 (2 ^ 24) 1 1 0] : List Instr).all fun i => !i.wf) = true := by decide +kernel

theorem test_ill_formed_3 : (([
    .atomicWrite 1 1 (2 ^ 32) 1 0, .atomicWrite 1 1 1 (2 ^ 64) 0, .rdmaFlush (2 ^ 24) 1 1 1 1 false,
    .rdmaFlush 1 (2 ^ 24) 1 1 1 false, .rdmaFlush 1 1 (2 ^ 32) 1 1 false, .rdmaFlush 1 1 1 (2 ^ 64) 1 false,
    .rdmaFlush 1 1 1 1 (2 ^ 64) false, .flushResponse (2 ^ 24) 1, .flushResponse 1 (2 ^ 24),
    .keepalive (2 ^ 24) 1 okW, .keepalive 1 (2 ^ 24) okW, .keepalive 1 1 { okW with tag := 2 ^ 32 },
    .mkeyRegister (2 ^ 24) 1 okW 1 1 1 1 1 1, .mkeyRegister 1 (2 ^ 24) okW 1 1 1 1 1 1,
    .mkeyRegister 1 1 { okW with tag := 2 ^ 32 } 1 1 1 1 1 1, .mkeyRegister 1 1 okW (2 ^ 12) 1 1 1 1 1,
    .mkeyRegister 1 1 okW 1 (2 ^ 16) 1 1 1 1, .mkeyRegister 1 1 okW 1 1 (2 ^ 8) 1 1 1,
    .mkeyRegister 1 1 okW 1 1 1 (2 ^ 47) 1 1, .mkeyRegister 1 1 okW 1 1 1 1 (2 ^ 64) 1,
    .mkeyRegister 1 1 okW 1 1 1 1 1 (2 ^ 64), .mkeyInvalidate (2 ^ 24) 1 okW 1, .mkeyInvalidate 1 (2 ^ 24) okW 1,
    .mkeyInvalidate 1 1 { okW with tag := 2 ^ 32 } 1, .mkeyInvalidate 1 1 okW (2 ^ 32),
    .wcmJorrid (2 ^ 24) 1 okW okH .identify, .wcmJorrid 1 (2 ^ 24) okW okH .identify,
    .wcmJorrid 1 1 { okW with tag := 2 ^ 32 } okH .identify, .wcmJorrid 1 1 okW badH .identify, .leaseLapse (2 ^ 16),
    .leaseRecordFree (2 ^ 16), .requesterAckTimeout (2 ^ 24), .requesterAckReceived (2 ^ 24),
    .promotionSwitch (2 ^ 35) [], .promoWaitOver (2 ^ 35), .evictionSwitch (2 ^ 35), .relocationSwitch (2 ^ 35),
    .hlcFillComplete (2 ^ 35) 0 0 false 0, .hlcEvbWriteComplete (2 ^ 35) 0, .hlcClean (2 ^ 35) 0,
    .hlcWritebackDone (2 ^ 35) 0 0, .linkHello { okL with id := 2 ^ 64 } 1 1 false,
    .linkHello { okL with fwMajor := 2 ^ 8 } 1 1 false, .linkHello okL (2 ^ 256) 1 false,
    .linkHello okL 1 (2 ^ 9472) false] : List Instr).all fun i => !i.wf) = true := by decide +kernel

theorem test_ill_formed_4 : (([
    .linkReply { okL with id := 2 ^ 64 } 1 1 1 false, .linkReply { okL with fwMajor := 2 ^ 8 } 1 1 1 false,
    .linkReply okL (2 ^ 256) 1 1 false, .linkReply okL 1 (2 ^ 8704) 1 false, .linkReply okL 1 1 (2 ^ 26472) false,
    .linkConfirm (2 ^ 26472) false, .shaumSegmentReceive 0 { okS with msgLen := 0 } false false (.ack [1]),
    .reassemblyTimerExpiry (2 ^ 48), .messageResendTimeout (2 ^ 48), .mirror (2 ^ 48) okM,
    .mirror 1 { okM with data := [] }, .shaumAck [], .shaumAck (List.replicate 64 0), .shaumAck [2 ^ 48],
    .forward (2 ^ 48) okF, .forward 1 { okF with tag := 2 ^ 16 }, .fwdReply (2 ^ 48) 1 false 1,
    .fwdReply 1 (2 ^ 16) false 1, .readReq (2 ^ 48) 1 1 1 1 1, .readReq 1 (2 ^ 16) 1 1 1 1,
    .readReq 1 1 (2 ^ 12) 1 1 1, .readReq 1 1 1 (2 ^ 64) 1 1, .readReq 1 1 1 1 (2 ^ 47) 1,
    .readReq 1 1 1 1 1 (2 ^ 64), .readData (2 ^ 48) 1 [1] [], .readData 1 (2 ^ 16) [1] [], .readData 1 1 [] [],
    .readData 1 1 (List.replicate 65537 0) [], .promoHint (2 ^ 48) 1, .promoHint 1 (2 ^ 35), .tilePull (2 ^ 48) 1,
    .tilePull 1 (2 ^ 35), .tileData (2 ^ 48) 1 (List.replicate 4096 0) (List.replicate 64 {}) false,
    .tileData 1 (2 ^ 35) (List.replicate 4096 0) (List.replicate 64 {}) false,
    .tileData 1 1 [] (List.replicate 64 {}) false, .tileData 1 1 (List.replicate 4096 0) [] false,
    .ensignOffer (2 ^ 48) 1 1, .ensignOffer 1 (2 ^ 12) 1, .ensignOffer 1 1 (2 ^ 64), .ensignAccept (2 ^ 48) 1,
    .ensignAccept 1 (2 ^ 12), .control (2 ^ 48) [], .cqRelay (2 ^ 48) 1 1 okC, .cqRelay 1 (2 ^ 12) 1 okC,
    .cqRelay 1 1 (2 ^ 64) okC] : List Instr).all fun i => !i.wf) = true := by decide +kernel

theorem test_ill_formed_5 : (([
    .verify (2 ^ 48) 1 1 1, .verify 1 (2 ^ 35) 1 1, .verify 1 1 (2 ^ 32) 1, .verify 1 1 1 (2 ^ 64),
    .verifyReply (2 ^ 48) 1 1 1, .verifyReply 1 (2 ^ 35) 1 1, .verifyReply 1 1 (2 ^ 32) 1,
    .verifyReply 1 1 1 (2 ^ 64), .peerMbx (2 ^ 48) okH none {}, .peerMbx 1 badH none {}, .segNak (2 ^ 48) 1,
    .segNak 1 (2 ^ 64), .resyncCtl (2 ^ 48) 1 1 false [1], .resyncCtl 1 (2 ^ 12) 1 false [1],
    .resyncCtl 1 1 (2 ^ 64) false [1], .watchSample (2 ^ 35), .identify .peer badH, .getStatus .peer badH,
    .abort .peer badH, .setTime .peer badH 1, .setTime .peer okH (2 ^ 64), .resetWarm .peer badH,
    .plannedHandoff .peer badH [1] false, .setMode .peer badH false, .relay .peer badH okH .identify,
    .relay .peer okH badH .identify, .regRead .peer badH 1 1, .regRead .peer okH (2 ^ 64) 1,
    .regRead .peer okH 1 (2 ^ 16), .regWrite .peer badH [], .regionCreate .peer badH 1 1 1 false false .none,
    .regionCreate .peer okH (2 ^ 12) 1 1 false false .none, .regionCreate .peer okH 1 1 (2 ^ 4) false false .none,
    .regionResize .peer badH 1 1, .regionResize .peer okH (2 ^ 12) 1, .regionDelete .peer badH 1,
    .regionDelete .peer okH (2 ^ 12), .regionSetPolicy .peer badH 1 .none [],
    .regionSetPolicy .peer okH (2 ^ 12) .none [], .regionSetAttr .peer badH 1 1 false false,
    .regionSetAttr .peer okH (2 ^ 12) 1 false false, .regionSetAttr .peer okH 1 (2 ^ 4) false false,
    .regionForceOnline .peer badH 1 false, .regionForceOnline .peer okH (2 ^ 12) false, .regionInfo .peer badH 1] : List Instr).all fun i => !i.wf) = true := by decide +kernel

theorem test_ill_formed_6 : (([
    .regionInfo .peer okH (2 ^ 12), .ldBind .peer badH 1 1, .ldBind .peer okH (2 ^ 5) 1, .ldBind .peer okH 1 (2 ^ 16),
    .ldUnbind .peer badH 1, .ldUnbind .peer okH (2 ^ 5), .setDurability .peer badH 1 false,
    .setDurability .peer okH (2 ^ 5) false, .extentAdd .peer badH 1 1 1 1 1 1, .extentAdd .peer okH (2 ^ 5) 1 1 1 1 1,
    .extentAdd .peer okH 1 (2 ^ 3) 1 1 1 1, .extentAdd .peer okH 1 1 (2 ^ 64) 1 1 1,
    .extentAdd .peer okH 1 1 1 (2 ^ 64) 1 1, .extentAdd .peer okH 1 1 1 1 (2 ^ 12) 1,
    .extentAdd .peer okH 1 1 1 1 1 (2 ^ 47), .extentRelease .peer badH 1 1 1 1 false,
    .extentRelease .peer okH (2 ^ 5) 1 1 1 false, .extentRelease .peer okH 1 (2 ^ 12) 1 1 false,
    .extentRelease .peer okH 1 1 (2 ^ 47) 1 false, .extentRelease .peer okH 1 1 1 (2 ^ 32) false,
    .notifyVector .peer badH 1 1 1, .notifyVector .peer okH (2 ^ 5) 1 1, .notifyVector .peer okH 1 (2 ^ 16) 1,
    .leaseGrant .peer badH 1 1 false none none, .leaseGrant .peer okH (2 ^ 16) 1 false none none,
    .leaseChange .peer badH 1 1 false 1 1, .leaseChange .peer okH (2 ^ 16) 1 false 1 1, .leaseRevoke .peer badH 1,
    .leaseRevoke .peer okH (2 ^ 16), .mkeyRegisterFor .peer badH 1 1 1 1 1 1 1,
    .mkeyRegisterFor .peer okH (2 ^ 16) 1 1 1 1 1 1, .mkeyRegisterFor .peer okH 1 (2 ^ 12) 1 1 1 1 1,
    .mkeyRegisterFor .peer okH 1 1 (2 ^ 16) 1 1 1 1, .mkeyRegisterFor .peer okH 1 1 1 (2 ^ 8) 1 1 1,
    .mkeyRegisterFor .peer okH 1 1 1 1 (2 ^ 47) 1 1, .mkeyRegisterFor .peer okH 1 1 1 1 1 (2 ^ 64) 1,
    .mkeyRegisterFor .peer okH 1 1 1 1 1 1 (2 ^ 64), .mkeyInvalidateFor .peer badH 1,
    .mkeyInvalidateFor .peer okH (2 ^ 32), .sqCreate .peer badH 1 1 1 1 1 none false,
    .sqCreate .peer okH (2 ^ 12) 1 1 1 1 none false, .sqCreate .peer okH 1 (2 ^ 16) 1 1 1 none false,
    .sqCreate .peer okH 1 1 (2 ^ 64) 1 1 none false, .sqCreate .peer okH 1 1 1 (2 ^ 8) 1 none false,
    .sqCreate .peer okH 1 1 1 1 (2 ^ 12) none false] : List Instr).all fun i => !i.wf) = true := by decide +kernel

theorem test_ill_formed_7 : (([
    .sqDelete .peer badH 1, .sqDelete .peer okH (2 ^ 12), .sqStop .peer badH 1, .sqStop .peer okH (2 ^ 12),
    .sqResume .peer badH 1, .sqResume .peer okH (2 ^ 12), .sqReset .peer badH 1, .sqReset .peer okH (2 ^ 12),
    .cqCreate .peer badH 1 1 1 1 okT okT 1 none, .cqCreate .peer okH (2 ^ 12) 1 1 1 okT okT 1 none,
    .cqCreate .peer okH 1 (2 ^ 16) 1 1 okT okT 1 none, .cqCreate .peer okH 1 1 (2 ^ 64) 1 okT okT 1 none,
    .cqCreate .peer okH 1 1 1 (2 ^ 8) okT okT 1 none, .cqCreate .peer okH 1 1 1 1 okT okT (2 ^ 16) none,
    .cqDelete .peer badH 1, .cqDelete .peer okH (2 ^ 12), .cqSetTarget .peer badH 1 false okT,
    .cqSetTarget .peer okH (2 ^ 12) false okT, .twinRelease .peer badH, .twinTakeover .peer badH,
    .twinRetrain .peer badH, .scrubStart .peer badH 1 1 1 1, .capTest .peer badH, .savePlanned .peer badH,
    .eventRead .peer badH 1 1, .eventRead .peer okH 1 (2 ^ 16), .eventQueueSet .peer badH 1 1 1 1,
    .eventQueueSet .peer okH (2 ^ 8) 1 1 1, .eventQueueSet .peer okH 1 (2 ^ 24) 1 1, .fwInfo .peer badH,
    .fwTransferInitiate .peer badH false 1, .fwTransferContinue .peer badH false 1 [1],
    .fwTransferContinue .peer okH false 1 [], .fwTransferContinue .peer okH false 1 (List.replicate 4081 0),
    .fwTransferEnd .peer badH false false, .fwTransferAbort .peer badH false, .fwActivateLive .peer badH false,
    .fwActivateNextReset .peer badH false, .provision .peer badH false 1 [] false,
    .provision .peer okH false (2 ^ 64) [] false, .jorridAccept .peer badH .identify, .mctpEndpointIdle (2 ^ 8),
    .queryDeviceIdentifiers (2 ^ 8), .getFirmwareParameters (2 ^ 8), .pldmGetStatus (2 ^ 8)] : List Instr).all fun i => !i.wf) = true := by decide +kernel

theorem test_ill_formed_8 : (([
    .requestUpdate (2 ^ 8) 1, .passComponentTable (2 ^ 8) 1, .passComponentTable 1 (2 ^ 32),
    .updateComponent (2 ^ 8) false 1, .cancelUpdateComponent (2 ^ 8), .cancelUpdate (2 ^ 8),
    .requestFirmwareData (2 ^ 8) [1], .transferComplete (2 ^ 8), .verifyComplete (2 ^ 8) false,
    .applyComplete (2 ^ 8), .activateFirmware (2 ^ 8) false, .secArbAdvance .firmware (2 ^ 8),
    .getCertificate (.mgt 1) (2 ^ 8) 1 1, .getCertificate (.mgt 1) 1 (2 ^ 64) 1,
    .getCertificate (.mgt 1) 1 1 (2 ^ 64), .challenge (.mgt 1) (2 ^ 8) 1, .challenge (.mgt 1) 1 (2 ^ 256),
    .getMeasurements (.mgt 1) 1 (2 ^ 256) false, .resetNAssert (2 ^ 64),
    .mgtBlockWrite (2 ^ 8) 1 1 1 1 1 false false false [1], .mgtBlockWrite 1 (2 ^ 16) 1 1 1 1 false false false [1],
    .mgtBlockWrite 1 1 (2 ^ 8) 1 1 1 false false false [1], .mgtBlockWrite 1 1 1 (2 ^ 8) 1 1 false false false [1],
    .mgtBlockWrite 1 1 1 1 (2 ^ 16) 1 false false false [1], .mgtBlockWrite 1 1 1 1 1 (2 ^ 8) false false false [1],
    .mgtBlockWrite 1 1 1 1 1 1 false false false [],
    .mgtBlockWrite 1 1 1 1 1 1 false false false (List.replicate 70 0), .setEndpointId (2 ^ 8) 1,
    .setEndpointId 1 (2 ^ 8), .getEndpointId (2 ^ 8), .getMctpVersionSupport (2 ^ 8), .getMessageTypeSupport (2 ^ 8),
    .getVendorDefinedMessageSupport (2 ^ 8), .bar2Read 0 (2 ^ 16) 1 1, .bar2Read 0 1 (2 ^ 64) 1,
    .bar2Read 0 1 1 (2 ^ 7), .bar2Write 0 (2 ^ 64) 1 [1], .bar2Write 0 1 (2 ^ 7) [1]] : List Instr).all fun i => !i.wf) = true := by decide +kernel

theorem test_well_formed_1 : (([
    .registerWrite .firmware 1 1 1, .registerHiWrite .firmware 1 0, .registerLoRead .firmware 1,
    .rcCounterRead .firmware 1 1, .w1cFlagClear .firmware 1 0 0 0, .badRegisterAccess .firmware false 1 1,
    .gatedIslandAccess .firmware false 1 0, .cxlMemrd 0 1 1 .none, .cxlMemwr 0 1 1 (List.replicate 64 0) false,
    .gpfPhase2Complete 0 0 1, .setLdAllocations 0 0 false 1, .fmExtentAdd 0 0 1 1 1 1, .fmExtentRelease 0 1 1 1 false,
    .setEventInterruptPolicy 0 1, .getLog 0 false 1 1, .transferFw 0 1 false 1 1 [1] false, .getPoisonList 0 1 1,
    .injectPoison 0 1, .clearPoison 0 1 (List.replicate 64 0), .releaseDynamicCapacity 0 1 1, .setTimestamp 0 1,
    .jorridVendorOpcode 0 okH .identify, .cxlMbxUnsupported 0 1, .cnpReceived 1, .rateIncreaseTick 1,
    .rocePacketReceive okP (.read 0 0 1), .sendCounterLimit 1, .cmReq okR, .cmRtu 1, .cmRej 1, .cmMra 1,
    .cmDreq 1 false, .cmDrep 1, .cmTimeout 1, .drainingTimeout 1, .errorTimeout 1, .keyHello 1 okW 1 1 1 1,
    .keyConfirm 1 okW 1 1 false, .certRequest 1 okW, .keyingTimeout 1, .rdmaWrite 1 1 1 1 [1],
    .rdmaWriteImm 1 1 1 1 [1] 1, .rdmaRead 1 1 1 1 1, .atomicFetchAdd 1 1 1 1 0, .atomicCompareSwap 1 1 1 1 0 0,
    .atomicWrite 1 1 1 1 0, .rdmaFlush 1 1 1 1 1 false, .flushResponse 1 1, .keepalive 1 1 okW,
    .mkeyRegister 1 1 okW 1 1 1 1 1 1, .mkeyInvalidate 1 1 okW 1, .wcmJorrid 1 1 okW okH .identify, .leaseLapse 1,
    .leaseRecordFree 1, .requesterAckTimeout 1, .requesterAckReceived 1, .promotionSwitch 1 [], .promoWaitOver 1,
    .evictionSwitch 1, .relocationSwitch 1] : List Instr).all Instr.wf) = true := by decide +kernel

theorem test_well_formed_2 : (([
    .hlcFillComplete 1 0 0 false 0, .hlcEvbWriteComplete 1 0, .hlcClean 1 0, .hlcWritebackDone 1 0 0,
    .linkHello okL 1 1 false, .linkReply okL 1 1 1 false, .linkConfirm 1 false,
    .shaumSegmentReceive 0 okS false false (.ack [1]), .reassemblyTimerExpiry 1, .messageResendTimeout 1,
    .mirror 1 okM, .shaumAck [1], .forward 1 okF, .fwdReply 1 1 false 1, .readReq 1 1 1 1 1 1, .readData 1 1 [1] [],
    .promoHint 1 1, .tilePull 1 1, .tileData 1 1 (List.replicate 4096 0) (List.replicate 64 {}) false,
    .ensignOffer 1 1 1, .ensignAccept 1 1, .control 1 [], .cqRelay 1 1 1 okC, .verify 1 1 1 1, .verifyReply 1 1 1 1,
    .peerMbx 1 okH none {}, .segNak 1 1, .resyncCtl 1 1 1 false [1], .watchSample 1, .identify .peer okH,
    .getStatus .peer okH, .abort .peer okH, .setTime .peer okH 1, .resetWarm .peer okH,
    .plannedHandoff .peer okH [1] false, .setMode .peer okH false, .relay .peer okH okH .identify,
    .regRead .peer okH 1 1, .regWrite .peer okH [], .regionCreate .peer okH 1 1 1 false false .none,
    .regionResize .peer okH 1 1, .regionDelete .peer okH 1, .regionSetPolicy .peer okH 1 .none [],
    .regionSetAttr .peer okH 1 1 false false, .regionForceOnline .peer okH 1 false, .regionInfo .peer okH 1,
    .ldBind .peer okH 1 1, .ldUnbind .peer okH 1, .setDurability .peer okH 1 false, .extentAdd .peer okH 1 1 1 1 1 1,
    .extentRelease .peer okH 1 1 1 1 false, .notifyVector .peer okH 1 1 1, .leaseGrant .peer okH 1 1 false none none,
    .leaseChange .peer okH 1 1 false 1 1, .leaseRevoke .peer okH 1, .mkeyRegisterFor .peer okH 1 1 1 1 1 1 1,
    .mkeyInvalidateFor .peer okH 1, .sqCreate .peer okH 1 1 1 1 1 none false, .sqDelete .peer okH 1,
    .sqStop .peer okH 1] : List Instr).all Instr.wf) = true := by decide +kernel

theorem test_well_formed_3 : (([
    .sqResume .peer okH 1, .sqReset .peer okH 1, .cqCreate .peer okH 1 1 1 1 okT okT 1 none, .cqDelete .peer okH 1,
    .cqSetTarget .peer okH 1 false okT, .twinRelease .peer okH, .twinTakeover .peer okH, .twinRetrain .peer okH,
    .scrubStart .peer okH 1 1 1 1, .capTest .peer okH, .savePlanned .peer okH, .eventRead .peer okH 1 1,
    .eventQueueSet .peer okH 1 1 1 1, .fwInfo .peer okH, .fwTransferInitiate .peer okH false 1,
    .fwTransferContinue .peer okH false 1 [1], .fwTransferEnd .peer okH false false, .fwTransferAbort .peer okH false,
    .fwActivateLive .peer okH false, .fwActivateNextReset .peer okH false, .provision .peer okH false 1 [] false,
    .jorridAccept .peer okH .identify, .mctpEndpointIdle 1, .queryDeviceIdentifiers 1, .getFirmwareParameters 1,
    .pldmGetStatus 1, .requestUpdate 1 1, .passComponentTable 1 1, .updateComponent 1 false 1,
    .cancelUpdateComponent 1, .cancelUpdate 1, .requestFirmwareData 1 [1], .transferComplete 1,
    .verifyComplete 1 false, .applyComplete 1, .activateFirmware 1 false, .secArbAdvance .firmware 1,
    .getCertificate (.mgt 1) 1 1 1, .challenge (.mgt 1) 1 1, .getMeasurements (.mgt 1) 1 1 false, .resetNAssert 1,
    .mgtBlockWrite 1 1 1 1 1 1 false false false [1], .setEndpointId 1 1, .getEndpointId 1, .getMctpVersionSupport 1,
    .getMessageTypeSupport 1, .getVendorDefinedMessageSupport 1, .bar2Read 0 1 1 1, .bar2Write 0 1 1 [1]] : List Instr).all Instr.wf) = true := by decide +kernel

/-! ### Codes and addresses: the check values and worked examples of the spec -/

/-- The bytes of "123456789". -/
def digits : List Byte := [0x31, 0x32, 0x33, 0x34, 0x35, 0x36, 0x37, 0x38, 0x39]

/-- The check values of R223 and of R55. -/
theorem test_crc_check_values : crcPoly 0 digits = 0xE3069283 ∧ crcPoly 1 digits = 0xCBF43926 ∧ crcPoly 2 digits = 0xD0DB ∧
    crcPoly 3 digits = 0xAE8B14860A799888 ∧ crc32c digits = 0xE3069283 ∧ crc8 digits = 0xF4 := by decide +kernel

/-- What a command leaves, where it answers a next state. -/
def after (c : Instr) (s : State) : State := match exec c s with
  | .next t => t
  | _ => s

/-- The firmware CRC unit of the example after R226: CRC-32C, fed "1234", "5678" and "9". -/
theorem test_crc_unit :
    (let s := (((up.setReg Reg.crcFwCfg 0x1A0).setReg64 Reg.crcFwPolyLo 0x1EDC6F41).setReg64 Reg.crcFwInitLo
      0xFFFFFFFF).setReg64 Reg.crcFwXoroutLo 0xFFFFFFFF
     let t := after (.crcFwData32 .firmware 0x34333231) (after (.crcFwLoad .firmware) s)
     (after (.crcFwData8 .firmware 0x39) (after (.crcFwData32 .firmware 0x38373635) t)).shows Reg.crcFwResultLo = 0xE3069283)
    := by decide +kernel

/-- Chapter 2's worked example: region 7's granule 33 is PSA granule 14,850. -/
def racRegion : State :=
  { up with
    regions := [(7, { state := .online, size := 40, dflt := .readWrite, rgtBase := 0 })], rgt := [(33, 14850)]
    mkeys := [(0x123, { live := true, gen := 0x4A, tag := 0x5C, region := 7, rof := 2 ^ 35, va := 0x7F0000000000
                        len := 2 ^ 32, host := 7, verbs := 2 })] }

theorem test_rdma_write_translates :
    racRegion.rdmaWhere (qpIn .established) 0x01234A5C 1 0x7F0040002800 8192 .write =
      .ok (7, 0x840002800, [(14850 * 2 ^ 30 + 10240, 8192)]) ∧
    tilesOf (14850 * 2 ^ 30 + 10240) 8192 = [3892838402, 3892838403, 3892838404] :=
  ⟨eq_ok (by decide +kernel), by decide +kernel⟩

/-- A stale generation does not match (R53). -/
theorem test_rdma_key_generation :
    racRegion.rdmaWhere (qpIn .established) 0x01234B5C 1 0x7F0040002800 8192 .write = .error .path := rfl

/-- Chapter 8's worked example: line 9 of frame 0x0200_0145 lies in channel 12; sector 2 of it has CA 0x2_0001_4580. -/
theorem test_dram_line : chOfLine 0x02000145 9 = 12 ∧ caOf 0x02000145 2 = 0x200014580 / 64 := by decide +kernel

/-- Chapter 9's worked example: the tile address 0x1_2262_5DDD has SET 9, CWX 5,000,123, SLOT 5 and lies in logical block
1,085, which is stripe block 271, at 4 planes of 1,152 pages of 4 codewords. -/
theorem test_flash_address :
    (let s := (up.setReg Reg.fmcGeom0 (w32 (32 + 8 * 2 ^ 10 + 4 * 2 ^ 15 + 4 * 2 ^ 20))).setReg Reg.fmcGeom1
      (w32 (14560 * 2 ^ 16 + 1152))
     locSet 0x122625DDD = 9 ∧ bitsOf 0x122625DDD 28 3 = 5000123 ∧ 0x122625DDD % 8 = 5 ∧ s.cwPerBlock = 4608 ∧
       s.locBlock 0x122625DDD = 1085 / 4 ∧ s.sets = 32 ∧ s.pslcTiles = 49152 ∧ s.sbPerSet = 3640) := by decide +kernel

/-- Chapter 10's arithmetic at RAC for a module: 48.0 V, VCUT 20 V, ETA 188/256, COST 5,900 nJ, E_DRAIN 89 J, 15 %. -/
def racLedger (mf : Nat) : State :=
  (((((((up.setReg Reg.elgVmv 48000).setReg Reg.elgModule (w32 (20000 * 2 ^ 16 + 188 * 2 ^ 8))).setReg Reg.elgCost
    5900).setReg Reg.elgMapTiles 25165824).setReg Reg.elgSaveCfg (w32 (89 * 2 ^ 8 + 20))).setReg Reg.elgReserve 15).setReg
    Reg.elgCap (w32 mf)).setReg Reg.elgTempC 25 |>.recomputeEnergy

theorem test_ledger_new_module :
    (racLedger 6000).elg.eAvail = 4194750 ∧ (racLedger 6000).limitNj / 10 ^ 6 = 3565537 ∧
      (racLedger 6000).fixedNj = 240 * 10 ^ 9 ∧ (racLedger 6000).covered = 563650423 := by decide +kernel

theorem test_ledger_end_of_life :
    (racLedger 4800).elg.eAvail = 3355800 ∧ (racLedger 4800).limitNj / 10 ^ 6 = 2852430 ∧
      (racLedger 4800).covered = 442784745 := by decide +kernel

/-- P_SAVE 115 W at 19,500,000 tiles/s is 5,900 nJ a tile (R405). -/
theorem test_tile_cost : costOf 115000 19500000 = 5900 := by decide +kernel

/-! ### Registers -/

/-- Reset values: R63, R115, R116 and R489. -/
theorem test_reset_values : up.shows Reg.glbPartId = 0x09600100 ∧ up.reg Reg.cxTrackLimit = 0x800 ∧
    up.reg Reg.cxStageLimit = 0x4000 ∧ up.reg Reg.twnHb = w32 (2 * 2 ^ 25 + 0xA * 2 ^ 18 + 0xA * 2 ^ 11 + 3 * 2 ^ 7 + 0xA) ∧
    up.reg Reg.twnFence = w32 (2 ^ 25 + 0x14 * 2 ^ 16 + 2 * 2 ^ 8 + 0xA) ∧ up.reg Reg.fmcProg = w32 (5 * 2 ^ 16 + 0x1F4) := by
  decide +kernel

/-- A tracker limit of 1,000 is rounded down to 768, and one of 100 clamped to 256 (R93, R115). -/
theorem test_tracker_limit_clamps :
    (after (.registerWrite .firmware Reg.cxTrackLimit 4 1000) up).reg Reg.cxTrackLimit = 768 ∧
      (after (.registerWrite .firmware Reg.cxTrackLimit 4 100) up).reg Reg.cxTrackLimit = 256 := by decide +kernel

/-- A host's write of it is rejected and counted once (R14). -/
theorem test_host_write_rejected :
    (let t := after (.registerWrite .mgt Reg.cxTrackLimit 4 256) up
     t.reg Reg.cxTrackLimit = 0x800 ∧ t.reg Reg.glbFwReject = 1) := by decide +kernel

/-- A 2-byte access is counted and changes nothing (R59). -/
theorem test_bad_access :
    (let t := after (.registerWrite .firmware Reg.cxTrackLimit 2 256) up
     t.reg Reg.cxTrackLimit = 0x800 ∧ t.reg Reg.glbBadAccess = 1) := by decide +kernel

/-! ### States that the spec's tables name -/

/-- Quarantine's end raises the generation modulo 128 (R153). -/
theorem test_generation_wraps :
    (let s : State := { up with rdx := { qps := [(2, qpIn .quarantine)], gens := [(2, 127)], nextIdx := 3 } }
     (after (.quarantineEnd false 2) s).genOf 2 = 0 ∧ (after (.quarantineEnd false 2) s).rdx.freed = [2]) := by decide +kernel

/-- RTU takes CONNECTING to KEYING; DREP takes ERROR to QUARANTINE (R154). -/
theorem test_qp_states :
    ((after (.cmRtu 2) (withQp .connecting)).qp? 2).map (fun q => q.state) = some .keying ∧
      ((after (.cmDrep 2) (withQp .error)).qp? 2).map (fun q => q.state) = some .quarantine := by decide +kernel

/-- 0xAA55 and then 0x55AA unlock the EFL; a wrong first key locks it (R568). -/
theorem test_efl_unlock :
    (after (.eflUnlock .firmware 0x55AA) (after (.eflUnlock .firmware 0xAA55) up)).efl.seq = .unlocked ∧
      (after (.eflUnlock .firmware 0x1234) up).efl.seq = .locked := by decide +kernel

/-- The anti-rollback counter never falls (R559). -/
theorem test_arb : (after (.secArbAdvance .firmware 3) { up with sec := { arb := 9 } }).sec.arb = 9 ∧
    (after (.secArbAdvance .firmware 10) { up with sec := { arb := 9 } }).sec.arb = 10 := by decide +kernel

/-- GPF Phase 1 is acknowledged at once (R99). -/
theorem test_gpf_phase1 : (after (.gpfPhase1 1 0) up).out = [.gpfAck 1 0 1] := by decide +kernel

/-- An ACK releases what it names and nothing else (R447). -/
theorem test_shaum_ack :
    (let s : State := { up with twn := { link := .up, tx := [(4, { msg := .ack [1] }), (5, { msg := .ack [2] })] } }
     (after (.shaumAck [4]) s).twn.tx.keys = [5]) := by decide +kernel

/-- An uncorrectable FEC codeword sets its port's flag and no other port's (R181). -/
theorem test_fec : (after (.fecUncorr 2) up).bit (Reg.netPortEvent + 32) 1 = true ∧
    (after (.fecUncorr 2) up).bit (Reg.netPortEvent + 16) 1 = false := by decide +kernel

/-- A step takes the command at the front, and leaves the others waiting. -/
theorem test_queue_order :
    (match step { up with pending := [.gpfPhase1 0 0, .gpfPhase1 0 1] } with
      | .next t => decide (t.pending = [.gpfPhase1 0 1]) && decide (t.out = [.gpfAck 0 0 1])
      | _ => false) = true := by decide +kernel

/-- No row of the table has bits, so no word spells a command and the queue stays as it is. -/
theorem test_no_words : decodeTableWord 32 5 = none ∧ up.withFetchWord 32 5 = up := by decide +kernel

end Sys2Proof.Tests
end

