-- ==== Sys2Proof/Tests/WitnessCommands.lean ====
section
/-! SUPPORT. For each statement on what the Jorrid commands do: states and operands in which each command runs, and in
which the condition of its clause holds. -/

namespace Sys2Proof.Tests

set_option Elab.async false

open Sys2Proof Sys2Proof.Machine

/-- An entry of ring 5 that goes to LD 0. -/
def toLd : Target := { kind := 1, addr := 0, key := 0, ld := 0, host := 0 }

/-- The ring 5 and queue 4 of the tests, ACTIVE, STOPPED or in ERROR. -/
def sqIn (st : SqState) : Sq :=
  { host := 7, region := 1, base := 2 ^ 29, log2 := 4, cq := 5, maint := false, limit := 64, state := st }

/-- Ring 5. -/
def ring5 : Cq :=
  { host := 7, region := 1, base := 0, log2 := 4, t0 := toLd, t1 := toLd, vector := 2, window := 0 }

/-- The objects that the commands name: an LD in a state with LD_EN, an extent, a lease, a key, queue 4 and ring 5. -/
def objs (st : LdState) (q : SqState) : State :=
  ({ jup with
    lds := [(0, { state := st, bound := (match st with | .unbound => none | _ => some 0) })]
    extents := [(0, { ld := 0, dcRegion := 0, dpa := 0, len := 2 ^ 30, region := 1, rof := 0, gen := 1, pending := false })]
    leases := [(0x20, { cred := 3, mgmt := false, maxQp := 4, maxMkey := 4 })]
    mkeys := [(1, { live := true, gen := 0, tag := 0, region := 1, rof := 0, va := 0, len := 2 ^ 30, host := 0x20, verbs := 15 })]
    sqs := [(4, sqIn q)], cqs := [(5, ring5)] } : State).setReg (ldReg Reg.cxLdCtl 0) 1

theorem witness_JorridDeviceAndRegions :
    (∀ c ∈ [.identify, .setTime 0, .resetWarm, .plannedHandoff [] true, .setMode true, .relay hd1 .identify, .regRead 0 512,
        .regWrite [(Reg.twnHb, 0)], .regionCreate 4095 1 7 true true .none, .regionResize 1 1, .regionResize 1 2,
        .regionDelete 1, .regionSetPolicy 1 .read [(0xFFFE, .none)], .regionSetAttr 1 7 true true,
        .regionForceOnline 1 false, .regionInfo 1, .provision false 1 [] false],
      jup.jRuns (mbxKey inst8) hd1 c) ∧
    ({ acc jup (.plannedHandoff [] true) with twn := { mate := true } }.paired = true ∧
      (acc jup (.plannedHandoff [] true)).paired = false) ∧
    (let s : State := { jup with twn := { mate := true } }
     (acc s (.relay hd1 .identify)).paired = true ∧
       (State.modMb (acc s (.relay hd1 .identify)) (mbxKey inst8) fun m => { m with step := 2 }).relaying = false) ∧
    (0 < 512 ∧ 512 ≤ 512 ∧ (2 ^ 26 - 2048) % 4 = 0 ∧ 2 ^ 26 - 2048 + 4 * 512 ≤ 2 ^ 26 ∧ goodAccess Reg.twnHb 4 = true) ∧
    (let t := acc jup (.regionCreate 4095 1 7 true true .none)
     t.regions.get? 4095 = none ∧ (t.takeGranules 1).isSome = true ∧ (t.freeBase 1).isSome = true ∧ t.sec.entropyOk = true) ∧
    (let s : State := { jup with regions := [(1, { region1 with size := 2 })], rgt := [(0, 0), (1, 1)] }
     (acc s (.regionResize 1 1)).regionLives 1 = true ∧ 1 < ((acc s (.regionResize 1 1)).region 1).size ∧
       (acc s (.regionResize 1 1)).coveredFrom 1 (1 * gib) = false) ∧
    ((acc jup (.regionResize 1 2)).regionLives 1 = true ∧ ((acc jup (.regionResize 1 2)).region 1).size < 2 ∧
      ((acc jup (.regionResize 1 2)).growTo 1 ((acc jup (.regionResize 1 2)).region 1) 2).isSome = true) ∧
    (let s : State := { jup with regions := [(1, { region1 with state := .offline })] }
     s.twin = false ∧ ((acc s (.regionForceOnline 1 false)).region 1).state = .offline ∧
       (acc s (.regionForceOnline 1 false)).twn.fenceIn = false ∧ (acc s (.regionForceOnline 1 false)).phase ≠ 11 ∧
       (acc s (.regionForceOnline 1 false)).twin = false) ∧
    (acc jup (.provision false 1 [] false)).bit Reg.twnId 1 = false :=
  ⟨allRun_of (by decide +kernel), by decide +kernel, by decide +kernel, by decide +kernel, by decide +kernel,
    by decide +kernel, by decide +kernel, by decide +kernel, by decide +kernel⟩

theorem witness_JorridLdsLeasesAndKeys :
    (∀ c ∈ [.ldBind 0 0, .ldUnbind 0, .setDurability 0 true, .extentAdd 0 7 (7 * 2 ^ 44) (2 ^ 30) 1 0,
        .extentRelease 0 1 0 1 false, .notifyVector 0 63 1, .leaseGrant 0xFFFE 3 true (some 4096) (some 8192), .leaseGrant 0xFFFE 3 true none none,
        .leaseChange 0x20 3 true 4096 8192, .leaseRevoke 0x20, .mkeyRegisterFor 0x20 1 15 255 0 0 (2 ^ 30),
        .mkeyInvalidateFor (rkeyOf 1 0 0)],
      (objs .bound .active).jRuns (mbxKey inst8) hd1 c) ∧
    (acc (objs .unbound .active) (.ldBind 0 0)).mayBind 0 = true ∧
    (acc (objs .bound .active) (.ldUnbind 0)).mayUnbind 0 = true ∧
    (let t := acc (objs .bound .active) (.extentAdd 0 7 (7 * 2 ^ 44) (2 ^ 30) 1 0)
     t.regionLives 1 = true ∧ t.extentRoom 0 = true ∧ t.extentOk 0 7 (7 * 2 ^ 44) (2 ^ 30) 1 0 = true) ∧
    (let e : Extent := { ld := 0, dcRegion := 0, dpa := 0, len := 2 ^ 30, region := 1, rof := 0, gen := 1, pending := false }
     (acc (objs .bound .active) (.extentRelease 0 1 0 1 false)).extentTagged 0 1 0 1 = some (0, e) ∧
       (acc (objs .bound .active) (.extentRelease 0 1 0 1 false)).askOk 0 e false = true) ∧
    (leaseItemsOk 0xFFFE 4096 8192 = true ∧ leaseItemsOk 0xFFFE 256 1024 = true ∧
      (acc (objs .bound .active) (.leaseGrant 0xFFFE 3 true (some 4096) (some 8192))).leases.get? 0xFFFE = none) ∧
    (leaseItemsOk 0x20 4096 8192 = true ∧
      (acc (objs .bound .active) (.leaseChange 0x20 3 true 4096 8192)).leases.get? 0x20 =
        some { cred := 3, mgmt := false, maxQp := 4, maxMkey := 4 } ∧
      ({ cred := 3, mgmt := false, maxQp := 4, maxMkey := 4 } : Lease).state ≠ .revoked) ∧
    ((acc (objs .bound .active) (.mkeyRegisterFor 0x20 1 15 255 0 0 (2 ^ 30))).keyMake 0x20 1 15 255 0 0 (2 ^ 30)).isOk = true ∧
    ((acc (objs .bound .active) (.mkeyInvalidateFor (rkeyOf 1 0 0))).keyNamed (rkeyOf 1 0 0)).isSome = true :=
  ⟨allRun_of (by decide +kernel), by decide +kernel, by decide +kernel, by decide +kernel, by decide +kernel,
    by decide +kernel, by decide +kernel, by decide +kernel, by decide +kernel⟩

/-- An image in slot B, and none being transferred but where `transfer` says. -/
def fwB (st : SlotState) (transfer : Option Bool) : State :=
  { jup with
    fw := { running := false, phase := 8, transfer := transfer, b := { state := st, total := 4 } }
    elg := { state := .fit } }

theorem witness_JorridQueuesServicesAndFirmware :
    (∀ c ∈ [.sqCreate 3 0xFFFF (apAddr 1 (2 ^ 28)) 16 5 (some 64) false, .sqDelete 4, .sqStop 4,
        .cqCreate 6 0xFFFF (apAddr 1 (2 ^ 28)) 4 toLd toLd 63 (some 1000), .cqDelete 6, .cqSetTarget 5 true toLd,
        .cqSetTarget 5 false toLd, .twinRelease, .twinTakeover, .twinRetrain, .scrubStart 0 0 0xFFFF 64, .capTest,
        .savePlanned, .eventRead 0 8, .eventQueueSet 3 2 0xFFFFFFFF 3, .fwInfo],
      (objs .bound .active).jRuns (mbxKey inst8) hd1 c) ∧
    (objs .bound .stopped).jRuns (mbxKey inst8) hd1 (.sqResume 4) ∧ (objs .bound .error).jRuns (mbxKey inst8) hd1 (.sqReset 4) ∧
    (∀ c ∈ [.fwTransferInitiate true 4, .fwTransferContinue true 0 [1], .fwTransferEnd true true,
        .fwTransferAbort true, .fwActivateLive true, .fwActivateNextReset true],
      (fwB .valid none).jRuns (mbxKey inst8) hd1 c) ∧
    (let t := acc (objs .bound .active) (.sqCreate 3 0xFFFF (apAddr 1 (2 ^ 28)) 16 5 (some 64) false)
     t.ringPlace (apAddr 1 (2 ^ 28)) 16 (256 + 64 * 2 ^ 16) = some (1, 2 ^ 28) ∧ t.sq? 3 = none ∧ (t.cq? 5).isSome = true ∧
       admits (t.region 1).state = true) ∧
    (let t := acc (objs .bound .active) (.sqDelete 4)
     t.sq? 4 = some (sqIn .active) ∧ (sqIn .active).state ≠ .deleting) ∧
    ((acc (objs .bound .stopped) (.sqResume 4)).sq? 4 = some (sqIn .stopped) ∧
      admits ((acc (objs .bound .stopped) (.sqResume 4)).region 1).state = true) ∧
    ((acc (objs .bound .error) (.sqReset 4)).sq? 4 = some (sqIn .error) ∧
      admits ((acc (objs .bound .error) (.sqReset 4)).region 1).state = true) ∧
    (let t := acc (objs .bound .active) (.cqCreate 6 0xFFFF (apAddr 1 (2 ^ 28)) 4 toLd toLd 63 (some 1000))
     ringOk 0xFFFF toLd toLd 63 1000 = true ∧ t.ringPlace (apAddr 1 (2 ^ 28)) 4 256 = some (1, 2 ^ 28) ∧ t.cq? 6 = none) ∧
    (let t := acc { objs .bound .active with sqs := [] } (.cqDelete 5)
     (t.cq? 5).isSome = true ∧ (t.sqs.vals.any fun q => q.cq == 5) = false) ∧
    (let t := acc (objs .bound .active) (.cqSetTarget 5 true toLd)
     t.cq? 5 = some ring5 ∧ ringOk 7 ring5.t0 toLd ring5.vector ring5.window = true ∧
       ringOk 7 toLd ring5.t1 ring5.vector ring5.window = true) ∧
    (let t := acc ((objs .bound .active).setReg Reg.dmcConfig (w32 (2 ^ 16 + 2 ^ 8))) (.scrubStart 0 0 0xFFFF 64)
     0 < t.dramBytes ∧ 0xFFFF < 2 ^ 16 ∧ t.bit Reg.dmcScrubCtl 31 = false) ∧
    (acc (objs .bound .active) .capTest).elg.test = .idle ∧ (acc (objs .bound .active) .capTest).elg.probe = none ∧
    ((acc jMgmt (.eventQueueSet 3 2 0xFFFFFFFF 3)).qp? 2).map (fun q => q.service) = some 1 ∧
    (let t := acc (fwB .valid none) (.fwTransferInitiate true 4)
     (t.fwSlot true).state ≠ .active ∧ t.transferBusy true = false ∧ t.fw.transfer = none) ∧
    (let t := acc (fwB .loading (some true)) (.fwTransferContinue true 0 [1])
     t.transferBusy true = false ∧ (t.fwSlot true).state = .loading ∧ 0 = (t.fwSlot true).image.length ∧
       (t.fwSlot true).image.length + [(1 : Byte)].length ≤ (t.fwSlot true).total) ∧
    (let t := acc (fwB .valid none) (.fwActivateLive true)
     t.liveImage true = true ∧ t.liveNow = true ∧ (t.fwSlot true).state = .valid) :=
  by
  refine ⟨allRun_of ?_, jRuns_of ?_, jRuns_of ?_, allRun_of ?_, ?_⟩
  iterate 4 decide +kernel
  decide +kernel

end Sys2Proof.Tests
end

