-- ==== Sys2Proof/Tests/WitnessCxl.lean ====
section
/-! SUPPORT. For each statement on CXL that has hypotheses: states and operands that meet the hypotheses of each
clause. -/

namespace Sys2Proof.Tests

set_option Elab.async false

open Sys2Proof Sys2Proof.Machine

/-- LD 0 in a state, with region 1's granule live before it at address 0, on link 0 of port 0 in L0 at 16 lanes; LINK_EN,
L0P_EN and L1_EN are 1. -/
def withLd (st : LdState) : State :=
  let s : State := { served with
    lds := [(0, { state := st, bound := some 0, memEnabled := true })]
    extents := [(0, { ld := 0, dcRegion := 0, dpa := 0, len := 2 ^ 30, region := 1, rof := 0, gen := 1, pending := false })]
    links := [(0, { state := .l0, width := 16, full := 16, speed := 6 })] }
  s.setReg Reg.cxPortCfg 0x31

/-- The same with the mailboxes enabled, POISON_INJECT_EN and LD_EN of LD 0 set, and LD 0 privileged. -/
def withMbx (st : LdState) : State :=
  (((withLd st).setReg Reg.mbxCtl 0xF).setReg (ldReg Reg.cxLdCtl 0) 5).setReg Reg.glbPrivLd 1

/-- LD 0's extent of `withLd`, in another state. -/
def ext0 (pending removing : Bool) : Extent :=
  { ld := 0, dcRegion := 0, dpa := 0, len := 2 ^ 30, region := 1, rof := 0, gen := 1, pending := pending
    removing := removing }

/-- One write of LD 0 in flight, tracker number 3. -/
def withWrite : State :=
  { withLd .active with reqs := [(3, { src := .cxl 0 9, op := .write, host := 0, region := 1, off := 0, len := 64
                                       segs := [(0, 64)] })] }

theorem witness_CxlLinksFollowTheirEvents :
    up.serves .firmware (Reg.cxPortCfg + cxBase 1) (dAt (Reg.cxPortCfg + cxBase 1)) ∧
    (let off := Reg.cxPortCfg + cxBase 1
     let d := dAt off
     Word.bit (up.reg off) 0 = false ∧ Word.bit (storedVal off (up.reg off) (up.merged off d 0x33 true)) 0 = true ∧
       up.twn.fenceIn = false ∧ up.twn.hostsHeld = false) ∧
    (let s := up.setReg (Reg.cxPortCfg + cxBase 1) 1
     let off := Reg.cxPortCfg + cxBase 1
     Word.bit (s.reg off) 0 = true ∧ Word.bit (storedVal off (s.reg off) (s.merged off (dAt off) 0 true)) 0 = false) ∧
    ((withLd .active).linkEn 0 = true ∧ ((withLd .active).link 0 0).full ≠ 0 ∧ trains 1 2 .b256 = true) ∧
    (8 < 16 ∧ (withLd .active).isl.quiet = .awake ∧ 0 ∈ (withLd .active).ldsOf 0 0) ∧
    ((withLd .active).link 0 0).state ≠ .down ∧ ((withLd .active).link 0 0).state ≠ .training ∧
    ((up.link 1 1).state = .down ∧ 31 ∉ up.ldsOf 1 1) ∧
    (({ withLd .active with links := [] }.link 0 0).state = .down ∧
      0 ∈ { withLd .active with links := [] }.ldsOf 0 0 ∧ ({ withLd .active with links := [] }.ld 0).state = .active) ∧
    ((withLd .departed).ld 0).state = .departed ∧
    (let s := { withLd .active with links := [(0, { full := 16 })] }
     (s.link 0 0).state = .down ∧ s.linkEn 0 = true ∧ (s.link 0 0).full ≠ 0) := by
  unfold State.serves; decide +kernel

theorem witness_CxlLinkPowerStates :
    (linkRuns ((withLd .active).link 0 0) = true ∧ (withLd .active).portBit 0 4 = true ∧
      8 ≤ ((withLd .active).link 0 0).width) ∧
    (let s := (withLd .active).modLink 0 0 fun l => { l with width := 8, state := .l0p }
     linkRuns (s.link 0 0) = true ∧ s.portBit 0 4 = true ∧ (s.link 0 0).width < (s.link 0 0).full) ∧
    (4 ≤ ((withLd .active).link 0 0).full ∧ ((4 : Nat) = ((withLd .active).link 0 0).full ∨ (4 : Nat) = 16 ∨ (4 : Nat) = 8 ∨
      (4 : Nat) = 4)) ∧
    (withLd .active).portBit 0 5 = true ∧
    (((withLd .active).modLink 0 0 fun l => { l with state := .l1 }).link 0 0).state = .l1 := by
  decide +kernel

theorem witness_CxlMemAccesses :
    ((withLd .bound).ld 0).state = .bound ∧
    ((withLd .active).cxlTakes 0 false = true ∧ ((withLd .active).useCredit 0 false).cxlWhere 0 (2 ^ 30 - 64) .read
      = .ok (1, 2 ^ 30 - 64, [(2 ^ 30 - 64, 64)])) ∧
    ((withLd .active).useCredit 0 false).cxlWhere 0 (2 ^ 30) .read = .error .path ∧
    ((withLd .active).cxlTakes 0 true = true ∧
      ((withLd .active).useCredit 0 true).cxlWhere 0 0 .write = .ok (1, 0, [(0, 64)]) ∧ (withLd .active).ctm 0 = false) ∧
    (let s := (withLd .active).setReg (ldReg Reg.cxLdCtl 0) 3
     s.cxlTakes 0 true = true ∧ (s.useCredit 0 true).cxlWhere 0 0 .write = .ok (1, 0, [(0, 64)]) ∧ s.ctm 0 = true) ∧
    (let s := { withLd .active with regions := [(1, { region1 with dflt := .read })] }
     s.cxlTakes 0 true = true ∧ (s.useCredit 0 true).cxlWhere 0 0 .write = .error .right) := by
  exact ⟨rfl, ⟨rfl, rfl⟩, rfl, ⟨rfl, rfl, rfl⟩, ⟨rfl, rfl, rfl⟩, rfl, rfl⟩

theorem witness_GpfWaitsForEarlierWrites :
    (let s := withWrite.modLink 0 0 fun l => { l with gpf := some [3] }
     (s.link 0 0).gpf = some [3] ∧ ∃ i ∈ [3], (s.reqs.get? i).isSome = true) ∧
    (let s := (withLd .active).modLink 0 0 fun l => { l with gpf := some [3] }
     (s.link 0 0).gpf = some [3] ∧ (∀ i ∈ [3], s.reqs.get? i = none) ∧ (s.link 0 0).state ≠ .down) ∧
    100000 < 100001 := by decide +kernel

theorem witness_LdResetsAndBarriers :
    (((withLd .active).ld 0).state ≠ .unbound ∧ ((withLd .active).ld 0).state ≠ .departed) ∧
    ((withLd .active).link 0 0).state ≠ .down ∧ ((withLd .flr).ld 0).state = .flr ∧
    (let s := withWrite.modLd 0 fun l => { l with waits := [[3], []] }
     (s.ld 0).waits = [3] :: [[]] ∧ ∃ i ∈ [3], (s.reqs.get? i).isSome = true) ∧
    (let s := (withLd .active).modLd 0 fun l => { l with waits := [[3]] }
     (s.ld 0).waits = [3] :: [] ∧ ∀ i ∈ [3], s.reqs.get? i = none) := by decide +kernel

theorem witness_FmApiAndExtents :
    (((withMbx .unbound).modLd 0 fun l => { l with bound := none }).mayBind 0 = true ∧
      (withMbx .bound).mayUnbind 0 = true ∧ (withMbx .departed).mayUnbind 0 = true) ∧
    (withMbx .active).jwait.get? (jwExtent 0) = none ∧
    clampStep 256 4096 256 2048 + up.trackLimit 1 + up.fld Reg.rdxTrackLimit 13 0 ≤ 8192 ∧
    { withLd .active with extents := [] }.extentOk 0 7 (7 * 2 ^ 44) (2 ^ 30) 1 0 = true ∧
    ((withLd .active).extentTagged 0 1 0 1 = some (0, ext0 false false) ∧ (ext0 false false).pending = false) ∧
    (let s := { withLd .active with extents := [(0, ext0 true false)] }
     s.extents.get? 0 = some (ext0 true false) ∧ (ext0 true false).pending = true) ∧
    (let s := { withLd .active with extents := [(0, ext0 false true)] }
     s.extents.get? 0 = some (ext0 false true) ∧ (ext0 false true).removing = true ∧
       s.underExtent 0 (ext0 false true) = false ∧ (ext0 false true).forced = false) := by decide +kernel

theorem witness_CxlMailboxReads :
    (withMbx .bound).cxlMbxUp 0 = true ∧ 0 + 4 * celWords.length ≤ 4 * celWords.length ∧
    (withMbx .bound).privLd 0 = true ∧ ((withMbx .bound).setReg Reg.glbPrivLd 0).privLd 0 = false := by decide +kernel

theorem witness_CxlMailboxActions :
    (withMbx .active).cxlMbxUp 0 = true ∧
    (let s := (withMbx .active).modLd 0 fun l => { l with logs := [(0, [.record 1 [2], .record 2 [2]])] }
     s.cxlMbxUp 0 = true ∧ 1 < ((s.ld 0).logs.getD 0 []).length) ∧
    ((withMbx .active).mayPoison 0 = true ∧ (withMbx .active).cxlWhere 0 64 .write = .ok (1, 64, [(64, 64)])) ∧
    ((withMbx .active).setReg Reg.glbPrivLd 0).mayPoison 0 = false ∧
    (let s := { withMbx .active with extents := [(0, ext0 true false)] }
     s.oldestPending 0 = some (0, ext0 true false) ∧ s.extentNamed 0 0 (2 ^ 30) true = some (0, ext0 true false)) ∧
    (withMbx .active).extentNamed 0 0 (2 ^ 30) false = some (0, ext0 false false) := by
  exact ⟨by decide +kernel, by decide +kernel, ⟨by decide +kernel, rfl⟩, by decide +kernel, by decide +kernel,
    by decide +kernel⟩

end Sys2Proof.Tests
end

