-- ==== Sys2Proof/Tests/WitnessEnergy.lean ====
section
/-! SUPPORT. For each statement on flash, the ledger, save and restore that has hypotheses: states and operands that
meet the hypotheses of each clause. -/

namespace Sys2Proof.Tests

set_option Elab.async false

open Sys2Proof Sys2Proof.Machine

/-- The FMC and the XTS pipelines enabled, with two stripe sets of 16 channels, 1 die, 4 planes, and pages of 15
codewords. -/
def flashOn : State :=
  ((((served.setReg Reg.secCtl 4).setReg Reg.fmcCtl 0x1F).setReg Reg.fmcGeom0 (w32 (16 + 2 ^ 10 + 4 * 2 ^ 15 + 15 * 2 ^ 20))).setReg
    Reg.fmcGeom1 (w32 (16 * 2 ^ 16 + 65535)))

/-- The flash tier with some stripe blocks. -/
def withBlocks (l : Tbl Stripe) : State := { flashOn with fmc := { blocks := l } }

/-- Tile 3 in flash at location 16, the region's keys held, and a read that waits for its slice 0. -/
def flashTile : State :=
  { flashOn with
    tiles := [(3, { home := .flash, loc := 16 })], fmc := { slots := [(16, 3)], reads := [24] }, sec := { keys := [(1, { xts := true })] }
    reqs := [(1, { src := .cxl 0 0, op := .read, host := 0, region := 1, off := 12288, len := 64, segs := [(12288, 64)] })] }

/-- What the eight dies of set 1 do: a job each. -/
def diesOf1 (job : FJob) : Tbl FWork :=
  (List.range 8).foldl (fun m k => m.set (flashOn.dieOf 1 k) { die := flashOn.dieOf 1 k, level := 6, job := job }) []

/-- A die of set 0 that erases while the read of tile 3's slice 0 waits for it. -/
def eraseWaits : State :=
  let f := flashTile.fmc
  { flashTile with fmc := { f with
      blocks := [(0, { state := .erasing })], suspends := [(flashTile.dieOf 0 0, 3)]
      run := [(flashTile.dieOf 0 0, { die := flashTile.dieOf 0 0, level := 6, job := .erase 0 })] } }

theorem witness_FlashReadsProgramsAndErases :
    (let t := flashTile.mediaStep
     flashTile.bit Reg.fmcCtl 0 = true ∧ t.onDie (t.dieOf (locSet 16) 0) (.read 2 0) = true ∧ t.cwTiles 16 = [3] ∧
       t.keyGone 3 = false ∧ (t.gotSlice 24).cwStrays 16 0 = [] ∧
       (∃ q, t.reqs.get? 1 = some q ∧ (q.segs.any fun p => (slicesOf p.1 p.2).contains 24) = true)) ∧
    (let s : State := { flashTile with fmc := { reads := [24] } }
     s.bit Reg.fmcCtl 0 = true ∧ s.mediaStep.onDie (s.mediaStep.dieOf (locSet 16) 0) (.read 2 0) = true ∧ s.mediaStep.cwTiles 16 = []) ∧
    (let s := withBlocks [(0, { state := .full })]
     s.bit Reg.fmcCtl 0 = true ∧ s.bit Reg.fmcCtl 2 = true ∧ s.elg.sage = none ∧
       (s.sb (locSet 16) (s.locBlock 16)).state = .full ∧ s.mediaStep.dieIdle (s.mediaStep.dieOf (locSet 16) 0) = true) ∧
    (let t := eraseWaits.mediaStep
     let die := flashTile.dieOf 0 0
     eraseWaits.bit Reg.fmcCtl 4 = true ∧ eraseWaits.fmc.suspends.getD die 0 < 4 ∧ eraseWaits.elg.sage = none ∧
       (t.suspendFor die).isSome = true ∧ (t.fmc.run.get? die).isSome = true ∧ (t.nextWork die).isSome = true) ∧
    (let u : Machine.Unit := { block := 2, reloc := false, tiles := [3] }
     let s : State := { flashOn with fmc := { units := [(sbKey 1 2, u)] } }
     (s.fmc.units.filter fun e => e.1 / 65536 == 1 && !e.2.flying && !e.2.tiles.isEmpty) = [(sbKey 1 2, u)]) ∧
    (let u : Machine.Unit := { block := 2, reloc := false, tiles := [3], flying := true }
     let s : State := { flashOn with fmc := { units := [(sbKey 1 2, u)], run := diesOf1 (.prog (sbKey 1 2)) } }
     s.fmc.units.get? (sbKey 1 2) = some u ∧ u.flying = true ∧ s.mediaStep.onSet 1 (.prog (sbKey 1 2)) = true) ∧
    (let s : State := { flashOn with fmc := { blocks := [(sbKey 1 2, { state := .erasing })], run := diesOf1 (.erase (sbKey 1 2)) } }
     (s.sb 1 2).state = .erasing ∧ s.elg.sage = none ∧ s.mediaStep.onSet 1 (.erase (sbKey 1 2)) = true ∧
       (s.sb 1 2).remap = false) ∧
    (1 < flashOn.sets ∧ flashOn.elg.sage = none ∧ flashOn.regionBlocks 1 < 2 * flashOn.saveNeed ∧
      flashOn.freeBlock 1 = some 0) ∧
    (1 ≤ 16 ∧ 16 ≤ 16 ∧ 1 ≤ 4 ∧ 4 ≤ 4 ∧ 15 < 16 ∧ 65535 < 2 ^ 16 ∧ flashOn.bit Reg.fmcLock 0 = false) := by
  refine ⟨⟨?_, ?_, ?_, ?_, ?_, ⟨_, rfl, ?_⟩⟩, ?_, ?_, ?_, ?_, ?_, ?_, ?_, ?_⟩ <;> decide +kernel

/-- Metering and CAP_TEST enabled, the hold-up module's address set, and 10 s of steady values. -/
def metered : State :=
  ({ up with elg := { history := List.replicate 10000 0, retry := true } } : State).setReg Reg.elgCtl 9

theorem witness_LedgerMetersAndTests :
    (metered.bit Reg.elgCtl 0 = true ∧ metered.bit Reg.elgCtl 3 = true ∧ metered.elg.retry = true ∧ metered.elg.test = .idle ∧
      metered.elg.sage = none ∧ up.cmdReady Reg.elgCmd) ∧
    ({ up with elg := { state := .deficit } } : State).elg.state = .deficit ∧
    (let s := (up.setReg Reg.elgCtl 1).setReg Reg.twbHoldup 0x12
     s.bit Reg.elgCtl 0 = true ∧ s.fld Reg.twbHoldup 6 0 ≠ 0 ∧ s.twb.elgWait.contains psbTemp = false ∧
       s.twb.psb ≠ .elg psbTemp) ∧
    (({ up with elg := { test := .running } } : State).elg.test = .running ∧ 2000 ≠ 0 ∧
      up.fld Reg.elgTestCfg 26 16 ≤ 2000) ∧ metered.elg.probe = none ∧
    (let s : State := { withBlocks [(0, { state := .probing, pslc := true })] with elg := { probe := some (0, 0) } }
     s.elg.probe = some (0, 0) ∧ 0 + 1 < (s.probeErase 0).sets) ∧
    (let s : State := { withBlocks [(65536, { state := .probing, pslc := true })] with elg := { probe := some (1, 500) } }
     s.elg.probe = some (1, 500) ∧ (s.probeErase 1).sets ≤ 1 + 1 ∧
       costOf (if (s.probeErase 1).elg.pSaveMw = 0 then 90000 else (s.probeErase 1).elg.pSaveMw) (min (500 + 500) 2000) ≠ 0) ∧
    (up.serves .firmware Reg.elgReserve (dAt Reg.elgReserve) ∧ up.serves .firmware Reg.elgTestCfg (dAt Reg.elgTestCfg) ∧
      up.serves .firmware Reg.elgSaveCfg (dAt Reg.elgSaveCfg)) := by
  unfold State.serves State.cmdReady; decide +kernel

theorem witness_LedgerMetersAndTests_steady : 10000 ≤ metered.elg.history.length ∧ metered.steady = true := by
  constructor
  · show 10000 ≤ (List.replicate 10000 0).length
    rw [List.length_replicate]
  · have h : metered.fld Reg.elgVmv 15 0 = 0 := by decide +kernel
    unfold State.steady
    rw [h, show metered.elg.history = List.replicate 10000 0 from rfl, List.all_replicate]
    decide

theorem witness_LimitAndCoveredTiles :
    up.fld Reg.elgReserve 5 0 ≤ 100 ∧ (up.setReg Reg.elgReserve 63).fld Reg.elgReserve 5 0 ≤ 100 := by decide +kernel

/-- Sage in a phase of a planned save. -/
def sageIn (phase : Nat) : Sage :=
  { phase := phase, trigger := .planned, startTime := 0, single := true, saved := [], openList := [], logs := []
    energy0 := 0, capMf := 0 }

/-- A Burgee of twin 1 in a start-up phase. -/
def burgeeAt (phase : Nat) : Burgee :=
  { twin := true, state := .starting, ledger := .fit, fast := false, fwMajor := 0, applianceId := 0, seq := 0, heard := 0
    time := 0, ensigns := 0, fenceSeen := 0, phase := phase }

/-- Sage in a phase, with eight READY blocks. -/
def chained (phase : Nat) : State :=
  { withBlocks ((List.range 8).flatMap fun k => [(k, { state := .ready, pslc := true })]) with
    elg := { sage := some (sageIn phase) } }

theorem witness_SaveRestoreAndAdmission :
    (up.elg.sage = none ∧ up.pws.seq ≠ .powerDown ∧ up.cmdReady Reg.elgCmd ∧ 3 ≤ 3 ∧ up.fw.activating = none ∧
      up.isl.quiet = .awake ∧ (up.setReg Reg.elgCtl 0).bit Reg.elgCtl 4 = false) ∧
    (∀ n, 1 ≤ n → n < 8 → ({ up with elg := { sage := some (sageIn n) } } : State).elg.sage = some (sageIn n)) ∧
    (((chained 3).chainLoc 262143).isSome = true ∧ ((chained 4).chainLoc ((chained 4).sectionSlots - 1)).isSome = true) ∧
    (up.chainLoc 262143 = none ∧ up.chainLoc (up.sectionSlots - 1) = none) ∧
    (up.tilesLeft (sageIn 5) = [] ∧ up.tilesLeft (sageIn 6) = []) ∧
    (up.admitted = false ∧ up.phase < 5 ∧ up.fw.warm = false ∧ ((up.restoreDo []).setPhase 5).fw.warm = false ∧
      ((up.restoreDo []).setPhase 5).peerServes = false) ∧
    (let s : State := { up with regions := [(1, { region1 with state := .offline })], twn := { self := .single, settled := [(1, 1)] } }
     s.mayAdmit 1 = true ∧
       (let t := (s.admitHosts.regionState 1 .online).notePhase
        (t.paired && (t.sec.keys.get? 1).isNone) = false)) ∧
    (let s : State := { up with regions := [(1, region1)] }
     s.admitted = false ∧ s.peerAnswered = false ∧ s.paired = false ∧ s.single = false ∧ s.twn.fenceIn = false ∧
       s.isHalted = false ∧ s.regions = [(1, region1)] ∧ s.fw.warm = false) ∧
    (let s : State := { up with regions := [(1, region1)], twn := { link := .up, peerB := some (burgeeAt 11), fenceOk := true } }
     s.admitted = false ∧ s.twn.peerB = some (burgeeAt 11) ∧ (burgeeAt 11).phase = 11 ∧ s.linkIsUp = true ∧
       s.twn.fenceIn = false ∧ s.isHalted = false ∧ (s.settleAll s.newestRec true []).twn.fenceOk = true) := by
  unfold State.cmdReady
  exact ⟨by decide +kernel, fun _ _ _ => rfl, by decide +kernel, by decide +kernel, by decide +kernel, by decide +kernel, by decide +kernel,
    by decide +kernel, by decide +kernel⟩

end Sys2Proof.Tests
end

