-- ==== Sys2Proof/Tests/WitnessQueues.lean ====
section
/-! SUPPORT. For each statement on transfer queues that has hypotheses: states and operands that meet the hypotheses of
each clause. -/

namespace Sys2Proof.Tests

set_option Elab.async false

open Sys2Proof Sys2Proof.Machine

/-- Queue 4 of host 7, its ring of two entries at 512 MiB of region 1, its ring of records 5. -/
def sq4 (maint : Bool) : Sq :=
  { host := 7, region := 1, base := 2 ^ 29, log2 := 1, cq := 5, maint := maint, limit := 64 }

/-- Ring 5, one record, at 768 MiB of region 1, delivered to LD 0. -/
def cq5 : Cq :=
  { host := 7, region := 1, base := 3 * 2 ^ 28, log2 := 0, t0 := { kind := 1, addr := 0, key := 0, ld := 0, host := 0 }
    t1 := { kind := 0, addr := 0, key := 0, ld := 0, host := 0 }, vector := 0, window := 0 }

/-- The queue and its ring, fetching enabled, LD 0 ACTIVE. -/
def withSq (maint : Bool) : State :=
  ({ served with sqs := [(4, sq4 maint)], cqs := [(5, cq5)], lds := [(0, { state := .active })] } : State).setReg Reg.tqmCtl 1

/-- A fetched command of the queue, of an opcode, with its source, destination and length. -/
def cmdOf (op src dst len : Nat) : Cmd := { sq := 4, pos := 0, d := { opcode := op, src := src, dst := dst, len := len } }

/-- The queue with one command fetched. -/
def withCmd (maint : Bool) (c : Cmd) : State := { withSq maint with cmds := [(1, c)], cmdSeq := 2 }

/-- The queue with PROD 1 and an UNPIN of the tile at 0 in its first entry, with the phase of the first lap. -/
def withEntry : State :=
  { withSq false with mem := [(2 ^ 29, 1), (2 ^ 29 + 256, 7), (2 ^ 29 + 259, 0x80), (2 ^ 29 + 256 + 30, 0x10),
      (2 ^ 29 + 256 + 33, 0x10)] }

/-- The queue with a command and a CONS of ring 5 that opens its window. -/
def withCons (c : Cmd) : State := { withCmd false c with mem := [(3 * 2 ^ 28, 1)] }

theorem witness_TransferCommandsStart :
    (let c := cmdOf 1 (apAddr 1 0) (apAddr 1 4096) 4096
     let e : Cmd := { c with d := { c.d with e2e := true } }
     ((withCmd false c).startable 4 0 1 1 c (sq4 false) ∧ c.d.e2e = false ∧
       (withCmd false e).startable 4 0 1 1 e (sq4 false) ∧ e.d.e2e = true) ∧
     (withCmd false c).tqWhere 7 c.d.src c.d.len .read = .ok [(0, 4096)] ∧
     (withCmd false c).tqWhere 7 c.d.dst c.d.len .write = .ok [(4096, 4096)]) ∧
    (let c := cmdOf 1 (apAddr 2 0) (apAddr 1 4096) 4096
     (withCmd false c).startable 4 0 1 1 c (sq4 false) ∧
       (withCmd false c).tqWhere 7 c.d.src c.d.len .read = .error .state) ∧
    (let c := cmdOf 2 0 (apAddr 1 1) 1
     let e := cmdOf 2 0 (apAddr 1 (2 ^ 30)) 1
     ((withCmd false c).startable 4 0 2 1 c (sq4 false) ∧ (withCmd false e).startable 4 0 2 1 e (sq4 false)) ∧
       (withCmd false c).tqWhere 7 c.d.dst c.d.len .write = .ok [(1, 1)] ∧
       (withCmd false e).tqWhere 7 e.d.dst e.d.len .write = .error .bounds) ∧
    (let c := cmdOf 3 5 0 0
     ((withCmd false c).startable 4 0 3 1 c (sq4 false) ∧ (withCmd false c).cq? (c.d.src % 2 ^ 12) = some cq5 ∧
       (withCons c).startable 4 0 3 1 c (sq4 false) ∧ (withCons c).cq? (c.d.src % 2 ^ 12) = some cq5 ∧ c.msg = 0 ∧
       (sq4 false).notes.get? 0 = none ∧ (withCmd false c).inWindow cq5 cq5.nextSeq = false ∧
       (withCons c).inWindow cq5 cq5.nextSeq = true) ∧
     (withCons c).xlate 7 cq5.region cq5.base 256 .write = .ok [(3 * 2 ^ 28, 256)] ∧
     (withCmd false c).xlate 7 cq5.region cq5.base 256 .write = .ok [(3 * 2 ^ 28, 256)] ∧
     (let s : State := { withCmd false c with cqs := [(5, { cq5 with region := 2 })] }
      s.startable 4 0 3 1 c (sq4 false) ∧ s.cq? (c.d.src % 2 ^ 12) = some { cq5 with region := 2 } ∧
        s.xlate 7 2 cq5.base 256 .write = .error .state)) ∧
    (let c := cmdOf 4 (apAddr 1 0) 0 64
     (withCmd false c).startable 4 0 4 1 c (sq4 false) ∧
       (withCmd false c).tqWhere 7 c.d.src c.d.len .read = .ok [(0, 64)]) ∧
    (let c := cmdOf 5 (apAddr 1 0) 0 4096
     (withCmd false c).startable 4 0 5 1 c (sq4 false) ∧
       (withCmd false c).tqWhere 7 c.d.src c.d.len .read = .ok [(0, 4096)]) ∧
    (let c := cmdOf 6 0 (apAddr 1 4096) 8192
     let s : State := { withCmd false c with twn := { mate := true } }
     ((withCmd false c).startable 4 0 6 1 c (sq4 false) ∧ (withCmd false c).paired = false ∧
       s.startable 4 0 6 1 c (sq4 false) ∧ s.paired = true) ∧
     (withCmd false c).tqWhere 7 c.d.dst c.d.len .write = .ok [(4096, 8192)]) ∧
    (let c := cmdOf 7 0 (apAddr 1 4096) 8192
     (withCmd false c).startable 4 0 7 1 c (sq4 false) ∧
       (withCmd false c).tqWhere 7 c.d.dst c.d.len .write = .ok [(4096, 8192)]) := by
  unfold State.startable
  refine ⟨⟨?_, eq_ok ?_, eq_ok ?_⟩, ⟨?_, rfl⟩, ⟨?_, eq_ok ?_, rfl⟩, ⟨?_, eq_ok ?_, eq_ok ?_, ?_, ?_, rfl⟩, ⟨?_, eq_ok ?_⟩, ⟨?_, eq_ok ?_⟩,
    ⟨?_, eq_ok ?_⟩, ?_, eq_ok ?_⟩ <;> decide +kernel

/-- The progress record, in a phase, of a command of queue 4. -/
def prog (phase : Nat) (c : Cmd) : Progress := { phase := phase, sq := 4, pos := 0, d := c.d, next := 0 }

/-- A running command of the MAINT queue on region 1, in a state, with its progress record in a phase. -/
def going (phase : Nat) (st : RegionState) (c : Cmd) : State :=
  { withCmd true { c with stage := .running } with
    regions := [(1, { region1 with state := st })], progress := [(1, prog phase c)] }

theorem witness_SanitizeAndFormat :
    (let c := cmdOf 8 0 (apAddr 1 0) 0
     (c.sq = 4 ∧ (withCmd true c).startable 4 0 8 1 c (sq4 true) ∧ apSplit c.d.dst = some (1, 0) ∧ bitsOf c.d.dst 63 52 = 1 ∧
       (withCmd true c).progress.get? 1 = none ∧ (withCmd true c).ctlRegion 1 = false ∧
       (sq4 true).maint = true ∧ (sq4 false).maint = false ∧ (withCmd false c).startable 4 0 8 1 c (sq4 false)) ∧
     (withCmd true c).xlate 7 1 0 0 .atomic = .ok [] ∧ (withCmd false c).xlate 7 1 0 0 .atomic = .ok []) ∧
    (let c := cmdOf 9 0 (apAddr 1 4096) 4096
     let s : State := { withCmd true c with progress := [(1, { prog 0 c with pos := 1 })] }
     (c.sq = 4 ∧ (withCmd true c).startable 4 0 9 1 c (sq4 true) ∧ apSplit c.d.dst = some (1, 4096) ∧
       bitsOf c.d.dst 63 52 = 1 ∧ (withCmd true c).progress.get? 1 = none ∧ (withCmd true c).ctlRegion 1 = false ∧
       (withCmd false c).startable 4 0 9 1 c (sq4 false) ∧
       s.startable 4 0 9 1 c (sq4 true) ∧ s.progress.get? 1 = some { prog 0 c with pos := 1 } ∧
       ownProgress { prog 0 c with pos := 1 } c = false) ∧
     (withCmd true c).xlate 7 1 0 0 .atomic = .ok [] ∧ (withCmd true c).xlate 7 1 4096 4096 .atomic = .ok [(4096, 4096)]) ∧
    (let c := cmdOf 8 0 (apAddr 1 0) 0
     let s (n : Nat) : State := going n .offline c
     ((s 1).progress.get? 1 = some (prog 1 c) ∧ (s 1).progressCmd (prog 1 c) = some (1, { c with stage := .running }) ∧
       (s 1).ctlRegion 1 = false ∧ ((s 1).region 1).state = .offline ∧ (s 1).regionBusy 1 = false ∧
       (s 1).sec.entropyOk = true) ∧
     ((s 2).progressCmd (prog 2 c) = some (1, { c with stage := .running }) ∧ (s 2).oldHeld 1 = false) ∧
     ((s 4).progress.get? 1 = some (prog 4 c) ∧ (s 4).progressCmd (prog 4 c) = some (1, { c with stage := .running })) ∧
     (let u : State := { withSq true with progress := [(1, prog 3 c)] }
      u.progress.get? 1 = some (prog 3 c) ∧ u.scrubErased (prog 3 c).waits = true ∧
        (u.scrubRelease 1).settle.progressCmd (prog 3 c) = none)) ∧
    (let c := cmdOf 9 0 (apAddr 1 (2 ^ 30 - 4096)) 8192
     let s : State := going 0 .online c
     (s.progress.get? 1 = some (prog 0 c) ∧ s.progressCmd (prog 0 c) = some (1, { c with stage := .running }) ∧
       s.ctlRegion 1 = false ∧ (prog 0 c).access.any s.flying = false) ∧
     ((prog 0 c).next + 1) * gib < c.d.dst % 2 ^ 47 + c.d.len ∧
     (apAddr 1 (2 ^ 30 - 4096)) % 2 ^ 47 + 4096 ≤ ((prog 0 c).next + 1) * gib) ∧
    (let c := cmdOf 9 0 (apAddr 1 4096) 4096
     let s : State := { withSq true with progress := [(1, prog 0 c)] }
     s.progress.get? 1 = some (prog 0 c) ∧ s.cmdAt 4 0 = none ∧ s.sq? 4 = some (sq4 true) ∧ s.execHere (sq4 true) = true) := by
  unfold State.startable
  refine ⟨⟨?_, eq_ok ?_, eq_ok ?_⟩, ⟨?_, eq_ok ?_, eq_ok ?_⟩, ?_, ?_, ?_⟩ <;> decide +kernel

theorem witness_FetchCompletionAndCrc :
    (withEntry.sq? 4 = some (sq4 false) ∧ (sq4 false).state = .active ∧ withEntry.execHere (sq4 false) = true ∧
      withEntry.cbPoisoned (sq4 false) = false ∧ withEntry.prodOf (sq4 false) = (sq4 false).fetch + 1 ∧
      withEntry.mayFetch 4 (sq4 false) = true ∧
      (withEntry.entryAt (sq4 false) 0).phase = phaseAt (sq4 false) 0 ∧
      withEntry.descOk (withEntry.entryAt (sq4 false) 0) = true) ∧
    (let s : State := { withEntry with mem := [(2 ^ 29, 1)] }
     s.mayFetch 4 (sq4 false) = true ∧ (s.entryAt (sq4 false) 0).phase ≠ phaseAt (sq4 false) 0) ∧
    (let s : State := { withEntry with mem := [(2 ^ 29, 3)] }
     2 ^ (sq4 false).log2 < s.prodOf (sq4 false) - (sq4 false).fetch) ∧
    (let s := withEntry.setReg Reg.tqmCtl 0
     s.prodOf (sq4 false) - (sq4 false).fetch ≤ 2 ^ (sq4 false).log2 ∧ 0 < s.pauseCause) ∧
    up.cmdReady Reg.tqmDoorbell ∧ (withEntry.sqs = [(4, sq4 false)] ∧ withEntry.sqWait = []) ∧
    (let c : Cmd := { cmdOf 7 0 (apAddr 1 0) 4096 with stage := .assigning, msg := 9, seq := 1 }
     (withCmd false c).cmdAt 4 0 = some (1, c) ∧ c.stage = .assigning ∧ c.seq ≠ 0 ∧
       (withCmd false c).twn.tx.get? c.msg = none) ∧
    (let r : CqRec := { pos := 0, tag := 0, sq := 4, note := false, status := 0, opcode := 7, result := 0, notify := false }
     let x : Cq := { cq5 with nextSeq := 2, recs := [(1, r)] }
     let s : State := { withSq false with cqs := [(5, x)], mem := [(3 * 2 ^ 28, 1)] }
     (∀ e ∈ s.cmds, e.2.d.opcode ≠ 3) ∧ s.cq? 5 = some x ∧ x.recs.get? x.sent = some r ∧
       x.recs.get? (x.sent + 1) = none ∧ x.nextSeq = x.sent + 1 ∧ (s.myTarget x).kind = 1 ∧ s.recHeld 5 x.sent = false ∧
       s.targetUp (s.myTarget x) = true ∧ s.twn.fenceIn = false ∧ s.inWindow x x.sent = true ∧ r.notify = false) ∧
    (let r : CqRec := { pos := 0, tag := 0, sq := 4, note := false, status := 0, opcode := 7, result := 0, notify := true }
     let x (kind : Nat) : Cq := { cq5 with signal := some 1, t0 := { cq5.t0 with kind := kind }, recs := [(1, r)] }
     let s (kind : Nat) : State := { withSq false with cqs := [(5, x kind)] }
     ((s 1).cq? 5 = some (x 1) ∧ (x 1).signal = some 1 ∧ ((s 1).myTarget (x 1)).kind ≠ 2) ∧
     (s 2).cq? 5 = some (x 2) ∧ ((s 2).myTarget (x 2)).kind = 2 ∧ (x 2).recs.get? 1 = some r) ∧
    up.cmdReady Reg.crcFwCtl ∧ up.cmdReady Reg.crcFwData32 ∧ up.cmdReady Reg.crcFwData8 := by
  unfold State.cmdReady; decide +kernel

end Sys2Proof.Tests
end

