-- ==== Sys2Proof/Tests/WitnessRdma.lean ====
section
/-! SUPPORT. For each statement on Ethernet and RDMA that has hypotheses: states and operands that meet the hypotheses
of each clause. -/

namespace Sys2Proof.Tests

set_option Elab.async false

open Sys2Proof Sys2Proof.Machine

/-- Port 0 enabled and up, PFC_EN on priority 7, LLDP enabled. -/
def portUp : State :=
  ((({ up with ports := [(0, { up := true, rxPaused := 0x80 })] } : State).setReg Reg.netPortMode 0x100).setReg
    Reg.netDcb 0x80).setReg Reg.netLldp 1

/-- The same machine with the Ethernet GCM pipelines on. -/
def sealing (s : State) : State := s.setReg Reg.secCtl 1

/-- A queue pair's state, packets going out at once, with the key 1 of host 7 over region 1, and host 7's lease. -/
def withKey (st : QpState) : State :=
  { sealing (withQp st) with
    mkeys := [(1, { live := true, gen := 0, tag := 0, region := 1, rof := 0, va := 0, len := 2 ^ 30, host := 7, verbs := 15 })]
    leases := [(7, { cred := 3, mgmt := false, maxQp := 4, maxMkey := 4 })] }

/-- Control cores that take connections: RDX enabled, the quarantine after reset over. -/
def takesReqs : State :=
  ({ served with rdx := { holdReqs := false }, leases := [(7, { cred := 3, mgmt := false, maxQp := 4, maxMkey := 4 })] } :
    State).setReg Reg.rdxCtl 1

/-- A REQ of host 7 for the service at the base of the service IDs. -/
def req7 (version : Nat) : ConnReq :=
  { serviceId := takesReqs.svcBase, version := version, service := 0, host := 7, qos := 7, hostQpn := 5, pmtu := 4096, psn := 1 }

/-- Three statements of a QP's counter: the machine with QP 2 ESTABLISHED, the last counter received and the next to send. -/
def counting (rx : Option Nat) (tx : Nat) : State :=
  { withKey .established with rdx := { qps := [(2, { qpIn .established with ctrRx := rx, ctrTx := tx })] } }

/-- What keying keeps after a KEY_HELLO. -/
def keying2 : Keying := { k := 1, t := 2, sig := 3 }

theorem witness_EthernetPortEvents :
    (portUp.portEn 0 = true ∧ portUp.isl.quiet = .awake ∧ (portUp.port 0).up = true ∧ portUp.bit Reg.netDcb 7 = true) ∧
    (State.portEn { portUp with isl := { quiet := .quiet } } 0 = true ∧ Quiet.quiet ≠ .awake) ∧ up.portEn 7 = false ∧
    (let s : State := { portUp with pools := [(0, { level := 3 })] }
     3 ≤ s.poolLevel ∧ s.fld Reg.netDcb 7 0 ≠ 0 ∧ (s.port 0).headroom = []) ∧
    (let s : State := portUp.modPort 0 fun p => { p with txPaused := 0x80 }
     s.poolLevel < 3 ∧ (s.port 0).txPaused ≠ 0 ∧ (s.port 0).up = true) ∧
    (portUp.port 0).rxPaused.testBit 7 = true ∧ portUp.bit Reg.netLldp 0 = true := by decide +kernel

/-- No port of `portUp` with a pool at its stop level holds a packet in its headroom. -/
theorem witness_EthernetPortEvents_headroom :
    ∀ n, (({ portUp with pools := [(0, { level := 3 })] } : State).port n).headroom = [] := by
  intro n; cases n <;> rfl

theorem witness_QpPacketsAndRates :
    ((withQp .established).qp? 2 = some (qpIn .established) ∧ (withQp .established).cnpFree none = true) ∧
    (up.genOf (qpIdx (2 ^ 17 + 2)) ≠ qpGen (2 ^ 17 + 2) ∧ (up.port 0).headroom = []) ∧
    ((withQp .quarantine).qp? 2 = some (qpIn .quarantine) ∧ (qpIn .quarantine).state = .quarantine) ∧
    ((∃ q, (counting (some 5) 0).qp? 2 = some q ∧ q.state = .established ∧ q.ctrRx = some 5 ∧ q.keyCached = true) ∧
      (counting (some 5) 0).bit Reg.secCtl 0 = true ∧ (5 : Nat) ≤ 5 ∧ ∀ c, some 5 = some c → c < 6) ∧
    (∃ t b, (counting (some 5) 0).takeBuf 64 = some (t, b) ∧ (t.pool b.1).level = 0) ∧
    (let s : State := { (counting none 0).setReg Reg.netDcb 1 with pools := [(0, { used := [0], fresh := 1 })] }
     let t : State := s.setReg Reg.bpmCfg0 1
     let h : PktHdr := { qpn := 2, psn := 0, counter := 1, bytes := 64 }
     t.takeBuf 64 = none ∧ (t.pool (poolFor 64)).level = 0 ∧ t.bit Reg.netDcb (rxPrio h) = true ∧ h.bytes ≤ 196608) ∧
    ((∃ q, (counting none (2 ^ 48)).qp? 2 = some q ∧ 2 ^ 48 ≤ q.ctrTx) ∧
      (∃ q c, (counting (some (2 ^ 48)) 7).qp? 2 = some q ∧ q.ctrRx = some c ∧ 2 ^ 48 ≤ c) ∧
      ∃ q, (counting (some 5) 7).qp? 2 = some q ∧ q.ctrTx < 2 ^ 48 ∧ ∀ c, q.ctrRx = some c → c < 2 ^ 48) := by
  refine ⟨by decide +kernel, by decide +kernel, by decide +kernel, ⟨⟨_, rfl, rfl, rfl, rfl⟩, rfl, Nat.le_refl _, ?_⟩,
    ⟨_, _, rfl, by decide +kernel⟩, by decide +kernel, ⟨_, rfl, by decide⟩, ⟨_, _, rfl, rfl, by decide⟩, _, rfl, by decide, ?_⟩
  · intro c h; cases h; decide
  · intro c h; cases h; decide

theorem witness_QpStateTransitions :
    (takesReqs.fw.halted = false ∧ takesReqs.svcBase ≤ (req7 1).serviceId ∧ (req7 1).serviceId ≤ takesReqs.svcBase + 2 ∧
      takesReqs.reqFails (req7 1) = none ∧ (∃ t, takesReqs.takeQp = some (t, 2)) ∧ 1024 ≤ (req7 1).pmtu) ∧
    ({ req7 1 with pmtu := 512 }.pmtu < 1024 ∧ takesReqs.reqFails { req7 1 with pmtu := 512 } = none) ∧
    takesReqs.reqFails (req7 2) = some (5, 0) ∧ takesReqs.svcBase + 2 < { req7 1 with serviceId := takesReqs.svcBase + 3 }.serviceId ∧
    (withQp .connecting).qp? 2 = some (qpIn .connecting) ∧ (withQp .established).qp? 2 = some (qpIn .established) ∧
    ((withQp .draining).qp? 2 = some (qpIn .draining) ∧ (qpIn .draining).resps = []) ∧
    (withQp .error).qp? 2 = some (qpIn .error) :=
  ⟨⟨by decide +kernel, by decide +kernel, by decide +kernel, by decide +kernel, ⟨_, rfl⟩, by decide⟩, by decide +kernel,
    by decide +kernel, by decide +kernel, by decide +kernel, by decide +kernel, by decide +kernel, by decide +kernel⟩

theorem witness_QuarantineEndsByGeneration :
    (2 ≠ 0 ∧ (withQp .quarantine).rdx.qps.get? 2 = some (qpIn .quarantine) ∧ (qpIn .quarantine).state = .quarantine ∧
      (withQp .quarantine).genOf 2 < 128 ∧ 2 < 2 ^ 17) ∧
    ({ withQp .quarantine with rdx := { qps := [(2, qpIn .quarantine)], gens := [(2, 127)] } }.genOf 2 = 127) ∧
    ((withQp .error).rdx.qps.get? 2 = some (qpIn .error) ∧ (qpIn .error).state ≠ .quarantine) ∧
    (let s : State := { up with rdx := { nextIdx := 2 ^ 17, freed := [9, 4] } }
     2 ^ 17 ≤ s.rdx.nextIdx ∧ s.rdx.freed = 9 :: [4]) ∧
    (let k : Mkey := { live := false, gen := 255, tag := 0, region := 1, rof := 0, va := 0, len := 1, host := 7, verbs := 1, quar := true }
     ({ up with mkeys := [(1, k)] } : State).mkeys.get? 1 = some k ∧ k.quar = true) := by decide +kernel

theorem witness_QpKeying :
    ((withKey .keying).fw.halted = false ∧ (withKey .keying).qp? 2 = some (qpIn .keying) ∧
      (withKey .keying).sec.entropyOk = true ∧ (2 : Nat) ≠ 1) ∧ (8 ≠ (qpIn .keying).host ∨ 1 ≠ 1) ∧ ((qpIn .keying).host ≠ 7 ∨ 2 ≠ 1) ∧
    ((withKey .keying).bit Reg.secCtl 0 = true ∧
      (withKey .keying).paused (qpIn .keying).port ((withKey .keying).prioOf (qpIn .keying)) = false ∧
      ((withKey .keying).port (qpIn .keying).port).txq.getD ((withKey .keying).prioOf (qpIn .keying)) [] = []) ∧
    (let q : Qp := { qpIn .keying with keying := some keying2 }
     let s : State := { withKey .keying with
       rdx := { qps := [(2, q)] }
       leases := [(7, { cred := pkDigest 9, mgmt := false, maxQp := 4, maxMkey := 4 })] }
     s.qp? 2 = some q ∧ q.keying = some keying2 ∧ q.service ≠ 2 ∧
       s.leases.get? q.host = some { cred := pkDigest 9, mgmt := false, maxQp := 4, maxMkey := 4 }) ∧
    (withQp .keying).leases.get? (qpIn .keying).host = none ∧ (qpIn .keying).keying = none := by
  exact ⟨by decide +kernel, by decide, by decide, by decide +kernel, ⟨rfl, rfl, by decide, rfl⟩, rfl, rfl⟩

theorem witness_RdmaVerbs :
    ((withKey .established).qp? 2 = some (qpIn .established) ∧ (withKey .established).noAdmit = false ∧
      (withKey .established).bit Reg.secCtl 0 = true ∧
      psnClass (qpIn .established).psnRx 0 = 0 ∧ (withKey .established).rnrNow true = false ∧
      (withKey .established).rnrNow false = false ∧ ((qpIn .established).resps.filter fun e => heavy e.resp).length < 64) ∧
    (0 < [(1 : Byte)].length ∧ (∃ t b, (withKey .established).takeBuf 1 = some (t, b) ∧ (t.pool b.1).level = 0) ∧
      (withKey .established).rdmaWhere (qpIn .established) (rkeyOf 1 0 0) 1 (2 ^ 30 - 1) 1 .write
        = .ok (1, 2 ^ 30 - 1, [(2 ^ 30 - 1, 1)])) ∧
    (withKey .established).rdmaWhere (qpIn .established) (rkeyOf 1 0 0) 0 0 64 .read = .ok (1, 0, [(0, 64)]) ∧
    (8 % 8 = 0 ∧ (∃ t b, (withKey .established).takeBuf 8 = some (t, b) ∧ (t.pool b.1).level = 0) ∧
      (withKey .established).rdmaWhere (qpIn .established) (rkeyOf 1 0 0) 2 8 8 .atomic = .ok (1, 8, [(8, 8)])) ∧
    (withKey .established).rdmaWhere (qpIn .established) (rkeyOf 1 1 0) 0 0 64 .read = .error .path ∧
    (withKey .established).flushFails (qpIn .established) (rkeyOf 1 0 0) 0 64 = none ∧
    (withKey .established).flushFails (qpIn .established) (rkeyOf 1 0 0) (2 ^ 30) 1 = some .path ∧
    psnClass 0 1 = 2 ∧ psnClass 0 (2 ^ 23 - 1) = 2 ∧
    (let q : Qp := { qpIn .established with flushes := [{ psn := 1, reqs := [3] }] }
     let s : State := { withKey .established with rdx := { qps := [(2, q)] } }
     s.qp? 2 = some q ∧ ∃ f ∈ q.flushes, f.psn = 1 ∧ ∀ i ∈ f.reqs, s.reqs.get? i = none) := by
  exact ⟨by decide +kernel, ⟨by decide, ⟨_, _, rfl, by decide +kernel⟩, rfl⟩, rfl, ⟨by decide, ⟨_, _, rfl, by decide +kernel⟩, rfl⟩,
    rfl, rfl, rfl, by decide +kernel, by decide +kernel, by decide +kernel⟩

theorem witness_PoisonedReadIsNakedAndEndsTheQp :
    (let e : RespEnt := { psn := 4, due := false, resp := .readData [] }
     let q : Qp := { qpIn .established with resps := [e] }
     let s : State := { withKey .established with rdx := { qps := [(2, q)] } }
     let r : Req := { src := .rdma 2 4, op := .read, host := 7, region := 1, off := 0, len := 64, segs := [(0, 64)] }
     s.qp? 2 = some q ∧ s.bit Reg.secCtl 0 = true ∧ s.paused q.port (s.prioOf q) = false ∧
       (s.port q.port).txq.getD (s.prioOf q) [] = [] ∧
       q.resps = { psn := 4, due := false, resp := .readData [] } :: [] ∧ r.acked = false ∧ r.silent = false) ∧
    ∃ bytes poison, Ending.data [0] [false, true] = .data bytes poison ∧ poison.any id = true := by
  exact ⟨by decide +kernel, _, _, rfl, by decide⟩

theorem witness_KeysLeasesAndRequester :
    ((withKey .established).qp? 2 = some (qpIn .established) ∧ psnClass (qpIn .established).psnRx 0 = 0 ∧
      (withKey .established).bit Reg.secCtl 0 = true ∧ (withKey .established).rnrNow false = false ∧
      (qpIn .established).service ≤ 1 ∧ (let l : Lease := { cred := 3, mgmt := false, maxQp := 4, maxMkey := 4, state := .lapsed }
       ((State.psnTake { withKey .established with leases := [(7, l)] } 2 0 0).addResp 2 0 .ack true).leaseLive 7 = false)) ∧
    (let l : Lease := { cred := 3, mgmt := false, maxQp := 4, maxMkey := 4, state := .active }
     let s : State := { withKey .established with leases := [(7, l)] }
     let u := (s.psnTake 2 0 0).addResp 2 0 .ack true
     u.leaseLive (qpIn .established).host = true ∧ (u.keyNamed (rkeyOf 1 0 0)).isSome = true ∧
       (u.keyMake (qpIn .established).host 1 15 255 0 0 (2 ^ 30)).isOk = true) ∧
    (∃ r, (withKey .established).keyMake (qpIn .established).host 1 15 255 0 0 (2 ^ 30) = .ok r) ∧
    (∃ k, (withKey .established).keyNamed (rkeyOf 1 0 0) = some (1, k) ∧ k.host = (qpIn .established).host) ∧
    (∃ l, (withKey .established).leases.get? 7 = some l ∧ l.state = .active) ∧
    (let l : Lease := { cred := 3, mgmt := false, maxQp := 4, maxMkey := 4, state := .revoked, revokeDone := true }
     ({ up with leases := [(7, l)] } : State).leases.get? 7 = some l ∧ l.state = .revoked ∧ l.revokeDone = true) ∧
    (let q (n : Nat) : Qp := { qpIn .established with outstanding := [(1, 5, 9)], retries := n }
     let s (n : Nat) : State := { up with rdx := { qps := [(2, q n)] } }
     (s 6).qp? 2 = some (q 6) ∧ (q 6).outstanding ≠ [] ∧ (q 6).retries < (s 6).fld Reg.rdxReqRetry 7 5 ∧
       (s 7).qp? 2 = some (q 7) ∧ (s 7).fld Reg.rdxReqRetry 7 5 ≤ (q 7).retries) := by
  exact ⟨by decide +kernel, by decide +kernel, ok_of_isOk (by decide +kernel), ⟨_, rfl, rfl⟩, ⟨_, rfl, rfl⟩, by decide +kernel, by decide +kernel⟩

end Sys2Proof.Tests
end

