-- ==== Sys2Proof/Tests/WitnessRegisters.lean ====
section
/-! SUPPORT. For each statement on the queue, memory and registers that has hypotheses: a state and operands that meet
the hypotheses of each clause. -/

namespace Sys2Proof.Tests

set_option Elab.async false

open Sys2Proof Sys2Proof.Machine

theorem witness_EmptyQueueStepIsOneTick :
    up.pending = [] ∧ up.isl.quiet ≠ .entering ∧ { up with isl := { up.isl with quiet := .entering } }.isl.quiet = .entering := by
  decide +kernel

theorem witness_StepKeepsMemorySound :
    State.reset.memoryOk ∧ (∃ t, step State.reset = .next t) ∧
      ∃ t, step { State.reset with pending := [.wakeComplete 1] } = .next t := by
  unfold State.memoryOk; exact ⟨by decide, ⟨_, rfl⟩, ⟨_, rfl⟩⟩

theorem witness_CommandsLeaveTheQueue : State.reset.memoryOk ∧ ∃ t, exec (.gpfPhase1 0 0) State.reset = .next t := by
  unfold State.memoryOk; exact ⟨by decide, ⟨_, rfl⟩⟩

/-- A write of the sectors 1 and 2 and of one byte of sector 3, in persistent space from byte 64. -/
theorem witness_AppliedWriteReadsBack :
    memWf State.reset.mem = true ∧ 128 < (List.replicate 129 (7 : Byte)).length ∧ 3 ∈ sectorsOf 64 129 ∧
      4 ∉ sectorsOf 64 129 ∧ coversSector 64 129 2 = true ∧ coversSector 64 129 3 = false := by
  decide +kernel

theorem witness_RegisterBankAndCounters : Reg.twnHb ≠ Reg.twnCtl ∧ (31 : Nat) < 32 := by decide +kernel

theorem witness_WriteMergesByAccessCode :
    (31 : Nat) < 32 ∧ (dAt Reg.dmcTrain).pair = 0 ∧ (dAt Reg.dmcTrain).rc = 0 := by decide +kernel

theorem witness_RegisterWritesTakeEffect :
    (up.serves .firmware Reg.twnHb (dAt Reg.twnHb) ∧ goodAccess Reg.twnHb 4 = true ∧ (dAt Reg.twnHb).pair = 0 ∧
      plainOff Reg.twnHb ∧ pathFw .firmware = true) ∧
    (up.serves .firmware Reg.twnEvent (dAt Reg.twnEvent) ∧ goodAccess Reg.twnEvent 4 = true ∧
      (dAt Reg.twnEvent).pair = 0 ∧ plainOff Reg.twnEvent ∧ fwOwned (dAt Reg.twnEvent) Reg.twnEvent = false) ∧
    (up.serves .firmware Reg.dmcScrubStartLo (dAt Reg.dmcScrubStartLo) ∧ goodAccess Reg.dmcScrubStartLo 4 = true ∧
      (dAt Reg.dmcScrubStartLo).pair = 1 ∧ ((dAt Reg.dmcScrubStartLo).rw ||| (dAt Reg.dmcScrubStartLo).rwl) ≠ 0) ∧
    (up.serves .firmware Reg.dmcScrubStartHi (dAt Reg.dmcScrubStartHi) ∧ goodAccess Reg.dmcScrubStartHi 4 = true ∧
      (dAt Reg.dmcScrubStartHi).pair = 2 ∧ ((dAt Reg.dmcScrubStartHi).rw ||| (dAt Reg.dmcScrubStartHi).rwl) ≠ 0 ∧
      Reg.dmcScrubStartHi ≠ Reg.plcTileSelHi ∧ descAt (Reg.dmcScrubStartHi - 4) = some (dAt Reg.dmcScrubStartLo)) := by
  unfold State.serves plainOff; decide +kernel

theorem witness_RegisterReadsAnswer :
    (up.serves (.bar0 0) Reg.glbPartId (dAt Reg.glbPartId) ∧ goodAccess Reg.glbPartId 4 = true ∧
      (dAt Reg.glbPartId).pair = 0 ∧ (dAt Reg.glbPartId).rc = 0 ∧ Reg.glbPartId ≠ Reg.lapCommit ∧
      Reg.glbPartId < Reg.evrWindow ∧ (∀ ld, RegPath.bar0 0 = .bar0 ld → Reg.glbPartId ≠ Reg.mbxPbarrier + 0x2000 * ld.val)) ∧
    (up.serves .firmware Reg.dmcScrubStartLo (dAt Reg.dmcScrubStartLo) ∧ goodAccess Reg.dmcScrubStartLo 4 = true ∧
      (dAt Reg.dmcScrubStartLo).pair = 1 ∧ Reg.dmcScrubStartLo ≠ Reg.lapCommit ∧ Reg.dmcScrubStartLo < Reg.evrWindow ∧
      (∀ ld, RegPath.firmware = .bar0 ld → Reg.dmcScrubStartLo ≠ Reg.mbxPbarrier + 0x2000 * ld.val)) ∧
    (up.serves .mgt Reg.dmcScrubStartHi (dAt Reg.dmcScrubStartHi) ∧ goodAccess Reg.dmcScrubStartHi 4 = true ∧
      (dAt Reg.dmcScrubStartHi).pair = 2 ∧ Reg.dmcScrubStartHi < Reg.evrWindow) ∧
    (up.serves .firmware Reg.glbBadAccess (dAt Reg.glbBadAccess) ∧ goodAccess Reg.glbBadAccess 4 = true ∧
      (dAt Reg.glbBadAccess).pair = 0 ∧ (dAt Reg.glbBadAccess).rc ≠ 0 ∧ Reg.glbBadAccess < Reg.evrWindow ∧
      (∀ ld, RegPath.firmware = .bar0 ld → Reg.glbBadAccess ≠ Reg.mbxPbarrier + 0x2000 * ld.val)) ∧
    (dAt Reg.glbBadAccess).rc = 0xFFFFFFFF := by
  unfold State.serves; decide +kernel

theorem witness_RcReadKeepsSameCycleIncrements :
    (Reg.glbBadAccess = Reg.glbFwReject ∨ Reg.glbBadAccess = Reg.glbBadAccess) ∧ up.isl.quiet = .awake ∧
      up.gated 1 = false := by decide +kernel

theorem witness_W1cClearsWhatHardwareDoesNotSet :
    Reg.secEvent ∈ [Reg.tqmEvent, Reg.plcEvent, Reg.hlcEvent, Reg.fmcEvent, Reg.elgEvent, Reg.twnEvent, Reg.rdxEvent,
        Reg.secEvent] ∧ up.serves .mgt Reg.secEvent (dAt Reg.secEvent) ∧ (dAt Reg.secEvent).w1c.testBit 4 = true := by
  unfold State.serves; decide +kernel

theorem witness_BadAccessCounts : up.hasPath (.bar0 31) = true ∧ goodAccess 2 4 = false ∧ goodAccess 0 8 = false ∧ goodAccess 0x4000000 4 = false := by
  decide +kernel

theorem witness_GatedAccessNoted :
    State.reset.hasPath .firmware = true ∧ State.reset.reaches .firmware Reg.hlcCtl = true ∧ State.reset.absent Reg.hlcCtl = false ∧
      descAt Reg.hlcCtl = some (dAt Reg.hlcCtl) ∧ goodAccess Reg.hlcCtl 4 = true ∧ State.reset.isl.quiet = .awake ∧
      State.reset.gated (islandOf Reg.hlcCtl) = true ∧ Reg.hlcCtl ≠ Reg.lapCommit ∧
      (∀ ld, RegPath.firmware = .bar0 ld → Reg.hlcCtl ≠ Reg.mbxPbarrier + 0x2000 * ld.val) ∧
      (let s := State.reset.gatedNote 36 Reg.hlcCtl true
       (s.bit Reg.islEvent 0 = true ∨ s.bit Reg.islEvent 1 = true) ∧
         ((s.path 36).own.get? Reg.islGatedAddr).isSome = true) := by decide +kernel

theorem witness_SelectorsTakeSnapshots :
    (up.hasPath .firmware = true ∧ (∀ off, up.reaches .firmware off = true) ∧ up.variantN = false ∧ up.isl.quiet = .awake ∧
      (∀ i, up.gated i = false) ∧ up.efl.seq = .locked) ∧
    (let s := { up with sqs := [(4095, { host := 7, region := 1, base := 0, log2 := 4, cq := 5, maint := true, limit := 64 })]
                        cqs := [(0, { host := 7, region := 1, base := 0, log2 := 4, vector := 2, window := 0
                                      t0 := { kind := 1, addr := 0, key := 0, ld := 0, host := 0 }
                                      t1 := { kind := 0, addr := 0, key := 0, ld := 0, host := 0 } })] }
     (s.sqs.get? 4095).isSome = true ∧ s.sqs.get? 0 = none ∧ (s.cqs.get? 0).isSome = true ∧ s.cqs.get? 4095 = none) ∧
    ((up.eflBlock (0xFF0000 / 65536 % 256)).state = .normal ∧ up.eflListed (0xFF0000 / 65536 % 256) = true) ∧
    (let r : EvRec := { code := 0x0C04, severity := 1, twin := false, time := 0, p0 := 0, p1 := 0, p2 := 0, p3 := 0 }
     let s := { up with evr := { up.evr with recs := [(0, r)] } }
     s.evrFrom (s.own 36 Reg.evrCursor).toNat = (false, [(0, r)])) :=
  ⟨⟨rfl, fun _ => rfl, rfl, rfl, fun _ => rfl, rfl⟩, by decide +kernel, by decide +kernel, by decide +kernel⟩

theorem witness_LatchesAreEachPathsOwn :
    up.isl.quiet = .awake ∧ descAt Reg.dmcScrubStartLo = some (dAt Reg.dmcScrubStartLo) ∧
      (dAt Reg.dmcScrubStartLo).pair = 1 ∧ Reg.dmcScrubStartLo ≠ Reg.lapCommit ∧
      Reg.dmcScrubStartLo + 4 < Reg.evrWindow ∧
      (∀ ld, RegPath.firmware = .bar0 ld → Reg.dmcScrubStartLo ≠ Reg.mbxPbarrier + 0x2000 * ld.val) ∧
      pathKey .firmware ≠ pathKey .mgt ∧ (∃ t, exec (.registerLoRead .firmware Reg.dmcScrubStartLo) up = .next t) ∧
      up.serves .firmware Reg.dmcScrubStartLo (dAt Reg.dmcScrubStartLo) := by
  unfold State.serves
  exact ⟨by decide, by decide +kernel, by decide +kernel, by decide, by decide, by decide, by decide, ⟨_, rfl⟩,
    by decide +kernel⟩

end Sys2Proof.Tests
end

