-- ==== Sys2Proof/Tests/WitnessTiers.lean ====
section
/-! SUPPORT. For each statement on placement, the HLC and DRAM that has hypotheses: states and operands that meet the
hypotheses of each clause. -/

namespace Sys2Proof.Tests

set_option Elab.async false

open Sys2Proof Sys2Proof.Machine

/-- Tile 3 of region 1 with a move of a kind at a stage, and a frame taken for it. -/
def moveOf (k : MoveKind) (st : MoveStage) : Move :=
  { kind := k, why := .sweep, stage := st, order := 0, frame := some 7, dest := 9, read := List.range 8 }

/-- The machine with that move of tile 3. -/
def withMove (k : MoveKind) (st : MoveStage) : State :=
  { served with moves := [(3, moveOf k st)], tiles := [(3, { home := .flash, loc := 5, lock := true })] }

/-- Sweeps enabled, with 1,024 frames. -/
def sweeps : State := (served.setReg Reg.plcCtl 0xF).setReg Reg.plcTotals 1024

/-- A write to tile 3 that waits for its promotion. -/
def waits3 : State :=
  { withMove .promote .moving with reqs := [(1, { src := .cxl 0 0, op := .write, host := 0, region := 1, off := 12288
                                                  len := 64, segs := [(12288, 64)], todo := [(12288, 64, 0)] })] }

theorem witness_MovesSwitchHomes :
    ((withMove .promote .moving).moves.get? 3 = some (moveOf .promote .moving) ∧ (moveOf .promote .moving).why ≠ .atomTile ∧
      (moveOf .promote .moving).frame = some 7 ∧
      (withMove .promote .moving).mediaStep.readsIssued 3 (moveOf .promote .moving) = true) ∧
    (withMove .repair .verified).moves.get? 3 = some (moveOf .repair .verified) ∧
    (withMove .evict .verified).moves.get? 3 = some (moveOf .evict .verified) ∧
    (withMove .relocate .verified).moves.get? 3 = some (moveOf .relocate .verified) := by decide +kernel

theorem witness_PlacementSweepsAndWaits :
    waits3.waitsPromo 3 = true ∧
    (sweeps.bit Reg.plcCtl 2 = true ∧ sweeps.framesTotal ≠ 0 ∧ sweeps.frames.get? (sweeps.frameBase + sweeps.plc.sweep) = none) ∧
    (let b := sweeps.frameBase
     let f : Frame := { tile := 3, cls := 0 }
     let s : State := { sweeps with frames := [(b, f)], tiles := [(3, { home := .dram, loc := b })] }
     let u : State := { s with plc := { tmc := [(0, { dirty := false, used := 0 })] } }
     u.bit Reg.plcCtl 2 = true ∧ u.framesTotal ≠ 0 ∧ u.frames.get? (u.frameBase + u.plc.sweep) = some f ∧ f.held = false ∧
       u.mapHit f.tile = true ∧ (u.tile f.tile).home = .dram ∧ (u.tile f.tile).loc = u.frameBase + u.plc.sweep ∧
       s.frames.get? (s.frameBase + s.plc.sweep) = some f ∧ s.mapHit f.tile = false ∧
       s.plc.tmcFills.contains (mapLine f.tile) = false) ∧
    (let s : State := { sweeps with
       tiles := [(0, { home := .flash, heat := 9 })], plc := { tmc := [(0, { dirty := false, used := 0 })] } }
     s.bit Reg.plcCtl 3 = true ∧ inFlash (s.tile s.plc.mapSweep).home = true ∧ s.mapHit s.plc.mapSweep = true) ∧
    (let s : State := { up.setReg Reg.dmcCtl 1 with plc := { tmcFills := [4] }, chans := [(1, { state := .active })] }
     s.plc.tmcFills.contains 4 = true ∧ (s.served (chOfLine (4 / 64) (4 / 4)) 1 4).isSome = true) ∧
    ((up.frames.filter fun e => e.2.held && !up.namesLoc true e.1) = [] ∧ up.plc.heldFlash = []) ∧
    (let f : Frame := { tile := 3, cls := 0, held := true }
     let s : State := { up with frames := [(40, f)] }
     (s.frames.filter fun e => e.2.held && !s.namesLoc true e.1) = [(40, f)] ∧ f.bad = false ∧ s.plc.heldFlash = []) := by
  decide +kernel

/-- The line 15 of tile 3 in way 2 of its set, in a state. -/
def wayIn (st : LineState) : Way := { state := st, dirty := st == .dirty, cls := 0, tile := 3, line := 15 }

/-- The machine with HLC state, tile 3 in DRAM, channel 8 (of that tile's line 15) ACTIVE and issuing, cleaning
enabled. -/
def withHlc (h : Hlc) : State :=
  (({ served with tiles := [(3, { home := .dram, loc := 7 })], hlc := h, chans := [(8, { state := .active })] } :
    State).setReg Reg.hlcCtl 1).setReg Reg.dmcCtl 1

/-- The machine with that line. -/
def withLine (st : LineState) : State := withHlc { ways := [(wayKey (hlcSet 3 15) 2, wayIn st)], cleaning := true }

theorem witness_HlcLines :
    ((withLine .filling).line? 3 15 = some (wayKey (hlcSet 3 15) 2, wayIn .filling) ∧
      inDram ((withLine .filling).tile 3).home = true ∧
      (match (withLine .filling).served ((withLine .filling).chanOf 3 15) 0 63 with
        | some t => let u := t.chiveHits 8 7
          decide (u.line? 3 15 = some (wayKey (hlcSet 3 15) 2, wayIn .filling)) && (u.badInLine 3 15 0).isEmpty
        | none => false) = true) ∧
    ((withLine .writingBack).line? 3 15 = some (wayKey (hlcSet 3 15) 2, wayIn .writingBack) ∧
      ((withLine .writingBack).served ((withLine .writingBack).chanOf 3 15) 2 63).isSome = true) ∧
    (let s := withHlc { evb := [{ tile := 3, line := 15 }] }
     s.inEvb 3 15 = true ∧ (s.served (s.chanOf 3 15) 2 63).isSome = true) ∧
    (let s := (withLine .dirty).setReg Reg.hlcDirty 0
     s.bit Reg.hlcCtl 0 = true ∧ s.cleaningNow = true ∧
       s.lruDirty (hlcSlice 3) = some (wayKey (hlcSet 3 15) 2, wayIn .dirty)) ∧
    (let m : Maint := { inval := true, todo := [] }
     ({ up with hlc := { maint := some m } } : State).hlc.maint = some m ∧ m.todo = []) ∧
    up.hlc.maint = none ∧
    ({ up with hlc := { heldSets := [15 * 2048 + 2047] } } : State).hlc.heldSets.contains (15 * 2048 + 2047) = true ∧
    up.cmdReady Reg.hlcMaintCmd := by unfold State.cmdReady; decide +kernel

/-- Channel 3 in a state. -/
def withChan (c : Chan) : State := { served with chans := [(3, c)] }

theorem witness_DramChannelEvents :
    (((withChan {}).chan 3).temps.getD 1 0 ≠ 2 ∧ ((withChan { temps := [(1, 2)] }).chan 3).temps.getD 1 0 = 2) ∧
    (let s := withChan { state := .active, postponed := [(0, 3)] }
     (s.chan 3).state = .active ∧ s.rankUrgent (s.queued 3 (s.chan 3)) 0 = false) ∧
    (let s : State := { withLine .filling with chans := [(8, { state := .active, urgent := [63], postponed := [(0, 3)] })] }
     (s.chan 8).state = .active ∧ s.rankUrgent (s.queued 8 (s.chan 8)) (s.rankOf 1792) = true ∧
       (s.chan 8).postponed.getD (s.rankOf 1792) 0 < refreshLimit ∧
       ((s.queued 8 (s.chan 8)).queue.any fun r => r.line == 63) = true) := by decide +kernel

theorem witness_DramTrainingChivesAndScrub :
    (up.cmdReady Reg.dmcTrain ∧ (∀ n, n < 16 → (0xFFFF : BitVec 16).getLsbD n = true →
      (up.chan n).state ≠ .training ∧ (up.chan n).state ≠ .retrain)) ∧
    ((withChan { state := .retrain }).chan 3).state = .retrain ∧ ((withChan { state := .training, mode := 1 }).chan 3).state = .training ∧
    ((withChan { state := .training, attempts := 2 }).chan 3).attempts = 2 ∧
    (up.serves .firmware Reg.dmcCtl (dAt Reg.dmcCtl) ∧ up.bit Reg.dmcCtl 1 = false ∧
      (up.setReg Reg.dmcCtl 2).serves .firmware Reg.dmcCtl (dAt Reg.dmcCtl) ∧ (up.setReg Reg.dmcCtl 2).bit Reg.dmcCtl 1 = true) ∧
    (((withChan { state := .active }).chan 3).state = .active ∧
      ((withChan { state := .active }).queued 3 ((withChan { state := .active }).chan 3)).queue = []) ∧
    ((up.chan 15).copying = none ∧ up.isl.quiet = .awake ∧ up.gated (islandOf (chiveOff 15 31)) = false) ∧
    (((withChan { copying := some 31 }).chan 3).copying = some 31 ∧
      (withChan { copying := some 31 }).copyWaits 3 = false) ∧
    (let s := (withChan { fails := [(900, 15)] }).setReg Reg.dmcCtl 4
     let t := s.flag (chOff Reg.dmcChEvent 3) 5
     ((s.chan 3).fails.find? fun e => e.1 == 900) = some (900, 15) ∧ s.fld Reg.dmcRetrain 29 26 ≤ 15 ∧
       t.chiveAt 3 900 = none ∧ t.bit Reg.dmcCtl 2 = true ∧ t.chiveFree 3 = some 0) ∧
    (up.gated (islandOf Reg.dmcScrubCtl) = false ∧ up.bit Reg.dmcScrubCtl 31 = false ∧
      (up.setReg Reg.dmcScrubCtl 0x80000000).bit Reg.dmcScrubCtl 31 = true) := by
  unfold State.serves State.cmdReady; decide +kernel

end Sys2Proof.Tests
end

