-- ==== Sys2Proof/Tests/WitnessTwin.lean ====
section
/-! SUPPORT. For each statement on twin operation that has hypotheses: states and operands that meet the hypotheses of
each clause. -/

namespace Sys2Proof.Tests

set_option Elab.async false

open Sys2Proof Sys2Proof.Machine

/-- The Shaum Link in a state, lane group 2 up. -/
def linkIn (st : LinkState) : State :=
  { served with twn := { link := st, lanes := [(2, { up := true })] } }

/-- The link keying at twin 0 or 1, the appliance record valid. -/
def keyingAt (twin : Bool) : State := (linkIn .keying).setReg Reg.twnId (if twin then 3 else 2)

/-- The link UP with region 1's Ensign somewhere. -/
def ensignAt (e : Ensign) (offered : Bool) : State :=
  { linkIn .up with regions := [(1, { region1 with ensign := e, offered := offered })] }

theorem witness_ShaumLinkStates :
    (up.cmdReady Reg.twnCtl ∧ (31 : Word).toNat < 32) ∧
    (let s := up.setReg Reg.twnCtl 1
     s.twn.fenceIn = false ∧ s.bit Reg.twnCtl 0 = true ∧ s.twn.link = .down) ∧
    (linkIn .training).twn.link = .training ∧
    ((linkIn .up).twn.link = .up ∧ ((linkIn .up).lane 0).up = false ∧ ((linkIn .up).lane 2).up = true) ∧
    (let s := keyingAt true
     let u : State := { s with twn := { s.twn with linkKeys := { ready := true } } }
     s.twn.link = .keying ∧ s.bit Reg.twnId 1 = true ∧ s.sec.entropyOk = true ∧ s.twin = true ∧ u.twn.link = .keying ∧
       u.twn.linkKeys.ready = true) ∧
    (let s : State := { linkIn .up with twn := { link := .up, lanes := [(2, { up := true, ctrTx := 2 ^ 56 })] } }
     s.linkIsUp = true ∧ 2 ^ 56 ≤ (s.lane 2).ctrTx) ∧
    (keyingAt false).twin = false ∧ ((linkIn .up).linkIsUp = true ∧ (linkIn .up).cmdReady Reg.twnCmd) ∧
    (let x : TxMsg := { msg := .ack [1] }
     let s : State := { linkIn .up with twn := { link := .up, tx := [(9, x)] } }
     s.twn.tx.get? 9 = some x ∧ x.sent = true ∧ x.naks + 1 < s.resendMax ∧ s.isl.quiet = .awake) ∧
    (let x : TxMsg := { msg := .ack [1], naks := 7 }
     let s : State := { linkIn .up with twn := { link := .up, tx := [(9, x)] } }
     s.linkIsUp = true ∧ s.twn.tx.get? 9 = some x ∧ x.sent = true ∧ s.resendMax ≤ x.naks + 1) ∧
    (let a : Asm := { count := 2, bitmap := 1, type := 0, msg := .ack [1] }
     let s : State := { linkIn .up with twn := { link := .up, asm := [(9, a)] } }
     s.linkIsUp = true ∧ s.twn.asm.get? 9 = some a) := by
  unfold State.cmdReady; decide +kernel

/-- A MIRROR of one byte of region 1. -/
def mirror1 : MirrorMsg :=
  { region := 1, forwarded := false, atomic := false, tileSwitch := false, host := 0, entryTag := 0, pseq := 1, psa := 0
    data := [1], reqId := 0, result := 0, poison := [] }

/-- The one segment of a message, MSG_SEQ 5. -/
def seg5 : SegHdr :=
  { type := 10, segLen := 64, msgLen := 64, msgSeq := 5, epoch := 0, segOffset := 0, segCount := 1, counter := 1 }

/-- A request forwarded to the peer, tracker number 3. -/
def fwded (op : MemOp) : Req :=
  { src := .cxl 0 0, op := op, host := 0, region := 1, off := 0, len := 64, segs := [(0, 64)], stage := .forwarded }

theorem witness_ShaumMessagesActOnce :
    (linkIn .up).hears 9 ∧
    (let s := ensignAt .peerOwns false
     s.hears 9 ∧ s.mirrorHeld 9 = false ∧ s.regions.get? 1 = some { region1 with ensign := .peerOwns } ∧ mirror1.data ≠ []) ∧
    (let s (op : MemOp) : State := { linkIn .up with reqs := [(3, fwded op)] }
     (s .write).hears 9 ∧ (s .write).reqs.get? 3 = some (fwded .write) ∧ isWrite (fwded .write).op = true ∧
       (s .read).reqs.get? 3 = some (fwded .read) ∧ isWrite (fwded .read).op = false ∧
       (fwded .read).len ≤ (fwded .read).done + (List.replicate 64 (0 : Byte)).length) ∧
    (let s : State := { (linkIn .up).setReg Reg.plcCtl 0xF with tiles := [(3, { home := .flash })] }
     inFlash (s.tile 3).home = true ∧ s.moves.get? 3 = none ∧ ((s.actOn 9).startMove 3 .promote .write []).moves.get? 3 ≠ none) ∧
    (let s : State := { linkIn .up with tiles := [(3, { home := .flash, lock := true })] }
     inFlash (s.tile 3).home = true ∧ s.moves.get? 3 = none ∧ ((s.actOn 9).startMove 3 .promote .write []).moves.get? 3 = none) ∧
    (linkIn .up).twn.tilesIn.get? 9 = none ∧
    (let cs : List Change := [.region 1 region1]
     (linkIn .up).twn.ackHeld.get? 9 = none ∧ cs.any (clashes (linkIn .up).rgtPending) = false ∧
       cs.any ((linkIn .up).actOn 9).claimLost = false) ∧
    (let s : State := { linkIn .up with twn := { link := .up, lanes := [(2, { up := true })], returned := true } }
     s.hears 9 ∧ s.twn.returned = true) ∧
    (let m : Move := { kind := .repair, why := .repair, stage := .pull, order := 0 }
     ({ linkIn .up with moves := [(3, m)] } : State).moves.get? 3 = some m ∧ m.kind = .repair ∧ m.late = false) ∧
    (((ensignAt .handing true).region 1).ensign = .handing ∧ ((ensignAt .handing true).region 1).offered = true) ∧
    (let c : Cq := { host := 7, region := 1, base := 0, log2 := 0, t0 := { kind := 1, addr := 0, key := 0, ld := 0, host := 0 }
                     t1 := { kind := 1, addr := 0, key := 0, ld := 0, host := 0 }, vector := 0, window := 0 }
     ({ linkIn .up with cqs := [(5, c)] } : State).cq? 5 = some c ∧ c.sent ≤ 1 ∧ c.recs.get? 1 = none) ∧
    (∃ crc pseq, ((linkIn .up).actOn 9).tileCrc 3 = (crc, pseq)) ∧
    ({ linkIn .up with twn := { link := .up, verifyBusy := [(3, (1, 2))] } } : State).twn.verifyBusy.get? 3 = some (1, 2) ∧
    (({ linkIn .up with regions := [(1, { region1 with state := .resync })] } : State).region 1).state = .resync ∧
    (let s : State := { linkIn .up with twn := { link := .up, acted := [9] } }
     s.linkIsUp = true ∧ s.isl.quiet = .awake ∧ s.twn.acted.contains 9 = true ∧ s.mirrorHeld 9 = false) ∧
    (let s := ensignAt .handing false
     (s.region 1).ensign = .handing ∧ (s.region 1).offered = false ∧ s.regionOpen 1 = false ∧ s.lapDrained = true ∧
       s.lap.reads = []) ∧
    (let x : Resync := { todo := [3, 4] }
     let s : State := { linkIn .up with twn := { link := .up, resync := [(1, x)] }
                                        moves := [(3, { kind := .evict, why := .sweep, stage := .moving, order := 0 })] }
     s.twn.resync.get? 1 = some x ∧
       (x.todo.find? fun tile => !s.mirrorOpen tile && (s.moves.get? tile).isNone) = some 4 ∧ s.linkIsUp = true) ∧
    (let s := (linkIn .up).setReg Reg.secCtl 2
     s.linkIsUp = true ∧ s.lanesUp.contains 2 = true ∧ s.bit Reg.secCtl 1 = true ∧ (s.takeBuf 64).isSome = true ∧
       (match s.takeBuf 64 with
         | some (t, b) => let u := (t.freeBuf b).modLane 2 fun l => { l with ctrRx := 1 }
           ((u.heardOn false).placeSeg seg5 true (.burgee (burgeeAt 8))).counterOver 2
         | none => true) = false) ∧
    (65535 % 65536 ≠ (linkIn .up).twn.epoch ∧ 0 % 65536 = (linkIn .up).twn.epoch ∧
      isBurgee (.burgee (burgeeAt 8)) = true) := by
  unfold State.hears
  refine ⟨?_, ?_, ?_, ?_, ?_, ?_, ?_, ?_, ?_, ?_, ?_, ⟨_, _, rfl⟩, ?_⟩ <;> decide +kernel

/-- Service in a fencing step. -/
def fencing (f : FenceStep) : State := { served with twn := { fence := f } }

theorem witness_PeerFailureFencingAndTakeover :
    ((linkIn .up).linkIsUp = true ∧ (linkIn .up).lanesUp = [2]) ∧ (up.setReg Reg.twnCtl 2).tsbLive = true ∧
    (up.twn.shaumSilent = false ∧ up.twn.peerFast = false ∧ up.twn.tsbSilent = false) ∧
    (let s : State := { served with twn := { shaumSilent := true, tsbSilent := true, peer := .suspect } }
     s.admitted = true ∧ s.twn.fenceIn = false ∧ s.selfSaving = false ∧ s.twn.shaumSilent = true ∧ s.twn.tsbSilent = true ∧
       s.twn.peer = .suspect) ∧
    (let s : State := { served with twn := { shaumSilent := true, mate := true, peerB := some (burgeeAt 8) } }
     s.selfSaving = false ∧ s.twn.tsbSilent = false ∧ s.twn.mate = true ∧ s.linkIsUp = false ∧ s.keepsService = true) ∧
    ((fencing .defer).twn.fence = .defer ∧ (fencing .defer).twn.fenceIn = false ∧ (fencing .settle).twn.fence = .settle ∧
      (fencing .taking).twn.fence = .taking ∧ (fencing .taking).fw.halted = false ∧
      (fencing .taking).isl.quiet = .awake) ∧
    (let s := served
     let t := State.flag { s with twn := { s.twn with
       fenceIn := true, hostsHeld := true, fence := .none, forced := false, mate := false, paired := false
       rejoin := s.openTiles.foldl insertNew s.twn.rejoin } } Reg.twnEvent 4
     s.twn.fenceIn = false ∧ (t.withdraw.dropCtl.dropWork.hostsOff true).shaumOff.yieldRegions.selfSaving = false) ∧
    ({ up with twn := { fenceIn := true } } : State).twn.fenceIn = true ∧
    (up.cmdReady Reg.twnCmd ∧ up.twn.fenceOut = false ∧ up.twn.fence = .none) ∧
    (let s : State := { up with twn := { pulses := 1, pulseBase := 0, peerB := some { burgeeAt 8 with fenceSeen := 1 } } }
     s.twn.fenceOut = false ∧ 0 < s.twn.pulses ∧ s.peerSeen ≠ s.twn.pulseBase) ∧
    (let s : State := { up with twn := { lastRelease := some 0 } }
     s.twn.fenceOut = false ∧ s.twn.lastRelease ≠ none ∧ s.linkIsUp = false) ∧
    (let s : State := ({ up with twn := { releaseDeferred := true, fenceOut := true } } : State).setReg Reg.twnCtl 0
     s.twn.releaseDeferred = true ∧ s.twn.fenceOut = true ∧ s.bit Reg.twnCtl 4 = false) ∧
    (let s : State := { served with twn := { mate := true }, regions := [(1, { region1 with prefOwner := true })] }
     s.paired = true ∧ s.twn.resync = [] ∧ s.twn.peerRejoin = none ∧ s.twn.fenceIn = false ∧ s.twn.fenceOut = false ∧
       (s.regions.vals.all fun r => r.state == .online) = true ∧
       (s.regions.filter fun e => e.2.ensign == .owner && e.2.prefOwner != s.twin).map Prod.fst ≠ []) := by
  unfold State.cmdReady; decide +kernel

theorem witness_StandbySelfTest :
    (let s : State := ({ served with twn := { mate := true } } : State).setReg Reg.twnCtl 0
     s.bit Reg.twnCtl 3 = false ∧ s.paired = true ∧ s.regionOfTile 262143 = some 1 ∧ (s.region 1).ensign = .owner ∧
       s.mirrorOpen 262143 = false ∧ (s.tile 262143).lock = false ∧ s.bit Reg.dmcScrubCtl 31 = false) := by decide +kernel

end Sys2Proof.Tests
end

section
/-! SUPPORT. What a read of the register space leaves in each path's own state (R60): a read at a _LO writes the reader's own
latches, and a read of a gated island writes its note of the access. -/

namespace Sys2Proof.Machine

/-! ### A path's own state after an update -/

/-- A key is listed after a map of the values as it was before, with the mapped value. -/
theorem Tbl.get?_mapV {α β : Type} (t : Tbl α) (f : α → β) (n : Nat) :
    Tbl.get? (Tbl.mapV t f) n = (Tbl.get? t n).map f := by
  induction t with
  | nil => rfl
  | cons e t ih =>
    obtain ⟨k, v⟩ := e
    change (if n = k then some (f v) else Tbl.get? (Tbl.mapV t f) n) = (if n = k then some v else Tbl.get? t n).map f
    rw [ih, apply_ite (Option.map f), Option.map_some]

@[simp] theorem State.path_emit (s : State) (o : Output) (k : Nat) : (s.emit o).path k = s.path k := rfl

@[simp] theorem State.path_count (s : State) (off k : Nat) : (s.count off).path k = s.path k := rfl

@[simp] theorem State.path_flag (s : State) (off i k : Nat) : (s.flag off i).path k = s.path k := rfl

theorem State.path_setPath (s : State) (k j : Nat) (f : PathSt → PathSt) :
    (s.setPath k f).path j = if j = k then f (s.path k) else s.path j := by
  simp only [State.path, State.setPath_paths, Tbl.upd, Tbl.getD, Tbl.get?_set]
  split <;> rfl

theorem State.path_setPath_ne (s : State) {k j : Nat} (f : PathSt → PathSt) (h : j ≠ k) :
    (s.setPath k f).path j = s.path j := by
  rw [State.path_setPath, if_neg h]

/-- Setting a register of a path's own leaves the latches of every path. -/
@[simp] theorem State.latch_setOwn (s : State) (k off j : Nat) (w : Word) :
    ((s.setOwn k off w).path j).latch = (s.path j).latch := by
  rw [State.setOwn, State.path_setPath]
  split
  next h => rw [h]
  next => rfl

/-- A change of every listed path's own state that leaves its latches leaves the latches of every path. -/
theorem State.latch_mapPaths (s : State) (f : PathSt → PathSt) (k : Nat) (hf : ∀ q, (f q).latch = q.latch) :
    (State.path { s with paths := s.paths.mapV f } k).latch = (s.path k).latch := by
  simp only [State.path, Tbl.getD, Tbl.get?_mapV]
  cases s.paths.get? k with
  | none => rfl
  | some q => exact hf q

/-- The note of an access to a gated island (R613) leaves the latches of every path. -/
@[simp] theorem State.latch_gatedNote (s : State) (k off j : Nat) (write : Bool) :
    ((s.gatedNote k off write).path j).latch = (s.path j).latch := by
  simp only [State.gatedNote]
  split <;> split <;> simp [State.latch_mapPaths]

/-! ### What a register shows to a path -/

/-- What a register shows beside the registers that each path has of its own depends on no path's own state. -/
@[simp] theorem State.shows_setPath (s : State) (k : Nat) (f : PathSt → PathSt) (off : Nat) :
    (s.setPath k f).shows off = s.shows off := rfl

@[simp] theorem State.shownTo_emit (s : State) (o : Output) (k off : Nat) : (s.emit o).shownTo k off = s.shownTo k off := rfl

/-- A change of one path's own state leaves what every register shows to the other paths. -/
theorem State.shownTo_setPath_ne (s : State) {k j : Nat} (f : PathSt → PathSt) (off : Nat) (h : j ≠ k) :
    (s.setPath k f).shownTo j off = s.shownTo j off := by
  simp only [State.shownTo, State.own, State.path_setPath_ne s f h, State.shows_setPath]

/-! ### Reads of halves of a pair -/

/-- A read of a _LO latches what its _HI shows to the reader, and changes nothing else (R11). -/
theorem State.readReg_lo (s : State) (k off : Nat) (d : RegDesc) (hpair : d.pair = 1)
    (hwin : off < Reg.evrWindow ∨ Reg.evrWindow + 32 ≤ off) :
    s.readReg k off d =
      (s.setPath k fun q => { q with latch := q.latch.set off (s.shownTo k (off + 4)) }, s.shownTo k off) := by
  rw [State.readReg, if_neg (by omega)]
  simp [hpair]

/-- A read of a _HI answers the half that the reader has latched, or else what the register shows to it (R11). -/
theorem State.readReg_hi (s : State) (k off : Nat) (d : RegDesc) (hpair : d.pair = 2)
    (hwin : off < Reg.evrWindow ∨ Reg.evrWindow + 32 ≤ off) :
    s.readReg k off d = (s, (s.path k).latch.getD (off - 4) (s.shownTo k off)) := by
  rw [State.readReg, if_neg (by omega)]
  simp [hpair]

/-! ### A 4-byte read of an awake chip -/

theorem State.barWake_awake (s : State) (p : RegPath) (h : s.isl.quiet = .awake) : s.barWake p = (s, false) := by
  cases p <;> simp [State.barWake, h]

/-- Where the reader is served, a 4-byte read is the register's own read. -/
theorem State.read4_of_serves {s : State} {p : RegPath} {off : Nat} {d : RegDesc} (h : s.serves p off d) :
    s.read4 p off = s.readReg (pathKey p) off d := by
  obtain ⟨-, hreach, habs, hdesc, hawake, hgate⟩ := h
  simp [State.read4, hreach, habs, hdesc, State.barWake_awake s p hawake, hgate]

/-- A 4-byte read of a _LO leaves the latches of every path but the reader's, whether the register's island runs or is
gated (R60). -/
theorem State.latch_read4_lo (s : State) (p : RegPath) (off j : Nat) (d : RegDesc) (hawake : s.isl.quiet = .awake)
    (hdesc : descAt off = some d) (hpair : d.pair = 1) (hwin : off < Reg.evrWindow ∨ Reg.evrWindow + 32 ≤ off)
    (hj : j ≠ pathKey p) : ((s.read4 p off).1.path j).latch = (s.path j).latch := by
  simp only [State.read4, hdesc, State.barWake_awake s p hawake]
  split
  next => rw [State.path_count]
  next =>
    split
    next => rfl
    next =>
      split
      next => exact s.latch_gatedNote (pathKey p) off j false
      next => rw [State.readReg_lo s _ off d hpair hwin, State.path_setPath_ne s _ hj]

/-! ### Where registers stand -/

/-- A register of the table stands at a multiple of 4, and so does every element of its array. -/
def RegDesc.aligned (d : RegDesc) : Bool := d.off % 4 == 0 && d.stride % 4 == 0 && d.stride2 % 4 == 0

theorem all_ite {α : Type} {c : Prop} [Decidable c] {xs ys : List α} {p : α → Bool} (hx : xs.all p = true)
    (hy : ys.all p = true) : (if c then xs else ys).all p = true := by
  split <;> assumption

theorem blockRegs_aligned (off : Nat) : ∀ d ∈ blockRegs off, d.aligned = true := by
  suffices h : (blockRegs off).all RegDesc.aligned = true from List.all_eq_true.mp h
  unfold blockRegs
  iterate 21 refine all_ite (by decide) ?_
  rfl

theorem RegDesc.hits_mod_four {d : RegDesc} {off : Nat} (hal : d.aligned = true) (h : d.hits off = true) : off % 4 = 0 := by
  simp only [RegDesc.aligned, Bool.and_eq_true, beq_iff_eq] at hal
  obtain ⟨⟨hoff, hstride⟩, hstride2⟩ := hal
  simp only [RegDesc.hits, Bool.and_eq_true, decide_eq_true_eq] at h
  obtain ⟨hle, hin⟩ := h
  have hrow : 4 ∣ (off - d.off) % d.stride := by
    split at hin
    next =>
      rw [Bool.and_eq_true, beq_iff_eq] at hin
      simp [hin.1]
    next =>
      simp only [Bool.and_eq_true, beq_iff_eq] at hin
      exact (Nat.dvd_of_mod_eq_zero hstride2).trans (Nat.dvd_of_mod_eq_zero hin.1.2)
  have hdist : 4 ∣ off - d.off := (Nat.dvd_mod_iff (Nat.dvd_of_mod_eq_zero hstride)).mp hrow
  omega

/-- No block stands above 0xB40000 (R58). -/
theorem blockRegs_above {off : Nat} (h : 0xB40000 ≤ off) : blockRegs off = [] := by
  simp (disch := omega) only [blockRegs, if_neg]

/-- Every register may be read or written with 4 bytes (R59). -/
theorem goodAccess_of_descAt {off : Nat} {d : RegDesc} (h : descAt off = some d) : goodAccess off 4 = true := by
  rw [descAt] at h
  have hmem : d ∈ blockRegs off := List.mem_of_find?_eq_some h
  have hhits := List.find?_some h
  have hal : off % 4 = 0 := RegDesc.hits_mod_four (blockRegs_aligned off d hmem) hhits
  have hlt : off < 0xB40000 := by
    by_contra hge
    rw [blockRegs_above (by omega)] at h
    cases h
  simp [goodAccess, hal, show off < 0x4000000 by omega]

/-! ### The command -/

/-- REGISTER_LO_READ of a register that answers at once, so neither a persist barrier of the reader's own window (R98) nor
LAP_COMMIT (R681): the 4-byte read with its answer sent, or nothing where the path does not exist (R3). -/
theorem exec_registerLoRead {s : State} {p : RegPath} {off : Nat} {d : RegDesc} (hdesc : descAt off = some d)
    (hcommit : off ≠ Reg.lapCommit) (hbar : ∀ ld, p = .bar0 ld → off ≠ Reg.mbxPbarrier + 0x2000 * ld.val) :
    exec (.registerLoRead p off) s = .next (if s.hasPath p = false then s
      else (s.read4 p off).1.emit (.regRead (pathKey p) off (s.read4 p off).2 none)) := by
  have hgood := goodAccess_of_descAt hdesc
  change Host.Outcome.next (s.readAccess p off 4) = _
  cases p with
  | bar0 ld => simp [State.readAccess, hgood, hcommit, hbar ld rfl]
  | mgt | rdma | cxlMbx | peer | firmware => simp [State.readAccess, hgood, hcommit]

/-- REGISTER_LO_READ of a _LO leaves the latches of every path but the reader's. -/
theorem registerLoRead_latch {s t : State} {p : RegPath} {off j : Nat} {d : RegDesc} (hawake : s.isl.quiet = .awake)
    (hdesc : descAt off = some d) (hpair : d.pair = 1) (hcommit : off ≠ Reg.lapCommit)
    (hwin : off < Reg.evrWindow ∨ Reg.evrWindow + 32 ≤ off)
    (hbar : ∀ ld, p = .bar0 ld → off ≠ Reg.mbxPbarrier + 0x2000 * ld.val) (hj : j ≠ pathKey p)
    (h : exec (.registerLoRead p off) s = .next t) : (t.path j).latch = (s.path j).latch := by
  rw [exec_registerLoRead hdesc hcommit hbar, Host.Outcome.next.injEq] at h
  subst h
  split
  next => rfl
  next => rw [State.path_emit, State.latch_read4_lo s p off j d hawake hdesc hpair hwin hj]

/-- REGISTER_LO_READ of a _LO that serves the reader: the reader's latch takes the _HI half, and the answer is sent. -/
theorem exec_registerLoRead_served {s : State} {p : RegPath} {off : Nat} {d : RegDesc} (hserves : s.serves p off d)
    (hpair : d.pair = 1) (hcommit : off ≠ Reg.lapCommit) (hwin : off < Reg.evrWindow ∨ Reg.evrWindow + 32 ≤ off)
    (hbar : ∀ ld, p = .bar0 ld → off ≠ Reg.mbxPbarrier + 0x2000 * ld.val) :
    exec (.registerLoRead p off) s = .next ((s.setPath (pathKey p) fun q =>
      { q with latch := q.latch.set off (s.shownTo (pathKey p) (off + 4)) }).emit
        (.regRead (pathKey p) off (s.shownTo (pathKey p) off) none)) := by
  have ⟨hpath, _, _, hdesc, _, _⟩ := hserves
  rw [exec_registerLoRead hdesc hcommit hbar, if_neg (by simp [hpath]), State.read4_of_serves hserves,
    State.readReg_lo s _ off d hpair hwin]

/-- A change of one path's own state, and what the device then sends, leave what another path's read of a _HI answers. -/
theorem State.readReg_hi_setPath_emit (s : State) {k j off : Nat} (f : PathSt → PathSt) (o : Output) (d : RegDesc)
    (hpair : d.pair = 2) (hwin : off < Reg.evrWindow ∨ Reg.evrWindow + 32 ≤ off) (hj : j ≠ k) :
    (((s.setPath k f).emit o).readReg j off d).2 = (s.readReg j off d).2 := by
  simp only [State.readReg_hi _ j off d hpair hwin, State.path_emit, State.shownTo_emit, State.path_setPath_ne s f hj,
    State.shownTo_setPath_ne s f off hj]

end Sys2Proof.Machine

namespace Sys2Proof.Proofs

open Sys2Proof Sys2Proof.Machine

/-- Settles O17: the read touches the own state of the reader alone, except that a gated island's note erases an own register
of every path, which is no latch; and what a register shows to a path depends on no other path's own state. -/
theorem latchesAreEachPathsOwn : Obligations.LatchesAreEachPathsOwn := by
  intro s t p q off d hawake hdesc hpair hcommit hwin hbar hpq h
  refine ⟨registerLoRead_latch hawake hdesc hpair hcommit (by omega) hbar hpq.symm h, fun hserves => ?_⟩
  rw [exec_registerLoRead_served hserves hpair hcommit (by omega) hbar, Host.Outcome.next.injEq] at h
  subst h
  exact ⟨rfl, s.readReg_hi_setPath_emit _ _ _ rfl (by omega) hpq.symm⟩

end Sys2Proof.Proofs
end

section
/-! SUPPORT. The three GPF commands of a CXL link (R99, R100): what each leaves, and when a Phase 2 is answered. -/

namespace Sys2Proof.Machine

/-! ### A register's field after an update that leaves the bank -/

@[simp] theorem State.fld_emit (s : State) (o : Output) (off hi lo : Nat) : (s.emit o).fld off hi lo = s.fld off hi lo := rfl

@[simp] theorem State.fld_modLink (s : State) (port link : Nat) (f : CxlLink → CxlLink) (off hi lo : Nat) :
    (s.modLink port link f).fld off hi lo = s.fld off hi lo := rfl

/-! ### The commands -/

theorem exec_gpfPhase1 (s : State) (port link : Fin 2) :
    exec (.gpfPhase1 port link) s = .next (s.emit (.gpfAck port link 1)) := rfl

theorem exec_gpfPhase2 (s : State) (port link : Fin 2) :
    exec (.gpfPhase2 port link) s = .next (s.modLink port link fun l => { l with
      gpf := some ((s.reqs.filter fun e => s.overLink port link e.2 && isWrite e.2.op).map Prod.fst) }) := rfl

/-- A Phase 2 is not answered while a write that it waits for is in flight. -/
theorem exec_gpfPhase2Complete_of_inFlight {s : State} {port link : Fin 2} {w : List Nat} (ns : Nat)
    (hgpf : (s.link port link).gpf = some w) (hfly : ∃ i ∈ w, (s.reqs.get? i).isSome = true) :
    exec (.gpfPhase2Complete port link ns) s = .next s := by
  have hany : (w.any fun i => (s.reqs.get? i).isSome) = true := List.any_eq_true.mpr hfly
  change execGpfPhase2Complete port link ns s = _
  simp only [execGpfPhase2Complete, hgpf, hany, Bool.true_or, if_true]

/-- A Phase 2 whose writes have all left the tracker is answered on a link that is not down: the acknowledgement is sent and
counted, and past 100 µs OVERRUN is set and recorded. -/
theorem exec_gpfPhase2Complete_of_drained {s : State} {port link : Fin 2} {w : List Nat} (ns : Nat)
    (hgpf : (s.link port link).gpf = some w) (hdrained : ∀ i ∈ w, s.reqs.get? i = none)
    (hup : (s.link port link).state ≠ .down) :
    let off := Reg.cxGpf + cxBase port
    let t := ((s.modLink port link fun l => { l with gpf := none }).emit (.gpfAck port link 2)).setFld off 15 0
      (s.fld off 15 0 + 1)
    exec (.gpfPhase2Complete port link ns) s =
      .next (if 100000 < ns then t.flagRecord off 17 ((3 + port.val) * 2 ^ 8 + 2) port 0 else t) := by
  have hany : (w.any fun i => (s.reqs.get? i).isSome) = false :=
    List.any_eq_false.mpr fun i hi => by simp [hdrained i hi]
  have hstate : ((s.link port link).state == .down) = false := beq_eq_false_iff_ne.mpr hup
  change execGpfPhase2Complete port link ns s = _
  simp only [execGpfPhase2Complete, hgpf, hany, hstate, Bool.or_false, Bool.false_eq_true, if_false, State.fld_emit,
    State.fld_modLink]

end Sys2Proof.Machine

namespace Sys2Proof.Proofs

open Sys2Proof Sys2Proof.Machine

/-- Settles O21: a Phase 2 keeps the writes in flight at its request, and its answer turns on whether one of them is still
in the tracker, whatever else has come since. -/
theorem gpfWaitsForEarlierWrites : Obligations.GpfWaitsForEarlierWrites := by
  intro s port link
  refine ⟨exec_gpfPhase1 s port link, exec_gpfPhase2 s port link, ?_, ?_⟩
  · intro w ns hgpf hfly
    exact exec_gpfPhase2Complete_of_inFlight ns hgpf hfly
  · intro w ns hgpf hdrained hup
    exact exec_gpfPhase2Complete_of_drained ns hgpf hdrained hup

end Sys2Proof.Proofs
end

section
/-! SUPPORT. What a queue pair sends: the rules of its context, of a response that goes out at once (R128, R161), and of the
operations that leave the contexts and the RDMA responses sent alone. With them, the refusal at the head of the response
list (R49, R165). -/

namespace Sys2Proof.Machine

/-! ### The context of a queue pair after an update -/

theorem Tbl.get?_modify {α : Type} (t : Tbl α) (n : Nat) (f : α → α) :
    Tbl.get? (Tbl.modify t n f) n = (Tbl.get? t n).map f := by
  unfold Tbl.modify
  cases h : Tbl.get? t n with
  | none => exact h
  | some v => simp [Tbl.get?_set]

theorem State.get?_of_qp? {s : State} {qpn : Nat} {q : Qp} (h : s.qp? qpn = some q) :
    s.rdx.qps.get? (qpIdx qpn) = some q := by
  unfold State.qp? at h
  split at h
  · exact h
  · cases h

theorem State.qp?_congr {s t : State} (qpn : Nat) (h : t.rdx = s.rdx) : t.qp? qpn = s.qp? qpn := by
  unfold State.qp? State.genOf
  rw [h]

theorem State.qp?_modQp (s : State) (qpn : Nat) (f : Qp → Qp) : (s.modQp qpn f).qp? qpn = (s.qp? qpn).map f := by
  change (if s.genOf (qpIdx qpn) = qpGen qpn then (s.rdx.qps.modify (qpIdx qpn) f).get? (qpIdx qpn) else none) = _
  rw [Tbl.get?_modify, State.qp?, apply_ite (Option.map f), Option.map_none]

/-! ### Operations that leave the contexts and the RDMA responses sent alone -/

/-- Whether an output is an RDMA response. -/
def Output.isRdma : Output → Bool
  | .rdma .. => true
  | _ => false

/-- The contexts of RDX, and of what has been sent the RDMA responses. -/
def State.rdmaView (s : State) : Rdx × List Output := (s.rdx, s.out.filter Output.isRdma)

theorem State.qp?_of_rdmaView {s t : State} (qpn : Nat) (h : t.rdmaView = s.rdmaView) : t.qp? qpn = s.qp? qpn :=
  State.qp?_congr qpn (congrArg Prod.fst h)

/-- An RDMA response is sent in one of two states of one view iff in the other. -/
theorem State.rdma_mem_out_of_rdmaView {s t : State} (k : Pkt) (qpn psn : Nat) (r : RdmaResp)
    (h : t.rdmaView = s.rdmaView) : .rdma k qpn psn r ∈ t.out ↔ .rdma k qpn psn r ∈ s.out := by
  have hmem (u : State) : .rdma k qpn psn r ∈ u.out ↔ .rdma k qpn psn r ∈ u.rdmaView.2 := by
    simp [State.rdmaView, Output.isRdma]
  rw [hmem t, hmem s, h]

theorem State.rdmaView_emit (s : State) {o : Output} (h : o.isRdma = false) : (s.emit o).rdmaView = s.rdmaView := by
  simp [State.rdmaView, h]

@[simp] theorem State.rdmaView_setFld (s : State) (off hi lo v : Nat) : (s.setFld off hi lo v).rdmaView = s.rdmaView := rfl

@[simp] theorem State.rdmaView_flag (s : State) (off i : Nat) : (s.flag off i).rdmaView = s.rdmaView := rfl

@[simp] theorem State.rdmaView_modReq (s : State) (id : Nat) (f : Req → Req) : (s.modReq id f).rdmaView = s.rdmaView := rfl

theorem State.rdmaView_foldl {α : Type} {f : State → α → State} (hf : ∀ t x, (f t x).rdmaView = t.rdmaView) (l : List α)
    (s : State) : (l.foldl f s).rdmaView = s.rdmaView := by
  induction l generalizing s with
  | nil => rfl
  | cons x l ih => rw [List.foldl_cons, ih, hf]

@[simp] theorem State.rdmaView_evrPush (s : State) (r : EvRec) : (s.evrPush r).rdmaView = s.rdmaView := by
  unfold State.evrPush
  split <;> rfl

@[simp] theorem State.rdmaView_flagRecord (s : State) (off i code p0 p23 : Nat) :
    (s.flagRecord off i code p0 p23).rdmaView = s.rdmaView :=
  (State.rdmaView_evrPush _ _).trans (s.rdmaView_flag off i)

@[simp] theorem State.rdmaView_pfcAll (s : State) (xoff : Bool) : (s.pfcAll xoff).rdmaView = s.rdmaView := by
  refine State.rdmaView_foldl (fun t n => ?_) _ s
  dsimp only
  repeat' split
  all_goals rfl

@[simp] theorem State.rdmaView_poolNote (s : State) (i : Nat) (p : Pool) : (s.poolNote i p).rdmaView = s.rdmaView := by
  have hflags (v : State) (off l : Nat) : ([1, 2, 3].foldl (fun (v : State) k =>
      if (s.pool i).level < k ∧ k ≤ l then v.flag off (k - 1) else v) v).rdmaView = v.rdmaView :=
    State.rdmaView_foldl (fun t k => by split <;> simp) _ v
  unfold State.poolNote
  dsimp only
  repeat' split
  all_goals simp only [State.rdmaView_pfcAll, State.rdmaView_setFld, hflags]; rfl

@[simp] theorem State.rdmaView_freeBuf (s : State) (b : Nat × Nat) : (s.freeBuf b).rdmaView = s.rdmaView := by
  unfold State.freeBuf
  dsimp only
  split
  · exact State.rdmaView_poolNote s _ _
  · exact State.rdmaView_flagRecord _ _ _ _ _ _

@[simp] theorem State.rdmaView_dropReq (s : State) (id : Nat) : (s.dropReq id).rdmaView = s.rdmaView := by
  unfold State.dropReq
  split
  · rfl
  · dsimp only
    split
    · exact State.rdmaView_freeBuf _ _
    · rfl

@[simp] theorem State.rdmaView_sendSeg (s : State) (seq : Nat) (m : ShaumMsg) (i : Nat) :
    (s.sendSeg seq m i).rdmaView = s.rdmaView := rfl

@[simp] theorem State.rdmaView_sendSegs (s : State) (seq : Nat) (m : ShaumMsg) : (s.sendSegs seq m).rdmaView = s.rdmaView :=
  (State.rdmaView_emit _ rfl).trans (State.rdmaView_foldl (fun t i => t.rdmaView_sendSeg seq m i) _ s)

@[simp] theorem State.rdmaView_post (s : State) (m : ShaumMsg) : (s.post m).rdmaView = s.rdmaView := by
  change (if _ then State.sendSegs _ _ _ else _).rdmaView = _
  split
  · exact State.rdmaView_sendSegs _ _ _
  · rfl

@[simp] theorem State.rdmaView_abortReqs (s : State) (mine : Req → Bool) : (s.abortReqs mine).rdmaView = s.rdmaView := by
  unfold State.abortReqs
  dsimp only
  rw [State.rdmaView_foldl]
  · split <;> simp
  · intro t e
    repeat' split
    all_goals simp

@[simp] theorem State.rdmaView_err1_poisoned (s : State) (block : Nat) : (s.err1 block .poisoned).rdmaView = s.rdmaView := rfl

/-! ### A response that goes out at once -/

/-- Whether a packet goes out at once is untouched by a write of any register but the three that it reads. -/
theorem State.sendsNow_setReg {s : State} {q : Qp} {off : Nat} (w : Word)
    (hoff : Reg.secCtl ≠ off ∧ Reg.netDcb ≠ off ∧ Reg.netQosMap ≠ off) (h : s.sendsNow q) : (s.setReg off w).sendsNow q := by
  obtain ⟨hsec, hdcb, hqos⟩ := hoff
  simpa only [State.sendsNow, State.paused, State.prioOf, State.port, State.bit, State.fld, State.reg_setReg,
    State.setReg_ports, if_neg hsec, if_neg hdcb, if_neg hqos] using h

/-- The count of a POISONED error writes registers alone, none that the sending of a packet reads. -/
theorem State.sendsNow_err1_poisoned {s : State} {q : Qp} (block : Nat) (h : s.sendsNow q) :
    (s.err1 block .poisoned).sendsNow q :=
  sendsNow_setReg _ (by decide) (sendsNow_setReg _ (by decide) (sendsNow_setReg _ (by decide) h))

theorem State.txPkt_of_sendsNow {s : State} {q : Qp} (bytes : Nat) (o : Output) (h : s.sendsNow q) :
    s.txPkt q.port (s.prioOf q) bytes o = s.emit o := by
  obtain ⟨-, hrun, hnone⟩ := h
  simp [State.txPkt, hrun, hnone]

/-- A packet of an ESTABLISHED QP that goes out at once is the newest output, its context's sending counter 1 higher. -/
theorem State.sendPkt_of_sendsNow {s : State} {qpn : Nat} {q : Qp} (bytes : Nat) (o : Pkt → Output)
    (hq : s.rdx.qps.get? (qpIdx qpn) = some q) (hest : q.state = .established) (hnow : s.sendsNow q) :
    s.sendPkt qpn bytes o =
      (s.modQp qpn fun x => { x with ctrTx := x.ctrTx + 1 }).emit (o (s.pktOf qpn q (s.prioOf q) true)) := by
  have henc : qpEncrypts q = true := by simp [qpEncrypts, hest]
  have hq' : s.rdx.qps.get? (qpn % 2 ^ 17) = some q := hq
  have hsec : s.bit Reg.secCtl 0 = true := hnow.1
  simp only [State.sendPkt, State.modQp, Tbl.modify, hq, hq', henc, hsec]
  exact State.txPkt_of_sendsNow (s := { s with rdx := { s.rdx with
    qps := s.rdx.qps.set (qpIdx qpn) { q with ctrTx := q.ctrTx + 1 } } }) bytes _ hnow

/-! ### A refusal at the head of the response list -/

theorem State.qp?_qpEnter {s : State} {qpn : Nat} {q : Qp} (st : QpState) (h : s.qp? qpn = some q) :
    ∃ y, (s.qpEnter qpn st).qp? qpn = some y ∧ y.state = st := by
  unfold State.qpEnter
  dsimp only
  rw [State.qp?_of_rdmaView qpn (State.rdmaView_abortReqs _ _)]
  change ∃ y, (s.modQp qpn _).qp? qpn = some y ∧ _
  rw [State.qp?_modQp, h]
  exact ⟨_, rfl, rfl⟩

/-- No RDMA response is sent for the requests of a QP that enters ERROR or QUARANTINE (R155). -/
theorem State.rdma_mem_out_qpEnter (s : State) (st : QpState) (k : Pkt) (qpn n psn : Nat) (r : RdmaResp) :
    .rdma k n psn r ∈ (s.qpEnter qpn st).out ↔ .rdma k n psn r ∈ s.out := by
  unfold State.qpEnter
  exact (State.rdma_mem_out_of_rdmaView k n psn r (State.rdmaView_abortReqs _ _)).trans Iff.rfl

/-- A refusal due at the head of the list is sent, ends the list, and takes the QP to ERROR (R161). -/
theorem State.flushResps_of_nakAccess {s : State} {qpn psn : Nat} {q : Qp} {l : List RespEnt} (hq : s.qp? qpn = some q)
    (hl : q.resps = { psn := psn, due := true, resp := .nakAccess } :: l) :
    s.flushResps qpn =
      ((s.qpSend qpn psn .nakAccess).modQp qpn fun x => { x with resps := [] }).qpEnter qpn .error := by
  simp only [State.flushResps, hq, hl, sendDue, if_true]

/-- A refusal due at the head of an ESTABLISHED QP whose packets go out at once: the NAK is the one RDMA response sent, and
the QP is in ERROR. -/
theorem State.flushResps_nakAccess {s : State} {qpn psn : Nat} {q : Qp} {l : List RespEnt} (hq : s.qp? qpn = some q)
    (hest : q.state = .established) (hnow : s.sendsNow q)
    (hl : q.resps = { psn := psn, due := true, resp := .nakAccess } :: l) :
    (∃ k, ∀ k' n m r, .rdma k' n m r ∈ (s.flushResps qpn).out ↔
      Output.rdma k' n m r = .rdma k qpn psn .nakAccess ∨ .rdma k' n m r ∈ s.out) ∧
    ∃ y, (s.flushResps qpn).qp? qpn = some y ∧ y.state = .error := by
  have hsend : s.qpSend qpn psn .nakAccess = _ :=
    State.sendPkt_of_sendsNow _ (fun k => .rdma k qpn psn .nakAccess) (State.get?_of_qp? hq) hest hnow
  rw [State.flushResps_of_nakAccess hq hl, hsend]
  constructor
  · refine ⟨s.pktOf qpn q (s.prioOf q) true, fun k' n m r => ?_⟩
    rw [State.rdma_mem_out_qpEnter]
    exact List.mem_cons
  · refine State.qp?_qpEnter (q := { q with ctrTx := q.ctrTx + 1, resps := [] }) .error ?_
    rw [State.qp?_modQp]
    change Option.map _ ((s.modQp qpn _).qp? qpn) = _
    rw [State.qp?_modQp, hq]
    rfl

/-- A context in which the responses that wait at a PSN are due as refusals. -/
def Qp.nakDue (q : Qp) (psn : Nat) : Qp :=
  { q with resps := q.resps.map fun e => if e.psn = psn ∧ e.due = false then { e with due := true, resp := .nakAccess } else e }

theorem State.respDue_nakAccess_eq (s : State) (qpn psn : Nat) :
    s.respDue qpn psn .nakAccess = (s.modQp qpn fun q => q.nakDue psn).flushResps qpn := by
  have hack : (RdmaResp.nakAccess == .ack) = false := by decide
  simp only [State.respDue, Qp.nakDue, hack, Bool.and_false, Bool.false_eq_true, if_false]

/-- A request that is refused when its response is next in order, on an ESTABLISHED QP whose packets go out at once. -/
theorem State.respDue_nakAccess {s : State} {qpn psn : Nat} {q : Qp} {x : RdmaResp} {l : List RespEnt}
    (hq : s.qp? qpn = some q) (hest : q.state = .established) (hnow : s.sendsNow q)
    (hl : q.resps = { psn := psn, due := false, resp := x } :: l) :
    (∃ k, ∀ k' n m r, .rdma k' n m r ∈ (s.respDue qpn psn .nakAccess).out ↔
      Output.rdma k' n m r = .rdma k qpn psn .nakAccess ∨ .rdma k' n m r ∈ s.out) ∧
    ∃ y, (s.respDue qpn psn .nakAccess).qp? qpn = some y ∧ y.state = .error := by
  have hmod : (s.modQp qpn fun q => q.nakDue psn).qp? qpn = some (q.nakDue psn) := by
    rw [State.qp?_modQp, hq, Option.map_some]
  obtain ⟨l', hhead⟩ : ∃ l', (q.nakDue psn).resps = { psn := psn, due := true, resp := .nakAccess } :: l' := by
    rw [Qp.nakDue, hl, List.map_cons, if_pos ⟨rfl, rfl⟩]
    exact ⟨_, rfl⟩
  rw [State.respDue_nakAccess_eq]
  exact State.flushResps_nakAccess hmod hest hnow hhead

/-- How a READ that met poison in its data, or a READ or atomic that ended poisoned or lost, is delivered: its response
comes due as a refusal, a POISONED error counted before it or not. -/
theorem State.rdmaEnded_refused (s : State) (qpn psn : Nat) {r : Req} {e : Ending} (hack : r.acked = false)
    (hsil : r.silent = false) (he : (∃ bytes poison, e = .data bytes poison ∧ poison.any id = true) ∨ e = .poisoned ∨ e = .lost) :
    s.rdmaEnded qpn psn r e = s.respDue qpn psn .nakAccess ∨
      s.rdmaEnded qpn psn r e = (s.err1 6 .poisoned).respDue qpn psn .nakAccess := by
  obtain ⟨bytes, poison, rfl, hp⟩ | rfl | rfl := he
  · right; simp only [State.rdmaEnded, hack, hsil, hp, Bool.or_self, Bool.false_eq_true, if_false, if_true]
  · right; simp only [State.rdmaEnded, hack, hsil, Bool.or_self, Bool.false_eq_true, if_false]
  · left; simp only [State.rdmaEnded, hack, hsil, Bool.or_self, Bool.false_eq_true, if_false]

end Sys2Proof.Machine

namespace Sys2Proof.Proofs

open Sys2Proof Sys2Proof.Machine

/-- Settles O32: the access's response comes due as a refusal at the head of the QP's list, which sends the NAK alone and
ends the QP; a POISONED error counted before it touches neither the contexts nor what was sent. -/
theorem poisonedReadIsNakedAndEndsTheQp : Obligations.PoisonedReadIsNakedAndEndsTheQp := by
  intro s qpn psn q r e x l hq hest hnow hl hack hsil he
  obtain ⟨u, hu, hview, hnow'⟩ : ∃ u, s.rdmaEnded qpn psn r e = State.respDue u qpn psn .nakAccess ∧
      u.rdmaView = s.rdmaView ∧ u.sendsNow q := by
    obtain h | h := s.rdmaEnded_refused qpn psn hack hsil he
    · exact ⟨s, h, rfl, hnow⟩
    · exact ⟨_, h, s.rdmaView_err1_poisoned 6, State.sendsNow_err1_poisoned 6 hnow⟩
  have hq' : u.qp? qpn = some q := (State.qp?_of_rdmaView qpn hview).trans hq
  obtain ⟨⟨k, hout⟩, hend⟩ := State.respDue_nakAccess hq' hest hnow' hl
  rw [hu]
  refine ⟨⟨k, (hout ..).mpr (.inl rfl)⟩, fun k' bytes hmem => ?_, hend⟩
  obtain h | h := (hout ..).mp hmem
  · cases h
  · exact (State.rdma_mem_out_of_rdmaView k' qpn psn _ hview).mp h

end Sys2Proof.Proofs
end

section
/-! SUPPORT. The end of an index's quarantine (R153, R167): what it leaves of the contexts and generations, and what a packet
under a QPN of another generation then meets (R152). -/

namespace Sys2Proof.Machine

/-! ### QP numbers (R152) -/

theorem qpIdx_qpnOf (s : State) {i : Nat} (hi : i < 2 ^ 17) : qpIdx (s.qpnOf i) = i := by
  simp only [qpIdx, State.qpnOf]
  omega

theorem qpGen_qpnOf (s : State) {i : Nat} (hi : i < 2 ^ 17) : qpGen (s.qpnOf i) = s.genOf i := by
  simp only [qpGen, State.qpnOf]
  omega

/-! ### A packet under a stale generation -/

theorem State.qp?_of_stale {s : State} {qpn : Nat} (h : s.genOf (qpIdx qpn) ≠ qpGen qpn) : s.qp? qpn = none := if_neg h

theorem State.headGo_of_empty {s : State} {n : Nat} (h : (s.port n).headroom = []) : s.headGo n = s := by
  rw [State.headGo, h]
  rfl

theorem State.packetAt_of_stale {s : State} {h : PktHdr} (v : Verb) (hstale : s.genOf (qpIdx h.qpn) ≠ qpGen h.qpn) :
    s.packetAt h v = (s.count Reg.rdxCount, true) := by
  simp only [State.packetAt, State.qp?_of_stale hstale, State.withAny, if_pos hstale]

/-- A good packet under a stale generation, with none waiting before it, is only counted (R152). -/
theorem exec_rocePacketReceive_of_stale {s : State} {h : PktHdr} (v : Verb) (hicrc : h.icrcOk = true)
    (hroom : (s.port h.port).headroom = []) (hstale : s.genOf (qpIdx h.qpn) ≠ qpGen h.qpn) :
    exec (.rocePacketReceive h v) s = .next (s.count Reg.rdxCount) := by
  have hnone := State.qp?_of_stale hstale
  have hce : s.ceNote h = s := by simp only [State.ceNote, hnone]
  change execRocePacketReceive h v s = _
  simp only [execRocePacketReceive, hnone, hicrc, State.headGo_of_empty hroom, hce, hroom, State.packetAt_of_stale v hstale]
  rfl

/-! ### The end of a quarantine -/

/-- The state in which a QP index has left quarantine: its context gone, its generation raised, the index freed (R153). -/
def State.qpFreed (s : State) (i : Nat) : State :=
  { s with
    mbx := s.mbx.erase (2 ^ 32 + s.qpnOf i)
    rdx := { s.rdx with
      qps := s.rdx.qps.erase i, gens := s.rdx.gens.set i ((s.genOf i + 1) % 128), freed := s.rdx.freed ++ [i] } }

theorem State.get?_qps_qpFreed (s : State) (i j : Nat) :
    (s.qpFreed i).rdx.qps.get? j = if j = i then none else s.rdx.qps.get? j := Tbl.get?_erase ..

theorem State.genOf_qpFreed (s : State) (i j : Nat) :
    (s.qpFreed i).genOf j = if j = i then (s.genOf i + 1) % 128 else s.genOf j := by
  simp only [State.genOf, State.qpFreed, Tbl.getD, Tbl.get?_set]
  split <;> rfl

/-- A QPN of an index just freed is of a stale generation. -/
theorem State.genOf_qpFreed_ne {s : State} {i : Nat} (hi : i < 2 ^ 17) :
    (s.qpFreed i).genOf (qpIdx (s.qpnOf i)) ≠ qpGen (s.qpnOf i) := by
  rw [qpIdx_qpnOf s hi, qpGen_qpnOf s hi, State.genOf_qpFreed, if_pos rfl]
  omega

theorem exec_quarantineEnd_qp {s : State} {i : Nat} {q : Qp} (h0 : i ≠ 0) (hq : s.rdx.qps.get? i = some q) :
    exec (.quarantineEnd false i) s = .next (if q.state = .quarantine then s.qpFreed i else s) := by
  change execQuarantineEnd false i s = _
  simp only [execQuarantineEnd, Bool.false_eq_true, if_false, if_neg h0, State.qpFree, hq, qpIs, beq_iff_eq, State.qpFreed]

theorem exec_quarantineEnd_mkey {s : State} {i : Nat} {k : Mkey} (hk : s.mkeys.get? i = some k) (hquar : k.quar = true) :
    exec (.quarantineEnd true i) s =
      .next { s with mkeys := s.mkeys.erase i, rdx := { s.rdx with keyFreed := s.rdx.keyFreed ++ [i] } } := by
  change execQuarantineEnd true i s = _
  simp only [execQuarantineEnd, if_true, State.keyFree, hk, hquar]

/-! ### The index that a new QP takes (R153) -/

theorem State.takeQp_of_unused {s : State} (h : s.rdx.nextIdx < 2 ^ 17) :
    s.takeQp = some ({ s with rdx := { s.rdx with nextIdx := s.rdx.nextIdx + 1 } }, s.rdx.nextIdx) := if_pos h

theorem State.takeQp_of_freed {s : State} {i : Nat} {l : List Nat} (h : 2 ^ 17 ≤ s.rdx.nextIdx) (hf : s.rdx.freed = i :: l) :
    s.takeQp = some ({ s with rdx := { s.rdx with freed := l } }, i) := by
  simp only [State.takeQp, if_neg (Nat.not_lt.mpr h), hf]

end Sys2Proof.Machine

namespace Sys2Proof.Proofs

open Sys2Proof Sys2Proof.Machine

/-- Settles O29: an index that leaves quarantine changes its own context and generation alone, and 1 modulo 128 added to a
generation never gives it again, so a packet under the old QPN is stale. -/
theorem quarantineEndsByGeneration : Obligations.QuarantineEndsByGeneration := by
  refine ⟨?_, ?_, fun _ => rfl, fun _ => State.takeQp_of_unused, fun _ _ _ => State.takeQp_of_freed,
    fun _ _ _ => exec_quarantineEnd_mkey⟩
  · intro s i q h0 hq hquar
    refine ⟨s.qpFreed i, ?_, ?_, ?_, rfl, fun j hj => ⟨?_, ?_⟩, ?_⟩
    · rw [exec_quarantineEnd_qp h0 hq, if_pos hquar]
    · rw [State.get?_qps_qpFreed, if_pos rfl]
    · rw [State.genOf_qpFreed, if_pos rfl]
    · rw [State.get?_qps_qpFreed, if_neg hj]
    · rw [State.genOf_qpFreed, if_neg hj]
    · intro h v hqpn _ hi hicrc hroom
      exact exec_rocePacketReceive_of_stale v hicrc hroom (hqpn ▸ State.genOf_qpFreed_ne hi)
  · intro s i q h0 hq hquar
    rw [exec_quarantineEnd_qp h0 hq, if_neg hquar]

end Sys2Proof.Proofs
end

section
/-! SUPPORT. What the ledger's registers show (R433): a register of the ELG block shows its view, and LIMIT (R404) and the covered
tiles (R409) are two of the views. -/

namespace Sys2Proof.Machine

/-! ### What a register with a view shows -/

theorem State.shows_of_view {s : State} {off v : Nat} (h : s.view off = some v) : s.shows off = w32 v := by
  rw [State.shows, h]

/-- The views of the offsets from 0x800000 to 0x87FFFF are those of ELG. -/
theorem State.view_of_elg (s : State) {off : Nat} (hlo : 0x800000 ≤ off) (hhi : off < 0x880000) :
    s.view off = s.viewElg off := by
  rw [State.view, if_neg (by omega), if_neg (by omega), if_neg (by omega), if_neg (by omega), if_neg (by omega), if_pos hhi]

/-! ### LIMIT and the covered tiles (R404, R409) -/

/-- LIMIT is exact in nJ: a per cent of a mJ is 10⁴ nJ, so no part of it is rounded away. -/
theorem State.hundred_mul_limitNj (s : State) :
    100 * s.limitNj = s.elg.eAvail * 10 ^ 6 * (100 - s.reservePct) :=
  calc 100 * s.limitNj = 100 * (s.elg.eAvail * 10 ^ 4) * (100 - s.reservePct) := (Nat.mul_assoc ..).symm
    _ = s.elg.eAvail * 10 ^ 6 * (100 - s.reservePct) := congrArg (· * _) (Nat.mul_left_comm 100 s.elg.eAvail (10 ^ 4))

theorem State.shows_limitMj (s : State) : s.shows (Reg.elgLedger + 4) = w32 (s.limitNj / 10 ^ 6) :=
  have hview : s.viewElg (Reg.elgLedger + 4) = some (s.limitNj / 10 ^ 6) := by
    rw [State.viewElg, if_neg (by decide), if_pos rfl]
  State.shows_of_view ((s.view_of_elg (by decide) (by decide)).trans hview)

theorem State.shows_covered (s : State) : s.shows (Reg.elgLedger + 20) = w32 s.covered :=
  have hview : s.viewElg (Reg.elgLedger + 20) = some s.covered := by
    rw [State.viewElg, if_neg (by decide), if_neg (by decide), if_neg (by decide), if_neg (by decide), if_neg (by decide),
      if_pos rfl]
  State.shows_of_view ((s.view_of_elg (by decide) (by decide)).trans hview)

end Sys2Proof.Machine

namespace Sys2Proof.Proofs

open Sys2Proof Sys2Proof.Machine

/-- Settles O44: LIMIT in nJ rounds nothing away, and the two registers show views of the ELG block. -/
theorem limitAndCoveredTiles : Obligations.LimitAndCoveredTiles :=
  fun s _ => ⟨s.hundred_mul_limitNj, s.shows_limitMj, s.shows_covered⟩

end Sys2Proof.Proofs
end

section
/-! SUPPORT. How a new Jorrid command is taken by its mailbox instance (R498, R503), and the background slot that a command
marked L needs and holds (R506). -/

namespace Sys2Proof.Machine

/-! ### The commands marked L -/

/-- A command takes a background slot if and only if R511 lists its opcode with the mark L; a command outside the set takes
none, whatever its opcode. -/
theorem takesSlot_iff (c : JorridCmd) :
    takesSlot c = true ↔ opcodeOf c ∈ [0x0006, 0x0008, 0x0021, 0x0022, 0x0023, 0x0032, 0x0033, 0x0034, 0x0042, 0x0044, 0x0051,
      0x0070, 0x0071, 0x0091, 0x0092] ∧ unknownOp c = false := by
  cases c with
  | other n => simp [takesSlot, unknownOp]
  | _ => simp [takesSlot, opcodeOf, unknownOp]

/-- The queries of R504 take no slot. -/
theorem not_query_of_takesSlot {c : JorridCmd} (h : takesSlot c = true) : c ≠ .getStatus ∧ c ≠ .abort := by
  constructor <;> rintro rfl <;> cases h

/-! ### A mailbox instance after an update -/

theorem State.mb_modMb (s : State) (k : Nat) (f : Mbx → Mbx) : (s.modMb k f).mb k = f (s.mb k) := by
  simp only [State.mb, State.modMb_mbx, Tbl.upd, Tbl.getD, Tbl.get?_set, if_true, Option.getD_some]

@[simp] theorem State.mb_count (s : State) (off k : Nat) : (s.count off).mb k = s.mb k := rfl

theorem State.slot_taken (s : State) (k : Nat) (h : JHdr) (c : JorridCmd) : ((s.taken k h c).mb k).slot = takesSlot c := by
  rw [State.taken, State.mb_count, State.mb_modMb]

/-! ### A command that reaches an instance -/

theorem exec_jorridAccept (s : State) (i : MbxInst) (h : JHdr) (c : JorridCmd) :
    exec (.jorridAccept i h c) s = .next (s.jorrid (mbxKey i) h c) := rfl

/-- A command other than a query comes to the sequence rules of R503 when its transport carries commands, its header is good,
its instance has none in progress or held, firmware takes commands and the chip is awake. -/
theorem State.jorrid_eq_jTake {s : State} {k : Nat} {h : JHdr} {c : JorridCmd} (hup : s.instUp k = true)
    (hinst : s.noInstance k = false) (hwf : h.wellFormed = true) (hquery : c ≠ .getStatus ∧ c ≠ .abort)
    (hidle : ((s.modMb k id).mb k).state ≠ .busy) (hheld : ((s.modMb k id).mb k).held = none)
    (htakes : (s.modMb k id).jTakes = true) (hawake : (s.modMb k id).isAwake = true) :
    s.jorrid k h c = (s.modMb k id).jTake k h c := by
  simp only [State.jorrid, hup, hinst, hwf, Bool.true_eq_false, Bool.false_eq_true, if_false]
  split
  next => exact absurd rfl hquery.1
  next => exact absurd rfl hquery.2
  next =>
    split
    next hbusy => exact absurd hbusy hidle
    next hsome _ => rw [hheld] at hsome; cases hsome
    next => simp only [htakes, hawake, Bool.true_eq_false, Bool.true_or, if_false, if_true]

/-- With every slot taken, a command marked L that may be accepted by its SEQ is answered RETRY (R506). -/
theorem State.jTake_of_slotsFull {s : State} {k : Nat} {h : JHdr} {c : JorridCmd} (hslot : takesSlot c = true)
    (hidle : (s.mb k).state ≠ .busy) (hseq : ∀ l, (s.mb k).lastSeq = some l → h.seq % 2 ^ 32 = (l + 1) % 2 ^ 32)
    (hfull : s.fld Reg.mbxCfg 13 8 ≤ s.slotsBusy) : s.jTake k h c = s.jRefuse k h c jrRetry := by
  have hretry : (takesSlot c && decide (s.fld Reg.mbxCfg 13 8 ≤ s.slotsBusy)) = true := by
    rw [hslot, decide_eq_true hfull, Bool.and_self]
  rw [State.jTake, hretry]
  split
  next hbusy => exact absurd hbusy hidle
  next =>
    cases hlast : (s.mb k).lastSeq with
    | none => rfl
    | some l => exact (if_pos (hseq l hlast)).trans (if_pos rfl)

end Sys2Proof.Machine

namespace Sys2Proof.Proofs

open Sys2Proof Sys2Proof.Machine

/-- Settles O51: acceptance writes the slot as the command's mark says, and the slots are asked for after the SEQ and before
anything of the instance is changed. -/
theorem backgroundSlotAtAcceptance : Obligations.BackgroundSlotAtAcceptance := by
  refine ⟨takesSlot_iff, State.slot_taken, ?_⟩
  intro s i h c hup hinst hwf hslot k u hidle hheld htakes hawake hseq hfull
  rw [exec_jorridAccept,
    State.jorrid_eq_jTake hup hinst hwf (not_query_of_takesSlot hslot) hidle hheld htakes hawake,
    State.jTake_of_slotsFull hslot hidle hseq hfull, State.jRefuse]

end Sys2Proof.Proofs
end

section
/-! SUPPORT. What every step keeps and answers: each command, and the idle tick, keeps memory canonical and leaves the queue, and
each command answers a next state. -/

namespace Sys2Proof.Machine

/-! ### Every command keeps what `Ok` says -/

/-- Whatever a command answers keeps memory canonical, here and in every save image, and leaves the queue: the law of its
meaning, command by command. -/
theorem exec_ok {pq : List Instr} {s : State} (c : Instr) (h : Ok pq s) : OutOk pq (exec c s) := by
  cases c with
  | registerWrite => exact execRegisterWrite_ok h
  | registerHiWrite => exact execRegisterHiWrite_ok h
  | registerLoRead => exact execRegisterLoRead_ok h
  | rcCounterRead => exact execRcCounterRead_ok h
  | w1cFlagClear => exact execW1cFlagClear_ok h
  | badRegisterAccess => exact execBadRegisterAccess_ok h
  | gatedIslandAccess => exact execGatedIslandAccess_ok h
  | glbRgnSel => exact execGlbRgnSel_ok h
  | tqmSqSel => exact execTqmSqSel_ok h
  | tqmCqSel => exact execTqmCqSel_ok h
  | plcRgnSel => exact execPlcRgnSel_ok h
  | plcTileSel => exact execPlcTileSel_ok h
  | fmcSetSel => exact execFmcSetSel_ok h
  | secRgnKeySel => exact execSecRgnKeySel_ok h
  | eflBlockSel => exact execEflBlockSel_ok h
  | eflRaddr => exact execEflRaddr_ok h
  | evrWindowRead => exact execEvrWindowRead_ok h
  | cxlLinkEnable => exact execCxlLinkEnable_ok h
  | cxlLinkTrained => exact execCxlLinkTrained_ok h
  | cxlLinkDown => exact execCxlLinkDown_ok h
  | cxlLinkRecovery => exact execCxlLinkRecovery_ok h
  | cxlLinkDownHoldExpiry => exact execCxlLinkDownHoldExpiry_ok h
  | departureHoldExpiry => exact execDepartureHoldExpiry_ok h
  | l0pNarrowRequest => exact execL0pNarrowRequest_ok h
  | l0pWidenRequest => exact execL0pWidenRequest_ok h
  | l0pHostRequest => exact execL0pHostRequest_ok h
  | aspmL1Entry => exact execAspmL1Entry_ok h
  | aspmL1Exit => exact execAspmL1Exit_ok h
  | cxlMemEnable => exact execCxlMemEnable_ok h
  | cxlMemrd => exact execCxlMemrd_ok h
  | cxlMemwr => exact execCxlMemwr_ok h
  | cxlFlr => exact execCxlFlr_ok h
  | cxlHotReset => exact execCxlHotReset_ok h
  | flrDone => exact execFlrDone_ok h
  | persistBarrierRead => exact execPersistBarrierRead_ok h
  | persistBarrierReturn => exact execPersistBarrierReturn_ok h
  | gpfPhase1 => exact execGpfPhase1_ok h
  | gpfPhase2 => exact execGpfPhase2_ok h
  | gpfPhase2Complete => exact execGpfPhase2Complete_ok h
  | getLdInfo => exact execGetLdInfo_ok h
  | getLdAllocations => exact execGetLdAllocations_ok h
  | setLdAllocations => exact execSetLdAllocations_ok h
  | getQosControl => exact execGetQosControl_ok h
  | setQosControl => exact execSetQosControl_ok h
  | fmExtentAdd => exact execFmExtentAdd_ok h
  | fmExtentRelease => exact execFmExtentRelease_ok h
  | dcResponseTimeout => exact execDcResponseTimeout_ok h
  | extentRemovalDrained => exact execExtentRemovalDrained_ok h
  | getEventRecords => exact execGetEventRecords_ok h
  | clearEventRecords => exact execClearEventRecords_ok h
  | getEventInterruptPolicy => exact execGetEventInterruptPolicy_ok h
  | setEventInterruptPolicy => exact execSetEventInterruptPolicy_ok h
  | getSupportedLogs => exact execGetSupportedLogs_ok h
  | getLog => exact execGetLog_ok h
  | identifyMemoryDevice => exact execIdentifyMemoryDevice_ok h
  | getPartitionInfo => exact execGetPartitionInfo_ok h
  | getFwInfo => exact execGetFwInfo_ok h
  | transferFw => exact execTransferFw_ok h
  | activateFw => exact execActivateFw_ok h
  | getPoisonList => exact execGetPoisonList_ok h
  | injectPoison => exact execInjectPoison_ok h
  | clearPoison => exact execClearPoison_ok h
  | getDynamicCapacityConfiguration => exact execGetDynamicCapacityConfiguration_ok h
  | getDynamicCapacityExtentList => exact execGetDynamicCapacityExtentList_ok h
  | addDynamicCapacityResponse => exact execAddDynamicCapacityResponse_ok h
  | releaseDynamicCapacity => exact execReleaseDynamicCapacity_ok h
  | getTimestamp => exact execGetTimestamp_ok h
  | setTimestamp ld ns => exact execSetTimestamp_ok (_ns := ns) h
  | jorridVendorOpcode => exact execJorridVendorOpcode_ok h
  | cxlMbxUnsupported => exact execCxlMbxUnsupported_ok h
  | netLinkUp => exact execNetLinkUp_ok h
  | netLinkDown => exact execNetLinkDown_ok h
  | pfcFrameReceived => exact execPfcFrameReceived_ok h
  | pfcXoffRepeat => exact execPfcXoffRepeat_ok h
  | pauseStorm => exact execPauseStorm_ok h
  | cnpReceived => exact execCnpReceived_ok h
  | rateIncreaseTick => exact execRateIncreaseTick_ok h
  | lldpTransmit => exact execLldpTransmit_ok h
  | lldpReceived => exact execLldpReceived_ok h
  | rocePacketReceive => exact execRocePacketReceive_ok h
  | sendCounterLimit => exact execSendCounterLimit_ok h
  | cmReq => exact execCmReq_ok h
  | cmRtu => exact execCmRtu_ok h
  | cmRej => exact execCmRej_ok h
  | cmMra qpn => exact execCmMra_ok (_qpn := qpn) h
  | cmDreq => exact execCmDreq_ok h
  | cmDrep => exact execCmDrep_ok h
  | cmTimeout => exact execCmTimeout_ok h
  | drainingTimeout => exact execDrainingTimeout_ok h
  | errorTimeout => exact execErrorTimeout_ok h
  | quarantineEnd => exact execQuarantineEnd_ok h
  | keyHello => exact execKeyHello_ok h
  | keyConfirm => exact execKeyConfirm_ok h
  | certRequest => exact execCertRequest_ok h
  | keyingTimeout => exact execKeyingTimeout_ok h
  | rdmaWrite => exact execRdmaWrite_ok h
  | rdmaWriteImm => exact execRdmaWriteImm_ok h
  | rdmaRead => exact execRdmaRead_ok h
  | atomicFetchAdd => exact execAtomicFetchAdd_ok h
  | atomicCompareSwap => exact execAtomicCompareSwap_ok h
  | atomicWrite => exact execAtomicWrite_ok h
  | rdmaFlush => exact execRdmaFlush_ok h
  | flushResponse => exact execFlushResponse_ok h
  | keepalive => exact execKeepalive_ok h
  | mkeyRegister => exact execMkeyRegister_ok h
  | mkeyInvalidate => exact execMkeyInvalidate_ok h
  | wcmJorrid => exact execWcmJorrid_ok h
  | leaseLapse => exact execLeaseLapse_ok h
  | leaseRecordFree => exact execLeaseRecordFree_ok h
  | requesterAckTimeout => exact execRequesterAckTimeout_ok h
  | requesterAckReceived => exact execRequesterAckReceived_ok h
  | sqDoorbell => exact execSqDoorbell_ok h
  | tqmDoorbell => exact execTqmDoorbell_ok h
  | fetchResume => exact execFetchResume_ok h
  | tqCopy => exact execTqCopy_ok h
  | tqFill => exact execTqFill_ok h
  | tqPersistNotify => exact execTqPersistNotify_ok h
  | tqCrcCheck => exact execTqCrcCheck_ok h
  | tqPrefetch => exact execTqPrefetch_ok h
  | tqPin => exact execTqPin_ok h
  | tqUnpin => exact execTqUnpin_ok h
  | tqSanitize => exact execTqSanitize_ok h
  | tqFormat => exact execTqFormat_ok h
  | sanitizePhaseComplete => exact execSanitizePhaseComplete_ok h
  | formatStepComplete => exact execFormatStepComplete_ok h
  | sanitizeFormatResume => exact execSanitizeFormatResume_ok h
  | tqCommandComplete => exact execTqCommandComplete_ok h
  | cqConsAdvance => exact execCqConsAdvance_ok h
  | notifyCoalesceExpiry => exact execNotifyCoalesceExpiry_ok h
  | crcFwLoad => exact execCrcFwLoad_ok h
  | crcFwData32 => exact execCrcFwData32_ok h
  | crcFwData8 => exact execCrcFwData8_ok h
  | promotionSwitch => exact execPromotionSwitch_ok h
  | promoWaitOver => exact execPromoWaitOver_ok h
  | promotionQueueServe => exact execPromotionQueueServe_ok h
  | frameSweepVisit => exact execFrameSweepVisit_ok h
  | evictionCapSecond => exact execEvictionCapSecond_ok h
  | evictionSwitch => exact execEvictionSwitch_ok h
  | relocationSwitch => exact execRelocationSwitch_ok h
  | mapSweepRead => exact execMapSweepRead_ok h
  | decayPeriod => exact execDecayPeriod_ok h
  | saveAreaDrain => exact execSaveAreaDrain_ok h
  | tmcFill => exact execTmcFill_ok h
  | mapAudit => exact execMapAudit_ok h
  | hlcFillComplete => exact execHlcFillComplete_ok h
  | hlcEvbWriteComplete => exact execHlcEvbWriteComplete_ok h
  | hlcClean => exact execHlcClean_ok h
  | hlcWritebackDone => exact execHlcWritebackDone_ok h
  | hlcMaintWriteback => exact execHlcMaintWriteback_ok h
  | hlcMaintWbInval => exact execHlcMaintWbInval_ok h
  | hlcMaintComplete => exact execHlcMaintComplete_ok h
  | tagSetScanDone => exact execTagSetScanDone_ok h
  | dmcAlert => exact execDmcAlert_ok h
  | retrainDue => exact execRetrainDue_ok h
  | mr4Poll => exact execMr4Poll_ok h
  | oscTracking => exact execOscTracking_ok h
  | refreshDue => exact execRefreshDue_ok h
  | rfmDue => exact execRfmDue_ok h
  | bankIdleExpiry => exact execBankIdleExpiry_ok h
  | requestAgeTarget => exact execRequestAgeTarget_ok h
  | dmcSelfRefreshEnter => exact execDmcSelfRefreshEnter_ok h
  | dmcSelfRefreshExit => exact execDmcSelfRefreshExit_ok h
  | dmcTrainFull => exact execDmcTrainFull_ok h
  | dmcTrainStored => exact execDmcTrainStored_ok h
  | dmcTrainRows => exact execDmcTrainRows_ok h
  | dmcTrainingDone => exact execDmcTrainingDone_ok h
  | chiveEnable => exact execChiveEnable_ok h
  | chiveDisable => exact execChiveDisable_ok h
  | chiveCopyDone => exact execChiveCopyDone_ok h
  | chiveCandidate => exact execChiveCandidate_ok h
  | scrubGo => exact execScrubGo_ok h
  | scrubStop => exact execScrubStop_ok h
  | scrubPassEnd => exact execScrubPassEnd_ok h
  | flashReadDecode => exact execFlashReadDecode_ok h
  | flashPatrol => exact execFlashPatrol_ok h
  | suspendWaitExpiry => exact execSuspendWaitExpiry_ok h
  | programFlushTimer => exact execProgramFlushTimer_ok h
  | programUnitDone => exact execProgramUnitDone_ok h
  | flashEraseDone => exact execFlashEraseDone_ok h
  | saveRegionResize => exact execSaveRegionResize_ok h
  | flashGeometryDiscovery => exact execFlashGeometryDiscovery_ok h
  | meterSample => exact execMeterSample_ok h
  | ledgerRecompute => exact execLedgerRecompute_ok h
  | catchupExpiry => exact execCatchupExpiry_ok h
  | moduleTempRead => exact execModuleTempRead_ok h
  | capTestPeriod => exact execCapTestPeriod_ok h
  | elgCmdTest => exact execElgCmdTest_ok h
  | capTestDropReached => exact execCapTestDropReached_ok h
  | capTestTimeout => exact execCapTestTimeout_ok h
  | capTestRetry => exact execCapTestRetry_ok h
  | saveRateProbe => exact execSaveRateProbe_ok h
  | elgReserveWrite => exact execElgReserveWrite_ok h
  | elgTestCfgWrite => exact execElgTestCfgWrite_ok h
  | elgSaveCfgWrite => exact execElgSaveCfgWrite_ok h
  | holdFail => exact execHoldFail_ok h
  | elgCmdSave => exact execElgCmdSave_ok h
  | saveDrainEnd => exact execSaveDrainEnd_ok h
  | sagePhaseEnd => exact execSagePhaseEnd_ok h
  | saveFinalEnergy => exact execSaveFinalEnergy_ok h
  | restore => exact execRestore_ok h
  | regionAdmit => exact execRegionAdmit_ok h
  | peerWaitExpiry => exact execPeerWaitExpiry_ok h
  | haltedPeerAdmission => exact execHaltedPeerAdmission_ok h
  | shaumLinkEnable => exact execShaumLinkEnable_ok h
  | laneGroupTrained => exact execLaneGroupTrained_ok h
  | laneGroupDown => exact execLaneGroupDown_ok h
  | laneGroupRetry => exact execLaneGroupRetry_ok h
  | linkTrainingTimeout => exact execLinkTrainingTimeout_ok h
  | linkHello => exact execLinkHello_ok h
  | linkReply => exact execLinkReply_ok h
  | linkConfirm sig ok => exact execLinkConfirm_ok (_sig := sig) h
  | linkFail => exact execLinkFail_ok h
  | twnCmdRetrain => exact execTwnCmdRetrain_ok h
  | shaumSegmentReceive => exact execShaumSegmentReceive_ok h
  | reassemblyTimerExpiry => exact execReassemblyTimerExpiry_ok h
  | messageResendTimeout => exact execMessageResendTimeout_ok h
  | shaumCounterLimit => exact execShaumCounterLimit_ok h
  | mirror => exact execMirror_ok h
  | shaumAck => exact execShaumAck_ok h
  | forward => exact execForward_ok h
  | fwdReply => exact execFwdReply_ok h
  | readReq => exact execReadReq_ok h
  | readData => exact execReadData_ok h
  | promoHint => exact execPromoHint_ok h
  | tilePull => exact execTilePull_ok h
  | tileData => exact execTileData_ok h
  | ensignOffer => exact execEnsignOffer_ok h
  | ensignAccept => exact execEnsignAccept_ok h
  | handoffAcksDrained => exact execHandoffAcksDrained_ok h
  | control => exact execControl_ok h
  | cqRelay => exact execCqRelay_ok h
  | verify => exact execVerify_ok h
  | verifyReply => exact execVerifyReply_ok h
  | peerMbx => exact execPeerMbx_ok h
  | segNak => exact execSegNak_ok h
  | burgee => exact execBurgee_ok h
  | resyncCtl => exact execResyncCtl_ok h
  | shaumBurgeeInterval => exact execShaumBurgeeInterval_ok h
  | tsbBurgeeInterval => exact execTsbBurgeeInterval_ok h
  | fastModeExpiry => exact execFastModeExpiry_ok h
  | shaumPathSilent => exact execShaumPathSilent_ok h
  | tsbPathSilent => exact execTsbPathSilent_ok h
  | confirmationWindowExpiry => exact execConfirmationWindowExpiry_ok h
  | fenceDeferExpiry => exact execFenceDeferExpiry_ok h
  | fenceSettleExpiry => exact execFenceSettleExpiry_ok h
  | takeover => exact execTakeover_ok h
  | shaumHoldExpiry => exact execShaumHoldExpiry_ok h
  | twinFenceInAssert => exact execTwinFenceInAssert_ok h
  | twinFenceInRelease => exact execTwinFenceInRelease_ok h
  | fenceTestPulseSeen => exact execFenceTestPulseSeen_ok h
  | fenceTestPulseSend => exact execFenceTestPulseSend_ok h
  | fenceTestCheck => exact execFenceTestCheck_ok h
  | releaseLinkTimeout => exact execReleaseLinkTimeout_ok h
  | releaseDeferExpiry => exact execReleaseDeferExpiry_ok h
  | resyncTileSend => exact execResyncTileSend_ok h
  | revertHoldoffExpiry => exact execRevertHoldoffExpiry_ok h
  | twnCmdTakeover => exact execTwnCmdTakeover_ok h
  | twnCmdRelease => exact execTwnCmdRelease_ok h
  | twnCmdFence => exact execTwnCmdFence_ok h
  | watchSample => exact execWatchSample_ok h
  | watchScrubPeriod => exact execWatchScrubPeriod_ok h
  | engineSelfTest => exact execEngineSelfTest_ok h
  | healthRecord => exact execHealthRecord_ok h
  | identify => exact execIdentify_ok h
  | getStatus => exact execGetStatus_ok h
  | abort => exact execAbort_ok h
  | setTime => exact execSetTime_ok h
  | resetWarm => exact execResetWarm_ok h
  | plannedHandoff => exact execPlannedHandoff_ok h
  | setMode => exact execSetMode_ok h
  | relay => exact execRelay_ok h
  | regRead => exact execRegRead_ok h
  | regWrite => exact execRegWrite_ok h
  | regionCreate => exact execRegionCreate_ok h
  | regionResize => exact execRegionResize_ok h
  | regionDelete => exact execRegionDelete_ok h
  | regionSetPolicy => exact execRegionSetPolicy_ok h
  | regionSetAttr => exact execRegionSetAttr_ok h
  | regionForceOnline => exact execRegionForceOnline_ok h
  | regionInfo => exact execRegionInfo_ok h
  | ldBind => exact execLdBind_ok h
  | ldUnbind => exact execLdUnbind_ok h
  | setDurability => exact execSetDurability_ok h
  | extentAdd => exact execExtentAdd_ok h
  | extentRelease => exact execExtentRelease_ok h
  | notifyVector => exact execNotifyVector_ok h
  | leaseGrant => exact execLeaseGrant_ok h
  | leaseChange => exact execLeaseChange_ok h
  | leaseRevoke => exact execLeaseRevoke_ok h
  | mkeyRegisterFor => exact execMkeyRegisterFor_ok h
  | mkeyInvalidateFor => exact execMkeyInvalidateFor_ok h
  | sqCreate => exact execSqCreate_ok h
  | sqDelete => exact execSqDelete_ok h
  | sqStop => exact execSqStop_ok h
  | sqResume => exact execSqResume_ok h
  | sqReset => exact execSqReset_ok h
  | cqCreate => exact execCqCreate_ok h
  | cqDelete => exact execCqDelete_ok h
  | cqSetTarget => exact execCqSetTarget_ok h
  | twinRelease => exact execTwinRelease_ok h
  | twinTakeover => exact execTwinTakeover_ok h
  | twinRetrain => exact execTwinRetrain_ok h
  | scrubStart => exact execScrubStart_ok h
  | capTest => exact execCapTest_ok h
  | savePlanned => exact execSavePlanned_ok h
  | eventRead => exact execEventRead_ok h
  | eventQueueSet => exact execEventQueueSet_ok h
  | fwInfo => exact execFwInfo_ok h
  | fwTransferInitiate => exact execFwTransferInitiate_ok h
  | fwTransferContinue => exact execFwTransferContinue_ok h
  | fwTransferEnd => exact execFwTransferEnd_ok h
  | fwTransferAbort => exact execFwTransferAbort_ok h
  | fwActivateLive => exact execFwActivateLive_ok h
  | fwActivateNextReset => exact execFwActivateNextReset_ok h
  | provision => exact execProvision_ok h
  | jorridAccept => exact execJorridAccept_ok h
  | foregroundLimitExpiry => exact execForegroundLimitExpiry_ok h
  | jorridCommandComplete => exact execJorridCommandComplete_ok h
  | mctpEndpointIdle => exact execMctpEndpointIdle_ok h
  | liveActivationReady => exact execLiveActivationReady_ok h
  | activationTimeout => exact execActivationTimeout_ok h
  | bootConfirmTimeout => exact execBootConfirmTimeout_ok h
  | queryDeviceIdentifiers => exact execQueryDeviceIdentifiers_ok h
  | getFirmwareParameters => exact execGetFirmwareParameters_ok h
  | pldmGetStatus => exact execPldmGetStatus_ok h
  | requestUpdate => exact execRequestUpdate_ok h
  | passComponentTable => exact execPassComponentTable_ok h
  | updateComponent => exact execUpdateComponent_ok h
  | cancelUpdateComponent => exact execCancelUpdateComponent_ok h
  | cancelUpdate => exact execCancelUpdate_ok h
  | requestFirmwareData => exact execRequestFirmwareData_ok h
  | transferComplete => exact execTransferComplete_ok h
  | verifyComplete => exact execVerifyComplete_ok h
  | applyComplete => exact execApplyComplete_ok h
  | activateFirmware => exact execActivateFirmware_ok h
  | bootRomStart => exact execBootRomStart_ok h
  | debugToken => exact execDebugToken_ok h
  | pinControlScanLoad n => exact execPinControlScanLoad_ok (_instruction := n) h
  | secArbAdvance => exact execSecArbAdvance_ok h
  | entropyFail => exact execEntropyFail_ok h
  | getVersion => exact execGetVersion_ok h
  | getCapabilities => exact execGetCapabilities_ok h
  | negotiateAlgorithms => exact execNegotiateAlgorithms_ok h
  | getDigests => exact execGetDigests_ok h
  | getCertificate => exact execGetCertificate_ok h
  | challenge => exact execChallenge_ok h
  | getMeasurements => exact execGetMeasurements_ok h
  | chunkSend => exact execChunkSend_ok h
  | chunkGet => exact execChunkGet_ok h
  | eflUnlock => exact execEflUnlock_ok h
  | unlockDeadline => exact execUnlockDeadline_ok h
  | eflProgram => exact execEflProgram_ok h
  | eflErase => exact execEflErase_ok h
  | eflSuspend => exact execEflSuspend_ok h
  | eflResume => exact execEflResume_ok h
  | eflProgramDone => exact execEflProgramDone_ok h
  | eflErasePulseDone => exact execEflErasePulseDone_ok h
  | eflEraseDone => exact execEflEraseDone_ok h
  | eflAutoResume => exact execEflAutoResume_ok h
  | eflBlockScan => exact execEflBlockScan_ok h
  | aonBrownout => exact execAonBrownout_ok h
  | evrRecordWrite => exact execEvrRecordWrite_ok h
  | evrSubmit => exact execEvrSubmit_ok h
  | eventNotice => exact execEventNotice_ok h
  | pwrOkInRise => exact execPwrOkInRise_ok h
  | railVisit => exact execRailVisit_ok h
  | qualTimeout => exact execQualTimeout_ok h
  | pwsCtlUp => exact execPwsCtlUp_ok h
  | groupDelayExpiry => exact execGroupDelayExpiry_ok h
  | railRetryExpiry => exact execRailRetryExpiry_ok h
  | retryCountReset => exact execRetryCountReset_ok h
  | inputLoss => exact execInputLoss_ok h
  | dischargeTimeout => exact execDischargeTimeout_ok h
  | restartHoldExpiry => exact execRestartHoldExpiry_ok h
  | resetNAssert => exact execResetNAssert_ok h
  | warmResetDrainEnd => exact execWarmResetDrainEnd_ok h
  | warmResetOverrun => exact execWarmResetOverrun_ok h
  | quietEnter => exact execQuietEnter_ok h
  | quietWake => exact execQuietWake_ok h
  | wakeTrigger => exact execWakeTrigger_ok h
  | wakeComplete => exact execWakeComplete_ok h
  | mgtBlockWrite => exact execMgtBlockWrite_ok h
  | mgtBlockRead => exact execMgtBlockRead_ok h
  | alertResponseRead => exact execAlertResponseRead_ok h
  | alertReassert => exact execAlertReassert_ok h
  | mgtProtocolError => exact execMgtProtocolError_ok h
  | mgtClkLowTimeout => exact execMgtClkLowTimeout_ok h
  | mgtDataLowTimeout => exact execMgtDataLowTimeout_ok h
  | setEndpointId => exact execSetEndpointId_ok h
  | getEndpointId => exact execGetEndpointId_ok h
  | getMctpVersionSupport => exact execGetMctpVersionSupport_ok h
  | getMessageTypeSupport => exact execGetMessageTypeSupport_ok h
  | getVendorDefinedMessageSupport => exact execGetVendorDefinedMessageSupport_ok h
  | psbGo => exact execPsbGo_ok h
  | psbTransactionDone => exact execPsbTransactionDone_ok h
  | psbReset => exact execPsbReset_ok h
  | psbSdaStuckRetry => exact execPsbSdaStuckRetry_ok h
  | psbClkLowTimeout => exact execPsbClkLowTimeout_ok h
  | meshParityError link => exact execMeshParityError_ok (_link := link) h
  | meshLinkDegraded => exact execMeshLinkDegraded_ok h
  | engineIstoreParity => exact execEngineIstoreParity_ok h
  | engineReloadDone => exact execEngineReloadDone_ok h
  | sramDescriptorError => exact execSramDescriptorError_ok h
  | ccMemUncorrectable => exact execCcMemUncorrectable_ok h
  | errorRateWindow => exact execErrorRateWindow_ok h
  | bar2Read => exact execBar2Read_ok h
  | bar2Write => exact execBar2Write_ok h
  | lapStagedApply => exact execLapStagedApply_ok h
  | lapCommitRead => exact execLapCommitRead_ok h
  | lapCommitReturn => exact execLapCommitReturn_ok h
  | lapDrainReq => exact execLapDrainReq_ok h
  | lapDrainClear => exact execLapDrainClear_ok h
  | lapBaseWrite => exact execLapBaseWrite_ok h
  | aonBrownoutClear => exact execAonBrownoutClear_ok h
  | aonReset => exact execAonReset_ok h
  | cxlHostConnected => exact execCxlHostConnected_ok h
  | fecUncorr => exact execFecUncorr_ok h

theorem ok_of_memoryOk {s : State} (h : s.memoryOk) : Ok s.pending s := ⟨h.1, h.2, rfl⟩

/-- What waits for no command keeps memory canonical (log 1). -/
theorem State.idleTick_ok {pq : List Instr} {s : State} (h : Ok pq s) : Ok pq s.idle :=
  jServeAll_ok (jHeldAll_ok (mgtDrain_ok (tick_ok h)))

/-- A step keeps memory canonical: the idle tick on an empty queue, else the front command on the queue's rest. -/
theorem step_outOk {s : State} (h : s.memoryOk) : ∃ pq, OutOk pq (step s) := by
  rw [step]
  split
  next => exact ⟨_, State.idleTick_ok (ok_of_memoryOk h)⟩
  next c rest _ => exact ⟨rest, exec_ok c ⟨h.1, h.2, rfl⟩⟩

/-! ### Every command answers a next state -/

/-- An answer that is a next state. -/
def Answers (o : Out) : Prop := ∃ t, o = .next t

theorem answers_next (s : State) : Answers (.next s) := ⟨s, rfl⟩

/-- Both branches of a choice answering, the choice answers. -/
theorem answers_ite {c : Prop} [Decidable c] {a b : Out} (ha : Answers a) (hb : Answers b) : Answers (if c then a else b) := by
  split <;> assumption

/-- The commands whose meaning chooses between answers answer a next state on every branch; every other one's meaning is a
next state as it stands. -/
theorem exec_answers (c : Instr) (s : State) : Answers (exec c s) := by
  cases c
  case cxlLinkTrained | setLdAllocations | setQosControl | fmExtentAdd | setEventInterruptPolicy | getFwInfo =>
    exact answers_ite (answers_next _) (answers_next _)
  case clearEventRecords | getLog =>
    exact answers_ite (answers_next _) (answers_ite (answers_next _) (answers_next _))
  case transferFw =>
    exact answers_ite (answers_next _) (answers_ite (answers_next _) (answers_ite (answers_next _) (answers_next _)))
  case cxlMemrd ld tag dpa f =>
    refine answers_ite (answers_next _) ?_
    split <;> exact answers_next _
  case cxlMemwr ld tag dpa data poison =>
    refine answers_ite (answers_next _) ?_
    split <;> exact answers_next _
  case fmExtentRelease ld region rof gen force =>
    change Answers (execFmExtentRelease ..)
    unfold execFmExtentRelease
    split
    · exact answers_next _
    · exact answers_ite (answers_next _) (answers_next _)
  case releaseDynamicCapacity ld dpa len =>
    refine answers_ite (answers_next _) ?_
    split <;> exact answers_next _
  case injectPoison ld dpa | clearPoison ld dpa data =>
    refine answers_ite (answers_next _) ?_
    split <;> exact answers_next _
  case addDynamicCapacityResponse ld accepted =>
    refine answers_ite (answers_next _) ?_
    split
    · split <;> exact answers_next _
    · exact answers_ite (answers_next _) (answers_next _)
  case activateFw ld live slotB =>
    refine answers_ite (answers_next _) (answers_ite (answers_next _) (answers_ite (answers_next _) ?_))
    refine answers_ite (answers_ite (answers_next _) (answers_ite (answers_next _) (answers_next _))) ?_
    split <;> exact answers_next _
  all_goals exact answers_next _

/-! ### The idle tick (R600, R616) -/

theorem step_of_empty {s : State} (h : s.pending = []) : step s = .next s.idle := by
  rw [step, h]

/-- A tick lets 10 ns pass once AON is released, and ends an entry to Quiet. -/
theorem State.tick_eq (s : State) :
    let t : State := { s with time := if s.pws.aonGood then s.time + 10 else s.time }
    s.tick = if s.isl.quiet = .entering then t.quietDone else t := by
  have htime : (if s.pws.aonGood then { s with time := s.time + 10 } else s : State) =
      { s with time := if s.pws.aonGood then s.time + 10 else s.time } := by split <;> rfl
  simp only [State.tick, htime]
  split
  next h => rw [if_pos h]
  next h => rw [if_neg h]

end Sys2Proof.Machine

namespace Sys2Proof.Proofs

open Sys2Proof Sys2Proof.Machine

/-- Settles O1: it is what a step is on a queue with a front command. -/
theorem stepRunsTheFrontCommand : Obligations.StepRunsTheFrontCommand := fun _ _ _ => rfl

/-- Settles O2: a tick's clock moves the time alone, and its entry to Quiet ends where one is under way. -/
theorem emptyQueueStepIsOneTick : Obligations.EmptyQueueStepIsOneTick :=
  ⟨fun _ => step_of_empty, fun s h => s.tick_eq.trans (if_neg h), fun s h => s.tick_eq.trans (if_pos h)⟩

/-- Settles O3: the meanings that choose between answers choose between next states. -/
theorem everyCommandAnswersANextState : Obligations.EveryCommandAnswersANextState := exec_answers

/-- Settles O4: the front command, and the idle tick on an empty queue, each keep what `Ok` says. -/
theorem stepKeepsMemorySound : Obligations.StepKeepsMemorySound := by
  intro s t h hst
  obtain ⟨pq, hok⟩ := step_outOk h
  rw [hst] at hok
  obtain ⟨hmem, hslots, -⟩ := hok
  exact ⟨hmem, hslots⟩

/-- Settles O5: memory, the save images and the queue are empty at reset. -/
theorem resetMemorySound : Obligations.ResetMemorySound := ⟨⟨rfl, rfl⟩, rfl, fun _ => rfl⟩

/-- Settles O6: the queue is what `Ok` fixes, and every command keeps it. -/
theorem commandsLeaveTheQueue : Obligations.CommandsLeaveTheQueue := by
  intro c s t h hst
  have hok := exec_ok c (ok_of_memoryOk h)
  rw [hst] at hok
  obtain ⟨-, -, hq⟩ := hok
  exact hq

end Sys2Proof.Proofs
end

section
/-! SUPPORT. Persistent memory and its sectors under one applied write (R20, R21, R656), and the register bank under the
operations that write it (R12, R659). -/

namespace Sys2Proof.Machine

/-! ### Sectors under an applied write -/

/-- A sector's metadata reads as it was set; every other sector's as before. -/
theorem State.sector_setSector (s : State) (n m : Nat) (i : SectorInfo) :
    (s.setSector n i).sector m = if m = n then i else s.sector m := by
  simp only [State.sector, State.setSector, Tbl.getD]
  split
  next h => rw [Tbl.get?_erase, h]; split <;> rfl
  next => rw [Tbl.get?_set]; split <;> rfl

/-- The sectors of a list, each marked by one write of `data` bytes at a place. -/
def State.writeSectors (s : State) (psa len pseq : Nat) (poison : Bool) (l : List Nat) : State :=
  l.foldl (fun t n => t.setSector n (sectorWritten (t.sector n) pseq (coversSector psa len n) poison)) s

theorem State.applyBytes_eq (s : State) (psa pseq : Nat) (data : List Byte) (poison : Bool) :
    s.applyBytes psa pseq data poison = State.writeSectors { s with mem := memPutBytes s.mem psa data } psa data.length pseq
      poison (sectorsOf psa data.length) := rfl

theorem State.mem_writeSectors (s : State) (psa len pseq : Nat) (poison : Bool) (l : List Nat) :
    (s.writeSectors psa len pseq poison l).mem = s.mem := by
  induction l generalizing s with
  | nil => rfl
  | cons n l ih => exact ih _

theorem State.sector_writeSectors_of_notMem (s : State) {psa len pseq n : Nat} {poison : Bool} {l : List Nat} (h : n ∉ l) :
    (s.writeSectors psa len pseq poison l).sector n = s.sector n := by
  induction l generalizing s with
  | nil => rfl
  | cons m l ih =>
    obtain ⟨hne, hl⟩ := not_or.mp (mt List.mem_cons.mpr h)
    exact (ih _ hl).trans ((s.sector_setSector ..).trans (if_neg hne))

/-- A sector of the list ends as one write leaves some content of it. -/
theorem State.sector_writeSectors_of_mem (s : State) {psa len pseq n : Nat} {poison : Bool} {l : List Nat} (h : n ∈ l) :
    ∃ i, (s.writeSectors psa len pseq poison l).sector n = sectorWritten i pseq (coversSector psa len n) poison := by
  induction l generalizing s with
  | nil => cases h
  | cons m l ih =>
    by_cases hl : n ∈ l
    · exact ih _ hl
    · obtain rfl : n = m := (List.mem_cons.mp h).resolve_right hl
      exact ⟨_, (State.sector_writeSectors_of_notMem _ hl).trans ((s.sector_setSector ..).trans (if_pos rfl))⟩

/-! ### Fields of a word -/

/-- The whole of a word, written as a field. -/
theorem Word.withFld_all (w : Word) (v : Nat) : Word.withFld w 31 0 v = w32 v := by
  have hmask : (0xFFFFFFFF ^^^ maskOf 31 0) = 0 := by decide
  apply BitVec.eq_of_toNat_eq
  simp [Word.withFld, w32, hmask]

theorem Word.fld_all (w : Word) : Word.fld w 31 0 = w.toNat := by
  simp [Word.fld, bitsOf, Nat.mod_eq_of_lt w.isLt]

theorem w32_toNat (w : Word) : w32 w.toNat = w := BitVec.ofNat_toNat ..

theorem toNat_w32_of_le {n : Nat} (h : n ≤ 0xFFFFFFFF) : (w32 n).toNat = n := by
  rw [w32, BitVec.toNat_ofNat, Nat.mod_eq_of_lt (by omega)]

/-! ### Flags and counters in the bank -/

@[simp] theorem State.reg_emit (s : State) (o : Output) (off : Nat) : (s.emit o).reg off = s.reg off := rfl

@[simp] theorem State.bit_emit (s : State) (o : Output) (off i : Nat) : (s.emit o).bit off i = s.bit off i := rfl

theorem State.reg_setReg_same (s : State) (a : Nat) (w : Word) : (s.setReg a w).reg a = w :=
  (s.reg_setReg ..).trans (if_pos rfl)

theorem State.reg_setReg_ne (s : State) {a b : Nat} (w : Word) (h : b ≠ a) : (s.setReg a w).reg b = s.reg b :=
  (s.reg_setReg ..).trans (if_neg h)

/-- A count leaves the register as the sum, all ones where the sum is greater (R659). -/
theorem State.countBy_eq (s : State) (a n : Nat) :
    s.countBy a n = s.setReg a (w32 (min ((s.reg a).toNat + n) 0xFFFFFFFF)) := by
  rw [State.countBy, State.addSat, State.setFld, Word.withFld_all, State.fld, Word.fld_all]
  rfl

theorem State.reg_countBy_same (s : State) (a n : Nat) :
    ((s.countBy a n).reg a).toNat = min ((s.reg a).toNat + n) 0xFFFFFFFF := by
  rw [State.countBy_eq, State.reg_setReg_same, toNat_w32_of_le (Nat.min_le_right ..)]

theorem State.reg_countBy_ne (s : State) {a b : Nat} (n : Nat) (h : b ≠ a) : (s.countBy a n).reg b = s.reg b := by
  rw [State.countBy_eq, State.reg_setReg_ne _ _ h]

theorem State.reg_count_same (s : State) (a : Nat) : ((s.count a).reg a).toNat = min ((s.reg a).toNat + 1) 0xFFFFFFFF :=
  s.reg_countBy_same a 1

theorem State.reg_count_ne (s : State) {a b : Nat} (h : b ≠ a) : (s.count a).reg b = s.reg b := s.reg_countBy_ne 1 h

theorem State.reg_flag_ne (s : State) {a b : Nat} (i : Nat) (h : b ≠ a) : (s.flag a i).reg b = s.reg b :=
  s.reg_setReg_ne _ h

theorem State.bit_flag (s : State) (a b : Nat) {i j : Nat} (hi : i < 32) (hj : j < 32) :
    (s.flag a i).bit b j = if b = a ∧ j = i then true else s.bit b j := by
  simp only [State.bit, State.flag, State.setBit, State.setFld, State.reg_setReg]
  by_cases hb : b = a
  · subst hb
    rw [if_pos rfl, Word.bit_withFld _ _ _ _ hi hj]
    simp
  · simp [hb]

end Sys2Proof.Machine

namespace Sys2Proof.Proofs

open Sys2Proof Sys2Proof.Machine

/-- Settles O7: the bytes are those of one write into canonical memory, and each sector of the range is marked by that write. -/
theorem appliedWriteReadsBack : Obligations.AppliedWriteReadsBack := by
  intro s psa pseq data poison hwf
  have hmem : (s.applyBytes psa pseq data poison).mem = memPutBytes s.mem psa data := State.mem_writeSectors ..
  refine ⟨fun i hi => ?_, fun a ha => ?_, fun n hn => ?_, fun n hn => ?_, fun n hn hcov => ?_⟩
  · rw [State.byteAt, hmem, memGet_memPutBytes_inside hwf hi]
  · rw [State.byteAt, hmem, memGet_memPutBytes_outside hwf ha, State.byteAt]
  · exact State.sector_writeSectors_of_notMem _ hn
  · obtain ⟨i, hi⟩ := State.sector_writeSectors_of_mem { s with mem := memPutBytes s.mem psa data } hn
    rw [State.applyBytes_eq, hi]
    rfl
  · obtain ⟨i, hi⟩ := State.sector_writeSectors_of_mem { s with mem := memPutBytes s.mem psa data } hn
    rw [State.applyBytes_eq, hi, hcov]
    rfl

/-- Settles O8, by the rules of the register bank. -/
theorem registerBankAndCounters : Obligations.RegisterBankAndCounters :=
  ⟨State.reg_setReg, State.reg_countBy_same, fun s _ _ n => s.reg_countBy_ne n, fun s a b _ _ => s.bit_flag a b⟩

end Sys2Proof.Proofs
end

section
/-! SUPPORT. Accesses to the register space (R11, R12, R14, R58 to R61, R613, R658, R659): what a write merges into a register, what
a served path's write and read do, and what a rejected, bad or gated access leaves. -/

namespace Sys2Proof.Machine

/-! ### The value that a write stores (R12) -/

theorem testBit_allOnes_xor (m : Nat) {i : Nat} (hi : i < 32) : (0xFFFFFFFF ^^^ m).testBit i = !m.testBit i := by
  rw [Nat.testBit_xor, show (0xFFFFFFFF : Nat) = 2 ^ 32 - 1 from rfl, Nat.testBit_two_pow_sub_one]
  simp [hi]

theorem Word.bit_w32 (n : Nat) {i : Nat} (hi : i < 32) : Word.bit (w32 n) i = n.testBit i := by
  simp only [Word.bit, w32, BitVec.toNat_ofNat, Nat.testBit_mod_two_pow, hi, decide_true, Bool.true_and]

/-- The bits of a mask taken from one number, the others from another. -/
theorem testBit_masked (old v m : Nat) {i : Nat} (hi : i < 32) :
    ((old &&& (0xFFFFFFFF ^^^ m)) ||| (v &&& m)).testBit i = if m.testBit i then v.testBit i else old.testBit i := by
  rw [Nat.testBit_or, Nat.testBit_and, Nat.testBit_and, testBit_allOnes_xor _ hi]
  cases m.testBit i <;> simp

/-- The bits that a write may replace: RW bits, and RWL bits while the block is not locked, of a host those without the FW
marker. -/
theorem testBit_writeMask (rw rwl host : Nat) (lock fw : Bool) (i : Nat) :
    (if fw then rw ||| (if lock then 0 else rwl) else (rw ||| (if lock then 0 else rwl)) &&& host).testBit i =
      ((rw.testBit i || (rwl.testBit i && !lock)) && (fw || host.testBit i)) := by
  cases fw <;> cases lock <;> simp

/-- A register after a write, bit by bit: an RW or open RWL bit that the writer owns is replaced, a W1S bit set by firmware, and
a W1C bit cleared by a 1. -/
theorem State.bit_merged (s : State) (off : Nat) (d : RegDesc) (v : Word) (fw : Bool) {i : Nat} (hi : i < 32) :
    Word.bit (s.merged off d v fw) i =
      (((if (d.rw.testBit i || (d.rwl.testBit i && !s.bit (lockOf off) 0)) && (fw || d.host.testBit i) then Word.bit v i
        else s.bit off i) || (fw && d.w1s.testBit i && Word.bit v i)) && !(d.w1c.testBit i && Word.bit v i)) := by
  have hset : (if fw then v.toNat &&& d.w1s else 0).testBit i = (fw && d.w1s.testBit i && Word.bit v i) := by
    cases fw <;> simp [Word.bit, Bool.and_comm]
  rw [State.merged, Word.bit_w32 _ hi, Nat.testBit_and, Nat.testBit_or, testBit_masked _ _ _ hi, testBit_writeMask, hset,
    testBit_allOnes_xor _ hi, Nat.testBit_and, Bool.and_comm (v.toNat.testBit i)]
  rfl

/-- A register of write-only bits alone reads 0. -/
theorem State.readReg_writeOnly (s : State) (k : Nat) {off : Nat} {d : RegDesc} (hpair : d.pair = 0) (hrc : d.rc = 0)
    (hwo : d.wo = 0xFFFFFFFF) (hoff : off < Reg.evrWindow) : s.readReg k off d = (s, 0) := by
  rw [State.readReg, if_neg (by omega)]
  simp [hpair, hrc, hwo, w32]

/-! ### A write by a path that is served -/

theorem State.write4_of_serves {s : State} {p : RegPath} {off : Nat} {d : RegDesc} (v : Word) (h : s.serves p off d)
    (hown : pathFw p = true ∨ fwOwned d off = false) :
    s.write4 p off v = (s.writeReg (pathKey p) off d v (pathFw p), false) := by
  obtain ⟨-, hreach, habs, hdesc, hawake, hgate⟩ := h
  have hown' : (fwOwned d off && !pathFw p) = false := by
    obtain h | h := hown <;> simp [h]
  simp [State.write4, hreach, habs, hdesc, State.barWake_awake s p hawake, hgate, hown']

/-- A host's write to an FW-marked register is rejected (R14). -/
theorem State.write4_of_fwOwned {s : State} {p : RegPath} {off : Nat} {d : RegDesc} (v : Word) (h : s.serves p off d)
    (hhost : pathFw p = false) (hown : fwOwned d off = true) : s.write4 p off v = (s.fwReject p off, true) := by
  obtain ⟨-, hreach, habs, hdesc, hawake, hgate⟩ := h
  simp [State.write4, hreach, habs, hdesc, State.barWake_awake s p hawake, hgate, hown, hhost]

/-- A 4-byte write where the path exists and the offset is one of a register. -/
theorem State.writeAccess_four {s : State} {p : RegPath} {off : Nat} (v : Nat) (hpath : s.hasPath p = true)
    (hgood : goodAccess off 4 = true) : s.writeAccess p off 4 v = (s.write4 p off (w32 v)).1 := by
  simp [State.writeAccess, hpath, hgood]

theorem State.writeAccess_of_serves {s : State} {p : RegPath} {off : Nat} {d : RegDesc} (v : Nat) (h : s.serves p off d)
    (hown : pathFw p = true ∨ fwOwned d off = false) :
    s.writeAccess p off 4 v = s.writeReg (pathKey p) off d (w32 v) (pathFw p) := by
  have ⟨hpath, _, _, hdesc, _, _⟩ := h
  rw [State.writeAccess_four v hpath (goodAccess_of_descAt hdesc), State.write4_of_serves _ h hown]

/-- A register of its own takes the merged value, as it is stored. -/
theorem State.writeReg_plain (s : State) (k : Nat) {off : Nat} {d : RegDesc} (v : Word) (fw : Bool) (hpair : d.pair = 0)
    (hplain : plainOff off) : s.writeReg k off d v fw = s.putReg off (s.merged off d v fw) v := by
  obtain ⟨hown, hrule⟩ := hplain
  have hc : ownRegs.contains off = false := by simpa using hown
  simp only [List.mem_cons, List.not_mem_nil, or_false, not_or] at hrule
  obtain ⟨h1, h2, h3, h4⟩ := hrule
  simp [State.writeReg, hpair, hown, h1, h2, h3, h4]

/-- A write that is not rejected, of a register without an action, puts the value as stored. -/
theorem State.putReg_noAction {s : State} {off : Nat} {w : Word} (v : Word) (hact : noAction off)
    (hrej : s.rejects off (storedVal off (s.reg off) w) = false) :
    s.putReg off w v = s.setReg off (storedVal off (s.reg off) w) := by
  simp only [State.putReg, hrej, Bool.false_eq_true, if_false]
  exact hact ..

/-- The _LO of a writable pair is held on the path (R11). -/
theorem State.writeReg_lo (s : State) (k : Nat) {off : Nat} {d : RegDesc} (v : Word) (fw : Bool) (hpair : d.pair = 1)
    (hrw : (d.rw ||| d.rwl) ≠ 0) :
    s.writeReg k off d v fw = s.setPath k fun q => { q with held := q.held.set off v } := by
  rw [State.writeReg, if_pos ⟨hpair, hrw⟩]

/-- The _HI of a writable pair puts the _LO half held, and itself (R11). -/
theorem State.writeReg_hi (s : State) (k : Nat) {off : Nat} {d dl : RegDesc} {lo : Word} (v : Word) (fw : Bool)
    (hpair : d.pair = 2) (hrw : (d.rw ||| d.rwl) ≠ 0) (htile : off ≠ Reg.plcTileSelHi) (hdl : descAt (off - 4) = some dl)
    (hheld : (s.path k).held.get? (off - 4) = some lo) :
    let u : State := s.setPath k fun q => { q with held := q.held.erase (off - 4) }
    let w := u.setReg (off - 4) (u.merged (off - 4) dl lo fw)
    s.writeReg k off d v fw = w.putReg off (w.merged off d v fw) v := by
  have h1 : ¬(d.pair = 1 ∧ (d.rw ||| d.rwl) ≠ 0) := by omega
  simp only [State.writeReg, if_neg h1, if_pos (And.intro hpair hrw), State.writeHi, if_neg htile, hdl, hheld]

/-- An 8-byte write at a _LO that the path may write: the one half and then the other (R59). -/
theorem State.writeAccess_eight {s : State} {p : RegPath} {off : Nat} {d : RegDesc} (v : Nat) (h : s.serves p off d)
    (hgood : goodAccess off 8 = true) (hown : pathFw p = true ∨ fwOwned d off = false) :
    s.writeAccess p off 8 v =
      ((s.writeReg (pathKey p) off d (w32 (v % 2 ^ 32)) (pathFw p)).write4 p (off + 4) (w32 (v / 2 ^ 32))).1 := by
  have ⟨hpath, hreach, _, _, _, hgate⟩ := h
  simp [State.writeAccess, hpath, hgood, hreach, hgate, State.write4_of_serves _ h hown]

/-! ### Flags that hardware sets in the cycle of a write (R658, R660) -/

/-- With none of the register's W1C flags set by hardware, nothing changes: a capture register's guard is one of them. -/
theorem State.hwSets_of_none (s : State) {off hw : Nat} (cap : Nat) {d : RegDesc} (hd : descAt off = some d)
    (h : hw &&& d.w1c = 0) : s.hwSets off hw cap = s := by
  have hbit (i : Nat) (hi : d.w1c.testBit i = true) : hw.testBit i = false := by
    simpa [hi] using congrArg (·.testBit i) h
  have hcap : ¬((off = Reg.glbXltStatus ∧ hw.testBit 0) ∨ (off = Reg.pwsFirstOp ∧ hw.testBit 31)) := by
    rintro (⟨rfl, h0⟩ | ⟨rfl, h31⟩)
    · obtain rfl : _ = d := Option.some.inj hd
      simp [hbit 0 rfl] at h0
    · obtain rfl : _ = d := Option.some.inj hd
      simp [hbit 31 rfl] at h31
  rw [State.hwSets, if_neg hcap, hd]
  simp [h]

/-! ### Reads (R11, R12, R659) -/

/-- A read of a register with an RC field answers its value and leaves what clearing leaves. -/
theorem State.readReg_rc (s : State) (k : Nat) {off : Nat} {d : RegDesc} (hpair : d.pair = 0) (hrc : d.rc ≠ 0)
    (hwin : off < Reg.evrWindow ∨ Reg.evrWindow + 32 ≤ off) :
    s.readReg k off d = (s.setReg off (s.rcLeft off d), s.shownTo k off) := by
  rw [State.readReg, if_neg (by omega)]
  simp [hpair, hrc]

/-- A read of a register of its own without RC fields answers what it shows, its write-only bits 0. -/
theorem State.readReg_plain (s : State) (k : Nat) {off : Nat} {d : RegDesc} (hpair : d.pair = 0) (hrc : d.rc = 0)
    (hwin : off < Reg.evrWindow ∨ Reg.evrWindow + 32 ≤ off) :
    s.readReg k off d = (s, w32 ((s.shownTo k off).toNat &&& (0xFFFFFFFF ^^^ d.wo))) := by
  rw [State.readReg, if_neg (by omega)]
  simp [hpair, hrc]

/-- A 4-byte read by a served path of a register that answers at once. -/
theorem exec_registerLoRead_of_serves {s : State} {p : RegPath} {off : Nat} {d : RegDesc} (h : s.serves p off d)
    (hcommit : off ≠ Reg.lapCommit) (hbar : ∀ ld, p = .bar0 ld → off ≠ Reg.mbxPbarrier + 0x2000 * ld.val) :
    exec (.registerLoRead p off) s = .next (((s.readReg (pathKey p) off d).1).emit
      (.regRead (pathKey p) off (s.readReg (pathKey p) off d).2 none)) := by
  have ⟨hpath, _, _, hdesc, _, _⟩ := h
  rw [exec_registerLoRead hdesc hcommit hbar, if_neg (by simp [hpath]), State.read4_of_serves h]

/-- RC_COUNTER_READ is the 4-byte read, then the increments of its cycle. -/
theorem exec_rcCounterRead_of_serves {s : State} {p : RegPath} {off : Nat} {d : RegDesc} (n : Nat) (h : s.serves p off d)
    (hcommit : off ≠ Reg.lapCommit) (hbar : ∀ ld, p = .bar0 ld → off ≠ Reg.mbxPbarrier + 0x2000 * ld.val) :
    exec (.rcCounterRead p off n) s = .next ((((s.readReg (pathKey p) off d).1).emit
      (.regRead (pathKey p) off (s.readReg (pathKey p) off d).2 none)).rcAdd off n) := by
  have hread : Host.Outcome.next (s.readAccess p off 4) = _ := exec_registerLoRead_of_serves h hcommit hbar
  exact congrArg (fun u => Host.Outcome.next (State.rcAdd u off n)) (Host.Outcome.next.inj hread)

/-- The two RC counters of GLB are cleared whole. -/
theorem State.rcLeft_glb (s : State) {d : RegDesc} {off : Nat} (hoff : off = Reg.glbFwReject ∨ off = Reg.glbBadAccess)
    (hrc : d.rc = 0xFFFFFFFF) : s.rcLeft off d = 0 := by
  obtain rfl | rfl := hoff <;> simp [State.rcLeft, hrc, w32, cxRep, Reg.glbFwReject, Reg.glbBadAccess, Reg.bpmLow0, Reg.cxStageUsed]

/-! ### Bad and rejected accesses (R14, R59) -/

theorem State.writeAccess_bad {s : State} {p : RegPath} {off size : Nat} (v : Nat) (hpath : s.hasPath p = true)
    (hbad : goodAccess off size = false) : s.writeAccess p off size v = s.count Reg.glbBadAccess := by
  simp [State.writeAccess, hpath, hbad]

theorem State.readAccess_bad {s : State} {p : RegPath} {off size : Nat} (hpath : s.hasPath p = true)
    (hbad : goodAccess off size = false) :
    s.readAccess p off size = (s.count Reg.glbBadAccess).emit (.badRead (pathKey p) size) := by
  simp [State.readAccess, hpath, hbad]

/-- A host's write to an FW-marked register, of 4 bytes or of a pair's 8, is rejected once (R14). -/
theorem State.writeAccess_of_fwOwned {s : State} {p : RegPath} {off size : Nat} {d : RegDesc} (v : Nat) (h : s.serves p off d)
    (hgood : goodAccess off size = true) (hhost : pathFw p = false) (hown : fwOwned d off = true) :
    s.writeAccess p off size v = s.fwReject p off := by
  have ⟨hpath, hreach, _, _, _, _⟩ := h
  simp only [State.writeAccess, hpath, hgood, hreach, State.write4_of_fwOwned _ h hhost hown, Bool.true_eq_false, if_false,
    Bool.true_or, if_true, ite_self]

/-- A queued record leaves memory, and of the bank all but the count of dropped records. -/
theorem State.record_frame (s : State) (code p0 p1 p23 : Nat) :
    (s.record code p0 p1 p23).mem = s.mem ∧
      ∀ off, off ≠ Reg.evrDrop → (s.record code p0 p1 p23).reg off = s.reg off := by
  unfold State.record State.recordF State.evrPush
  split
  · exact ⟨rfl, fun off h => s.reg_count_ne h⟩
  · exact ⟨rfl, fun off _ => rfl⟩

end Sys2Proof.Machine

namespace Sys2Proof.Proofs

open Sys2Proof Sys2Proof.Machine

/-- Refutes O9: its first clause reads `(bit = merged) && !(W1C bit written 1)`, for `=` binds closer than `&&`, so it denies
that a W1C bit is ever written 1. Here bit 0 of a register whose bit 0 is W1C is. (What a write merges is `State.bit_merged`.) -/
theorem not_writeMergesByAccessCode : ¬ Obligations.WriteMergesByAccessCode := by
  rintro ⟨h, -⟩
  exact absurd (h State.reset 0 { off := 0, w1c := 1 } 1 true 0 (by decide)) (by simp [Word.bit])

/-- Settles O10: each write comes to the one rule of its kind of register. -/
theorem registerWritesTakeEffect : Obligations.RegisterWritesTakeEffect := by
  refine ⟨?_, ?_, ?_, ?_, ?_⟩
  · intro s p off d v hs _ hpair hplain hown new
    have hw : exec (.registerWrite p off 4 v) s = .next (s.putReg off (s.merged off d (w32 v) (pathFw p)) (w32 v)) := by
      rw [← s.writeReg_plain (pathKey p) _ _ hpair hplain, ← State.writeAccess_of_serves v hs hown]
      rfl
    exact ⟨hw, fun hact hrej => hw.trans (congrArg _ (State.putReg_noAction _ hact hrej))⟩
  · intro s p off d v hw cap hs _ hpair hplain hown new hact hrej
    have hput : exec (.w1cFlagClear p off v hw cap) s = .next ((s.setReg off new).hwSets off hw.toNat cap.toNat) := by
      change Host.Outcome.next ((s.writeAccess p off 4 v.toNat).hwSets off hw.toNat cap.toNat) = _
      rw [State.writeAccess_of_serves _ hs hown, w32_toNat, s.writeReg_plain _ _ _ hpair hplain,
        State.putReg_noAction _ hact hrej]
    obtain ⟨-, -, -, hdesc, -, -⟩ := hs
    exact ⟨hput, fun h => by rw [hput, State.hwSets_of_none _ _ hdesc h]⟩
  · intro s p off d v hs _ hpair hrw hown
    change Host.Outcome.next (s.writeAccess p off 4 v) = _
    rw [State.writeAccess_of_serves _ hs hown, s.writeReg_lo _ _ _ hpair hrw]
    rfl
  · intro s p off d dl v lo hs _ hpair hrw htile hdl hown hact hheld u w new hrej
    have hput : exec (.registerHiWrite p off v) s = .next (w.setReg off new) := by
      change Host.Outcome.next (s.writeAccess p off 4 v.toNat) = _
      rw [State.writeAccess_of_serves _ hs hown, w32_toNat, s.writeReg_hi _ _ _ hpair hrw htile hdl hheld]
      exact congrArg _ (State.putReg_noAction v hact hrej)
    exact ⟨hput, hput⟩
  · intro s p off v d dh hs hs' hgood hpair hrw hown hmod hlt
    change Host.Outcome.next (s.writeAccess p off 8 v) = .next (State.writeAccess _ p (off + 4) 4 _)
    have hgood' : goodAccess (off + 4) 4 = true := by simp [goodAccess]; omega
    rw [State.writeAccess_eight v hs hgood hown, s.writeReg_lo _ _ _ hpair hrw]
    refine congrArg _ (Eq.trans ?_ (State.writeAccess_four _ ?_ hgood').symm)
    · rw [w32_toNat]
      rfl
    · exact hs.1

/-- Settles O11: each kind of register has one rule of its read. -/
theorem registerReadsAnswer : Obligations.RegisterReadsAnswer := by
  refine ⟨?_, ?_, ?_, ?_, ?_⟩
  · intro s p off d hs _ hpair hrc hcommit hwin hbar
    rw [exec_registerLoRead_of_serves hs hcommit hbar, s.readReg_plain _ hpair hrc hwin]
  · intro s p off d hs _ hpair hcommit hwin hbar
    rw [exec_registerLoRead_of_serves hs hcommit hbar, s.readReg_lo _ _ _ hpair hwin]
  · intro s p off d hs _ hpair hcommit hwin hbar
    rw [exec_registerLoRead_of_serves hs hcommit hbar, s.readReg_hi _ _ _ hpair hwin, Tbl.getD]
    cases (s.path (pathKey p)).latch.get? (off - 4) <;> rfl
  · intro s p off n d hs _ hpair hrc hcommit hwin hbar
    rw [exec_rcCounterRead_of_serves n hs hcommit hbar, s.readReg_rc _ hpair hrc hwin]
  · exact fun s d hrc => ⟨s.rcLeft_glb (.inl rfl) hrc, s.rcLeft_glb (.inr rfl) hrc⟩

/-- Settles O14: an access that R59 does not allow is told apart before anything else of a path that exists. -/
theorem badAccessCounts : Obligations.BadAccessCounts := by
  intro s p off size v hpath hbad
  exact ⟨congrArg _ (State.writeAccess_bad 0 hpath hbad), congrArg _ (State.readAccess_bad hpath hbad),
    congrArg _ (State.writeAccess_bad v hpath hbad)⟩

/-- Settles O60: a rejected write only counts and records, and a read asks for no mark. -/
theorem fwMarkedRegistersRejectHosts : Obligations.FwMarkedRegistersRejectHosts := by
  refine ⟨?_, ?_, ?_⟩
  · intro s p off size v d hs hgood hhost hown
    exact congrArg _ (State.writeAccess_of_fwOwned v hs hgood hhost hown)
  · intro s p off v d hs hgood hhost hown hne hdrop
    refine ⟨_, congrArg Host.Outcome.next (State.writeAccess_of_fwOwned v.toNat hs hgood hhost hown), ?_⟩
    obtain ⟨hmem, hreg⟩ := (s.count Reg.glbFwReject).record_frame 0x0001 (pathHost p) 0 off
    exact ⟨(hreg off hdrop).trans (s.reg_count_ne hne), hmem⟩
  · intro s p off d hs _ hcommit hbar
    exact exec_registerLoRead_of_serves hs hcommit hbar

end Sys2Proof.Proofs
end

section
/-! SUPPORT. The read of an RC counter in the cycle of its increments (R659), the clearing of W1C flags in the cycle in which
hardware sets them (R658), and the note of an access to a gated island (R613). -/

namespace Sys2Proof.Machine

/-! ### The RC counters of GLB -/

theorem State.setReg_setReg_eq_countBy (s : State) (off n : Nat) :
    (s.setReg off 0).countBy off n = (s.setReg off 0).setReg off (w32 (min n 0xFFFFFFFF)) := by
  rw [State.countBy_eq, State.reg_setReg_same]
  simp

/-- The descriptor of an RC counter of GLB: the whole register is RC, and it shows its own content. -/
theorem glbRc_facts {off : Nat} (h : off = Reg.glbFwReject ∨ off = Reg.glbBadAccess) :
    ∃ d, descAt off = some d ∧ d.pair = 0 ∧ d.rc = 0xFFFFFFFF ∧ off ≠ Reg.lapCommit ∧ off < Reg.evrWindow ∧
      islandOf off = 1 ∧ cxRep off ≠ Reg.cxDownCount ∧ ∀ s : State, s.shownTo 36 off = s.reg off := by
  obtain rfl | rfl := h
  · exact ⟨{ off := Reg.glbFwReject, rc := 0xFFFFFFFF }, rfl, rfl, rfl, by decide, by decide, rfl, by decide, fun _ => rfl⟩
  · exact ⟨{ off := Reg.glbBadAccess, rc := 0xFFFFFFFF }, rfl, rfl, rfl, by decide, by decide, rfl, by decide, fun _ => rfl⟩

/-- The increments of a 32-bit RC counter in the cycle of its read are counted. -/
theorem State.rcAdd_of_whole (s : State) {off : Nat} {d : RegDesc} (n : Nat) (hd : descAt off = some d)
    (hrc : d.rc = 0xFFFFFFFF) (hcx : cxRep off ≠ Reg.cxDownCount) :
    s.rcAdd off n = if n = 0 then s else s.countBy off n := by
  simp [State.rcAdd, hd, hrc, hcx]

/-! ### Flags set by hardware in the cycle of a write -/

/-- What one flag set by hardware does: the flag, and the counter that counts its event (R658). -/
def State.hwFlag (off : Nat) (t : State) (i : Nat) : State :=
  let u := t.flag off i
  match flagCounter off i with
  | some c => if 0x9C0000 ≤ c ∧ c < 0x9C00A0 then u.addSat c 15 0 1 else u.count c
  | none => u

/-- Where no capture register holds the event, the flags are set one by one. -/
theorem State.hwSets_eq (s : State) {off hw : Nat} (cap : Nat) {d : RegDesc} (hd : descAt off = some d)
    (hcap : off ≠ Reg.glbXltStatus ∧ off ≠ Reg.pwsFirstOp) :
    s.hwSets off hw cap = ((List.range 32).filter fun i => (hw &&& d.w1c).testBit i).foldl (State.hwFlag off) s := by
  simp only [State.hwSets, hcap, false_and, or_self, if_false, hd]
  rfl

/-- The event registers of TQM, PLC, HLC, FMC, ELG, TWN, RDX and SEC. -/
def plainEventRegs : List Nat :=
  [Reg.tqmEvent, Reg.plcEvent, Reg.hlcEvent, Reg.fmcEvent, Reg.elgEvent, Reg.twnEvent, Reg.rdxEvent, Reg.secEvent]

/-- The counter of such a register's events is another register. -/
theorem flagCounter_ne {off i c : Nat} (h : off ∈ plainEventRegs) (hc : flagCounter off i = some c) : off ≠ c := by
  rintro rfl
  simp only [plainEventRegs, List.mem_cons, List.not_mem_nil, or_false] at h
  unfold flagCounter at hc
  obtain rfl | rfl | rfl | rfl | rfl | rfl | rfl | rfl := h <;> simp +decide [ite_eq_iff] at hc

/-- A flag that hardware sets is the one bit of its register that changes, whether or not its event is counted. -/
theorem State.bit_hwFlag (t : State) {off i j : Nat} (h : off ∈ plainEventRegs) (hi : i < 32) (hj : j < 32) :
    (State.hwFlag off t i).bit off j = (decide (j = i) || t.bit off j) := by
  have hflag : (t.flag off i).bit off j = (decide (j = i) || t.bit off j) := by
    rw [State.bit_flag t off off hi hj]
    by_cases h : j = i <;> simp [h]
  simp only [State.hwFlag]
  split
  next c hc =>
    have hoff := flagCounter_ne h hc
    split
    · rw [← hflag, State.bit, State.addSat, State.setFld, State.reg_setReg_ne _ _ hoff, State.bit]
    · rw [← hflag, State.bit, State.reg_count_ne _ hoff, State.bit]
  next => exact hflag

/-- After hardware has set flags, a bit of their register is set if it is among them or was set. -/
theorem State.bit_hwFlags (t : State) {off j : Nat} {l : List Nat} (h : off ∈ plainEventRegs) (hl : ∀ i ∈ l, i < 32) (hj : j < 32) :
    (l.foldl (State.hwFlag off) t).bit off j = (l.contains j || t.bit off j) := by
  induction l generalizing t with
  | nil => simp
  | cons i l ih =>
    rw [List.foldl_cons, ih _ fun x hx => hl x (List.mem_cons_of_mem _ hx),
      State.bit_hwFlag t h (hl i (List.mem_cons_self ..)) hj]
    by_cases hji : j = i <;> simp [hji]

/-- Such a register holds W1C flags alone, of which hosts clear every one; a write of it is stored as it is and does nothing
else. -/
theorem plainEventRegs_facts {off : Nat} {d : RegDesc} (h : off ∈ plainEventRegs) (hd : descAt off = some d) :
    (d.pair = 0 ∧ d.rw = 0 ∧ d.rwl = 0 ∧ d.w1s = 0 ∧ fwOwned d off = false) ∧ plainOff off ∧ noAction off ∧
      (∀ (s : State) (w : Word), s.rejects off w = false) ∧ (∀ old w, storedVal off old w = w) ∧
      (off ≠ Reg.glbXltStatus ∧ off ≠ Reg.pwsFirstOp) := by
  simp only [plainEventRegs, List.mem_cons, List.not_mem_nil, or_false] at h
  obtain rfl | rfl | rfl | rfl | rfl | rfl | rfl | rfl := h <;> obtain rfl := Option.some.inj hd <;>
    refine ⟨⟨rfl, rfl, rfl, rfl, rfl⟩, by unfold plainOff; decide, fun _ _ _ _ => rfl, fun _ _ => rfl, fun _ _ => rfl, by decide⟩

/-! ### The note of an access to a gated island (R613) -/

theorem State.path_mapV_erase_own (s : State) (off k : Nat) :
    ((State.path { s with paths := s.paths.mapV fun q => { q with own := q.own.erase off } } k).own.get? off) = none := by
  simp only [State.path, Tbl.getD, Tbl.get?_mapV]
  cases s.paths.get? k with
  | none => rfl
  | some q => exact (Tbl.get?_erase ..).trans (if_pos rfl)

theorem State.own_setOwn_same (s : State) (k off : Nat) (w : Word) : (s.setOwn k off w).own k off = w := by
  simp only [State.own, State.setOwn, State.path_setPath, if_true, Tbl.getD, Tbl.get?_set, Option.getD_some]

/-- A note of an access touches the bank, and paths' own registers, alone. -/
theorem State.gatedNote_frame (s : State) (k off : Nat) (write : Bool) :
    (s.gatedNote k off write).regs = ((s.flag Reg.islEvent (b2n write)).count Reg.islCount).regs ∧
      (s.gatedNote k off write).isl = s.isl ∧ (s.gatedNote k off write).mem = s.mem ∧ (s.gatedNote k off write).out = s.out := by
  unfold State.gatedNote
  dsimp only
  split <;> split <;> exact ⟨rfl, rfl, rfl, rfl⟩

/-- With both flags clear, the access is recorded for the path. -/
theorem State.own_gatedNote (s : State) (k off : Nat) (write : Bool) (h0 : s.bit Reg.islEvent 0 = false)
    (h1 : s.bit Reg.islEvent 1 = false) :
    (s.gatedNote k off write).own k Reg.islGatedAddr = w32 (2 ^ 31 * b2n write + off % 2 ^ 26) := by
  simp only [State.gatedNote, h0, h1, Bool.not_false, Bool.and_self, if_true, State.path_mapV_erase_own, Option.isNone_none,
    State.own_setOwn_same]

/-- With a flag set and an access recorded for the path, the flag is set and the access counted. -/
theorem State.gatedNote_of_recorded (s : State) (k off : Nat) (write : Bool)
    (hflag : s.bit Reg.islEvent 0 = true ∨ s.bit Reg.islEvent 1 = true)
    (hrec : ((s.path k).own.get? Reg.islGatedAddr).isSome = true) :
    s.gatedNote k off write = (s.flag Reg.islEvent (b2n write)).count Reg.islCount := by
  have hfresh : (!s.bit Reg.islEvent 0 && !s.bit Reg.islEvent 1) = false := by
    obtain h | h := hflag <;> simp [h]
  have hnone : ((s.path k).own.get? Reg.islGatedAddr).isNone = false := by simpa using hrec
  simp only [State.gatedNote, hfresh, Bool.false_eq_true, if_false, State.path_count, State.path_flag, hnone]

/-- What the note of an access leaves in ISL's registers. -/
theorem State.isl_regs_gatedNote (s : State) (k off : Nat) (write : Bool) :
    (s.gatedNote k off write).bit Reg.islEvent (b2n write) = true ∧
      ((s.gatedNote k off write).reg Reg.islCount).toNat = min ((s.reg Reg.islCount).toNat + 1) 0xFFFFFFFF := by
  obtain ⟨hregs, -, -, -⟩ := s.gatedNote_frame k off write
  have hreg (a : Nat) : (s.gatedNote k off write).reg a = ((s.flag Reg.islEvent (b2n write)).count Reg.islCount).reg a := by
    rw [State.reg, hregs, State.reg]
  have hlt : b2n write < 32 := by cases write <;> decide
  constructor
  · rw [State.bit, hreg, State.reg_count_ne _ (by decide)]
    exact (s.bit_flag _ _ hlt hlt).trans (if_pos ⟨rfl, rfl⟩)
  · rw [hreg, State.reg_count_same, State.reg_flag_ne _ _ (by decide)]

/-- An access to a register of a gated island, of an awake chip, is noted; a read answers the pattern. -/
theorem exec_gatedIslandAccess_of_gated {s : State} {p : RegPath} {off : Nat} {d : RegDesc} (v : Word) (hpath : s.hasPath p = true)
    (hreach : s.reaches p off = true) (habs : s.absent off = false) (hdesc : descAt off = some d) (hawake : s.isl.quiet = .awake)
    (hgate : s.gated (islandOf off) = true) (hcommit : off ≠ Reg.lapCommit)
    (hbar : ∀ ld, p = .bar0 ld → off ≠ Reg.mbxPbarrier + 0x2000 * ld.val) :
    exec (.gatedIslandAccess p true off v) s = .next (s.gatedNote (pathKey p) off true) ∧
      exec (.gatedIslandAccess p false off v) s =
        .next ((s.gatedNote (pathKey p) off false).emit (.regRead (pathKey p) off 0xDEAD0A0A none)) := by
  constructor
  · change Host.Outcome.next (s.writeAccess p off 4 v.toNat) = _
    rw [State.writeAccess_four _ hpath (goodAccess_of_descAt hdesc)]
    simp [State.write4, hreach, habs, hdesc, State.barWake_awake s p hawake, hgate]
  · refine (exec_registerLoRead hdesc hcommit hbar).trans ?_
    rw [if_neg (by simp [hpath])]
    simp [State.read4, hreach, habs, hdesc, State.barWake_awake s p hawake, hgate]

end Sys2Proof.Machine

namespace Sys2Proof.Proofs

open Sys2Proof Sys2Proof.Machine

/-- Settles O12: the read answers the counter and clears it, and its increments are counted from 0. -/
theorem rcReadKeepsSameCycleIncrements : Obligations.RcReadKeepsSameCycleIncrements := by
  intro s off n hoff hawake hgate
  obtain ⟨d, hd, hpair, hrc, hcommit, hwin, hisl, hcx, hshown⟩ := glbRc_facts hoff
  have habs : s.absent off = false := by
    have : ¬0x100000 ≤ off := by obtain rfl | rfl := hoff <;> decide
    simp [State.absent, this]
  have hs : s.serves .firmware off d := ⟨rfl, rfl, habs, hd, hawake, by rw [hisl, hgate]⟩
  rw [exec_rcCounterRead_of_serves n hs hcommit (fun _ h => nomatch h), s.readReg_rc _ hpair (by simp [hrc]) (.inl hwin),
    State.rcAdd_of_whole _ n hd hrc hcx, s.rcLeft_glb hoff hrc]
  change Host.Outcome.next (if n = 0 then (s.setReg off 0).emit (.regRead 36 off (s.shownTo 36 off) none)
    else ((s.setReg off 0).countBy off n).emit (.regRead 36 off (s.shownTo 36 off) none)) = _
  rw [hshown, State.setReg_setReg_eq_countBy]
  rfl

/-- Settles O13: the write clears the flags written 1 and no other, and hardware's flags are set after it. -/
theorem w1cClearsWhatHardwareDoesNotSet : Obligations.W1cClearsWhatHardwareDoesNotSet := by
  intro s p off d v hw cap hoff hs
  have ⟨_, _, _, hdesc, _, _⟩ := hs
  obtain ⟨⟨hpair, hrw, hrwl, hw1s, hown⟩, hplain, hact, hrej, hst, hcap⟩ := plainEventRegs_facts hoff hdesc
  have hexec (hw : Word) : exec (.w1cFlagClear p off v hw cap) s =
      .next ((s.setReg off (s.merged off d v (pathFw p))).hwSets off hw.toNat cap.toNat) := by
    change Host.Outcome.next ((s.writeAccess p off 4 v.toNat).hwSets off hw.toNat cap.toNat) = _
    rw [State.writeAccess_of_serves _ hs (.inr hown), w32_toNat, s.writeReg_plain _ _ _ hpair hplain,
      State.putReg_noAction _ hact (hrej ..), hst]
  refine ⟨⟨_, hexec hw, fun i hi hflag => ?_⟩, s.merged off d v (pathFw p), ?_⟩
  · have hmem : ((List.range 32).filter fun i => (hw.toNat &&& d.w1c).testBit i).contains i = Word.bit hw i := by
      simp [Word.bit, hi, hflag]
    rw [State.hwSets_eq _ _ hdesc hcap, State.bit_hwFlags _ hoff (fun _ h => List.mem_range.mp (List.mem_filter.mp h).1) hi,
      hmem, State.bit, State.reg_setReg_same,
      s.bit_merged off d v _ hi, hrw, hrwl, hw1s, hflag]
    simp
  · rw [hexec, State.hwSets_of_none _ _ hdesc (by simp)]

/-- Settles O15: the access is noted once, by the rule of the note. -/
theorem gatedAccessNoted : Obligations.GatedAccessNoted := by
  intro s p off d v hpath hreach habs hdesc _ hawake hgate hcommit hbar
  obtain ⟨hwrite, hread⟩ := exec_gatedIslandAccess_of_gated v hpath hreach habs hdesc hawake hgate hcommit hbar
  have ⟨_, hisl, hmem, hout⟩ := s.gatedNote_frame (pathKey p) off true
  have ⟨_, hisl', hmem', hout'⟩ := s.gatedNote_frame (pathKey p) off false
  have ⟨hbit, hcount⟩ := s.isl_regs_gatedNote (pathKey p) off true
  have ⟨hbit', hcount'⟩ := s.isl_regs_gatedNote (pathKey p) off false
  refine ⟨⟨_, hwrite, hbit, hisl, hmem, hout, hcount, fun h => s.own_gatedNote _ off true h.1 h.2⟩,
    ⟨_, hread, hbit', hisl', hmem', congrArg _ hout', hcount', fun h => ?_⟩, fun hflag hrec => ?_⟩
  · exact (s.own_gatedNote _ off false h.1 h.2).trans (congrArg w32 (Nat.zero_add _))
  · rw [hwrite, hread, s.gatedNote_of_recorded _ off true hflag hrec, s.gatedNote_of_recorded _ off false hflag hrec]
    exact ⟨rfl, rfl⟩

end Sys2Proof.Proofs
end

section
/-! SUPPORT. Selectors and their snapshots (R60, R68, R232, R282, R283, R396, R562, R571, R587), and the event window (R581): what
each writes into the registers that a path has of its own. -/

namespace Sys2Proof.Machine

/-! ### A path's own registers -/

theorem State.own_setPath (s : State) (k a : Nat) {f : PathSt → PathSt} (hf : ∀ q, (f q).own = q.own) :
    (s.setPath k f).own k a = s.own k a := by
  rw [State.own, State.path_setPath, if_pos rfl, hf, State.own]

@[simp] theorem State.setOwn_mem (s : State) (k a : Nat) (w : Word) : (s.setOwn k a w).mem = s.mem := rfl
@[simp] theorem State.setOwn_regs (s : State) (k a : Nat) (w : Word) : (s.setOwn k a w).regs = s.regs := rfl
@[simp] theorem State.setOwn_out (s : State) (k a : Nat) (w : Word) : (s.setOwn k a w).out = s.out := rfl

theorem State.own_setOwn (s : State) (k a b : Nat) (w : Word) : (s.setOwn k a w).own k b = if b = a then w else s.own k b := by
  simp only [State.own, State.setOwn, State.path_setPath, if_true, Tbl.getD, Tbl.get?_set]
  split <;> rfl

/-- Sets several registers of a path's own. -/
def State.setOwns (s : State) (k : Nat) (l : List (Nat × Nat)) : State := l.foldl (fun t e => t.setOwn k e.1 (w32 e.2)) s

/-- A path's own registers hold a snapshot: those of a list their values, the others what they held, and nothing else changes. -/
def State.Shows (s : State) (k : Nat) (t : State) (l : List (Nat × Nat)) : Prop :=
  t = { s with paths := t.paths } ∧ (∀ e ∈ l, t.own k e.1 = w32 e.2) ∧ (∀ a, a ∉ l.map Prod.fst → t.own k a = s.own k a)

theorem State.shows_setOwns (s : State) (k : Nat) {l : List (Nat × Nat)} (h : (l.map Prod.fst).Nodup) :
    s.Shows k (s.setOwns k l) l := by
  induction l generalizing s with
  | nil => exact ⟨rfl, fun _ h => absurd h List.not_mem_nil, fun _ _ => rfl⟩
  | cons e l ih =>
    obtain ⟨hnew, hrest⟩ := List.nodup_cons.mp h
    obtain ⟨hpaths, hin, hout⟩ := ih (s.setOwn k e.1 (w32 e.2)) hrest
    refine ⟨hpaths, fun x hx => ?_, fun a ha => ?_⟩
    · obtain rfl | hx := List.mem_cons.mp hx
      · exact (hout _ hnew).trans ((s.own_setOwn ..).trans (if_pos rfl))
      · exact hin x hx
    · obtain ⟨hne, ha⟩ := not_or.mp (mt List.mem_cons.mpr ha)
      exact (hout a ha).trans ((s.own_setOwn ..).trans (if_neg hne))

/-- A change of a path's own state that is none of its registers shows through a snapshot. -/
theorem State.Shows.of_setPath {s t : State} {k : Nat} {l : List (Nat × Nat)} {f : PathSt → PathSt} (hf : ∀ q, (f q).own = q.own)
    (h : (s.setPath k f).Shows k t l) : s.Shows k t l := by
  obtain ⟨hpaths, hin, hout⟩ := h
  exact ⟨hpaths, hin, fun a ha => (hout a ha).trans (s.own_setPath k a hf)⟩

@[simp] theorem State.tile_setPath (s : State) (k n : Nat) (f : PathSt → PathSt) : (s.setPath k f).tile n = s.tile n := rfl

/-! ### What a selector selects -/

theorem Word.fld_w32 {n hi : Nat} (hn : n < 2 ^ (hi + 1)) (hhi : hi < 32) : Word.fld (w32 n) hi 0 = n := by
  have hlt : n < 2 ^ 32 := hn.trans_le (Nat.pow_le_pow_right (by decide) hhi)
  simp only [Word.fld, bitsOf, w32, BitVec.toNat_ofNat, Nat.mod_eq_of_lt hlt, Nat.shiftRight_zero, Nat.sub_zero, Nat.mod_eq_of_lt hn]

theorem State.selRegion_eq (s : State) (k id : Nat) :
    s.selRegion k id = s.setOwns k [(Reg.glbRgnSel, id), (Reg.glbRgnAttr, 2 ^ 17 * b2n (s.region id).onAck
      + 2 ^ 16 * b2n (s.region id).prefOwner + 2 ^ 15 * b2n (s.region id).owner + 2 ^ 12 * ((s.region id).qos % 8)
      + 2 ^ 4 * ((s.region id).epoch % 256) + regionCode (s.region id).state), (Reg.glbRgnSize, (s.region id).size % 2 ^ 17),
      (Reg.glbRgnPseqLo, (s.region id).pseq % 2 ^ 32), (Reg.glbRgnPseqLo + 4, (s.region id).pseq / 2 ^ 32)] := rfl

theorem State.selSq_of_none {s : State} (k : Nat) {n : Nat} (h : s.sqs.get? n = none) :
    s.selSq k n = s.setOwns k [(Reg.tqmSqSel, n), (Reg.tqmSqInfo, 0), (Reg.tqmSqFetchLo, 0), (Reg.tqmSqFetchLo + 4, 0),
      (Reg.tqmSqCompleted, 0)] := by
  simp only [State.selSq, State.sqInfo, h]
  rfl

theorem State.selSq_of_some {s : State} (k : Nat) {n : Nat} {q : Sq} (h : s.sqs.get? n = some q) :
    s.selSq k n = s.setOwns k [(Reg.tqmSqSel, n), (Reg.tqmSqInfo, 2 ^ 31 * b2n q.maint
      + 2 ^ 24 * (s.cmds.count fun c => c.sq == n) + 2 ^ 19 * q.log2 + 2 ^ 16 * sqCode q.state + q.cq % 2 ^ 12),
      (Reg.tqmSqFetchLo, q.fetch % 2 ^ 32), (Reg.tqmSqFetchLo + 4, q.fetch / 2 ^ 32), (Reg.tqmSqCompleted, q.completed % 2 ^ 32)] := by
  simp only [State.selSq, State.sqInfo, h]
  rfl

theorem State.selCq_of_none {s : State} (k : Nat) {n : Nat} (h : s.cqs.get? n = none) :
    s.selCq k n = s.setOwns k [(Reg.tqmCqSel, n), (Reg.tqmCqInfo, 0), (Reg.tqmCqNextLo, 0), (Reg.tqmCqNextLo + 4, 0),
      (Reg.tqmCqConsLo, 0), (Reg.tqmCqConsLo + 4, 0)] := by
  simp only [State.selCq, h]
  rfl

theorem State.selCq_of_some {s : State} (k : Nat) {n : Nat} {c : Cq} (h : s.cqs.get? n = some c) :
    s.selCq k n = s.setOwns k [(Reg.tqmCqSel, n), (Reg.tqmCqInfo, 2 ^ 8 * c.t1.kind + 2 ^ 6 * c.t0.kind + 2 * c.log2 + 1),
      (Reg.tqmCqNextLo, c.nextSeq % 2 ^ 32), (Reg.tqmCqNextLo + 4, c.nextSeq / 2 ^ 32),
      (Reg.tqmCqConsLo, s.consOf c % 2 ^ 32), (Reg.tqmCqConsLo + 4, s.consOf c / 2 ^ 32)] := by
  simp only [State.selCq, h]
  rfl

theorem State.selPlc_eq (s : State) (k id : Nat) :
    s.selPlc k id = s.setOwns k [(Reg.plcRgnSel, id), (Reg.plcRgnVals, s.regionHeat id % 2 ^ 32),
      (Reg.plcRgnVals + 4, s.regionTiles id fun e => inDram e.home), (Reg.plcRgnVals + 8, s.regionTiles id fun e => e.pinned)] := rfl

theorem State.selTile_eq (s : State) (k lo hi : Nat) :
    s.selTile k lo hi = s.setOwns k [(Reg.plcTileSelLo, lo), (Reg.plcTileSelHi, hi % 8),
      (Reg.plcTileEntryLo, entryWord (lo + 2 ^ 32 * (hi % 8)) (s.tile (lo + 2 ^ 32 * (hi % 8))) % 2 ^ 32),
      (Reg.plcTileEntryLo + 4, entryWord (lo + 2 ^ 32 * (hi % 8)) (s.tile (lo + 2 ^ 32 * (hi % 8))) / 2 ^ 32)] := rfl

theorem State.selSet_eq (s : State) (k n : Nat) :
    let l := (s.sbList n).map Prod.snd
    let worn := l.map fun b => b.erases
    s.selSet k n = s.setOwns k [(Reg.fmcSetSel, n),
      (Reg.fmcSetVals, 2 ^ 16 * (l.filter fun b => b.state == .retired).length + s.freeIn n),
      (Reg.fmcSetVals + 4, 2 ^ 16 * maxOf worn + if l.length < s.sbPerSet then 0 else minOf worn 0)] := rfl

theorem State.selKey_eq (s : State) (k id : Nat) :
    s.selKey k id = s.setOwns k [(Reg.secKeySel, id), (Reg.secKeyInfo, 2 ^ 10 * b2n (s.oldHeld id)
      + 2 ^ 9 * b2n (s.sec.keys.getD id {}).shaum + 2 ^ 8 * b2n (s.sec.keys.getD id {}).xts
      + (s.sec.keys.getD id {}).epoch % 256)] := rfl

theorem State.selBlock_eq (s : State) (k b : Nat) :
    s.selBlock k b = s.setOwns k [(Reg.eflBlockSel, b), (Reg.eflBlockState, (s.blockWord b).toNat)] := by
  simp only [State.selBlock, State.setOwns, List.foldl_cons, List.foldl_nil, w32_toNat]

theorem State.eflRead_of_normal {s : State} {addr : Nat} (hst : (s.eflBlock (addr / 65536 % 256)).state = .normal)
    (hlisted : s.eflListed (addr / 65536 % 256) = true) : s.eflRead addr = (s, s.eflWord (addr % 2 ^ 24 / 8 * 8)) := by
  simp only [State.eflRead, hst, hlisted, Bool.true_or, if_true]

theorem State.eflOther_of_locked {s : State} (h : s.efl.seq = .locked) : s.eflOther = s := by
  simp only [State.eflOther, h]

/-- A read of a word of the window, a record standing at the path's cursor (R581). -/
theorem State.windowRead_of_cons {s : State} {k n : Nat} {e : Nat × EvRec} {l : List (Nat × EvRec)} {gap : Bool}
    (h : s.evrFrom (s.own k Reg.evrCursor).toNat = (gap, e :: l)) :
    (s.windowRead k n).2 = w32 ((recWords e.2).getD n 0) ∧ (s.windowRead k n).1.own k Reg.evrStatus = w32 (b2n gap) ∧
      (s.windowRead k n).1.mem = s.mem ∧ (s.windowRead k n).1.regs = s.regs ∧ (s.windowRead k n).1.out = s.out ∧
      (s.windowRead k n).1.own k Reg.evrCursor = if n = 7 then w32 (e.1 + 1) else s.own k Reg.evrCursor := by
  have hne : Reg.evrStatus ≠ Reg.evrCursor := by decide
  simp only [State.windowRead, h]
  split <;> simp [State.own_setOwn, hne, hne.symm]

/-! ### A selector written by a path that reaches everything -/

/-- A path that exists and reaches every register of a chip that has every block, is awake and has no island gated. -/
def State.OpenTo (s : State) (p : RegPath) : Prop :=
  s.hasPath p = true ∧ (∀ off, s.reaches p off = true) ∧ s.variantN = false ∧ s.isl.quiet = .awake ∧ ∀ i, s.gated i = false

theorem State.OpenTo.serves {s : State} {p : RegPath} {off : Nat} {d : RegDesc} (h : s.OpenTo p) (hd : descAt off = some d) :
    s.serves p off d := by
  obtain ⟨hpath, hreach, hvar, hawake, hgate⟩ := h
  exact ⟨hpath, hreach off, by simp [State.absent, hvar], hd, hawake, hgate _⟩

/-- A selector with a field of `hi + 1` bits takes the snapshot of the object that the field names. -/
theorem State.OpenTo.writeAccess_sel {s : State} {p : RegPath} {off n hi : Nat} {d : RegDesc} {sel : Nat → State} (h : s.OpenTo p)
    (hd : descAt off = some d) (hown : fwOwned d off = false) (hn : n < 2 ^ (hi + 1)) (hhi : hi < 32)
    (hsel : ∀ v fw, s.writeReg (pathKey p) off d v fw = sel (Word.fld v hi 0)) : s.writeAccess p off 4 n = sel n := by
  rw [State.writeAccess_of_serves n (h.serves hd) (.inr hown), hsel, Word.fld_w32 hn hhi]

/-- The _HI of PLC_TILE_SEL takes the tile's snapshot, with the _LO half that the path holds or last showed (R283). -/
theorem State.OpenTo.writeAccess_tileSel {s : State} {p : RegPath} (v : Word) (h : s.OpenTo p) :
    s.writeAccess p Reg.plcTileSelHi 4 v.toNat =
      (s.setPath (pathKey p) fun q => { q with held := q.held.erase Reg.plcTileSelLo }).selTile (pathKey p)
        ((s.path (pathKey p)).held.getD Reg.plcTileSelLo (s.own (pathKey p) Reg.plcTileSelLo)).toNat (v.toNat % 8) := by
  rw [State.writeAccess_of_serves (d := { off := Reg.plcTileSelHi, rw := 0x7, host := 0x7, pair := 2 }) _ (h.serves rfl) (.inr rfl),
    w32_toNat]
  rfl

/-- EFL_RADDR of a listed block in state NORMAL, no command sequence begun, shows the word (R571). -/
theorem State.OpenTo.writeAccess_raddr {s : State} {p : RegPath} {a : Word} (h : s.OpenTo p) (hseq : s.efl.seq = .locked)
    (hst : (s.eflBlock (a.toNat / 65536 % 256)).state = .normal) (hlisted : s.eflListed (a.toNat / 65536 % 256) = true) :
    s.writeAccess p Reg.eflRaddr 4 a.toNat = s.setOwns (pathKey p) [(Reg.eflRaddr, a.toNat),
      (Reg.eflRdataLo, s.eflWord (a.toNat % 2 ^ 24 / 8 * 8) % 2 ^ 32),
      (Reg.eflRdataHi, s.eflWord (a.toNat % 2 ^ 24 / 8 * 8) / 2 ^ 32)] := by
  have hwrite (fw : Bool) : s.writeReg (pathKey p) Reg.eflRaddr { off := Reg.eflRaddr, rw := 0xFFFFFFFF, host := 0xFFFFFFFF } a fw =
    s.eflOther.eflRaddrWrite (pathKey p) a := rfl
  rw [State.writeAccess_of_serves _ (h.serves rfl) (.inr rfl), w32_toNat, hwrite, State.eflOther_of_locked hseq,
    State.eflRaddrWrite, State.eflRead_of_normal hst hlisted]
  simp only [State.setOwns, List.foldl_cons, List.foldl_nil, w32_toNat]

/-- A command that is a write, and that write a list of settings of the path's own registers. -/
theorem yields_shows {c : Instr} {s t u : State} {k : Nat} {l : List (Nat × Nat)} (hwrite : t = u) (hown : u = s.setOwns k l)
    (h : decide (l.map Prod.fst).Nodup = true := by rfl) (hexec : exec c s = .next t := by rfl) : Yields c s fun t => s.Shows k t l :=
  ⟨_, hexec.trans (congrArg _ (hwrite.trans hown)), s.shows_setOwns k (of_decide_eq_true h)⟩

theorem exec_evrWindowRead_of_open {s : State} {p : RegPath} (w : Fin 8) (h : s.OpenTo p) :
    exec (.evrWindowRead p w) s = .next ((s.windowRead (pathKey p) w).1.emit
      (.regRead (pathKey p) (Reg.evrWindow + 4 * w) (s.windowRead (pathKey p) w).2 none)) := by
  have hd : ∀ w : Fin 8, descAt (Reg.evrWindow + 4 * w) = some { off := Reg.evrWindow, cnt := 8 } := by decide
  have hbar : ∀ (w : Fin 8) (ld : Fin 32), Reg.evrWindow + 4 * w.val ≠ Reg.mbxPbarrier + 0x2000 * ld.val := by decide
  have hcommit : ∀ w : Fin 8, Reg.evrWindow + 4 * w.val ≠ Reg.lapCommit := by decide
  have hread : s.readReg (pathKey p) (Reg.evrWindow + 4 * w) { off := Reg.evrWindow, cnt := 8 } = s.windowRead (pathKey p) w := by
    rw [State.readReg, if_pos (by omega), Nat.add_sub_cancel_left, Nat.mul_div_cancel_left _ (by decide)]
  exact (exec_registerLoRead_of_serves (h.serves (hd w)) (hcommit w) fun ld _ => hbar w ld).trans (by rw [hread])

end Sys2Proof.Machine

namespace Sys2Proof.Proofs

open Sys2Proof Sys2Proof.Machine

/-- Settles O16: each selector's write is a list of settings of the path's own registers, and a word of the window is read at the
path's cursor. -/
theorem selectorsTakeSnapshots : Obligations.SelectorsTakeSnapshots := by
  intro s p hpath hreach hvar hawake hgate k
  have ho : s.OpenTo p := ⟨hpath, hreach, hvar, hawake, hgate⟩
  refine ⟨fun r => ?_, fun n q h => ?_, fun n h => ?_, fun n c h => ?_, fun n h => ?_, fun r => ?_, fun h => ?_, fun n => ?_,
    fun r => ?_, fun b h => ?_, fun a hseq hst hlisted => ?_, fun w e l gap h => ?_⟩
  · exact yields_shows (ho.writeAccess_sel (hi := 11) rfl rfl r.isLt (by decide) fun _ _ => rfl) (s.selRegion_eq k r)
  · exact yields_shows (ho.writeAccess_sel (hi := 11) rfl rfl n.isLt (by decide) fun _ _ => rfl) (State.selSq_of_some k h)
  · exact yields_shows (ho.writeAccess_sel (hi := 11) rfl rfl n.isLt (by decide) fun _ _ => rfl) (State.selSq_of_none k h)
  · exact yields_shows (ho.writeAccess_sel (hi := 11) rfl rfl n.isLt (by decide) fun _ _ => rfl) (State.selCq_of_some k h)
  · exact yields_shows (ho.writeAccess_sel (hi := 11) rfl rfl n.isLt (by decide) fun _ _ => rfl) (State.selCq_of_none k h)
  · exact yields_shows (ho.writeAccess_sel (hi := 11) rfl rfl r.isLt (by decide) fun _ _ => rfl) (s.selPlc_eq k r)
  · refine ⟨_, congrArg Host.Outcome.next (ho.writeAccess_tileSel h), State.Shows.of_setPath
      (f := fun q => { q with held := q.held.erase Reg.plcTileSelLo }) (fun _ => rfl) ?_⟩
    rw [State.selTile_eq, Nat.mod_mod]
    simp only [State.tile_setPath]
    exact State.shows_setOwns _ k (of_decide_eq_true rfl)
  · exact yields_shows (ho.writeAccess_sel (hi := 5) rfl rfl n.isLt (by decide) fun _ _ => rfl) (s.selSet_eq k n)
  · exact yields_shows (ho.writeAccess_sel (hi := 11) rfl rfl r.isLt (by decide) fun _ _ => rfl) (s.selKey_eq k r)
  · refine yields_shows ((ho.writeAccess_sel (hi := 7) (sel := s.eflOther.selBlock k) rfl rfl b.isLt (by decide) fun _ _ => rfl).trans ?_)
      (s.selBlock_eq k b)
    rw [State.eflOther_of_locked h]
  · exact yields_shows (ho.writeAccess_raddr hseq hst hlisted) rfl
  · obtain ⟨hval, hstatus, hmem, hregs, hout, hcursor⟩ := State.windowRead_of_cons (n := w.val) h
    refine ⟨_, exec_evrWindowRead_of_open w ho, ?_, hstatus, hmem, hregs, ?_⟩
    · rw [State.emit_out, hout, hval]
    · refine hcursor.trans ?_
      simp only [Fin.ext_iff]
      rfl

end Sys2Proof.Proofs
end

section
/-! SUPPORT. The power states of a CXL link (R79, R80), and the CXL mailbox of an LD that is up (R107). -/

namespace Sys2Proof.Machine

/-- While the chip is awake, nothing has to be woken. -/
theorem State.wakeFor_awake {s : State} (c : WakeCause) (h : s.isl.quiet = .awake) : s.wakeFor c = s := by
  simp [State.wakeFor, h]

/-- A change of a link rests on what it makes of the link as it is. -/
theorem State.modLink_congr {s : State} {port link : Nat} {f g : CxlLink → CxlLink}
    (h : f (s.link port link) = g (s.link port link)) : s.modLink port link f = s.modLink port link g := by
  simp only [State.modLink, Tbl.upd]
  exact congrArg (fun l => { s with links := s.links.set (linkKey port link) l }) h

/-- A mailbox that is up answers, and keeps the opcode and the return code. -/
theorem State.cxlAnswer_up {s : State} {ld : Nat} (h : s.cxlMbxUp ld = true) (op ret : Nat) (body : List Nat) :
    s.cxlAnswer ld op ret body =
      (s.modLd ld fun l => { l with mbxOp := op, mbxRet := ret }).emit (.cxlMbx ld op ret body) := by
  simp [State.cxlAnswer, h]

/-- The first `n` handles are as many as they say. -/
theorem length_firstHandles (n : Nat) : ((List.range n).map (· + 1)).length = n := by simp

end Sys2Proof.Machine

namespace Sys2Proof.Proofs

open Sys2Proof Sys2Proof.Machine

/-- Settles O19: each request is honoured by its definition, under the conditions that it asks for. -/
theorem cxlLinkPowerStates : Obligations.CxlLinkPowerStates := by
  unfold Obligations.CxlLinkPowerStates
  intro s port link hawake
  refine ⟨fun hruns hen hw => ?_, fun hruns hen hw => ?_, fun w hruns hle hw => ?_, fun hruns hen => ?_, fun hl1 => ?_⟩
  · change execL0pNarrowRequest port link s = _
    simp only [execL0pNarrowRequest, hruns, hen, hw, and_self, if_true]
    rfl
  · change execL0pWidenRequest port link s = _
    simp only [execL0pWidenRequest, hruns, hen, hw, and_self, if_true]
    rw [State.setWidth, State.modLink_congr (g := fun l => { l with width := (s.link port link).full, state := .l0 })]
    simp
  · change execL0pHostRequest port link w s = _
    simp only [execL0pHostRequest, hruns, hle, hw, and_self, if_true]
    rfl
  · change execAspmL1Entry port link true s = _
    simp only [execAspmL1Entry, hruns, hen, and_self, if_true]
  · change execAspmL1Exit port link s = _
    simp only [execAspmL1Exit, hl1]
    exact congrArg Host.Outcome.next (State.wakeFor_awake _ hawake)

/-- Settles O24: every reading command is one answer of the mailbox. -/
theorem cxlMailboxReads : Obligations.CxlMailboxReads := by
  unfold Obligations.CxlMailboxReads
  intro s ld hup
  have hans := fun op ret body => congrArg (Host.Outcome.next : State → Out) (State.cxlAnswer_up hup op ret body)
  refine ⟨fun log => hans _ _ _, hans _ _ _, hans _ _ _, fun off len hle => ?_, hans _ _ _, hans _ _ _, fun hp => ?_,
    fun hp => ?_, fun dpa len => hans _ _ _, hans _ _ _, hans _ _ _, hans _ _ _, fun ns => hans _ _ _, fun op => hans _ _ _⟩
  · change execGetLog ld true off len s = _
    rw [execGetLog, if_neg (by simp), if_neg (by omega)]
    exact hans _ _ _
  · change execGetFwInfo ld s = _
    rw [execGetFwInfo, if_neg (by simp [hp])]
    exact hans _ _ _
  · change execGetFwInfo ld s = _
    rw [execGetFwInfo, if_pos hp]
    exact hans _ _ _

/-- Settles O25: each acting command by its definition, on the branch that its hypotheses choose. -/
theorem cxlMailboxActions : Obligations.CxlMailboxActions := by
  unfold Obligations.CxlMailboxActions
  intro s ld hup
  refine ⟨fun log => ?_, fun log n hn => ?_, fun p => ?_, fun dpa region off segs hmay hw => ?_,
    fun dpa data region off segs hmay hw => ?_, fun dpa data hmay => ⟨?_, ?_⟩, fun idx e hold => ?_,
    fun dpa len idx e hext => ?_, fun dpa len idx e hext => ?_⟩
  · change execClearEventRecords ld log true [] s = _
    simp [execClearEventRecords, hup]
  · change execClearEventRecords ld log false ((List.range n).map (· + 1)) s = _
    simp only [execClearEventRecords, hup, length_firstHandles, Bool.true_eq_false, Bool.false_eq_true, if_false, false_or,
      true_and, hn.le, if_true, hn.ne]
  · change execSetEventInterruptPolicy ld p s = _
    rw [execSetEventInterruptPolicy, if_pos hup]
  · change execInjectPoison ld dpa s = _
    rw [execInjectPoison, if_neg (by simp [hmay])]
    simp only [hw]
  · change execClearPoison ld dpa data s = _
    rw [execClearPoison, if_neg (by simp [hmay])]
    simp only [hw]
  · change execInjectPoison ld dpa s = _
    rw [execInjectPoison, if_pos hmay]
  · change execClearPoison ld dpa data s = _
    rw [execClearPoison, if_pos hmay]
  · change execAddDynamicCapacityResponse ld [] s = _
    rw [execAddDynamicCapacityResponse, if_neg (by simp [hup])]
    simp only [hold]
    rfl
  · change execAddDynamicCapacityResponse ld [(dpa, len)] s = _
    rw [execAddDynamicCapacityResponse, if_neg (by simp [hup])]
    simp only [List.all_cons, List.all_nil, hext, Option.isSome_some, Bool.and_self, if_true, List.foldl_cons, List.foldl_nil]
    · rfl
    · simp
  · change execReleaseDynamicCapacity ld dpa len s = _
    rw [execReleaseDynamicCapacity, if_neg (by simp [hup])]
    simp only [hext]
    rfl

end Sys2Proof.Proofs
end

section
/-! SUPPORT. What the traffic of messages leaves: sending to the peer, the responses of a QP, the buffers, the answers of the
mailboxes and the records of a completion ring reach only the queues and counters of those units. -/

namespace Sys2Proof.Machine

/-- What traffic leaves: every field but those of the units that carry it, the LDs without their mailboxes' last answers, and
the registers below those of the buffers, the event recorder and the two-wire buses. -/
def State.still (s : State) : State × (Nat → Ld) × (Nat → Word) :=
  ({ s with out := [], regs := [], evr := {}, ports := [], pools := [], reqs := [], twn := {}, rdx := {}, mbx := [],
            jwait := [], twb := {}, fw := {}, lds := [], cqs := [] },
   fun n => { s.ld n with mbxOp := 0, mbxRet := 0 }, fun off => if off < 0x9C0000 then s.reg off else 0)

section Reads

variable {s t : State} (h : t.still = s.still)
include h

theorem State.mem_of_still : t.mem = s.mem := congrArg (fun v => v.1.mem) h
theorem State.sectors_of_still : t.sectors = s.sectors := congrArg (fun v => v.1.sectors) h
theorem State.links_of_still : t.links = s.links := congrArg (fun v => v.1.links) h
theorem State.extents_of_still : t.extents = s.extents := congrArg (fun v => v.1.extents) h
theorem State.quiet_of_still : t.isl.quiet = s.isl.quiet := congrArg (fun v => v.1.isl.quiet) h

/-- An LD is as it was, but for its mailbox's last answer. -/
theorem State.ld_of_still (n : Nat) : { t.ld n with mbxOp := 0, mbxRet := 0 } = { s.ld n with mbxOp := 0, mbxRet := 0 } :=
  congrFun (congrArg (fun v => v.2.1) h) n

theorem State.reg_of_still {off : Nat} (ho : off < 0x9C0000) : t.reg off = s.reg off := by
  simpa [State.still, ho] using congrFun (congrArg (fun v => v.2.2) h) off

end Reads

theorem State.still_foldl {α : Type} {f : State → α → State} (hf : ∀ t x, (f t x).still = t.still) (l : List α) (s : State) :
    (l.foldl f s).still = s.still := by
  induction l generalizing s with
  | nil => rfl
  | cons x l ih => exact (ih _).trans (hf s x)

@[simp] theorem State.still_emit (s : State) (o : Output) : (s.emit o).still = s.still := rfl
@[simp] theorem State.still_modReq (s : State) (id : Nat) (f : Req → Req) : (s.modReq id f).still = s.still := rfl
@[simp] theorem State.still_modQp (s : State) (qpn : Nat) (f : Qp → Qp) : (s.modQp qpn f).still = s.still := rfl
@[simp] theorem State.still_modPort (s : State) (n : Nat) (f : NetPort → NetPort) : (s.modPort n f).still = s.still := rfl
@[simp] theorem State.still_modMb (s : State) (k : Nat) (f : Mbx → Mbx) : (s.modMb k f).still = s.still := rfl
@[simp] theorem State.still_modCq (s : State) (cq : Nat) (f : Cq → Cq) : (s.modCq cq f).still = s.still := rfl

/-- A register of the units that carry traffic. -/
theorem State.still_setReg {s : State} {a : Nat} {w : Word} (ha : 0x9C0000 ≤ a) : (s.setReg a w).still = s.still := by
  refine Prod.ext rfl (Prod.ext rfl (funext fun off => ?_))
  by_cases ho : off < 0x9C0000
  · simp [State.still, ho, State.reg_setReg, show off ≠ a by omega]
  · simp [State.still, ho]

theorem State.still_setFld {s : State} {off hi lo v : Nat} (h : 0x9C0000 ≤ off) : (s.setFld off hi lo v).still = s.still :=
  State.still_setReg h
theorem State.still_flag {s : State} {off i : Nat} (h : 0x9C0000 ≤ off) : (s.flag off i).still = s.still := State.still_setReg h
theorem State.still_count {s : State} {off : Nat} (h : 0x9C0000 ≤ off) : (s.count off).still = s.still := State.still_setReg h

/-- The LDs without their mailboxes' last answers, after a change that keeps them so. -/
theorem State.still_modLd {s : State} {n : Nat} {f : Ld → Ld}
    (h : ∀ l : Ld, { f l with mbxOp := 0, mbxRet := 0 } = { l with mbxOp := 0, mbxRet := 0 }) :
    (s.modLd n f).still = s.still := by
  refine Prod.ext rfl (Prod.ext (funext fun m => ?_) rfl)
  simp only [State.still, State.ld, State.modLd, Tbl.upd, Tbl.getD, Tbl.get?_set]
  split
  · next hm => subst hm; exact h _
  · rfl

@[simp] theorem State.still_evrPush (s : State) (r : EvRec) : (s.evrPush r).still = s.still := by
  unfold State.evrPush
  split
  · exact State.still_count (s := s) (off := Reg.evrDrop) (by decide)
  · rfl

@[simp] theorem State.still_record (s : State) (code p0 p1 p23 : Nat) : (s.record code p0 p1 p23).still = s.still :=
  State.still_evrPush _ _

theorem State.still_flagRecord {s : State} {off i code p0 p23 : Nat} (h : 0x9C0000 ≤ off) :
    (s.flagRecord off i code p0 p23).still = s.still := (State.still_record _ _ _ _ _).trans (State.still_flag h)

/-! ### Buffers and requests -/

@[simp] theorem State.still_pfcAll (s : State) (xoff : Bool) : (s.pfcAll xoff).still = s.still := by
  refine State.still_foldl (fun t n => ?_) _ _
  dsimp only
  split_ifs <;> rfl

@[simp] theorem State.still_poolNote (s : State) (i : Nat) (p : Pool) : (s.poolNote i p).still = s.still := by
  have hflags : ∀ u : State, ([1, 2, 3].foldl (fun (v : State) k => if (s.pool i).level < k ∧ k ≤ s.levelOf i p.used.length
      then v.flag (Reg.bpmEvent + 0x20 * i) (k - 1) else v) u).still = u.still := fun u =>
    State.still_foldl (fun v k => by split_ifs <;> [exact State.still_flag (by simp [Reg.bpmEvent]; omega); rfl]) _ _
  have hlow : ∀ (u : State) (n : Nat), (u.setFld (Reg.bpmLow0 + 0x20 * i) 15 0 n).still = u.still := fun u n =>
    State.still_setFld (by simp [Reg.bpmLow0]; omega)
  unfold State.poolNote
  simp only [apply_ite State.still, State.still_pfcAll, hlow, hflags, ite_self]
  rfl

@[simp] theorem State.still_freeBuf (s : State) (b : Nat × Nat) : (s.freeBuf b).still = s.still := by
  unfold State.freeBuf
  dsimp only
  split_ifs
  · simp
  · rw [State.still_flagRecord (by simp [Reg.bpmEvent]; omega)]
    exact State.still_setFld (by simp [Reg.bpmDfree]; omega)

@[simp] theorem State.still_dropReq (s : State) (id : Nat) : (s.dropReq id).still = s.still := by
  unfold State.dropReq
  split
  · rfl
  · dsimp only
    split
    · rw [State.still_freeBuf]; rfl
    · rfl

/-! ### Messages to the peer -/

@[simp] theorem State.still_sendSeg (s : State) (seq : Nat) (m : ShaumMsg) (i : Nat) : (s.sendSeg seq m i).still = s.still := rfl

@[simp] theorem State.still_sendSegs (s : State) (seq : Nat) (m : ShaumMsg) : (s.sendSegs seq m).still = s.still :=
  State.still_foldl (fun t i => State.still_sendSeg t seq m i) _ _

@[simp] theorem State.still_send (s : State) (m : ShaumMsg) : (s.send m).1.still = s.still := by
  unfold State.send
  dsimp only
  split
  · rw [State.still_sendSegs]; rfl
  · rfl

@[simp] theorem State.still_post (s : State) (m : ShaumMsg) : (s.post m).still = s.still := State.still_send s m

@[simp] theorem State.still_abortReqs (s : State) (mine : Req → Bool) : (s.abortReqs mine).still = s.still := by
  unfold State.abortReqs
  dsimp only
  refine (State.still_foldl (fun t x => ?_) _ _).trans ?_
  · split_ifs <;> simp
  · split_ifs <;> simp

/-! ### What a QP sends -/

@[simp] theorem State.still_txPkt (s : State) (n prio bytes : Nat) (o : Output) : (s.txPkt n prio bytes o).still = s.still := by
  unfold State.txPkt
  dsimp only
  split_ifs <;> rfl

@[simp] theorem State.still_sendPkt (s : State) (qpn bytes : Nat) (o : Pkt → Output) : (s.sendPkt qpn bytes o).still = s.still := by
  unfold State.sendPkt
  split
  · rfl
  · dsimp only
    split_ifs
    · rfl
    · rw [State.still_txPkt]; rfl
    · simp

@[simp] theorem State.still_qpEnter (s : State) (qpn : Nat) (st : QpState) : (s.qpEnter qpn st).still = s.still := by
  unfold State.qpEnter
  rw [State.still_abortReqs]
  rfl

@[simp] theorem State.still_ctrLimit (s : State) (qpn : Nat) : (s.ctrLimit qpn).still = s.still := by
  unfold State.ctrLimit
  split
  · split_ifs <;> simp
  · rfl

@[simp] theorem State.still_wcmSend (s : State) (qpn type tag status len : Nat) (fields : List (Nat × Nat × Nat)) :
    (s.wcmSend qpn type tag status len fields).still = s.still := by
  simp [State.wcmSend]

/-! ### The answers of the mailboxes -/

@[simp] theorem State.still_noteAlert (s : State) : s.noteAlert.still = s.still := by
  unfold State.noteAlert
  split_ifs <;> rfl

@[simp] theorem State.still_mctpSend (s : State) (dest tag type : Nat) (body : List Byte) :
    (s.mctpSend dest tag type body).still = s.still := by
  simp only [State.mctpSend, State.mctpFill, State.still_noteAlert]
  rfl

@[simp] theorem State.still_mbxNote (s : State) (k : Nat) (r : JResult) : (s.mbxNote k r).still = s.still := by
  unfold State.mbxNote
  split_ifs <;> [exact State.still_modLd fun _ => rfl; rfl]

@[simp] theorem State.still_mbxSay (s : State) (k seq tag : Nat) (r : JResult) : (s.mbxSay k seq tag r).still = s.still := by
  unfold State.mbxSay
  split_ifs <;> simp

@[simp] theorem State.still_mbxSignal (s : State) (k seq tag : Nat) (r : JResult) :
    (s.mbxSignal k seq tag r).still = s.still := by
  unfold State.mbxSignal
  split_ifs
  · simp
  · rw [State.still_noteAlert, State.still_flag (by decide)]
  · simp

@[simp] theorem State.still_mbxEnd (s : State) (k : Nat) (r : JResult) : (s.mbxEnd k r).still = s.still := by
  unfold State.mbxEnd
  dsimp only
  split
  · split_ifs
    · rfl
    · simp
    · simp
  · rfl

@[simp] theorem State.still_jwPut (s : State) (w k : Nat) : (s.jwPut w k).still = s.still := rfl
@[simp] theorem State.still_jwTake (s : State) (w : Nat) : (s.jwTake w).1.still = s.still := rfl

@[simp] theorem State.still_waitDone (s : State) (w opcode status : Nat) (body : List Nat) :
    (s.waitDone w opcode status body).still = s.still := by
  unfold State.waitDone
  dsimp only
  split
  · rfl
  · split_ifs <;> simp

@[simp] theorem State.still_extDone (s : State) (idx opcode status : Nat) (body : List Nat) :
    (s.extDone idx opcode status body).still = s.still := State.still_waitDone _ _ _ _ _

@[simp] theorem State.still_mbxReset (s : State) (k : Nat) : (s.mbxReset k).still = s.still := by
  unfold State.mbxReset
  dsimp only
  split <;> rfl

/-! ### The records of a completion ring -/

@[simp] theorem State.still_rdmaRecord (s : State) (tg : Target) (cq : Nat) (c : Cq) (seq : Nat) (r : CqRec)
    (imm : Option Nat) : (s.rdmaRecord tg cq c seq r imm).still = s.still := by
  unfold State.rdmaRecord
  split
  · rfl
  · rw [State.still_ctrLimit, State.still_sendPkt]
    rfl

@[simp] theorem State.still_putRecord (s : State) (cq : Nat) (c : Cq) (seq : Nat) (r : CqRec) :
    (s.putRecord cq c seq r).still = s.still := by
  unfold State.putRecord
  dsimp only
  split_ifs <;> simp

@[simp] theorem State.still_cqSend (s : State) (cq n : Nat) : (s.cqSend cq n).still = s.still := by
  induction n generalizing s with
  | zero => rfl
  | succ n ih =>
    unfold State.cqSend
    split
    · rfl
    · split
      · rfl
      · dsimp only
        split_ifs <;> simp [ih]

@[simp] theorem State.still_cqPump (s : State) (cq : Nat) : (s.cqPump cq).still = s.still := by
  unfold State.cqPump
  split <;> simp

@[simp] theorem State.still_cqResend (s : State) (cq : Nat) : (s.cqResend cq).still = s.still := by
  unfold State.cqResend
  split <;> simp

@[simp] theorem State.still_resendFor (s : State) (kind id : Nat) : (s.resendFor kind id).still = s.still :=
  State.still_foldl (fun t x => State.still_cqResend t x) _ _

end Sys2Proof.Machine
end

section
/-! SUPPORT. The LDs of the CXL ports: their resets (R104), the FM API (R84, R88, R90, R97), and the admission of CXL.mem
requests (R48, R49, R93). -/

namespace Sys2Proof.Machine

/-! ### One LD's record -/

theorem State.ld_modLd (s : State) (n m : Nat) (f : Ld → Ld) : (s.modLd n f).ld m = if m = n then f (s.ld n) else s.ld m := by
  simp only [State.ld, State.modLd, Tbl.upd, Tbl.getD, Tbl.get?_set]
  split <;> rfl

@[simp] theorem State.ld_modLd_same (s : State) (n : Nat) (f : Ld → Ld) : (s.modLd n f).ld n = f (s.ld n) := by
  rw [State.ld_modLd, if_pos rfl]

@[simp] theorem State.ld_emit (s : State) (o : Output) (n : Nat) : (s.emit o).ld n = s.ld n := rfl

/-- The table of LDs after a function on its values that leaves the default LD. -/
theorem Tbl.getD_mapV {α : Type} (t : Tbl α) (f : α → α) (n : Nat) (d : α) (h : f d = d) : (t.mapV f).getD n d = f (t.getD n d) := by
  simp only [Tbl.getD, Tbl.get?_mapV]
  cases t.get? n <;> simp [h]

@[simp] theorem State.lds_mbxReset (s : State) (k : Nat) : (s.mbxReset k).lds = s.lds := by
  unfold State.mbxReset
  dsimp only
  split <;> rfl

/-! ### Changes on both twins -/

/-- A change on both twins leaves, but for the message, what applying it here leaves. -/
theorem State.still_bothNow (s : State) (cs : List Change) : (s.bothNow cs).still = (s.applyChanges cs).still := by
  unfold State.bothNow State.both
  by_cases h : s.paired = true
  · simp only [h, if_true, Bool.false_eq_true, if_false]
    exact State.still_send _ _
  · rw [if_neg h]

/-! ### The reset of an LD -/

/-- What traffic and withdrawn extents leave. -/
def State.stillX (s : State) : State × (Nat → Ld) × (Nat → Word) := ({ s.still.1 with extents := [] }, s.still.2)

theorem State.stillX_of_still {s t : State} (h : t.still = s.still) : t.stillX = s.stillX := by
  simp only [State.stillX, h]

theorem State.stillX_extentDrop (s : State) (idx : Nat) : (s.extentDrop idx).stillX = s.stillX :=
  State.stillX_of_still (s := { s with extents := s.extents.erase idx }) (State.still_bothNow s _)

theorem State.stillX_withdrawPending (s : State) (ld : Nat) : (s.withdrawPending ld).stillX = s.stillX := by
  unfold State.withdrawPending
  generalize (s.extents.filter fun e => e.2.ld == ld && e.2.pending) = l
  induction l generalizing s with
  | nil => rfl
  | cons e l ih =>
    exact (ih _).trans ((State.stillX_of_still (State.still_extDone _ _ _ _ _)).trans (State.stillX_extentDrop _ _))

/-- An LD after its requests are aborted and its pending extents withdrawn, but for its mailbox's last answer. -/
theorem State.ld_aborted (s : State) (ld n : Nat) (mine : Req → Bool) :
    { ((s.abortReqs mine).withdrawPending ld).ld n with mbxOp := 0, mbxRet := 0 } = { s.ld n with mbxOp := 0, mbxRet := 0 } :=
  congrFun (congrArg (fun v => v.2.1) ((State.stillX_withdrawPending _ ld).trans
    (State.stillX_of_still (State.still_abortReqs s mine)))) n

/-- What the reset or the departure of an LD makes of its record. -/
def Ld.aborted (l : Ld) (st : LdState) : Ld :=
  { l with state := st, memEnabled := false, waits := [], vectors := [], policy := 0, rd := false, wr := false }

theorem State.ld_abortLd (s : State) (ld n : Nat) (st : LdState) :
    (s.abortLd ld st).ld n = if n = ld then (((s.abortReqs (ofLd ld)).withdrawPending ld).ld ld).aborted st
      else ((s.abortReqs (ofLd ld)).withdrawPending ld).ld n := by
  refine (congrArg (fun t : Tbl Ld => t.getD n {}) (State.lds_mbxReset _ _)).trans ?_
  exact State.ld_modLd ((s.abortReqs (ofLd ld)).withdrawPending ld) ld n (Ld.aborted · st)

theorem State.mem_abortLd (s : State) (ld : Nat) (st : LdState) : (s.abortLd ld st).mem = s.mem := by
  have hm : ((s.abortReqs (ofLd ld)).withdrawPending ld).mem = s.mem :=
    congrArg (fun v => v.1.mem) ((State.stillX_withdrawPending _ ld).trans (State.stillX_of_still (State.still_abortReqs s _)))
  exact (State.mem_of_still (State.still_mbxReset _ _)).trans hm

theorem State.resetLd_of_reached {s : State} {ld : Nat} (hu : (s.ld ld).state ≠ .unbound) (hd : (s.ld ld).state ≠ .departed) :
    s.resetLd ld = s.abortLd ld .flr := by
  unfold State.resetLd
  split <;> first | rfl | contradiction

/-! ### CXL.mem requests that are refused -/

/-- A refused access is counted once. -/
theorem State.reg_glbXltCount_refuse (s : State) (path host addr : Nat) (st : XStep) :
    ((s.refuse path host st addr).reg Reg.glbXltCount).toNat = min ((s.reg Reg.glbXltCount).toNat + 1) 0xFFFFFFFF := by
  rw [← State.reg_count_same]
  unfold State.refuse
  dsimp only
  split
  · rw [State.reg_flag_ne _ 1 (show Reg.glbXltCount ≠ Reg.glbXltStatus by decide)]
  · rw [State.setReg64, State.reg_setReg_ne _ _ (show Reg.glbXltCount ≠ Reg.glbXltAddrLo + 4 by decide),
      State.reg_setReg_ne _ _ (show Reg.glbXltCount ≠ Reg.glbXltAddrLo by decide),
      State.reg_setReg_ne _ _ (show Reg.glbXltCount ≠ Reg.glbXltStatus by decide)]

/-- A state without its registers: what a count, a flag and a fault record leave. -/
def State.noRegs (s : State) : State := { s with regs := [] }

@[simp] theorem State.noRegs_setReg (s : State) (a : Nat) (w : Word) : (s.setReg a w).noRegs = s.noRegs := rfl
@[simp] theorem State.noRegs_count (s : State) (a : Nat) : (s.count a).noRegs = s.noRegs := rfl
@[simp] theorem State.noRegs_flag (s : State) (a i : Nat) : (s.flag a i).noRegs = s.noRegs := rfl
@[simp] theorem State.noRegs_setReg64 (s : State) (a v : Nat) : (s.setReg64 a v).noRegs = s.noRegs := rfl

@[simp] theorem State.noRegs_refuse (s : State) (path host addr : Nat) (st : XStep) :
    (s.refuse path host st addr).noRegs = s.noRegs := by
  unfold State.refuse
  simp only [apply_ite State.noRegs, State.noRegs_flag, State.noRegs_setReg64, State.noRegs_setReg, State.noRegs_count, ite_self]

theorem mem_eq_of_noRegs {s t : State} (h : t.noRegs = s.noRegs) : t.mem = s.mem ∧ t.sectors = s.sectors ∧ t.reqs = s.reqs ∧
    t.out = s.out :=
  ⟨(congrArg State.mem h :), (congrArg State.sectors h :), (congrArg State.reqs h :), (congrArg State.out h :)⟩

/-- An event record reaches the recorder alone. -/
theorem State.record_leaves (s : State) (code p0 p1 p23 : Nat) :
    let t := s.record code p0 p1 p23
    t.mem = s.mem ∧ t.sectors = s.sectors ∧ t.reqs = s.reqs ∧ t.out = s.out := by
  unfold State.record State.recordF State.evrPush
  split <;> exact ⟨rfl, rfl, rfl, rfl⟩

/-- The registers of an LD lie in the CXL block. -/
theorem ldReg_ne {r ld off : Nat} (hoff : off < r) : off ≠ ldReg r ld := by
  unfold ldReg
  omega

theorem State.cxlRefuseRead_answers (s : State) (ld tag dpa : Nat) (e : XStep) :
    let t := s.cxlRefuseRead ld tag dpa e
    t.mem = s.mem ∧ t.reqs = s.reqs ∧ (∃ load, t.out = .cxlData ld tag (List.replicate 64 0) true load :: s.out) ∧
      (t.reg Reg.glbXltCount).toNat = min ((s.reg Reg.glbXltCount).toNat + 1) 0xFFFFFFFF := by
  obtain ⟨hmem, -, hreqs, hout⟩ := mem_eq_of_noRegs (State.noRegs_refuse s (ld / 16) ld (s.dpaFault ld dpa) e)
  refine ⟨hmem, hreqs, ⟨_, congrArg _ hout⟩, ?_⟩
  rw [← State.reg_glbXltCount_refuse s (ld / 16) ld (s.dpaFault ld dpa) e]
  exact congrArg BitVec.toNat (State.reg_count_ne _ (ldReg_ne (by decide)))

theorem State.cxlRefuseWrite_answers (s : State) (ld tag dpa : Nat) (e : XStep) :
    let t := s.cxlRefuseWrite ld tag dpa e
    t.mem = s.mem ∧ t.sectors = s.sectors ∧ t.reqs = s.reqs ∧ (∃ load, t.out = .cxlCmp ld tag load :: s.out) ∧
      (t.reg Reg.glbXltCount).toNat = min ((s.reg Reg.glbXltCount).toNat + 1) 0xFFFFFFFF := by
  obtain ⟨hmem, hsec, hreqs, hout⟩ := mem_eq_of_noRegs (State.noRegs_refuse s (ld / 16) ld (s.dpaFault ld dpa) e)
  set u := ((s.refuse (ld / 16) ld e (s.dpaFault ld dpa)).count (ldReg Reg.cxLdRefused ld)).count (ldReg Reg.cxLdWr ld) with hu
  obtain ⟨rmem, rsec, rreqs, rout⟩ := State.record_leaves u ((3 + ld / 16) * 2 ^ 8 + 1) ld 0 0
  refine ⟨rmem.trans hmem, rsec.trans hsec, rreqs.trans hreqs, ⟨_, congrArg _ (rout.trans hout)⟩, ?_⟩
  rw [← State.reg_glbXltCount_refuse s (ld / 16) ld (s.dpaFault ld dpa) e]
  refine congrArg BitVec.toNat ((State.record_frame u _ _ _ _).2 _ (by decide)) |>.trans ?_
  rw [hu, State.reg_count_ne _ (ldReg_ne (by decide)), State.reg_count_ne _ (ldReg_ne (by decide))]

/-- Counting a refusal because of a control block reaches only registers of the transfer queues. -/
theorem State.cbRefuse_leaves (s : State) : s.cbRefuse.noRegs = s.noRegs ∧ s.cbRefuse.reg Reg.glbXltCount = s.reg Reg.glbXltCount :=
  ⟨rfl, (State.reg_flag_ne _ 1 (show Reg.glbXltCount ≠ Reg.tqmEvent by decide)).trans
    (State.reg_count_ne _ (show Reg.glbXltCount ≠ Reg.tqmCount + 8 by decide))⟩

/-- A write that translates is taken under the credit that it uses. -/
theorem exec_cxlMemwr_of_ok {s : State} {ld : Fin 32} {tag dpa region off : Nat} {segs : List (Nat × Nat)} (data : List Byte)
    (poison : Bool) (ht : s.cxlTakes ld true = true)
    (hw : (s.useCredit ld true).cxlWhere ld dpa .write = .ok (region, off, segs)) :
    exec (.cxlMemwr ld tag dpa data poison) s = .next ((s.useCredit ld true).cxlWrite ld tag region off segs data poison) := by
  have hexec : exec (.cxlMemwr ld tag dpa data poison) s = execCxlMemwr ld tag dpa data poison s := rfl
  rw [hexec, execCxlMemwr, if_neg (by simp [ht])]
  simp only [hw]

/-- A write that does not translate is refused. -/
theorem exec_cxlMemwr_of_refused {s : State} {ld : Fin 32} {tag dpa : Nat} {e : XStep} (data : List Byte) (poison : Bool)
    (ht : s.cxlTakes ld true = true) (hw : (s.useCredit ld true).cxlWhere ld dpa .write = .error e) :
    exec (.cxlMemwr ld tag dpa data poison) s = .next ((if (s.useCredit ld true).cxlCb ld dpa then (s.useCredit ld true).cbRefuse
      else s.useCredit ld true).cxlRefuseWrite ld tag dpa e) := by
  have hexec : exec (.cxlMemwr ld tag dpa data poison) s = execCxlMemwr ld tag dpa data poison s := rfl
  rw [hexec, execCxlMemwr, if_neg (by simp [ht])]
  simp only [hw]

/-- A read that translates is submitted under the credit that it uses. -/
theorem exec_cxlMemrd_of_ok {s : State} {ld : Fin 32} {tag dpa region off : Nat} {segs : List (Nat × Nat)} (f : HlcFault)
    (ht : s.cxlTakes ld false = true) (hw : (s.useCredit ld false).cxlWhere ld dpa .read = .ok (region, off, segs)) :
    exec (.cxlMemrd ld tag dpa f) s = .next (((s.useCredit ld false).hlcFault (segs.headD (0, 0)).1 f).enter {
      src := .cxl ld tag, op := .read, host := ld, region := region, off := off, len := 64, segs := segs }).1.settle := by
  have hexec : exec (.cxlMemrd ld tag dpa f) s = execCxlMemrd ld tag dpa f s := rfl
  rw [hexec, execCxlMemrd, if_neg (by simp [ht])]
  simp only [hw, State.submit]

/-- A read that does not translate is refused. -/
theorem exec_cxlMemrd_of_refused {s : State} {ld : Fin 32} {tag dpa : Nat} {e : XStep} (f : HlcFault)
    (ht : s.cxlTakes ld false = true) (hw : (s.useCredit ld false).cxlWhere ld dpa .read = .error e) :
    exec (.cxlMemrd ld tag dpa f) s = .next ((s.useCredit ld false).cxlRefuseRead ld tag dpa e) := by
  have hexec : exec (.cxlMemrd ld tag dpa f) s = execCxlMemrd ld tag dpa f s := rfl
  rw [hexec, execCxlMemrd, if_neg (by simp [ht])]
  simp only [hw]

/-! ### LDs that become ACTIVE -/

/-- What the admission of a region makes of an LD: BOUND with memory enabled, it is ACTIVE. -/
def Ld.activated (l : Ld) : Ld :=
  match l.state with
  | .bound => if l.memEnabled then { l with state := .active } else l
  | _ => l

/-- After the admission of a region, each LD is as its state and its host's enable say. -/
theorem State.activateLds_of_admitted {s : State} (h : s.admitted = true) :
    s.activateLds.still = { s with lds := s.lds.mapV Ld.activated }.still := by
  unfold State.activateLds
  rw [if_neg (by simp [h])]
  exact State.still_foldl (fun t n => State.still_resendFor t 1 n) _ _

theorem State.activateLds_of_notAdmitted {s : State} (h : s.admitted = false) : s.activateLds = s := by
  rw [State.activateLds, if_pos h]

/-- What an LD's record says of its state once regions may have been admitted. -/
theorem State.ld_activateLds (s : State) (n : Nat) :
    { s.activateLds.ld n with mbxOp := 0, mbxRet := 0 } =
      { (if s.admitted then (s.ld n).activated else s.ld n) with mbxOp := 0, mbxRet := 0 } := by
  cases h : s.admitted
  · rw [State.activateLds_of_notAdmitted h]
    rfl
  · have hld : ({ s with lds := s.lds.mapV Ld.activated } : State).ld n = (s.ld n).activated :=
      Tbl.getD_mapV s.lds Ld.activated n {} rfl
    rw [State.ld_of_still (State.activateLds_of_admitted h) n, hld]
    rfl

theorem exec_cxlMemEnable_of_bound {s : State} {ld : Fin 32} (hb : (s.ld ld).state = .bound) :
    exec (.cxlMemEnable ld) s = .next (s.modLd ld fun l => { l with memEnabled := true }).activateLds := by
  have hexec : exec (.cxlMemEnable ld) s = execCxlMemEnable ld s := rfl
  rw [hexec, execCxlMemEnable]
  simp only [hb]

/-- A BOUND LD whose host enables memory is ACTIVE exactly if a region is admitted. -/
theorem State.activateLds_memEnable {s : State} {ld : Nat} (hb : (s.ld ld).state = .bound) :
    let t := (s.modLd ld fun l => { l with memEnabled := true }).activateLds
    (t.ld ld).memEnabled = true ∧ (t.ld ld).state = if s.admitted then .active else .bound := by
  have hld := State.ld_activateLds (s.modLd ld fun l => { l with memEnabled := true }) ld
  rw [State.ld_modLd_same, show (s.modLd ld fun l => { l with memEnabled := true }).admitted = s.admitted from rfl] at hld
  have hmem := congrArg Ld.memEnabled hld
  have hstate := congrArg Ld.state hld
  refine ⟨hmem.trans ?_, hstate.trans ?_⟩ <;> cases s.admitted <;> simp [Ld.activated, hb]

/-- An LD that is bound keeps its allocation. -/
theorem State.ld_bindLd (s : State) (n : Nat) :
    ((s.bindLd n n).ld n).alloc = (s.ld n).alloc ∧ ((s.bindLd n n).ld n).bound = some n := by
  have happly : ((s.modLd n fun l => { l with bound := some n }).applyChanges [.binding n true]).ld n =
      { s.ld n with bound := some n, state := match (s.ld n).state with | .unbound => .bound | x => x } := by
    refine (State.ld_modLd_same (s.modLd n fun l => { l with bound := some n }) n _).trans ?_
    rw [State.ld_modLd_same]
    rfl
  have hld := State.ld_of_still (State.still_bothNow (s.modLd n fun l => { l with bound := some n }) [.binding n true]) n
  rw [happly] at hld
  exact ⟨(congrArg Ld.alloc hld :), (congrArg Ld.bound hld :)⟩

/-! ### The durability mode of a write -/

theorem State.ctm_useCredit (s : State) (n m : Nat) (write : Bool) : (s.useCredit n write).ctm m = s.ctm m := rfl

section Modes

variable {s : State} {ld tag region off : Nat} {segs : List (Nat × Nat)} {data : List Byte} {poison : Bool}

/-- In mirror-before-complete mode a write's completion waits. -/
theorem State.cxlWrite_mirrored (h : s.ctm ld = false) :
    s.cxlWrite ld tag region off segs data poison = (s.enter {
      src := .cxl ld tag, op := .write, host := ld, region := region, off := off, len := 64, segs := segs
      data := sliceBytes data 0 64, poison := poison }).1.settle := by
  rw [State.cxlWrite]
  simp only [h, Bool.false_eq_true, if_false]

/-- In complete-then-mirror mode a write is staged, counted and completed at once. -/
theorem State.cxlWrite_staged (h : s.ctm ld = true) :
    s.cxlWrite ld tag region off segs data poison =
      let u := ((s.enter {
        src := .cxl ld tag, op := .write, host := ld, region := region, off := off, len := 64, segs := segs
        data := sliceBytes data 0 64, poison := poison, acked := true }).1.stageNote (ld / 16)).count (ldReg Reg.cxLdWr ld)
      (u.emit (.cxlCmp ld tag (u.devLoad (ld / 16)))).settle := by
  rw [State.cxlWrite]
  simp only [h, if_true]

end Modes

end Sys2Proof.Machine

namespace Sys2Proof.Proofs

open Sys2Proof Sys2Proof.Machine

/-- Settles O22: each command by its definition; what the abort of an LD leaves of its record is the abort's own law. -/
theorem ldResetsAndBarriers : Obligations.LdResetsAndBarriers := by
  unfold Obligations.LdResetsAndBarriers
  refine ⟨fun s ld hu hd => ?_, fun s port link hl => ?_, fun s ld hflr => ?_, fun _ _ => rfl, fun s ld w rest hw hbusy => ?_,
    fun s ld w rest hw hdone => ?_⟩
  · have hld := State.ld_abortLd s ld ld .flr
    rw [if_pos rfl] at hld
    refine ⟨?_, ?_, ?_, ?_, ?_, ?_, ?_, State.mem_abortLd s ld .flr⟩
    · exact congrArg (fun t : State => (Host.Outcome.next t.settle : Out)) (State.resetLd_of_reached hu hd)
    all_goals rw [hld]
    any_goals rfl
    show (((s.abortReqs (ofLd ld)).withdrawPending ld).ld ld).bound = (s.ld ld).bound
    have hbound := congrArg Ld.bound (State.ld_aborted s ld ld (ofLd ld))
    exact hbound
  · change execCxlHotReset port link s = _
    unfold execCxlHotReset
    split
    · contradiction
    · rfl
  · change execFlrDone ld s = _
    simp only [execFlrDone, hflr]
  · change execPersistBarrierReturn ld s = _
    simp only [execPersistBarrierReturn, hw, List.any_eq_true.mpr hbusy, if_true]
  · have hany : (w.any fun i => (s.reqs.get? i).isSome) = false := by
      simpa using hdone
    change execPersistBarrierReturn ld s = _
    simp only [execPersistBarrierReturn, hw, hany, Bool.false_eq_true, if_false]

/-- Settles O23: each command on the branch that its hypotheses choose. -/
theorem fmApiAndExtents : Obligations.FmApiAndExtents := by
  unfold Obligations.FmApiAndExtents
  refine ⟨fun s port => ⟨rfl, rfl, rfl⟩, fun s port ld a => ⟨fun hbind => ?_, fun hun => ?_⟩, fun s port ctl ld ctm cls => ?_,
    fun s ld dc dpa len region rof hok => ?_, fun s ld region rof gen idx e htag hlive => ⟨fun hno => ?_, ?_⟩,
    fun s idx e he hpend => ?_, fun s idx e he hrem hunder hforced => ?_⟩
  · obtain ⟨halloc, hbound⟩ := State.ld_bindLd (s.modLd (16 * port.val + ld.val) fun l => { l with alloc := a })
      (16 * port.val + ld.val)
    rw [State.ld_modLd_same] at halloc
    have hexec : exec (.setLdAllocations port ld true a) s = execSetLdAllocations port ld true a s := rfl
    simp only [execSetLdAllocations, hbind, Bool.true_or, Bool.true_eq_false, if_true, if_false] at hexec
    exact ⟨_, hexec, halloc, hbound, by simp [halloc]⟩
  · change execSetLdAllocations port ld false a s = _
    simp [execSetLdAllocations, hun]
  · intro n lim q u hle
    change execSetQosControl port ctl ld ctm cls s = _
    unfold execSetQosControl
    rw [if_neg (by exact Nat.not_lt.mpr hle)]
    cases cls <;> rfl
  · change execFmExtentAdd ld dc dpa len region rof s = _
    rw [execFmExtentAdd, if_pos hok]
    rfl
  · change execFmExtentRelease ld region rof gen false s = _
    simp [execFmExtentRelease, htag, State.askOk, hlive, hno, State.extentAsk]
  · change execFmExtentRelease ld region rof gen true s = _
    simp [execFmExtentRelease, htag, State.askOk, hlive, State.extentAsk, State.extentRemove]
  · change execDcResponseTimeout idx s = _
    simp [execDcResponseTimeout, he, hpend, State.extentDrop]
  · change execExtentRemovalDrained idx s = _
    simp [execExtentRemovalDrained, he, hrem, hunder, hforced, State.extentDrop]

/-- Settles O20: an access that its host may send either translates or is refused; the lemma of each branch says the rest. -/
theorem cxlMemAccesses : Obligations.CxlMemAccesses := by
  unfold Obligations.CxlMemAccesses
  refine ⟨fun s ld hb => ⟨(s.modLd ld fun l => { l with memEnabled := true }).activateLds, exec_cxlMemEnable_of_bound hb,
      State.activateLds_memEnable hb⟩,
    fun s ld tag dpa region off segs f ht hw => exec_cxlMemrd_of_ok f ht hw,
    fun s ld tag dpa e f ht hw => ⟨(s.useCredit ld false).cxlRefuseRead ld tag dpa e, exec_cxlMemrd_of_refused f ht hw,
      State.cxlRefuseRead_answers (s.useCredit ld false) ld tag dpa e⟩,
    fun s ld tag dpa region off segs data poison ht hw hctm => ?_,
    fun s ld tag dpa region off segs data poison ht hw hctm => ?_,
    fun s ld tag dpa data poison e ht hw => ⟨_, exec_cxlMemwr_of_refused data poison ht hw, ?_⟩⟩
  · rw [exec_cxlMemwr_of_ok data poison ht hw, State.cxlWrite_mirrored ((State.ctm_useCredit s ld ld true).trans hctm)]
  · rw [exec_cxlMemwr_of_ok data poison ht hw, State.cxlWrite_staged ((State.ctm_useCredit s ld ld true).trans hctm)]
  · split_ifs
    · obtain ⟨hleft, hcount⟩ := State.cbRefuse_leaves (s.useCredit ld true)
      obtain ⟨hmem, hsec, hreqs, hout⟩ := mem_eq_of_noRegs hleft
      obtain ⟨rmem, rsec, rreqs, ⟨load, rout⟩, rcount⟩ := State.cxlRefuseWrite_answers (s.useCredit ld true).cbRefuse ld tag dpa e
      exact ⟨rmem.trans hmem, rsec.trans hsec, rreqs.trans hreqs, ⟨load, rout.trans (congrArg _ hout)⟩, hcount ▸ rcount⟩
    · exact State.cxlRefuseWrite_answers (s.useCredit ld true) ld tag dpa e

end Sys2Proof.Proofs
end

section
/-! SUPPORT. The links of the CXL ports (R77–R82, R105, R113): what each event makes of its link and of the link's LDs. -/

namespace Sys2Proof.Machine

theorem State.reg_congr {s t : State} (off : Nat) (h : t.regs = s.regs) : t.reg off = s.reg off := by
  simp only [State.reg, h]

/-! ### One link's record -/

theorem State.link_modLink (s : State) (port link p l : Nat) (f : CxlLink → CxlLink) :
    (s.modLink port link f).link p l = if linkKey p l = linkKey port link then f (s.link port link) else s.link p l := by
  simp only [State.link, State.modLink, Tbl.upd, Tbl.getD, Tbl.get?_set]
  split <;> rfl

@[simp] theorem State.link_modLink_same (s : State) (port link : Nat) (f : CxlLink → CxlLink) :
    (s.modLink port link f).link port link = f (s.link port link) := by
  rw [State.link_modLink, if_pos rfl]

theorem State.link_of_still {s t : State} (h : t.still = s.still) (port link : Nat) : t.link port link = s.link port link :=
  congrArg (fun l : Tbl CxlLink => l.getD (linkKey port link) {}) (State.links_of_still h)

@[simp] theorem State.link_emit (s : State) (o : Output) (p l : Nat) : (s.emit o).link p l = s.link p l := rfl
@[simp] theorem State.link_modLd (s : State) (n p l : Nat) (f : Ld → Ld) : (s.modLd n f).link p l = s.link p l := rfl
@[simp] theorem State.link_setReg (s : State) (a p l : Nat) (w : Word) : (s.setReg a w).link p l = s.link p l := rfl

/-! ### A link that goes down -/

/-- What a link that goes down makes of one of its LDs. -/
def State.dropLd (u : State) (ld : Nat) : State :=
  (u.abortReqs (ofLd ld)).modLd ld fun l => { l with waits := [], rd := false, wr := false }

/-- The LDs of a link that goes down reach neither the links nor memory, the extents or the registers of the ports. -/
theorem State.foldl_dropLd_leaves (l : List Nat) (s : State) :
    (l.foldl State.dropLd s).still.1 = s.still.1 ∧ (l.foldl State.dropLd s).still.2.2 = s.still.2.2 := by
  induction l generalizing s with
  | nil => exact ⟨rfl, rfl⟩
  | cons x l ih =>
    obtain ⟨hrest, hregs⟩ := ih (s.dropLd x)
    have hx := State.still_abortReqs s (ofLd x)
    exact ⟨hrest.trans (congrArg Prod.fst hx :), hregs.trans (congrArg (fun v => v.2.2) hx :)⟩

/-- After it, none of the LDs' barrier reads waits. -/
theorem State.foldl_dropLd_waits (l : List Nat) (s : State) (n : Nat) (h : n ∈ l ∨ (s.ld n).waits = []) :
    ((l.foldl State.dropLd s).ld n).waits = [] := by
  induction l generalizing s with
  | nil => simpa using h
  | cons x l ih =>
    refine ih (s.dropLd x) ?_
    by_cases hn : n = x
    · subst hn
      exact .inr (congrArg Ld.waits (State.ld_modLd_same ..))
    · refine h.imp (fun hmem => (List.mem_cons.mp hmem).resolve_left hn) fun hw => ?_
      have hwaits := congrArg Ld.waits (State.ld_of_still (State.still_abortReqs s (ofLd x)) n)
      rw [State.dropLd, State.ld_modLd, if_neg hn]
      exact hwaits.trans hw

/-- A link that goes down without a fence. -/
theorem State.dropLink_of_up {s : State} {port link : Nat} (h : (s.link port link).state ≠ .down) :
    s.dropLink port link false = (s.ldsOf port link).foldl State.dropLd
      (((s.modLink port link fun l => { l with state := .down, width := 0, speed := 0, flitLo := false, gpf := none }).flag
        (Reg.cxLinkEvent + cxBase port) (8 * link)).addSat (Reg.cxDownCount + cxBase port) (16 * link + 15) (16 * link) 1) := by
  unfold State.dropLink
  split
  · contradiction
  · rfl

/-- A link that was up is down, its waits dropped and its event set; memory, the extents and the other links are as before. -/
theorem State.dropLink_leaves {s : State} {port link : Nat} (h : (s.link port link).state ≠ .down) :
    let t := s.dropLink port link false
    (t.link port link).state = .down ∧ (t.link port link).gpf = none ∧ (t.link port link).width = 0 ∧
    (∀ p l, linkKey p l ≠ linkKey port link → t.link p l = s.link p l) ∧ t.mem = s.mem ∧ t.extents = s.extents ∧
    (∀ ld ∈ s.ldsOf port link, (t.ld ld).waits = []) ∧ (port < 2 → link < 2 →
      t.bit (Reg.cxLinkEvent + cxBase port) (8 * link) = true) := by
  rw [State.dropLink_of_up h]
  set u := ((s.modLink port link fun l => { l with state := .down, width := 0, speed := 0, flitLo := false, gpf := none }).flag
    (Reg.cxLinkEvent + cxBase port) (8 * link)).addSat (Reg.cxDownCount + cxBase port) (16 * link + 15) (16 * link) 1
  obtain ⟨hrest, hregs⟩ := State.foldl_dropLd_leaves (s.ldsOf port link) u
  have hlink : ∀ p l, ((s.ldsOf port link).foldl State.dropLd u).link p l = u.link p l := fun p l =>
    (congrArg (fun v : State => v.link p l) hrest :)
  have hu : ∀ p l, u.link p l = if linkKey p l = linkKey port link then
      { s.link port link with state := .down, width := 0, speed := 0, flitLo := false, gpf := none } else s.link p l :=
    fun p l => State.link_modLink s port link p l fun x =>
      { x with state := .down, width := 0, speed := 0, flitLo := false, gpf := none }
  have hself := (hlink port link).trans ((hu port link).trans (if_pos rfl))
  refine ⟨congrArg CxlLink.state hself, congrArg CxlLink.gpf hself, congrArg CxlLink.width hself,
    fun p l hne => (hlink p l).trans ((hu p l).trans (if_neg hne)), (congrArg State.mem hrest :), (congrArg State.extents hrest :),
    fun ld hld => State.foldl_dropLd_waits _ _ _ (.inl hld), fun hport hlk => ?_⟩
  have hlow : Reg.cxLinkEvent + cxBase port < 0x9C0000 := by simp only [Reg.cxLinkEvent, cxBase]; omega
  have hreg : ((s.ldsOf port link).foldl State.dropLd u).reg (Reg.cxLinkEvent + cxBase port) =
      u.reg (Reg.cxLinkEvent + cxBase port) := by
    simpa [State.still, hlow] using congrFun hregs (Reg.cxLinkEvent + cxBase port)
  have hne : Reg.cxLinkEvent + cxBase port ≠ Reg.cxDownCount + cxBase port := by simp [Reg.cxLinkEvent, Reg.cxDownCount]
  rw [State.bit, hreg, show u.reg (Reg.cxLinkEvent + cxBase port) = _ from State.reg_setReg_ne _ _ hne]
  exact (State.bit_flag _ _ _ (show 8 * link < 32 by omega) (show 8 * link < 32 by omega)).trans (if_pos ⟨rfl, rfl⟩)

/-- Whatever it was, a link that is taken down is down; memory and the other links are as before. -/
theorem State.dropLink_down (s : State) (port link : Nat) :
    let t := s.dropLink port link false
    (t.link port link).state = .down ∧ (∀ p l, linkKey p l ≠ linkKey port link → t.link p l = s.link p l) ∧ t.mem = s.mem := by
  by_cases h : (s.link port link).state = .down
  · have hs : s.dropLink port link false = s := by
      unfold State.dropLink
      simp only [h]
    rw [hs]
    exact ⟨h, fun _ _ _ => rfl, rfl⟩
  · obtain ⟨hdown, -, -, hother, hmem, -⟩ := State.dropLink_leaves h
    exact ⟨hdown, hother, hmem⟩

/-! ### LDs that depart -/

/-- An ACTIVE LD departs; every other LD's state stays. -/
theorem State.ld_departLd (s : State) (n m : Nat) :
    ((s.departLd n).ld m).state = if m = n ∧ (s.ld m).state = .active then .departed else (s.ld m).state := by
  unfold State.departLd
  split
  · next hact =>
    have hrec : ∀ t : State, (t.record ((3 + n / 16) * 2 ^ 8 + 3) n 0 0).lds = t.lds := fun t => by
      unfold State.record State.recordF State.evrPush
      split <;> rfl
    refine (congrArg (fun l : Tbl Ld => (l.getD m {}).state) (hrec _)).trans ?_
    refine (congrArg Ld.state (State.ld_abortLd s n m .departed)).trans ?_
    by_cases hm : m = n
    · subst hm
      rw [if_pos rfl, if_pos ⟨rfl, hact⟩]
      rfl
    · rw [if_neg hm, if_neg (fun h => hm h.1)]
      exact (congrArg Ld.state (State.ld_aborted s n m (ofLd n)) :)
  · next hact =>
    rw [if_neg]
    rintro ⟨rfl, h⟩
    exact hact h

theorem State.foldl_departLd_departed (l : List Nat) (s : State) (m : Nat)
    (h : (s.ld m).state = .departed ∨ m ∈ l ∧ (s.ld m).state = .active) :
    ((l.foldl State.departLd s).ld m).state = .departed := by
  induction l generalizing s with
  | nil => simpa using h
  | cons x l ih =>
    refine ih _ ?_
    rw [State.ld_departLd]
    by_cases hm : m = x
    · subst hm
      obtain h | ⟨-, h⟩ := h <;> simp [h]
    · obtain h | ⟨hmem, h⟩ := h
      · simp [hm, h]
      · simp [hm, h, (List.mem_cons.mp hmem).resolve_left hm]

/-! ### A link that trains -/

/-- What an LD becomes when its link is up again. -/
def Ld.returned (l : Ld) : Ld := match l.state with | .departed => { l with state := .bound } | _ => l

theorem Ld.returned_state (l : Ld) : l.returned.state ≠ .departed := by
  unfold Ld.returned
  split
  · simp
  · assumption

theorem Ld.activated_state {l : Ld} (h : l.state ≠ .departed) : l.activated.state ≠ .departed := by
  unfold Ld.activated
  split
  · split_ifs
    · simp
    · exact h
  · exact h

theorem State.foldl_returned (l : List Nat) (s : State) (n : Nat) (h : n ∈ l ∨ (s.ld n).state ≠ .departed) :
    ((l.foldl (fun (u : State) ld => u.modLd ld Ld.returned) s).ld n).state ≠ .departed := by
  induction l generalizing s with
  | nil => simpa using h
  | cons x l ih =>
    refine ih _ ?_
    rw [State.ld_modLd]
    by_cases hn : n = x
    · rw [if_pos hn]
      exact .inr (Ld.returned_state _)
    · rw [if_neg hn]
      exact h.imp_left fun hmem => (List.mem_cons.mp hmem).resolve_left hn

theorem State.foldl_modLd_leaves (l : List Nat) (f : Ld → Ld) (s : State) :
    (l.foldl (fun (u : State) ld => u.modLd ld f) s).still.1 = s.still.1 ∧
      (l.foldl (fun (u : State) ld => u.modLd ld f) s).still.2.2 = s.still.2.2 := by
  induction l generalizing s with
  | nil => exact ⟨rfl, rfl⟩
  | cons x l ih => exact ih (s.modLd x f)

/-- Activation reaches neither the links nor the registers of the ports. -/
theorem State.activateLds_leaves (s : State) : s.activateLds.still.1 = s.still.1 ∧ s.activateLds.still.2.2 = s.still.2.2 := by
  cases h : s.admitted
  · rw [State.activateLds_of_notAdmitted h]
    exact ⟨rfl, rfl⟩
  · rw [State.activateLds_of_admitted h]
    exact ⟨rfl, rfl⟩

theorem State.wakeFor_links_lds (s : State) (c : WakeCause) : (s.wakeFor c).links = s.links ∧ (s.wakeFor c).lds = s.lds := by
  unfold State.wakeFor
  split <;> exact ⟨rfl, rfl⟩

/-- A link that trains at a width and speed of its port. -/
def CxlLink.up (l : CxlLink) (w cfg sp mx : Nat) (lo : Bool) : CxlLink :=
  { l with state := .l0, width := min w cfg, full := min w cfg, speed := min sp mx, flitLo := lo }

theorem State.bifurcated_congr {s t : State} {port : Nat} (h : (t.link port 1).full ≠ 0 ↔ (s.link port 1).full ≠ 0) :
    t.bifurcated port = s.bifurcated port := by
  simp only [State.bifurcated, h]

theorem State.ldsOf_congr {s t : State} {port : Nat} (link : Nat) (h : t.bifurcated port = s.bifurcated port) :
    t.ldsOf port link = s.ldsOf port link := by
  simp only [State.ldsOf, h]

/-- The state of a link that trains, before its LDs are looked at. -/
def State.atWidth (s : State) (port link w sp : Nat) (lo : Bool) : State :=
  let cfg := if s.bifurcated port then 8 else 16
  let mx := s.fld (Reg.cxPortCfg + cxBase port) 3 2 + 2
  let t := s.modLink port link fun x => x.up w cfg sp mx lo
  if w < cfg ∨ sp < mx then t.flag (Reg.cxLinkEvent + cxBase port) (8 * link + 2) else t

theorem State.link_atWidth (s : State) (port link w sp : Nat) (lo : Bool) (p l : Nat) :
    (s.atWidth port link w sp lo).link p l = if linkKey p l = linkKey port link then
      (s.link port link).up w (if s.bifurcated port then 8 else 16) sp (s.fld (Reg.cxPortCfg + cxBase port) 3 2 + 2) lo
      else s.link p l := by
  have hflag : ∀ (t : State) (off i : Nat), (t.flag off i).link p l = t.link p l := fun _ _ _ => rfl
  simp only [State.atWidth, apply_ite (fun t : State => t.link p l), hflag, ite_self]
  exact State.link_modLink s port link p l fun x =>
    x.up w (if s.bifurcated port then 8 else 16) sp (s.fld (Reg.cxPortCfg + cxBase port) 3 2 + 2) lo

/-- A link trains at one lane or more. -/
theorem one_le_of_trains {w sp : Nat} {f : Flit} (h : trains w sp f = true) : 1 ≤ w := by
  simp only [trains, Bool.and_eq_true, List.contains_iff_mem, List.mem_cons, List.not_mem_nil, or_false] at h
  omega

/-- Training leaves the port's LDs to the links that they are on. -/
theorem State.ldsOf_atWidth {s : State} {port : Nat} {link : Nat} {w : Nat} (sp : Nat) (lo : Bool) (hw : 1 ≤ w)
    (hfull : (s.link port link).full ≠ 0) : (s.atWidth port link w sp lo).ldsOf port link = s.ldsOf port link := by
  refine State.ldsOf_congr _ (State.bifurcated_congr ?_)
  rw [State.link_atWidth]
  split
  · next hk =>
    have hl : link = 1 := by simp only [linkKey] at hk; omega
    subst hl
    simp only [hfull, iff_true, CxlLink.up, ne_eq, not_false_eq_true]
    split <;> omega
  · rfl

/-- What a link's training leaves, once its LDs are looked at and the chip is woken. -/
theorem exec_cxlLinkTrained_of_trains {s : State} {port link : Fin 2} {w sp : Nat} {f : Flit} (hen : s.linkEn port = true)
    (hfull : (s.link port link).full ≠ 0) (ht : trains w sp f = true) :
    let u := s.atWidth port link w sp (f == .lo256)
    exec (.cxlLinkTrained port link w sp f) s =
      .next ((((u.ldsOf port link).foldl (fun (u : State) ld => u.modLd ld Ld.returned) u).activateLds).wakeFor .cxl) := by
  have hexec : exec (.cxlLinkTrained port link w sp f) s = execCxlLinkTrained port link w sp f s := rfl
  dsimp only
  rw [hexec, execCxlLinkTrained, if_neg (by simp [hen, hfull, ht])]
  rfl

/-- What a link that trains leaves of itself, its event bit and its LDs. -/
theorem State.atWidth_leaves {s : State} {port link : Fin 2} {w sp : Nat} (lo : Bool) (hw : 1 ≤ w)
    (hfull : (s.link port link).full ≠ 0) :
    let cfg := if s.bifurcated port then 8 else 16
    let mx := s.fld (Reg.cxPortCfg + cxBase port) 3 2 + 2
    let u := s.atWidth port link w sp lo
    let t := (((u.ldsOf port link).foldl (fun (u : State) ld => u.modLd ld Ld.returned) u).activateLds).wakeFor .cxl
    t.link port link = (s.link port link).up w cfg sp mx lo ∧
    (w < cfg ∨ sp < mx → s.isl.quiet = .awake → t.bit (Reg.cxLinkEvent + cxBase port) (8 * link + 2) = true) ∧
    ∀ ld ∈ s.ldsOf port link, (t.ld ld).state ≠ .departed := by
  intro cfg mx u
  set v := (u.ldsOf port link).foldl (fun (u : State) ld => u.modLd ld Ld.returned) u
  obtain ⟨hvrest, hvregs⟩ := State.foldl_modLd_leaves (u.ldsOf port link) Ld.returned u
  obtain ⟨harest, haregs⟩ := State.activateLds_leaves v
  obtain ⟨hlinks, hlds⟩ := State.wakeFor_links_lds v.activateLds .cxl
  refine ⟨?_, fun hlow hawake => ?_, fun ld hld => ?_⟩
  · have hl : (v.activateLds.wakeFor .cxl).link port link = v.activateLds.link port link :=
      congrArg (fun l : Tbl CxlLink => l.getD (linkKey port link) {}) hlinks
    have ha : v.activateLds.link port link = u.link port link :=
      (congrArg (fun x : State => x.link port link) (harest.trans hvrest) :)
    exact hl.trans (ha.trans ((State.link_atWidth ..).trans (if_pos rfl)))
  · have huisl : u.isl = s.isl := by
      simp only [u, State.atWidth]
      split_ifs <;> rfl
    have hisl : v.activateLds.isl = u.isl := (congrArg State.isl (harest.trans hvrest) :)
    have hport := port.isLt
    have hreg : v.activateLds.reg (Reg.cxLinkEvent + cxBase port) = u.reg (Reg.cxLinkEvent + cxBase port) := by
      have hoff : Reg.cxLinkEvent + cxBase port < 0x9C0000 := by simp only [Reg.cxLinkEvent, cxBase]; omega
      simpa [State.still, hoff] using congrFun (haregs.trans hvregs) (Reg.cxLinkEvent + cxBase port)
    rw [State.wakeFor_awake _ (by rw [hisl, huisl, hawake]), State.bit, hreg]
    have hlink := link.isLt
    have hu : u = (s.modLink port link fun x => x.up w cfg sp mx lo).flag (Reg.cxLinkEvent + cxBase port) (8 * link + 2) :=
      if_pos hlow
    rw [hu]
    exact (State.bit_flag _ _ _ (show 8 * link.val + 2 < 32 by omega) (show 8 * link.val + 2 < 32 by omega)).trans
      (if_pos ⟨rfl, rfl⟩)
  · have hv : (v.ld ld).state ≠ .departed := by
      refine State.foldl_returned _ _ _ (.inl ?_)
      rw [State.ldsOf_atWidth sp lo hw hfull]
      exact hld
    have hact := congrArg Ld.state (State.ld_activateLds v ld)
    have hstate : ((v.activateLds.wakeFor .cxl).ld ld).state = (v.activateLds.ld ld).state :=
      congrArg (fun l : Tbl Ld => (l.getD ld {}).state) hlds
    rw [hstate, hact]
    show (if v.admitted then (v.ld ld).activated else v.ld ld).state ≠ .departed
    split
    · exact Ld.activated_state hv
    · exact hv

/-! ### LINK_EN -/

/-- The configuration register of a port, and what a write of it does beside storing it. -/
theorem portCfg_facts (port : Fin 2) : plainOff (Reg.cxPortCfg + cxBase port) ∧
    (∀ d, descAt (Reg.cxPortCfg + cxBase port) = some d → d.pair = 0) ∧
    (∀ (s : State) (w : Word), s.rejects (Reg.cxPortCfg + cxBase port) w = false) ∧
    ∀ (s : State) (old new val : Word), s.writeFx (Reg.cxPortCfg + cxBase port) old new val =
      s.linkEnable port (Word.bit old 0) (Word.bit new 0) := by
  fin_cases port
  · exact ⟨⟨by decide, by decide⟩, fun d h => by cases h; rfl, fun _ _ => rfl, fun _ _ _ _ => rfl⟩
  · exact ⟨⟨by decide, by decide⟩, fun d h => by cases h; rfl, fun _ _ => rfl, fun _ _ _ _ => rfl⟩

theorem exec_cxlLinkEnable_of_serves {s : State} {port : Fin 2} {v : Word} {d : RegDesc}
    (h : s.serves .firmware (Reg.cxPortCfg + cxBase port) d) :
    let off := Reg.cxPortCfg + cxBase port
    let new := storedVal off (s.reg off) (s.merged off d v true)
    exec (.cxlLinkEnable .firmware port v) s =
      .next ((s.setReg off new).linkEnable port (Word.bit (s.reg off) 0) (Word.bit new 0)) := by
  obtain ⟨hplain, hpair, hrej, hfx⟩ := portCfg_facts port
  have hdesc : descAt (Reg.cxPortCfg + cxBase port) = some d := h.2.2.2.1
  have hexec : exec (.cxlLinkEnable .firmware port v) s =
      .next (s.writeAccess .firmware (Reg.cxPortCfg + cxBase port) 4 v.toNat) := rfl
  dsimp only
  rw [hexec, State.writeAccess_of_serves _ h (.inl rfl), w32_toNat, State.writeReg_plain _ _ _ _ (hpair d hdesc) hplain]
  simp only [State.putReg, hrej, Bool.false_eq_true, if_false, hfx]
  rfl

/-- LINK_EN going to 1 on a twin that is not fenced: the links train. -/
theorem State.linkEnable_rising {s : State} {port : Nat} (hf : s.twn.fenceIn = false) (hh : s.twn.hostsHeld = false) :
    let t := s.linkEnable port false true
    t.regs = s.regs ∧ t.mem = s.mem ∧ (t.link port 0).state = .training ∧
      (t.link port 0).full = (if s.portBit port 1 then 8 else 16) ∧
      (t.link port 1).state = if s.portBit port 1 then .training else .down := by
  have hcond : (true && !false && !s.twn.fenceIn && !s.twn.hostsHeld) = true := by simp [hf, hh]
  have hb : s.restoreBindings.portBit port 1 = s.portBit port 1 := rfl
  have hk0 : linkKey port 0 ≠ linkKey port 1 := by simp [linkKey]
  have hk1 : linkKey port 1 ≠ linkKey port 0 := by simp [linkKey]
  dsimp only
  rw [State.linkEnable, if_pos hcond]
  dsimp only
  rw [hb]
  cases s.portBit port 1
  · refine ⟨rfl, rfl, ?_, ?_, ?_⟩ <;>
      simp [State.trainLink, State.link_modLink, hk0, hk1]
  · refine ⟨rfl, rfl, ?_, ?_, ?_⟩ <;>
      simp [State.trainLink, State.link_modLink, hk0, hk1]

/-- LINK_EN going to 0: both links are down. -/
theorem State.linkEnable_falling (s : State) (port : Nat) :
    let t := s.linkEnable port true false
    (t.link port 0).state = .down ∧ (t.link port 1).state = .down ∧ t.mem = s.mem := by
  have heq : s.linkEnable port true false = (s.dropLink port 0 false).dropLink port 1 false := rfl
  obtain ⟨hdown0, -, hmem0⟩ := State.dropLink_down s port 0
  obtain ⟨hdown1, hother, hmem1⟩ := State.dropLink_down (s.dropLink port 0 false) port 1
  dsimp only
  rw [heq]
  exact ⟨(congrArg CxlLink.state (hother port 0 (by simp [linkKey]))).trans hdown0, hdown1, hmem1.trans hmem0⟩

theorem State.linkEnable_same (s : State) (port : Nat) (b : Bool) : s.linkEnable port b b = s := by
  cases b <;> rfl

end Sys2Proof.Machine

namespace Sys2Proof.Proofs

open Sys2Proof Sys2Proof.Machine

/-- Settles O18: each event on the branch that its hypotheses choose, with what the branch leaves from the lemma about it. -/
theorem cxlLinksFollowTheirEvents : Obligations.CxlLinksFollowTheirEvents := by
  unfold Obligations.CxlLinksFollowTheirEvents
  refine ⟨?_, fun s port link w sp f hen hfull ht => ⟨_, exec_cxlLinkTrained_of_trains hen hfull ht, ?_⟩,
    fun s port link hup => ⟨s.dropLink port link false, rfl, ?_⟩, fun s port link hd ht => ?_,
    fun s port link hdown => ⟨(s.ldsOf port link).foldl State.departLd s, ?_, fun ld hld hact => ?_⟩, fun s ld hdep => ?_,
    fun s port link hdown hen hfull => ?_⟩
  · intro s port v d hserves off new
    have hexec := exec_cxlLinkEnable_of_serves (v := v) hserves
    refine ⟨fun hsame => ?_, fun h0 h1 hf hh => ⟨_, hexec, ?_⟩, fun h1 h0 => ⟨_, hexec, ?_⟩⟩
    · rw [hexec]
      exact congrArg Host.Outcome.next ((congrArg (State.linkEnable _ _ · _) hsame).trans (State.linkEnable_same _ _ _))
    · rw [h0, show Word.bit (storedVal off (s.reg off) (s.merged off d v true)) 0 = true from h1]
      obtain ⟨hregs, hmem, hstate, hfull, hother⟩ := State.linkEnable_rising (s := s.setReg off new) (port := port) hf hh
      have hnew : (s.setReg off new).reg off = new := State.reg_setReg_same ..
      have hbif : (s.setReg off new).portBit port 1 = Word.bit new 1 := congrArg (Word.bit · 1) hnew
      rw [hbif] at hfull hother
      exact ⟨(State.reg_congr off hregs).trans hnew, hstate, hfull, hother, hmem⟩
    · rw [h1, show Word.bit (storedVal off (s.reg off) (s.merged off d v true)) 0 = false from h0]
      exact State.linkEnable_falling (s.setReg off new) port
  · obtain ⟨hlink, hbit, hlds⟩ := State.atWidth_leaves (sp := sp) (f == .lo256) (one_le_of_trains ht) hfull
    exact ⟨congrArg CxlLink.state hlink, congrArg CxlLink.width hlink, congrArg CxlLink.speed hlink, hbit, hlds⟩
  · obtain ⟨hdown, hgpf, hwidth, -, hmem, hext, hwaits, hbit⟩ := State.dropLink_leaves hup
    exact ⟨hdown, hgpf, hwidth, hbit port.isLt link.isLt, hmem, hext, hwaits⟩
  · change execCxlLinkRecovery port link s = _
    unfold execCxlLinkRecovery
    split <;> first | contradiction | rfl
  · change execCxlLinkDownHoldExpiry port link s = _
    obtain h | h := hdown <;> simp only [execCxlLinkDownHoldExpiry, h]
  · exact State.foldl_departLd_departed _ _ _ (.inr ⟨hld, hact⟩)
  · change execDepartureHoldExpiry ld s = _
    simp only [execDepartureHoldExpiry, hdep]
  · change execCxlHostConnected port link s = _
    simp only [execCxlHostConnected, hdown, hen, hfull, ne_eq, not_false_eq_true, and_self, if_true]
    rfl

end Sys2Proof.Proofs
end

section
/-! SUPPORT. The Ethernet ports (R128, R133, R180, R181): pauses, what waits under them, and XOFF and XON on every port. -/

namespace Sys2Proof.Machine

theorem State.port_modPort (s : State) (n m : Nat) (f : NetPort → NetPort) :
    (s.modPort n f).port m = if m = n then f (s.port n) else s.port m := by
  simp only [State.port, State.modPort, Tbl.upd, Tbl.getD, Tbl.get?_set]
  split <;> rfl

@[simp] theorem State.port_emit (s : State) (o : Output) (n : Nat) : (s.emit o).port n = s.port n := rfl

/-- A fold reaches what one of its steps does, where the other steps neither undo it nor what it rests on. -/
theorem foldl_establishes {α β : Type} {f : α → β → α} {P Q : α → Prop} {x : β} (hP : ∀ t y, P t → P (f t y))
    (hQ : ∀ t y, y ≠ x → Q t → Q (f t y)) (hx : ∀ t, Q t → P (f t x)) {l : List β} (hmem : x ∈ l) {s : α} (h : Q s) :
    P (l.foldl f s) := by
  have hkeep : ∀ (l : List β) t, P t → P (l.foldl f t) := fun l => by
    induction l with
    | nil => exact fun _ h => h
    | cons y l ih => exact fun t h => ih _ (hP t y h)
  induction l generalizing s with
  | nil => cases hmem
  | cons y l ih =>
    by_cases hy : y = x
    · subst hy
      exact hkeep l _ (hx s h)
    · exact ih ((List.mem_cons.mp hmem).resolve_left (Ne.symm hy)) (hQ s y hy h)

/-! ### What waits on a port -/

/-- All but the outputs and what waits on one port. -/
def State.unsent (s : State) (n : Nat) : State × (Nat → NetPort) :=
  ({ s with out := [], ports := [] }, fun m => if m = n then { s.port m with txq := [], served := [] } else s.port m)

theorem State.unsent_emit (s : State) (n : Nat) (o : Output) : (s.emit o).unsent n = s.unsent n := rfl

theorem State.unsent_modPort {s : State} {n : Nat} {f : NetPort → NetPort}
    (h : ∀ p : NetPort, { f p with txq := [], served := [] } = { p with txq := [], served := [] }) :
    (s.modPort n f).unsent n = s.unsent n := by
  refine Prod.ext rfl (funext fun m => ?_)
  simp only [State.unsent, State.port_modPort]
  split
  · next hm => subst hm; exact h _
  · rfl

/-- Packets that may go on a port leave everything but what waits on it. -/
theorem State.unsent_drainPort (s : State) (n fuel : Nat) : (s.drainPort n fuel).unsent n = s.unsent n := by
  induction fuel generalizing s with
  | zero => rfl
  | succ fuel ih =>
    unfold State.drainPort
    split
    · split_ifs
      · exact State.unsent_modPort fun _ => rfl
      · rfl
    · split
      · rfl
      · rw [ih, State.unsent_emit]
        exact State.unsent_modPort fun _ => rfl

/-- What a PFC frame makes of the pauses of a port, bit by bit. -/
theorem testBit_paused (old named xoff enabled : Nat) {i : Nat} (hi : i < 8) :
    ((old &&& (255 ^^^ (named &&& enabled))) ||| (xoff &&& (named &&& enabled))).testBit i =
      if named.testBit i && enabled.testBit i then xoff.testBit i else old.testBit i := by
  have h255 : (255 : Nat) = 2 ^ 8 - 1 := rfl
  simp only [Nat.testBit_or, Nat.testBit_and, Nat.testBit_xor, h255, Nat.testBit_two_pow_sub_one, hi, decide_true]
  cases named.testBit i <;> cases enabled.testBit i <;> simp

theorem State.testBit_fld_low (s : State) (off : Nat) {i : Nat} (hi : i < 8) : (s.fld off 7 0).testBit i = s.bit off i := by
  simp only [State.fld, Word.fld, bitsOf, State.bit, Word.bit, Nat.shiftRight_zero, Nat.testBit_mod_two_pow, hi, decide_true,
    Bool.true_and, Nat.reduceAdd, Nat.sub_zero]

/-- What a PFC frame leaves: the pauses that it names and PFC_EN has, and the other ports. -/
theorem State.pauses_leave (s : State) (port : Fin 8) (prios xoff : BitVec 8) :
    let m := prios.toNat &&& s.fld Reg.netDcb 7 0
    let t := (s.modPort port fun p => { p with rxPaused := (p.rxPaused &&& (255 ^^^ m)) ||| (xoff.toNat &&& m) }).drainTx port
    t.regs = s.regs ∧ t.mem = s.mem ∧ t.rdx = s.rdx ∧
      (∀ i : Fin 8, (t.port port).rxPaused.testBit i =
        if prios.getLsbD i && s.bit Reg.netDcb i then xoff.getLsbD i else (s.port port).rxPaused.testBit i) ∧
      ∀ n, n ≠ port.val → t.port n = s.port n := by
  intro m t
  set u := s.modPort port fun p => { p with rxPaused := (p.rxPaused &&& (255 ^^^ m)) ||| (xoff.toNat &&& m) } with hu
  have hdrain : t.unsent port = u.unsent port := State.unsent_drainPort u port (u.txWaiting port + 1)
  refine ⟨(congrArg (fun v => v.1.regs) hdrain :), (congrArg (fun v => v.1.mem) hdrain :), (congrArg (fun v => v.1.rdx) hdrain :),
    fun i => ?_, fun n hn => ?_⟩
  · have hp : (t.port port).rxPaused = (u.port port).rxPaused := by
      have hp := congrFun (congrArg Prod.snd hdrain) port
      simp only [State.unsent, if_true] at hp
      exact (congrArg NetPort.rxPaused hp :)
    rw [hp, hu, State.port_modPort, if_pos rfl]
    refine (testBit_paused _ _ _ _ i.isLt).trans ?_
    rw [State.testBit_fld_low _ _ i.isLt, BitVec.testBit_toNat, BitVec.testBit_toNat]
  · have hp := congrFun (congrArg Prod.snd hdrain) n
    simp only [State.unsent, if_neg hn] at hp
    exact hp.trans ((State.port_modPort s port n _).trans (if_neg hn))

/-! ### XOFF and XON -/

/-- All but the outputs and the pauses that the ports have sent. -/
def State.unpaused (s : State) : State × (Nat → NetPort) :=
  ({ s with out := [], ports := [] }, fun n => { s.port n with txPaused := 0 })

theorem State.of_unpaused {s t : State} (h : t.unpaused = s.unpaused) : t.regs = s.regs ∧ t.mem = s.mem :=
  ⟨(congrArg (fun v => v.1.regs) h :), (congrArg (fun v => v.1.mem) h :)⟩

theorem State.headroom_of_unpaused {s t : State} (h : t.unpaused = s.unpaused) (n : Nat) :
    (t.port n).headroom = (s.port n).headroom :=
  (congrArg NetPort.headroom (congrFun (congrArg Prod.snd h) n) :)

/-- What `pfcAll` does on one port. -/
def State.pfcOne (prios : Nat) (xoff : Bool) (t : State) (n : Nat) : State :=
  let p := t.ports.getD n {}
  let set := fun (v : Nat) => { t with ports := t.ports.upd n {} fun x => { x with txPaused := v } }
  if p.up = false then t
  else if xoff then (if prios = 0 then t else (set prios).emit (.pfc n prios true))
  else if p.txPaused = 0 then t
  else (set 0).emit (.pfc n p.txPaused false)

theorem State.pfcAll_eq (s : State) (xoff : Bool) :
    s.pfcAll xoff = (List.range 8).foldl (State.pfcOne (s.fld Reg.netDcb 7 0) xoff) s := rfl

theorem State.pfcOne_xoff {t : State} {n prios : Nat} (hup : (t.port n).up = true) (hp : prios ≠ 0) :
    State.pfcOne prios true t n = (t.modPort n fun x => { x with txPaused := prios }).emit (.pfc n prios true) := by
  have hup' : (t.ports.getD n {}).up = true := hup
  simp only [State.pfcOne, hup', Bool.true_eq_false, if_false, if_true, if_neg hp]
  rfl

theorem State.pfcOne_xon {t : State} {n prios : Nat} (hup : (t.port n).up = true) (hp : (t.port n).txPaused ≠ 0) :
    State.pfcOne prios false t n =
      (t.modPort n fun x => { x with txPaused := 0 }).emit (.pfc n (t.port n).txPaused false) := by
  have hup' : (t.ports.getD n {}).up = true := hup
  have hp' : (t.ports.getD n {}).txPaused ≠ 0 := hp
  simp only [State.pfcOne, hup', Bool.true_eq_false, Bool.false_eq_true, if_false, if_neg hp']
  rfl

theorem State.unpaused_pfcOne (prios : Nat) (xoff : Bool) (t : State) (n : Nat) :
    (State.pfcOne prios xoff t n).unpaused = t.unpaused := by
  have hset : ∀ (v : Nat) (o : Output), ((t.modPort n fun x => { x with txPaused := v }).emit o).unpaused = t.unpaused := fun v o => by
    refine Prod.ext rfl (funext fun m => ?_)
    simp only [State.unpaused, State.port_emit, State.port_modPort]
    split
    · next hm => subst hm; rfl
    · rfl
  unfold State.pfcOne
  dsimp only
  split_ifs
  · rfl
  · rfl
  · exact hset _ _
  · rfl
  · exact hset _ _

theorem State.unpaused_pfcAll (s : State) (xoff : Bool) : (s.pfcAll xoff).unpaused = s.unpaused := by
  rw [State.pfcAll_eq]
  generalize List.range 8 = l
  generalize s.fld Reg.netDcb 7 0 = prios
  induction l generalizing s with
  | nil => rfl
  | cons n l ih => exact (ih _).trans (State.unpaused_pfcOne prios xoff s n)

/-- One port's XOFF or XON leaves the others, and every output stays. -/
theorem State.pfcOne_other (prios : Nat) (xoff : Bool) (t : State) {n m : Nat} (h : n ≠ m) :
    (State.pfcOne prios xoff t n).port m = t.port m := by
  have hset : ∀ (v : Nat) (o : Output), ((t.modPort n fun x => { x with txPaused := v }).emit o).port m = t.port m := fun v o => by
    rw [State.port_emit, State.port_modPort, if_neg (Ne.symm h)]
  unfold State.pfcOne
  dsimp only
  split_ifs
  · rfl
  · rfl
  · exact hset _ _
  · rfl
  · exact hset _ _

theorem State.mem_out_pfcOne {prios : Nat} {xoff : Bool} {t : State} {n : Nat} {o : Output} (h : o ∈ t.out) :
    o ∈ (State.pfcOne prios xoff t n).out := by
  unfold State.pfcOne
  dsimp only
  split_ifs <;> first | exact h | exact List.mem_cons_of_mem _ h

/-- XOFF on every port that is up, on the priorities of PFC_EN. -/
theorem State.pfcAll_xoff {s : State} {n : Nat} (hn : n < 8) (hup : (s.port n).up = true) (hp : s.fld Reg.netDcb 7 0 ≠ 0) :
    ((s.pfcAll true).port n).txPaused = s.fld Reg.netDcb 7 0 ∧ .pfc n (s.fld Reg.netDcb 7 0) true ∈ (s.pfcAll true).out := by
  rw [State.pfcAll_eq]
  generalize s.fld Reg.netDcb 7 0 = prios at hp ⊢
  have hdone : ∀ t : State, (t.port n).up = true → ((State.pfcOne prios true t n).port n).txPaused = prios ∧
      ((State.pfcOne prios true t n).port n).up = true ∧ .pfc n prios true ∈ (State.pfcOne prios true t n).out := fun t ht => by
    rw [State.pfcOne_xoff ht hp, State.port_emit, State.port_modPort, if_pos rfl]
    exact ⟨rfl, ht, List.mem_cons_self⟩
  have hfold := foldl_establishes (f := State.pfcOne prios true) (Q := fun t => (t.port n).up = true)
    (P := fun t => (t.port n).txPaused = prios ∧ (t.port n).up = true ∧ .pfc n prios true ∈ t.out) (x := n)
    (fun t m ⟨hpaused, hup, hout⟩ => by
      by_cases hm : m = n
      · exact hm ▸ hdone t hup
      · rw [State.pfcOne_other _ _ _ hm]
        exact ⟨hpaused, hup, State.mem_out_pfcOne hout⟩)
    (fun t m hm hup => by rw [State.pfcOne_other _ _ _ hm]; exact hup) hdone (List.mem_range.mpr hn) hup
  exact ⟨hfold.1, hfold.2.2⟩

theorem State.pfcOne_of_sentNone {t : State} {n : Nat} (prios : Nat) (h : (t.port n).txPaused = 0) :
    State.pfcOne prios false t n = t := by
  have h' : (t.ports.getD n {}).txPaused = 0 := h
  simp only [State.pfcOne, h', Bool.false_eq_true, if_false, if_true, ite_self]

/-- XON on every port that is up and has sent XOFF. -/
theorem State.pfcAll_xon {s : State} {n : Nat} (hn : n < 8) (hup : (s.port n).up = true) (hp : (s.port n).txPaused ≠ 0) :
    ((s.pfcAll false).port n).txPaused = 0 ∧ .pfc n (s.port n).txPaused false ∈ (s.pfcAll false).out := by
  rw [State.pfcAll_eq]
  generalize s.fld Reg.netDcb 7 0 = prios
  have hdone : ∀ t : State, t.port n = s.port n → ((State.pfcOne prios false t n).port n).txPaused = 0 ∧
      .pfc n (s.port n).txPaused false ∈ (State.pfcOne prios false t n).out := fun t ht => by
    have hup' : (t.port n).up = true := ht ▸ hup
    have hp' : (t.port n).txPaused ≠ 0 := ht ▸ hp
    rw [State.pfcOne_xon hup' hp', State.port_emit, State.port_modPort, if_pos rfl, ht]
    exact ⟨rfl, List.mem_cons_self⟩
  have hkeep : ∀ (t : State) (m : Nat), (t.port n).txPaused = 0 ∧ .pfc n (s.port n).txPaused false ∈ t.out →
      ((State.pfcOne prios false t m).port n).txPaused = 0 ∧
        .pfc n (s.port n).txPaused false ∈ (State.pfcOne prios false t m).out := fun t m ⟨hpaused, hout⟩ => by
    by_cases hm : m = n
    · rw [hm, State.pfcOne_of_sentNone prios hpaused]
      exact ⟨hpaused, hout⟩
    · rw [State.pfcOne_other _ _ _ hm]
      exact ⟨hpaused, State.mem_out_pfcOne hout⟩
  have hother : ∀ (t : State) (m : Nat), m ≠ n → t.port n = s.port n → (State.pfcOne prios false t m).port n = s.port n :=
    fun t m hm ht => (State.pfcOne_other _ _ _ hm).trans ht
  exact foldl_establishes (f := State.pfcOne prios false)
    (P := fun t => (t.port n).txPaused = 0 ∧ .pfc n (s.port n).txPaused false ∈ t.out) (Q := fun t => t.port n = s.port n)
    hkeep hother hdone (List.mem_range.mpr hn) rfl

/-- With nothing in the headrooms, none is served. -/
theorem State.foldl_headGo {s : State} (h : ∀ n, (s.port n).headroom = []) (l : List Nat) : l.foldl State.headGo s = s := by
  induction l with
  | nil => rfl
  | cons n l ih => rw [List.foldl_cons, State.headGo_of_empty (h n), ih]

theorem exec_pfcXoffRepeat_of_noHeadroom {s : State} (h : ∀ n, (s.port n).headroom = []) :
    exec .pfcXoffRepeat s = .next (s.pfcAll (decide (3 ≤ s.poolLevel))) := by
  have hhead : ∀ n, ((s.pfcAll (decide (3 ≤ s.poolLevel))).port n).headroom = [] := fun n =>
    (State.headroom_of_unpaused (State.unpaused_pfcAll s _) n).trans (h n)
  have hexec : exec .pfcXoffRepeat s =
      .next ((List.range 8).foldl State.headGo (s.pfcAll (decide (3 ≤ s.poolLevel)))) := rfl
  rw [hexec, State.foldl_headGo hhead]

end Sys2Proof.Machine

namespace Sys2Proof.Proofs

open Sys2Proof Sys2Proof.Machine

/-- Settles O26: the events of one port by their definitions; XOFF and XON by the fold over the ports. -/
theorem ethernetPortEvents : Obligations.EthernetPortEvents := by
  unfold Obligations.EthernetPortEvents
  intro s port
  refine ⟨fun hen hawake => ?_, fun hen hasleep => ?_, fun hen => ?_, fun hup => ?_, rfl,
    fun prios xoff hup => ?_, fun hhead hup => ⟨fun hlevel hp => ?_, fun hlevel hp => ?_⟩, fun prio hp hen => ?_,
    fun hen hlldp => ?_, fun partner => rfl⟩
  · change execNetLinkUp port s = _
    simp [execNetLinkUp, hen, State.awake, hawake]
  · change execNetLinkUp port s = _
    have hno : s.awake = false := by
      unfold State.awake
      split
      · contradiction
      · rfl
    simp [execNetLinkUp, hen, hno]
  · change execNetLinkUp port s = _
    simp [execNetLinkUp, hen]
  · change execNetLinkDown port s = _
    simp [execNetLinkDown, State.netDown, hup]
  · have hexec : exec (.pfcFrameReceived port prios xoff) s = execPfcFrameReceived port prios xoff s := rfl
    simp only [execPfcFrameReceived, hup, if_true] at hexec
    exact ⟨_, hexec, State.pauses_leave s port prios xoff⟩
  · have hexec := exec_pfcXoffRepeat_of_noHeadroom hhead
    rw [decide_eq_true hlevel] at hexec
    obtain ⟨hpaused, hout⟩ := State.pfcAll_xoff port.isLt hup hp
    have hrest := State.unpaused_pfcAll s true
    exact ⟨_, hexec, hpaused, hout, State.of_unpaused hrest⟩
  · have hexec := exec_pfcXoffRepeat_of_noHeadroom hhead
    rw [decide_eq_false (Nat.not_le.mpr hlevel)] at hexec
    obtain ⟨hpaused, hout⟩ := State.pfcAll_xon port.isLt hup hp
    have hrest := State.unpaused_pfcAll s false
    exact ⟨_, hexec, hpaused, hout, State.of_unpaused hrest⟩
  · change execPauseStorm port prio s = _
    simp [execPauseStorm, State.paused, hp, hen]
  · change execLldpTransmit port s = _
    simp [execLldpTransmit, State.lldpSend, hen, hlldp]

end Sys2Proof.Proofs
end

section
/-! SUPPORT. Command registers, the two-half areas of the configuration flash, and the DRAM channels (R316–R346): training,
self-refresh, the chive list and scrub passes. -/

namespace Sys2Proof.Machine

/-! ### Bits and fields of a word -/

/-- Replacing a field leaves the bits outside it. -/
theorem Word.bit_withFld_out (w : Word) {hi lo v j : Nat} (hj : j < 32) (h : j < lo ∨ hi < j) :
    Word.bit (Word.withFld w hi lo v) j = Word.bit w j := by
  have h32 : (0xFFFFFFFF : Nat) = 2 ^ 32 - 1 := rfl
  have hout : (decide (lo ≤ j) && decide (j - lo < hi + 1 - lo)) = false := by
    simp only [Bool.and_eq_false_iff, decide_eq_false_iff_not]
    omega
  simp only [Word.bit, Word.withFld, maskOf, BitVec.toNat_ofNat, Nat.testBit_mod_two_pow, Nat.testBit_or, Nat.testBit_and,
    Nat.testBit_xor, h32, Nat.testBit_two_pow_sub_one, Nat.testBit_shiftLeft, hj, decide_true, Bool.true_and, ge_iff_le]
  rw [← Bool.and_assoc, hout]
  simp

/-- The low bits of a word, from its bits. -/
theorem Word.fld_low {w : Word} {n k : Nat} (hn : n < 2 ^ (k + 1)) (h : ∀ i, i < k + 1 → Word.bit w i = n.testBit i) :
    Word.fld w k 0 = n := by
  refine Nat.eq_of_testBit_eq fun i => ?_
  simp only [Word.fld, bitsOf, Nat.shiftRight_zero, Nat.sub_zero, Nat.testBit_mod_two_pow]
  by_cases hi : i < k + 1
  · rw [decide_eq_true hi, Bool.true_and]
    exact h i hi
  · rw [Nat.testBit_lt_two_pow (lt_of_lt_of_le hn (Nat.pow_le_pow_right (by decide) (by omega)))]
    simp [hi]

/-- A register none of whose bits is stored keeps its content. -/
theorem State.merged_of_unstored (s : State) (off : Nat) {d : RegDesc} (v : Word) (fw : Bool)
    (h : d.rw = 0 ∧ d.rwl = 0 ∧ d.w1s = 0 ∧ d.w1c = 0) : s.merged off d v fw = s.reg off := by
  obtain ⟨h1, h2, h3, h4⟩ := h
  refine BitVec.eq_of_getLsbD_eq fun i hi => ?_
  have hbit := State.bit_merged s off d v fw hi
  simp only [h1, h2, h3, h4, Nat.zero_testBit, Bool.false_and, Bool.and_false, Bool.or_false,
    Bool.false_eq_true, if_false, Bool.not_false, Bool.and_true] at hbit
  exact hbit

/-- Firmware's write of a command register: nothing is stored, and its action is done. -/
theorem State.writeAccess_command {s : State} {off : Nat} {d : RegDesc} (v : Nat) (h : s.serves .firmware off d)
    (hpair : d.pair = 0) (hplain : plainOff off) (hun : d.rw = 0 ∧ d.rwl = 0 ∧ d.w1s = 0 ∧ d.w1c = 0)
    (hsame : storedVal off (s.reg off) (s.reg off) = s.reg off) (hrej : s.rejects off (s.reg off) = false)
    (hreset : s.regs.get? off = none) :
    s.writeAccess .firmware off 4 v = s.writeFx off (s.reg off) (s.reg off) (w32 v) := by
  rw [State.writeAccess_of_serves v h (.inl rfl), State.writeReg_plain _ _ _ _ hpair hplain, State.merged_of_unstored _ _ _ _ hun]
  simp only [State.putReg, hsame, hrej, Bool.false_eq_true, if_false, State.setReg_same hreset]

/-- A state without its registers and paths: what a write of a _HI half leaves before it takes effect. -/
def State.noBank (s : State) : State := { s with regs := [], paths := [] }

/-- The write of a _HI half puts it on a state whose bank and held halves alone differ. -/
theorem State.writeReg_hi_leaves (s : State) (k : Nat) {off : Nat} {d : RegDesc} (v : Word) (fw : Bool) (hpair : d.pair = 2)
    (hrw : (d.rw ||| d.rwl) ≠ 0) (htile : off ≠ Reg.plcTileSelHi) :
    ∃ (u : State) (w : Word), s.writeReg k off d v fw = u.putReg off w v ∧ u.noBank = s.noBank := by
  have h1 : ¬(d.pair = 1 ∧ (d.rw ||| d.rwl) ≠ 0) := by omega
  simp only [State.writeReg, if_neg h1, if_pos (And.intro hpair hrw), State.writeHi, if_neg htile]
  split
  · exact ⟨_, _, rfl, rfl⟩
  · exact ⟨_, _, rfl, rfl⟩

/-! ### The areas of the configuration flash -/

/-- A state without the configuration flash and the event recorder: what an area's entry leaves. -/
def State.noEfl (s : State) : State := { s with efl := {}, evr := {} }

theorem State.noEfl_foldl {α : Type} {f : State → α → State} (hf : ∀ t x, (f t x).noEfl = t.noEfl) (l : List α) (s : State) :
    (l.foldl f s).noEfl = s.noEfl := by
  induction l generalizing s with
  | nil => rfl
  | cons x l ih => exact (ih _).trans (hf s x)

@[simp] theorem State.noEfl_eflPut (s : State) (addr data : Nat) : (s.eflPut addr data).noEfl = s.noEfl := rfl
@[simp] theorem State.noEfl_modBlock (s : State) (b : Nat) (f : EflBlock → EflBlock) : (s.modBlock b f).noEfl = s.noEfl := rfl
@[simp] theorem State.noEfl_eraseStart (s : State) (b by' : Nat) : (s.eraseStart b by').noEfl = s.noEfl := rfl
@[simp] theorem State.noEfl_pendPut (s : State) (a : Nat) (p : Option Nat) (l : List (Nat × Nat)) :
    (s.pendPut a p l).noEfl = s.noEfl := rfl

@[simp] theorem State.noEfl_eflPuts (s : State) (addr : Nat) (l : List (Nat × Nat)) : (s.eflPuts addr l).noEfl = s.noEfl :=
  State.noEfl_foldl (f := fun (t : State) (e : Nat × Nat) => t.eflPut (addr + e.1) e.2) (fun _ _ => rfl) _ _

@[simp] theorem State.noEfl_autoSuspend (s : State) : s.autoSuspend.noEfl = s.noEfl := by
  unfold State.autoSuspend State.eraseState
  split_ifs
  · split <;> rfl
  · rfl

@[simp] theorem State.noEfl_eflKick (s : State) : s.eflKick.noEfl = s.noEfl := by
  unfold State.eflKick
  split_ifs
  · rfl
  · split <;> rfl

@[simp] theorem State.noEfl_eraseAsk (s : State) (by' : Nat) (bs : List Nat) : (s.eraseAsk by' bs).noEfl = s.noEfl :=
  (State.noEfl_eflKick _).trans rfl

@[simp] theorem State.noEfl_areaMove (s : State) (a : Nat) (into : Bool) (gen : Nat) :
    (s.areaMove a into gen).noEfl = s.noEfl := by
  simp only [State.areaMove, State.noEfl_eraseAsk, State.noEfl_eflPut]
  rw [State.noEfl_foldl fun t e => State.noEfl_eflPuts _ _ _]
  simp

@[simp] theorem State.noEfl_areaShift (s : State) (a : Nat) : (s.areaShift a).1.noEfl = s.noEfl := by
  unfold State.areaShift
  split
  split_ifs <;> simp

@[simp] theorem State.noEfl_areaPut (s : State) (a : Nat) (l : List (Nat × Nat)) : (s.areaPut a l).noEfl = s.noEfl := by
  unfold State.areaPut
  split_ifs
  · rfl
  · split
    · simp
    · dsimp only
      split_ifs <;> simp

/-- A change of the health record reaches the record, and the configuration flash that keeps it. -/
theorem State.noEfl_modHealth (s : State) (f : Health → Health) : (s.modHealth f).noEfl = { s with health := f s.health }.noEfl := by
  unfold State.modHealth
  split_ifs with h
  · rw [h]
  · exact State.noEfl_areaPut _ _ _

section Reads

variable {s t : State} (h : t.noEfl = s.noEfl)
include h

theorem State.chans_of_noEfl : t.chans = s.chans := (congrArg (fun v : State => v.chans) h :)
theorem State.regs_of_noEfl : t.regs = s.regs := (congrArg (fun v : State => v.regs) h :)
theorem State.health_of_noEfl : t.health = s.health := (congrArg (fun v : State => v.health) h :)

theorem State.chan_of_noEfl (n : Nat) : t.chan n = s.chan n := by
  rw [State.chan, State.chan, State.chans_of_noEfl h]

end Reads

/-! ### One channel -/

theorem State.chan_modChan (s : State) (n m : Nat) (f : Chan → Chan) :
    (s.modChan n f).chan m = if m = n then f (s.chan n) else s.chan m := by
  simp only [State.chan, State.modChan, Tbl.upd, Tbl.getD, Tbl.get?_set]
  split <;> rfl

theorem State.chan_noteDimms (s : State) (n m : Nat) : (s.noteDimms n).chan m = s.chan m := by
  unfold State.noteDimms
  split_ifs
  · rfl
  · exact (State.chan_of_noEfl (State.noEfl_modHealth _ _) m).trans rfl

/-- Training of one channel starts there and nowhere else. -/
theorem State.chan_trainOne (s : State) (mode n m : Nat) :
    (s.trainOne mode n).chan m = if m = n then
      { s.chan n with state := if mode = 2 then .retrain else .training
                      mode := if mode = 0 ∨ mode = 1 ∧ (s.sameDimms n = false ∨ s.health.trained.contains n = false) then 0 else mode
                      attempts := 0, kept := (s.chan n).state == .selfRefresh || mode == 2 } else s.chan m := by
  simp only [State.trainOne, State.chan_modChan, State.chan_noteDimms]

/-- What training has begun on a channel. -/
def Chan.training (c : Chan) (mode : Nat) : Prop :=
  c.state = (if mode = 2 then .retrain else .training) ∧ (mode = 0 → c.mode = 0) ∧ c.attempts = 0 ∧ (mode = 2 → c.kept = true)

theorem State.trainOne_training (s : State) (mode n : Nat) : ((s.trainOne mode n).chan n).training mode := by
  rw [State.chan_trainOne, if_pos rfl]
  exact ⟨rfl, fun h => by simp [h], rfl, fun h => by simp [h]⟩

theorem State.foldl_trainOne_other (mode : Nat) (l : List Nat) (s : State) {m : Nat} (h : m ∉ l) :
    (l.foldl (fun (u : State) n => u.trainOne mode n) s).chan m = s.chan m := by
  induction l generalizing s with
  | nil => rfl
  | cons n l ih =>
    rw [List.foldl_cons, ih _ (fun hm => h (List.mem_cons_of_mem _ hm)), State.chan_trainOne, if_neg]
    exact fun hm => h (hm ▸ List.mem_cons_self)

theorem State.chan_setPhase (s : State) {n : Nat} (hn : n < 7) (m : Nat) : (s.setPhase n).chan m = s.chan m := by
  unfold State.setPhase
  rw [if_neg (show ¬(n = 7 ∨ n = 8) by omega)]
  split_ifs
  · rfl
  · unfold State.recordF State.evrPush
    split <;> rfl

/-- A start of training that is taken: it begins on the channels of the mask, and no other channel changes. -/
theorem State.chan_trainStart {s : State} {mode mask : Nat} (hmode : mode < 3)
    (hidle : ∀ n, n < 16 → mask.testBit n = true → (s.chan n).state ≠ .training ∧ (s.chan n).state ≠ .retrain) {n : Nat}
    (hn : n < 16) :
    (mask.testBit n = true → ((s.trainStart mode mask).chan n).training mode) ∧
      (mask.testBit n = false → (s.trainStart mode mask).chan n = s.chan n) := by
  have hnone : ((channels16.filter mask.testBit).any fun n => (s.chan n).state == .training || (s.chan n).state == .retrain) =
      false := by
    simp only [List.any_eq_false, List.mem_filter, channels16, List.mem_range, and_imp]
    intro x hx hbit
    obtain ⟨h1, h2⟩ := hidle x hx hbit
    simp [h1, h2]
  have hstart : s.trainStart mode mask = (channels16.filter mask.testBit).foldl (fun (u : State) n => u.trainOne mode n)
      (if s.phase = 2 ∧ mode ≠ 2 then s.setPhase 3 else s) := by
    unfold State.trainStart
    dsimp only
    rw [hnone, if_neg (by simp; omega)]
  rw [hstart]
  refine ⟨fun hbit => ?_, fun hbit => ?_⟩
  · refine foldl_establishes (f := fun (u : State) n => u.trainOne mode n) (P := fun u => (u.chan n).training mode)
      (Q := fun _ => True) (x := n) (fun t y hP => ?_) (fun _ _ _ _ => trivial) (fun t _ => State.trainOne_training t mode n)
      (List.mem_filter.mpr ⟨List.mem_range.mpr hn, hbit⟩) trivial
    by_cases hy : y = n
    · exact hy ▸ State.trainOne_training t mode y
    · rw [State.chan_trainOne, if_neg (Ne.symm hy)]
      exact hP
  · rw [State.foldl_trainOne_other _ _ _ (by simp [hbit])]
    split_ifs
    · exact State.chan_setPhase s (by decide) n
    · rfl

/-! ### The registers of the DMC -/

/-- Firmware reaches a register of an island that runs. -/
theorem State.serves_firmware {s : State} {off : Nat} {d : RegDesc} (hd : descAt off = some d) (hawake : s.isl.quiet = .awake)
    (hgate : s.gated (islandOf off) = false) (hoff : off < 0x100000 ∨ 0x200000 ≤ off) : s.serves .firmware off d := by
  refine ⟨rfl, rfl, ?_, hd, hawake, hgate⟩
  simp only [State.absent, Bool.and_eq_false_iff, decide_eq_false_iff_not]
  omega

/-- The fields of DMC_TRAIN as a start writes them (R355). -/
theorem trainWord_facts {mode mask : Nat} (hmode : mode < 3) (hmask : mask < 2 ^ 16) :
    let w := w32 (2 ^ 31 + 2 ^ 16 * mode + mask)
    Word.bit w 31 = true ∧ Word.fld w 17 16 = mode ∧ Word.fld w 15 0 = mask := by
  have hval : (w32 (2 ^ 31 + 2 ^ 16 * mode + mask)).toNat = 2 ^ 31 + 2 ^ 16 * mode + mask :=
    toNat_w32_of_le (by omega)
  refine ⟨?_, ?_, ?_⟩
  · rw [Word.bit, hval, Nat.testBit_eq_decide_div_mod_eq, decide_eq_true_eq]
    omega
  · rw [Word.fld, hval, bitsOf, Nat.shiftRight_eq_div_pow]
    omega
  · rw [Word.fld, hval, bitsOf, Nat.shiftRight_eq_div_pow]
    omega

theorem State.writeAccess_dmcTrain {s : State} {mode mask : Nat} (h : s.cmdReady Reg.dmcTrain) (hmode : mode < 3)
    (hmask : mask < 2 ^ 16) :
    s.writeAccess .firmware Reg.dmcTrain 4 (2 ^ 31 + 2 ^ 16 * mode + mask) = s.trainStart mode mask := by
  obtain ⟨hawake, hgate, hreset⟩ := h
  obtain ⟨hgo, hm, hk⟩ := trainWord_facts hmode hmask
  have hserves : s.serves .firmware Reg.dmcTrain { off := Reg.dmcTrain, wo := 0x8003FFFF } :=
    State.serves_firmware rfl hawake hgate (by decide)
  rw [State.writeAccess_command _ hserves rfl ⟨by decide, by decide⟩ ⟨rfl, rfl, rfl, rfl⟩ rfl rfl hreset]
  have hfx : ∀ old new val : Word, s.writeFx Reg.dmcTrain old new val =
      if Word.bit val 31 then s.trainStart (Word.fld val 17 16) (Word.fld val 15 0) else s := fun _ _ _ => rfl
  rw [hfx, if_pos hgo, hm, hk]

/-- A write that differs from a register in RW bits alone is stored as it is. -/
theorem State.merged_of_rw (s : State) (off : Nat) {d : RegDesc} {v : Word} (h : d.rwl = 0 ∧ d.w1s = 0 ∧ d.w1c = 0)
    (hsame : ∀ i, i < 32 → d.rw.testBit i = false → Word.bit v i = s.bit off i) : s.merged off d v true = v := by
  obtain ⟨h1, h2, h3⟩ := h
  refine BitVec.eq_of_getLsbD_eq fun i hi => ?_
  have hbit := State.bit_merged s off d v true hi
  simp only [h1, h2, h3, Nat.zero_testBit, Bool.false_and, Bool.and_false, Bool.or_false, Bool.and_true, Bool.true_or,
    Bool.not_false] at hbit
  refine hbit.trans ?_
  split
  · rfl
  · next hrw => exact (hsame i hi (by simpa using hrw)).symm

/-- What a write of DMC_CTL does beside storing the register. -/
theorem dmcCtl_facts (s : State) (old new val w : Word) : s.rejects Reg.dmcCtl w = false ∧ storedVal Reg.dmcCtl old w = w ∧
    s.writeFx Reg.dmcCtl old new val =
      (if Word.bit new 1 && !Word.bit old 1 then s.selfRefresh
       else if Word.bit old 1 && !Word.bit new 1 then s.selfRefreshEnd else s).settle := by
  refine ⟨rfl, rfl, ?_⟩
  have hfx : s.fxDmc Reg.dmcCtl old new val = if Word.bit new 1 && !Word.bit old 1 then s.selfRefresh
    else if Word.bit old 1 && !Word.bit new 1 then s.selfRefreshEnd else s := if_pos rfl
  have hgate : gateRegs.contains Reg.dmcCtl = true := by decide
  simp only [State.writeFx, hgate, if_true, hfx, show ¬Reg.dmcCtl < 0x400000 by decide, show ¬Reg.dmcCtl < 0x600000 by decide,
    show Reg.dmcCtl < 0x700000 by decide, show Reg.dmcCtl ≠ Reg.fmcCtl by decide, if_false, false_and]

/-- Whether the write of DMC_CTL asks for self-refresh or its end. -/
theorem State.writeAccess_dmcCtl {s : State} {d : RegDesc} (on : Bool) (h : s.serves .firmware Reg.dmcCtl d)
    (hne : s.bit Reg.dmcCtl 1 = !on) :
    let w := Word.withFld (s.reg Reg.dmcCtl) 1 1 (b2n on)
    s.writeAccess .firmware Reg.dmcCtl 4 w.toNat =
      (if on then (s.setReg Reg.dmcCtl w).selfRefresh else (s.setReg Reg.dmcCtl w).selfRefreshEnd).settle := by
  intro w
  have hdesc : some d = some { off := Reg.dmcCtl, rst := 0x4, rw := 0x7 } := h.2.2.2.1.symm
  obtain rfl := Option.some.inj hdesc
  have hbit : ∀ i, i < 32 → Word.bit w i = if i = 1 then on else s.bit Reg.dmcCtl i := fun i hi =>
    Word.bit_withFld _ 1 i on (by decide) hi
  have hmerged : s.merged Reg.dmcCtl { off := Reg.dmcCtl, rst := 0x4, rw := 0x7 } w true = w :=
    State.merged_of_rw s _ ⟨rfl, rfl, rfl⟩ fun i hi hrw =>
      (hbit i hi).trans (if_neg (by rintro rfl; exact absurd hrw (by decide)))
  have hbit1 : Word.bit w 1 = on := (hbit 1 (by decide)).trans (if_pos rfl)
  have hold : Word.bit (s.reg Reg.dmcCtl) 1 = !on := hne
  rw [State.writeAccess_of_serves _ h (.inl rfl), w32_toNat, State.writeReg_plain _ _ _ _ rfl ⟨by decide, by decide⟩,
    show pathFw .firmware = true from rfl, hmerged, State.putReg,
    (dmcCtl_facts s (s.reg Reg.dmcCtl) w w w).2.1, (dmcCtl_facts s (s.reg Reg.dmcCtl) w w w).1, if_neg (by decide),
    (dmcCtl_facts _ (s.reg Reg.dmcCtl) w w w).2.2, hbit1, hold]
  cases on <;> simp

end Sys2Proof.Machine
end

section
/-! SUPPORT. Self-refresh of a channel, the chive registers and the scrub control register of the DMC (R334, R340, R344–R346). -/

namespace Sys2Proof.Machine

/-! ### Self-refresh -/

theorem State.chan_refreshes (s : State) (n rank k m : Nat) : (s.refreshes n rank k).chan m = s.chan m := by
  induction k generalizing s with
  | zero => rfl
  | succ k ih => exact (ih _).trans rfl

/-- A channel that is to sleep and has nothing queued is in self-refresh. -/
theorem State.chan_sleepNow {s : State} {n : Nat} (hs : (s.chan n).sleep = true) (hq : (s.chan n).queue = []) :
    (s.sleepNow n).chan n = { s.chan n with
      state := .selfRefresh, sleep := false, postponed := [], rows := [], hits := [], writeMode := false } := by
  have hkeep : ∀ (l : List (Nat × Nat)) (t : State), (l.foldl (fun (t : State) e => t.refreshes n e.1 e.2) t).chan n = t.chan n :=
    fun l => by
      induction l with
      | nil => exact fun _ => rfl
      | cons e l ih => exact fun t => (ih _).trans (State.chan_refreshes t n e.1 e.2 n)
  unfold State.sleepNow
  dsimp only
  rw [if_pos (by simp [hs, hq]), State.chan_modChan, if_pos rfl, hkeep]

/-! ### The chive registers -/

/-- The _HI register of a chive entry: its VALID bit is RW, and it is the high half of a writable pair. -/
theorem chive_desc (ch : Fin 16) (k : Fin 32) :
    ∃ d, descAt (chiveOff ch k) = some d ∧ d.pair = 2 ∧ (d.rw ||| d.rwl) ≠ 0 := by
  have h : ∀ ch : Fin 16, ∀ k : Fin 32, (descAt (chiveOff ch k)).any (fun d => d.pair == 2 && (d.rw ||| d.rwl) != 0) = true := by
    decide +kernel
  have hck := h ch k
  cases hd : descAt (chiveOff ch k) with
  | none => simp [hd] at hck
  | some d =>
    rw [hd, Option.any_some, Bool.and_eq_true, beq_iff_eq, bne_iff_ne] at hck
    exact ⟨d, rfl, hck.1, hck.2⟩

/-- Where the _HI registers of the chive entries lie. -/
theorem chiveOff_eq (ch : Fin 16) (k : Fin 32) :
    chiveOff ch k = 0x600104 + 0x4000 * ch + 8 * k := by
  simp only [chiveOff, chOff, Reg.dmcChiveHi]

theorem chiveEntry_of_offset (k : Nat) : (0x104 + 8 * k - 0x100) / 8 = k := by omega

/-- A write of a chive entry's _HI register enables or disables the entry. -/
theorem chive_fx (s : State) (ch : Fin 16) (k : Fin 32) (old new val w : Word) :
    s.rejects (chiveOff ch k) w = false ∧
    s.writeFx (chiveOff ch k) old new val = if Word.bit val 31 then s.chiveEnable ch k else s.chiveDisable ch k := by
  have hoff := chiveOff_eq ch k
  have hch := ch.isLt
  have hk := k.isLt
  have hmod : chiveOff ch k % 0x4000 = 0x104 + 8 * k := by omega
  have hdiv : (chiveOff ch k - 0x600000) / 0x4000 = ch := by omega
  have hent : (0x104 + 8 * k.val - 0x100) / 8 = k := chiveEntry_of_offset k
  have hlow : chiveOff ch k < 0x640000 := by omega
  have hhigh : 0x600104 ≤ chiveOff ch k := by omega
  have hgate : gateRegs.contains (chiveOff ch k) = false := by
    have hall : gateRegs.all (fun r => decide (r ≤ 0x600103) || decide (0x640000 ≤ r)) = true := rfl
    rw [List.contains_eq_mem, decide_eq_false_iff_not]
    intro hmem
    have := List.all_eq_true.mp hall _ hmem
    simp only [Bool.or_eq_true, decide_eq_true_eq] at this
    omega
  refine ⟨?_, ?_⟩
  · have hcx : cxRep (chiveOff ch k) = chiveOff ch k := if_neg (by omega)
    have hrng : rngRep (chiveOff ch k) = chiveOff ch k := by
      rw [rngRep, hcx, if_neg (by simp only [Reg.dmcPort0]; omega), if_neg (by simp only [Reg.pwsGroup]; omega),
        if_neg (by simp only [Reg.pwsRailPd]; omega), if_neg (by simp only [Reg.bpmThresh]; omega)]
    rw [State.rejects, hcx, hrng, if_neg (by simp only [Reg.cxTrackLimit, Reg.rdxTrackLimit]; omega),
      if_neg (by simp only [Reg.bpmThresh]; omega), if_neg (by simp only [Reg.bpmCfg0]; omega),
      if_neg (by simp only [Reg.netEts0, Reg.netEts1]; omega), if_neg (by simp only [Reg.plcFreeWm]; omega),
      if_neg (by simp only [Reg.dmcScrubCtl]; omega)]
  · have hfx : s.fxDmc (chiveOff ch k) old new val =
        if Word.bit val 31 then s.chiveEnable ch k else s.chiveDisable ch k := by
      unfold State.fxDmc
      rw [if_neg (show chiveOff ch k ≠ Reg.dmcCtl by simp only [Reg.dmcCtl]; omega),
        if_neg (show chiveOff ch k ≠ Reg.dmcTrain by simp only [Reg.dmcTrain]; omega),
        if_neg (show chiveOff ch k ≠ Reg.dmcScrubCtl by simp only [Reg.dmcScrubCtl]; omega),
        if_pos (by omega), hdiv, hmod, hent]
    unfold State.writeFx
    dsimp only
    rw [if_neg (show ¬(gateRegs.contains (chiveOff ch k) = true) by rw [hgate]; decide),
      if_neg (show ¬chiveOff ch k < 0x400000 by omega), if_neg (show ¬chiveOff ch k < 0x600000 by omega),
      if_pos (show chiveOff ch k < 0x700000 by omega), hfx,
      if_neg (fun h => absurd h.1 (show chiveOff ch k ≠ Reg.fmcCtl by simp only [Reg.fmcCtl]; omega))]

/-- Firmware's write of a chive entry's _HI register acts on a state whose bank alone differs. -/
theorem State.writeAccess_chive {s : State} (ch : Fin 16) (k : Fin 32) (v : Nat) (hawake : s.isl.quiet = .awake)
    (hgate : s.gated (islandOf (chiveOff ch k)) = false) :
    ∃ u : State, u.noBank = s.noBank ∧
      s.writeAccess .firmware (chiveOff ch k) 4 v =
        if Word.bit (w32 v) 31 then u.chiveEnable ch k else u.chiveDisable ch k := by
  obtain ⟨d, hd, hpair, hrw⟩ := chive_desc ch k
  have hoff := chiveOff_eq ch k
  have htile : chiveOff ch k ≠ Reg.plcTileSelHi := by simp only [Reg.plcTileSelHi]; omega
  have hserves := State.serves_firmware hd hawake hgate (by omega)
  obtain ⟨u, w, hwrite, hbank⟩ := State.writeReg_hi_leaves s (pathKey .firmware) (w32 v) (pathFw .firmware) hpair hrw htile
  refine ⟨u.setReg (chiveOff ch k) (storedVal (chiveOff ch k) (u.reg (chiveOff ch k)) w), hbank, ?_⟩
  rw [State.writeAccess_of_serves _ hserves (.inl rfl), hwrite, State.putReg,
    (chive_fx u ch k 0 0 0 _).1, if_neg (by decide), (chive_fx _ ch k _ _ _ 0).2]

theorem State.chan_of_noBank {s t : State} (h : t.noBank = s.noBank) (n : Nat) : t.chan n = s.chan n :=
  congrArg (fun v : Tbl Chan => v.getD n {}) (congrArg (fun v : State => v.chans) h :)

/-- A chive entry that is enabled: VALID is set, and its sector is being copied. -/
theorem State.chiveEnable_leaves {s : State} {ch k : Nat} (hcopy : (s.chan ch).copying = none) :
    ((s.chiveEnable ch k).chan ch).copying = some k ∧
      (s.chiveEnable ch k).bit (chOff Reg.dmcChiveHi ch + 8 * k) 31 = true := by
  unfold State.chiveEnable
  rw [hcopy, if_neg (by simp)]
  refine ⟨?_, ?_⟩
  · have hchan := State.chan_modChan (s.setBit (chOff Reg.dmcChiveHi ch + 8 * k) 31 true) ch ch fun c => { c with copying := some k }
    exact congrArg Chan.copying (hchan.trans (if_pos rfl))
  · exact (State.bit_flag s _ _ (show 31 < 32 by decide) (show 31 < 32 by decide)).trans (if_pos ⟨rfl, rfl⟩)

/-- A chive entry that is disabled: VALID is clear, and the health record no longer has it. -/
theorem State.chiveDisable_leaves {s : State} {ch k : Nat} (hcopy : (s.chan ch).copying = none) :
    (s.chiveDisable ch k).bit (chOff Reg.dmcChiveHi ch + 8 * k) 31 = false ∧
      ((s.chiveDisable ch k).health.chives.getD ch []).get? k = none := by
  unfold State.chiveDisable
  rw [hcopy, if_neg (by simp)]
  set t := s.setBit (chOff Reg.dmcChiveHi ch + 8 * k) 31 false with ht
  have hleft := State.noEfl_modHealth t fun h => { h with chives := h.chives.upd ch [] fun l => l.erase k }
  refine ⟨?_, ?_⟩
  · have hreg := State.reg_congr (chOff Reg.dmcChiveHi ch + 8 * k) (State.regs_of_noEfl hleft)
    have ht' : t.reg (chOff Reg.dmcChiveHi ch + 8 * k) =
        Word.withFld (s.reg (chOff Reg.dmcChiveHi ch + 8 * k)) 31 31 (b2n false) := State.reg_setReg_same _ _ _
    rw [State.bit, hreg]
    refine (congrArg (Word.bit · 31) ht').trans ((Word.bit_withFld _ 31 31 false (by decide) (by decide)).trans (if_pos rfl))
  · rw [State.health_of_noEfl hleft]
    simp only [Tbl.upd, Tbl.getD, Tbl.get?_set, if_true, Option.getD_some, Tbl.get?_erase]

/-! ### DMC_SCRUB_CTL -/

/-- What a write of DMC_SCRUB_CTL does beside storing the register, and how its value is stored (R345, R357). -/
theorem scrubCtl_facts (s : State) (old new val w : Word) :
    storedVal Reg.dmcScrubCtl old w = Word.withFld w 22 16 (clampStep 1 64 1 (Word.fld w 22 16)) ∧
    s.rejects Reg.dmcScrubCtl w = (s.bit Reg.dmcScrubCtl 31 && Word.bit w 30) ∧
    s.writeFx Reg.dmcScrubCtl old new val = if Word.bit new 30 then s.scrubBegin else s.scrubHalt := ⟨rfl, rfl, rfl⟩

/-- The bits of DMC_SCRUB_CTL outside the rate, after firmware's write. -/
theorem State.bit_scrubStored (s : State) (v : Word) {i : Nat} (hi : i < 16 ∨ 22 < i) (h32 : i < 32) :
    let d : RegDesc := { off := Reg.dmcScrubCtl, rst := 0x8FFFF, rw := 0x407FFFFF }
    Word.bit (storedVal Reg.dmcScrubCtl (s.reg Reg.dmcScrubCtl) (s.merged Reg.dmcScrubCtl d v true)) i =
      if (0x407FFFFF : Nat).testBit i then Word.bit v i else s.bit Reg.dmcScrubCtl i := by
  intro d
  rw [(scrubCtl_facts s _ 0 0 _).1, Word.bit_withFld_out _ h32 hi, State.bit_merged s _ d v true h32]
  simp [d]

/-- Firmware's write of DMC_SCRUB_CTL while no pass runs. -/
theorem State.writeAccess_scrubCtl {s : State} (v : Word) (hawake : s.isl.quiet = .awake)
    (hgate : s.gated (islandOf Reg.dmcScrubCtl) = false) (hidle : s.bit Reg.dmcScrubCtl 31 = false) :
    let d : RegDesc := { off := Reg.dmcScrubCtl, rst := 0x8FFFF, rw := 0x407FFFFF }
    let new := storedVal Reg.dmcScrubCtl (s.reg Reg.dmcScrubCtl) (s.merged Reg.dmcScrubCtl d v true)
    s.writeAccess .firmware Reg.dmcScrubCtl 4 v.toNat =
      if Word.bit new 30 then (s.setReg Reg.dmcScrubCtl new).scrubBegin else (s.setReg Reg.dmcScrubCtl new).scrubHalt := by
  intro d new
  have hserves : s.serves .firmware Reg.dmcScrubCtl d := State.serves_firmware rfl hawake hgate (by decide)
  have hrej : s.rejects Reg.dmcScrubCtl new = false := by rw [(scrubCtl_facts s 0 0 0 new).2.1, hidle, Bool.false_and]
  rw [State.writeAccess_of_serves _ hserves (.inl rfl), w32_toNat, State.writeReg_plain _ _ _ _ rfl ⟨by decide, by decide⟩,
    show pathFw .firmware = true from rfl, State.putReg]
  exact (if_neg (by rw [hrej]; decide)).trans (scrubCtl_facts _ _ _ _ 0).2.2

/-- A pass that begins: the summary is clear, and BUSY and GO are set beside the channels and the rate. -/
theorem State.scrubBegin_leaves {s : State} (hidle : s.bit Reg.dmcScrubCtl 31 = false) :
    s.scrubBegin.bit Reg.dmcScrubCtl 31 = true ∧ s.scrubBegin.reg Reg.dmcScrubCounts = 0 ∧
      ∀ i, i < 16 → s.scrubBegin.bit Reg.dmcScrubCtl i = s.bit Reg.dmcScrubCtl i := by
  set u := ([Reg.dmcScrubSectorsLo, Reg.dmcScrubSectorsHi, Reg.dmcScrubCounts, Reg.dmcScrubCounts + 4,
    Reg.dmcScrubCounts + 8, Reg.dmcScrubFirstLo, Reg.dmcScrubFirstHi, Reg.dmcScrubMs].foldl
      (fun (u : State) r => u.setReg r 0) s) with hu
  set w := u.chans.keys.foldl (fun (u : State) n => u.modChan n fun c => { c with scrubbed := 0 }) u with hw
  have hregs : w.regs = u.regs := by
    have hkeep : ∀ (l : List Nat) (t : State), (l.foldl (fun (u : State) n => u.modChan n fun c => { c with scrubbed := 0 }) t).regs =
        t.regs := fun l => by
      induction l with
      | nil => exact fun _ => rfl
      | cons n l ih => exact fun t => (ih _).trans rfl
    exact hkeep _ _
  have hctl : w.reg Reg.dmcScrubCtl = s.reg Reg.dmcScrubCtl := by
    rw [State.reg_congr _ hregs, hu]
    simp +decide only [List.foldl_cons, List.foldl_nil, State.reg_setReg, if_false]
  have hcounts : w.reg Reg.dmcScrubCounts = 0 := by
    rw [State.reg_congr _ hregs, hu]
    simp +decide only [List.foldl_cons, List.foldl_nil, State.reg_setReg, if_false, if_true]
  have heq : s.scrubBegin = (w.flag Reg.dmcScrubCtl 31).flag Reg.dmcScrubCtl 30 := by
    unfold State.scrubBegin
    rw [hidle, if_neg (by decide)]
    rfl
  have hbit : ∀ i, i < 32 → s.scrubBegin.bit Reg.dmcScrubCtl i =
      if i = 30 then true else if i = 31 then true else s.bit Reg.dmcScrubCtl i := fun i hi => by
    rw [heq, State.bit_flag _ _ _ (by decide) hi, State.bit_flag _ _ _ (by decide) hi]
    simp only [true_and]
    rw [State.bit, hctl, State.bit]
  refine ⟨(hbit 31 (by decide)).trans (by simp), ?_, fun i hi => (hbit i (by omega)).trans ?_⟩
  · rw [heq, State.reg_flag_ne _ _ (show Reg.dmcScrubCounts ≠ Reg.dmcScrubCtl by decide),
      State.reg_flag_ne _ _ (show Reg.dmcScrubCounts ≠ Reg.dmcScrubCtl by decide), hcounts]
  · rw [if_neg (by omega), if_neg (by omega)]

/-- GO cleared while no pass runs. -/
theorem State.scrubHalt_idle {s : State} (hidle : s.bit Reg.dmcScrubCtl 31 = false) :
    s.scrubHalt.bit Reg.dmcScrubCtl 30 = false := by
  unfold State.scrubHalt
  dsimp only
  rw [hidle, if_neg (by decide)]
  have hreg : (s.setBit Reg.dmcScrubCtl 30 false).reg Reg.dmcScrubCtl =
      Word.withFld (s.reg Reg.dmcScrubCtl) 30 30 (b2n false) := State.reg_setReg_same _ _ _
  exact (congrArg (Word.bit · 30) hreg).trans ((Word.bit_withFld _ 30 30 false (by decide) (by decide)).trans (if_pos rfl))

/-- The word that starts a pass: GO, and the channels in its low bits (R357). -/
theorem scrubWord_bits (rate : Nat) (mask : BitVec 16) :
    Word.bit (w32 (2 ^ 30 + 2 ^ 16 * (rate % 128) + mask.toNat)) 30 = true ∧
      ∀ i, i < 16 → Word.bit (w32 (2 ^ 30 + 2 ^ 16 * (rate % 128) + mask.toNat)) i = mask.toNat.testBit i := by
  have hmask := mask.isLt
  have hval : (w32 (2 ^ 30 + 2 ^ 16 * (rate % 128) + mask.toNat)).toNat = 2 ^ 16 * (2 ^ 14 + rate % 128) + mask.toNat := by
    rw [toNat_w32_of_le (by omega)]
    ring
  refine ⟨?_, fun i hi => ?_⟩
  · rw [Word.bit, hval, Nat.testBit_eq_decide_div_mod_eq, decide_eq_true_eq]
    omega
  · rw [Word.bit, hval, Nat.testBit_two_pow_mul_add _ hmask, if_pos hi]

end Sys2Proof.Machine

namespace Sys2Proof.Proofs

open Sys2Proof Sys2Proof.Machine

/-- Settles O41: training, self-refresh, the chive list and scrub passes, each from the law of its registers or channels. -/
theorem dramTrainingChivesAndScrub : Obligations.DramTrainingChivesAndScrub := by
  unfold Obligations.DramTrainingChivesAndScrub
  refine ⟨fun s mask hready hidle => ?_, fun s ch hst => ⟨?_, fun hm => ?_, fun hm ha => ?_, fun hm ha => ?_⟩,
    fun s ch hst => ⟨?_, ?_⟩, fun s d hserves => ⟨fun hoff => ?_, fun hon => ?_⟩, fun s n hst hq => ?_,
    fun s ch k hcopy hawake hgate => ⟨?_, ?_⟩, fun s ch k hcopy hwait => ?_,
    fun s ch sector n k hfail hle hn => ?_, fun s rate mask hawake hgate hbusy => ⟨?_, ?_⟩,
    fun s n poison ms hbusy => ?_⟩
  · have hidle' : ∀ n, n < 16 → mask.toNat.testBit n = true → (s.chan n).state ≠ .training ∧ (s.chan n).state ≠ .retrain :=
      fun n hn hb => hidle n hn hb
    have hlt := mask.isLt
    have hexec : ∀ mode, mode < 3 → s.writeAccess .firmware Reg.dmcTrain 4 (2 ^ 31 + 2 ^ 16 * mode + mask.toNat) =
        s.trainStart mode mask.toNat := fun mode hm => State.writeAccess_dmcTrain hready hm hlt
    refine ⟨⟨_, congrArg Host.Outcome.next (hexec 0 (by decide)), rfl, fun n hn => ?_⟩,
      ⟨_, congrArg Host.Outcome.next (hexec 1 (by decide)), rfl, fun n hn => ?_⟩,
      ⟨_, congrArg Host.Outcome.next (hexec 2 (by decide)), rfl, fun n hn => ?_⟩⟩
    · obtain ⟨hin, hout⟩ := State.chan_trainStart (mode := 0) (by decide) hidle' hn
      refine ⟨fun hb => ?_, hout⟩
      obtain ⟨hstate, hmode, hatt, -⟩ := hin hb
      exact ⟨hstate, hmode rfl, hatt⟩
    · obtain ⟨hin, hout⟩ := State.chan_trainStart (mode := 1) (by decide) hidle' hn
      exact ⟨fun hb => (hin hb).1, hout⟩
    · obtain ⟨hin, hout⟩ := State.chan_trainStart (mode := 2) (by decide) hidle' hn
      refine ⟨fun hb => ?_, hout⟩
      obtain ⟨hstate, -, -, hkept⟩ := hin hb
      exact ⟨hstate, hkept rfl⟩
  · change execDmcTrainingDone ch true s = _
    simp only [execDmcTrainingDone, hst, if_true]
  · change execDmcTrainingDone ch false s = _
    simp only [execDmcTrainingDone, hst, hm, Bool.false_eq_true, if_false, if_true]
  · change execDmcTrainingDone ch false s = _
    simp only [execDmcTrainingDone, hst, hm, ha, Bool.false_eq_true, if_false, if_true, Nat.zero_ne_one]
  · change execDmcTrainingDone ch false s = _
    simp only [execDmcTrainingDone, hst, hm, ha, Bool.false_eq_true, if_false, Nat.zero_ne_one, lt_self_iff_false]
  · change execDmcTrainingDone ch true s = _
    simp only [execDmcTrainingDone, hst, if_true]
  · change execDmcTrainingDone ch false s = _
    simp only [execDmcTrainingDone, hst, Bool.false_eq_true, if_false]
  · exact congrArg Host.Outcome.next (State.writeAccess_dmcCtl true hserves hoff)
  · exact congrArg Host.Outcome.next (State.writeAccess_dmcCtl false hserves hon)
  · have hchan : (s.modChan n fun c => { s.queued n c with sleep := true }).chan n =
        { s.queued n (s.chan n) with sleep := true } := (State.chan_modChan ..).trans (if_pos rfl)
    rw [State.chan_sleepNow (congrArg Chan.sleep hchan) ((congrArg Chan.queue hchan).trans hq), hchan]
  · obtain ⟨u, hbank, hwrite⟩ := State.writeAccess_chive ch k (2 ^ 31) hawake hgate
    have hu := State.chan_of_noBank hbank ch
    rw [if_pos (by decide)] at hwrite
    exact ⟨_, congrArg Host.Outcome.next hwrite, State.chiveEnable_leaves (by rw [hu, hcopy])⟩
  · obtain ⟨u, hbank, hwrite⟩ := State.writeAccess_chive ch k 0 hawake hgate
    have hu := State.chan_of_noBank hbank ch
    rw [if_neg (by decide)] at hwrite
    exact ⟨_, congrArg Host.Outcome.next hwrite, State.chiveDisable_leaves (by rw [hu, hcopy])⟩
  · change execChiveCopyDone ch s = _
    simp only [execChiveCopyDone, hcopy, hwait, Bool.false_eq_true, if_false]
  · intro t hat hauto hfree
    change execChiveCandidate ch sector s = _
    have hfails : (((s.chan ch).fails.find? fun e => e.1 == sector).map Prod.snd).getD 0 = n := by rw [hfail]; rfl
    simp only [execChiveCandidate, hfails, show ¬(n < s.fld Reg.dmcRetrain 29 26 ∨ n = 0) by omega, if_false]
    rw [show (s.flag (chOff Reg.dmcChEvent ch) 5).chiveAt ch sector = none from hat]
    simp only [show (s.flag (chOff Reg.dmcChEvent ch) 5).bit Reg.dmcCtl 2 = true from hauto, Bool.true_eq_false, if_false,
      show (s.flag (chOff Reg.dmcChEvent ch) 5).chiveFree ch = some k from hfree]
    rfl
  · obtain ⟨hgo, hmask⟩ := scrubWord_bits rate mask
    have hlt := mask.isLt
    set v := w32 (2 ^ 30 + 2 ^ 16 * (rate % 128) + mask.toNat) with hv
    have hval : v.toNat = 2 ^ 30 + 2 ^ 16 * (rate % 128) + mask.toNat := toNat_w32_of_le (by omega)
    have hwrite := State.writeAccess_scrubCtl v hawake hgate hbusy
    rw [hval] at hwrite
    dsimp only at hwrite
    have hstored := fun i hi h32 => State.bit_scrubStored s v (i := i) hi h32
    dsimp only at hstored
    set new := storedVal Reg.dmcScrubCtl (s.reg Reg.dmcScrubCtl)
      (s.merged Reg.dmcScrubCtl { off := Reg.dmcScrubCtl, rst := 0x8FFFF, rw := 0x407FFFFF } v true)
    have hnew : ∀ i, (s.setReg Reg.dmcScrubCtl new).bit Reg.dmcScrubCtl i = Word.bit new i := fun i =>
      congrArg (Word.bit · i) (State.reg_setReg_same s Reg.dmcScrubCtl new)
    rw [if_pos ((hstored 30 (by decide) (by decide)).trans ((if_pos (by decide)).trans hgo))] at hwrite
    have hidle : (s.setReg Reg.dmcScrubCtl new).bit Reg.dmcScrubCtl 31 = false :=
      (hnew 31).trans ((hstored 31 (by decide) (by decide)).trans ((if_neg (by decide)).trans hbusy))
    obtain ⟨hset, hcounts, hlow⟩ := State.scrubBegin_leaves hidle
    refine ⟨_, congrArg Host.Outcome.next hwrite, hset, Word.fld_low hlt fun i hi => ?_, hcounts⟩
    have hrw : (0x407FFFFF : Nat).testBit i = true := by
      have hall : ∀ i : Fin 16, (0x407FFFFF : Nat).testBit i = true := by decide
      exact hall ⟨i, hi⟩
    exact (hlow i hi).trans ((hnew i).trans ((hstored i (.inl hi) (by omega)).trans ((if_pos hrw).trans (hmask i hi))))
  · set v := Word.withFld (s.reg Reg.dmcScrubCtl) 30 30 0 with hv
    have hwrite := State.writeAccess_scrubCtl v hawake hgate hbusy
    dsimp only at hwrite
    have hstored := fun i hi h32 => State.bit_scrubStored s v (i := i) hi h32
    dsimp only at hstored
    set new := storedVal Reg.dmcScrubCtl (s.reg Reg.dmcScrubCtl)
      (s.merged Reg.dmcScrubCtl { off := Reg.dmcScrubCtl, rst := 0x8FFFF, rw := 0x407FFFFF } v true)
    have hstop : Word.bit new 30 = false := (hstored 30 (by decide) (by decide)).trans ((if_pos (by decide)).trans
      ((Word.bit_withFld _ 30 30 false (by decide) (by decide)).trans (if_pos rfl)))
    have hidle : (s.setReg Reg.dmcScrubCtl new).bit Reg.dmcScrubCtl 31 = false :=
      (congrArg (Word.bit · 31) (State.reg_setReg_same s Reg.dmcScrubCtl new)).trans
        ((hstored 31 (by decide) (by decide)).trans ((if_neg (by decide)).trans hbusy))
    rw [hstop, if_neg (by decide)] at hwrite
    exact ⟨_, congrArg Host.Outcome.next hwrite, State.scrubHalt_idle hidle⟩
  · change execScrubPassEnd n poison ms [] s = _
    simp only [execScrubPassEnd, hbusy, Bool.true_eq_false, if_false]
    rfl

end Sys2Proof.Proofs
end

section
/-! SUPPORT. How a mailbox takes a Jorrid command, and how a management QP carries one (R498–R511, R174). -/

namespace Sys2Proof.Machine

/-! ### A message on a QP -/

/-- A packet under the QP's own generation acts on the QP, unless it is in QUARANTINE. -/
theorem State.withAny_of_qp {s : State} {qpn : Nat} {q : Qp} (hq : s.qp? qpn = some q) (hlive : q.state ≠ .quarantine)
    (f : State → Qp → State) : s.withAny qpn f = f s q := by
  have hgen : s.genOf (qpIdx qpn) = qpGen qpn := by
    by_contra hstale
    rw [State.qp?, if_neg hstale] at hq
    cases hq
  have hget : s.rdx.qps.get? (qpIdx qpn) = some q := by rwa [State.qp?, if_pos hgen] at hq
  have hstate : (q.state == .quarantine) = false := by simpa using hlive
  simp only [State.withAny, hgen, hget, hstate, ne_eq, not_true_eq_false, if_false, Bool.false_eq_true]

/-- On a QP whose packets are encrypted, a packet also needs the security unit. -/
theorem State.withQp_of_established {s : State} {qpn : Nat} {q : Qp} (hq : s.qp? qpn = some q)
    (hstate : q.state = .established) (hsec : s.bit Reg.secCtl 0 = true) (f : State → Qp → State) :
    s.withQp qpn f = f s q := by
  rw [State.withQp, State.withAny_of_qp hq (by rw [hstate]; decide)]
  simp only [hsec, Bool.not_true, Bool.and_false, Bool.false_eq_true, if_false]

/-- A key message at the expected PSN, on an ESTABLISHED QP that may take it and under no back-pressure, is acknowledged in
its order and acts. -/
theorem State.wcmTake_of_established {s : State} {qpn psn : Nat} {q : Qp} {ok : Qp → Bool} {act : State → Qp → State}
    (hq : s.qp? qpn = some q) (hstate : q.state = .established) (hpsn : psnClass q.psnRx psn = 0) (hok : ok q = true)
    (hrnr : s.rnrNow false = false) (hsec : s.bit Reg.secCtl 0 = true) :
    s.wcmTake qpn psn ok act = act ((s.psnTake qpn psn 0).addResp qpn psn .ack true) q := by
  rw [State.wcmTake, State.withQp_of_established hq hstate hsec]
  simp only [hstate, hpsn, hok, hrnr, Nat.zero_ne_one, Bool.true_eq_false, Bool.false_eq_true, if_false,
    OfNat.zero_ne_ofNat]

/-- A key message of version 1 whose length is in its type's range acts. -/
theorem State.wcmReply_of_ok {s : State} {qpn type lo hi : Nat} {w : WcmHdr} (hver : w.version = 1) (hlo : lo ≤ w.length)
    (hhi : w.length ≤ hi) (act : State → State) : s.wcmReply qpn type w lo hi act = act s := by
  have hok : wcmOk w lo hi = true := by simp [wcmOk, hver, hlo, hhi]
  rw [State.wcmReply, if_pos hok]

/-! ### A new command -/

/-- A new command that nothing stands against is taken: its mailbox is held by it, then the rights, the opcode, the phase
and the objects are asked for in turn. -/
theorem State.jorrid_of_jNew {s : State} {k : Nat} {h : JHdr} {c : JorridCmd} (hnew : s.jNew k h c) :
    s.jorrid k h c =
      if !(s.taken k h c).permits k c then (s.taken k h c).jDeny k
      else if unknownOp c then (s.taken k h c).mbxStatus k jrUnsupported
      else if notReady (s.taken k h c).phase c then (s.taken k h c).mbxStatus k jrNotReady
      else if (objectsOf c).any fun o => (s.modMb k id).objectsHeld.contains o then (s.taken k h c).mbxStatus k jrConflict
      else (s.accepted k h c).jRun k c := by
  obtain ⟨hup, hinst, hwf, hget, habort, hidle, hheld, htakes, hawake, hseq, hslots⟩ := hnew
  have hfree : (takesSlot c && decide ((s.modMb k id).fld Reg.mbxCfg 13 8 ≤ (s.modMb k id).slotsBusy)) = false := by
    cases hslot : takesSlot c with
    | false => rfl
    | true => simpa using hslots hslot
  have htake : (s.modMb k id).jTake k h c = (s.modMb k id).jAccept k h c := by
    rw [State.jTake, hfree]
    split
    next hbusy => exact absurd hbusy hidle
    next =>
      cases hlast : ((s.modMb k id).mb k).lastSeq with
      | none => rfl
      | some l => exact (if_pos (hseq l hlast)).trans (if_neg Bool.false_ne_true)
  rw [State.jorrid_eq_jTake hup hinst hwf ⟨hget, habort⟩ hidle hheld htakes hawake, htake]
  rfl

/-- A command that may run does what R511 gives it in the state in which it has been accepted. -/
theorem State.jorrid_of_jRuns {s : State} {k : Nat} {h : JHdr} {c : JorridCmd} (hruns : s.jRuns k h c) :
    s.jorrid k h c = (s.accepted k h c).jRun k c := by
  obtain ⟨hnew, hpermit, hknown, hready, hobj⟩ := hruns
  rw [State.jorrid_of_jNew hnew, hpermit, hknown, hready, hobj]
  rfl

/-! ### A command that finds its mailbox taken, and the queries -/

/-- A command other than a query that finds another in progress is answered BUSY. -/
theorem State.jorrid_of_busy {s : State} {k : Nat} {h : JHdr} {c : JorridCmd} (hup : s.instUp k = true)
    (hinst : s.noInstance k = false) (hwf : h.wellFormed = true) (hquery : c ≠ .getStatus ∧ c ≠ .abort)
    (hbusy : ((s.modMb k id).mb k).state = .busy) :
    s.jorrid k h c = (s.modMb k id).jBusy k (((s.modMb k id).mb k).lastSeq.getD 0) := by
  simp only [State.jorrid, hup, hinst, hwf, Bool.true_eq_false, Bool.false_eq_true, if_false]
  split
  next => exact absurd rfl hquery.1
  next => exact absurd rfl hquery.2
  next => simp only [hbusy]

/-- A command that comes while firmware takes none is held, and counted. -/
theorem State.jorrid_of_not_jTakes {s : State} {k : Nat} {h : JHdr} {c : JorridCmd} (hup : s.instUp k = true)
    (hinst : s.noInstance k = false) (hwf : h.wellFormed = true) (hquery : c ≠ .getStatus ∧ c ≠ .abort)
    (hidle : ((s.modMb k id).mb k).state ≠ .busy) (hheld : ((s.modMb k id).mb k).held = none)
    (htakes : (s.modMb k id).jTakes = false) :
    s.jorrid k h c = ((s.modMb k id).modMb k fun x => { x with held := some (h, c), htag := x.mtag }).count
      (Reg.mbxCount + 0x10) := by
  simp only [State.jorrid, hup, hinst, hwf, Bool.true_eq_false, Bool.false_eq_true, if_false]
  split
  next => exact absurd rfl hquery.1
  next => exact absurd rfl hquery.2
  next =>
    split
    next hbusy => exact absurd hbusy hidle
    next hsome _ => rw [hheld] at hsome; cases hsome
    next => simp only [htakes, if_true]

/-- A SEQ that does not follow LAST_SEQ: the last one gets the stored result again, any other SEQ_ERROR. -/
theorem State.jTake_of_other_seq {s : State} {k l : Nat} {h : JHdr} {c : JorridCmd} (hidle : (s.mb k).state ≠ .busy)
    (hlast : (s.mb k).lastSeq = some l) (hseq : h.seq % 2 ^ 32 ≠ (l + 1) % 2 ^ 32) :
    s.jTake k h c = if h.seq % 2 ^ 32 = l then s.mbxSay k l (s.mb k).tag (s.mb k).result else s.jSeqError k h c := by
  rw [State.jTake]
  split
  next hbusy => exact absurd hbusy hidle
  next => simp only [hlast]; rw [if_neg hseq]

/-- GET_STATUS and ABORT go to the query rules in any state of the mailbox. -/
theorem State.jorrid_of_query {s : State} {k : Nat} {h : JHdr} {c : JorridCmd} (hup : s.instUp k = true)
    (hinst : s.noInstance k = false) (hwf : h.wellFormed = true) (hquery : c = .getStatus ∨ c = .abort) :
    s.jorrid k h c = (s.modMb k id).jQuery k h c := by
  rcases hquery with rfl | rfl <;> simp only [State.jorrid, hup, hinst, hwf, Bool.true_eq_false, Bool.false_eq_true, if_false]

/-- A query of the last command's SEQ, which has ended, gets the stored result. -/
theorem State.jQuery_of_idle {s : State} {k : Nat} {h : JHdr} {c : JorridCmd} (hlast : (s.mb k).lastSeq = some h.seq)
    (hidle : (s.mb k).state ≠ .busy) : s.jQuery k h c = s.mbxSay k h.seq (s.mb k).tag (s.mb k).result := by
  simp only [State.jQuery, hlast, ne_eq, not_true_eq_false, if_false]

/-- A query of the SEQ of the command in progress gets its progress; ABORT then acts on it. -/
theorem State.jQuery_of_busy {s : State} {k : Nat} {h : JHdr} (hlast : (s.mb k).lastSeq = some h.seq)
    (hbusy : (s.mb k).state = .busy) :
    s.jQuery k h .getStatus = s.mbxSay k h.seq h.tag
        { opcode := 0x0002, status := jrBusy, progress := (s.mb k).result.progress } ∧
      s.jQuery k h .abort = (s.mbxSay k h.seq h.tag
        { opcode := 0x0003, status := jrBusy, progress := (s.mb k).result.progress }).jAbort k := by
  constructor <;> simp only [State.jQuery, hlast, hbusy, ne_eq, not_true_eq_false, if_false, opcodeOf]

/-! ### A command in progress -/

/-- The foreground limit sends a command in progress to the background, with BUSY and a progress that the spec leaves open. -/
theorem exec_foregroundLimitExpiry_of_foreground {s : State} {i : MbxInst} {l : Nat} {c : JorridCmd}
    (hbusy : (s.mb (mbxKey i)).state = .busy) (hlast : (s.mb (mbxKey i)).lastSeq = some l)
    (hcmd : (s.mb (mbxKey i)).cmd = some c) (hfore : (s.mb (mbxKey i)).background = false) :
    exec (.foregroundLimitExpiry i) s = .next ((s.draw.1.modMb (mbxKey i) fun x => { x with
        background := true, mtag := x.ctag
        result := { x.result with progress := max (s.mb (mbxKey i)).result.progress (Config.choice s.draw.2 % 100) } }).mbxSay
      (mbxKey i) l (s.mb (mbxKey i)).tag { opcode := opcodeOf c, status := jrBusy
                                           progress := max (s.mb (mbxKey i)).result.progress (Config.choice s.draw.2 % 100) }) := by
  change execForegroundLimitExpiry i s = _
  simp only [execForegroundLimitExpiry, hbusy, hlast, hcmd, hfore, beq_self_eq_true, Bool.not_false, Bool.and_self, if_true,
    Option.getD_some, Option.map_some]

/-- A command that waits only for time ends with the result that is ready. -/
theorem exec_jorridCommandComplete_of_timed {s : State} {i : MbxInst} (hbusy : (s.mb (mbxKey i)).state = .busy)
    (hstep : (s.mb (mbxKey i)).step = 4) (herase : ∀ b, s.slotErasing b = false) :
    exec (.jorridCommandComplete i) s = .next (s.mbxEnd (mbxKey i) (s.mb (mbxKey i)).ending) := by
  change execJorridCommandComplete i s = _
  simp only [execJorridCommandComplete, hbusy, hstep, beq_self_eq_true, Bool.and_self, if_true]
  split
  next => simp only [herase, Bool.false_eq_true, if_false]
  next => rfl

theorem exec_jorridCommandComplete_of_work {s : State} {i : MbxInst} (hstep : (s.mb (mbxKey i)).step ≠ 4) :
    exec (.jorridCommandComplete i) s = .next (s.reclaim.jServe (mbxKey i)).settle := by
  change execJorridCommandComplete i s = _
  have hno : ((s.mb (mbxKey i)).step == 4) = false := by simpa using hstep
  simp only [execJorridCommandComplete, hno, Bool.and_false, Bool.false_eq_true, if_false]

/-- A mailbox with nothing in progress is freed. -/
theorem State.mbxReset_of_idle {s : State} {k : Nat} (hidle : (s.mb k).state ≠ .busy) :
    s.mbxReset k = { s with mbx := s.mbx.erase k } := by
  rw [State.mbxReset]
  split
  next hbusy => exact absurd hbusy hidle
  next => rfl

end Sys2Proof.Machine

namespace Sys2Proof.Proofs

open Sys2Proof Sys2Proof.Machine

/-- The part of O50 on a new command, whichever transport brings it. -/
theorem exec_of_jRuns :
    (∀ (s : State) (i : MbxInst) (h : JHdr) (c : JorridCmd), s.jRuns (mbxKey i) h c →
      exec (.jorridAccept i h c) s = .next ((s.accepted (mbxKey i) h c).jRun (mbxKey i) c)) ∧
    (∀ (s : State) (ld : Fin 32) (h : JHdr) (c : JorridCmd), s.cxlMbxUp ld = true → s.jRuns (mbxKey (.cxl ld)) h c →
      exec (.jorridVendorOpcode ld h c) s = .next ((s.accepted (mbxKey (.cxl ld)) h c).jRun (mbxKey (.cxl ld)) c)) := by
  constructor
  · intro s i h c hruns
    rw [exec_jorridAccept, State.jorrid_of_jRuns hruns]
  · intro s ld h c hup hruns
    change execJorridVendorOpcode ld h c s = _
    rw [execJorridVendorOpcode, if_pos hup, State.jorrid_of_jRuns hruns]

theorem exec_wcmJorrid_of_jRuns {s : State} {qpn psn : Nat} {q : Qp} {w : WcmHdr} {h : JHdr} {c : JorridCmd}
    (hq : s.qp? qpn = some q) (hstate : q.state = .established) (hpsn : psnClass q.psnRx psn = 0) (hserv : q.service = 1)
    (hrnr : s.rnrNow false = false) (hsec : s.bit Reg.secCtl 0 = true) (hver : w.version = 1) (hlo : 16 ≤ w.length)
    (hhi : w.length ≤ 65535) {t : State}
    (ht : t = ((s.psnTake qpn psn 0).addResp qpn psn .ack true).modMb (mbxKey (.mgmt qpn)) fun m => { m with mtag := w.tag })
    (hruns : t.jRuns (mbxKey (.mgmt qpn)) h c) :
    exec (.wcmJorrid qpn psn w h c) s = .next ((t.accepted (mbxKey (.mgmt qpn)) h c).jRun (mbxKey (.mgmt qpn)) c) := by
  change execWcmJorrid qpn psn w h c s = _
  rw [execWcmJorrid, State.wcmTake_of_established hq hstate hpsn (ok := fun q => q.service == 1)
      (beq_iff_eq.2 hserv) hrnr hsec,
    State.wcmReply_of_ok (hi := wcmMax) hver hlo hhi, ← ht, State.jorrid_of_jRuns hruns]

/-- Settles O50: the mailbox takes a command by its SEQ, then by rights, opcode, phase and objects; a query reads the stored
result or the progress. -/
theorem jorridCommandsAreTakenInTurn : Obligations.JorridCommandsAreTakenInTurn := by
  refine ⟨exec_of_jRuns.1, exec_of_jRuns.2, ?_, ?_, ?_, ?_, ?_, ?_⟩
  · intro s qpn psn q w h c hq hstate hpsn hserv hrnr hsec hver hlo hhi t hruns
    exact exec_wcmJorrid_of_jRuns hq hstate hpsn hserv hrnr hsec hver hlo hhi rfl hruns
  · intro s i h c hnew k t
    rw [exec_jorridAccept, State.jorrid_of_jNew hnew]
    refine ⟨fun hdeny => ?_, fun hpermit hunknown => ?_, fun hpermit hknown hphase => ?_,
      fun hpermit hknown hphase hobj => ?_⟩
    · rw [if_pos (by rw [hdeny]; rfl)]
    · rw [if_neg (by simp [hpermit, t, k]), if_pos hunknown]
    · rw [if_neg (by simp [hpermit, t, k]), if_neg (by simp [hknown]), if_pos hphase]
    · rw [if_neg (by simp [hpermit, t, k]), if_neg (by simp [hknown]), if_neg (by simp [hphase, t, k]), if_pos hobj]
  · intro s i h c hup hinst hwf hget habort k u
    rw [exec_jorridAccept]
    refine ⟨fun hbusy => ?_, fun hidle hheld htakes => ?_, fun l hidle hheld htakes hawake hlast hseq => ?_⟩
    · rw [State.jorrid_of_busy hup hinst hwf ⟨hget, habort⟩ hbusy]
    · rw [State.jorrid_of_not_jTakes hup hinst hwf ⟨hget, habort⟩ hidle hheld htakes]
    · rw [State.jorrid_eq_jTake hup hinst hwf ⟨hget, habort⟩ hidle hheld htakes hawake,
        State.jTake_of_other_seq hidle hlast hseq]
  · intro s i h hup hinst hwf k u hlast
    have hstatus : exec (.getStatus i h) s = .next (u.jQuery k h .getStatus) :=
      congrArg Host.Outcome.next (State.jorrid_of_query hup hinst hwf (.inl rfl))
    have habort : exec (.abort i h) s = .next (u.jQuery k h .abort) :=
      congrArg Host.Outcome.next (State.jorrid_of_query hup hinst hwf (.inr rfl))
    rw [hstatus, habort]
    refine ⟨fun hidle => ?_, fun hbusy => ?_⟩
    · rw [State.jQuery_of_idle hlast hidle, State.jQuery_of_idle hlast hidle]
      exact ⟨rfl, rfl⟩
    · rw [(State.jQuery_of_busy hlast hbusy).1, (State.jQuery_of_busy hlast hbusy).2]
      exact ⟨rfl, rfl⟩
  · intro s i l c hbusy hlast hcmd
    refine ⟨fun hfore => ?_, fun hstep hlow hhigh => ?_, exec_jorridCommandComplete_of_work⟩
    · intro pct
      exact exec_foregroundLimitExpiry_of_foreground hbusy hlast hcmd hfore
    · exact exec_jorridCommandComplete_of_timed hbusy hstep (Bool.rec hlow hhigh)
  · intro s eid hidle
    change execMctpEndpointIdle eid s = _
    rw [execMctpEndpointIdle, State.mbxReset_of_idle hidle]

end Sys2Proof.Proofs
end

section
/-! SUPPORT. What the Jorrid commands on the device, its registers and the regions do once they run (R511, chapters 2 and 12). -/

namespace Sys2Proof.Machine

/-! ### A command and what it runs as -/

/-- A command has the effect that its run has in the state in which it has been accepted. -/
theorem RunsAs.of_jRun {s : State} {i : MbxInst} {h : JHdr} {c : JorridCmd} {e : Instr} {P : State → Prop}
    {f : State → State} (hexec : exec e s = .next (s.jorrid (mbxKey i) h c))
    (hrun : ∀ t : State, P t → t.jRun (mbxKey i) c = f t) : RunsAs s i h c e P f := by
  intro hruns hP
  rw [hexec, State.jorrid_of_jRuns hruns, hrun _ hP]

/-- The mailbox of a command that has been accepted holds that command, in progress at its first step. -/
theorem State.mb_accepted (s : State) (k : Nat) (h : JHdr) (c : JorridCmd) :
    ((s.accepted k h c).mb k).state = .busy ∧ ((s.accepted k h c).mb k).cmd = some c ∧
      ((s.accepted k h c).mb k).tag = h.tag ∧ ((s.accepted k h c).mb k).lastSeq = some (h.seq % 2 ^ 32) := by
  rw [State.accepted, State.mb_modMb, State.taken, State.mb_count, State.mb_modMb]
  exact ⟨rfl, rfl, rfl, rfl⟩

/-! ### The device and its registers -/

theorem State.jHandoff_of_paired {s : State} {k : Nat} {ids : List Nat} (hpair : s.paired = true) :
    s.jHandoff k ids true = (State.startHandoff { s with twn := { s.twn with handoffInst := some k, handed := 0 } }
      (if ids.isEmpty then s.regions.keys else ids)).settle := by
  simp only [State.jHandoff, hpair, Bool.not_true, Bool.false_eq_true, if_false, if_true]

theorem State.jHandoff_of_single {s : State} {k : Nat} {ids : List Nat} {toPeer : Bool} (hpair : s.paired = false) :
    s.jHandoff k ids toPeer = s.mbxStatus k jrPeerAbsent := by
  rw [State.jHandoff, hpair]
  rfl

/-- A RELAY that no other one is before posts its command to the peer at once. -/
theorem State.jRelay_of_paired {s : State} {k : Nat} {hc : JHdr} {c : JorridCmd} (hbusy : (s.mb k).state = .busy)
    (hcmd : (s.mb k).cmd = some (.relay hc c)) (hpair : s.paired = true)
    (hfree : (s.modMb k fun m => { m with step := 2 }).relaying = false) :
    s.jRelay k = ((s.modMb k fun m => { m with step := 2 }).modMb k fun x => { x with
      step := 3, relayed := some hc.seq }).post (.peerMbx hc c) := by
  have hpair' : (s.modMb k fun m => { m with step := 2 }).paired = true := hpair
  rw [State.jRelay, if_pos hpair, State.jWait, State.jServe]
  simp only [State.mb_modMb, hbusy, hcmd, hpair', hfree, bne_self_eq_false, Bool.not_true, Bool.false_eq_true, if_false]

theorem State.jRegRead_of_aligned {s : State} {k off count : Nat} (hpos : 0 < count) (hmax : count ≤ 512)
    (halign : off % 4 = 0) (hend : off + 4 * count ≤ 2 ^ 26) :
    s.jRegRead k off count =
      let r := (List.range count).foldl (fun (a : State × List Nat) n =>
        let p := a.1.read4 (pathOf k) (off + 4 * n)
        (p.1, a.2 ++ [p.2.toNat])) (s, [])
      r.1.mbxOk k r.2 := by
  have hrange : ¬(count = 0 ∨ 512 < count ∨ 2 ^ 26 < off + 4 * count) := by omega
  rw [State.jRegRead, if_neg hrange, if_neg (not_not.2 halign)]

theorem State.jRegWrite_of_good {s : State} {k off v : Nat} (hgood : goodAccess off 4 = true) :
    s.jRegWrite k [(off, v)] = (s.write4 (pathOf k) off (w32 (v % 2 ^ 32))).1.mbxOk k
      [b2n (s.write4 (pathOf k) off (w32 (v % 2 ^ 32))).2] := by
  have hlen : ¬(([(off, v)] : List (Nat × Nat)).isEmpty = true ∨ 256 < ([(off, v)] : List (Nat × Nat)).length) := by simp
  rw [State.jRegWrite, if_neg hlen]
  simp only [List.foldl_cons, List.foldl_nil, hgood, if_true, Nat.zero_add]

theorem State.jProvision_of_unprovisioned {s : State} {k : Nat} {r : ApplRec} (hnone : s.bit Reg.twnId 1 = false) :
    s.jProvision k r false = (((s.recordPut r).recordF 0x0205 0 (s.shows Reg.mbxEvent).toNat 0 { fw := true }).recordLoad).mbxStatus
      k jrSuccess := by
  rw [State.jProvision, hnone]
  rfl

/-! ### Regions -/

theorem State.jCreate_of_free {s : State} {k id gibs qos b : Nat} {pref onAck : Bool} {dflt : Right} {gs : List Nat}
    (hid : id < 4096) (hsize : 0 < gibs) (hqos : qos < 8) (hfree : s.regions.get? id = none)
    (hgran : s.takeGranules gibs = some gs) (hbase : s.freeBase gibs = some b) (hentropy : s.sec.entropyOk = true) :
    s.jCreate k id gibs qos pref onAck dflt =
      let r : Region := { state := .online, size := gibs, qos := qos, prefOwner := pref, onAck := onAck, dflt := dflt
                          owner := if s.paired then pref else s.twin, rgtBase := b }
      s.draw.1.jBoth k ((gs.zipIdx.map fun e => Change.rgt (b + e.2) e.1)
        ++ [.key id 0 (Config.random s.draw.2 % 2 ^ 256), .region id r]) true 5 := by
  have hitems : ¬(4096 ≤ id ∨ gibs = 0 ∨ 8 ≤ qos) := by omega
  have hpair : s.draw.1.paired = s.paired := rfl
  have htwin : s.draw.1.twin = s.twin := rfl
  simp only [State.jCreate, hitems, hfree, hgran, hbase, hentropy, Option.isSome_none, Bool.false_eq_true, Bool.not_true,
    if_false, hpair, htwin]

/-- A region that lives is resized: what comes before the comparison of the sizes lets it through. -/
theorem State.jResize_of_lives {s : State} {k id gibs : Nat} (hid : id < 4096) (hsize : 0 < gibs)
    (hlive : s.regionLives id = true) :
    s.jResize k id gibs =
      if gibs < (s.region id).size then
        if s.coveredFrom id (gibs * gib) then s.mbxStatus k jrInUse
        else s.jBoth k [.region id { s.region id with size := gibs }] true 5
      else if gibs = (s.region id).size then s.mbxStatus k jrSuccess
      else match s.growTo id (s.region id) gibs with
        | some cs => s.jBoth k cs true 5
        | none => s.mbxStatus k jrNoSpace := by
  have hitems : ¬(4096 ≤ id ∨ gibs = 0) := by omega
  rw [State.jResize, if_neg hitems, if_neg (by simp [hlive])] <;> rfl

theorem State.jResize_of_shrink {s : State} {k id gibs : Nat} (hid : id < 4096) (hsize : 0 < gibs)
    (hlive : s.regionLives id = true) (hless : gibs < (s.region id).size)
    (hcover : s.coveredFrom id (gibs * gib) = false) :
    s.jResize k id gibs = s.jBoth k [.region id { s.region id with size := gibs }] true 5 := by
  rw [State.jResize_of_lives hid hsize hlive, if_pos hless, if_neg (by simp [hcover])]

theorem State.jResize_of_grow {s : State} {k id gibs : Nat} {cs : List Change} (hid : id < 4096) (hsize : 0 < gibs)
    (hlive : s.regionLives id = true) (hmore : (s.region id).size < gibs)
    (hgrow : s.growTo id (s.region id) gibs = some cs) : s.jResize k id gibs = s.jBoth k cs true 5 := by
  rw [State.jResize_of_lives hid hsize hlive, if_neg (by omega), if_neg (by omega), hgrow]

theorem State.jDelete_of_lives {s : State} {k id : Nat} (hid : id < 4096) (hlive : s.regionLives id = true) :
    s.jDelete k id = (s.jBoth k [.region id { s.region id with state := .deleting }] false 5).jServeAll := by
  rw [State.jDelete, if_neg (by omega), if_neg (by simp [hlive])]

theorem State.jPolicy_of_lives {s : State} {k id host : Nat} {dflt right : Right} (hid : id < 4096)
    (hhost : host < 0xFFFF) (hlive : s.regionLives id = true) :
    s.jPolicy k id dflt [(host, right)] =
      s.jBoth k [.region id { s.region id with dflt := dflt, policy := [(host, right)] }] true 6 := by
  have htable : [(host, right)].foldl (fun (m : Tbl Right) e => m.set e.1 e.2) [] = [(host, right)] := rfl
  have hitems : ¬(4096 ≤ id ∨ 64 < ([(host, right)] : Tbl Right).length ∨
      (Tbl.keys ([(host, right)] : Tbl Right)).any (fun h => decide (0xFFFF ≤ h)) = true) := by
    simp [Tbl.keys]
    omega
  rw [State.jPolicy, htable]
  dsimp only
  rw [if_neg hitems, if_neg (by simp [hlive])]

theorem State.jAttr_of_lives {s : State} {k id qos : Nat} {pref onAck : Bool} (hid : id < 4096) (hqos : qos < 8)
    (hlive : s.regionLives id = true) :
    s.jAttr k id qos pref onAck =
      s.mbxBoth k [.region id { s.region id with qos := qos, prefOwner := pref, onAck := onAck }] true
        { status := jrSuccess } := by
  rw [State.jAttr, if_neg (by omega), if_neg (by simp [hlive])]

/-- An OFFLINE region is forced online under this twin's own authority without the peer. -/
theorem State.jForce_of_offline {s : State} {k id : Nat} {auth : Bool} (hid : id < 4096)
    (hoff : (s.region id).state = .offline) (hfence : s.twn.fenceIn = false) (hphase : s.phase ≠ 11) (hauth : s.twin = auth) :
    s.jForce k id auth =
      let u := ((s.recordF 0x0204 id (s.shows Reg.mbxEvent).toNat 0 { forced := true }).hostsFree)
      let v := (u.both [.force id auth] false (some k)).1
      State.jWait (if auth != v.twin then v else if v.paired || v.single then v.changeStart (.force id auth)
        else if v.twn.heardPeer then v else v.fencePeer true) k 5 := by
  have hstate : ¬(((s.region id).state != .offline || s.twn.fenceIn || s.phase == 11) = true) := by
    simp [hoff, hfence, hphase]
  have hown : ¬((auth != s.twin && !s.paired) = true) := by simp [hauth]
  rw [State.jForce, if_neg (by omega), if_neg hstate, if_neg hown]

theorem State.jInfo_of_id {s : State} {k id : Nat} (hid : id < 4096) :
    s.jInfo k id =
      let r := s.region id
      s.mbxOk k ([regionCode r.state, r.size, r.qos, r.epoch, b2n r.owner, b2n r.prefOwner, b2n r.onAck, r.pseq % 2 ^ 32,
        r.pseq / 2 ^ 32, r.rgtBase,
        rightLevel r.dflt, r.policy.length] ++ r.policy.flatMap (fun e => [e.1, rightLevel e.2])
        ++ [match r.ensign with | .owner => 0 | .peerOwns => 1 | .handing => 2 | .taking => 3]) := by
  rw [State.jInfo, if_neg (by omega)] <;> rfl

end Sys2Proof.Machine

namespace Sys2Proof.Proofs

open Sys2Proof Sys2Proof.Machine

/-- Settles O52: acceptance leaves the command in progress, and what runs is the command's own function under its conditions. -/
theorem jorridDeviceAndRegions : Obligations.JorridDeviceAndRegions := by
  intro s i h k
  refine ⟨.of_jRun rfl fun t _ => rfl, fun ns => .of_jRun rfl fun t _ => rfl, .of_jRun rfl fun t _ => rfl,
    fun ids => .of_jRun rfl fun t hpair => State.jHandoff_of_paired hpair,
    fun ids => .of_jRun rfl fun t hpair => State.jHandoff_of_single hpair, fun d => .of_jRun rfl fun t _ => rfl, ?_,
    fun off count hpos hmax halign hend => .of_jRun rfl fun t _ => State.jRegRead_of_aligned hpos hmax halign hend,
    fun off v hgood => .of_jRun rfl fun t _ => State.jRegWrite_of_good hgood,
    fun id gibs qos pref onAck dflt gs b hid hsize hqos => .of_jRun rfl fun t ⟨hfree, hgran, hbase, hentropy⟩ =>
      State.jCreate_of_free hid hsize hqos hfree hgran hbase hentropy,
    fun id gibs hid hsize => .of_jRun rfl fun t ⟨hlive, hless, hcover⟩ =>
      State.jResize_of_shrink hid hsize hlive hless hcover,
    fun id gibs cs hid hsize => .of_jRun rfl fun t ⟨hlive, hmore, hgrow⟩ =>
      State.jResize_of_grow hid hsize hlive hmore hgrow,
    fun id hid => .of_jRun rfl fun t hlive => State.jDelete_of_lives hid hlive,
    fun id dflt host right hid hhost => .of_jRun rfl fun t hlive => State.jPolicy_of_lives hid hhost hlive,
    fun id qos pref onAck hid hqos => .of_jRun rfl fun t hlive => State.jAttr_of_lives hid hqos hlive,
    fun id hid => .of_jRun rfl fun t ⟨hoff, hfence, hphase, hauth⟩ =>
      State.jForce_of_offline hid hoff hfence hphase hauth,
    fun id hid => .of_jRun rfl fun t _ => State.jInfo_of_id hid, ?_⟩
  · rintro hc c hruns ⟨hpair, hfree⟩
    obtain ⟨hbusy, hcmd, -, -⟩ := s.mb_accepted (mbxKey i) h (.relay hc c)
    have hexec : exec (.relay i h hc c) s = .next (s.jorrid (mbxKey i) h (.relay hc c)) := rfl
    rw [hexec, State.jorrid_of_jRuns hruns]
    exact congrArg Host.Outcome.next (State.jRelay_of_paired hbusy hcmd hpair hfree)
  · intro tw id rails r
    exact .of_jRun rfl fun t hnone => State.jProvision_of_unprovisioned hnone

end Sys2Proof.Proofs
end

section
/-! SUPPORT. What the Jorrid commands on LDs, extents, leases and keys do once they run (R511, chapters 3 and 4). -/

namespace Sys2Proof.Machine

theorem State.jBind_of_mayBind {s : State} {k ld host : Nat} (hld : ld < 32) (hmay : s.mayBind ld = true) :
    s.jBind k ld host = (s.bindLd ld host).mbxStatus k jrSuccess := by
  rw [State.jBind, if_neg (by omega), if_pos hmay]

theorem State.jUnbind_of_mayUnbind {s : State} {k ld : Nat} (hld : ld < 32) (hmay : s.mayUnbind ld = true) :
    s.jUnbind k ld = (s.bothNow [.binding ld false]).mbxStatus k jrSuccess := by
  rw [State.jUnbind, if_neg (by omega), if_pos hmay]

theorem State.jDurability_of_ld {s : State} {k ld : Nat} {ctm : Bool} (hld : ld < 32) :
    s.jDurability k ld ctm = ((s.setDur ld ctm).1.modMb k fun m => { m with
      waits := (s.setDur ld ctm).2, ending := { status := jrSuccess } }).jWait k 1 := by
  rw [State.jDurability, if_neg (by omega)]

theorem State.jExtentAdd_of_ok {s : State} {k ld dc dpa len region rof : Nat} (hld : ld < 32)
    (hlive : s.regionLives region = true) (hroom : s.extentRoom ld = true)
    (hok : s.extentOk ld dc dpa len region rof = true) :
    s.jExtentAdd k ld dc dpa len region rof =
      (s.extentPut ld dc dpa len region rof).1.jwPut (jwExtent (s.extentPut ld dc dpa len region rof).2) k := by
  rw [State.jExtentAdd, if_neg (by omega), if_neg (by simp [hlive]), if_neg (by simp [hroom]), if_pos hok]

theorem State.jExtentRelease_of_tagged {s : State} {k ld region rof gen idx : Nat} {force : Bool} {e : Extent}
    (hld : ld < 32) (htag : s.extentTagged ld region rof gen = some (idx, e)) (hok : s.askOk idx e force = true) :
    s.jExtentRelease k ld region rof gen force = s.extentAsk k idx e force := by
  rw [State.jExtentRelease, if_neg (by omega), htag]
  exact if_pos hok

theorem State.jVector_of_valid {s : State} {k ld vector source : Nat} (hld : ld < 32) (hlow : 2 ≤ vector)
    (hhigh : vector < 64) :
    s.jVector k ld vector source =
      (s.modLd ld fun l => { l with vectors := l.vectors.set vector source }).mbxStatus k jrSuccess := by
  rw [State.jVector, if_neg (by omega)]

/-- A lease is granted to a host that has none. -/
theorem State.jLease_of_granted {s : State} {k host cred : Nat} {mgmt : Bool} {qp mkey : Option Nat}
    (hitems : leaseItemsOk host (qp.getD 256) (mkey.getD 1024) = true) (hnone : s.leases.get? host = none) :
    s.jLease k true host cred mgmt qp mkey = s.mbxBoth k
      [.lease host { cred := cred, mgmt := mgmt, maxQp := qp.getD 256, maxMkey := mkey.getD 1024 }] false
      { status := jrSuccess } := by
  have hitems' : leaseItemsOk host (qp.getD maxQpDefault) (mkey.getD maxMkeyDefault) = true := hitems
  simp only [State.jLease, hitems', hnone, Bool.true_eq_false, Bool.not_true, Bool.false_eq_true, if_false]
  rfl

/-- A host's lease that is not revoked is changed. -/
theorem State.jLease_of_changed {s : State} {k host cred maxQp maxMkey : Nat} {mgmt : Bool} {x : Lease}
    (hitems : leaseItemsOk host maxQp maxMkey = true) (hlease : s.leases.get? host = some x) (hlive : x.state ≠ .revoked) :
    s.jLease k false host cred mgmt (some maxQp) (some maxMkey) = s.mbxBoth k
      [.lease host { cred := cred, mgmt := mgmt, maxQp := maxQp, maxMkey := maxMkey }] false { status := jrSuccess } := by
  have hstate : (x.state != .revoked) = true := by simpa using hlive
  simp only [State.jLease, Option.getD_some, hitems, hlease, hstate, Bool.not_false, Bool.and_self, Bool.not_true,
    Bool.true_eq_false, Bool.false_eq_true, if_false]

theorem State.jRevoke_of_live {s : State} {k host : Nat} {x : Lease} (hlease : s.leases.get? host = some x)
    (hlive : x.state ≠ .revoked) : s.jRevoke k host = (s.jBoth k [.leaseRevoke host] false 5).settle := by
  rw [State.jRevoke, hlease]
  exact if_neg (by simpa using hlive)

/-- A key is made under a lease that is not revoked, and listed on both twins. -/
theorem State.jKeyRegister_of_made {s u : State} {k host region verbs tag rof va len idx : Nat} {l : Lease} {x : Mkey}
    (hverbs : verbs < 16) (htag : tag < 256) (hlease : s.leases.get? host = some l) (hlive : l.state ≠ .revoked)
    (hmake : s.keyMake host region verbs tag rof va len = .ok (u, idx, x)) :
    s.jKeyRegister k host region verbs tag rof va len =
      u.mbxBoth k [.mkey idx x] false { status := jrSuccess, body := [rkeyOf idx x.gen x.tag] } := by
  have hstate : (l.state == .revoked) = false := by simpa using hlive
  have hitems : ¬(16 ≤ verbs ∨ 256 ≤ tag) := by omega
  simp only [State.jKeyRegister, hitems, hlease, hstate, hmake, Bool.false_eq_true, if_false]

theorem State.jKeyInvalidate_of_named {s : State} {k rkey idx : Nat} {x : Mkey} (hkey : s.keyNamed rkey = some (idx, x)) :
    s.jKeyInvalidate k rkey = (s.modMb k fun m => { m with access := s.underKey x }).mbxBoth k
      [.mkey idx { x with live := false }] false { status := jrSuccess } := by
  rw [State.jKeyInvalidate, hkey]

end Sys2Proof.Machine

namespace Sys2Proof.Proofs

open Sys2Proof Sys2Proof.Machine

/-- Settles O53: each command runs its own function, which the objects let through. -/
theorem jorridLdsLeasesAndKeys : Obligations.JorridLdsLeasesAndKeys := by
  intro s i h k
  exact ⟨fun ld host hld => .of_jRun rfl fun t hmay => State.jBind_of_mayBind hld hmay,
    fun ld hld => .of_jRun rfl fun t hmay => State.jUnbind_of_mayUnbind hld hmay,
    fun ld ctm hld => .of_jRun rfl fun t _ => State.jDurability_of_ld hld,
    fun ld dc dpa len region rof hld => .of_jRun rfl fun t ⟨hlive, hroom, hok⟩ =>
      State.jExtentAdd_of_ok hld hlive hroom hok,
    fun ld region rof gen force idx e hld => .of_jRun rfl fun t ⟨htag, hok⟩ => State.jExtentRelease_of_tagged hld htag hok,
    fun ld vector source hld hlow hhigh => .of_jRun rfl fun t _ => State.jVector_of_valid hld hlow hhigh,
    fun host cred mgmt qp mkey hitems => .of_jRun rfl fun t hnone => State.jLease_of_granted hitems hnone,
    fun host cred mgmt maxQp maxMkey hitems => .of_jRun rfl fun t ⟨_, hlease, hlive⟩ =>
      State.jLease_of_changed hitems hlease hlive,
    fun host x => .of_jRun rfl fun t ⟨hlease, hlive⟩ => State.jRevoke_of_live hlease hlive,
    fun host region verbs tag rof va len l u idx x hverbs htag => .of_jRun rfl fun t ⟨hlease, hlive, hmake⟩ =>
      State.jKeyRegister_of_made hverbs htag hlease hlive hmake,
    fun rkey idx x => .of_jRun rfl fun t hkey => State.jKeyInvalidate_of_named hkey⟩

end Sys2Proof.Proofs
end

section
/-! SUPPORT. What the Jorrid commands on queues, the twin pair, diagnostics, events and firmware do once they run (R511,
chapters 5, 11 and 12). -/

namespace Sys2Proof.Machine

/-! ### Queues and rings -/

/-- A submission queue is created in a region that admits, with a ring that is there. -/
theorem State.jSqCreate_of_new {s : State} {k sq host addr log2 cq region off : Nat} {limit : Option Nat} {maint : Bool}
    (hsq : sq < 4096) (hhost : host < 0x10000) (hpos : 0 < limit.getD 32) (hmax : limit.getD 32 ≤ 64)
    (hplace : s.ringPlace addr log2 (256 + 64 * 2 ^ log2) = some (region, off)) (hnew : s.sq? sq = none)
    (hcq : (s.cq? cq).isSome = true) (hadm : admits (s.region region).state = true) :
    s.jSqCreate k sq host addr log2 cq limit maint = s.mbxBoth k [.claim (objSq sq), .sq sq {
      host := host, region := region, base := off, log2 := log2, cq := cq, maint := maint, limit := limit.getD 32
      state := .active, halted := false }] false { status := jrSuccess } := by
  have hitems : ¬(4096 ≤ sq ∨ 0x10000 ≤ host ∨ limit.getD 32 = 0 ∨ 64 < limit.getD 32) := by omega
  have hcq' : (s.cq? cq).isNone = false := by rw [← Option.not_isSome, hcq]; rfl
  simp only [State.jSqCreate, sqLimitDefault, hitems, hplace, hnew, hcq', hadm, Option.isSome_none, Bool.or_self,
    Bool.false_eq_true, Bool.not_true, if_false, if_true]

theorem State.jSqDelete_of_live {s : State} {k sq : Nat} {q : Sq} (hq : s.sq? sq = some q) (hlive : q.state ≠ .deleting) :
    s.jSqDelete k sq =
      (s.jBoth k [.claim (objSq sq), .sq sq { q with state := .deleting, halted := false }] false 5).settle := by
  rw [State.jSqDelete, hq]
  exact if_neg (by simpa using hlive)

theorem State.jSqStop_of_active {s : State} {k sq : Nat} {q : Sq} (hq : s.sq? sq = some q) (hstate : q.state = .active) :
    s.jSqStop k sq = s.mbxBoth k [.claim (objSq sq), .sq sq { q with state := .stopped, halted := false }] false
      { status := jrSuccess } := by
  rw [State.jSqStop, hq]
  exact if_pos (by rw [hstate]; rfl)

theorem State.jSqResume_of_stopped {s : State} {k sq : Nat} {q : Sq} (hq : s.sq? sq = some q)
    (hstate : q.state = .stopped) (hadm : admits (s.region q.region).state = true) :
    s.jSqResume k sq = ((s.mbxBoth k [.claim (objSq sq), .sq sq { q with state := .active, halted := false }] false
      { status := jrSuccess }).ringBell sq).settle := by
  simp only [State.jSqResume, hq, hstate, hadm, beq_self_eq_true, Bool.not_true, if_true]

theorem State.jSqReset_of_error {s : State} {k sq : Nat} {q : Sq} (hq : s.sq? sq = some q)
    (hstate : q.state = .error) (hadm : admits (s.region q.region).state = true) :
    s.jSqReset k sq = s.mbxBoth k [.claim (objSq sq), .ctlWord q.region q.base q.fetch,
      .sq sq { q with state := .active, halted := false }] false { status := jrSuccess } := by
  simp only [State.jSqReset, hq, hstate, hadm, beq_self_eq_true, Bool.not_true, if_true]

theorem State.jCqCreate_of_new {s : State} {k cq host addr log2 vector region off : Nat} {t0 t1 : Target}
    {window : Option Nat} (hcq : cq < 4096) (hhost : host < 0x10000) (hring : ringOk host t0 t1 vector (window.getD 10) = true)
    (hplace : s.ringPlace addr log2 256 = some (region, off)) (hnew : s.cq? cq = none) :
    s.jCqCreate k cq host addr log2 t0 t1 vector window = s.mbxBoth k [.claim (objCq cq), .ctlWord region off 1, .cq cq {
      host := host, region := region, base := off, log2 := log2, t0 := t0, t1 := t1, vector := vector
      window := window.getD 10 }] false { status := jrSuccess } := by
  have hitems : ¬(4096 ≤ cq ∨ 0x10000 ≤ host ∨ ringOk host t0 t1 vector (window.getD 10) = false) := by
    simp [hring, hcq, hhost]
  simp only [State.jCqCreate, cqWindowDefault, hitems, hplace, hnew, Option.isSome_none, Bool.false_eq_true, if_false]

theorem State.jCqDelete_of_unused {s : State} {k cq : Nat} (hcq : (s.cq? cq).isSome = true)
    (hused : (s.sqs.vals.any fun q => q.cq == cq) = false) :
    s.jCqDelete k cq = s.mbxBoth k [.claim (objCq cq), .cqErase cq] false { status := jrSuccess } := by
  have hcq' : (s.cq? cq).isNone = false := by rw [← Option.not_isSome, hcq]; rfl
  rw [State.jCqDelete, hcq', hused]
  rfl

/-- A ring's target of one twin is set where the ring that results is a good one. -/
theorem State.jCqTarget_of_ringOk {s : State} {k cq : Nat} {twin : Bool} {tg : Target} {q q' : Cq}
    (hq : s.cq? cq = some q) (hset : (if twin then { q with t1 := tg } else { q with t0 := tg }) = q')
    (hring : ringOk q'.host q'.t0 q'.t1 q'.vector q'.window = true) (hhost : q'.host = q.host) :
    s.jCqTarget k cq twin tg = s.mbxBoth k [.claim (objCq cq), .cq cq q'] false { status := jrSuccess } := by
  rw [State.jCqTarget, hq]
  dsimp only
  rw [hset, ← hhost, if_pos hring]

/-! ### Scrubs, tests and event queues -/

theorem State.jScrub_of_idle {s : State} {k first last mask rate : Nat} (hpos : 0 < mask) (hmask : mask < 2 ^ 16)
    (hle : first ≤ last) (hend : last < s.dramBytes) (hidle : s.bit Reg.dmcScrubCtl 31 = false) :
    s.jScrub k first last mask rate = (((((s.setReg64 Reg.dmcScrubStartLo first).setReg64 Reg.dmcScrubEndLo last).setFld
      Reg.dmcScrubCtl 15 0 mask).setFld Reg.dmcScrubCtl 22 16 (clampStep 1 64 1 rate)).scrubBegin).jwPut jwScrub k := by
  have hitems : ¬(mask = 0 ∨ 2 ^ 16 ≤ mask ∨ last < first ∨ s.dramBytes ≤ last) := by omega
  rw [State.jScrub, if_neg hitems, if_neg (by simp [hidle])]

theorem State.jCapTest_of_idle {s : State} {k : Nat} (htest : s.elg.test = .idle) (hprobe : s.elg.probe = none) :
    s.jCapTest k = (s.jwPut jwCap k).capStart := by
  simp only [State.jCapTest, htest, hprobe, Option.isSome_none, Bool.false_eq_true, if_false]

theorem State.jEventQueue_of_mgmt {s : State} {k slot qpn mask severity : Nat} {q : Qp} (hslot : slot < 4)
    (hmask : mask < 2 ^ 32) (hq : s.qp? qpn = some q) (hserv : q.service = 1) :
    s.jEventQueue k slot qpn mask severity = State.mbxStatus
      { s with evq := s.evq.set slot { qpn := qpn, mask := mask, severity := severity } } k jrSuccess := by
  have hitems : ¬(4 ≤ slot ∨ 2 ^ 32 ≤ mask) := by omega
  rw [State.jEventQueue, if_neg hitems, hq]
  exact if_pos (beq_iff_eq.2 hserv)

theorem State.jRun_eventRead_of_count {s : State} {k cursor count : Nat} (hpos : 0 < count) (hmax : count ≤ 127) :
    s.jRun k (.eventRead cursor count) = s.mbxOk k (s.eventBody cursor count) :=
  if_neg (by omega)

/-! ### Firmware images -/

theorem State.jLoadStart_of_free {s : State} {k total : Nat} {b : Bool} (hpos : 0 < total) (hmax : total ≤ 6 * 2 ^ 20)
    (hslot : (s.fwSlot b).state ≠ .active) (hbusy : s.transferBusy b = false) (hnone : s.fw.transfer = none) :
    s.jLoadStart k b total =
      (s.loadBegin b total).modMb k fun m => { m with step := 4, ending := { status := jrSuccess, body := [0] } } := by
  have hitems : ¬(6 * 2 ^ 20 < total ∨ total = 0) := by omega
  rw [State.jLoadStart, if_neg hitems, if_neg (by simpa using hslot), if_neg (by simp [hbusy, hnone])]

theorem State.jLoadMore_of_next {s : State} {k off : Nat} {b : Bool} {data : List Byte} (hlen : data.length ≤ 4064)
    (hbusy : s.transferBusy b = false) (hstate : (s.fwSlot b).state = .loading) (hoff : off = (s.fwSlot b).image.length)
    (hfit : (s.fwSlot b).image.length + data.length ≤ (s.fwSlot b).total) :
    s.jLoadMore k b off data = (s.loadPut b data).mbxOk k [(s.fwSlot b).image.length + data.length] := by
  have hitems : ¬(4064 < data.length ∨ (s.fwSlot b).total < (s.fwSlot b).image.length + data.length) := by omega
  rw [State.jLoadMore, if_neg (by simp [hbusy]), if_neg (by simp [hstate]), if_neg (not_not.2 hoff), if_neg hitems]

theorem State.jLoadEnd_of_loading {s : State} {k : Nat} {b verifies : Bool} (hbusy : s.transferBusy b = false)
    (hstate : (s.fwSlot b).state = .loading) :
    s.jLoadEnd k b verifies = (s.loadEnd b verifies).mbxEnd k
      { status := s.loadStatus b verifies, body := [(s.fwSlot b).image.length] } := by
  rw [State.jLoadEnd, if_neg (by simp [hbusy]), if_neg (by simp [hstate])]

theorem State.jLoadAbort_of_loading {s : State} {k : Nat} {b : Bool} (hbusy : s.transferBusy b = false)
    (hstate : (s.fwSlot b).state = .loading) : s.jLoadAbort k b = (s.loadDrop b).mbxOk k [0] := by
  rw [State.jLoadAbort, if_neg (by simp [hbusy]), if_neg (by simp [hstate])]

theorem State.jLive_of_liveImage {s : State} {k : Nat} {b : Bool} (himage : s.liveImage b = true) (hnow : s.liveNow = true) :
    s.jLive k b = s.liveHalt b (some k) := by
  rw [State.jLive, himage, hnow]
  rfl

theorem State.jNextReset_of_valid {s : State} {k : Nat} {b : Bool} (hstate : (s.fwSlot b).state = .valid) :
    s.jNextReset k b = (s.setPending b).mbxOk k [s.runningSlot.version] := by
  rw [State.jNextReset, hstate]

end Sys2Proof.Machine

namespace Sys2Proof.Proofs

open Sys2Proof Sys2Proof.Machine

/-- Settles O54: each command runs its own function, which the objects let through. -/
theorem jorridQueuesServicesAndFirmware : Obligations.JorridQueuesServicesAndFirmware := by
  intro s i h k ok
  exact ⟨fun sq host addr log2 cq limit maint region off hsq hhost hpos hmax => .of_jRun rfl
      fun t ⟨hplace, hnew, hcq, hadm⟩ => State.jSqCreate_of_new hsq hhost hpos hmax hplace hnew hcq hadm,
    fun sq q => .of_jRun rfl fun t ⟨hq, hlive⟩ => State.jSqDelete_of_live hq hlive,
    fun sq q => .of_jRun rfl fun t ⟨hq, hstate⟩ => State.jSqStop_of_active hq hstate,
    fun sq q => .of_jRun rfl fun t ⟨hq, hstate, hadm⟩ => State.jSqResume_of_stopped hq hstate hadm,
    fun sq q => .of_jRun rfl fun t ⟨hq, hstate, hadm⟩ => State.jSqReset_of_error hq hstate hadm,
    fun cq host addr log2 t0 t1 vector window region off hcq hhost hring => .of_jRun rfl
      fun t ⟨hplace, hnew⟩ => State.jCqCreate_of_new hcq hhost hring hplace hnew,
    fun cq => .of_jRun rfl fun t ⟨hcq, hused⟩ => State.jCqDelete_of_unused hcq hused,
    fun cq q tg => .of_jRun rfl fun t ⟨hq, hring⟩ => State.jCqTarget_of_ringOk hq rfl hring rfl,
    fun cq q tg => .of_jRun rfl fun t ⟨hq, hring⟩ => State.jCqTarget_of_ringOk hq rfl hring rfl,
    .of_jRun rfl fun t _ => rfl, .of_jRun rfl fun t _ => rfl, .of_jRun rfl fun t _ => rfl,
    fun first last mask rate hpos hmask hle => .of_jRun rfl fun t ⟨hend, hidle⟩ =>
      State.jScrub_of_idle hpos hmask hle hend hidle,
    .of_jRun rfl fun t ⟨htest, hprobe⟩ => State.jCapTest_of_idle htest hprobe,
    .of_jRun rfl fun t _ => rfl,
    fun cursor count hpos hmax => .of_jRun rfl fun t _ => State.jRun_eventRead_of_count hpos hmax,
    fun slot qpn mask severity q hslot hmask => .of_jRun rfl fun t ⟨hq, hserv⟩ =>
      State.jEventQueue_of_mgmt hslot hmask hq hserv,
    .of_jRun rfl fun t _ => rfl,
    fun b total hpos hmax => .of_jRun rfl fun t ⟨hslot, hbusy, hnone⟩ => State.jLoadStart_of_free hpos hmax hslot hbusy hnone,
    fun b off data hlen => .of_jRun rfl fun t ⟨hbusy, hstate, hoff, hfit⟩ =>
      State.jLoadMore_of_next hlen hbusy hstate hoff hfit,
    fun b verifies => .of_jRun rfl fun t ⟨hbusy, hstate⟩ => State.jLoadEnd_of_loading hbusy hstate,
    fun b => .of_jRun rfl fun t ⟨hbusy, hstate⟩ => State.jLoadAbort_of_loading hbusy hstate,
    fun b => .of_jRun rfl fun t ⟨himage, hnow⟩ => State.jLive_of_liveImage himage hnow,
    fun b => .of_jRun rfl fun t hstate => State.jNextReset_of_valid hstate⟩

end Sys2Proof.Proofs
end

section
/-! SUPPORT. A part on which BAR0 does not exist, for the statement on the Legacy Aperture (R3, R679). -/

namespace Sys2Proof.Machine

/-- An HG960-N, which has no BAR0, with LD 0 marked privileged. -/
def partN : State := ({ sec := { variantN := true } } : State).setReg Reg.glbPrivLd 1

/-- A path that the part does not have answers nothing. -/
theorem State.readAccess_of_noPath {s : State} {p : RegPath} (h : s.hasPath p = false) (off size : Nat) :
    s.readAccess p off size = s := by
  unfold State.readAccess
  exact if_pos h

/-- A read of LAP_COMMIT while the aperture is not ACTIVE puts an answer out. -/
theorem State.out_lapCommitDo_of_inactive {s : State} (h : s.lapActive = false) (k : Nat) :
    (s.lapCommitDo k).out = .regRead k Reg.lapCommit 0xFFFFFFFF none :: s.out := by
  rw [State.lapCommitDo, if_pos h]
  rfl

end Sys2Proof.Machine

namespace Sys2Proof.Proofs

open Sys2Proof Sys2Proof.Machine

/-- Refutes O59: its clause on a read of LAP_COMMIT asks that the path reach the register and not that the part have the path.
On an HG960-N, whose BAR0 does not exist, a read of it through BAR0 is no access at all, while the clause has it answered. -/
theorem not_legacyAperture : ¬ Obligations.LegacyAperture := by
  rintro ⟨-, -, -, hcommit, -⟩
  have hread : exec (.lapCommitRead (.bar0 0)) partN = .next partN :=
    congrArg Host.Outcome.next (State.readAccess_of_noPath (p := .bar0 0) (by decide +kernel) Reg.lapCommit 4)
  have hclaim := hcommit partN (.bar0 0) (by decide +kernel) (by decide +kernel) rfl
  rw [hread] at hclaim
  have hsame : partN = partN.lapCommitDo (pathKey (.bar0 0)) := by injection hclaim
  have hout := congrArg State.out hsame
  rw [State.out_lapCommitDo_of_inactive (by decide +kernel)] at hout
  exact absurd hout (by simp)

end Sys2Proof.Proofs
end

section
/-! SUPPORT. What traffic leaves of the twin block's own state, and the standby self-test (R489–R497). -/

namespace Sys2Proof.Machine

/-! ### The twin block's state under traffic -/

/-- The twin block's state without what messages to the peer use. -/
def State.twinCore (s : State) : Twn := { s.twn with lanes := [], msgSeq := 0, tx := [] }

/-- A fold keeps what its step keeps. -/
theorem foldl_keeps {α β σ : Type} {f : σ → α → σ} (v : σ → β) (hf : ∀ t x, v (f t x) = v t) (l : List α) (s : σ) :
    v (l.foldl f s) = v s := by
  induction l generalizing s with
  | nil => rfl
  | cons x l ih => exact (ih _).trans (hf s x)

@[simp] theorem State.twn_evrPush (s : State) (r : EvRec) : (s.evrPush r).twn = s.twn := by
  unfold State.evrPush
  split <;> rfl

@[simp] theorem State.twn_pfcAll (s : State) (xoff : Bool) : (s.pfcAll xoff).twn = s.twn := by
  refine foldl_keeps State.twn (fun t n => ?_) _ _
  dsimp only
  split_ifs <;> rfl

@[simp] theorem State.twn_poolNote (s : State) (i : Nat) (p : Pool) : (s.poolNote i p).twn = s.twn := by
  have hflags : ∀ u : State, ([1, 2, 3].foldl (fun (v : State) k => if (s.pool i).level < k ∧ k ≤ s.levelOf i p.used.length
      then v.flag (Reg.bpmEvent + 0x20 * i) (k - 1) else v) u).twn = u.twn := fun u =>
    foldl_keeps State.twn (fun v k => by split_ifs <;> rfl) _ _
  have hlow : ∀ (u : State) (off n : Nat), (u.setFld off 15 0 n).twn = u.twn := fun _ _ _ => rfl
  unfold State.poolNote
  simp only [apply_ite State.twn, State.twn_pfcAll, hlow, hflags, ite_self]

@[simp] theorem State.twn_freeBuf (s : State) (b : Nat × Nat) : (s.freeBuf b).twn = s.twn := by
  unfold State.freeBuf
  dsimp only
  split_ifs
  · simp
  · exact State.twn_evrPush _ _

@[simp] theorem State.twn_dropReq (s : State) (id : Nat) : (s.dropReq id).twn = s.twn := by
  unfold State.dropReq
  split
  · rfl
  · dsimp only
    split
    · rw [State.twn_freeBuf]
    · rfl

@[simp] theorem State.twinCore_post (s : State) (m : ShaumMsg) : (s.post m).twinCore = s.twinCore := by
  have hsegs : ∀ (u : State) (seq : Nat), (u.sendSegs seq m).twinCore = u.twinCore := fun u seq =>
    foldl_keeps State.twinCore (f := fun (t : State) i => t.sendSeg seq m i) (fun _ _ => rfl) (List.range (segCount m)) u
  unfold State.post State.send
  dsimp only
  split
  · rw [hsegs]; rfl
  · rfl

theorem State.twinCore_of_twn {s t : State} (h : t.twn = s.twn) : t.twinCore = s.twinCore := by
  rw [State.twinCore, h, State.twinCore]

@[simp] theorem State.twinCore_abortReqs (s : State) (mine : Req → Bool) : (s.abortReqs mine).twinCore = s.twinCore := by
  unfold State.abortReqs
  dsimp only
  refine (foldl_keeps State.twinCore (fun t x => ?_) _ _).trans ?_
  · split_ifs
    · rfl
    · rfl
    · exact State.twinCore_of_twn (State.twn_dropReq _ _)
    · exact State.twinCore_of_twn (State.twn_dropReq _ _)
  · split_ifs
    · rfl
    · exact State.twinCore_post _ _

@[simp] theorem State.twn_txPkt (s : State) (n prio bytes : Nat) (o : Output) : (s.txPkt n prio bytes o).twn = s.twn := by
  unfold State.txPkt
  dsimp only
  split_ifs <;> rfl

@[simp] theorem State.twn_sendPkt (s : State) (qpn bytes : Nat) (o : Pkt → Output) : (s.sendPkt qpn bytes o).twn = s.twn := by
  unfold State.sendPkt
  split
  · rfl
  · dsimp only
    split_ifs
    · rfl
    · exact State.twn_txPkt _ _ _ _ _
    · exact State.twn_txPkt _ _ _ _ _

@[simp] theorem State.twinCore_ctrLimit (s : State) (qpn : Nat) : (s.ctrLimit qpn).twinCore = s.twinCore := by
  have henter : ∀ st, (s.qpEnter qpn st).twinCore = s.twinCore := fun _ => State.twinCore_abortReqs _ _
  unfold State.ctrLimit
  split
  · split_ifs <;> simp [henter]
  · rfl

@[simp] theorem State.twinCore_wcmSend (s : State) (qpn type tag status len : Nat) (fields : List (Nat × Nat × Nat)) :
    (s.wcmSend qpn type tag status len fields).twinCore = s.twinCore :=
  (State.twinCore_ctrLimit _ _).trans (State.twinCore_of_twn (State.twn_sendPkt _ _ _ _))

/-- A notice to the event queues leaves the twin block's state, and what traffic leaves. -/
theorem State.noticeTo_leaves (s : State) (bit opcode : Nat) (body : List Nat) :
    (s.noticeTo bit opcode body).twinCore = s.twinCore ∧ (s.noticeTo bit opcode body).still = s.still := by
  unfold State.noticeTo
  constructor
  · refine foldl_keeps State.twinCore (fun t q => ?_) _ _
    split_ifs
    · exact State.twinCore_wcmSend _ _ _ _ _ _ _
    · rfl
  · refine foldl_keeps State.still (fun t q => ?_) _ _
    split_ifs
    · exact State.still_wcmSend _ _ _ _ _ _ _
    · rfl

/-! ### The standby self-test -/

/-- Writing words at consecutive registers leaves the first as the first word. -/
theorem State.reg_setRegs (s : State) (base : Nat) (w : Nat → Word) (n : Nat) :
    ((List.range (n + 1)).foldl (fun (u : State) i => u.setReg (base + 4 * i) (w i)) s).reg base = w 0 := by
  induction n with
  | zero => exact State.reg_setReg_same s base (w 0)
  | succ n ih =>
    rw [List.range_succ, List.foldl_append]
    exact (State.reg_setReg_ne _ _ (show base ≠ base + 4 * (n + 1) by omega)).trans ih

/-- Writing registers leaves memory and the twin block's state. -/
theorem State.setRegs_leaves (s : State) (off : Nat → Nat) (w : Nat → Word) (l : List Nat) :
    (l.foldl (fun (u : State) i => u.setReg (off i) (w i)) s).mem = s.mem ∧
      (l.foldl (fun (u : State) i => u.setReg (off i) (w i)) s).twn = s.twn :=
  ⟨foldl_keeps State.mem (f := fun (u : State) i => u.setReg (off i) (w i)) (fun _ _ => rfl) l s,
    foldl_keeps State.twn (f := fun (u : State) i => u.setReg (off i) (w i)) (fun _ _ => rfl) l s⟩

/-- The health record's period ends: what it counted starts again, whatever its notice and its event record did. -/
theorem exec_healthRecord_yields (s : State) : Yields .healthRecord s fun t =>
    t.twn.healthSeq = s.twn.healthSeq + 1 ∧ t.twn.sampled = 0 ∧ t.twn.races = 0 ∧ t.twn.mismatches = 0 ∧
      t.twn.enginesTested = 0 ∧ t.twn.burgeeMiss = 0 ∧ t.mem = s.mem ∧ t.reg Reg.twnHealth = w32 s.twn.healthSeq := by
  have hexec : exec .healthRecord s = execHealthRecord s := rfl
  unfold execHealthRecord at hexec
  dsimp only at hexec
  refine ⟨_, hexec, ?_⟩
  set ws := s.healthWords (if s.bit Reg.dmcScrubCtl 31 = true then Config.choice s.draw.2 % 101 else 0) ++ [crc32c
    ((s.healthWords (if s.bit Reg.dmcScrubCtl 31 = true then Config.choice s.draw.2 % 101 else 0)).flatMap fun x =>
      leBytes 4 x)]
  set t1 := (List.range 16).foldl (fun (u : State) i => u.setReg (Reg.twnHealth + 4 * i) (w32 (ws.getD i 0))) s.draw.1
    with ht1
  set t2 := t1.noticeTo 30 0x0081 ws
  set t3 := if s.healthResult = 0 then t2 else t2.record 0x0D0B 0 (t2.shows Reg.twnEvent).toNat s.healthResult with ht3
  obtain ⟨hmem1, htwn1⟩ := s.draw.1.setRegs_leaves (fun i => Reg.twnHealth + 4 * i) (fun i => w32 (ws.getD i 0))
    (List.range 16)
  obtain ⟨hcore2, hstill2⟩ := t1.noticeTo_leaves 30 0x0081 ws
  have hcore3 : t3.twinCore = t2.twinCore ∧ t3.still = t2.still := by
    rw [ht3]
    split_ifs
    · exact ⟨rfl, rfl⟩
    · exact ⟨State.twinCore_of_twn (State.twn_evrPush _ _), State.still_record _ _ _ _ _⟩
  have hseq : t3.twn.healthSeq = s.twn.healthSeq := by
    have h : t3.twn.healthSeq = t1.twn.healthSeq :=
      (congrArg Twn.healthSeq (hcore3.1.trans hcore2) :)
    exact h.trans (congrArg Twn.healthSeq htwn1)
  have hstill : t3.still = t1.still := hcore3.2.trans hstill2
  have hreg : t3.reg Reg.twnHealth = w32 s.twn.healthSeq := by
    rw [State.reg_of_still hstill (by decide), ht1, State.reg_setRegs _ _ (fun i => w32 (ws.getD i 0)) 15]
    exact BitVec.eq_of_toNat_eq (by simp [w32, ws, State.healthWords])
  exact ⟨congrArg (· + 1) hseq, rfl, rfl, rfl, rfl, rfl, (State.mem_of_still hstill).trans hmem1, hreg⟩

end Sys2Proof.Machine

namespace Sys2Proof.Proofs

open Sys2Proof Sys2Proof.Machine

/-- Settles O49: the samples, the scrub period and the engines' tests are asked for in WATCH alone; the health record's own
updates outlast its notice. -/
theorem standbySelfTest : Obligations.StandbySelfTest := by
  refine ⟨?_, ?_, ?_, exec_healthRecord_yields⟩
  · intro s tile id hwatch hpair hregion hown hopen hlock t
    change execWatchSample tile s = _
    simp only [execWatchSample, State.watching, hwatch, hpair, hregion, hown, hopen, hlock, beq_self_eq_true, Bool.not_false,
      Bool.and_self, if_true, t]
  · intro s hwatch hidle
    change execWatchScrubPeriod s = _
    simp only [execWatchScrubPeriod, State.watching, hwatch, hidle, Bool.not_false, Bool.and_self, if_true]
  · intro s e hwatch
    change execEngineSelfTest e true s = _
    simp only [execEngineSelfTest, State.watching, hwatch, Bool.not_false, if_true]

end Sys2Proof.Proofs
end

section
/-! SUPPORT. Fetching submission entries, a completion ring's records and signals, and the firmware CRC unit (R199–R201, R216–R218,
R239). -/

namespace Sys2Proof.Machine

/-! ### Fetching -/

/-- The state of a queue that fetching has moved past an entry. -/
def State.fetched (s : State) (sq : Nat) (q : Sq) : State :=
  State.modSq { s with cmdSeq := s.cmdSeq + 1
                       cmds := s.cmds.set s.cmdSeq { sq := sq, pos := q.fetch, d := s.entryAt q q.fetch } } sq
    fun x => { x with fetch := x.fetch + 1 }

theorem Tbl.get?_modify_ne {α : Type} (t : Tbl α) {n m : Nat} (f : α → α) (h : m ≠ n) :
    Tbl.get? (Tbl.modify t n f) m = Tbl.get? t m := by
  unfold Tbl.modify
  split
  · rw [Tbl.get?_set, if_neg h]
  · rfl

theorem State.sq_modSq (s : State) (sq : Nat) (f : Sq → Sq) : (s.modSq sq f).sq? sq = (s.sq? sq).map f :=
  Tbl.get?_modify _ _ _

theorem State.descOk_modSq (s : State) (sq : Nat) (f : Sq → Sq) (d : Desc) : (s.modSq sq f).descOk d = s.descOk d := by
  have hsome : ((s.modSq sq f).sq? d.waitSq).isSome = (s.sq? d.waitSq).isSome := by
    by_cases h : d.waitSq = sq
    · rw [h, State.sq_modSq, Option.isSome_map]
    · exact congrArg Option.isSome (Tbl.get?_modify_ne _ _ h)
  simp only [State.descOk, hsome]

section Fetch

variable {s : State} {sq : Nat} {q : Sq} (hq : s.sq? sq = some q) (hact : q.state = .active) (hhere : s.execHere q = true)
  (hcb : s.cbPoisoned q = false)
include hq hact hhere hcb

/-- Fetching on an ACTIVE queue that is executed here and whose control block is good. -/
theorem State.fetchGo_succ (n : Nat) : s.fetchGo sq (n + 1) =
    if 2 ^ q.log2 < s.prodOf q - q.fetch then s.sqError sq
    else if s.mayFetch sq q = false ∨ s.prodOf q ≤ q.fetch then s
    else if (s.entryAt q q.fetch).phase = phaseAt q q.fetch then
      ((s.modSq sq fun x => { x with fetch := x.fetch + 1 }).takeEntry sq q.fetch (s.entryAt q q.fetch)).fetchGo sq n
    else { s.flag Reg.tqmEvent 0 with sqWait := s.sqWait.set sq q.fetch } := by
  have hgo : ¬((q.state != .active || !s.execHere q) = true) := by simp [hact, hhere]
  rw [State.fetchGo, hq]
  dsimp only
  rw [if_neg hgo, hcb]
  simp only [Bool.false_eq_true, false_or]

theorem State.fetchGo_of_end (n : Nat) (hprod : s.prodOf q ≤ q.fetch) : s.fetchGo sq (n + 1) = s := by
  rw [State.fetchGo_succ hq hact hhere hcb, if_neg (by rw [Nat.sub_eq_zero_of_le hprod]; exact Nat.not_lt_zero _),
    if_pos (.inr hprod)]

theorem State.fetchGo_of_entry (n : Nat) (hprod : s.prodOf q = q.fetch + 1) (hmay : s.mayFetch sq q = true)
    (hphase : (s.entryAt q q.fetch).phase = phaseAt q q.fetch) (hok : s.descOk (s.entryAt q q.fetch) = true) :
    s.fetchGo sq (n + 2) = s.fetched sq q := by
  have hlap : ¬(2 ^ q.log2 < s.prodOf q - q.fetch) := by
    rw [hprod, Nat.add_sub_cancel_left]
    exact Nat.not_lt.2 Nat.one_le_two_pow
  have hnew : ¬(s.mayFetch sq q = false ∨ s.prodOf q ≤ q.fetch) := by
    simp [hmay, hprod]
  have htake : (s.modSq sq fun x => { x with fetch := x.fetch + 1 }).takeEntry sq q.fetch (s.entryAt q q.fetch)
      = s.fetched sq q := by
    rw [State.takeEntry]
    exact if_pos ((State.descOk_modSq _ _ _ _).trans hok)
  have hq' : (s.fetched sq q).sq? sq = some { q with fetch := q.fetch + 1 } :=
    (Tbl.get?_modify _ _ _).trans (congrArg (Option.map fun x : Sq => { x with fetch := x.fetch + 1 }) hq)
  rw [State.fetchGo_succ hq hact hhere hcb, if_neg hlap, if_neg hnew, if_pos hphase, htake]
  exact State.fetchGo_of_end (s := s.fetched sq q) hq' hact hhere hcb n (Nat.le_of_eq hprod)

end Fetch

/-- A queue whose fetching changes its context publishes it, and sends it to the peer. -/
theorem State.fetchSq_of_changed {s t : State} {sq : Nat} {q q' : Sq} (hq : s.sq? sq = some q) (hgo : s.fetchGo sq 64 = t)
    (hq' : t.sq? sq = some q') (hne : ¬(q.fetch = q'.fetch ∧ q.state = q'.state)) :
    s.fetchSq sq = (t.sqPublish sq).tellPeer [.sq sq q'] := by
  simp only [State.fetchSq, hgo, hq, hq', hne, if_false]

/-- A queue whose context fetching leaves. -/
theorem State.fetchSq_of_same {s t : State} {sq : Nat} {q : Sq} (hq : s.sq? sq = some q) (hgo : s.fetchGo sq 64 = t)
    (hq' : t.sq? sq = some q) : s.fetchSq sq = t := by
  simp only [State.fetchSq, hgo, hq, hq', and_self, if_true]

theorem State.sqs_evrPush (s : State) (r : EvRec) : (s.evrPush r).sqs = s.sqs := by
  unfold State.evrPush
  split <;> rfl

theorem State.sqs_ringPut (s : State) (region base k : Nat) (bs : List Byte) : (s.ringPut region base k bs).sqs = s.sqs := rfl

theorem State.sqs_sqPublish (s : State) (sq : Nat) : (s.sqPublish sq).sqs = s.sqs := by
  unfold State.sqPublish
  split
  · rfl
  · exact State.sqs_ringPut _ _ _ _ _

theorem State.sq_sqError (s : State) (sq : Nat) :
    (s.sqError sq).sq? sq = (s.sq? sq).map fun q => { q with state := .error } := by
  have hsqs : (s.sqError sq).sqs = (s.modSq sq fun q => { q with state := .error }).sqs :=
    (State.sqs_evrPush _ _).trans (State.sqs_sqPublish _ _)
  exact (congrArg (Tbl.get? · sq) hsqs).trans (State.sq_modSq _ _ _)

/-- Fetching on a queue that may not, for it is in ERROR. -/
theorem State.fetchGo_of_error {s : State} {sq : Nat} {q : Sq} (hq : s.sq? sq = some q) (hst : q.state = .error) (n : Nat) :
    s.fetchGo sq n = s := by
  cases n with
  | zero => rfl
  | succ n =>
    rw [State.fetchGo, hq]
    exact if_pos (by rw [hst]; rfl)

/-! ### The doorbell register -/

theorem State.writeAccess_tqmDoorbell {s : State} (sq : Fin 4096) (h : s.cmdReady Reg.tqmDoorbell) :
    s.writeAccess .firmware Reg.tqmDoorbell 4 sq = s.ringBell sq := by
  obtain ⟨hawake, hgate, hreset⟩ := h
  have hserves : s.serves .firmware Reg.tqmDoorbell { off := Reg.tqmDoorbell, wo := 0xFFF } :=
    State.serves_firmware rfl hawake hgate (by decide)
  rw [State.writeAccess_command _ hserves rfl ⟨by decide, by decide⟩ ⟨rfl, rfl, rfl, rfl⟩ rfl rfl hreset]
  have hfx : ∀ old new val : Word, s.writeFx Reg.tqmDoorbell old new val = s.ringBell (Word.fld val 11 0) :=
    fun _ _ _ => rfl
  rw [hfx, Word.fld_w32 sq.isLt (by decide)]

/-! ### The firmware CRC unit -/

theorem State.writeAccess_crcFwCtl {s : State} (h : s.cmdReady Reg.crcFwCtl) :
    s.writeAccess .firmware Reg.crcFwCtl 4 1 = s.crcLoad := by
  obtain ⟨hawake, hgate, hreset⟩ := h
  have hserves : s.serves .firmware Reg.crcFwCtl { off := Reg.crcFwCtl, wo := 0x1 } :=
    State.serves_firmware rfl hawake hgate (by decide)
  rw [State.writeAccess_command _ hserves rfl ⟨by decide, by decide⟩ ⟨rfl, rfl, rfl, rfl⟩ rfl rfl hreset]
  rfl

theorem State.writeAccess_crcFwData32 {s : State} (w : Word) (h : s.cmdReady Reg.crcFwData32) :
    s.writeAccess .firmware Reg.crcFwData32 4 w.toNat = s.crcFeed (leBytes 4 w.toNat) := by
  obtain ⟨hawake, hgate, hreset⟩ := h
  have hserves : s.serves .firmware Reg.crcFwData32 { off := Reg.crcFwData32, wo := 0xFFFFFFFF } :=
    State.serves_firmware rfl hawake hgate (by decide)
  rw [State.writeAccess_command _ hserves rfl ⟨by decide, by decide⟩ ⟨rfl, rfl, rfl, rfl⟩ rfl rfl hreset, w32_toNat]
  rfl

theorem State.writeAccess_crcFwData8 {s : State} (b : Byte) (h : s.cmdReady Reg.crcFwData8) :
    s.writeAccess .firmware Reg.crcFwData8 4 b.toNat = s.crcFeed [b] := by
  obtain ⟨hawake, hgate, hreset⟩ := h
  have hserves : s.serves .firmware Reg.crcFwData8 { off := Reg.crcFwData8, wo := 0xFF } :=
    State.serves_firmware rfl hawake hgate (by decide)
  have hlt : b.toNat < 256 := b.isLt
  have hbyte : leBytes 1 (w32 b.toNat).toNat = [b] := by
    rw [toNat_w32_of_le (by omega)]
    simp only [leBytes, Nat.mod_eq_of_lt hlt, BitVec.ofNat_toNat, BitVec.setWidth_eq]
  have hfx : ∀ old new val : Word, s.writeFx Reg.crcFwData8 old new val = s.crcFeed (leBytes 1 val.toNat) :=
    fun _ _ _ => rfl
  rw [State.writeAccess_command _ hserves rfl ⟨by decide, by decide⟩ ⟨rfl, rfl, rfl, rfl⟩ rfl rfl hreset, hfx, hbyte]

/-! ### Completion -/

/-- A command whose sequence both twins hold, so that no message of it is unacknowledged, leaves the device. -/
theorem exec_tqCommandComplete_of_assigned {s : State} {sq : Fin 4096} {pos n : Nat} {c : Cmd}
    (hcmd : s.cmdAt sq pos = some (n, c)) (hstage : c.stage = .assigning) (hseq : c.seq ≠ 0)
    (hack : s.twn.tx.get? c.msg = none) :
    exec (.tqCommandComplete sq pos) s = .next ((((State.modSq { s with cmds := s.cmds.erase n } sq
      fun x => sqDone x pos).sqPublish sq).count Reg.tqmCount).settle) := by
  change execTqCommandComplete sq pos s = _
  have hseq' : (c.seq == 0) = false := by simpa using hseq
  simp only [execTqCommandComplete, hcmd, hstage, hseq', hack, bne_self_eq_false, Option.isSome_none, Bool.or_self,
    Bool.false_eq_true, if_false, State.seqDone]

/-- The next record of a ring whose window is open goes to its target in this twin, and the one after it has not come. -/
theorem State.cqPump_of_next {s : State} {cq : Nat} {c : Cq} {r : CqRec} (hcq : s.cq? cq = some c)
    (hrec : c.recs.get? c.sent = some r) (hlast : c.recs.get? (c.sent + 1) = none) (hnext : c.nextSeq = c.sent + 1)
    (hkind : (s.myTarget c).kind = 1) (hheld : s.recHeld cq c.sent = false) (hup : s.targetUp (s.myTarget c) = true)
    (hfence : s.twn.fenceIn = false) (hwin : s.inWindow c c.sent = true) (hnote : r.notify = false) :
    s.cqPump cq = (s.emit (.cqRecord none (s.myTarget c) cq 0 (recordAddr (s.myTarget c) c c.sent) none
      (recordBytes s.twin c.sent r))).modCq cq fun x => { x with sent := x.sent + 1 } := by
  have hput : s.putRecord cq c c.sent r = s.emit (.cqRecord none (s.myTarget c) cq 0
      (recordAddr (s.myTarget c) c c.sent) none (recordBytes s.twin c.sent r)) := by
    simp only [State.putRecord, hnote, hkind, Bool.false_and, Bool.false_eq_true, if_false, Nat.reduceEqDiff]
  set u := (s.emit (.cqRecord none (s.myTarget c) cq 0 (recordAddr (s.myTarget c) c c.sent) none
      (recordBytes s.twin c.sent r))).modCq cq fun x => { x with sent := x.sent + 1 }
  have hu : u.cq? cq = some { c with sent := c.sent + 1 } :=
    (Tbl.get?_modify _ _ _).trans (congrArg (Option.map fun x : Cq => { x with sent := x.sent + 1 }) hcq)
  have hstop : u.cqSend cq 1 = u := by simp only [State.cqSend, hu, hlast]
  have hcount : c.nextSeq + 1 - c.sent = 2 := by omega
  have hkind0 : ¬((s.myTarget c).kind = 0) := by omega
  rw [State.cqPump, hcq]
  dsimp only
  rw [hcount, State.cqSend, hcq]
  dsimp only
  rw [hrec]
  dsimp only
  simp only [hheld, hkind0, hup, hfence, hwin, hput, Bool.false_eq_true, Bool.not_true, Bool.or_self, if_false, if_true]
  exact hstop

/-- A ring's advance, with no notification waiting for it, is what its records do. -/
theorem exec_cqConsAdvance_of_noNotify {s : State} {cq : Fin 4096} (hnone : ∀ e ∈ s.cmds, e.2.d.opcode ≠ 3) :
    exec (.cqConsAdvance cq) s = .next (s.cqPump cq).settle := by
  have hfilter : (s.cmds.filter fun e => e.2.stage == .running && e.2.d.opcode == 3 && e.2.d.src % 2 ^ 12 == cq.val) = [] := by
    refine List.filter_eq_nil_iff.2 fun e he => ?_
    have hop : (e.2.d.opcode == 3) = false := by simpa using hnone e he
    simp only [hop, Bool.and_false, Bool.false_and, Bool.false_eq_true, not_false_eq_true]
  change execCqConsAdvance cq s = _
  rw [execCqConsAdvance, hfilter]
  rfl

end Sys2Proof.Machine

namespace Sys2Proof.Proofs

open Sys2Proof Sys2Proof.Machine

theorem exec_sqDoorbell_of_fetch {s : State} {sq : Fin 4096} {q : Sq} (hq : s.sq? sq = some q) (hact : q.state = .active)
    (hhere : s.execHere q = true) (hcb : s.cbPoisoned q = false) (hprod : s.prodOf q = q.fetch + 1)
    (hmay : s.mayFetch sq q = true) :
    ((s.entryAt q q.fetch).phase = phaseAt q q.fetch → s.descOk (s.entryAt q q.fetch) = true →
      exec (.sqDoorbell sq) s = .next (((State.modSq { s with
        sqWait := s.sqWait.erase sq, cmdSeq := s.cmdSeq + 1
        cmds := s.cmds.set s.cmdSeq { sq := sq, pos := q.fetch, d := s.entryAt q q.fetch } } sq
          fun x => { x with fetch := x.fetch + 1 }).sqPublish sq).tellPeer [.sq sq { q with fetch := q.fetch + 1 }]).settle) ∧
    ((s.entryAt q q.fetch).phase ≠ phaseAt q q.fetch → exec (.sqDoorbell sq) s =
      .next (State.settle { s.flag Reg.tqmEvent 0 with sqWait := (s.sqWait.erase sq).set sq q.fetch })) := by
  set u : State := { s with sqWait := s.sqWait.erase sq } with hu
  have hexec : exec (.sqDoorbell sq) s = .next (u.fetchSq sq).settle := rfl
  constructor
  · intro hphase hok
    have hgo : u.fetchGo sq 64 = u.fetched sq q :=
      State.fetchGo_of_entry (s := u) hq hact hhere hcb 62 hprod hmay hphase hok
    have hq' : (u.fetched sq q).sq? sq = some { q with fetch := q.fetch + 1 } :=
      (Tbl.get?_modify _ _ _).trans (congrArg (Option.map fun x : Sq => { x with fetch := x.fetch + 1 }) hq)
    rw [hexec, State.fetchSq_of_changed (s := u) hq hgo hq' (by simp)]
    rfl
  · intro hphase
    have hlap : ¬(2 ^ q.log2 < u.prodOf q - q.fetch) := by
      rw [show u.prodOf q = q.fetch + 1 from hprod, Nat.add_sub_cancel_left]
      exact Nat.not_lt.2 Nat.one_le_two_pow
    have hnew : ¬(u.mayFetch sq q = false ∨ u.prodOf q ≤ q.fetch) := by
      simp [show u.prodOf q = q.fetch + 1 from hprod, show u.mayFetch sq q = true from hmay]
    have hgo : u.fetchGo sq 64 = { u.flag Reg.tqmEvent 0 with sqWait := u.sqWait.set sq q.fetch } := by
      rw [State.fetchGo_succ (s := u) hq hact hhere hcb, if_neg hlap, if_neg hnew]
      exact if_neg hphase
    rw [hexec, State.fetchSq_of_same (s := u) hq hgo hq]
    rfl

theorem exec_sqDoorbell_of_overrun {s : State} {sq : Fin 4096} {q : Sq} (hq : s.sq? sq = some q) (hact : q.state = .active)
    (hhere : s.execHere q = true) (hcb : s.cbPoisoned q = false) (hover : 2 ^ q.log2 < s.prodOf q - q.fetch) :
    exec (.sqDoorbell sq) s = .next ((((State.sqError { s with
      sqWait := s.sqWait.erase sq } sq).sqPublish sq).tellPeer [.sq sq { q with state := .error }]).settle) := by
  set u : State := { s with sqWait := s.sqWait.erase sq } with hu
  have hexec : exec (.sqDoorbell sq) s = .next (u.fetchSq sq).settle := rfl
  have hgo : u.fetchGo sq 64 = u.sqError sq := by
    rw [State.fetchGo_succ (s := u) hq hact hhere hcb]
    exact if_pos hover
  have hq' : (u.sqError sq).sq? sq = some { q with state := .error } :=
    (State.sq_sqError u sq).trans (congrArg (Option.map fun x : Sq => { x with state := .error }) hq)
  rw [hexec, State.fetchSq_of_changed (s := u) hq hgo hq' (by simp [hact])]

theorem exec_sqDoorbell_of_pause {s : State} {sq : Fin 4096} {q : Sq} (hq : s.sq? sq = some q) (hact : q.state = .active)
    (hhere : s.execHere q = true) (hcb : s.cbPoisoned q = false) (hlap : s.prodOf q - q.fetch ≤ 2 ^ q.log2)
    (hpause : 0 < s.pauseCause) :
    exec (.sqDoorbell sq) s = .next (State.settle { s with sqWait := s.sqWait.erase sq }) := by
  set u : State := { s with sqWait := s.sqWait.erase sq } with hu
  have hexec : exec (.sqDoorbell sq) s = .next (u.fetchSq sq).settle := rfl
  have hmay : u.mayFetch sq q = false := by
    have hno : decide (u.pauseCause = 0) = false := decide_eq_false (Nat.pos_iff_ne_zero.1 hpause)
    simp only [State.mayFetch, hno, Bool.false_and]
  have hgo : u.fetchGo sq 64 = u := by
    rw [State.fetchGo_succ (s := u) hq hact hhere hcb, if_neg (show ¬(2 ^ q.log2 < u.prodOf q - q.fetch) from Nat.not_lt.2 hlap),
      if_pos (.inl hmay)]
  rw [hexec, State.fetchSq_of_same (s := u) hq hgo hq]

theorem exec_fetchResume_of_oneQueue {s : State} {sq : Fin 4096} {q : Sq} (hsqs : s.sqs = [(sq.val, q)])
    (hwait : s.sqWait = []) : exec .fetchResume s = exec (.sqDoorbell sq) s := by
  have hresume : exec .fetchResume s = .next s.fetchAll.settle := rfl
  have hbell : exec (.sqDoorbell sq) s = .next (s.ringBell sq).settle := rfl
  have hsame : ({ s with sqWait := s.sqWait.erase sq } : State) = s := by
    rw [show s.sqWait.erase sq = s.sqWait by rw [hwait]; rfl]
  have hmore : s.fetchMore sq = s.fetchSq sq := by
    rw [State.fetchMore, hwait]
    rfl
  have hall : s.fetchAll = s.fetchMore sq := by
    rw [State.fetchAll, hsqs]
    rfl
  rw [hresume, hbell, State.ringBell, hsame, hall, hmore]

theorem exec_notifyCoalesceExpiry_of_signal {s : State} {cq : Fin 4096} {c : Cq} {seq : Nat} (hcq : s.cq? cq = some c)
    (hsig : c.signal = some seq) :
    ((s.myTarget c).kind ≠ 2 → exec (.notifyCoalesceExpiry cq) s =
      .next ((s.modCq cq fun x => { x with signal := none }).emit (.msix (s.myTarget c).ld c.vector))) ∧
    (∀ r, (s.myTarget c).kind = 2 → c.recs.get? seq = some r → exec (.notifyCoalesceExpiry cq) s =
      .next ((s.modCq cq fun x => { x with signal := none }).rdmaRecord (s.myTarget c) cq c seq r (some (seq % 2 ^ 32)))) := by
  have hexec : exec (.notifyCoalesceExpiry cq) s = .next (s.cqSignal cq c seq) := by
    change execNotifyCoalesceExpiry cq s = _
    simp only [execNotifyCoalesceExpiry, hcq, hsig]
  rw [hexec]
  constructor
  · intro hkind
    simp only [State.cqSignal, hkind, if_false]
  · intro r hkind hrec
    simp only [State.cqSignal, hkind, hrec, if_true]

/-- Settles O36: fetching takes one entry and then finds PROD reached; the other clauses are each one command's own branch. -/
theorem fetchCompletionAndCrc : Obligations.FetchCompletionAndCrc := by
  refine ⟨fun s sq q hq hact hhere hcb => ⟨fun hprod hmay => exec_sqDoorbell_of_fetch hq hact hhere hcb hprod hmay,
      fun hover => exec_sqDoorbell_of_overrun hq hact hhere hcb hover,
      fun hlap hpause => exec_sqDoorbell_of_pause hq hact hhere hcb hlap hpause⟩,
    fun s sq h => congrArg Host.Outcome.next (State.writeAccess_tqmDoorbell sq h),
    fun s sq q hsqs hwait => exec_fetchResume_of_oneQueue hsqs hwait,
    fun s sq pos n c hcmd hstage hseq hack => exec_tqCommandComplete_of_assigned hcmd hstage hseq hack,
    ?_, fun s cq c seq hcq hsig => exec_notifyCoalesceExpiry_of_signal hcq hsig,
    fun s h => congrArg Host.Outcome.next (State.writeAccess_crcFwCtl h),
    fun s w h => congrArg Host.Outcome.next (State.writeAccess_crcFwData32 w h),
    fun s b h => congrArg Host.Outcome.next (State.writeAccess_crcFwData8 b h)⟩
  intro s cq c r hnone hcq hrec hlast hnext hkind hheld hup hfence hwin hnote
  rw [exec_cqConsAdvance_of_noNotify hnone,
    State.cqPump_of_next hcq hrec hlast hnext hkind hheld hup hfence hwin hnote]

end Sys2Proof.Proofs
end

section
/-! SUPPORT. How a fetched command of a queue starts, and the phases of SANITIZE and FORMAT (R205–R222, R387). -/

namespace Sys2Proof.Machine

/-! ### A command that may start -/

section Start

variable {s : State} {sq pos op n : Nat} {c : Cmd} {q : Sq}

/-- The command found at a queue's position is that queue's, at that position. -/
theorem State.place_of_cmdAt (h : s.cmdAt sq pos = some (n, c)) : c.sq = sq ∧ c.pos = pos := by
  have hplace := List.find?_some h
  simpa using hplace

theorem State.startable.place (h : s.startable sq pos op n c q) : c.sq = sq ∧ c.pos = pos := State.place_of_cmdAt h.1

theorem State.startable.queue (h : s.startable sq pos op n c q) : s.sq? c.sq = some q := by
  rw [h.place.1]
  exact h.2.1

/-- A command that may start does what its opcode gives it. -/
theorem State.tqStart_of_startable (h : s.startable sq pos op n c q) (go : State → Nat → Cmd → Nat → State) :
    s.tqStart sq pos op go = go s n c q.host := by
  obtain ⟨hcmd, hq, hstage, hop, hhere, hwait, hmay⟩ := h
  have hbad : (c.stage != .fetched || c.d.opcode != op || !s.execHere q) = false := by simp [hstage, hop, hhere]
  have hchain : (c.d.waitEn && (s.sq? c.d.waitSq).isNone) = false := by
    cases hen : c.d.waitEn with
    | false => rfl
    | true => rw [Bool.true_and, ← Option.not_isSome, hwait hen]; rfl
  simp only [State.tqStart, hcmd, hq, hbad, hchain, hmay, Bool.false_eq_true, if_false, if_true]

/-! ### The opcodes -/

theorem State.tqRead_of_startable (h : s.startable sq pos op n c q) (src : List (Nat × Nat)) (f : Cmd → Cmd) :
    (s.modCmd n f).tqRead n { c with src := src } =
      (s.modCmd n f).tqAsk n q.host .read (c.d.src / 2 ^ 52, c.d.src % 2 ^ 47, c.d.len) src [] [] := by
  have hhost : (s.modCmd n f).tqHost { c with src := src } = q.host := by
    rw [State.tqHost]
    exact congrArg (fun o : Option Sq => match o with | some q => q.host | none => 0xFFFF) h.queue
  rw [State.tqRead, hhost]

/-- A notification's start, whose queue has no record of it, waits until its ring's window is open. -/
theorem State.notePut_of_new (h : s.startable sq pos op n c q) (hmsg : c.msg = 0) (hnote : q.notes.get? pos = none)
    (cq : Nat) (x : Cq) :
    s.notePut n c cq x = if s.inWindow x x.nextSeq = false then (s.tqStage n .running).settle
      else
        let p := (s.tqStage n .running).seqAsk sq pos cq (noteRec c)
        (if p.2.1 = 0 then p.1.modCmd n fun y => { y with msg := p.2.2 }
          else (p.1.modCmd n fun y => { y with msg := p.2.2 }).seqDone sq pos p.2.1 true).settle := by
  obtain ⟨hsq, hpos⟩ := h.place
  have hnone : ((s.sq? sq).bind fun q => q.notes.get? pos).isSome = false := by
    rw [h.2.1, Option.bind_some, hnote]
    rfl
  rw [State.notePut]
  simp only [hmsg, hnone, ne_eq, not_true_eq_false, Bool.false_eq_true, false_or, hsq, hpos]

theorem State.copyGo_eq {host : Nat} {src dst : List (Nat × Nat)} (hsrc : s.tqWhere host c.d.src c.d.len .read = .ok src)
    (hdst : s.tqWhere host c.d.dst c.d.len .write = .ok dst) :
    s.copyGo n c host = (if c.d.e2e then
        s.modCmd n fun x => { x with stage := .running, src := src, dst := dst, wait := c.d.e2e }
      else (s.modCmd n fun x => { x with stage := .running, src := src, dst := dst, wait := c.d.e2e }).tqRead n
        { c with src := src }).settle := by
  simp only [State.copyGo, hsrc, hdst]

theorem State.copyGo_of_badSource {host : Nat} {e : XStep} (hsrc : s.tqWhere host c.d.src c.d.len .read = .error e) :
    s.copyGo n c host = s.tqRefuse n c host c.d.src e := by
  simp only [State.copyGo, hsrc]

theorem State.fillGo_eq {host : Nat} {dst : List (Nat × Nat)} (hdst : s.tqWhere host c.d.dst c.d.len .write = .ok dst) :
    s.fillGo n c host = ((s.modCmd n fun x => { x with stage := .writing, dst := dst }).tqAsk n host (tqWriteOp c.d)
      (c.d.dst / 2 ^ 52, c.d.dst % 2 ^ 47, c.d.len) dst (fillBytes c.d.dst c.d.len c.d.arg) []).settle := by
  simp only [State.fillGo, hdst]

theorem State.fillGo_of_bad {host : Nat} {e : XStep} (hdst : s.tqWhere host c.d.dst c.d.len .write = .error e) :
    s.fillGo n c host = (s.tqCbNote host c.d.dst c.d.len).tqRefuse n c host c.d.dst e := by
  simp only [State.fillGo, hdst]

theorem State.notifyGo_eq {host : Nat} {x : Cq} {segs : List (Nat × Nat)} (hcq : s.cq? (c.d.src % 2 ^ 12) = some x)
    (hx : s.xlate host x.region x.base 256 .write = .ok segs) :
    s.notifyGo n c host = s.notePut n c (c.d.src % 2 ^ 12) x := by
  simp only [State.notifyGo, hcq, hx]

theorem State.notifyGo_of_bad {host : Nat} {x : Cq} {e : XStep} (hcq : s.cq? (c.d.src % 2 ^ 12) = some x)
    (hx : s.xlate host x.region x.base 256 .write = .error e) (hstage : c.stage = .fetched) :
    s.notifyGo n c host = s.tqRefuse n c host (apAddr x.region x.base) e := by
  simp only [State.notifyGo, hcq, hx, hstage]
  exact if_neg (by decide)

theorem State.crcGo_eq {host : Nat} {src : List (Nat × Nat)} (hsrc : s.tqWhere host c.d.src c.d.len .read = .ok src) :
    s.crcGo n c host = (s.modCmd n fun x => { x with stage := .running, src := src, wait := true }).settle := by
  simp only [State.crcGo, hsrc]

theorem State.crcGo_of_bad {host : Nat} {e : XStep} (hsrc : s.tqWhere host c.d.src c.d.len .read = .error e) :
    s.crcGo n c host = s.tqRefuse n c host c.d.src e := by
  simp only [State.crcGo, hsrc]

theorem State.prefetchGo_eq {host : Nat} {rg : List (Nat × Nat)} (hsrc : s.tqWhere host c.d.src c.d.len .read = .ok rg) :
    s.prefetchGo n c host = (((s.cmdTiles c.d.src c.d.len).filter s.prefetches).foldl
      (fun (u : State) x => u.prefetchTile n x)
      (s.modCmd n fun x => { x with stage := .running, left := (s.cmdTiles c.d.src c.d.len).filter s.prefetches })).settle := by
  simp only [State.prefetchGo, hsrc]

theorem State.pinGo_eq {host : Nat} {rg : List (Nat × Nat)} (hdst : s.tqWhere host c.d.dst c.d.len .write = .ok rg) :
    s.pinGo n c host = ((s.cmdTiles c.d.dst c.d.len).foldl (fun (u : State) x => u.pinFor x [n] [])
      ((if s.paired then s.post (.control ((s.cmdTiles c.d.dst c.d.len).map fun x => .pinAsk n x)) else s).modCmd n fun x => {
        x with stage := .running, left := s.cmdTiles c.d.dst c.d.len
               peerLeft := if s.paired then s.cmdTiles c.d.dst c.d.len else [] })).settle := by
  simp only [State.pinGo, hdst]

theorem State.unpinGo_eq {host : Nat} {rg : List (Nat × Nat)} (hdst : s.tqWhere host c.d.dst c.d.len .write = .ok rg) :
    s.unpinGo n c host =
      ((s.bothNow ((s.cmdTiles c.d.dst c.d.len).map fun x => .pin x false)).tqFinish n c 0 0).settle := by
  simp only [State.unpinGo, hdst]

end Start

/-! ### SANITIZE and FORMAT -/

section Maint

variable {s : State} {n : Nat} {c : Cmd} {host id off : Nat}

/-- The command of another position waits for the one whose progress a region records. -/
theorem State.maintGo_of_other {p : Progress} (hp : s.progress.get? (bitsOf c.d.dst 63 52) = some p)
    (hown : ownProgress p c = false) : s.sanitizeGo n c host = s ∧ s.formatGo n c host = s := by
  constructor
  · simp only [State.sanitizeGo, hp, hown, Bool.false_eq_true, if_false]
  · simp only [State.formatGo, hp, hown, Bool.false_eq_true, if_false]

variable (hnone : s.progress.get? (bitsOf c.d.dst 63 52) = none) (hat : apSplit c.d.dst = some (id, off))
include hnone hat

theorem State.maintGo_of_noRight {segs : List (Nat × Nat)} (hx : s.xlate host id 0 0 .atomic = .ok segs)
    (hmaint : s.maintSq c.sq = false) :
    s.sanitizeGo n c host = (s.tqOpen n c 3).settle ∧ s.formatGo n c host = (s.tqOpen n c 3).settle := by
  have hwhere : ∀ len, s.maintWhere c host len = .ok none := fun len => by
    simp only [State.maintWhere, hat, hx, hmaint, if_true]
  constructor
  · simp only [State.sanitizeGo, hnone, hwhere]
  · simp only [State.formatGo, hnone, hwhere]

omit hnone in
theorem State.maintWhere_of_right {len : Nat} {segs segs' : List (Nat × Nat)} (hx : s.xlate host id 0 0 .atomic = .ok segs)
    (hmaint : s.maintSq c.sq = true) (hlen : s.xlate host id off len .atomic = .ok segs') :
    s.maintWhere c host len = .ok (some id) := by
  simp only [State.maintWhere, hat, hx, hmaint, hlen, Bool.true_eq_false, if_false]

theorem State.sanitizeGo_of_right {segs segs' : List (Nat × Nat)} (hx : s.xlate host id 0 0 .atomic = .ok segs)
    (hmaint : s.maintSq c.sq = true) (hlen : s.xlate host id off 0 .atomic = .ok segs') (hctl : s.ctlRegion id = false) :
    s.sanitizeGo n c host = ((s.tqStage n .running).both
      [.progress id (some { phase := 1, sq := c.sq, pos := c.pos, d := c.d, next := 0 }),
        .region id { s.region id with state := .offline }] true none).1.settle := by
  simp only [State.sanitizeGo, hnone, State.maintWhere_of_right hat hx hmaint hlen, hctl, Bool.false_eq_true, if_false]

theorem State.formatGo_of_right {segs segs' : List (Nat × Nat)} (hx : s.xlate host id 0 0 .atomic = .ok segs)
    (hmaint : s.maintSq c.sq = true) (hlen : s.xlate host id off c.d.len .atomic = .ok segs')
    (hctl : s.ctlRegion id = false) {p : Progress}
    (hp : p = { phase := 0, sq := c.sq, pos := c.pos, d := c.d, next := c.d.dst % 2 ^ 47 / gib }) :
    s.formatGo n c host = ((s.tqStage n .running).bothNow [.progress id (some { p with
      access := s.accessIn id (formatStep p).1 (formatStep p).2 })]).settle := by
  subst hp
  simp only [State.formatGo, hnone, State.maintWhere_of_right hat hx hmaint hlen, hctl, Bool.false_eq_true, if_false]

end Maint

section Phases

variable {s : State} {r : Fin 4096} {p : Progress} {n : Nat} {c : Cmd} (hp : s.progress.get? r = some p)
  (hcmd : s.progressCmd p = some (n, c)) (hctl : s.ctlRegion r = false)
include hp hcmd hctl

theorem exec_sanitizePhaseComplete_of_drained (hphase : p.phase = 1) (hoff : (s.region r).state = .offline)
    (hbusy : s.regionBusy r = false) (hentropy : s.sec.entropyOk = true) :
    exec (.sanitizePhaseComplete r) s = .next (s.draw.1.both
      [.key r (((s.region r).epoch + 1) % 256) (Config.random s.draw.2 % 2 ^ 256),
       .region r { s.region r with epoch := ((s.region r).epoch + 1) % 256 },
       .progress r (some { p with phase := 2 })] true none).1 := by
  change execSanitizePhaseComplete r s = _
  simp only [execSanitizePhaseComplete, hp, hphase, hcmd, hctl, hoff, hbusy, hentropy, Nat.one_ne_zero, Nat.reduceLeDiff,
    Option.isNone_some, Bool.or_self, Bool.not_true, Bool.false_eq_true, if_false, if_true, State.epochAdvance,
    List.cons_append, List.nil_append]

theorem exec_sanitizePhaseComplete_of_unmap (hphase : p.phase = 2) (hold : s.oldHeld r = false) :
    exec (.sanitizePhaseComplete r) s = .next (s.unmapRegion r p).settle := by
  change execSanitizePhaseComplete r s = _
  simp only [execSanitizePhaseComplete, hp, hphase, hcmd, hctl, hold, Nat.reduceLeDiff, OfNat.ofNat_ne_zero,
    OfNat.ofNat_ne_one, Option.isNone_some, Bool.or_self, Bool.false_eq_true, if_false]

theorem exec_sanitizePhaseComplete_of_last (hphase : p.phase = 4) :
    exec (.sanitizePhaseComplete r) s =
      .next ((s.both [.region r { s.region r with state := .online }] true none).1.progressEnd r n c) := by
  change execSanitizePhaseComplete r s = _
  simp only [execSanitizePhaseComplete, State.scrubStep, hp, hphase, hcmd, hctl, Nat.reduceLeDiff, Nat.reduceEqDiff,
    OfNat.ofNat_ne_zero, false_and, Bool.false_eq_true, if_false, if_true]

/-- A step of a FORMAT whose accesses are done zeroes its part of the range; the last one ends the command. -/
theorem exec_formatStepComplete_of_quiet (hphase : p.phase = 0) (hfly : p.access.any s.flying = false) :
    exec (.formatStepComplete r) s =
      .next (if c.d.dst % 2 ^ 47 + c.d.len ≤ (p.next + 1) * gib then (s.bothNow
          [.zeroTiles (s.psaOf (s.region r) (formatStep p).1 / 4096) ((formatStep p).2 / 4096)]).progressEnd r n c
        else (s.bothNow [.zeroTiles (s.psaOf (s.region r) (formatStep p).1 / 4096) ((formatStep p).2 / 4096),
          .progress r (some { p with
            next := p.next + 1
            access := s.accessIn r (formatStep { p with next := p.next + 1 }).1
              (formatStep { p with next := p.next + 1 }).2 })]).settle) := by
  change execFormatStepComplete r s = _
  simp only [execFormatStepComplete, hp, hphase, hcmd, hctl, hfly, ne_eq, not_true_eq_false, Bool.false_eq_true, or_self, if_false]

end Phases

end Sys2Proof.Machine

namespace Sys2Proof.Proofs

open Sys2Proof Sys2Proof.Machine

theorem exec_tqPersistNotify_of_startable {s : State} {sq : Fin 4096} {pos n : Nat} {c : Cmd} {q : Sq}
    (h : s.startable sq pos 3 n c q) : exec (.tqPersistNotify sq pos) s = .next (s.notifyGo n c q.host) := by
  have hrun : (c.stage == .running && c.d.opcode == 3) = false := by rw [h.2.2.1]; rfl
  change execTqPersistNotify sq pos s = _
  simp only [execTqPersistNotify, h.1, hrun, Bool.false_eq_true, if_false, State.tqStart_of_startable h]

/-- Settles O34: a command that may start runs its opcode's own function, which the checks of its range let through. -/
theorem transferCommandsStart : Obligations.TransferCommandsStart := by
  intro s sq pos n c q
  refine ⟨fun h => ?_, fun h => ?_, fun h x hcq => ?_, fun h => ?_, fun rg h hsrc => ?_, fun rg h hdst => ?_, fun rg h hdst => ?_⟩
  · have hexec : exec (.tqCopy sq pos) s = .next (s.copyGo n c q.host) :=
      congrArg Host.Outcome.next (State.tqStart_of_startable h State.copyGo)
    rw [hexec]
    refine ⟨fun src dst hsrc hdst => ?_, fun e hsrc => ?_⟩
    · rw [State.copyGo_eq hsrc hdst]
      refine ⟨fun he2e => ?_, fun he2e => ?_⟩
      · rw [he2e, if_neg Bool.false_ne_true, State.tqRead_of_startable h]
      · rw [he2e, if_pos rfl]
    · rw [State.copyGo_of_badSource hsrc, State.tqRefuse]
  · have hexec : exec (.tqFill sq pos) s = .next (s.fillGo n c q.host) :=
      congrArg Host.Outcome.next (State.tqStart_of_startable h State.fillGo)
    rw [hexec]
    exact ⟨fun dst hdst => by rw [State.fillGo_eq hdst], fun e hdst _ => by rw [State.fillGo_of_bad hdst, State.tqRefuse]⟩
  · rw [exec_tqPersistNotify_of_startable h]
    refine ⟨fun segs hx hmsg hnote => ?_, fun e hx => by rw [State.notifyGo_of_bad hcq hx h.2.2.1]⟩
    rw [State.notifyGo_eq hcq hx, State.notePut_of_new h hmsg hnote]
    refine ⟨fun hwin => by rw [if_pos hwin], fun hwin p hp => ?_⟩
    rw [hwin, if_neg Bool.true_eq_false.mp, hp]
  · have hexec : exec (.tqCrcCheck sq pos) s = .next (s.crcGo n c q.host) :=
      congrArg Host.Outcome.next (State.tqStart_of_startable h State.crcGo)
    rw [hexec]
    exact ⟨fun src hsrc => by rw [State.crcGo_eq hsrc], fun e hsrc => by rw [State.crcGo_of_bad hsrc]⟩
  · have hexec : exec (.tqPrefetch sq pos) s = .next (s.prefetchGo n c q.host) :=
      congrArg Host.Outcome.next (State.tqStart_of_startable h State.prefetchGo)
    rw [hexec, State.prefetchGo_eq hsrc]
  · have hexec : exec (.tqPin sq pos) s = .next (s.pinGo n c q.host) :=
      congrArg Host.Outcome.next (State.tqStart_of_startable h State.pinGo)
    rw [hexec, State.pinGo_eq hdst]
    refine ⟨fun hpair => ?_, fun hpair => ?_⟩
    · simp only [hpair, Bool.false_eq_true, if_false]
    · simp only [hpair, if_true]
  · have hexec : exec (.tqUnpin sq pos) s = .next (s.unpinGo n c q.host) :=
      congrArg Host.Outcome.next (State.tqStart_of_startable h State.unpinGo)
    rw [hexec, State.unpinGo_eq hdst]

/-- The part of O35 on the start of SANITIZE and FORMAT. -/
theorem sanitizeAndFormat_start {s : State} {sq : Fin 4096} {pos n op : Nat} {c : Cmd} {q : Sq} {id off : Nat}
    {segs : List (Nat × Nat)} (h : s.startable sq pos op n c q) (hsq : c.sq = sq) (hat : apSplit c.d.dst = some (id, off))
    (hid : bitsOf c.d.dst 63 52 = id) :
    (∀ p, s.progress.get? id = some p → ownProgress p c = false →
      (op = 8 → exec (.tqSanitize sq pos) s = .next s) ∧ (op = 9 → exec (.tqFormat sq pos) s = .next s)) ∧
    (s.progress.get? id = none → s.xlate q.host id 0 0 .atomic = .ok segs →
      (q.maint = false → (op = 8 → exec (.tqSanitize sq pos) s = .next (s.tqOpen n c 3).settle) ∧
        (op = 9 → exec (.tqFormat sq pos) s = .next (s.tqOpen n c 3).settle)) ∧
      (q.maint = true → s.ctlRegion id = false →
        (∀ x, op = 8 → s.xlate q.host id off 0 .atomic = .ok x → exec (.tqSanitize sq pos) s =
          .next ((s.tqStage n .running).both [.progress id (some { phase := 1, sq := sq, pos := c.pos, d := c.d, next := 0 }),
            .region id { s.region id with state := .offline }] true none).1.settle) ∧
        (∀ x p, op = 9 → s.xlate q.host id off c.d.len .atomic = .ok x →
          p = ({ phase := 0, sq := sq, pos := c.pos, d := c.d, next := c.d.dst % 2 ^ 47 / gib } : Progress) →
          exec (.tqFormat sq pos) s = .next ((s.tqStage n .running).bothNow [.progress id (some { p with
            access := s.accessIn id (formatStep p).1 (formatStep p).2 })]).settle))) := by
  have hsan : op = 8 → exec (.tqSanitize sq pos) s = .next (s.sanitizeGo n c q.host) := fun hop =>
    congrArg Host.Outcome.next (State.tqStart_of_startable (hop ▸ h) State.sanitizeGo)
  have hfmt : op = 9 → exec (.tqFormat sq pos) s = .next (s.formatGo n c q.host) := fun hop =>
    congrArg Host.Outcome.next (State.tqStart_of_startable (hop ▸ h) State.formatGo)
  have hmaint : s.maintSq c.sq = q.maint := by simp only [State.maintSq, h.queue]
  subst hid
  refine ⟨fun p hp hown => ?_, fun hnone hx => ⟨fun hright => ?_, fun hright hctl =>
    ⟨fun x hop hlen => ?_, fun x p hop hlen hp => ?_⟩⟩⟩
  · obtain ⟨h1, h2⟩ := State.maintGo_of_other (n := n) (host := q.host) hp hown
    exact ⟨fun hop => by rw [hsan hop, h1], fun hop => by rw [hfmt hop, h2]⟩
  · obtain ⟨h1, h2⟩ := State.maintGo_of_noRight (n := n) hnone hat hx (hmaint.trans hright)
    exact ⟨fun hop => by rw [hsan hop, h1], fun hop => by rw [hfmt hop, h2]⟩
  · rw [hsan hop, State.sanitizeGo_of_right hnone hat hx (hmaint.trans hright) hlen hctl, hsq]
  · rw [hfmt hop, State.formatGo_of_right hnone hat hx (hmaint.trans hright) hlen hctl (p := p) (by rw [hp, hsq])]

/-- Settles O35: SANITIZE and FORMAT start from a MAINT queue, and each phase is one branch of its event. -/
theorem sanitizeAndFormat : Obligations.SanitizeAndFormat := by
  refine ⟨fun s sq pos n op c q id off segs h hsq hat hid => sanitizeAndFormat_start h hsq hat hid,
    fun s r p n c hp hcmd hctl =>
      ⟨exec_sanitizePhaseComplete_of_drained hp hcmd hctl, exec_sanitizePhaseComplete_of_unmap hp hcmd hctl,
        exec_sanitizePhaseComplete_of_last hp hcmd hctl, fun hphase hfly => ?_⟩, ?_, ?_⟩
  · have hexec := exec_formatStepComplete_of_quiet hp hcmd hctl hphase hfly
    exact ⟨fun hlast => by rw [hexec, if_pos hlast], fun hmore => by rw [hexec, if_neg (by omega)]⟩
  · intro s r p hp hphase herased hnone
    change execSanitizePhaseComplete r s = _
    simp only [execSanitizePhaseComplete, State.scrubStep, hp, hphase, herased, hnone, Nat.reduceLeDiff, OfNat.ofNat_ne_zero,
      Bool.true_eq_false, and_false, if_false, if_true]
  · intro s r p q hp hcmd hq hhere
    change execSanitizeFormatResume r s = _
    simp only [execSanitizeFormatResume, hp, hcmd, hq, hhere, if_true]

end Sys2Proof.Proofs
end

section
/-! SUPPORT. Packets on a QP: what the headroom, the counter, the buffer and the tag decide (R128–R136, R148–R151). -/

namespace Sys2Proof.Machine

theorem State.modPort_congr {s : State} {n : Nat} {f g : NetPort → NetPort} (h : f (s.port n) = g (s.port n)) :
    s.modPort n f = s.modPort n g := by
  simp only [State.modPort, Tbl.upd]
  exact congrArg (fun p => { s with ports := s.ports.set n p }) h

/-! ### A packet's way to its QP -/

/-- With its port's headroom empty, a packet that R128 keeps comes to its QP, and goes into the headroom if it finds no buffer. -/
theorem exec_rocePacketReceive_of_empty {s : State} {h : PktHdr} {v : Verb} (hicrc : h.icrcOk = true)
    (henc : ∀ q, s.qp? h.qpn = some q → qpEncrypts q = true → h.version = 1) (hhead : (s.port h.port).headroom = [])
    (hce : ∀ q, s.qp? h.qpn = some q → q.state = .established → h.ce = false) :
    exec (.rocePacketReceive h v) s =
      .next (if (s.packetAt h v).2 then (s.packetAt h v).1 else (s.packetAt h v).1.headPut h v) := by
  have hnote : s.ceNote h = s := by
    rw [State.ceNote]
    split
    next q hq =>
      refine if_neg fun hmark => ?_
      obtain ⟨hmarked, hest⟩ := Bool.and_eq_true_iff.1 hmark
      rw [hce q hq (beq_iff_eq.1 hest)] at hmarked
      cases hmarked
    next => rfl
  have hempty : ¬((s.port h.port).headroom.isEmpty = false) := by simp [hhead]
  change execRocePacketReceive h v s = _
  rw [execRocePacketReceive]
  dsimp only
  rw [if_neg, State.headGo_of_empty hhead, hnote, if_neg hempty]
  cases hq : s.qp? h.qpn with
  | none => simp [hicrc]
  | some q =>
    cases hsec : qpEncrypts q with
    | false => simp [hicrc, hsec]
    | true => simp [hicrc, hsec, henc q hq hsec]

/-- A packet whose counter is not above the last one is counted as a replay. -/
theorem State.packetIn_of_replay {s : State} {h : PktHdr} {v : Verb} {q : Qp} {c : Nat} (hsec : s.bit Reg.secCtl 0 = true)
    (hctr : q.ctrRx = some c) (hle : h.counter ≤ c) : s.packetIn h v q = (s.count (Reg.rdxCount + 8), true) := by
  rw [State.packetIn, if_neg (by simp [hsec]), hctr]
  exact if_pos (by simpa using hle)

/-- A packet of a new counter, under keys that are cached, takes a buffer; what its tag decides comes after that. -/
theorem State.packetIn_of_new {s : State} {h : PktHdr} {v : Verb} {q : Qp} (hsec : s.bit Reg.secCtl 0 = true)
    (hctr : ∀ c, q.ctrRx = some c → c < h.counter) (hkeys : q.keyCached = true) :
    (s.takeBuf h.bytes = none → s.packetIn h v q = (s.warnCnp h.qpn q (poolFor h.bytes), false)) ∧
    ∀ t b, s.takeBuf h.bytes = some (t, b) →
      (h.tagOk = false →
        s.packetIn h v q = ((((t.warnCnp h.qpn q b.1).zeroBuf b).freeBuf b).authFail h.qpn, true)) ∧
      (h.tagOk = true → s.packetIn h v q = (((((t.warnCnp h.qpn q b.1).freeBuf b).modQp h.qpn fun x => { x with
        ctrRx := some h.counter }).ctrLimit h.qpn).verbDo h.qpn h.psn v, true)) := by
  rw [State.packetIn, if_neg (by simp [hsec]), if_neg, hkeys, if_pos rfl]
  · refine ⟨fun htake => ?_, fun t b htake => ⟨fun htag => ?_, fun htag => ?_⟩⟩
    · rw [htake]
    · rw [htake]
      exact if_pos htag
    · rw [htake]
      exact if_neg (by simp [htag])
  · cases hq : q.ctrRx with
    | none => exact Bool.false_ne_true
    | some c => simpa using hctr c hq

/-- Below its warn level a pool asks for no congestion notification. -/
theorem State.warnCnp_of_low {s : State} {pool : Nat} (h : (s.pool pool).level = 0) (qpn : Nat) (q : Qp) :
    s.warnCnp qpn q pool = s := by
  rw [State.warnCnp]
  exact if_neg (by simp [h])

/-- Taking a buffer leaves the contexts of the QPs. -/
theorem State.rdmaView_takeBuf {s t : State} {size : Nat} {b : Nat × Nat} (h : s.takeBuf size = some (t, b)) :
    t.rdmaView = s.rdmaView := by
  unfold State.takeBuf at h
  dsimp only at h
  split_ifs at h
  split at h
  all_goals
    injection h with h
    injection h with ht
    rw [← ht, State.rdmaView_poolNote]

/-- A QP whose counters are below the limit stays as it is. -/
theorem State.ctrLimit_of_low {s : State} {qpn : Nat} {q : Qp} (hq : s.qp? qpn = some q) (htx : q.ctrTx < 2 ^ 48)
    (hrx : ∀ c, q.ctrRx = some c → c < 2 ^ 48) : s.ctrLimit qpn = s := by
  rw [State.ctrLimit, hq]
  refine if_neg ?_
  cases hc : q.ctrRx with
  | none =>
    simp only [Bool.or_false, Bool.and_eq_true, decide_eq_true_eq, not_and]
    exact fun _ => Nat.not_le.2 htx
  | some c =>
    simp only [Bool.or_eq_true, Bool.and_eq_true, decide_eq_true_eq, not_and, not_or]
    exact fun _ => ⟨Nat.not_le.2 htx, Nat.not_le.2 (hrx c hc)⟩

/-- A QP whose packets are encrypted and one of whose counters is at the limit goes to ERROR. -/
theorem State.ctrLimit_of_high {s : State} {qpn : Nat} {q : Qp} (hq : s.qp? qpn = some q) (henc : qpEncrypts q = true)
    (hhigh : 2 ^ 48 ≤ q.ctrTx ∨ ∃ c, q.ctrRx = some c ∧ 2 ^ 48 ≤ c) : s.ctrLimit qpn = s.qpEnter qpn .error := by
  rw [State.ctrLimit, hq]
  refine if_pos ?_
  rcases hhigh with htx | ⟨c, hc, hrx⟩
  · simp only [henc, decide_eq_true htx, Bool.true_or, Bool.true_and]
  · simp only [henc, hc, decide_eq_true hrx, Bool.or_true, Bool.true_and]

theorem qpEncrypts_of_established {q : Qp} (h : q.state = .established) : qpEncrypts q = true := by rw [qpEncrypts, h]

/-- A packet that finds no buffer waits in its port's headroom, on a priority that pauses and with room. -/
theorem State.headPut_of_empty {s : State} {h : PktHdr} {v : Verb} (hhead : (s.port h.port).headroom = [])
    (hprio : s.bit Reg.netDcb (rxPrio h) = true) (hbytes : h.bytes ≤ 196608) :
    s.headPut h v = s.modPort h.port fun p => { p with headroom := [(h, v)] } := by
  have hroom : (((s.port h.port).headroom.map fun e => e.1.bytes).sum + h.bytes) ≤ 196608 := by
    rw [hhead]
    simpa using hbytes
  rw [State.headPut, if_pos (by rw [hprio, decide_eq_true hroom]; rfl)]
  exact State.modPort_congr (by rw [hhead]; rfl)

end Sys2Proof.Machine

namespace Sys2Proof.Proofs

open Sys2Proof Sys2Proof.Machine

theorem exec_rocePacketReceive_of_staleOrQuarantine {s : State} {h : PktHdr} {v : Verb} (hicrc : h.icrcOk = true)
    (hhead : (s.port h.port).headroom = [])
    (hstale : s.genOf (qpIdx h.qpn) ≠ qpGen h.qpn ∨ ∃ q, s.qp? h.qpn = some q ∧ q.state = .quarantine) :
    exec (.rocePacketReceive h v) s = .next (s.count Reg.rdxCount) := by
  rcases hstale with hgen | ⟨q, hq, hstate⟩
  · exact exec_rocePacketReceive_of_stale v hicrc hhead hgen
  · have hnot : ∀ x, s.qp? h.qpn = some x → x.state = .quarantine := fun x hx => by
      rw [hq] at hx
      injection hx with hx
      exact hx ▸ hstate
    have hat : s.packetAt h v = (s.count Reg.rdxCount, true) := by simp only [State.packetAt, hq, hstate]
    rw [exec_rocePacketReceive_of_empty hicrc (fun x hx henc => ?_) hhead (fun x hx hest => ?_), hat]
    · rfl
    · rw [qpEncrypts, hnot x hx] at henc
      cases henc
    · rw [hnot x hx] at hest
      cases hest

/-- The part of O27 on a packet for an ESTABLISHED QP. -/
theorem exec_rocePacketReceive_of_established {s : State} {h : PktHdr} {v : Verb} {q : Qp} (hicrc : h.icrcOk = true)
    (hhead : (s.port h.port).headroom = []) (hq : s.qp? h.qpn = some q) (hstate : q.state = .established)
    (hsec : s.bit Reg.secCtl 0 = true) (hver : h.version = 1) (hce : h.ce = false) :
    (∀ c, q.ctrRx = some c → h.counter ≤ c → exec (.rocePacketReceive h v) s = .next (s.count (Reg.rdxCount + 8))) ∧
      (q.keyCached = true → (∀ c, q.ctrRx = some c → c < h.counter) →
        (∀ (t : State) (b : Nat × Nat), s.takeBuf h.bytes = some (t, b) → (t.pool b.1).level = 0 →
          (h.tagOk = false → exec (.rocePacketReceive h v) s = .next (((t.zeroBuf b).freeBuf b).authFail h.qpn)) ∧
          (h.tagOk = true → h.counter < 2 ^ 48 → q.ctrTx < 2 ^ 48 → exec (.rocePacketReceive h v) s =
            .next (((t.freeBuf b).modQp h.qpn fun x => { x with ctrRx := some h.counter }).verbDo h.qpn h.psn v))) ∧
        (s.takeBuf h.bytes = none → (s.pool (poolFor h.bytes)).level = 0 → s.bit Reg.netDcb (rxPrio h) = true →
          h.bytes ≤ 196608 → exec (.rocePacketReceive h v) s =
            .next (s.modPort h.port fun p => { p with headroom := [(h, v)] }))) := by
  have hat : s.packetAt h v = s.packetIn h v q := by simp only [State.packetAt, hq, hstate]
  rw [exec_rocePacketReceive_of_empty hicrc (fun _ _ _ => hver) hhead (fun _ _ _ => hce), hat]
  refine ⟨fun c hc hle => ?_, fun hkeys hctr => ⟨fun t b htake hlevel => ⟨fun htag => ?_, fun htag hlow htx => ?_⟩,
    fun htake hlevel hprio hbytes => ?_⟩⟩
  · rw [State.packetIn_of_replay hsec hc hle]
    rfl
  · rw [((State.packetIn_of_new hsec hctr hkeys).2 t b htake).1 htag, State.warnCnp_of_low hlevel]
    rfl
  · have hq' : ((t.freeBuf b).modQp h.qpn fun x => { x with ctrRx := some h.counter }).qp? h.qpn =
        some { q with ctrRx := some h.counter } := by
      rw [State.qp?_modQp, State.qp?_of_rdmaView h.qpn (State.rdmaView_freeBuf t b),
        State.qp?_of_rdmaView h.qpn (State.rdmaView_takeBuf htake), hq]
      rfl
    have hlim := State.ctrLimit_of_low hq' htx (fun c hc => by injection hc with hc; exact hc ▸ hlow)
    rw [((State.packetIn_of_new hsec hctr hkeys).2 t b htake).2 htag, State.warnCnp_of_low hlevel, hlim]
    rfl
  · rw [(State.packetIn_of_new hsec hctr hkeys).1 htake, State.warnCnp_of_low hlevel, ← State.headPut_of_empty hhead hprio hbytes]
    rfl

/-- Settles O27: a packet is asked for its ICRC, generation, counter, buffer and tag in this order. -/
theorem qpPacketsAndRates : Obligations.QpPacketsAndRates := by
  refine ⟨fun s qpn q hq => ⟨fun hlive hfree => ?_, ?_⟩, fun s h v hicrc => ?_,
    fun s h v hicrc hhead => ⟨exec_rocePacketReceive_of_staleOrQuarantine hicrc hhead,
      fun q hq hstate hsec hver hce => exec_rocePacketReceive_of_established hicrc hhead hq hstate hsec hver hce⟩,
    fun s qpn q hq hstate => ⟨fun hhigh => ?_, fun htx hrx => ?_⟩⟩
  · change execCnpReceived qpn s = _
    rw [execCnpReceived, State.withAny_of_qp hq hlive, if_pos hfree]
  · change execRateIncreaseTick qpn s = _
    simp only [execRateIncreaseTick, State.qpWhen, hq, if_true, State.lineRate]
  · change execRocePacketReceive h v s = _
    simp only [execRocePacketReceive, hicrc, decide_true, Bool.true_or, if_true]
  · change execSendCounterLimit qpn s = _
    rw [execSendCounterLimit, State.ctrLimit_of_high hq (qpEncrypts_of_established hstate) hhigh]
  · change execSendCounterLimit qpn s = _
    rw [execSendCounterLimit, State.ctrLimit_of_low hq htx hrx]

end Sys2Proof.Proofs
end

section
/-! SUPPORT. Connection management of a QP and what its states leave (R138–R143, R154, R155). -/

namespace Sys2Proof.Machine

theorem State.cmTake_of_halted {s : State} (h : s.fw.halted = true) (i : Instr) :
    s.cmTake i = { s with rdx := { s.rdx with heldCm := s.rdx.heldCm ++ [i] } } := if_pos h

theorem State.cmTake_of_running {s : State} (h : s.fw.halted = false) (i : Instr) : s.cmTake i = s.cmServe i :=
  if_neg (by simp [h])

/-- A REQ for one of the three services is asked for R139's checks first. -/
theorem State.cmReqDo_of_fails {s : State} {r : ConnReq} (hlow : s.svcBase ≤ r.serviceId) (hhigh : r.serviceId ≤ s.svcBase + 2)
    {reason retry : Nat} (hfail : s.reqFails r = some (reason, retry)) :
    s.cmReqDo r = s.emit (.cm 2 r.hostQpn [28, reason, retry]) := by
  rw [State.cmReqDo, if_neg (by omega), hfail]

theorem mtuOf_of_small {n : Nat} (h : n < 1024) : mtuOf n = none := by
  rw [mtuOf, if_neg (by omega), if_neg (by omega), if_neg (by omega)]

theorem mtuOf_of_le {n : Nat} (h : 1024 ≤ n) :
    mtuOf n = some (if 4096 ≤ n then 4096 else if 2048 ≤ n then 2048 else 1024) := by
  rw [mtuOf]
  split_ifs <;> rfl

/-- A REQ that passes the checks makes a QP that is CONNECTING at the index it takes, and is answered with a REP. -/
theorem State.cmReqDo_of_passes {s t : State} {r : ConnReq} {idx : Nat} (hlow : s.svcBase ≤ r.serviceId)
    (hhigh : r.serviceId ≤ s.svcBase + 2) (hpass : s.reqFails r = none) (htake : s.takeQp = some (t, idx))
    (hmtu : 1024 ≤ r.pmtu) :
    ∃ q : Qp, (s.cmReqDo r).rdx.qps.get? idx = some q ∧ q.state = .connecting ∧ q.host = r.host ∧
      q.service = r.service ∧ q.qos = r.qos ∧ q.psnRx = r.psn % 2 ^ 24 ∧ q.rate = s.lineRate ∧
      q.pmtu = (if 4096 ≤ r.pmtu then 4096 else if 2048 ≤ r.pmtu then 2048 else 1024) ∧ q.port = r.port ∧ q.gid = r.gid ∧
      (s.cmReqDo r).out = .cm 1 ((s.cmReqDo r).qpnOf idx)
        [q.psnTx, q.pmtu, 64, s.fld Reg.rdxReqRetry 7 5, s.fld Reg.rdxReqRetry 10 8] :: t.out := by
  have hexec : ∃ q : Qp, s.cmReqDo r = (let u : State := { t.draw.1 with rdx := { t.draw.1.rdx with qps := t.draw.1.rdx.qps.set idx q } }
      u.emit (.cm 1 (u.qpnOf idx) [q.psnTx, q.pmtu, 64, s.fld Reg.rdxReqRetry 7 5, s.fld Reg.rdxReqRetry 10 8])) ∧
      q.state = .connecting ∧ q.host = r.host ∧ q.service = r.service ∧ q.qos = r.qos ∧ q.psnRx = r.psn % 2 ^ 24 ∧
      q.rate = s.lineRate ∧ q.pmtu = (if 4096 ≤ r.pmtu then 4096 else if 2048 ≤ r.pmtu then 2048 else 1024) ∧
      q.port = r.port ∧ q.gid = r.gid := by
    rw [State.cmReqDo, if_neg (by omega), hpass, mtuOf_of_le hmtu, htake]
    exact ⟨_, rfl, rfl, rfl, rfl, rfl, rfl, rfl, rfl, rfl, rfl⟩
  obtain ⟨q, hdo, hstate, hhost, hserv, hqos, hpsn, hrate, hpmtu, hport, hgid⟩ := hexec
  refine ⟨q, ?_, hstate, hhost, hserv, hqos, hpsn, hrate, hpmtu, hport, hgid, ?_⟩
  · rw [hdo]
    exact (Tbl.get?_set _ _ _ _).trans (if_pos rfl)
  · rw [hdo]
    rfl

/-- Taking an index puts nothing out. -/
theorem State.out_takeQp {s t : State} {idx : Nat} (h : s.takeQp = some (t, idx)) : t.out = s.out := by
  unfold State.takeQp at h
  split_ifs at h
  · injection h with h
    injection h with ht
    rw [← ht]
  · split at h
    · injection h with h
      injection h with ht
      rw [← ht]
    · cases h

/-- A QP that enters ERROR or QUARANTINE holds nothing of its requests, and no key reply waits for it. -/
theorem State.qpEnter_clears {s : State} {qpn : Nat} {q : Qp} (st : QpState) (hq : s.qp? qpn = some q) :
    (∃ x, (s.qpEnter qpn st).qp? qpn = some x ∧ x.state = st ∧ x.resps = [] ∧ x.flushes = [] ∧
      x.keying = none ∧ x.part = none) ∧ ∀ k ∈ (s.qpEnter qpn st).rdx.replies, k.qpn ≠ qpn := by
  set t := s.modQp qpn fun q => { q with state := st, resps := [], flushes := [], keying := none, part := none } with ht
  set u : State := { t with rdx := { t.rdx with replies := t.rdx.replies.filter fun k => k.qpn != qpn } } with hu
  have henter : s.qpEnter qpn st = u.abortReqs (onQp qpn) := rfl
  have hrdx : (u.abortReqs (onQp qpn)).rdx = u.rdx := congrArg Prod.fst (State.rdmaView_abortReqs u _)
  have hut : u.qp? qpn = t.qp? qpn := rfl
  constructor
  · refine ⟨{ q with state := st, resps := [], flushes := [], keying := none, part := none }, ?_, rfl, rfl, rfl, rfl, rfl⟩
    rw [henter, State.qp?_congr qpn hrdx, hut, ht, State.qp?_modQp, hq]
    rfl
  · intro k hk
    rw [henter, hrdx, hu] at hk
    simpa using (List.mem_filter.1 hk).2

section Transitions

variable {s : State} {qpn : Nat} {q : Qp} (hq : s.qp? qpn = some q)
include hq

theorem State.qpWhen_of_holds {p : Qp → Bool} (hp : p q = true) (f : State → Qp → State) : s.qpWhen qpn p f = f s q := by
  rw [State.qpWhen, hq]
  exact if_pos hp

theorem exec_connecting (hstate : q.state = .connecting) :
    exec (.cmRtu qpn) s = .next (s.modQp qpn fun q => { q with state := .keying }) ∧
    exec (.cmRej qpn) s = .next (s.qpEnter qpn .quarantine) ∧
    exec (.cmTimeout qpn) s = .next (s.qpEnter qpn .quarantine) := by
  have hp : qpIs .connecting q = true := by rw [qpIs, hstate]; rfl
  exact ⟨congrArg Host.Outcome.next (State.qpWhen_of_holds hq hp _), congrArg Host.Outcome.next (State.qpWhen_of_holds hq hp _),
    congrArg Host.Outcome.next (State.qpWhen_of_holds hq hp _)⟩

theorem exec_cmDreq_of_established (hstate : q.state = .established) :
    exec (.cmDreq qpn false) s = .next (s.modQp qpn fun x => { x with state := .draining, asked := false }).drainPoll ∧
    exec (.cmDreq qpn true) s =
      .next ((s.emit (.cm 3 qpn [])).modQp qpn fun x => { x with state := .draining, asked := true }).drainPoll := by
  constructor
  · change execCmDreq qpn false s = _
    simp only [execCmDreq, hq, hstate, Bool.false_eq_true, if_false]
  · change execCmDreq qpn true s = _
    simp only [execCmDreq, hq, hstate, if_true]

theorem exec_draining (hstate : q.state = .draining) :
    (q.resps = [] → exec (.cmDrep qpn) s = .next (s.qpEnter qpn .quarantine)) ∧
    exec (.drainingTimeout qpn) s = .next (s.qpEnter qpn .quarantine).settle := by
  have hp : qpIs .draining q = true := by rw [qpIs, hstate]; rfl
  refine ⟨fun hresps => ?_, congrArg Host.Outcome.next (State.qpWhen_of_holds hq hp _)⟩
  have hdone : (qpIs .error q || (qpIs .draining q && q.resps.isEmpty)) = true := by rw [hp, hresps]; simp
  exact congrArg Host.Outcome.next (State.qpWhen_of_holds hq (p := fun q => qpIs .error q || (qpIs .draining q && q.resps.isEmpty))
    hdone _)

theorem exec_error (hstate : q.state = .error) :
    exec (.cmDreq qpn false) s = .next ((s.qpEnter qpn .quarantine).emit (.cm 4 qpn [])) ∧
    exec (.cmDreq qpn true) s = .next (s.emit (.cm 3 qpn [])) ∧
    exec (.cmDrep qpn) s = .next (s.qpEnter qpn .quarantine) ∧
    exec (.errorTimeout qpn) s = .next (s.qpEnter qpn .quarantine) := by
  have hp : qpIs .error q = true := by rw [qpIs, hstate]; rfl
  have hdone : (qpIs .error q || (qpIs .draining q && q.resps.isEmpty)) = true := by rw [hp, Bool.true_or]
  refine ⟨?_, ?_, congrArg Host.Outcome.next (State.qpWhen_of_holds hq
    (p := fun q => qpIs .error q || (qpIs .draining q && q.resps.isEmpty)) hdone _),
    congrArg Host.Outcome.next (State.qpWhen_of_holds hq hp _)⟩
  · change execCmDreq qpn false s = _
    simp only [execCmDreq, hq, hstate, Bool.false_eq_true, if_false]
  · change execCmDreq qpn true s = _
    simp only [execCmDreq, hq, hstate, if_true]

end Transitions

end Sys2Proof.Machine

namespace Sys2Proof.Proofs

open Sys2Proof Sys2Proof.Machine

/-- Settles O28: each event of connection management is asked for in one state of the QP, and entering a state clears what the
QP held. -/
theorem qpStateTransitions : Obligations.QpStateTransitions := by
  refine ⟨fun s r hhalt => congrArg Host.Outcome.next (State.cmTake_of_halted hhalt _), fun s r hrun hserv => ?_,
    fun s r hrun hlow hhigh => ?_, fun s qpn => rfl,
    fun s qpn q hq => ⟨exec_connecting hq, exec_cmDreq_of_established hq, exec_draining hq, exec_error hq,
      fun st => State.qpEnter_clears st hq⟩⟩
  · have hexec : exec (.cmReq r) s = .next (s.cmReqDo r) := congrArg Host.Outcome.next (State.cmTake_of_running hrun _)
    rw [hexec, State.cmReqDo, if_pos hserv]
  · have hexec : exec (.cmReq r) s = .next (s.cmReqDo r) := congrArg Host.Outcome.next (State.cmTake_of_running hrun _)
    refine ⟨fun reason retry hfail => by rw [hexec, State.cmReqDo_of_fails hlow hhigh hfail],
      fun t idx mtu hpass htake => ⟨fun hsmall => ?_, fun hmtu hbig => ⟨_, hexec, ?_⟩⟩⟩
    · rw [hexec, State.cmReqDo, if_neg (by omega), hpass, mtuOf_of_small hsmall]
    · obtain ⟨q, hget, hstate, hhost, hserv, hqos, hpsn, hrate, hpmtu, hport, hgid, hout⟩ :=
        State.cmReqDo_of_passes hlow hhigh hpass htake hbig
      have hmtu' : q.pmtu = mtu := hpmtu.trans hmtu.symm
      exact ⟨q, hget, hstate, hhost, hserv, hqos, hpsn, hrate, hmtu', hport, hgid,
        by rw [hout, hmtu', State.out_takeQp htake]⟩

end Sys2Proof.Proofs
end

section
/-! SUPPORT. Key messages of a QP in KEYING: what a message sent leaves, and the key cache (R145–R150, R173). -/

namespace Sys2Proof.Machine

theorem State.qp?_of_get? {s t : State} {qpn : Nat} {q q' : Qp} (hq : s.qp? qpn = some q)
    (hgens : t.rdx.gens = s.rdx.gens) (hget : t.rdx.qps.get? (qpIdx qpn) = some q') : t.qp? qpn = some q' := by
  have hgen : s.genOf (qpIdx qpn) = qpGen qpn := by
    by_contra hne
    rw [State.qp?_of_stale hne] at hq
    cases hq
  have hgen' : t.genOf (qpIdx qpn) = qpGen qpn := by rw [← hgen, State.genOf, State.genOf, hgens]
  rw [State.qp?, if_pos hgen', hget]

/-! ### Sending a key message -/

/-- A key message of a QP in KEYING that goes out at once. -/
theorem State.wcmSend_of_keying {s : State} {qpn : Nat} {q : Qp} (hq : s.qp? qpn = some q) (hstate : q.state = .keying)
    (hnow : s.sendsNow q) (type tag status len : Nat) (fields : List (Nat × Nat × Nat)) :
    ∃ k, s.wcmSend qpn type tag status len fields =
      (s.modQp qpn fun q => { q with psnTx := (q.psnTx + 1) % 2 ^ 24 }).emit (.rdmaWcm k qpn type tag status len fields) := by
  set u := s.modQp qpn fun q => { q with psnTx := (q.psnTx + 1) % 2 ^ 24 } with hu
  set x : Qp := { q with psnTx := (q.psnTx + 1) % 2 ^ 24 } with hx
  have hux : u.qp? qpn = some x := by rw [hu, State.qp?_modQp, hq]; rfl
  have hget : u.rdx.qps.get? (qpn % 2 ^ 17) = some x := State.get?_of_qp? hux
  have henc : qpEncrypts x = false := by rw [qpEncrypts, show x.state = .keying from hstate]
  have hunow : u.sendsNow x := hnow
  have hsend : ∀ o, u.sendPkt qpn len o = u.emit (o (u.pktOf qpn x (u.prioOf x) false)) := fun o => by
    simp only [State.sendPkt, hget, henc, Bool.false_and, Bool.false_eq_true, if_false]
    exact State.txPkt_of_sendsNow _ _ hunow
  have hlim : ∀ o, (u.emit o).ctrLimit qpn = u.emit o := fun o => by
    rw [State.ctrLimit, show (u.emit o).qp? qpn = some x from hux]
    exact if_neg (by simp [henc])
  exact ⟨_, by rw [State.wcmSend, hsend, hlim]⟩

/-- A key message of an ESTABLISHED QP that goes out at once carries its counter, which goes one higher. -/
theorem State.wcmSend_of_established {s : State} {qpn : Nat} {q : Qp} (hq : s.qp? qpn = some q)
    (hstate : q.state = .established) (hnow : s.sendsNow q) (htx : q.ctrTx + 1 < 2 ^ 48)
    (hrx : ∀ c, q.ctrRx = some c → c < 2 ^ 48) (type tag status len : Nat) (fields : List (Nat × Nat × Nat)) :
    ∃ k : Pkt, k.counter = some q.ctrTx ∧ s.wcmSend qpn type tag status len fields =
      ((s.modQp qpn fun q => { q with psnTx := (q.psnTx + 1) % 2 ^ 24 }).modQp qpn fun x => { x with
        ctrTx := x.ctrTx + 1 }).emit (.rdmaWcm k qpn type tag status len fields) := by
  set u := s.modQp qpn fun q => { q with psnTx := (q.psnTx + 1) % 2 ^ 24 } with hu
  set x : Qp := { q with psnTx := (q.psnTx + 1) % 2 ^ 24 } with hx
  have hux : u.qp? qpn = some x := by rw [hu, State.qp?_modQp, hq]; rfl
  have hunow : u.sendsNow x := hnow
  have hlim : ∀ o, ((u.modQp qpn fun x => { x with ctrTx := x.ctrTx + 1 }).emit o).ctrLimit qpn =
      (u.modQp qpn fun x => { x with ctrTx := x.ctrTx + 1 }).emit o := fun o =>
    State.ctrLimit_of_low (q := { x with ctrTx := x.ctrTx + 1 })
      (show (u.modQp qpn fun x => { x with ctrTx := x.ctrTx + 1 }).qp? qpn = _ by rw [State.qp?_modQp, hux]; rfl) htx hrx
  refine ⟨u.pktOf qpn x (u.prioOf x) true, rfl, ?_⟩
  rw [State.wcmSend, State.sendPkt_of_sendsNow len _ (State.get?_of_qp? hux) hstate hunow, hlim]

/-! ### The key cache -/

/-- What the key cache leaves. -/
def State.uncached (s : State) : State := { s with rdx := { s.rdx with qps := [] }, fresh := 0 }

/-- A QP whose keys are put into the cache has them there; beside the marks of the contexts nothing changes. -/
theorem State.cacheKey_leaves (s : State) (idx : Nat) : (s.cacheKey idx).uncached = s.uncached := by
  unfold State.cacheKey
  dsimp only
  split_ifs <;> rfl

theorem State.get?_cacheKey {s : State} {idx : Nat} {q : Qp} (h : s.rdx.qps.get? idx = some q) :
    (s.cacheKey idx).rdx.qps.get? idx = some { q with keyCached := true } := by
  have hdrop : ∀ i, ∃ b, (s.rdx.qps.modify i fun q => { q with keyCached := false }).get? idx =
      some { q with keyCached := b } := fun i => by
    by_cases hi : idx = i
    · exact ⟨false, by rw [← hi, Tbl.get?_modify, h]; rfl⟩
    · exact ⟨q.keyCached, by rw [Tbl.get?_modify_ne _ _ hi, h]⟩
  unfold State.cacheKey
  dsimp only
  split_ifs
  · exact (Tbl.get?_modify _ _ _).trans (congrArg (Option.map fun q : Qp => { q with keyCached := true }) h)
  · obtain ⟨b, hb⟩ := hdrop ((s.rdx.qps.filterV fun q => q.keyCached).keys.getD
      (Config.choice s.draw.2 % (s.rdx.qps.filterV fun q => q.keyCached).keys.length) 0)
    exact (Tbl.get?_modify _ _ _).trans (congrArg (Option.map fun q : Qp => { q with keyCached := true }) hb)

/-- Freeing a mailbox leaves the QPs, the leases and the outputs. -/
theorem State.mbxReset_leaves (k : Nat) (s : State) :
    (s.mbxReset k).rdx = s.rdx ∧ (s.mbxReset k).leases = s.leases ∧ (s.mbxReset k).out = s.out := by
  cases h : (s.mb k).state <;> simp only [State.mbxReset, h, and_self]

/-! ### Key messages in KEYING -/

section Keying

variable {s : State} {qpn : Nat} {q : Qp} (hq : s.qp? qpn = some q) (hstate : q.state = .keying)
include hq hstate

theorem State.withQp_of_keying (f : State → Qp → State) : s.withQp qpn f = f s q := by
  have henc : qpEncrypts q = false := by rw [qpEncrypts, hstate]
  rw [State.withQp, State.withAny_of_qp hq (by rw [hstate]; decide), henc]
  rfl

omit hstate in
/-- A failure of keying takes the QP to ERROR and sets KEYING_FAIL. -/
theorem State.keyFail_fails : (∃ x, (s.keyFail qpn).qp? qpn = some x ∧ x.state = .error) ∧
    (s.keyFail qpn).bit Reg.rdxEvent 1 = true := by
  have hrdx : (s.keyFail qpn).rdx = (s.qpEnter qpn .error).rdx :=
    congrArg Prod.fst (State.rdmaView_flagRecord ((s.qpEnter qpn .error).err1 6 .contained) Reg.rdxEvent 1 0x0601 (qpIdx qpn) 0)
  constructor
  · obtain ⟨y, hy, hstate⟩ := State.qp?_qpEnter .error hq
    exact ⟨y, (State.qp?_congr qpn hrdx).trans hy, hstate⟩
  · have hreg : (s.keyFail qpn).reg Reg.rdxEvent = (((s.qpEnter qpn .error).err1 6 .contained).flag Reg.rdxEvent 1).reg Reg.rdxEvent :=
      (State.record_frame _ _ _ _ _).2 Reg.rdxEvent (by decide)
    rw [State.bit, hreg]
    exact (State.bit_flag _ _ _ (by decide) (by decide)).trans (by simp)

theorem State.keyHelloDo_of_badVersion {w : WcmHdr} (hver : w.version ≠ 1) (host suite nonce ek : Nat) :
    s.keyHelloDo qpn w host suite nonce ek = s.wcmSend qpn 0x02 w.tag 4 16 [] := by
  have hbad : wcmOk w 1240 1240 = false := by simp [wcmOk, hver]
  rw [State.keyHelloDo, State.withQp_of_keying hq hstate]
  simp only [hstate, hbad, if_true]

theorem State.keyConfirmDo_of_badVersion {w : WcmHdr} (hver : w.version ≠ 1) (pk : Nat) (ok : Bool) :
    s.keyConfirmDo qpn w pk ok = s.wcmSend qpn 0x04 w.tag 4 16 [] := by
  have hbad : wcmOk w 5277 5277 = false := by simp [wcmOk, hver]
  rw [State.keyConfirmDo, State.withQp_of_keying hq hstate]
  simp only [hstate, hbad, if_true]

theorem State.certRequestDo_of_badVersion {w : WcmHdr} (hver : w.version ≠ 1) :
    s.certRequestDo qpn w = s.wcmSend qpn 0x06 w.tag 4 16 [] := by
  have hbad : wcmOk w 16 16 = false := by simp [wcmOk, hver]
  rw [State.certRequestDo, State.withQp_of_keying hq hstate]
  simp only [hstate, hbad, Bool.false_eq_true, if_false]

theorem State.keyHelloDo_of_other {tag host suite nonce ek : Nat} (hother : host ≠ q.host ∨ suite ≠ 1) :
    s.keyHelloDo qpn { tag := tag, length := 1240 } host suite nonce ek = s.keyFail qpn := by
  have hok : wcmOk { tag := tag, length := 1240 } 1240 1240 = true := rfl
  rw [State.keyHelloDo, State.withQp_of_keying hq hstate]
  simp only [hstate, hok, Bool.true_eq_false, if_false, if_pos hother]

/-- A good KEY_HELLO is answered by KEY_REPLY, and what keying needs is kept. -/
theorem State.keyHelloDo_of_good {tag nonce ek : Nat} (hentropy : s.sec.entropyOk = true) (hnow : s.sendsNow q) :
    (∃ x g, (s.keyHelloDo qpn { tag := tag, length := 1240 } q.host 1 nonce ek).qp? qpn = some x ∧ x.keying = some g ∧
      x.state = .keying) ∧
    ∃ k fields, (s.keyHelloDo qpn { tag := tag, length := 1240 } q.host 1 nonce ek).out =
      .rdmaWcm k qpn 0x02 tag 0 4453 fields :: s.out := by
  have hok : wcmOk { tag := tag, length := 1240 } 1240 1240 = true := rfl
  have hdo : ∃ g fields, s.keyHelloDo qpn { tag := tag, length := 1240 } q.host 1 nonce ek =
      ((s.draw.1.count (Reg.secCount + 4)).modQp qpn fun x => { x with keying := some g }).wcmSend qpn 0x02 tag 0 4453 fields := by
    rw [State.keyHelloDo, State.withQp_of_keying hq hstate]
    simp only [hstate, hok, hentropy, ne_eq, not_true_eq_false, or_self, Bool.true_eq_false, if_false]
    exact ⟨_, _, rfl⟩
  obtain ⟨g, fields, hdo⟩ := hdo
  set u := (s.draw.1.count (Reg.secCount + 4)).modQp qpn fun x => { x with keying := some g } with hu
  have hux : u.qp? qpn = some { q with keying := some g } := by
    rw [hu, State.qp?_modQp, show (s.draw.1.count (Reg.secCount + 4)).qp? qpn = some q from hq]
    rfl
  have hunow : u.sendsNow { q with keying := some g } :=
    State.sendsNow_setReg (s := s.draw.1) (q := q) (off := Reg.secCount + 4) _ (by decide) hnow
  obtain ⟨k, hsend⟩ := State.wcmSend_of_keying hux hstate hunow 0x02 tag 0 4453 fields
  rw [hdo, hsend]
  refine ⟨⟨{ q with keying := some g, psnTx := (q.psnTx + 1) % 2 ^ 24 }, g, ?_, rfl, hstate⟩, k, fields, rfl⟩
  change (u.modQp qpn _).qp? qpn = _
  rw [State.qp?_modQp, hux]
  rfl

theorem State.certRequestDo_of_good {tag : Nat} (hnow : s.sendsNow q) :
    (∃ k, (s.certRequestDo qpn { tag := tag, length := 16 }).out = .rdmaWcm k qpn 0x06 tag 0 (16 + Config.bodyLen 0x06)
      [(16, Config.bodyLen 0x06, Config.firmwareDefined 0x06)] :: s.out) ∧
    ∃ x, (s.certRequestDo qpn { tag := tag, length := 16 }).qp? qpn = some x ∧ x.state = .keying ∧
      x.psnTx = (q.psnTx + 1) % 2 ^ 24 := by
  have hok : wcmOk { tag := tag, length := 16 } 16 16 = true := rfl
  obtain ⟨k, hsend⟩ := State.wcmSend_of_keying hq hstate hnow 0x06 tag 0 (16 + Config.bodyLen 0x06)
    [(16, Config.bodyLen 0x06, Config.firmwareDefined 0x06)]
  have hdo : s.certRequestDo qpn { tag := tag, length := 16 } = s.wcmSend qpn 0x06 tag 0 (16 + Config.bodyLen 0x06)
      [(16, Config.bodyLen 0x06, Config.firmwareDefined 0x06)] := by
    rw [State.certRequestDo, State.withQp_of_keying hq hstate]
    simp only [hstate, hok, if_true]
  rw [hdo, hsend]
  refine ⟨⟨k, rfl⟩, { q with psnTx := (q.psnTx + 1) % 2 ^ 24 }, ?_, hstate, rfl⟩
  change (s.modQp qpn _).qp? qpn = _
  rw [State.qp?_modQp, hq]
  rfl

/-- Without a lease or a KEY_HELLO before it, with a lease that is REVOKED, or with another key than the lease's, KEY_CONFIRM
fails. -/
theorem State.keyConfirmDo_of_bad {tag pk : Nat} {ok : Bool} (hbad : s.leases.get? q.host = none ∨ q.keying = none ∨
      ∃ l, s.leases.get? q.host = some l ∧ (l.state = .revoked ∨ l.cred ≠ pkDigest pk)) :
    s.keyConfirmDo qpn { tag := tag, length := 5277 } pk ok = s.keyFail qpn := by
  have hok : wcmOk { tag := tag, length := 5277 } 5277 5277 = true := rfl
  rw [State.keyConfirmDo, State.withQp_of_keying hq hstate]
  simp only [hstate, hok, Bool.true_eq_false, if_false]
  rcases hbad with hnone | hnone | ⟨l, hl, hbad⟩
  · rw [hnone]
  · rw [hnone]
    split
    next hg => cases hg
    next => rfl
  · rw [hl]
    split
    next l' g hl' hg =>
      injection hl' with hl'
      subst hl'
      refine if_pos ?_
      rcases hbad with hrev | hcred
      · rw [hrev]; rfl
      · simp [hcred]
    next => rfl

section Confirm

variable {tag pk : Nat} {l : Lease} {g : Keying} (hl : s.leases.get? q.host = some l) (hg : q.keying = some g)
  (hlive : l.state ≠ .revoked) (hcred : l.cred = pkDigest pk)
include hl hg hlive hcred

theorem State.keyConfirmDo_of_badSignature :
    s.keyConfirmDo qpn { tag := tag, length := 5277 } pk false = (s.count (Reg.secCount + 8)).keyFail qpn := by
  have hok : wcmOk { tag := tag, length := 5277 } 5277 5277 = true := rfl
  have hlease : (l.state == .revoked || l.cred != pkDigest pk) = false := by simp [hlive, hcred]
  rw [State.keyConfirmDo, State.withQp_of_keying hq hstate]
  simp only [hstate, hok, hl, hg, hlease, Bool.true_eq_false, Bool.false_eq_true, Bool.not_false, if_false, if_true]

/-- A good KEY_CONFIRM makes the QP ESTABLISHED under its new keys and the lease ACTIVE, and sends KEY_DONE. -/
theorem State.keyConfirmDo_of_good (hserv : q.service ≠ 2) (hnow : s.sendsNow q) :
    (∃ x, (s.keyConfirmDo qpn { tag := tag, length := 5277 } pk true).qp? qpn = some x ∧ x.state = .established ∧
      x.ctrTx = 1 ∧ x.ctrRx = none ∧ x.keying = none ∧ x.keys = some (deriveKeys g)) ∧
    (∃ m, (s.keyConfirmDo qpn { tag := tag, length := 5277 } pk true).leases.get? q.host = some m ∧ m.state = .active) ∧
    ∃ k : Pkt, k.counter = some 0 ∧ (s.keyConfirmDo qpn { tag := tag, length := 5277 } pk true).out =
      .rdmaWcm k qpn 0x04 tag 0 16 [] :: s.out := by
  set x : Qp := { q with state := .established, ctrTx := 0, ctrRx := none, keyCached := true, keying := none
                         keys := some (deriveKeys g) } with hx
  set t1 := s.modQp qpn fun x => { x with
    state := .established, ctrTx := 0, ctrRx := none, keyCached := false, keying := none, keys := some (deriveKeys g) } with ht1
  set t2 := t1.cacheKey (qpIdx qpn) with ht2
  set t3 : State := { t2 with leases := t2.leases.set q.host { l with state := .active } } with ht3
  have hdo : s.keyConfirmDo qpn { tag := tag, length := 5277 } pk true =
      (t3.wcmSend qpn 0x04 tag 0 16 []).mbxReset (2 ^ 32 + qpn) := by
    have hok : wcmOk { tag := tag, length := 5277 } 5277 5277 = true := rfl
    have hlease : (l.state == .revoked || l.cred != pkDigest pk) = false := by simp [hlive, hcred]
    rw [State.keyConfirmDo, State.withQp_of_keying hq hstate]
    simp only [hstate, hok, hl, hg, hlease, hserv, Bool.true_eq_false, Bool.false_eq_true, Bool.not_true, if_false]
    rfl
  have hleft : t2.uncached = t1.uncached := State.cacheKey_leaves _ _
  have hget1 : t1.rdx.qps.get? (qpIdx qpn) = some { x with keyCached := false } := by
    refine (Tbl.get?_modify _ _ _).trans ?_
    rw [State.get?_of_qp? hq]
    rfl
  have hqp3 : t3.qp? qpn = some x :=
    State.qp?_of_get? hq (t := t3) (congrArg (fun v => v.rdx.gens) hleft :) (State.get?_cacheKey hget1)
  have hregs : t2.regs = s.regs := (congrArg State.regs hleft :)
  have hports : t2.ports = s.ports := (congrArg State.ports hleft :)
  have hnow3 : t3.sendsNow x := by
    simpa only [State.sendsNow, State.paused, State.prioOf, State.port, State.bit, State.fld, State.reg, ht3, hregs, hports, hx]
      using hnow
  have hout3 : t3.out = s.out := (congrArg State.out hleft :)
  obtain ⟨k, hk, hsend⟩ := State.wcmSend_of_established hqp3 rfl hnow3 (by simp [hx]) (fun c hc => by cases hc)
    0x04 tag 0 16 []
  rw [hdo, hsend]
  obtain ⟨hrdx, hleases, hout⟩ := State.mbxReset_leaves (2 ^ 32 + qpn)
    (((t3.modQp qpn fun q => { q with psnTx := (q.psnTx + 1) % 2 ^ 24 }).modQp qpn
    fun x => { x with ctrTx := x.ctrTx + 1 }).emit (.rdmaWcm k qpn 0x04 tag 0 16 []))
  refine ⟨⟨{ x with psnTx := (x.psnTx + 1) % 2 ^ 24, ctrTx := x.ctrTx + 1 }, ?_, rfl, rfl, rfl, rfl, rfl⟩,
    ⟨{ l with state := .active }, ?_, rfl⟩, k, hk, ?_⟩
  · rw [State.qp?_congr qpn hrdx]
    change State.qp? (State.modQp _ _ _) qpn = _
    rw [State.qp?_modQp, State.qp?_modQp, hqp3]
    rfl
  · rw [hleases]
    exact (Tbl.get?_set _ _ _ _).trans (if_pos rfl)
  · rw [hout]
    exact congrArg (_ :: ·) hout3

end Confirm

end Keying

end Sys2Proof.Machine

namespace Sys2Proof.Proofs

open Sys2Proof Sys2Proof.Machine

/-- Settles O30: a key message that the control cores take goes through the checks of its kind, and the one that passes them is
answered at once. -/
theorem qpKeying : Obligations.QpKeying := by
  intro s qpn q hq hstate
  have hkeying : qpIs .keying q = true := by rw [qpIs, hstate]; rfl
  obtain ⟨herror, hflag⟩ := State.keyFail_fails hq
  refine ⟨fun w host suite nonce ek hhalt => congrArg Host.Outcome.next (State.cmTake_of_halted hhalt _),
    congrArg Host.Outcome.next (State.qpWhen_of_holds hq hkeying _), herror, hflag, fun hrun => ?_⟩
  have hhello : ∀ w host suite nonce ek, exec (.keyHello qpn w host suite nonce ek) s =
      .next (s.keyHelloDo qpn w host suite nonce ek) := fun _ _ _ _ _ =>
    congrArg Host.Outcome.next (State.cmTake_of_running hrun _)
  have hconfirm : ∀ w pk sig ok, exec (.keyConfirm qpn w pk sig ok) s = .next (s.keyConfirmDo qpn w pk ok) := fun _ _ _ _ =>
    congrArg Host.Outcome.next (State.cmTake_of_running hrun _)
  have hcert : ∀ w, exec (.certRequest qpn w) s = .next (s.certRequestDo qpn w) := fun _ =>
    congrArg Host.Outcome.next (State.cmTake_of_running hrun _)
  refine ⟨fun w host suite nonce ek pk sig ok hver => ⟨?_, ?_, ?_⟩,
    fun tag nonce ek hentropy hnow => ⟨_, hhello _ _ _ _ _, State.keyHelloDo_of_good hq hstate hentropy hnow⟩,
    fun tag host suite nonce ek hother => ?_,
    fun tag pk sig l g hl hg => ⟨fun hlive hcred => ⟨fun hserv hnow =>
      ⟨_, hconfirm _ _ _ _, State.keyConfirmDo_of_good hq hstate hl hg hlive hcred hserv hnow⟩, ?_⟩, fun ok hbad => ?_⟩,
    fun tag pk sig ok hbad => ?_,
    fun tag hnow => ⟨_, hcert _, State.certRequestDo_of_good hq hstate hnow⟩⟩
  · rw [hhello, State.keyHelloDo_of_badVersion hq hstate hver]
  · rw [hconfirm, State.keyConfirmDo_of_badVersion hq hstate hver]
  · rw [hcert, State.certRequestDo_of_badVersion hq hstate hver]
  · rw [hhello, State.keyHelloDo_of_other hq hstate hother]
  · rw [hconfirm, State.keyConfirmDo_of_badSignature hq hstate hl hg hlive hcred]
  · rw [hconfirm, State.keyConfirmDo_of_bad hq hstate (.inr (.inr ⟨l, hl, hbad⟩))]
  · rw [hconfirm, State.keyConfirmDo_of_bad hq hstate (hbad.imp_right .inl)]

end Sys2Proof.Proofs
end

section
/-! SUPPORT. Verbs on an ESTABLISHED QP: the request at the expected PSN, and what decides its way (R156–R166). -/

namespace Sys2Proof.Machine

section Verbs

variable {s : State} {qpn psn : Nat} {q : Qp} (hq : s.qp? qpn = some q) (hstate : q.state = .established)
  (hsec : s.bit Reg.secCtl 0 = true) (hadm : s.noAdmit = false)
include hq hstate hsec hadm

/-- A request beyond the expected PSN gets a sequence NAK, unless one waits. -/
theorem State.rdmaDo_of_beyond (a : RdmaAsk) (hpsn : psnClass q.psnRx psn = 2) (hnone : ∀ e ∈ q.resps, e.resp ≠ .nak 0) :
    s.rdmaDo qpn psn a = s.addResp qpn psn (.nak 0) true := by
  have hno : (q.resps.any fun e => e.resp == .nak 0) = false := by simpa using hnone
  rw [State.rdmaDo, State.withQp_of_established hq hstate hsec]
  simp only [hstate, hadm, hpsn, OfNat.ofNat_ne_one, Bool.false_eq_true, if_false, if_true, State.sendNak, hno]

section Expected

variable (hpsn : psnClass q.psnRx psn = 0) (hrnr : ∀ w, s.rnrNow w = false)
  (hheavy : (q.resps.filter fun e => heavy e.resp).length < 64)
include hpsn hrnr hheavy

/-- A request at the expected PSN, of a length that R156 allows. -/
theorem State.rdmaDo_of_expected (a : RdmaAsk) (hmax : a.len ≤ 2 ^ 31) :
    s.rdmaDo qpn psn a = if a.len = 0 then
        (((s.psnTake qpn psn 0).modQp qpn fun x => { x with
          nextReqId := match a.reqId with | some v => v | none => 0 }).addResp qpn psn (blankResp a.op) true)
      else match s.rdmaWhere q a.rkey a.verb a.va a.len a.need with
      | .error e =>
        let t := if isWrite a.op && s.rdmaCb q a.rkey a.verb a.va a.len a.need then s.cbRefuse else s
        (t.psnTake qpn psn a.len).rdmaRefuse q qpn psn (s.keyFault q.host a.rkey a.verb a.va a.len) e
      | .ok (region, off, segs) =>
        if isWrite a.op then match s.takeBuf a.data.length with
          | none => (s.warnCnp qpn q (poolFor a.data.length)).sendRnr qpn psn
          | some (t, b) => (t.warnCnp qpn q b.1).rdmaAdmit qpn psn q a region off segs (some b)
        else s.rdmaAdmit qpn psn q a region off segs none := by
  have hlen : ¬(2 ^ 31 < a.len ∨ (a.op = .read ∨ isAtomic a.op = true) ∧
      64 ≤ (q.resps.filter fun e => heavy e.resp).length) := by omega
  rw [State.rdmaDo, State.withQp_of_established hq hstate hsec]
  simp only [hstate, hadm, hpsn, hrnr, hlen, Nat.zero_ne_one, OfNat.zero_ne_ofNat, Bool.false_eq_true, if_false] <;> rfl

/-- A WRITE or atomic that translates takes a buffer and enters the tracker. -/
theorem State.rdmaDo_of_write {a : RdmaAsk} {t : State} {b : Nat × Nat} {region off : Nat} {segs : List (Nat × Nat)}
    (hpos : 0 < a.len) (hmax : a.len ≤ 2 ^ 31) (hwrite : isWrite a.op = true) (htake : s.takeBuf a.data.length = some (t, b))
    (hlevel : (t.pool b.1).level = 0) (hx : s.rdmaWhere q a.rkey a.verb a.va a.len a.need = .ok (region, off, segs)) :
    s.rdmaDo qpn psn a = t.rdmaAdmit qpn psn q a region off segs (some b) := by
  rw [State.rdmaDo_of_expected hq hstate hsec hadm hpsn hrnr hheavy a hmax, if_neg (by omega), hx]
  dsimp only
  rw [if_pos hwrite, htake]
  dsimp only
  rw [State.warnCnp_of_low hlevel]

/-- A READ that translates enters the tracker without a buffer. -/
theorem State.rdmaDo_of_read {a : RdmaAsk} {region off : Nat} {segs : List (Nat × Nat)} (hpos : 0 < a.len)
    (hmax : a.len ≤ 2 ^ 31) (hread : isWrite a.op = false)
    (hx : s.rdmaWhere q a.rkey a.verb a.va a.len a.need = .ok (region, off, segs)) :
    s.rdmaDo qpn psn a = s.rdmaAdmit qpn psn q a region off segs none := by
  rw [State.rdmaDo_of_expected hq hstate hsec hadm hpsn hrnr hheavy a hmax, if_neg (by omega), hx]
  dsimp only
  rw [if_neg (by simp [hread])]

/-- A READ that does not translate is refused in its place. -/
theorem State.rdmaDo_of_badRead {a : RdmaAsk} {e : XStep} (hpos : 0 < a.len) (hmax : a.len ≤ 2 ^ 31)
    (hread : isWrite a.op = false) (hx : s.rdmaWhere q a.rkey a.verb a.va a.len a.need = .error e) :
    s.rdmaDo qpn psn a =
      (s.psnTake qpn psn a.len).rdmaRefuse q qpn psn (s.keyFault q.host a.rkey a.verb a.va a.len) e := by
  rw [State.rdmaDo_of_expected hq hstate hsec hadm hpsn hrnr hheavy a hmax, if_neg (by omega), hx]
  dsimp only
  rw [if_neg (by simp [hread])]

/-- A request of no bytes is answered at once; what it says of the next request's ID is kept. -/
theorem State.rdmaDo_of_empty {a : RdmaAsk} (hlen : a.len = 0) :
    s.rdmaDo qpn psn a = ((s.psnTake qpn psn 0).modQp qpn fun x => { x with
      nextReqId := a.reqId.getD 0 }).addResp qpn psn (blankResp a.op) true := by
  have hid : (fun x : Qp => { x with nextReqId := match a.reqId with | some v => v | none => 0 }) =
      fun x => { x with nextReqId := a.reqId.getD 0 } := by cases a.reqId <;> rfl
  rw [State.rdmaDo_of_expected hq hstate hsec hadm hpsn hrnr hheavy a (by omega), if_pos hlen]
  exact congrArg (fun f => ((s.psnTake qpn psn 0).modQp qpn f).addResp qpn psn (blankResp a.op) true) hid

omit hheavy in
/-- A FLUSH waits for the writes of its QP, or is refused. -/
theorem State.rdmaFlushDo_of_expected {key va len : Nat} {whole : Bool} {r : Nat × Nat} (hr : r = s.flushRange key va len whole) :
    (s.flushFails q key r.1 r.2 = none →
      s.rdmaFlushDo qpn psn key va len whole = ((s.psnTake qpn psn 0).modQp qpn fun x => { x with
        flushes := x.flushes ++ [{
          psn := psn, reqs := (s.reqs.filter fun e => onQp qpn e.2 && isWrite e.2.op).map Prod.fst }] }).addResp
        qpn psn .flush false) ∧
    (∀ e, s.flushFails q key r.1 r.2 = some e → s.rdmaFlushDo qpn psn key va len whole =
      (s.psnTake qpn psn 0).rdmaRefuse q qpn psn (s.keyFault q.host key 3 r.1 r.2) e) := by
  subst hr
  rw [State.rdmaFlushDo, State.withQp_of_established hq hstate hsec]
  simp only [hstate, hadm, hpsn, hrnr, Nat.zero_ne_one, OfNat.zero_ne_ofNat, Bool.false_eq_true, if_false]
  exact ⟨fun hnone => by rw [hnone], fun e he => by rw [he]⟩

end Expected

end Verbs

/-- An aligned request of 8 bytes goes as any other. -/
theorem State.rdmaAligned_of_aligned {s : State} {qpn psn : Nat} {a : RdmaAsk} (hva : a.va % 8 = 0) (hlen : a.len = 8) :
    s.rdmaAligned qpn psn a = s.rdmaDo qpn psn a := if_pos ⟨hva, hlen⟩

end Sys2Proof.Machine

namespace Sys2Proof.Proofs

open Sys2Proof Sys2Proof.Machine

/-- Settles O31: at the expected PSN and under no back-pressure a request's length, translation and buffer decide. -/
theorem rdmaVerbs : Obligations.RdmaVerbs := by
  intro s qpn psn q hq hstate hsec hadm
  refine ⟨fun hpsn hrnrW hrnrR hheavy => ?_, fun key va len hpsn hnone =>
    congrArg Host.Outcome.next (State.rdmaDo_of_beyond hq hstate hsec hadm _ hpsn hnone), fun f hf hfpsn hdone => ?_⟩
  · have hrnr : ∀ w, s.rnrNow w = false := Bool.rec hrnrR hrnrW
    refine ⟨fun key va region off segs data t b hpos hmax htake hlevel hx => ⟨?_, fun imm => ?_⟩,
      fun key va len region off segs hpos hmax hx => ?_,
      fun key va region off segs t b hva htake hlevel hx => ⟨fun x => ?_, fun x y => ?_, fun x => ?_⟩,
      fun key va len e hpos hmax hx => ?_, fun key va imm => ⟨?_, ?_⟩, fun key va len whole r hr => ?_⟩
    · exact congrArg Host.Outcome.next (State.rdmaDo_of_write (a := askWrite key va data) hq hstate hsec hadm hpsn hrnr hheavy
        hpos hmax rfl htake hlevel hx)
    · exact congrArg Host.Outcome.next (State.rdmaDo_of_write (a := askWriteImm key va data imm) hq hstate hsec hadm hpsn hrnr
        hheavy hpos hmax rfl htake hlevel hx)
    · exact congrArg Host.Outcome.next (State.rdmaDo_of_read (a := askRead key va len) hq hstate hsec hadm hpsn hrnr hheavy
        hpos hmax rfl hx)
    · exact congrArg Host.Outcome.next ((State.rdmaAligned_of_aligned hva rfl).trans
        (State.rdmaDo_of_write (a := askAdd key va x.toNat) hq hstate hsec hadm hpsn hrnr hheavy (show 0 < 8 by decide)
          (show 8 ≤ 2 ^ 31 by decide) rfl htake hlevel hx))
    · exact congrArg Host.Outcome.next ((State.rdmaAligned_of_aligned hva rfl).trans
        (State.rdmaDo_of_write (a := askSwap key va x.toNat y.toNat) hq hstate hsec hadm hpsn hrnr hheavy (show 0 < 8 by decide)
          (show 8 ≤ 2 ^ 31 by decide) rfl htake hlevel hx))
    · exact congrArg Host.Outcome.next ((State.rdmaAligned_of_aligned hva rfl).trans
        (State.rdmaDo_of_write (a := askAtomicWrite key va (leBytes 8 x.toNat)) hq hstate hsec hadm hpsn hrnr hheavy
          (show 0 < 8 by decide) (show 8 ≤ 2 ^ 31 by decide) rfl htake hlevel hx))
    · exact congrArg Host.Outcome.next (State.rdmaDo_of_badRead (a := askRead key va len) hq hstate hsec hadm hpsn hrnr hheavy
        hpos hmax rfl hx)
    · exact congrArg Host.Outcome.next (State.rdmaDo_of_empty (a := askWrite key va []) hq hstate hsec hadm hpsn hrnr hheavy rfl)
    · exact congrArg Host.Outcome.next (State.rdmaDo_of_empty (a := askWriteImm 0 va [] imm) hq hstate hsec hadm hpsn hrnr
        hheavy rfl)
    · obtain ⟨hgo, hrefuse⟩ := State.rdmaFlushDo_of_expected hq hstate hsec hadm hpsn hrnr hr
      exact ⟨fun hnone => congrArg Host.Outcome.next (hgo hnone), fun e he => congrArg Host.Outcome.next (hrefuse e he)⟩
  · have hdue : (q.flushes.any fun f => f.psn == psn && !(f.reqs.any fun i => (s.reqs.get? i).isSome)) = true := by
      refine List.any_eq_true.2 ⟨f, hf, ?_⟩
      have hnone : (f.reqs.any fun i => (s.reqs.get? i).isSome) = false := List.any_eq_false.2 fun i hi => by simp [hdone i hi]
      rw [hnone, hfpsn]
      simp
    exact congrArg Host.Outcome.next (State.qpWhen_of_holds hq
      (p := fun q => q.flushes.any fun f => f.psn == psn && !(f.reqs.any fun i => (s.reqs.get? i).isSome)) hdue _)

end Sys2Proof.Proofs
end

section
/-! SUPPORT. Key messages, leases and the requester's retries (R167–R176, R219). -/

namespace Sys2Proof.Machine

theorem State.leases_of_still {s t : State} (h : t.still = s.still) : t.leases = s.leases := congrArg (fun v => v.1.leases) h
theorem State.mkeys_of_still {s t : State} (h : t.still = s.still) : t.mkeys = s.mkeys := congrArg (fun v => v.1.mkeys) h

/-! ### Key messages -/

theorem keyService_of_le {q : Qp} (h : q.service ≤ 1) : keyService q = true := by
  have : q.service = 0 ∨ q.service = 1 := by omega
  rcases this with h | h <;> simp [keyService, h]

/-- A message whose length is not its type's is answered BAD_MESSAGE. -/
theorem State.wcmReply_of_badLength {s : State} {qpn type lo hi : Nat} {w : WcmHdr} (h : w.length < lo ∨ hi < w.length)
    (act : State → State) : s.wcmReply qpn type w lo hi act = s.wcmSend qpn type w.tag 4 16 [] := by
  rw [State.wcmReply, if_neg]
  simp only [wcmOk, Bool.and_eq_true, decide_eq_true_eq]
  omega

section Messages

variable {s u : State} {qpn psn : Nat} {q : Qp} (hq : s.qp? qpn = some q) (hstate : q.state = .established)
  (hsec : s.bit Reg.secCtl 0 = true) (hpsn : psnClass q.psnRx psn = 0) (hrnr : s.rnrNow false = false)
  (hu : u = (s.psnTake qpn psn 0).addResp qpn psn .ack true)
include hq hstate hsec hpsn hrnr hu

theorem exec_keepalive_of_established (tag : Nat) :
    exec (.keepalive qpn psn { tag := tag, length := 16 }) s = .next (u.wcmSend qpn 0x11 tag 0 16 []) := by
  change execKeepalive qpn psn _ s = _
  rw [execKeepalive, State.keepaliveDo, State.wcmTake_of_established hq hstate hpsn (ok := fun _ => true) rfl hrnr hsec, ← hu,
    State.wcmReply_of_ok rfl (Nat.le_refl 16) (Nat.le_refl 16)]

theorem exec_mkeyRegister_of_established (hserv : q.service ≤ 1) (w : WcmHdr) (region verbs tg rof va len : Nat) :
    exec (.mkeyRegister qpn psn w region verbs tg rof va len) s =
      .next (u.wcmReply qpn 0x21 w 48 48 fun u => u.keyRegister qpn q w region verbs tg rof va len) := by
  change execMkeyRegister qpn psn w region verbs tg rof va len s = _
  rw [execMkeyRegister, State.wcmTake_of_established hq hstate hpsn (keyService_of_le hserv) hrnr hsec, ← hu]

theorem exec_mkeyInvalidate_of_established (hserv : q.service ≤ 1) (tag rkey : Nat) :
    exec (.mkeyInvalidate qpn psn { tag := tag, length := 20 } rkey) s =
      .next (u.keyInvalidate qpn q { tag := tag, length := 20 } rkey) := by
  change execMkeyInvalidate qpn psn _ rkey s = _
  rw [execMkeyInvalidate, State.wcmTake_of_established hq hstate hpsn (keyService_of_le hserv) hrnr hsec, ← hu,
    State.wcmReply_of_ok rfl (Nat.le_refl 20) (show 20 ≤ 65535 by decide)]

end Messages

theorem State.keyRegister_of_notLive {u : State} {q : Qp} (hlive : u.leaseLive q.host = false) (qpn : Nat) (w : WcmHdr)
    (region verbs tg rof va len : Nat) :
    u.keyRegister qpn q w region verbs tg rof va len = u.wcmSend qpn 0x21 w.tag 5 16 [] := if_pos hlive

theorem State.keyRegister_of_made {u t : State} {q : Qp} {qpn region verbs tg rof va len idx : Nat} {w : WcmHdr} {k : Mkey}
    (hlive : u.leaseLive q.host = true) (hmake : u.keyMake q.host region verbs tg rof va len = .ok (t, idx, k)) :
    u.keyRegister qpn q w region verbs tg rof va len =
      (t.both [.mkey idx k] false none).1.replyLater (t.both [.mkey idx k] false none).2 [] qpn 0x21 w.tag
        (rkeyOf idx k.gen k.tag) := by
  simp only [State.keyRegister, hlive, hmake, Bool.true_eq_false, if_false]

theorem State.keyInvalidate_of_named {u : State} {q : Qp} {qpn rkey idx : Nat} {w : WcmHdr} {k : Mkey}
    (hlive : u.leaseLive q.host = true) (hkey : u.keyNamed rkey = some (idx, k)) :
    u.keyInvalidate qpn q w rkey = if k.host ≠ q.host then u.wcmSend qpn 0x23 w.tag 1 16 []
      else (u.both [.mkey idx { k with live := false }] false none).1.replyLater
        (u.both [.mkey idx { k with live := false }] false none).2 (u.underKey k) qpn 0x23 w.tag rkey := by
  simp only [State.keyInvalidate, hlive, hkey, Bool.true_eq_false, if_false]

/-! ### Leases -/

theorem State.still_leaseQpsError (s : State) (host : Nat) : (s.leaseQpsError host).still = s.still :=
  State.still_foldl (fun _ _ => State.still_qpEnter _ _ _) _ _

/-- An ACTIVE lease that lapses is LAPSED, with its flag. -/
theorem exec_leaseLapse_of_active {s : State} {host : Nat} {l : Lease} (hl : s.leases.get? host = some l)
    (hstate : l.state = .active) :
    Yields (.leaseLapse host) s fun t => (∃ m, t.leases.get? host = some m ∧ m.state = .lapsed) ∧
      t.bit Reg.rdxEvent 2 = true ∧ t.mkeys = s.mkeys := by
  set u := ({ s with leases := s.leases.set host { l with state := .lapsed } } : State).flag Reg.rdxEvent 2 with hu
  have hstill : (u.leaseQpsError host).still = u.still := State.still_leaseQpsError u host
  have hexec : exec (.leaseLapse host) s = .next (u.leaseQpsError host) := by
    change execLeaseLapse host s = _
    simp only [execLeaseLapse, hl, hstate, hu]
  refine ⟨_, hexec, ⟨{ l with state := .lapsed }, ?_, rfl⟩, ?_, (State.mkeys_of_still hstill).trans rfl⟩
  · rw [State.leases_of_still hstill]
    exact (Tbl.get?_set _ _ _ _).trans (if_pos rfl)
  · rw [State.bit, State.reg_of_still hstill (by decide), hu]
    exact (State.bit_flag _ _ _ (by decide) (by decide)).trans (by simp)

/-- A change that both twins make at once is sent without touching the contexts of the QPs. -/
theorem State.rdx_bothNow (s : State) (cs : List Change) : (s.bothNow cs).rdx = (s.applyChanges cs).rdx := by
  unfold State.bothNow State.both
  by_cases h : s.paired = true
  · simp only [h, if_true, Bool.false_eq_true, if_false]
    exact congrArg Prod.fst (State.rdmaView_post (s.applyChanges cs) (.control cs))
  · rw [if_neg h]

theorem exec_leaseRecordFree_of_revoked {s : State} {host : Nat} {l : Lease} (hl : s.leases.get? host = some l)
    (hstate : l.state = .revoked) (hdone : l.revokeDone = true) :
    Yields (.leaseRecordFree host) s fun t =>
      t.leases = s.leases.erase host ∧ t.mkeys = s.mkeys ∧ t.rdx = s.rdx ∧ t.mem = s.mem := by
  have hstill := s.still_bothNow [.leaseErase host]
  have hrdx := s.rdx_bothNow [.leaseErase host]
  have happly : s.applyChanges [.leaseErase host] = { s with leases := s.leases.erase host } := rfl
  have hexec : exec (.leaseRecordFree host) s = .next (s.bothNow [.leaseErase host]) := by
    change execLeaseRecordFree host s = _
    simp only [execLeaseRecordFree, hl, hstate, hdone, beq_self_eq_true, Bool.and_self, if_true]
  rw [happly] at hstill hrdx
  exact ⟨_, hexec, State.leases_of_still hstill, (State.mkeys_of_still hstill).trans rfl, hrdx,
    (State.mem_of_still hstill).trans rfl⟩

/-! ### The requester -/

/-- An acknowledgement timeout of a QP with something outstanding sends it again, or gives the QP up. -/
theorem exec_requesterAckTimeout_of_outstanding {s : State} {qpn : Nat} {q : Qp} (hq : s.qp? qpn = some q)
    (hstate : q.state = .established) (hout : q.outstanding ≠ []) :
    exec (.requesterAckTimeout qpn) s = .next (if s.fld Reg.rdxReqRetry 7 5 ≤ q.retries then
        (s.qpError qpn).flag Reg.rdxEvent 3
      else (q.outstanding.foldl (fun (u : State) x => u.recordAgain qpn x)
        (s.modQp qpn fun x => { x with retries := x.retries + 1 })).ctrLimit qpn) := by
  have hgo : (qpIs .established q && !q.outstanding.isEmpty) = true := by simp [qpIs, hstate, hout]
  exact congrArg Host.Outcome.next (State.qpWhen_of_holds hq (p := fun q => qpIs .established q && !q.outstanding.isEmpty) hgo _)

theorem exec_requesterAckReceived_of_established {s : State} {qpn : Nat} {q : Qp} (hq : s.qp? qpn = some q)
    (hstate : q.state = .established) :
    exec (.requesterAckReceived qpn) s =
      .next (s.modQp qpn fun x => { x with outstanding := x.outstanding.drop 1, retries := 0 }) := by
  have hp : qpIs .established q = true := by rw [qpIs, hstate]; rfl
  exact congrArg Host.Outcome.next (State.qpWhen_of_holds hq hp _)

end Sys2Proof.Machine

namespace Sys2Proof.Proofs

open Sys2Proof Sys2Proof.Machine

/-- Settles O33: a key message is acknowledged, then asked for its length, its lease and its key; the records of the leases and
the retries are each one command's branch. -/
theorem keysLeasesAndRequester : Obligations.KeysLeasesAndRequester := by
  refine ⟨fun s u qpn psn q tag hq hstate hsec hpsn hrnr hu =>
      ⟨exec_keepalive_of_established hq hstate hsec hpsn hrnr hu tag, fun hserv => ⟨?_, fun rkey idx k hlive hkey => ?_⟩⟩,
    fun s host l hl => ⟨exec_leaseLapse_of_active hl, exec_leaseRecordFree_of_revoked hl⟩,
    fun s qpn q hq hstate => ⟨fun hout hmore => ?_, fun hout hlast => ?_, exec_requesterAckReceived_of_established hq hstate⟩⟩
  · intro region verbs tg rof va len idx k t
    have hexec := fun w => exec_mkeyRegister_of_established hq hstate hsec hpsn hrnr hu hserv w region verbs tg rof va len
    refine ⟨?_, fun hdead => ?_, fun hlive hmake => ?_⟩
    · rw [hexec, State.wcmReply_of_badLength (.inl (show 47 < 48 by decide))]
    · rw [hexec, State.wcmReply_of_ok rfl (Nat.le_refl 48) (Nat.le_refl 48), State.keyRegister_of_notLive hdead]
    · rw [hexec, State.wcmReply_of_ok rfl (Nat.le_refl 48) (Nat.le_refl 48), State.keyRegister_of_made hlive hmake]
  · rw [exec_mkeyInvalidate_of_established hq hstate hsec hpsn hrnr hu hserv, State.keyInvalidate_of_named hlive hkey]
    exact ⟨fun hown => by rw [if_neg (not_not.2 hown)], fun hother => by rw [if_pos hother]⟩
  · rw [exec_requesterAckTimeout_of_outstanding hq hstate hout, if_neg (Nat.not_le.2 hmore)]
  · rw [exec_requesterAckTimeout_of_outstanding hq hstate hout, if_pos hlast]

end Sys2Proof.Proofs
end

section
/-! SUPPORT. The tile's entry after a move switches its home (R243–R270). -/

namespace Sys2Proof.Machine

/-- A tile's entry reads as it was put. -/
theorem State.tile_setTile (s : State) (tile : Nat) (e : TileEnt) : (s.setTile tile e).tile tile = e := by
  have htiles : (s.setTile tile e).tiles = if e = ({} : TileEnt) then s.tiles.erase tile else s.tiles.set tile e := rfl
  rw [State.tile, htiles]
  split_ifs with he
  · rw [Tbl.getD, Tbl.get?_erase, if_pos rfl, he]
    rfl
  · rw [Tbl.getD, Tbl.get?_set, if_pos rfl]
    rfl

/-- Returning a flash location as invalid leaves the tiles. -/
theorem State.tiles_invalidateLoc (s : State) (loc : Nat) : (s.invalidateLoc loc).tiles = s.tiles := by
  have hcheck : ∀ (u : State) (set b : Nat), (u.emptyCheck set b).tiles = u.tiles := fun u set b => by
    unfold State.emptyCheck
    dsimp only
    split
    · rfl
    · split
      · rfl
      · split_ifs <;> rfl
      · rfl
  exact hcheck _ _ _

theorem State.tile_switchDram (s : State) (tile frame : Nat) :
    (s.switchDram tile frame).tile tile = { s.tile tile with home := .dram, loc := frame, lock := false, evict := false } := by
  unfold State.switchDram
  dsimp only
  split_ifs
  · rw [State.tile, State.tiles_invalidateLoc]
    exact State.tile_setTile _ _ _
  · exact State.tile_setTile _ _ _

theorem get?_erase_same {α : Type} (t : Tbl α) (n : Nat) : Tbl.get? (Tbl.erase t n) n = none := by
  rw [Tbl.get?_erase, if_pos rfl]

section Switches

variable {s : State} {tile : Nat} {m : Move} (hm : s.moves.get? tile = some m)
include hm

/-- A promotion whose reads are all taken up ends by what its reads brought. -/
theorem exec_promotionSwitch_of_read (hkind : m.kind = .promote) (hstage : m.stage = .moving) (hwhy : m.why ≠ .atomTile)
    (hread : s.mediaStep.readsIssued tile m = true) (bad : List (Fin 8)) :
    exec (.promotionSwitch tile bad) s = .next (if bad.isEmpty then (match m.frame with
        | some f => (s.promoteDone tile m f).settle
        | none => s)
      else ((s.promoteFail tile m (bad.map Fin.val)).nextSlot (engineOf tile)).settle) := by
  have hwhy' : (m.why == .atomTile) = false := by simpa using hwhy
  change execPromotionSwitch tile bad s = _
  simp only [execPromotionSwitch, hm, hkind, hstage, hwhy', hread, bne_self_eq_false, Bool.false_or, Bool.true_eq_false,
    decide_false, Bool.false_eq_true, if_false] <;> rfl

theorem exec_evictionSwitch_of_verified (hkind : m.kind = .evict) (hstage : m.stage = .verified) {t : State}
    (ht : t = State.setTile { s with moves := s.moves.erase tile } tile
      { s.tile tile with home := .flash, loc := m.dest, lock := false, evict := false }) :
    exec (.evictionSwitch tile) s = .next (State.settle (State.serveQueue (State.nextSlot (State.joinedPromote
      (((t.validUp m.dest tile).freeFrameNo (s.tile tile).loc).count (Reg.plcCount + 4)).demandDown.noteFrames tile m)
        (engineOf tile)))) := by
  subst ht
  change execEvictionSwitch tile s = _
  simp only [execEvictionSwitch, hm, hkind, hstage, bne_self_eq_false, Bool.or_self, Bool.false_eq_true, if_false]

theorem exec_relocationSwitch_of_verified (hkind : m.kind = .relocate ∨ m.kind = .repair) (hstage : m.stage = .verified)
    {t : State} (ht : t = State.setTile { s with moves := s.moves.erase tile } tile
      { s.tile tile with home := .flash, loc := m.dest, lock := false, evict := false }) :
    exec (.relocationSwitch tile) s = .next (State.settle (State.nextSlot (State.joinedPromote
      (if m.kind = .relocate then (t.validUp m.dest tile).invalidateLoc (s.tile tile).loc
        else ((t.validUp m.dest tile).err1 8 .repaired).loseSectors tile ((t.validUp m.dest tile).badSectors tile)) tile m)
        (engineOf tile))) := by
  subst ht
  have hmine : (m.kind == .relocate || m.kind == .repair) = true := by simpa using hkind
  change execRelocationSwitch tile s = _
  simp only [execRelocationSwitch, hm, hmine, hstage, bne_self_eq_false, Bool.not_true, Bool.or_self, Bool.false_eq_true,
    if_false]

end Switches

end Sys2Proof.Machine

namespace Sys2Proof.Proofs

open Sys2Proof Sys2Proof.Machine

/-- Settles O37: each switch is the branch of a move of its kind at its last stage, and the tile's entry is put in one update. -/
theorem movesSwitchHomes : Obligations.MovesSwitchHomes := by
  refine ⟨fun s tile f m hm hkind hstage hwhy hread => ⟨fun bad hbad => ?_, fun hframe => ?_⟩,
    fun s tile m hm hkind hstage => ?_, fun s tile m hm hstage => ?_⟩
  · rw [exec_promotionSwitch_of_read hm hkind hstage hwhy hread, if_neg (by simpa using hbad)]
  · intro t
    have hfields : t.tile tile = { s.tile tile with home := .dram, loc := f, lock := false, evict := false } :=
      State.tile_switchDram s tile f
    refine ⟨?_, by rw [hfields], by rw [hfields], by rw [hfields], get?_erase_same _ _⟩
    have hdone : s.promoteDone tile m f = ((t.count Reg.plcCount).moveJoined tile m).nextSlot (engineOf tile) := rfl
    rw [exec_promotionSwitch_of_read hm hkind hstage hwhy hread, hframe, ← hdone, if_pos List.isEmpty_nil]
  · intro t
    have hentry : t.tile tile = { s.tile tile with home := .flash, loc := m.dest, lock := false, evict := false } :=
      State.tile_setTile _ _ _
    exact ⟨exec_evictionSwitch_of_verified hm hkind hstage (t := t) rfl, by rw [hentry], by rw [hentry], get?_erase_same _ _⟩
  · intro t
    have hentry : t.tile tile = { s.tile tile with home := .flash, loc := m.dest, lock := false, evict := false } :=
      State.tile_setTile _ _ _
    refine ⟨fun hkind => ?_, fun hkind => ?_, by rw [hentry], by rw [hentry]⟩
    · rw [exec_relocationSwitch_of_verified hm (.inl hkind) hstage (t := t) rfl, if_pos hkind]
    · rw [exec_relocationSwitch_of_verified hm (.inr hkind) hstage (t := t) rfl, if_neg (by simp [hkind])]

end Sys2Proof.Proofs
end

section
/-! SUPPORT. The placement engine's sweeps and its audit (R261–R283, R714). -/

namespace Sys2Proof.Machine

/-- A tile whose heat cools keeps the rest of its entry, and every other tile its own. -/
theorem State.tile_setTile_ne (s : State) {tile x : Nat} (e : TileEnt) (h : x ≠ tile) : (s.setTile tile e).tile x = s.tile x := by
  have htiles : (s.setTile tile e).tiles = if e = ({} : TileEnt) then s.tiles.erase tile else s.tiles.set tile e := rfl
  rw [State.tile, htiles]
  split_ifs with he
  · rw [Tbl.getD, Tbl.get?_erase, if_neg h]
    rfl
  · rw [Tbl.getD, Tbl.get?_set, if_neg h]
    rfl

theorem State.setTile_leaves (s : State) (tile : Nat) (e : TileEnt) :
    (s.setTile tile e).mem = s.mem ∧ (s.setTile tile e).regs = s.regs := ⟨rfl, rfl⟩

/-! ### The sweeps -/

section FrameSweep

variable {s : State} (hon : s.bit Reg.plcCtl 2 = true) (hframes : s.framesTotal ≠ 0)
include hon hframes

/-- What a visit of the frame sweep starts from. -/
def State.sweepSeen (s : State) : State :=
  { s with plc := { s.plc with pinDemoted := s.plc.pinDemoted && decide (s.ledgerWant ≠ 0) } }

theorem exec_frameSweepVisit_of_empty (hnone : s.frames.get? (s.frameBase + s.plc.sweep) = none) :
    exec .frameSweepVisit s = .next s.sweepSeen.sweepNext := by
  have hgo : (decide (s.bit Reg.plcCtl 2 = false) || s.framesTotal == 0) = false := by simp [hon, hframes]
  have hnone' : s.sweepSeen.frames.get? (s.sweepSeen.frameBase + s.sweepSeen.plc.sweep) = none := hnone
  change execFrameSweepVisit s = _
  rw [execFrameSweepVisit, hgo, if_neg Bool.false_ne_true]
  change Host.Outcome.next (match s.sweepSeen.frames.get? (s.sweepSeen.frameBase + s.sweepSeen.plc.sweep) with
    | some f => _
    | none => s.sweepSeen.sweepNext) = _
  rw [hnone']

/-- A frame that holds a tile is visited if the tile's map line is resident, and its line is asked for if not. -/
theorem exec_frameSweepVisit_of_frame {f : Frame} (hf : s.frames.get? (s.frameBase + s.plc.sweep) = some f) :
    exec .frameSweepVisit s = .next (if s.mapHit f.tile = false then s.sweepSeen.mapWant f.tile
      else if f.held || !inDram (s.tile f.tile).home || (s.tile f.tile).loc != s.frameBase + s.plc.sweep then
        s.sweepSeen.sweepNext
      else (s.sweepSeen.visitFrame f).settle) := by
  have hgo : (decide (s.bit Reg.plcCtl 2 = false) || s.framesTotal == 0) = false := by simp [hon, hframes]
  have hf' : s.sweepSeen.frames.get? (s.sweepSeen.frameBase + s.sweepSeen.plc.sweep) = some f := hf
  change execFrameSweepVisit s = _
  rw [execFrameSweepVisit, hgo, if_neg Bool.false_ne_true]
  change Host.Outcome.next (match s.sweepSeen.frames.get? (s.sweepSeen.frameBase + s.sweepSeen.plc.sweep) with
    | some f => if s.sweepSeen.mapHit f.tile = false then s.sweepSeen.mapWant f.tile
      else if f.held || !inDram (s.sweepSeen.tile f.tile).home ||
          (s.sweepSeen.tile f.tile).loc != s.sweepSeen.frameBase + s.sweepSeen.plc.sweep then
        s.sweepSeen.sweepNext
      else (s.sweepSeen.visitFrame f).settle
    | none => s.sweepSeen.sweepNext) = _
  rw [hf']
  rfl

end FrameSweep

/-- The map sweep, enabled and with the tile's line there if it is in flash, cools the tile and goes on. -/
theorem exec_mapSweepRead_of_hit {s : State} (hon : s.bit Reg.plcCtl 3 = true)
    (hhit : inFlash (s.tile s.plc.mapSweep).home = true → s.mapHit s.plc.mapSweep = true) :
    Yields .mapSweepRead s fun t =>
      (inFlash (s.tile s.plc.mapSweep).home = true →
        (t.tile s.plc.mapSweep).heat = (s.tile s.plc.mapSweep).heat / 2) ∧
      (∀ x, x ≠ s.plc.mapSweep → t.tile x = s.tile x) ∧ t.mem = s.mem ∧ t.regs = s.regs ∧
      t.plc.mapSweep = if s.plc.mapSweep + 1 < s.exposed * 262144 then s.plc.mapSweep + 1 else 0 := by
  set n := s.plc.mapSweep with hn
  set u := if inFlash (s.tile n).home then s.cool n else s with hu
  have hmiss : ¬((inFlash (s.tile n).home && decide (s.mapHit n = false)) = true) := by
    simpa using hhit
  have hexec : exec .mapSweepRead s = .next
      { u with plc := { u.plc with mapSweep := if n + 1 < s.exposed * 262144 then n + 1 else 0 } } := by
    change execMapSweepRead s = _
    rw [execMapSweepRead, if_neg (by simp [hon])]
    dsimp only
    rw [if_neg hmiss]
  have hcool : s.cool n = s.setTile n { s.tile n with heat := (s.tile n).heat / 2 } := rfl
  obtain ⟨hmem, hregs⟩ := s.setTile_leaves n { s.tile n with heat := (s.tile n).heat / 2 }
  refine ⟨_, hexec, fun hflash => ?_, fun x hx => ?_, ?_, ?_, rfl⟩
  · change (u.tile n).heat = _
    rw [hu, if_pos hflash, hcool, State.tile_setTile]
  · change u.tile x = _
    rw [hu]
    split_ifs
    · rw [hcool, State.tile_setTile_ne _ _ hx]
    · rfl
  · change u.mem = _
    rw [hu]
    split_ifs
    · exact hmem
    · rfl
  · change u.regs = _
    rw [hu]
    split_ifs
    · exact hregs
    · rfl

/-! ### Fills and the audit -/

theorem exec_tmcFill_of_good {s t : State} {line : Nat} (hfill : s.plc.tmcFills.contains line = true)
    (hserved : s.served (chOfLine (line / 64) (line / 4)) 1 line = some t) :
    exec (.tmcFill line []) s = .next (State.settle { t with plc := { t.plc with
      tmcFills := t.plc.tmcFills.filter (· != line)
      tmc := tmcPut t.dirtyLimit t.plc.clock t.plc.tmc line false
      clock := t.plc.clock + 1 } }) := by
  change execTmcFill line [] s = _
  simp only [execTmcFill, hfill, hserved, Bool.true_eq_false, if_false, List.filter_nil, List.map_nil, List.foldl_nil]

/-- The audit's second part, with no flash location held. -/
theorem State.serveQueue_of_noHeldFlash {t : State} (h : t.plc.heldFlash = []) :
    (((t.plc.heldFlash.filter fun l => !t.namesLoc false l).foldl State.invalidateLoc { t with plc := { t.plc with
      heldFlash := t.plc.heldFlash.filter fun l => !(t.plc.heldFlash.filter fun l => !t.namesLoc false l).contains l } })) = t := by
  have hsame : ({ t with plc := { t.plc with heldFlash := [] } } : State) = t := by rw [← h]
  simp only [h, List.filter_nil, List.foldl_nil]
  exact hsame

theorem exec_mapAudit_of_noHeldFlash {s t : State} (ht : t = (s.frames.filter fun e => e.2.held && !s.namesLoc true e.1).foldl
      (fun (u : State) e => State.noteFrames (if e.2.bad then State.retireFrame { u with frames := u.frames.erase e.1 } e.1
        else { u with frames := u.frames.erase e.1 })) s) (hflash : t.plc.heldFlash = []) :
    exec .mapAudit s = .next t.serveQueue.settle := by
  have hexec : exec .mapAudit s = .next (State.serveQueue ((t.plc.heldFlash.filter fun l => !t.namesLoc false l).foldl
      State.invalidateLoc { t with plc := { t.plc with
        heldFlash := t.plc.heldFlash.filter fun l => !(t.plc.heldFlash.filter fun l => !t.namesLoc false l).contains l } })).settle := by
    subst ht
    rfl
  rw [hexec, State.serveQueue_of_noHeldFlash hflash]

end Sys2Proof.Machine

namespace Sys2Proof.Proofs

open Sys2Proof Sys2Proof.Machine

/-- Settles O38: each sweep goes by whether its tile's map line is resident, and the audit by what it finds held. -/
theorem placementSweepsAndWaits : Obligations.PlacementSweepsAndWaits := by
  refine ⟨fun s tile hwait => ?_, fun s => rfl, fun s => rfl, fun s hon hframes hnone =>
    exec_frameSweepVisit_of_empty hon hframes hnone, fun s f hon hframes hf => ?_, fun s => rfl,
    fun s hon hhit => exec_mapSweepRead_of_hit hon hhit, fun s => rfl, fun s t line hfill hserved =>
    exec_tmcFill_of_good hfill hserved, fun s hnone hflash => ?_, fun s k f hone hbad hflash => ?_⟩
  · intro t
    change execPromoWaitOver tile s = _
    rw [execPromoWaitOver, if_neg (by simp [hwait])]
  · intro t
    refine ⟨fun hhit hheld hhome hloc => ?_, fun hmiss hfill => ?_⟩
    · rw [exec_frameSweepVisit_of_frame hon hframes hf, if_neg (by simp [hhit]),
        if_neg (by simp [hheld, hhome, hloc, inDram])]
      rfl
    · have hwant : s.sweepSeen.mapWant f.tile = s.sweepSeen.mapMiss f.tile := if_neg (by
        change ¬(s.plc.tmcFills.contains (mapLine f.tile) = true)
        rw [hfill]
        exact Bool.false_ne_true)
      rw [exec_frameSweepVisit_of_frame hon hframes hf, if_pos hmiss, hwant]
      rfl
  · exact exec_mapAudit_of_noHeldFlash (t := s) (by rw [hnone]; rfl) hflash
  · exact exec_mapAudit_of_noHeldFlash (t := State.noteFrames { s with frames := s.frames.erase k })
      (by rw [hone, List.foldl_cons, List.foldl_nil, hbad]; rfl) hflash

end Sys2Proof.Proofs
end

section
/-! SUPPORT. The lines of the HLC: fills, write-backs, cleaning and maintenance (R295–R313). -/

namespace Sys2Proof.Machine

section Lines

variable {s t u : State} {tile : Nat} {line : Fin 16}

/-- A line that fills and whose sectors are good is CLEAN. -/
theorem State.lineRead_of_filling {key : Nat} {w : Way} (hline : u.line? tile line = some (key, w))
    (hstate : w.state = .filling) :
    u.lineRead tile line [] false = (u.setWay key { w with state := .clean }).directDone (tile * 16 + line) := by
  simp only [State.lineRead, hline, hstate]
  rfl

theorem exec_hlcFillComplete_of_good {key : Nat} {w : Way} (hline : s.line? tile line = some (key, w))
    (hu : u = t.chiveHits (s.chanOf tile line) (s.tile tile).loc) (hstate : w.state = .filling)
    (hhome : inDram (s.tile tile).home = true) (hserved : s.served (s.chanOf tile line) 0 (tile * 16 + line) = some t)
    (huline : u.line? tile line = some (key, w)) (hgood : u.badInLine tile line 0 = []) :
    exec (.hlcFillComplete tile line 0 false 0) s =
      .next ((u.setWay key { w with state := .clean }).directDone (tile * 16 + line)).settle := by
  have hexec : exec (.hlcFillComplete tile line 0 false 0) s =
      .next (u.lineRead tile line (u.badInLine tile line 0) false).settle := by
    subst hu
    change execHlcFillComplete tile line 0 false 0 s = _
    simp only [execHlcFillComplete, hline, hstate, hhome, hserved, beq_self_eq_true, Bool.not_true, Bool.false_and,
      Bool.or_self, Bool.false_eq_true, if_false]
    rfl
  rw [hexec, hgood, State.lineRead_of_filling huline hstate]

theorem exec_hlcWritebackDone_of_written {key : Nat} {w : Way} (hline : s.line? tile line = some (key, w))
    (hu : u = t.chiveHits (s.chanOf tile line) (s.tile tile).loc) (hstate : w.state = .writingBack)
    (hserved : s.served (s.chanOf tile line) 2 (tile * 16 + line) = some t) :
    exec (.hlcWritebackDone tile line 0) s = .next (if w.inval && w.opens == 0 then
        ((u.writeCheck tile line 0).freeWay key).settle
      else ((u.writeCheck tile line 0).setWay key { w with state := .clean, dirty := false }).settle) := by
  subst hu
  change execHlcWritebackDone tile line 0 s = _
  simp only [execHlcWritebackDone, hline, hstate, hserved, bne_self_eq_false, Bool.false_eq_true, if_false, Fin.val_zero]

theorem exec_hlcEvbWriteComplete_of_written (hevb : s.inEvb tile line = true)
    (hserved : s.served (s.chanOf tile line) 2 (tile * 16 + line) = some t)
    (hu : u = t.chiveHits (s.chanOf tile line) (s.tile tile).loc) :
    exec (.hlcEvbWriteComplete tile line) s = .next (State.settle { u with
      hlc := { u.hlc with evb := u.hlc.evb.erase ({ tile := tile, line := line } : Evb) } }) := by
  subst hu
  change execHlcEvbWriteComplete tile line s = _
  simp only [execHlcEvbWriteComplete, hevb, hserved, Bool.true_eq_false, if_false]

theorem exec_hlcClean_of_lru {key : Nat} {w : Way} (hon : s.bit Reg.hlcCtl 0 = true) (hclean : s.cleaningNow = true)
    (hlru : s.lruDirty (hlcSlice tile) = some (key, w)) (htile : w.tile = tile) (hline : w.line = line) :
    exec (.hlcClean tile line) s = .next (State.settle (State.setWay { s with hlc := { s.hlc with cleaning := true } } key
      { w with state := .writingBack })) := by
  set v : State := { s with hlc := { s.hlc with cleaning := true } } with hv
  have hon' : v.bit Reg.hlcCtl 0 = true := hon
  have hlru' : v.lruDirty (hlcSlice tile) = some (key, w) := hlru
  have hrun : v.hlc.cleaning = true := rfl
  change execHlcClean tile line s = _
  rw [execHlcClean, hclean, ← hv]
  simp only [hon', hrun, hlru', htile, hline, beq_self_eq_true, Bool.and_self, Bool.true_eq_false, decide_false, Bool.or_self,
    Bool.false_eq_true, if_false, if_true]

end Lines

/-! ### Maintenance commands -/

/-- The fields of HLC_MAINT_CMD as a command writes them (R311). -/
theorem maintWord_facts (scope : Fin 4) :
    (Word.fld (w32 (4 * scope)) 1 0 = 0 ∧ Word.fld (w32 (4 * scope)) 3 2 = scope) ∧
      Word.fld (w32 (4 * scope + 1)) 1 0 = 1 ∧ Word.fld (w32 (4 * scope + 1)) 3 2 = scope := by
  revert scope
  decide

theorem State.writeAccess_hlcMaintCmd {s : State} (v : Nat) (h : s.cmdReady Reg.hlcMaintCmd) :
    s.writeAccess .firmware Reg.hlcMaintCmd 4 v =
      if Word.fld (w32 v) 1 0 ≤ 1 then s.maintStart (Word.fld (w32 v) 1 0 == 1) (Word.fld (w32 v) 3 2) else s := by
  obtain ⟨hawake, hgate, hreset⟩ := h
  have hserves : s.serves .firmware Reg.hlcMaintCmd { off := Reg.hlcMaintCmd, wo := 0xF } :=
    State.serves_firmware rfl hawake hgate (by decide)
  rw [State.writeAccess_command _ hserves rfl ⟨by decide, by decide⟩ ⟨rfl, rfl, rfl, rfl⟩ rfl rfl hreset]
  rfl

theorem exec_hlcMaint_of_ready {s : State} (scope : Fin 4) (h : s.cmdReady Reg.hlcMaintCmd) :
    exec (.hlcMaintWriteback .firmware scope) s = .next (s.maintStart false scope) ∧
      exec (.hlcMaintWbInval .firmware scope) s = .next (s.maintStart true scope) := by
  obtain ⟨⟨hop0, hscope0⟩, hop1, hscope1⟩ := maintWord_facts scope
  constructor
  · change execHlcMaintWriteback .firmware scope s = _
    rw [execHlcMaintWriteback, State.writeAccess_hlcMaintCmd _ h, hop0, hscope0]
    rfl
  · change execHlcMaintWbInval .firmware scope s = _
    rw [execHlcMaintWbInval, State.writeAccess_hlcMaintCmd _ h, hop1, hscope1]
    rfl

/-- How many of a maintenance command's lines are being filled. -/
def State.maintFills (s : State) (l : List (Nat × Nat)) : Nat :=
  (l.filter fun p => match s.line? p.1 p.2 with | some (_, w) => w.state == .filling | none => false).length

/-- A maintenance command, while none runs, takes its lines, counts those being filled, and begins. -/
theorem State.maintStart_of_idle {s : State} {scope : Nat} {l : List (Nat × Nat)} (hnone : s.hlc.maint = none) (hscope : scope < 3)
    (hl : l = (if scope = 0 then [((s.reg Reg.hlcMaintLo).toNat / 16 + 2 ^ 28 * s.fld Reg.hlcMaintHi 6 0, s.fld Reg.hlcMaintLo 3 0)]
      else if scope = 1 then (List.range 16).map fun i =>
        ((s.reg Reg.hlcMaintLo).toNat / 16 + 2 ^ 28 * s.fld Reg.hlcMaintHi 6 0, i)
      else s.hlc.ways.vals.map fun w => (w.tile, w.line))) {t : State}
    (ht : t = (s.countBy (Reg.hlcCount + 0x1C) (s.maintFills l)).setReg Reg.hlcMaintStatus
      (w32 (2 * b2n (s.bit Reg.hlcMaintStatus 1)))) (inval : Bool) :
    s.maintStart inval scope = State.settle { t with
      hlc := { t.hlc with maint := some { inval := inval, whole := scope == 2, todo := l } } } := by
  have hgo : ¬((s.hlc.maint.isSome || decide (3 ≤ scope)) = true) := by
    rw [hnone, decide_eq_false (Nat.not_le.2 hscope)]
    exact Bool.false_ne_true
  rw [State.maintStart, if_neg hgo]
  dsimp only
  rw [← hl, ht]
  rfl

end Sys2Proof.Machine

namespace Sys2Proof.Proofs

open Sys2Proof Sys2Proof.Machine

/-- Settles O39: each event is asked for the line's state and the access that its channel issues next. -/
theorem hlcLines : Obligations.HlcLines := by
  refine ⟨fun s t u tile key line w hline hu => ⟨exec_hlcFillComplete_of_good hline hu,
      exec_hlcWritebackDone_of_written hline hu⟩,
    fun s t u tile line hevb hserved hu => exec_hlcEvbWriteComplete_of_written hevb hserved hu,
    fun s tile key line w hon hclean hlru htile hline => exec_hlcClean_of_lru hon hclean hlru htile hline,
    fun s scope l t h hnone hscope hl ht => ?_, fun s m hm htodo => ?_, fun s slice set hheld => ?_⟩
  · obtain ⟨hwb, hinval⟩ := exec_hlcMaint_of_ready scope h
    exact ⟨hwb.trans (congrArg Host.Outcome.next (State.maintStart_of_idle hnone hscope hl ht false)),
      hinval.trans (congrArg Host.Outcome.next (State.maintStart_of_idle hnone hscope hl ht true))⟩
  · change execHlcMaintComplete s = _
    simp only [execHlcMaintComplete, hm, htodo, List.isEmpty_nil, if_true]
  · intro t
    change execTagSetScanDone slice set s = _
    rw [execTagSetScanDone, if_neg (by simp only [hheld, Bool.true_eq_false, not_false_eq_true])]

end Sys2Proof.Proofs
end

section
/-! SUPPORT. The events of a DRAM channel (R317–R338). -/

namespace Sys2Proof.Machine

/-- A refresh due on an ACTIVE channel: issued with those postponed, or postponed once more. -/
theorem exec_refreshDue_of_active {s : State} {ch : Fin 16} (rank : Nat) (hact : (s.chan ch).state = .active) :
    exec (.refreshDue ch rank) s = .next (
      if s.rankUrgent (s.queued ch (s.chan ch)) rank && decide ((s.chan ch).postponed.getD rank 0 < refreshLimit) then
        s.modChan ch fun x => { x with postponed := x.postponed.set rank ((s.chan ch).postponed.getD rank 0 + 1) }
      else (s.modChan ch fun x => { x with postponed := x.postponed.erase rank }).refreshes ch rank
        ((s.chan ch).postponed.getD rank 0 + 1)) := by
  change execRefreshDue ch rank s = _
  simp only [execRefreshDue, hact, bne_self_eq_false, Bool.false_and, Bool.false_eq_true, if_false]

/-- The temperature level of a rank is kept; one newly above its range is recorded. -/
theorem exec_mr4Poll_levels (s : State) (ch : Fin 16) (rank : Nat) :
    exec (.mr4Poll ch rank 0) s = .next (s.modChan ch fun c => { c with temps := c.temps.erase rank }) ∧
      exec (.mr4Poll ch rank 1) s = .next (s.modChan ch fun c => { c with temps := c.temps.set rank 1 }) ∧
      exec (.mr4Poll ch rank 2) s = .next (if (s.chan ch).temps.getD rank 0 ≠ 2 then
          (s.modChan ch fun c => { c with temps := c.temps.set rank 2 }).flagRecord (chOff Reg.dmcChEvent ch) 8 0x0A02 ch 0
        else s.modChan ch fun c => { c with temps := c.temps.set rank 2 }) := by
  refine ⟨rfl, rfl, ?_⟩
  change execMr4Poll ch rank 2 s = _
  by_cases hold : (s.chan ch).temps.getD rank 0 = 2
  · rw [execMr4Poll, if_neg (fun h => h.2 hold), if_neg (not_not.2 hold)]
    rfl
  · rw [execMr4Poll, if_pos ⟨rfl, hold⟩, if_pos hold]
    rfl

/-- A queued request that reaches its target is urgent, and LATE at twice its target. -/
theorem exec_requestAgeTarget_of_queued {s : State} {ch : Fin 16} {line : Nat}
    (hqueued : ((s.queued ch (s.chan ch)).queue.any fun r => r.line == line) = true) (late : Bool) :
    exec (.requestAgeTarget ch line late) s = .next (s.modChan ch fun c => { s.queued ch c with
      urgent := insertNew c.urgent line, late := if late then insertNew c.late line else c.late }).chanPoll := by
  change execRequestAgeTarget ch line late s = _
  rw [execRequestAgeTarget, if_pos hqueued]

end Sys2Proof.Machine

namespace Sys2Proof.Proofs

open Sys2Proof Sys2Proof.Machine

/-- Settles O40: the events read the channel's own record alone. -/
theorem dramChannelEvents : Obligations.DramChannelEvents := by
  intro s ch
  refine ⟨fun subB => ?_, rfl, fun rank => ?_, fun rank hact => ⟨?_, fun hissue => ?_, fun hurgent hroom => ?_⟩,
    fun bank => ⟨rfl, rfl⟩, fun line hqueued => ?_⟩
  · intro t
    exact ⟨rfl, rfl⟩
  · obtain ⟨h0, h1, h2⟩ := exec_mr4Poll_levels s ch rank
    exact ⟨h0, h1, fun hold => by rw [h2, if_neg (not_not.2 hold)], fun hold => by rw [h2, if_pos hold]⟩
  · change execOscTracking ch rank s = _
    rw [execOscTracking, if_pos (by rw [State.chActive, hact]; rfl)]
  · rw [exec_refreshDue_of_active rank hact, if_neg]
    rcases hissue with hcalm | hfull
    · simp [hcalm]
    · simp [Nat.not_lt.2 hfull]
  · rw [exec_refreshDue_of_active rank hact, if_pos (by rw [hurgent, decide_eq_true hroom]; rfl)]
  · have hexec := exec_requestAgeTarget_of_queued hqueued
    exact ⟨(hexec false).trans rfl, (hexec true).trans rfl⟩

end Sys2Proof.Proofs
end

section
/-! SUPPORT. A state whose table of stripe blocks lists one block twice, for the statement on flash (R378). -/

namespace Sys2Proof.Machine

/-- The unit that the dies of set 0 program in block 0. -/
def flyingUnit : Machine.Unit := { block := 0, reloc := false, tiles := [], flying := true }

/-- A table of stripe blocks that is not canonical: block 0 of set 0 is listed as open, and once more as free. The dies of
the set have programmed its unit. -/
def twiceListed : State :=
  { fmc := { blocks := [(0, { state := .opened }), (0, { state := .free })]
             units := [(0, flyingUnit)]
             ended := (List.range 8).map fun k => { die := 16 * k, level := 4, job := .prog 0 } } }

/-- The dies of set 0 have done the program of the unit. -/
theorem onSet_twiceListed : twiceListed.mediaStep.onSet 0 (.prog (sbKey 0 0)) = true := by
  decide +kernel

/-- Closing block 0 opens a free block in its place, and the one that the second entry names is block 0 itself. -/
theorem sb_unitUsed_twiceListed : ((twiceListed.unitUsed 0 flyingUnit true).sb 0 0).state = .opened := by
  decide +kernel

end Sys2Proof.Machine

namespace Sys2Proof.Proofs

open Sys2Proof Sys2Proof.Machine

/-- Refutes O42: its clause on a failed program unit has the block FULL after `unitUsed` in every state, canonical or not.
`unitUsed` also opens a free block of the set. Where the table lists the unit's block a second time, as free, that is the
block opened, and it is not FULL. -/
theorem not_flashReadsProgramsAndErases : ¬ Obligations.FlashReadsProgramsAndErases := by
  rintro ⟨-, -, -, -, hunit, -⟩
  obtain ⟨-, -, -, hfull⟩ := hunit twiceListed 0 0 flyingUnit rfl rfl onSet_twiceListed
  exact absurd (sb_unitUsed_twiceListed.symm.trans hfull) (by decide)

end Sys2Proof.Proofs
end

section
/-! SUPPORT. What the commands of the energy ledger do, for the statement on metering and tests (R399–R414). -/

namespace Sys2Proof.Machine

/-! ### Capacitance tests -/

/-- What a capacitance test does once 10 s of steady values exist: it takes the probe's block, notes the voltage, and has the
charger switched off and the load on (R400, R405). -/
def State.capDischarge (s : State) : State :=
  let u := State.probeTake { s with elg := { s.elg with retry := false } } 0 0
  State.psbElg (State.psbElg { u with elg := { u.elg with test := .running, preMv := s.fld Reg.elgVmv 15 0 } }
    (psbCharger false)) (psbLoad true)

theorem State.capStart_of_steady {s : State} (hidle : s.elg.test = .idle) (hsage : s.elg.sage = none)
    (hprobe : s.elg.probe = none) (hlen : 10000 ≤ s.elg.history.length) (hsteady : s.steady = true) :
    s.capStart = s.capDischarge := by
  have hbegin : s.capStart = State.capBegin { s with elg := { s.elg with retry := false } } := by
    rw [State.capStart, hidle, hsage, hprobe]
    exact if_neg (Nat.not_lt.mpr hlen)
  rw [hbegin, State.capBegin]
  exact if_pos hsteady

theorem State.writeAccess_elgCmd {s : State} (v : Nat) (h : s.cmdReady Reg.elgCmd) :
    s.writeAccess .firmware Reg.elgCmd 4 v =
      if Word.bit (w32 v) 1 then (if Word.bit (w32 v) 0 then s.capStart else s).saveTrigger .planned false
      else if Word.bit (w32 v) 0 then s.capStart else s := by
  obtain ⟨hawake, hgate, hreset⟩ := h
  have hserves : s.serves .firmware Reg.elgCmd { off := Reg.elgCmd, wo := 0x3 } :=
    State.serves_firmware rfl hawake hgate (by decide)
  rw [State.writeAccess_command _ hserves rfl ⟨by decide, by decide⟩ ⟨rfl, rfl, rfl, rfl⟩ rfl rfl hreset]
  rfl

/-- The three causes of a capacitance test. -/
theorem exec_capTest_starts {s : State} :
    (s.bit Reg.elgCtl 3 = true → exec .capTestPeriod s = .next s.capStart) ∧
      (s.elg.retry = true → exec .capTestRetry s = .next s.capStart) ∧
      (s.cmdReady Reg.elgCmd → exec (.elgCmdTest .firmware) s = .next s.capStart) := by
  refine ⟨fun h => ?_, fun h => ?_, fun h => ?_⟩
  · exact congrArg Host.Outcome.next (if_pos h)
  · exact congrArg Host.Outcome.next (if_pos h)
  · exact congrArg Host.Outcome.next (State.writeAccess_elgCmd 1 h)

/-- How the discharge of a running test ends. -/
theorem exec_capTestDropReached_of_running {s : State} (hrun : s.elg.test = .running) (uc mv : Nat) (ok rose : Bool) :
    exec (.capTestDropReached uc mv ok rose) s = .next (
      if !ok || rose then s.capFail
      else if mv < s.fld Reg.elgTestCfg 26 16 ∨ mv = 0 then s
      else s.capResult (uc / mv)) := by
  change execCapTestDropReached uc mv ok rose s = _
  rw [execCapTestDropReached, hrun]

theorem exec_capTestTimeout_of_running {s : State} (hrun : s.elg.test = .running) :
    exec .capTestTimeout s = .next s.capFail := by
  change execCapTestTimeout s = _
  rw [execCapTestTimeout, hrun]

/-! ### The save-rate probe -/

/-- The probe of a set has been timed, and another set's turn comes. -/
theorem exec_saveRateProbe_of_more {s : State} {set sum : Nat} (rate stream p : Nat) (hprobe : s.elg.probe = some (set, sum))
    (hmore : set + 1 < (s.probeErase set).sets) : exec (.saveRateProbe rate stream p) s =
      .next (((s.probeErase set).probeTake (set + 1) (sum + rate)).saveShort.settle) := by
  change execSaveRateProbe rate stream p s = _
  simp only [execSaveRateProbe, hprobe, hmore, if_true]

/-- The probe of the last set has been timed, and gives a COST. -/
theorem exec_saveRateProbe_of_last {s t : State} {set sum c : Nat} (rate stream p : Nat)
    (hprobe : s.elg.probe = some (set, sum)) (ht : t = s.probeErase set) (hlast : t.sets ≤ set + 1) (hc : c ≠ 0)
    (hcost : c = costOf (if t.elg.pSaveMw = 0 then p else t.elg.pSaveMw) (min (sum + rate) stream)) :
    exec (.saveRateProbe rate stream p) s =
      .next ((State.costDerived { t with elg := { t.elg with probe := none } } c).saveShort.ledgerEval.settle) := by
  subst ht
  change execSaveRateProbe rate stream p s = _
  simp only [execSaveRateProbe, hprobe, if_neg (Nat.not_lt.mpr hlast), ← hcost, if_neg hc]

/-! ### The registers that ELG checks as they are written -/

theorem writeAccess_checkedElg {s : State} (v : Word) (d : RegDesc) :
    (s.serves .firmware Reg.elgReserve d → s.writeAccess .firmware Reg.elgReserve 4 v.toNat = s.writeReserve v) ∧
      (s.serves .firmware Reg.elgTestCfg d → s.writeAccess .firmware Reg.elgTestCfg 4 v.toNat = s.writeTestCfg v) ∧
      (s.serves .firmware Reg.elgSaveCfg d → s.writeAccess .firmware Reg.elgSaveCfg 4 v.toNat = s.writeSaveCfg v) := by
  refine ⟨fun h => ?_, fun h => ?_, fun h => ?_⟩ <;>
  · rw [State.writeAccess_of_serves _ h (.inl rfl), w32_toNat]
    obtain ⟨-, -, -, hdesc, -, -⟩ := h
    cases hdesc
    rfl

end Sys2Proof.Machine

namespace Sys2Proof.Proofs

open Sys2Proof Sys2Proof.Machine

/-- Settles O43: each command of the ledger by the lemma on it; the checked registers by their own write functions. -/
theorem ledgerMetersAndTests : Obligations.LedgerMetersAndTests := by
  refine ⟨fun s mv ma hmeter => ?_, fun s => rfl, fun s hdeficit => ?_, fun s hmeter hon hwait hbusy => ?_,
    fun s hidle hsage hprobe hlen hsteady => ?_, fun s uc mv hrun => ?_, fun s t rate stream p set sum hprobe ht => ?_,
    fun s v d => ?_⟩
  · exact congrArg Host.Outcome.next (if_pos hmeter)
  · change execCatchupExpiry s = _
    rw [execCatchupExpiry, hdeficit]
    simp only [State.ledgerEnter, hdeficit]
  · change execModuleTempRead s = _
    simp only [execModuleTempRead, State.metering, hmeter, hwait, beq_false_of_ne hbusy, Bool.not_true, Bool.or_self,
      Bool.false_eq_true, if_false, State.psbElg, State.holdupOff, beq_false_of_ne hon]
  · obtain ⟨hperiod, hretry, hcmd⟩ := exec_capTest_starts (s := s)
    rw [State.capStart_of_steady hidle hsage hprobe hlen hsteady] at hperiod hretry hcmd
    exact ⟨hperiod, hretry, hcmd⟩
  · refine ⟨fun hmv hdrop => ?_, fun ok => ⟨?_, ?_⟩, exec_capTestTimeout_of_running hrun⟩ <;>
      rw [exec_capTestDropReached_of_running hrun]
    · rw [if_neg (by decide), if_neg (not_or.mpr ⟨Nat.not_lt.mpr hdrop, hmv⟩)]
    · rw [if_pos (Bool.or_true _)]
    · rw [if_pos (show (!false || ok) = true from Bool.true_or ok)]
  · refine ⟨fun hmore => ?_, fun c hlast hc hcost => exec_saveRateProbe_of_last rate stream p hprobe ht hlast hc hcost⟩
    subst ht
    exact exec_saveRateProbe_of_more rate stream p hprobe hmore
  · obtain ⟨hreserve, htest, hsave⟩ := writeAccess_checkedElg (s := s) v d
    exact ⟨fun h => congrArg Host.Outcome.next (hreserve h), fun h => congrArg Host.Outcome.next (htest h),
      fun h => congrArg Host.Outcome.next (hsave h)⟩

end Sys2Proof.Proofs
end

section
/-! SUPPORT. What a flush leaves of the energy ledger, and each command of a save and of a restore, for the statement on them
(R415–R425). -/

namespace Sys2Proof.Machine

/-! ### What the flush of a save leaves -/

theorem State.elg_of_still {s t : State} (h : t.still = s.still) : t.elg = s.elg := congrArg (fun v => v.1.elg) h

theorem State.elg_of_noEfl {s t : State} (h : t.noEfl = s.noEfl) : t.elg = s.elg :=
  (congrArg State.elg h :)

@[simp] theorem State.elg_setTile (s : State) (x : Nat) (e : TileEnt) : (s.setTile x e).elg = s.elg := by
  unfold State.setTile
  split_ifs <;> rfl

@[simp] theorem State.elg_retireFrame (s : State) (frame : Nat) : (s.retireFrame frame).elg = s.elg := by
  unfold State.retireFrame
  split_ifs
  · rfl
  · exact (State.elg_of_noEfl (State.noEfl_areaPut _ _ _)).trans rfl
  · exact State.elg_of_still (State.still_record _ _ _ _ _)

@[simp] theorem State.elg_freeFrameNo (s : State) (frame : Nat) : (s.freeFrameNo frame).elg = s.elg := by
  unfold State.freeFrameNo
  extract_lets bad t
  change (if bad = true then t.retireFrame frame else t).elg = s.elg
  split_ifs
  · exact State.elg_retireFrame _ _
  · rfl

@[simp] theorem State.elg_emptyCheck (s : State) (set block : Nat) : (s.emptyCheck set block).elg = s.elg := by
  unfold State.emptyCheck
  extract_lets b
  by_cases hbusy : b.valid ≠ 0 ∨ s.pendingTo set block = true
  · rw [if_pos hbusy]
  · rw [if_neg hbusy]
    split
    · rfl
    · exact (apply_ite State.elg _ _ _).trans (ite_self _)
    · rfl

@[simp] theorem State.elg_cmdTile (s : State) (cmd tile : Nat) (miss : Bool) : (s.cmdTile cmd tile miss).elg = s.elg := rfl

@[simp] theorem State.elg_joinEnd (s : State) (cmds peers : List Nat) (tile : Nat) (moved pinned : Bool) :
    (s.joinEnd cmds peers tile moved pinned).elg = s.elg := by
  unfold State.joinEnd
  dsimp only
  split_ifs
  · exact foldl_keeps State.elg (fun t c => State.elg_cmdTile t c tile _) cmds s
  · exact (State.elg_of_still (State.still_post _ _)).trans
      (foldl_keeps State.elg (fun t c => State.elg_cmdTile t c tile _) cmds s)

@[simp] theorem State.elg_dropMove (s : State) (tile : Nat) (miss : Bool) : (s.dropMove tile miss).elg = s.elg := by
  unfold State.dropMove
  split
  · rfl
  · rw [State.elg_joinEnd]
    split_ifs <;> simp only [State.elg_emptyCheck] <;> split <;> simp [State.modTile]

@[simp] theorem State.elg_dropChannel (s : State) (n : Nat) (c : Cmd) : (s.dropChannel n c).elg = s.elg := by
  unfold State.dropChannel
  split <;> rfl

@[simp] theorem State.elg_dropLink (s : State) (port link : Nat) (fence : Bool) : (s.dropLink port link fence).elg = s.elg := by
  unfold State.dropLink
  split
  · rfl
  · refine (foldl_keeps State.elg (fun t ld => ?_) _ _).trans ?_
    · exact (State.elg_of_still (State.still_abortReqs t (ofLd ld)) :)
    · split_ifs <;> rfl

@[simp] theorem State.elg_netDown (s : State) (port : Nat) : (s.netDown port).elg = s.elg := by
  unfold State.netDown
  split_ifs
  · exact (State.elg_of_still (State.still_record _ _ _ _ _)).trans rfl
  · rfl

@[simp] theorem State.elg_qpFree (s : State) (idx : Nat) : (s.qpFree idx).elg = s.elg := by
  unfold State.qpFree
  split
  · split_ifs <;> rfl
  · rfl

@[simp] theorem State.elg_qpLost (s : State) (idx : Nat) : (s.qpLost idx).elg = s.elg :=
  (State.elg_qpFree _ _).trans (State.elg_of_still (State.still_mbxReset _ _))

/-- The hosts' links, ports and QPs go without a change of the ledger. -/
theorem State.elg_hostsOff (s : State) (fence : Bool) : (s.hostsOff fence).elg = s.elg := by
  have hports : (s.portsOff fence).elg = s.elg := by simp [State.portsOff]
  have hkeep : ∀ (t : State) (k : Nat),
      (if (t.mbx.get? k).isSome then t.modMb k fun m => { m with held := none } else t).elg = t.elg := by
    intro t k
    split_ifs <;> rfl
  unfold State.hostsOff
  extract_lets t u v
  have hu : u.elg = t.elg := foldl_keeps State.elg State.elg_netDown (List.range 8) t
  have hv : v.elg = u.elg := foldl_keeps State.elg State.elg_qpLost u.rdx.qps.keys u
  exact (foldl_keeps State.elg hkeep (List.range 32) v).trans (hv.trans (hu.trans hports))

theorem State.elg_shaumOff (s : State) : s.shaumOff.elg = s.elg := rfl

/-- Phase 2 leaves the save as it is. -/
theorem State.elg_saveFlush (s : State) : s.saveFlush.elg = s.elg := by
  unfold State.saveFlush
  extract_lets t u v
  have ht : t.elg = s.elg := foldl_keeps State.elg (fun t x => State.elg_dropMove t x true) s.moves.keys s
  have hu : u.elg = t.elg := foldl_keeps State.elg (fun t (e : Nat × Cmd) => State.elg_dropChannel t e.1 e.2) t.cmds t
  have hv : v.elg = u.elg := (State.elg_shaumOff _).trans (State.elg_hostsOff u false)
  clear_value v u t
  exact hv.trans (hu.trans ht)

/-! ### The save -/

/-- A save trigger while none runs, in a device that is up (R415, R416). -/
def State.saveGo (s : State) (tr : Trigger) : State :=
  let t := (s.wakeFor .elg).capAbort.probeEnd.flagRecord Reg.elgEvent 8 0x0C04 0 0
  let u : State := { t with noAdmit := true, efl := eflSaveHold t.efl }
  if s.bit Reg.elgCtl 4 = false then u.downStart (downOf tr false) else
    (let v := ((State.setReg { u with
        twn := { u.twn with self := .saving, fast := true },
        elg := { u.elg with sage := some { phase := 1, trigger := tr, startTime := s.time,
                                           single := s.single && !s.twn.fenceIn, saved := [], openList := [], logs := [],
                                           sys := false, energy0 := 0, capMf := s.fld Reg.elgCap 19 0 } } }
        Reg.elgSageTiles 0).setReg Reg.elgSageMs 0).setPhase 9
     (if v.paired && v.linkIsUp && !v.peerSaving then v.startHandoff v.ownedRegions else v).settle)

theorem State.saveTrigger_of_idle {s : State} (tr : Trigger) (hsage : s.elg.sage = none) (hseq : s.pws.seq ≠ .powerDown)
    (hlive : s.fw.activating = none) : s.saveTrigger tr false = s.saveGo tr := by
  have hstop : s.liveStop = s := by rw [State.liveStop, hlive]
  unfold State.saveTrigger
  rw [if_neg, hstop]
  · rfl
  · cases h : s.pws.seq <;> simp_all

/-- Samples of HOLD_FAIL (R415). -/
theorem exec_holdFail_of_three {s : State} {n : Nat} (hn : 3 ≤ n) :
    exec (.holdFail n) s = .next (s.saveTrigger .holdFail false) := by
  change execHoldFail n s = _
  rw [execHoldFail, if_neg (by omega), if_neg (by omega)]

theorem exec_elgCmdSave_of_ready {s : State} (h : s.cmdReady Reg.elgCmd) :
    exec (.elgCmdSave .firmware) s = .next (s.saveTrigger .planned false) :=
  congrArg Host.Outcome.next (State.writeAccess_elgCmd 2 h)

section Phases

variable {s : State} {g : Sage} (hsage : s.elg.sage = some g)
include hsage

theorem State.modSage_of_running (f : Sage → Sage) : s.modSage f = { s with elg := { s.elg with sage := some (f g) } } := by
  rw [State.modSage, hsage]
  rfl

theorem State.nextSage_of_running : s.nextSage g = { s with elg := { s.elg with sage := some { g with
    phase := g.phase + 1,
    tilesDram := if g.phase + 1 = 4 then s.tiles.count fun e => inDram e.home else g.tilesDram,
    vEnd := if g.phase + 1 = 7 then s.fld Reg.elgVmv 15 0 else g.vEnd } } } :=
  State.modSage_of_running hsage _

/-- The drain's end logs the acknowledged writes that are not open, and flushes. -/
theorem yields_saveDrainEnd (hphase : g.phase = 1) (hawake : s.isl.quiet = .awake) :
    Yields .saveDrainEnd s fun t => ∃ h, t.elg.sage = some h ∧ h.phase = 2 ∧ h.openList = s.openTiles ∧
      h.logs.length = (s.reqs.filter fun e => isWrite e.2.op && e.2.acked &&
        (e.2.stage != .opened || !e.2.todo.isEmpty)).length ∧ t.cmds = [] ∧ t.hlc.evb = [] := by
  have hkept : (s.reqs.keys.foldl State.dropReq s).saveFlush.elg.sage = some g := by
    rw [State.elg_saveFlush]
    exact (congrArg Elg.sage (foldl_keeps State.elg (fun t id => State.elg_of_still (State.still_dropReq t id)) _ s)).trans
      hsage
  have hgo : ¬ (g.phase ≠ 1 ∨ s.isl.quiet ≠ .awake) := by simp [hphase, hawake]
  have hexec : exec .saveDrainEnd s = execSaveDrainEnd s := rfl
  simp only [execSaveDrainEnd, hsage, if_neg hgo] at hexec
  refine ⟨_, hexec, ?_⟩
  rw [State.modSage_of_running hkept]
  exact ⟨_, rfl, rfl, rfl, List.length_map _, rfl, rfl⟩

/-- A phase that is only done: the next follows. -/
theorem exec_sagePhaseEnd_of_done (n : Nat) (hphase : g.phase = 2 ∨ g.phase = 3 ∧ (s.chainLoc 262143).isSome = true ∨
    g.phase = 4 ∧ (s.chainLoc (s.sectionSlots - 1)).isSome = true) :
    exec (.sagePhaseEnd n) s = .next (s.nextSage g) := by
  have hshort : ¬ (g.phase = 3 ∧ (s.chainLoc 262143).isNone = true ∨
      g.phase = 4 ∧ (s.chainLoc (s.sectionSlots - 1)).isNone = true) := by
    obtain h | ⟨h, hloc⟩ | ⟨h, hloc⟩ := hphase
    · omega
    · simp [h, Option.isNone_eq_false_iff.mpr hloc]
    · simp [h, Option.isNone_eq_false_iff.mpr hloc]
  change execSagePhaseEnd n s = _
  simp only [execSagePhaseEnd, hsage]
  rw [if_neg (by omega), if_neg (by omega), if_neg (by omega), if_neg hshort]

/-- A phase for which the READY blocks do not suffice: no image. -/
theorem exec_sagePhaseEnd_of_short (n : Nat) (hphase : g.phase = 3 ∧ s.chainLoc 262143 = none ∨
    g.phase = 4 ∧ s.chainLoc (s.sectionSlots - 1) = none) :
    exec (.sagePhaseEnd n) s =
      .next (s.modSage fun x => { x with phase := 7, result := 3, vEnd := s.fld Reg.elgVmv 15 0 }) := by
  change execSagePhaseEnd n s = _
  simp only [execSagePhaseEnd, hsage, Option.isNone_iff_eq_none]
  rw [if_neg (by omega), if_neg (by omega), if_neg (by omega), if_pos hphase]

/-- A phase of tiles with none left. -/
theorem exec_sagePhaseEnd_of_written (n : Nat) (hphase : g.phase = 5 ∨ g.phase = 6) (hleft : s.tilesLeft g = []) :
    exec (.sagePhaseEnd n) s =
      .next (((s.modSage fun _ => g).setReg Reg.elgSageTiles (w32 g.saved.length)).nextSage g) := by
  have hsame : s.saveTiles n (s.tilesLeft g) g = g := by rw [hleft]; cases n <;> rfl
  have hleft' : ((s.modSage fun _ => g).setReg Reg.elgSageTiles (w32 g.saved.length)).tilesLeft g = [] := hleft
  change execSagePhaseEnd n s = _
  simp only [execSagePhaseEnd, hsage]
  rw [if_neg (by omega), if_neg (by omega), if_pos hphase]
  simp only [hsame, hleft', List.isEmpty_nil, and_self, if_true]

/-- Phase 7 ends with the record and the power-down. -/
theorem exec_sagePhaseEnd_of_last (n : Nat) (hphase : g.phase = 7) : exec (.sagePhaseEnd n) s = .next (s.saveEnd g) := by
  change execSagePhaseEnd n s = _
  simp only [execSagePhaseEnd, hsage]
  rw [if_neg (by omega), if_pos hphase]

/-- At the final energy the save goes to phase 7. -/
theorem exec_saveFinalEnergy_of_running (hfrom : 3 ≤ g.phase) (hlast : g.phase ≠ 7) :
    exec .saveFinalEnergy s = .next (s.modSage fun x => { x with
      phase := 7, result := if g.phase ≤ 4 then 3 else 2, vEnd := s.fld Reg.elgVmv 15 0 }) := by
  change execSaveFinalEnergy s = _
  simp only [execSaveFinalEnergy, hsage]
  rw [if_neg (by omega)]

end Phases

/-! ### Restore and admission -/

/-- RESTORE before admission, beside a peer that does not serve (R422, R423). -/
theorem exec_restore_of_cold {s t : State} {l : List Nat} (hadm : s.admitted = false) (hphase : s.phase < 5)
    (hsage : s.elg.sage = none) (hwarm : s.fw.warm = false) (ht : t = (s.restoreDo l).setPhase 5)
    (hcold : t.fw.warm = false) (hserves : t.peerServes = false)
    (peer : Option (Bool × List (Nat × Bool × Bool × Nat))) :
    exec (.restore l peer) s = .next (match peer with
      | some (single, es) => (t.settleAll t.newestRec single es).settle.notePhase
      | none => t.settle) := by
  have hgo : ¬ ((s.admitted || decide (6 ≤ s.phase) || s.elg.sage.isSome) = true) := by
    simp [hadm, hsage]
    omega
  subst ht
  change execRestore l peer s = _
  simp only [execRestore, if_neg hgo, if_neg (show ¬ s.phase = 5 by omega), hwarm, Bool.false_eq_true, if_false, hcold,
    hserves] <;>
    cases peer <;> rfl

/-- A region whose conditions hold, and whose keys are here or cannot be fetched, is admitted (R34). -/
theorem exec_regionAdmit_of_may {s t : State} {id : Fin 4096} (hmay : s.mayAdmit id = true)
    (ht : t = (s.admitHosts.regionState id .online).notePhase) (hkeys : (t.paired && (t.sec.keys.get? id.val).isNone) = false) :
    exec (.regionAdmit id) s =
      .next ((if (t.region id).ensign == .owner then t.requeue id else t).servePinned.settle) := by
  subst ht
  change Host.Outcome.next (s.admitRegion id) = _
  simp only [State.admitRegion, hmay, if_true, hkeys, Bool.false_eq_true, if_false]

/-- What a twin alone claims of its one region, after a cold start. -/
theorem State.aloneClaim_of_cold {s : State} (hwarm : s.fw.warm = false) (r : Option SaveRec) (id : Nat) :
    s.aloneClaim r id = match sideOf r id with | some a => if a.single then 1 else 3 | none => 3 :=
  if_neg (by simp [hwarm])

/-- The wait for the peer has ended (R35). -/
theorem exec_peerWaitExpiry_of_alone {s : State} {id : Nat} {r : Region} (hadm : s.admitted = false)
    (hans : s.peerAnswered = false) (hpair : s.paired = false) (hsingle : s.single = false) (hfence : s.twn.fenceIn = false)
    (hhalt : s.isHalted = false) (hregions : s.regions = [(id, r)]) :
    exec .peerWaitExpiry s = .next (
      if s.aloneClaim s.newestRec id ≤ 1 then
        ({ s with twn := { s.twn with settled := [(id, s.aloneClaim s.newestRec id)] } } : State).fencePeer true
      else { s with twn := { s.twn with settled := [(id, s.aloneClaim s.newestRec id)] } }) := by
  have hget : Tbl.getD [(id, s.aloneClaim s.newestRec id)] id 3 = s.aloneClaim s.newestRec id := by
    simp [Tbl.getD, Tbl.get?]
  have hkeys : Tbl.keys [(id, r)] = [id] := rfl
  change execPeerWaitExpiry s = _
  simp only [execPeerWaitExpiry, hadm, hans, hpair, hsingle, hfence, hhalt, hregions, hkeys, Bool.or_self, Bool.false_eq_true,
    if_false, List.foldl_cons, List.foldl_nil, Tbl.set, List.any_cons, List.any_nil, Bool.or_false, hget, decide_eq_true_eq]

/-- A region that both twins saved whole, and neither as single survivor, is settled for this one (R36). -/
def settleBoth (r : Option SaveRec) (single : Bool) (es : List (Nat × Bool × Bool × Nat)) (m : Tbl Nat) (id : Nat) : Tbl Nat :=
  match sideOf r id, peerSide single es id with
  | some a, some b => if a.complete && b.complete && !a.single && !b.single then m.set id 1 else m
  | _, _ => m

/-- The regions of a HALTED peer are settled from both records (R36). -/
theorem exec_haltedPeerAdmission_of_halted {s t : State} {b : Burgee} {single : Bool} {es : List (Nat × Bool × Bool × Nat)}
    (hadm : s.admitted = false) (hpeer : s.twn.peerB = some b) (hphase : b.phase = 11) (hlink : s.linkIsUp = true)
    (hfence : s.twn.fenceIn = false) (hhalt : s.isHalted = false) (ht : t = s.settleAll s.newestRec single es) :
    let u : State := { t with twn := { t.twn with
      settled := t.regions.keys.foldl (settleBoth s.newestRec single es) t.twn.settled } }
    exec (.haltedPeerAdmission es single) s = .next (State.settle (if u.twn.fenceOk then u.fencePeer false else u)) := by
  have hhalted : s.peerHalted = true := by simp [State.peerHalted, hpeer, hphase]
  have hgo : ¬ ((s.admitted || !s.peerHalted || !s.linkIsUp || s.twn.fenceIn || s.isHalted) = true) := by
    simp [hadm, hhalted, hlink, hfence, hhalt]
  subst ht
  exact congrArg Host.Outcome.next (if_neg hgo)

end Sys2Proof.Machine

namespace Sys2Proof.Proofs

open Sys2Proof Sys2Proof.Machine

/-- Settles O45: the trigger, the phases of a running save, restore, and the ways to admission, each by the lemma on it. -/
theorem saveRestoreAndAdmission : Obligations.SaveRestoreAndAdmission := by
  refine ⟨fun s tr hsage hseq hlive => ?_, fun s => ⟨rfl, rfl⟩, fun s g hsage => ?_,
    fun s t l hadm hphase hsage hwarm ht hcold hserves => ?_, fun s t id hmay ht hkeys => exec_regionAdmit_of_may hmay ht hkeys,
    fun s id r hadm hans hpair hsingle hfence hhalt hregions hwarm => ?_,
    fun s t b single es hadm hpeer hphase hlink hfence hhalt ht =>
      exec_haltedPeerAdmission_of_halted hadm hpeer hphase hlink hfence hhalt ht⟩
  · have hgo := State.saveTrigger_of_idle (s := s) tr hsage hseq hlive
    refine ⟨fun n hn htr => ?_, fun htr hready => ?_⟩ <;> subst htr
    · exact (exec_holdFail_of_three hn).trans (congrArg Host.Outcome.next hgo)
    · exact (exec_elgCmdSave_of_ready hready).trans (congrArg Host.Outcome.next hgo)
  · refine ⟨yields_saveDrainEnd hsage, fun hphase n => ?_, fun hphase n => ?_,
      fun hphase n hleft => exec_sagePhaseEnd_of_written hsage n hphase hleft, fun hphase n u v w hu hv hw => ?_,
      fun hfrom hlast => ?_⟩
    · rw [exec_sagePhaseEnd_of_done hsage n hphase, State.nextSage_of_running hsage]
    · rw [exec_sagePhaseEnd_of_short hsage n hphase, State.modSage_of_running hsage]
    · subst hu
      subst hv
      subst hw
      exact exec_sagePhaseEnd_of_last hsage n hphase
    · rw [exec_saveFinalEnergy_of_running hsage hfrom hlast, State.modSage_of_running hsage]
  · have hrestore := exec_restore_of_cold hadm hphase hsage hwarm ht hcold hserves
    exact ⟨hrestore none, fun single es => hrestore (some (single, es))⟩
  · have hexpiry := exec_peerWaitExpiry_of_alone hadm hans hpair hsingle hfence hhalt hregions
    rw [State.aloneClaim_of_cold hwarm] at hexpiry
    exact hexpiry

end Sys2Proof.Proofs
end

section
/-! SUPPORT. The states of the Shaum Link, and the commands that move it between them (R441–R452, R550). -/

namespace Sys2Proof.Machine

/-! ### Training -/

theorem State.lane_modLane (s : State) (g k : Nat) (f : Lane → Lane) :
    (s.modLane g f).lane k = if k = g then f (s.lane g) else s.lane k := by
  simp only [State.lane, State.modLane, Tbl.upd, Tbl.getD, Tbl.get?_set]
  split_ifs <;> rfl

/-- A lane group begins training. -/
def State.laneTrainStart (s : State) (g : Nat) : State :=
  (s.modLane g fun l => { l with up := false, retraining := true }).emit (.laneTrain g)

theorem State.lane_laneTrainStart (s : State) (g k : Nat) :
    (s.laneTrainStart g).lane k = if k = g then { s.lane g with up := false, retraining := true } else s.lane k :=
  State.lane_modLane s g k _

theorem State.shaumTrain_of_down {s : State} (hfence : s.twn.fenceIn = false) (hen : s.bit Reg.twnCtl 0 = true)
    (hdown : s.twn.link = .down) :
    s.shaumTrain = [0, 1, 2, 3].foldl State.laneTrainStart { s with twn := { s.twn with link := .training } } := by
  have hgo : ¬ ((s.twn.fenceIn || !s.bit Reg.twnCtl 0) = true) := by simp [hfence, hen]
  rw [State.shaumTrain, if_neg hgo, hdown]
  rfl

/-- Each lane group of a link that begins training trains. -/
theorem State.shaumTrain_trains {s : State} (hfence : s.twn.fenceIn = false) (hen : s.bit Reg.twnCtl 0 = true)
    (hdown : s.twn.link = .down) :
    s.shaumTrain.twn.link = .training ∧ ∀ g < 4, (s.shaumTrain.lane g).retraining = true := by
  rw [State.shaumTrain_of_down hfence hen hdown]
  refine ⟨rfl, fun g hg => ?_⟩
  simp only [List.foldl_cons, List.foldl_nil, State.lane_laneTrainStart]
  interval_cases g <;> rfl

/-- TWN_CTL is a register of RW bits, without ranges. -/
theorem twnCtl_facts (s : State) (old new val w : Word) : s.rejects Reg.twnCtl w = false ∧ storedVal Reg.twnCtl old w = w ∧
    s.writeFx Reg.twnCtl old new val = s.linkEnDo (Word.bit old 0) (Word.bit new 0) :=
  ⟨rfl, rfl, rfl⟩

/-- At reset LINK_EN is 0, and a write of TWN_CTL is stored. -/
theorem State.writeAccess_twnCtl {s : State} {v : Word} (h : s.cmdReady Reg.twnCtl) (hv : v.toNat < 32) :
    s.writeAccess .firmware Reg.twnCtl 4 v.toNat =
      if Word.bit v 0 then (s.setReg Reg.twnCtl v).shaumTrain else s.setReg Reg.twnCtl v := by
  obtain ⟨hawake, hgate, hreset⟩ := h
  have hserves : s.serves .firmware Reg.twnCtl { off := Reg.twnCtl, rst := 0x10, rw := 0x1F } :=
    State.serves_firmware rfl hawake hgate (by decide)
  have hreg : s.reg Reg.twnCtl = w32 0x10 := by
    rw [State.reg, hreset]
    rfl
  have hlow : ∀ i, i < 32 → (0x1F : Nat).testBit i = false → i < 5 → False := by decide
  have hhigh : ∀ i, i < 32 → 5 ≤ i → (w32 0x10).getLsbD i = false := by decide
  have hmerged : s.merged Reg.twnCtl { off := Reg.twnCtl, rst := 0x10, rw := 0x1F } v true = v := by
    refine State.merged_of_rw s _ ⟨rfl, rfl, rfl⟩ fun i hi hrw => ?_
    have hle : 5 ≤ i := by
      by_contra hlt
      exact hlow i hi hrw (by omega)
    have hzero : v.toNat.testBit i = false :=
      Nat.testBit_lt_two_pow (hv.trans_le (Nat.pow_le_pow_right (show 0 < 2 by decide) hle))
    exact hzero.trans ((hhigh i hi hle).symm.trans (congrArg (fun w : Word => w.getLsbD i) hreg.symm))
  rw [State.writeAccess_of_serves _ hserves (.inl rfl), w32_toNat,
    State.writeReg_plain _ _ _ _ rfl ⟨by decide, by decide⟩]
  obtain ⟨hrej, hstored, -⟩ := twnCtl_facts s (s.reg Reg.twnCtl) v v v
  obtain ⟨-, -, hfx⟩ := twnCtl_facts (s.setReg Reg.twnCtl v) (s.reg Reg.twnCtl) v v v
  rw [show pathFw .firmware = true from rfl, hmerged]
  have hput : s.putReg Reg.twnCtl v v = (s.setReg Reg.twnCtl v).linkEnDo (Word.bit (w32 0x10) 0) (Word.bit v 0) := by
    unfold State.putReg
    dsimp only
    rw [hstored, hrej, if_neg Bool.false_ne_true, hfx, hreg]
  have hbit : Word.bit (w32 0x10) 0 = false := rfl
  rw [hput, State.linkEnDo, hbit, Bool.not_false, Bool.and_true, Bool.false_and, if_neg Bool.false_ne_true]

/-! ### Lane groups -/

theorem exec_laneGroup_of_training {s : State} {g : Fin 4} (h : s.twn.link = .training) : exec (.laneGroupTrained g) s =
    .next (s.modLane g fun l => { l with up := true, retraining := false }).toKeying := by
  change execLaneGroupTrained g s = _
  simp only [execLaneGroupTrained, h]

theorem exec_laneGroup_of_up {s : State} {g : Fin 4} (h : s.twn.link = .up) (hlane : (s.lane g).up = false) :
    exec (.laneGroupRetry g) s = .next ((s.modLane g fun l => { l with retraining := true }).emit (.laneTrain g)) ∧
      exec (.laneGroupTrained g) s = .next (s.modLane g fun l => { l with up := true, retraining := false }) := by
  constructor
  · change execLaneGroupRetry g s = _
    simp only [execLaneGroupRetry, h, hlane, Bool.false_eq_true, if_false]
  · change execLaneGroupTrained g s = _
    simp only [execLaneGroupTrained, h]

/-- What the loss of a lane group leaves before the link looks at the others. -/
def State.laneLost (s : State) (g : Nat) : State :=
  ((s.modLane g fun l => { l with up := false, retraining := true }).flag Reg.twnEvent 7).err1 13 .degraded

theorem State.link_laneLost (s : State) (g : Nat) : (s.laneLost g).twn.link = s.twn.link := rfl

theorem exec_laneGroupDown_of_up {s : State} {g : Fin 4} (h : s.twn.link = .up) (hlane : (s.lane g).up = true) :
    exec (.laneGroupDown g) s =
      .next (if (s.laneLost g).lanesUp.isEmpty then (s.laneLost g).shaumOff else (s.laneLost g).emit (.laneTrain g)) := by
  have hlink : (((s.modLane g fun l => { l with up := false, retraining := true }).flag Reg.twnEvent 7).err1 13
      .degraded).twn.link = .up := (State.link_laneLost s g).trans h
  change execLaneGroupDown g s = _
  rw [execLaneGroupDown, if_neg (by simp [hlane])]
  dsimp only
  rw [hlink]
  rfl

/-! ### Keying -/

/-- What a peer of this appliance, with this twin's variant and firmware, shows (R443). -/
def State.pairPeer (s : State) (twin : Bool) : LinkPeer :=
  { twin := twin, id := s.applianceId, record := true, variant := b2n s.variantN, fwMajor := s.fwMajor }

/-- The failure of a signature (R550). -/
def State.keyBad (s : State) : State := (s.flag Reg.secEvent 2).count (Reg.secCount + 8)

section Keying

variable {s : State} (good : State → State)

theorem State.keyCheck_of_pair (hrec : s.bit Reg.twnId 1 = true) (hent : s.sec.entropyOk = true) {twin : Bool}
    (htwin : twin ≠ s.twin) : s.keyCheck (s.pairPeer twin) true good = good s := by
  have hid : s.idOk twin s.applianceId true = true := by simp [State.idOk, hrec, htwin]
  have hmajor : s.majorOk (b2n s.variantN) s.fwMajor = true := by simp [State.majorOk]
  unfold State.keyCheck
  simp only [State.pairPeer, hid, hmajor, hent, Bool.true_eq_false, if_false]

theorem State.keyCheck_of_sameTwin : s.keyCheck (s.pairPeer s.twin) true good =
    ((s.flag Reg.secEvent 2).mismatch false).failSend := by
  have hid : s.idOk s.twin s.applianceId true = false := by simp [State.idOk]
  unfold State.keyCheck
  simp only [State.pairPeer, hid, Bool.true_eq_false, if_false, if_true]

theorem State.keyCheck_of_bad (p : LinkPeer) : s.keyCheck p false good = s.keyBad.keyingFailed.failSend := rfl

variable (hkey : s.twn.link = .keying)
include hkey

theorem State.isKeying_of_link : s.isKeying = true := by
  unfold State.isKeying
  rw [hkey]

/-- The messages of keying at twin 1. -/
theorem exec_keying_of_twin (htwin : s.twin = true) (p : LinkPeer) (nonce ek sig : Nat) (ok : Bool) :
    exec (.linkHello p nonce ek ok) s = .next (s.keyCheck p ok fun t => t.replySend p.id nonce ek) ∧
      exec (.linkConfirm sig ok) s =
        .next (if ok && s.twn.linkKeys.ready then s.linkUp else s.keyBad.keyingFailed.failSend) := by
  have hgo : (s.isKeying && s.twin) = true := by rw [State.isKeying_of_link hkey, htwin]; rfl
  exact ⟨congrArg Host.Outcome.next (if_pos hgo), congrArg Host.Outcome.next (if_pos hgo)⟩

/-- The message of keying at twin 0. -/
theorem exec_linkReply_of_twin (htwin : s.twin = false) (p : LinkPeer) (nonce ct sig : Nat) (ok : Bool) :
    exec (.linkReply p nonce ct sig ok) s = .next (s.keyCheck p ok fun t => t.confirmSend p nonce ct sig) := by
  have hgo : (s.isKeying && !s.twin) = true := by rw [State.isKeying_of_link hkey, htwin]; rfl
  exact congrArg Host.Outcome.next (if_pos hgo)

theorem exec_linkFail_of_keying : exec .linkFail s = .next (s.flag Reg.secEvent 2).keyingFailed :=
  congrArg Host.Outcome.next (if_pos (State.isKeying_of_link hkey))

end Keying

/-! ### A link that is UP -/

section Up

variable {s : State} (hup : s.linkIsUp = true)
include hup

theorem State.link_of_linkIsUp : s.twn.link = .up := by
  unfold State.linkIsUp at hup
  split at hup
  · assumption
  · cases hup

theorem exec_twnCmdRetrain_of_up (h : s.cmdReady Reg.twnCmd) : exec (.twnCmdRetrain .firmware) s = .next s.toRetrain := by
  obtain ⟨hawake, hgate, hreset⟩ := h
  have hserves : s.serves .firmware Reg.twnCmd { off := Reg.twnCmd, wo := 0xF } :=
    State.serves_firmware rfl hawake hgate (by decide)
  have hfx : ∀ old new val : Word, s.writeFx Reg.twnCmd old new val = s.twnCmd val := fun _ _ _ => rfl
  have hcmd : s.twnCmd (w32 4) = s.retrainCmd := rfl
  have hretrain : s.retrainCmd = s.toRetrain := by rw [State.retrainCmd, State.link_of_linkIsUp hup]
  change execTwnCmdRetrain .firmware s = _
  rw [execTwnCmdRetrain, State.writeAccess_command _ hserves rfl ⟨by decide, by decide⟩ ⟨rfl, rfl, rfl, rfl⟩ rfl rfl hreset,
    hfx, hcmd, hretrain]

theorem exec_shaumCounterLimit_of_over {g : Fin 4} (hover : 2 ^ 56 ≤ (s.lane g.val).ctrTx ∨ 2 ^ 56 ≤ (s.lane g.val).ctrRx) :
    exec (.shaumCounterLimit g) s = .next s.toRetrain := by
  have hctr : s.counterOver g = true := by simpa [State.counterOver] using hover
  change execShaumCounterLimit g s = _
  rw [execShaumCounterLimit, hctr, if_pos rfl, State.retrainUp, if_pos hup]

theorem exec_messageResendTimeout_of_sent {seq : Nat} {x : TxMsg} (hget : s.twn.tx.get? seq = some x) (hsent : x.sent = true) :
    exec (.messageResendTimeout seq) s = .next (
      if s.resendMax ≤ x.resends then s.toRetrain
      else ((s.modTx seq fun y => { y with resends := y.resends + 1 }).sendSegs seq x.msg).countBy Reg.twnCount
        (segCount x.msg)) := by
  change execMessageResendTimeout seq s = _
  simp only [execMessageResendTimeout, hget, hsent, hup, Bool.not_true, Bool.or_self, Bool.false_eq_true, if_false]

theorem exec_reassemblyTimerExpiry_of_open {seq : Nat} {a : Asm} (hget : s.twn.asm.get? seq = some a) :
    exec (.reassemblyTimerExpiry seq) s =
      .next (((s.sendOnce (.segNak seq a.bitmap)).flag Reg.twnEvent 9).count (Reg.twnCount + 4)) := by
  change execReassemblyTimerExpiry seq s = _
  simp only [execReassemblyTimerExpiry, hget, hup, if_true]

theorem exec_segNak_of_sent {seq bitmap : Nat} {x : TxMsg} (hawake : s.isl.quiet = .awake)
    (hget : s.twn.tx.get? seq = some x) (hsent : x.sent = true) :
    exec (.segNak seq bitmap) s = .next (
      if s.resendMax ≤ x.naks + 1 then s.toRetrain
      else (s.modTx seq fun y => { y with naks := y.naks + 1 }).resendSegs seq x.msg
        ((List.range (segCount x.msg)).filter fun i => !bitmap.testBit i)) := by
  have hwake : s.wakeFor .twin = s := by rw [State.wakeFor, hawake]
  change execSegNak seq bitmap s = _
  rw [execSegNak, if_pos hup, hwake]
  simp only [State.onNak, hget, hsent, hup, Bool.not_true, Bool.or_self, Bool.false_eq_true, if_false]

end Up

/-- A link that retrains. -/
theorem State.link_toRetrain (s : State) : s.toRetrain.twn.link = .retrain :=
  (foldl_keeps (f := State.laneTrainStart) (fun u => u.twn.link) (fun _ _ => rfl) s.lanesUp
    ((s.linkLost .retrain).flag Reg.twnEvent 6) :)

end Sys2Proof.Machine

namespace Sys2Proof.Proofs

open Sys2Proof Sys2Proof.Machine

/-- Settles O46: training, the lane groups, keying on each twin, and a link that is UP, each by the lemmas on it. -/
theorem shaumLinkStates : Obligations.ShaumLinkStates := by
  refine ⟨fun s v hready hv => congrArg Host.Outcome.next (State.writeAccess_twnCtl hready hv),
    fun s hfence hen hdown => State.shaumTrain_trains hfence hen hdown, fun s g h => exec_laneGroup_of_training h,
    fun s g h hlane => exec_laneGroup_of_up h hlane, fun s g h hlane => exec_laneGroupDown_of_up h hlane,
    fun s h => ⟨?_, rfl⟩, fun s variant major nonce ek ct sig hkey hrec hvariant hmajor hent => ?_, fun s hup => ?_⟩
  · change execLinkTrainingTimeout s = _
    simp only [execLinkTrainingTimeout, h]
  · intro peer keys bad
    subst hvariant
    subst hmajor
    refine ⟨fun htwin => ?_, fun htwin => ?_, exec_linkFail_of_keying hkey, rfl⟩
    · have hmsg := exec_keying_of_twin hkey htwin
      have hgood := State.keyCheck_of_pair (fun t => t.replySend s.applianceId nonce ek) hrec hent (twin := false) (by simp [htwin])
      refine ⟨?_, ?_, fun hready => ?_, (hmsg (peer true) nonce ek sig false).2⟩
      · exact (hmsg (s.pairPeer false) nonce ek sig true).1.trans (congrArg Host.Outcome.next hgood)
      · have hsame := State.keyCheck_of_sameTwin (s := s) fun t => t.replySend s.applianceId nonce ek
        rw [htwin] at hsame
        exact (hmsg (s.pairPeer true) nonce ek sig true).1.trans (congrArg Host.Outcome.next hsame)
      · have hboth : (true && s.twn.linkKeys.ready) = true := hready
        exact (hmsg (peer true) nonce ek sig true).2.trans (congrArg Host.Outcome.next (if_pos hboth))
    · have hmsg := exec_linkReply_of_twin hkey htwin (s.pairPeer true) nonce ct sig
      have hgood := State.keyCheck_of_pair (fun t => t.confirmSend (s.pairPeer true) nonce ct sig) hrec hent (twin := true)
        (by simp [htwin])
      exact ⟨(hmsg true).trans (congrArg Host.Outcome.next hgood), hmsg false⟩
  · refine ⟨exec_twnCmdRetrain_of_up hup, fun g hover => exec_shaumCounterLimit_of_over hup hover, State.link_toRetrain s,
      fun seq x hget hsent => exec_messageResendTimeout_of_sent hup hget hsent,
      fun seq a hget => exec_reassemblyTimerExpiry_of_open hup hget, fun seq bitmap x hawake hget hsent => ?_⟩
    rw [exec_segNak_of_sent hup hawake hget hsent]
    exact ⟨fun h => congrArg Host.Outcome.next (if_pos h), fun h => congrArg Host.Outcome.next (if_neg (Nat.not_le.mpr h))⟩

end Sys2Proof.Proofs
end

section
/-! SUPPORT. A message of the peer that this twin acts on, by its type, for the statement on Shaum messages (R446–R480). -/

namespace Sys2Proof.Machine

/-! ### Acting once -/

section Hears

variable {s : State} {seq : Nat} (h : s.hears seq)
include h

theorem State.takeMsg_of_hears (f : State → State) : s.takeMsg seq f = (f (s.actOn seq)).ackMsg seq := by
  obtain ⟨hup, hawake, hnew⟩ := h
  have hwake : s.wakeFor .twin = s := by rw [State.wakeFor, hawake]
  unfold State.takeMsg
  rw [if_neg (by simp [hup]), hwake]
  dsimp only
  rw [if_neg (by rw [hnew]; exact Bool.false_ne_true)]

theorem State.takeLater_of_hears (f : State → State) : s.takeLater seq false f = f (s.actOn seq) := by
  obtain ⟨hup, hawake, hnew⟩ := h
  have hwake : s.wakeFor .twin = s := by rw [State.wakeFor, hawake]
  unfold State.takeLater
  rw [if_neg (by simp [hup]), hwake]
  dsimp only
  rw [if_neg Bool.false_ne_true, if_neg (by rw [hnew]; exact Bool.false_ne_true)]

/-! ### Mirrored writes and forwarded requests -/

theorem exec_mirror_of_hears {m : MirrorMsg} {r : Region} (hheld : s.mirrorHeld seq = false)
    (hget : s.regions.get? m.region = some r) (hens : r.ensign = .peerOwns) (hdata : m.data ≠ []) :
    exec (.mirror seq m) s = .next ((s.actOn seq).submit
      (mirrorReq seq ((((s.actOn seq).regionOfPsa m.psa).map Prod.snd).getD 0) m)).1 := by
  have hget' : (s.actOn seq).regions.get? m.region = some r := hget
  have htake : ¬ ((r.ensign == .owner || m.data.isEmpty) = true) := by simp [hens, hdata]
  change Host.Outcome.next (s.onMirror seq m) = _
  rw [State.onMirror, hheld, State.takeLater_of_hears h]
  simp only [hget', if_neg htake]

theorem exec_forward_of_hears (m : FwdMsg) : exec (.forward seq m) s = .next (((s.actOn seq).submit {
      src := .forward m.tag m.host, op := m.op, host := m.host, region := m.region, off := m.off, len := m.len
      segs := (s.actOn seq).fwdSegs m.region m.off m.psa m.len, data := m.data, poison := m.poison, arg := m.arg
      cmp := m.cmp, reqId := m.reqId, map := m.map }).1.ackMsg seq) := by
  change Host.Outcome.next (s.onForward seq m) = _
  rw [State.onForward, State.takeMsg_of_hears h]

theorem exec_readReq_of_hears (tag region off psa len : Nat) :
    exec (.readReq seq tag region off psa len) s = .next (((s.actOn seq).submit {
      src := .forward tag 0xFFFF, op := .read, host := 0xFFFF, region := region, off := off, len := len
      segs := (s.actOn seq).fwdSegs region off psa len }).1.ackMsg seq) := by
  change Host.Outcome.next (s.onReadReq seq tag region off psa len) = _
  rw [State.onReadReq, State.takeMsg_of_hears h]

/-- What the answer to a forwarded write ends. -/
theorem exec_fwdReply_of_hears {tag : Nat} {r : Req} (hget : s.reqs.get? tag = some r) (hfwd : r.stage = .forwarded)
    (hwrite : isWrite r.op = true) (poisoned : Bool) (result : Nat) :
    exec (.fwdReply seq tag poisoned result) s = .next ((State.settle (
      if poisoned then (s.actOn seq).endReq tag .poisoned
      else (((s.actOn seq).modReq tag fun q => { q with result := result }).endReq tag (.written result)).countBy
        (Reg.rdxCount + 4 * 4) (match r.src with | .rdma .. => 1 | _ => 0))).ackMsg seq) := by
  have hget' : (s.actOn seq).reqs.get? tag = some r := hget
  have hmine : (r.stage == .forwarded && isWrite r.op) = true := by simp [hfwd, hwrite]
  change Host.Outcome.next (s.onFwdReply seq tag poisoned result) = _
  rw [State.onFwdReply, State.takeMsg_of_hears h]
  simp only [hget', if_pos hmine] <;> rfl

/-- What the data that completes a forwarded read ends. -/
theorem exec_readData_of_hears {tag : Nat} {r q : Req} {data : List Byte} {poison : List Bool}
    (hget : s.reqs.get? tag = some r) (hfwd : r.stage = .forwarded) (hread : isWrite r.op = false)
    (hall : r.len ≤ r.done + data.length)
    (hq : q = { r with data := r.data ++ data, map := r.map ++ poison, done := r.done + data.length }) :
    exec (.readData seq tag data poison) s = .next ((State.settle (((s.actOn seq).modReq tag fun _ => q).endReq tag
      (.data (((s.actOn seq).modReq tag fun _ => q).peerBytes tag q)
        (((s.actOn seq).modReq tag fun _ => q).peerPoison tag q)))).ackMsg seq) := by
  have hget' : (s.actOn seq).reqs.get? tag = some r := hget
  have hmine : (r.stage == .forwarded && !isWrite r.op) = true := by simp [hfwd, hread]
  subst hq
  change Host.Outcome.next (s.onReadData seq tag data poison) = _
  rw [State.onReadData, State.takeMsg_of_hears h]
  simp only [hget', if_pos hmine]
  rw [if_pos (by simp [hall])]

/-! ### Tiles -/

theorem exec_promoHint_of_hears {tile : Nat} (hflash : inFlash (s.tile tile).home = true) (hnone : s.moves.get? tile = none) :
    exec (.promoHint seq tile) s = .next ((State.settle (
      if (((s.actOn seq).startMove tile .promote .write []).moves.get? tile).isSome then
        ((s.actOn seq).startMove tile .promote .write []).count (Reg.plcCount + 0x20)
      else (s.actOn seq).startMove tile .promote .write [])).ackMsg seq) := by
  have hflash' : inFlash ((s.actOn seq).tile tile).home = true := hflash
  have hnone' : (s.actOn seq).moves.get? tile = none := hnone
  change Host.Outcome.next (s.onHint seq tile) = _
  rw [State.onHint, State.takeMsg_of_hears h]
  simp only [if_pos hflash', hnone', Option.isNone_none, Bool.true_and]

theorem exec_tilePull_of_hears (tile : Nat) : exec (.tilePull seq tile) s =
    .next ((State.settle { s.actOn seq with twn := { (s.actOn seq).twn with pulls := insertNew s.twn.pulls tile } }).ackMsg
      seq) := by
  change Host.Outcome.next (s.onPull seq tile) = _
  rw [State.onPull, State.takeMsg_of_hears h]
  rfl

theorem exec_tileData_of_resync {tile : Nat} {data : List Byte} {sectors : List SectorInfo}
    (hnone : s.twn.tilesIn.get? seq = none) : exec (.tileData seq tile data sectors true) s =
    .next (State.settle { s.actOn seq with twn := { (s.actOn seq).twn with
      tilesIn := s.twn.tilesIn.set seq { tile := tile, data := data, sectors := sectors } } }) := by
  change Host.Outcome.next (s.onTileData seq tile data sectors true) = _
  rw [State.onTileData, if_pos rfl, hnone, Option.isSome_none, State.takeLater_of_hears h]
  rfl

theorem exec_tileData_of_repair {tile : Nat} {data : List Byte} {sectors : List SectorInfo} {m : Move}
    (hget : s.moves.get? tile = some m) (hkind : m.kind = .repair) (hlate : m.late = false) :
    exec (.tileData seq tile data sectors false) s = .next ((State.settle (((s.actOn seq).mergeTile tile m.valid data
      sectors).modMove tile fun x => { x with late := true })).ackMsg seq) := by
  have hget' : (s.actOn seq).moves.get? tile = some m := hget
  have hmine : (m.kind == .repair && !m.late) = true := by simp [hkind, hlate]
  change Host.Outcome.next (s.onTileData seq tile data sectors false) = _
  rw [State.onTileData, if_neg Bool.false_ne_true, State.takeMsg_of_hears h]
  simp only [hget', if_pos hmine]

/-! ### Handoff -/

theorem exec_ensignOffer_of_hears {region : Nat} {r : Region} (pseq : Nat) (hget : s.regions.get? region = some r)
    (hens : r.ensign = .peerOwns) : exec (.ensignOffer seq region pseq) s =
      .next ((State.settle ((((s.actOn seq).modRegion region fun r => { r with
        ensign := .owner, owner := s.twin, pseq := pseq }).post (.ensignAccept region)).requeue region)).ackMsg seq) := by
  have hregion : (s.actOn seq).region region = r := congrArg (fun o : Option Region => o.getD {}) hget
  have hmine : (((s.actOn seq).regions.get? region).isSome && ((s.actOn seq).region region).ensign == .peerOwns) = true := by
    rw [hregion, hens, show (s.actOn seq).regions.get? region = some r from hget]
    rfl
  change Host.Outcome.next (s.onOffer seq region pseq) = _
  rw [State.onOffer, State.takeMsg_of_hears h, if_pos hmine]
  rfl

theorem exec_ensignAccept_of_hears {region : Nat} {u : State} (hens : (s.region region).ensign = .handing)
    (hoffer : (s.region region).offered = true)
    (hu : u = (s.actOn seq).modRegion region fun r => { r with ensign := .peerOwns, owner := !s.twin, offered := false }) :
    exec (.ensignAccept seq region) s = .next ((State.settle ((State.dropFetched
      { u with twn := { u.twn with handed := u.twn.handed + 1 } } region).handStart.handEnd)).ackMsg seq) := by
  subst hu
  have hmine : (((s.actOn seq).region region).ensign == .handing && ((s.actOn seq).region region).offered) = true := by
    rw [show (s.actOn seq).region region = s.region region from rfl, hens, hoffer]
    rfl
  change Host.Outcome.next (s.onAccept seq region) = _
  rw [State.onAccept, State.takeMsg_of_hears h, if_pos hmine]
  rfl

/-! ### Changes of tables, records, comparisons -/

theorem exec_control_of_hears {cs : List Change} {u : State} (hnone : s.twn.ackHeld.get? seq = none)
    (hmeet : cs.any (clashes s.rgtPending) = false) (hclaim : cs.any (s.actOn seq).claimLost = false)
    (hu : u = { s.actOn seq with twn := { (s.actOn seq).twn with
      ackHeld := s.twn.ackHeld.set seq (cs.flatMap (s.actOn seq).oldAccess) } }) :
    exec (.control seq cs) s = .next (cs.foldl State.takeChange u).resyncStart.settle := by
  subst hu
  have hmeet' : cs.any (clashes (s.actOn seq).rgtPending) = false := hmeet
  change Host.Outcome.next (s.onControl seq cs) = _
  rw [State.onControl, hnone, Option.isSome_none, State.takeLater_of_hears h]
  simp only [hmeet', hclaim, Bool.false_and, Bool.or_self, Bool.false_eq_true, if_false]
  rfl

theorem exec_cqRelay_of_hears {cq recSeq : Nat} {r : CqRec} {c : Cq} (hcq : s.cq? cq = some c) (hsent : c.sent ≤ recSeq)
    (hnone : c.recs.get? recSeq = none) :
    exec (.cqRelay seq cq recSeq r) s = .next ((((s.actOn seq).cqAssign cq recSeq r).cqPump cq).ackMsg seq) := by
  have hcq' : (s.actOn seq).cq? cq = some c := hcq
  change Host.Outcome.next (s.onRelay seq cq recSeq r) = _
  rw [State.onRelay, State.takeMsg_of_hears h]
  simp only [hcq', if_neg (Nat.not_lt.mpr hsent), hnone, Option.isSome_none, Bool.false_eq_true, if_false]

theorem exec_verify_of_equal {tile crc pseq : Nat} (hcrc : (s.actOn seq).tileCrc tile = (crc, pseq)) :
    exec (.verify seq tile crc pseq) s =
      .next ((((s.actOn seq).verifyOwn tile).post (.verifyReply tile crc pseq)).settle.ackMsg seq) := by
  change Host.Outcome.next (s.onVerify seq tile crc pseq) = _
  rw [State.onVerify, State.takeMsg_of_hears h]
  dsimp only
  rw [hcrc, if_neg (by simp)]

theorem exec_verifyReply_of_equal {tile crc pseq : Nat} (hbusy : s.twn.verifyBusy.get? tile = some (crc, pseq)) :
    exec (.verifyReply seq tile crc pseq) s = .next (State.ackMsg { s.actOn seq with twn := { (s.actOn seq).twn with
      verifyBusy := s.twn.verifyBusy.erase tile, sampled := s.twn.sampled + 1 } } seq) := by
  have hbusy' : (s.actOn seq).twn.verifyBusy.get? tile = some (crc, pseq) := hbusy
  change Host.Outcome.next (s.onVerifyReply seq tile crc pseq) = _
  rw [State.onVerifyReply, State.takeMsg_of_hears h]
  simp only [hbusy', ne_eq, not_true_eq_false, if_false, if_true]
  rfl

theorem exec_peerMbx_of_command (hd : JHdr) (c : JorridCmd) (r : JResult) :
    exec (.peerMbx seq hd (some c) r) s = .next (((s.actOn seq).jorrid (mbxKey .peer) hd c).ackMsg seq) := by
  change Host.Outcome.next (s.onPeerMbx seq hd (some c) r) = _
  rw [State.onPeerMbx, State.takeMsg_of_hears h]

/-! ### Resynchronisation -/

theorem exec_resyncCtl_of_end {region : Nat} {u v : State} (pseq : Nat) (hstate : (s.region region).state = .resync)
    (hu : u = (State.regionState (State.admitHosts { s.actOn seq with twn := { (s.actOn seq).twn with
      coldSync := s.twn.coldSync.filter (· != region) } }) region .online).notePhase)
    (hv : v = if u.regions.vals.any fun r => r.state == .resync then u else u.flag Reg.twnEvent 13) :
    exec (.resyncCtl seq region pseq false []) s = .next ((State.settle (State.servePinned { v with twn := { v.twn with
      written := v.twn.written.filter fun e => v.regionOfTile e.1 != some region } })).ackMsg seq) := by
  subst hv
  subst hu
  have hmine : (((s.actOn seq).region region).state == .resync) = true := by
    rw [show (s.actOn seq).region region = s.region region from rfl, hstate]
    rfl
  change Host.Outcome.next (s.onResyncCtl seq region pseq false []) = _
  rw [State.onResyncCtl, State.takeMsg_of_hears h, if_neg Bool.false_ne_true, if_pos hmine]
  rfl

end Hears

theorem State.twn_ringPut (s : State) (region base k : Nat) (bs : List Byte) : (s.ringPut region base k bs).twn = s.twn := rfl

theorem State.twn_sqPublish (s : State) (sq : Nat) : (s.sqPublish sq).twn = s.twn := by
  unfold State.sqPublish
  split
  · rfl
  · exact State.twn_ringPut _ _ _ _ _

theorem State.twn_setTile (s : State) (tile : Nat) (e : TileEnt) : (s.setTile tile e).twn = s.twn := by
  unfold State.setTile
  split_ifs <;> rfl

/-- A region's state change publishes its queues. -/
theorem State.twn_regionState (s : State) (id : Nat) (st : RegionState) : (s.regionState id st).twn = s.twn := by
  refine foldl_keeps State.twn (fun t e => ?_) _ (s.modRegion id fun r => { r with state := st })
  split_ifs
  · exact State.twn_sqPublish _ _
  · exact State.twn_sqPublish _ _
  · rfl

/-- A returning twin's region goes to RESYNC, and the peer's list of pins is its own. -/
theorem exec_resyncCtl_of_start {s : State} {seq region pseq : Nat} {u v : State} (h : s.hears seq)
    (hreturned : s.twn.returned = true)
    (hu : u = State.regionState { s.actOn seq with regions := s.regions.upd region {} fun r =>
      { r with ensign := .peerOwns, owner := !s.twin, offered := false, pseq := pseq } } region .resync)
    (hv : v = (u.tilesIn region ((u.tiles.filter fun e => e.2.pinned).map Prod.fst)).foldl
      (fun (u : State) x => u.modTile x fun e => { e with pinned := false }) u) :
    exec (.resyncCtl seq region pseq true []) s = .next ((State.admitHosts { v with twn := { v.twn with
      written := v.twn.written.filter fun e => v.regionOfTile e.1 != some region } }).ackMsg seq) := by
  have hkept : v.twn.returned = true := by
    have hfold : v.twn = u.twn := hv ▸ foldl_keeps (f := fun (u : State) x => u.modTile x fun e => { e with pinned := false })
      State.twn (fun t x => State.twn_setTile t x _) _ u
    rw [hfold, hu, State.twn_regionState]
    exact hreturned
  have hpins : (fun e : Nat × TileEnt => e.2.pinned && !([] : List Nat).contains e.1) = fun e => e.2.pinned :=
    funext fun e => Bool.and_true _
  change Host.Outcome.next (s.onResyncCtl seq region pseq true []) = _
  rw [State.onResyncCtl, State.takeMsg_of_hears h, if_pos rfl]
  dsimp only
  rw [if_pos hreturned, hpins, List.foldl_nil, if_pos]
  · subst hv
    subst hu
    rfl
  · subst hv
    subst hu
    exact hkept

/-! ### A message acted on before -/

section Acted

variable {s : State} {seq : Nat} (hup : s.linkIsUp = true) (hawake : s.isl.quiet = .awake)
  (hold : s.twn.acted.contains seq = true)
include hup hawake hold

theorem State.takeMsg_of_acted (f : State → State) : s.takeMsg seq f = s.dupMsg seq := by
  have hwake : s.wakeFor .twin = s := by rw [State.wakeFor, hawake]
  unfold State.takeMsg
  rw [if_neg (by simp [hup]), hwake]
  exact if_pos hold

theorem State.takeLater_of_acted (f : State → State) : s.takeLater seq false f = s.dupMsg seq := by
  have hwake : s.wakeFor .twin = s := by rw [State.wakeFor, hawake]
  unfold State.takeLater
  rw [if_neg (by simp [hup]), hwake]
  exact if_pos hold

end Acted

theorem exec_shaumAck_of_up {s : State} (seqs : List Nat) (hup : s.linkIsUp = true) (hawake : s.isl.quiet = .awake) :
    exec (.shaumAck seqs) s = .next ((seqs.foldl State.ackOne s).sendUnsent).settle := by
  have hwake : s.wakeFor .twin = s := by rw [State.wakeFor, hawake]
  change Host.Outcome.next (s.onAck seqs) = _
  rw [State.onAck, if_pos hup, hwake]

/-! ### What this twin sends -/

theorem exec_handoffAcksDrained_of_drained {s : State} {id : Fin 4096} (hens : (s.region id).ensign = .handing)
    (hoffer : (s.region id).offered = false) (hopen : s.regionOpen id = false)
    (hlap : id.val = 0 → s.lapDrained = true ∧ s.lap.reads = []) : exec (.handoffAcksDrained id) s =
      .next ((s.modRegion id fun x => { x with offered := true }).post (.ensignOffer id (s.region id).pseq)) := by
  have hgo : ((s.region id).ensign == .handing && !(s.region id).offered && !s.regionOpen id &&
      (id != 0 || (s.lapDrained && s.lap.reads.isEmpty))) = true := by
    by_cases hid : id = 0
    · obtain ⟨hdrained, hreads⟩ := hlap (congrArg Fin.val hid)
      simp [hens, hoffer, hopen, hdrained, hreads]
    · simp [hens, hoffer, hopen, hid]
  exact congrArg Host.Outcome.next (if_pos hgo)

theorem exec_resyncTileSend_of_next {s : State} {id : Fin 4096} {x : Resync} {tile : Nat}
    (hget : s.twn.resync.get? id = some x)
    (hfind : (x.todo.find? fun tile => !s.mirrorOpen tile && (s.moves.get? tile).isNone) = some tile)
    (hup : s.linkIsUp = true) : exec (.resyncTileSend id) s =
      .next (State.post { s with twn := { s.twn with resync := s.twn.resync.set id (
        { todo := x.todo.filter (· != tile), sent := x.sent ++ [tile] } : Resync) } }
          (.tileData tile (s.bytesAt (tile * 4096) 4096) (s.tileInfo tile) true)) := by
  change execResyncTileSend id s = _
  simp only [execResyncTileSend, hget, hfind, hup, if_true]

/-! ### Segments -/

/-- A segment on a lane group of a link that is UP, with the pipelines enabled. -/
theorem exec_shaumSegmentReceive_of_up {s : State} {g : Fin 4} {h : SegHdr} (tagOk ok : Bool) (m : ShaumMsg)
    (hup : s.linkIsUp = true) (hlane : s.lanesUp.contains g.val = true) (hctl : s.bit Reg.secCtl 1 = true)
    (hver : h.version = 1) : exec (.shaumSegmentReceive g h tagOk ok m) s = .next (
      if h.epoch % 65536 ≠ s.twn.epoch then s.count (Reg.twnCount + 0xC)
      else match s.takeBuf h.segLen with
      | none => s
      | some (t, b) =>
        let u := (t.freeBuf b).modLane g fun l => { l with ctrRx := h.counter }
        if !tagOk || !s.segKey h.keySel then u.authBad
        else
          let v := (if isBurgee m then u.heardOn false else (u.heardOn false).wakeFor .twin).placeSeg h ok m
          if v.counterOver g then v.retrainUp else v) := by
  have hlink := State.link_of_linkIsUp hup
  change execShaumSegmentReceive g h tagOk ok m s = _
  rw [execShaumSegmentReceive, hlink]
  refine congrArg Host.Outcome.next (if_neg ?_)
  simp only [hctl, hlane, hver]
  decide

end Sys2Proof.Machine

namespace Sys2Proof.Proofs

open Sys2Proof Sys2Proof.Machine

/-- Settles O47: every type of message by the lemma on it; one acted on before by the window; segments by their header. -/
theorem shaumMessagesActOnce : Obligations.ShaumMessagesActOnce := by
  refine ⟨fun s seq h => ?_, fun s seq h => ?_, fun s seq hup hawake hold => ?_,
    fun s seqs hup hawake => exec_shaumAck_of_up seqs hup hawake,
    fun s id hens hoffer hopen hlap => exec_handoffAcksDrained_of_drained hens hoffer hopen hlap,
    fun s id x tile hget hfind hup => exec_resyncTileSend_of_next hget hfind hup,
    fun s g hd ok m hup hlane hctl hver => ?_⟩
  · refine ⟨fun m r hheld hget hens hdata => exec_mirror_of_hears h hheld hget hens hdata, exec_forward_of_hears h,
      exec_readReq_of_hears h, fun tag r hget hfwd hwrite => ?_,
      fun tag r data poison hget hfwd hread hall => exec_readData_of_hears h hget hfwd hread hall rfl,
      fun tile hflash hnone => ?_, exec_tilePull_of_hears h, fun tile data sectors hnone => exec_tileData_of_resync h hnone,
      fun tile data sectors m hget hkind hlate => exec_tileData_of_repair h hget hkind hlate⟩
    · have hreply := exec_fwdReply_of_hears h hget hfwd hwrite
      exact ⟨hreply true 0, hreply false⟩
    · have hhint := exec_promoHint_of_hears h hflash hnone
      refine ⟨fun hsome => ?_, fun hno => ?_⟩
      · rw [if_pos (Option.isSome_iff_ne_none.mpr hsome)] at hhint
        exact hhint
      · rw [if_neg (by rw [hno]; decide)] at hhint
        exact hhint
  · exact ⟨fun region pseq r hget hens => exec_ensignOffer_of_hears h pseq hget hens,
      fun region hens hoffer => exec_ensignAccept_of_hears h hens hoffer rfl,
      fun cs hnone hmeet hclaim => exec_control_of_hears h hnone hmeet hclaim rfl,
      fun cq recSeq r c hcq hsent hnone => exec_cqRelay_of_hears h hcq hsent hnone,
      fun tile crc pseq hcrc => exec_verify_of_equal h hcrc, fun tile crc pseq hbusy => exec_verifyReply_of_equal h hbusy,
      exec_peerMbx_of_command h, fun region pseq hstate => exec_resyncCtl_of_end h pseq hstate rfl rfl,
      fun region pseq hreturned => exec_resyncCtl_of_start h hreturned rfl rfl⟩
  · refine ⟨fun m => congrArg Host.Outcome.next (State.takeMsg_of_acted hup hawake hold _), fun m hheld => ?_,
      fun cs hnone => ?_⟩
    · change Host.Outcome.next (s.onMirror seq m) = _
      rw [State.onMirror, hheld, State.takeLater_of_acted hup hawake hold]
      rfl
    · change Host.Outcome.next (s.onControl seq cs) = _
      rw [State.onControl, hnone, Option.isSome_none, State.takeLater_of_acted hup hawake hold]
      rfl
  · have hexec := fun tagOk => exec_shaumSegmentReceive_of_up tagOk ok m hup hlane hctl hver
    refine ⟨fun hepoch => (hexec true).trans (congrArg Host.Outcome.next (if_pos hepoch)), fun t b hepoch hbuf => ?_⟩
    simp only [hepoch, hbuf, ne_eq, not_true_eq_false, if_false] at hexec
    refine ⟨fun hkey hctr => (hexec true).trans (congrArg Host.Outcome.next ?_), (hexec false).trans rfl⟩
    have hheld : s.segKey hd.keySel = true := by simp [State.segKey, hkey]
    rw [if_neg (by simp [hheld])]
    exact if_neg (by rw [hctr]; decide)

end Sys2Proof.Proofs
end

section
/-! SUPPORT. Burgees, the failure decision, the fence and takeover, by command, for the statement on them (R458–R470). -/

namespace Sys2Proof.Machine

/-! ### Burgees -/

/-- A Burgee on the Shaum Link changes only what sends it. -/
theorem State.sendBurgee_leaves (s : State) (g seq : Nat) (b : Burgee) :
    (s.sendBurgee g seq b).twn.shaumTx = s.twn.shaumTx ∧ (s.sendBurgee g seq b).mem = s.mem ∧
      (s.sendBurgee g seq b).regs = s.regs :=
  ⟨rfl, rfl, rfl⟩

theorem yields_shaumBurgeeInterval {s : State} {g : Nat} (hup : s.linkIsUp = true) (hlanes : s.lanesUp = [g]) :
    Yields .shaumBurgeeInterval s fun t =>
      t.twn.shaumTx = (s.twn.shaumTx + 1) % 2 ^ 32 ∧ t.mem = s.mem ∧ t.regs = s.regs := by
  have hexec : exec .shaumBurgeeInterval s = execShaumBurgeeInterval s := rfl
  simp only [execShaumBurgeeInterval, State.link_of_linkIsUp hup, if_true, hlanes, List.foldl_cons, List.foldl_nil] at hexec
  obtain ⟨htx, hmem, hregs⟩ := State.sendBurgee_leaves { s.nextMsgSeq.1 with
    twn := { s.nextMsgSeq.1.twn with shaumTx := (s.burgeeNow false).seq } } g s.nextMsgSeq.2 (s.burgeeNow false)
  exact ⟨_, hexec, htx, hmem, hregs⟩

theorem exec_burgee_of_live {s : State} (tsb : Bool) (b : Burgee) (hlive : if tsb then s.tsbLive = true else s.linkIsUp = true) :
    exec (.burgee tsb true b) s = .next (s.takeBurgee tsb b) ∧
      exec (.burgee tsb false b) s = .next (if tsb then s.burgeeMiss 1 else s.count (Reg.twnCount + 4)) := by
  change Host.Outcome.next (s.onBurgee tsb true b) = _ ∧ Host.Outcome.next (s.onBurgee tsb false b) = _
  cases tsb
  · have hlink := State.link_of_linkIsUp hlive
    simp only [State.onBurgee, hlink, Bool.false_eq_true, if_false, Bool.not_true, Bool.not_false, if_true, and_self]
  · have htsb : s.tsbLive = true := hlive
    simp only [State.onBurgee, htsb, Bool.false_eq_true, if_false, Bool.not_true, Bool.not_false, if_true, and_self]

/-! ### The failure decision -/

section Decision

variable {s : State} (hadm : s.admitted = true) (hfence : s.twn.fenceIn = false) (hself : s.selfSaving = false)
  (hshaum : s.twn.shaumSilent = true)
include hadm hfence hself hshaum

theorem exec_confirmationWindowExpiry_of_suspect (htsb : s.twn.tsbSilent = true) (hpeer : s.twn.peer = .suspect) :
    exec .confirmationWindowExpiry s = .next ((s.flag Reg.twnEvent 2).peerLost true) := by
  change execConfirmationWindowExpiry s = _
  rw [execConfirmationWindowExpiry, hadm, hfence, hself, hshaum, htsb, hpeer]
  rfl

theorem exec_shaumHoldExpiry_of_keeps (htsb : s.twn.tsbSilent = false) (hmate : s.twn.mate = true)
    (hdown : s.linkIsUp = false) (hkeep : s.keepsService = true) :
    exec .shaumHoldExpiry s = .next (s.peerLost false) := by
  change execShaumHoldExpiry s = _
  rw [execShaumHoldExpiry, hadm, hfence, hself, hshaum, htsb, hmate, hdown, hkeep]
  rfl

end Decision

/-! ### The fence -/

@[simp] theorem State.fenceOut_driveFence (s : State) (level : Bool) : (s.driveFence level).twn.fenceOut = level := by
  unfold State.driveFence
  split_ifs with h
  · exact h
  · rfl

theorem State.mem_driveFence (s : State) (level : Bool) : (s.driveFence level).mem = s.mem := by
  unfold State.driveFence
  split_ifs <;> rfl

/-- A twin that is not fenced itself asserts the fence, and lets it settle. -/
theorem State.fenceNow_asserts {s : State} (hfence : s.twn.fenceIn = false) :
    s.fenceNow.twn.fence = .settle ∧ s.fenceNow.twn.fenceOut = true := by
  have htwn : s.fenceNow.twn = { (s.driveFence true).twn with fence := .settle } := by
    unfold State.fenceNow
    rw [if_neg (by rw [hfence]; exact Bool.false_ne_true)]
    exact (State.twn_evrPush _ _).trans rfl
  rw [htwn]
  exact ⟨rfl, State.fenceOut_driveFence s true⟩

theorem exec_takeover_of_taking {s : State} (htake : s.twn.fence = .taking) (hrun : s.fw.halted = false)
    (hawake : s.isl.quiet = .awake) : exec .takeover s = .next s.takeOver := by
  have hwoken : s.awake = true := by
    unfold State.awake
    rw [hawake]
  exact congrArg Host.Outcome.next (if_pos (by rw [htake, hrun, hwoken]; rfl))

/-- A twin that is fenced rejoins, or goes on with its save (R463, R476). -/
def State.fencedOut (u : State) : State :=
  let t : State := { u with
    admitted := false
    twn := { u.twn with self := (match u.twn.self with | .saving => .saving | _ => .rejoin) } }
  (if t.selfSaving then t else t.setPhase 10).settle

theorem State.fencedOut_of_notSaving {u : State} (h : u.selfSaving = false) :
    u.fencedOut = (State.setPhase { u with admitted := false, twn := { u.twn with self := .rejoin } } 10).settle := by
  have hself : (match u.twn.self with | .saving => TwinState.saving | _ => TwinState.rejoin) = .rejoin := by
    unfold State.selfSaving at h
    cases hs : u.twn.self with
    | saving => rw [hs] at h; exact Bool.noConfusion (show true = false from h)
    | _ => rfl
  unfold State.fencedOut
  rw [hself]
  exact congrArg State.settle (if_neg Bool.false_ne_true)

/-- What is withdrawn of a twin whose fence input is asserted (R463). -/
def State.fenceWithdrawn (s : State) : State :=
  (((State.flag { s with twn := { s.twn with
    fenceIn := true, hostsHeld := true, fence := .none, forced := false, mate := false, paired := false
    rejoin := s.openTiles.foldl insertNew s.twn.rejoin } } Reg.twnEvent 4).withdraw.dropCtl.dropWork.hostsOff
      true).shaumOff).yieldRegions

theorem exec_twinFenceInAssert_of_long {s : State} {ns : Nat} (hfence : s.twn.fenceIn = false) (hlong : 2000 ≤ ns)
    (hself : s.fenceWithdrawn.selfSaving = false) : exec (.twinFenceInAssert ns) s = .next (State.setPhase
      { s.fenceWithdrawn with admitted := false, twn := { s.fenceWithdrawn.twn with self := .rejoin } } 10).settle := by
  have hgo : ¬ ((s.twn.fenceIn || decide (ns < 2000)) = true) := by
    simp [hfence]
    omega
  have hexec : exec (.twinFenceInAssert ns) s = execTwinFenceInAssert ns s := rfl
  rw [hexec, execTwinFenceInAssert, if_neg hgo, ← State.fencedOut_of_notSaving hself]
  extract_lets +onlyGivenNames w t u
  have hu : u = s.fenceWithdrawn := rfl
  rw [hu]
  generalize s.fenceWithdrawn = u
  rfl

theorem exec_twinFenceInRelease_of_long {s : State} {ns : Nat} (hfence : s.twn.fenceIn = true) (hlong : 10000 ≤ ns) :
    exec (.twinFenceInRelease ns) s = .next (State.shaumTrain { s with twn := { s.twn with fenceIn := false } }) := by
  refine congrArg Host.Outcome.next (if_neg ?_)
  simp [hfence]
  omega

/-! ### The commands of TWN_CMD -/

theorem State.writeAccess_twnCmd {s : State} (v : Nat) (h : s.cmdReady Reg.twnCmd) :
    s.writeAccess .firmware Reg.twnCmd 4 v = s.twnCmd (w32 v) := by
  obtain ⟨hawake, hgate, hreset⟩ := h
  have hserves : s.serves .firmware Reg.twnCmd { off := Reg.twnCmd, wo := 0xF } :=
    State.serves_firmware rfl hawake hgate (by decide)
  have hfx : ∀ old new val : Word, s.writeFx Reg.twnCmd old new val = s.twnCmd val := fun _ _ _ => rfl
  rw [State.writeAccess_command _ hserves rfl ⟨by decide, by decide⟩ ⟨rfl, rfl, rfl, rfl⟩ rfl rfl hreset, hfx]

theorem State.twnCmd_single (s : State) :
    s.twnCmd (w32 1) = s.fenceCmd ∧ s.twnCmd (w32 2) = s.releaseAsk ∧ s.twnCmd (w32 8) = s.forceTakeover :=
  ⟨rfl, rfl, rfl⟩

/-- The commands that firmware gives the fence. -/
theorem exec_twnCmd_of_ready {s : State} (h : s.cmdReady Reg.twnCmd) :
    exec (.twnCmdFence .firmware) s = .next s.fenceCmd ∧ exec (.twnCmdRelease .firmware) s = .next s.releaseAsk ∧
      exec (.twnCmdTakeover .firmware) s = .next s.forceTakeover := by
  obtain ⟨hfence, hrelease, htake⟩ := State.twnCmd_single s
  refine ⟨congrArg Host.Outcome.next ?_, congrArg Host.Outcome.next ?_, congrArg Host.Outcome.next ?_⟩
  · exact (State.writeAccess_twnCmd 1 h).trans hfence
  · exact (State.writeAccess_twnCmd 2 h).trans hrelease
  · exact (State.writeAccess_twnCmd 8 h).trans htake

/-! ### The fence test, release and return -/

theorem exec_fenceTest_of_free {s : State} (hout : s.twn.fenceOut = false) (hsent : 0 < s.twn.pulses) :
    exec .fenceTestPulseSend s =
        .next (State.emit { s with twn := { s.twn with pulses := s.twn.pulses + 1 } } .fencePulse) ∧
      (s.peerSeen ≠ s.twn.pulseBase → exec .fenceTestCheck s =
        .next { s with twn := { s.twn with fenceOk := true, pulseBase := s.peerSeen } }) := by
  have hne : s.twn.pulses ≠ 0 := Nat.pos_iff_ne_zero.mp hsent
  refine ⟨?_, fun hseen => ?_⟩
  · change execFenceTestPulseSend s = _
    rw [execFenceTestPulseSend, if_neg (by rw [hout]; exact Bool.false_ne_true), if_neg hne]
  · change execFenceTestCheck s = _
    rw [execFenceTestCheck, if_neg (by simp [hne, hout]), if_pos hseen]

theorem yields_releaseLinkTimeout {s : State} (hout : s.twn.fenceOut = false) (hreleased : s.twn.lastRelease ≠ none)
    (hdown : s.linkIsUp = false) : Yields .releaseLinkTimeout s fun t => t.twn.fenceOut = true ∧ t.mem = s.mem := by
  have hgo : ¬ ((s.twn.fenceOut || s.twn.lastRelease.isNone || s.linkIsUp) = true) := by simp [hout, hreleased, hdown]
  refine ⟨_, congrArg Host.Outcome.next (if_neg hgo), ?_, ?_⟩
  · exact (congrArg Twn.fenceOut (State.twn_evrPush _ _)).trans (State.fenceOut_driveFence s true)
  · exact ((State.record_frame _ _ _ _ _).1).trans (State.mem_driveFence s true)

theorem exec_releaseDeferExpiry_of_due {s : State} (hdefer : s.twn.releaseDeferred = true) (hout : s.twn.fenceOut = true)
    (hhand : s.bit Reg.twnCtl 4 = false) : exec .releaseDeferExpiry s =
      .next (State.releaseNow { s with twn := { s.twn with releaseDeferred := false } }) := by
  have hgo : ∀ a b : Bool, (s.twn.fenceOut && (a || !s.bit Reg.twnCtl 4 || b)) = true := by
    intro a b
    simp [hout, hhand]
  change execReleaseDeferExpiry s = _
  rw [execReleaseDeferExpiry, if_neg (by simp [hdefer])]
  exact congrArg Host.Outcome.next (if_pos (hgo _ _))

theorem exec_revertHoldoffExpiry_of_returned {s : State} {ids : List Nat} (hpair : s.paired = true)
    (hresync : s.twn.resync = []) (hrejoin : s.twn.peerRejoin = none) (hfence : s.twn.fenceIn = false)
    (hout : s.twn.fenceOut = false) (honline : (s.regions.vals.all fun r => r.state == .online) = true)
    (hids : ids = (s.regions.filter fun e => e.2.ensign == .owner && e.2.prefOwner != s.twin).map Prod.fst)
    (hsome : ids ≠ []) : exec .revertHoldoffExpiry s =
      .next (State.startHandoff { s with twn := { s.twn with reverting := true } } ids).settle := by
  subst hids
  refine congrArg Host.Outcome.next (if_pos ?_)
  rw [hpair, hresync, hrejoin, hfence, hout, honline, List.isEmpty_eq_false_iff.mpr hsome]
  rfl

end Sys2Proof.Machine

namespace Sys2Proof.Proofs

open Sys2Proof Sys2Proof.Machine

/-- Settles O48: Burgees, the decision, the fence, the commands of TWN_CMD and the return, each by the lemma on it. -/
theorem peerFailureFencingAndTakeover : Obligations.PeerFailureFencingAndTakeover := by
  refine ⟨fun s g hup hlanes => yields_shaumBurgeeInterval hup hlanes, fun s hlive => congrArg Host.Outcome.next (if_pos hlive),
    fun s hshaum hfast => ?_, fun s b hlive => exec_burgee_of_live true b hlive,
    fun s b hup => exec_burgee_of_live false b hup, fun s hsilent => ?_, fun s hsilent => ?_,
    fun s hadm hfence hself hshaum => ⟨exec_confirmationWindowExpiry_of_suspect hadm hfence hself hshaum,
      exec_shaumHoldExpiry_of_keeps hadm hfence hself hshaum⟩,
    fun s hdefer => ⟨?_, State.fenceNow_asserts⟩, fun s hsettle => ?_,
    fun s htake hrun hawake => exec_takeover_of_taking htake hrun hawake,
    fun s ns hfence hlong => ?_,
    fun s ns hfence hlong => exec_twinFenceInRelease_of_long hfence hlong, fun s hready => ?_,
    fun s ns hmin hmax => congrArg Host.Outcome.next (if_pos ⟨hmin, hmax⟩),
    fun s hout hsent => exec_fenceTest_of_free hout hsent,
    fun s hout hreleased hdown => yields_releaseLinkTimeout hout hreleased hdown,
    fun s hdefer hout hhand => exec_releaseDeferExpiry_of_due hdefer hout hhand,
    fun s hpair hresync hrejoin hfence hout honline => ?_⟩
  · exact congrArg Host.Outcome.next (if_neg (by simp [hshaum, hfast]))
  · exact congrArg Host.Outcome.next (if_neg (by simp [hsilent]))
  · exact congrArg Host.Outcome.next (if_neg (by simp [hsilent]))
  · exact congrArg Host.Outcome.next (if_pos (by simp [hdefer]))
  · exact congrArg Host.Outcome.next (if_pos (by simp [hsettle]))
  · intro t u hself
    have hu : u = s.fenceWithdrawn := rfl
    rw [hu] at hself ⊢
    exact exec_twinFenceInAssert_of_long hfence hlong hself
  · obtain ⟨hfence, hrelease, htake⟩ := exec_twnCmd_of_ready hready
    refine ⟨fun hout => hfence.trans (congrArg Host.Outcome.next (if_neg (by simp [hout]))), hrelease, fun hnone =>
      htake.trans (congrArg Host.Outcome.next (if_neg (by simp [hnone])))⟩
  · intro ids hsome
    exact exec_revertHoldoffExpiry_of_returned hpair hresync hrejoin hfence hout honline rfl hsome

end Sys2Proof.Proofs
end

section
/-! SUPPORT. Firmware transfers through CXL and PLDM, live activation and the MGT bus, by command, for the statement on them
(R513–R519, R630–R649). -/

namespace Sys2Proof.Machine

/-! ### Firmware through an LD's mailbox -/

section CxlFirmware

variable {s : State} {ld : Fin 32} {b : Bool} (hpriv : s.privLd ld = true) (hup : s.cxlMbxUp ld = true)
  (hheld : s.objectsHeld.contains (objSlot b) = false)

include hpriv hup in
theorem exec_transferFw_of_up (hgo : s.cxlFwUp (.fwTransferAbort b) = true) (action off total : Nat) (data : List Byte)
    (ok : Bool) : exec (.transferFw ld action b off total data ok) s = .next
      (((s.cxlTransfer ld action b off total data ok).1.cxlAnswer ld 0x0201
        (s.cxlTransfer ld action b off total data ok).2 []).loadPoll) := by
  change execTransferFw ld action b off total data ok s = _
  rw [execTransferFw, if_neg (by simp [hpriv]), if_neg (by simp [hup]), if_neg (by simp [hgo])]

section Transfer

variable (hbusy : s.transferBusy b = false)
include hheld hbusy

theorem State.cxlTransfer_begin {total : Nat} (hpos : 0 < total) (hmax : total ≤ 6 * 2 ^ 20)
    (hact : (s.fwSlot b).state ≠ .active) (hnone : s.fw.transfer = none) (off : Nat) (data : List Byte) (ok : Bool) :
    s.cxlTransfer ld 1 b off total data ok =
      ({ s.loadBegin b total with fw := { (s.loadBegin b total).fw with loadBy := some (true, ld.val) } }, 1) := by
  have hfit : ¬ (6 * 2 ^ 20 < total ∨ total = 0) := by omega
  simp only [State.cxlTransfer, hbusy, hheld, Bool.or_self, Bool.false_eq_true, if_false, if_neg hfit, hact,
    hnone, Option.isSome_none]

theorem State.cxlTransfer_continue (hload : (s.fwSlot b).state = .loading) (herase : s.slotErasing b = false) (total : Nat)
    {data : List Byte} (hmax : data.length ≤ 4064) (hfit : (s.fwSlot b).image.length + data.length ≤ (s.fwSlot b).total)
    (ok : Bool) :
    s.cxlTransfer ld 2 b (s.fwSlot b).image.length total data ok = (s.loadPut b data, 0) := by
  have hlen : ¬ (4064 < data.length ∨ (s.fwSlot b).total < (s.fwSlot b).image.length + data.length) := by omega
  simp only [State.cxlTransfer, hbusy, hheld, Bool.or_self, Bool.false_eq_true, if_false, herase, hload, ne_eq,
    not_true_eq_false, or_self, if_neg hlen]

theorem State.cxlTransfer_end (hload : (s.fwSlot b).state = .loading) {ok : Bool} (hgood : s.loadStatus b ok = jrSuccess)
    (off total : Nat) (data : List Byte) : s.cxlTransfer ld 3 b off total data ok = (s.loadEnd b ok, 0) := by
  simp only [State.cxlTransfer, hbusy, hheld, Bool.or_self, Bool.false_eq_true, if_false, hload, ne_eq,
    not_true_eq_false, hgood, if_true]

theorem State.cxlTransfer_abandon (hload : (s.fwSlot b).state = .loading) (off total : Nat) (data : List Byte) (ok : Bool) :
    s.cxlTransfer ld 4 b off total data ok = (s.loadDrop b, 0) := by
  simp only [State.cxlTransfer, hbusy, hheld, Bool.or_self, Bool.false_eq_true, if_false, hload, ne_eq,
    not_true_eq_false]

end Transfer

include hpriv hup hheld

theorem exec_activateFw_of_valid (hgo : s.cxlFwUp (.fwActivateNextReset b) = true) (hvalid : (s.fwSlot b).state = .valid) :
    exec (.activateFw ld b false) s = .next ((s.setPending b).cxlAnswer ld 0x0202 0 []) := by
  change execActivateFw ld b false s = _
  simp only [execActivateFw, hpriv, hup, hgo, hheld, hvalid, Bool.true_eq_false, Bool.false_eq_true, if_false, decide_false,
    Bool.or_self]

theorem exec_activateFw_of_live (hgo : s.cxlFwUp (.fwActivateLive b) = true) (himage : s.liveImage b = true)
    (hnow : s.liveNow = true) :
    exec (.activateFw ld b true) s = .next ((s.cxlAnswer ld 0x0202 1 []).liveHalt b none) := by
  change execActivateFw ld b true s = _
  simp only [execActivateFw, hpriv, hup, hgo, hheld, himage, hnow, Bool.true_eq_false, Bool.false_eq_true, if_false, if_true,
    decide_false, Bool.or_self, Bool.not_true]

end CxlFirmware

/-! ### Firmware through PLDM -/

section Pldm

variable {s : State} {eid : Nat} (hup : s.pldmUp eid = true)
include hup

theorem State.pldmIn_of_state {ok : PldmState → Bool} (hok : ok s.fw.pldm = true) (cmd : Nat) (f : State → State) :
    s.pldmIn eid cmd ok f = f s := by
  rw [State.pldmIn, if_neg (by simp [hup]), if_pos hok]

theorem exec_pldm_answers :
    exec (.queryDeviceIdentifiers eid) s = .next (s.pldmSend eid 0x01 0 [Config.firmwareDefined 0x515]) ∧
      exec (.getFirmwareParameters eid) s = .next (s.pldmSend eid 0x02 0 [s.runningSlot.version,
        if s.fw.a.state == .pending then s.fw.a.version else if s.fw.b.state == .pending then s.fw.b.version else 0]) ∧
      exec (.pldmGetStatus eid) s = .next (s.pldmSend eid 0x1B 0 [pldmCode s.fw.pldm]) :=
  ⟨congrArg Host.Outcome.next (if_pos hup), congrArg Host.Outcome.next (if_pos hup), congrArg Host.Outcome.next (if_pos hup)⟩

theorem exec_requestUpdate_of_idle {n : Nat} (hidle : s.fw.pldm = .idle) (hnone : s.fw.transfer = none)
    (hready : notReady s.phase (.fwTransferAbort false) = false) (hmin : 1024 ≤ n) :
    exec (.requestUpdate eid n) s = .next ((s.pldmTo .learn).pldmSend eid 0x10 0 []) := by
  change execRequestUpdate eid n s = _
  rw [execRequestUpdate, if_neg (by simp [hup]), if_neg (by simp [hidle]), if_neg]
  simp [hnone, hready]
  omega

theorem exec_passComponentTable_of_learn (v : Nat) (hlearn : s.fw.pldm = .learn) :
    exec (.passComponentTable eid v) s = .next ((s.pldmTo .ready).pldmSend eid 0x13 0 [v]) :=
  congrArg Host.Outcome.next (State.pldmIn_of_state hup (by simp [hlearn]) _ _)

theorem exec_updateComponent_of_ready {b : Bool} {total : Nat} (hready : s.fw.pldm = .ready) (hpos : 0 < total)
    (hmax : total ≤ 6 * 2 ^ 20) (hact : (s.fwSlot b).state ≠ .active) :
    let u := (s.loadBegin b total).pldmTo .download
    exec (.updateComponent eid b total) s =
      .next (State.pldmSend { u with fw := { u.fw with pldmSlot := b, loadBy := some (false, eid) } } eid 0x14 0 []).loadPoll := by
  have hfit : ¬ (total = 0 ∨ 6 * 2 ^ 20 < total ∨ (s.fwSlot b).state = .active) := by
    simp only [hact, or_false]
    omega
  exact congrArg Host.Outcome.next ((State.pldmIn_of_state hup (by simp [hready]) _ _).trans (if_neg hfit))

theorem exec_cancelUpdateComponent_of_download (hload : s.fw.pldm = .download) :
    exec (.cancelUpdateComponent eid) s = .next (((s.loadDrop s.fw.pldmSlot).pldmTo .ready).pldmSend eid 0x1C 0 []) :=
  congrArg Host.Outcome.next (State.pldmIn_of_state hup (by simp [hload]) _ _)

theorem exec_requestFirmwareData_of_more (hload : s.fw.pldm = .download) (herase : s.slotErasing s.fw.pldmSlot = false)
    {data : List Byte} (hsome : data ≠ [])
    (hlen : data.length = min 1024 ((s.fwSlot s.fw.pldmSlot).total - (s.fwSlot s.fw.pldmSlot).image.length))
    (hmore : (s.fwSlot s.fw.pldmSlot).image.length + data.length < (s.fwSlot s.fw.pldmSlot).total) :
    exec (.requestFirmwareData eid data) s = .next ((s.loadPut s.fw.pldmSlot data).pldmAsk eid) := by
  change execRequestFirmwareData eid data s = _
  rw [execRequestFirmwareData, if_pos (by simp [hup, hload, herase])]
  dsimp only
  rw [if_neg (by simp [← hlen, hsome]), if_pos hmore]

theorem exec_transferComplete_of_whole (hload : s.fw.pldm = .download)
    (hwhole : (s.fwSlot s.fw.pldmSlot).image.length = (s.fwSlot s.fw.pldmSlot).total) :
    exec (.transferComplete eid) s = .next ((s.pldmTo .verify).pldmSend eid 0x16 0 [0]) :=
  congrArg Host.Outcome.next (if_pos (by simp [hup, hload, hwhole]))

theorem exec_cancelUpdate_of_learn (hlearn : s.fw.pldm = .learn) (hnone : s.fw.transfer = none) :
    exec (.cancelUpdate eid) s = .next ((s.pldmTo .idle).pldmSend eid 0x1D 0 []) := by
  refine congrArg Host.Outcome.next ((State.pldmIn_of_state hup (by simp [hlearn]) _ _).trans ?_)
  rw [if_neg (by simp [hnone])]

theorem exec_verifyComplete_of_good {ok : Bool} (hverify : s.fw.pldm = .verify)
    (hgood : s.loadStatus s.fw.pldmSlot ok = jrSuccess) : exec (.verifyComplete eid ok) s =
      .next ((((s.loadTail s.fw.pldmSlot).modSlot s.fw.pldmSlot headerRead).pldmTo .apply).pldmSend eid 0x17 0 [0]) := by
  change execVerifyComplete eid ok s = _
  rw [execVerifyComplete, if_pos (by simp [hup, hverify])]
  exact congrArg Host.Outcome.next (if_pos hgood)

theorem exec_applyComplete_of_apply (happly : s.fw.pldm = .apply) :
    let t := s.modSlot s.fw.pldmSlot fun x => { x with state := .valid }
    exec (.applyComplete eid) s =
      .next (State.pldmSend { t with fw := { t.fw with transfer := none, pldm := .ready } } eid 0x18 0 [0]) :=
  congrArg Host.Outcome.next (if_pos (by simp [hup, happly]))

theorem exec_activateFirmware_of_valid (hready : s.fw.pldm = .ready) (hvalid : (s.fwSlot s.fw.pldmSlot).state = .valid) :
    exec (.activateFirmware eid false) s =
      .next (((s.setPending s.fw.pldmSlot).pldmTo .idle).pldmSend eid 0x1A 0 [0]) := by
  refine congrArg Host.Outcome.next ((State.pldmIn_of_state hup (by simp [hready]) _ _).trans ?_)
  dsimp only
  rw [if_neg (by simp [hvalid]), if_neg Bool.false_ne_true]

end Pldm

/-! ### The live activation -/

theorem exec_live_of_activating {s : State} {b : Bool} (hlive : s.fw.activating = some b) (us : Nat) :
    (us ≤ 50000 → exec (.liveActivationReady us) s = .next (s.liveReady b us)) ∧
      exec .activationTimeout s = .next ((State.flagRecord { s.modSlot b fun x => { x with state := .pending } with
        fw := { (s.modSlot b fun x => { x with state := .pending }).fw with activating := none, actInst := none } }
        Reg.mbxEvent 3 0x0203 0 0).warmStart true) := by
  refine ⟨fun hus => ?_, ?_⟩
  · change execLiveActivationReady us s = _
    simp only [execLiveActivationReady, hlive, if_pos hus]
  · change execActivationTimeout s = _
    simp only [execActivationTimeout, hlive]

/-! ### The MGT bus -/

/-- A packet of a message that is no MCTP control message: it takes a receive buffer (R631). -/
theorem exec_mgtBlockWrite_of_room {s : State} {dest src tag seq : Nat} {data : List Byte} (hroom : s.twb.rx.length < 8)
    (hok : s.pktOk 0x0F (data.length + 5) dest data = true) (htype : (data.getD 0 0).toNat % 128 ≠ 0) :
    exec (.mgtBlockWrite 0x0F (data.length + 5) dest src tag seq true false true data) s =
        .next (State.mgtDrain { s.smbAck true with twb := { (s.smbAck true).twb with rx := (s.smbAck true).twb.rx ++ [(
          { eid := src % 256, tag := tag % 8, seq := seq % 4, som := true, eom := false, data := data } : MctpPkt)] } }) ∧
      exec (.mgtBlockWrite 0x0F (data.length + 5) dest src tag seq true false false data) s =
        .next (((s.flag Reg.twbMgtEvent 1).count (Reg.twbMgtCount + 4)).smbAck false) := by
  have hcontrol : ¬ ((true && ((data.getD 0 0).toNat % 128 == 0)) = true) := by simpa using htype
  constructor
  · change execMgtBlockWrite 0x0F (data.length + 5) dest src tag seq true false true data s = _
    rw [execMgtBlockWrite, if_neg (Nat.not_le.mpr hroom), if_neg (by decide), if_neg (by simp [hok]), if_neg hcontrol]
  · change execMgtBlockWrite 0x0F (data.length + 5) dest src tag seq true false false data s = _
    rw [execMgtBlockWrite, if_neg (Nat.not_le.mpr hroom), if_pos (by decide)]

/-- A read of the packet at the head (R632). -/
theorem exec_mgtBlockRead_of_head {s : State} {p : List Byte} {rest : List (List Byte)} (htx : s.twb.tx = p :: rest) :
    let a := 2 * s.mgtAddr
    let body := leBytes 1 (a + 1) ++ p
    let frame := leBytes 1 body.length ++ body
    let t := s.emit (.smbRead (frame ++ leBytes 1 (crc8 (leBytes 1 a ++ leBytes 1 0x0F ++ leBytes 1 (a + 1) ++ frame))))
    exec (.mgtBlockRead true) s = .next (State.mctpFill { t with twb := { t.twb with tx := rest } }) ∧
      exec (.mgtBlockRead false) s = .next t := by
  intro a body frame t
  have hrest : t.twb.tx.drop 1 = rest := by
    rw [show t.twb.tx = s.twb.tx from rfl, htx]
    rfl
  constructor
  · change execMgtBlockRead true s = _
    rw [← hrest]
    simp only [execMgtBlockRead, htx]
    rfl
  · change execMgtBlockRead false s = _
    simp only [execMgtBlockRead, htx]
    rfl

theorem exec_setEndpointId_of_free {s : State} {eid : Nat} (src : Nat) (hpos : 0 < eid) (hmax : eid < 255) :
    let t : State := { s with twb := { s.twb with eid := eid } }
    exec (.setEndpointId src eid) s = .next (((t.mbx.keys.filter fun k => decide (2 ^ 33 ≤ k) &&
      decide (k < 2 ^ 34)).foldl State.mbxReset t).mctpControl src 0 1 [0, 0, eid, 0]) := by
  have hmod : eid % 256 = eid := Nat.mod_eq_of_lt (by omega)
  change Host.Outcome.next (s.setEid src 0 eid) = _
  rw [State.setEid, hmod, if_neg (by omega)]

end Sys2Proof.Machine

namespace Sys2Proof.Proofs

open Sys2Proof Sys2Proof.Machine

/-- Settles O55: the ways of a firmware image, the live activation, and each transaction on MGT, by the lemma on it. -/
theorem firmwareUpdateAndMgtBus : Obligations.FirmwareUpdateAndMgtBus := by
  refine ⟨fun s ld b hpriv hup hheld => ?_, fun s eid hup => ?_, fun s b us hlive => exec_live_of_activating hlive us,
    fun s hphase hregions => ?_, fun s dest src tag seq data hroom hok htype => exec_mgtBlockWrite_of_room hroom hok htype,
    fun s p rest htx => exec_mgtBlockRead_of_head htx, fun s halert => ?_, fun s => ⟨rfl, rfl, rfl, rfl, rfl⟩,
    fun s src eid => ⟨exec_setEndpointId_of_free src, rfl, rfl, rfl, rfl⟩⟩
  · refine ⟨fun hgo hbusy => ?_, fun hgo hvalid => exec_activateFw_of_valid hpriv hup hheld hgo hvalid,
      fun hgo himage hnow => exec_activateFw_of_live hpriv hup hheld hgo himage hnow⟩
    have hexec := exec_transferFw_of_up hpriv hup hgo
    refine ⟨fun off total data ok hpos hmax hact hnone => ?_, fun hload herase =>
      ⟨fun total data ok hmax hfit => ?_, fun off total data ok hgood => ?_, fun off total data ok => ?_⟩⟩
    · exact (hexec 1 off total data ok).trans (by rw [State.cxlTransfer_begin hheld hbusy hpos hmax hact hnone])
    · rw [hexec, State.cxlTransfer_continue hheld hbusy hload herase total hmax hfit]
    · rw [hexec, State.cxlTransfer_end hheld hbusy hload hgood]
    · rw [hexec, State.cxlTransfer_abandon hheld hbusy hload]
  · intro x
    obtain ⟨hquery, hparams, hstatus⟩ := exec_pldm_answers hup
    exact ⟨hquery, hparams, hstatus, fun n hidle hnone hready hmin => exec_requestUpdate_of_idle hup hidle hnone hready hmin,
      fun v hlearn => exec_passComponentTable_of_learn hup v hlearn,
      fun b total hready hpos hmax hact => exec_updateComponent_of_ready hup hready hpos hmax hact,
      fun hload herase => ⟨exec_cancelUpdateComponent_of_download hup hload,
        fun data hsome hlen hmore => exec_requestFirmwareData_of_more hup hload herase hsome hlen hmore,
        exec_transferComplete_of_whole hup hload⟩,
      exec_cancelUpdate_of_learn hup, fun ok hverify hgood => exec_verifyComplete_of_good hup hverify hgood,
      exec_applyComplete_of_apply hup, exec_activateFirmware_of_valid hup⟩
  · exact congrArg Host.Outcome.next (if_pos ⟨hphase, by rw [hregions]; rfl⟩)
  · exact congrArg Host.Outcome.next (if_pos (by rw [halert]; rfl))

end Sys2Proof.Proofs
end

section
/-! SUPPORT. Boot, debug, the anti-rollback counter and the SPDM responder, by command, for the statement on them (R513,
R531–R543). -/

namespace Sys2Proof.Machine

/-- The boot ROM boots the slot that it tries first, where that verifies (R536). -/
theorem exec_bootRomStart_of_first {s t : State} {a b : Nat} {root sel first : Bool} (hphase : s.phase = 0)
    (hfail : s.sec.failStep = 0) (ht : t = State.railsLoad { s with sec := { s.sec with bootSel := sel } })
    (hfirst : first = (bootSlot t.fw != t.sec.bootSel)) (hgood : t.bootFails first (if first then b else a) root = 0) :
    exec (.bootRomStart a b root sel false) s = .next (t.booted first root) := by
  subst hfirst
  subst ht
  have hgo : ¬ (false = true ∨ s.phase ≠ 0 ∨ (s.sec.failStep ≠ 0 ∧ s.sec.failOther ≠ 0)) := by simp [hphase, hfail]
  change execBootRomStart a b root sel false s = _
  rw [execBootRomStart, if_neg hgo]
  exact congrArg Host.Outcome.next (if_pos hgood)

/-- A debug token that verifies in PRODUCTION (R534). -/
theorem exec_debugToken_of_production {s : State} (rma : Bool) (hlife : s.newChallenge.sec.lifecycle = 2) :
    let t := s.newChallenge
    let u := State.keysLost { t with sec := { t.sec with debugUnlocked := true, lifecycle := if rma then 3 else 2 } }
    exec (.debugToken true rma) s = .next (State.setPhase { u.leaveService with noAdmit := true } 11).settle := by
  change execDebugToken true rma s = _
  rw [execDebugToken]
  dsimp only
  rw [if_neg (by decide), if_neg (by simp [hlife])]

/-- Firmware's write of SEC_ARB_ADVANCE (R563). -/
theorem State.writeAccess_secArbAdvance {s : State} {svn : Nat} (h : s.cmdReady Reg.secArbAdvance) (hmax : svn < 256) :
    s.writeAccess .firmware Reg.secArbAdvance 4 svn = { s with sec := { s.sec with arb := max s.sec.arb svn } } := by
  obtain ⟨hawake, hgate, hreset⟩ := h
  have hserves : s.serves .firmware Reg.secArbAdvance { off := Reg.secArbAdvance, wo := 0xFF } :=
    State.serves_firmware rfl hawake hgate (by decide)
  have hfx : ∀ old new val : Word, s.writeFx Reg.secArbAdvance old new val = s.arbAdvance (Word.fld val 7 0) :=
    fun _ _ _ => rfl
  rw [State.writeAccess_command _ hserves rfl ⟨by decide, by decide⟩ ⟨rfl, rfl, rfl, rfl⟩ rfl rfl hreset, hfx,
    Word.fld_w32 hmax (by decide), State.arbAdvance, Nat.mod_eq_of_lt hmax]

/-! ### The SPDM responder -/

/-- Capabilities follow the version. -/
theorem exec_getCapabilities (s : State) (q : SpdmPath) (n : Nat) :
    exec (.getCapabilities q n) s = .next (if (s.spdmOf q).version then
      ((s.modSpdm q fun x => { x with caps := true, algs := false, dataXfer := n }).spdmNote q [0xE1, n]).spdmSay q
        spdmCapabilities [4096]
    else s.spdmErr q 0x04) := rfl

/-- Algorithms follow the capabilities. -/
theorem exec_negotiateAlgorithms_of_caps {s : State} {q : SpdmPath} (hcaps : (s.spdmOf q).caps = true) :
    exec (.negotiateAlgorithms q true) s = .next (((s.modSpdm q fun x => { x with algs := true }).spdmNote q
        [0xE3]).spdmSay q spdmAlgorithms [1]) ∧
      exec (.negotiateAlgorithms q false) s = .next (s.spdmErr q 0x07) := by
  have hgo : ¬ ((s.spdmOf q).caps = false) := by simp [hcaps]
  exact ⟨congrArg Host.Outcome.next (if_neg hgo), congrArg Host.Outcome.next (if_neg hgo)⟩

/-- A signature while the lattice engines run. -/
theorem State.signWhen_of_running {s : State} (q : SpdmPath) (hon : s.latticeOff = false) (index : Option Nat) (nonce : Nat) :
    s.signWhen q index nonce = match index with
      | none => s.challengeReply q nonce
      | some i => s.measureReply q i nonce true :=
  if_neg (by simp [hon])

section Negotiated

variable {s : State} {q : SpdmPath} (halgs : (s.spdmOf q).algs = true)
include halgs

theorem State.spdmWhen_of_algs (f : State → State) : s.spdmWhen q f = f s := if_pos halgs

theorem exec_getDigests_of_algs : exec (.getDigests q) s =
    .next ((s.spdmNote q [0x81]).spdmReply q spdmDigests 52 [1, Config.crypto [0x541, s.cdi1]]) :=
  congrArg Host.Outcome.next (State.spdmWhen_of_algs halgs _)

theorem exec_getCertificate_of_algs {off len : Nat} (hoff : off < chainLen) :
    let n := min len (chainLen - off)
    exec (.getCertificate q 0 off len) s = .next ((s.spdmNote q [0x82, off, n]).spdmReply q spdmCertificate (8 + n)
      ([0, n, chainLen - off - n] ++ (List.range n).map fun i => s.chainByte (off + i))) := by
  refine congrArg Host.Outcome.next ((State.spdmWhen_of_algs halgs _).trans (if_neg ?_))
  simp only [ne_eq, not_true_eq_false, false_or, not_le]
  exact hoff

theorem exec_challenge_of_algs (hon : s.latticeOff = false) (nonce : Nat) :
    exec (.challenge q 0 nonce) s = .next (s.challengeReply q nonce) :=
  congrArg Host.Outcome.next ((State.spdmWhen_of_algs halgs _).trans (State.signWhen_of_running q hon none nonce))

theorem exec_getMeasurements_of_algs (hon : s.latticeOff = false) {index : Nat} (hindex : index ≤ 7) (nonce : Nat)
    (signed : Bool) : exec (.getMeasurements q index nonce signed) s = .next (s.measureReply q index nonce signed) := by
  refine congrArg Host.Outcome.next ((State.spdmWhen_of_algs halgs _).trans ?_)
  rw [State.measureDo, if_neg (by omega)]
  cases signed
  · exact if_neg Bool.false_ne_true
  · exact (if_pos rfl).trans (State.signWhen_of_running q hon (some index) nonce)

theorem exec_chunkSend_of_first (data : List Byte) : exec (.chunkSend q 0 data false) s =
    .next ((s.modSpdm q fun x => { x with chunksIn := data, nextChunk := 1 }).spdmSay q spdmChunkSendAck [0]) :=
  congrArg Host.Outcome.next (State.spdmWhen_of_algs halgs _)

theorem exec_chunkGet_of_last {code bytes n : Nat} {body : List Nat} (hlarge : (s.spdmOf q).large = code :: bytes :: body)
    (hn : n = min ((s.spdmOf q).dataXfer - 16) (bytes - (s.spdmOf q).sent)) (hlast : bytes ≤ (s.spdmOf q).sent + n) :
    exec (.chunkGet q (s.spdmOf q).handle (s.spdmOf q).nextChunk) s = .next ((s.modSpdm q fun x => { x with
      large := [], sent := 0, nextChunk := 0 }).spdmSay q spdmChunkResponse
        ([(s.spdmOf q).handle, (s.spdmOf q).nextChunk, 1, (s.spdmOf q).sent, n, code] ++ body)) := by
  subst hn
  change execChunkGet q _ _ s = _
  rw [execChunkGet, State.spdmWhen_of_algs halgs]
  simp only [hlarge, ne_eq, not_true_eq_false, or_self, if_false, decide_eq_true hlast, if_true]
  rfl

end Negotiated

end Sys2Proof.Machine

namespace Sys2Proof.Proofs

open Sys2Proof Sys2Proof.Machine

/-- Settles O56: boot, debug, the entropy test, the counter, and each request of the SPDM responder by the lemma on it. -/
theorem bootDebugAndSpdm : Obligations.BootDebugAndSpdm := by
  refine ⟨fun s a b root sel hphase hfail => ?_, fun s rma => ⟨rfl, exec_debugToken_of_production rma⟩, fun s n => rfl,
    fun s => ⟨rfl, rfl⟩, fun s svn hready hmax => ?_, fun s q => rfl, fun s q n => ⟨fun hver => ?_, fun hver => ?_,
      exec_negotiateAlgorithms_of_caps⟩, fun s q halgs => ?_⟩
  · intro t first hgood
    exact exec_bootRomStart_of_first hphase hfail rfl rfl hgood
  · exact congrArg Host.Outcome.next (State.writeAccess_secArbAdvance hready hmax)
  · rw [exec_getCapabilities, hver, if_pos rfl]
  · rw [exec_getCapabilities, hver, if_neg Bool.false_ne_true]
  · exact ⟨exec_getDigests_of_algs halgs, fun off len hoff => exec_getCertificate_of_algs halgs hoff,
      fun nonce hon => exec_challenge_of_algs halgs hon nonce,
      fun index nonce signed hindex hon => exec_getMeasurements_of_algs halgs hon hindex nonce signed,
      exec_chunkSend_of_first halgs,
      fun code bytes body n hlarge hn hlast => exec_chunkGet_of_last halgs hlarge hn hlast⟩

end Sys2Proof.Proofs
end

section
/-! SUPPORT. The configuration flash and the event recorder, by command, for the statement on them (R566–R582, R665). -/

namespace Sys2Proof.Machine

/-! ### Command registers -/

/-- Firmware's write of a command register does what the register does, and stores nothing (R12). -/
theorem State.writeAccess_cmdReady {s : State} {off : Nat} {d : RegDesc} (v : Nat) (h : s.cmdReady off)
    (hd : descAt off = some d) (hoff : off < 0x100000 ∨ 0x200000 ≤ off) (hpair : d.pair = 0) (hplain : plainOff off)
    (hun : d.rw = 0 ∧ d.rwl = 0 ∧ d.w1s = 0 ∧ d.w1c = 0)
    (hsame : storedVal off (s.reg off) (s.reg off) = s.reg off) (hrej : s.rejects off (s.reg off) = false) :
    s.writeAccess .firmware off 4 v = s.writeFx off (s.reg off) (s.reg off) (w32 v) := by
  obtain ⟨hawake, hgate, hreset⟩ := h
  exact State.writeAccess_command v (State.serves_firmware hd hawake hgate hoff) hpair hplain hun hsame hrej hreset

section EflRegisters

variable {s : State} (v : Nat)

theorem State.writeAccess_eflUnlock (h : s.cmdReady Reg.eflUnlock) :
    s.writeAccess .firmware Reg.eflUnlock 4 v = s.eflUnlockWrite (w32 v).toNat := by
  have hfx : ∀ old new val : Word, s.writeFx Reg.eflUnlock old new val = s.eflUnlockWrite val.toNat := fun _ _ _ => rfl
  rw [State.writeAccess_cmdReady (d := { off := Reg.eflUnlock, wo := 0xFFFFFFFF }) v h rfl (by decide) rfl
    ⟨by decide, by decide⟩ ⟨rfl, rfl, rfl, rfl⟩ rfl rfl, hfx]

theorem State.writeAccess_eflCmd (h : s.cmdReady Reg.eflCmd) :
    s.writeAccess .firmware Reg.eflCmd 4 v = s.eflOther.eflCmdWrite (w32 v).toNat := by
  have hfx : ∀ old new val : Word, s.writeFx Reg.eflCmd old new val = s.eflOther.eflCmdWrite val.toNat := fun _ _ _ => rfl
  rw [State.writeAccess_cmdReady (d := { off := Reg.eflCmd, wo := 0xF }) v h rfl (by decide) rfl
    ⟨by decide, by decide⟩ ⟨rfl, rfl, rfl, rfl⟩ rfl rfl, hfx]

theorem State.writeAccess_eflAddr (h : s.cmdReady Reg.eflAddr) :
    s.writeAccess .firmware Reg.eflAddr 4 v = s.eflOther.eflAddrWrite (w32 v).toNat := by
  have hfx : ∀ old new val : Word, s.writeFx Reg.eflAddr old new val = s.eflOther.eflAddrWrite val.toNat := fun _ _ _ => rfl
  rw [State.writeAccess_cmdReady (d := { off := Reg.eflAddr, wo := 0xFFFFF8 }) v h rfl (by decide) rfl
    ⟨by decide, by decide⟩ ⟨rfl, rfl, rfl, rfl⟩ rfl rfl, hfx]

theorem State.writeAccess_eflDataLo (h : s.cmdReady Reg.eflDataLo) :
    s.writeAccess .firmware Reg.eflDataLo 4 v = s.eflOther.eflLoWrite (w32 v).toNat := by
  have hfx : ∀ old new val : Word, s.writeFx Reg.eflDataLo old new val = s.eflOther.eflLoWrite val.toNat := fun _ _ _ => rfl
  rw [State.writeAccess_cmdReady (d := { off := Reg.eflDataLo, wo := 0xFFFFFFFF }) v h rfl (by decide) rfl
    ⟨by decide, by decide⟩ ⟨rfl, rfl, rfl, rfl⟩ rfl rfl, hfx]

theorem State.writeAccess_eflDataHi (h : s.cmdReady Reg.eflDataHi) :
    s.writeAccess .firmware Reg.eflDataHi 4 v = s.eflOther.eflHiWrite (w32 v).toNat := by
  have hfx : ∀ old new val : Word, s.writeFx Reg.eflDataHi old new val = s.eflOther.eflHiWrite val.toNat := fun _ _ _ => rfl
  rw [State.writeAccess_cmdReady (d := { off := Reg.eflDataHi, wo := 0xFFFFFFFF }) v h rfl (by decide) rfl
    ⟨by decide, by decide⟩ ⟨rfl, rfl, rfl, rfl⟩ rfl rfl, hfx]

theorem State.writeAccess_evrSubmit3 (h : s.cmdReady (Reg.evrSubmit + 16)) :
    s.writeAccess .firmware (Reg.evrSubmit + 16) 4 v = s.evrSubmitDo (w32 v).toNat := by
  have hfx : ∀ old new val : Word, s.writeFx (Reg.evrSubmit + 16) old new val = s.evrSubmitDo val.toNat := fun _ _ _ => rfl
  rw [State.writeAccess_cmdReady (d := { off := Reg.evrSubmit, wo := 0xFFFFFFFF, cnt := 5, stride := 0x4 }) v h rfl
    (by decide) rfl ⟨by decide, by decide⟩ ⟨rfl, rfl, rfl, rfl⟩ rfl rfl, hfx]

end EflRegisters

/-! ### The command sequence of the EFL -/

/-- The keys of EFL_UNLOCK (R568). -/
theorem State.eflUnlockWrite_keys {s : State} (hopen : s.efl.lockout = false) :
    (s.efl.seq = .locked → s.eflUnlockWrite 0xAA55 = { s with efl := { s.efl with seq := .key1 } }) ∧
      (s.efl.seq = .key1 → s.eflUnlockWrite 0x55AA = { s with efl := { s.efl with seq := .unlocked, keyErrs := 0 } }) ∧
      (s.efl.seq = .locked → ∀ k, k ≠ 0xAA55 → s.eflUnlockWrite k = s.eflBreak 1) := by
  have hgo : ¬ (s.efl.lockout = true) := by simp [hopen]
  refine ⟨fun hseq => ?_, fun hseq => ?_, fun hseq k hk => ?_⟩ <;>
    rw [State.eflUnlockWrite, if_neg hgo, hseq]
  · exact if_pos rfl
  · exact if_pos rfl
  · exact if_neg hk

theorem State.eflOther_of_seq {s : State} (h : s.efl.seq ≠ .key1) : s.eflOther = s := by
  unfold State.eflOther
  split
  · contradiction
  · rfl

/-- Writes of the EFL's registers in a state in which no register and no island stands in the way. -/
def State.eflOpen (s : State) : Prop := s.isl.quiet = .awake ∧ s.isl.gated = [] ∧ s.regs = []

theorem State.cmdReady_of_eflOpen {s : State} (h : s.eflOpen) (off : Nat) : s.cmdReady off := by
  obtain ⟨hawake, hgated, hregs⟩ := h
  refine ⟨hawake, ?_, ?_⟩
  · rw [State.gated, hgated]
    rfl
  · rw [hregs]
    rfl

/-- The EFL at a step of firmware's sequence, with the address and the low half that it holds. -/
def State.eflAt (s : State) (q : EflSeq) (addr lo : Nat) : State :=
  { s with efl := { s.efl with seq := q, addr := addr, lo := lo } }

theorem State.eflOpen_eflAt {s : State} (h : s.eflOpen) (q : EflSeq) (addr lo : Nat) : (s.eflAt q addr lo).eflOpen := h

section Unlocked

variable {s : State} (hopen : s.eflOpen) (hseq : s.efl.seq = .unlocked) (hidle : s.eflBusy = false)
include hopen hseq hidle

/-- CMD of an unlocked EFL that is idle (R568). -/
theorem State.writeAccess_eflCmd_of_unlocked :
    s.writeAccess .firmware Reg.eflCmd 4 1 = s.eflAt .program s.efl.addr s.efl.lo ∧
      s.writeAccess .firmware Reg.eflCmd 4 2 = s.eflAt .erase s.efl.addr s.efl.lo := by
  have hready := State.cmdReady_of_eflOpen hopen Reg.eflCmd
  have hother : s.eflOther = s := State.eflOther_of_seq (by rw [hseq]; decide)
  have hcmd : s.eflCmdWrite 1 = s.eflAt .program s.efl.addr s.efl.lo ∧
      s.eflCmdWrite 2 = s.eflAt .erase s.efl.addr s.efl.lo := by
    simp [State.eflCmdWrite, hidle, hseq, State.eflAt]
  refine ⟨?_, ?_⟩ <;> rw [State.writeAccess_eflCmd _ hready, hother]
  · exact hcmd.1
  · exact hcmd.2

end Unlocked

/-- Firmware's writes of the address and the data of a PROGRAM, one after the other. -/
theorem State.writeAccess_program {s : State} (hopen : s.eflOpen) (a l addr lo hi : Nat) (haddr : addr < 2 ^ 32)
    (hlo : lo < 2 ^ 32) (hhi : hi < 2 ^ 32) :
    (((s.eflAt .program a l).writeAccess .firmware Reg.eflAddr 4 addr).writeAccess .firmware Reg.eflDataLo 4
        lo).writeAccess .firmware Reg.eflDataHi 4 hi =
      (s.eflAt .programLo (addr % 2 ^ 24 / 8 * 8) lo).programFw (addr % 2 ^ 24 / 8 * 8) (lo + 2 ^ 32 * hi) := by
  have hready := fun (q : EflSeq) (a l off : Nat) => State.cmdReady_of_eflOpen (State.eflOpen_eflAt hopen q a l) off
  have hother : ∀ (q : EflSeq) (a l : Nat), q ≠ .key1 → (s.eflAt q a l).eflOther = s.eflAt q a l :=
    fun q a l hq => State.eflOther_of_seq hq
  have h1 : (s.eflAt .program a l).writeAccess .firmware Reg.eflAddr 4 addr =
      s.eflAt .programAddr (addr % 2 ^ 24 / 8 * 8) l := by
    rw [State.writeAccess_eflAddr _ (hready _ _ _ _), hother _ _ _ (by decide), toNat_w32_of_le (Nat.le_of_lt_succ haddr)]
    rfl
  have h2 : (s.eflAt .programAddr (addr % 2 ^ 24 / 8 * 8) l).writeAccess .firmware Reg.eflDataLo 4 lo =
      s.eflAt .programLo (addr % 2 ^ 24 / 8 * 8) lo := by
    rw [State.writeAccess_eflDataLo _ (hready _ _ _ _), hother _ _ _ (by decide), toNat_w32_of_le (Nat.le_of_lt_succ hlo)]
    rfl
  rw [h1, h2, State.writeAccess_eflDataHi _ (hready _ _ _ _), hother _ _ _ (by decide), toNat_w32_of_le (Nat.le_of_lt_succ hhi)]
  rfl

/-- What suspending an erase for a program leaves. -/
theorem State.autoSuspend_leaves (s : State) : s.autoSuspend.efl.words = s.efl.words ∧ s.autoSuspend.efl.seq = s.efl.seq ∧
    s.autoSuspend.mem = s.mem := by
  unfold State.autoSuspend State.eraseState
  split_ifs
  · split <;> exact ⟨rfl, rfl, rfl⟩
  · exact ⟨rfl, rfl, rfl⟩

/-- A program that R569 does not refuse is queued, and the EFL is locked again. -/
theorem State.programFw_of_allowed {s : State} {addr data : Nat} (hok : s.programErr addr data = 0) :
    (s.programFw addr data).efl.prog.map (fun p => (p.addr, p.data)) = some (addr, data) ∧
      (s.programFw addr data).efl.seq = .locked ∧ (s.programFw addr data).efl.words = s.efl.words ∧
      (s.programFw addr data).mem = s.mem := by
  have hok' : State.programErr { s with efl := { s.efl with seq := .locked } } addr data = 0 := hok
  obtain ⟨hwords, hseq, hmem⟩ := State.autoSuspend_leaves { s with efl := { s.efl with seq := .locked } }
  unfold State.programFw
  dsimp only
  rw [if_neg (by rw [hok']; decide)]
  exact ⟨rfl, hseq, hwords, hmem⟩

/-- An idle EFL: nothing programs, and no erase is under way or waits. -/
theorem State.eflBusy_of_idle {s : State} (hprog : s.efl.prog = none) (herase : s.efl.erase = none) (hjobs : s.efl.jobs = []) :
    s.eflBusy = false := by
  simp [State.eflBusy, hprog, herase, hjobs]

/-- The halves of a double word, put together again. -/
theorem dword_halves (d : DWord) : d.toNat % 2 ^ 32 < 2 ^ 32 ∧ d.toNat / 2 ^ 32 < 2 ^ 32 ∧
    d.toNat % 2 ^ 32 + 2 ^ 32 * (d.toNat / 2 ^ 32) = d.toNat := by
  have hd := d.isLt
  exact ⟨Nat.mod_lt _ (by decide), Nat.div_lt_of_lt_mul (by omega), Nat.mod_add_div _ _⟩

theorem yields_eflProgram {s : State} {addr : Word} {data : DWord} (hopen : s.eflOpen) (hseq : s.efl.seq = .unlocked)
    (hidle : s.eflBusy = false) (hok : s.programErr (addr.toNat % 2 ^ 24 / 8 * 8) data.toNat = 0) :
    Yields (.eflProgram .firmware addr data) s fun t =>
      t.efl.prog.map (fun p => (p.addr, p.data)) = some (addr.toNat % 2 ^ 24 / 8 * 8, data.toNat) ∧ t.efl.seq = .locked ∧
      t.efl.words = s.efl.words ∧ t.mem = s.mem := by
  obtain ⟨hlo, hhi, hdata⟩ := dword_halves data
  have hrun := State.writeAccess_program hopen s.efl.addr s.efl.lo addr.toNat _ _ addr.isLt hlo hhi
  rw [hdata, ← (State.writeAccess_eflCmd_of_unlocked hopen hseq hidle).1] at hrun
  refine ⟨_, congrArg Host.Outcome.next hrun, ?_⟩
  exact State.programFw_of_allowed (s := s.eflAt .programLo _ _) hok

theorem exec_eflErase_of_allowed {s : State} {addr : Word} (hopen : s.eflOpen) (hseq : s.efl.seq = .unlocked)
    (hidle : s.eflBusy = false) (herase : s.efl.erase = none)
    (hfree : s.eflProtected (addr.toNat % 2 ^ 24 / 65536) = false) : exec (.eflErase .firmware addr) s =
      .next (State.eraseStart { s with efl := { s.efl with seq := .locked } } (addr.toNat % 2 ^ 24 / 65536) 3) := by
  have hready := State.cmdReady_of_eflOpen (State.eflOpen_eflAt hopen .erase s.efl.addr s.efl.lo) Reg.eflAddr
  have hfree' : State.eflProtected { s with efl := { s.efl with seq := .locked } } (addr.toNat % 2 ^ 24 / 65536) = false :=
    hfree
  have hother : (s.eflAt .erase s.efl.addr s.efl.lo).eflOther = s.eflAt .erase s.efl.addr s.efl.lo :=
    State.eflOther_of_seq EflSeq.noConfusion
  have hfw : (s.eflAt .erase s.efl.addr s.efl.lo).eflAddrWrite addr.toNat =
      State.eraseFw s (addr.toNat % 2 ^ 24 / 65536) := rfl
  change execEflErase .firmware addr s = _
  rw [execEflErase, (State.writeAccess_eflCmd_of_unlocked hopen hseq hidle).2, State.writeAccess_eflAddr _ hready, hother,
    w32_toNat, hfw, State.eraseFw]
  dsimp only
  rw [hfree', herase]
  rfl

/-! ### Suspend, resume, the end of an erase -/

theorem exec_eflSuspend_of_erasing {s : State} (h : s.cmdReady Reg.eflCmd) (hseq : s.efl.seq = .locked)
    (herasing : s.eflErasing = true) : exec (.eflSuspend .firmware) s = .next { s.eraseState .suspended with
      efl := { (s.eraseState .suspended).efl with autoSusp := false } } := by
  have hother : s.eflOther = s := State.eflOther_of_seq (by rw [hseq]; decide)
  have hcmd : s.eflCmdWrite 3 = s.eflSuspendDo := rfl
  refine congrArg Host.Outcome.next ((State.writeAccess_eflCmd 3 h).trans ?_)
  rw [hother]
  exact hcmd.trans (if_pos herasing)

theorem exec_eflResume_of_suspended {s : State} (hsusp : s.eflSuspended = true) (hprog : s.efl.prog = none)
    (hpower : s.efl.brownout = false) :
    (s.cmdReady Reg.eflCmd → s.efl.seq = .locked → exec (.eflResume .firmware) s = .next { s.eraseState .erasing with
        efl := { (s.eraseState .erasing).efl with autoSusp := false } }) ∧
      (s.efl.autoSusp = true → exec .eflAutoResume s = .next { s.eraseState .erasing with
        efl := { (s.eraseState .erasing).efl with autoSusp := false } }) := by
  refine ⟨fun h hseq => ?_, fun hauto => ?_⟩
  · have hother : s.eflOther = s := State.eflOther_of_seq (by rw [hseq]; decide)
    have hcmd : s.eflCmdWrite 4 = s.eflResumeDo := rfl
    refine congrArg Host.Outcome.next ((State.writeAccess_eflCmd 4 h).trans ?_)
    rw [hother]
    exact hcmd.trans ((if_pos hsusp).trans (if_neg (by rw [hprog, hpower]; decide)))
  · exact congrArg Host.Outcome.next (if_pos (by rw [hsusp, hauto, hprog, hpower]; rfl))

theorem exec_eflProgramDone_of_queued {s : State} {p : EflOp} (hprog : s.efl.prog = some p) (hpower : s.efl.brownout = false) :
    exec .eflProgramDone s =
      .next ((State.eflPut { s with efl := { s.efl with prog := none } } p.addr p.data).flag Reg.eflStatus 11) := by
  change execEflProgramDone s = _
  simp only [execEflProgramDone, hprog, hpower, Bool.false_eq_true, if_false]

/-- A word that is programmed holds what both its old and its new value have at 1. -/
theorem State.eflWord_eflPut (s : State) (addr data : Nat) : (s.eflPut addr data).eflWord addr = s.eflWord addr &&& data := by
  simp only [State.eflWord, State.eflPut, Tbl.getD, Tbl.get?_set, if_true, Option.getD_some]

/-- What the end of an erase leaves of its block (R572). -/
def State.erasedBlock (s : State) (b : Nat) : State :=
  State.countErase { s with efl := { s.efl with
    words := s.efl.words.filter (fun x => x.1 / 8192 != b), passes := s.efl.passes.filter (fun x => x.1 / 8192 != b)
    erase := none, pulses := 0, erased := false } } b

theorem exec_eflEraseDone_of_erased {s : State} {b : Nat} (herase : s.efl.erase = some b) (herasing : s.eflErasing = true)
    (hdone : s.efl.erased = true) (hpower : s.efl.brownout = false) : exec .eflEraseDone s =
      .next ((if s.efl.eraseBy = 3 then (s.erasedBlock b).flag Reg.eflStatus 11
        else s.erasedBlock b).eflGo.armSave).loadPoll.downCheck := by
  have hend : s.eraseDone =
      (if s.efl.eraseBy = 3 then (s.erasedBlock b).flag Reg.eflStatus 11 else s.erasedBlock b).eflGo.armSave := by
    have hgo : (s.eflErasing && s.efl.erased && !s.efl.brownout) = true := by rw [herasing, hdone, hpower]; rfl
    rw [State.eraseDone, herase]
    exact if_pos hgo
  change Host.Outcome.next s.eraseDone.loadPoll.downCheck = _
  rw [hend]

/-! ### Brown-outs -/

theorem exec_aonBrownout_of_idle {s : State} (hpower : s.efl.brownout = false) (hprog : s.efl.prog = none)
    (herasing : s.eflErasing = false) : exec .aonBrownout s =
      .next (State.flagRecord { s with efl := { s.efl with brownout := true } } Reg.eflStatus 13 0x1102 0 0) := by
  change execAonBrownout s = _
  rw [execAonBrownout, if_neg (by simp [hpower])]
  simp only [hprog, herasing, Option.isSome_none, Bool.false_and, Bool.or_false, Bool.or_self, Bool.false_eq_true, if_false]

theorem exec_aonBrownoutClear_of_idle {s : State} (hpower : s.efl.brownout = true) (hsusp : s.eflSuspended = false) :
    exec .aonBrownoutClear s = .next (State.eflGo { s with efl := { s.efl with brownout := false } }).downCheck := by
  have hsusp' : State.eflSuspended { s with efl := { s.efl with brownout := false } } = false := hsusp
  have hend : s.brownoutEnd = State.eflGo { s with efl := { s.efl with brownout := false } } := by
    rw [State.brownoutEnd, if_neg (by simp [hpower])]
    dsimp only
    rw [hsusp', Bool.false_and, Bool.false_and, Bool.false_and, if_neg Bool.false_ne_true]
  change Host.Outcome.next s.brownoutEnd.downCheck = _
  rw [hend]

/-! ### The recorder -/

theorem exec_evrRecordWrite_of_head {s t : State} {r x : EvRec} {rest : List EvRec} (hqueue : s.evr.queue = r :: rest)
    (hpower : s.efl.brownout = false) (hx : x = { r with lost := r.lost || s.evr.lostPending })
    (hwrite : State.recWrite { s with evr := { s.evr with queue := rest, lostPending := false } } x = some t) :
    exec .evrRecordWrite s = .next (t.lostNote.recDeliver s.evrNextRn x) := by
  subst hx
  change execEvrRecordWrite s = _
  simp only [execEvrRecordWrite, hqueue, hpower, Bool.false_eq_true, if_false, hwrite]

theorem exec_eventNotice_of_gathered {s : State} {n : Fin 4} {q : EvQueue} {x : Qp} (hget : s.evq.get? n = some q)
    (hsome : q.gathered ≠ []) (hqp : s.qp? q.qpn = some x) (hstate : x.state = .established) :
    let now := q.gathered.take 127
    let recs := s.evr.recs.filter fun e => now.contains e.1
    exec (.eventNotice n) s = .next (State.noticeSend
      { s with evq := s.evq.set n { q with gathered := q.gathered.drop 127 } }
        q.qpn 0x0080 ([maxOf now + 1, recs.length] ++ recs.flatMap fun e => recWords e.2)) := by
  have hnow : (q.gathered.take 127).isEmpty = false := by
    rw [List.isEmpty_eq_false_iff, ne_eq, List.take_eq_nil_iff]
    simpa using hsome
  change execEventNotice n s = _
  simp only [execEventNotice, hget, hqp, hnow, hstate, beq_self_eq_true, Bool.false_eq_true, if_false, if_true]

end Sys2Proof.Machine

namespace Sys2Proof.Proofs

open Sys2Proof Sys2Proof.Machine

/-- Settles O57: the command sequence of the EFL, its programs and erases, brown-outs and the recorder, each by the lemmas on
it. -/
theorem configFlashAndEvents : Obligations.ConfigFlashAndEvents := by
  refine ⟨fun s hready hlock => ?_, fun s hseq => ?_,
    fun s addr data hawake hgated hregs hseq hprog herase hjobs => ?_,
    fun s addr hawake hgated hregs hseq hprog herase hjobs => ?_,
    fun s b herase hready hseq => ⟨exec_eflSuspend_of_erasing hready hseq, fun hsusp hprog hpower => ?_⟩,
    fun s p hprog hpower => ⟨exec_eflProgramDone_of_queued hprog hpower, State.eflWord_eflPut s p.addr p.data⟩,
    fun s herasing hpower v => ?_, fun s b herase herasing hdone hpower => exec_eflEraseDone_of_erased herase herasing hdone hpower,
    fun s hscan => ?_, fun s hpower hprog herasing => exec_aonBrownout_of_idle hpower hprog herasing,
    fun s hpower hsusp => exec_aonBrownoutClear_of_idle hpower hsusp, fun s w hready hseq => ?_,
    fun s r rest hqueue hpower => ?_,
    fun s n q x hget hsome hqp hstate => exec_eventNotice_of_gathered hget hsome hqp hstate⟩
  · obtain ⟨hfirst, hsecond, hwrong⟩ := State.eflUnlockWrite_keys hlock
    have hexec := fun w : Word => State.writeAccess_eflUnlock (s := s) w.toNat hready
    refine ⟨fun hseq => ?_, fun hseq => ?_, fun hseq w hw => ?_⟩
    · exact congrArg Host.Outcome.next ((hexec 0xAA55).trans (hfirst hseq))
    · exact congrArg Host.Outcome.next ((hexec 0x55AA).trans (hsecond hseq))
    · exact congrArg Host.Outcome.next ((hexec w).trans ((w32_toNat w).symm ▸ hwrong hseq w.toNat hw))
  · change execUnlockDeadline s = _
    simp only [execUnlockDeadline, hseq]
  · intro a hok
    exact yields_eflProgram ⟨hawake, hgated, hregs⟩ hseq (State.eflBusy_of_idle hprog herase hjobs) hok
  · intro b hfree
    exact exec_eflErase_of_allowed ⟨hawake, hgated, hregs⟩ hseq (State.eflBusy_of_idle hprog herase hjobs) herase hfree
  · obtain ⟨hresume, hauto⟩ := exec_eflResume_of_suspended hsusp hprog hpower
    exact ⟨hresume hready hseq, hauto⟩
  · exact congrArg Host.Outcome.next (if_pos (by rw [herasing, hpower]; rfl))
  · exact congrArg Host.Outcome.next (if_neg (by rw [hscan]; exact Bool.false_ne_true))
  · exact congrArg Host.Outcome.next ((State.writeAccess_evrSubmit3 w.toNat hready).trans (by rw [w32_toNat]))
  · intro x t hwrite
    exact exec_evrRecordWrite_of_head hqueue hpower rfl hwrite

end Sys2Proof.Proofs
end

section
/-! SUPPORT. Rails, the warm reset, Quiet, the PSB controller and chip errors, by command, for the statement on them
(R600–R628, R636–R659). -/

namespace Sys2Proof.Machine

/-! ### Rails and the power sequence -/

/-- A tended rail that is good and qualified keeps its state at a visit. -/
theorem exec_railVisit_of_good {s : State} {n : Fin 32} {v : BitVec 12} {pg : Bool} (hpresent : s.railPresent n = true)
    (hinput : s.railInput n = false) (hstate : (s.rail n).state = .qualified) (hup : s.poweringDown = false)
    (hgood : s.railGood n v.toNat pg = true) :
    exec (.railVisit n v pg 0) s = .next (s.modRail n fun r => { r with reading := v.toNat, pg := pg }) := by
  let t := s.modRail n fun r => { r with reading := v.toNat, pg := pg }
  have hrail : (t.rail n).state = .qualified := by
    have hread : t.rail n = { s.rail n with reading := v.toNat, pg := pg } := by
      simp only [t, State.rail, State.modRail, Tbl.getD, Tbl.upd, Tbl.get?_set, if_true, Option.getD_some]
    rw [hread]
    exact hstate
  have hpower : t.poweringDown = false := hup
  have hin : t.railInput n = false := hinput
  have hok : t.railGood n v.toNat pg = true := hgood
  have hlive : t.visitLive n v.toNat true 0 = t := by
    have hfew : ¬ ((t.sequencing n && decide (4 < 0)) = true) := by simp
    rw [State.visitLive, if_neg hfew, hrail]
    rfl
  have hjudge : t.visitJudge n v.toNat pg 0 = t := by
    simp only [State.visitJudge, hrail, hpower, hin, hok, hlive, Bool.false_eq_true, if_false]
  exact congrArg Host.Outcome.next ((if_pos hpresent).trans hjudge)

theorem exec_qualTimeout_of_ramping {s : State} {n : Fin 32} (hstate : (s.rail n).state = .ramping)
    (hup : s.poweringDown = false) : exec (.qualTimeout n) s = .next (s.railFault n 5 1) := by
  change execQualTimeout n s = _
  simp only [execQualTimeout, hstate, hup, Bool.false_eq_true, if_false]

theorem exec_railRetryExpiry_of_waiting {s : State} {n : Fin 32} (hstate : (s.rail n).state = .retryWait)
    (hup : s.poweringDown = false) : exec (.railRetryExpiry n) s = .next (((s.modRail n fun r =>
      { r with state := .ramping, good := 0, retries := r.retries + 1 }).railDrive n true).count (Reg.pwsCount + 4)) := by
  change execRailRetryExpiry n s = _
  simp only [execRailRetryExpiry, hstate, hup, Bool.false_eq_true, if_false]

theorem exec_groupDelayExpiry_of_turn {s : State} {g : Fin 8} (hseq : s.pws.seq = .powerUp) (hdelay : s.pws.groupDelay = true)
    (hgroup : s.pws.group = g.val) (hdone : ((List.range g).all fun k => s.pws.complete.contains k) = true) :
    exec (.groupDelayExpiry g) s = .next (s.enableGroup g) := by
  have hup : s.poweringUp = true := by
    rw [State.poweringUp, hseq]
  exact congrArg Host.Outcome.next (if_pos (by rw [hup, hdelay, hgroup, hdone, beq_self_eq_true]; rfl))

theorem exec_dischargeTimeout_of_discharging {s : State} {n : Fin 32} (hstate : (s.rail n).state = .discharging) :
    exec (.dischargeTimeout n) s =
      .next (((((s.modRail n fun r => { r with state := .timedOut }).railLog 3 n 6).count (Reg.pwsCount + 0xC)).flagRecord
        Reg.pwsEvent 4 0x1303 n 0).downCheck) := by
  change execDischargeTimeout n s = _
  simp only [execDischargeTimeout, hstate]

theorem exec_pwrOkInRise_of_off {s : State} (hlow : s.pws.pwrOk = false) (hseq : s.pws.seq = .off)
    (hnew : s.pws.restartPending = false) :
    exec .pwrOkInRise s = .next (State.powerUp { s with pws := { s.pws with pwrOk := true, restarts := 0 } }) := by
  change execPwrOkInRise s = _
  simp only [execPwrOkInRise, hlow, hseq, hnew, Bool.false_eq_true, if_false]

theorem exec_restartHoldExpiry_of_good {s : State} (hseq : s.pws.seq = .hold) (hok : s.pws.pwrOk = true)
    (hcause : s.pws.down = .other) : exec .restartHoldExpiry s = .next s.coldReset.powerUp := by
  change execRestartHoldExpiry s = _
  simp only [execRestartHoldExpiry, hseq, hok, hcause, if_true, Bool.false_eq_true, if_false]

/-! ### Firmware's writes of the registers of this statement -/

/-- A value that agrees with a register in its RW and RWL bits leaves the register as it is. -/
theorem State.merged_of_agree (s : State) (off : Nat) {d : RegDesc} {v : Word} (h : d.w1s = 0 ∧ d.w1c = 0)
    (hsame : ∀ i, i < 32 → (d.rw ||| d.rwl).testBit i = true → Word.bit v i = s.bit off i) :
    s.merged off d v true = s.reg off := by
  obtain ⟨hset, hclear⟩ := h
  refine BitVec.eq_of_getLsbD_eq fun i hi => ?_
  refine (State.bit_merged s off d v true hi).trans ?_
  rw [hset, hclear, Nat.zero_testBit, Bool.and_false, Bool.false_and, Bool.or_false, Bool.not_false, Bool.and_true,
    Bool.true_or, Bool.and_true]
  split
  · next hw =>
    refine hsame i hi ?_
    rw [Nat.testBit_or]
    simp only [Bool.or_eq_true, Bool.and_eq_true] at hw ⊢
    exact hw.imp id And.left
  · rfl

/-- A put of the value that a register shows at reset does what the register does, and stores nothing. -/
theorem State.putReg_of_reset {s : State} {off : Nat} (v : Word) (hreset : s.regs.get? off = none)
    (hsame : storedVal off (s.reg off) (s.reg off) = s.reg off) (hrej : s.rejects off (s.reg off) = false) :
    s.putReg off (s.reg off) v = s.writeFx off (s.reg off) (s.reg off) v := by
  simp only [State.putReg, hsame, hrej, Bool.false_eq_true, if_false, State.setReg_same hreset]

/-- Firmware's UP, where group 0 is complete, starts group 1 (R602, R619). -/
theorem exec_pwsCtlUp_of_complete {s : State} (h : s.cmdReady Reg.pwsCtl) (hseq : s.pws.seq = .powerUp)
    (hgroup : s.pws.group = 0) (hdone : s.pws.complete.contains 0 = true) :
    exec (.pwsCtlUp .firmware) s = .next { s with pws := { s.pws with group := 1, groupDelay := true } } := by
  obtain ⟨hawake, hgate, hreset⟩ := h
  have hserves : s.serves .firmware Reg.pwsCtl { off := Reg.pwsCtl, rst := 0x1, rw := 0x1, wo := 0x2 } :=
    State.serves_firmware rfl hawake hgate (by decide)
  have hreg : s.reg Reg.pwsCtl = w32 1 := by
    rw [State.reg, hreset]
    rfl
  have hval : w32 (Word.withFld (s.reg Reg.pwsCtl) 1 1 1).toNat = w32 3 := by
    rw [hreg]
    rfl
  have hbits : ∀ i, i < 32 → ((0x1 : Nat) ||| 0).testBit i = true → Word.bit (w32 3) i = Word.bit (w32 1) i := by decide
  have hmerged : s.merged Reg.pwsCtl { off := Reg.pwsCtl, rst := 0x1, rw := 0x1, wo := 0x2 } (w32 3) true =
      s.reg Reg.pwsCtl :=
    State.merged_of_agree s _ ⟨rfl, rfl⟩ fun i hi hrw => (hbits i hi hrw).trans (by rw [State.bit, hreg])
  have hfx : ∀ old new : Word, s.writeFx Reg.pwsCtl old new (w32 3) = s.pwsUp := fun _ _ => rfl
  have hup : s.poweringUp = true := by
    rw [State.poweringUp, hseq]
  change execPwsCtlUp .firmware s = _
  rw [execPwsCtlUp, State.writeAccess_of_serves _ hserves (.inl rfl), hval,
    State.writeReg_plain _ _ _ _ rfl ⟨by decide, by decide⟩, show pathFw .firmware = true from rfl, hmerged,
    State.putReg_of_reset _ hreset rfl rfl, hfx]
  exact congrArg Host.Outcome.next (if_pos (by rw [hup, hgroup, hdone]; rfl))

theorem State.writeAccess_islQuietCmd {s : State} (v : Nat) (h : s.cmdReady Reg.islQuietCmd) :
    s.writeAccess .firmware Reg.islQuietCmd 4 v =
      if Word.bit (w32 v) 1 then State.wakeFor (if Word.bit (w32 v) 0 then s.quietEnter else s) .wake
      else if Word.bit (w32 v) 0 then s.quietEnter else s := by
  have hfx : ∀ old new val : Word, s.writeFx Reg.islQuietCmd old new val =
      if Word.bit val 1 then State.wakeFor (if Word.bit val 0 then s.quietEnter else s) .wake
      else if Word.bit val 0 then s.quietEnter else s := fun _ _ _ => rfl
  rw [State.writeAccess_cmdReady (d := { off := Reg.islQuietCmd, wo := 0x3 }) v h rfl (by decide) rfl
    ⟨by decide, by decide⟩ ⟨rfl, rfl, rfl, rfl⟩ rfl rfl, hfx]

theorem State.writeAccess_twbPsbCmd {s : State} (v : Nat) (h : s.cmdReady Reg.twbPsbCmd) :
    s.writeAccess .firmware Reg.twbPsbCmd 4 v = s.psbGo (w32 v) := by
  have hfx : ∀ old new val : Word, s.writeFx Reg.twbPsbCmd old new val = s.psbGo val := fun _ _ _ => rfl
  rw [State.writeAccess_cmdReady (d := { off := Reg.twbPsbCmd, wo := 0xFFFFFFFC }) v h rfl (by decide) rfl
    ⟨by decide, by decide⟩ ⟨rfl, rfl, rfl, rfl⟩ rfl rfl, hfx]

/-- Firmware reaches a register of an island that runs whatever the Quiet state: no access of its own wakes the chip. -/
theorem State.barWake_firmware (s : State) : s.barWake .firmware = (s, false) := by
  unfold State.barWake
  cases s.isl.quiet <;> rfl

/-! ### Quiet (R612–R617) -/

theorem exec_quietEnter_firmware {s : State} (h : s.cmdReady Reg.islQuietCmd) :
    (s.bit Reg.islCtl 0 = true → s.quietOk = true →
      exec (.quietEnter .firmware) s = .next { s with isl := { s.isl with quiet := .entering } }) ∧
    (s.quietOk = false → exec (.quietEnter .firmware) s = .next (s.flag Reg.islEvent 2)) := by
  have hwrite : s.writeAccess .firmware Reg.islQuietCmd 4 1 = s.quietEnter := State.writeAccess_islQuietCmd 1 h
  have henter : s.quietEnter =
      if s.bit Reg.islCtl 0 && s.quietOk then { s with isl := { s.isl with quiet := .entering } }
      else s.flag Reg.islEvent 2 := by
    simp only [State.quietEnter, h.1]
  have hexec : exec (.quietEnter .firmware) s = .next s.quietEnter := congrArg Host.Outcome.next hwrite
  rw [hexec, henter]
  refine ⟨fun hen hok => congrArg Host.Outcome.next (if_pos (by rw [hen, hok]; rfl)),
    fun hno => congrArg Host.Outcome.next (if_neg (by rw [hno, Bool.and_false]; exact Bool.false_ne_true))⟩

/-- Firmware's WAKE in Quiet wakes the chip (R616, R626). -/
theorem exec_quietWake_firmware {s : State} (hgate : s.gated (islandOf Reg.islQuietCmd) = false)
    (hreset : s.regs.get? Reg.islQuietCmd = none) : exec (.quietWake .firmware) s = .next (s.wakeFor .wake) := by
  let d : RegDesc := { off := Reg.islQuietCmd, wo := 0x3 }
  have hdesc : descAt Reg.islQuietCmd = some d := rfl
  have hmerged : s.merged Reg.islQuietCmd d (w32 2) true = s.reg Reg.islQuietCmd :=
    State.merged_of_unstored _ _ _ _ ⟨rfl, rfl, rfl, rfl⟩
  have hfx : ∀ old new : Word, s.writeFx Reg.islQuietCmd old new (w32 2) = s.wakeFor .wake := fun _ _ => rfl
  have hput : s.writeReg (pathKey .firmware) Reg.islQuietCmd d (w32 2) true = s.wakeFor .wake := by
    rw [State.writeReg_plain _ _ _ _ rfl ⟨by decide, by decide⟩, hmerged, State.putReg_of_reset _ hreset rfl rfl, hfx]
  have habs : s.absent Reg.islQuietCmd = false := by
    simp only [State.absent, Bool.and_eq_false_iff, decide_eq_false_iff_not]
    exact .inl (.inr (by decide))
  have hwrite : s.write4 .firmware Reg.islQuietCmd (w32 2) = (s.wakeFor .wake, false) := by
    have hreach : ¬ (s.reaches .firmware Reg.islQuietCmd = false) := Bool.noConfusion
    have hpath : pathFw .firmware = true := rfl
    simp only [State.write4, if_neg hreach, habs, hdesc, State.barWake_firmware, hgate, hpath, Bool.false_eq_true, if_false,
      Bool.false_and, Bool.not_true, Bool.and_false, hput]
  exact congrArg Host.Outcome.next ((State.writeAccess_four 2 rfl (goodAccess_of_descAt hdesc)).trans (congrArg Prod.fst hwrite))

theorem State.wakeFor_of_quiet {s : State} (h : s.isl.quiet = .quiet) (c : WakeCause) :
    s.wakeFor c =
      (State.setReg { s with isl := { s.isl with quiet := .waking } } Reg.islWakeCause 0).setBit Reg.islWakeCause (wakeBit c)
        true := by
  simp only [State.wakeFor, h]

theorem yields_wakeTrigger_of_quiet {s : State} (h : s.isl.quiet = .quiet) (c : WakeCause) :
    Yields (.wakeTrigger c) s fun t => t.isl.quiet = .waking ∧ t.mem = s.mem :=
  ⟨_, congrArg Host.Outcome.next (State.wakeFor_of_quiet h c), rfl, rfl⟩

theorem exec_wakeComplete_of_ungated {s : State} {us : Nat} (hwake : s.isl.quiet = .waking) (hus : us ≤ 500)
    (hgated : s.isl.gated = []) : exec (.wakeComplete us) s =
      .next (State.settle (State.signWaiting (State.setReg { s with isl := { s.isl with quiet := .awake } }
        Reg.islWakeTime (w32 us)))) := by
  have hleft : s.isl.gated.contains 2 = false := by
    rw [hgated]
    rfl
  have hmin : min us (2 ^ 16 - 1) = us := min_eq_left (by omega)
  have hshort : ¬ 500 < us := by omega
  change execWakeComplete us s = _
  simp only [execWakeComplete, hwake, hleft, hmin, Bool.false_eq_true, if_false, if_neg hshort]

/-! ### The warm reset (R609, R611) -/

theorem exec_resetNAssert_of_long {s : State} {ns : Nat} (hlong : 1000 ≤ ns) (hheard : s.resetIgnored = false)
    (hawake : s.isl.quiet = .awake) :
    exec (.resetNAssert ns) s = .next { s with noAdmit := true, isl := { s.isl with warm := 1, warmFw := false } } := by
  have hnone := hheard
  simp only [State.resetIgnored, Bool.or_eq_false_iff, bne_eq_false_iff_eq] at hnone
  obtain ⟨⟨⟨hsage, -⟩, hwarm⟩, -⟩ := hnone
  have hheld : ¬ (ns < 1000 ∨ s.resetIgnored = true) := by
    rintro (h | h)
    · omega
    · exact Bool.false_ne_true (hheard.symm.trans h)
  have hidle : ¬ (s.isl.warm ≠ 0 ∨ s.elg.sage.isSome = true) := by
    rintro (h | h)
    · exact h hwarm
    · exact Bool.false_ne_true (hsage.symm.trans h)
  have hwoken : s.wakeFor .resetN = s := by
    simp only [State.wakeFor, hawake]
  refine congrArg Host.Outcome.next ((if_neg (by simpa using hheld)).trans ?_)
  rw [hwoken]
  exact if_neg hidle

theorem exec_warmResetDrainEnd_of_drained {s : State} (hwarm : s.isl.warm ≠ 0) (hhand : s.handing = false)
    (hmedia : s.mediaRuns = false) (hawake : s.isl.quiet = .awake) :
    exec .warmResetDrainEnd s = .next s.warmReset := by
  have hup : s.awake = true := by
    rw [State.awake, hawake]
  exact congrArg Host.Outcome.next (if_neg (by simp [hwarm, hhand, hmedia, hup]))

/-! ### The PSB controller (R636–R641) -/

theorem exec_psbGo_of_free {s : State} {v : Word} (h : s.cmdReady Reg.twbPsbCmd) (hpsb : s.twb.psb = .none)
    (hfree : s.twb.fwWait = false) (hgo : Word.bit v 31 = true) : exec (.psbGo .firmware v) s =
      .next (State.psbNext { s.setReg Reg.twbPsbCmd v with twb := { s.twb with fwWait := true } }) := by
  have hwrite : s.writeAccess .firmware Reg.twbPsbCmd 4 v.toNat = s.psbGo v :=
    (State.writeAccess_twbPsbCmd v.toNat h).trans (by rw [w32_toNat])
  refine congrArg Host.Outcome.next (hwrite.trans ?_)
  simp only [State.psbGo, hpsb, hfree, hgo, Bool.or_false, Bool.not_true, Bool.false_eq_true, if_false]

theorem State.psbIdle_of_firmware {s : State} (h : s.twb.psb = .firmware) : s.psbIdle = false := by
  rw [State.psbIdle, h]

theorem exec_psbTransactionDone_of_firmware {s : State} (h : s.twb.psb = .firmware) (d : List Byte) :
    exec (.psbTransactionDone (.ok d) false) s =
      .next ((State.psbFirmware { s with twb := { s.twb with psb := .none } } (.ok d)).psbNext) := by
  have hbusy : ¬ (s.psbIdle = true) := by
    rw [State.psbIdle_of_firmware h]
    exact Bool.false_ne_true
  have hend : s.psbEnd (.ok d) =
      (State.psbFirmware { s with twb := { s.twb with psb := .none } } (.ok d)).psbNext := by
    have honce : ¬ (s.psbAgain (.ok d) = true) := Bool.false_ne_true
    rw [State.psbEnd, if_neg hbusy, if_neg honce, State.psbFinal, h]
    rfl
  exact congrArg Host.Outcome.next ((if_neg hbusy).trans hend)

theorem exec_psbClkLowTimeout_of_tries {s : State} (h : s.twb.psb = .firmware) (htries : s.twb.tries < s.psbRetries) :
    let t := (s.countBy (Reg.twbPsbCount + 4) 1).flag Reg.twbPsbEvent 2
    exec (.psbClkLowTimeout .high) s = .next (State.psbDrive { t with twb := { t.twb with tries := s.twb.tries + 1 } }) := by
  have hbusy : ¬ (s.psbIdle = true) := by
    rw [State.psbIdle_of_firmware h]
    exact Bool.false_ne_true
  have hagain : s.psbAgain .clkLowTo = true := by
    rw [State.psbAgain, decide_eq_true htries]
    rfl
  have hend : s.psbEnd .clkLowTo = _ := (if_neg hbusy).trans (if_pos hagain)
  exact congrArg Host.Outcome.next ((if_neg hbusy).trans hend)

/-- A write of TWB_CTL that gives it the value that it has at reset does nothing. -/
theorem State.writeAccess_twbCtl_same {s : State} (h : s.cmdReady Reg.twbCtl) :
    s.writeAccess .firmware Reg.twbCtl 4 (Word.withFld (s.reg Reg.twbCtl) 2 2 0).toNat = s := by
  let d : RegDesc := { off := Reg.twbCtl, rst := 0x2A, rw := 0x39, rwl := 0x2, wo := 0x4 }
  obtain ⟨hawake, hgate, hreset⟩ := h
  have hserves : s.serves .firmware Reg.twbCtl d := State.serves_firmware rfl hawake hgate (by decide)
  have hreg : s.reg Reg.twbCtl = w32 0x2A := by
    rw [State.reg, hreset]
    rfl
  have hval : w32 (Word.withFld (s.reg Reg.twbCtl) 2 2 0).toNat = w32 0x2A := by
    rw [hreg]
    rfl
  have hmerged : s.merged Reg.twbCtl d (w32 0x2A) true = s.reg Reg.twbCtl :=
    State.merged_of_agree s _ ⟨rfl, rfl⟩ fun i _ _ => by rw [State.bit, hreg]
  have hfx : s.writeFx Reg.twbCtl (w32 0x2A) (w32 0x2A) (w32 0x2A) = s := rfl
  rw [State.writeAccess_of_serves _ hserves (.inl rfl), hval, State.writeReg_plain _ _ _ _ rfl ⟨by decide, by decide⟩,
    show pathFw .firmware = true from rfl, hmerged, State.putReg_of_reset _ hreset rfl rfl, hreg, hfx]

/-- A reset of the PSB controller with nothing of the ledger's leaves it idle (R641). -/
theorem State.psbReset_of_free {s : State} (hwait : s.twb.elgWait = []) (hfree : s.twb.fwWait = false)
    (hpsb : s.twb.psb = .none ∨ s.twb.psb = .firmware) :
    s.psbReset 0 0 = { s with twb := { s.twb with psb := .none, elgWait := [], tries := 0, stuck := [] } } := by
  have hdone : ∀ t : State, t.twb.psb = .none → t.twb.elgWait = [] → t.twb.fwWait = false → t.psbNext = t := by
    intro t _ hw hf
    unfold State.psbNext
    split
    · rfl
    · rw [hw, hf]
      rfl
  have hnone : (List.range 4).filter (Nat.testBit 0) = [] := rfl
  rw [State.psbReset, hnone, List.foldl_nil, List.foldl_nil]
  obtain h | h := hpsb <;> rw [h, hwait] <;> exact hdone _ rfl rfl hfree

theorem yields_psbReset_of_free {s : State} (h : s.cmdReady Reg.twbCtl) (hwait : s.twb.elgWait = [])
    (hfree : s.twb.fwWait = false) (hpsb : s.twb.psb = .none ∨ s.twb.psb = .firmware) :
    Yields (.psbReset .firmware 0 0) s fun t => t.twb.psb = .none ∧ t.twb.elgWait = [] ∧ t.twb.fwWait = false ∧
      t.twb.stuck = [] ∧ t.mem = s.mem := by
  have hexec : exec (.psbReset .firmware 0 0) s = .next (s.psbReset 0 0) :=
    congrArg (fun t : State => Host.Outcome.next (t.psbReset 0 0)) (State.writeAccess_twbCtl_same h)
  exact ⟨_, hexec.trans (congrArg Host.Outcome.next (State.psbReset_of_free hwait hfree hpsb)), rfl, rfl, hfree, rfl, rfl⟩

/-! ### Chip errors (R650–R661) -/

/-- A mesh error's replays are counted up to 3; what is lost with it is dealt with by where it came from. -/
theorem exec_meshParityError_counts (s : State) (link n : Nat) (hlow : 1 ≤ n) (hhigh : n ≤ 3) (l : Option MeshSource) :
    exec (.meshParityError link n true l) s = .next ((s.countBy Reg.glbMeshReplay n).err1 0 .retried) := by
  have hn : max 1 (min 3 n) = n := by omega
  change execMeshParityError link n true l s = _
  simp only [execMeshParityError, if_true, hn]

theorem exec_meshLinkDegraded_of_new {s : State} {link : Nat} (h : s.err.meshDown.contains link = false) :
    exec (.meshLinkDegraded link) s = .next ((State.flag
      { s with err := { s.err with meshDown := s.err.meshDown ++ [link] } } Reg.glbErrEvent 2).err1 0 .degraded) :=
  congrArg Host.Outcome.next (if_neg (by rw [h]; exact Bool.false_ne_true))

/-- An uncorrectable region descriptor is fetched again from the peer, or takes its region OFFLINE (R654). -/
theorem exec_sramDescriptorError_descriptor (s : State) (r : Fin 4096) :
    let t := s.flag Reg.glbErrEvent 3
    (t.paired = false → exec (.sramDescriptorError (.descriptor r)) s = .next (((t.err1 0 .contained).regionState r
      .offline).notePhase.settle)) ∧
    (t.paired = true → exec (.sramDescriptorError (.descriptor r)) s = .next ((State.err1 { t with err := { t.err with
      descFetch := insertNew t.err.descFetch r } } 0 .retried).post (.control [.fetch r]))) :=
  ⟨fun h => congrArg Host.Outcome.next (if_neg (by rw [h]; exact Bool.false_ne_true)),
    fun h => congrArg Host.Outcome.next (if_pos h)⟩

theorem exec_sramDescriptorError_mapLine {s : State} {line : Nat} {l : TmcLine} (hget : s.plc.tmc.get? line = some l)
    (hclean : l.dirty = false) : exec (.sramDescriptorError (.mapLine line)) s =
      .next (State.err1 { s with plc := { s.plc with tmc := s.plc.tmc.erase line } } 8 .retried) := by
  have hbad : s.mapLineBad line =
      State.err1 { s with plc := { s.plc with tmc := s.plc.tmc.erase line } } 8 .retried := by
    simp only [State.mapLineBad, hget, hclean, Bool.false_eq_true, if_false]
  exact congrArg Host.Outcome.next hbad

theorem exec_sramDescriptorError_qpContext {s : State} {qpn : Nat} {q : Qp} (h : s.qp? qpn = some q) :
    exec (.sramDescriptorError (.qpContext qpn)) s = .next ((s.qpEnter qpn .error).err1 6 .contained).settle := by
  change execSramDescriptorError (.qpContext qpn) s = _
  simp only [execSramDescriptorError, h]

end Sys2Proof.Machine

namespace Sys2Proof.Proofs

open Sys2Proof Sys2Proof.Machine

/-- Settles O58: rails, resets, Quiet, the PSB controller and chip errors, each by the lemma on its command. -/
theorem powerResetQuietPsbAndErrors : Obligations.PowerResetQuietPsbAndErrors := by
  refine ⟨fun s hlow hseq hnew => exec_pwrOkInRise_of_off hlow hseq hnew,
    fun s n v pg hpresent hinput hstate hup hgood => exec_railVisit_of_good hpresent hinput hstate hup hgood,
    fun s n hstate hup _ => exec_qualTimeout_of_ramping hstate hup,
    fun s n hstate hup => exec_railRetryExpiry_of_waiting hstate hup, fun s n hstate => ?_,
    fun s g hseq hdelay hgroup hdone => exec_groupDelayExpiry_of_turn hseq hdelay hgroup hdone,
    fun s h hseq hgroup hdone => exec_pwsCtlUp_of_complete h hseq hgroup hdone,
    fun s => ⟨rfl, fun hok => congrArg Host.Outcome.next (if_pos hok)⟩,
    fun s n hstate => exec_dischargeTimeout_of_discharging hstate,
    fun s hseq hok hcause => exec_restartHoldExpiry_of_good hseq hok hcause, fun s a => rfl,
    fun s ns hlong hheard hawake => exec_resetNAssert_of_long hlong hheard hawake,
    fun s hwarm => ⟨fun hhand hmedia hawake => exec_warmResetDrainEnd_of_drained hwarm hhand hmedia hawake,
      congrArg Host.Outcome.next (if_neg hwarm)⟩,
    fun s h => exec_quietEnter_firmware h, fun s _ hgate hreset => exec_quietWake_firmware hgate hreset,
    fun s c h => yields_wakeTrigger_of_quiet h c,
    fun s us hwake hus hgated => exec_wakeComplete_of_ungated hwake hus hgated,
    fun s v h hpsb hfree hgo => exec_psbGo_of_free h hpsb hfree hgo,
    fun s h d => exec_psbTransactionDone_of_firmware h d, fun s h htries => exec_psbClkLowTimeout_of_tries h htries,
    fun s p h => ?_, fun s h hwait hfree hpsb => yields_psbReset_of_free h hwait hfree hpsb,
    fun s link n m hlow hhigh => ?_, fun s link h => exec_meshLinkDegraded_of_new h, fun s e => ⟨rfl, rfl⟩,
    fun s r => exec_sramDescriptorError_descriptor s r,
    fun s b => ⟨rfl, rfl, fun line l hget hclean => exec_sramDescriptorError_mapLine hget hclean,
      fun qpn q h => exec_sramDescriptorError_qpContext h⟩, fun s => ⟨rfl, rfl⟩⟩
  · change execRetryCountReset n s = _
    simp only [execRetryCountReset, hstate]
  · exact congrArg Host.Outcome.next ((if_neg (by rw [h]; exact Bool.noConfusion)).trans (if_pos rfl))
  · intro u
    refine ⟨fun l => exec_meshParityError_counts s link n hlow hhigh l, rfl, ?_, ?_⟩
    · rintro tile line rfl
      rfl
    · rintro tile slice rfl
      rfl

end Sys2Proof.Proofs
end
